-- ==== Sys2Proof/Word.lean ====
section
/-! DEFINITION. The words of the part and the bit fields of its registers. -/

namespace Sys2Proof

/-- A register: every register is 32 bits wide (00_scope.md, "Register descriptions"). -/
abbrev Word := BitVec 32

/-- One byte of device memory. -/
abbrev Byte := BitVec 8

/-- A field of a register: the register's address in register space (R23) and the inclusive bit range `[hi:lo]` (R3). -/
structure Field where
  addr : Nat
  hi : Nat
  lo : Nat
  deriving DecidableEq, Repr

end Sys2Proof
end

