-- ==== Sys2Proof/Syntax.lean ====
section
/-! DEFINITION. The commands the block takes: one constructor per row of spec/opcode_table.json, in the table's order. A
command is one indivisible step of the part (95_what_each_step_holds.md). Unit numbers are those of 01_two_hierarchies.md;
an operand `v` is the way a register write came in; `at_` and `start` are instants; a word `w` is the word written, `be` its byte
enables, `hi` the upper word of a 64-bit access with its own (R10); `ahead` is how many further words the engine decodes (R53). -/

namespace Sys2Proof

/-- The way a register access comes in (R5, R6, R23, R373, R397, R422): the host's system view BAR0 and user view BAR4, the
management serial port, the two supervisors, and DMA channels acting in the system or the user domain. -/
inductive View where
  | bar0 | bar4 | msp | svn | svs | dmaSys | dmaUser
  deriving DecidableEq, Repr

/-- The 64-bit register pairs whose high word a read of the low word latches (R52, R95, R314, R323). -/
inductive Pair64 where
  | rc
  | rdvRel (k : Fin 32)
  | firstFault
  | vidx (t : Fin 64)
  | tdcLast (t : Fin 64)
  | tdcMean (t : Fin 64)
  | adcSum (t : Fin 64)
  | calLast (r : Fin 8)
  deriving DecidableEq, Repr

/-- An APG address generator (R96). -/
inductive Gen where
  | x | y
  deriving DecidableEq, Repr

/-- The guarded APG registers (R109). -/
inductive ApgReg where
  | ctrl | x | y | d | xmax | ymax | index (n : Fin 4) | bg (n : Fin 4) | dxm | dym | tsel
  deriving DecidableEq, Repr

/-- Where a comparator's input stands when a mode change or a self-check ends (R187): above its band, inside it, below it. -/
inductive CmpInput where
  | above | inside | below
  deriving DecidableEq, Repr

/-- How a DMA transfer fails (R376): a host completion with UR or CA status, a completion that does not come, a context write that
is discarded. -/
inductive TransferError where
  | status | timeout | context
  deriving DecidableEq, Repr

/-- A unit with a current limit (R182, R270). -/
inductive LimitUnit where
  | driver (g : Fin 512)
  | supply (t : Fin 64) (h : Fin 2)
  deriving DecidableEq, Repr

/-- Operands of an ALU micro-op: the ALU slot of the microword (R234). -/
structure AluOps where
  dst : Fin 32
  srca : Fin 32
  srcb : Fin 32
  bimm : Bool
  imm : BitVec 32
  deriving DecidableEq, Repr

/-- Operands of a memory micro-op: the MEM slot (R234). -/
structure MemOps where
  buf : Fin 16
  ma : Fin 32
  md : Fin 32
  moff : BitVec 16
  deriving DecidableEq, Repr

/-- Operands of a context micro-op: the CTX slot (R234). -/
structure CtxOps where
  coff : Fin 64
  creg : Fin 32
  cw : Fin 4
  deriving DecidableEq, Repr

/-- Operands of an input, scratch or output micro-op: the IO slot (R234). -/
structure IoOps where
  id : Fin 32
  ia : Fin 32
  iimm : BitVec 16
  deriving DecidableEq, Repr

/-- Where CS# rose (R425): between words, inside a word, inside the command or address. -/
inductive MspCut where
  | clean | inWord | inHeader
  deriving DecidableEq, Repr

/-- A slave transaction of the management port (R422 to R426): the SPI mode taken, the command byte's RD, CNT and N, the address,
the words written whole or the number of words clocked out whole, where CS# rose, and whether no word was ready after 16 wait
bytes. -/
structure MspTrans where
  mode3 : Bool
  read : Bool
  cnt : Bool
  n : Fin 64
  addr : BitVec 24
  words : List Word
  clocked : Nat
  cut : MspCut
  tmo : Bool
  deriving DecidableEq, Repr

/-- What a write access carries (R10): a word with its byte enables, and a second one when it is of 64 bits. -/
structure WriteData where
  word : Word
  be : BitVec 4
  hi : Option (Word × BitVec 4)
  deriving DecidableEq, Repr

/-- A tiller whose next vector is due, and how many words it then decodes ahead (R53). -/
structure IssueTurn where
  tiller : Fin 64
  ahead : Fin 17
  deriving DecidableEq, Repr

/-- A posted write of a thresher, by its place among those under way, oldest first (R241). -/
structure PostedTurn where
  thresher : Fin 32
  place : Fin 16
  deriving DecidableEq, Repr

/-- A command. -/
inductive Instr where
  /-- REG_WRITE (R5): A register write to a register with no row of its own sets each field under its access code. -/
  | regWrite (v : View) (addr : Nat) (w : WriteData)
  /-- BLK_RST_PIN (R19): GL_BLK_RST GO with SCOPE pin requests a reset of one pin sub-block, refused with RST_BUSY if its tiller runs. -/
  | blkRstPin (v : View) (index : BitVec 9)
  /-- BLK_RST_TILLER (R19): GL_BLK_RST GO with SCOPE tiller stops the tiller, sends its outputs safe, flushes its fails and marks its contexts stale. -/
  | blkRstTiller (v : View) (index : BitVec 9)
  /-- BLK_RST_SHEAF (R19): GL_BLK_RST GO with SCOPE sheaf resets two threshers and clears the context slice, refused while a tiller of the sheaf runs. -/
  | blkRstSheaf (v : View) (index : BitVec 9)
  /-- BLK_RST_STRIP (R19): GL_BLK_RST GO with SCOPE strip resets eight tillers, their pins, strip thermal, sequencing and event segment. -/
  | blkRstStrip (v : View) (index : BitVec 9)
  /-- BLK_RST_CHIP (R447): GL_BLK_RST GO with SCOPE chip requests a chip reset with the rails up. -/
  | blkRstChip (v : View) (index : BitVec 9)
  /-- BLOCK_RESET_DONE (R20): A block reset completes after its scope's time, and any held pending request then starts. -/
  | blockResetDone
  /-- SYNC_FRAME (R29): A 128-bit SYNC frame is received whole and judged good or bad, driving lock, loss and relock. -/
  | syncFrame (start : Nat) (frame : BitVec 128)
  /-- RELOCK_DEFERRED (R31): Once every tiller is IDLE, HALTED or FAULTED, a part held in LOST by COUNT_CONFLICT relocks by the rule. -/
  | relockDeferred
  /-- SYNC_NOP (R33): A NOP command word has no effect and is not counted. -/
  | syncNop (c : BitVec 48) (arg : BitVec 16)
  /-- START_AT (R34): A START_AT command is checked and held in a pending slot for its target count. -/
  | startAt (c : BitVec 48) (group : Fin 16) (s7 : Bool) (fine : Fin 128) (arg : BitVec 16)
  /-- HALT_AT (R34): A HALT_AT command is checked and held in a pending slot for its target count. -/
  | haltAt (c : BitVec 48) (group : Fin 16) (s7 : Bool) (fine : Fin 128) (arg : BitVec 16)
  /-- CLEAR_LATE (R34): A CLEAR_LATE command is checked and held in a pending slot for its target count. -/
  | clearLate (c : BitVec 48) (group : Fin 16) (s7 : Bool) (fine : Fin 128) (arg : BitVec 16)
  /-- CAL_HOLD (R37): A CAL_HOLD command sets or releases calibration holds of the masked strips from C + 128. -/
  | calHold (c : BitVec 48) (group : Fin 16) (mask : BitVec 8) (arg : BitVec 16)
  /-- START_AT_DUE (R34): At count N the armed tillers of the group start at their entry segment and their arm bits clear. -/
  | startAtDue (group : Fin 16) (n : BitVec 48)
  /-- HALT_AT_DUE (R34): At count N the running tillers of the group stop as by STOP with HALTED_EXT. -/
  | haltAtDue (group : Fin 16) (n : BitVec 48)
  /-- CLEAR_LATE_DUE (R34): At count N the LATE bits of the group's tillers clear. -/
  | clearLateDue (group : Fin 16) (n : BitVec 48)
  /-- CAL_HOLD_EXPIRE (R37): A strip's calibration hold ends when its 128·ARG ticks have passed. -/
  | calHoldExpire (r : Fin 8)
  /-- SYNC_EN_WRITE (R30): A write of GL_SYNC_CTRL.EN enters LOCAL on 0 or HUNT on a change from 0 to 1. -/
  | syncEnWrite (v : View) (en : Bool)
  /-- TRIM_WRITE (R43): A write of GL_SYNC_TRIM.TRIM moves the tick boundary, clamping above 320 and setting CLAMP. -/
  | trimWrite (v : View) (trim : BitVec 9)
  /-- RC_LO_READ (R52): A read of a low word of a 64-bit pair latches its high word for 1 µs. -/
  | rcLoRead (pair : Pair64)
  /-- RC_HI_READ (R52): A read of a high word returns the latched value within 1 µs and frees the latch. -/
  | rcHiRead (pair : Pair64)
  /-- HI_LATCH_EXPIRE (R52): A high-word latch is freed 1 µs after its low read. -/
  | hiLatchExpire (pair : Pair64)
  /-- RDV_REPORT (R46): The leader accepts or discards an RDV_REPORT message and sends RDV_RELEASE when every part is complete. -/
  | rdvReport (k : Fin 32) (x : Fin 16) (y : Fin 16) (epoch : Fin 256) (first complete : Bool) (arrivals : Fin 256) (stamp : BitVec 48)
  /-- RDV_RELEASE (R49): A part accepts or discards an RDV_RELEASE message, releasing at once if it arrives late. -/
  | rdvRelease (k : Fin 32) (x : Fin 16) (y : Fin 16) (epoch : Fin 256) (timeout : Bool) (r : BitVec 48)
  /-- RDV_RELEASE_DUE (R46): At count R the parked members of the epoch are released and the epoch advances. -/
  | rdvReleaseDue (k : Fin 32)
  /-- RDV_TIMEOUT (R48): At T_first + TMO an incomplete epoch makes the leader send a TIMEOUT release and record missing parts. -/
  | rdvTimeout (k : Fin 32)
  /-- VECTOR_ISSUE (R58): At a period end the next vector is checked and issues its level change, pin actions, compares, EVO and APG update. -/
  | vectorIssue (t : IssueTurn)
  /-- NOP (R67): The NOP opcode continues with the next vector. -/
  | vNop (t : Fin 64)
  /-- REPEAT (R69): REPEAT n issues its vector n times back to back. -/
  | vRepeat (t : Fin 64) (w : Word)
  /-- LOOP (R70): LOOP k, n loads counter k and the loop start and sets open bit k. -/
  | vLoop (t : Fin 64) (w : Word)
  /-- ENDLOOP (R70): ENDLOOP k loops back while counter k is nonzero, else falls through and clears open bit k. -/
  | vEndloop (t : Fin 64) (w : Word)
  /-- JUMP (R72): JUMP continues at the target index. -/
  | vJump (t : Fin 64) (w : Word)
  /-- CALL (R72): CALL pushes a stack entry with segment state and continues at the target. -/
  | vCall (t : Fin 64) (w : Word)
  /-- RET (R72): RET pops the top stack entry and restores its index and segment state. -/
  | vRet (t : Fin 64)
  /-- HALT (R76): HALT issues in full and the tiller enters HALTED with its halt code. -/
  | vHalt (t : Fin 64) (w : Word)
  /-- CLRS (R77): CLRS clears the sticky bits of the pins in its mask. -/
  | vClrs (t : Fin 64) (w : Word)
  /-- CMASK (R77): CMASK loads the compare mask from this vector's compares onward. -/
  | vCmask (t : Fin 64) (w : Word)
  /-- PAUSE (R77): PAUSE issues its vector and parks the tiller until RESUME. -/
  | vPause (t : Fin 64)
  /-- TMARK (R77): TMARK writes a trace entry with its operand. -/
  | vTmark (t : Fin 64) (w : Word)
  /-- JFAIL (R82): JFAIL transfers to its target when its condition is true. -/
  | vJfail (t : Fin 64) (w : Word) (cnd : BitVec 8)
  /-- JPASS (R82): JPASS transfers to its target when its condition is false. -/
  | vJpass (t : Fin 64) (w : Word) (cnd : BitVec 8)
  /-- JEVT (R83): JEVT transfers when event input latch SEL is set and clears it. -/
  | vJevt (t : Fin 64) (w : Word) (cnd : BitVec 8)
  /-- MATCH (R84): MATCH n reissues its vector until no pin of mask SEL fails or n+1 issues expire. -/
  | vMatch (t : Fin 64) (w : Word) (cnd : BitVec 8)
  /-- CFAIL (R82): CFAIL calls its target when its condition is true. -/
  | vCfail (t : Fin 64) (w : Word) (cnd : BitVec 8)
  /-- CPASS (R82): CPASS calls its target when its condition is false. -/
  | vCpass (t : Fin 64) (w : Word) (cnd : BitVec 8)
  /-- WAITRC (R39): WAITRC parks the tiller until count W, or proceeds and sets LATE if W is past. -/
  | vWaitrc (t : Fin 64) (w : Word)
  /-- WAITRC_WAKE (R123): A parked WAITRC tiller issues its next vector at count W. -/
  | waitrcWake (t : Fin 64)
  /-- RDV (R44): RDV k parks a member tiller, stamps its arrival and sends reports, or halts a non-member. -/
  | vRdv (t : Fin 64) (w : Word)
  /-- CALGAP (R125): CALGAP declares a gap of LEN ticks after its period end. -/
  | vCalgap (t : Fin 64) (w : Word)
  /-- GAP_START (R125): At tick G of a gap a pending switch is taken and calibration may use the tiller's pins. -/
  | gapStart (t : Fin 64)
  /-- GAP_END (R159): At tick G + LEN a gap ends and the next vector issues or the gap segment's link is taken. -/
  | gapEnd (t : Fin 64)
  /-- SEG (R143): SEG transfers to the entry of segment n, pushing a stack entry when CALL is set. -/
  | vSeg (t : Fin 64) (w : Word)
  /-- STREAM (R154): STREAM requests a prime of streamed segment n 8 cycles after issue. -/
  | vStream (t : Fin 64) (w : Word)
  /-- SETX (R102): SETX loads X, or XMAX with X reduced, for the next issue. -/
  | vSetx (t : Fin 64) (w : Word)
  /-- SETY (R102): SETY loads Y, or YMAX with Y reduced, for the next issue. -/
  | vSety (t : Fin 64) (w : Word)
  /-- SETD (R102): SETD loads the APG data for the next issue. -/
  | vSetd (t : Fin 64) (w : Word)
  /-- SETI (R102): SETI loads index register I[n]. -/
  | vSeti (t : Fin 64) (w : Word)
  /-- LVLQ (R112): LVLQ queues one change word in the level queue. -/
  | vLvlq (t : Fin 64) (w : Word)
  /-- MEAS (R120): MEAS sends a burst trigger of COUNT conversions to the tiller ADC. -/
  | vMeas (t : Fin 64) (w : Word)
  /-- TDCARM (R121): TDCARM arms the tiller TDC for N pairs, or is ignored if already armed. -/
  | vTdcarm (t : Fin 64) (w : Word)
  /-- EVW (R130): EVW consumes a set event latch or parks until it sets or the timeout expires. -/
  | vEvw (t : Fin 64) (w : Word) (cnd : BitVec 8)
  /-- EVW_WAKE (R130): The awaited latch sets and the parked EVW tiller issues its next vector. -/
  | evwWake (t : Fin 64) (at_ : Nat)
  /-- EVW_TIMEOUT (R130): An EVW timeout expires and the tiller continues at the timeout target. -/
  | evwTimeout (t : Fin 64)
  /-- EVS (R131): EVS fires an event-router channel owned by the tiller's program domain, or faults with EVS_OWNER. -/
  | vEvs (t : Fin 64) (w : Word)
  /-- ADDR_HOLD (R99): Address operation HOLD reduces the generator value modulo M + 1. -/
  | addrHold (t : Fin 64) (gen : Gen)
  /-- ADDR_INC (R99): Address operation INC steps the generator up with carry at M. -/
  | addrInc (t : Fin 64) (gen : Gen) (chain : Bool)
  /-- ADDR_DEC (R99): Address operation DEC steps the generator down with carry at 0. -/
  | addrDec (t : Fin 64) (gen : Gen) (chain : Bool)
  /-- ADDR_COMP (R99): Address operation COMP sets the generator to M − A. -/
  | addrComp (t : Fin 64) (gen : Gen)
  /-- ADDR_LDI (R99): Address operation LDI loads I[n] reduced modulo M + 1. -/
  | addrLdi (t : Fin 64) (gen : Gen) (n : Fin 4)
  /-- ADDR_ADDI (R99): Address operation ADDI adds I[n] modulo M + 1 with carry. -/
  | addrAddi (t : Fin 64) (gen : Gen) (n : Fin 4) (chain : Bool)
  /-- ADDR_SAVI (R99): Address operation SAVI writes the reduced value to the generator and I[n]. -/
  | addrSavi (t : Fin 64) (gen : Gen) (n : Fin 4)
  /-- ADDR_ZERO (R99): Address operation ZERO sets the generator to 0. -/
  | addrZero (t : Fin 64) (gen : Gen)
  /-- DATA_HOLD (R104): Data operation HOLD keeps D. -/
  | dataHold (t : Fin 64)
  /-- DATA_INV (R104): Data operation INV inverts D. -/
  | dataInv (t : Fin 64)
  /-- DATA_BG (R104): Data operation BGn loads background B[n]. -/
  | dataBg (t : Fin 64) (n : Fin 4)
  /-- DATA_BGI (R104): Data operation BGIn loads the inverse of B[n]. -/
  | dataBgi (t : Fin 64) (n : Fin 4)
  /-- DATA_CKB (R104): Data operation CKBn forms a checkerboard of B[n] from the new address. -/
  | dataCkb (t : Fin 64) (n : Fin 4)
  /-- DATA_ADRB (R104): Data operation ADRBn inverts B[n] by the masked address parity. -/
  | dataAdrb (t : Fin 64) (n : Fin 4)
  /-- DATA_XORB (R104): Data operation XORBn XORs D with B[n]. -/
  | dataXorb (t : Fin 64) (n : Fin 4)
  /-- DATA_ROL (R104): Data operation ROL rotates D left by one bit. -/
  | dataRol (t : Fin 64)
  /-- DATA_ROR (R104): Data operation ROR rotates D right by one bit. -/
  | dataRor (t : Fin 64)
  /-- DATA_ADDR (R104): Data operation ADDR loads D from the physical address. -/
  | dataAddr (t : Fin 64)
  /-- COMPARE_RESOLVE (R80): A compare resolves 40 ns after its last strobe, ending any conditional wait it holds. -/
  | compareResolve (t : Fin 64)
  /-- TL_RUN (R90): A write of TL_SEQ_CTRL.RUN starts the tiller at its entry segment or is refused. -/
  | tlRun (v : View) (t : Fin 64)
  /-- TL_STOP (R92): A write of TL_SEQ_CTRL.STOP stops the tiller at the next vector boundary with HALTED_EXT. -/
  | tlStop (v : View) (t : Fin 64)
  /-- TL_RESUME (R77): A write of TL_SEQ_CTRL.RESUME ends a PAUSE park. -/
  | tlResume (v : View) (t : Fin 64)
  /-- TRACE_RD_WRITE (R93): A write of TL_TRACE_RD snapshots the selected trace entry into TL_TRACE_W0 to W3. -/
  | traceRdWrite (v : View) (t : Fin 64) (entry : Fin 256)
  /-- APG_WRITE (R109): A host write to an APG register takes effect unless the tiller runs, in which case WR_BUSY sets. -/
  | apgWrite (v : View) (t : Fin 64) (reg : ApgReg) (w : Word)
  /-- LEVEL_APPLY (R116): A queued level-change entry is applied at its instant and writes a done-log word. -/
  | levelApply (t : Fin 64)
  /-- LVL_DONE_READ (R119): A read of TL_LVL_DONE pops one done-log word, or repeats the last and sets UNDERRUN. -/
  | lvlDoneRead (t : Fin 64)
  /-- EVENT_INPUT_SET (R127): A local source or direct neighbour wire sets a tiller event input latch 2 cycles after it fires. -/
  | eventInputSet (t : Fin 64) (input : Fin 8)
  /-- EVIN_FIRE (R128): A write of TL_EVIN.FIRE sets the chosen event input latches. -/
  | evinFire (v : View) (t : Fin 64) (mask : BitVec 8)
  /-- RESULT_READ (R137): A read of TL_RESULT returns the result and clears VALID after its first read. -/
  | resultRead (t : Fin 64)
  /-- PRIME (R154): A write of TL_SEG_CTRL.PRIME starts the fetch of a streamed segment's first pass, or is ignored or refused. -/
  | prime (v : View) (t : Fin 64) (seg : Fin 256)
  /-- SEG_BREAK (R141): A write of TL_SEG_CTRL.BREAK makes a break pending for a REPEAT = 0 segment. -/
  | segBreak (v : View) (t : Fin 64)
  /-- SEG_CHECK (R148): A write of TL_SEG_CHECK with GO checks a descriptor without running it. -/
  | segCheck (v : View) (t : Fin 64) (seg : Fin 256)
  /-- SEG_CHECK_DONE (R148): A descriptor check completes within 1 µs and RESULT is set. -/
  | segCheckDone (t : Fin 64)
  /-- STREAM_LINE_ARRIVE (R152): A 64-byte stream line arrives from DRAM into the stream buffer, poisoned if uncorrectable. -/
  | streamLineArrive (t : Fin 64)
  /-- STALL_RESUME (R155): A stalled tiller issues the due vector 16 cycles after the buffer refills enough. -/
  | stallResume (t : Fin 64)
  /-- TABLE_WRITE (R25): A write to a tiller or strip table takes effect for the next access to that entry. -/
  | tableWrite (v : View) (addr : Nat) (w : WriteData)
  /-- TIMING_SET_WRITE (R167): A write to a timing-set word is checked and stored or refused with a reason. -/
  | timingSetWrite (v : View) (t : Fin 64) (set : Fin 64) (offset : Fin 512) (w : Word)
  /-- PN_CTRL_WRITE (R186): A write of PN_CTRL applies driver, clamp, comparator mode and guarded SELFTEST settings. -/
  | pnCtrlWrite (v : View) (g : Fin 512) (w : Word)
  /-- CMP_MODE_SETTLED (R186): A comparator mode change settles within 1 µs and MODE_SETTLING clears. -/
  | cmpModeSettled (g : Fin 512) (hi lo : CmpInput)
  /-- LEVEL_REG_WRITE (R179): A write of a pin level code is applied within 200 ns, with clamp writes checked. -/
  | levelRegWrite (v : View) (g : Fin 512) (level : Fin 8) (code : BitVec 16)
  /-- PPMU_CTRL_WRITE (R191): A write of PN_PPMU_CTRL changes the PPMU mode or makes a make-before-break range change. -/
  | ppmuCtrlWrite (v : View) (g : Fin 512) (w : Word)
  /-- DRIVER_ILIM (R182): A driver in current limit for over 200 ns sets ILIM and may raise the pin's error line. -/
  | driverIlim (g : Fin 512)
  /-- COMPARATOR_CROSSING (R188): A comparator output change sets HI_SEEN or LO_SEEN and feeds the WATCH summary. -/
  | comparatorCrossing (g : Fin 512) (high above : Bool) (at_ : Nat)
  /-- SAMPLE_DELIVER (R198): A complete sample is delivered in index order to the fail FIFO, capture buffer, triggers and mask test. -/
  | sampleDeliver (t : Fin 64)
  /-- XBAR_TAKE (R230): The crossbar moves a fail FIFO entry into a thresher input FIFO with room. -/
  | xbarTake (t : Fin 64)
  /-- FQ_FLUSH (R209): A write of TL_FQ_CTRL.FLUSH requests a flush at the next packet end, or at once if the tiller is not running. -/
  | fqFlush (v : View) (t : Fin 64)
  /-- FQ_DEST_WRITE (R211): A write that changes TL_FQ_CTRL.DEST takes effect at the next packet end or at once. -/
  | fqDestWrite (v : View) (t : Fin 64) (host : Bool)
  /-- FQ_READ (R213): A read of TL_FQ_RD0 pops the oldest entry into the holding register. -/
  | fqRead (t : Fin 64)
  /-- CAP_ARM (R216): A write of TL_CAP_CTRL.ARM clears and arms the capture unit. -/
  | capArm (v : View) (t : Fin 64)
  /-- CAP_ABORT (R218): A write of TL_CAP_CTRL.ABORT ends the acquisition with END_WHY ABORT. -/
  | capAbort (v : View) (t : Fin 64)
  /-- CAP_READ (R219): A read of TL_CAP_RD0 pops a capture entry, re-arming with AUTO when drained. -/
  | capRead (t : Fin 64)
  /-- TH_DISPATCH (R233): A record at the input FIFO head is dispatched to its entry routine. -/
  | thDispatch (i : Fin 32)
  /-- NEXT (R235): Micro-op NEXT continues at the next control-store index. -/
  | uNext (i : Fin 32)
  /-- BR (R235): Micro-op BR goes to TARGET. -/
  | uBr (i : Fin 32) (target : BitVec 14)
  /-- BRC (R236): Micro-op BRC goes to TARGET if COND is true. -/
  | uBrc (i : Fin 32) (cond : Fin 64) (buf : Fin 16) (target : BitVec 14)
  /-- BRNC (R236): Micro-op BRNC goes to TARGET if COND is false. -/
  | uBrnc (i : Fin 32) (cond : Fin 64) (buf : Fin 16) (target : BitVec 14)
  /-- CALLU (R235): Micro-op CALLU makes a micro call, faulting at depth 4. -/
  | uCallu (i : Fin 32) (target : BitVec 14)
  /-- RETU (R235): Micro-op RETU returns from a micro call, faulting at depth 0. -/
  | uRetu (i : Fin 32)
  /-- COMMIT (R238): COMMIT n waits for posted-write room, writes the shadow, applies the cursor, pops the record and enters POST. -/
  | uCommit (i : Fin 32) (n : Fin 32)
  /-- COMMITK (R238): COMMITK n commits as COMMIT but keeps the record at the head. -/
  | uCommitk (i : Fin 32) (n : Fin 32)
  /-- END (R233): Micro-op END ends the routine, releasing the lock and reservations and taking any held interrupt. -/
  | uEnd (i : Fin 32)
  /-- FENCE (R243): Micro-op FENCE waits until every request of the thresher has completed. -/
  | uFence (i : Fin 32)
  /-- WAITL (R235): Micro-op WAITL waits until line buffer b is filled. -/
  | uWaitl (i : Fin 32) (b : Fin 16)
  /-- STOPU (R265): Micro-op STOPU stops the thresher with fault UC_STOP. -/
  | uStopu (i : Fin 32)
  /-- ALU_NOP (R235): ALU micro-op NOP does nothing. -/
  | aluNop (i : Fin 32)
  /-- MOV (R235): ALU micro-op MOV copies an operand to a register. -/
  | aluMov (i : Fin 32) (o : AluOps)
  /-- ADD (R235): ALU micro-op ADD adds two operands. -/
  | aluAdd (i : Fin 32) (o : AluOps)
  /-- SUB (R235): ALU micro-op SUB subtracts two operands. -/
  | aluSub (i : Fin 32) (o : AluOps)
  /-- AND (R235): ALU micro-op AND combines two operands bitwise. -/
  | aluAnd (i : Fin 32) (o : AluOps)
  /-- OR (R235): ALU micro-op OR combines two operands bitwise. -/
  | aluOr (i : Fin 32) (o : AluOps)
  /-- XOR (R235): ALU micro-op XOR combines two operands bitwise. -/
  | aluXor (i : Fin 32) (o : AluOps)
  /-- SHL (R235): ALU micro-op SHL shifts left. -/
  | aluShl (i : Fin 32) (o : AluOps)
  /-- SHR (R235): ALU micro-op SHR shifts right. -/
  | aluShr (i : Fin 32) (o : AluOps)
  /-- EXT (R235): ALU micro-op EXT extracts a bit field. -/
  | aluExt (i : Fin 32) (o : AluOps)
  /-- INS (R235): ALU micro-op INS inserts a bit field. -/
  | aluIns (i : Fin 32) (o : AluOps)
  /-- POPC (R235): ALU micro-op POPC counts set bits. -/
  | aluPopc (i : Fin 32) (o : AluOps)
  /-- CTZ (R235): ALU micro-op CTZ counts trailing zeros, 32 for zero. -/
  | aluCtz (i : Fin 32) (o : AluOps)
  /-- MIN (R235): ALU micro-op MIN takes the smaller operand. -/
  | aluMin (i : Fin 32) (o : AluOps)
  /-- MAX (R235): ALU micro-op MAX takes the larger operand. -/
  | aluMax (i : Fin 32) (o : AluOps)
  /-- CMP (R235): ALU micro-op CMP sets the flags only. -/
  | aluCmp (i : Fin 32) (o : AluOps)
  /-- LDL (R241): Micro-op LDL issues a DRAM line read into a line buffer. -/
  | mLdl (i : Fin 32) (o : MemOps)
  /-- STL (R238): Micro-op STL posts a line buffer write to DRAM after commit. -/
  | mStl (i : Fin 32) (o : MemOps)
  /-- LDW (R235): Micro-op LDW moves a buffer word to a register. -/
  | mLdw (i : Fin 32) (o : MemOps)
  /-- STW (R235): Micro-op STW moves a register to a buffer word. -/
  | mStw (i : Fin 32) (o : MemOps)
  /-- BSET (R235): Micro-op BSET sets a bit of a line buffer. -/
  | mBset (i : Fin 32) (o : MemOps)
  /-- LDCTX (R247): Micro-op LDCTX locks a context and copies it to the shadow, initialising or faulting on a key mismatch. -/
  | mLdctx (i : Fin 32) (o : CtxOps)
  /-- CRD (R235): Micro-op CRD reads bytes of the shadow context. -/
  | mCrd (i : Fin 32) (o : CtxOps)
  /-- CWR (R235): Micro-op CWR writes bytes of the shadow context before commit. -/
  | mCwr (i : Fin 32) (o : CtxOps)
  /-- CFIND (R235): Micro-op CFIND returns a mask of matching shadow halfwords. -/
  | mCfind (i : Fin 32) (o : CtxOps)
  /-- CINCS (R235): Micro-op CINCS saturating-increments a shadow byte. -/
  | mCincs (i : Fin 32) (o : CtxOps)
  /-- CTSB (R235): Micro-op CTSB tests and sets a bit of a shadow field. -/
  | mCtsb (i : Fin 32) (o : CtxOps)
  /-- CZERO (R235): Micro-op CZERO zeroes shadow bytes 3 to 63. -/
  | mCzero (i : Fin 32)
  /-- INRD (R235): Micro-op INRD reads a word or the tag of the head record. -/
  | mInrd (i : Fin 32) (o : IoOps)
  /-- SRD (R235): Micro-op SRD reads a scratch word. -/
  | mSrd (i : Fin 32) (o : IoOps)
  /-- SWR (R235): Micro-op SWR writes a scratch word. -/
  | mSwr (i : Fin 32) (o : IoOps)
  /-- RSV (R262): Micro-op RSV reserves ring entries, waiting for space. -/
  | mRsv (i : Fin 32) (o : IoOps)
  /-- RPUT (R235): Micro-op RPUT writes a word of a ring-entry buffer. -/
  | mRput (i : Fin 32) (o : IoOps)
  /-- RPOST (R238): Micro-op RPOST posts a reserved ring entry after commit. -/
  | mRpost (i : Fin 32) (o : IoOps)
  /-- NOTE (R243): Micro-op NOTE posts a notice to the HMQ once earlier writes are visible. -/
  | mNote (i : Fin 32) (o : IoOps)
  /-- CURW (R235): Micro-op CURW writes the cursor, applied at commit. -/
  | mCurw (i : Fin 32) (o : IoOps)
  /-- CURR (R235): Micro-op CURR reads the committed cursor. -/
  | mCurr (i : Fin 32) (o : IoOps)
  /-- STAT (R255): Micro-op STAT reads a thresher value chosen by IIMM. -/
  | mStat (i : Fin 32) (o : IoOps)
  /-- TH_READ_COMPLETE (R244): A thresher DRAM read completes and fills its line buffer, or is discarded as an orphan. -/
  | thReadComplete (i : Fin 32) (b : Fin 16)
  /-- TH_WRITE_COMPLETE (R243): A posted thresher write completes and becomes visible, advancing ring HEAD. -/
  | thWriteComplete (w : PostedTurn)
  /-- TH_RUN (R240): A write of TH_CTRL.RUN = 1 starts dispatching. -/
  | thRun (v : View) (i : Fin 32)
  /-- TH_STOP (R240): A write of TH_CTRL.RUN = 0 abandons a pre-commit routine or stops at END. -/
  | thStop (v : View) (i : Fin 32)
  /-- TH_RESTART (R265): A write of TH_CTRL.RESTART clears FAULTED and dispatches the head record again. -/
  | thRestart (v : View) (i : Fin 32)
  /-- TH_CMD_SOLVE (R255): TH_CMD GO with CMD SOLVE enqueues a command to solve every valid context of tiller q. -/
  | thCmdSolve (v : View) (i : Fin 32) (q : Fin 4)
  /-- TH_CMD_CLEAR (R255): TH_CMD GO with CMD CLEAR enqueues a command to zero tiller q's contexts. -/
  | thCmdClear (v : View) (i : Fin 32) (q : Fin 4)
  /-- XBAR_ROUTE_WRITE (R231): A write of SH_XBAR_ROUTE moves tillers between threshers at their next packet boundary. -/
  | xbarRouteWrite (v : View) (s : Fin 16) (w : Word)
  /-- UCS_LOAD_EN (R252): A write of SH_UCS_CTRL.LOAD_EN enters control-store load mode or is refused. -/
  | ucsLoadEn (v : View) (s : Fin 16) (en : Bool)
  /-- UCS_DATA_WRITE (R252): A write of SH_UCS_DATA7 stores a microword and increments ADDR. -/
  | ucsDataWrite (v : View) (s : Fin 16) (k : Fin 8) (w : Word)
  /-- UCS_FINISH (R252): A write of SH_UCS_FINISH GO stores version and hash and leaves load mode. -/
  | ucsFinish (v : View) (s : Fin 16) (w : Word)
  /-- UCRD_ADDR_WRITE (R254): A write of SH_UCRD_ADDR presents a control-store word in D0 to D7. -/
  | ucrdAddrWrite (v : View) (s : Fin 16) (w : Word)
  /-- UCRD_D7_READ (R254): A read of SH_UCRD_D7 advances the read address by 1. -/
  | ucrdD7Read (s : Fin 16)
  /-- SUPPLY_ENABLE (R269): A write of EN = 1 to a VDUT or HV output requests admission through the strip sequencer. -/
  | supplyEnable (v : View) (t : Fin 64) (h : Fin 2)
  /-- ENABLE_ADMIT (R443): The strip sequencer admits a waiting enable and the output turns on. -/
  | enableAdmit (t : Fin 64) (h : Fin 2)
  /-- SUPPLY_DISABLE (R269): A write of EN = 0 opens the pass stage and closes the discharge switch. -/
  | supplyDisable (v : View) (t : Fin 64) (h : Fin 2) (microamps : Nat)
  /-- SUPPLY_CLEAR (R285): A write of CLEAR after the hold-off returns a LOCKOUT output to OFF. -/
  | supplyClear (v : View) (t : Fin 64) (h : Fin 2)
  /-- SUPPLY_RANGE_CHANGE (R271): A VDUT range write starts a make-before-break range change or applies at once when disabled. -/
  | supplyRangeChange (v : View) (t : Fin 64) (range : Fin 4) (microamps : Nat)
  /-- RANGE_HANDOVER (R271): Two µs into a range change regulation hands over to the new stage. -/
  | rangeHandover (t : Fin 64)
  /-- RANGE_OLD_DISCONNECT (R271): Five µs into a range change the old stage disconnects and RNG_PEND clears. -/
  | rangeOldDisconnect (t : Fin 64) (microamps : Nat)
  /-- SETTLE_WINDOW_END (R271): Twenty µs after a range change the SETTLE window ends. -/
  | settleWindowEnd (t : Fin 64)
  /-- HV_SPAN_WRITE (R277): A write of TL_HV_CTRL.SPAN changes the span and reloads CODE, or is ignored while enabled. -/
  | hvSpanWrite (v : View) (t : Fin 64) (bipolar : Bool)
  /-- SUPPLY_CODE_WRITE (R267): A write of an output CODE enters the setpoint chain. -/
  | supplyCodeWrite (v : View) (t : Fin 64) (h : Fin 2) (code : Fin 262144)
  /-- ENERGY_LIMIT_WRITE (R281): A write of CEXT or ECEIL recomputes the permitted codes and clamps the output at once. -/
  | energyLimitWrite (v : View) (t : Fin 64) (h : Fin 2) (ceiling : Bool) (w : Word)
  /-- CURRENT_LIMIT_ENTER (R270): An output enters current limit and an episode is counted. -/
  | currentLimitEnter (t : Fin 64) (h : Fin 2)
  /-- ILIM_TRIP (R270): An output in limit for TIME µs faults with ILIM_TRIP. -/
  | ilimTrip (t : Fin 64) (h : Fin 2)
  /-- SLEW_STEP (R292): Every RATE ticks the slew limiter steps its output toward the target. -/
  | slewStep (t : Fin 64) (h : Fin 2)
  /-- WF_GO (R287): A write of WF_CTRL.GO starts or arms the waveform player, or refuses it. -/
  | wfGo (v : View) (t : Fin 64) (h : Fin 2)
  /-- WF_STOP (R293): A write of WF_CTRL.STOP returns the deviation to 0 at the next sample boundary. -/
  | wfStop (v : View) (t : Fin 64) (h : Fin 2)
  /-- WF_SAMPLE (R288): At each sample boundary the player forms its deviation and the setpoint chain runs. -/
  | wfSample (t : Fin 64) (h : Fin 2)
  /-- CROWBAR_TRIP (R284): A contact-loss or arc detector trips and the crowbar diverts the stored energy. -/
  | crowbarTrip (t : Fin 64) (h : Fin 2) (arc : Bool)
  /-- CROWBAR_OPEN (R284): Two µs after onset the crowbar opens and the output enters LOCKOUT with fault CROWBAR. -/
  | crowbarOpen (t : Fin 64) (h : Fin 2)
  /-- CROWBAR_HOLDOFF_END (R284): One hundred µs after onset the hold-off ends and CLEAR is accepted. -/
  | crowbarHoldoffEnd (t : Fin 64) (h : Fin 2)
  /-- SUPERVISION_READ (R294): A supervision conversion checks an output against its window, faulting after CNT violations. -/
  | supervisionRead (t : Fin 64) (h : Fin 2) (code : Int) (tags : Unit)
  /-- SENSE_OPEN (R273): A force-sense difference above 300 mV for 10 µs moves regulation to internal sense. -/
  | senseOpen (t : Fin 64)
  /-- DROPOUT (R275): VRAW headroom below 200 mV sets DROPOUT. -/
  | dropout (t : Fin 64)
  /-- ADC_TRIG (R305): A write of TL_ADC_CTRL.TRIG triggers a burst, held if one runs. -/
  | adcTrig (v : View) (t : Fin 64)
  /-- ADC_TRIGGER (R120): A MEAS trigger reaches the ADC 8 cycles after issue and starts or is held. -/
  | adcTrigger (t : Fin 64)
  /-- ADC_ABORT (R316): A write of TL_ADC_CTRL.ABORT ends the burst and publishes what was gathered. -/
  | adcAbort (v : View) (t : Fin 64)
  /-- ADC_CONVERSION_START (R306): A burst conversion starts at its instant, delayed away from supervision and calibration starts. -/
  | adcConversionStart (t : Fin 64) (at_ : Nat)
  /-- ADC_HELD_BURST_BEGIN (R307): A held trigger begins its burst 25 ticks after the running burst's last conversion. -/
  | adcHeldBurstBegin (t : Fin 64)
  /-- ADC_RESULT (R308): A conversion result is ready and tagged, and the last one publishes the burst. -/
  | adcResult (t : Fin 64) (raw : Int) (overRange : Bool)
  /-- REF_READY (R310): Two ms after the reference buffer turns on REF_READY sets. -/
  | refReady (t : Fin 64)
  /-- ADC_SLICE_EXCHANGE (R311): Every 1 ms the calibrated spare slice replaces an active slice. -/
  | adcSliceExchange (t : Fin 64)
  /-- ADC_RES_READ (R314): A read of TL_ADC_RES_LO latches the high word and consumes VALID. -/
  | adcResRead (t : Fin 64)
  /-- TDC_ARM (R318): A write of TL_TDC_CTRL.ARM or a TDCARM clears the TDC and enters ARMED. -/
  | tdcArm (v : View) (t : Fin 64)
  /-- TDC_ABORT (R322): A write of TL_TDC_CTRL.ABORT ends the acquisition and publishes its statistics. -/
  | tdcAbort (v : View) (t : Fin 64)
  /-- TDC_START_EDGE (R319): A start edge in ARMED begins a pair. -/
  | tdcStartEdge (t : Fin 64) (at_ : Nat)
  /-- TDC_STOP_EDGE (R320): A stop edge after the hold-off ends a pair with its interval. -/
  | tdcStopEdge (t : Fin 64) (at_ : Nat)
  /-- TDC_NOSTOP_TIMEOUT (R321): A pair without a stop after TMO ticks ends NOSTOP. -/
  | tdcNostopTimeout (t : Fin 64)
  /-- TDC_NOSTART_TIMEOUT (R321): No start within TMO ticks ends the acquisition NOSTART. -/
  | tdcNostartTimeout (t : Fin 64)
  /-- TDC_OVF (R321): A pair whose coarse count reaches 2^32 grains ends OVF. -/
  | tdcOvf (t : Fin 64)
  /-- TDC_RESULT_READ (R323): A read of TL_TDC_RESULT consumes VALID. -/
  | tdcResultRead (t : Fin 64)
  /-- SENSOR_SAMPLE (R327): Every 1 ms the sensors convert and the checks, strip temperature, band and rate of rise update. -/
  | sensorSample (readings : List Int)
  /-- SHUTDOWN_RAILS_OFF (R351): One hundred µs into a shutdown REG_EN falls and ALIVE stops. -/
  | shutdownRailsOff
  /-- SHUTDOWN_LOG (R352): After 50 ms of shutdown the log entry and a wear save are written to the NVM. -/
  | shutdownLog (peak : Int)
  /-- CAL_RUN_START (R338): A DUE strip with a usable interval and no pending switch starts a calibration run. -/
  | calRunStart (r : Fin 8)
  /-- CAL_STEP_END (R339): A 20 µs calibration step of a tiller completes. -/
  | calStepEnd (t : Fin 64) (word : Word) (rms : BitVec 16)
  /-- CAL_TIMEOUT (R342): A run still in progress after ST_CAL_TMO ms is abandoned. -/
  | calTimeout (r : Fin 8)
  /-- SWITCH_STUCK (R345): A switch pending for ST_CAL_TMO ms raises STUCK. -/
  | switchStuck (t : Fin 64)
  /-- CAL_RUN_NOW (R337): A write of ST_CAL_CTRL.RUN_NOW makes the strip DUE. -/
  | calRunNow (v : View) (r : Fin 8)
  /-- CAL_ABORT (R342): A write of ST_CAL_CTRL.ABORT abandons the run and clears DUE. -/
  | calAbort (v : View) (r : Fin 8)
  /-- CAL_COMMIT (R346): A write of ST_CAL_CTRL.COMMIT makes the inactive bank pending for all eight tillers. -/
  | calCommit (v : View) (r : Fin 8)
  /-- CAL_RELOAD (R335): A write of ST_CAL_CTRL.RELOAD makes a cache reload pending for every tiller. -/
  | calReload (v : View) (r : Fin 8)
  /-- CAL_DATA_WRITE (R346): A write of ST_CAL_DATA writes the inactive bank or is rejected, and advances IDX. -/
  | calDataWrite (v : View) (r : Fin 8) (w : Word)
  /-- PROBER_GAP (R338): A write of GL_PGAP GO declares a prober gap for the chosen strips. -/
  | proberGap (v : View) (strips : BitVec 8) (len : BitVec 20)
  /-- THERM_CLEAR (R353): A write of GL_THERM_CLR through the management port clears shutdown and powers up, or is refused. -/
  | thermClear (v : View) (key : BitVec 16)
  /-- WEAR_ACCRUE (R355): Each millisecond driving pins add to their stress counters. -/
  | wearAccrue (g : Fin 512)
  /-- CONTACT_CYCLE (R356): A write of GL_WEAR_CTRL.TD counts one contact cycle. -/
  | contactCycle (v : View)
  /-- WEAR_SAVE (R357): A write of GL_WEAR_CTRL.SAVE writes the wear counters to the NVM and evaluates the life model. -/
  | wearSave (v : View)
  /-- WEAR_SAVE_PERIODIC (R357): Every 10 minutes the wear counters are saved. -/
  | wearSavePeriodic
  /-- BAR2_WRITE (R360): A host BAR2 write stores data, merging partial protected words by read-modify-write. -/
  | bar2Write (addr : Nat) (data : List (Option Byte)) (ep : Bool)
  /-- DRAM_INIT_DONE (R368): A stack finishes clearing to 0 and its READY bit sets. -/
  | dramInitDone (east : Bool)
  /-- SCRUB_PASS (R367): The scrubber reads the group's DRAM and writes back corrected words. -/
  | scrubPass (s : Fin 16)
  /-- HOST_PORT_RESET (R371): PERST#, hot reset or FLR resets the host port, DMA channels and HMQs alone. -/
  | hostPortReset
  /-- VEC_REARM (R415): A write of EV_VEC_REARM resends a vector's message if its summary is 1. -/
  | vecRearm (v : View) (vec : Fin 64)
  /-- DMA_ENABLE (R373): A write of LK_DMA_CTRL.EN enables a channel in the domain of the view used. -/
  | dmaEnable (v : View) (c : Fin 8) (en : Bool)
  /-- DMA_PROD_WRITE (R373): A write of LK_DMA_PROD makes new descriptors available. -/
  | dmaProdWrite (v : View) (c : Fin 8) (w : Word)
  /-- DMA_DESCRIPTOR (R375): A channel fetches and checks a descriptor and begins its transfer or refuses it. -/
  | dmaDescriptor (c : Fin 8) (desc : BitVec 256) (data : List Byte) (ep : List (Nat × Nat))
  /-- DMA_DESCRIPTOR_DONE (R376): A descriptor's writes become visible and STATUS and the notice are written. -/
  | dmaDescriptorDone (c : Fin 8)
  /-- DMA_TRANSFER_ERROR (R376): A host error or refused context write ends a transfer with an error code. -/
  | dmaTransferError (c : Fin 8) (why : TransferError) (moved : Nat)
  /-- DMA_REMOTE_TIMEOUT (R376): A mesh write without MEM_ACK within LK_MESH_TMO ends the transfer with REMOTE. -/
  | dmaRemoteTimeout (c : Fin 8)
  /-- DMA_RESUME (R375): A write of LK_DMA_CTRL.RESUME leaves ERROR and skips the failed descriptor. -/
  | dmaResume (v : View) (c : Fin 8)
  /-- DMA_ABORT (R373): A write of LK_DMA_CTRL.ABORT stops the channel after the TLP in progress. -/
  | dmaAbort (v : View) (c : Fin 8)
  /-- HMQ_READ (R378): A read of LK_HMQ_RD pops one notice word or returns NOT_VALID. -/
  | hmqRead (q : Fin 4)
  /-- FLIT_RECEIVE (R384): A flit and its trailer are received, accepted or discarded with NAK, and routed or consumed. -/
  | flitReceive (p : Fin 4) (flit : BitVec 512) (seq : Fin 256) (crc : BitVec 32) (ackv : Bool) (ackseq : Fin 256)
  /-- FLIT_TRANSMIT (R385): An output port sends the next flit chosen by VC priority when it holds a credit. -/
  | flitTransmit (p : Fin 4)
  /-- NAK_RECEIVE (R384): A received NAK makes the transmitter replay from the named SEQ. -/
  | nakReceive (p : Fin 4) (seq : Fin 256)
  /-- CREDIT_RECEIVE (R385): A CREDIT block returns credits and acknowledges SEQs. -/
  | creditReceive (p : Fin 4) (c0 c1 c2 c3 : Fin 256) (ackv : Bool) (ackseq : Fin 256)
  /-- REPLAY_TIMEOUT (R384): One µs without ACKSEQ advance replays from the oldest flit, going DOWN after 16 replays. -/
  | replayTimeout (p : Fin 4)
  /-- CREDIT_RETURN_TIMER (R385): One hundred ns after a credit becomes pending a CREDIT block is sent. -/
  | creditReturnTimer (p : Fin 4)
  /-- ACK_TIMER (R384): Accepted SEQs are acknowledged at least every 200 ns. -/
  | ackTimer (p : Fin 4)
  /-- ALIGN_RECEIVE (R389): An ALIGN block drives lane deskew and the position check of training. -/
  | alignReceive (p : Fin 4) (lane : Fin 4) (x y : Fin 8) (port : Fin 4) (ready : Bool)
  /-- TRAINING_COMPLETE (R389): Training completes and the port enters UP, or MISWIRED on a wrong neighbour. -/
  | trainingComplete (p : Fin 4)
  /-- BLOCK_LOCK_LOSS (R389): Sixteen bad sync headers in 64 on a lane take the port DOWN. -/
  | blockLockLoss (p : Fin 4)
  /-- PORT_ENABLE (R389): A write of LK_G_CTRL.EN enables or disables a Genhar port. -/
  | portEnable (v : View) (p : Fin 4) (en : Bool)
  /-- PORT_RETRAIN (R389): A write of LK_G_CTRL.RETRAIN returns the port to TRAINING. -/
  | portRetrain (v : View) (p : Fin 4)
  /-- PORT_LOOPBACK (R390): A write of LK_G_CTRL.LPBK enters or leaves a Genhar loopback. -/
  | portLoopback (v : View) (p : Fin 4) (mode : Fin 8)
  /-- MEM_WR (R382): A complete MEM_WR message is checked, written to DRAM and acknowledged. -/
  | memWr (x y : Fin 16) (vc : Fin 4) (tag : Fin 256)
  /-- MEM_ACK (R382): A MEM_ACK message completes an unacknowledged mesh write. -/
  | memAck (x y : Fin 16) (tag : Fin 256) (window : Bool)
  /-- PIN_LOOPBACK_WRITE (R391): A write of GL_PIN_LPBK sets pin loopbacks or is ignored while the tiller runs. -/
  | pinLoopbackWrite (v : View) (t : Fin 64) (w : Word)
  /-- HEARTBEAT (R394): A supervisor write of its SV_HB register clears SILENT and may retake its domain. -/
  | heartbeat (v : View) (d : Fin 2) (w : Word)
  /-- SUPERVISOR_SILENT (R394): A heartbeat age of 10 ms sets SILENT and the other supervisor adopts the domain. -/
  | supervisorSilent (d : Fin 2)
  /-- LEAD_CLAIM (R396): A supervisor claim of the lead token is granted while HOLDER is NONE and no conflict stands. -/
  | leadClaim (v : View)
  /-- LEAD_TAKEOVER (R400): A takeover by the non-holder is accepted when the holder is SILENT. -/
  | leadTakeover (v : View)
  /-- LEAD_SET (R399): A host write of SV_LEAD_SET assigns the token and clears CONFLICT. -/
  | leadSet (v : View) (w : Word)
  /-- SUPERVISOR_RELEASE (R399): A write of SV_CTRL.RELEASE_N or RELEASE_S ends a supervisor's trap. -/
  | supervisorRelease (v : View) (d : Fin 2)
  /-- SUPERVISOR_RESTART (R395): A write of SV_CTRL.RESTART_N or RESTART_S reboots a supervisor, which gives up its domain. -/
  | supervisorRestart (v : View) (d : Fin 2)
  /-- PING (R402): Supervisor service PING returns firmware uptime. -/
  | ping (v : View) (d : Fin 2) (a0 a1 a2 : Word)
  /-- VERSION (R402): Supervisor service VERSION returns the firmware version. -/
  | version (v : View) (d : Fin 2) (a0 a1 a2 : Word)
  /-- UCODE_LOAD (R402): Supervisor service UCODE_LOAD loads the default image into masked sheaves. -/
  | ucodeLoad (v : View) (d : Fin 2) (a0 a1 a2 : Word)
  /-- CAL_RUN (R402): Supervisor service CAL_RUN makes the masked strips DUE. -/
  | calRun (v : View) (d : Fin 2) (a0 a1 a2 : Word)
  /-- SV_WEAR_SAVE (R402): Supervisor service WEAR_SAVE performs a wear save. -/
  | svWearSave (v : View) (d : Fin 2) (a0 a1 a2 : Word)
  /-- SEQ (R443): Supervisor service SEQ enables or disables the supplies of the masked strips in order. -/
  | svSeq (v : View) (d : Fin 2) (a0 a1 a2 : Word)
  /-- SELFCHECK (R402): Supervisor service SELFCHECK runs an L-pad loopback check of the masked tillers. -/
  | selfcheck (v : View) (d : Fin 2) (a0 a1 a2 : Word)
  /-- SV_RESPONSE (R402): A supervisor queues a command response when the mailbox has room and BUSY clears. -/
  | svResponse (d : Fin 2) (status : BitVec 8) (value : BitVec 31)
  /-- MBX_READ (R402): A read of SV_MBX_RD pops one response word or returns NOT_VALID. -/
  | mbxRead (d : Fin 2)
  /-- EV_FIRE (R408): A write of EV_FIRE GO fires a channel if the writer's domain is permitted. -/
  | evFire (v : View) (e : Fin 256)
  /-- EVENT_ARRIVAL (R409): An arrival at a router channel is merged, suppressed or accepted and counted for runaway. -/
  | eventArrival (e : Fin 256) (at_ : Nat)
  /-- EVENT_DELIVER (R406): An accepted event reaches its consumer 12 ns later and the channel becomes refractory. -/
  | eventDeliver (e : Fin 256)
  /-- EV_CH_CFG_WRITE (R408): A write of EV_CH_CFG configures a channel under the permissions and runaway rules. -/
  | evChCfgWrite (v : View) (e : Fin 256) (w : Word)
  /-- ERROR_LINE (R418): A block's error line is latched in the status word and its reactions act. -/
  | errorLine (b : Fin 184)
  /-- FAULT_REACT_RESET (R418): Once SAFE is complete a BLKRST or CHIPRST reaction requests its reset. -/
  | faultReactReset
  /-- FC_STAT_READ (R417): A read of FC_STAT0 snapshots all eight status words. -/
  | fcStatRead
  /-- FAULT_INJECT (R421): A write of FC_INJ GO arms inversion of a checker's check bits. -/
  | faultInject (v : View) (w : Word)
  /-- ALIVE_KICK (R420): A write of FC_ALIVE.KICK with KEY 0xA11E starts or keeps ALIVE toggling. -/
  | aliveKick (v : View) (key : BitVec 16)
  /-- ALIVE_TOGGLE (R420): Every 500 µs ALIVE toggles. -/
  | aliveToggle
  /-- ALIVE_TIMEOUT (R420): One hundred ms without a kick stops ALIVE low. -/
  | aliveTimeout
  /-- MSP_TRANSACTION (R423): A management-port slave transaction reads or writes BAR0 words until its count or CS# rise. -/
  | mspTransaction (x : MspTrans)
  /-- MSP_MASTER_GO (R427): A write of MSP_M_CMD.GO runs one boot-flash transaction or is refused. -/
  | mspMasterGo (v : View) (w : Word)
  /-- MSP_MASTER_DONE (R427): A master transaction ends and MSP_M_DONE is raised. -/
  | mspMasterDone (received : List Word)
  /-- MSP_DATA_READ (R427): A read of MSP_M_DATA pops the data FIFO, or sets UNDERRUN when empty. -/
  | mspDataRead
  /-- MSP_DATA_WRITE (R427): A write of MSP_M_DATA pushes a word into the data FIFO. -/
  | mspDataWrite (v : View) (w : Word)
  /-- NV_PROGRAM (R431): NV_CTRL GO with OP PROGRAM programs the row buffer to a row, or is DENIED. -/
  | nvProgram (v : View) (w : Word)
  /-- NV_ERASE (R431): NV_CTRL GO with OP ERASE erases a sector, or is DENIED. -/
  | nvErase (v : View) (w : Word)
  /-- NV_OP_DONE (R431): An NVM erase or program completes, verifies and clears BUSY. -/
  | nvOpDone (verified : Bool)
  /-- NV_DATA_ACCESS (R431): An access of NV_DATA reads a word or fills the row buffer and advances ADDR. -/
  | nvDataAccess (v : View) (write : Bool) (w : Word)
  /-- VBULK_POWER_UP (R438): VBULK above 8.5 V for 5 ms releases the always-on reset and starts power-up. -/
  | vbulkPowerUp (cpos : BitVec 6)
  /-- POWER_STEP_DONE (R438): A step's PG reads high for 100 µs and is accepted. -/
  | powerStepDone
  /-- POWER_STEP_START (R438): One ms after a PG is accepted the next REG_EN rises. -/
  | powerStepStart
  /-- PG_TIMEOUT (R439): A PG not accepted within 10 ms is a power failure and starts power-down. -/
  | pgTimeout
  /-- PG_FALL (R439): A PG that falls while its REG_EN is high is a power failure and starts power-down. -/
  | pgFall (step : Fin 6)
  /-- POWER_DOWN_STEP (R440): Each REG_EN falls in order, 1 ms apart, during power-down. -/
  | powerDownStep
  /-- PWR_ON (R439): GL_PWR_CTRL CMD ON through the management port restarts power-up after a failure. -/
  | pwrOn (v : View) (key : BitVec 16)
  /-- PWR_OFF (R440): GL_PWR_CTRL CMD OFF with the key saves wear and powers down. -/
  | pwrOff (v : View) (key : BitVec 16)
  /-- PWR_SLEEP (R441): GL_PWR_CTRL CMD SLEEP with the key enters deep sleep, or is refused. -/
  | pwrSleep (v : View) (key : BitVec 16)
  /-- PWR_WAKE (R442): GL_PWR_CTRL CMD WAKE through the management port ends deep sleep. -/
  | pwrWake (v : View) (key : BitVec 16)
  /-- RST_N_INPUT (R447): RST_N low for 1 µs causes a chip reset or ends deep sleep. -/
  | rstNInput
  /-- CHIP_RESET_RELEASE (R448): Ten µs into a chip reset the internal reset releases and the NVM load begins. -/
  | chipResetRelease
  /-- REGS_READY (R448): The NVM load and vector SRAM clearing finish, REGS_READY sets and boot begins. -/
  | regsReady (readings : List Int) (bad : Fin 16) (calBad : List (Fin 4))
  /-- BOOT_FLASH (R451): The boot service reads and checks a flash image and starts the supervisors. -/
  | bootFlash (timeouts : Fin 4) (imageA imageB : List Byte)
  /-- BOOT_HOST_GO (R451): A write of GL_BOOT_CTRL.GO boots from a host image in DRAM. -/
  | bootHostGo (v : View)
  /-- CLOCK_LOCK_LOSS (R26): REFCLK stops or leaves its range and the clock PLL loses lock, raising the clock block's error line. -/
  | clockLockLoss
  /-- RC_FIELD_READ (R5): A read of a register with an RC field returns the value and returns the field to its reset value. -/
  | rcFieldRead (v : View) (addr : Nat)
  /-- BAR2_READ (R360): A host read through BAR2 of DRAM, vector SRAM or context store returns data, with ECC correction, poison completions and DRAM error counting. -/
  | bar2Read (addr : Nat) (len : Nat)
  /-- PLL_LOCK (R26): REFCLK returns within range and the clock PLL regains lock, so the rules that depend on REFCLK apply again. -/
  | pllLock
  /-- LOSS_OF_VBULK (R357): VBULK is removed and the always-on domain loses power, losing wear accrued since the last save and ending any shutdown. -/
  | lossOfVbulk
  /-- LEAVE_CURRENT_LIMIT (R270): A driver or DUT output leaves current limit, ILIM_NOW clears and the continuous-limit trip time stops. -/
  | leaveCurrentLimit (which : LimitUnit)
  /-- PPMU_LIMIT (R193): The PPMU reaches its current or voltage limit, holds the output there and sets PN_STAT.PPMU_LIM. -/
  | ppmuLimit (g : Fin 512)
  /-- WEAR_SAVE_DONE (R357): A wear save finishes its NVM write and verify, SAVE_BUSY clears, SAVE_ERR and retry apply, and an orderly power-down may proceed. -/
  | wearSaveDone (verified : Bool)
  /-- PCIE_LINK_UP (R371): The PCIe link completes training and comes up, setting LK_PCIE_STAT.UP and raising the link-retrained source. -/
  | pcieLinkUp (speed : Fin 8) (width : Fin 16)
  /-- PCIE_LINK_DOWN (R416): The PCIe host link is lost, UP clears, and interrupt messages are no longer sent. -/
  | pcieLinkDown
  /-- RST_N_RELEASE (R447): RST_N rises, ending a chip reset that it held, including one held during power-up. -/
  | rstNRelease
  /-- WAVEFORM_TABLE_FETCH (R293): A waveform table line arrives from DRAM for a player, poisoned if it is uncorrectable, deciding whether the entry is there by its sample boundary. -/
  | waveformTableFetch (t : Fin 64) (h : Fin 2) (line : Nat)
  deriving DecidableEq, Repr

end Sys2Proof
end

