-- ==== Sys2Proof/Config.lean ====
section
/-! DEFINITION. What the manual leaves open: constants without a body, of which nothing can be proved (one log entry each),
and the values the model's log names. -/

namespace Sys2Proof.Config

/-! ### Values of the NVM, which the manual does not give (log entry 5): DESIGN CHOICE, not safe -/

/-- Safe codes of the level DACs and the PPMU force DAC: the code nearest 0 V of each span (R177, R184). -/
def safeVIH : Nat := 10923
def safeVIL : Nat := 10923
def safeVTT : Nat := 10923
def safeVOH : Nat := 10082
def safeVOL : Nat := 10082
def safeCLH : Nat := 9362
def safeCLL : Nat := 18725
def safePPMU : Nat := 10923
/-- Voltage limits: every code of the span passes (R266). -/
def vdutLimit : Nat := 262143
def hvLimit : Nat := 65535
/-- Factory deskew and coefficient words (R347). -/
def factoryDeskew : Nat := 0
def factoryBank : Nat := 0

/-! ### Free values: nothing in Lean can say what they are. The n-th one drawn is the constant at n. -/

/-- Current in µA through a VDUT or HV output when its live range changes or it is disabled by a step that does not carry the
measured current (log entry 6). -/
opaque loadCurrent : Nat → Nat

/-- Interval shown in `TL_TDC_LAST` for a pair that ended NOSTOP (log entry 7). -/
opaque nostopInterval : Nat → BitVec 40

/-- How a mean or a rate whose rounding the manual does not give is rounded: up or down (log entry 8). -/
opaque roundsUp : Nat → Bool

/-- What a thresher micro-op gives where the manual states no result: shifts of 32 or more, a field width outside 1 to 32, bytes
beyond a context, a STAT code without a value (log entry 9). -/
opaque microValue : Nat → BitVec 32

/-- A flag or a choice the manual leaves open in a micro-op: C of every operation but ADD, and which operand is the smaller when
the signed and the unsigned order differ (log entry 9). -/
opaque microChoice : Nat → Bool

/-- Words of the default thresher image, by index (log entry 10). -/
opaque defaultWord : Nat → BitVec 256

/-- Whether MOV, POPC and CTZ (by ALU code) take operand B; otherwise they take operand A (log entry 9). -/
opaque unaryOperand : Nat → Bool

/-- Version and hash of the default image, 24 bits as in `SH_UC_VERSION` (log entry 10). -/
opaque defaultVersion : BitVec 24

/-- Version of the supervisors' firmware, by the boot that started it (log entry 12). -/
opaque firmwareVersion : Nat → BitVec 8

/-- Bytes of the NVM that an erase or a record of unstated layout leaves: by the number of that event and the address
(log entry 11). -/
opaque nvmByte : Nat → Nat → BitVec 8

/-- What a read of `GL_VRAW_STAT` returns: the measured VRAW values (log entry 13). -/
opaque vrawReading : Nat → BitVec 32

/-- Values of the NVM once its records have been changed: by the number of the change and the register, or the wear counter (log entry
5). -/
opaque nvmField : Nat → Nat → BitVec 32

/-- Entries of the shutdown log once sectors 96 and 97 have been changed, and the place and number of the last one (log entry 5). -/
opaque logField : Nat → Nat → BitVec 128

/-- Which supervisor claims the lead token first after a boot: SVS or SVN (log entry 39). -/
opaque svsFirst : Nat → Bool

/-- What the management port's IO0 puts out while a read's data phase takes IO1, word by word (log entry 40). -/
opaque loopWord : Nat → BitVec 32

end Sys2Proof.Config
end

