-- ==== Sys2Proof/Machine/Store.lean ====
section
/-! DEFINITION. Sparse stores: lists of (key, value) pairs, keys strictly rising, no entry equal to the value an unlisted key
reads as. Everything the part has many of (registers, table words, memory bytes, tillers, pins) is held in one. -/

namespace Sys2Proof.Machine

/-- A sparse store. -/
abbrev Store (α : Type) := List (Nat × α)

/-- The value at a key; an unlisted key reads as `d` of it. -/
def storeGet {α : Type} (d : Nat → α) : Store α → Nat → α
  | [], k => d k
  | (j, v) :: r, k => if j = k then v else storeGet d r k

/-- Put an entry in its place. -/
def storePut {α : Type} : Store α → Nat → α → Store α
  | [], k, v => [(k, v)]
  | (j, w) :: r, k, v =>
    if k < j then (k, v) :: (j, w) :: r
    else if k = j then (k, v) :: r
    else (j, w) :: storePut r k v

/-- Write a value at a key; writing what an unlisted key reads as removes the entry. -/
def storeSet {α : Type} [DecidableEq α] (d : Nat → α) (l : Store α) (k : Nat) (v : α) : Store α :=
  if v = d k then l.filter (fun e => e.1 != k) else storePut l k v

/-- Keep only the entries whose key satisfies `p`: a reset of all others. -/
def storeKeep {α : Type} (p : Nat → Bool) (l : Store α) : Store α := l.filter (fun e => p e.1)

/-- The canonical form. -/
def storeWf {α : Type} [DecidableEq α] (d : Nat → α) : Store α → Bool
  | [] => true
  | [(k, v)] => decide (v ≠ d k)
  | (k, v) :: (j, w) :: r => decide (v ≠ d k) && decide (k < j) && storeWf d ((j, w) :: r)

end Sys2Proof.Machine
end

