-- ==== Sys2Proof/Machine/Regs.lean ====
section
/-! DEFINITION. The register space (R23): every register's address and every field's bits, by the manual's names.
Arguments: `t` tiller 0 to 63, `g` global pin 0 to 511 (or rendezvous group 0 to 31), `s` sheaf 0 to 15, `i` thresher 0 to 31,
`r` strip 0 to 7, `p` link port 0 to 3 (N, E, S, W), `c` DMA channel, `q` host message queue, `d` supervisor (0 SVN, 1 SVS),
`h` supply of a tiller (0 VDUT, 1 HV: the `TL_SUP_` names stand for `TL_VDUT_` and `TL_HV_`, R300), `k` index in a register array. -/

namespace Sys2Proof.Machine

/-- Base of tiller `t`'s block (R23). -/
def tlBase (t : Nat) : Nat := 0x40000 + 0x1000 * t
/-- Base of the block of the pin with global index `g` (R12, R23). -/
def pnBase (g : Nat) : Nat := 0x40000 + 0x1000 * (g / 8) + 0x800 + 0x100 * (g % 8)
/-- Base of strip `r`'s block (R23). -/
def stBase (r : Nat) : Nat := 0x10000 + 0x2000 * r
/-- Base of sheaf `s`'s block (R23). -/
def shBase (s : Nat) : Nat := 0x20000 + 0x1000 * s
/-- Base of thresher `i`'s block (R23). -/
def thBase (i : Nat) : Nat := 0x20000 + 0x1000 * (i / 2) + 0x400 * (i % 2)

/-- `GL_ID` (R1). -/
def GL_ID : Nat := 0
def GL_ID_VENDOR : Field := ⟨GL_ID, 31, 16⟩
def GL_ID_PART : Field := ⟨GL_ID, 15, 0⟩
/-- `GL_REV` (R1). -/
def GL_REV : Nat := 4
def GL_REV_MAJOR : Field := ⟨GL_REV, 7, 4⟩
def GL_REV_MINOR : Field := ⟨GL_REV, 3, 0⟩
/-- `GL_BLK_RST` (R22). -/
def GL_BLK_RST : Nat := 0x40
def GL_BLK_RST_GO : Field := ⟨GL_BLK_RST, 31, 31⟩
def GL_BLK_RST_SCOPE : Field := ⟨GL_BLK_RST, 26, 24⟩
def GL_BLK_RST_INDEX : Field := ⟨GL_BLK_RST, 8, 0⟩
/-- `GL_BLK_RST_STAT` (R22). -/
def GL_BLK_RST_STAT : Nat := 0x44
def GL_BLK_RST_STAT_BUSY : Field := ⟨GL_BLK_RST_STAT, 31, 31⟩
def GL_BLK_RST_STAT_PEND : Field := ⟨GL_BLK_RST_STAT, 30, 30⟩
def GL_BLK_RST_STAT_RESULT : Field := ⟨GL_BLK_RST_STAT, 27, 24⟩
def GL_BLK_RST_STAT_MERGE_CNT : Field := ⟨GL_BLK_RST_STAT, 23, 16⟩
def GL_BLK_RST_STAT_SEQ : Field := ⟨GL_BLK_RST_STAT, 15, 0⟩
/-- `GL_RC_LO` (R52). -/
def GL_RC_LO : Nat := 0x1000
def GL_RC_LO_COUNT_LO : Field := ⟨GL_RC_LO, 31, 0⟩
/-- `GL_RC_HI` (R52). -/
def GL_RC_HI : Nat := 0x1004
def GL_RC_HI_COUNT_HI : Field := ⟨GL_RC_HI, 15, 0⟩
/-- `GL_SYNC_CTRL` (R52). -/
def GL_SYNC_CTRL : Nat := 0x1008
def GL_SYNC_CTRL_CMD_EN : Field := ⟨GL_SYNC_CTRL, 2, 2⟩
def GL_SYNC_CTRL_ECHO_EN : Field := ⟨GL_SYNC_CTRL, 1, 1⟩
def GL_SYNC_CTRL_EN : Field := ⟨GL_SYNC_CTRL, 0, 0⟩
/-- `GL_SYNC_STAT` (R52). -/
def GL_SYNC_STAT : Nat := 0x100c
def GL_SYNC_STAT_SYNC_LOST : Field := ⟨GL_SYNC_STAT, 31, 31⟩
def GL_SYNC_STAT_COUNT_CONFLICT : Field := ⟨GL_SYNC_STAT, 30, 30⟩
def GL_SYNC_STAT_UNSYNCED : Field := ⟨GL_SYNC_STAT, 29, 29⟩
def GL_SYNC_STAT_BADRUN : Field := ⟨GL_SYNC_STAT, 3, 2⟩
def GL_SYNC_STAT_STATE : Field := ⟨GL_SYNC_STAT, 1, 0⟩
/-- `GL_SYNC_TRIM` (R52). -/
def GL_SYNC_TRIM : Nat := 0x1010
def GL_SYNC_TRIM_CLAMP : Field := ⟨GL_SYNC_TRIM, 31, 31⟩
def GL_SYNC_TRIM_TRIM : Field := ⟨GL_SYNC_TRIM, 8, 0⟩
/-- `GL_SYNC_CNT` (R52). -/
def GL_SYNC_CNT : Nat := 0x1014
def GL_SYNC_CNT_BAD_FRAMES : Field := ⟨GL_SYNC_CNT, 31, 16⟩
def GL_SYNC_CNT_CMD_REJ : Field := ⟨GL_SYNC_CNT, 15, 0⟩
/-- `GL_SYNC_CMD` (R52). -/
def GL_SYNC_CMD : Nat := 0x1018
def GL_SYNC_CMD_CMD : Field := ⟨GL_SYNC_CMD, 31, 16⟩
def GL_SYNC_CMD_ARG : Field := ⟨GL_SYNC_CMD, 15, 0⟩
/-- `GL_SCHED_STAT` (R52). -/
def GL_SCHED_STAT : Nat := 0x101c
def GL_SCHED_STAT_FULL : Field := ⟨GL_SCHED_STAT, 31, 31⟩
def GL_SCHED_STAT_CANCEL : Field := ⟨GL_SCHED_STAT, 30, 30⟩
def GL_SCHED_STAT_USED : Field := ⟨GL_SCHED_STAT, 3, 0⟩
/-- `GL_CAL_HOLD` (R52). -/
def GL_CAL_HOLD : Nat := 0x1020
def GL_CAL_HOLD_STRIPS : Field := ⟨GL_CAL_HOLD, 7, 0⟩
/-- `GL_START_ARM_LO` (R52). -/
def GL_START_ARM_LO : Nat := 0x1030
def GL_START_ARM_LO_ARM : Field := ⟨GL_START_ARM_LO, 31, 0⟩
/-- `GL_START_ARM_HI` (R52). -/
def GL_START_ARM_HI : Nat := 0x1034
def GL_START_ARM_HI_ARM : Field := ⟨GL_START_ARM_HI, 31, 0⟩
/-- `GL_TL_GROUP` (R52). -/
def GL_TL_GROUP (k : Nat) : Nat := 0x1040 + 4 * k
def GL_TL_GROUP_GRP (k j : Nat) : Field := ⟨GL_TL_GROUP k, 4 * j + 3, 4 * j⟩
/-- `GL_LATE_LO` (R52). -/
def GL_LATE_LO : Nat := 0x1060
def GL_LATE_LO_LATE : Field := ⟨GL_LATE_LO, 31, 0⟩
/-- `GL_LATE_HI` (R52). -/
def GL_LATE_HI : Nat := 0x1064
def GL_LATE_HI_LATE : Field := ⟨GL_LATE_HI, 31, 0⟩
/-- `GL_RDV_TMO` (R52). -/
def GL_RDV_TMO : Nat := 0x1080
def GL_RDV_TMO_TMO : Field := ⟨GL_RDV_TMO, 31, 0⟩
/-- `GL_RDV_MASK_LO` (R52). -/
def GL_RDV_MASK_LO (g : Nat) : Nat := 0x1100 + 0x40 * g
def GL_RDV_MASK_LO_MEMBER (g : Nat) : Field := ⟨GL_RDV_MASK_LO g, 31, 0⟩
/-- `GL_RDV_MASK_HI` (R52). -/
def GL_RDV_MASK_HI (g : Nat) : Nat := 0x1104 + 0x40 * g
def GL_RDV_MASK_HI_MEMBER (g : Nat) : Field := ⟨GL_RDV_MASK_HI g, 31, 0⟩
/-- `GL_RDV_CFG` (R52). -/
def GL_RDV_CFG (g : Nat) : Nat := 0x1108 + 0x40 * g
def GL_RDV_CFG_EN (g : Nat) : Field := ⟨GL_RDV_CFG g, 31, 31⟩
def GL_RDV_CFG_LEAD_Y (g : Nat) : Field := ⟨GL_RDV_CFG g, 6, 4⟩
def GL_RDV_CFG_LEAD_X (g : Nat) : Field := ⟨GL_RDV_CFG g, 2, 0⟩
/-- `GL_RDV_PARTS_LO` (R52). -/
def GL_RDV_PARTS_LO (g : Nat) : Nat := 0x110c + 0x40 * g
def GL_RDV_PARTS_LO_PART (g : Nat) : Field := ⟨GL_RDV_PARTS_LO g, 31, 0⟩
/-- `GL_RDV_PARTS_HI` (R52). -/
def GL_RDV_PARTS_HI (g : Nat) : Nat := 0x1110 + 0x40 * g
def GL_RDV_PARTS_HI_PART (g : Nat) : Field := ⟨GL_RDV_PARTS_HI g, 31, 0⟩
/-- `GL_RDV_STAT` (R52). -/
def GL_RDV_STAT (g : Nat) : Nat := 0x1114 + 0x40 * g
def GL_RDV_STAT_EPOCH (g : Nat) : Field := ⟨GL_RDV_STAT g, 31, 24⟩
def GL_RDV_STAT_STATE (g : Nat) : Field := ⟨GL_RDV_STAT g, 23, 22⟩
def GL_RDV_STAT_TIMEOUT (g : Nat) : Field := ⟨GL_RDV_STAT g, 21, 21⟩
def GL_RDV_STAT_RDV_LATE (g : Nat) : Field := ⟨GL_RDV_STAT g, 20, 20⟩
def GL_RDV_STAT_WR_BUSY (g : Nat) : Field := ⟨GL_RDV_STAT g, 19, 19⟩
def GL_RDV_STAT_STRAY (g : Nat) : Field := ⟨GL_RDV_STAT g, 18, 18⟩
def GL_RDV_STAT_ARRIVED (g : Nat) : Field := ⟨GL_RDV_STAT g, 14, 8⟩
def GL_RDV_STAT_ABSENT_CNT (g : Nat) : Field := ⟨GL_RDV_STAT g, 6, 0⟩
/-- `GL_RDV_REL_LO` (R52). -/
def GL_RDV_REL_LO (g : Nat) : Nat := 0x1118 + 0x40 * g
def GL_RDV_REL_LO_REL (g : Nat) : Field := ⟨GL_RDV_REL_LO g, 31, 0⟩
/-- `GL_RDV_REL_HI` (R52). -/
def GL_RDV_REL_HI (g : Nat) : Nat := 0x111c + 0x40 * g
def GL_RDV_REL_HI_REL (g : Nat) : Field := ⟨GL_RDV_REL_HI g, 31, 0⟩
/-- `GL_RDV_ABSENT_LO` (R52). -/
def GL_RDV_ABSENT_LO (g : Nat) : Nat := 0x1120 + 0x40 * g
def GL_RDV_ABSENT_LO_ABSENT (g : Nat) : Field := ⟨GL_RDV_ABSENT_LO g, 31, 0⟩
/-- `GL_RDV_ABSENT_HI` (R52). -/
def GL_RDV_ABSENT_HI (g : Nat) : Nat := 0x1124 + 0x40 * g
def GL_RDV_ABSENT_HI_ABSENT (g : Nat) : Field := ⟨GL_RDV_ABSENT_HI g, 31, 0⟩
/-- `GL_RDV_MISSING_LO` (R52). -/
def GL_RDV_MISSING_LO (g : Nat) : Nat := 0x1128 + 0x40 * g
def GL_RDV_MISSING_LO_MISSING (g : Nat) : Field := ⟨GL_RDV_MISSING_LO g, 31, 0⟩
/-- `GL_RDV_MISSING_HI` (R52). -/
def GL_RDV_MISSING_HI (g : Nat) : Nat := 0x112c + 0x40 * g
def GL_RDV_MISSING_HI_MISSING (g : Nat) : Field := ⟨GL_RDV_MISSING_HI g, 31, 0⟩
/-- `TL_SEQ_CTRL` (R95). -/
def TL_SEQ_CTRL (t : Nat) : Nat := tlBase t + 0
def TL_SEQ_CTRL_TRACE_LOOPS (t : Nat) : Field := ⟨TL_SEQ_CTRL t, 9, 9⟩
def TL_SEQ_CTRL_TRACE_EN (t : Nat) : Field := ⟨TL_SEQ_CTRL t, 8, 8⟩
def TL_SEQ_CTRL_RESUME (t : Nat) : Field := ⟨TL_SEQ_CTRL t, 2, 2⟩
def TL_SEQ_CTRL_STOP (t : Nat) : Field := ⟨TL_SEQ_CTRL t, 1, 1⟩
def TL_SEQ_CTRL_RUN (t : Nat) : Field := ⟨TL_SEQ_CTRL t, 0, 0⟩
/-- `TL_SEQ_STAT` (R95). -/
def TL_SEQ_STAT (t : Nat) : Nat := tlBase t + 4
def TL_SEQ_STAT_REFUSED (t : Nat) : Field := ⟨TL_SEQ_STAT t, 31, 31⟩
def TL_SEQ_STAT_REGSTART (t : Nat) : Field := ⟨TL_SEQ_STAT t, 30, 30⟩
def TL_SEQ_STAT_STOP_CAUSE (t : Nat) : Field := ⟨TL_SEQ_STAT t, 27, 24⟩
def TL_SEQ_STAT_LOOP_OPEN (t : Nat) : Field := ⟨TL_SEQ_STAT t, 19, 16⟩
def TL_SEQ_STAT_SP (t : Nat) : Field := ⟨TL_SEQ_STAT t, 11, 8⟩
def TL_SEQ_STAT_PARK_WHY (t : Nat) : Field := ⟨TL_SEQ_STAT t, 6, 4⟩
def TL_SEQ_STAT_INSEG (t : Nat) : Field := ⟨TL_SEQ_STAT t, 3, 3⟩
def TL_SEQ_STAT_STATE (t : Nat) : Field := ⟨TL_SEQ_STAT t, 2, 0⟩
/-- `TL_PC` (R95). -/
def TL_PC (t : Nat) : Nat := tlBase t + 8
def TL_PC_STREAMED (t : Nat) : Field := ⟨TL_PC t, 31, 31⟩
def TL_PC_SEG (t : Nat) : Field := ⟨TL_PC t, 23, 16⟩
def TL_PC_INDEX (t : Nat) : Field := ⟨TL_PC t, 13, 0⟩
/-- `TL_HALT_CODE` (R95). -/
def TL_HALT_CODE (t : Nat) : Nat := tlBase t + 0xc
def TL_HALT_CODE_CODE (t : Nat) : Field := ⟨TL_HALT_CODE t, 15, 0⟩
/-- `TL_FAULT` (R95). -/
def TL_FAULT (t : Nat) : Nat := tlBase t + 0x10
def TL_FAULT_INDEX (t : Nat) : Field := ⟨TL_FAULT t, 29, 16⟩
def TL_FAULT_CAUSE (t : Nat) : Field := ⟨TL_FAULT t, 7, 0⟩
/-- `TL_VSRAM_ECC` (R95). -/
def TL_VSRAM_ECC (t : Nat) : Nat := tlBase t + 0x14
def TL_VSRAM_ECC_CORR (t : Nat) : Field := ⟨TL_VSRAM_ECC t, 31, 16⟩
def TL_VSRAM_ECC_UNCORR_SPEC (t : Nat) : Field := ⟨TL_VSRAM_ECC t, 15, 0⟩
/-- `TL_VIDX_LO` (R95). -/
def TL_VIDX_LO (t : Nat) : Nat := tlBase t + 0x18
def TL_VIDX_LO_VIDX_LO (t : Nat) : Field := ⟨TL_VIDX_LO t, 31, 0⟩
/-- `TL_VIDX_HI` (R95). -/
def TL_VIDX_HI (t : Nat) : Nat := tlBase t + 0x1c
def TL_VIDX_HI_VIDX_HI (t : Nat) : Field := ⟨TL_VIDX_HI t, 15, 0⟩
/-- `TL_LOOP` (R95). -/
def TL_LOOP (t k : Nat) : Nat := tlBase t + 0x20 + 4 * k
def TL_LOOP_COUNT (t k : Nat) : Field := ⟨TL_LOOP t k, 29, 0⟩
/-- `TL_LOOP_START` (R95). -/
def TL_LOOP_START (t k : Nat) : Nat := tlBase t + 0x30 + 4 * k
def TL_LOOP_START_START_HI (t k : Nat) : Field := ⟨TL_LOOP_START t k, 29, 16⟩
def TL_LOOP_START_START_LO (t k : Nat) : Field := ⟨TL_LOOP_START t k, 13, 0⟩
/-- `TL_STACK` (R95). -/
def TL_STACK (t k : Nat) : Nat := tlBase t + 0x40 + 4 * k
def TL_STACK_VALID (t k : Nat) : Field := ⟨TL_STACK t k, 31, 31⟩
def TL_STACK_INSEG (t k : Nat) : Field := ⟨TL_STACK t k, 24, 24⟩
def TL_STACK_SEG (t k : Nat) : Field := ⟨TL_STACK t k, 23, 16⟩
def TL_STACK_RETURN (t k : Nat) : Field := ⟨TL_STACK t k, 13, 0⟩
/-- `TL_CND_MASK_LO` (R95). -/
def TL_CND_MASK_LO (t : Nat) : Nat := tlBase t + 0x60
def TL_CND_MASK_LO_MASK (t m : Nat) : Field := ⟨TL_CND_MASK_LO t, 8 * m + 7, 8 * m⟩
/-- `TL_CND_MASK_HI` (R95). -/
def TL_CND_MASK_HI (t : Nat) : Nat := tlBase t + 0x64
def TL_CND_MASK_HI_MASK (t m : Nat) : Field := ⟨TL_CND_MASK_HI t, 8 * (m - 4) + 7, 8 * (m - 4)⟩
/-- `TL_CMASK` (R95). -/
def TL_CMASK (t : Nat) : Nat := tlBase t + 0x68
def TL_CMASK_MASK (t : Nat) : Field := ⟨TL_CMASK t, 7, 0⟩
/-- `TL_STICKY` (R95). -/
def TL_STICKY (t : Nat) : Nat := tlBase t + 0x6c
def TL_STICKY_FAIL (t : Nat) : Field := ⟨TL_STICKY t, 7, 0⟩
/-- `TL_FLAGS` (R95). -/
def TL_FLAGS (t : Nat) : Nat := tlBase t + 0x70
def TL_FLAGS_USER (t : Nat) : Field := ⟨TL_FLAGS t, 7, 7⟩
def TL_FLAGS_MATCHX (t : Nat) : Field := ⟨TL_FLAGS t, 6, 6⟩
def TL_FLAGS_TRIG (t : Nat) : Field := ⟨TL_FLAGS t, 5, 5⟩
def TL_FLAGS_RDVTMO (t : Nat) : Field := ⟨TL_FLAGS t, 4, 4⟩
def TL_FLAGS_YCARRY (t : Nat) : Field := ⟨TL_FLAGS t, 3, 3⟩
def TL_FLAGS_XCARRY (t : Nat) : Field := ⟨TL_FLAGS t, 2, 2⟩
def TL_FLAGS_STALLED (t : Nat) : Field := ⟨TL_FLAGS t, 1, 1⟩
def TL_FLAGS_LATE (t : Nat) : Field := ⟨TL_FLAGS t, 0, 0⟩
/-- `TL_AMAP` (R95). -/
def TL_AMAP (t k : Nat) : Nat := tlBase t + 0x80 + 4 * k
def TL_AMAP_SEL (t k q : Nat) : Field := ⟨TL_AMAP t k, 8 * q + 4, 8 * q⟩
/-- `TL_TRACE_CTRL` (R95). -/
def TL_TRACE_CTRL (t : Nat) : Nat := tlBase t + 0xa0
def TL_TRACE_CTRL_WRAPPED (t : Nat) : Field := ⟨TL_TRACE_CTRL t, 31, 31⟩
def TL_TRACE_CTRL_HEAD (t : Nat) : Field := ⟨TL_TRACE_CTRL t, 7, 0⟩
/-- `TL_TRACE_RD` (R95). -/
def TL_TRACE_RD (t : Nat) : Nat := tlBase t + 0xa4
def TL_TRACE_RD_ENTRY (t : Nat) : Field := ⟨TL_TRACE_RD t, 7, 0⟩
/-- `TL_TRACE_W` (R95). -/
def TL_TRACE_W (t k : Nat) : Nat := tlBase t + 0xa8 + 4 * k
def TL_TRACE_W_WORD (t k : Nat) : Field := ⟨TL_TRACE_W t k, 31, 0⟩
/-- `TL_STACK_PASS` (R95). -/
def TL_STACK_PASS (t k : Nat) : Nat := tlBase t + 0xc0 + 4 * k
def TL_STACK_PASS_PASS (t k : Nat) : Field := ⟨TL_STACK_PASS t k, 31, 0⟩
/-- `TL_APG_CTRL` (R137). -/
def TL_APG_CTRL (t : Nat) : Nat := tlBase t + 0x100
def TL_APG_CTRL_WR_BUSY (t : Nat) : Field := ⟨TL_APG_CTRL t, 31, 31⟩
def TL_APG_CTRL_REC_PHYS (t : Nat) : Field := ⟨TL_APG_CTRL t, 2, 2⟩
def TL_APG_CTRL_TOPO_EN (t : Nat) : Field := ⟨TL_APG_CTRL t, 1, 1⟩
def TL_APG_CTRL_SCR_EN (t : Nat) : Field := ⟨TL_APG_CTRL t, 0, 0⟩
/-- `TL_APG_X` (R137). -/
def TL_APG_X (t : Nat) : Nat := tlBase t + 0x104
def TL_APG_X_X (t : Nat) : Field := ⟨TL_APG_X t, 19, 0⟩
/-- `TL_APG_Y` (R137). -/
def TL_APG_Y (t : Nat) : Nat := tlBase t + 0x108
def TL_APG_Y_Y (t : Nat) : Field := ⟨TL_APG_Y t, 15, 0⟩
/-- `TL_APG_D` (R137). -/
def TL_APG_D (t : Nat) : Nat := tlBase t + 0x10c
def TL_APG_D_D (t : Nat) : Field := ⟨TL_APG_D t, 31, 0⟩
/-- `TL_APG_XMAX` (R137). -/
def TL_APG_XMAX (t : Nat) : Nat := tlBase t + 0x110
def TL_APG_XMAX_XMAX (t : Nat) : Field := ⟨TL_APG_XMAX t, 19, 0⟩
/-- `TL_APG_YMAX` (R137). -/
def TL_APG_YMAX (t : Nat) : Nat := tlBase t + 0x114
def TL_APG_YMAX_YMAX (t : Nat) : Field := ⟨TL_APG_YMAX t, 15, 0⟩
/-- `TL_APG_I` (R137). -/
def TL_APG_I (t k : Nat) : Nat := tlBase t + 0x120 + 4 * k
def TL_APG_I_I (t k : Nat) : Field := ⟨TL_APG_I t k, 19, 0⟩
/-- `TL_APG_BG` (R137). -/
def TL_APG_BG (t k : Nat) : Nat := tlBase t + 0x130 + 4 * k
def TL_APG_BG_BG (t k : Nat) : Field := ⟨TL_APG_BG t k, 31, 0⟩
/-- `TL_APG_DXM` (R137). -/
def TL_APG_DXM (t : Nat) : Nat := tlBase t + 0x140
def TL_APG_DXM_DXM (t : Nat) : Field := ⟨TL_APG_DXM t, 19, 0⟩
/-- `TL_APG_DYM` (R137). -/
def TL_APG_DYM (t : Nat) : Nat := tlBase t + 0x144
def TL_APG_DYM_DYM (t : Nat) : Field := ⟨TL_APG_DYM t, 15, 0⟩
/-- `TL_APG_TSEL` (R137). -/
def TL_APG_TSEL (t : Nat) : Nat := tlBase t + 0x148
def TL_APG_TSEL_SEL3 (t : Nat) : Field := ⟨TL_APG_TSEL t, 29, 24⟩
def TL_APG_TSEL_SEL2 (t : Nat) : Field := ⟨TL_APG_TSEL t, 21, 16⟩
def TL_APG_TSEL_SEL1 (t : Nat) : Field := ⟨TL_APG_TSEL t, 13, 8⟩
def TL_APG_TSEL_SEL0 (t : Nat) : Field := ⟨TL_APG_TSEL t, 5, 0⟩
/-- `TL_APG_PX` (R137). -/
def TL_APG_PX (t : Nat) : Nat := tlBase t + 0x150
def TL_APG_PX_PX (t : Nat) : Field := ⟨TL_APG_PX t, 19, 0⟩
/-- `TL_APG_PY` (R137). -/
def TL_APG_PY (t : Nat) : Nat := tlBase t + 0x154
def TL_APG_PY_PY (t : Nat) : Field := ⟨TL_APG_PY t, 15, 0⟩
/-- `TL_EVIN_SEL` (R137). -/
def TL_EVIN_SEL (t : Nat) : Nat := tlBase t + 0x700
def TL_EVIN_SEL_SRC (t j : Nat) : Field := ⟨TL_EVIN_SEL t, 4 * j + 3, 4 * j⟩
/-- `TL_EVIN` (R137). -/
def TL_EVIN (t : Nat) : Nat := tlBase t + 0x704
def TL_EVIN_FIRE (t : Nat) : Field := ⟨TL_EVIN t, 15, 8⟩
def TL_EVIN_LATCH (t : Nat) : Field := ⟨TL_EVIN t, 7, 0⟩
/-- `TL_OPSTAT` (R137). -/
def TL_OPSTAT (t : Nat) : Nat := tlBase t + 0x708
def TL_OPSTAT_IN_GAP (t : Nat) : Field := ⟨TL_OPSTAT t, 31, 31⟩
def TL_OPSTAT_EVW_TMO (t : Nat) : Field := ⟨TL_OPSTAT t, 23, 16⟩
def TL_OPSTAT_TDC_REJ (t : Nat) : Field := ⟨TL_OPSTAT t, 15, 8⟩
def TL_OPSTAT_GAP_USED (t : Nat) : Field := ⟨TL_OPSTAT t, 7, 0⟩
/-- `TL_LVL_STAT` (R137). -/
def TL_LVL_STAT (t : Nat) : Nat := tlBase t + 0x710
def TL_LVL_STAT_UNDERRUN (t : Nat) : Field := ⟨TL_LVL_STAT t, 31, 31⟩
def TL_LVL_STAT_DONE_OVF (t : Nat) : Field := ⟨TL_LVL_STAT t, 30, 30⟩
def TL_LVL_STAT_ECLAMP (t : Nat) : Field := ⟨TL_LVL_STAT t, 29, 29⟩
def TL_LVL_STAT_DONE_CNT (t : Nat) : Field := ⟨TL_LVL_STAT t, 12, 8⟩
def TL_LVL_STAT_PEND (t : Nat) : Field := ⟨TL_LVL_STAT t, 4, 0⟩
/-- `TL_LVL_DONE` (R137). -/
def TL_LVL_DONE (t : Nat) : Nat := tlBase t + 0x714
def TL_LVL_DONE_ENTRY (t : Nat) : Field := ⟨TL_LVL_DONE t, 31, 24⟩
def TL_LVL_DONE_ECLAMP (t : Nat) : Field := ⟨TL_LVL_DONE t, 23, 23⟩
def TL_LVL_DONE_REFUSED (t : Nat) : Field := ⟨TL_LVL_DONE t, 22, 22⟩
def TL_LVL_DONE_VIDX (t : Nat) : Field := ⟨TL_LVL_DONE t, 15, 0⟩
/-- `TL_RESULT` (R137). -/
def TL_RESULT (t : Nat) : Nat := tlBase t + 0x780
def TL_RESULT_VALID (t : Nat) : Field := ⟨TL_RESULT t, 31, 31⟩
def TL_RESULT_INVALID (t : Nat) : Field := ⟨TL_RESULT t, 30, 30⟩
def TL_RESULT_UNSYNCED (t : Nat) : Field := ⟨TL_RESULT t, 29, 29⟩
def TL_RESULT_LATE (t : Nat) : Field := ⟨TL_RESULT t, 28, 28⟩
def TL_RESULT_REGSTART (t : Nat) : Field := ⟨TL_RESULT t, 27, 27⟩
def TL_RESULT_HALTED_EXT (t : Nat) : Field := ⟨TL_RESULT t, 26, 26⟩
def TL_RESULT_ABSENT (t : Nat) : Field := ⟨TL_RESULT t, 25, 25⟩
def TL_RESULT_RDVTMO (t : Nat) : Field := ⟨TL_RESULT t, 24, 24⟩
def TL_RESULT_STALLED (t : Nat) : Field := ⟨TL_RESULT t, 23, 23⟩
def TL_RESULT_THERMAL_EXCURSION (t : Nat) : Field := ⟨TL_RESULT t, 22, 22⟩
def TL_RESULT_ECLAMP (t : Nat) : Field := ⟨TL_RESULT t, 21, 21⟩
def TL_RESULT_STOP_CAUSE (t : Nat) : Field := ⟨TL_RESULT t, 19, 16⟩
def TL_RESULT_SEQ (t : Nat) : Field := ⟨TL_RESULT t, 15, 0⟩
/-- `TL_SEG_ENTRY` (R160). -/
def TL_SEG_ENTRY (t : Nat) : Nat := tlBase t + 0x200
def TL_SEG_ENTRY_SEG (t : Nat) : Field := ⟨TL_SEG_ENTRY t, 7, 0⟩
/-- `TL_SEG_CTRL` (R160). -/
def TL_SEG_CTRL (t : Nat) : Nat := tlBase t + 0x204
def TL_SEG_CTRL_PRIME_SEG (t : Nat) : Field := ⟨TL_SEG_CTRL t, 15, 8⟩
def TL_SEG_CTRL_PRIME (t : Nat) : Field := ⟨TL_SEG_CTRL t, 2, 2⟩
def TL_SEG_CTRL_BREAK (t : Nat) : Field := ⟨TL_SEG_CTRL t, 1, 1⟩
/-- `TL_SEG_STAT` (R160). -/
def TL_SEG_STAT (t : Nat) : Nat := tlBase t + 0x208
def TL_SEG_STAT_BRK_REQ (t : Nat) : Field := ⟨TL_SEG_STAT t, 31, 31⟩
def TL_SEG_STAT_JAE (t : Nat) : Field := ⟨TL_SEG_STAT t, 30, 30⟩
def TL_SEG_STAT_PREV (t : Nat) : Field := ⟨TL_SEG_STAT t, 7, 0⟩
/-- `TL_SEG_PASS` (R160). -/
def TL_SEG_PASS (t : Nat) : Nat := tlBase t + 0x20c
def TL_SEG_PASS_PASS (t : Nat) : Field := ⟨TL_SEG_PASS t, 31, 0⟩
/-- `TL_SEG_ERR` (R160). -/
def TL_SEG_ERR (t : Nat) : Nat := tlBase t + 0x210
def TL_SEG_ERR_ERR (t : Nat) : Field := ⟨TL_SEG_ERR t, 31, 31⟩
def TL_SEG_ERR_SEG (t : Nat) : Field := ⟨TL_SEG_ERR t, 15, 8⟩
def TL_SEG_ERR_CAUSE (t : Nat) : Field := ⟨TL_SEG_ERR t, 7, 0⟩
/-- `TL_SEG_CHECK` (R160). -/
def TL_SEG_CHECK (t : Nat) : Nat := tlBase t + 0x214
def TL_SEG_CHECK_GO (t : Nat) : Field := ⟨TL_SEG_CHECK t, 31, 31⟩
def TL_SEG_CHECK_BUSY (t : Nat) : Field := ⟨TL_SEG_CHECK t, 30, 30⟩
def TL_SEG_CHECK_RESULT (t : Nat) : Field := ⟨TL_SEG_CHECK t, 15, 8⟩
def TL_SEG_CHECK_SEG (t : Nat) : Field := ⟨TL_SEG_CHECK t, 7, 0⟩
/-- `TL_STRM_STAT` (R160). -/
def TL_STRM_STAT (t : Nat) : Nat := tlBase t + 0x220
def TL_STRM_STAT_STALL (t : Nat) : Field := ⟨TL_STRM_STAT t, 31, 31⟩
def TL_STRM_STAT_STALLED_NOW (t : Nat) : Field := ⟨TL_STRM_STAT t, 30, 30⟩
def TL_STRM_STAT_PRIMED (t : Nat) : Field := ⟨TL_STRM_STAT t, 29, 29⟩
def TL_STRM_STAT_PRIMED_SEG (t : Nat) : Field := ⟨TL_STRM_STAT t, 23, 16⟩
def TL_STRM_STAT_BUF (t : Nat) : Field := ⟨TL_STRM_STAT t, 13, 0⟩
/-- `TL_STRM_POS` (R160). -/
def TL_STRM_POS (t : Nat) : Nat := tlBase t + 0x224
def TL_STRM_POS_POS (t : Nat) : Field := ⟨TL_STRM_POS t, 31, 0⟩
/-- `TL_STRM_CNT` (R160). -/
def TL_STRM_CNT (t : Nat) : Nat := tlBase t + 0x228
def TL_STRM_CNT_PRIME_REJ (t : Nat) : Field := ⟨TL_STRM_CNT t, 31, 24⟩
def TL_STRM_CNT_POISON_SPEC (t : Nat) : Field := ⟨TL_STRM_CNT t, 23, 16⟩
def TL_STRM_CNT_STALLS (t : Nat) : Field := ⟨TL_STRM_CNT t, 15, 0⟩
/-- `TL_STRM_DEAD` (R160). -/
def TL_STRM_DEAD (t : Nat) : Nat := tlBase t + 0x22c
def TL_STRM_DEAD_TICKS (t : Nat) : Field := ⟨TL_STRM_DEAD t, 31, 0⟩
/-- `PN_CTRL` (R195). -/
def PN_CTRL (g : Nat) : Nat := pnBase g + 0
def PN_CTRL_WATCH_THR (g : Nat) : Field := ⟨PN_CTRL g, 17, 12⟩
def PN_CTRL_SELFTEST (g : Nat) : Field := ⟨PN_CTRL g, 11, 9⟩
def PN_CTRL_ILIM_ERR (g : Nat) : Field := ⟨PN_CTRL g, 8, 8⟩
def PN_CTRL_WATCH_EV (g : Nat) : Field := ⟨PN_CTRL g, 7, 7⟩
def PN_CTRL_HYST (g : Nat) : Field := ⟨PN_CTRL g, 6, 5⟩
def PN_CTRL_LATCH_MODE (g : Nat) : Field := ⟨PN_CTRL g, 4, 4⟩
def PN_CTRL_CMP_MODE (g : Nat) : Field := ⟨PN_CTRL g, 3, 2⟩
def PN_CTRL_CLAMP_EN (g : Nat) : Field := ⟨PN_CTRL g, 1, 1⟩
def PN_CTRL_DRV_EN (g : Nat) : Field := ⟨PN_CTRL g, 0, 0⟩
/-- `PN_STAT` (R195). -/
def PN_STAT (g : Nat) : Nat := pnBase g + 4
def PN_STAT_WR_BUSY (g : Nat) : Field := ⟨PN_STAT g, 31, 31⟩
def PN_STAT_CLAMP_REJ (g : Nat) : Field := ⟨PN_STAT g, 30, 30⟩
def PN_STAT_ILIM (g : Nat) : Field := ⟨PN_STAT g, 29, 29⟩
def PN_STAT_PPMU_LIM (g : Nat) : Field := ⟨PN_STAT g, 28, 28⟩
def PN_STAT_SAFE (g : Nat) : Field := ⟨PN_STAT g, 27, 27⟩
def PN_STAT_SELFTEST_ACTIVE (g : Nat) : Field := ⟨PN_STAT g, 5, 5⟩
def PN_STAT_MODE_SETTLING (g : Nat) : Field := ⟨PN_STAT g, 4, 4⟩
def PN_STAT_UNRES_HI (g : Nat) : Field := ⟨PN_STAT g, 3, 3⟩
def PN_STAT_UNRES_LO (g : Nat) : Field := ⟨PN_STAT g, 2, 2⟩
def PN_STAT_ILIM_NOW (g : Nat) : Field := ⟨PN_STAT g, 1, 1⟩
/-- `PN_CNT` (R195). -/
def PN_CNT (g : Nat) : Nat := pnBase g + 8
def PN_CNT_STROBE_MERGE (g : Nat) : Field := ⟨PN_CNT g, 31, 16⟩
def PN_CNT_ILIM_EVENTS (g : Nat) : Field := ⟨PN_CNT g, 15, 0⟩
/-- `PN_LVL` (R195). -/
def PN_LVL (g k : Nat) : Nat := pnBase g + 0x10 + 4 * k
def PN_LVL_CODE (g k : Nat) : Field := ⟨PN_LVL g k, 15, 0⟩
/-- `PN_PPMU_CTRL` (R195). -/
def PN_PPMU_CTRL (g : Nat) : Nat := pnBase g + 0x30
def PN_PPMU_CTRL_RANGE (g : Nat) : Field := ⟨PN_PPMU_CTRL g, 6, 4⟩
def PN_PPMU_CTRL_MODE (g : Nat) : Field := ⟨PN_PPMU_CTRL g, 2, 0⟩
/-- `PN_PPMU_FORCE` (R195). -/
def PN_PPMU_FORCE (g : Nat) : Nat := pnBase g + 0x34
def PN_PPMU_FORCE_CODE (g : Nat) : Field := ⟨PN_PPMU_FORCE g, 15, 0⟩
/-- `PN_CMP` (R195). -/
def PN_CMP (g : Nat) : Nat := pnBase g + 0x40
def PN_CMP_HI_SEEN (g : Nat) : Field := ⟨PN_CMP g, 3, 3⟩
def PN_CMP_LO_SEEN (g : Nat) : Field := ⟨PN_CMP g, 2, 2⟩
def PN_CMP_ABOVE_H (g : Nat) : Field := ⟨PN_CMP g, 1, 1⟩
def PN_CMP_ABOVE_L (g : Nat) : Field := ⟨PN_CMP g, 0, 0⟩
/-- `TL_CAP_CTRL` (R229). -/
def TL_CAP_CTRL (t : Nat) : Nat := tlBase t + 0x280
def TL_CAP_CTRL_FAILONLY (t : Nat) : Field := ⟨TL_CAP_CTRL t, 7, 7⟩
def TL_CAP_CTRL_AUTO (t : Nat) : Field := ⟨TL_CAP_CTRL t, 6, 6⟩
def TL_CAP_CTRL_ABORT (t : Nat) : Field := ⟨TL_CAP_CTRL t, 1, 1⟩
def TL_CAP_CTRL_ARM (t : Nat) : Field := ⟨TL_CAP_CTRL t, 0, 0⟩
/-- `TL_CAP_LEN` (R229). -/
def TL_CAP_LEN (t : Nat) : Nat := tlBase t + 0x284
def TL_CAP_LEN_POST (t : Nat) : Field := ⟨TL_CAP_LEN t, 31, 16⟩
def TL_CAP_LEN_PRE (t : Nat) : Field := ⟨TL_CAP_LEN t, 9, 0⟩
/-- `TL_CAP_STAT` (R229). -/
def TL_CAP_STAT (t : Nat) : Nat := tlBase t + 0x288
def TL_CAP_STAT_TRUNC (t : Nat) : Field := ⟨TL_CAP_STAT t, 31, 31⟩
def TL_CAP_STAT_WR_REJ (t : Nat) : Field := ⟨TL_CAP_STAT t, 30, 30⟩
def TL_CAP_STAT_ARM_BUSY (t : Nat) : Field := ⟨TL_CAP_STAT t, 29, 29⟩
def TL_CAP_STAT_POISON (t : Nat) : Field := ⟨TL_CAP_STAT t, 28, 28⟩
def TL_CAP_STAT_UNDERRUN (t : Nat) : Field := ⟨TL_CAP_STAT t, 27, 27⟩
def TL_CAP_STAT_END_WHY (t : Nat) : Field := ⟨TL_CAP_STAT t, 26, 24⟩
def TL_CAP_STAT_STATE (t : Nat) : Field := ⟨TL_CAP_STAT t, 23, 22⟩
def TL_CAP_STAT_ENTRIES (t : Nat) : Field := ⟨TL_CAP_STAT t, 21, 11⟩
def TL_CAP_STAT_PRE_GOT (t : Nat) : Field := ⟨TL_CAP_STAT t, 9, 0⟩
/-- `TL_TRIG_STATUS` (R229). -/
def TL_TRIG_STATUS (t : Nat) : Nat := tlBase t + 0x28c
def TL_TRIG_STATUS_ACT_VALID (t : Nat) : Field := ⟨TL_TRIG_STATUS t, 7, 7⟩
def TL_TRIG_STATUS_ACT_COND (t : Nat) : Field := ⟨TL_TRIG_STATUS t, 5, 4⟩
def TL_TRIG_STATUS_FIRED (t : Nat) : Field := ⟨TL_TRIG_STATUS t, 3, 0⟩
/-- `TL_TRIG_PAT` (R229). -/
def TL_TRIG_PAT (t k : Nat) : Nat := tlBase t + 0x290 + 4 * k
def TL_TRIG_PAT_CODE (t k p : Nat) : Field := ⟨TL_TRIG_PAT t k, 4 * p + 3, 4 * p⟩
/-- `TL_TRIG_CFG` (R229). -/
def TL_TRIG_CFG (t k : Nat) : Nat := tlBase t + 0x2a0 + 4 * k
def TL_TRIG_CFG_EN (t k : Nat) : Field := ⟨TL_TRIG_CFG t k, 31, 31⟩
def TL_TRIG_CFG_ACTION (t k : Nat) : Field := ⟨TL_TRIG_CFG t k, 30, 28⟩
def TL_TRIG_CFG_EVT_MODE (t k : Nat) : Field := ⟨TL_TRIG_CFG t k, 27, 26⟩
def TL_TRIG_CFG_EVT_SEL (t k : Nat) : Field := ⟨TL_TRIG_CFG t k, 25, 23⟩
def TL_TRIG_CFG_COUNT (t k : Nat) : Field := ⟨TL_TRIG_CFG t k, 15, 0⟩
/-- `TL_TRIG_VIDX` (R229). -/
def TL_TRIG_VIDX (t : Nat) : Nat := tlBase t + 0x2b0
def TL_TRIG_VIDX_VIDX (t : Nat) : Field := ⟨TL_TRIG_VIDX t, 31, 0⟩
/-- `TL_MASK_CTRL` (R229). -/
def TL_MASK_CTRL (t : Nat) : Nat := tlBase t + 0x2b4
def TL_MASK_CTRL_EN (t : Nat) : Field := ⟨TL_MASK_CTRL t, 31, 31⟩
def TL_MASK_CTRL_ACTION (t : Nat) : Field := ⟨TL_MASK_CTRL t, 30, 29⟩
def TL_MASK_CTRL_ALLOW (t : Nat) : Field := ⟨TL_MASK_CTRL t, 23, 0⟩
/-- `TL_MASK_STAT` (R229). -/
def TL_MASK_STAT (t : Nat) : Nat := tlBase t + 0x2b8
def TL_MASK_STAT_VIOL (t : Nat) : Field := ⟨TL_MASK_STAT t, 31, 16⟩
def TL_MASK_STAT_STOPPED (t : Nat) : Field := ⟨TL_MASK_STAT t, 15, 15⟩
def TL_MASK_STAT_FIRST_PINS (t : Nat) : Field := ⟨TL_MASK_STAT t, 7, 0⟩
/-- `TL_MASK_VIDX` (R229). -/
def TL_MASK_VIDX (t : Nat) : Nat := tlBase t + 0x2bc
def TL_MASK_VIDX_VIDX (t : Nat) : Field := ⟨TL_MASK_VIDX t, 31, 0⟩
/-- `TL_CAP_DEAD_LAST` (R229). -/
def TL_CAP_DEAD_LAST (t : Nat) : Nat := tlBase t + 0x2c0
def TL_CAP_DEAD_LAST_TICKS (t : Nat) : Field := ⟨TL_CAP_DEAD_LAST t, 31, 0⟩
/-- `TL_CAP_DEAD_MAX` (R229). -/
def TL_CAP_DEAD_MAX (t : Nat) : Nat := tlBase t + 0x2c4
def TL_CAP_DEAD_MAX_TICKS (t : Nat) : Field := ⟨TL_CAP_DEAD_MAX t, 31, 0⟩
/-- `TL_CAP_CNT` (R229). -/
def TL_CAP_CNT (t : Nat) : Nat := tlBase t + 0x2c8
def TL_CAP_CNT_ACQS (t : Nat) : Field := ⟨TL_CAP_CNT t, 31, 16⟩
def TL_CAP_CNT_MISSED (t : Nat) : Field := ⟨TL_CAP_CNT t, 15, 0⟩
/-- `TL_CAP_RD` (R229). -/
def TL_CAP_RD (t k : Nat) : Nat := tlBase t + 0x2d0 + 4 * k
def TL_CAP_RD_WORD (t k : Nat) : Field := ⟨TL_CAP_RD t k, 31, 0⟩
/-- `TL_CAP_RDTAG` (R229). -/
def TL_CAP_RDTAG (t : Nat) : Nat := tlBase t + 0x2e0
def TL_CAP_RDTAG_STALE (t : Nat) : Field := ⟨TL_CAP_RDTAG t, 31, 31⟩
def TL_CAP_RDTAG_POISON (t : Nat) : Field := ⟨TL_CAP_RDTAG t, 30, 30⟩
def TL_CAP_RDTAG_LEFT (t : Nat) : Field := ⟨TL_CAP_RDTAG t, 10, 0⟩
/-- `TL_FQ_CTRL` (R229). -/
def TL_FQ_CTRL (t : Nat) : Nat := tlBase t + 0x300
def TL_FQ_CTRL_FLUSH (t : Nat) : Field := ⟨TL_FQ_CTRL t, 2, 2⟩
def TL_FQ_CTRL_PKT_MODE (t : Nat) : Field := ⟨TL_FQ_CTRL t, 1, 1⟩
def TL_FQ_CTRL_DEST (t : Nat) : Field := ⟨TL_FQ_CTRL t, 0, 0⟩
/-- `TL_FQ_STAT` (R229). -/
def TL_FQ_STAT (t : Nat) : Nat := tlBase t + 0x304
def TL_FQ_STAT_UNDERRUN (t : Nat) : Field := ⟨TL_FQ_STAT t, 31, 31⟩
def TL_FQ_STAT_RD_DENIED (t : Nat) : Field := ⟨TL_FQ_STAT t, 30, 30⟩
def TL_FQ_STAT_OVERFLOW (t : Nat) : Field := ⟨TL_FQ_STAT t, 29, 29⟩
def TL_FQ_STAT_POISON (t : Nat) : Field := ⟨TL_FQ_STAT t, 28, 28⟩
def TL_FQ_STAT_FLUSH_PEND (t : Nat) : Field := ⟨TL_FQ_STAT t, 27, 27⟩
def TL_FQ_STAT_DEST_NOW (t : Nat) : Field := ⟨TL_FQ_STAT t, 26, 26⟩
def TL_FQ_STAT_DEST_PEND (t : Nat) : Field := ⟨TL_FQ_STAT t, 25, 25⟩
def TL_FQ_STAT_RUN_OPEN (t : Nat) : Field := ⟨TL_FQ_STAT t, 24, 24⟩
def TL_FQ_STAT_PKTS (t : Nat) : Field := ⟨TL_FQ_STAT t, 23, 16⟩
def TL_FQ_STAT_FILL (t : Nat) : Field := ⟨TL_FQ_STAT t, 9, 0⟩
/-- `TL_FQ_CNT` (R229). -/
def TL_FQ_CNT (t : Nat) : Nat := tlBase t + 0x308
def TL_FQ_CNT_DROPPED (t : Nat) : Field := ⟨TL_FQ_CNT t, 31, 16⟩
def TL_FQ_CNT_CHAFFS (t : Nat) : Field := ⟨TL_FQ_CNT t, 15, 0⟩
/-- `TL_FQ_RECS` (R229). -/
def TL_FQ_RECS (t : Nat) : Nat := tlBase t + 0x30c
def TL_FQ_RECS_RECS (t : Nat) : Field := ⟨TL_FQ_RECS t, 31, 0⟩
/-- `TL_FQ_RD` (R229). -/
def TL_FQ_RD (t k : Nat) : Nat := tlBase t + 0x310 + 4 * k
def TL_FQ_RD_WORD (t k : Nat) : Field := ⟨TL_FQ_RD t k, 31, 0⟩
/-- `TL_FQ_RDTAG` (R229). -/
def TL_FQ_RDTAG (t : Nat) : Nat := tlBase t + 0x320
def TL_FQ_RDTAG_STALE (t : Nat) : Field := ⟨TL_FQ_RDTAG t, 31, 31⟩
def TL_FQ_RDTAG_POISON (t : Nat) : Field := ⟨TL_FQ_RDTAG t, 30, 30⟩
def TL_FQ_RDTAG_LEFT (t : Nat) : Field := ⟨TL_FQ_RDTAG t, 9, 0⟩
/-- `TH_CTRL` (R265). -/
def TH_CTRL (i : Nat) : Nat := thBase i + 0
def TH_CTRL_HMQ (i : Nat) : Field := ⟨TH_CTRL i, 9, 8⟩
def TH_CTRL_FAILMAP (i : Nat) : Field := ⟨TH_CTRL i, 4, 4⟩
def TH_CTRL_MODE (i : Nat) : Field := ⟨TH_CTRL i, 3, 2⟩
def TH_CTRL_RESTART (i : Nat) : Field := ⟨TH_CTRL i, 1, 1⟩
def TH_CTRL_RUN (i : Nat) : Field := ⟨TH_CTRL i, 0, 0⟩
/-- `TH_STAT` (R265). -/
def TH_STAT (i : Nat) : Nat := thBase i + 4
def TH_STAT_WR_BUSY (i : Nat) : Field := ⟨TH_STAT i, 31, 31⟩
def TH_STAT_NOTICE_LOST (i : Nat) : Field := ⟨TH_STAT i, 30, 30⟩
def TH_STAT_CMD_REJ (i : Nat) : Field := ⟨TH_STAT i, 29, 29⟩
def TH_STAT_HELD (i : Nat) : Field := ⟨TH_STAT i, 28, 28⟩
def TH_STAT_TAGS (i : Nat) : Field := ⟨TH_STAT i, 21, 16⟩
def TH_STAT_IN_FILL (i : Nat) : Field := ⟨TH_STAT i, 12, 8⟩
def TH_STAT_STATE (i : Nat) : Field := ⟨TH_STAT i, 2, 0⟩
/-- `TH_FAULT` (R265). -/
def TH_FAULT (i : Nat) : Nat := thBase i + 8
def TH_FAULT_UPC (i : Nat) : Field := ⟨TH_FAULT i, 29, 16⟩
def TH_FAULT_CAUSE (i : Nat) : Field := ⟨TH_FAULT i, 7, 0⟩
/-- `TH_ENTRY` (R265). -/
def TH_ENTRY (i k : Nat) : Nat := thBase i + 0x10 + 4 * k
def TH_ENTRY_INDEX (i k : Nat) : Field := ⟨TH_ENTRY i k, 13, 0⟩
/-- `TH_CMD` (R265). -/
def TH_CMD (i : Nat) : Nat := thBase i + 0x28
def TH_CMD_GO (i : Nat) : Field := ⟨TH_CMD i, 31, 31⟩
def TH_CMD_CMD (i : Nat) : Field := ⟨TH_CMD i, 27, 24⟩
def TH_CMD_Q (i : Nat) : Field := ⟨TH_CMD i, 1, 0⟩
/-- `TH_RING_LO` (R265). -/
def TH_RING_LO (i : Nat) : Nat := thBase i + 0x30
def TH_RING_LO_BASE_LO (i : Nat) : Field := ⟨TH_RING_LO i, 31, 6⟩
/-- `TH_RING_HI` (R265). -/
def TH_RING_HI (i : Nat) : Nat := thBase i + 0x34
def TH_RING_HI_SIZE (i : Nat) : Field := ⟨TH_RING_HI i, 31, 28⟩
def TH_RING_HI_BASE_HI (i : Nat) : Field := ⟨TH_RING_HI i, 1, 0⟩
/-- `TH_RING_HEAD` (R265). -/
def TH_RING_HEAD (i : Nat) : Nat := thBase i + 0x38
def TH_RING_HEAD_INDEX (i : Nat) : Field := ⟨TH_RING_HEAD i, 15, 0⟩
/-- `TH_RING_TAIL` (R265). -/
def TH_RING_TAIL (i : Nat) : Nat := thBase i + 0x3c
def TH_RING_TAIL_INDEX (i : Nat) : Field := ⟨TH_RING_TAIL i, 15, 0⟩
/-- `TH_CNT_REC` (R265). -/
def TH_CNT_REC (i : Nat) : Nat := thBase i + 0x40
def TH_CNT_REC_RECS (i : Nat) : Field := ⟨TH_CNT_REC i, 31, 0⟩
/-- `TH_CNT_ABN` (R265). -/
def TH_CNT_ABN (i : Nat) : Nat := thBase i + 0x44
def TH_CNT_ABN_ABANDONS (i : Nat) : Field := ⟨TH_CNT_ABN i, 31, 16⟩
def TH_CNT_ABN_POISONED (i : Nat) : Field := ⟨TH_CNT_ABN i, 15, 0⟩
/-- `TH_CNT_WAIT` (R265). -/
def TH_CNT_WAIT (i : Nat) : Nat := thBase i + 0x48
def TH_CNT_WAIT_CYCLES (i : Nat) : Field := ⟨TH_CNT_WAIT i, 31, 0⟩
/-- `SH_UC_VERSION` (R265). -/
def SH_UC_VERSION (s : Nat) : Nat := shBase s + 0x800
def SH_UC_VERSION_SRC (s : Nat) : Field := ⟨SH_UC_VERSION s, 31, 28⟩
def SH_UC_VERSION_VERSION (s : Nat) : Field := ⟨SH_UC_VERSION s, 23, 16⟩
def SH_UC_VERSION_HASH (s : Nat) : Field := ⟨SH_UC_VERSION s, 15, 0⟩
/-- `SH_UCS_CTRL` (R265). -/
def SH_UCS_CTRL (s : Nat) : Nat := shBase s + 0x804
def SH_UCS_CTRL_LOAD_EN (s : Nat) : Field := ⟨SH_UCS_CTRL s, 31, 31⟩
def SH_UCS_CTRL_REFUSED (s : Nat) : Field := ⟨SH_UCS_CTRL s, 30, 30⟩
def SH_UCS_CTRL_ADDR (s : Nat) : Field := ⟨SH_UCS_CTRL s, 13, 0⟩
/-- `SH_UCS_DATA` (R265). -/
def SH_UCS_DATA (s k : Nat) : Nat := shBase s + 0x810 + 4 * k
def SH_UCS_DATA_DATA (s k : Nat) : Field := ⟨SH_UCS_DATA s k, 31, 0⟩
/-- `SH_UCS_FINISH` (R265). -/
def SH_UCS_FINISH (s : Nat) : Nat := shBase s + 0x830
def SH_UCS_FINISH_GO (s : Nat) : Field := ⟨SH_UCS_FINISH s, 31, 31⟩
def SH_UCS_FINISH_VERSION (s : Nat) : Field := ⟨SH_UCS_FINISH s, 23, 16⟩
def SH_UCS_FINISH_HASH (s : Nat) : Field := ⟨SH_UCS_FINISH s, 15, 0⟩
/-- `SH_UCS_ECC` (R265). -/
def SH_UCS_ECC (s : Nat) : Nat := shBase s + 0x834
def SH_UCS_ECC_CORR (s : Nat) : Field := ⟨SH_UCS_ECC s, 31, 16⟩
def SH_UCS_ECC_UNCORR (s : Nat) : Field := ⟨SH_UCS_ECC s, 15, 0⟩
/-- `SH_CTX_MAP` (R265). -/
def SH_CTX_MAP (s k : Nat) : Nat := shBase s + 0x840 + 4 * k
def SH_CTX_MAP_COUNT (s k : Nat) : Field := ⟨SH_CTX_MAP s k, 28, 16⟩
def SH_CTX_MAP_BASE (s k : Nat) : Field := ⟨SH_CTX_MAP s k, 11, 0⟩
/-- `SH_RMAP` (R265). -/
def SH_RMAP (s k : Nat) : Nat := shBase s + 0x850 + 4 * k
def SH_RMAP_COLW (s k : Nat) : Field := ⟨SH_RMAP s k, 27, 23⟩
def SH_RMAP_ROWW (s k : Nat) : Field := ⟨SH_RMAP s k, 22, 18⟩
def SH_RMAP_YW (s k : Nat) : Field := ⟨SH_RMAP s k, 17, 14⟩
def SH_RMAP_YSH (s k : Nat) : Field := ⟨SH_RMAP s k, 13, 9⟩
def SH_RMAP_XW (s k : Nat) : Field := ⟨SH_RMAP s k, 8, 5⟩
def SH_RMAP_XSH (s k : Nat) : Field := ⟨SH_RMAP s k, 4, 0⟩
/-- `SH_SPARE` (R265). -/
def SH_SPARE (s k : Nat) : Nat := shBase s + 0x860 + 4 * k
def SH_SPARE_DQ_MASK (s k : Nat) : Field := ⟨SH_SPARE s k, 15, 8⟩
def SH_SPARE_SC (s k : Nat) : Field := ⟨SH_SPARE s k, 7, 4⟩
def SH_SPARE_SR (s k : Nat) : Field := ⟨SH_SPARE s k, 3, 0⟩
/-- `SH_BMAP_LO` (R265). -/
def SH_BMAP_LO (s k : Nat) : Nat := shBase s + 0x880 + 8 * k
def SH_BMAP_LO_BASE_LO (s k : Nat) : Field := ⟨SH_BMAP_LO s k, 31, 6⟩
def SH_BMAP_LO_SHIFT (s k : Nat) : Field := ⟨SH_BMAP_LO s k, 5, 0⟩
/-- `SH_BMAP_HI` (R265). -/
def SH_BMAP_HI (s k : Nat) : Nat := shBase s + 0x884 + 8 * k
def SH_BMAP_HI_BASE_HI (s k : Nat) : Field := ⟨SH_BMAP_HI s k, 1, 0⟩
/-- `SH_PKT_SEQ` (R265). -/
def SH_PKT_SEQ (s k : Nat) : Nat := shBase s + 0x8a0 + 4 * k
def SH_PKT_SEQ_SEQ (s k : Nat) : Field := ⟨SH_PKT_SEQ s k, 31, 0⟩
/-- `SH_CTX_STAT` (R265). -/
def SH_CTX_STAT (s : Nat) : Nat := shBase s + 0x8b0
def SH_CTX_STAT_WR_DENIED (s : Nat) : Field := ⟨SH_CTX_STAT s, 31, 31⟩
def SH_CTX_STAT_CORR (s : Nat) : Field := ⟨SH_CTX_STAT s, 15, 0⟩
/-- `SH_UCRD_ADDR` (R265). -/
def SH_UCRD_ADDR (s : Nat) : Nat := shBase s + 0x8c0
def SH_UCRD_ADDR_UNCORR (s : Nat) : Field := ⟨SH_UCRD_ADDR s, 31, 31⟩
def SH_UCRD_ADDR_ADDR (s : Nat) : Field := ⟨SH_UCRD_ADDR s, 13, 0⟩
/-- `SH_UCRD_D` (R265). -/
def SH_UCRD_D (s k : Nat) : Nat := shBase s + 0x8c4 + 4 * k
def SH_UCRD_D_DATA (s k : Nat) : Field := ⟨SH_UCRD_D s k, 31, 0⟩
/-- `SH_XBAR_ROUTE` (R265). -/
def SH_XBAR_ROUTE (s : Nat) : Nat := shBase s + 0xc00
def SH_XBAR_ROUTE_PEND (s : Nat) : Field := ⟨SH_XBAR_ROUTE s, 7, 4⟩
def SH_XBAR_ROUTE_ROUTE (s : Nat) : Field := ⟨SH_XBAR_ROUTE s, 3, 0⟩
/-- `TL_VDUT_CTRL` (R299). -/
def TL_SUP_CTRL (t h : Nat) : Nat := tlBase t + 0x500 + 0x100 * h
def TL_SUP_CTRL_CB_EN (t h : Nat) : Field := ⟨TL_SUP_CTRL t h, 31, 31⟩
def TL_SUP_CTRL_SUP_EN (t h : Nat) : Field := ⟨TL_SUP_CTRL t h, 30, 30⟩
def TL_SUP_CTRL_CLEAR (t h : Nat) : Field := ⟨TL_SUP_CTRL t h, 8, 8⟩
def TL_SUP_CTRL_SRC (t h : Nat) : Field := ⟨TL_SUP_CTRL t h, 7, 6⟩
def TL_SUP_CTRL_RNG (t h : Nat) : Field := ⟨TL_SUP_CTRL t h, 5, 4⟩
def TL_SUP_CTRL_EN (t h : Nat) : Field := ⟨TL_SUP_CTRL t h, 0, 0⟩
/-- `TL_VDUT_CODE` (R299). -/
def TL_SUP_CODE (t h : Nat) : Nat := tlBase t + 0x504 + 0x100 * h
def TL_SUP_CODE_CODE (t h : Nat) : Field := ⟨TL_SUP_CODE t h, 17, 0⟩
/-- `TL_VDUT_STAT` (R299). -/
def TL_SUP_STAT (t h : Nat) : Nat := tlBase t + 0x508 + 0x100 * h
def TL_SUP_STAT_ECLAMP (t h : Nat) : Field := ⟨TL_SUP_STAT t h, 31, 31⟩
def TL_SUP_STAT_VLIMIT (t h : Nat) : Field := ⟨TL_SUP_STAT t h, 30, 30⟩
def TL_SUP_STAT_ILIM (t h : Nat) : Field := ⟨TL_SUP_STAT t h, 29, 29⟩
def TL_SUP_STAT_DROPOUT (t h : Nat) : Field := ⟨TL_SUP_STAT t h, 28, 28⟩
def TL_SUP_STAT_STUCK (t h : Nat) : Field := ⟨TL_SUP_STAT t h, 27, 27⟩
def TL_SUP_STAT_CEIL_REJ (t h : Nat) : Field := ⟨TL_SUP_STAT t h, 26, 26⟩
def TL_SUP_STAT_RANGE_BUSY (t h : Nat) : Field := ⟨TL_SUP_STAT t h, 25, 25⟩
def TL_SUP_STAT_CAUSE (t h : Nat) : Field := ⟨TL_SUP_STAT t h, 15, 8⟩
def TL_SUP_STAT_SETTLE (t h : Nat) : Field := ⟨TL_SUP_STAT t h, 7, 7⟩
def TL_SUP_STAT_RNG_PEND (t h : Nat) : Field := ⟨TL_SUP_STAT t h, 6, 6⟩
def TL_SUP_STAT_SENSE_OPEN (t h : Nat) : Field := ⟨TL_SUP_STAT t h, 5, 5⟩
def TL_SUP_STAT_ILIM_NOW (t h : Nat) : Field := ⟨TL_SUP_STAT t h, 4, 4⟩
def TL_SUP_STAT_STATE (t h : Nat) : Field := ⟨TL_SUP_STAT t h, 1, 0⟩
/-- `TL_VDUT_VLIM` (R299). -/
def TL_SUP_VLIM (t h : Nat) : Nat := tlBase t + 0x50c + 0x100 * h
def TL_SUP_VLIM_VLIM (t h : Nat) : Field := ⟨TL_SUP_VLIM t h, 17, 0⟩
/-- `TL_VDUT_CEXT` (R299). -/
def TL_SUP_CEXT (t h : Nat) : Nat := tlBase t + 0x510 + 0x100 * h
def TL_SUP_CEXT_CEXT (t h : Nat) : Field := ⟨TL_SUP_CEXT t h, 19, 0⟩
/-- `TL_VDUT_ECEIL` (R299). -/
def TL_SUP_ECEIL (t h : Nat) : Nat := tlBase t + 0x514 + 0x100 * h
def TL_SUP_ECEIL_ECEIL (t h : Nat) : Field := ⟨TL_SUP_ECEIL t h, 15, 0⟩
/-- `TL_VDUT_TGT` (R299). -/
def TL_SUP_TGT (t h : Nat) : Nat := tlBase t + 0x518 + 0x100 * h
def TL_SUP_TGT_CODE (t h : Nat) : Field := ⟨TL_SUP_TGT t h, 17, 0⟩
/-- `TL_VDUT_EMAX` (R299). -/
def TL_SUP_EMAX (t h : Nat) : Nat := tlBase t + 0x51c + 0x100 * h
def TL_SUP_EMAX_CODE (t h : Nat) : Field := ⟨TL_SUP_EMAX t h, 17, 0⟩
/-- `TL_VDUT_OUT` (R299). -/
def TL_SUP_OUT (t h : Nat) : Nat := tlBase t + 0x520 + 0x100 * h
def TL_SUP_OUT_CODE (t h : Nat) : Field := ⟨TL_SUP_OUT t h, 17, 0⟩
/-- `TL_VDUT_ILIM` (R299). -/
def TL_SUP_ILIM (t h : Nat) : Nat := tlBase t + 0x524 + 0x100 * h
def TL_SUP_ILIM_TIME (t h : Nat) : Field := ⟨TL_SUP_ILIM t h, 31, 16⟩
def TL_SUP_ILIM_CODE (t h : Nat) : Field := ⟨TL_SUP_ILIM t h, 15, 0⟩
/-- `TL_VDUT_SLEW` (R299). -/
def TL_SUP_SLEW (t h : Nat) : Nat := tlBase t + 0x528 + 0x100 * h
def TL_SUP_SLEW_RATE (t h : Nat) : Field := ⟨TL_SUP_SLEW t h, 31, 16⟩
def TL_SUP_SLEW_STEP (t h : Nat) : Field := ⟨TL_SUP_SLEW t h, 15, 0⟩
/-- `TL_VDUT_SUP` (R299). -/
def TL_SUP_SUP (t h : Nat) : Nat := tlBase t + 0x52c + 0x100 * h
def TL_SUP_SUP_CNT (t h : Nat) : Field := ⟨TL_SUP_SUP t h, 27, 24⟩
def TL_SUP_SUP_LAG (t h : Nat) : Field := ⟨TL_SUP_SUP t h, 23, 16⟩
def TL_SUP_SUP_TOL (t h : Nat) : Field := ⟨TL_SUP_SUP t h, 11, 0⟩
/-- `TL_VDUT_CB` (R299). -/
def TL_SUP_CB (t h : Nat) : Nat := tlBase t + 0x530 + 0x100 * h
def TL_SUP_CB_ARC (t h : Nat) : Field := ⟨TL_SUP_CB t h, 23, 16⟩
def TL_SUP_CB_COLLAPSE (t h : Nat) : Field := ⟨TL_SUP_CB t h, 15, 8⟩
def TL_SUP_CB_OVS (t h : Nat) : Field := ⟨TL_SUP_CB t h, 7, 0⟩
/-- `TL_VDUT_CNT` (R299). -/
def TL_SUP_CNT (t h : Nat) : Nat := tlBase t + 0x534 + 0x100 * h
def TL_SUP_CNT_CROWBARS (t h : Nat) : Field := ⟨TL_SUP_CNT t h, 31, 24⟩
def TL_SUP_CNT_HOTSW (t h : Nat) : Field := ⟨TL_SUP_CNT t h, 23, 16⟩
def TL_SUP_CNT_ILIM_EVENTS (t h : Nat) : Field := ⟨TL_SUP_CNT t h, 15, 0⟩
/-- `TL_VDUT_ECNT` (R299). -/
def TL_SUP_ECNT (t h : Nat) : Nat := tlBase t + 0x538 + 0x100 * h
def TL_SUP_ECNT_COUNT (t h : Nat) : Field := ⟨TL_SUP_ECNT t h, 31, 0⟩
/-- `TL_VDUT_WF_CTRL` (R299). -/
def TL_SUP_WF_CTRL (t h : Nat) : Nat := tlBase t + 0x540 + 0x100 * h
def TL_SUP_WF_CTRL_GO (t h : Nat) : Field := ⟨TL_SUP_WF_CTRL t h, 31, 31⟩
def TL_SUP_WF_CTRL_STOP (t h : Nat) : Field := ⟨TL_SUP_WF_CTRL t h, 30, 30⟩
def TL_SUP_WF_CTRL_START_SRC (t h : Nat) : Field := ⟨TL_SUP_WF_CTRL t h, 27, 26⟩
def TL_SUP_WF_CTRL_EVT_SEL (t h : Nat) : Field := ⟨TL_SUP_WF_CTRL t h, 25, 23⟩
def TL_SUP_WF_CTRL_LOOP (t h : Nat) : Field := ⟨TL_SUP_WF_CTRL t h, 22, 22⟩
def TL_SUP_WF_CTRL_END_RET (t h : Nat) : Field := ⟨TL_SUP_WF_CTRL t h, 21, 21⟩
def TL_SUP_WF_CTRL_GEN (t h : Nat) : Field := ⟨TL_SUP_WF_CTRL t h, 20, 19⟩
def TL_SUP_WF_CTRL_SAW_DN (t h : Nat) : Field := ⟨TL_SUP_WF_CTRL t h, 18, 18⟩
/-- `TL_VDUT_WF_STAT` (R299). -/
def TL_SUP_WF_STAT (t h : Nat) : Nat := tlBase t + 0x544 + 0x100 * h
def TL_SUP_WF_STAT_WR_BUSY (t h : Nat) : Field := ⟨TL_SUP_WF_STAT t h, 31, 31⟩
def TL_SUP_WF_STAT_START_LATE (t h : Nat) : Field := ⟨TL_SUP_WF_STAT t h, 30, 30⟩
def TL_SUP_WF_STAT_REFUSED (t h : Nat) : Field := ⟨TL_SUP_WF_STAT t h, 29, 29⟩
def TL_SUP_WF_STAT_STATE (t h : Nat) : Field := ⟨TL_SUP_WF_STAT t h, 26, 25⟩
def TL_SUP_WF_STAT_POS (t h : Nat) : Field := ⟨TL_SUP_WF_STAT t h, 24, 0⟩
/-- `TL_VDUT_WF_BASE_LO` (R299). -/
def TL_SUP_WF_BASE_LO (t h : Nat) : Nat := tlBase t + 0x548 + 0x100 * h
def TL_SUP_WF_BASE_LO_BASE_LO (t h : Nat) : Field := ⟨TL_SUP_WF_BASE_LO t h, 31, 6⟩
/-- `TL_VDUT_WF_BASE_HI` (R299). -/
def TL_SUP_WF_BASE_HI (t h : Nat) : Nat := tlBase t + 0x54c + 0x100 * h
def TL_SUP_WF_BASE_HI_BASE_HI (t h : Nat) : Field := ⟨TL_SUP_WF_BASE_HI t h, 1, 0⟩
/-- `TL_VDUT_WF_LEN` (R299). -/
def TL_SUP_WF_LEN (t h : Nat) : Nat := tlBase t + 0x550 + 0x100 * h
def TL_SUP_WF_LEN_LEN (t h : Nat) : Field := ⟨TL_SUP_WF_LEN t h, 24, 0⟩
/-- `TL_VDUT_WF_STEP` (R299). -/
def TL_SUP_WF_STEP (t h : Nat) : Nat := tlBase t + 0x554 + 0x100 * h
def TL_SUP_WF_STEP_STEP (t h : Nat) : Field := ⟨TL_SUP_WF_STEP t h, 16, 0⟩
/-- `TL_VDUT_WF_START` (R299). -/
def TL_SUP_WF_START (t h : Nat) : Nat := tlBase t + 0x558 + 0x100 * h
def TL_SUP_WF_START_VALUE (t h : Nat) : Field := ⟨TL_SUP_WF_START t h, 31, 0⟩
/-- `TL_VDUT_WF_FREQ` (R299). -/
def TL_SUP_WF_FREQ (t h : Nat) : Nat := tlBase t + 0x560 + 0x100 * h
def TL_SUP_WF_FREQ_VALUE (t h : Nat) : Field := ⟨TL_SUP_WF_FREQ t h, 31, 0⟩
/-- `TL_VDUT_WF_PHASE` (R299). -/
def TL_SUP_WF_PHASE (t h : Nat) : Nat := tlBase t + 0x564 + 0x100 * h
def TL_SUP_WF_PHASE_VALUE (t h : Nat) : Field := ⟨TL_SUP_WF_PHASE t h, 31, 0⟩
/-- `TL_VDUT_WF_SEED` (R299). -/
def TL_SUP_WF_SEED (t h : Nat) : Nat := tlBase t + 0x568 + 0x100 * h
def TL_SUP_WF_SEED_VALUE (t h : Nat) : Field := ⟨TL_SUP_WF_SEED t h, 31, 0⟩
/-- `TL_VDUT_WF_AMP` (R299). -/
def TL_SUP_WF_AMP (t h : Nat) : Nat := tlBase t + 0x55c + 0x100 * h
def TL_SUP_WF_AMP_AMP (t h : Nat) : Field := ⟨TL_SUP_WF_AMP t h, 17, 0⟩
/-- `TL_VDUT_WF_NOISE` (R299). -/
def TL_SUP_WF_NOISE (t h : Nat) : Nat := tlBase t + 0x56c + 0x100 * h
def TL_SUP_WF_NOISE_HP (t h : Nat) : Field := ⟨TL_SUP_WF_NOISE t h, 11, 8⟩
def TL_SUP_WF_NOISE_LP (t h : Nat) : Field := ⟨TL_SUP_WF_NOISE t h, 3, 0⟩
/-- `GL_VRAW_TRIM_W` (R300). -/
def GL_VRAW_TRIM_W : Nat := 0x300
def GL_VRAW_TRIM_W_MODE : Field := ⟨GL_VRAW_TRIM_W, 31, 30⟩
def GL_VRAW_TRIM_W_CUR : Field := ⟨GL_VRAW_TRIM_W, 28, 16⟩
def GL_VRAW_TRIM_W_TARGET : Field := ⟨GL_VRAW_TRIM_W, 12, 0⟩
/-- `GL_VRAW_TRIM_E` (R300). -/
def GL_VRAW_TRIM_E : Nat := 0x304
def GL_VRAW_TRIM_E_MODE : Field := ⟨GL_VRAW_TRIM_E, 31, 30⟩
def GL_VRAW_TRIM_E_CUR : Field := ⟨GL_VRAW_TRIM_E, 28, 16⟩
def GL_VRAW_TRIM_E_TARGET : Field := ⟨GL_VRAW_TRIM_E, 12, 0⟩
/-- `GL_VRAW_STAT` (R300). -/
def GL_VRAW_STAT : Nat := 0x308
def GL_VRAW_STAT_W_OK : Field := ⟨GL_VRAW_STAT, 31, 31⟩
def GL_VRAW_STAT_E_OK : Field := ⟨GL_VRAW_STAT, 30, 30⟩
def GL_VRAW_STAT_E_MV : Field := ⟨GL_VRAW_STAT, 28, 16⟩
def GL_VRAW_STAT_W_MV : Field := ⟨GL_VRAW_STAT, 12, 0⟩
/-- `TL_ADC_CTRL` (R326). -/
def TL_ADC_CTRL (t : Nat) : Nat := tlBase t + 0x400
def TL_ADC_CTRL_ABORT (t : Nat) : Field := ⟨TL_ADC_CTRL t, 2, 2⟩
def TL_ADC_CTRL_TRIG (t : Nat) : Field := ⟨TL_ADC_CTRL t, 1, 1⟩
def TL_ADC_CTRL_REF_EN (t : Nat) : Field := ⟨TL_ADC_CTRL t, 0, 0⟩
/-- `TL_ADC_CFG` (R326). -/
def TL_ADC_CFG (t : Nat) : Nat := tlBase t + 0x404
def TL_ADC_CFG_PERIOD (t : Nat) : Field := ⟨TL_ADC_CFG t, 31, 16⟩
def TL_ADC_CFG_FLEN (t : Nat) : Field := ⟨TL_ADC_CFG t, 15, 12⟩
def TL_ADC_CFG_RANGE (t : Nat) : Field := ⟨TL_ADC_CFG t, 9, 8⟩
def TL_ADC_CFG_INPUT (t : Nat) : Field := ⟨TL_ADC_CFG t, 3, 0⟩
/-- `TL_ADC_BURST` (R326). -/
def TL_ADC_BURST (t : Nat) : Nat := tlBase t + 0x408
def TL_ADC_BURST_BUF_EN (t : Nat) : Field := ⟨TL_ADC_BURST t, 31, 31⟩
def TL_ADC_BURST_COUNT (t : Nat) : Field := ⟨TL_ADC_BURST t, 15, 0⟩
/-- `TL_ADC_STAT` (R326). -/
def TL_ADC_STAT (t : Nat) : Nat := tlBase t + 0x40c
def TL_ADC_STAT_TRUNC (t : Nat) : Field := ⟨TL_ADC_STAT t, 31, 31⟩
def TL_ADC_STAT_BUF_REJ (t : Nat) : Field := ⟨TL_ADC_STAT t, 30, 30⟩
def TL_ADC_STAT_ABORTED (t : Nat) : Field := ⟨TL_ADC_STAT t, 29, 29⟩
def TL_ADC_STAT_REF_READY (t : Nat) : Field := ⟨TL_ADC_STAT t, 28, 28⟩
def TL_ADC_STAT_REF_ON (t : Nat) : Field := ⟨TL_ADC_STAT t, 27, 27⟩
def TL_ADC_STAT_HELD (t : Nat) : Field := ⟨TL_ADC_STAT t, 26, 26⟩
def TL_ADC_STAT_BUSY (t : Nat) : Field := ⟨TL_ADC_STAT t, 25, 25⟩
def TL_ADC_STAT_CAL_SUSP (t : Nat) : Field := ⟨TL_ADC_STAT t, 24, 24⟩
def TL_ADC_STAT_CAL_ROUND (t : Nat) : Field := ⟨TL_ADC_STAT t, 23, 16⟩
def TL_ADC_STAT_SETTLE_LEFT (t : Nat) : Field := ⟨TL_ADC_STAT t, 8, 0⟩
/-- `TL_ADC_CNT` (R326). -/
def TL_ADC_CNT (t : Nat) : Nat := tlBase t + 0x410
def TL_ADC_CNT_OVERRUN (t : Nat) : Field := ⟨TL_ADC_CNT t, 31, 16⟩
def TL_ADC_CNT_DLY (t : Nat) : Field := ⟨TL_ADC_CNT t, 15, 0⟩
/-- `TL_ADC_RES_LO` (R326). -/
def TL_ADC_RES_LO (t : Nat) : Nat := tlBase t + 0x418
def TL_ADC_RES_LO_WORD (t : Nat) : Field := ⟨TL_ADC_RES_LO t, 31, 0⟩
/-- `TL_ADC_RES_HI` (R326). -/
def TL_ADC_RES_HI (t : Nat) : Nat := tlBase t + 0x41c
def TL_ADC_RES_HI_VALID (t : Nat) : Field := ⟨TL_ADC_RES_HI t, 31, 31⟩
def TL_ADC_RES_HI_SEQ (t : Nat) : Field := ⟨TL_ADC_RES_HI t, 15, 0⟩
/-- `TL_ADC_SUM_LO` (R326). -/
def TL_ADC_SUM_LO (t : Nat) : Nat := tlBase t + 0x420
def TL_ADC_SUM_LO_SUM (t : Nat) : Field := ⟨TL_ADC_SUM_LO t, 31, 0⟩
/-- `TL_ADC_SUM_HI` (R326). -/
def TL_ADC_SUM_HI (t : Nat) : Nat := tlBase t + 0x424
def TL_ADC_SUM_HI_SUM (t : Nat) : Field := ⟨TL_ADC_SUM_HI t, 31, 0⟩
/-- `TL_ADC_MINMAX` (R326). -/
def TL_ADC_MINMAX (t : Nat) : Nat := tlBase t + 0x428
def TL_ADC_MINMAX_MAX (t : Nat) : Field := ⟨TL_ADC_MINMAX t, 31, 16⟩
def TL_ADC_MINMAX_MIN (t : Nat) : Field := ⟨TL_ADC_MINMAX t, 15, 0⟩
/-- `TL_ADC_NUSED` (R326). -/
def TL_ADC_NUSED (t : Nat) : Nat := tlBase t + 0x42c
def TL_ADC_NUSED_N_TOTAL (t : Nat) : Field := ⟨TL_ADC_NUSED t, 31, 16⟩
def TL_ADC_NUSED_N_USED (t : Nat) : Field := ⟨TL_ADC_NUSED t, 15, 0⟩
/-- `TL_ADC_BUF_LO` (R326). -/
def TL_ADC_BUF_LO (t : Nat) : Nat := tlBase t + 0x430
def TL_ADC_BUF_LO_BASE_LO (t : Nat) : Field := ⟨TL_ADC_BUF_LO t, 31, 6⟩
/-- `TL_ADC_BUF_HI` (R326). -/
def TL_ADC_BUF_HI (t : Nat) : Nat := tlBase t + 0x434
def TL_ADC_BUF_HI_BASE_HI (t : Nat) : Field := ⟨TL_ADC_BUF_HI t, 1, 0⟩
/-- `TL_ADC_BUF_LEN` (R326). -/
def TL_ADC_BUF_LEN (t : Nat) : Nat := tlBase t + 0x438
def TL_ADC_BUF_LEN_LEN (t : Nat) : Field := ⟨TL_ADC_BUF_LEN t, 15, 0⟩
/-- `TL_TDC_CTRL` (R326). -/
def TL_TDC_CTRL (t : Nat) : Nat := tlBase t + 0x380
def TL_TDC_CTRL_ABORT (t : Nat) : Field := ⟨TL_TDC_CTRL t, 2, 2⟩
def TL_TDC_CTRL_ARM (t : Nat) : Field := ⟨TL_TDC_CTRL t, 1, 1⟩
/-- `TL_TDC_SRC` (R326). -/
def TL_TDC_SRC (t : Nat) : Nat := tlBase t + 0x384
def TL_TDC_SRC_STOP (t : Nat) : Field := ⟨TL_TDC_SRC t, 15, 8⟩
def TL_TDC_SRC_START (t : Nat) : Field := ⟨TL_TDC_SRC t, 7, 0⟩
/-- `TL_TDC_CFG` (R326). -/
def TL_TDC_CFG (t : Nat) : Nat := tlBase t + 0x388
def TL_TDC_CFG_N (t : Nat) : Field := ⟨TL_TDC_CFG t, 31, 16⟩
def TL_TDC_CFG_HOLDOFF (t : Nat) : Field := ⟨TL_TDC_CFG t, 10, 0⟩
/-- `TL_TDC_TMO` (R326). -/
def TL_TDC_TMO (t : Nat) : Nat := tlBase t + 0x38c
def TL_TDC_TMO_TMO (t : Nat) : Field := ⟨TL_TDC_TMO t, 31, 0⟩
/-- `TL_TDC_STAT` (R326). -/
def TL_TDC_STAT (t : Nat) : Nat := tlBase t + 0x390
def TL_TDC_STAT_STATE (t : Nat) : Field := ⟨TL_TDC_STAT t, 31, 30⟩
def TL_TDC_STAT_ARM_REJ (t : Nat) : Field := ⟨TL_TDC_STAT t, 29, 29⟩
def TL_TDC_STAT_SAT (t : Nat) : Field := ⟨TL_TDC_STAT t, 28, 28⟩
def TL_TDC_STAT_PAIRS (t : Nat) : Field := ⟨TL_TDC_STAT t, 15, 0⟩
/-- `TL_TDC_RESULT` (R326). -/
def TL_TDC_RESULT (t : Nat) : Nat := tlBase t + 0x394
def TL_TDC_RESULT_VALID (t : Nat) : Field := ⟨TL_TDC_RESULT t, 31, 31⟩
def TL_TDC_RESULT_END (t : Nat) : Field := ⟨TL_TDC_RESULT t, 30, 28⟩
def TL_TDC_RESULT_SEQ (t : Nat) : Field := ⟨TL_TDC_RESULT t, 15, 0⟩
/-- `TL_TDC_CNT` (R326). -/
def TL_TDC_CNT (t : Nat) : Nat := tlBase t + 0x398
def TL_TDC_CNT_ORDER (t : Nat) : Field := ⟨TL_TDC_CNT t, 31, 24⟩
def TL_TDC_CNT_TIGHT (t : Nat) : Field := ⟨TL_TDC_CNT t, 23, 16⟩
def TL_TDC_CNT_NOSTOP (t : Nat) : Field := ⟨TL_TDC_CNT t, 15, 8⟩
def TL_TDC_CNT_OVF (t : Nat) : Field := ⟨TL_TDC_CNT t, 7, 0⟩
/-- `TL_TDC_LAST_LO` (R326). -/
def TL_TDC_LAST_LO (t : Nat) : Nat := tlBase t + 0x3a0
def TL_TDC_LAST_LO_IVL_LO (t : Nat) : Field := ⟨TL_TDC_LAST_LO t, 31, 0⟩
/-- `TL_TDC_LAST_HI` (R326). -/
def TL_TDC_LAST_HI (t : Nat) : Nat := tlBase t + 0x3a4
def TL_TDC_LAST_HI_TIGHT (t : Nat) : Field := ⟨TL_TDC_LAST_HI t, 31, 31⟩
def TL_TDC_LAST_HI_NOSTOP (t : Nat) : Field := ⟨TL_TDC_LAST_HI t, 30, 30⟩
def TL_TDC_LAST_HI_OVF (t : Nat) : Field := ⟨TL_TDC_LAST_HI t, 29, 29⟩
def TL_TDC_LAST_HI_IVL_HI (t : Nat) : Field := ⟨TL_TDC_LAST_HI t, 7, 0⟩
/-- `TL_TDC_MEAN_LO` (R326). -/
def TL_TDC_MEAN_LO (t : Nat) : Nat := tlBase t + 0x3a8
def TL_TDC_MEAN_LO_MEAN_LO (t : Nat) : Field := ⟨TL_TDC_MEAN_LO t, 31, 0⟩
/-- `TL_TDC_MEAN_HI` (R326). -/
def TL_TDC_MEAN_HI (t : Nat) : Nat := tlBase t + 0x3ac
def TL_TDC_MEAN_HI_MEAN_HI (t : Nat) : Field := ⟨TL_TDC_MEAN_HI t, 15, 0⟩
/-- `TL_TDC_SD` (R326). -/
def TL_TDC_SD (t : Nat) : Nat := tlBase t + 0x3b0
def TL_TDC_SD_VALUE (t : Nat) : Field := ⟨TL_TDC_SD t, 31, 0⟩
/-- `TL_TDC_MIN` (R326). -/
def TL_TDC_MIN (t : Nat) : Nat := tlBase t + 0x3b4
def TL_TDC_MIN_VALUE (t : Nat) : Field := ⟨TL_TDC_MIN t, 31, 0⟩
/-- `TL_TDC_MAX` (R326). -/
def TL_TDC_MAX (t : Nat) : Nat := tlBase t + 0x3b8
def TL_TDC_MAX_VALUE (t : Nat) : Field := ⟨TL_TDC_MAX t, 31, 0⟩
/-- `TL_TDC_NVALID` (R326). -/
def TL_TDC_NVALID (t : Nat) : Nat := tlBase t + 0x3bc
def TL_TDC_NVALID_N (t : Nat) : Field := ⟨TL_TDC_NVALID t, 15, 0⟩
/-- `ST_TEMP` (R358). -/
def ST_TEMP (r k : Nat) : Nat := stBase r + 0 + 4 * k
def ST_TEMP_BROKEN (r k : Nat) : Field := ⟨ST_TEMP r k, 31, 31⟩
def ST_TEMP_TEMP (r k : Nat) : Field := ⟨ST_TEMP r k, 15, 0⟩
/-- `ST_TSTRIP` (R358). -/
def ST_TSTRIP (r : Nat) : Nat := stBase r + 0x10
def ST_TSTRIP_SPLIT (r : Nat) : Field := ⟨ST_TSTRIP r, 31, 31⟩
def ST_TSTRIP_BLIND (r : Nat) : Field := ⟨ST_TSTRIP r, 30, 30⟩
def ST_TSTRIP_BAND_OOR (r : Nat) : Field := ⟨ST_TSTRIP r, 29, 29⟩
def ST_TSTRIP_BAND (r : Nat) : Field := ⟨ST_TSTRIP r, 26, 24⟩
def ST_TSTRIP_T (r : Nat) : Field := ⟨ST_TSTRIP r, 15, 0⟩
/-- `ST_RISE` (R358). -/
def ST_RISE (r : Nat) : Nat := stBase r + 0x14
def ST_RISE_WARN_NOW (r : Nat) : Field := ⟨ST_RISE r, 31, 31⟩
def ST_RISE_ACT_NOW (r : Nat) : Field := ⟨ST_RISE r, 30, 30⟩
def ST_RISE_MARK (r : Nat) : Field := ⟨ST_RISE r, 29, 29⟩
def ST_RISE_RATE (r : Nat) : Field := ⟨ST_RISE r, 15, 0⟩
/-- `ST_RISE_CFG` (R358). -/
def ST_RISE_CFG (r : Nat) : Nat := stBase r + 0x18
def ST_RISE_CFG_ACT_REACT (r : Nat) : Field := ⟨ST_RISE_CFG r, 31, 29⟩
def ST_RISE_CFG_AUTO_RESUME (r : Nat) : Field := ⟨ST_RISE_CFG r, 28, 28⟩
def ST_RISE_CFG_ACT (r : Nat) : Field := ⟨ST_RISE_CFG r, 23, 12⟩
def ST_RISE_CFG_WARN (r : Nat) : Field := ⟨ST_RISE_CFG r, 11, 0⟩
/-- `ST_RISE_STAT` (R358). -/
def ST_RISE_STAT (r : Nat) : Nat := stBase r + 0x1c
def ST_RISE_STAT_PAUSE_PEND (r : Nat) : Field := ⟨ST_RISE_STAT r, 23, 16⟩
def ST_RISE_STAT_PAUSED (r : Nat) : Field := ⟨ST_RISE_STAT r, 15, 8⟩
def ST_RISE_STAT_ACTS (r : Nat) : Field := ⟨ST_RISE_STAT r, 7, 0⟩
/-- `ST_TH_EVT` (R358). -/
def ST_TH_EVT (r : Nat) : Nat := stBase r + 0x20
def ST_TH_EVT_EVT (r : Nat) : Field := ⟨ST_TH_EVT r, 10, 0⟩
/-- `ST_TH_EVT_EN` (R358). -/
def ST_TH_EVT_EN (r : Nat) : Nat := stBase r + 0x24
def ST_TH_EVT_EN_EVT (r : Nat) : Field := ⟨ST_TH_EVT_EN r, 10, 0⟩
/-- `ST_CAL_CTRL` (R358). -/
def ST_CAL_CTRL (r : Nat) : Nat := stBase r + 0x400
def ST_CAL_CTRL_RUN_NOW (r : Nat) : Field := ⟨ST_CAL_CTRL r, 31, 31⟩
def ST_CAL_CTRL_ABORT (r : Nat) : Field := ⟨ST_CAL_CTRL r, 30, 30⟩
def ST_CAL_CTRL_COMMIT (r : Nat) : Field := ⟨ST_CAL_CTRL r, 29, 29⟩
def ST_CAL_CTRL_RELOAD (r : Nat) : Field := ⟨ST_CAL_CTRL r, 28, 28⟩
def ST_CAL_CTRL_SKIP (r : Nat) : Field := ⟨ST_CAL_CTRL r, 15, 8⟩
def ST_CAL_CTRL_AUTO (r : Nat) : Field := ⟨ST_CAL_CTRL r, 1, 1⟩
def ST_CAL_CTRL_EN (r : Nat) : Field := ⟨ST_CAL_CTRL r, 0, 0⟩
/-- `ST_CAL_DT` (R358). -/
def ST_CAL_DT (r : Nat) : Nat := stBase r + 0x404
def ST_CAL_DT_DT (r : Nat) : Field := ⟨ST_CAL_DT r, 11, 0⟩
/-- `ST_CAL_STAT` (R358). -/
def ST_CAL_STAT (r : Nat) : Nat := stBase r + 0x408
def ST_CAL_STAT_ACT_BANK (r : Nat) : Field := ⟨ST_CAL_STAT r, 31, 31⟩
def ST_CAL_STAT_ACT_REJ (r : Nat) : Field := ⟨ST_CAL_STAT r, 30, 30⟩
def ST_CAL_STAT_BUSY_REJ (r : Nat) : Field := ⟨ST_CAL_STAT r, 29, 29⟩
def ST_CAL_STAT_STATE (r : Nat) : Field := ⟨ST_CAL_STAT r, 26, 24⟩
def ST_CAL_STAT_DONE (r : Nat) : Field := ⟨ST_CAL_STAT r, 23, 16⟩
def ST_CAL_STAT_PEND (r : Nat) : Field := ⟨ST_CAL_STAT r, 15, 8⟩
def ST_CAL_STAT_DUE (r : Nat) : Field := ⟨ST_CAL_STAT r, 7, 7⟩
/-- `ST_CAL_PROG` (R358). -/
def ST_CAL_PROG (r : Nat) : Nat := stBase r + 0x40c
def ST_CAL_PROG_SLOW (r : Nat) : Field := ⟨ST_CAL_PROG r, 18, 16⟩
def ST_CAL_PROG_MIN_DONE (r : Nat) : Field := ⟨ST_CAL_PROG r, 8, 0⟩
/-- `ST_CAL_TREF` (R358). -/
def ST_CAL_TREF (r : Nat) : Nat := stBase r + 0x410
def ST_CAL_TREF_TSTART (r : Nat) : Field := ⟨ST_CAL_TREF r, 31, 16⟩
def ST_CAL_TREF_TREF (r : Nat) : Field := ⟨ST_CAL_TREF r, 15, 0⟩
/-- `ST_CAL_QUAL` (R358). -/
def ST_CAL_QUAL (r : Nat) : Nat := stBase r + 0x414
def ST_CAL_QUAL_QLIM (r : Nat) : Field := ⟨ST_CAL_QUAL r, 31, 16⟩
def ST_CAL_QUAL_WORST (r : Nat) : Field := ⟨ST_CAL_QUAL r, 15, 0⟩
/-- `ST_CAL_QUAL_T` (R358). -/
def ST_CAL_QUAL_T (r k : Nat) : Nat := stBase r + 0x420 + 4 * k
def ST_CAL_QUAL_T_EDGE (r k : Nat) : Field := ⟨ST_CAL_QUAL_T r k, 21, 16⟩
def ST_CAL_QUAL_T_RMS (r k : Nat) : Field := ⟨ST_CAL_QUAL_T r k, 15, 0⟩
/-- `ST_CAL_CNT` (R358). -/
def ST_CAL_CNT (r : Nat) : Nat := stBase r + 0x440
def ST_CAL_CNT_RUNS (r : Nat) : Field := ⟨ST_CAL_CNT r, 31, 16⟩
def ST_CAL_CNT_RESTARTS (r : Nat) : Field := ⟨ST_CAL_CNT r, 15, 8⟩
def ST_CAL_CNT_ABANDONS (r : Nat) : Field := ⟨ST_CAL_CNT r, 7, 0⟩
/-- `ST_CAL_TMO` (R358). -/
def ST_CAL_TMO (r : Nat) : Nat := stBase r + 0x444
def ST_CAL_TMO_MS (r : Nat) : Field := ⟨ST_CAL_TMO r, 15, 0⟩
/-- `ST_CAL_TBANK` (R358). -/
def ST_CAL_TBANK (r : Nat) : Nat := stBase r + 0x448
def ST_CAL_TBANK_BAND (r : Nat) : Field := ⟨ST_CAL_TBANK r, 31, 8⟩
def ST_CAL_TBANK_BANK (r : Nat) : Field := ⟨ST_CAL_TBANK r, 7, 0⟩
/-- `ST_CAL_IDX` (R358). -/
def ST_CAL_IDX (r : Nat) : Nat := stBase r + 0x480
def ST_CAL_IDX_AINC (r : Nat) : Field := ⟨ST_CAL_IDX r, 31, 31⟩
def ST_CAL_IDX_IDX (r : Nat) : Field := ⟨ST_CAL_IDX r, 10, 0⟩
/-- `ST_CAL_DATA` (R358). -/
def ST_CAL_DATA (r : Nat) : Nat := stBase r + 0x484
def ST_CAL_DATA_DATA (r : Nat) : Field := ⟨ST_CAL_DATA r, 31, 0⟩
/-- `ST_CAL_LAST_LO` (R358). -/
def ST_CAL_LAST_LO (r : Nat) : Nat := stBase r + 0x488
def ST_CAL_LAST_LO_COUNT (r : Nat) : Field := ⟨ST_CAL_LAST_LO r, 31, 0⟩
/-- `ST_CAL_LAST_HI` (R358). -/
def ST_CAL_LAST_HI (r : Nat) : Nat := stBase r + 0x48c
def ST_CAL_LAST_HI_COUNT (r : Nat) : Field := ⟨ST_CAL_LAST_HI r, 31, 0⟩
/-- `GL_PGAP` (R358). -/
def GL_PGAP : Nat := 0x410
def GL_PGAP_GO : Field := ⟨GL_PGAP, 31, 31⟩
def GL_PGAP_STRIPS : Field := ⟨GL_PGAP, 27, 20⟩
def GL_PGAP_LEN : Field := ⟨GL_PGAP, 19, 0⟩
/-- `GL_THERM_STAT` (R358). -/
def GL_THERM_STAT : Nat := 0x418
def GL_THERM_STAT_SHUTDOWN : Field := ⟨GL_THERM_STAT, 31, 31⟩
def GL_THERM_STAT_HOT_ALONE : Field := ⟨GL_THERM_STAT, 30, 30⟩
def GL_THERM_STAT_CLR_REJ : Field := ⟨GL_THERM_STAT, 29, 29⟩
def GL_THERM_STAT_LOG_NEXT : Field := ⟨GL_THERM_STAT, 21, 16⟩
def GL_THERM_STAT_LOG_COUNT : Field := ⟨GL_THERM_STAT, 15, 0⟩
/-- `GL_THERM_CLR` (R358). -/
def GL_THERM_CLR : Nat := 0x41c
def GL_THERM_CLR_KEY : Field := ⟨GL_THERM_CLR, 31, 16⟩
/-- `GL_TLOG_W` (R358). -/
def GL_TLOG_W (k : Nat) : Nat := 0x424 + 4 * k
def GL_TLOG_W_WORD (k : Nat) : Field := ⟨GL_TLOG_W k, 31, 0⟩
/-- `GL_WEAR_CTRL` (R358). -/
def GL_WEAR_CTRL : Nat := 0xa000
def GL_WEAR_CTRL_SAVE : Field := ⟨GL_WEAR_CTRL, 31, 31⟩
def GL_WEAR_CTRL_TD : Field := ⟨GL_WEAR_CTRL, 30, 30⟩
def GL_WEAR_CTRL_TD_SRC : Field := ⟨GL_WEAR_CTRL, 9, 9⟩
def GL_WEAR_CTRL_TD_PIN : Field := ⟨GL_WEAR_CTRL, 8, 0⟩
/-- `GL_WEAR_STAT` (R358). -/
def GL_WEAR_STAT : Nat := 0xa004
def GL_WEAR_STAT_SAVE_BUSY : Field := ⟨GL_WEAR_STAT, 31, 31⟩
def GL_WEAR_STAT_SAVE_ERR : Field := ⟨GL_WEAR_STAT, 30, 30⟩
def GL_WEAR_STAT_AGE : Field := ⟨GL_WEAR_STAT, 15, 0⟩
/-- `GL_WEAR_LIFE` (R358). -/
def GL_WEAR_LIFE : Nat := 0xa008
def GL_WEAR_LIFE_LIMIT : Field := ⟨GL_WEAR_LIFE, 31, 28⟩
def GL_WEAR_LIFE_LIFE : Field := ⟨GL_WEAR_LIFE, 13, 0⟩
/-- `GL_WEAR_TDLEFT` (R358). -/
def GL_WEAR_TDLEFT : Nat := 0xa00c
def GL_WEAR_TDLEFT_LEFT : Field := ⟨GL_WEAR_TDLEFT, 31, 0⟩
/-- `GL_WEAR_CONTACT` (R358). -/
def GL_WEAR_CONTACT : Nat := 0xa010
def GL_WEAR_CONTACT_COUNT : Field := ⟨GL_WEAR_CONTACT, 31, 0⟩
/-- `GL_WEAR_DATA` (R358). -/
def GL_WEAR_DATA : Nat := 0xa024
def GL_WEAR_DATA_VALUE : Field := ⟨GL_WEAR_DATA, 31, 0⟩
/-- `LK_PCIE_STAT` (R392). -/
def LK_PCIE_STAT : Nat := 0x80000
def LK_PCIE_STAT_L1_ENTRIES : Field := ⟨LK_PCIE_STAT, 31, 24⟩
def LK_PCIE_STAT_L1_NOW : Field := ⟨LK_PCIE_STAT, 17, 17⟩
def LK_PCIE_STAT_UP : Field := ⟨LK_PCIE_STAT, 16, 16⟩
def LK_PCIE_STAT_WIDTH : Field := ⟨LK_PCIE_STAT, 7, 4⟩
def LK_PCIE_STAT_SPEED : Field := ⟨LK_PCIE_STAT, 2, 0⟩
/-- `LK_PCIE_ERR` (R392). -/
def LK_PCIE_ERR : Nat := 0x80004
def LK_PCIE_ERR_POISON_RX : Field := ⟨LK_PCIE_ERR, 31, 24⟩
def LK_PCIE_ERR_POISON_TX : Field := ⟨LK_PCIE_ERR, 23, 16⟩
def LK_PCIE_ERR_CPL_TMO : Field := ⟨LK_PCIE_ERR, 15, 8⟩
def LK_PCIE_ERR_UR_RX : Field := ⟨LK_PCIE_ERR, 7, 0⟩
/-- `LK_PCIE_LPBK` (R392). -/
def LK_PCIE_LPBK : Nat := 0x80008
def LK_PCIE_LPBK_EN : Field := ⟨LK_PCIE_LPBK, 31, 31⟩
def LK_PCIE_LPBK_PRBS : Field := ⟨LK_PCIE_LPBK, 1, 0⟩
/-- `LK_PCIE_PRBS_ERR` (R392). -/
def LK_PCIE_PRBS_ERR : Nat := 0x8000c
def LK_PCIE_PRBS_ERR_ERR (l : Nat) : Field := ⟨LK_PCIE_PRBS_ERR, 4 * l + 3, 4 * l⟩
/-- `LK_DMA_RING_LO` (R392). -/
def LK_DMA_RING_LO (c : Nat) : Nat := 0x80100 + 0x40 * c
def LK_DMA_RING_LO_BASE_LO (c : Nat) : Field := ⟨LK_DMA_RING_LO c, 31, 5⟩
/-- `LK_DMA_RING_HI` (R392). -/
def LK_DMA_RING_HI (c : Nat) : Nat := 0x80104 + 0x40 * c
def LK_DMA_RING_HI_BASE_HI (c : Nat) : Field := ⟨LK_DMA_RING_HI c, 31, 0⟩
/-- `LK_DMA_SIZE` (R392). -/
def LK_DMA_SIZE (c : Nat) : Nat := 0x80108 + 0x40 * c
def LK_DMA_SIZE_SIZE (c : Nat) : Field := ⟨LK_DMA_SIZE c, 3, 0⟩
/-- `LK_DMA_PROD` (R392). -/
def LK_DMA_PROD (c : Nat) : Nat := 0x8010c + 0x40 * c
def LK_DMA_PROD_INDEX (c : Nat) : Field := ⟨LK_DMA_PROD c, 15, 0⟩
/-- `LK_DMA_CONS` (R392). -/
def LK_DMA_CONS (c : Nat) : Nat := 0x80110 + 0x40 * c
def LK_DMA_CONS_INDEX (c : Nat) : Field := ⟨LK_DMA_CONS c, 15, 0⟩
/-- `LK_DMA_CTRL` (R392). -/
def LK_DMA_CTRL (c : Nat) : Nat := 0x80114 + 0x40 * c
def LK_DMA_CTRL_DOMAIN (c : Nat) : Field := ⟨LK_DMA_CTRL c, 31, 31⟩
def LK_DMA_CTRL_ABORT (c : Nat) : Field := ⟨LK_DMA_CTRL c, 2, 2⟩
def LK_DMA_CTRL_RESUME (c : Nat) : Field := ⟨LK_DMA_CTRL c, 1, 1⟩
def LK_DMA_CTRL_EN (c : Nat) : Field := ⟨LK_DMA_CTRL c, 0, 0⟩
/-- `LK_DMA_STAT` (R392). -/
def LK_DMA_STAT (c : Nat) : Nat := 0x80118 + 0x40 * c
def LK_DMA_STAT_ERR (c : Nat) : Field := ⟨LK_DMA_STAT c, 31, 31⟩
def LK_DMA_STAT_POISON (c : Nat) : Field := ⟨LK_DMA_STAT c, 30, 30⟩
def LK_DMA_STAT_WAIT_HMQ (c : Nat) : Field := ⟨LK_DMA_STAT c, 29, 29⟩
def LK_DMA_STAT_STATE (c : Nat) : Field := ⟨LK_DMA_STAT c, 25, 24⟩
def LK_DMA_STAT_CODE (c : Nat) : Field := ⟨LK_DMA_STAT c, 23, 16⟩
/-- `LK_DMA_DONEB` (R392). -/
def LK_DMA_DONEB (c : Nat) : Nat := 0x8011c + 0x40 * c
def LK_DMA_DONEB_BYTES (c : Nat) : Field := ⟨LK_DMA_DONEB c, 31, 0⟩
/-- `LK_HMQ_RD` (R392). -/
def LK_HMQ_RD (q : Nat) : Nat := 0x80400 + 0x10 * q
def LK_HMQ_RD_WORD (q : Nat) : Field := ⟨LK_HMQ_RD q, 31, 0⟩
/-- `LK_HMQ_STAT` (R392). -/
def LK_HMQ_STAT (q : Nat) : Nat := 0x80404 + 0x10 * q
def LK_HMQ_STAT_REFUSED (q : Nat) : Field := ⟨LK_HMQ_STAT q, 31, 31⟩
def LK_HMQ_STAT_NOTICES (q : Nat) : Field := ⟨LK_HMQ_STAT q, 9, 0⟩
/-- `LK_HMQ_THR` (R392). -/
def LK_HMQ_THR (q : Nat) : Nat := 0x80408 + 0x10 * q
def LK_HMQ_THR_THR (q : Nat) : Field := ⟨LK_HMQ_THR q, 9, 0⟩
/-- `LK_G_CTRL` (R392). -/
def LK_G_CTRL (p : Nat) : Nat := 0x82000 + 0x2000 * p
def LK_G_CTRL_PRBS (p : Nat) : Field := ⟨LK_G_CTRL p, 9, 8⟩
def LK_G_CTRL_LPBK (p : Nat) : Field := ⟨LK_G_CTRL p, 6, 4⟩
def LK_G_CTRL_RETRAIN (p : Nat) : Field := ⟨LK_G_CTRL p, 1, 1⟩
def LK_G_CTRL_EN (p : Nat) : Field := ⟨LK_G_CTRL p, 0, 0⟩
/-- `LK_G_STAT` (R392). -/
def LK_G_STAT (p : Nat) : Nat := 0x82004 + 0x2000 * p
def LK_G_STAT_WENT_DOWN (p : Nat) : Field := ⟨LK_G_STAT p, 31, 31⟩
def LK_G_STAT_POL (p : Nat) : Field := ⟨LK_G_STAT p, 19, 16⟩
def LK_G_STAT_NBR_Y (p : Nat) : Field := ⟨LK_G_STAT p, 14, 12⟩
def LK_G_STAT_NBR_X (p : Nat) : Field := ⟨LK_G_STAT p, 10, 8⟩
def LK_G_STAT_STATE (p : Nat) : Field := ⟨LK_G_STAT p, 2, 0⟩
/-- `LK_G_CNT` (R392). -/
def LK_G_CNT (p : Nat) : Nat := 0x82008 + 0x2000 * p
def LK_G_CNT_CRC_ERR (p : Nat) : Field := ⟨LK_G_CNT p, 31, 24⟩
def LK_G_CNT_NAKS (p : Nat) : Field := ⟨LK_G_CNT p, 23, 16⟩
def LK_G_CNT_REPLAYS (p : Nat) : Field := ⟨LK_G_CNT p, 15, 8⟩
def LK_G_CNT_LOST (p : Nat) : Field := ⟨LK_G_CNT p, 7, 0⟩
/-- `LK_G_CREDIT` (R392). -/
def LK_G_CREDIT (p : Nat) : Nat := 0x8200c + 0x2000 * p
def LK_G_CREDIT_CR (p v : Nat) : Field := ⟨LK_G_CREDIT p, 8 * v + 7, 8 * v⟩
/-- `LK_G_PRBS_ERR` (R392). -/
def LK_G_PRBS_ERR (p : Nat) : Nat := 0x82010 + 0x2000 * p
def LK_G_PRBS_ERR_ERR (p l : Nat) : Field := ⟨LK_G_PRBS_ERR p, 8 * l + 7, 8 * l⟩
/-- `LK_MESH_POS` (R392). -/
def LK_MESH_POS : Nat := 0x82800
def LK_MESH_POS_OVR : Field := ⟨LK_MESH_POS, 31, 31⟩
def LK_MESH_POS_OVR_Y : Field := ⟨LK_MESH_POS, 22, 20⟩
def LK_MESH_POS_OVR_X : Field := ⟨LK_MESH_POS, 18, 16⟩
def LK_MESH_POS_VALID : Field := ⟨LK_MESH_POS, 8, 8⟩
def LK_MESH_POS_Y : Field := ⟨LK_MESH_POS, 6, 4⟩
def LK_MESH_POS_X : Field := ⟨LK_MESH_POS, 2, 0⟩
/-- `LK_MESH_DROP` (R392). -/
def LK_MESH_DROP : Nat := 0x82804
def LK_MESH_DROP_BAD_DEST : Field := ⟨LK_MESH_DROP, 31, 24⟩
def LK_MESH_DROP_HOPS : Field := ⟨LK_MESH_DROP, 23, 16⟩
def LK_MESH_DROP_PORT_DOWN : Field := ⟨LK_MESH_DROP, 15, 8⟩
def LK_MESH_DROP_TYPE : Field := ⟨LK_MESH_DROP, 7, 0⟩
/-- `LK_MESH_TMO` (R392). -/
def LK_MESH_TMO : Nat := 0x82808
def LK_MESH_TMO_US : Field := ⟨LK_MESH_TMO, 15, 0⟩
/-- `GL_PIN_LPBK` (R392). -/
def GL_PIN_LPBK (k : Nat) : Nat := 0x600 + 4 * k
def GL_PIN_LPBK_WR_BUSY (k : Nat) : Field := ⟨GL_PIN_LPBK k, 31, 31⟩
def GL_PIN_LPBK_MODE (k p : Nat) : Field := ⟨GL_PIN_LPBK k, 2 * p + 1, 2 * p⟩
/-- `GL_MEM_STAT` (R392). -/
def GL_MEM_STAT : Nat := 0x320
def GL_MEM_STAT_W_READY : Field := ⟨GL_MEM_STAT, 31, 31⟩
def GL_MEM_STAT_E_READY : Field := ⟨GL_MEM_STAT, 30, 30⟩
/-- `SH_MEM_ECC` (R392). -/
def SH_MEM_ECC (s : Nat) : Nat := shBase s + 0xe00
def SH_MEM_ECC_CORR (s : Nat) : Field := ⟨SH_MEM_ECC s, 31, 16⟩
def SH_MEM_ECC_UNCORR (s : Nat) : Field := ⟨SH_MEM_ECC s, 15, 0⟩
/-- `SH_MEM_ERRADDR` (R392). -/
def SH_MEM_ERRADDR (s : Nat) : Nat := shBase s + 0xe04
def SH_MEM_ERRADDR_VALID (s : Nat) : Field := ⟨SH_MEM_ERRADDR s, 31, 31⟩
def SH_MEM_ERRADDR_LINE (s : Nat) : Field := ⟨SH_MEM_ERRADDR s, 27, 0⟩
/-- `SH_MEM_SCRUB` (R392). -/
def SH_MEM_SCRUB (s : Nat) : Nat := shBase s + 0xe08
def SH_MEM_SCRUB_EN (s : Nat) : Field := ⟨SH_MEM_SCRUB s, 31, 31⟩
def SH_MEM_SCRUB_HOURS (s : Nat) : Field := ⟨SH_MEM_SCRUB s, 15, 0⟩
/-- `EV_CH_CFG` (R411). -/
def EV_CH_CFG (k : Nat) : Nat := 0x4000 + 8 * k
def EV_CH_CFG_EN (k : Nat) : Field := ⟨EV_CH_CFG k, 31, 31⟩
def EV_CH_CFG_LOCK (k : Nat) : Field := ⟨EV_CH_CFG k, 30, 30⟩
def EV_CH_CFG_UNLOCK (k : Nat) : Field := ⟨EV_CH_CFG k, 29, 29⟩
def EV_CH_CFG_SEC (k : Nat) : Field := ⟨EV_CH_CFG k, 28, 28⟩
def EV_CH_CFG_OWNER (k : Nat) : Field := ⟨EV_CH_CFG k, 27, 26⟩
def EV_CH_CFG_TDOM (k : Nat) : Field := ⟨EV_CH_CFG k, 25, 22⟩
def EV_CH_CFG_GATE (k : Nat) : Field := ⟨EV_CH_CFG k, 15, 8⟩
/-- `EV_CH_STAT` (R411). -/
def EV_CH_STAT (k : Nat) : Nat := 0x4004 + 8 * k
def EV_CH_STAT_RUNAWAY (k : Nat) : Field := ⟨EV_CH_STAT k, 31, 31⟩
def EV_CH_STAT_FIRE_REJ (k : Nat) : Field := ⟨EV_CH_STAT k, 30, 30⟩
def EV_CH_STAT_CFG_REJ (k : Nat) : Field := ⟨EV_CH_STAT k, 29, 29⟩
def EV_CH_STAT_SUPPR (k : Nat) : Field := ⟨EV_CH_STAT k, 15, 8⟩
def EV_CH_STAT_MERGED (k : Nat) : Field := ⟨EV_CH_STAT k, 7, 0⟩
/-- `EV_FIRE` (R411). -/
def EV_FIRE : Nat := 0x4800
def EV_FIRE_GO : Field := ⟨EV_FIRE, 31, 31⟩
def EV_FIRE_CHANNEL : Field := ⟨EV_FIRE, 7, 0⟩
/-- `EV_TDOM` (R411). -/
def EV_TDOM (k : Nat) : Nat := 0x4810 + 4 * k
def EV_TDOM_DOM (k j : Nat) : Field := ⟨EV_TDOM k, 4 * j + 3, 4 * j⟩
/-- `EV_PEND` (R415). -/
def EV_PEND (k : Nat) : Nat := 0x5000 + 4 * k
def EV_PEND_PEND (k : Nat) : Field := ⟨EV_PEND k, 31, 0⟩
/-- `EV_ENA` (R415). -/
def EV_ENA (k : Nat) : Nat := 0x5100 + 4 * k
def EV_ENA_ENA (k : Nat) : Field := ⟨EV_ENA k, 31, 0⟩
/-- `EV_VMAP` (R415). -/
def EV_VMAP (k : Nat) : Nat := 0x5200 + 4 * k
def EV_VMAP_VEC (k j : Nat) : Field := ⟨EV_VMAP k, 8 * j + 5, 8 * j⟩
/-- `EV_VEC_STAT` (R415). -/
def EV_VEC_STAT (k : Nat) : Nat := 0x5240 + 4 * k
def EV_VEC_STAT_SUM (k : Nat) : Field := ⟨EV_VEC_STAT k, 31, 0⟩
/-- `EV_VEC_REARM` (R415). -/
def EV_VEC_REARM (k : Nat) : Nat := 0x5248 + 4 * k
def EV_VEC_REARM_REARM (k : Nat) : Field := ⟨EV_VEC_REARM k, 31, 0⟩
/-- `FC_STAT` (R421). -/
def FC_STAT (k : Nat) : Nat := 0x3000 + 4 * k
def FC_STAT_STAT (k : Nat) : Field := ⟨FC_STAT k, 31, 0⟩
/-- `FC_FIRST` (R421). -/
def FC_FIRST : Nat := 0x3020
def FC_FIRST_VALID : Field := ⟨FC_FIRST, 31, 31⟩
def FC_FIRST_MULTI : Field := ⟨FC_FIRST, 30, 30⟩
def FC_FIRST_BIT : Field := ⟨FC_FIRST, 7, 0⟩
/-- `FC_FIRST_RC_LO` (R421). -/
def FC_FIRST_RC_LO : Nat := 0x3024
def FC_FIRST_RC_LO_COUNT : Field := ⟨FC_FIRST_RC_LO, 31, 0⟩
/-- `FC_FIRST_RC_HI` (R421). -/
def FC_FIRST_RC_HI : Nat := 0x3028
def FC_FIRST_RC_HI_COUNT : Field := ⟨FC_FIRST_RC_HI, 31, 0⟩
/-- `FC_LOCK` (R421). -/
def FC_LOCK : Nat := 0x302c
def FC_LOCK_LOCK : Field := ⟨FC_LOCK, 0, 0⟩
/-- `FC_INJ` (R421). -/
def FC_INJ : Nat := 0x3040
def FC_INJ_GO : Field := ⟨FC_INJ, 31, 31⟩
def FC_INJ_CONT : Field := ⟨FC_INJ, 30, 30⟩
def FC_INJ_MASK : Field := ⟨FC_INJ, 23, 16⟩
def FC_INJ_CLASS : Field := ⟨FC_INJ, 15, 8⟩
def FC_INJ_INSTANCE : Field := ⟨FC_INJ, 7, 0⟩
/-- `FC_INJ_STAT` (R421). -/
def FC_INJ_STAT : Nat := 0x3044
def FC_INJ_STAT_DONE : Field := ⟨FC_INJ_STAT, 31, 31⟩
def FC_INJ_STAT_ARMED : Field := ⟨FC_INJ_STAT, 30, 30⟩
def FC_INJ_STAT_BAD : Field := ⟨FC_INJ_STAT, 29, 29⟩
def FC_INJ_STAT_HITS : Field := ⟨FC_INJ_STAT, 15, 0⟩
/-- `FC_ALIVE` (R421). -/
def FC_ALIVE : Nat := 0x3080
def FC_ALIVE_KICK : Field := ⟨FC_ALIVE, 31, 31⟩
def FC_ALIVE_STOPPED : Field := ⟨FC_ALIVE, 30, 30⟩
def FC_ALIVE_RUNNING : Field := ⟨FC_ALIVE, 29, 29⟩
def FC_ALIVE_KEY : Field := ⟨FC_ALIVE, 15, 0⟩
/-- `FC_REACT` (R421). -/
def FC_REACT (k : Nat) : Nat := 0x3100 + 4 * k
def FC_REACT_REACT (k j : Nat) : Field := ⟨FC_REACT k, 8 * j + 5, 8 * j⟩
/-- `MSP_STATUS` (R428). -/
def MSP_STATUS : Nat := 0x9000
def MSP_STATUS_OVF : Field := ⟨MSP_STATUS, 31, 31⟩
def MSP_STATUS_ALIGN : Field := ⟨MSP_STATUS, 30, 30⟩
def MSP_STATUS_FRAG : Field := ⟨MSP_STATUS, 29, 29⟩
def MSP_STATUS_LOST : Field := ⟨MSP_STATUS, 28, 28⟩
def MSP_STATUS_TMO : Field := ⟨MSP_STATUS, 27, 27⟩
def MSP_STATUS_MODE3 : Field := ⟨MSP_STATUS, 26, 26⟩
def MSP_STATUS_TRANS : Field := ⟨MSP_STATUS, 15, 0⟩
/-- `MSP_M_CTRL` (R428). -/
def MSP_M_CTRL : Nat := 0x9010
def MSP_M_CTRL_EN : Field := ⟨MSP_M_CTRL, 31, 31⟩
def MSP_M_CTRL_LPBK : Field := ⟨MSP_M_CTRL, 30, 30⟩
def MSP_M_CTRL_CPOL : Field := ⟨MSP_M_CTRL, 8, 8⟩
def MSP_M_CTRL_DIV : Field := ⟨MSP_M_CTRL, 7, 0⟩
/-- `MSP_M_CMD` (R428). -/
def MSP_M_CMD : Nat := 0x9014
def MSP_M_CMD_GO : Field := ⟨MSP_M_CMD, 31, 31⟩
def MSP_M_CMD_RD : Field := ⟨MSP_M_CMD, 30, 30⟩
def MSP_M_CMD_CLN : Field := ⟨MSP_M_CMD, 29, 28⟩
def MSP_M_CMD_ALN : Field := ⟨MSP_M_CMD, 27, 26⟩
def MSP_M_CMD_DLN : Field := ⟨MSP_M_CMD, 25, 24⟩
def MSP_M_CMD_ABYTES : Field := ⟨MSP_M_CMD, 23, 22⟩
def MSP_M_CMD_DUMMY : Field := ⟨MSP_M_CMD, 21, 16⟩
def MSP_M_CMD_OPCODE : Field := ⟨MSP_M_CMD, 15, 8⟩
/-- `MSP_M_ADDR` (R428). -/
def MSP_M_ADDR : Nat := 0x9018
def MSP_M_ADDR_VALUE : Field := ⟨MSP_M_ADDR, 31, 0⟩
/-- `MSP_M_LEN` (R428). -/
def MSP_M_LEN : Nat := 0x901c
def MSP_M_LEN_VALUE : Field := ⟨MSP_M_LEN, 31, 0⟩
/-- `MSP_M_DATA` (R428). -/
def MSP_M_DATA : Nat := 0x9020
def MSP_M_DATA_VALUE : Field := ⟨MSP_M_DATA, 31, 0⟩
/-- `MSP_M_STAT` (R428). -/
def MSP_M_STAT : Nat := 0x9024
def MSP_M_STAT_BUSY : Field := ⟨MSP_M_STAT, 31, 31⟩
def MSP_M_STAT_REFUSED : Field := ⟨MSP_M_STAT, 30, 30⟩
def MSP_M_STAT_UNDERRUN : Field := ⟨MSP_M_STAT, 29, 29⟩
def MSP_M_STAT_WORDS : Field := ⟨MSP_M_STAT, 6, 0⟩
/-- `NV_ADDR` (R431). -/
def NV_ADDR : Nat := 0x8000
def NV_ADDR_AINC : Field := ⟨NV_ADDR, 31, 31⟩
def NV_ADDR_ADDR : Field := ⟨NV_ADDR, 18, 0⟩
/-- `NV_DATA` (R431). -/
def NV_DATA : Nat := 0x8004
def NV_DATA_DATA : Field := ⟨NV_DATA, 31, 0⟩
/-- `NV_CTRL` (R431). -/
def NV_CTRL : Nat := 0x8008
def NV_CTRL_GO : Field := ⟨NV_CTRL, 31, 31⟩
def NV_CTRL_OP : Field := ⟨NV_CTRL, 30, 29⟩
/-- `NV_STAT` (R431). -/
def NV_STAT : Nat := 0x800c
def NV_STAT_BUSY : Field := ⟨NV_STAT, 31, 31⟩
def NV_STAT_DENIED : Field := ⟨NV_STAT, 30, 30⟩
def NV_STAT_VERIFY_ERR : Field := ⟨NV_STAT, 29, 29⟩
def NV_STAT_COPY_FAIL : Field := ⟨NV_STAT, 28, 28⟩
/-- `SV_LEAD` (R431). -/
def SV_LEAD : Nat := 0x2000
def SV_LEAD_CONFLICT : Field := ⟨SV_LEAD, 31, 31⟩
def SV_LEAD_CULPRIT : Field := ⟨SV_LEAD, 30, 29⟩
def SV_LEAD_TAKEOVERS : Field := ⟨SV_LEAD, 23, 16⟩
def SV_LEAD_HOLDER : Field := ⟨SV_LEAD, 1, 0⟩
/-- `SV_LEAD_CLAIM` (R431). -/
def SV_LEAD_CLAIM : Nat := 0x2004
def SV_LEAD_CLAIM_TAKEOVER : Field := ⟨SV_LEAD_CLAIM, 1, 1⟩
def SV_LEAD_CLAIM_CLAIM : Field := ⟨SV_LEAD_CLAIM, 0, 0⟩
/-- `SV_LEAD_SET` (R431). -/
def SV_LEAD_SET : Nat := 0x2008
def SV_LEAD_SET_GO : Field := ⟨SV_LEAD_SET, 31, 31⟩
def SV_LEAD_SET_HOLDER : Field := ⟨SV_LEAD_SET, 1, 0⟩
/-- `SV_HB_N` (R431). -/
def SV_HB_N : Nat := 0x2010
def SV_HB_N_SILENT : Field := ⟨SV_HB_N, 31, 31⟩
def SV_HB_N_AGE : Field := ⟨SV_HB_N, 15, 0⟩
/-- `SV_HB_S` (R431). -/
def SV_HB_S : Nat := 0x2014
def SV_HB_S_SILENT : Field := ⟨SV_HB_S, 31, 31⟩
def SV_HB_S_AGE : Field := ⟨SV_HB_S, 15, 0⟩
/-- `SV_STAT_N` (R431). -/
def SV_STAT_N : Nat := 0x2018
def SV_STAT_N_DOM_REJ : Field := ⟨SV_STAT_N, 31, 31⟩
def SV_STAT_N_FW_VER : Field := ⟨SV_STAT_N, 23, 16⟩
def SV_STAT_N_DOMS : Field := ⟨SV_STAT_N, 3, 2⟩
def SV_STAT_N_STATE : Field := ⟨SV_STAT_N, 1, 0⟩
/-- `SV_STAT_S` (R431). -/
def SV_STAT_S : Nat := 0x201c
def SV_STAT_S_DOM_REJ : Field := ⟨SV_STAT_S, 31, 31⟩
def SV_STAT_S_FW_VER : Field := ⟨SV_STAT_S, 23, 16⟩
def SV_STAT_S_DOMS : Field := ⟨SV_STAT_S, 3, 2⟩
def SV_STAT_S_STATE : Field := ⟨SV_STAT_S, 1, 0⟩
/-- `SV_CTRL` (R431). -/
def SV_CTRL : Nat := 0x2020
def SV_CTRL_HMQ : Field := ⟨SV_CTRL, 9, 8⟩
def SV_CTRL_RESTART_S : Field := ⟨SV_CTRL, 3, 3⟩
def SV_CTRL_RESTART_N : Field := ⟨SV_CTRL, 2, 2⟩
def SV_CTRL_RELEASE_S : Field := ⟨SV_CTRL, 1, 1⟩
def SV_CTRL_RELEASE_N : Field := ⟨SV_CTRL, 0, 0⟩
/-- `SV_DOM_REJ` (R431). -/
def SV_DOM_REJ : Nat := 0x2040
def SV_DOM_REJ_REJ : Field := ⟨SV_DOM_REJ, 31, 31⟩
def SV_DOM_REJ_OFFSET : Field := ⟨SV_DOM_REJ, 23, 0⟩
/-- `SV_DOM_CNT` (R431). -/
def SV_DOM_CNT : Nat := 0x2044
def SV_DOM_CNT_COUNT : Field := ⟨SV_DOM_CNT, 15, 0⟩
/-- `SV_CMD` (R431). -/
def SV_CMD (d : Nat) : Nat := 0x2100 + 0x40 * d
def SV_CMD_GO (d : Nat) : Field := ⟨SV_CMD d, 31, 31⟩
def SV_CMD_TAG (d : Nat) : Field := ⟨SV_CMD d, 23, 16⟩
def SV_CMD_CODE (d : Nat) : Field := ⟨SV_CMD d, 7, 0⟩
/-- `SV_ARG` (R431). -/
def SV_ARG (d k : Nat) : Nat := 0x2104 + 0x40 * d + 4 * k
def SV_ARG_ARG (d k : Nat) : Field := ⟨SV_ARG d k, 31, 0⟩
/-- `SV_MBX_RD` (R431). -/
def SV_MBX_RD (d : Nat) : Nat := 0x2110 + 0x40 * d
def SV_MBX_RD_WORD (d : Nat) : Field := ⟨SV_MBX_RD d, 31, 0⟩
/-- `SV_MBX_STAT` (R431). -/
def SV_MBX_STAT (d : Nat) : Nat := 0x2114 + 0x40 * d
def SV_MBX_STAT_BUSY (d : Nat) : Field := ⟨SV_MBX_STAT d, 31, 31⟩
def SV_MBX_STAT_CMD_REJ (d : Nat) : Field := ⟨SV_MBX_STAT d, 30, 30⟩
def SV_MBX_STAT_WORDS (d : Nat) : Field := ⟨SV_MBX_STAT d, 6, 0⟩
/-- `ST_SEQ_CFG` (R443). -/
def ST_SEQ_CFG (r : Nat) : Nat := stBase r + 0x1000
def ST_SEQ_CFG_STAGGER (r : Nat) : Field := ⟨ST_SEQ_CFG r, 7, 0⟩
/-- `ST_SEQ_STAT` (R443). -/
def ST_SEQ_STAT (r : Nat) : Nat := stBase r + 0x1004
def ST_SEQ_STAT_WAIT_HV (r : Nat) : Field := ⟨ST_SEQ_STAT r, 15, 8⟩
def ST_SEQ_STAT_WAIT_VDUT (r : Nat) : Field := ⟨ST_SEQ_STAT r, 7, 0⟩
/-- `GL_RST_CAUSE` (R448). -/
def GL_RST_CAUSE : Nat := 0x80
def GL_RST_CAUSE_SRC : Field := ⟨GL_RST_CAUSE, 7, 1⟩
/-- `GL_RST_STAT` (R448). -/
def GL_RST_STAT : Nat := 0x84
def GL_RST_STAT_REGS_READY : Field := ⟨GL_RST_STAT, 31, 31⟩
def GL_RST_STAT_CODE : Field := ⟨GL_RST_STAT, 3, 0⟩
/-- `GL_PWR_CTRL` (R448). -/
def GL_PWR_CTRL : Nat := 0x100
def GL_PWR_CTRL_GO : Field := ⟨GL_PWR_CTRL, 31, 31⟩
def GL_PWR_CTRL_CMD : Field := ⟨GL_PWR_CTRL, 30, 28⟩
def GL_PWR_CTRL_KEY : Field := ⟨GL_PWR_CTRL, 15, 0⟩
/-- `GL_PWR_STAT` (R448). -/
def GL_PWR_STAT : Nat := 0x104
def GL_PWR_STAT_PWR_FAIL : Field := ⟨GL_PWR_STAT, 31, 31⟩
def GL_PWR_STAT_CMD_REJ : Field := ⟨GL_PWR_STAT, 30, 30⟩
def GL_PWR_STAT_FAIL_STEP : Field := ⟨GL_PWR_STAT, 29, 27⟩
def GL_PWR_STAT_STATE : Field := ⟨GL_PWR_STAT, 26, 24⟩
def GL_PWR_STAT_REG_EN : Field := ⟨GL_PWR_STAT, 13, 8⟩
def GL_PWR_STAT_PG : Field := ⟨GL_PWR_STAT, 5, 0⟩
/-- `GL_BOOT_CTRL` (R451). -/
def GL_BOOT_CTRL : Nat := 0x180
def GL_BOOT_CTRL_GO : Field := ⟨GL_BOOT_CTRL, 31, 31⟩
/-- `GL_BOOT_STAT` (R451). -/
def GL_BOOT_STAT : Nat := 0x184
def GL_BOOT_STAT_DONE : Field := ⟨GL_BOOT_STAT, 31, 31⟩
def GL_BOOT_STAT_FAIL : Field := ⟨GL_BOOT_STAT, 30, 30⟩
def GL_BOOT_STAT_USED : Field := ⟨GL_BOOT_STAT, 29, 28⟩
def GL_BOOT_STAT_ERR : Field := ⟨GL_BOOT_STAT, 27, 24⟩
def GL_BOOT_STAT_VERSION : Field := ⟨GL_BOOT_STAT, 15, 0⟩
/-- `GL_BOOT_ADDR_LO` (R451). -/
def GL_BOOT_ADDR_LO : Nat := 0x188
def GL_BOOT_ADDR_LO_ADDR_LO : Field := ⟨GL_BOOT_ADDR_LO, 31, 6⟩
/-- `GL_BOOT_ADDR_HI` (R451). -/
def GL_BOOT_ADDR_HI : Nat := 0x18c
def GL_BOOT_ADDR_HI_ADDR_HI : Field := ⟨GL_BOOT_ADDR_HI, 1, 0⟩
/-- `GL_TEMP_SV` (R327). -/
def GL_TEMP_SV (k : Nat) : Nat := 0x400 + 4 * k
def GL_TEMP_SV_BROKEN (k : Nat) : Field := ⟨GL_TEMP_SV k, 31, 31⟩
def GL_TEMP_SV_TEMP (k : Nat) : Field := ⟨GL_TEMP_SV k, 15, 0⟩
/-- `GL_TLOG_IDX` (R352). -/
def GL_TLOG_IDX : Nat := 0x420
def GL_TLOG_IDX_ENTRY : Field := ⟨GL_TLOG_IDX, 5, 0⟩
/-- `GL_WEAR_IDX` (R354). -/
def GL_WEAR_IDX : Nat := 0xa020
def GL_WEAR_IDX_IDX : Field := ⟨GL_WEAR_IDX, 9, 0⟩

end Sys2Proof.Machine
end

