-- ==== Sys2Proof/Machine/RegTable.lean ====
section
/-! DEFINITION. The register tables of the manual: for every register its offset in its block, its repetition, and for every
field its bits, its access code (R5) and its reset value (R8). Fields marked NVM or with a reset that depends on the
register's own number stand at 0 here and get their value in `resetWord`. -/

namespace Sys2Proof.Machine

/-- An access code (R5). -/
inductive Acc where
  | rw | ro | wo | w1c | w1s | rc | rwl
  deriving DecidableEq, Repr

/-- One field of a register: bits `hi` to `lo`, access code, whether it carries the suffix /S (R6), reset value. -/
structure FieldD where
  hi : Nat
  lo : Nat
  acc : Acc
  sys : Bool
  reset : Nat
  deriving DecidableEq, Repr

/-- One register, or a group repeated `c1` times at stride `s1`, each holding `c2` words at stride `s2`. -/
structure RegD where
  off : Nat
  c1 : Nat
  s1 : Nat
  c2 : Nat
  s2 : Nat
  flds : List FieldD
  deriving DecidableEq, Repr

def globalRegs0 : List RegD := [
  /- GL_ID -/ ⟨0,1,4,1,4,[⟨15,0,.ro,false,0xa064⟩, ⟨31,16,.ro,false,0x4851⟩]⟩,
  /- GL_REV -/ ⟨4,1,4,1,4,[⟨3,0,.ro,false,0⟩, ⟨7,4,.ro,false,2⟩]⟩,
  /- GL_BLK_RST -/ ⟨0x40,1,4,1,4,[⟨8,0,.rw,true,0⟩, ⟨26,24,.rw,true,0⟩, ⟨31,31,.wo,true,0⟩]⟩,
  /- GL_BLK_RST_STAT -/ ⟨0x44,1,4,1,4,[⟨15,0,.ro,false,0⟩, ⟨23,16,.rc,false,0⟩, ⟨27,24,.ro,false,0⟩, ⟨30,30,.ro,false,0⟩, ⟨31,31,.ro,false,0⟩]⟩,
  /- GL_RC_LO -/ ⟨0x1000,1,4,1,4,[⟨31,0,.ro,false,0⟩]⟩,
  /- GL_RC_HI -/ ⟨0x1004,1,4,1,4,[⟨15,0,.ro,false,0⟩]⟩,
  /- GL_SYNC_CTRL -/ ⟨0x1008,1,4,1,4,[⟨0,0,.rw,true,1⟩, ⟨1,1,.rw,false,0⟩, ⟨2,2,.rw,true,1⟩]⟩,
  /- GL_SYNC_STAT -/ ⟨0x100c,1,4,1,4,[⟨1,0,.ro,false,0⟩, ⟨3,2,.ro,false,0⟩, ⟨29,29,.ro,false,0⟩, ⟨30,30,.w1c,false,0⟩, ⟨31,31,.w1c,false,0⟩]⟩,
  /- GL_SYNC_TRIM -/ ⟨0x1010,1,4,1,4,[⟨8,0,.rw,true,0⟩, ⟨31,31,.w1c,false,0⟩]⟩,
  /- GL_SYNC_CNT -/ ⟨0x1014,1,4,1,4,[⟨15,0,.rc,false,0⟩, ⟨31,16,.rc,false,0⟩]⟩,
  /- GL_SYNC_CMD -/ ⟨0x1018,1,4,1,4,[⟨15,0,.ro,false,0⟩, ⟨31,16,.ro,false,0⟩]⟩,
  /- GL_SCHED_STAT -/ ⟨0x101c,1,4,1,4,[⟨3,0,.ro,false,0⟩, ⟨30,30,.w1c,false,0⟩, ⟨31,31,.w1c,false,0⟩]⟩,
  /- GL_CAL_HOLD -/ ⟨0x1020,1,4,1,4,[⟨7,0,.ro,false,0⟩]⟩,
  /- GL_START_ARM_LO -/ ⟨0x1030,1,4,1,4,[⟨31,0,.rw,false,0⟩]⟩,
  /- GL_START_ARM_HI -/ ⟨0x1034,1,4,1,4,[⟨31,0,.rw,false,0⟩]⟩,
  /- GL_TL_GROUP -/ ⟨0x1040,8,4,1,4,[⟨3,0,.rw,false,0xf⟩, ⟨7,4,.rw,false,0xf⟩, ⟨11,8,.rw,false,0xf⟩, ⟨15,12,.rw,false,0xf⟩, ⟨19,16,.rw,false,0xf⟩, ⟨23,20,.rw,false,0xf⟩, ⟨27,24,.rw,false,0xf⟩, ⟨31,28,.rw,false,0xf⟩]⟩,
  /- GL_LATE_LO -/ ⟨0x1060,1,4,1,4,[⟨31,0,.w1c,false,0⟩]⟩,
  /- GL_LATE_HI -/ ⟨0x1064,1,4,1,4,[⟨31,0,.w1c,false,0⟩]⟩,
  /- GL_RDV_TMO -/ ⟨0x1080,1,4,1,4,[⟨31,0,.rw,false,0xf4240⟩]⟩,
  /- GL_RDV_MASK_LO -/ ⟨0x1100,32,0x40,1,4,[⟨31,0,.rw,false,0⟩]⟩,
  /- GL_RDV_MASK_HI -/ ⟨0x1104,32,0x40,1,4,[⟨31,0,.rw,false,0⟩]⟩,
  /- GL_RDV_CFG -/ ⟨0x1108,32,0x40,1,4,[⟨2,0,.rw,false,0⟩, ⟨6,4,.rw,false,0⟩, ⟨31,31,.rw,false,0⟩]⟩,
  /- GL_RDV_PARTS_LO -/ ⟨0x110c,32,0x40,1,4,[⟨31,0,.rw,false,0⟩]⟩,
  /- GL_RDV_PARTS_HI -/ ⟨0x1110,32,0x40,1,4,[⟨31,0,.rw,false,0⟩]⟩,
  /- GL_RDV_STAT -/ ⟨0x1114,32,0x40,1,4,[⟨6,0,.ro,false,0⟩, ⟨14,8,.ro,false,0⟩, ⟨18,18,.w1c,false,0⟩, ⟨19,19,.w1c,false,0⟩, ⟨20,20,.w1c,false,0⟩, ⟨21,21,.w1c,false,0⟩, ⟨23,22,.ro,false,0⟩, ⟨31,24,.ro,false,0⟩]⟩,
  /- GL_RDV_REL_LO -/ ⟨0x1118,32,0x40,1,4,[⟨31,0,.ro,false,0⟩]⟩,
  /- GL_RDV_REL_HI -/ ⟨0x111c,32,0x40,1,4,[⟨31,0,.ro,false,0⟩]⟩,
  /- GL_RDV_ABSENT_LO -/ ⟨0x1120,32,0x40,1,4,[⟨31,0,.ro,false,0⟩]⟩,
  /- GL_RDV_ABSENT_HI -/ ⟨0x1124,32,0x40,1,4,[⟨31,0,.ro,false,0⟩]⟩,
  /- GL_RDV_MISSING_LO -/ ⟨0x1128,32,0x40,1,4,[⟨31,0,.ro,false,0⟩]⟩,
  /- GL_RDV_MISSING_HI -/ ⟨0x112c,32,0x40,1,4,[⟨31,0,.ro,false,0⟩]⟩,
  /- GL_VRAW_TRIM_W -/ ⟨0x300,1,4,1,4,[⟨12,0,.rw,true,0x320⟩, ⟨28,16,.ro,false,0x320⟩, ⟨31,30,.rw,true,0⟩]⟩,
  /- GL_VRAW_TRIM_E -/ ⟨0x304,1,4,1,4,[⟨12,0,.rw,true,0x320⟩, ⟨28,16,.ro,false,0x320⟩, ⟨31,30,.rw,true,0⟩]⟩,
  /- GL_VRAW_STAT -/ ⟨0x308,1,4,1,4,[⟨12,0,.ro,false,0⟩, ⟨28,16,.ro,false,0⟩, ⟨30,30,.ro,false,0⟩, ⟨31,31,.ro,false,0⟩]⟩,
  /- GL_PGAP -/ ⟨0x410,1,4,1,4,[⟨19,0,.rw,false,0⟩, ⟨27,20,.rw,false,0⟩, ⟨31,31,.wo,false,0⟩]⟩,
  /- GL_THERM_STAT -/ ⟨0x418,1,4,1,4,[⟨15,0,.ro,false,0⟩, ⟨21,16,.ro,false,0⟩, ⟨29,29,.w1c,false,0⟩, ⟨30,30,.w1c,false,0⟩, ⟨31,31,.ro,false,0⟩]⟩,
  /- GL_THERM_CLR -/ ⟨0x41c,1,4,1,4,[⟨31,16,.wo,true,0⟩]⟩,
  /- GL_TLOG_W -/ ⟨0x424,4,4,1,4,[⟨31,0,.ro,false,0⟩]⟩,
  /- GL_WEAR_CTRL -/ ⟨0xa000,1,4,1,4,[⟨8,0,.rw,false,0⟩, ⟨9,9,.rw,false,0⟩, ⟨30,30,.wo,false,0⟩, ⟨31,31,.wo,false,0⟩]⟩,
  /- GL_WEAR_STAT -/ ⟨0xa004,1,4,1,4,[⟨15,0,.ro,false,0⟩, ⟨30,30,.w1c,false,0⟩, ⟨31,31,.ro,false,0⟩]⟩]
def globalRegs1 : List RegD := [
  /- GL_WEAR_LIFE -/ ⟨0xa008,1,4,1,4,[⟨13,0,.ro,false,0⟩, ⟨31,28,.ro,false,0⟩]⟩,
  /- GL_WEAR_TDLEFT -/ ⟨0xa00c,1,4,1,4,[⟨31,0,.ro,false,0xffffffff⟩]⟩,
  /- GL_WEAR_CONTACT -/ ⟨0xa010,1,4,1,4,[⟨31,0,.ro,false,0⟩]⟩,
  /- GL_WEAR_DATA -/ ⟨0xa024,1,4,1,4,[⟨31,0,.ro,false,0⟩]⟩,
  /- GL_PIN_LPBK -/ ⟨0x600,64,4,1,4,[⟨1,0,.rw,false,0⟩, ⟨3,2,.rw,false,0⟩, ⟨5,4,.rw,false,0⟩, ⟨7,6,.rw,false,0⟩, ⟨9,8,.rw,false,0⟩, ⟨11,10,.rw,false,0⟩, ⟨13,12,.rw,false,0⟩, ⟨15,14,.rw,false,0⟩, ⟨31,31,.w1c,false,0⟩]⟩,
  /- GL_MEM_STAT -/ ⟨0x320,1,4,1,4,[⟨30,30,.ro,false,0⟩, ⟨31,31,.ro,false,0⟩]⟩,
  /- EV_CH_CFG -/ ⟨0x4000,256,8,1,4,[⟨15,8,.rw,false,0⟩, ⟨25,22,.rw,true,0⟩, ⟨27,26,.rw,true,1⟩, ⟨28,28,.rw,true,0⟩, ⟨29,29,.wo,true,0⟩, ⟨30,30,.w1s,false,0⟩, ⟨31,31,.rw,false,1⟩]⟩,
  /- EV_CH_STAT -/ ⟨0x4004,256,8,1,4,[⟨7,0,.rc,false,0⟩, ⟨15,8,.rc,false,0⟩, ⟨29,29,.w1c,false,0⟩, ⟨30,30,.w1c,false,0⟩, ⟨31,31,.w1c,false,0⟩]⟩,
  /- EV_FIRE -/ ⟨0x4800,1,4,1,4,[⟨7,0,.rw,false,0⟩, ⟨31,31,.wo,false,0⟩]⟩,
  /- EV_TDOM -/ ⟨0x4810,8,4,1,4,[⟨3,0,.rw,true,0⟩, ⟨7,4,.rw,true,0⟩, ⟨11,8,.rw,true,0⟩, ⟨15,12,.rw,true,0⟩, ⟨19,16,.rw,true,0⟩, ⟨23,20,.rw,true,0⟩, ⟨27,24,.rw,true,0⟩, ⟨31,28,.rw,true,0⟩]⟩,
  /- EV_PEND -/ ⟨0x5000,42,4,1,4,[⟨31,0,.w1c,false,0⟩]⟩,
  /- EV_ENA -/ ⟨0x5100,42,4,1,4,[⟨31,0,.rw,false,0⟩]⟩,
  /- EV_VMAP -/ ⟨0x5200,9,4,1,4,[⟨5,0,.rw,true,0⟩, ⟨13,8,.rw,true,0⟩, ⟨21,16,.rw,true,0⟩, ⟨29,24,.rw,true,0⟩]⟩,
  /- EV_VEC_STAT -/ ⟨0x5240,2,4,1,4,[⟨31,0,.ro,false,0⟩]⟩,
  /- EV_VEC_REARM -/ ⟨0x5248,2,4,1,4,[⟨31,0,.wo,false,0⟩]⟩,
  /- FC_STAT -/ ⟨0x3000,8,4,1,4,[⟨31,0,.w1c,false,0⟩]⟩,
  /- FC_FIRST -/ ⟨0x3020,1,4,1,4,[⟨7,0,.ro,false,0⟩, ⟨30,30,.ro,false,0⟩, ⟨31,31,.w1c,false,0⟩]⟩,
  /- FC_FIRST_RC_LO -/ ⟨0x3024,1,4,1,4,[⟨31,0,.ro,false,0⟩]⟩,
  /- FC_FIRST_RC_HI -/ ⟨0x3028,1,4,1,4,[⟨31,0,.ro,false,0⟩]⟩,
  /- FC_LOCK -/ ⟨0x302c,1,4,1,4,[⟨0,0,.w1s,true,0⟩]⟩,
  /- FC_INJ -/ ⟨0x3040,1,4,1,4,[⟨7,0,.rw,true,0⟩, ⟨15,8,.rw,true,0⟩, ⟨23,16,.rw,true,0⟩, ⟨30,30,.rw,true,0⟩, ⟨31,31,.wo,true,0⟩]⟩,
  /- FC_INJ_STAT -/ ⟨0x3044,1,4,1,4,[⟨15,0,.rc,false,0⟩, ⟨29,29,.w1c,false,0⟩, ⟨30,30,.ro,false,0⟩, ⟨31,31,.w1c,false,0⟩]⟩,
  /- FC_ALIVE -/ ⟨0x3080,1,4,1,4,[⟨15,0,.wo,true,0⟩, ⟨29,29,.ro,false,0⟩, ⟨30,30,.w1c,true,0⟩, ⟨31,31,.wo,true,0⟩]⟩,
  /- FC_REACT -/ ⟨0x3100,46,4,1,4,[⟨5,0,.rwl,true,0⟩, ⟨13,8,.rwl,true,0⟩, ⟨21,16,.rwl,true,0⟩, ⟨29,24,.rwl,true,0⟩]⟩,
  /- MSP_STATUS -/ ⟨0x9000,1,4,1,4,[⟨15,0,.rc,false,0⟩, ⟨26,26,.ro,false,0⟩, ⟨27,27,.w1c,false,0⟩, ⟨28,28,.w1c,false,0⟩, ⟨29,29,.w1c,false,0⟩, ⟨30,30,.w1c,false,0⟩, ⟨31,31,.w1c,false,0⟩]⟩,
  /- MSP_M_CTRL -/ ⟨0x9010,1,4,1,4,[⟨7,0,.rw,true,3⟩, ⟨8,8,.rw,true,0⟩, ⟨30,30,.rw,true,0⟩, ⟨31,31,.rw,true,0⟩]⟩,
  /- MSP_M_CMD -/ ⟨0x9014,1,4,1,4,[⟨15,8,.rw,true,3⟩, ⟨21,16,.rw,true,0⟩, ⟨23,22,.rw,true,1⟩, ⟨25,24,.rw,true,0⟩, ⟨27,26,.rw,true,0⟩, ⟨29,28,.rw,true,0⟩, ⟨30,30,.rw,true,0⟩, ⟨31,31,.wo,true,0⟩]⟩,
  /- MSP_M_ADDR -/ ⟨0x9018,1,4,1,4,[⟨31,0,.rw,true,0⟩]⟩,
  /- MSP_M_LEN -/ ⟨0x901c,1,4,1,4,[⟨31,0,.rw,true,0⟩]⟩,
  /- MSP_M_DATA -/ ⟨0x9020,1,4,1,4,[⟨31,0,.rw,true,0⟩]⟩,
  /- MSP_M_STAT -/ ⟨0x9024,1,4,1,4,[⟨6,0,.ro,false,0⟩, ⟨29,29,.w1c,true,0⟩, ⟨30,30,.w1c,true,0⟩, ⟨31,31,.ro,false,0⟩]⟩,
  /- NV_ADDR -/ ⟨0x8000,1,4,1,4,[⟨18,0,.rw,false,0⟩, ⟨31,31,.rw,false,1⟩]⟩,
  /- NV_DATA -/ ⟨0x8004,1,4,1,4,[⟨31,0,.rw,false,0⟩]⟩,
  /- NV_CTRL -/ ⟨0x8008,1,4,1,4,[⟨30,29,.rw,true,0⟩, ⟨31,31,.wo,true,0⟩]⟩,
  /- NV_STAT -/ ⟨0x800c,1,4,1,4,[⟨28,28,.w1c,false,0⟩, ⟨29,29,.w1c,false,0⟩, ⟨30,30,.w1c,false,0⟩, ⟨31,31,.ro,false,0⟩]⟩,
  /- SV_LEAD -/ ⟨0x2000,1,4,1,4,[⟨1,0,.ro,false,0⟩, ⟨23,16,.ro,false,0⟩, ⟨30,29,.ro,false,0⟩, ⟨31,31,.ro,false,0⟩]⟩,
  /- SV_LEAD_CLAIM -/ ⟨0x2004,1,4,1,4,[⟨0,0,.wo,true,0⟩, ⟨1,1,.wo,true,0⟩]⟩,
  /- SV_LEAD_SET -/ ⟨0x2008,1,4,1,4,[⟨1,0,.wo,true,0⟩, ⟨31,31,.wo,true,0⟩]⟩,
  /- SV_HB_N -/ ⟨0x2010,1,4,1,4,[⟨15,0,.ro,false,0⟩, ⟨31,31,.ro,false,0⟩]⟩,
  /- SV_HB_S -/ ⟨0x2014,1,4,1,4,[⟨15,0,.ro,false,0⟩, ⟨31,31,.ro,false,0⟩]⟩]
def globalRegs2 : List RegD := [
  /- SV_STAT_N -/ ⟨0x2018,1,4,1,4,[⟨1,0,.ro,false,0⟩, ⟨3,2,.ro,false,0⟩, ⟨23,16,.ro,false,0⟩, ⟨31,31,.w1c,true,0⟩]⟩,
  /- SV_STAT_S -/ ⟨0x201c,1,4,1,4,[⟨1,0,.ro,false,0⟩, ⟨3,2,.ro,false,0⟩, ⟨23,16,.ro,false,0⟩, ⟨31,31,.w1c,true,0⟩]⟩,
  /- SV_CTRL -/ ⟨0x2020,1,4,1,4,[⟨0,0,.wo,true,0⟩, ⟨1,1,.wo,true,0⟩, ⟨2,2,.wo,true,0⟩, ⟨3,3,.wo,true,0⟩, ⟨9,8,.rw,true,0⟩]⟩,
  /- SV_DOM_REJ -/ ⟨0x2040,1,4,1,4,[⟨23,0,.ro,false,0⟩, ⟨31,31,.w1c,false,0⟩]⟩,
  /- SV_DOM_CNT -/ ⟨0x2044,1,4,1,4,[⟨15,0,.rc,false,0⟩]⟩,
  /- SV_CMD -/ ⟨0x2100,2,0x40,1,4,[⟨7,0,.rw,true,0⟩, ⟨23,16,.rw,true,0⟩, ⟨31,31,.wo,true,0⟩]⟩,
  /- SV_ARG -/ ⟨0x2104,2,0x40,3,4,[⟨31,0,.rw,true,0⟩]⟩,
  /- SV_MBX_RD -/ ⟨0x2110,2,0x40,1,4,[⟨31,0,.ro,false,0x80000000⟩]⟩,
  /- SV_MBX_STAT -/ ⟨0x2114,2,0x40,1,4,[⟨6,0,.ro,false,0⟩, ⟨30,30,.w1c,true,0⟩, ⟨31,31,.ro,false,0⟩]⟩,
  /- GL_RST_CAUSE -/ ⟨0x80,1,4,1,4,[⟨7,1,.w1c,false,0⟩]⟩,
  /- GL_RST_STAT -/ ⟨0x84,1,4,1,4,[⟨3,0,.ro,false,0⟩, ⟨31,31,.ro,false,0⟩]⟩,
  /- GL_PWR_CTRL -/ ⟨0x100,1,4,1,4,[⟨15,0,.wo,true,0⟩, ⟨30,28,.wo,true,0⟩, ⟨31,31,.wo,true,0⟩]⟩,
  /- GL_PWR_STAT -/ ⟨0x104,1,4,1,4,[⟨5,0,.ro,false,0⟩, ⟨13,8,.ro,false,0⟩, ⟨26,24,.ro,false,1⟩, ⟨29,27,.ro,false,0⟩, ⟨30,30,.w1c,true,0⟩, ⟨31,31,.w1c,true,0⟩]⟩,
  /- GL_BOOT_CTRL -/ ⟨0x180,1,4,1,4,[⟨31,31,.wo,true,0⟩]⟩,
  /- GL_BOOT_STAT -/ ⟨0x184,1,4,1,4,[⟨15,0,.ro,false,0⟩, ⟨27,24,.ro,false,0⟩, ⟨29,28,.ro,false,0⟩, ⟨30,30,.w1c,false,0⟩, ⟨31,31,.ro,false,0⟩]⟩,
  /- GL_BOOT_ADDR_LO -/ ⟨0x188,1,4,1,4,[⟨31,6,.rw,true,0⟩]⟩,
  /- GL_BOOT_ADDR_HI -/ ⟨0x18c,1,4,1,4,[⟨1,0,.rw,true,0⟩]⟩,
  /- GL_TEMP_SV -/ ⟨0x400,2,4,1,4,[⟨15,0,.ro,false,0⟩, ⟨31,31,.w1c,false,0⟩]⟩,
  /- GL_TLOG_IDX -/ ⟨0x420,1,4,1,4,[⟨5,0,.rw,false,0⟩]⟩,
  /- GL_WEAR_IDX -/ ⟨0xa020,1,4,1,4,[⟨9,0,.rw,false,0⟩]⟩]
/-- The registers of a global block. -/
def globalRegs : List RegD := globalRegs0 ++ globalRegs1 ++ globalRegs2
def tillerRegs0 : List RegD := [
  /- TL_SEQ_CTRL -/ ⟨0,1,4,1,4,[⟨0,0,.wo,false,0⟩, ⟨1,1,.wo,false,0⟩, ⟨2,2,.wo,false,0⟩, ⟨8,8,.rw,false,1⟩, ⟨9,9,.rw,false,0⟩]⟩,
  /- TL_SEQ_STAT -/ ⟨4,1,4,1,4,[⟨2,0,.ro,false,0⟩, ⟨3,3,.ro,false,0⟩, ⟨6,4,.ro,false,0⟩, ⟨11,8,.ro,false,0⟩, ⟨19,16,.ro,false,0⟩, ⟨27,24,.ro,false,0⟩, ⟨30,30,.ro,false,0⟩, ⟨31,31,.w1c,false,0⟩]⟩,
  /- TL_PC -/ ⟨8,1,4,1,4,[⟨13,0,.ro,false,0⟩, ⟨23,16,.ro,false,0⟩, ⟨31,31,.ro,false,0⟩]⟩,
  /- TL_HALT_CODE -/ ⟨0xc,1,4,1,4,[⟨15,0,.ro,false,0⟩]⟩,
  /- TL_FAULT -/ ⟨0x10,1,4,1,4,[⟨7,0,.ro,false,0⟩, ⟨29,16,.ro,false,0⟩]⟩,
  /- TL_VSRAM_ECC -/ ⟨0x14,1,4,1,4,[⟨15,0,.rc,false,0⟩, ⟨31,16,.rc,false,0⟩]⟩,
  /- TL_VIDX_LO -/ ⟨0x18,1,4,1,4,[⟨31,0,.ro,false,0⟩]⟩,
  /- TL_VIDX_HI -/ ⟨0x1c,1,4,1,4,[⟨15,0,.ro,false,0⟩]⟩,
  /- TL_LOOP -/ ⟨0x20,4,4,1,4,[⟨29,0,.ro,false,0⟩]⟩,
  /- TL_LOOP_START -/ ⟨0x30,2,4,1,4,[⟨13,0,.ro,false,0⟩, ⟨29,16,.ro,false,0⟩]⟩,
  /- TL_STACK -/ ⟨0x40,8,4,1,4,[⟨13,0,.ro,false,0⟩, ⟨23,16,.ro,false,0⟩, ⟨24,24,.ro,false,0⟩, ⟨31,31,.ro,false,0⟩]⟩,
  /- TL_CND_MASK_LO -/ ⟨0x60,1,4,1,4,[⟨7,0,.rw,false,0⟩, ⟨15,8,.rw,false,0⟩, ⟨23,16,.rw,false,0⟩, ⟨31,24,.rw,false,0⟩]⟩,
  /- TL_CND_MASK_HI -/ ⟨0x64,1,4,1,4,[⟨7,0,.rw,false,0⟩, ⟨15,8,.rw,false,0⟩, ⟨23,16,.rw,false,0⟩, ⟨31,24,.rw,false,0⟩]⟩,
  /- TL_CMASK -/ ⟨0x68,1,4,1,4,[⟨7,0,.rw,false,0⟩]⟩,
  /- TL_STICKY -/ ⟨0x6c,1,4,1,4,[⟨7,0,.w1c,false,0⟩]⟩,
  /- TL_FLAGS -/ ⟨0x70,1,4,1,4,[⟨0,0,.ro,false,0⟩, ⟨1,1,.ro,false,0⟩, ⟨2,2,.ro,false,0⟩, ⟨3,3,.ro,false,0⟩, ⟨4,4,.w1c,false,0⟩, ⟨5,5,.ro,false,0⟩, ⟨6,6,.w1c,false,0⟩, ⟨7,7,.rw,false,0⟩]⟩,
  /- TL_AMAP -/ ⟨0x80,6,4,1,4,[⟨4,0,.rw,false,0⟩, ⟨12,8,.rw,false,0⟩, ⟨20,16,.rw,false,0⟩, ⟨28,24,.rw,false,0⟩]⟩,
  /- TL_TRACE_CTRL -/ ⟨0xa0,1,4,1,4,[⟨7,0,.ro,false,0⟩, ⟨31,31,.w1c,false,0⟩]⟩,
  /- TL_TRACE_RD -/ ⟨0xa4,1,4,1,4,[⟨7,0,.rw,false,0⟩]⟩,
  /- TL_TRACE_W -/ ⟨0xa8,4,4,1,4,[⟨31,0,.ro,false,0⟩]⟩,
  /- TL_STACK_PASS -/ ⟨0xc0,8,4,1,4,[⟨31,0,.ro,false,0⟩]⟩,
  /- TL_APG_CTRL -/ ⟨0x100,1,4,1,4,[⟨0,0,.rw,false,0⟩, ⟨1,1,.rw,false,0⟩, ⟨2,2,.rw,false,1⟩, ⟨31,31,.w1c,false,0⟩]⟩,
  /- TL_APG_X -/ ⟨0x104,1,4,1,4,[⟨19,0,.rw,false,0⟩]⟩,
  /- TL_APG_Y -/ ⟨0x108,1,4,1,4,[⟨15,0,.rw,false,0⟩]⟩,
  /- TL_APG_D -/ ⟨0x10c,1,4,1,4,[⟨31,0,.rw,false,0⟩]⟩,
  /- TL_APG_XMAX -/ ⟨0x110,1,4,1,4,[⟨19,0,.rw,false,0xfffff⟩]⟩,
  /- TL_APG_YMAX -/ ⟨0x114,1,4,1,4,[⟨15,0,.rw,false,0xffff⟩]⟩,
  /- TL_APG_I -/ ⟨0x120,4,4,1,4,[⟨19,0,.rw,false,0⟩]⟩,
  /- TL_APG_BG -/ ⟨0x130,4,4,1,4,[⟨31,0,.rw,false,0⟩]⟩,
  /- TL_APG_DXM -/ ⟨0x140,1,4,1,4,[⟨19,0,.rw,false,0⟩]⟩,
  /- TL_APG_DYM -/ ⟨0x144,1,4,1,4,[⟨15,0,.rw,false,0⟩]⟩,
  /- TL_APG_TSEL -/ ⟨0x148,1,4,1,4,[⟨5,0,.rw,false,0⟩, ⟨13,8,.rw,false,0⟩, ⟨21,16,.rw,false,0⟩, ⟨29,24,.rw,false,0⟩]⟩,
  /- TL_APG_PX -/ ⟨0x150,1,4,1,4,[⟨19,0,.ro,false,0⟩]⟩,
  /- TL_APG_PY -/ ⟨0x154,1,4,1,4,[⟨15,0,.ro,false,0⟩]⟩,
  /- TL_EVIN_SEL -/ ⟨0x700,1,4,1,4,[⟨3,0,.rw,false,0⟩, ⟨7,4,.rw,false,0⟩, ⟨11,8,.rw,false,0⟩, ⟨15,12,.rw,false,0⟩, ⟨19,16,.rw,false,0⟩, ⟨23,20,.rw,false,0⟩]⟩,
  /- TL_EVIN -/ ⟨0x704,1,4,1,4,[⟨7,0,.w1c,false,0⟩, ⟨15,8,.wo,false,0⟩]⟩,
  /- TL_OPSTAT -/ ⟨0x708,1,4,1,4,[⟨7,0,.rc,false,0⟩, ⟨15,8,.rc,false,0⟩, ⟨23,16,.rc,false,0⟩, ⟨31,31,.ro,false,0⟩]⟩,
  /- TL_LVL_STAT -/ ⟨0x710,1,4,1,4,[⟨4,0,.ro,false,0⟩, ⟨12,8,.ro,false,0⟩, ⟨29,29,.w1c,false,0⟩, ⟨30,30,.w1c,false,0⟩, ⟨31,31,.w1c,false,0⟩]⟩,
  /- TL_LVL_DONE -/ ⟨0x714,1,4,1,4,[⟨15,0,.ro,false,0⟩, ⟨22,22,.ro,false,0⟩, ⟨23,23,.ro,false,0⟩, ⟨31,24,.ro,false,0⟩]⟩,
  /- TL_RESULT -/ ⟨0x780,1,4,1,4,[⟨15,0,.ro,false,0⟩, ⟨19,16,.ro,false,0⟩, ⟨21,21,.ro,false,0⟩, ⟨22,22,.ro,false,0⟩, ⟨23,23,.ro,false,0⟩, ⟨24,24,.ro,false,0⟩, ⟨25,25,.ro,false,0⟩, ⟨26,26,.ro,false,0⟩, ⟨27,27,.ro,false,0⟩, ⟨28,28,.ro,false,0⟩, ⟨29,29,.ro,false,0⟩, ⟨30,30,.ro,false,0⟩, ⟨31,31,.rc,false,0⟩]⟩]
def tillerRegs1 : List RegD := [
  /- TL_SEG_ENTRY -/ ⟨0x200,1,4,1,4,[⟨7,0,.rw,false,0⟩]⟩,
  /- TL_SEG_CTRL -/ ⟨0x204,1,4,1,4,[⟨1,1,.wo,false,0⟩, ⟨2,2,.wo,false,0⟩, ⟨15,8,.rw,false,0⟩]⟩,
  /- TL_SEG_STAT -/ ⟨0x208,1,4,1,4,[⟨7,0,.ro,false,0⟩, ⟨30,30,.w1c,false,0⟩, ⟨31,31,.ro,false,0⟩]⟩,
  /- TL_SEG_PASS -/ ⟨0x20c,1,4,1,4,[⟨31,0,.ro,false,0⟩]⟩,
  /- TL_SEG_ERR -/ ⟨0x210,1,4,1,4,[⟨7,0,.ro,false,0⟩, ⟨15,8,.ro,false,0⟩, ⟨31,31,.w1c,false,0⟩]⟩,
  /- TL_SEG_CHECK -/ ⟨0x214,1,4,1,4,[⟨7,0,.rw,false,0⟩, ⟨15,8,.ro,false,0⟩, ⟨30,30,.ro,false,0⟩, ⟨31,31,.wo,false,0⟩]⟩,
  /- TL_STRM_STAT -/ ⟨0x220,1,4,1,4,[⟨13,0,.ro,false,0⟩, ⟨23,16,.ro,false,0⟩, ⟨29,29,.ro,false,0⟩, ⟨30,30,.ro,false,0⟩, ⟨31,31,.ro,false,0⟩]⟩,
  /- TL_STRM_POS -/ ⟨0x224,1,4,1,4,[⟨31,0,.ro,false,0⟩]⟩,
  /- TL_STRM_CNT -/ ⟨0x228,1,4,1,4,[⟨15,0,.rc,false,0⟩, ⟨23,16,.rc,false,0⟩, ⟨31,24,.rc,false,0⟩]⟩,
  /- TL_STRM_DEAD -/ ⟨0x22c,1,4,1,4,[⟨31,0,.ro,false,0⟩]⟩,
  /- TL_CAP_CTRL -/ ⟨0x280,1,4,1,4,[⟨0,0,.wo,false,0⟩, ⟨1,1,.wo,false,0⟩, ⟨6,6,.rw,false,0⟩, ⟨7,7,.rw,false,0⟩]⟩,
  /- TL_CAP_LEN -/ ⟨0x284,1,4,1,4,[⟨9,0,.rw,false,0⟩, ⟨31,16,.rw,false,0x3ff⟩]⟩,
  /- TL_CAP_STAT -/ ⟨0x288,1,4,1,4,[⟨9,0,.ro,false,0⟩, ⟨21,11,.ro,false,0⟩, ⟨23,22,.ro,false,0⟩, ⟨26,24,.ro,false,0⟩, ⟨27,27,.w1c,false,0⟩, ⟨28,28,.w1c,false,0⟩, ⟨29,29,.w1c,false,0⟩, ⟨30,30,.w1c,false,0⟩, ⟨31,31,.ro,false,0⟩]⟩,
  /- TL_TRIG_STATUS -/ ⟨0x28c,1,4,1,4,[⟨3,0,.w1c,false,0⟩, ⟨5,4,.ro,false,0⟩, ⟨7,7,.ro,false,0⟩]⟩,
  /- TL_TRIG_PAT -/ ⟨0x290,4,4,1,4,[⟨3,0,.rw,false,0⟩, ⟨7,4,.rw,false,0⟩, ⟨11,8,.rw,false,0⟩, ⟨15,12,.rw,false,0⟩, ⟨19,16,.rw,false,0⟩, ⟨23,20,.rw,false,0⟩, ⟨27,24,.rw,false,0⟩, ⟨31,28,.rw,false,0⟩]⟩,
  /- TL_TRIG_CFG -/ ⟨0x2a0,4,4,1,4,[⟨15,0,.rw,false,0⟩, ⟨25,23,.rw,false,0⟩, ⟨27,26,.rw,false,0⟩, ⟨30,28,.rw,false,0⟩, ⟨31,31,.rw,false,0⟩]⟩,
  /- TL_TRIG_VIDX -/ ⟨0x2b0,1,4,1,4,[⟨31,0,.ro,false,0⟩]⟩,
  /- TL_MASK_CTRL -/ ⟨0x2b4,1,4,1,4,[⟨23,0,.rw,false,0xffffff⟩, ⟨30,29,.rw,false,0⟩, ⟨31,31,.rw,false,0⟩]⟩,
  /- TL_MASK_STAT -/ ⟨0x2b8,1,4,1,4,[⟨7,0,.ro,false,0⟩, ⟨15,15,.w1c,false,0⟩, ⟨31,16,.rc,false,0⟩]⟩,
  /- TL_MASK_VIDX -/ ⟨0x2bc,1,4,1,4,[⟨31,0,.ro,false,0⟩]⟩,
  /- TL_CAP_DEAD_LAST -/ ⟨0x2c0,1,4,1,4,[⟨31,0,.ro,false,0⟩]⟩,
  /- TL_CAP_DEAD_MAX -/ ⟨0x2c4,1,4,1,4,[⟨31,0,.rc,false,0⟩]⟩,
  /- TL_CAP_CNT -/ ⟨0x2c8,1,4,1,4,[⟨15,0,.rc,false,0⟩, ⟨31,16,.rc,false,0⟩]⟩,
  /- TL_CAP_RD -/ ⟨0x2d0,4,4,1,4,[⟨31,0,.ro,false,0⟩]⟩,
  /- TL_CAP_RDTAG -/ ⟨0x2e0,1,4,1,4,[⟨10,0,.ro,false,0⟩, ⟨30,30,.ro,false,0⟩, ⟨31,31,.ro,false,0⟩]⟩,
  /- TL_FQ_CTRL -/ ⟨0x300,1,4,1,4,[⟨0,0,.rw,false,0⟩, ⟨1,1,.rw,false,0⟩, ⟨2,2,.wo,false,0⟩]⟩,
  /- TL_FQ_STAT -/ ⟨0x304,1,4,1,4,[⟨9,0,.ro,false,0⟩, ⟨23,16,.ro,false,0⟩, ⟨24,24,.ro,false,0⟩, ⟨25,25,.ro,false,0⟩, ⟨26,26,.ro,false,0⟩, ⟨27,27,.ro,false,0⟩, ⟨28,28,.w1c,false,0⟩, ⟨29,29,.w1c,false,0⟩, ⟨30,30,.w1c,false,0⟩, ⟨31,31,.w1c,false,0⟩]⟩,
  /- TL_FQ_CNT -/ ⟨0x308,1,4,1,4,[⟨15,0,.rc,false,0⟩, ⟨31,16,.rc,false,0⟩]⟩,
  /- TL_FQ_RECS -/ ⟨0x30c,1,4,1,4,[⟨31,0,.rc,false,0⟩]⟩,
  /- TL_FQ_RD -/ ⟨0x310,4,4,1,4,[⟨31,0,.ro,false,0⟩]⟩,
  /- TL_FQ_RDTAG -/ ⟨0x320,1,4,1,4,[⟨9,0,.ro,false,0⟩, ⟨30,30,.ro,false,0⟩, ⟨31,31,.ro,false,0⟩]⟩,
  /- TL_VDUT_CTRL -/ ⟨0x500,1,4,1,4,[⟨0,0,.rw,false,0⟩, ⟨5,4,.rw,false,0⟩, ⟨7,6,.rw,false,0⟩, ⟨8,8,.wo,false,0⟩, ⟨30,30,.rw,true,1⟩, ⟨31,31,.rw,true,1⟩]⟩,
  /- TL_VDUT_CODE -/ ⟨0x504,1,4,1,4,[⟨17,0,.rw,false,0⟩]⟩,
  /- TL_VDUT_STAT -/ ⟨0x508,1,4,1,4,[⟨1,0,.ro,false,0⟩, ⟨4,4,.ro,false,0⟩, ⟨5,5,.ro,false,0⟩, ⟨6,6,.ro,false,0⟩, ⟨7,7,.ro,false,0⟩, ⟨15,8,.ro,false,0⟩, ⟨25,25,.w1c,false,0⟩, ⟨26,26,.w1c,false,0⟩, ⟨27,27,.w1c,false,0⟩, ⟨28,28,.w1c,false,0⟩, ⟨29,29,.w1c,false,0⟩, ⟨30,30,.w1c,false,0⟩, ⟨31,31,.w1c,false,0⟩]⟩,
  /- TL_VDUT_VLIM -/ ⟨0x50c,1,4,1,4,[⟨17,0,.rw,true,0⟩]⟩,
  /- TL_VDUT_CEXT -/ ⟨0x510,1,4,1,4,[⟨19,0,.rw,true,0⟩]⟩,
  /- TL_VDUT_ECEIL -/ ⟨0x514,1,4,1,4,[⟨15,0,.rw,true,0xc350⟩]⟩,
  /- TL_VDUT_TGT -/ ⟨0x518,1,4,1,4,[⟨17,0,.ro,false,0⟩]⟩,
  /- TL_VDUT_EMAX -/ ⟨0x51c,1,4,1,4,[⟨17,0,.ro,false,0⟩]⟩,
  /- TL_VDUT_OUT -/ ⟨0x520,1,4,1,4,[⟨17,0,.ro,false,0⟩]⟩]
def tillerRegs2 : List RegD := [
  /- TL_VDUT_ILIM -/ ⟨0x524,1,4,1,4,[⟨15,0,.rw,false,0x8000⟩, ⟨31,16,.rw,false,0x3e8⟩]⟩,
  /- TL_VDUT_SLEW -/ ⟨0x528,1,4,1,4,[⟨15,0,.rw,false,0x800⟩, ⟨31,16,.rw,false,0xc35⟩]⟩,
  /- TL_VDUT_SUP -/ ⟨0x52c,1,4,1,4,[⟨11,0,.rw,false,0x32⟩, ⟨23,16,.rw,false,0x32⟩, ⟨27,24,.rw,false,3⟩]⟩,
  /- TL_VDUT_CB -/ ⟨0x530,1,4,1,4,[⟨7,0,.rw,true,0xa⟩, ⟨15,8,.rw,true,0x50⟩, ⟨23,16,.rw,true,0x14⟩]⟩,
  /- TL_VDUT_CNT -/ ⟨0x534,1,4,1,4,[⟨15,0,.rc,false,0⟩, ⟨23,16,.rc,false,0⟩, ⟨31,24,.rc,false,0⟩]⟩,
  /- TL_VDUT_ECNT -/ ⟨0x538,1,4,1,4,[⟨31,0,.rc,false,0⟩]⟩,
  /- TL_VDUT_WF_CTRL -/ ⟨0x540,1,4,1,4,[⟨18,18,.rw,false,0⟩, ⟨20,19,.rw,false,0⟩, ⟨21,21,.rw,false,0⟩, ⟨22,22,.rw,false,0⟩, ⟨25,23,.rw,false,0⟩, ⟨27,26,.rw,false,0⟩, ⟨30,30,.wo,false,0⟩, ⟨31,31,.wo,false,0⟩]⟩,
  /- TL_VDUT_WF_STAT -/ ⟨0x544,1,4,1,4,[⟨24,0,.ro,false,0⟩, ⟨26,25,.ro,false,0⟩, ⟨29,29,.w1c,false,0⟩, ⟨30,30,.w1c,false,0⟩, ⟨31,31,.w1c,false,0⟩]⟩,
  /- TL_VDUT_WF_BASE_LO -/ ⟨0x548,1,4,1,4,[⟨31,6,.rw,false,0⟩]⟩,
  /- TL_VDUT_WF_BASE_HI -/ ⟨0x54c,1,4,1,4,[⟨1,0,.rw,false,0⟩]⟩,
  /- TL_VDUT_WF_LEN -/ ⟨0x550,1,4,1,4,[⟨24,0,.rw,false,2⟩]⟩,
  /- TL_VDUT_WF_STEP -/ ⟨0x554,1,4,1,4,[⟨16,0,.rw,false,0x10000⟩]⟩,
  /- TL_VDUT_WF_START -/ ⟨0x558,1,4,1,4,[⟨31,0,.rw,false,0⟩]⟩,
  /- TL_VDUT_WF_FREQ -/ ⟨0x560,1,4,1,4,[⟨31,0,.rw,false,0⟩]⟩,
  /- TL_VDUT_WF_PHASE -/ ⟨0x564,1,4,1,4,[⟨31,0,.rw,false,0⟩]⟩,
  /- TL_VDUT_WF_SEED -/ ⟨0x568,1,4,1,4,[⟨31,0,.rw,false,0⟩]⟩,
  /- TL_VDUT_WF_AMP -/ ⟨0x55c,1,4,1,4,[⟨17,0,.rw,false,0⟩]⟩,
  /- TL_VDUT_WF_NOISE -/ ⟨0x56c,1,4,1,4,[⟨3,0,.rw,false,0⟩, ⟨11,8,.rw,false,0⟩]⟩,
  /- TL_ADC_CTRL -/ ⟨0x400,1,4,1,4,[⟨0,0,.rw,false,0⟩, ⟨1,1,.wo,false,0⟩, ⟨2,2,.wo,false,0⟩]⟩,
  /- TL_ADC_CFG -/ ⟨0x404,1,4,1,4,[⟨3,0,.rw,false,0xd⟩, ⟨9,8,.rw,false,0⟩, ⟨15,12,.rw,false,0⟩, ⟨31,16,.rw,false,0x19⟩]⟩,
  /- TL_ADC_BURST -/ ⟨0x408,1,4,1,4,[⟨15,0,.rw,false,0⟩, ⟨31,31,.rw,false,0⟩]⟩,
  /- TL_ADC_STAT -/ ⟨0x40c,1,4,1,4,[⟨8,0,.ro,false,0⟩, ⟨23,16,.ro,false,0⟩, ⟨24,24,.ro,false,0⟩, ⟨25,25,.ro,false,0⟩, ⟨26,26,.ro,false,0⟩, ⟨27,27,.ro,false,0⟩, ⟨28,28,.ro,false,0⟩, ⟨29,29,.w1c,false,0⟩, ⟨30,30,.w1c,false,0⟩, ⟨31,31,.w1c,false,0⟩]⟩,
  /- TL_ADC_CNT -/ ⟨0x410,1,4,1,4,[⟨15,0,.rc,false,0⟩, ⟨31,16,.rc,false,0⟩]⟩,
  /- TL_ADC_RES_LO -/ ⟨0x418,1,4,1,4,[⟨31,0,.ro,false,0⟩]⟩,
  /- TL_ADC_RES_HI -/ ⟨0x41c,1,4,1,4,[⟨15,0,.ro,false,0⟩, ⟨31,31,.rc,false,0⟩]⟩,
  /- TL_ADC_SUM_LO -/ ⟨0x420,1,4,1,4,[⟨31,0,.ro,false,0⟩]⟩,
  /- TL_ADC_SUM_HI -/ ⟨0x424,1,4,1,4,[⟨31,0,.ro,false,0⟩]⟩,
  /- TL_ADC_MINMAX -/ ⟨0x428,1,4,1,4,[⟨15,0,.ro,false,0x7fff⟩, ⟨31,16,.ro,false,0x8000⟩]⟩,
  /- TL_ADC_NUSED -/ ⟨0x42c,1,4,1,4,[⟨15,0,.ro,false,0⟩, ⟨31,16,.ro,false,0⟩]⟩,
  /- TL_ADC_BUF_LO -/ ⟨0x430,1,4,1,4,[⟨31,6,.rw,false,0⟩]⟩,
  /- TL_ADC_BUF_HI -/ ⟨0x434,1,4,1,4,[⟨1,0,.rw,false,0⟩]⟩,
  /- TL_ADC_BUF_LEN -/ ⟨0x438,1,4,1,4,[⟨15,0,.rw,false,0⟩]⟩,
  /- TL_TDC_CTRL -/ ⟨0x380,1,4,1,4,[⟨1,1,.wo,false,0⟩, ⟨2,2,.wo,false,0⟩]⟩,
  /- TL_TDC_SRC -/ ⟨0x384,1,4,1,4,[⟨7,0,.rw,false,0⟩, ⟨15,8,.rw,false,0⟩]⟩,
  /- TL_TDC_CFG -/ ⟨0x388,1,4,1,4,[⟨10,0,.rw,false,0⟩, ⟨31,16,.rw,false,0⟩]⟩,
  /- TL_TDC_TMO -/ ⟨0x38c,1,4,1,4,[⟨31,0,.rw,false,0⟩]⟩,
  /- TL_TDC_STAT -/ ⟨0x390,1,4,1,4,[⟨15,0,.ro,false,0⟩, ⟨28,28,.ro,false,0⟩, ⟨29,29,.w1c,false,0⟩, ⟨31,30,.ro,false,0⟩]⟩,
  /- TL_TDC_RESULT -/ ⟨0x394,1,4,1,4,[⟨15,0,.ro,false,0⟩, ⟨30,28,.ro,false,0⟩, ⟨31,31,.rc,false,0⟩]⟩,
  /- TL_TDC_CNT -/ ⟨0x398,1,4,1,4,[⟨7,0,.ro,false,0⟩, ⟨15,8,.ro,false,0⟩, ⟨23,16,.ro,false,0⟩, ⟨31,24,.ro,false,0⟩]⟩,
  /- TL_TDC_LAST_LO -/ ⟨0x3a0,1,4,1,4,[⟨31,0,.ro,false,0⟩]⟩]
def tillerRegs3 : List RegD := [
  /- TL_TDC_LAST_HI -/ ⟨0x3a4,1,4,1,4,[⟨7,0,.ro,false,0⟩, ⟨29,29,.ro,false,0⟩, ⟨30,30,.ro,false,0⟩, ⟨31,31,.ro,false,0⟩]⟩,
  /- TL_TDC_MEAN_LO -/ ⟨0x3a8,1,4,1,4,[⟨31,0,.ro,false,0⟩]⟩,
  /- TL_TDC_MEAN_HI -/ ⟨0x3ac,1,4,1,4,[⟨15,0,.ro,false,0⟩]⟩,
  /- TL_TDC_SD -/ ⟨0x3b0,1,4,1,4,[⟨31,0,.ro,false,0⟩]⟩,
  /- TL_TDC_MIN -/ ⟨0x3b4,1,4,1,4,[⟨31,0,.ro,false,0xffffffff⟩]⟩,
  /- TL_TDC_MAX -/ ⟨0x3b8,1,4,1,4,[⟨31,0,.ro,false,0⟩]⟩,
  /- TL_TDC_NVALID -/ ⟨0x3bc,1,4,1,4,[⟨15,0,.ro,false,0⟩]⟩,
  /- TL_HV_CTRL -/ ⟨0x600,1,4,1,4,[⟨0,0,.rw,false,0⟩, ⟨4,4,.rw,false,0⟩, ⟨7,6,.rw,false,0⟩, ⟨8,8,.wo,false,0⟩, ⟨30,30,.rw,true,1⟩, ⟨31,31,.rw,true,1⟩]⟩,
  /- TL_HV_CODE -/ ⟨0x604,1,4,1,4,[⟨15,0,.rw,false,0⟩]⟩,
  /- TL_HV_STAT -/ ⟨0x608,1,4,1,4,[⟨1,0,.ro,false,0⟩, ⟨4,4,.ro,false,0⟩, ⟨5,5,.ro,false,0⟩, ⟨6,6,.ro,false,0⟩, ⟨7,7,.ro,false,0⟩, ⟨15,8,.ro,false,0⟩, ⟨25,25,.w1c,false,0⟩, ⟨26,26,.w1c,false,0⟩, ⟨27,27,.w1c,false,0⟩, ⟨28,28,.w1c,false,0⟩, ⟨29,29,.w1c,false,0⟩, ⟨30,30,.w1c,false,0⟩, ⟨31,31,.w1c,false,0⟩]⟩,
  /- TL_HV_VLIM -/ ⟨0x60c,1,4,1,4,[⟨15,0,.rw,true,0⟩, ⟨31,16,.rw,true,0⟩]⟩,
  /- TL_HV_CEXT -/ ⟨0x610,1,4,1,4,[⟨19,0,.rw,true,0⟩]⟩,
  /- TL_HV_ECEIL -/ ⟨0x614,1,4,1,4,[⟨15,0,.rw,true,0x2ee0⟩]⟩,
  /- TL_HV_TGT -/ ⟨0x618,1,4,1,4,[⟨15,0,.ro,false,0⟩]⟩,
  /- TL_HV_EMAX -/ ⟨0x61c,1,4,1,4,[⟨15,0,.ro,false,0⟩]⟩,
  /- TL_HV_OUT -/ ⟨0x620,1,4,1,4,[⟨15,0,.ro,false,0⟩]⟩,
  /- TL_HV_ILIM -/ ⟨0x624,1,4,1,4,[⟨15,0,.rw,false,0xffff⟩, ⟨31,16,.rw,false,0x3e8⟩]⟩,
  /- TL_HV_SLEW -/ ⟨0x628,1,4,1,4,[⟨15,0,.rw,false,0x800⟩, ⟨31,16,.rw,false,0xc35⟩]⟩,
  /- TL_HV_SUP -/ ⟨0x62c,1,4,1,4,[⟨11,0,.rw,false,0x32⟩, ⟨23,16,.rw,false,0x32⟩, ⟨27,24,.rw,false,3⟩]⟩,
  /- TL_HV_CB -/ ⟨0x630,1,4,1,4,[⟨7,0,.rw,true,0xa⟩, ⟨15,8,.rw,true,0x50⟩, ⟨23,16,.rw,true,0x14⟩]⟩,
  /- TL_HV_CNT -/ ⟨0x634,1,4,1,4,[⟨15,0,.rc,false,0⟩, ⟨23,16,.rc,false,0⟩, ⟨31,24,.rc,false,0⟩]⟩,
  /- TL_HV_ECNT -/ ⟨0x638,1,4,1,4,[⟨31,0,.rc,false,0⟩]⟩,
  /- TL_HV_WF_CTRL -/ ⟨0x640,1,4,1,4,[⟨18,18,.rw,false,0⟩, ⟨20,19,.rw,false,0⟩, ⟨21,21,.rw,false,0⟩, ⟨22,22,.rw,false,0⟩, ⟨25,23,.rw,false,0⟩, ⟨27,26,.rw,false,0⟩, ⟨30,30,.wo,false,0⟩, ⟨31,31,.wo,false,0⟩]⟩,
  /- TL_HV_WF_STAT -/ ⟨0x644,1,4,1,4,[⟨24,0,.ro,false,0⟩, ⟨26,25,.ro,false,0⟩, ⟨29,29,.w1c,false,0⟩, ⟨30,30,.w1c,false,0⟩, ⟨31,31,.w1c,false,0⟩]⟩,
  /- TL_HV_WF_BASE_LO -/ ⟨0x648,1,4,1,4,[⟨31,6,.rw,false,0⟩]⟩,
  /- TL_HV_WF_BASE_HI -/ ⟨0x64c,1,4,1,4,[⟨1,0,.rw,false,0⟩]⟩,
  /- TL_HV_WF_LEN -/ ⟨0x650,1,4,1,4,[⟨24,0,.rw,false,2⟩]⟩,
  /- TL_HV_WF_STEP -/ ⟨0x654,1,4,1,4,[⟨16,0,.rw,false,0x10000⟩]⟩,
  /- TL_HV_WF_START -/ ⟨0x658,1,4,1,4,[⟨31,0,.rw,false,0⟩]⟩,
  /- TL_HV_WF_FREQ -/ ⟨0x660,1,4,1,4,[⟨31,0,.rw,false,0⟩]⟩,
  /- TL_HV_WF_PHASE -/ ⟨0x664,1,4,1,4,[⟨31,0,.rw,false,0⟩]⟩,
  /- TL_HV_WF_SEED -/ ⟨0x668,1,4,1,4,[⟨31,0,.rw,false,0⟩]⟩,
  /- TL_HV_WF_AMP -/ ⟨0x65c,1,4,1,4,[⟨15,0,.rw,false,0⟩]⟩,
  /- TL_HV_WF_NOISE -/ ⟨0x66c,1,4,1,4,[⟨3,0,.rw,false,0⟩, ⟨11,8,.rw,false,0⟩]⟩]
/-- The registers of a tiller block. -/
def tillerRegs : List RegD := tillerRegs0 ++ tillerRegs1 ++ tillerRegs2 ++ tillerRegs3
def pinRegs0 : List RegD := [
  /- PN_CTRL -/ ⟨0,1,4,1,4,[⟨0,0,.rw,false,0⟩, ⟨1,1,.rw,false,0⟩, ⟨3,2,.rw,false,1⟩, ⟨4,4,.rw,false,0⟩, ⟨6,5,.rw,false,1⟩, ⟨7,7,.rw,false,0⟩, ⟨8,8,.rw,false,0⟩, ⟨11,9,.rw,false,0⟩, ⟨17,12,.rw,false,0⟩]⟩,
  /- PN_STAT -/ ⟨4,1,4,1,4,[⟨1,1,.ro,false,0⟩, ⟨2,2,.ro,false,0⟩, ⟨3,3,.ro,false,0⟩, ⟨4,4,.ro,false,0⟩, ⟨5,5,.ro,false,0⟩, ⟨27,27,.w1c,false,0⟩, ⟨28,28,.w1c,false,0⟩, ⟨29,29,.w1c,false,0⟩, ⟨30,30,.w1c,false,0⟩, ⟨31,31,.w1c,false,0⟩]⟩,
  /- PN_CNT -/ ⟨8,1,4,1,4,[⟨15,0,.rc,false,0⟩, ⟨31,16,.rc,false,0⟩]⟩,
  /- PN_LVL -/ ⟨0x10,7,4,1,4,[⟨15,0,.rw,false,0⟩]⟩,
  /- PN_PPMU_CTRL -/ ⟨0x30,1,4,1,4,[⟨2,0,.rw,false,0⟩, ⟨6,4,.rw,false,4⟩]⟩,
  /- PN_PPMU_FORCE -/ ⟨0x34,1,4,1,4,[⟨15,0,.rw,false,0⟩]⟩,
  /- PN_CMP -/ ⟨0x40,1,4,1,4,[⟨0,0,.ro,false,0⟩, ⟨1,1,.ro,false,0⟩, ⟨2,2,.w1c,false,0⟩, ⟨3,3,.w1c,false,0⟩]⟩]
/-- The registers of a pin block. -/
def pinRegs : List RegD := pinRegs0
def thresherRegs0 : List RegD := [
  /- TH_CTRL -/ ⟨0,1,4,1,4,[⟨0,0,.rw,false,0⟩, ⟨1,1,.wo,false,0⟩, ⟨3,2,.rw,false,0⟩, ⟨4,4,.rw,false,0⟩, ⟨9,8,.rw,false,0⟩]⟩,
  /- TH_STAT -/ ⟨4,1,4,1,4,[⟨2,0,.ro,false,0⟩, ⟨12,8,.ro,false,0⟩, ⟨21,16,.ro,false,0⟩, ⟨28,28,.ro,false,0⟩, ⟨29,29,.w1c,false,0⟩, ⟨30,30,.w1c,false,0⟩, ⟨31,31,.w1c,false,0⟩]⟩,
  /- TH_FAULT -/ ⟨8,1,4,1,4,[⟨7,0,.ro,false,0⟩, ⟨29,16,.ro,false,0⟩]⟩,
  /- TH_ENTRY -/ ⟨0x10,5,4,1,4,[⟨13,0,.rw,true,0⟩]⟩,
  /- TH_CMD -/ ⟨0x28,1,4,1,4,[⟨1,0,.rw,false,0⟩, ⟨27,24,.rw,false,0⟩, ⟨31,31,.wo,false,0⟩]⟩,
  /- TH_RING_LO -/ ⟨0x30,1,4,1,4,[⟨31,6,.rw,false,0⟩]⟩,
  /- TH_RING_HI -/ ⟨0x34,1,4,1,4,[⟨1,0,.rw,false,0⟩, ⟨31,28,.rw,false,0⟩]⟩,
  /- TH_RING_HEAD -/ ⟨0x38,1,4,1,4,[⟨15,0,.ro,false,0⟩]⟩,
  /- TH_RING_TAIL -/ ⟨0x3c,1,4,1,4,[⟨15,0,.rw,false,0⟩]⟩,
  /- TH_CNT_REC -/ ⟨0x40,1,4,1,4,[⟨31,0,.rc,false,0⟩]⟩,
  /- TH_CNT_ABN -/ ⟨0x44,1,4,1,4,[⟨15,0,.rc,false,0⟩, ⟨31,16,.rc,false,0⟩]⟩,
  /- TH_CNT_WAIT -/ ⟨0x48,1,4,1,4,[⟨31,0,.rc,false,0⟩]⟩]
/-- The registers of a thresher block. -/
def thresherRegs : List RegD := thresherRegs0
def sheafRegs0 : List RegD := [
  /- SH_UC_VERSION -/ ⟨0x800,1,4,1,4,[⟨15,0,.ro,false,0⟩, ⟨23,16,.ro,false,0⟩, ⟨31,28,.ro,false,0⟩]⟩,
  /- SH_UCS_CTRL -/ ⟨0x804,1,4,1,4,[⟨13,0,.rw,true,0⟩, ⟨30,30,.w1c,true,0⟩, ⟨31,31,.rw,true,0⟩]⟩,
  /- SH_UCS_DATA -/ ⟨0x810,8,4,1,4,[⟨31,0,.wo,true,0⟩]⟩,
  /- SH_UCS_FINISH -/ ⟨0x830,1,4,1,4,[⟨15,0,.wo,true,0⟩, ⟨23,16,.wo,true,0⟩, ⟨31,31,.wo,true,0⟩]⟩,
  /- SH_UCS_ECC -/ ⟨0x834,1,4,1,4,[⟨15,0,.rc,false,0⟩, ⟨31,16,.rc,false,0⟩]⟩,
  /- SH_CTX_MAP -/ ⟨0x840,4,4,1,4,[⟨11,0,.rw,false,0⟩, ⟨28,16,.rw,false,0x400⟩]⟩,
  /- SH_RMAP -/ ⟨0x850,4,4,1,4,[⟨4,0,.rw,false,0⟩, ⟨8,5,.rw,false,0⟩, ⟨13,9,.rw,false,0⟩, ⟨17,14,.rw,false,0⟩, ⟨22,18,.rw,false,0x10⟩, ⟨27,23,.rw,false,0x10⟩]⟩,
  /- SH_SPARE -/ ⟨0x860,4,4,1,4,[⟨3,0,.rw,false,0⟩, ⟨7,4,.rw,false,0⟩, ⟨15,8,.rw,false,0xff⟩]⟩,
  /- SH_BMAP_LO -/ ⟨0x880,4,8,1,4,[⟨5,0,.rw,false,0⟩, ⟨31,6,.rw,false,0⟩]⟩,
  /- SH_BMAP_HI -/ ⟨0x884,4,8,1,4,[⟨1,0,.rw,false,0⟩]⟩,
  /- SH_PKT_SEQ -/ ⟨0x8a0,4,4,1,4,[⟨31,0,.ro,false,0⟩]⟩,
  /- SH_CTX_STAT -/ ⟨0x8b0,1,4,1,4,[⟨15,0,.rc,false,0⟩, ⟨31,31,.w1c,false,0⟩]⟩,
  /- SH_UCRD_ADDR -/ ⟨0x8c0,1,4,1,4,[⟨13,0,.rw,false,0⟩, ⟨31,31,.w1c,false,0⟩]⟩,
  /- SH_UCRD_D -/ ⟨0x8c4,8,4,1,4,[⟨31,0,.ro,false,0⟩]⟩,
  /- SH_XBAR_ROUTE -/ ⟨0xc00,1,4,1,4,[⟨3,0,.rw,false,0xc⟩, ⟨7,4,.ro,false,0⟩]⟩,
  /- SH_MEM_ECC -/ ⟨0xe00,1,4,1,4,[⟨15,0,.rc,false,0⟩, ⟨31,16,.rc,false,0⟩]⟩,
  /- SH_MEM_ERRADDR -/ ⟨0xe04,1,4,1,4,[⟨27,0,.ro,false,0⟩, ⟨31,31,.w1c,false,0⟩]⟩,
  /- SH_MEM_SCRUB -/ ⟨0xe08,1,4,1,4,[⟨15,0,.rw,true,0x18⟩, ⟨31,31,.rw,true,1⟩]⟩]
/-- The registers of a sheaf block. -/
def sheafRegs : List RegD := sheafRegs0
def stripRegs0 : List RegD := [
  /- ST_TEMP -/ ⟨0,4,4,1,4,[⟨15,0,.ro,false,0⟩, ⟨31,31,.w1c,false,0⟩]⟩,
  /- ST_TSTRIP -/ ⟨0x10,1,4,1,4,[⟨15,0,.ro,false,0⟩, ⟨26,24,.ro,false,0⟩, ⟨29,29,.ro,false,0⟩, ⟨30,30,.ro,false,0⟩, ⟨31,31,.w1c,false,0⟩]⟩,
  /- ST_RISE -/ ⟨0x14,1,4,1,4,[⟨15,0,.ro,false,0⟩, ⟨29,29,.ro,false,0⟩, ⟨30,30,.ro,false,0⟩, ⟨31,31,.ro,false,0⟩]⟩,
  /- ST_RISE_CFG -/ ⟨0x18,1,4,1,4,[⟨11,0,.rw,false,0x40⟩, ⟨23,12,.rw,false,0xa0⟩, ⟨28,28,.rw,false,0⟩, ⟨31,29,.rw,false,2⟩]⟩,
  /- ST_RISE_STAT -/ ⟨0x1c,1,4,1,4,[⟨7,0,.rc,false,0⟩, ⟨15,8,.ro,false,0⟩, ⟨23,16,.ro,false,0⟩]⟩,
  /- ST_TH_EVT -/ ⟨0x20,1,4,1,4,[⟨10,0,.w1c,false,0⟩]⟩,
  /- ST_TH_EVT_EN -/ ⟨0x24,1,4,1,4,[⟨10,0,.rw,false,0⟩]⟩,
  /- ST_CAL_CTRL -/ ⟨0x400,1,4,1,4,[⟨0,0,.rw,false,1⟩, ⟨1,1,.rw,false,1⟩, ⟨15,8,.rw,false,0⟩, ⟨28,28,.wo,false,0⟩, ⟨29,29,.wo,false,0⟩, ⟨30,30,.wo,false,0⟩, ⟨31,31,.wo,false,0⟩]⟩,
  /- ST_CAL_DT -/ ⟨0x404,1,4,1,4,[⟨11,0,.rw,false,0x180⟩]⟩,
  /- ST_CAL_STAT -/ ⟨0x408,1,4,1,4,[⟨7,7,.ro,false,1⟩, ⟨15,8,.ro,false,0⟩, ⟨23,16,.ro,false,0⟩, ⟨26,24,.ro,false,1⟩, ⟨29,29,.w1c,false,0⟩, ⟨30,30,.w1c,false,0⟩, ⟨31,31,.ro,false,0⟩]⟩,
  /- ST_CAL_PROG -/ ⟨0x40c,1,4,1,4,[⟨8,0,.ro,false,0⟩, ⟨18,16,.ro,false,0⟩]⟩,
  /- ST_CAL_TREF -/ ⟨0x410,1,4,1,4,[⟨15,0,.ro,false,0⟩, ⟨31,16,.ro,false,0⟩]⟩,
  /- ST_CAL_QUAL -/ ⟨0x414,1,4,1,4,[⟨15,0,.ro,false,0⟩, ⟨31,16,.rw,false,0x96⟩]⟩,
  /- ST_CAL_QUAL_T -/ ⟨0x420,8,4,1,4,[⟨15,0,.ro,false,0⟩, ⟨21,16,.ro,false,0⟩]⟩,
  /- ST_CAL_CNT -/ ⟨0x440,1,4,1,4,[⟨7,0,.rc,false,0⟩, ⟨15,8,.rc,false,0⟩, ⟨31,16,.ro,false,0⟩]⟩,
  /- ST_CAL_TMO -/ ⟨0x444,1,4,1,4,[⟨15,0,.rw,false,0x2710⟩]⟩,
  /- ST_CAL_TBANK -/ ⟨0x448,1,4,1,4,[⟨7,0,.ro,false,0⟩, ⟨31,8,.ro,false,0⟩]⟩,
  /- ST_CAL_IDX -/ ⟨0x480,1,4,1,4,[⟨10,0,.rw,false,0⟩, ⟨31,31,.rw,false,1⟩]⟩,
  /- ST_CAL_DATA -/ ⟨0x484,1,4,1,4,[⟨31,0,.rw,false,0⟩]⟩,
  /- ST_CAL_LAST_LO -/ ⟨0x488,1,4,1,4,[⟨31,0,.ro,false,0⟩]⟩,
  /- ST_CAL_LAST_HI -/ ⟨0x48c,1,4,1,4,[⟨31,0,.ro,false,0⟩]⟩,
  /- ST_SEQ_CFG -/ ⟨0x1000,1,4,1,4,[⟨7,0,.rw,true,0⟩]⟩,
  /- ST_SEQ_STAT -/ ⟨0x1004,1,4,1,4,[⟨7,0,.ro,false,0⟩, ⟨15,8,.ro,false,0⟩]⟩]
/-- The registers of a strip block. -/
def stripRegs : List RegD := stripRegs0
def linkRegs0 : List RegD := [
  /- LK_PCIE_STAT -/ ⟨0,1,4,1,4,[⟨2,0,.ro,false,0⟩, ⟨7,4,.ro,false,0⟩, ⟨16,16,.ro,false,0⟩, ⟨17,17,.ro,false,0⟩, ⟨31,24,.rc,false,0⟩]⟩,
  /- LK_PCIE_ERR -/ ⟨4,1,4,1,4,[⟨7,0,.rc,false,0⟩, ⟨15,8,.rc,false,0⟩, ⟨23,16,.rc,false,0⟩, ⟨31,24,.rc,false,0⟩]⟩,
  /- LK_PCIE_LPBK -/ ⟨8,1,4,1,4,[⟨1,0,.rw,true,0⟩, ⟨31,31,.rw,true,0⟩]⟩,
  /- LK_PCIE_PRBS_ERR -/ ⟨0xc,1,4,1,4,[⟨3,0,.rc,false,0⟩, ⟨7,4,.rc,false,0⟩, ⟨11,8,.rc,false,0⟩, ⟨15,12,.rc,false,0⟩, ⟨19,16,.rc,false,0⟩, ⟨23,20,.rc,false,0⟩, ⟨27,24,.rc,false,0⟩, ⟨31,28,.rc,false,0⟩]⟩,
  /- LK_DMA_RING_LO -/ ⟨0x100,8,0x40,1,4,[⟨31,5,.rw,false,0⟩]⟩,
  /- LK_DMA_RING_HI -/ ⟨0x104,8,0x40,1,4,[⟨31,0,.rw,false,0⟩]⟩,
  /- LK_DMA_SIZE -/ ⟨0x108,8,0x40,1,4,[⟨3,0,.rw,false,0⟩]⟩,
  /- LK_DMA_PROD -/ ⟨0x10c,8,0x40,1,4,[⟨15,0,.rw,false,0⟩]⟩,
  /- LK_DMA_CONS -/ ⟨0x110,8,0x40,1,4,[⟨15,0,.ro,false,0⟩]⟩,
  /- LK_DMA_CTRL -/ ⟨0x114,8,0x40,1,4,[⟨0,0,.rw,false,0⟩, ⟨1,1,.wo,false,0⟩, ⟨2,2,.wo,false,0⟩, ⟨31,31,.ro,false,0⟩]⟩,
  /- LK_DMA_STAT -/ ⟨0x118,8,0x40,1,4,[⟨23,16,.ro,false,0⟩, ⟨25,24,.ro,false,0⟩, ⟨29,29,.ro,false,0⟩, ⟨30,30,.w1c,false,0⟩, ⟨31,31,.w1c,false,0⟩]⟩,
  /- LK_DMA_DONEB -/ ⟨0x11c,8,0x40,1,4,[⟨31,0,.ro,false,0⟩]⟩,
  /- LK_HMQ_RD -/ ⟨0x400,4,0x10,1,4,[⟨31,0,.ro,false,0x80000000⟩]⟩,
  /- LK_HMQ_STAT -/ ⟨0x404,4,0x10,1,4,[⟨9,0,.ro,false,0⟩, ⟨31,31,.w1c,false,0⟩]⟩,
  /- LK_HMQ_THR -/ ⟨0x408,4,0x10,1,4,[⟨9,0,.rw,false,1⟩]⟩,
  /- LK_G_CTRL -/ ⟨0x2000,4,0x2000,1,4,[⟨0,0,.rw,true,1⟩, ⟨1,1,.wo,false,0⟩, ⟨6,4,.rw,true,0⟩, ⟨9,8,.rw,true,0⟩]⟩,
  /- LK_G_STAT -/ ⟨0x2004,4,0x2000,1,4,[⟨2,0,.ro,false,0⟩, ⟨10,8,.ro,false,0⟩, ⟨14,12,.ro,false,0⟩, ⟨19,16,.ro,false,0⟩, ⟨31,31,.w1c,false,0⟩]⟩,
  /- LK_G_CNT -/ ⟨0x2008,4,0x2000,1,4,[⟨7,0,.rc,false,0⟩, ⟨15,8,.rc,false,0⟩, ⟨23,16,.rc,false,0⟩, ⟨31,24,.rc,false,0⟩]⟩,
  /- LK_G_CREDIT -/ ⟨0x200c,4,0x2000,1,4,[⟨7,0,.ro,false,0⟩, ⟨15,8,.ro,false,0⟩, ⟨23,16,.ro,false,0⟩, ⟨31,24,.ro,false,0⟩]⟩,
  /- LK_G_PRBS_ERR -/ ⟨0x2010,4,0x2000,1,4,[⟨7,0,.rc,false,0⟩, ⟨15,8,.rc,false,0⟩, ⟨23,16,.rc,false,0⟩, ⟨31,24,.rc,false,0⟩]⟩,
  /- LK_MESH_POS -/ ⟨0x2800,1,4,1,4,[⟨2,0,.ro,false,0⟩, ⟨6,4,.ro,false,0⟩, ⟨8,8,.ro,false,0⟩, ⟨18,16,.rw,true,0⟩, ⟨22,20,.rw,true,0⟩, ⟨31,31,.rw,true,0⟩]⟩,
  /- LK_MESH_DROP -/ ⟨0x2804,1,4,1,4,[⟨7,0,.rc,false,0⟩, ⟨15,8,.rc,false,0⟩, ⟨23,16,.rc,false,0⟩, ⟨31,24,.rc,false,0⟩]⟩,
  /- LK_MESH_TMO -/ ⟨0x2808,1,4,1,4,[⟨15,0,.rw,false,0x64⟩]⟩]
/-- The registers of a link block. -/
def linkRegs : List RegD := linkRegs0

end Sys2Proof.Machine
end

