-- ==== Sys2Proof/Machine/ResetValues.lean ====
section
/-! DEFINITION. What every address of the register space reads as after reset (R8, R11, R23, R24). -/

namespace Sys2Proof.Machine

/-- The register group whose words an offset in its block falls on. -/
def RegD.has (d : RegD) (off : Nat) : Bool :=
  decide (d.off ≤ off) && decide ((off - d.off) / d.s1 < d.c1) && decide ((off - d.off) % d.s1 / d.s2 < d.c2)
    && (off - d.off) % d.s1 % d.s2 == 0

/-- The registers of the block an address falls in, and the offset in that block (R23). -/
def blockOf (a : Nat) : List RegD × Nat :=
  if a < 0x10000 then (globalRegs, a)
  else if a < 0x20000 then (stripRegs, (a - 0x10000) % 0x2000)
  else if a < 0x30000 then
    if (a - 0x20000) % 0x1000 < 0x800 then (thresherRegs, (a - 0x20000) % 0x400) else (sheafRegs, (a - 0x20000) % 0x1000)
  else if a < 0x40000 then ([], 0)
  else if a < 0x80000 then
    if (a - 0x40000) % 0x1000 < 0x800 then (tillerRegs, (a - 0x40000) % 0x1000) else (pinRegs, (a - 0x40000) % 0x100)
  else if a < 0x90000 then (linkRegs, a - 0x80000)
  else ([], 0)

/-- The register at an address, none where nothing is implemented (R11). -/
def regAt (a : Nat) : Option RegD := (blockOf a).1.find? (fun d => d.has (blockOf a).2)

/-- The word of the Reset column. -/
def RegD.word (d : RegD) : Nat := d.flds.foldl (fun w f => w ||| (f.reset <<< f.lo)) 0

/-- A timing set as a chip reset loads it (R168): offset within its 512 bytes. -/
def timingReset (o : Nat) : Nat :=
  if o = 0 then 6400 else if 0x100 ≤ o ∧ (o % 0x20 = 0x10 ∨ o % 0x20 = 0x14) then 3200 else 0

/-- Table space as a chip reset leaves it (R111, R138, R168, R347): timing sets, level-change tables, scrambler and topology,
segment tables, deskew tables. -/
def tableReset (a : Nat) : Nat :=
  if a < 0x300000 then timingReset (a % 0x200)
  else if a < 0x340000 then 0
  else if a < 0x540000 then (if (a - 0x340000) % 0x8000 < 0x4000 then (a - 0x340000) % 0x8000 / 4 else 0)
  else if a < 0x5C0000 then 0
  else Config.factoryDeskew

/-- Reset byte of `FC_REACT` of block b (R416). -/
def reactReset (b : Nat) : Nat :=
  if b < 64 then 1 else if b < 128 then 5 else if b < 176 then 1
  else match b with
    | 176 => 0x27 | 181 => 0x21 | 183 => 0x07 | _ => 1

/-- Registers whose reset value depends on their own number or comes from the NVM; the rest follow their table. -/
def ownReset (a : Nat) (d : RegD) : Nat :=
  if 0x3100 ≤ a ∧ a < 0x31B8 then
    (List.range 4).foldl (fun w j => w ||| (reactReset (a - 0x3100 + j) <<< (8 * j))) 0
  else if 0x5200 ≤ a ∧ a < 0x5224 then (List.range 4).foldl (fun w j => w ||| ((a - 0x5200 + j) <<< (8 * j))) 0
  else if a = 0x2018 then d.word ||| (1 <<< 2)
  else if a = 0x201C then d.word ||| (2 <<< 2)
  else if a = 0xA008 then 10000
  else if a = 0x80 then 2
  else if a = 0x84 then 1
  else if 0x20000 ≤ a ∧ a < 0x30000 then
    let o := (a - 0x20000) % 0x1000
    if 0x840 ≤ o ∧ o < 0x850 then d.word ||| (0x400 * ((o - 0x840) / 4)) else d.word
  else if 0x40000 ≤ a ∧ a < 0x80000 then
    let o := (a - 0x40000) % 0x1000
    if 0x800 ≤ o then
      match o % 0x100 with
      | 0x10 => Config.safeVIH | 0x14 => Config.safeVIL | 0x18 => Config.safeVTT | 0x1C => Config.safeVOH
      | 0x20 => Config.safeVOL | 0x24 => Config.safeCLH | 0x28 => Config.safeCLL | 0x34 => Config.safePPMU
      | _ => d.word
    else match o with
      | 0x50C => Config.vdutLimit | 0x60C => Config.hvLimit <<< 16
      | _ => d.word
  else d.word

/-- Bits of the register at an address that the NVM gives at reset, of those that host or lead supervisor can program (R8, R429): level
and force codes of pins, range, span, codes and limits of supplies. -/
def nvmMask (a : Nat) : Nat :=
  if 0x40000 ≤ a ∧ a < 0x80000 then
    let o := (a - 0x40000) % 0x1000
    if 0x800 ≤ o then (if (0x10 ≤ o % 0x100 ∧ o % 0x100 ≤ 0x28 ∨ o % 0x100 = 0x34) ∧ a % 4 = 0 then 0xFFFF else 0)
    else match o with
      | 0x500 => 0x30 | 0x504 => 0x3FFFF | 0x50C => 0x3FFFF | 0x600 => 0x10 | 0x604 => 0xFFFF | 0x60C => 0xFFFFFFFF
      | _ => 0
  else 0

/-- The word an address of register space reads as after reset. -/
def resetWord (a : Nat) : Word :=
  if 0x100000 ≤ a ∧ a < 0x5E0000 then BitVec.ofNat 32 (tableReset a)
  else if 0x81000 ≤ a ∧ a < 0x81400 then (if a % 16 = 12 then 1 else 0)
  else match regAt a with
    | none => 0
    | some d => BitVec.ofNat 32 (ownReset a d)

end Sys2Proof.Machine
end

