-- ==== Sys2Proof/Machine/State.lean ====
section
/-! DEFINITION. The state of the part as plain data. What the manual shows in a register stands in `State.regs` alone; the
records below hold what it gives the part beside its registers. Instants are edge steps of 7.8125 ps counted from VBULK
power-up: 160 a tiller cycle, 1280 a tick (R3, R161). -/

namespace Sys2Proof.Machine

/-! ### Tiller engine (chapters 03, 04, 05) -/

/-- The fields of a full vector word (R57). -/
structure Vec where
  pin : Nat
  tset : Nat
  cap : Nat
  evo : Nat
  xop : Nat
  yop : Nat
  dop : Nat
  opc : Nat
  opd : Nat
  lvl : Nat
  cnd : Nat
  rsv : Nat
  deriving DecidableEq, Repr

/-- The all-zero word: eight D0, TSET 0, NOP (R453). -/
def Vec.zero : Vec := ⟨0, 0, 0, 0, 0, 0, 0, 0, 0, 0, 0, 0⟩

/-- A segment descriptor, the copy the sequencer holds (R138, R139). -/
structure SegDesc where
  w0 : Nat
  w1 : Nat
  w2 : Nat
  w3 : Nat
  w4 : Nat
  w5 : Nat
  w6 : Nat
  w7 : Nat
  deriving DecidableEq, Repr

def SegDesc.zero : SegDesc := ⟨0, 0, 0, 0, 0, 0, 0, 0⟩

/-- A call-stack entry as popped (R72): return index, in-segment flag, segment, passes completed, and the entry serial at
the push, from which R72 tells whether another segment has been entered since. -/
structure StackEntry where
  ret : Nat
  inSeg : Bool
  seg : Nat
  pass : Nat
  serial : Nat
  deriving DecidableEq, Repr

/-- Why a tiller is parked and what ends the park (R39, R47, R77, R130, R350). -/
inductive Park where
  | none
  | waitrc (w : Nat)
  | rdv (k : Nat)
  | pause
  | thermal
  | evw (latch : Nat) (deadline : Option Nat) (target : Nat)
  deriving DecidableEq, Repr

/-- What follows the vector most recently issued (R58 step 6). `ready` names the vector due to issue, at the tiller's `atIdx`
or `atPos`; `undecided` waits for compares (R80); `pass` begins a pass and `link` takes the segment's link (R140); `seg` is the
end of a vector without transfer that may end a pass. -/
inductive Next where
  | ready
  | seq
  | again
  | loopBack (idx : Nat)
  | jump (idx : Nat) (push : Bool)
  | timeout (idx : Nat)
  | enterSeg (n : Nat) (push : Bool)
  | ret
  | undecided
  | link
  | pass
  | first
  | halt (code : Nat)
  | notMember
  | park (p : Park)
  | calgap (len : Nat)
  deriving DecidableEq, Repr

/-- A gap in progress (R125, R159): first tick G, length in ticks, first tick after it, and whether it is a gap segment. -/
structure Gap where
  g : Nat
  len : Nat
  until_ : Nat
  segment : Bool
  tset : Nat
  deriving DecidableEq, Repr

/-- A word of vector SRAM decoded ahead (R53, R60, R61): its index, the word as it was fetched, whether it met a double-bit error, and
the level-change entry it names, read at the decode (R114). -/
structure Ahead where
  idx : Nat
  word : Nat
  bad : Bool
  entry : List Nat
  deriving DecidableEq, Repr

/-- The sequencer of one tiller beside its registers. -/
structure Tiller where
  /-- the vector most recently issued, its SRAM index (the last SRAM index for a streamed one), its issue instant, its
  programmed period end -/
  vec : Vec
  idx : Nat
  issueAt : Nat
  endAt : Nat
  /-- the vector to issue next: SRAM index, or stream vector number while `inStream`; the instant it is due -/
  atIdx : Nat
  atPos : Nat
  inStream : Bool
  dueAt : Nat
  /-- vectors issued since the start (R55) -/
  issues : Nat
  /-- the vector most recently issued is the last of its pass (R140), came from a stream -/
  last : Bool
  streamed : Bool
  next : Next
  /-- issues of a REPEAT still to make (R69), issues of a MATCH made (R84) -/
  repLeft : Nat
  matches_ : Nat
  /-- a loop-back led to the vector due, or to the one most recently issued until the next is chosen (R70) -/
  looped : Bool
  /-- a break was pending at the issue instant of the pass's last vector; the latch, the request set again since (R141) -/
  brk : Bool
  brkLatch : Bool
  brkReq : Bool
  desc : SegDesc
  /-- segment entries since the start, and its value at each push, bottom first (R72) -/
  entries : Nat
  stackSerial : List Nat
  /-- a stop, and a start written with it, waiting for the next vector boundary (R92) -/
  stopReq : Bool
  startReq : Bool
  park : Park
  gap : Option Gap
  /-- a rate-of-rise pause waits for a segment boundary (R349) -/
  pauseReq : Bool
  /-- a mark of the strip is in force for this tiller (R350) -/
  thermal : Bool
  /-- tags of `TL_RESULT` bits [30:21] accumulated since the start (R137) -/
  tags : Nat
  /-- instant at which the present stall began, and that at which the buffer held enough again (R155) -/
  stallFrom : Nat
  refillAt : Option Nat
  /-- words of vector SRAM decoded ahead of the vector due, in order (R53) -/
  ahead : List Ahead
  /-- primes that STREAM has requested and that are not yet taken: instant and segment (R154) -/
  primes : List (Nat × Nat)
  /-- trace ring, 256 entries of four words held as one 128-bit number (R93), and entries written -/
  trace : Store Nat
  traceLen : Nat
  /-- the cache of deskew words by 5·p + e (R333) -/
  deskew : Store Nat
  /-- tick since which a coefficient switch has been pending (R345) -/
  switchFrom : Option Nat
  deriving DecidableEq, Repr

def Tiller.reset : Tiller :=
  { vec := Vec.zero, idx := 0, issueAt := 0, endAt := 0, atIdx := 0, atPos := 0, inStream := false, dueAt := 0, issues := 0, last := false, streamed := false, next := .seq, repLeft := 0, matches_ := 0, looped := false, brk := false, brkLatch := false, brkReq := false, desc := SegDesc.zero, entries := 0, stackSerial := [], stopReq := false, startReq := false, park := .none, gap := none, pauseReq := false, thermal := false, tags := 0, stallFrom := 0, refillAt := none, ahead := [], primes := [], trace := [], traceLen := 0, deskew := [], switchFrom := none }

/-! ### Compares and samples (R80, R172 to R175, R196 to R199) -/

/-- What a strobe expects (R62): low, high, mid-band, or a capture that never fails. -/
inductive Expect where
  | low | high | mid | cap
  deriving DecidableEq, Repr

/-- One strobe, or window, of a pin in an issue: which sample it belongs to, its expectation, its instant (a window runs to
`until_`, and `window` tells one from an edge), whether its compare is masked, and its result once taken: the outputs of the high and low comparators. A loopback
(R390) gives the result at the issue, or takes it from the partner pin's edges. `ready` is the instant at which the strobe has resolved
(R198), `solveAt` that of its pin's compare, and `solved` tells that the compare has resolved (R80). -/
structure Strobe where
  pin : Nat
  second : Bool
  exp : Expect
  at_ : Nat
  until_ : Nat
  window : Bool
  masked : Bool
  partner : Option Nat
  got : Option (Bool × Bool)
  failed : Bool
  ready : Nat
  solveAt : Nat
  solved : Bool
  deriving DecidableEq, Repr

/-- The compares of one issue, and what its records carry (R201, R215). -/
structure Cmp where
  /-- the run it belongs to, and its vector index in it (R55) -/
  run : Nat
  vidx : Nat
  strobes : List Strobe
  /-- the instant at which the last of its unmasked compares resolves (R80), whether all have, and its programmed period end -/
  waitAt : Nat
  resolved : Bool
  endAt : Nat
  capture : Bool
  /-- some pin uses the DDR format: the issue has a second sample (R196); its first one has been delivered (R198), or is not formed
  (R199) -/
  twoSamples : Bool
  sent : Bool
  tset : Nat
  inSeg : Bool
  streamed : Bool
  seg : Nat
  /-- X and Y in force for the issue, and the physical address they give (R201) -/
  x : Nat
  y : Nat
  px : Nat
  py : Nat
  d : Nat
  cbank : Nat
  /-- pins whose fails do not count: mask SEL of a MATCH issue that is not the last (R84, R199) -/
  expected : Nat
  /-- pins of a CLRS carried by this vector (R77) -/
  clrs : Nat
  /-- the ending packet was flushed: no fail record is formed (R209) -/
  flushed : Bool
  deriving DecidableEq, Repr

/-- A packet boundary waiting behind the samples of its packet (R207), with the flags of R202 fixed there. `dest` is the consumer that
comes into force behind the record of a flush (R211); `gone` tells a packet that a flush of the stopped tiller has emptied (R210). -/
structure PktEnd where
  vidx : Nat
  pass : Nat
  seg : Nat
  reason : Nat
  flags : Nat
  flushed : Bool
  dest : Option Nat
  gone : Bool
  deriving DecidableEq, Repr

/-- What waits in issue order: compares, packet boundaries (R207), and the end at a stop of the acquisition in force there (R218). -/
inductive Deliver where
  | sample (c : Cmp)
  | packetEnd (p : PktEnd)
  | tillerStop (acq : Nat)
  deriving DecidableEq, Repr

/-- The compare path of a tiller. -/
structure Compare where
  /-- issues with strobes not yet resolved or samples not yet delivered, and boundaries, oldest first -/
  queue : List Deliver
  /-- resolved failing vectors that a NOWAIT condition may still ask for: index and pins (R81) -/
  fails : List (Nat × Nat)
  /-- sticky bits set by the compares that resolved last, and their instant (R85) -/
  setAt : Nat
  setBits : Nat
  /-- the packet under way: whether it has issued a vector, and its last vector index (R206) -/
  pktOpen : Bool
  pktVidx : Nat
  /-- starts so far: compares of an earlier run do not belong to this one (R55, R81); the latest instant at which compares of this run
  have resolved (R80) -/
  run : Nat
  waitTo : Nat
  /-- delivery instant of the last sample (R198) -/
  sentAt : Nat
  deriving DecidableEq, Repr

def Compare.reset : Compare := ⟨[], [], 0, 0, false, 0, 0, 0, 0⟩

/-! ### Fail FIFO and capture buffer (chapter 07) -/

/-- A 16-byte FIFO or capture entry: its 128 bits and whether its parity is bad. -/
structure Entry where
  data : Nat
  poison : Bool
  deriving DecidableEq, Repr

/-- An open drop run (R204, R205). -/
structure DropRun where
  first : Nat
  last : Nat
  dropped : Nat
  skipped : Nat
  firstSkipped : Nat
  flags : Nat
  deriving DecidableEq, Repr

structure FailFifo where
  entries : List Entry
  run : Option DropRun
  hold : Nat
  /-- failing vectors and drops of the packet being delivered (R207) -/
  fails : Nat
  dropped : Bool
  deriving DecidableEq, Repr

def FailFifo.reset : FailFifo := ⟨[], none, 0, 0, false⟩

structure Capture where
  /-- pre-trigger ring while ARMED; stored entries afterwards, oldest unread first (R216, R217) -/
  entries : List Entry
  /-- entries stored in this acquisition, and samples stored after the triggering one -/
  stored : Nat
  post : Nat
  hold : Nat
  /-- occurrence counts and spent marks of the four conditions (R223) -/
  counts : Store Nat
  spent : Nat
  /-- tick in which DONE was entered (R220); none before the first -/
  doneAt : Option Nat
  /-- a violation has been recorded since the start (R226) -/
  violated : Bool
  /-- acquisitions armed so far, which tells one from the next (R218) -/
  serial : Nat
  deriving DecidableEq, Repr

def Capture.reset : Capture := ⟨[], 0, 0, 0, [], 0, none, false, 0⟩

/-! ### Level queue (R112 to R119) -/

/-- One queued entry: LVL index (0 for LVLQ), its four change words, vector index, issue instant of its vector. -/
structure LvlEntry where
  entry : Nat
  words : List Nat
  vidx : Nat
  issueAt : Nat
  deriving DecidableEq, Repr

structure Levels where
  queue : List LvlEntry
  done : List Nat
  lastDone : Nat
  /-- application instant of the last applied entry, and the targets it reached (R178) -/
  lastAt : Nat
  applied : List Nat
  deriving DecidableEq, Repr

def Levels.reset : Levels := ⟨[], [], 0, 0, []⟩

/-! ### Streams (R149 to R158) -/

/-- A vector in the stream buffer: its number in its pass, the word, whether its line was poisoned. -/
structure StreamVec where
  idx : Nat
  word : Nat
  poison : Bool
  deriving DecidableEq, Repr

structure Stream where
  /-- vectors buffered for the stream under way or primed, in issue order -/
  buf : List StreamVec
  /-- the stream being fetched: segment and its descriptor; the next vector to request of the pass being fetched -/
  seg : Option Nat
  desc : SegDesc
  fetch : Nat
  /-- passes begun by read-ahead beyond the one issuing -/
  passes : Nat
  /-- read-ahead into the segment linked to: its number, descriptor and next vector (R152) -/
  ahead : Option (Nat × SegDesc × Nat)
  entered : Bool
  /-- vectors that have left the buffer, from which the half to be filled next follows (R152) -/
  gone : Nat
  /-- read-ahead into the link was discarded by a write of its descriptor: its fetch starts at the entry (R154) -/
  noAhead : Bool
  deriving DecidableEq, Repr

def Stream.reset : Stream := ⟨[], none, SegDesc.zero, 0, 0, none, false, 0, false⟩

/-! ### Pins (chapter 06) -/

/-- The selected drive level (R169). -/
inductive Level where
  | vil | vih | vtt
  deriving DecidableEq, Repr

/-- What an edge does to the driver (R169 to R171). -/
inductive EdgeAct where
  | on | off | sel (l : Level)
  deriving DecidableEq, Repr

/-- A placed edge: instant at the ball, order within one step (edge number, R171), action. -/
structure PlacedEdge where
  at_ : Nat
  ord : Nat
  act : EdgeAct
  deriving DecidableEq, Repr

/-- One output change of the comparator pair: instant, high output, low output. -/
structure CmpChange where
  at_ : Nat
  hi : Bool
  lo : Bool
  deriving DecidableEq, Repr

structure Pin where
  enable : Bool
  sel : Level
  /-- the data value DN repeats (R63) -/
  lastDrive : Bool
  /-- edges placed and not yet reached; the level a DK pulse returns to (R80, R176) -/
  edges : List PlacedEdge
  dkReturn : Option Level
  /-- drive states of the past that a timing loopback may still need, newest first (R390) -/
  wave : List (Nat × Bool × Level)
  /-- strobes placed that others may merge with: instant, and the instant whose state they return (R174), rising -/
  strobes : List (Nat × Nat)
  /-- instants of E3 of compare vectors to come, at which the latches clear in PERIOD mode; the instants since which the latches HI_SEEN
  and LO_SEEN record (R188) -/
  clears : List Nat
  hiFrom : Nat
  loFrom : Nat
  /-- output changes of the comparator pair that pending strobes may still need, newest first -/
  history : List CmpChange
  /-- tick at which the high comparator last read not ABOVE (R356), none while it reads ABOVE -/
  lowSince : Option Nat
  /-- tick of the last PPMU range change (R194) -/
  ppmuAt : Option Nat
  /-- self-check path connected by calibration (R190) -/
  calPath : Bool
  deriving DecidableEq, Repr

def Pin.reset : Pin :=
  { enable := false, sel := .vil, lastDrive := false, edges := [], dkReturn := none, wave := [], strobes := [], clears := [], hiFrom := 0, loFrom := 0, history := [], lowSince := some 0, ppmuAt := none, calPath := false }

/-! ### Supplies (chapter 09) -/

structure Supply where
  /-- requested deviation of the player (R266 stage 1), position in 16.16, generator phase, noise state -/
  dev : Int
  pos : Nat
  phase : Nat
  lfsr : Nat
  y1 : Int
  z : Int
  /-- next sample boundary, in ticks; a stop waits for it (R287, R293) -/
  nextAt : Option Nat
  stopReq : Bool
  /-- CODE entering stage 2 (in TABLE and GEN it is taken at the next boundary, R267) -/
  codeIn : Nat
  /-- next step of the slew limiter, in ticks (R292) -/
  slewAt : Nat
  /-- a range change: the old range, its start instant in ticks; a second one waiting (R271) -/
  oldRange : Nat
  rangeAt : Option Nat
  rangeWait : Option Nat
  settleUntil : Option Nat
  /-- enable: waiting in the sequencer; ticks at enable and disable (R269, R295) -/
  enReq : Bool
  enAt : Nat
  disAt : Option Nat
  /-- in limit since (R270) -/
  limitAt : Option Nat
  /-- crowbar: ticks of the trip; it has opened; hold-off over (R284, R285) -/
  crowbarAt : Option Nat
  opened : Bool
  heldOff : Bool
  /-- setpoint outputs of the last LAG µs: (tick, o) newest first; violations in a row (R294) -/
  history : List (Nat × Nat)
  viol : Nat
  /-- tick of the last supervision reading (R306) -/
  readAt : Option Nat
  /-- fetched table entries by index: value and poison (R288) -/
  table : Store (Option (Nat × Bool))
  /-- entries missed at their boundary (R293) -/
  slips : Nat
  deriving DecidableEq, Repr

def Supply.reset : Supply :=
  { dev := 0, pos := 0, phase := 0, lfsr := 0, y1 := 0, z := 0, nextAt := none, stopReq := false, codeIn := 0, slewAt := 0,
    oldRange := 0, rangeAt := none, rangeWait := none, settleUntil := none, enReq := false, enAt := 0, disAt := none,
    limitAt := none, crowbarAt := none, opened := false, heldOff := false, history := [], viol := 0, readAt := none, table := [], slips := 0 }

/-! ### Time base and rendezvous (chapter 02) -/

/-- The commands that wait in pending slots (R35). -/
inductive SchedOp where
  | start | halt | clearLate
  deriving DecidableEq, Repr

/-- A pending slot: operation, group, target count N (R34, R35). -/
structure Slot where
  op : SchedOp
  group : Nat
  target : Nat
  deriving DecidableEq, Repr

/-- A calibration hold: strip, first tick in force, first tick after it (R37). -/
structure Hold where
  strip : Nat
  from_ : Nat
  until_ : Nat
  deriving DecidableEq, Repr

/-- The frame receiver (R29 to R31): the good frames of the last 128 ticks (first tick, COUNT), newest first, among which the
first of a pair is looked for; the pair a conflict holds back; in LOCKED, the first tick of the slot that a frame begun inside
a slot has reached into, and the bits it has brought there. -/
structure Sync where
  goods : List (Nat × Nat)
  conflict : Option (Nat × Nat)
  slot : Option (Nat × Nat)
  deriving DecidableEq, Repr

def Sync.reset : Sync := ⟨[], none, none⟩

/-- One rendezvous group in this part (R44 to R51) beside its registers. Masks of tillers are numbers, bit t for tiller t;
masks of parts have bit 8y + x for part (x, y). -/
structure Rdv where
  parked : Nat
  arrived : Nat
  withdrawn : Nat
  /-- arrival stamps by tiller (R44), and the last stamp of an arrival or a withdrawal (R45) -/
  stamps : Store Nat
  lastStamp : Option Nat
  firstSent : Bool
  completeSent : Bool
  /-- leader: parts complete, earliest FIRST stamp, latest COMPLETE stamp, release sent for this epoch -/
  complete : Nat
  tFirst : Option Nat
  tLast : Option Nat
  sent : Bool
  /-- release under way: count R, whether its reason is TIMEOUT, whether it reaches this part's members, whether it came late -/
  release : Option (Nat × Bool × Bool × Bool)
  deriving DecidableEq, Repr

def Rdv.reset : Rdv := ⟨0, 0, 0, [], none, false, false, 0, none, none, false, none⟩

/-- A message on the mesh (R45, R382). -/
inductive MeshMsg where
  | rdvReport (x y k epoch : Nat) (first complete : Bool) (arrivals stamp : Nat)
  | rdvRelease (x y k epoch : Nat) (timeout : Bool) (r : Nat)
  | memWr (x y vc addr : Nat) (data : List Nat) (poison : List (Nat × Nat)) (tag : Nat)
  | memAck (x y tag : Nat) (window : Bool)
  deriving DecidableEq, Repr

/-- What the part sends to the host (R415, R375, R376). -/
inductive HostMsg where
  | msix (vector : Nat) (addrLo addrHi data : Nat)
  | write (addr : Nat) (data : List Nat) (poison : Bool)
  deriving DecidableEq, Repr

/-! ### Calibration (chapter 11) -/

/-- A tiller's part in its strip's calibration run: steps done, the tick at which the step in progress ends, the last usable tick
of a declared prober gap (R338, R339). -/
structure CalTiller where
  done : Nat
  stepEnd : Option Nat
  prober : Nat
  proberFrom : Nat
  /-- this gap has been counted as used (R125) -/
  used : Bool
  /-- figures of the last level or timing step as measured: rms in 0.1 ps by 5·p + e (R344) -/
  rms : Store Nat
  deriving DecidableEq, Repr

def CalTiller.reset : CalTiller := ⟨0, none, 0, 0, false, []⟩

/-! ### Measurement (chapter 10) -/

/-- A conversion between its start and its result (R301): its instant, tags DLY, SETTLE and NOREF, and whether its input is the
grounded one of a PPMU that is off (R302). -/
structure Conv where
  at_ : Nat
  dly : Bool
  settle : Bool
  noref : Bool
  grounded : Bool
  deriving DecidableEq, Repr

/-- A burst with conversions to start or results to come (R305 to R316). -/
structure Burst where
  input : Nat
  range : Nat
  flen : Nat
  period : Nat
  count : Nat
  /-- trigger instant, conversions started, instant of the last start (edge steps) -/
  trigAt : Nat
  started : Nat
  lastAt : Nat
  convs : List Conv
  /-- results so far, those used, their sum, least and greatest -/
  total : Nat
  used : Nat
  sum : Int
  least : Int
  most : Int
  /-- buffer in DRAM (R315): base and length, words of the present line -/
  buffer : Option (Nat × Nat)
  line : List Nat
  /-- the last result word so far -/
  last : Option Nat
  aborted : Bool
  /-- INPUT or RANGE differ from the burst before: the first result refills the filter (R304) -/
  refill : Bool
  deriving DecidableEq, Repr

/-- The ADC of a tiller. -/
structure Adc where
  /-- MEAS triggers on their way: instant and count (R120) -/
  due : List (Nat × Nat)
  /-- bursts, oldest first: a held trigger begins its burst before the last results of the burst before it (R307) -/
  bursts : List Burst
  held : Option (Nat × Nat)
  /-- the last 256 raw conversions, newest first, and the input and range they are of (R304); settings of the previous burst -/
  raw : List Int
  rawOf : Option (Nat × Nat)
  prev : Option (Nat × Nat × Nat)
  /-- tick at which the reference buffer was last turned on by a write (R310) -/
  refAt : Option Nat
  /-- tick of the last slice exchange (R311) -/
  sliceAt : Option Nat
  deriving DecidableEq, Repr

def Adc.reset : Adc := ⟨[], [], none, [], none, none, none, none⟩

/-- The TDC of a tiller (R317 to R323). Instants are TDC LSBs of 3.90625 ps, two to an edge step. -/
structure Tdc where
  /-- TDCARM on its way: instant in edge steps and N (R121) -/
  arms : List (Nat × Nat)
  /-- taken at arming (R318): start and stop source bytes, pairs, hold-off, timeout -/
  start : Nat
  stop : Nat
  pairs : Nat
  holdoff : Nat
  tmo : Nat
  /-- arming instant; the start input is armed from `readyAt`; start of the pair in progress -/
  readyAt : Nat
  startAt : Nat
  ivls : List Nat
  order : Nat
  tight : Nat
  nostop : Nat
  ovf : Nat
  /-- event input latches, as masks, that have set since the start and since the stop source last took one (R317) -/
  startHeard : Nat
  stopHeard : Nat
  deriving DecidableEq, Repr

def Tdc.reset : Tdc := ⟨[], 0, 0, 0, 0, 0, 0, 0, [], 0, 0, 0, 0, 0, 0⟩

/-- A strip's sensors, rate of rise and calibration run (R328 to R343, R348 to R350). -/
structure Strip where
  /-- consecutive samples in which sensor k disagreed -/
  wrong : Store Nat
  /-- T of the last 101 samples, newest first -/
  temps : List Int
  /-- a reaction has been taken and is not yet allowed again; consecutive samples below WARN -/
  reacted : Bool
  below : Nat
  /-- the run: tick of its start, its band, ticks it was held -/
  runAt : Nat
  runBand : Nat
  heldTicks : Nat
  deriving DecidableEq, Repr

def Strip.reset : Strip := ⟨[], [], false, 0, 0, 0, 0⟩

/-- A thermal shutdown (R351, R352): tick, count, the two sensors, the rate of the first one's strip. -/
structure Trip where
  tick : Nat
  count : Nat
  sensor : Nat
  partner : Nat
  rate : Nat
  /-- its log entry is written -/
  logged : Bool
  deriving DecidableEq, Repr

/-- Wear figures of the life model (R358): stress of the worst pin in whole seconds, crowbars, hot switches, contact cycles, NVM
writes of the worst sector. -/
structure WearFig where
  stress : Nat
  crowbars : Nat
  hot : Nat
  contact : Nat
  sector : Nat
  deriving DecidableEq, Repr

/-- The thermal monitor and the life model of the part. -/
structure Monitor where
  /-- consecutive disagreeing samples of sensors 32 and 33 (R328); samples with exactly one sensor at 125 °C (R351) -/
  wrongN : Nat
  wrongS : Nat
  alone : Nat
  trip : Option Trip
  /-- figures at the last 1 024 contact cycles and at power-up, newest first (R358) -/
  life : List WearFig
  /-- tick of the last wear save; ticks of the next sample of the sensors (R327) and of the next periodic save (R357) -/
  savedAt : Nat
  sampleAt : Nat
  periodAt : Nat
  deriving DecidableEq, Repr

def Monitor.reset : Monitor := ⟨0, 0, 0, none, [⟨0, 0, 0, 0, 0⟩], 0, 0, 60000000000⟩

/-! ### Threshers and sheaves (chapter 08) -/

/-- A record or command in an input FIFO (R230, R235): its 128 bits, tiller, poison tag, whether it is a command. -/
structure InRec where
  data : Nat
  tiller : Nat
  poison : Bool
  cmd : Bool
  deriving DecidableEq, Repr

/-- A line buffer (R241, R242, R244): 64 bytes, poison tag, the line of a read under way, whether that read is an orphan, whether
its data came from a write still posted, and the number of its request. -/
structure LineBuf where
  data : Nat
  poison : Bool
  line : Option Nat
  orphan : Bool
  got : Bool
  at_ : Nat
  deriving DecidableEq, Repr

def LineBuf.reset : LineBuf := ⟨0, false, none, false, false, 0⟩

/-- What a thresher has posted and is not yet visible (R241 to R243, R262): a line write and a ring entry with the numbers of their
requests, the place of a ring entry that became visible before an older one, a notice behind them. -/
inductive Posted where
  | line (line data : Nat) (poison : Bool) (at_ : Nat)
  | ring (line data at_ : Nat)
  | seen
  | note (n0 n1 : Nat)
  deriving DecidableEq, Repr

/-- What the built-in routines keep in scratch for the open packet of one tiller (R250, R255, R259). -/
structure PktTotals where
  touched : List Nat
  flags : Nat
  dropped : Nat
  solutions : Nat
  applied : Nat
  poisoned : Nat
  chaffs : Nat
  crc : Nat
  deriving DecidableEq, Repr

def PktTotals.reset : PktTotals := ⟨[], 0, 0, 0, 0, 0, 0, 0xFFFFFFFF⟩

/-- A thresher beside its registers. 64-byte objects are held as 512-bit numbers, byte 0 lowest. -/
structure Thresher where
  fifo : List InRec
  g : Store Nat
  z : Bool
  n : Bool
  c : Bool
  scratch : Store Nat
  shadow : Nat
  /-- context index locked, and COND 0x08 -/
  lock : Option Nat
  fresh : Bool
  bufs : Store LineBuf
  ringBufs : Store Nat
  stack : List Nat
  upc : Nat
  /-- ring entries reserved, posting operations still allowed, microwords executed since the commit -/
  reserved : Nat
  allowed : Nat
  after : Nat
  cursor : Nat
  curw : Option Nat
  posted : List Posted
  /-- DRAM requests issued so far, which numbers them (R242) -/
  issued : Nat
  /-- next ring entry to post -/
  ringNext : Nat
  /-- held interrupts (R240): a stop, and tillers whose reset waits for END -/
  heldStop : Bool
  heldTillers : List Nat
  /-- the locked context is marked stale when it is released (R250) -/
  staleRel : Bool
  /-- built-in routines: packet totals by q, totals of a SOLVE, the line FAILMAP keeps in buffer 15, tick since which one waits for
  ring space -/
  totals : Store PktTotals
  solve : PktTotals
  mapLine : Option (Nat × Nat × Bool)
  waitFrom : Option Nat
  /-- a built-in routine is under way; tiller whose record is being processed -/
  hard : Bool
  cur : Nat
  /-- the model's own: the draws from which working state, and scratch, hold free values; 0 while they hold what was written -/
  wild : Nat
  wildScratch : Nat
  deriving DecidableEq, Repr

def Thresher.reset : Thresher :=
  { fifo := [], g := [], z := false, n := false, c := false, scratch := [], shadow := 0, lock := none, fresh := false, bufs := [], ringBufs := [], stack := [], upc := 0, reserved := 0, allowed := 0, after := 0, cursor := 0, curw := none, posted := [], issued := 0, ringNext := 0, heldStop := false, heldTillers := [], staleRel := false, totals := [], solve := PktTotals.reset, mapLine := none, waitFrom := none, hard := false, cur := 0, wild := 0, wildScratch := 0 }

/-- A sheaf's control store (R251 to R254) and crossbar (R230). -/
structure Sheaf where
  /-- words stored one by one, over the default image or over an unloaded store -/
  words : Store (Option Nat)
  builtin : Bool
  /-- entry values the boot service wrote with the default image, in the order of the registers -/
  entries : List Nat
  /-- `SH_UCS_DATA0` to `DATA7` as written -/
  data : Store Nat
  /-- sheaf-local tiller each of the two threshers was last served from -/
  served0 : Nat
  served1 : Nat
  deriving DecidableEq, Repr

def Sheaf.reset : Sheaf := ⟨[], false, [0, 0, 0, 0, 0], [], 3, 3⟩

/-- Routing of one tiller's records (R231): the thresher of the pair in force, a move that waits for a packet end, and the
entries in its FIFO that still go to earlier threshers, oldest first. -/
structure Route where
  force : Nat
  wait : Bool
  plan : List (Nat × Nat)
  deriving DecidableEq, Repr

/-- After reset tillers q2 and q3 of a sheaf are routed to its second thresher (R14, R230). -/
def Route.reset (t : Nat) : Route := ⟨t / 8 % 2, false, []⟩

/-! ### Links and memory (chapter 12) -/

/-- A host message queue (R378): whole notices, oldest first, and the second word of one half read. -/
structure Hmq where
  notices : List (Nat × Nat)
  half : Option Nat
  deriving DecidableEq, Repr

def Hmq.reset : Hmq := ⟨[], none⟩

/-- A descriptor a channel executes (R374), with the data the host supplies for H2D and the ranges of it, as offsets from and until, that
come in poisoned completions. -/
structure DmaDesc where
  src : Nat
  dst : Nat
  len : Nat
  ctrl : Nat
  utag : Nat
  data : List Nat
  ep : List (Nat × Nat)
  deriving DecidableEq, Repr

/-- A mesh message sent and not yet acknowledged (R382): tag, bytes, tick. -/
structure Unacked where
  tag : Nat
  bytes : Nat
  at_ : Nat
  deriving DecidableEq, Repr

/-- A DMA channel beside its registers (R373 to R377). -/
structure Dma where
  active : Option DmaDesc
  /-- D2R: bytes sent, messages not acknowledged, next tag -/
  sent : Nat
  unacked : List Unacked
  tag : Nat
  /-- a notice that waits for room (R377): its queue and its words -/
  note : Option (Nat × Nat × Nat)
  /-- poisoned data has been moved for the descriptor (R366) -/
  poison : Bool
  /-- tags of messages that ended transfers have left unacknowledged (R382) -/
  stale : List Nat
  deriving DecidableEq, Repr

def Dma.reset : Dma := ⟨none, 0, [], 0, none, false, []⟩

/-- The channel is free again; the tags of messages still unacknowledged stay taken (R382). -/
def Dma.again (x : Dma) : Dma := { Dma.reset with tag := x.tag, stale := x.stale ++ x.unacked.map (·.tag) }

/-- A flit waiting at an output port: its 512 bits and the input port whose buffer it holds, none for the part's own. -/
structure OutFlit where
  flit : Nat
  from_ : Option Nat
  deriving DecidableEq, Repr

/-- A Genhar port beside its registers (R379 to R389). -/
structure Port where
  out : List OutFlit
  /-- next SEQ to send, sent and unacknowledged flits with their SEQ, those to send again, replays without advance, tick from which
  the 1 µs without advance counts -/
  txSeq : Nat
  replay : List (Nat × Nat)
  again : List (Nat × Nat)
  tries : Nat
  ackAt : Nat
  /-- SEQ expected, flits accepted since the last acknowledgement and the tick of the first of them, whether any was ever accepted,
  whether a NAK is out -/
  rxSeq : Nat
  accepted : Nat
  acceptedAt : Nat
  any : Bool
  naked : Bool
  /-- credits to return by VC, tick at which the first became pending; VC2 was chosen last; input port served last, by VC -/
  owed : Store Nat
  owedAt : Nat
  lastBulk : Bool
  lastIn : Store Nat
  /-- lanes on which an ALIGN has come since training began, and those whose ALIGN is ready -/
  seen : Nat
  lanes : Nat
  deriving DecidableEq, Repr

def Port.reset : Port := ⟨[], 0, [], [], 0, 0, 0, 0, 0, false, false, [], 0, false, [], 0, 0⟩

/-- What the part sends on a Genhar port (R380, R381). An ALIGN block gives a lane, the sender's position, its port, and whether it is
ready; IDLE blocks are not recorded. -/
inductive LinkOut where
  | flit (p flit seq crc : Nat) (ackv : Bool) (ackseq : Nat)
  | nak (p seq : Nat)
  | credit (p c0 c1 c2 c3 : Nat) (ackv : Bool) (ackseq : Nat)
  | align (p lane x y port : Nat) (ready : Bool)
  deriving DecidableEq, Repr

/-- A MEM_WR message being received (R382), the port it came in by, the poison of each of its flits (R366). -/
structure Assembly where
  x : Nat
  y : Nat
  vc : Nat
  tag : Nat
  addr : Nat
  data : List Nat
  poison : List Bool
  from_ : Option Nat
  done : Bool
  deriving DecidableEq, Repr


/-! ### Supervisors, events, faults, management port, NVM, power (chapters 13 and 14) -/

/-- A router channel beside its registers (R406 to R411). Instants are in edge steps. -/
structure Chan where
  /-- 2.5 ns window of the last arrival accepted as an event -/
  window : Option Nat
  /-- accepted arrivals not yet delivered, oldest first -/
  flight : List Nat
  /-- end of the refractory time -/
  quietTo : Nat
  /-- arrivals by 1 µs slot, newest first -/
  arrivals : List (Nat × Nat)
  deriving DecidableEq, Repr

def Chan.reset : Chan := ⟨none, [], 0, []⟩

/-- A mailbox command being served (R401, R402): what the part itself settles of its answer. -/
structure SvCmd where
  code : Nat
  tag : Nat
  status : Option Nat
  value : Option Nat
  /-- the most the value can be (R402) -/
  limit : Option Nat
  deriving DecidableEq, Repr

/-- A supervisor beside its registers: tick of the last heartbeat, tick its firmware started, command in service, words of the
response queue. -/
structure Supervisor where
  hbAt : Nat
  started : Nat
  cmd : Option SvCmd
  mbx : List Nat
  deriving DecidableEq, Repr

def Supervisor.reset : Supervisor := ⟨0, 0, none, []⟩

/-- The fault collector beside its registers (R417 to R420). -/
structure Collector where
  snapshot : List Nat
  /-- blocks whose reset reaction waits for SAFE to complete, 256 more for a chip reset, and the tick of each (R418) -/
  waiting : List (Nat × Nat)
  /-- tick at which the first fault was latched -/
  firstAt : Nat
  /-- tick of the last kick, tick of ALIVE's next toggle, and its level -/
  kickAt : Nat
  toggleAt : Nat
  level : Bool
  deriving DecidableEq, Repr

def Collector.reset : Collector := ⟨[0, 0, 0, 0, 0, 0, 0, 0], [], 0, 0, 0, false⟩

/-- The NVM beside its registers (R429 to R431, R352, R357). -/
structure Nvm where
  /-- words stored, by byte address over 4; one not listed holds a free value of its row's last event -/
  words : Store (Option Word)
  events : Store Nat
  count : Nat
  /-- row buffer by word, operation in progress -/
  row : Store Word
  op : Option (Nat × Nat)
  /-- wear save in progress: counters as saved; next sector of the rotation; counters last saved; pending shutdown entry -/
  saving : Option (Store Nat)
  nextSave : Nat
  saved : Store Nat
  /-- shutdown log by entry, next entry, shutdowns over the life of the part -/
  log : Store Nat
  logNext : Nat
  logCount : Nat
  /-- operations that have changed duplicated records, the shutdown log or the wear saves; the number of the last one that changed copy
  A of the fields marked NVM (sectors 2 to 4) and copy B (5 to 7), 0 for none (R429); that of the copy loaded (R8, R430) -/
  image : Nat
  imageA : Nat
  imageB : Nat
  loaded : Nat
  /-- sector of the boot pointer copy in use since the last reset, none if both fail (R430, R449) -/
  pointer : Option Nat
  /-- sector that holds the valid wear save, 0 for none -/
  savedIn : Nat
  deriving DecidableEq, Repr

def Nvm.reset : Nvm := ⟨[], [], 0, [], none, none, 88, [], [], 0, 0, 0, 0, 0, 0, none, 0⟩

/-- A transaction driven to the boot flash (R427, R449): opcode, address and its bytes, dummy clocks, lanes of opcode, address and data as
coded in `MSP_M_CMD`, DIV, whether the data phase reads, its bytes, and the words written. -/
structure FlashOut where
  opcode : Nat
  addr : Nat
  abytes : Nat
  dummy : Nat
  cln : Nat
  aln : Nat
  dln : Nat
  div : Nat
  cpol : Bool
  rd : Bool
  len : Nat
  words : List Nat
  deriving DecidableEq, Repr

/-- The management port beside its registers: words of the master's data FIFO, bytes to receive, and of the transaction in progress
whether MSP_F_CS# is low and whether IO0 is looped back to IO1 (R427, R428); the model's own outputs: what has been driven to the
flash, oldest first, and the marker of the last slave read (R424). -/
structure Msp where
  fifo : List Nat
  reads : Option Nat
  selects : Bool
  loops : Bool
  flash : List FlashOut
  marker : Nat
  deriving DecidableEq, Repr

def Msp.reset : Msp := ⟨[], none, false, false, [], 0⟩

/-- Power and reset beside their registers (R387, R438 to R448). -/
structure Power where
  /-- straps -/
  cpos : Nat
  /-- what the present or last power-down leads to: `GL_PWR_STAT.STATE` at its end -/
  goal : Nat
  /-- tick of the last chip reset (R447), of the last power failure (R439), and of the next step of the sequence or reset in progress:
  a REG_EN that rises or falls, the end of the wait for a PG, the release of a chip reset (R438 to R440, R448) -/
  resetAt : Option Nat
  failAt : Option Nat
  dueAt : Nat
  /-- a wake request is held (R442); RST_N is low; REFCLK is lost (R26); the clock PLL has been started (R438 step 2) -/
  wake : Bool
  rstLow : Bool
  pllLost : Bool
  pll : Bool
  /-- both copies of the safe codes failed (R430) -/
  noSafe : Bool
  /-- a power-down to this state waits for a wear save (R440, R441) -/
  afterSave : Option Nat
  /-- the internal reset is released (R448); DRAM W and E are initialised (R368); VBULK is present -/
  released : Bool
  memW : Bool
  memE : Bool
  vbulk : Bool
  /-- the boot service has ended its reading of the flash since the last reset (R451) -/
  flashTried : Bool
  deriving DecidableEq, Repr

def Power.reset : Power := ⟨0, 0, none, none, 0, false, false, false, false, false, none, false, false, false, true, false⟩

/-- Errors the host port logs in AER (R366). -/
inductive AerError where
  | poisonedReceived
  | poisonedSent
  deriving DecidableEq, Repr

/-- Configuration space of the host port as far as R369 gives it: the identity, and the errors AER has logged, oldest first (R366). -/
structure HostConfig where
  vendor : Nat
  device : Nat
  revision : Nat
  classCode : Nat
  aer : List AerError
  deriving DecidableEq, Repr

/-- Its defaults (R369, R371). -/
def HostConfig.reset : HostConfig := ⟨0x4851, 0xA064, 0x20, 0x118000, []⟩

/-- The reset unit (R20): scope and index of the reset in progress and of the pending request; the tick at which the reset in
progress was requested, and whether a fault reaction requested it; the same of the pending one. -/
structure Resets where
  busy : Option (Nat × Nat)
  pend : Option (Nat × Nat)
  at_ : Nat
  byFault : Bool
  pendAt : Nat
  pendByFault : Bool
  deriving DecidableEq, Repr

def Resets.reset : Resets := ⟨none, none, 0, false, 0, false⟩


/-- The state of the part. -/
structure State where
  /-- commands waiting, first in first out -/
  pending : List Instr
  /-- the register space (R23, R24), by address; an unlisted address reads as its reset word -/
  regs : Store Word
  /-- device memory (R359) by address; an unlisted byte reads as 0 (R368, R453) -/
  mem : List Host.Cell
  /-- protected words (by first address) with an uncorrectable and with a single-bit error (R60, R245, R365) -/
  uncorr : List Nat
  single : List Nat
  /-- ticks of the always-on timer (R411), which counts from the first power-up on, and the rachis count register (R30) -/
  ticks : Nat
  count : BitVec 48
  sync : Sync
  slots : List Slot
  holds : List Hold
  /-- high-word latches by the address of the low register: value and tick of the read (R52) -/
  latches : Store (Option (Nat × Nat))
  rdvs : Store Rdv
  /-- a tiller's own epoch of a group, by 32·t + k (R49) -/
  epochs : Store Nat
  tillers : Store Tiller
  compares : Store Compare
  fifos : Store FailFifo
  captures : Store Capture
  levels : Store Levels
  streams : Store Stream
  pins : Store Pin
  /-- supplies by 2·t + h -/
  supplies : Store Supply
  /-- local sources on their way to event inputs: (tiller, input) (R127) -/
  wires : List (Nat × Nat)
  /-- pulses and firings on their way to router channels (R129, R131) -/
  firings : List Nat
  /-- raised error lines (R417) -/
  lines : List Nat
  /-- messages for the mesh and for the host, oldest first -/
  meshOut : List MeshMsg
  hostOut : List HostMsg
  /-- the value the last read command returned (the model's own output port), and its EP bit -/
  rdData : Nat
  rdPoison : Bool
  /-- the model's own counter of free values drawn -/
  draws : Nat
  /-- coefficient banks by 2048·r + 1024·bank + 16·i + word (R332) -/
  banks : Store Word
  /-- wear counters by their `GL_WEAR_IDX` number (R354) -/
  wear : Store Nat
  /-- tick of the last enable the sequencer of a strip admitted (R443) -/
  lastAdmit : Store (Option Nat)
  /-- calibration of each tiller -/
  cals : Store CalTiller
  adcs : Store Adc
  tdcs : Store Tdc
  /-- tick at which the last chip reset ended (R310) -/
  resetEnd : Nat
  strips : Store Strip
  monitor : Monitor
  threshers : Store Thresher
  sheaves : Store Sheaf
  /-- routing by tiller -/
  routes : Store Route
  hmqs : Store Hmq
  dmas : Store Dma
  /-- configuration space of the host port (R369) -/
  hostConfig : HostConfig
  ports : Store Port
  linkOut : List LinkOut
  /-- mesh messages received and not yet acted on; MEM_WR messages under assembly -/
  meshIn : List MeshMsg
  assembly : List Assembly
  chans : Store Chan
  svs : Store Supervisor
  collector : Collector
  nvm : Nvm
  msp : Msp
  power : Power
  resets : Resets
  deriving DecidableEq, Repr

/-- Why a step stops. -/
inductive Fault where
  /-- Raised by the commands that carry a list (sensor readings, bytes of a burst, of a BAR2 access, of a descriptor, words of a
  port transaction) when its length or a number in it is not one the part can meet: the command describes no step of the part.
  Every other fault of the manual is state (a FAULTED engine, an error line, a status bit), so this is the only one. The stop is
  safe: it removes behaviour and adds none. -/
  | malformed
  deriving DecidableEq, Repr

/-- Why a command is refused by the model. -/
inductive Refusal where
  /-- A command that has no meaning in the model, by its mnemonic. No command is refused. Such a stop would be
  safe. -/
  | notModelled (mnemonic : String)
  deriving DecidableEq, Repr

/-- The part right after the power-on reset of its always-on domain (chapter 14, R447, R452): power-up has begun and no rail is
up, `GL_RST_CAUSE` reads POR, no command waits, every register holds its Reset value, memory lists nothing. -/
def State.reset : State :=
  { pending := [], regs := [], mem := [], uncorr := [], single := [], ticks := 0, count := 0, sync := Sync.reset, slots := [], holds := [], latches := [], rdvs := [], epochs := [], tillers := [], compares := [], fifos := [], captures := [], levels := [], streams := [], pins := [], supplies := [], wires := [], firings := [], lines := [], meshOut := [], hostOut := [], rdData := 0, rdPoison := false, draws := 0, banks := [], wear := [], lastAdmit := [], cals := [], adcs := [], tdcs := [], resetEnd := 0, strips := [], monitor := Monitor.reset, threshers := [], sheaves := [], routes := [], hmqs := [], dmas := [], hostConfig := HostConfig.reset, ports := [], linkOut := [], meshIn := [], assembly := [], chans := [], svs := [], collector := Collector.reset, nvm := Nvm.reset, msp := Msp.reset, power := Power.reset, resets := Resets.reset }

end Sys2Proof.Machine
end

