-- ==== Sys2Proof/Machine/Ops.lean ====
section
/-! DEFINITION. Named operations on the state: registers and fields, units, time, device memory, interrupt sources, error
lines, event wires. -/

namespace Sys2Proof.Machine

/-! ### Numbers and fields -/

/-- Bits `[hi:lo]` of a number. -/
def bits (n hi lo : Nat) : Nat := n >>> lo % 2 ^ (hi + 1 - lo)

/-- `n` with bits `[hi:lo]` replaced by `v`, in a 32-bit word. -/
def insert32 (n hi lo v : Nat) : Nat :=
  (n &&& (0xFFFFFFFF ^^^ ((2 ^ (hi + 1 - lo) - 1) <<< lo))) ||| ((v % 2 ^ (hi + 1 - lo)) <<< lo)

/-- 1 for true. -/
def b2n (b : Bool) : Nat := if b then 1 else 0

/-- The value of an n-bit number read as two's complement. -/
def signed (n w : Nat) : Int := if w % 2 ^ n < 2 ^ (n - 1) then Int.ofNat (w % 2 ^ n) else Int.ofNat (w % 2 ^ n) - Int.ofNat (2 ^ n)

/-- A number reduced to n bits, two's complement. -/
def unsigned (n : Nat) (i : Int) : Nat := (i % Int.ofNat (2 ^ n)).toNat

/-- Number of ones among the low n bits. -/
def popCount : Nat → Nat → Nat
  | 0, _ => 0
  | n + 1, w => (if w.testBit n then 1 else 0) + popCount n w

/-- Parity of the low n bits. -/
def parity (n w : Nat) : Bool := popCount n w % 2 = 1

/-- Least i below n with bit i of w set; n if none. -/
def lowestBit (n w : Nat) : Nat := ((List.range n).find? (fun i => w.testBit i)).getD n

/-- Signed 48-bit distance from b to a is not negative: a is at or after b, wrap-aware (R35). -/
def notBefore48 (a b : Nat) : Bool := (a + 2 ^ 48 - b % 2 ^ 48) % 2 ^ 48 < 2 ^ 47

/-! ### Registers -/

/-- Fields of supervisor d's state and heartbeat registers: 0 SVN, 1 SVS. -/
def svState (d : Nat) : Field := ⟨SV_STAT_N + 4 * d, 1, 0⟩
def svDoms (d : Nat) : Field := ⟨SV_STAT_N + 4 * d, 3, 2⟩
def svVersion (d : Nat) : Field := ⟨SV_STAT_N + 4 * d, 23, 16⟩
def svDomRej (d : Nat) : Field := ⟨SV_STAT_N + 4 * d, 31, 31⟩
def svSilent (d : Nat) : Field := ⟨SV_HB_N + 4 * d, 31, 31⟩

namespace State

/-- The register at an address. -/
def reg (s : State) (a : Nat) : Word := storeGet resetWord s.regs a

/-- Set the register at an address. -/
def setReg (s : State) (a : Nat) (v : Word) : State := { s with regs := storeSet resetWord s.regs a v }

/-- The value of a field. -/
def get (s : State) (f : Field) : Nat := bits (s.reg f.addr).toNat f.hi f.lo

/-- Set a field; the other fields of the register keep their values. -/
def put (s : State) (f : Field) (v : Nat) : State :=
  s.setReg f.addr (BitVec.ofNat 32 (insert32 (s.reg f.addr).toNat f.hi f.lo v))

/-- A one-bit field is 1. -/
def on (s : State) (f : Field) : Bool := s.get f != 0

/-- Set a one-bit field to 1. -/
def mark (s : State) (f : Field) : State := s.put f 1

/-- Count up, saturating at the field's largest value. -/
def bumpBy (s : State) (f : Field) (n : Nat) : State := s.put f (min (s.get f + n) (2 ^ (f.hi + 1 - f.lo) - 1))

def bump (s : State) (f : Field) : State := s.bumpBy f 1

/-- Count up, wrapping. -/
def wrapUp (s : State) (f : Field) : State := s.put f (s.get f + 1)

/-- Bit i of a field. -/
def fbit (s : State) (f : Field) (i : Nat) : Bool := (s.get f).testBit i

/-- Set or clear bit i of a field. -/
def putBit (s : State) (f : Field) (i : Nat) (b : Bool) : State :=
  s.put f (if b then s.get f ||| 2 ^ i else if (s.get f).testBit i then s.get f ^^^ 2 ^ i else s.get f)

/-- Write a 48-bit number to a pair of registers. -/
def put48 (s : State) (lo hi : Nat) (v : Nat) : State :=
  (s.setReg lo (BitVec.ofNat 32 v)).setReg hi (BitVec.ofNat 32 (v / 2 ^ 32 % 2 ^ 16))

/-- The reset word of a register with its NVM fields as last loaded (R8, R184, R296): those of the part's own record, or of the records
programmed since (log entry 5). -/
def safeWord (s : State) (a : Nat) : Word :=
  if s.nvm.loaded = 0 then resetWord a
  else (resetWord a &&& ~~~(BitVec.ofNat 32 (nvmMask a))) ||| (Config.nvmField s.nvm.loaded a &&& BitVec.ofNat 32 (nvmMask a))

/-- Registers take their reset words with the NVM fields as last loaded. -/
def loadSafe (s : State) (l : List Nat) : State := if s.nvm.loaded = 0 then s else l.foldl (fun s a => s.setReg a (s.safeWord a)) s

/-- Forget the registers an address predicate selects: they read their reset words again (R8). -/
def clearRegs (s : State) (p : Nat → Bool) : State := { s with regs := storeKeep (fun a => !p a) s.regs }

/-! ### Units -/

def tl (s : State) (t : Nat) : Tiller := storeGet (fun _ => Tiller.reset) s.tillers t
def setTl (s : State) (t : Nat) (x : Tiller) : State := { s with tillers := storeSet (fun _ => Tiller.reset) s.tillers t x }
def modTl (s : State) (t : Nat) (f : Tiller → Tiller) : State := s.setTl t (f (s.tl t))

def cmp (s : State) (t : Nat) : Compare := storeGet (fun _ => Compare.reset) s.compares t
def setCmp (s : State) (t : Nat) (x : Compare) : State := { s with compares := storeSet (fun _ => Compare.reset) s.compares t x }

def fq (s : State) (t : Nat) : FailFifo := storeGet (fun _ => FailFifo.reset) s.fifos t
def setFq (s : State) (t : Nat) (x : FailFifo) : State := { s with fifos := storeSet (fun _ => FailFifo.reset) s.fifos t x }

def cap (s : State) (t : Nat) : Capture := storeGet (fun _ => Capture.reset) s.captures t
def setCap (s : State) (t : Nat) (x : Capture) : State := { s with captures := storeSet (fun _ => Capture.reset) s.captures t x }

def lvl (s : State) (t : Nat) : Levels := storeGet (fun _ => Levels.reset) s.levels t
def setLvl (s : State) (t : Nat) (x : Levels) : State := { s with levels := storeSet (fun _ => Levels.reset) s.levels t x }

def strm (s : State) (t : Nat) : Stream := storeGet (fun _ => Stream.reset) s.streams t
def setStrm (s : State) (t : Nat) (x : Stream) : State := { s with streams := storeSet (fun _ => Stream.reset) s.streams t x }

def pin (s : State) (g : Nat) : Pin := storeGet (fun _ => Pin.reset) s.pins g
def setPin (s : State) (g : Nat) (x : Pin) : State := { s with pins := storeSet (fun _ => Pin.reset) s.pins g x }

def sup (s : State) (t h : Nat) : Supply := storeGet (fun _ => Supply.reset) s.supplies (2 * t + h)
def setSup (s : State) (t h : Nat) (x : Supply) : State := { s with supplies := storeSet (fun _ => Supply.reset) s.supplies (2 * t + h) x }

def rdv (s : State) (k : Nat) : Rdv := storeGet (fun _ => Rdv.reset) s.rdvs k
def setRdv (s : State) (k : Nat) (x : Rdv) : State := { s with rdvs := storeSet (fun _ => Rdv.reset) s.rdvs k x }

def calTl (s : State) (t : Nat) : CalTiller := storeGet (fun _ => CalTiller.reset) s.cals t
def setCalTl (s : State) (t : Nat) (x : CalTiller) : State := { s with cals := storeSet (fun _ => CalTiller.reset) s.cals t x }

def adc (s : State) (t : Nat) : Adc := storeGet (fun _ => Adc.reset) s.adcs t
def setAdc (s : State) (t : Nat) (x : Adc) : State := { s with adcs := storeSet (fun _ => Adc.reset) s.adcs t x }

def tdc (s : State) (t : Nat) : Tdc := storeGet (fun _ => Tdc.reset) s.tdcs t
def setTdc (s : State) (t : Nat) (x : Tdc) : State := { s with tdcs := storeSet (fun _ => Tdc.reset) s.tdcs t x }

def strip (s : State) (r : Nat) : Strip := storeGet (fun _ => Strip.reset) s.strips r
def setStrip (s : State) (r : Nat) (x : Strip) : State := { s with strips := storeSet (fun _ => Strip.reset) s.strips r x }

def thr (s : State) (i : Nat) : Thresher := storeGet (fun _ => Thresher.reset) s.threshers i
def setThr (s : State) (i : Nat) (x : Thresher) : State := { s with threshers := storeSet (fun _ => Thresher.reset) s.threshers i x }

def sheaf (s : State) (u : Nat) : Sheaf := storeGet (fun _ => Sheaf.reset) s.sheaves u
def setSheaf (s : State) (u : Nat) (x : Sheaf) : State := { s with sheaves := storeSet (fun _ => Sheaf.reset) s.sheaves u x }

def route (s : State) (t : Nat) : Route := storeGet Route.reset s.routes t
def setRoute (s : State) (t : Nat) (x : Route) : State := { s with routes := storeSet Route.reset s.routes t x }

def hmq (s : State) (q : Nat) : Hmq := storeGet (fun _ => Hmq.reset) s.hmqs q
def setHmq (s : State) (q : Nat) (x : Hmq) : State := { s with hmqs := storeSet (fun _ => Hmq.reset) s.hmqs q x }

def dma (s : State) (c : Nat) : Dma := storeGet (fun _ => Dma.reset) s.dmas c
def setDma (s : State) (c : Nat) (x : Dma) : State := { s with dmas := storeSet (fun _ => Dma.reset) s.dmas c x }

def port (s : State) (p : Nat) : Port := storeGet (fun _ => Port.reset) s.ports p
def setPort (s : State) (p : Nat) (x : Port) : State := { s with ports := storeSet (fun _ => Port.reset) s.ports p x }

def chan (s : State) (e : Nat) : Chan := storeGet (fun _ => Chan.reset) s.chans e
def setChan (s : State) (e : Nat) (x : Chan) : State := { s with chans := storeSet (fun _ => Chan.reset) s.chans e x }

def sv (s : State) (d : Nat) : Supervisor := storeGet (fun _ => Supervisor.reset) s.svs d
def setSv (s : State) (d : Nat) (x : Supervisor) : State := { s with svs := storeSet (fun _ => Supervisor.reset) s.svs d x }

/-! ### Time -/

/-- Bring the clock to a tick that is not yet reached; time never goes back. The count follows (R30), while REFCLK is there (R26). -/
def advTo (s : State) (tick : Nat) : State :=
  if s.ticks < tick then { s with ticks := tick, count := if s.power.pllLost then s.count else s.count + BitVec.ofNat 48 (tick - s.ticks) } else s

/-- Bring the clock to the tick of an instant in edge steps. -/
def advInst (s : State) (inst : Nat) : State := s.advTo (inst / 1280)

/-- The present instant in edge steps: the start of the present tick. -/
def now (s : State) : Nat := s.ticks * 1280

/-- The count at a tick. -/
def countAt (s : State) (tick : Nat) : Nat := (s.count.toNat + 2 ^ 48 + tick - s.ticks % 2 ^ 48) % 2 ^ 48

/-- The schedule view S: the count register less 64 (R38). -/
def view (s : State) : Nat := (s.count.toNat + 2 ^ 48 - 64) % 2 ^ 48

/-- The tick at which the count register reads n next, or the present tick if it is past (R38). -/
def tickOfCount (s : State) (n : Nat) : Nat :=
  s.ticks + (if notBefore48 n s.count.toNat then (n + 2 ^ 48 - s.count.toNat) % 2 ^ 48 else 0)

/-- No rule of the time base applies while REFCLK is absent (R26): what one of them would do, `t`, does not come about. -/
def clocked (s t : State) : State := if s.power.pllLost then s else t

/-! ### Device memory (R359) -/

def byteAt (s : State) (a : Nat) : Byte := storeGet (fun _ => 0) s.mem a

def setByte (s : State) (a : Nat) (v : Byte) : State := { s with mem := storeSet (fun _ => 0) s.mem a v }

/-- n bytes at an address as a little-endian number (R3). -/
def loadLE (s : State) (a : Nat) : Nat → Nat
  | 0 => 0
  | n + 1 => (s.byteAt a).toNat + 256 * loadLE s (a + 1) n

/-- Store bytes at consecutive addresses. -/
def storeBytes (s : State) (a : Nat) : List Nat → State
  | [] => s
  | b :: r => (s.setByte a (BitVec.ofNat 8 b)).storeBytes (a + 1) r

end State

/-- The n little-endian bytes of a number (R3). -/
def bytesLE : Nat → Nat → List Nat
  | 0, _ => []
  | n + 1, v => v % 256 :: bytesLE n (v / 256)

/-- The number the little-endian bytes spell. -/
def ofBytesLE : List Nat → Nat
  | [] => 0
  | b :: r => b + 256 * ofBytesLE r

/-- First device address of tiller t's vector SRAM and of sheaf s's context slice (R359). -/
def vsramBase (t : Nat) : Nat := 0x400000000 + 0x40000 * t
def ctxBase (s : Nat) : Nat := 0x401000000 + 0x40000 * s

namespace State

/-! ### Interrupt sources and vectors (R412 to R415) -/

/-- A source is pending; an enabled pending word. -/
def enabled (s : State) (i : Nat) : Nat := (s.reg (EV_PEND i)).toNat &&& (s.reg (EV_ENA i)).toNat

/-- Some enabled source among the n numbered from b is pending; n at most 32, none crosses a word (R414). -/
def anySource (s : State) (b n : Nat) : Bool := (List.range n).any (fun i => (s.enabled ((b + i) / 32)).testBit ((b + i) % 32))

/-- The sources of groups 24 to 34: first source and number (R412, R414). -/
def globalGroup (g : Nat) : Nat × Nat :=
  match g with
  | 24 => (1240, 8) | 25 => (1248, 32) | 26 => (1280, 4) | 27 => (1284, 4) | 28 => (1288, 4) | 29 => (1292, 4)
  | 30 => (1296, 2) | 31 => (1298, 4) | 32 => (1302, 8) | 33 => (1310, 8) | _ => (1318, 2)

/-- Summary of group g (R414). -/
def groupSum (s : State) (g : Nat) : Bool :=
  if g < 8 then (List.range 4).any (fun i => s.enabled (4 * g + i) != 0) || s.anySource (1152 + 11 * g) 11
  else if g < 24 then s.anySource (1024 + 8 * (g - 8)) 8
  else s.anySource (globalGroup g).1 (globalGroup g).2

/-- The vectors whose summary is 1, as a mask (R414). -/
def vectorMask (s : State) : Nat :=
  (List.range 35).foldl (fun m g => if s.groupSum g then m ||| 2 ^ s.get (EV_VMAP_VEC (g / 4) (g % 4)) else m) 0

/-- Word w of MSI-X table entry v, and word w of the pending bit array (R372). -/
def msixWord (v w : Nat) : Nat := 0x81000 + 16 * v + 4 * w
def msixPending (w : Nat) : Nat := 0x81800 + 4 * w

/-- Send vector v's message: nothing while the link is down (R415); a masked entry's message stays pending (R372). -/
def sendVector (s : State) (v : Nat) : State :=
  if !s.on LK_PCIE_STAT_UP then s
  else if (s.reg (msixWord v 3)).toNat % 2 = 1 then
    s.setReg (msixPending (v / 32)) (s.reg (msixPending (v / 32)) ||| BitVec.ofNat 32 (2 ^ (v % 32)))
  else { s with hostOut := s.hostOut ++ [.msix v (s.reg (msixWord v 0)).toNat (s.reg (msixWord v 1)).toNat (s.reg (msixWord v 2)).toNat] }

/-- Send the messages of the vectors in a mask, lowest first. -/
def sendVectors (s : State) (m : Nat) : State :=
  (List.range 64).foldl (fun s v => if m.testBit v then s.sendVector v else s) s

/-- Send a message for every vector whose summary rose from `before` to the present state (R415). -/
def vectorsRisen (before : Nat) (s : State) : State :=
  if s.vectorMask &&& (before ^^^ (s.vectorMask ||| before)) = 0 then s
  else s.sendVectors (s.vectorMask &&& (before ^^^ (s.vectorMask ||| before)))

/-- An interrupt source's event: its pending latch sets (R413) and a risen vector sends its message (R415). -/
def source (s : State) (n : Nat) : State :=
  (s.putBit (EV_PEND_PEND (n / 32)) (n % 32) true).vectorsRisen s.vectorMask

/-- Source k of tiller t, and event k of strip r (R412). -/
def tlSource (s : State) (t k : Nat) : State := s.source (16 * t + k)
def stSource (s : State) (r k : Nat) : State := s.source (1152 + 11 * r + k)

/-- A block raises or drops its error line (R417). -/
def raiseLine (s : State) (b : Nat) : State := if s.lines.contains b then s else { s with lines := s.lines ++ [b] }
def dropLine (s : State) (b : Nat) : State := { s with lines := s.lines.filter (· != b) }

/-! ### Event wires (R127, R129) -/

/-- A local source of tiller t fires: it is on its way to every input among 0 to 5 that selects its code (R127). -/
def localSource (s : State) (t code : Nat) : State :=
  { s with wires := s.wires ++ (((List.range 6).filter (fun j => s.get (TL_EVIN_SEL_SRC t j) == code)).map (fun j => (t, j))) }

/-- A pulse or firing on its way to router channel k (R129, R131, R408). -/
def fireChannel (s : State) (k : Nat) : State := { s with firings := s.firings ++ [k] }

/-- Draw a fresh free value: the counter advances. -/
def draw (s : State) : State := { s with draws := s.draws + 1 }

end State

/-! ### The grid (R12, R13) -/

/-- Row, column, sheaf, half of tiller t; the four tillers of sheaf s in the order of their number within it. -/
def rowOf (t : Nat) : Nat := t / 8
def colOf (t : Nat) : Nat := t % 8
def sheafOf (t : Nat) : Nat := 4 * (rowOf t / 2) + colOf t / 2
def halfOf (t : Nat) : Nat := colOf t / 4
def sheafTillers (s : Nat) : List Nat :=
  [16 * (s / 4) + 2 * (s % 4), 16 * (s / 4) + 2 * (s % 4) + 1, 16 * (s / 4) + 2 * (s % 4) + 8, 16 * (s / 4) + 2 * (s % 4) + 9]
/-- Number 0 to 3 of tiller t within its sheaf. -/
def inSheaf (t : Nat) : Nat := 2 * (rowOf t % 2) + colOf t % 2
def stripTillers (r : Nat) : List Nat := (List.range 8).map (fun c => 8 * r + c)
def tillerPins (t : Nat) : List Nat := (List.range 8).map (fun p => 8 * t + p)
def allTillers : List Nat := List.range 64
/-- Home base of sheaf s in DRAM (R15). -/
def homeBase (s : Nat) : Nat := (s % 4 / 2) * 0x200000000 + (2 * (s / 4) + s % 2) * 0x40000000
/-- The sheaf whose pseudo-channel group serves DRAM address a (R15, R361). -/
def groupOf (a : Nat) : Nat := 4 * (a / 0x40000000 % 8 / 2) + 2 * (a / 0x200000000 % 2) + a / 0x40000000 % 2

end Sys2Proof.Machine
end

