-- ==== Sys2Proof/Machine/Rdv.lean ====
section
/-! DEFINITION. Rendezvous inside the part (02_rachis_count.md, "Rendezvous"): arrivals, withdrawals, reports, the leader. -/

namespace Sys2Proof.Machine

/-- 128 · ⌈n / 128⌉ modulo 2^48 (R46). -/
def ceil128 (n : Nat) : Nat := (n + 127) / 128 * 128 % 2 ^ 48

namespace State

/-- Local members, participating parts, this part's position and mask bit, the leader's position (R44, R387). -/
def rdvMask (s : State) (k : Nat) : Nat := (s.reg (GL_RDV_MASK_LO k)).toNat + (s.reg (GL_RDV_MASK_HI k)).toNat * 2 ^ 32
def rdvParts (s : State) (k : Nat) : Nat := (s.reg (GL_RDV_PARTS_LO k)).toNat + (s.reg (GL_RDV_PARTS_HI k)).toNat * 2 ^ 32
def here (s : State) : Nat := 8 * s.get LK_MESH_POS_Y + s.get LK_MESH_POS_X
def rdvLeader (s : State) (k : Nat) : Nat := 8 * s.get (GL_RDV_CFG_LEAD_Y k) + s.get (GL_RDV_CFG_LEAD_X k)

/-- A tiller's own epoch of a group (R49). -/
def ownEpoch (s : State) (t k : Nat) : Nat := storeGet (fun _ => 0) s.epochs (32 * t + k)
def setOwnEpoch (s : State) (t k e : Nat) : State := { s with epochs := storeSet (fun _ => 0) s.epochs (32 * t + k) (e % 256) }

/-- A start or a reset sets the member's own epochs to the groups' current ones (R49). -/
def joinEpochs (s : State) (t : Nat) : State :=
  (List.range 32).foldl (fun s k => s.setOwnEpoch t k (s.get (GL_RDV_STAT_EPOCH k))) s

/-- A release reaches this part: the group is RELEASING and its release waits for count R (R46); after tick R + 64 it comes late,
and is due at once (R49). -/
def takeRelease (s : State) (k r : Nat) (timeout reaches : Bool) : State :=
  let late := notBefore48 s.view r && s.view ≠ r
  (s.setRdv k { s.rdv k with release := some (r, timeout, reaches, late) }).put (GL_RDV_STAT_STATE k) 2

/-- The leader sends RDV_RELEASE to every part of the mask; an R more than 2^47 behind is replaced (R46, R47). DEDUCED: an R
over 383 ticks ahead of the leader's count is such an R. -/
def sendRelease (s : State) (k r0 : Nat) (timeout : Bool) : State :=
  let c := s.count.toNat
  let ahead := (r0 + 2 ^ 48 - c) % 2 ^ 48
  let r := if 383 < ahead ∧ ahead < 2 ^ 47 then ceil128 (c + 256) else r0
  let e := s.get (GL_RDV_STAT_EPOCH k)
  let others := (List.range 48).filter (fun b => (s.rdvParts k).testBit b && b != s.here)
  let s1 := s.setRdv k { s.rdv k with sent := true }
  let s2 := { s1 with meshOut := s1.meshOut ++ others.map (fun b => MeshMsg.rdvRelease (b % 8) (b / 8) k e timeout r) }
  s2.takeRelease k r timeout ((s.rdvParts k).testBit s.here)

/-- The later of a stamp and a list's stamp, wrap-aware. -/
def laterOf (a : Option Nat) (b : Nat) : Option Nat :=
  match a with
  | none => some b
  | some x => if notBefore48 b x then some b else some x

/-- An epoch is in use: a member of this part has arrived, or a report of another has come (R45). -/
def epochOpen (s : State) (k : Nat) : Bool := s.get (GL_RDV_STAT_STATE k) ≠ 0

/-- The epoch comes into use in this part (R45). DEDUCED from the bank-retry example: the members whose withdrawals were held until
now are marked ABSENT in the results they have left (R47, R124, log entry 18). -/
def openEpoch (s : State) (k : Nat) : State :=
  if s.epochOpen k then s
  else (allTillers.filter (fun t => (s.rdv k).withdrawn.testBit t)).foldl
    (fun s t => if s.on (TL_RESULT_VALID t) then s.mark (TL_RESULT_ABSENT t) else s) (s.put (GL_RDV_STAT_STATE k) 1)

/-- Every local member has arrived or withdrawn (R45). -/
def partDone (s : State) (k : Nat) : Bool :=
  (s.rdvMask k &&& ((s.rdv k).arrived ||| (s.rdv k).withdrawn)) == s.rdvMask k && s.rdvMask k ≠ 0

/-- The leader takes a report (R45 to R51): STRAY when the configuration check fails, discarded with the wrong epoch; a report that
opens the epoch lets the leader's own part report the withdrawals it has held; the last part complete sends the release. -/
def leadReport (s : State) (k x y epoch : Nat) (first complete : Bool) (stamp : Nat) : State :=
  let b := 8 * y + x
  if !(s.on (GL_RDV_CFG_EN k)) || s.rdvLeader k != s.here || x ≥ 8 || y ≥ 6 || !(s.rdvParts k).testBit b then
    s.mark (GL_RDV_STAT_STRAY k)
  else if epoch ≠ s.get (GL_RDV_STAT_EPOCH k) || (s.rdv k).sent then s
  else
    let g := s.rdv k
    let tf := if first then (match g.tFirst with | none => some stamp | some f => if notBefore48 stamp f then some f else some stamp) else g.tFirst
    let g1 := { g with tFirst := tf, complete := if complete then g.complete ||| 2 ^ b else g.complete, tLast := if complete then laterOf g.tLast stamp else g.tLast }
    let own := !s.epochOpen k && s.partDone k && !g.completeSent && (s.rdvParts k).testBit s.here
    let g2 := if own then { g1 with completeSent := true, complete := g1.complete ||| 2 ^ s.here, tLast := laterOf g1.tLast (g.lastStamp.getD stamp) } else g1
    let s1 := s.setRdv k g2
    let s2 := s1.openEpoch k
    if (complete || own) && (g2.complete &&& s.rdvParts k) == s.rdvParts k then s2.sendRelease k (ceil128 (g2.tLast.getD stamp + 256)) false
    else s2

/-- A part's report (R45): to itself at once when it leads the group (R44), otherwise over the mesh; FIRST and COMPLETE of one
tick share one message. -/
def report (s : State) (k : Nat) (first complete : Bool) (stamp : Nat) : State :=
  let e := s.get (GL_RDV_STAT_EPOCH k)
  let l := s.rdvLeader k
  if l = s.here then s.leadReport k (l % 8) (l / 8) e first complete stamp
  else
    let n := s.get (GL_RDV_STAT_ARRIVED k)
    let old : MeshMsg := .rdvReport (l % 8) (l / 8) k e true false 1 stamp
    if complete && !first && s.meshOut.contains old then
      { s with meshOut := s.meshOut.map (fun m => if m = old then MeshMsg.rdvReport (l % 8) (l / 8) k e true true n stamp else m) }
    else { s with meshOut := s.meshOut ++ [MeshMsg.rdvReport (l % 8) (l / 8) k e first complete n stamp] }

/-- Every local member has arrived or withdrawn: COMPLETE is reported once (R45), with the last stamp of either; a first arrival has
the stamp given. The epoch is in use from then on. DEDUCED from the bank-retry example: the leader's own part holds its report while nobody has opened the epoch. -/
def reportDone (s : State) (k : Nat) (first : Bool) (stamp : Nat) : State :=
  let g := s.rdv k
  let done := s.partDone k && !g.completeSent && (s.epochOpen k || s.rdvLeader k ≠ s.here)
  let s1 := s.setRdv k { g with firstSent := g.firstSent || first, completeSent := g.completeSent || done }
  if first || done then
    (s1.openEpoch k).report k first done (if done then g.lastStamp.getD stamp else stamp)
  else s1

/-- A member arrives and parks (R44, R45). -/
def arrive (s : State) (t k stamp : Nat) : State :=
  let g := s.rdv k
  let s1 := s.setRdv k { g with parked := g.parked ||| 2 ^ t, arrived := g.arrived ||| 2 ^ t, withdrawn := if g.withdrawn.testBit t then g.withdrawn ^^^ 2 ^ t else g.withdrawn, stamps := storeSet (fun _ => 0) g.stamps t stamp, lastStamp := laterOf g.lastStamp stamp }
  let s2 := s1.put (GL_RDV_STAT_ARRIVED k) (min 64 (s.get (GL_RDV_STAT_ARRIVED k) + 1))
  (s2.openEpoch k).reportDone k (!g.firstSent) stamp

/-- A member halts, faults or is reset while it is parked or before it arrives (R47): withdrawn for the epoch, with its stamp.
DEDUCED from the bank-retry example: in the leader's own part, while nobody has opened the epoch, the withdrawal marks nothing; its
mark is set when the epoch opens, unless a start has ended the withdrawal (log entry 18). Tells whether the member's result carries ABSENT. -/
def withdrawOne (s : State) (t k stamp : Nat) : State × Bool :=
  let g := s.rdv k
  if !(s.on (GL_RDV_CFG_EN k)) || !(s.rdvMask k).testBit t || (g.arrived.testBit t && !g.parked.testBit t) then (s, false)
  else
    let g1 := { g with parked := if g.parked.testBit t then g.parked ^^^ 2 ^ t else g.parked, arrived := if g.arrived.testBit t then g.arrived ^^^ 2 ^ t else g.arrived, withdrawn := g.withdrawn ||| 2 ^ t, lastStamp := laterOf g.lastStamp stamp }
    ((s.setRdv k g1).reportDone k false stamp, s.epochOpen k || s.rdvLeader k ≠ s.here)

/-- Withdrawal from every group of which the tiller is a member (R47). -/
def withdraw (s : State) (t stamp : Nat) : State × Bool :=
  (List.range 32).foldl (fun a k => let r := a.1.withdrawOne t k stamp; (r.1, a.2 || r.2)) (s, false)

/-- A start ends the withdrawals held for epochs nobody has opened, and joins the groups' current epochs (R47, R49). -/
def rejoin (s : State) (t : Nat) : State :=
  (List.range 32).foldl (fun s k => let g := s.rdv k
    if s.get (GL_RDV_STAT_STATE k) = 0 && g.withdrawn.testBit t then s.setRdv k { g with withdrawn := g.withdrawn ^^^ 2 ^ t } else s) (s.joinEpochs t)

/-- The epoch advances in this part (R45): the group is IDLE again, arrivals are forgotten. -/
def advanceEpoch (s : State) (k : Nat) : State :=
  (((s.setRdv k Rdv.reset).wrapUp (GL_RDV_STAT_EPOCH k)).put (GL_RDV_STAT_STATE k) 0).put (GL_RDV_STAT_ARRIVED k) 0

/-- LATE of tiller t (R40); `TL_FLAGS.LATE` mirrors it. -/
def lateBit (t : Nat) : Field := if t < 32 then ⟨GL_LATE_LO, t, t⟩ else ⟨GL_LATE_HI, t - 32, t - 32⟩

/-- Start group of a tiller (R33). -/
def startGroup (s : State) (t : Nat) : Nat := s.get (GL_TL_GROUP_GRP (t / 8) (t % 8))
/-- The tillers a command to a group names. -/
def groupTillers (s : State) (g : Nat) : List Nat := allTillers.filter (fun t => g = 15 || s.startGroup t = g)
/-- The start arm bit of a tiller (R34). -/
def armBit (t : Nat) : Field := if t < 32 then ⟨GL_START_ARM_LO, t, t⟩ else ⟨GL_START_ARM_HI, t - 32, t - 32⟩

/-- The part is in LOST or LOCAL (R32). -/
def unsynced (s : State) : Bool := 2 ≤ s.get GL_SYNC_STAT_STATE

end State

end Sys2Proof.Machine
end

