-- ==== Sys2Proof/Machine/Hmq.lean ====
section
/-! DEFINITION. Host message queues (12_links_and_memory.md, R378) and the routing of fail records (08_threshers.md, R231). -/

namespace Sys2Proof.Machine

/-- An empty message queue reads this word (R229). -/
def notValid : Nat := 0x80000000

namespace State

/-- Notices held (R378): the slot of one of which N0 alone has been read is free once N1 has been read. -/
def hmqCount (s : State) (q : Nat) : Nat := (s.hmq q).notices.length + b2n (s.hmq q).half.isSome

/-- The queue's source is raised while its count is at its threshold (R378). -/
def hmqLevel (s : State) (q : Nat) : State :=
  if s.get (LK_HMQ_THR_THR q) ≤ s.hmqCount q then s.source (1298 + q) else s

/-- A notice enters whole, or is refused to its producer (R378). -/
def postNotice (s : State) (q n0 n1 : Nat) : State × Bool :=
  let x := s.hmq q
  if 512 ≤ s.hmqCount q then (s.mark (LK_HMQ_STAT_REFUSED q), false)
  else ((s.setHmq q { x with notices := x.notices ++ [(n0, n1)] }).hmqLevel q, true)

/-- A DMA channel posts its notice, or waits with WAIT_HMQ = 1 (R377). -/
def dmaPost (s : State) (c q n0 n1 : Nat) : State :=
  let r := s.postNotice q n0 n1
  if r.2 then r.1 else (r.1.setDma c { r.1.dma c with note := some (q, n0, n1) }).mark (LK_DMA_STAT_WAIT_HMQ c)

/-- Channels waiting for room in queue q post in turn while it has any. -/
def dmaNotes (s : State) (q : Nat) : State :=
  (List.range 8).foldl (fun s c => match (s.dma c).note with
    | some (p, n0, n1) =>
      if p = q && s.hmqCount q < 512 then
        (((s.postNotice q n0 n1).1).setDma c { s.dma c with note := none }).put (LK_DMA_STAT_WAIT_HMQ c) 0
      else s
    | none => s) s

/-- A read of `LK_HMQ_RD` pops one word, N0 before N1 (R229, R378). -/
def hmqPop (s : State) (q : Nat) : State × Nat :=
  let x := s.hmq q
  match x.half, x.notices with
  | some w, _ => ((s.setHmq q { x with half := none }).dmaNotes q, w)
  | none, [] => (s, notValid)
  | none, (n0, n1) :: r => (s.setHmq q ⟨r, some n1⟩, n0)

/-! ### Routing of a tiller's records (R230, R231) -/

/-- A thresher holds a record of tiller t. -/
def holdsOf (s : State) (i t : Nat) : Bool := (s.thr i).fifo.any (fun e => e.tiller = t && !e.cmd)

/-- `SH_XBAR_ROUTE.PEND` follows the move. -/
def showMove (s : State) (t : Nat) : State :=
  let r := s.route t
  s.putBit (SH_XBAR_ROUTE_PEND (sheafOf t)) (inSheaf t) (r.wait || !r.plan.isEmpty)

/-- A move is done when no entry and no record is left to the other thresher (R231). -/
def settleRoute (s : State) (t : Nat) : State :=
  let r := s.route t
  if r.plan.isEmpty then s
  else
    let p := r.plan.dropWhile (fun c => c.1 = 0)
    if !p.isEmpty then s.setRoute t { r with plan := p }
    else if s.holdsOf (2 * sheafOf t + (1 - r.force)) t then s.setRoute t { r with plan := [(0, 1 - r.force)] }
    else ((s.setRoute t { r with plan := [] }).showMove t).source (1024 + 8 * sheafOf t + 5)

/-- A packet boundary of the tiller, or the write itself when the tiller is not active (R231): entries now in its FIFO go where
they went, later ones to the other thresher. -/
def routeBoundary (s : State) (t : Nat) : State :=
  let r := s.route t
  if !r.wait then s
  else
    let left := (s.fq t).entries.length - (r.plan.map (·.1)).sum
    ((s.setRoute t ⟨1 - r.force, false, r.plan ++ [(left, r.force)]⟩).showMove t).settleRoute t

/-- The oldest entry has left the FIFO. -/
def takeFirst : List (Nat × Nat) → List (Nat × Nat)
  | [] => []
  | (n, i) :: r => if n = 0 then (n, i) :: takeFirst r else (n - 1, i) :: r

def routeTaken (s : State) (t : Nat) : State :=
  let r := s.route t
  if r.plan.isEmpty then s else s.setRoute t { r with plan := takeFirst r.plan }

/-- The FIFO has been emptied. -/
def routeEmptied (s : State) (t : Nat) : State :=
  let r := s.route t
  if r.plan.isEmpty then s else s.setRoute t { r with plan := r.plan.map (fun c => (0, c.2)) }

/-- Which thresher of the pair the tiller's oldest entry goes to (R231). -/
def entryTarget (s : State) (t : Nat) : Nat :=
  match (s.route t).plan.find? (fun c => decide (c.1 ≠ 0)) with
  | some c => c.2
  | none => (s.route t).force

end State

end Sys2Proof.Machine
end

