-- ==== Sys2Proof/Machine/Supply.lean ====
section
/-! DEFINITION. DUT supplies and HV channels (09_dut_supplies_and_energy.md): the setpoint chain, energy limits, enables,
range changes, current limit, crowbar, waveform player, slew limiter, supervision, safe state. `h` is 0 for VDUT, 1 for HV. -/

namespace Sys2Proof.Machine

/-- Largest n-bit number that satisfies a test met by 0 and by every number below one that meets it. -/
def greatest (test : Nat → Bool) : Nat → Nat → Nat
  | 0, acc => acc
  | n + 1, acc => if test (acc + 2 ^ n) then greatest test n (acc + 2 ^ n) else greatest test n acc

namespace State

/-! ### Codes, spans and limits -/

/-- `TL_HV_CTRL.SPAN` is bipolar (R276); VDUT has no span. -/
def bipolar (s : State) (t h : Nat) : Bool := h = 1 && (s.reg (TL_SUP_CTRL t 1)).toNat.testBit 4

/-- The code for 0 V (R276, R277). -/
def zeroCode (s : State) (t h : Nat) : Nat := if s.bipolar t h then 32768 else 0

/-- Largest code (R266 stage 2). -/
def maxCode (h : Nat) : Nat := if h = 0 then 262143 else 65535

/-- The distance k of a code from the 0 V code is permitted (R280). -/
def energyOk (s : State) (t h k : Nat) : Bool :=
  if h = 0 then (1000 + s.get (TL_SUP_CEXT_CEXT t 0)) * k ^ 2 ≤ s.get (TL_SUP_ECEIL_ECEIL t 0) * 2 ^ 33
  else if s.bipolar t 1 then
    (10000 + s.get (TL_SUP_CEXT_CEXT t 1)) * (3 * k) ^ 2 ≤ s.get (TL_SUP_ECEIL_ECEIL t 1) * 1000 * 2 ^ 27
  else (10000 + s.get (TL_SUP_CEXT_CEXT t 1)) * k ^ 2 ≤ s.get (TL_SUP_ECEIL_ECEIL t 1) * 1000 * 2 ^ 23

/-- Largest permitted distance from the 0 V code (R280). -/
def energyMax (s : State) (t h : Nat) : Nat := min (greatest (s.energyOk t h) 18 0) (maxCode h)

/-- The permitted code farthest from 0 V on the side of a request (R280). -/
def energyCode (s : State) (t h req : Nat) : Nat :=
  if req < s.zeroCode t h then s.zeroCode t h - min (s.energyMax t h) (s.zeroCode t h)
  else min (s.zeroCode t h + s.energyMax t h) (maxCode h)

/-- Set a write-1-to-clear bit of a supply's status; its setting fires the tiller's VDUT or HV source (R413). -/
def supFlag (s : State) (t h : Nat) (f : Field) : State := if s.on f then s else (s.mark f).tlSource t (9 + h)

/-- Set a tag of the tiller's current run (R137). -/
def tag (s : State) (t bit : Nat) : State := s.modTl t (fun x => { x with tags := x.tags ||| 2 ^ bit })

/-- The tiller is RUNNING, PARKED or STALLED. -/
def active (s : State) (t : Nat) : Bool := 1 ≤ s.get (TL_SEQ_STAT_STATE t) && s.get (TL_SEQ_STAT_STATE t) ≤ 3

/-- Mark the tiller's result INVALID: the run under way, or the result last completed (R285, R297). -/
def invalidate (s : State) (t : Nat) : State := if s.active t then s.tag t 30 else (s.tag t 30).mark (TL_RESULT_INVALID t)

/-- The voltage of a code in units of 1/65 536 V (R268, R276). -/
def volts (s : State) (t h code : Nat) : Int :=
  if h = 0 then code else if s.bipolar t h then 24 * (code : Int) - 786432 else 32 * code

/-! ### The setpoint chain (R266) -/

/-- Stages 1 and 2: the request within the code range. -/
def supRequest (s : State) (t h : Nat) : Nat :=
  (max 0 (min ((s.sup t h).codeIn + (if s.get (TL_SUP_CTRL_SRC t h) = 0 then 0 else (s.sup t h).dev)) (maxCode h))).toNat

/-- Stage 3: the voltage limit. -/
def supLimited (s : State) (t h : Nat) : Nat :=
  if h = 0 then min (s.supRequest t 0) (bits (s.reg (TL_SUP_VLIM t 0)).toNat 17 0)
  else if s.bipolar t 1 then
    max (bits (s.reg (TL_SUP_VLIM t 1)).toNat 15 0) (min (s.supRequest t 1) (bits (s.reg (TL_SUP_VLIM t 1)).toNat 31 16))
  else min (s.supRequest t 1) (bits (s.reg (TL_SUP_VLIM t 1)).toNat 31 16)

/-- Stage 4: the energy limit. -/
def supTarget (s : State) (t h : Nat) : Nat :=
  let c := s.supLimited t h
  if c < s.zeroCode t h then max c (s.energyCode t h c) else min c (s.energyCode t h c)

/-- The output's present limiter value and enable. -/
def supOut (s : State) (t h : Nat) : Nat := s.get (TL_SUP_OUT_CODE t h)
def supOn (s : State) (t h : Nat) : Bool := s.get (TL_SUP_STAT_STATE t h) = 1

/-- Set the limiter output o, keeping the history supervision looks at (R294). -/
def setOut (s : State) (t h o : Nat) : State :=
  let x := s.sup t h
  (s.setSup t h { x with history := (s.ticks, o) :: x.history.takeWhile (fun e => decide (s.ticks ≤ e.1 + 25600)) ++ (x.history.dropWhile (fun e => decide (s.ticks ≤ e.1 + 25600))).take 1 }).put (TL_SUP_OUT_CODE t h) o

/-- Report an energy clamp in the status, the clamp counter and the run's result (R282). -/
def energyClamp (s : State) (t h : Nat) : State :=
  ((s.supFlag t h (TL_SUP_STAT_ECLAMP t h)).bump (TL_SUP_ECNT_COUNT t h)).tag t 21

/-- Run the chain on a change of an input (R266): flags of stages 3 and 4, `EMAX`, `TGT`, and o while the limiter is off
(R292). Tells whether stage 4 clamped. -/
def runChain (s : State) (t h : Nat) : State × Bool :=
  let limited := s.supLimited t h
  let target := s.supTarget t h
  let s1 := if limited ≠ s.supRequest t h then s.supFlag t h (TL_SUP_STAT_VLIMIT t h) else s
  let s2 := if target ≠ limited then s1.energyClamp t h else s1
  let s3 := (s2.put (TL_SUP_EMAX_CODE t h) (s.energyCode t h limited)).put (TL_SUP_TGT_CODE t h) target
  (if s3.supOn t h && s3.get (TL_SUP_SLEW_STEP t h) = 0 then s3.setOut t h target else s3, decide (target ≠ limited))

/-- A new `CODE`: it enters stage 2 at once in STATIC, and at the next sample boundary otherwise (R267). -/
def writeCode (s : State) (t h code : Nat) : State × Bool :=
  let s1 := s.put (TL_SUP_CODE_CODE t h) code
  if s.get (TL_SUP_CTRL_SRC t h) = 0 then (s1.setSup t h { s1.sup t h with codeIn := code }).runChain t h else (s1, false)

/-- The target of a half's VRAW in TRACK mode, in millivolts (R274): every VDUT with EN = 1 counts, a waiting one too. -/
def trackTarget (s : State) (half : Nat) : Nat :=
  let top := (allTillers.filter (fun t => halfOf t = half && s.on (TL_SUP_CTRL_EN t 0))).map
    (fun t => min (s.get (TL_SUP_VLIM_VLIM t 0)) (s.energyCode t 0 0))
  if top.isEmpty then 800
  else max 800 (min 4300 (250 + (1000 * top.foldl max 0 + 65535) / 65536))

/-- Recompute both halves' present VRAW targets (R274). -/
def trackVraw (s : State) : State :=
  let w := if s.get GL_VRAW_TRIM_W_MODE = 0 then s.trackTarget 0 else s.get GL_VRAW_TRIM_W_TARGET
  let e := if s.get GL_VRAW_TRIM_E_MODE = 0 then s.trackTarget 1 else s.get GL_VRAW_TRIM_E_TARGET
  (s.put GL_VRAW_TRIM_W_CUR w).put GL_VRAW_TRIM_E_CUR e

/-! ### Enable and disable (R269, R443) -/

def waitBit (t h : Nat) : Field := if h = 0 then ST_SEQ_STAT_WAIT_VDUT (rowOf t) else ST_SEQ_STAT_WAIT_HV (rowOf t)

/-- An admitted enable takes effect: STATE ON, o from the 0 V code, limiter steps counted from here (R269, R292). -/
def enableOutput (s : State) (t h : Nat) : State :=
  let s1 := (s.putBit (waitBit t h) (colOf t) false).put (TL_SUP_STAT_STATE t h) 1
  let s2 := s1.setSup t h { s1.sup t h with enReq := false, enAt := s.ticks, disAt := none, slewAt := s.ticks + max 1 (s.get (TL_SUP_SLEW_RATE t h)) }
  let s3 := s2.setOut t h (s2.zeroCode t h)
  let s4 := if s3.get (TL_SUP_SLEW_STEP t h) = 0 then s3.setOut t h (s3.supTarget t h) else s3
  { s4 with lastAdmit := storeSet (fun _ => none) s4.lastAdmit (rowOf t) (some s.ticks) }.trackVraw

/-- The sequencer may admit an enable of strip r now (R443). -/
def mayAdmit (s : State) (r : Nat) : Bool :=
  match storeGet (fun _ => none) s.lastAdmit r with
  | none => true
  | some a => a + 50 * s.get (ST_SEQ_CFG_STAGGER r) ≤ s.ticks

/-- A reset in progress holds tiller t (R20). -/
def inReset (s : State) (t : Nat) : Bool := s.resets.busy = some (1, t) || s.resets.busy = some (3, rowOf t)

/-- A write of EN = 1: EN reads 1, and the enable waits in the sequencer; it is admitted at once with STAGGER = 0. While
STATE is LOCKOUT, during a reset that holds the tiller, and while no safe values are loaded, it is ignored (R269, R298, R430,
R443). -/
def requestEnable (s : State) (t h : Nat) : State :=
  if s.get (TL_SUP_STAT_STATE t h) ≠ 0 || !s.on GL_RST_STAT_REGS_READY || s.inReset t || s.power.noSafe then s
  else
    let s1 := (s.mark (TL_SUP_CTRL_EN t h)).trackVraw
    let s2 := (s1.setSup t h { s1.sup t h with enReq := true }).putBit (waitBit t h) (colOf t) true
    if s.get (ST_SEQ_CFG_STAGGER (rowOf t)) = 0 then s2.enableOutput t h else s2

/-- A change of range of an output that is off takes effect at once (R271). DEDUCED: so does one that still waits when the output is
switched off, and one under way is then complete. -/
def rangeNow (s : State) (t : Nat) : State :=
  let x := s.sup t 0
  let s1 := (s.setSup t 0 { x with rangeAt := none, rangeWait := none }).put (TL_SUP_STAT_RNG_PEND t 0) 0
  match x.rangeWait with
  | some r => s1.put (TL_SUP_CTRL_RNG t 0) r
  | none => s1

/-- Count a hot switch (R272, R300): a disable or live range change above 1 mA, above 0.1 mA for HV. -/
def hotSwitch (s : State) (t h microamps : Nat) : State :=
  if (if h = 0 then 1000 else 100) < microamps then
    let k := (if h = 0 then 0x240 else 0x2C0) + t
    let s1 := s.bump (TL_SUP_CNT_HOTSW t h)
    { s1 with wear := storeSet (fun _ => 0) s1.wear k (min (storeGet (fun _ => 0) s1.wear k + 1) 0xFFFFFFFF) }
  else s

/-- A reset that reaches an output that is on is a disable of it (R269, R272); its load current is a free value (log entry 6). -/
def dropOutput (s : State) (t h : Nat) : State := if s.supOn t h then s.draw.hotSwitch t h (Config.loadCurrent s.draws) else s

/-- A write of EN = 0 (R269): the pass stage opens, the discharge switch closes, o is set to 0; a waiting enable is
cancelled (R443); SENSE_OPEN clears (R273). -/
def disableOutput (s : State) (t h microamps : Nat) : State :=
  let s0 := if s.supOn t h then s.hotSwitch t h microamps else s
  let s1 := ((s0.put (TL_SUP_CTRL_EN t h) 0).putBit (waitBit t h) (colOf t) false)
  let s2 := if h = 0 then (s1.put (TL_SUP_STAT_SENSE_OPEN t 0) 0).rangeNow t else s1
  let s3 := if s2.get (TL_SUP_STAT_STATE t h) = 1 then s2.put (TL_SUP_STAT_STATE t h) 0 else s2
  let s4 := s3.setSup t h { s3.sup t h with enReq := false, limitAt := none, disAt := if s.supOn t h then some s.ticks else (s.sup t h).disAt }
  ((s4.setOut t h (s4.zeroCode t h)).put (TL_SUP_STAT_ILIM_NOW t h) 0).trackVraw

/-! ### Safe state and supply faults (R296, R297) -/

/-- The safe state of an output: EN = 0, with a free load current (log entry 6); CODE, RNG or SPAN at their NVM safe values; o at 0 V;
the player STOPPED. -/
def supplySafe (s : State) (t h : Nat) : State :=
  let s1 := if s.supOn t h then s.draw.disableOutput t h (Config.loadCurrent s.draws) else s.disableOutput t h 0
  let code := bits (s1.safeWord (TL_SUP_CODE t h)).toNat 17 0
  let s2 := s1.setReg (TL_SUP_CTRL t h) (BitVec.ofNat 32 (insert32 (s1.reg (TL_SUP_CTRL t h)).toNat 5 4 (bits (s1.safeWord (TL_SUP_CTRL t h)).toNat 5 4)))
  let s3 := s2.put (TL_SUP_CODE_CODE t h) code
  let s4 := s3.put (TL_SUP_WF_STAT_STATE t h) 0
  let x := s4.sup t h
  let s5 := s4.setSup t h { x with dev := 0, nextAt := none, stopReq := false, codeIn := code, settleUntil := none }
  let s6 := if h = 0 then s5.put (TL_SUP_STAT_SETTLE t 0) 0 else s5
  (s6.runChain t h).1.setOut t h (s6.zeroCode t h)

/-- Both outputs of a tiller to their safe state. -/
def suppliesSafe (s : State) (t : Nat) : State := (s.supplySafe t 0).supplySafe t 1

/-- A supply fault (R297): this output alone to its safe state and to LOCKOUT, cause recorded, result INVALID, the error line
of the tiller's analogue block (64 + t) raised. -/
def supplyFault (s : State) (t h cause : Nat) : State :=
  let s1 := ((s.supplySafe t h).put (TL_SUP_STAT_STATE t h) 2).put (TL_SUP_STAT_CAUSE t h) cause
  ((s1.setSup t h { s1.sup t h with heldOff := (s1.sup t h).crowbarAt.isNone }).invalidate t).raiseLine (64 + t)

/-- Leave LOCKOUT by CLEAR once the hold-off has ended (R285). -/
def supplyClear (s : State) (t h : Nat) : State :=
  if s.get (TL_SUP_STAT_STATE t h) = 2 && (s.sup t h).heldOff then s.put (TL_SUP_STAT_STATE t h) 0 else s

/-! ### Ranges and spans (R271, R277) -/

/-- Begin a live range change now. -/
def beginRange (s : State) (t range : Nat) : State :=
  let x := s.sup t 0
  let s1 := s.setSup t 0 { x with oldRange := s.get (TL_SUP_CTRL_RNG t 0), rangeAt := some s.ticks, rangeWait := none, settleUntil := some (s.ticks + 2000) }
  ((s1.put (TL_SUP_CTRL_RNG t 0) range).mark (TL_SUP_STAT_RNG_PEND t 0)).mark (TL_SUP_STAT_SETTLE t 0)

/-- A VDUT range change (R271): at once while EN = 0; make-before-break while EN = 1, also while the enable waits, when no current flows;
a second one waits for the first. -/
def changeRange (s : State) (t range microamps : Nat) : State :=
  if !s.on (TL_SUP_CTRL_EN t 0) then s.put (TL_SUP_CTRL_RNG t 0) range
  else if s.on (TL_SUP_STAT_RNG_PEND t 0) then s.setSup t 0 { s.sup t 0 with rangeWait := some range }
  else if s.get (TL_SUP_CTRL_RNG t 0) = range then s
  else (s.hotSwitch t 0 (if s.supOn t 0 then microamps else 0)).beginRange t range

/-- Recompute the permitted codes (R281): o beyond the new limit is set to it at once, and ECLAMP sets. -/
def recomputeEnergy (s : State) (t h : Nat) : State :=
  let r := s.runChain t h
  let s1 := r.1
  let o := s1.supOut t h
  let lim := if o < s1.zeroCode t h then max o (s1.energyCode t h o) else min o (s1.energyCode t h o)
  (if lim = o then s1 else if r.2 then s1.setOut t h lim else (s1.setOut t h lim).energyClamp t h).trackVraw

/-- A write of SPAN (R277): ignored with RANGE_BUSY while EN = 1; otherwise CODE takes the new span's 0 V code and the
limits are recomputed. -/
def writeSpan (s : State) (t : Nat) (b : Bool) : State :=
  if s.bipolar t 1 = b then s
  else if s.on (TL_SUP_CTRL_EN t 1) then s.supFlag t 1 (TL_SUP_STAT_RANGE_BUSY t 1)
  else
    let s1 := s.putBit ⟨TL_SUP_CTRL t 1, 31, 0⟩ 4 b
    let code := if b then 32768 else 0
    let s2 := (s1.put (TL_SUP_CODE_CODE t 1) code).setSup t 1 { s1.sup t 1 with codeIn := code }
    (s2.setOut t 1 code).recomputeEnergy t 1

/-! ### The waveform player (R287 to R293) -/

/-- Ticks per sample (R287): 1 MS/s for VDUT, 250 kS/s for HV. -/
def samplePeriod (h : Nat) : Nat := if h = 0 then 100 else 400

/-- The player's state: 0 STOPPED, 1 ARMED, 2 RUNNING, 3 DONE. -/
def wfState (s : State) (t h : Nat) : Nat := s.get (TL_SUP_WF_STAT_STATE t h)

/-- DRAM address of the player's table (R288). -/
def wfBase (s : State) (t h : Nat) : Nat := s.get (TL_SUP_WF_BASE_HI_BASE_HI t h) * 2 ^ 32 + s.get (TL_SUP_WF_BASE_LO_BASE_LO t h) * 64

/-- The checks at GO in TABLE mode (R288). -/
def wfTableOk (s : State) (t h : Nat) : Bool :=
  s.get (TL_SUP_CTRL_SRC t h) ≠ 1 ||
  (2 ≤ s.get (TL_SUP_WF_LEN_LEN t h) && s.get (TL_SUP_WF_LEN_LEN t h) ≤ 16777216 && 1 ≤ s.get (TL_SUP_WF_STEP_STEP t h) &&
    s.get (TL_SUP_WF_STEP_STEP t h) ≤ 65536 && s.wfBase t h + 4 * s.get (TL_SUP_WF_LEN_LEN t h) ≤ 0x400000000)

/-- Start values of position, phase and noise generator (R288, R290, R291). -/
def wfInit (s : State) (t h : Nat) (x : Supply) : Supply :=
  { x with pos := 0, phase := s.get (TL_SUP_WF_PHASE_VALUE t h), stopReq := false, y1 := 0, z := 0, table := [], lfsr := if bits (s.get (TL_SUP_WF_SEED_VALUE t h)) 30 0 = 0 then 1 else bits (s.get (TL_SUP_WF_SEED_VALUE t h)) 30 0 }

/-- GO (R287, R288): refused with REFUSED by the table checks; ignored with WR_BUSY while ARMED or RUNNING (R293). -/
def wfGo (s : State) (t h : Nat) : State :=
  if s.wfState t h = 1 || s.wfState t h = 2 then s.mark (TL_SUP_WF_STAT_WR_BUSY t h)
  else if !s.wfTableOk t h then s.mark (TL_SUP_WF_STAT_REFUSED t h)
  else
    let start (s : State) (st : Nat) (at_ : Option Nat) :=
      (s.setSup t h { s.wfInit t h (s.sup t h) with nextAt := at_ }).put (TL_SUP_WF_STAT_STATE t h) st
    -- while ARMED the deviation is 0
    let arm (s : State) (at_ : Option Nat) :=
      if (s.sup t h).dev = 0 then start s 1 at_ else (((start s 1 at_).setSup t h { (start s 1 at_).sup t h with dev := 0 }).runChain t h).1
    match s.get (TL_SUP_WF_CTRL_START_SRC t h) with
    | 0 => start s 2 (some (s.ticks + 500))
    | 1 => arm s none
    | _ =>
      let d := (s.get (TL_SUP_WF_START_VALUE t h) + 2 ^ 32 - s.view % 2 ^ 32) % 2 ^ 32
      if d < 2 ^ 31 then arm s none
      else start (s.mark (TL_SUP_WF_STAT_START_LATE t h)) 2 (some (s.ticks + 1))

/-- STOP (R293): the deviation returns to 0 at the next sample boundary; an ARMED player stops there and then. -/
def wfStop (s : State) (t h : Nat) : State :=
  match s.wfState t h with
  | 1 => (s.setSup t h { s.sup t h with nextAt := none }).put (TL_SUP_WF_STAT_STATE t h) 0
  | 2 => s.setSup t h { s.sup t h with stopReq := true }
  | 3 => s.setSup t h { s.sup t h with stopReq := true }
  | _ => s

/-- Coefficients c_m(φ) of R288: 16 384·f_m(φ/64), numerator over 2·64³, rounded with ties away from zero. -/
def wfCoef (m : Nat) (φ : Int) : Int :=
  let n : Int := match m with
    | 0 => -(φ ^ 3) + 2 * 64 * φ ^ 2 - 64 ^ 2 * φ
    | 1 => 3 * φ ^ 3 - 5 * 64 * φ ^ 2 + 2 * 64 ^ 3
    | 2 => -3 * φ ^ 3 + 4 * 64 * φ ^ 2 + 64 ^ 2 * φ
    | _ => φ ^ 3 - 64 * φ ^ 2
  -- 16 384 / (2·64³) = 1/32
  if 0 ≤ n then (n + 16) / 32 else -((-n + 16) / 32)

/-- Table index of entry i + m − 1 (R289). -/
def wfIndex (s : State) (t h i m : Nat) : Nat :=
  let len := s.get (TL_SUP_WF_LEN_LEN t h)
  if s.on (TL_SUP_WF_CTRL_LOOP t h) then (i + m + len - 1) % len else min (i + m - 1) (len - 1)

/-- The entries a sample at position i needs. -/
def wfNeeded (s : State) (t h i : Nat) : List Nat := (List.range 4).map (s.wfIndex t h i)

/-- A fetched entry: its word and whether it is poisoned. -/
def wfEntry (s : State) (t h k : Nat) : Nat × Bool := (storeGet (fun _ => none) (s.sup t h).table k).getD (0, false)

/-- Deviation in TABLE mode (R288) from the fetched entries. -/
def wfInterp (s : State) (t h pos : Nat) : Int :=
  let e (m : Nat) : Int := signed 32 (s.wfEntry t h (s.wfIndex t h (pos / 65536) m)).1
  let φ : Int := pos % 65536 / 1024
  (wfCoef 0 φ * e 0 + wfCoef 1 φ * e 1 + wfCoef 2 φ * e 2 + wfCoef 3 φ * e 3 + 8192) / 16384

/-- One step of the LFSR (R291), applied n times. -/
def lfsrSteps : Nat → Nat → Nat
  | 0, x => x
  | n + 1, x => lfsrSteps n (x * 2 % 2 ^ 31 + (if x.testBit 30 != x.testBit 27 then 1 else 0))

/-- The generators (R290, R291): the next deviation and the generator's new state. -/
def wfGenerate (s : State) (t h : Nat) : Int × Supply :=
  let x := s.sup t h
  let a : Int := s.get (TL_SUP_WF_AMP_AMP t h)
  let q : Int := x.phase / 65536
  let x1 := { x with phase := (x.phase + s.get (TL_SUP_WF_FREQ_VALUE t h)) % 2 ^ 32 }
  match s.get (TL_SUP_WF_CTRL_GEN t h) with
  | 0 => (a * (if q < 16384 then 4 * q else if q < 49152 then 131072 - 4 * q else 4 * q - 262144) / 65536, x1)
  | 1 => (a * (if s.on (TL_SUP_WF_CTRL_SAW_DN t h) then -(2 * q - 65536) else 2 * q - 65536) / 65536, x1)
  | _ =>
    let l := lfsrSteps 16 x.lfsr
    let w := signed 16 l * 65536
    let y1 := x.y1 + (w - x.y1) / 2 ^ s.get (TL_SUP_WF_NOISE_LP t h)
    let hp := s.get (TL_SUP_WF_NOISE_HP t h)
    let z := if hp = 0 then x.z else x.z + (y1 - x.z) / 2 ^ hp
    (a * ((if hp = 0 then y1 else y1 - z) / 65536) / 32768, { x1 with lfsr := l, y1 := y1, z := z })

/-- Count a missed table entry (R293). The manual names the counter SLIP and gives it no register. -/
def slip (s : State) (t h : Nat) : State := s.setSup t h { s.sup t h with slips := (s.sup t h).slips + 1 }

/-- The tick of a COUNT start (R287): the target on the schedule as it now runs, or the present if a relock has put it in the past. -/
def startTick (s : State) (t h : Nat) : Nat :=
  let d := (s.get (TL_SUP_WF_START_VALUE t h) + 2 ^ 32 - s.view % 2 ^ 32) % 2 ^ 32
  if d < 2 ^ 31 then s.ticks + d else s.ticks

/-- The table has ended (R289): the player is DONE and holds the last entry, or returns to a deviation of 0 and needs no entry. A last
entry that is not there leaves the output as it is and counts SLIP; a poisoned one is the fault WF_POISON (R293). -/
def wfEnd (s : State) (t h : Nat) : State :=
  let done (d : Int) : State := ((s.setSup t h { s.sup t h with dev := d }).put (TL_SUP_WF_STAT_STATE t h) 3 |>.runChain t h).1
  if s.on (TL_SUP_WF_CTRL_END_RET t h) then done 0
  else match storeGet (fun _ => none) (s.sup t h).table (s.get (TL_SUP_WF_LEN_LEN t h) - 1) with
    | none => (done (s.sup t h).dev).slip t h
    | some (w, poison) => if poison then s.supplyFault t h 4 else done (signed 32 w)

/-- A sample boundary (R266, R288 to R293): an armed player that is due or whose event latch is seen set starts; a stop
returns the deviation to 0; a table entry that is not there repeats the output and counts SLIP; a poisoned one is the fault
WF_POISON; then the chain runs. -/
def wfSample (s0 : State) (t h : Nat) : State :=
  let armed := s0.wfState t h = 1
  if armed && s0.get (TL_SUP_WF_CTRL_START_SRC t h) = 1 && !s0.fbit (TL_EVIN_LATCH t) (s0.get (TL_SUP_WF_CTRL_EVT_SEL t h)) then s0
  else
    let s := match (s0.sup t h).nextAt with
      | some a => s0.advTo a
      | none => if !armed then s0 else if s0.get (TL_SUP_WF_CTRL_START_SRC t h) = 1 then s0.advTo (s0.ticks + 1) else s0.advTo (s0.startTick t h)
    let x := { s.sup t h with nextAt := some (s.ticks + samplePeriod h), codeIn := s.get (TL_SUP_CODE_CODE t h) }
    if x.stopReq then
      (((s.setSup t h { x with dev := 0, stopReq := false, nextAt := none }).put (TL_SUP_WF_STAT_STATE t h) 0).runChain t h).1
    else if s.get (TL_SUP_CTRL_SRC t h) = 0 then
      (((s.setSup t h { x with dev := 0 }).put (TL_SUP_WF_STAT_STATE t h) (if armed then 2 else s.wfState t h)).runChain t h).1
    else if s.wfState t h = 0 || s.wfState t h = 3 then ((s.setSup t h x).runChain t h).1
    else
      let s1 := (s.setSup t h x).put (TL_SUP_WF_STAT_STATE t h) 2
      if s.get (TL_SUP_CTRL_SRC t h) = 2 then
        let g := s1.wfGenerate t h
        ((s1.setSup t h { g.2 with dev := g.1 }).runChain t h).1
      else
        let i := x.pos / 65536
        let need := s1.wfNeeded t h i
        let have_ (k : Nat) : Bool := (storeGet (fun _ => none) x.table k).isSome
        let poisoned := need.any (fun k => (s1.wfEntry t h k).2)
        let s2 := s1.put (TL_SUP_WF_STAT_POS t h) i
        let adv := { x with pos := x.pos + s.get (TL_SUP_WF_STEP_STEP t h) }
        let adv := if s.on (TL_SUP_WF_CTRL_LOOP t h) then { adv with pos := adv.pos % (s.get (TL_SUP_WF_LEN_LEN t h) * 65536) } else adv
        if !s.on (TL_SUP_WF_CTRL_LOOP t h) && s.get (TL_SUP_WF_LEN_LEN t h) ≤ i + 1 then (s2.setSup t h adv).wfEnd t h
        else if poisoned then s2.supplyFault t h 4
        else if !need.all have_ then
          ((s2.setSup t h adv).runChain t h).1.slip t h
        else ((s2.setSup t h { adv with dev := s2.wfInterp t h x.pos }).runChain t h).1

/-! ### Limit, crowbar, supervision -/

/-- Enter current limit (R270, R278): ILIM and ILIM_NOW set, the episode counts. -/
def enterLimit (s : State) (t h : Nat) : State :=
  if !s.supOn t h || s.on (TL_SUP_STAT_ILIM_NOW t h) then s
  else
    let s1 := ((s.supFlag t h (TL_SUP_STAT_ILIM t h)).mark (TL_SUP_STAT_ILIM_NOW t h)).bump (TL_SUP_CNT_ILIM_EVENTS t h)
    s1.setSup t h { s1.sup t h with limitAt := some s.ticks }

/-- Leave current limit: the continuous-limit time stops. -/
def leaveLimit (s : State) (t h : Nat) : State :=
  (s.put (TL_SUP_STAT_ILIM_NOW t h) 0).setSup t h { s.sup t h with limitAt := none }

/-- TIME µs in limit without a break: fault ILIM_TRIP; TIME = 0 never trips (R270). -/
def limitTrip (s : State) (t h : Nat) : State :=
  match (s.sup t h).limitAt with
  | some a =>
    if s.get (TL_SUP_ILIM_TIME t h) = 0 then s
    else (s.advTo (a + 100 * s.get (TL_SUP_ILIM_TIME t h))).supplyFault t h 2
  | none => s

/-- A detector trips (R283, R284): only with CB_EN and EN; the contact-loss detector is blanked for 5 µs of a live range
change and for 10 µs after enable. Counts in CROWBARS and the wear totals; the result is INVALID (R285). -/
def crowbarTrip (s : State) (t h : Nat) (arc : Bool) : State :=
  let x := s.sup t h
  let blank := !arc && (decide (s.ticks < x.enAt + 1000) || (match x.rangeAt with | some a => decide (s.ticks < a + 500) | none => false))
  if !s.on (TL_SUP_CTRL_CB_EN t h) || !s.supOn t h || blank || x.crowbarAt.isSome then s
  else
    let k := (if h = 0 then 0x200 else 0x280) + t
    let s1 := (s.setSup t h { x with crowbarAt := some s.ticks, opened := false, heldOff := false }).bump (TL_SUP_CNT_CROWBARS t h)
    { s1 with wear := storeSet (fun _ => 0) s1.wear k (min (storeGet (fun _ => 0) s1.wear k + 1) 0xFFFFFFFF) }.invalidate t

/-- Two µs after the onset (R284): the crowbar opens, the discharge switch closes, LOCKOUT with fault CROWBAR. -/
def crowbarOpen (s : State) (t h : Nat) : State :=
  match (s.sup t h).crowbarAt with
  | some a => if (s.sup t h).opened then s else ((s.advTo (a + 200)).setSup t h { s.sup t h with opened := true }).supplyFault t h 1
  | none => s

/-- One hundred µs after the onset the hold-off ends (R284). -/
def crowbarHoldoff (s : State) (t h : Nat) : State :=
  match (s.sup t h).crowbarAt with
  | some a => (s.advTo (a + 10000)).setSup t h { s.sup t h with crowbarAt := none, heldOff := true }
  | none => s

/-- The limiter outputs in force during the last LAG µs (R294). -/
def lagOutputs (s : State) (t h : Nat) : List Nat :=
  let from_ := s.ticks - 100 * s.get (TL_SUP_SUP_LAG t h)
  let l := (s.sup t h).history
  s.supOut t h :: (l.takeWhile (fun e => decide (from_ < e.1)) ++ (l.dropWhile (fun e => decide (from_ < e.1))).take 1).map (·.2)

/-- The tick of the next supervision reading (R306): N ≡ 0 mod 2 000 on the schedule for VDUT, N ≡ 1 000 for HV. -/
def readingTick (s : State) (t h : Nat) : Nat :=
  let n := match (s.sup t h).readAt with
    | some a => max s.ticks (a + 1)
    | none => s.ticks
  let phase := (s.countAt n + 2 ^ 48 - 64 + (if h = 0 then 0 else 1000)) % 2 ^ 48 % 2000
  if phase = 0 then n else n + 2000 - phase

/-- The tick from which the reference buffer's 2 ms count (R310). -/
def refStart (s : State) (t : Nat) : Nat := (s.adc t).refAt.getD s.resetEnd

/-- A supervision reading in microvolts (R294, R295): CNT violations in a row are the fault SUPERV; a reading with SETTLE or
NOREF (R310), of an output that is off too, neither violates nor breaks a run; a disabled output above 0.5 V more than 10 ms after the disable sets STUCK. -/
def superviseReading (s0 : State) (t h : Nat) (microvolts : Int) : State :=
  let n := s0.readingTick t h
  let s := if s0.on (TL_SUP_CTRL_SUP_EN t h) then (s0.advTo n).setSup t h { s0.sup t h with readAt := some n } else s0
  let x := s.sup t h
  let quiet := decide (s.ticks < s.refStart t + 200000) || (h = 0 && s.on (TL_SUP_STAT_SETTLE t 0))
  if !s.on (TL_SUP_CTRL_SUP_EN t h) then s
  else if !s.supOn t h then
    let s1 := if quiet then s else s.setSup t h { x with viol := 0 }
    match x.disAt with
    | some a => if 500000 < microvolts && a + 1000000 < s.ticks then s1.supFlag t h (TL_SUP_STAT_STUCK t h) else s1
    | none => s1
  else if quiet then s
  else
    let vs := (s.lagOutputs t h).map (s.volts t h)
    let lo := vs.foldl min (s.volts t h (s.supOut t h))
    let hi := vs.foldl max (s.volts t h (s.supOut t h))
    let tol : Int := s.get (TL_SUP_SUP_TOL t h) * 1000
    let bad := microvolts * 65536 < lo * 1000000 - tol * 65536 || hi * 1000000 + tol * 65536 < microvolts * 65536
    if !bad then s.setSup t h { x with viol := 0 }
    else if x.viol + 1 < max 1 (s.get (TL_SUP_SUP_CNT t h)) then s.setSup t h { x with viol := x.viol + 1 }
    else (s.setSup t h { x with viol := 0 }).supplyFault t h 3

/-- The next step of the slew limiter: on the grid of RATE ticks counted from enable (R292), also after a time without steps. -/
def slewDue (s : State) (t h : Nat) : Nat :=
  let x := s.sup t h
  let rate := max 1 (s.get (TL_SUP_SLEW_RATE t h))
  if s.ticks ≤ x.slewAt then x.slewAt else x.enAt + (s.ticks - x.enAt + rate - 1) / rate * rate

/-- A write of `SLEW` (R292): the steps still to come lie on the grid of the new RATE, counted from enable; with STEP = 0 the output takes
its target. -/
def slewWritten (s : State) (t h : Nat) : State :=
  let x := s.sup t h
  let rate := max 1 (s.get (TL_SUP_SLEW_RATE t h))
  let n := s.ticks - x.enAt
  let next := x.enAt + (if x.slewAt ≤ s.ticks then (n + rate - 1) / rate else n / rate + 1) * rate
  let s1 := s.setSup t h { x with slewAt := next }
  if s1.supOn t h && s1.get (TL_SUP_SLEW_STEP t h) = 0 then s1.setOut t h (s1.get (TL_SUP_TGT_CODE t h)) else s1

/-- One step of the slew limiter (R292). -/
def slewStep (s : State) (t h : Nat) : State :=
  let step := s.get (TL_SUP_SLEW_STEP t h)
  if !s.supOn t h || step = 0 then s
  else
    let s1 := s.advTo (s.slewDue t h)
    let o := s1.supOut t h
    let g := s1.get (TL_SUP_TGT_CODE t h)
    let s2 := s1.setOut t h (if o ≤ g then o + min (g - o) step else o - min (o - g) step)
    s2.setSup t h { s2.sup t h with slewAt := s1.ticks + max 1 (s1.get (TL_SUP_SLEW_RATE t h)) }

end State

end Sys2Proof.Machine
end

