-- ==== Sys2Proof/Machine/Trace.lean ====
section
/-! DEFINITION. Checkers with injection (R421), the tiller trace (R93, R94), flags (R78, R82) and results (R137). -/

namespace Sys2Proof.Machine

/-- Classes of the checkers whose check bits can be inverted (R421). -/
inductive Checker where
  | vectorSram | failFifo | capture | controlStore | context | scratch | dram | nvm
  deriving DecidableEq, Repr

/-- The class number of R421. -/
def Checker.code : Checker → Nat
  | .vectorSram => 1 | .failFifo => 2 | .capture => 3 | .controlStore => 4 | .context => 5 | .scratch => 6 | .dram => 7 | .nvm => 8

/-- How many values INSTANCE may take in a class; none for a class that is not listed (R421). -/
def injectionUnits (cls : Nat) : Nat :=
  match cls with
  | 1 => 64 | 2 => 64 | 3 => 64 | 4 => 16 | 5 => 16 | 6 => 32 | 7 => 16 | 8 => 1 | _ => 0

/-- 48-bit two-word numbers and 128-bit words in fields. -/
def word32 (n i : Nat) : Nat := bits n (32 * i + 31) (32 * i)

namespace State

/-- A checker reads: the inverted check bits it receives (R421). A one-shot injection is then done. -/
def inject (s : State) (c : Checker) (unit : Nat) : State × Nat :=
  if !(s.on FC_INJ_STAT_ARMED) || s.get FC_INJ_CLASS != c.code || s.get FC_INJ_INSTANCE != unit then (s, 0)
  else
    let s1 := s.bump FC_INJ_STAT_HITS
    if s.on FC_INJ_CONT then (s1, s.get FC_INJ_MASK)
    else (((s1.put FC_INJ_STAT_ARMED 0).mark FC_INJ_STAT_DONE).source 1282, s.get FC_INJ_MASK)

/-- Errors a read of the protected word at a meets, with an injection's mask: 0 none, 1 a single-bit error, 2 a double-bit one. -/
def eccOf (s : State) (a mask : Nat) : Nat :=
  let inj := popCount 16 mask
  if s.uncorr.contains a || 2 ≤ inj + b2n (s.single.contains a) then 2 else if s.single.contains a || inj = 1 then 1 else 0

/-! ### Trace -/

/-- Write a trace entry (R93): kind, opcode, the second word; the ring overwrites its oldest entry. -/
def trace (s : State) (t kind opc w1 : Nat) : State :=
  if !(s.on (TL_SEQ_CTRL_TRACE_EN t)) then s
  else
    let x := s.tl t
    let vi := (s.reg (TL_VIDX_LO t)).toNat + s.get (TL_VIDX_HI_VIDX_HI t) * 2 ^ 32
    let w0 := kind + opc * 16 + s.get (TL_PC_SEG t) * 2 ^ 12 + s.get (TL_SEQ_STAT_INSEG t) * 2 ^ 20
    let e := w0 + w1 % 2 ^ 32 * 2 ^ 32 + vi * 2 ^ 64
    let h := s.get (TL_TRACE_CTRL_HEAD t)
    let s1 := s.setTl t { x with trace := storeSet (fun _ => 0) x.trace h e, traceLen := min (x.traceLen + 1) 256 }
    let s2 := if 256 ≤ x.traceLen then s1.mark (TL_TRACE_CTRL_WRAPPED t) else s1
    s2.put (TL_TRACE_CTRL_HEAD t) (h + 1)

/-- `TL_TRACE_RD`: the selected entry is presented in `TL_TRACE_W0` to `W3` until the next write (R93). -/
def traceSelect (s : State) (t entry : Nat) : State :=
  let e := storeGet (fun _ => 0) (s.tl t).trace entry
  (List.range 4).foldl (fun s i => s.put (TL_TRACE_W_WORD t i) (word32 e i)) (s.put (TL_TRACE_RD_ENTRY t) entry)

/-! ### Flags -/

/-- Flag n of `TL_FLAGS`; LATE and STALLED mirror state kept elsewhere (R40, R155). -/
def flag (s : State) (t n : Nat) : Bool :=
  if n = 0 then s.on (lateBit t) else if n = 1 then s.on (TL_STRM_STAT_STALL t) else (s.reg (TL_FLAGS t)).toNat.testBit n

/-- CLR of a FLAG condition (R82, R101). -/
def clearFlag (s : State) (t n : Nat) : State :=
  if n = 0 then s else if n = 1 then s.put (TL_STRM_STAT_STALL t) 0 else s.put ⟨TL_FLAGS t, n, n⟩ 0

/-- LATE sets (R40): the flag, its tag, its source, and the trace kind 11 with the parking vector's index (R133). -/
def setLate (s : State) (t idx : Nat) : State :=
  (((s.mark (lateBit t)).tag t 28).tlSource t 13).trace t 11 (s.tl t).vec.opc (idx % 2 ^ 14)

/-! ### Results -/

/-- The result completes (R137): tags and stop cause are captured, SEQ counts, VALID sets. -/
def completeResult (s : State) (t : Nat) : State :=
  let tags := (s.tl t).tags
  let keep := bits tags 30 21 * 2 ^ 21
  let seq := (s.get (TL_RESULT_SEQ t) + 1) % 2 ^ 16
  s.setReg (TL_RESULT t) (BitVec.ofNat 32 (2 ^ 31 + keep + s.get (TL_SEQ_STAT_STOP_CAUSE t) * 2 ^ 16 + seq))

/-- Withdrawal of a member that stops (R47), with the tag ABSENT of its result (R124). -/
def leaveRendezvous (s : State) (t : Nat) : State :=
  let r := s.withdraw t s.count.toNat
  if r.2 then r.1.tag t 25 else r.1

end State

end Sys2Proof.Machine
end

