-- ==== Sys2Proof/Machine/Memory.lean ====
section
/-! DEFINITION. The device address space (12_links_and_memory.md, R359 to R368): regions, reads with ECC and poison, merged
writes. -/

namespace Sys2Proof.Machine

/-- The regions of R359. -/
inductive Region where
  | dram | vectorSram | context | none
  deriving DecidableEq, Repr

def regionOf (a : Nat) : Region :=
  if a < 0x400000000 then .dram else if a < 0x401000000 then .vectorSram else if a < 0x401400000 then .context else .none

/-- Bytes in the protected word an address lies in (R60, R245, R365), and the word's first address. -/
def wordBytes (a : Nat) : Nat := if regionOf a = .vectorSram then 16 else 8
def wordBase (a : Nat) : Nat := a / wordBytes a * wordBytes a

/-- First addresses of the protected words that n bytes at an address touch. -/
def wordsIn (a n : Nat) : List Nat :=
  if n = 0 then [] else (List.range ((a + n - 1) / wordBytes a - a / wordBytes a + 1)).map (fun i => wordBase a + wordBytes a * i)

/-- First addresses of the 64-byte lines that n bytes at an address touch. -/
def linesIn (a n : Nat) : List Nat := if n = 0 then [] else (List.range ((a + n - 1) / 64 - a / 64 + 1)).map (fun i => 64 * (a / 64 + i))

namespace State

/-- The stack of a DRAM address is initialised (R368). -/
def stackReady (s : State) (a : Nat) : Bool := if a < 0x200000000 then s.on GL_MEM_STAT_W_READY else s.on GL_MEM_STAT_E_READY

/-- The address answers as a region of R359; DRAM before its stack is ready does not (R360). -/
def answers (s : State) (a : Nat) : Bool :=
  match regionOf a with
  | .none => false
  | .dram => s.stackReady a
  | _ => true

/-- A read of n bytes inside one DRAM line (R365): corrected words count, a double-bit error counts a poisoned line, holds its
address and raises the group's error line (160 + s). Tells whether the line is delivered poisoned. -/
def lineCheck (s : State) (a n : Nat) : State × Bool :=
  let u := groupOf a
  let i := s.inject .dram u
  let ws := wordsIn a n
  let errs := ws.map (fun w => i.1.eccOf w (if some w = ws.head? then i.2 else 0))
  let corr := errs.countP (· == 1)
  let bad := errs.any (· == 2)
  let s1 := if corr = 0 then i.1 else (i.1.bumpBy (SH_MEM_ECC_CORR u) corr).source (1024 + 8 * u + 6)
  if !bad then (s1, false)
  else
    let s2 := ((s1.bump (SH_MEM_ECC_UNCORR u)).mark (SH_MEM_ERRADDR_VALID u)).put (SH_MEM_ERRADDR_LINE u) (a / 64)
    ((s2.source (1024 + 8 * u + 7)).raiseLine (160 + u), true)

/-- A DRAM read of n bytes, line by line: whether some of it is poisoned. -/
def dramCheck (s : State) (a n : Nat) : State × Bool :=
  (linesIn a n).foldl (fun r l =>
    let lo := max a l
    let hi := min (a + n) (l + 64)
    let q := r.1.lineCheck lo (hi - lo)
    (q.1, r.2 || q.2)) (s, false)

/-- A word of vector SRAM or of the context store is read for the host or for a merge (R360, R421): no counter follows. Tells whether it
cannot be corrected. -/
def storeCheck (s : State) (w : Nat) : State × Bool :=
  let i := if regionOf w = .vectorSram then s.inject .vectorSram ((w - 0x400000000) / 0x40000) else s.inject .context ((w - 0x401000000) / 0x40000)
  (i.1, i.1.eccOf w i.2 == 2)

/-- Mark a protected word uncorrectable, or give it fresh check bits. -/
def markUncorr (s : State) (w : Nat) (bad : Bool) : State :=
  { s with uncorr := if bad then (if s.uncorr.contains w then s.uncorr else w :: s.uncorr) else s.uncorr.filter (· != w), single := s.single.filter (· != w) }

/-- A write reaches one protected word (R360): a whole word takes fresh check bits; a part is merged, and a word that could not
be corrected stays uncorrectable; poisoned data leaves the word uncorrectable (R366). -/
def writeWord (s : State) (w : Nat) (bytes : List (Nat × Nat)) (poison : Bool) : State :=
  let here := bytes.filter (fun b => wordBase b.1 = w)
  let full := here.length = wordBytes w
  let r := if full then (s, false) else if regionOf w = .dram then s.lineCheck w 8 else s.storeCheck w
  let bad := poison || (!full && (s.uncorr.contains w || r.2))
  (here.foldl (fun s b => s.setByte b.1 (BitVec.ofNat 8 b.2)) r.1).markUncorr w bad

/-- A write of bytes at consecutive addresses, bytes not enabled being `none` (R360). Bytes outside every region are
discarded (R359). -/
def memWrite (s : State) (a : Nat) (data : List (Option Nat)) (poison : Bool) : State :=
  let bytes := (data.zip (List.range data.length)).filterMap (fun d => d.1.map (fun v => (a + d.2, v)))
  let live := bytes.filter (fun b => s.answers b.1)
  (live.map (fun b => wordBase b.1)).eraseDups.foldl (fun s w => s.writeWord w live poison) s

/-- A write of whole bytes. -/
def memPut (s : State) (a : Nat) (data : List Nat) (poison : Bool) : State := s.memWrite a (data.map some) poison

/-- n bytes at an address; addresses that do not answer read as 0. -/
def memBytes (s : State) (a n : Nat) : List Nat :=
  (List.range n).map (fun i => if s.answers (a + i) then (s.byteAt (a + i)).toNat else 0)

/-- A host read of n bytes (R360, R365, R421): the state with the counters of a DRAM read, and whether the completion is poisoned. -/
def hostRead (s : State) (a n : Nat) : State × Bool :=
  if !s.answers a then (s, false)
  else if regionOf a = .dram then s.dramCheck a n
  else (wordsIn a n).foldl (fun r w => let q := r.1.storeCheck w; (q.1, r.2 || q.2)) (s, false)

end State

end Sys2Proof.Machine
end

