-- ==== Sys2Proof/Machine/Wear.lean ====
section
/-! DEFINITION. Wear counters and the life model (11_calibration_heat_and_wear.md, R354 to R358). Counters are keyed by their
`GL_WEAR_IDX` number; the stress of a pin is kept in units of 2^-40 s (R355 keeps the fraction internally). -/

namespace Sys2Proof.Machine

/-- Largest number of n bits whose k-th power is at most m. -/
def powerRoot (k m : Nat) : Nat → Nat → Nat
  | 0, acc => acc
  | n + 1, acc => if (acc + 2 ^ n) ^ k ≤ m then powerRoot k m n (acc + 2 ^ n) else powerRoot k m n acc

/-- What level DAC k (0 VIH, 1 VIL, 2 VTT, 3 VOH, 4 VOL, 5 CLH, 6 CLL, 7 PPMU force in a voltage mode) puts out for a code, in
1/131072 V (R177). -/
def levelVolts (k code : Nat) : Int :=
  Int.ofNat (code * (if k < 3 || k = 7 then 12 else if k < 5 then 13 else 14)) - (if k = 6 then 262144 else 131072)

/-- Equivalent seconds of one millisecond, in units of 2^-40 s (R355): V is the setpoint code farthest from 0 V, T in 1/128 °C. -/
def stressStep (code : Nat) (t : Int) : Nat :=
  let v : Int := levelVolts 0 code / 2
  let n := t - 85 * 128
  let q := n / 1280
  let frac := powerRoot 1280 (2 ^ (40 * 1280 + (n % 1280).toNat)) 41 0
  let w := (v * v).toNat * frac
  let d := 25 * 2 ^ 32 * 1000
  if 0 ≤ q then w * 2 ^ q.toNat / d else w / (d * 2 ^ (-q).toNat)

/-- Rated limits of R358. -/
def ratedLimits : List Nat := [180000000, 20000, 1000000, 2000000, 100000]
def WearFig.list (f : WearFig) : List Nat := [f.stress, f.crowbars, f.hot, f.contact, f.sector]

namespace State

def wearOf (s : State) (k : Nat) : Nat := storeGet (fun _ => 0) s.wear k
def setWear (s : State) (k v : Nat) : State := { s with wear := storeSet (fun _ => 0) s.wear k v }

/-- What `GL_WEAR_DATA` shows for an index. -/
def wearShown (s : State) (k : Nat) : Nat := if k < 0x200 then min (s.wearOf k / 2 ^ 40) 0xFFFFFFFF else if k < 0x380 then s.wearOf k else 0

/-- The figures of the life model now. -/
def wearFig (s : State) : WearFig :=
  let most (b n : Nat) : Nat := (List.range n).foldl (fun m i => max m (s.wearShown (b + i))) 0
  ⟨most 0 512, most 0x200 64, most 0x240 64, (s.reg GL_WEAR_CONTACT).toNat, most 0x300 128⟩

/-- The life model (R358), evaluated after every save and every contact cycle. -/
def lifeModel (s : State) : State :=
  let f := (s.wearFig).list.zip ratedLimits
  let worst := f.foldl (fun b x => if b.1 * x.2 < x.1 * b.2 then x else b) (0, 1)
  let limit := (f.findIdx? (fun x => x.1 * worst.2 = worst.1 * x.2)).getD 0
  let lifeLeft := if worst.2 ≤ worst.1 then 0 else 10000 * (worst.2 - worst.1) / worst.2
  let old := (s.monitor.life.getLast?.getD ⟨0, 0, 0, 0, 0⟩).list
  let rates := (f.zip old).filterMap (fun x => if x.2 < x.1.1 then some ((x.1.2 - x.1.1) * 1024 / (x.1.1 - x.2)) else none)
  let left := if s.monitor.life.length < 1025 then 0xFFFFFFFF else if worst.2 ≤ worst.1 then 0 else rates.foldl min 0xFFFFFFFF
  ((s.put GL_WEAR_LIFE_LIMIT limit).put GL_WEAR_LIFE_LIFE lifeLeft).put GL_WEAR_TDLEFT_LEFT left

/-- The life model starts from the present figures: no contact cycle has been counted since power-up (R358). -/
def freshLife (s : State) : State := { s with monitor := { s.monitor with life := [s.wearFig] } }

/-- A contact cycle (R356). -/
def contactCycle (s : State) : State :=
  let s1 := s.bump GL_WEAR_CONTACT_COUNT
  ({ s1 with monitor := { s1.monitor with life := (s1.wearFig :: s1.monitor.life).take 1025 } }).lifeModel

/-- A millisecond of pin g (R355). -/
def wearAccrue (s : State) (g : Nat) : State :=
  if s.on (PN_CTRL_DRV_EN g) && s.get (PN_PPMU_CTRL_MODE g) = 0 then
    let far (a b : Nat) : Nat := if (levelVolts 0 a).natAbs < (levelVolts 0 b).natAbs then b else a
    let code := far (s.get (PN_LVL_CODE g 0)) (far (s.get (PN_LVL_CODE g 1)) (s.get (PN_LVL_CODE g 2)))
    s.setWear g (s.wearOf g + stressStep code (signed 16 (s.get (ST_TSTRIP_T (rowOf (g / 8))))))
  else s

end State

end Sys2Proof.Machine
end

