-- ==== Sys2Proof/Machine/Pins.lean ====
section
/-! DEFINITION. Pin channels (06_pin_electronics.md): timing sets, corrections, driver edges, strobes, latches, levels, safe
state; and coefficient switches (11_calibration_heat_and_wear.md, R331 to R336). -/

namespace Sys2Proof.Machine

/-- Numerator over a positive denominator, to the nearest integer, ties away from zero (R333). -/
def divAway (n : Int) (d : Nat) : Int := if 0 ≤ n then (2 * n + d) / (2 * d) else -((2 * (-n) + d) / (2 * d))

/-- First engine-cycle boundary, and first tick boundary, at or after an instant (R162, R125). -/
def ceilCycle (i : Nat) : Nat := (i + 159) / 160 * 160
def ceilTick (i : Nat) : Nat := (i + 1279) / 1280 * 1280

/-- Address of word `off` of timing set k of tiller t (R165). -/
def tsAddr (t k off : Nat) : Nat := 0x100000 + 0x8000 * t + 0x200 * k + off
/-- Address of word `off` of the block of pin p in a timing set. -/
def tsPin (t k p off : Nat) : Nat := tsAddr t k (0x100 + 0x20 * p + off)
/-- Address of the deskew word of edge e of strip pin i in band b of strip r (R24, R331). -/
def deskewAddr (r b i e : Nat) : Nat := 0x5C0000 + 0x4000 * r + 0x800 * b + 0x20 * i + 4 * e

/-- Place an edge among those of its pin: by instant, then by number (R171). -/
def placeEdge : List PlacedEdge → PlacedEdge → List PlacedEdge
  | [], e => [e]
  | a :: r, e => if e.at_ < a.at_ ∨ (e.at_ = a.at_ ∧ e.ord < a.ord) then e :: a :: r else a :: placeEdge r e

/-- Corrections stay below 3 ns (R164): a vector that issues later places no edge more than this many steps before its issue. -/
def edgeLag : Nat := 384

/-- The compare of a strobe counts and has yet to resolve (R66, R80). -/
def Strobe.isOpen (z : Strobe) : Bool := !z.masked && z.exp != .cap && !z.solved

/-- The instant at which the next compare of an issue resolves (R80); that of the whole issue where none is left. -/
def Cmp.nextAt (c : Cmp) : Nat :=
  match c.strobes.filter (·.isOpen) with
  | [] => c.waitAt
  | z :: r => r.foldl (fun m y => min m y.solveAt) z.solveAt

/-- The instant at which the first or second sample of an issue is complete (R198). DESIGN CHOICE: one without a strobe is so at the
programmed period end, since R80 speaks of whole vectors only (log entry 25). -/
def Cmp.completeAt (c : Cmp) (second : Bool) : Nat :=
  match c.strobes.filter (fun z => z.second == second) with
  | [] => c.endAt
  | z :: r => r.foldl (fun m y => max m y.ready) z.ready

/-- Change the issue of a run and index in the queue of compares. -/
def onIssue (l : List Deliver) (c : Cmp) (f : Cmp → Cmp) : List Deliver := l.map (fun d => match d with
  | .sample e => if e.run = c.run && e.vidx = c.vidx then .sample (f e) else d
  | d => d)

/-- An edge acts on the driver's two pieces of state (R169). -/
def Pin.act (x : Pin) (a : EdgeAct) : Pin :=
  match a with
  | .on => { x with enable := true }
  | .off => { x with enable := false }
  | .sel l => { x with sel := l }

/-- The edges up to an instant act, in order; with `keep` the drive states are kept for a timing loopback (R390). -/
def Pin.runTo (x : Pin) (inst : Nat) (keep : Bool) : Pin :=
  let due := x.edges.takeWhile (fun e => decide (e.at_ ≤ inst))
  let y := due.foldl (fun y e => let z := y.act e.act
    if keep then { z with wave := (e.at_, z.enable, z.sel) :: z.wave } else z) x
  { y with edges := x.edges.drop due.length }

/-- Insert a strobe and find the instant whose state each later strobe returns: one less than 40 steps after the one before
returns that one's (R174). -/
def mergeStrobes : Option (Nat × Nat) → List Nat → List (Nat × Nat)
  | _, [] => []
  | none, t :: r => (t, t) :: mergeStrobes (some (t, t)) r
  | some (p, e), t :: r => if t < p + 40 then (t, e) :: mergeStrobes (some (t, e)) r else (t, t) :: mergeStrobes (some (t, t)) r

def insertNat : List Nat → Nat → List Nat
  | [], n => [n]
  | a :: r, n => if n < a then n :: a :: r else a :: insertNat r n

/-- Strobes that return another strobe's state. -/
def mergedCount (l : List (Nat × Nat)) : Nat := (l.zip (l.drop 1)).countP (fun p => decide (p.2.1 < p.1.1 + 40))

/-- The comparator outputs at an instant: the newest change at or before it, or the present outputs when none is recorded. -/
def outputsAt (h : List CmpChange) (cur : Bool × Bool) (inst : Nat) : Bool × Bool :=
  match h.find? (fun c => decide (c.at_ ≤ inst)) with
  | some c => (c.hi, c.lo)
  | none => match h.getLast? with
    | some c => (c.hi, c.lo)
    | none => cur

/-- The pair leaves the expected region (R62, R185): CL, CH and CZ. -/
def Expect.failsOn (e : Expect) (o : Bool × Bool) : Bool :=
  match e with
  | .low => o.2
  | .high => !o.1
  | .mid => !o.2 || o.1
  | .cap => false

/-- Full scale of a PPMU range, in nA (R194). -/
def ppmuScale (range : Nat) : Nat :=
  match range with
  | 0 => 2000 | 1 => 20000 | 2 => 200000 | 3 => 2000000 | _ => 32000000

/-- What a pin's PPMU forces at the ball: a voltage in 1/131072 V, or a current out of the ball in 1/32768 nA (R191, R192). -/
inductive Forced where
  | nothing
  | volts (v : Int)
  | current (i : Int)
  deriving DecidableEq, Repr

/-- A comparator's output for an input, threshold and hysteresis in one unit: inside the band it keeps the output it has (R185). -/
def comparatorOut (threshold hysteresis input : Int) (cur : Bool) : Bool :=
  if 2 * threshold + hysteresis < 2 * input then true else if 2 * input < 2 * threshold - hysteresis then false else cur

/-- The newest of the changes that fall on one instant, of a list newest first. -/
def lastAtEach {α : Type} (at_ : α → Nat) (l : List α) : List α :=
  (l.foldl (fun m a => match m with
    | b :: _ => if at_ b = at_ a then m else a :: m
    | [] => [a]) []).reverse

namespace State

/-! ### Timing sets and corrections -/

def tsPeriod (s : State) (t k : Nat) : Nat := bits (s.reg (tsAddr t k 0)).toNat 23 0
def tsFmt (s : State) (t k p : Nat) : Nat := bits (s.reg (tsPin t k p 0)).toNat 2 0
def tsWindow (s : State) (t k p : Nat) : Bool := (s.reg (tsPin t k p 0)).toNat.testBit 3
def tsIdle (s : State) (t k p : Nat) : Nat := bits (s.reg (tsPin t k p 0)).toNat 6 4
def tsEdge (s : State) (t k p e : Nat) : Nat := bits (s.reg (tsPin t k p (4 + 4 * e))).toNat 23 0

/-- Bank in force for a tiller (R335). -/
def bankOf (s : State) (t : Nat) : Nat := b2n ((s.get (ST_CAL_TBANK_BANK (rowOf t))).testBit (colOf t))

/-- Word w of strip pin i in a bank of strip r (R332). -/
def bankWord (s : State) (r bank i w : Nat) : Nat :=
  (storeGet (fun _ => BitVec.ofNat 32 Config.factoryBank) s.banks (2048 * r + 1024 * bank + 16 * i + w)).toNat

/-- C(p, e) (R163, R333). -/
def correction (s : State) (t p e : Nat) : Int :=
  divAway (signed 16 (s.bankWord (rowOf t) (s.bankOf t) (8 * colOf t + p) e)
    + signed 16 (storeGet (fun _ => Config.factoryDeskew) (s.tl t).deskew (5 * p + e))) 16

/-- What level DAC k (0 VIH to 7 PPMU force) of a pin receives for a code (R333). -/
def levelOut (s : State) (g k code : Nat) : Nat :=
  let t := g / 8
  let w := s.bankWord (rowOf t) (s.bankOf t) (8 * colOf t + g % 8) (5 + k)
  let n : Int := (code : Int) * (2 ^ 20 + signed 16 (w / 2 ^ 16)) * 16 + signed 16 w * 2 ^ 20
  (max 0 (min 65535 (divAway n (2 ^ 24)))).toNat

/-- The strip of a tiller is held by CAL_HOLD now: the last hold that has begun rules (R37). -/
def held (s : State) (r : Nat) : Bool :=
  match (s.holds.filter (fun h => h.strip = r && decide (h.from_ ≤ s.ticks))).getLast? with
  | some h => decide (s.ticks < h.until_)
  | none => false

/-- A switch is pending for the tiller (R335). -/
def switchPending (s : State) (t : Nat) : Bool := s.fbit (ST_CAL_STAT_PEND (rowOf t)) (colOf t)

/-- What a strip's state is when no run is in progress: WAIT while it is DUE and enabled, else IDLE (R337, R346). -/
def calRest (s : State) (r : Nat) : Nat := b2n (s.on (ST_CAL_STAT_DUE r) && s.on (ST_CAL_CTRL_EN r))

/-- The tiller takes the bank, band and cache pending for it (R334); the last one ends SWITCHING (R346). -/
def switchNow (s : State) (t : Nat) : State :=
  let r := rowOf t
  let c := colOf t
  let band := s.get (ST_TSTRIP_BAND r)
  let words := (List.range 40).foldl (fun m j =>
    storeSet (fun _ => Config.factoryDeskew) m j (s.reg (deskewAddr r band (8 * c + j / 5) (j % 5))).toNat) []
  let s1 := s.setTl t { s.tl t with deskew := words, switchFrom := none }
  let s2 := s1.putBit (ST_CAL_TBANK_BANK r) c (s1.on (ST_CAL_STAT_ACT_BANK r))
  let s3 := (s2.put ⟨ST_CAL_TBANK r, 3 * c + 10, 3 * c + 8⟩ band).putBit (ST_CAL_STAT_PEND r) c false
  if s3.get (ST_CAL_STAT_PEND r) = 0 && s3.get (ST_CAL_STAT_STATE r) = 4 then s3.put (ST_CAL_STAT_STATE r) (s3.calRest r) else s3

/-- A safe point of the tiller (R334): a pending switch is taken, unless CAL_HOLD holds the strip. -/
def safePoint (s : State) (t : Nat) : State := if s.switchPending t && !s.held (rowOf t) then s.switchNow t else s

/-- A change becomes pending for a tiller (R335); IDLE, HALTED and FAULTED tillers take it at once (R334). -/
def pendSwitch (s : State) (t : Nat) : State :=
  let s1 := s.putBit (ST_CAL_STAT_PEND (rowOf t)) (colOf t) true
  let s2 := if (s1.tl t).switchFrom.isSome then s1 else s1.setTl t { s1.tl t with switchFrom := some s1.ticks }
  if s2.active t then s2 else s2.safePoint t

/-! ### Loopbacks, latches, comparators -/

/-- Loopback in force for a pin (R390, R391): 0 off, 1 L-digital, 2 L-timing, 3 L-pad. -/
def loopback (s : State) (g : Nat) : Nat :=
  if s.get (PN_CTRL_SELFTEST g) ≠ 0 then 0 else s.get (GL_PIN_LPBK_MODE (g / 8) (g % 8))

/-- The pin's edges feed its partner's timing loopback. -/
def feedsTiming (s : State) (g : Nat) : Bool := s.loopback (8 * (g / 8) + (g % 8 ^^^ 1)) = 2

/-- Count a contact cycle in the pin-driven way (R356). DESIGN CHOICE: what the comparator read before a chip reset does not count (log
entry 31). -/
def touchdown (s : State) (g : Nat) : State :=
  match (s.pin g).lowSince with
  | some a => if s.on GL_WEAR_CTRL_TD_SRC && s.get GL_WEAR_CTRL_TD_PIN = g && max a (s.power.resetAt.getD 0) + 10000000 ≤ s.ticks then s.contactCycle else s
  | none => s

/-! ### What is at the ball (R169, R177, R181, R191, R192) -/

/-- Nominal output of level DAC k of a pin, in 1/131072 V. -/
def levelOf (s : State) (g k : Nat) : Int := levelVolts k (s.get (PN_LVL_CODE g k))

/-- The ball is isolated: the pin or its partner is in L-pad loopback (R390). -/
def isolated (s : State) (g : Nat) : Bool := s.loopback g = 3 || s.loopback (8 * (g / 8) + (g % 8 ^^^ 1)) = 3

/-- The level the driver shows at the ball now: none, which is high impedance, while ENABLE is off, the driver is inhibited, the PPMU is
connected or the ball is isolated. -/
def ballDrive (s : State) (g : Nat) : Option Level :=
  let x := (s.pin g).runTo s.now false
  if x.enable && s.on (PN_CTRL_DRV_EN g) && s.get (PN_PPMU_CTRL_MODE g) = 0 && !s.isolated g then some x.sel else none

/-- The voltage behind the driver's output impedance, in 1/131072 V. -/
def driverVolts (s : State) (g : Nat) : Option Int :=
  (s.ballDrive g).map (fun l => match l with
    | .vih => s.levelOf g 0
    | .vil => s.levelOf g 1
    | .vtt => s.levelOf g 2)

/-- What the PPMU forces: nothing when it is off or in FNMV. -/
def ppmuForces (s : State) (g : Nat) : Forced :=
  let code := s.get (PN_PPMU_FORCE_CODE g)
  match s.get (PN_PPMU_CTRL_MODE g) with
  | 1 => .volts (levelVolts 7 code)
  | 2 => .current (signed 16 code * Int.ofNat (ppmuScale (s.get (PN_PPMU_CTRL_RANGE g))))
  | 3 => .volts (levelVolts 7 code)
  | _ => .nothing

/-- Deep sleep (R441). -/
def asleep (s : State) : Bool := s.get GL_PWR_STAT_STATE = 4

/-- Threshold of the high or low comparator, in 1/131072 mV: VOH or VOL; in deep sleep WATCH_THR (R185, R189). -/
def threshold (s : State) (g : Nat) (high : Bool) : Int :=
  if s.asleep then 50 * 131072 * Int.ofNat (s.get (PN_CTRL_WATCH_THR g)) else 1000 * s.levelOf g (if high then 3 else 4)

/-- Hysteresis, in 1/131072 mV (R185, R189). -/
def hysteresis (s : State) (g : Nat) : Int :=
  131072 * (if s.asleep then 40 else match s.get (PN_CTRL_HYST g) with
    | 0 => 5 | 1 => 10 | 2 => 20 | _ => 40)

/-- The voltage to which a self-check ties the comparator inputs of a pin, in 1/131072 mV (R190). -/
def tiedTo (s : State) (g : Nat) : Option Int :=
  match s.get (PN_CTRL_SELFTEST g) with
  | 2 => some 0
  | 3 => some (2500 * 131072)
  | 4 => some (1000 * s.levelOf g 0)
  | 5 => some (1000 * s.levelOf g 1)
  | _ => none

/-- The comparator inputs of a pin are exchanged (R190). -/
def swapped (s : State) (g : Nat) : Bool := s.get (PN_CTRL_SELFTEST g) = 1

/-- The latches record the comparator pair (R188); a new setting in WATCH mode is reported to the WATCH summary (R189). -/
def latch (s : State) (g : Nat) (hi lo : Bool) : State :=
  let newHi := hi && !s.on (PN_CMP_HI_SEEN g)
  let newLo := !lo && !s.on (PN_CMP_LO_SEEN g)
  let s1 := if newHi then (s.touchdown g).mark (PN_CMP_HI_SEEN g) else s
  let s2 := if newLo then s1.mark (PN_CMP_LO_SEEN g) else s1
  if (newHi || newLo) && s.get (PN_CTRL_CMP_MODE g) = 2 && s.on (PN_CTRL_WATCH_EV g) then (s2.tlSource (g / 8) 1).fireChannel (192 + g / 8) else s2

/-- Present outputs of a pin's comparators. -/
def above (s : State) (g : Nat) : Bool × Bool := (s.on (PN_CMP_ABOVE_H g), s.on (PN_CMP_ABOVE_L g))

/-- Latches of a pin clear and record from an instant on (R188); one that has cleared later than that stays as it is. -/
def latchFrom (s : State) (g inst : Nat) (high low : Bool) : State :=
  let x := s.pin g
  let hi := high && decide (x.hiFrom ≤ inst)
  let lo := low && decide (x.loFrom ≤ inst)
  let o := outputsAt x.history (s.above g) inst
  let later := x.history.filter (fun c => decide (inst < c.at_))
  let s1 := s.setPin g { x with hiFrom := if hi then inst else x.hiFrom, loFrom := if lo then inst else x.loFrom }
  let s2 := if hi then s1.put (PN_CMP_HI_SEEN g) 0 else s1
  let s3 := if lo then s2.put (PN_CMP_LO_SEEN g) 0 else s2
  s3.latch g (hi && (o.1 || later.any (·.hi))) (!lo || (o.2 && later.all (·.lo)))

/-- At the E3 of a compare vector both latches clear in PERIOD mode (R188). -/
def latchClear (s : State) (g inst : Nat) : State := if s.on (PN_CTRL_LATCH_MODE g) then s else s.latchFrom g inst true true

/-- Bring a pin up to an instant: latches clear at their strobes; those edges act that no later issue can place one before (R171). -/
def catchUp (s : State) (g inst : Nat) : State :=
  let x := (s.pin g).runTo (inst - edgeLag) (s.feedsTiming g)
  let s1 := s.setPin g { x with clears := x.clears.filter (fun c => decide (inst < c)) }
  ((s.pin g).clears.filter (fun c => decide (c ≤ inst))).foldl (fun s c => s.latchClear g c) s1

/-- The pins of a tiller, up to an instant: what their latches set at a strobe is reported (R189). -/
def tillerCatchUp (s : State) (t inst : Nat) : State := (tillerPins t).foldl (fun s g => s.catchUp g inst) s

/-- A comparator's output changes at an instant: history, present output, latches (R185, R188). -/
def setOutput (s0 : State) (g inst : Nat) (high above : Bool) : State :=
  let s := s0.catchUp g inst
  let o := s.above g
  let n : Bool × Bool := if high then (above, o.2) else (o.1, above)
  let x := s.pin g
  let base := if x.history.isEmpty then [⟨0, o.1, o.2⟩] else x.history
  let low : Option Nat := if n.1 then x.lowSince else if o.1 then some (inst / 1280) else x.lowSince
  let s1 := s.setPin g { x with history := ⟨inst, n.1, n.2⟩ :: base, lowSince := low }
  let s2 := (s1.put (PN_CMP_ABOVE_H g) (b2n n.1)).put (PN_CMP_ABOVE_L g) (b2n n.2)
  let s3 := s2.latch g n.1 n.2
  if n.1 then s3.setPin g { s3.pin g with lowSince := none } else s3

/-- A comparator that runs: in deep sleep only the high one of a pin in WATCH mode (R189). -/
def comparatorRuns (s : State) (g : Nat) (high : Bool) : Bool := !s.asleep || (high && s.get (PN_CTRL_CMP_MODE g) = 2)

/-- The ball truly crosses a comparator's band (R185): the output follows, complemented under SWAP (R190), and it is resolved (R187).
While a mode change settles, the output is held (R186); while a self-check ties the inputs, the ball is disconnected (R190). -/
def crossing (s : State) (g inst : Nat) (high above : Bool) : State :=
  if s.on (PN_STAT_MODE_SETTLING g) || (s.tiedTo g).isSome || !s.comparatorRuns g high then s
  else (s.setOutput g inst high (above != s.swapped g)).put (if high then PN_STAT_UNRES_HI g else PN_STAT_UNRES_LO g) 0

/-- The outputs of a pin take their complements: SWAP is set or cleared (R190). Held outputs stay while a mode change settles (R186), and
an unresolved comparator, whose input lies inside its band, goes on reading 0 (R187). -/
def complement (s : State) (g inst : Nat) : State :=
  if s.on (PN_STAT_MODE_SETTLING g) then s
  else
    let o := s.above g
    let s1 := if s.on (PN_STAT_UNRES_HI g) then s else s.setOutput g inst true (!o.1)
    if s.on (PN_STAT_UNRES_LO g) then s1 else s1.setOutput g inst false (!o.2)

/-- One tied comparator follows its input; a true crossing out of its band resolves it (R187, R190). -/
def followOne (s : State) (g : Nat) (high : Bool) (v : Int) : State :=
  let thr := s.threshold g high
  let h := s.hysteresis g
  let cur := if high then (s.above g).1 else (s.above g).2
  let new := comparatorOut thr h v cur
  let s1 := if new = cur then s else s.setOutput g s.now high new
  if comparatorOut thr h v false = comparatorOut thr h v true then s1.put (if high then PN_STAT_UNRES_HI g else PN_STAT_UNRES_LO g) 0 else s1

/-- The outputs of tied comparators follow a change of thresholds, hysteresis or of the tie (R185, R190). -/
def followTie (s : State) (g : Nat) : State :=
  match s.tiedTo g with
  | none => s
  | some v => if s.on (PN_STAT_MODE_SETTLING g) then s else (s.followOne g true v).followOne g false v

/-- What a comparator's input is, against its band: as the ball gives it, exchanged under SWAP, or the tie of a self-check (R190). -/
def inputOf (s : State) (g : Nat) (high : Bool) (i : CmpInput) : CmpInput :=
  match s.tiedTo g with
  | some v =>
    let h := s.hysteresis g
    let thr := s.threshold g high
    if comparatorOut thr h v false then .above else if comparatorOut thr h v true then .inside else .below
  | none => if !s.swapped g then i else match i with
    | .above => .below
    | .inside => .inside
    | .below => .above

/-- At power-up, after a mode change and at the end of a self-check, a comparator follows its input; inside the band it reads
0 and is unresolved (R187). -/
def resolveInput (s : State) (g : Nat) (high : Bool) (i0 : CmpInput) : State :=
  let i := s.inputOf g high i0
  (s.setOutput g s.now high (i == .above)).put (if high then PN_STAT_UNRES_HI g else PN_STAT_UNRES_LO g) (b2n (i == .inside))

/-! ### Safe state, levels, idle states -/

/-- A strobe still pending at an instant is dropped when its pin goes safe (R175); a sample of which none is left is not formed (R199).
DESIGN CHOICE: a window that has opened and not yet ended is pending (log entry 24). -/
def dropStrobes (s : State) (g inst : Nat) : State :=
  let x := s.cmp (g / 8)
  let keep (z : Strobe) : Bool := z.pin != g % 8 || decide (z.until_ ≤ inst)
  let gone (c : Cmp) (second : Bool) : Bool := c.strobes.any (fun z => z.second == second) && !(c.strobes.filter keep).any (fun z => z.second == second)
  let cut (d : Deliver) : List Deliver := match d with
    | .sample c =>
      if gone c false && (!c.twoSamples || gone c true) then []
      else [.sample { c with strobes := c.strobes.filter keep, twoSamples := c.twoSamples && !gone c true, sent := c.sent || gone c false }]
    | d => [d]
  s.setCmp (g / 8) { x with queue := x.queue.flatMap cut }

/-- The safe state of a pin (R184). -/
def pinSafe (s : State) (g inst : Nat) : State :=
  let s0 := if s.swapped g then (s.dropStrobes g inst).complement g inst else s.dropStrobes g inst
  let s1 := ((s0.put (PN_CTRL_DRV_EN g) 0).put (PN_CTRL_CLAMP_EN g) 0).put (PN_CTRL_SELFTEST g) 0
  let s2 := (s1.put (PN_PPMU_CTRL_MODE g) 0).put (PN_STAT_SELFTEST_ACTIVE g) (b2n (s.pin g).calPath)
  let s3 := (List.range 7).foldl (fun s k => s.setReg (PN_LVL g k) (s.safeWord (PN_LVL g k))) s2
  (s3.setReg (PN_PPMU_FORCE g) (s3.safeWord (PN_PPMU_FORCE g))).mark (PN_STAT_SAFE g)

/-- The eight pins of a tiller to their safe state. -/
def pinsSafe (s : State) (t inst : Nat) : State := (tillerPins t).foldl (fun s g => s.pinSafe g inst) s

/-- Pins, VDUT and HV of a tiller to the NVM safe codes (R88, R156). -/
def outputsSafe (s : State) (t inst : Nat) : State := (s.pinsSafe t inst).suppliesSafe t

/-- V(CLH) ≥ V(CLL) + 0.500 V for two clamp codes (R179). -/
def clampsOk (clh cll : Nat) : Bool := decide (levelVolts 6 cll + 65536 ≤ levelVolts 5 clh)

/-- What an idle state does to the driver (R176); HOLD ends a clock pulse at its return level. -/
def idleActs (idle : Nat) (dkReturn : Option Level) : List EdgeAct :=
  match idle with
  | 0 => [.off]
  | 1 => [.on, .sel .vil]
  | 2 => [.on, .sel .vih]
  | 3 => [.on, .sel .vtt]
  | _ => (dkReturn.map EdgeAct.sel).toList

/-- A pin takes the idle state of a timing set at an instant (R176), behind the edges that fall there. DESIGN CHOICE: of the IDLE
fields a set holds while its last vector runs, the one at this instant counts (log entry 24). -/
def pinIdle (s : State) (t p tset inst : Nat) : State :=
  let g := 8 * t + p
  let s1 := s.catchUp g inst
  let x := s1.pin g
  s1.setPin g { x with edges := (idleActs (s1.tsIdle t tset p) x.dkReturn).foldl (fun l a => placeEdge l ⟨inst, 5, a⟩) x.edges, dkReturn := none }

/-- The tiller's pins take the idle state of a timing set at an instant. -/
def pinsIdle (s : State) (t tset inst : Nat) : State := (List.range 8).foldl (fun s p => s.pinIdle t p tset inst) s

/-! ### Strobes -/

/-- The instants still needed of a pin's past: the earliest strobe not yet taken. -/
def neededFrom (s : State) (g inst : Nat) : Nat :=
  (s.cmp (g / 8)).queue.foldl (fun m d => match d with
    | .sample c => c.strobes.foldl (fun m z => if z.got.isNone && (z.pin == g % 8 || z.partner == some (g % 8)) then min m z.at_ else m) m
    | _ => m) inst

/-- Forget the past no strobe needs, pending or placed by a later issue, nor a clear of a latch in the present tick. -/
def prunePin (s : State) (g inst : Nat) : State :=
  let f := s.neededFrom g (inst - 2048)
  let x := s.pin g
  let cut {α : Type} (at_ : α → Nat) (l : List α) : List α :=
    l.takeWhile (fun c => decide (f < at_ c)) ++ (l.dropWhile (fun c => decide (f < at_ c))).take 1
  s.setPin g { x with history := cut (·.at_) x.history, wave := cut (·.1) x.wave, strobes := (cut (·.1) x.strobes.reverse).reverse }

/-- Place a strobe of a pin (R174): STROBE_MERGE counts the strobes that return another's state. -/
def placeStrobe (s : State) (g inst : Nat) : State :=
  let x := s.pin g
  let l := match x.strobes with
    | [] => mergeStrobes none [inst]
    | (t, e) :: r => if inst < t then mergeStrobes none (insertNat (t :: r.map (·.1)) inst) else (t, e) :: mergeStrobes (some (t, e)) (insertNat (r.map (·.1)) inst)
  (s.setPin g { x with strobes := l }).bumpBy (PN_CNT_STROBE_MERGE g) (mergedCount l - mergedCount x.strobes)

/-- A drive state as a comparator pair would see it without an analogue stage (R390): 1 reads HIGH, 0 LOW, off MID. -/
def driveShown : Bool × Level → Bool × Bool
  | (true, .vih) => (true, true)
  | (true, .vil) => (false, false)
  | _ => (false, true)

/-- The drive of a pin at an instant, as its partner's comparators see it in a timing loopback. -/
def driveSeen (s : State) (g inst : Nat) : Bool × Bool :=
  let x := (s.pin g).runTo inst true
  driveShown (match x.wave.find? (fun w => decide (w.1 ≤ inst)) with
    | some w => w.2
    | none => (x.enable, x.sel))

/-- The changes a strobe's comparators show up to an instant, newest first: of the pin's own pair, or of its partner's drive. -/
def changesSeen (s : State) (t : Nat) (z : Strobe) : List CmpChange :=
  match z.partner with
  | none => lastAtEach (·.at_) (s.pin (8 * t + z.pin)).history
  | some q => (lastAtEach (·.1) ((s.pin (8 * t + q)).runTo z.until_ true).wave).map (fun w => ⟨w.1, (driveShown w.2).1, (driveShown w.2).2⟩)

/-- Take a strobe or window (R172, R174, R197): the outputs at its instant, or at the first instant in a window at which the
pair left its region, and whether the compare fails. -/
def takeStrobe (s : State) (t : Nat) (z : Strobe) : Strobe :=
  if z.got.isSome then z
  else
    let g := 8 * t + z.pin
    let h := (s.pin g).history
    let seen (i : Nat) : Bool × Bool := match z.partner with
      | some q => s.driveSeen (8 * t + q) i
      | none => outputsAt h (s.above g) i
    if z.at_ < z.until_ then
      let first := seen z.at_
      let bad := ((s.changesSeen t z).filter (fun c => decide (z.at_ < c.at_) && decide (c.at_ ≤ z.until_) && z.exp.failsOn (c.hi, c.lo))).getLast?
      if z.exp.failsOn first then { z with got := some first, failed := true }
      else match bad with
        | some c => { z with got := some (c.hi, c.lo), failed := true }
        | none => { z with got := some first, failed := false }
    else
      let inst := match (s.pin g).strobes.find? (fun p => decide (p.1 = z.at_)) with
        | some p => p.2
        | none => z.at_
      let o := seen inst
      { z with got := some o, failed := z.exp.failsOn o }

end State

end Sys2Proof.Machine
end

