-- ==== Sys2Proof/Machine/FailFifo.lean ====
section
/-! DEFINITION. Samples and fail records (07_capture_and_fail_queues.md, R196 to R202), the fail FIFO, packets and the capture buffer's
end (R203 to R220). -/

namespace Sys2Proof.Machine

/-- A sample (R196, R197): which pins were strobed, their comparator outputs, which failed. -/
structure Sample where
  second : Bool
  strobed : Nat
  hi : Nat
  lo : Nat
  fail : Nat
  deriving DecidableEq, Repr

/-- Pins, as a mask. -/
def pinMask (f : Nat → Bool) : Nat := (List.range 8).foldl (fun m p => if f p then m + 2 ^ p else m) 0

/-- The first or second sample of an issue, its strobes taken (R197, R199). -/
def sampleOf (c : Cmp) (second : Bool) : Sample :=
  let zs := c.strobes.filter (fun z => z.second == second)
  let has (p : Nat) (f : Strobe → Bool) : Bool := zs.any (fun z => decide (z.pin = p) && f z)
  { second := second, strobed := pinMask (fun p => has p (fun _ => true)), hi := pinMask (fun p => has p (fun z => (z.got.getD (false, false)).1)), lo := pinMask (fun p => has p (fun z => (z.got.getD (false, false)).2)), fail := pinMask (fun p => has p (fun z => z.failed && !z.masked)) &&& (0xFF ^^^ c.expected) }

/-- The bits of a fail record below its flag byte (R201). -/
def failRecord (c : Cmp) (fmask : Nat) : Nat :=
  c.vidx + c.x * 2 ^ 48 + c.y * 2 ^ 68 + fmask * 2 ^ 84 + (c.tset + b2n c.inSeg * 64 + b2n c.streamed * 128) * 2 ^ 92 + c.seg * 2 ^ 100 + c.d * 2 ^ 108

namespace State

/-! ### Entering the FIFO -/

/-- Bits PHYS, UNSYNCED, CBANK and THERMAL of the flag byte, at their places in it (R202). -/
def liveFlags (s : State) (t : Nat) : Nat :=
  8 * s.get (TL_APG_CTRL_REC_PHYS t) + 16 * b2n s.unsynced + 32 * s.bankOf t + 64 * b2n (s.tl t).thermal

/-- Number of entries in the FIFO. -/
def fifoFill (s : State) (t : Nat) : Nat := (s.fq t).entries.length

/-- An entry is a packet-end record. -/
def isPacketEnd (e : Nat) : Bool := bits e 121 120 = 2

/-- Packet-end records in the FIFO, as PKTS reports them (R208). -/
def fifoPackets (s : State) (t : Nat) : Nat := min 255 ((s.fq t).entries.countP (fun e => isPacketEnd e.data))

/-- An entry enters a FIFO that has room; the fill rising to 256 fires the half-full event (R203), a packet end for the host
raises FQ_PACKET (R208). -/
def fifoPut (s : State) (t : Nat) (e : Nat) : State :=
  let x := s.fq t
  let s1 := s.setFq t { x with entries := x.entries ++ [⟨e, false⟩] }
  let s2 := if x.entries.length = 255 then s1.localSource t 5 else s1
  if isPacketEnd e && s2.on (TL_FQ_STAT_DEST_NOW t) then s2.tlSource t 2 else s2

/-- A dropped record opens or extends the drop run (R204): `fail` tells a fail record from a packet end. -/
def dropRecord (s : State) (t vidx : Nat) (fail : Bool) (flags : Nat) : State :=
  let x := s.fq t
  let r := match x.run with
    | none => if fail then ⟨vidx, vidx, 1, 0, vidx, flags⟩ else ⟨vidx, vidx, 0, 1, vidx, flags⟩
    | some r => if fail then { r with first := if r.dropped = 0 then vidx else r.first, last := vidx, dropped := min (r.dropped + 1) 0xFFFFFF } else { r with skipped := min (r.skipped + 1) 0xFFFF }
  let s1 := (s.setFq t { x with run := some r, dropped := true }).mark (TL_FQ_STAT_RUN_OPEN t)
  let s2 := if s1.on (TL_FQ_STAT_OVERFLOW t) then s1 else (s1.mark (TL_FQ_STAT_OVERFLOW t)).tlSource t 3
  if fail then s2.bump (TL_FQ_CNT_DROPPED t) else s2

/-- A record arises: it enters, or is dropped while the FIFO holds 512 entries (R204). The flags of a run are those at its first drop
(R202, R205): a fail record's own, which forms there, or for a packet end those of the present. -/
def fifoOffer (s : State) (t e vidx : Nat) (fail : Bool) : State :=
  if s.fifoFill t < 512 then s.fifoPut t e else s.dropRecord t vidx fail (if fail then bits e 127 120 else s.liveFlags t)

/-- The issue with the address its records carry: physical with REC_PHYS as it stands when they form (R108, R201, R202). -/
def addressed (s : State) (t : Nat) (c : Cmp) : Cmp := if s.on (TL_APG_CTRL_REC_PHYS t) then { c with x := c.px, y := c.py } else c

/-- A fail record arises (R200 to R202). In a flushed packet the failing vector counts and forms none (R207, R209). -/
def formRecord (s : State) (t : Nat) (c : Cmp) : State :=
  let f0 := (sampleOf c false).fail
  let f1 := (sampleOf c true).fail
  if f0 ||| f1 = 0 then s
  else if c.flushed then s.setFq t { s.fq t with fails := (s.fq t).fails + 1 }
  else
    let flags := 4 * b2n (f1 ≠ 0) + 8 * s.get (TL_APG_CTRL_REC_PHYS t) + 16 * b2n s.unsynced + 32 * c.cbank + 64 * b2n (s.tl t).thermal
    let s1 := (s.bump (TL_FQ_RECS_RECS t)).setFq t { s.fq t with fails := (s.fq t).fails + 1 }
    s1.fifoOffer t (failRecord c (f0 ||| f1) + flags * 2 ^ 120) c.vidx true

/-- A slot has freed: the drop run closes with a chaff marker (R205). -/
def fifoFreed (s : State) (t : Nat) : State :=
  let x := s.fq t
  match x.run with
  | none => s
  | some r =>
    let first := if r.dropped = 0 then r.firstSkipped else r.first
    let span := if r.dropped = 0 then 0 else min ((r.last + 2 ^ 48 - r.first) % 2 ^ 48) 0xFFFFFFFF
    let flags := r.flags / 8 * 8 + 1
    let e := first + span * 2 ^ 48 + r.dropped * 2 ^ 80 + r.skipped * 2 ^ 104 + flags * 2 ^ 120
    (((s.setFq t { x with run := none }).put (TL_FQ_STAT_RUN_OPEN t) 0).bump (TL_FQ_CNT_CHAFFS t)).fifoPut t e

/-- The oldest entry leaves the FIFO: its data and whether its parity is bad, which sets POISON and raises the capture block's
line (R212); the freed slot is filled first (R205). -/
def fifoTake (s : State) (t : Nat) : State × Option Entry :=
  match (s.fq t).entries with
  | [] => (s, none)
  | e :: r =>
    let i := s.inject .failFifo t
    let bad := e.poison || i.2 % 16 ≠ 0
    let s1 := (i.1.setFq t { i.1.fq t with entries := r }).routeTaken t
    let s2 := if bad then (s1.mark (TL_FQ_STAT_POISON t)).raiseLine t else s1
    (s2.fifoFreed t, some ⟨e.data, bad⟩)

/-! ### Packets -/

/-- Empty the FIFO and the drop run, forget a pending flush or DEST change (R214). -/
def fifoEmpty (s : State) (t : Nat) : State :=
  ((s.setFq t { s.fq t with entries := [], run := none, fails := 0, dropped := false }).put (TL_FQ_STAT_RUN_OPEN t) 0).routeEmptied t

/-- The consumer that comes into force behind the record of a flush still to enter (R211). -/
def boundDest (s : State) (t : Nat) : Option Nat :=
  ((s.cmp t).queue.filterMap (fun d => match d with
    | .packetEnd p => p.dest
    | _ => none)).getLast?

/-- A change of DEST that waits applies (R211); one that waits behind the record of a flush does so there. -/
def applyDest (s : State) (t : Nat) : State :=
  if s.on (TL_FQ_STAT_DEST_PEND t) && s.boundDest t ≠ some (s.get (TL_FQ_CTRL_DEST t)) then
    (s.put (TL_FQ_STAT_DEST_NOW t) (s.get (TL_FQ_CTRL_DEST t))).put (TL_FQ_STAT_DEST_PEND t) 0
  else s

/-- Behind the record of a flush its change of DEST applies; a later one goes on waiting (R211). -/
def applyBound (s : State) (t : Nat) (dest : Option Nat) : State :=
  match dest with
  | some d =>
    if s.on (TL_FQ_STAT_DEST_PEND t) then (s.put (TL_FQ_STAT_DEST_NOW t) d).put (TL_FQ_STAT_DEST_PEND t) (b2n (s.get (TL_FQ_CTRL_DEST t) ≠ d)) else s
  | none => s

/-- The packet-end record (R207). -/
def packetRecord (p : PktEnd) (fails : Nat) : Nat :=
  p.vidx + bits p.pass 31 0 * 2 ^ 48 + p.seg * 2 ^ 80 + p.reason * 2 ^ 88 + b2n p.flushed * 2 ^ 91 + min fails 0xFFFFFFF * 2 ^ 92
    + (p.flags + 2) * 2 ^ 120

/-- The packet end arises (R207): with PKT_MODE NONEMPTY a clean packet that was not flushed ends without a record. A change of
DEST at the same packet end as a flush applies when the flush's record is in the FIFO (R211). A packet that a flush of the stopped
tiller has emptied ended with that flush's record (R210). -/
def endPacket (s : State) (t : Nat) (p : PktEnd) : State :=
  let x := s.fq t
  let silent := p.gone || (s.on (TL_FQ_CTRL_PKT_MODE t) && x.fails = 0 && !x.dropped && !p.flushed)
  let s1 := if silent then s else s.fifoOffer t (packetRecord p x.fails) p.vidx false
  let s2 := (s1.setFq t { s1.fq t with fails := 0, dropped := false }).routeBoundary t
  s2.applyBound t p.dest

/-! ### End of an acquisition (R218, R220) -/

/-- The pre-trigger ring becomes the first entries of the acquisition: the most recent PRE samples (R217, R218). -/
def closeRing (s : State) (t : Nat) : State :=
  let l := (s.cap t).entries
  let k := l.drop (l.length - s.get (TL_CAP_LEN_PRE t))
  (s.setCap t { s.cap t with entries := k }).put (TL_CAP_STAT_PRE_GOT t) k.length

/-- The acquisition ends and enters DONE for a cause of R218. One that ends while ARMED keeps its ring. -/
def endAcquisition (s : State) (t why : Nat) : State :=
  let st := s.get (TL_CAP_STAT_STATE t)
  if st ≠ 1 && st ≠ 2 then s
  else
    let s1 := if st = 1 then s.closeRing t else s
    let s2 := s1.setCap t { s1.cap t with doneAt := some s1.ticks }
    (((s2.put (TL_CAP_STAT_STATE t) 3).put (TL_CAP_STAT_END_WHY t) why).bump (TL_CAP_CNT_ACQS t)).tlSource t 4

/-- ARM in IDLE or DONE (R216, R220). -/
def armCapture (s : State) (t : Nat) : State :=
  let x := s.cap t
  let s1 := match x.doneAt with
    | none => s
    | some a =>
      let d := min (s.ticks - a) 0xFFFFFFFF
      (s.put (TL_CAP_DEAD_LAST_TICKS t) d).put (TL_CAP_DEAD_MAX_TICKS t) (max (s.get (TL_CAP_DEAD_MAX_TICKS t)) d)
  let s2 := ((s1.put (TL_CAP_STAT_TRUNC t) 0).put (TL_CAP_STAT_END_WHY t) 0).put (TL_CAP_STAT_PRE_GOT t) 0
  let s3 := (s2.setReg (TL_TRIG_STATUS t) 0).put (TL_FLAGS_TRIG t) 0
  (s3.setCap t { x with entries := [], stored := 0, post := 0, counts := [], spent := 0, doneAt := none, serial := x.serial + 1 }).put (TL_CAP_STAT_STATE t) 1

/-- A DONE acquisition without unread entries re-arms itself while AUTO = 1 (R220). -/
def autoRearm (s : State) (t : Nat) : State :=
  if s.on (TL_CAP_CTRL_AUTO t) && s.get (TL_CAP_STAT_STATE t) = 3 && (s.cap t).entries.isEmpty then s.armCapture t else s

/-! ### Boundaries that wait behind samples -/

/-- A boundary whose turn has come. A stop ends the acquisition that was in force at it (R218). -/
def boundaryNow (s : State) (t : Nat) : Deliver → State
  | .packetEnd p => s.endPacket t p
  | .tillerStop acq => if (s.cap t).serial = acq then (s.endAcquisition t 5).autoRearm t else s
  | .sample _ => s

/-- An issue that forms no sample (R196). -/
def noSample : Deliver → Bool
  | .sample c => !c.capture
  | _ => false

/-- The element whose turn is next in the order of delivery, and the queue without it: issues that form no sample hold up nothing
(R198, R207). -/
def nextTurn (l : List Deliver) : Option (Deliver × List Deliver) :=
  match l.dropWhile noSample with
  | [] => none
  | d :: r => some (d, l.takeWhile noSample ++ r)

/-- Issues that form no sample leave the queue once their compares have resolved. -/
def dropResolved (s : State) (t : Nat) : State :=
  s.setCmp t { s.cmp t with queue := (s.cmp t).queue.filter (fun d => match d with
    | .sample c => c.capture || !c.resolved
    | _ => true) }

/-- Boundaries take their turn (R207, R218), and so does an issue whose first sample has been delivered and whose second is not formed
(R199). -/
def drain (s : State) (t : Nat) : Nat → State
  | 0 => s
  | n + 1 => match nextTurn (s.cmp t).queue with
    | none => s
    | some (.sample c, r) =>
      if c.sent && !c.twoSamples then ((s.setCmp t { s.cmp t with queue := r }).formRecord t (s.addressed t c)).drain t n else s
    | some (d, r) => ((s.setCmp t { s.cmp t with queue := r }).boundaryNow t d).drain t n

/-- Take every turn that has come. -/
def drainAll (s : State) (t : Nat) : State := (s.dropResolved t).drain t (s.cmp t).queue.length

/-- A boundary enters the queue. -/
def addBoundary (s : State) (t : Nat) (d : Deliver) : State :=
  (s.setCmp t { s.cmp t with queue := (s.cmp t).queue ++ [d] }).drainAll t

/-- The samples behind the last packet end of a queue, which are the ending packet's, form no fail record (R209). -/
def flushSamples : List Deliver → List Deliver
  | [] => []
  | .sample c :: r =>
    let behind := r.any (fun d => match d with
      | .packetEnd _ => true
      | _ => false)
    .sample { c with flushed := !behind || c.flushed } :: flushSamples r
  | d :: r => d :: flushSamples r

/-- The FIFO's entries and the drop run are discarded by a flush (R209, R210). -/
def fifoDiscard (s : State) (t : Nat) : State :=
  ((s.setFq t { s.fq t with entries := [], run := none }).put (TL_FQ_STAT_RUN_OPEN t) 0).routeEmptied t |>.settleRoute t

/-- A packet boundary (R206, R207): nothing for a packet that has issued no vector. A pending flush acts here: the FIFO, the
drop run and the packet's records still to be formed are discarded, and the packet's one record will be FLUSHED (R209); a
pending change of DEST applies here, or behind that record (R211). A move between threshers takes effect behind the packet's
record (R231). -/
def packetBoundary (s : State) (t reason : Nat) : State :=
  let x := s.cmp t
  if !x.pktOpen then s
  else
    let inSeg := s.on (TL_SEQ_STAT_INSEG t)
    let flush := s.on (TL_FQ_STAT_FLUSH_PEND t)
    let dest := if flush && s.on (TL_FQ_STAT_DEST_PEND t) then some (s.get (TL_FQ_CTRL_DEST t)) else none
    let p : PktEnd := ⟨x.pktVidx, if inSeg then (s.reg (TL_SEG_PASS t)).toNat else 0, if inSeg then s.get (TL_PC_SEG t) else 0, reason, s.liveFlags t, flush, dest, false⟩
    let s1 := s.setCmp t { x with pktOpen := false, queue := if flush then flushSamples x.queue else x.queue }
    if flush then ((s1.fifoDiscard t).put (TL_FQ_STAT_FLUSH_PEND t) 0).addBoundary t (.packetEnd p)
    else (s1.addBoundary t (.packetEnd p)).applyDest t

/-- A packet still to be delivered is emptied by a flush: its samples form no fail record and its end writes none (R210). -/
def discardPacket : Deliver → Deliver
  | .sample c => .sample { c with flushed := true }
  | .packetEnd p => .packetEnd { p with gone := true }
  | d => d

/-- The tiller is IDLE, HALTED or FAULTED: a flush acts at once (R210). DEDUCED: what is still to be delivered of its last packet falls to
the flush too, so that no part of that packet follows its record (log entry 25). -/
def flushNow (s : State) (t : Nat) : State :=
  let p : PktEnd := ⟨2 ^ 48 - 1, 0, 0, 7, s.liveFlags t, true, none, false⟩
  let s1 := s.setCmp t { s.cmp t with queue := (s.cmp t).queue.map discardPacket }
  ((s1.put (TL_FQ_STAT_FLUSH_PEND t) 0).fifoDiscard t).fifoPut t (packetRecord p 0)

/-- The packet under way ends where the tiller stops (R206). With none under way, a flush and a change of DEST that wait for a packet
end act at once in the stopped tiller, the flush first (R210, R211). -/
def stopBoundary (s : State) (t reason : Nat) : State :=
  if (s.cmp t).pktOpen then s.packetBoundary t reason
  else (if s.on (TL_FQ_STAT_FLUSH_PEND t) then s.flushNow t else s).applyDest t

/-- A write of FLUSH (R209, R210), and a write that changes DEST (R211). -/
def requestFlush (s : State) (t : Nat) : State := if s.active t then s.mark (TL_FQ_STAT_FLUSH_PEND t) else s.flushNow t
def writeDest (s : State) (t dest : Nat) : State :=
  let s1 := s.put (TL_FQ_CTRL_DEST t) dest
  let now := s1.get (TL_FQ_STAT_DEST_NOW t)
  if (s1.boundDest t).getD now = dest then s1.put (TL_FQ_STAT_DEST_PEND t) (b2n (now ≠ dest))
  else if s1.active t then s1.mark (TL_FQ_STAT_DEST_PEND t)
  else (s1.put (TL_FQ_STAT_DEST_NOW t) dest).put (TL_FQ_STAT_DEST_PEND t) 0

/-! ### Host reads (R213, R219, R228) -/

/-- A read of `TL_FQ_RD0`. -/
def fifoRead (s : State) (t : Nat) : State × Nat :=
  let hold := (s.fq t).hold
  if !s.on (TL_FQ_STAT_DEST_NOW t) then (s.mark (TL_FQ_STAT_RD_DENIED t), word32 hold 0)
  else match s.fifoTake t with
    | (s1, none) => ((s1.mark (TL_FQ_STAT_UNDERRUN t)).mark (TL_FQ_RDTAG_STALE t), word32 hold 0)
    | (s1, some e) =>
      let s2 := (((s1.settleRoute t).setFq t { s1.fq t with hold := e.data })).put (TL_FQ_RDTAG_STALE t) 0
      ((s2.put (TL_FQ_RDTAG_POISON t) (b2n e.poison)).put (TL_FQ_RDTAG_LEFT t) (s2.fifoFill t), word32 e.data 0)

/-- A read of `TL_CAP_RD0`. -/
def captureRead (s : State) (t : Nat) : State × Nat :=
  let x := s.cap t
  match s.get (TL_CAP_STAT_STATE t), x.entries with
  | 3, e :: r =>
    let i := s.inject .capture t
    let bad := e.poison || i.2 % 16 ≠ 0
    let s1 := (i.1.setCap t { x with entries := r, hold := e.data }).put (TL_CAP_RDTAG_STALE t) 0
    let s2 := (s1.put (TL_CAP_RDTAG_POISON t) (b2n bad)).put (TL_CAP_RDTAG_LEFT t) r.length
    let s3 := if bad then (s2.mark (TL_CAP_STAT_POISON t)).raiseLine t else s2
    (s3.autoRearm t, word32 e.data 0)
  | _, _ => ((s.mark (TL_CAP_STAT_UNDERRUN t)).mark (TL_CAP_RDTAG_STALE t), word32 x.hold 0)

end State

end Sys2Proof.Machine
end

