-- ==== Sys2Proof/Machine/Apg.lean ====
section
/-! DEFINITION. The algorithmic pattern generator (04_tiller_flow_and_apg.md, R96 to R111): address operations, loads, data
operations, scrambler and topology. -/

namespace Sys2Proof.Machine

/-- Address of scrambler entry i and of topology entry i of tiller t (R24, R106, R107). -/
def scramblerAddr (t i : Nat) : Nat := 0x340000 + 0x8000 * t + 4 * i
def topologyAddr (t i : Nat) : Nat := 0x340000 + 0x8000 * t + 0x4000 + 4 * i

/-- The other generator. -/
def otherGen : Gen → Gen
  | .x => .y
  | .y => .x

/-- Field of a generator's value, limit and carry flag. -/
def genValue (t : Nat) : Gen → Field
  | .x => TL_APG_X_X t
  | .y => TL_APG_Y_Y t
def genLimit (t : Nat) : Gen → Field
  | .x => TL_APG_XMAX_XMAX t
  | .y => TL_APG_YMAX_YMAX t
def genCarry (t : Nat) : Gen → Field
  | .x => TL_FLAGS_XCARRY t
  | .y => TL_FLAGS_YCARRY t

/-- The byte of XOP or YOP (R98). -/
structure AddrOp where
  op : Nat
  n : Nat
  chain : Bool
  deriving DecidableEq, Repr

def addrOpOf (b : Nat) : AddrOp := ⟨b % 8, bits b 4 3, b.testBit 5⟩

/-- XOP or YOP is a legal encoding (R98). -/
def addrOpOk (b : Nat) : Bool :=
  let o := addrOpOf b
  bits b 7 6 = 0 && (o.n = 0 || o.op = 4 || o.op = 5 || o.op = 6) && (!o.chain || o.op = 1 || o.op = 2 || o.op = 5)

/-- DOP is a legal encoding (R104). -/
def dataOpOk (b : Nat) : Bool :=
  bits b 7 6 = 0 && b % 16 ≤ 9 && (bits b 5 4 = 0 || !(b % 16 = 0 || b % 16 = 1 || b % 16 = 7 || b % 16 = 8 || b % 16 = 9))

/-- A 32-bit word of ones for 1 (R104). -/
def spread (b : Bool) : Nat := if b then 0xFFFFFFFF else 0

namespace State

/-- What a generator reads of an index register: Y reads bits [15:0] (R99). -/
def indexFor (s : State) (t : Nat) (g : Gen) (n : Nat) : Nat :=
  match g with
  | .x => s.get (TL_APG_I_I t n)
  | .y => s.get (TL_APG_I_I t n) % 2 ^ 16

/-- New value of an address operation and its carry, if it writes one (R99): A the value, M the limit, v the index register. -/
def addrResult (op a m v : Nat) : Nat × Option Bool :=
  match op with
  | 1 => ((a + 1) % (m + 1), some (a = m))
  | 2 => (if a = 0 then m else (a - 1) % (m + 1), some (a = 0))
  | 3 => (((m : Int) - a) % ((m : Int) + 1) |>.toNat, some false)
  | 4 => (v % (m + 1), some false)
  | 5 => ((a + v) % (m + 1), some (m < a + v))
  | 7 => (0, some false)
  | _ => (a % (m + 1), none)

/-- One operation of a generator without its chain; tells the carry it produced. -/
def genStep (s : State) (t : Nat) (g : Gen) (op v : Nat) : State × Bool :=
  let r := addrResult op (s.get (genValue t g)) (s.get (genLimit t g)) v
  let s1 := s.put (genValue t g) r.1
  match r.2 with
  | some c => (s1.put (genCarry t g) (b2n c), c)
  | none => (s1, false)

/-- An address operation (R99) with its chained step (R100); SAVI also writes the index register. -/
def addrOp (s : State) (t : Nat) (g : Gen) (o : AddrOp) : State :=
  let r := s.genStep t g o.op (s.indexFor t g o.n)
  let s1 := if o.op = 6 then r.1.put (TL_APG_I_I t o.n) (r.1.get (genValue t g)) else r.1
  if o.chain && r.2 then (s1.genStep t (otherGen g) (if o.op = 2 then 2 else 1) 0).1 else s1

/-! ### Physical address and data (R106, R107) -/

/-- PX and PY of the address in force. -/
def physical (s : State) (t : Nat) : Nat × Nat :=
  let x := s.get (TL_APG_X_X t)
  let y := s.get (TL_APG_Y_Y t)
  if s.on (TL_APG_CTRL_SCR_EN t) then
    let e := (s.reg (scramblerAddr t (x % 4096))).toNat
    (x / 4096 * 4096 + e % 4096, y ^^^ bits e 27 12)
  else (x, y)

/-- The bit a topology select chooses (R107). -/
def topoBit (p : Nat × Nat) (sel : Nat) : Bool :=
  if sel ≤ 19 then p.1.testBit sel else if 32 ≤ sel ∧ sel ≤ 47 then p.2.testBit (sel - 32) else false

/-- The data AD and AE see (R107). -/
def dataSeen (s : State) (t : Nat) : Nat :=
  let d := s.get (TL_APG_D_D t)
  if s.on (TL_APG_CTRL_TOPO_EN t) then
    let p := s.physical t
    let i := b2n (topoBit p (s.get (TL_APG_TSEL_SEL0 t))) + 2 * b2n (topoBit p (s.get (TL_APG_TSEL_SEL1 t)))
      + 4 * b2n (topoBit p (s.get (TL_APG_TSEL_SEL2 t))) + 8 * b2n (topoBit p (s.get (TL_APG_TSEL_SEL3 t)))
    d ^^^ (s.reg (topologyAddr t i)).toNat
  else d

/-- New D of a data operation (R104), the address being the one in force for the next issue. -/
def dataResult (s : State) (t op n : Nat) : Nat :=
  let d := s.get (TL_APG_D_D t)
  let b := s.get (TL_APG_BG_BG t n)
  let p := s.physical t
  match op with
  | 1 => 0xFFFFFFFF ^^^ d
  | 2 => b
  | 3 => 0xFFFFFFFF ^^^ b
  | 4 => b ^^^ spread (p.1.testBit 0 != p.2.testBit 0)
  | 5 => b ^^^ spread (parity 20 (p.1 &&& s.get (TL_APG_DXM_DXM t)) != parity 16 (p.2 &&& s.get (TL_APG_DYM_DYM t)))
  | 6 => d ^^^ b
  | 7 => d * 2 % 2 ^ 32 + d / 2 ^ 31
  | 8 => d / 2 + d % 2 * 2 ^ 31
  | 9 => p.2 % 2 ^ 16 * 2 ^ 16 + p.1 % 2 ^ 16
  | _ => d

def dataOp (s : State) (t op n : Nat) : State := s.put (TL_APG_D_D t) (s.dataResult t op n)

/-! ### Loads (R102) -/

/-- SETX, SETY. -/
def loadAddr (s : State) (t : Nat) (g : Gen) (opd : Nat) : State :=
  let v := match g with
    | .x => bits opd 19 0
    | .y => bits opd 15 0
  if opd.testBit 31 then (s.put (genLimit t g) v).put (genValue t g) (s.get (genValue t g) % (v + 1))
  else s.put (genValue t g) (v % (s.get (genLimit t g) + 1))

/-- SETD and SETI. -/
def loadData (s : State) (t opd : Nat) : State := s.put (TL_APG_D_D t) opd
def loadIndex (s : State) (t opd : Nat) : State := s.put (TL_APG_I_I t (bits opd 31 30)) (bits opd 19 0)

/-- The APG update of an issue (R58 step 5, R97): both address operations from the values before the issue, the load of the
opcode, then the data operation on the new address. Index reads see the values from before the issue (R103). DESIGN CHOICE: of an
address above its limit, the HOLD of a generator that is then stepped by the chain, or whose limit SETX or SETY then lowers,
reduces it first, by the old limit (log entry 21). -/
def apgStep (s : State) (t : Nat) (v : Vec) : State :=
  let ox := addrOpOf v.xop
  let oy := addrOpOf v.yop
  let ix := s.indexFor t .x ox.n
  let iy := s.indexFor t .y oy.n
  let rx := s.genStep t .x ox.op ix
  let ry := rx.1.genStep t .y oy.op iy
  let s1 := if ox.chain && rx.2 then (ry.1.genStep t .y (if ox.op = 2 then 2 else 1) 0).1
    else if oy.chain && ry.2 then (ry.1.genStep t .x (if oy.op = 2 then 2 else 1) 0).1 else ry.1
  let s2 := if ox.op = 6 then s1.put (TL_APG_I_I t ox.n) (s1.get (TL_APG_X_X t)) else s1
  let s3 := if oy.op = 6 then s2.put (TL_APG_I_I t oy.n) (s2.get (TL_APG_Y_Y t)) else s2
  let s4 := match v.opc with
    | 0x30 => s3.loadAddr t .x v.opd
    | 0x31 => s3.loadAddr t .y v.opd
    | 0x32 => s3.loadData t v.opd
    | 0x33 => s3.loadIndex t v.opd
    | _ => s3
  if v.opc = 0x32 then s4 else s4.dataOp t (v.dop % 16) (bits v.dop 5 4)

/-! ### Host access (R109) -/

/-- Address and the writable fields of a guarded register. -/
def apgAddr (t : Nat) : ApgReg → Nat
  | .ctrl => TL_APG_CTRL t
  | .x => TL_APG_X t
  | .y => TL_APG_Y t
  | .d => TL_APG_D t
  | .xmax => TL_APG_XMAX t
  | .ymax => TL_APG_YMAX t
  | .index n => TL_APG_I t n
  | .bg n => TL_APG_BG t n
  | .dxm => TL_APG_DXM t
  | .dym => TL_APG_DYM t
  | .tsel => TL_APG_TSEL t

/-- The bits of a guarded register that a write sets. -/
def apgMask : ApgReg → Nat
  | .ctrl => 7
  | .x => 0xFFFFF | .xmax => 0xFFFFF | .index _ => 0xFFFFF | .dxm => 0xFFFFF
  | .y => 0xFFFF | .ymax => 0xFFFF | .dym => 0xFFFF
  | .d => 0xFFFFFFFF | .bg _ => 0xFFFFFFFF
  | .tsel => 0x3F3F3F3F

/-- The tiller is RUNNING or STALLED: guarded writes are ignored. -/
def guarded (s : State) (t : Nat) : Bool := s.get (TL_SEQ_STAT_STATE t) = 1 || s.get (TL_SEQ_STAT_STATE t) = 3

/-- A host write of a guarded APG register (R109). -/
def apgWrite (s : State) (t : Nat) (r : ApgReg) (w : Nat) : State :=
  match r with
  | .ctrl =>
    let old := (s.reg (TL_APG_CTRL t)).toNat
    let s1 := if w.testBit 31 then s.put (TL_APG_CTRL_WR_BUSY t) 0 else s
    if w % 8 = old % 8 then s1
    else if s.guarded t then s1.mark (TL_APG_CTRL_WR_BUSY t)
    else s1.put ⟨TL_APG_CTRL t, 2, 0⟩ w
  | r =>
    if s.guarded t then s.mark (TL_APG_CTRL_WR_BUSY t) else s.setReg (apgAddr t r) (BitVec.ofNat 32 (w &&& apgMask r))

end State

end Sys2Proof.Machine
end

