-- ==== Sys2Proof/Machine/Segments.lean ====
section
/-! DEFINITION. Segment descriptors, their checks, primes and the fetch engine (05_segments_and_streaming.md). -/

namespace Sys2Proof.Machine

namespace SegDesc
def start (d : SegDesc) : Nat := d.w0 % 2 ^ 14
def address (d : SegDesc) : Nat := d.w0 + d.w1 % 4 * 2 ^ 32
def length (d : SegDesc) : Nat := d.w2
def passes (d : SegDesc) : Nat := d.w3
def next (d : SegDesc) : Nat := bits d.w4 7 0
def link (d : SegDesc) : Nat := bits d.w4 9 8
def haltCode (d : SegDesc) : Nat := bits d.w4 31 16
def streamed (d : SegDesc) : Bool := d.w5.testBit 0
def stallOk (d : SegDesc) : Bool := d.w5.testBit 1
def safeBoundary (d : SegDesc) : Bool := d.w5.testBit 2
def calgap (d : SegDesc) : Bool := d.w5.testBit 3
def valid (d : SegDesc) : Bool := d.w5.testBit 7
def brkSel (d : SegDesc) : Nat := bits d.w5 10 8
def tset (d : SegDesc) : Nat := bits d.w6 5 0
def topc (d : SegDesc) : Nat := bits d.w7 7 0
def tcnd (d : SegDesc) : Nat := bits d.w7 15 8
def topd (d : SegDesc) : Nat := bits d.w7 31 16
/-- A segment of vectors in DRAM: a gap segment is checked as a gap whatever its STREAMED bit holds (R147). -/
def isStream (d : SegDesc) : Bool := d.streamed && !d.calgap
/-- A segment of vectors in SRAM. -/
def isSram (d : SegDesc) : Bool := !d.streamed && !d.calgap
end SegDesc

/-- The condition byte is allowed for an opcode (R68, R79, R125, R130). -/
def condOk (opc cnd : Nat) : Bool :=
  let src := bits cnd 5 3
  let sel := cnd % 8
  let clr := cnd.testBit 6
  let nowait := cnd.testBit 7
  match opc with
  | 0x10 | 0x11 | 0x14 | 0x15 =>
    (src = 0 && sel = 0 && !clr && !nowait) || (src = 1 && !clr) || src = 2 || (src = 4 && !nowait && (!clr || 1 ≤ sel))
  | 0x12 | 0x40 => src = 3 && !nowait && !clr
  | 0x13 => src = 1 && !nowait && !clr
  | _ => cnd = 0

/-- XOP and YOP do not chain against an operation of the other generator (R100). -/
def chainOk (xop yop : Nat) : Bool :=
  (!(addrOpOf xop).chain || (addrOpOf yop).op = 0) && (!(addrOpOf yop).chain || (addrOpOf xop).op = 0)

/-- SAVI of both generators names two registers (R103). -/
def savesOk (xop yop : Nat) : Bool :=
  !((addrOpOf xop).op = 6 && (addrOpOf yop).op = 6 && (addrOpOf xop).n = (addrOpOf yop).n)

/-- The tail control is allowed (R150), with its condition and its 16-bit operand (R68, R79). -/
def tailOk (d : SegDesc) : Bool :=
  condOk d.topc d.tcnd && match d.topc with
    | 0x00 => d.topd = 0
    | 0x08 | 0x09 => d.topd < 256
    | 0x0B | 0x07 => true
    | 0x04 | 0x10 | 0x11 | 0x12 => d.topd < 0x4000
    | _ => false

/-- The header of a streamed segment holds operations that R98, R100 and R104 allow. -/
def headerOk (d : SegDesc) : Bool :=
  addrOpOk (bits d.w6 15 8) && addrOpOk (bits d.w6 23 16) && dataOpOk (bits d.w6 31 24) && chainOk (bits d.w6 15 8) (bits d.w6 23 16)

/-- The descriptor checks in their order (R147): 0, or the cause. -/
def descCause (d : SegDesc) : Nat :=
  if !d.valid then 0x20
  else if (if d.calgap then decide (0xFFFFFF < d.length) else d.length = 0 || (!d.streamed && decide (16384 < d.start + d.length))) then 0x21
  else if d.isStream && decide (0x400000000 < d.address + 4 * d.length) then 0x22
  else if d.isStream && d.address % 64 ≠ 0 then 0x23
  else if 4 ≤ d.w1 || (!d.isStream && d.w1 ≠ 0) || (d.isSram && 2 ^ 14 ≤ d.w0) || (d.calgap && d.w0 ≠ 0) || bits d.w4 15 10 ≠ 0
      || bits d.w5 6 4 ≠ 0 || bits d.w5 31 11 ≠ 0 || d.link = 3 || (d.haltCode ≠ 0 && d.link ≠ 2) || (d.calgap && (d.streamed || d.stallOk))
      || (d.stallOk && !d.streamed) || (d.calgap && d.passes ≠ 1) then 0x24
  else if (d.isSram && (d.w6 ≠ 0 || d.w7 ≠ 0)) || (d.calgap && (64 ≤ d.w6 || d.w7 ≠ 0)) || (d.isStream && !headerOk d) then 0x25
  else if d.isStream && !tailOk d then 0x26
  else 0

/-- Address of word i of descriptor n of tiller t (R138). -/
def segAddr (t n i : Nat) : Nat := 0x540000 + 0x2000 * t + 32 * n + 4 * i

/-- A stream word expanded into a full word (R149). -/
def expandStream (d : SegDesc) (i word : Nat) : Vec :=
  let tail := i + 1 = d.length
  { pin := word, tset := d.tset, cap := bits d.w6 6 6, evo := bits d.w6 7 7, xop := bits d.w6 15 8, yop := bits d.w6 23 16, dop := bits d.w6 31 24, opc := if tail then d.topc else 0, opd := if tail then d.topd else 0, lvl := 0, cnd := if tail then d.tcnd else 0, rsv := 0 }

namespace State

/-- The sequencer reads a descriptor in full (R139). -/
def readDesc (s : State) (t n : Nat) : SegDesc :=
  let w (i : Nat) : Nat := (s.reg (segAddr t n i)).toNat
  ⟨w 0, w 1, w 2, w 3, w 4, w 5, w 6, w 7⟩

/-- A start or a prime is refused (R148). -/
def refuseSegment (s : State) (t n cause : Nat) : State :=
  ((s.mark (TL_SEG_ERR_ERR t)).put (TL_SEG_ERR_SEG t) n).put (TL_SEG_ERR_CAUSE t) cause

/-! ### The fetch engine (R152 to R158) -/

/-- A streamed segment is current, in a tiller that runs: a halted one has no segment under way (R154). -/
def streamCurrent (s : State) (t : Nat) : Bool := s.active t && s.on (TL_SEQ_STAT_INSEG t) && (s.tl t).desc.isStream

/-- Count the poisoned vectors discarded unissued (R158) and empty the buffer. -/
def discardStream (s : State) (t : Nat) : State :=
  let n := (s.strm t).buf.countP (·.poison)
  ((s.setStrm t Stream.reset).bumpBy (TL_STRM_CNT_POISON_SPEC t) n).put (TL_STRM_STAT_PRIMED t) 0

/-- Begin the fetch of a segment's stream from its first vector. -/
def beginFetch (s : State) (t n : Nat) (d : SegDesc) : State :=
  (s.discardStream t).setStrm t { Stream.reset with seg := some n, desc := d }

/-- A prime (R148, R154). -/
def prime (s : State) (t n : Nat) : State :=
  let reject := s.bump (TL_STRM_CNT_PRIME_REJ t)
  if s.streamCurrent t then reject
  else
    let d := s.readDesc t n
    if descCause d ≠ 0 then s.refuseSegment t n (descCause d)
    else if !d.isStream then reject
    else ((s.beginFetch t n d).mark (TL_STRM_STAT_PRIMED t)).put (TL_STRM_STAT_PRIMED_SEG t) n

/-- Primes that STREAM has requested act at their instants, up to one (R154). -/
def takePrimes (s : State) (t inst : Nat) : State :=
  let x := s.tl t
  if x.primes.isEmpty then s
  else (x.primes.filter (fun p => decide (p.1 ≤ inst))).foldl (fun s p => s.prime t p.2) (s.setTl t { x with primes := x.primes.filter (fun p => decide (inst < p.1)) })

/-- The engine may read ahead past the end of a pass of the stream (R152): into a next pass; the number of passes says so. A pass that
has ended, while a thermal park holds the next one back, counts as the one under way. -/
def morePasses (s : State) (t : Nat) (x : Stream) : Bool :=
  let tail := x.desc.topc
  let done := (s.reg (TL_SEG_PASS t)).toNat - b2n ((s.tl t).next = .pass)
  let stops := tail = 0x07 || tail = 0x04 || tail = 0x10 || tail = 0x11 || tail = 0x12
  !stops && (x.desc.passes = 0 || x.passes + 1 < (if x.entered then x.desc.passes - done else x.desc.passes))

/-- The next line has room: it goes into a half of 4 096 vectors, which is refilled once its last vector has issued (R152). -/
def lineRoom (x : Stream) : Bool := ((x.gone + x.buf.length + 15) / 4096 - 1) * 4096 ≤ x.gone

/-- After the last pass the engine reads ahead into segment NEXT when the link is NEXT and that segment is streamed and passes
its checks (R152); the buffer then holds vectors of both. -/
def linkAhead (s : State) (t : Nat) : Option (Nat × SegDesc) :=
  let x := s.strm t
  match x.seg with
  | none => none
  | some _ =>
    let d := s.readDesc t x.desc.next
    let tail := x.desc.topc
    if decide (x.fetch < x.desc.length) || s.morePasses t x || x.desc.passes = 0 || x.desc.link ≠ 0 || tail = 0x07 || tail = 0x04 || tail = 0x10 || tail = 0x11 || tail = 0x12 || descCause d ≠ 0 || !d.isStream || x.noAhead then none
    else some (x.desc.next, d)

/-- The engine has more to read before a further entry: of this stream's passes, or of the segment linked to. -/
def moreToFetch (s : State) (t : Nat) : Bool :=
  let x := s.strm t
  x.seg.isSome && match x.ahead with
    | some (_, d, i) => decide (i < d.length)
    | none => decide (x.fetch < x.desc.length) || s.morePasses t x || (s.linkAhead t).isSome

/-- A line of a stream is read from DRAM: its vectors from number i on. An error anywhere in its 64 bytes poisons it (R158). -/
def readLine (s : State) (d : SegDesc) (i : Nat) : State × List StreamVec :=
  let a := d.address + 4 * i
  let n := min 16 (d.length - i)
  let r := s.dramCheck a 64
  (r.1, (List.range n).map (fun j => ⟨i + j, s.loadLE (a + 4 * j) 4, r.2⟩))

/-- A stalled tiller resumes (R155): 1 024 vectors are buffered, or all the engine may read. -/
def bufferReady (s : State) (t : Nat) : Bool := 1024 ≤ (s.strm t).buf.length || !s.moreToFetch t

/-- A line arrives (R151, R152, R365): of the present pass, of the next pass, or of the segment linked to. DESIGN CHOICE: of the
instants between its request and its arrival, at one of which it is read, the model takes the arrival (log entry 23). -/
def takeLine (s : State) (t : Nat) : State :=
  let x := s.strm t
  if !lineRoom x || x.seg.isNone then s
  else match x.ahead with
    | some (n, d, i) =>
      if d.length ≤ i then s
      else
        let r := s.readLine d i
        r.1.setStrm t { x with buf := x.buf ++ r.2, ahead := some (n, d, i + r.2.length) }
    | none =>
      if x.fetch < x.desc.length then
        let r := s.readLine x.desc x.fetch
        r.1.setStrm t { x with buf := x.buf ++ r.2, fetch := x.fetch + r.2.length }
      else if s.morePasses t x then
        let r := s.readLine x.desc 0
        r.1.setStrm t { x with buf := x.buf ++ r.2, fetch := r.2.length, passes := x.passes + 1 }
      else match s.linkAhead t with
        | some (n, d) =>
          let r := s.readLine d 0
          r.1.setStrm t { x with buf := x.buf ++ r.2, ahead := some (n, d, r.2.length) }
        | none => s

/-- STREAM_LINE_ARRIVE: the instant at which a stalled tiller's buffer holds enough is kept (R155). -/
def streamLine (s : State) (t : Nat) : State :=
  let s1 := (s.takePrimes t s.now).takeLine t
  if s1.get (TL_SEQ_STAT_STATE t) = 3 && s1.bufferReady t && (s1.tl t).refillAt.isNone then s1.modTl t (fun x => { x with refillAt := some s1.now }) else s1

/-- The stream of a segment is entered (R154): a primed stream, or one read ahead into, goes on; otherwise the fetch starts
afresh. -/
def enterStream (s : State) (t n : Nat) (d : SegDesc) : State :=
  let x := s.strm t
  let fresh := (s.beginFetch t n d).setStrm t { Stream.reset with seg := some n, desc := d, entered := true }
  if !x.entered then
    if x.seg = some n && s.on (TL_STRM_STAT_PRIMED t) && x.desc = d then (s.setStrm t { x with entered := true }).put (TL_STRM_STAT_PRIMED t) 0
    else fresh
  else match x.ahead with
    | some (m, e, i) =>
      if m = n && e = d then s.setStrm t { Stream.reset with buf := x.buf, seg := some n, desc := d, fetch := i, entered := true, gone := x.gone } else fresh
    | none => fresh

/-- A next pass of the stream begins: one pass of the read-ahead is used up. -/
def nextPassStream (s : State) (t : Nat) : State :=
  let x := s.strm t
  if x.passes = 0 then s.setStrm t { x with fetch := 0 } else s.setStrm t { x with passes := x.passes - 1 }

/-- A write to a word of descriptor n discards what the buffer holds for a coming entry of that segment, whose fetch then waits for
the entry (R154). -/
def descriptorWritten (s : State) (t n : Nat) : State :=
  let x := s.strm t
  if !x.entered && x.seg = some n then s.discardStream t
  else match x.ahead with
    | some (m, _, i) =>
      if m = n then
        let keep := x.buf.length - min i x.buf.length
        let lost := (x.buf.drop keep).countP (·.poison)
        (s.setStrm t { x with buf := x.buf.take keep, ahead := none, noAhead := true }).bumpBy (TL_STRM_CNT_POISON_SPEC t) lost
      else s
    | none => s

/-- The buffer of a stream that is no longer current is discarded; a prime not yet entered is kept (R152). -/
def leaveStream (s : State) (t : Nat) : State := if (s.strm t).entered then s.discardStream t else s

end State

end Sys2Proof.Machine
end

