-- ==== Sys2Proof/Machine/Levels.lean ====
section
/-! DEFINITION. Level changes (04_tiller_flow_and_apg.md, R112 to R119; 06_pin_electronics.md, R177 to R180). -/

namespace Sys2Proof.Machine

/-- Address of word i of level-change entry n of tiller t (R24, R112). -/
def lvlAddr (t n i : Nat) : Nat := 0x300000 + 0x1000 * t + 16 * n + 4 * i

/-- Width of a target's code; none for a reserved target (R113). -/
def targetWidth (tgt : Nat) : Option Nat :=
  match tgt with
  | 0 => some 0 | 1 => some 18 | 2 => some 2 | 3 => some 16 | 4 => some 16
  | n => if 8 ≤ n ∧ n < 0x48 then some 16 else none

/-- A change word passes the check of R114. -/
def changeOk (w : Nat) : Bool :=
  match targetWidth (bits w 31 24) with
  | none => false
  | some n => bits w 23 0 < 2 ^ n

/-- `PN_LVL` index of a level number k of R113 (1 VIH to 7 CLL). -/
def targetLevel (tgt : Nat) : Nat := (tgt - 8) / 8
def targetPin (tgt : Nat) : Nat := tgt % 8

/-- Two instants fall in one engine cycle. -/
def sameCycle (a b : Nat) : Bool := a / 160 = b / 160

/-- The words of an entry that reach an output: a later word of the same setting replaces an earlier one (R116). -/
def lastWords : List Nat → List Nat
  | [] => []
  | w :: r => if r.any (fun v => bits v 31 24 = bits w 31 24) || bits w 31 24 = 0 then lastWords r else w :: lastWords r

namespace State

/-- Entry n of the tiller's level-change table (R112). -/
def lvlEntry (s : State) (t n : Nat) : List Nat := (List.range 4).map (fun i => (s.reg (lvlAddr t n i)).toNat)

/-- Entries pending, as PEND reports them. -/
def lvlPending (s : State) (t : Nat) : Nat := (s.lvl t).queue.length

/-- Queue an entry (R115). -/
def queueLevel (s : State) (t : Nat) (e : LvlEntry) : State := s.setLvl t { s.lvl t with queue := (s.lvl t).queue ++ [e] }

/-- Pending entries are discarded (R118). -/
def discardLevels (s : State) (t : Nat) : State := s.setLvl t { s.lvl t with queue := [] }

/-- A W1C bit of `TL_LVL_STAT` sets; the LVL source fires. -/
def lvlFlag (s : State) (t : Nat) (f : Field) : State := (s.mark f).tlSource t 8

/-- The application instant of the entry at the head of the queue (R116). -/
def lvlInstant (s : State) (t : Nat) (e : LvlEntry) : Nat := max (e.issueAt + 16 * 160) (if (s.lvl t).lastAt = 0 then 0 else (s.lvl t).lastAt + 32 * 160)

/-- The clamp pair of a pin as the words of an entry leave it is allowed (R179). -/
def clampsAfter (s : State) (g : Nat) (ws : List Nat) : Bool :=
  let pick (k : Nat) : Nat := match ws.find? (fun w => bits w 31 24 = 8 + 8 * k + g % 8) with
    | some w => bits w 15 0
    | none => s.get (PN_LVL_CODE g k)
  clampsOk (pick 5) (pick 6)

/-- A change to the setting of a supply is refused while that output is in LOCKOUT (R285). -/
def lockedOut (s : State) (t tgt : Nat) : Bool :=
  ((tgt = 1 || tgt = 2) && s.get (TL_SUP_STAT_STATE t 0) = 2) || ((tgt = 3 || tgt = 4) && s.get (TL_SUP_STAT_STATE t 1) = 2)

/-- One change word is applied (R113): the state, whether the supply clamped for energy, whether the change was refused. The
current of a live range change is a free value (R272). -/
def applyChange (s : State) (t : Nat) (ws : List Nat) (w : Nat) : State × Bool × Bool :=
  let code := bits w 17 0
  let n := bits w 31 24
  if s.lockedOut t n then (s, false, true)
  else match n with
  | 1 => let r := s.writeCode t 0 code; (r.1, r.2, false)
  | 2 => (s.draw.changeRange t (code % 4) (Config.loadCurrent s.draws), false, false)
  | 3 => let r := s.writeCode t 1 (code % 65536); (r.1, r.2, false)
  | 4 => (s.put (TL_SUP_ILIM_CODE t 1) code, false, false)
  | n =>
    let g := 8 * t + targetPin n
    if 0x40 ≤ n then (s.put (PN_PPMU_FORCE_CODE g) code, false, false)
    else if 5 ≤ targetLevel n && !s.clampsAfter g ws then (s, false, true)
    else ((s.put (PN_LVL_CODE g (targetLevel n)) code).followTie g, false, false)

/-- A word enters the done log (R119). -/
def logDone (s : State) (t w : Nat) : State :=
  let x := s.lvl t
  if 16 ≤ x.done.length then s.lvlFlag t (TL_LVL_STAT_DONE_OVF t) else s.setLvl t { x with done := x.done ++ [w] }

/-- LEVEL_APPLY (R116, R119): the head entry's words take effect at one instant. -/
def applyLevels (s0 : State) (t : Nat) : State :=
  match (s0.lvl t).queue with
  | [] => s0
  | e :: r =>
    let at_ := s0.lvlInstant t e
    let s := s0.advInst at_
    let ws := lastWords e.words
    let taken := ws.filter (fun w => !(s.applyChange t ws w).2.2)
    let s1 := s.setLvl t { s.lvl t with queue := r, lastAt := at_, applied := taken.map (fun w => bits w 31 24) }
    let a := ws.foldl (fun (a : State × Bool × Bool) w => let c := a.1.applyChange t ws w; (c.1, a.2.1 || c.2.1, a.2.2 || c.2.2)) (s1, false, false)
    let s2 := if a.2.1 then ((a.1.lvlFlag t (TL_LVL_STAT_ECLAMP t)).tag t 21) else a.1
    let s3 := if a.2.2 then s2.tlSource t 8 else s2
    let s4 := s3.logDone t (e.entry * 2 ^ 24 + b2n a.2.1 * 2 ^ 23 + b2n a.2.2 * 2 ^ 22 + e.vidx % 65536)
    if r.isEmpty then s4.localSource t 4 else s4

/-- A read of `TL_LVL_DONE` (R119, R228). -/
def readDone (s : State) (t : Nat) : State × Nat :=
  let x := s.lvl t
  match x.done with
  | [] => (s.lvlFlag t (TL_LVL_STAT_UNDERRUN t), x.lastDone)
  | w :: r => (s.setLvl t { x with done := r, lastDone := w }, w)

/-- The level queue has reached a setting in the cycle of a register write: the write comes first and the queue's value stands (R178,
R267). -/
def queueStands (s : State) (t target : Nat) : Bool := (s.lvl t).applied.contains target && sameCycle (s.lvl t).lastAt s.now

/-- A host write of a level code (R177 to R179). -/
def writeLevel (s : State) (g k code : Nat) : State :=
  let other (j : Nat) : Nat := if j = k then code else s.get (PN_LVL_CODE g j)
  if 5 ≤ k && k < 7 && !clampsOk (other 5) (other 6) then s.mark (PN_STAT_CLAMP_REJ g)
  else if s.queueStands (g / 8) (8 + 8 * k + g % 8) then s
  else if k = 7 then s.put (PN_PPMU_FORCE_CODE g) code
  else (s.put (PN_LVL_CODE g k) code).followTie g

end State

end Sys2Proof.Machine
end

