-- ==== Sys2Proof/Machine/Tiller.lean ====
section
/-! DEFINITION. The tiller engine's states (03_tiller_vectors.md, R56, R86 to R92; 05_segments_and_streaming.md): stops, faults,
starts, parks, gaps, stalls, segment boundaries and transfers. Instants are edge steps. -/

namespace Sys2Proof.Machine

/-- The fields of a 128-bit vector word (R57). -/
def vecOf (w : Nat) : Vec :=
  { pin := bits w 31 0, tset := bits w 37 32, cap := bits w 38 38, evo := bits w 39 39, xop := bits w 47 40, yop := bits w 55 48, dop := bits w 63 56, opc := bits w 71 64, opd := bits w 103 72, lvl := bits w 111 104, cnd := bits w 119 112, rsv := bits w 127 120 }

/-- Byte address of vector SRAM index i of tiller t (R57, R359). -/
def vecAddr (t i : Nat) : Nat := vsramBase t + 16 * i

/-- The period end brings a halt, a park or a gap, and no further vector. -/
def Next.stops : Next → Bool
  | .halt _ => true
  | .notMember => true
  | .park _ => true
  | .calgap _ => true
  | _ => false

namespace State

/-- Engine state numbers of `TL_SEQ_STAT.STATE`. -/
def engine (s : State) (t : Nat) : Nat := s.get (TL_SEQ_STAT_STATE t)

/-- The calibration step in progress is abandoned, and the self-check paths open (R340). -/
def endStep (s : State) (t : Nat) : State :=
  let c := s.calTl t
  if c.stepEnd.isNone then s
  else (tillerPins t).foldl (fun s g => (s.setPin g { s.pin g with calPath := false }).put (PN_STAT_SELFTEST_ACTIVE g) (b2n (s.get (PN_CTRL_SELFTEST g) ≠ 0))) (s.setCalTl t { c with stepEnd := none })

/-- A calibration interval of the tiller ends early: so does its step, and the rest of a prober gap is void (R340). -/
def endInterval (s : State) (t : Nat) : State := (s.setCalTl t { s.calTl t with prober := 0 }).endStep t

/-! ### Segment state and the call stack -/

/-- The segment is left: none is current (R72, R75, R140). -/
def leaveSegment (s : State) (t : Nat) : State :=
  (s.put (TL_SEG_STAT_PREV t) (s.get (TL_PC_SEG t))).put (TL_SEQ_STAT_INSEG t) 0

/-- The SEG trace entry (R160). -/
def traceSegment (s : State) (t : Nat) (d : SegDesc) : State :=
  let dest := if d.isSram then d.start else 0x3FFF
  s.trace t 13 (s.tl t).vec.opc ((s.tl t).idx % 2 ^ 14 + dest * 2 ^ 16)

/-- Vectors issued with no segment current form a packet that ends where a segment becomes current (R206). -/
def packetIf (s : State) (t : Nat) : State := if s.on (TL_SEQ_STAT_INSEG t) then s else s.packetBoundary t 2

/-- Segment n becomes current with its descriptor copy (R139), with a pass count. -/
def becomeCurrent (s : State) (t n : Nat) (d : SegDesc) (pass : Nat) : State :=
  let s1 := ((s.packetIf t).put (TL_SEQ_STAT_INSEG t) 1).put (TL_PC_SEG t) n
  let s2 := s1.setReg (TL_SEG_PASS t) (BitVec.ofNat 32 pass)
  let x := s2.tl t
  (s2.setTl t { x with desc := d, entries := x.entries + 1, brk := false, brkLatch := false, brkReq := false }).traceSegment t d

/-- Push a stack entry (R72): return index, segment, in-segment flag, passes completed. -/
def pushCall (s : State) (t ret : Nat) (inSeg : Bool) : State :=
  let j := s.get (TL_SEQ_STAT_SP t)
  let w := 2 ^ 31 + b2n inSeg * 2 ^ 24 + s.get (TL_PC_SEG t) * 2 ^ 16 + ret % 2 ^ 14
  let s1 := (s.setReg (TL_STACK t j) (BitVec.ofNat 32 w)).setReg (TL_STACK_PASS t j) (s.reg (TL_SEG_PASS t))
  let x := s1.tl t
  (s1.setTl t { x with stackSerial := x.stackSerial.take j ++ [x.entries] }).put (TL_SEQ_STAT_SP t) (j + 1)

/-- The top stack entry leaves the stack. -/
def popCall (s : State) (t : Nat) : State × StackEntry :=
  let j := s.get (TL_SEQ_STAT_SP t) - 1
  let x := s.tl t
  let e : StackEntry := ⟨s.get (TL_STACK_RETURN t j), s.on (TL_STACK_INSEG t j), s.get (TL_STACK_SEG t j), (s.reg (TL_STACK_PASS t j)).toNat, x.stackSerial.getD j 0⟩
  (((s.put (TL_STACK_VALID t j) 0).put (TL_SEQ_STAT_SP t) j).setTl t { x with stackSerial := x.stackSerial.take j }, e)

/-- The stack is emptied (R90). -/
def emptyStack (s : State) (t : Nat) : State :=
  ((List.range 8).foldl (fun s j => s.put (TL_STACK_VALID t j) 0) s).put (TL_SEQ_STAT_SP t) 0

/-! ### Stops and faults -/

/-- Words decoded ahead that will not issue leave no trace but the count of those with a double-bit error (R53, R60). -/
def discardAhead (s : State) (t : Nat) : State :=
  let x := s.tl t
  if x.ahead.isEmpty then s
  else (s.setTl t { x with ahead := [] }).bumpBy (TL_VSRAM_ECC_UNCORR_SPEC t) (x.ahead.countP (·.bad))

/-- The engine leaves RUNNING for good (R56, R89): state and cause, pins, trace, packet (R206), end of an acquisition (R218),
withdrawal (R47), result (R137), a pending switch (R334), interrupt source. DESIGN CHOICE: INSEG keeps its value at a stop, as the
spec names no change of it; no stream is current in a stopped tiller all the same (log entry 19). A stop that ends a park writes its
STOP entry alone, and no RESUME, though R94 says that a park ends: a model's choice too (log entry 20). -/
def stopEngine (s0 : State) (t state cause inst reason : Nat) (safe : Bool) : State :=
  let s := s0.advInst inst
  let s0 := if (s.discardAhead t).on (TL_STRM_STAT_STALLED_NOW t) then
      ((s.discardAhead t).put (TL_STRM_STAT_STALLED_NOW t) 0).bumpBy (TL_STRM_DEAD_TICKS t) ((inst - (s.tl t).stallFrom) / 1280) else s.discardAhead t
  let x := s0.tl t
  let s1 := (((s0.put (TL_SEQ_STAT_STATE t) state).put (TL_SEQ_STAT_STOP_CAUSE t) cause).put (TL_SEQ_STAT_PARK_WHY t) 0).put (TL_OPSTAT_IN_GAP t) 0
  let s2 := s1.setTl t { x with stopReq := false, startReq := false, park := .none, gap := none, pauseReq := false, next := .seq, brk := false }
  let s3 := (s2.putBit (ST_RISE_STAT_PAUSE_PEND (rowOf t)) (colOf t) false).putBit (ST_RISE_STAT_PAUSED (rowOf t)) (colOf t) false
  let s4 := s3.endStep t
  let s5 := if safe then ((s4.tag t 30).discardLevels t).outputsSafe t inst else s4.pinsIdle t x.vec.tset (ceilCycle inst)
  let s6 := if state = 5 then s5 else s5.trace t 9 x.vec.opc (x.idx % 2 ^ 14)
  let s7 := ((s6.stopBoundary t reason).addBoundary t (.tillerStop (s6.cap t).serial)).leaveStream t
  let s8 := (s7.leaveRendezvous t).completeResult t
  (s8.tlSource t (if state = 5 then 12 else 11)).safePoint t

/-- Start the tiller at its entry segment (R90, R91, R146, R148), without entering it: refused in RUNNING, PARKED, STALLED and
FAULTED, and when the descriptor fails. Tells whether it started. DESIGN CHOICE: its trace entry, which no vector concerns, holds 0
for OPC and both indices (log entry 20). -/
def startEngine (s : State) (t : Nat) (byReg : Bool) : State × Bool :=
  let st := s.engine t
  let n := s.get (TL_SEG_ENTRY_SEG t)
  if st ≠ 0 && st ≠ 4 then (if byReg || st = 5 then s.mark (TL_SEQ_STAT_REFUSED t) else s, false)
  else if descCause (s.readDesc t n) ≠ 0 then ((s.refuseSegment t n (descCause (s.readDesc t n))).mark (TL_SEQ_STAT_REFUSED t), false)
  else
    let s1 := ((s.endInterval t).emptyStack t).put48 (TL_VIDX_LO t) (TL_VIDX_HI t) 0
    let s2 := ((s1.put (TL_SEQ_STAT_LOOP_OPEN t) 0).put (TL_STICKY_FAIL t) 0).put (TL_CMASK_MASK t) 0
    let s3 := ((s2.put (TL_STRM_STAT_STALL t) 0).put (TL_FLAGS_RDVTMO t) 0).put (TL_FLAGS_MATCHX t) 0
    let s4 := ((s3.put (TL_SEQ_STAT_STOP_CAUSE t) 0).put (TL_HALT_CODE_CODE t) 0).put (TL_SEQ_STAT_REGSTART t) (b2n byReg)
    let s5 := ((s4.put (TL_RESULT_VALID t) 0).put (TL_STRM_DEAD_TICKS t) 0).put (TL_MASK_STAT_FIRST_PINS t) 0
    let s6 := (s5.put (TL_SEQ_STAT_INSEG t) 0).put (TL_SEQ_STAT_STATE t) 1
    let x := s6.tl t
    let s7 := s6.setTl t { x with issues := 0, last := false, looped := false, repLeft := 0, matches_ := 0, brk := false, brkLatch := false, brkReq := false, entries := 0, stackSerial := [], stopReq := false, startReq := false, park := .none, gap := none, pauseReq := false, tags := if byReg then 2 ^ 27 else 0, next := .first }
    let s8 := s7.setCmp t { s7.cmp t with fails := [], pktOpen := false, run := (s7.cmp t).run + 1, waitTo := 0 }
    let s9 := s8.setCap t { s8.cap t with violated := false }
    let s10 := (tillerPins t).foldl (fun s g => s.setPin g { s.pin g with lastDrive := false }) s9
    ((s10.rejoin t).trace t 0 0 0, true)

/-- A gap begins at the end of a period, or at the entry of a gap segment (R125, R159): LEN = 0 makes none. -/
def enterGap (s : State) (t inst len tset : Nat) (segment : Bool) : State :=
  let x := s.tl t
  let after : Next := if segment then .link else .seq
  if len = 0 then ((if segment then s.leaveSegment t else s).safePoint t).modTl t (fun x => { x with next := after, dueAt := inst })
  else
    let g := ceilTick inst / 1280
    let s1 := s.setTl t { x with gap := some ⟨g, len, g + len, segment, tset⟩, next := after, dueAt := (g + len) * 1280 }
    (s1.pinsIdle t tset (if segment then g * 1280 else ceilCycle inst)).mark (TL_OPSTAT_IN_GAP t)

/-- Position the sequencer at the first vector of the current segment's pass (R140). -/
def toFirst (s : State) (t inst : Nat) : State :=
  let s1 := if (s.tl t).desc.isStream then s.put (TL_STRM_POS_POS t) 0 else s
  s1.modTl t (fun x => { x with next := .ready, dueAt := inst, looped := false, inStream := x.desc.isStream, atPos := 0, atIdx := if x.desc.isStream then x.atIdx else x.desc.start })

/-- Enter a checked segment at an instant (R139, R140, R159). -/
def enterChecked (s : State) (t n inst : Nat) (d : SegDesc) : State :=
  let s1 := s.becomeCurrent t n d 0
  let s2 := if d.isStream then s1.enterStream t n d else s1.leaveStream t
  if d.calgap then s2.enterGap t inst d.length d.tset true else s2.toFirst t inst

/-- A start at an instant (R90): the tiller enters its entry segment at its first issue instant. -/
def startAt (s : State) (t inst : Nat) (byReg : Bool) : State :=
  let r := s.startEngine t byReg
  if r.2 then r.1.enterChecked t (r.1.get (TL_SEG_ENTRY_SEG t)) inst (r.1.readDesc t (r.1.get (TL_SEG_ENTRY_SEG t))) else r.1

/-- A start written with a stop follows once the stop has taken effect (R92). -/
def afterStop (s : State) (t inst : Nat) (again : Bool) : State := if again then s.startAt t (ceilCycle inst) true else s

/-- The latch and the request of a break clear when the pass ends; what was set after the test stays (R141). -/
def clearBreak (s : State) (t : Nat) : State :=
  let x := s.tl t
  (s.putBit (TL_EVIN_LATCH t) x.desc.brkSel x.brkLatch).put (TL_SEG_STAT_BRK_REQ t) (b2n x.brkReq)

/-- A pass ends (R140, R141): its packet, its count, a break; after the last one the segment ends. What follows is its next pass or
its link. -/
def countPass (s : State) (t : Nat) : State :=
  let d := (s.tl t).desc
  let s1 := s.packetBoundary t 0
  let n := (s1.reg (TL_SEG_PASS t)).toNat + 1
  let s2 := s1.setReg (TL_SEG_PASS t) (BitVec.ofNat 32 n)
  let done := if d.passes = 0 then (s2.tl t).brk else decide (d.passes ≤ n)
  let s3 := if d.passes = 0 && done then s2.clearBreak t else s2
  let s4 := if done then s3.leaveSegment t else s3
  s4.modTl t (fun x => { x with next := if done then .link else .pass, last := false, brk := false, brkLatch := false, brkReq := false })

/-- A pass ends whose last vector stops the tiller (R140, R206). -/
def lastPass (s : State) (t : Nat) : State := if (s.tl t).last then s.countPass t else s

/-- The tiller's own halt (R76): by HALT, or by link mode HALT (R142). -/
def haltNow (s : State) (t inst code : Nat) : State :=
  ((s.put (TL_HALT_CODE_CODE t) code).stopEngine t 4 1 inst 3 false).afterStop t inst (s.tl t).startReq

/-- A stop from outside (R92): HALTED with HALTED_EXT. In place of a park or a gap on a pass's last vector, or during it, the pass
has ended (R140); a decision that a stop discards ends none (R141). -/
def stopNow (s : State) (t inst : Nat) : State :=
  let s1 := match (s.tl t).next with
    | .seq => s.lastPass t
    | .park _ => s.lastPass t
    | .calgap _ => s.lastPass t
    | _ => s
  ((s1.tag t 26).stopEngine t 4 2 inst 4 false).afterStop t inst (s.tl t).startReq

/-- UNDERRUN (R156). -/
def underrun (s : State) (t inst : Nat) : State := s.stopEngine t 4 4 inst 5 true

/-- RDV of a non-member (R44, R89). DEDUCED: it is the program's own halt, which a stop that comes in its period does not replace;
a start written with that stop follows (log entry 19). -/
def notMember (s : State) (t inst : Nat) : State :=
  (((s.lastPass t).tag t 30).stopEngine t 4 3 inst 3 false).afterStop t inst (s.tl t).startReq

/-- A fault (R88): cause and index, outputs safe, result INVALID, trace FAULT with the opcode of the vector concerned (R93), the
engine's error line. -/
def faultNow (s : State) (t cause idx opc inst : Nat) : State :=
  let s1 := ((s.put (TL_FAULT_CAUSE t) cause).put (TL_FAULT_INDEX t) idx).trace t 10 opc (idx % 2 ^ 14)
  (s1.stopEngine t 5 5 inst 6 true).raiseLine t

/-- What takes the place of a vector faults, for the vector most recently issued; a stop due at the same boundary takes the fault's
place (R53, R92). -/
def faultOrStop (s : State) (t cause inst : Nat) : State :=
  if (s.tl t).stopReq then s.stopNow t inst else s.faultNow t cause (s.tl t).idx (s.tl t).vec.opc inst

/-! ### Transfers and segment ends -/

/-- Enter segment n by link or SEG (R142, R143): a failing check faults (R148). -/
def enterSegment (s : State) (t n inst : Nat) : State :=
  let d := s.readDesc t n
  if descCause d ≠ 0 then s.faultOrStop t (descCause d) inst
  else if d.calgap && (s.tl t).stopReq then s.stopNow t inst
  else s.enterChecked t n inst d

/-- Continue at an SRAM index. -/
def goTo (s : State) (t idx inst : Nat) : State :=
  s.modTl t (fun x => { x with next := .ready, dueAt := inst, atIdx := idx, inStream := false, looped := false })

/-- RET, and a RETURN link (R72, R142): pop, restore the segment state, continue at the popped index. -/
def returnTo (s : State) (t inst : Nat) : State :=
  if s.get (TL_SEQ_STAT_SP t) = 0 then s.faultOrStop t 0x09 inst
  else
    let r := s.popCall t
    let e := r.2
    let s1 := r.1
    if !e.inSeg then ((s1.put (TL_SEQ_STAT_INSEG t) 0).leaveStream t).goTo t e.ret inst
    else if s1.on (TL_SEQ_STAT_INSEG t) && s1.get (TL_PC_SEG t) = e.seg && (s1.tl t).entries = e.serial then s1.goTo t e.ret inst
    else
      let d := s1.readDesc t e.seg
      if descCause d ≠ 0 then s1.faultOrStop t (descCause d) inst
      else ((s1.becomeCurrent t e.seg d e.pass).leaveStream t).goTo t e.ret inst

/-- A transfer leaves its vector (R73 to R75, R144): on a segment's last vector it ends the segment; a call pushes. -/
def transferOut (s : State) (t dest : Nat) (push traced : Bool) : State :=
  let x := s.tl t
  let w1 := x.idx % 2 ^ 14 + dest % 2 ^ 14 * 2 ^ 16
  if x.last then
    let s1 := (s.trace t 2 x.vec.opc w1).packetBoundary t 1
    let s2 := if push then s1.pushCall t (x.idx + 1) false else s1
    ((s2.leaveSegment t).mark (TL_SEG_STAT_JAE t)).leaveStream t
  else
    let s1 := if traced then s.trace t 1 x.vec.opc w1 else s
    if push then s1.pushCall t (x.idx + 1) (s1.on (TL_SEQ_STAT_INSEG t)) else s1

/-- The code of a park in `TL_SEQ_STAT.PARK_WHY`. -/
def parkWhy : Park → Nat
  | .none => 0
  | .waitrc _ => 1
  | .rdv _ => 2
  | .pause => 3
  | .thermal => 3
  | .evw _ _ _ => 4

/-- Park the tiller at the end of its vector's period (R122, R162). -/
def parkAt (s : State) (t why : Nat) (p : Park) (inst : Nat) : State :=
  let x := s.tl t
  let s1 := ((s.advInst inst).setTl t { x with park := p }).put (TL_SEQ_STAT_STATE t) 2
  let s2 := (s1.put (TL_SEQ_STAT_PARK_WHY t) why).pinsIdle t x.vec.tset (ceilCycle inst)
  let s3 := s2.trace t 6 x.vec.opc (x.idx % 2 ^ 14)
  if why = 3 then s3.tlSource t 14 else s3

/-- A park ends: the next vector issues at an instant (R123, R130). DESIGN CHOICE: an entry of an event without a target, such as RESUME
here but for a time-out, holds 0 for its to index (log entry 20). -/
def unparkAt (s : State) (t inst : Nat) (dest : Option Nat) : State :=
  let x := s.tl t
  let s1 := ((s.advInst inst).put (TL_SEQ_STAT_STATE t) 1).put (TL_SEQ_STAT_PARK_WHY t) 0
  let s2 := s1.setTl t { x with park := .none, dueAt := inst, next := match dest with | some i => .timeout i | none => x.next }
  (s2.putBit (ST_RISE_STAT_PAUSED (rowOf t)) (colOf t) false).trace t 7 x.vec.opc (x.idx % 2 ^ 14 + dest.getD 0 % 2 ^ 14 * 2 ^ 16)

/-- A segment boundary (R140, R145): the pass ends, a next one is traced (R160), a safe boundary takes what is pending, a
rate-of-rise pause takes effect. A segment whose link halts the tiller has no boundary at its end. -/
def passEnd (s : State) (t inst : Nat) : State :=
  let d := (s.tl t).desc
  let s3 := s.countPass t
  let bounds := !((s3.tl t).next = .link && d.link = 2)
  let s4 := if (s3.tl t).next = .pass && s3.on (TL_SEQ_CTRL_TRACE_LOOPS t) then s3.traceSegment t d else s3
  let s5 := if d.safeBoundary && bounds then s4.safePoint t else s4
  if (s5.tl t).pauseReq && !(s5.tl t).stopReq && bounds then
    let s6 := (s5.modTl t (fun x => { x with pauseReq := false })).putBit (ST_RISE_STAT_PAUSE_PEND (rowOf t)) (colOf t) false
    (s6.parkAt t 3 .thermal (ceilCycle inst)).putBit (ST_RISE_STAT_PAUSED (rowOf t)) (colOf t) true
  else s5

/-- A next pass begins (R140, R151), or the link of the ended segment is taken (R142). -/
def nextPass (s : State) (t inst : Nat) : State := (if (s.tl t).desc.isStream then s.nextPassStream t else s).toFirst t inst
def takeLink (s : State) (t inst : Nat) : State :=
  let d := (s.tl t).desc
  match d.link with
  | 0 => s.enterSegment t d.next inst
  | 1 => s.returnTo t inst
  | _ => s.haltNow t inst d.haltCode

/-- A pass end, then its next pass or link, unless the tiller paused there. -/
def afterPass (s : State) (t inst : Nat) : State :=
  if s.engine t ≠ 1 then s
  else match (s.tl t).next with
    | .pass => s.nextPass t inst
    | .link => s.takeLink t inst
    | _ => s

/-- The end of the period of the vector most recently issued: what R58 step 6 chose takes effect (R73), until a vector is due to
issue (`ready`, `again`) or the tiller has stopped, parked or begun a gap. A call that is taken on a full stack faults in place of the
vector that would follow (R72). -/
def periodEnd (s : State) (t : Nat) : State :=
  let x := s.tl t
  let inst := x.dueAt
  match x.next with
  | .seq =>
    if x.last then (s.passEnd t inst).afterPass t inst
    else if x.streamed then s.modTl t (fun x => { x with next := .ready, atPos := x.atPos + 1, looped := false })
    else s.goTo t (x.idx + 1) inst
  | .loopBack i => (s.goTo t i inst).modTl t (fun x => { x with looped := true })
  | .jump i push =>
    if push && s.get (TL_SEQ_STAT_SP t) = 8 then s.faultOrStop t 0x08 (ceilCycle inst) else (s.transferOut t i push true).goTo t i inst
  | .timeout i => (s.transferOut t i false false).goTo t i inst
  | .enterSeg n push =>
    let d := s.readDesc t n
    (s.transferOut t (if d.isSram then d.start else 0x3FFF) push true).enterSegment t n inst
  | .ret => (s.transferOut t (s.get (TL_STACK_RETURN t (s.get (TL_SEQ_STAT_SP t) - 1))) false true).returnTo t inst
  | .link => s.takeLink t inst
  | .pass => s.nextPass t inst
  | .halt code => (s.lastPass t).haltNow t (ceilCycle inst) code
  | .notMember => s.notMember t (ceilCycle inst)
  | .park p => if x.stopReq then s.stopNow t (ceilCycle inst) else (s.modTl t (fun x => { x with next := .seq })).parkAt t (parkWhy p) p (ceilCycle inst)
  | .calgap n => if x.stopReq then s.stopNow t (ceilCycle inst) else s.enterGap t inst n x.vec.tset false
  | _ => s

/-- The park or the gap that a vector brings begins, if the end of its period has come by an instant (R122). -/
def settle (s : State) (t inst : Nat) : State :=
  match (s.tl t).next with
  | .park _ => if s.engine t = 1 && decide ((s.tl t).dueAt ≤ inst) then (s.advInst (s.tl t).dueAt).periodEnd t else s
  | _ => s

/-- What the tiller waits for, once the period of its vector is over. -/
def waitsFor (s : State) (t : Nat) : Park :=
  match (s.tl t).next with
  | .park p => p
  | _ => (s.tl t).park

/-! ### Requests to stop, resume and start -/

/-- A stop reaches the tiller at an instant (R86, R92, R126, R157): at once when it is parked, stalled or in a gap; at the next
cycle boundary, not before the end of the vector's own period, in a conditional wait; otherwise in place of the next vector. -/
def requestStop (s : State) (t inst : Nat) : State :=
  let x := s.tl t
  match s.engine t with
  | 1 =>
    if x.gap.isSome then s.stopNow t inst
    else if x.next = .undecided && decide (x.endAt ≤ inst) then s.stopNow t (ceilCycle inst)
    else s.modTl t (fun x => { x with stopReq := true })
  | 2 => s.stopNow t inst
  | 3 => s.stopNow t inst
  | _ => s

/-- SAFE (R418), MARK_SAFE (R349) and thermal shutdown (R351) on one tiller: it stops as by STOP, its result is INVALID, pins
and outputs go safe; pending level entries would move safe codes and are discarded. -/
def safeStop (s : State) (t : Nat) : State :=
  let s1 := s.outputsSafe t s.now
  if s1.active t then ((s1.tag t 30).discardLevels t).requestStop t s1.now else ((s1.discardLevels t).invalidate t).drainAll t

/-- A power-down or a thermal shutdown stops a tiller within 2 µs (R351, R440), without waiting for a vector boundary: its result is
INVALID, pins and outputs go safe. -/
def shutStop (s : State) (t : Nat) : State :=
  let s1 := (s.outputsSafe t s.now).discardLevels t
  if s1.active t then ((s1.tag t 30).tag t 26).stopEngine t 4 2 s1.now 4 false else s1.invalidate t

/-- A write of `TL_SEQ_CTRL.RUN` (R90, R91), of RESUME (R77), of STOP. -/
def runWrite (s : State) (t : Nat) : State := s.startAt t s.now true
def resumeWrite (s : State) (t : Nat) : State :=
  if s.engine t = 2 && s.get (TL_SEQ_STAT_PARK_WHY t) = 3 then s.unparkAt t (s.now + 160) none else s

/-- The three command bits of one write of `TL_SEQ_CTRL` (R92): STOP, RESUME, RUN, in that order. -/
def seqCommands (s : State) (t : Nat) (stop resume run : Bool) : State :=
  let before := s.active t
  let s1 := if stop then s.requestStop t s.now else s
  let s2 := if resume && !(stop && before) then s1.resumeWrite t else s1
  if !run then s2
  else if stop && before && s2.active t then s2.modTl t (fun x => { x with startReq := true })
  else s2.runWrite t

end State

end Sys2Proof.Machine
end

