-- ==== Sys2Proof/Machine/Sync.lean ====
section
/-! DEFINITION. The rachis count (02_rachis_count.md): SYNC frames, lock and loss, scheduled commands, calibration holds,
rendezvous messages and releases, and the 64-bit register pairs (R52, R95). -/

namespace Sys2Proof.Machine

/-- One step of the CRC of R28: polynomial 0x1021, most significant bit first. -/
def crcStep (c : Nat) (b : Bool) : Nat := if c.testBit 15 != b then (c * 2 % 65536) ^^^ 0x1021 else c * 2 % 65536

/-- CRC-16 of the low n bits of a number, most significant first (R28). -/
def crc16 (n w : Nat) : Nat := (List.range n).foldr (fun i c => crcStep c (w.testBit i)) 0xFFFF

/-- A slot names a group: the same one, or one of the two is GROUP 15 (R36). -/
def groupsMeet (a b : Nat) : Bool := a = b || a = 15 || b = 15

namespace State

/-! ### 64-bit pairs (R52, R95) -/

/-- The present words of the pair whose low register is at an address. -/
def pairLive (s : State) (lo : Nat) : Nat × Nat :=
  if lo = GL_RC_LO then (s.count.toNat % 2 ^ 32, s.count.toNat / 2 ^ 32) else ((s.reg lo).toNat, (s.reg (lo + 4)).toNat)

/-- A latch is a hidden entry of the low register's address. -/
def latchHigh (s : State) (lo hi : Nat) : State := { s with latches := storeSet (fun _ => none) s.latches lo (some (hi, s.ticks)) }
def freeLatch (s : State) (lo : Nat) : State := { s with latches := storeSet (fun _ => none) s.latches lo none }
def latched (s : State) (lo : Nat) : Option (Nat × Nat) := storeGet (fun _ => none) s.latches lo

/-- A read of the low word latches the high word; a read of the high word returns the latched value within 1 µs and frees the
latch, or the live one. -/
def readLow (s : State) (lo : Nat) : State × Nat := (s.latchHigh lo (s.pairLive lo).2, (s.pairLive lo).1)
def freshLatch (s : State) (lo : Nat) : Bool := (s.latched lo).any (fun l => decide (s.ticks ≤ l.2 + 100))
def readHigh (s : State) (lo : Nat) : State × Nat :=
  match s.latched lo with
  | some (v, _) => (s.freeLatch lo, if s.freshLatch lo then v else (s.pairLive lo).2)
  | none => (s, (s.pairLive lo).2)

/-- The latch lapses 1 µs after the low read. -/
def expireLatch (s : State) (lo : Nat) : State :=
  match s.latched lo with
  | some (_, at_) => (s.advTo (at_ + 100)).freeLatch lo
  | none => s

/-- The address of a pair's low register. -/
def pairAddr : Pair64 → Nat
  | .rc => GL_RC_LO
  | .rdvRel k => GL_RDV_REL_LO k
  | .firstFault => FC_FIRST_RC_LO
  | .vidx t => TL_VIDX_LO t
  | .tdcLast t => TL_TDC_LAST_LO t
  | .tdcMean t => TL_TDC_MEAN_LO t
  | .adcSum t => TL_ADC_SUM_LO t
  | .calLast r => ST_CAL_LAST_LO r

/-! ### Lock, loss and relock (R29 to R32) -/

/-- What the registers and interrupts of the core domain show of the always-on receiver, which runs on through a chip reset and
deep sleep (R30, R441): nothing until the part is ready. -/
def inCore (s : State) (f : State → State) : State := if s.on GL_RST_STAT_REGS_READY then f s else s

/-- A command is refused or discarded (R33). -/
def rejectCommand (s : State) : State := (s.bump GL_SYNC_CNT_CMD_REJ).source 1244

/-- The count is loaded so that it read `c` at a tick (R30). -/
def loadCount (s : State) (tick c : Nat) : State := { s with count := BitVec.ofNat 48 (c + (s.ticks - tick)) }

/-- The part enters a state of R30; UNSYNCED follows it. -/
def enterSync (s : State) (st : Nat) : State :=
  ({ s with sync := Sync.reset }.put GL_SYNC_STAT_STATE st).put GL_SYNC_STAT_UNSYNCED (b2n (2 ≤ st))

/-- Entering LOST (R30, R32). -/
def loseSync (s : State) : State :=
  let s1 := ((s.enterSync 2).mark GL_SYNC_STAT_SYNC_LOST).inCore (·.source 1240)
  if s1.slots.any (fun x => x.op == SchedOp.start) then
    (({ s1 with slots := s1.slots.filter (fun x => x.op != SchedOp.start) }.mark GL_SCHED_STAT_CANCEL).source 1243) else s1

/-- No tiller is RUNNING, STALLED or PARKED, and no START_AT is pending (R31). -/
def allIdle (s : State) : Bool := allTillers.all (fun t => !s.active t) && !s.slots.any (fun x => x.op == SchedOp.start)

/-- The second frame of a pair (R30, R31): first tick and COUNT. One that meets a conflict may still be the first of the next pair. -/
def takePair (s : State) (tick c : Nat) : State :=
  if s.get GL_SYNC_STAT_STATE = 0 then (s.loadCount tick c).enterSync 1
  else if c = s.countAt tick then s.enterSync 1
  else if s.allIdle then (s.loadCount tick c).enterSync 1
  else
    let s1 := (s.mark GL_SYNC_STAT_COUNT_CONFLICT).inCore (·.source 1241)
    { s1 with sync := ⟨(tick, c) :: s1.sync.goods.filter (fun g => decide (tick ≤ g.1 + 128)), some (tick, c), none⟩ }

/-- RELOCK_DEFERRED (R31): the held pair's count, brought forward to now, is loaded once every tiller is idle. DEDUCED: the bad frames
that R30 counts against the lock are those received while LOCKED, so BADRUN starts at 0 (log entry 17). -/
def relockDeferred (s : State) : State :=
  match s.sync.conflict with
  | some (tick, c) => if s.get GL_SYNC_STAT_STATE = 2 && s.allIdle then ((s.loadCount tick c).enterSync 1).put GL_SYNC_STAT_BADRUN 0 else s
  | none => s

/-! ### Commands (R33 to R37) -/

/-- A frame's command reaches a part that is LOCKED with CMD_EN = 1 (R30), with REFCLK (R26), and whose core is out of reset. -/
def takesCommands (s : State) : Bool := !s.power.pllLost && s.get GL_SYNC_STAT_STATE = 1 && s.on GL_SYNC_CTRL_CMD_EN && s.on GL_RST_STAT_REGS_READY

/-- The last accepted command. -/
def acceptCommand (s : State) (cmd arg : Nat) : State := (s.put GL_SYNC_CMD_CMD cmd).put GL_SYNC_CMD_ARG arg

/-- The command word (R33). -/
def commandWord (op group s7 fine : Nat) : Nat := op * 2 ^ 12 + group * 2 ^ 8 + s7 * 2 ^ 7 + fine

/-- START_AT, HALT_AT and CLEAR_LATE (R34, R35): checked, merged or held in a pending slot. A START_AT ends the calibration
intervals of the armed tillers it names (R340). -/
def scheduleCommand (s : State) (op : SchedOp) (code c group s7 fine arg : Nat) : State :=
  let n := (c + 128 * arg + fine) % 2 ^ 48
  if s7 ≠ 0 || arg = 0 || !notBefore48 n s.view then s.rejectCommand
  else
    let ok := s.acceptCommand (commandWord code group s7 fine) arg
    if s.slots.contains ⟨op, group, n⟩ then ok
    else if 8 ≤ s.slots.length then ((s.rejectCommand).mark GL_SCHED_STAT_FULL).source 1242
    else
      let held := { ok with slots := ok.slots ++ [⟨op, group, n⟩] }
      if op == SchedOp.start then ((ok.groupTillers group).filter (fun t => ok.on (armBit t))).foldl endInterval held else held

/-- CAL_HOLD (R37): holds or releases the masked strips from count C + 128. -/
def calHold (s : State) (c group mask arg : Nat) : State :=
  if group ≠ 0 then s.rejectCommand
  else
    let from_ := s.tickOfCount ((c + 192) % 2 ^ 48)
    let len := if mask = 0 then 0 else 128 * arg
    let strips := (List.range 8).filter (fun r => mask = 0 || mask.testBit r)
    let s1 := s.acceptCommand (commandWord 3 group (mask / 128) (mask % 128)) arg
    { s1 with holds := s1.holds ++ strips.map (fun r => ⟨r, from_, from_ + len⟩) }

/-- The command of a good frame whose first tick had count c (R33). -/
def syncCommand (s : State) (c cmd arg : Nat) : State :=
  let group := bits cmd 11 8
  let s7 := bits cmd 7 7
  let fine := bits cmd 6 0
  if !s.takesCommands || cmd = 0 then s
  else match bits cmd 15 12 with
    | 1 => s.scheduleCommand .start 1 c group s7 fine arg
    | 2 => s.scheduleCommand .halt 2 c group s7 fine arg
    | 3 => s.calHold c group (s7 * 128 + fine) arg
    | 4 => s.scheduleCommand .clearLate 4 c group s7 fine arg
    | _ => s.rejectCommand

/-- The fields of a frame pass the checks of R29, the last one aside. -/
def frameGood (frame : Nat) : Bool :=
  bits frame 127 112 = 0xF0A5 && crc16 80 (bits frame 111 32) = bits frame 31 16 && bits frame 111 64 % 128 = 0

/-- A bad frame (R29, R30): the third in a row loses the lock. -/
def badFrame (s : State) : State :=
  let run := min 3 (s.get GL_SYNC_STAT_BADRUN + 1)
  let s1 := (s.put GL_SYNC_STAT_BADRUN run).inCore (·.bump GL_SYNC_CNT_BAD_FRAMES)
  if s.get GL_SYNC_STAT_STATE = 1 && run = 3 then s1.loseSync else s1

/-- In LOCKED: the 128 bits of the slot that began at a tick are judged by their fields alone (R29). -/
def judgeSlot (s0 : State) (tick frame : Nat) : State :=
  let s := s0.advTo (tick + 131)
  if s.get GL_SYNC_STAT_STATE ≠ 1 then s
  else if frameGood frame && bits frame 111 64 = s.countAt tick then
    (s.put GL_SYNC_STAT_BADRUN 0).syncCommand (bits frame 111 64) (bits frame 63 48) (bits frame 47 32)
  else s.badFrame

/-- A slot that waits for the rest of its bits, and began before a tick, is judged as it stands. -/
def endSlot (s : State) (first : Nat) : State :=
  match s.sync.slot with
  | some (tick, w) => if tick < first then { s with sync := { s.sync with slot := none } }.judgeSlot tick w else s
  | none => s

/-- What has come of the slot that began at a tick. -/
def heldBits (s : State) (first : Nat) : Nat :=
  match s.sync.slot with
  | some (tick, w) => if tick = first then w else 0
  | none => 0

/-- In LOCKED: bits that begin at a tick fall into one slot or into two (R29). The slot they end is judged; the one they reach into
waits for the rest of its bits, and holds zeros where none come. -/
def takeSlots (s : State) (start frame : Nat) : State :=
  let off := s.countAt start % 128
  let first := start - off
  let s1 := s.endSlot first
  if off = 0 then { s1 with sync := { s1.sync with slot := none } }.judgeSlot first frame
  else
    let s2 := s1.judgeSlot first (s1.heldBits first ||| frame >>> off)
    if s2.get GL_SYNC_STAT_STATE ≠ 1 then s2
    else { s2 with sync := { s2.sync with slot := some (first + 128, frame <<< (128 - off) % 2 ^ 128) } }

/-- In HUNT and LOST: a window without the preamble is no frame; a good frame makes a pair with one that began 128 ticks
before it, whatever came between them (R29 to R31). -/
def takeWindow (s0 : State) (start frame : Nat) : State :=
  let s := s0.advTo (start + 131)
  let c := bits frame 111 64
  let goods := s.sync.goods.filter (fun g => decide (start ≤ g.1 + 128))
  if bits frame 127 112 ≠ 0xF0A5 then s
  else if frameGood frame then
    let s1 := s.put GL_SYNC_STAT_BADRUN 0
    if goods.any (fun g => g.1 + 128 = start && (g.2 + 128) % 2 ^ 48 = c) then s1.takePair start c
    else { s1 with sync := { s1.sync with goods := (start, c) :: goods } }
  else s.badFrame

/-- The 128 bits of SYNC whose first came in tick `start` (R29), judged when the last has come; in LOCAL none are taken. -/
def takeFrame (s : State) (start frame : Nat) : State :=
  match s.get GL_SYNC_STAT_STATE with
  | 3 => s.advTo (start + 131)
  | 1 => (s.takeSlots start frame).advTo (start + 131)
  | _ => s.takeWindow start frame

/-- A slot that falls due leaves the queue (R35); none when no such slot is pending. -/
def takeSlot (s : State) (op : SchedOp) (group n : Nat) : Option State :=
  if s.slots.contains ⟨op, group, n⟩ then
    some { s.advTo (s.tickOfCount ((n + 64) % 2 ^ 48)) with slots := s.slots.filter (· != ⟨op, group, n⟩) } else none

/-- A START_AT reaches an armed tiller (R34, R91, R148). -/
def startArmed (s : State) (t : Nat) : State :=
  if !s.on (armBit t) || s.active t then s else (s.startAt t s.now false).put (armBit t) 0

/-- START_AT at its count (R34). DESIGN CHOICE: one that a HALT_AT excludes (R36) counts in CMD_REJ in LOCAL as well, where R30 keeps
CMD_REJ from changing by frames, which none is here (log entry 17). -/
def startDue (s : State) (group n : Nat) : State :=
  match s.takeSlot .start group n with
  | none => s
  | some s1 =>
    if s1.slots.any (fun x => x.op = .halt && x.target = n && groupsMeet x.group group) then s1.rejectCommand
    else (s1.groupTillers group).foldl startArmed s1

/-- HALT_AT at its count; the START_AT commands it excludes are discarded and counted, in LOCAL as well (R36, log entry 17). -/
def haltDue (s : State) (group n : Nat) : State :=
  match s.takeSlot .halt group n with
  | none => s
  | some s1 =>
    let out := s1.slots.filter (fun x => x.op = .start && x.target = n && groupsMeet x.group group)
    let s2 := out.foldl (fun s x => { s.rejectCommand with slots := s.slots.filter (· != x) }) s1
    (s2.groupTillers group).foldl (fun s t => s.requestStop t s.now) s2

def clearLateDue (s : State) (group n : Nat) : State :=
  match s.takeSlot .clearLate group n with
  | none => s
  | some s1 => (s1.groupTillers group).foldl (fun s t => s.put (lateBit t) 0) s1

/-- The tick at which strip r is next without a hold: a hold that begins before another has ended replaces it (R37). -/
def holdEnd (s : State) (r : Nat) : Option Nat :=
  (s.holds.filter (fun h => h.strip = r)).foldl (fun e h => match e with
    | none => if s.ticks ≤ h.until_ then some h.until_ else none
    | some e => some (if h.from_ ≤ e then h.until_ else e)) none

/-- A strip's hold ends (R37): tillers at a safe point take what is pending (R334). -/
def holdExpire (s : State) (r : Nat) : State :=
  let s1 := s.advTo ((s.holdEnd r).getD s.ticks)
  if s1.held r || s1.holds.all (fun h => h.strip != r) then s1
  else
    let s2 := { s1 with holds := s1.holds.filter (fun h => h.strip != r || decide (s1.ticks < h.from_)) }
    (stripTillers r).foldl (fun s t => if s.active t then s else s.safePoint t) s2

/-- Strips held now, as `GL_CAL_HOLD` shows them. -/
def heldStrips (s : State) : Nat := (List.range 8).foldl (fun m r => m + b2n (s.held r) * 2 ^ r) 0

/-- A write of `GL_SYNC_CTRL.EN` (R30), and of TRIM (R43). -/
def writeSyncEn (s : State) (en : Bool) : State :=
  let was := s.on GL_SYNC_CTRL_EN
  let s1 := s.put GL_SYNC_CTRL_EN (b2n en)
  if !en then (s1.enterSync 3).put GL_SYNC_STAT_BADRUN 0 else if was then s1 else s1.enterSync 0
def writeTrim (s : State) (v : Nat) : State :=
  if 320 < v then ((s.put GL_SYNC_TRIM_TRIM 320).mark GL_SYNC_TRIM_CLAMP).source 1245 else s.put GL_SYNC_TRIM_TRIM v

/-! ### Releases (R46 to R51) -/

/-- A tiller parked at a group, or waiting for a count, goes on at an instant; when its vector's own period ends later, it does
not park and is late (R123). -/
def releaseTiller (s : State) (t inst : Nat) : State :=
  let s1 := s.settle t inst
  if s1.engine t = 2 then s1.unparkAt t (max inst (ceilCycle (s1.tl t).endAt)) none
  else (s1.setLate t (s1.tl t).idx).modTl t (fun x => { x with next := .seq })

/-- One parked member is released. DESIGN CHOICE: a late release that also finds the period of the RDV vector unfinished sets LATE for
each of the two, so it writes two LATE entries and fires the source twice (R133, log entry 18). -/
def releaseMember (timeout late : Bool) (k inst : Nat) (s : State) (t : Nat) : State :=
  let s1 := s.setOwnEpoch t k (s.ownEpoch t k + 1)
  let s2 := if timeout then (s1.mark (TL_FLAGS_RDVTMO t)).tag t 24 else s1
  (if late then s2.setLate t (s2.tl t).idx else s2).releaseTiller t inst

/-- Member t has not arrived by tick R of a TIMEOUT release (R48), or not at all. -/
def absentAt (s : State) (k r : Nat) (timeout : Bool) (t : Nat) : Bool :=
  let g := s.rdv k
  !g.arrived.testBit t || (timeout && !notBefore48 r (storeGet (fun _ => 0) g.stamps t))

/-- The release of group k takes effect (R46, R48, R49): parked members go on, those that came too late with LATE, the rest are
ABSENT, the epoch advances. DESIGN CHOICE: a release with reason NORMAL leaves `GL_RDV_STAT.TIMEOUT` as it stands, to be cleared
by W1C alone (log entry 18). -/
def releaseNow (s : State) (k r : Nat) (timeout late reaches : Bool) : State :=
  let g := s.rdv k
  let parked := allTillers.filter (fun t => g.parked.testBit t && s.waitsFor t = .rdv k && s.active t)
  let absent := allTillers.filter (fun t => (s.rdvMask k).testBit t && s.absentAt k r timeout t)
  let am := absent.foldl (fun m t => m + 2 ^ t) 0
  if !reaches then (s.advanceEpoch k).setRdv k { Rdv.reset with parked := g.parked, arrived := g.arrived }
  else
    let s1 := parked.foldl (fun x t => releaseMember timeout (late || s.absentAt k r timeout t) k s.now x t) s
    let s2 := absent.foldl (fun s t => if s.active t then s.tag t 25 else s) s1
    let s3 := ((s2.put48 (GL_RDV_REL_LO k) (GL_RDV_REL_HI k) r).setReg (GL_RDV_ABSENT_LO k) (BitVec.ofNat 32 am)).setReg (GL_RDV_ABSENT_HI k) (BitVec.ofNat 32 (am / 2 ^ 32))
    let s4 := (s3.put (GL_RDV_STAT_ABSENT_CNT k) absent.length).advanceEpoch k
    let s5 := if timeout then s4.mark (GL_RDV_STAT_TIMEOUT k) else s4
    let s6 := if timeout && !absent.isEmpty then s5.source (1248 + k) else s5
    if late then (s6.mark (GL_RDV_STAT_RDV_LATE k)).source 1246 else s6

/-- RDV_RELEASE from part (x, y) (R49, R51). DEDUCED: its epoch byte is not compared. -/
def releaseMessage (s : State) (k x y r : Nat) (timeout : Bool) : State :=
  if !s.on (GL_RDV_CFG_EN k) || s.rdvLeader k ≠ 8 * y + x || 8 ≤ x then s.mark (GL_RDV_STAT_STRAY k)
  else if notBefore48 s.view r && s.view ≠ r then s.releaseNow k r timeout true true
  else s.takeRelease k r timeout true

/-- The release in this part falls due. -/
def releaseDue (s : State) (k : Nat) : State :=
  match (s.rdv k).release with
  | none => s
  | some (r, timeout, reaches, late) => (s.advTo (s.tickOfCount ((r + 64) % 2 ^ 48))).releaseNow k r timeout late reaches

/-- The leader's timeout (R48). -/
def rdvTimeout (s : State) (k : Nat) : State :=
  let g := s.rdv k
  match g.tFirst with
  | none => s
  | some f =>
    let n := (f + (s.reg GL_RDV_TMO).toNat) % 2 ^ 48
    if g.sent || s.rdvLeader k ≠ s.here || !s.on (GL_RDV_CFG_EN k) then s
    else
      let s1 := s.advTo (s.tickOfCount ((n + 64) % 2 ^ 48))
      let miss := (List.range 48).foldl (fun m b => if (s.rdvParts k).testBit b && !g.complete.testBit b then m + 2 ^ b else m) 0
      let s2 := (s1.setReg (GL_RDV_MISSING_LO k) (BitVec.ofNat 32 miss)).setReg (GL_RDV_MISSING_HI k) (BitVec.ofNat 32 (miss / 2 ^ 32))
      (s2.mark (GL_RDV_STAT_TIMEOUT k)).sendRelease k (ceil128 (n + 256)) true

/-- A tiller parked by WAITRC W goes on at count W (R38, R39, R123). -/
def waitrcWake (s : State) (t : Nat) : State :=
  match s.waitsFor t with
  | .waitrc w =>
    if s.engine t = 1 || s.engine t = 2 then
      let d := (w + 64 + 2 ^ 32 - s.count.toNat % 2 ^ 32) % 2 ^ 32
      let s1 := if d < 2 ^ 31 then s.advTo (s.ticks + d) else s
      s1.releaseTiller t s1.now
    else s
  | _ => s

end State

end Sys2Proof.Machine
end

