-- ==== Sys2Proof/Machine/Measure.lean ====
section
/-! DEFINITION. The sliced ADC and the time-interval counter (10_measurement.md). -/

namespace Sys2Proof.Machine

/-- Largest number whose square is at most n, among the numbers of k bits. -/
def root (n : Nat) : Nat → Nat → Nat
  | 0, acc => acc
  | k + 1, acc => if (acc + 2 ^ k) ^ 2 ≤ n then root n k (acc + 2 ^ k) else root n k acc

/-- Σx/n in 1/256 LSB, to the nearest, ties upward (R322). -/
def tdcMean (xs : List Nat) : Nat := if xs.isEmpty then 0 else (512 * xs.foldl (· + ·) 0 + xs.length) / (2 * xs.length)

/-- Sample standard deviation in 1/256 LSB, to the nearest; 0 for fewer than two values (R322). -/
def tdcSd (xs : List Nat) : Nat :=
  let n := xs.length
  let sum := xs.foldl (· + ·) 0
  let sq := xs.foldl (fun a x => a + x * x) 0
  if n ≤ 1 then 0 else (root (4 * 65536 * (n * sq - sum * sum) / (n * (n - 1))) 70 0 + 1) / 2

namespace State

/-! ### Reference (R310, R311) -/

/-- The reference buffer is on; the tick at which it was last turned on. -/
def refOn (s : State) (t : Nat) : Bool := s.on (TL_ADC_CTRL_REF_EN t) || s.on (TL_SUP_CTRL_SUP_EN t 0) || s.on (TL_SUP_CTRL_SUP_EN t 1)

/-- After a write of REF_EN or SUP_EN; `before` tells whether the buffer was on. -/
def afterRef (s : State) (t : Nat) (before : Bool) : State :=
  if s.refOn t then (if before then s else (s.setAdc t { s.adc t with refAt := some s.ticks }).put (TL_ADC_STAT_REF_READY t) 0)
  else s.put (TL_ADC_STAT_REF_READY t) 0

/-- The reference is ready 2 ms after it turned on. -/
def refReady (s : State) (t : Nat) : State :=
  if s.refOn t then (s.advTo (s.refStart t + 200000)).mark (TL_ADC_STAT_REF_READY t) else s

/-- ADC_SLICE_EXCHANGE (R311): 1 ms after the one before, the first one 1 ms after reset; with the reference not ready the slices stay as
they are. -/
def sliceExchange (s : State) (t : Nat) : State :=
  let at_ := max ((s.adc t).sliceAt.getD s.resetEnd + 100000) s.ticks
  let s1 := (s.advTo at_).setAdc t { s.adc t with sliceAt := some at_ }
  if s1.on (TL_ADC_STAT_REF_READY t) then s1.wrapUp (TL_ADC_STAT_CAL_ROUND t) else s1

/-! ### Bursts (R304 to R308, R315) -/

/-- A burst begins with the settings in force (R305, R308). -/
def beginBurst (s : State) (t trigAt count : Nat) : State :=
  let x := s.adc t
  let input := s.get (TL_ADC_CFG_INPUT t)
  let range := s.get (TL_ADC_CFG_RANGE t)
  let flen := s.get (TL_ADC_CFG_FLEN t)
  let a := match x.prev with
    | none => 1
    | some (i, _, _) => b2n (i ≠ input)
  let b := match x.prev with
    | none => 0
    | some (_, r, _) => if r ≠ range && input < 12 then 3 else 0
  let c := match x.prev with
    | none => 0
    | some (_, _, l) => if l ≠ flen then 2 ^ flen + 2 else 0
  let keep := match x.prev with
    | none => false
    | some (i, r, _) => i = input && r = range
  let base := s.get (TL_ADC_BUF_HI_BASE_HI t) * 2 ^ 32 + s.get (TL_ADC_BUF_LO_BASE_LO t) * 64
  let len := s.get (TL_ADC_BUF_LEN_LEN t)
  let bad := decide (0x400000000 < base + 4 * len)
  let want := s.on (TL_ADC_BURST_BUF_EN t)
  let n : Burst := { input := input, range := range, flen := flen, period := s.get (TL_ADC_CFG_PERIOD t), count := max 1 count, trigAt := trigAt, started := 0, lastAt := 0, convs := [], total := 0, used := 0, sum := 0, least := 32767, most := -32768, buffer := if want && !bad then some (base, len) else none, line := [], last := none, aborted := false, refill := !keep }
  let s1 := s.setAdc t { x with bursts := x.bursts ++ [n], prev := some (input, range, flen) }
  let s2 := (s1.put (TL_ADC_STAT_SETTLE_LEFT t) (max (s.get (TL_ADC_STAT_SETTLE_LEFT t)) (max a (max b c)))).mark (TL_ADC_STAT_BUSY t)
  if want && bad then s2.mark (TL_ADC_STAT_BUF_REJ t) else s2

/-- A trigger at an instant (R305, R307): it begins a burst, is held, or is dropped. -/
def adcTrigger (s : State) (t inst count : Nat) : State :=
  let x := s.adc t
  if x.bursts.isEmpty then s.beginBurst t inst count
  else if x.held.isSome then s.bump (TL_ADC_CNT_OVERRUN t)
  else (s.setAdc t { x with held := some (inst, count) }).mark (TL_ADC_STAT_HELD t)

/-- MEAS sends its trigger on its way (R120); the oldest one reaches the ADC. -/
def measure (s : State) (t inst count : Nat) : State := s.setAdc t { s.adc t with due := (s.adc t).due ++ [(inst + 1280, count)] }
def triggerDue (s : State) (t : Nat) : State :=
  match (s.adc t).due with
  | [] => s
  | (inst, n) :: r => (((s.setAdc t { s.adc t with due := r }).advInst inst).adcTrigger t inst n)

/-- The first instant at or after one that lies 25 ticks or more from every supervision start of output h: schedule counts that
are 0 (VDUT) or 1 000 (HV) modulo 2 000 (R306). -/
def clearOf (s : State) (t h inst : Nat) : Nat :=
  if !s.on (TL_SUP_CTRL_SUP_EN t h) then inst
  else
    let phase := (s.countAt (inst / 1280) + 2 ^ 48 - 64 + (if h = 0 then 0 else 1000)) % 2 ^ 48 % 2000 * 1280 + inst % 1280
    if phase < 32000 then inst + (32000 - phase) else if 2560000 - phase < 32000 then inst + (2560000 - phase) + 32000 else inst

/-- Earliest start of the next conversion of a burst (R306). -/
def convEarliest (s : State) (t : Nat) (b : Burst) : Nat :=
  let nominal := b.trigAt + b.started * b.period * 1280
  let e := if b.started = 0 then nominal else max nominal (b.lastAt + 32000)
  s.clearOf t 1 (s.clearOf t 0 e)

/-- The sample lies in a settling window of its source (R309). -/
def settling (s : State) (t input inst : Nat) : Bool :=
  if input = 8 || input = 9 then (match (s.sup t 0).settleUntil with | some u => decide (inst < u * 1280) | none => false)
  else if input < 8 then (match (s.pin (8 * t + input)).ppmuAt with | some a => decide (inst < (a + 2000) * 1280) | none => false)
  else false

/-- Replace the burst that still starts conversions: the newest one. -/
def putLast (bs : List Burst) (b : Burst) : List Burst := bs.dropLast ++ [b]

/-- A conversion starts (R306): at the first instant allowed; while a calibration step runs on the tiller, whose own conversions no rule
times, at the first instant allowed from the given one on, no later than 25 ticks after that step has ended (DESIGN CHOICE, log entry 29).
It counts down SETTLE_LEFT (R308). -/
def convStart (s0 : State) (t at_ : Nat) : State :=
  match (s0.adc t).bursts.getLast? with
  | none => s0
  | some b =>
    if b.count ≤ b.started then s0
    else
      let first := s0.convEarliest t b
      let inst := match (s0.calTl t).stepEnd with
        | some e => s0.clearOf t 1 (s0.clearOf t 0 (max first (min at_ (e * 1280 + 32000))))
        | none => first
      let s := s0.advInst inst
      let nominal := b.trigAt + b.started * b.period * 1280
      let noref := !s.refOn t || decide (inst < (s.refStart t + 200000) * 1280)
      let left := s.get (TL_ADC_STAT_SETTLE_LEFT t)
      let v : Conv := ⟨inst, decide (nominal < inst), decide (0 < left) || s.settling t b.input inst, noref, b.input < 8 && s.get (PN_PPMU_CTRL_MODE (8 * t + b.input)) = 0⟩
      let s0 := s.put (TL_ADC_STAT_SETTLE_LEFT t) (left - 1)
      let s1 := s0.setAdc t { s0.adc t with bursts := putLast (s0.adc t).bursts { b with started := b.started + 1, lastAt := inst, convs := b.convs ++ [v] } }
      if nominal < inst then s1.bump (TL_ADC_CNT_DLY t) else s1

/-- The held trigger begins its burst 25 ticks after the last conversion of the running one has started (R307). -/
def heldBurst (s : State) (t : Nat) : State :=
  let x := s.adc t
  match x.held, x.bursts.getLast? with
  | some (h, n), some b =>
    if b.started < b.count then s
    else
      let inst := max h (b.lastAt + 32000)
      (((s.setAdc t { x with held := none }).put (TL_ADC_STAT_HELD t) 0).advInst inst).beginBurst t inst n
  | some (h, n), none => ((s.setAdc t { x with held := none }).put (TL_ADC_STAT_HELD t) 0).beginBurst t (max h s.now) n
  | none, _ => s

/-- Write the present line of a burst's buffer, padded with ones (R315). -/
def flushLine (s : State) (b : Burst) (stored : Nat) : State :=
  match b.buffer with
  | none => s
  | some (base, _) =>
    if b.line.isEmpty then s
    else s.memPut (base + (stored - 1) / 16 * 64) ((b.line ++ List.replicate (16 - b.line.length) 0xFFFFFFFF).flatMap (bytesLE 4)) false

/-- The oldest burst completes (R313, R316): the statistics are published at once. A burst aborted before its first result keeps
the last result word of the burst before it. -/
def publishBurst (s : State) (t : Nat) (b : Burst) : State :=
  let x := s.adc t
  let stored := match b.buffer with
    | some (_, len) => min b.total len
    | none => 0
  let s1 := (s.flushLine b stored).setAdc t { x with bursts := x.bursts.drop 1 }
  let s2 := match b.last with
    | some w => s1.setReg (TL_ADC_RES_LO t) (BitVec.ofNat 32 w)
    | none => s1
  let s3 := (s2.mark (TL_ADC_RES_HI_VALID t)).wrapUp (TL_ADC_RES_HI_SEQ t)
  let sum := unsigned 64 b.sum
  let s4 := (s3.setReg (TL_ADC_SUM_LO t) (BitVec.ofNat 32 sum)).setReg (TL_ADC_SUM_HI t) (BitVec.ofNat 32 (sum / 2 ^ 32))
  let s5 := (s4.put (TL_ADC_MINMAX_MIN t) (unsigned 16 b.least)).put (TL_ADC_MINMAX_MAX t) (unsigned 16 b.most)
  let s6 := (s5.put (TL_ADC_NUSED_N_TOTAL t) b.total).put (TL_ADC_NUSED_N_USED t) b.used
  let s7 := if b.aborted then s6.mark (TL_ADC_STAT_ABORTED t) else s6
  ((s7.put (TL_ADC_STAT_BUSY t) (b2n (!(s7.adc t).bursts.isEmpty))).localSource t 1).tlSource t 6

/-- The code of a conversion (R302, R303): saturated beyond full scale, within 8 LSB of 0 from a grounded input; and whether it is
clipped. -/
def adcCode (grounded : Bool) (raw : Int) (overRange : Bool) : Int × Bool :=
  if grounded then (max (-8) (min 8 raw), false)
  else if overRange then (if raw < 0 then -32768 else 32767, true)
  else (max (-32768) (min 32767 raw), decide (raw < -32768 ∨ 32767 < raw))

/-- A result is ready (R301, R302, R304, R312): `raw` is the converter's code, `overRange` an input beyond full scale. -/
def adcResult (s0 : State) (t : Nat) (raw : Int) (overRange : Bool) : State :=
  match (s0.adc t).bursts with
  | [] => s0
  | b :: rest =>
    match b.convs with
    | [] => s0
    | v :: vs =>
      let s := s0.advInst (v.at_ + 120 * 1280)
      let x := s.adc t
      let c := adcCode v.grounded raw overRange
      let code := c.1
      let afresh := x.rawOf ≠ some (b.input, b.range) || (b.refill && b.total = 0)
      let hist := if afresh then List.replicate 256 code else (code :: x.raw).take 256
      let len := 2 ^ b.flen
      let data := ((hist.take len).foldl (· + ·) 0 + Int.ofNat (len / 2)) / Int.ofNat len
      let word := unsigned 16 data + b.input * 2 ^ 16 + b.range * 2 ^ 20 + b2n v.settle * 2 ^ 22 + b2n v.noref * 2 ^ 23 + b2n c.2 * 2 ^ 24 + b2n v.dly * 2 ^ 25
      let b1 := { b with convs := vs, total := b.total + 1, last := some word }
      let b2 := if v.settle || v.noref then b1 else { b1 with used := b.used + 1, sum := b.sum + data, least := min b.least data, most := max b.most data }
      let room := match b.buffer with
        | some (_, n) => decide (b.total < n)
        | none => false
      let b3 := if room then { b2 with line := b2.line ++ [word] } else b2
      let s1 := s.setAdc t { x with raw := hist, rawOf := some (b.input, b.range), bursts := b3 :: rest }
      let s2 := if b.buffer.isSome && !room then s1.mark (TL_ADC_STAT_TRUNC t) else s1
      let s3 := if b3.line.length = 16 then (s2.flushLine b3 b3.total).setAdc t { s2.adc t with bursts := { b3 with line := [] } :: rest } else s2
      let b4 := if b3.line.length = 16 then { b3 with line := [] } else b3
      if b4.count ≤ b4.total then
        let s4 := s3.publishBurst t b4
        match rest with
        | n :: _ => if n.aborted && n.count ≤ n.total then s4.publishBurst t n else s4
        | [] => s4
      else s3

/-- ABORT (R316): the burst ends with the conversions in progress, the held trigger is discarded. Bursts publish in order. -/
def adcAbort (s : State) (t : Nat) : State :=
  let x := s.adc t
  let s1 := (s.setAdc t { x with held := none }).put (TL_ADC_STAT_HELD t) 0
  match x.bursts.getLast? with
  | none => s1
  | some b =>
    let b1 := { b with count := b.started, aborted := true }
    let s2 := s1.setAdc t { s1.adc t with bursts := putLast x.bursts b1 }
    if b1.convs.isEmpty && x.bursts.length = 1 then s2.publishBurst t b1 else s2

/-- A read of `TL_ADC_RES_LO` (R314). -/
def readResult (s : State) (t : Nat) : State × Nat :=
  let r := s.readLow (TL_ADC_RES_LO t)
  (r.1.put (TL_ADC_RES_HI_VALID t) 0, r.2)

/-! ### The time-interval counter -/

/-- TDC states: 0 IDLE, 1 ARMED, 2 WAIT_STOP, 3 DONE. -/
def tdcState (s : State) (t : Nat) : Nat := s.get (TL_TDC_STAT_STATE t)

/-- The statistics registers take their Reset values. -/
def tdcClear (s : State) (t : Nat) : State :=
  [TL_TDC_CNT t, TL_TDC_LAST_LO t, TL_TDC_LAST_HI t, TL_TDC_MEAN_LO t, TL_TDC_MEAN_HI t, TL_TDC_SD t, TL_TDC_MIN t, TL_TDC_MAX t, TL_TDC_NVALID t].foldl (fun s a => s.setReg a (resetWord a)) ((s.put (TL_TDC_STAT_PAIRS t) 0).put (TL_TDC_STAT_SAT t) 0)

/-- An arm at an instant in edge steps (R318); tells whether it was taken. -/
def tdcArm (s : State) (t inst n : Nat) : State × Bool :=
  if s.tdcState t = 1 || s.tdcState t = 2 then (s, false)
  else
    let x : Tdc := { Tdc.reset with arms := (s.tdc t).arms, startHeard := (s.tdc t).startHeard, stopHeard := (s.tdc t).stopHeard, start := s.get (TL_TDC_SRC_START t) % 64, stop := s.get (TL_TDC_SRC_STOP t) % 64, pairs := max 1 n, holdoff := s.get (TL_TDC_CFG_HOLDOFF t), tmo := (s.reg (TL_TDC_TMO t)).toNat, readyAt := 2 * inst }
    (((s.tdcClear t).setTdc t x).put (TL_TDC_STAT_STATE t) 1, true)

/-- TDCARM sends an arm on its way: it reaches the TDC 8 cycles after the issue (R121). -/
def tdcarm (s : State) (t inst n : Nat) : State := s.setTdc t { s.tdc t with arms := (s.tdc t).arms ++ [(inst + 1280, n)] }

/-- An arm reaches the TDC; one that finds it ARMED or WAIT_STOP is counted (R121). -/
def armArrives (s : State) (t : Nat) (a : Nat × Nat) : State :=
  let r := s.tdcArm t a.1 a.2
  if r.2 then r.1 else s.bump (TL_OPSTAT_TDC_REJ t)

/-- The arms that have reached the TDC by an instant act. -/
def takeArms (s : State) (t inst : Nat) : State :=
  let x := s.tdc t
  if x.arms.isEmpty then s
  else (x.arms.filter (fun a => decide (a.1 ≤ inst))).foldl (fun s a => s.armArrives t a) (s.setTdc t { x with arms := x.arms.filter (fun a => decide (inst < a.1)) })

/-- A write of ARM (R318). -/
def tdcArmWrite (s : State) (t : Nat) : State :=
  let r := s.tdcArm t s.now (s.get (TL_TDC_CFG_N t))
  if r.2 then r.1 else s.mark (TL_TDC_STAT_ARM_REJ t)

/-- The acquisition ends (R322): statistics, result, local source 0x2. -/
def tdcEnd (s : State) (t why : Nat) : State :=
  let x := s.tdc t
  let least := x.ivls.foldl min (2 ^ 48)
  let most := x.ivls.foldl max 0
  let sat := !x.ivls.isEmpty && decide (0xFFFFFFFF < most)
  let w (v : Nat) : Word := BitVec.ofNat 32 (min v 0xFFFFFFFF)
  let s1 := (s.put (TL_TDC_STAT_STATE t) 3).put (TL_TDC_STAT_SAT t) (b2n sat)
  let s2 := s1.put48 (TL_TDC_MEAN_LO t) (TL_TDC_MEAN_HI t) (tdcMean x.ivls)
  let s3 := ((s2.setReg (TL_TDC_SD t) (w (tdcSd x.ivls))).setReg (TL_TDC_MIN t) (w least)).setReg (TL_TDC_MAX t) (w most)
  let s4 := (s3.put (TL_TDC_NVALID_N t) x.ivls.length).setReg (TL_TDC_CNT t) (BitVec.ofNat 32 (x.order * 2 ^ 24 + x.tight * 2 ^ 16 + x.nostop * 2 ^ 8 + x.ovf))
  let s5 := ((s4.mark (TL_TDC_RESULT_VALID t)).put (TL_TDC_RESULT_END t) why).wrapUp (TL_TDC_RESULT_SEQ t)
  (s5.localSource t 2).tlSource t 7

/-- A pair ends at an instant in LSB (R320, R321): LAST, the count of pairs, the next pair or the end. -/
def tdcPair (s : State) (t inst lo hi : Nat) (x : Tdc) : State :=
  let s1 := (s.setReg (TL_TDC_LAST_LO t) (BitVec.ofNat 32 lo)).setReg (TL_TDC_LAST_HI t) (BitVec.ofNat 32 hi)
  let s2 := (s1.wrapUp (TL_TDC_STAT_PAIRS t)).setTdc t { x with readyAt := inst + 640 }
  if x.pairs ≤ s2.get (TL_TDC_STAT_PAIRS t) then s2.tdcEnd t 1 else s2.put (TL_TDC_STAT_STATE t) 1

/-- A pair without a stop: NOSTOP, its interval a free value, or OVF. -/
def tdcNoStop (s : State) (t inst : Nat) : State :=
  let v := (Config.nostopInterval s.draws).toNat
  let x := s.tdc t
  s.draw.tdcPair t inst (v % 2 ^ 32) (2 ^ 30 + v / 2 ^ 32) { x with nostop := min 255 (x.nostop + 1) }
def tdcOverflow (s : State) (t inst : Nat) : State :=
  let x := s.tdc t
  s.tdcPair t inst 0xFFFFFFFF (2 ^ 29 + 0xFF) { x with ovf := min 255 (x.ovf + 1) }

/-- An edge of the start or of the stop source can have come (R317): after it the comparator a pin source names reads as EDGE says; the
latch of an event source has set since that source last took an edge. -/
def edgeSeen (s : State) (t src : Nat) (start : Bool) : Bool :=
  let o := s.above (8 * t + src % 8)
  if src.testBit 5 then (if start then (s.tdc t).startHeard else (s.tdc t).stopHeard).testBit (src % 8)
  else (if src.testBit 3 then o.2 else o.1) != src.testBit 4

/-- An edge of an event source is taken: the setting of its latch is used up. -/
def edgeTaken (s : State) (t src : Nat) (start : Bool) : State :=
  let x := s.tdc t
  if !src.testBit 5 then s
  else if start then s.setTdc t { x with startHeard := insert32 x.startHeard (src % 8) (src % 8) 0 }
  else s.setTdc t { x with stopHeard := insert32 x.stopHeard (src % 8) (src % 8) 0 }

/-- The time of an edge in LSB (R317): at the ball, by the deskew of the pin's compare path; of an event, to the grain. -/
def edgeTime (s : State) (t src at_ : Nat) : Nat :=
  if src.testBit 5 then at_ / 160 * 160 else (Int.ofNat at_ - 2 * s.correction t (src % 8) 3).toNat

/-- An edge of the start source at an instant in LSB (R319). -/
def tdcStart (s0 : State) (t at_ : Nat) : State :=
  let s := s0.takeArms t (at_ / 2)
  let src := (s.tdc t).start
  let e := s.edgeTime t src at_
  let w := s.edgeTaken t src true
  if s.tdcState t = 1 && s.edgeSeen t src true && decide ((s.tdc t).readyAt ≤ e) then
    ((w.advInst (at_ / 2)).setTdc t { w.tdc t with startAt := e }).put (TL_TDC_STAT_STATE t) 2 else w

/-- A stop edge takes effect at a time in LSB (R319, R320). -/
def stopAt (s : State) (t at_ : Nat) : State :=
  let x := s.tdc t
  match s.tdcState t with
  | 1 => s.setTdc t { x with order := min 255 (x.order + 1) }
  | 2 =>
    if at_ < x.startAt + 2 * x.holdoff then s
    else if x.startAt + 2 ^ 32 * 160 ≤ at_ then s.tdcOverflow t (x.startAt + 2 ^ 32 * 160)
    else
      let d := at_ - x.startAt
      let tight := d = 0
      s.tdcPair t at_ (d % 2 ^ 32) (b2n tight * 2 ^ 31 + d / 2 ^ 32) { x with ivls := x.ivls ++ [d], tight := if tight then min 255 (x.tight + 1) else x.tight }
  | _ => s

/-- An edge of the stop source at an instant in LSB. -/
def tdcStop (s0 : State) (t at_ : Nat) : State :=
  let s := (s0.takeArms t (at_ / 2)).advInst (at_ / 2)
  if s.edgeSeen t (s.tdc t).stop false then (s.edgeTaken t (s.tdc t).stop false).stopAt t (s.edgeTime t (s.tdc t).stop at_) else s

/-- The timeouts of R321: their instants follow from the arming, the start, and `TL_TDC_TMO`. The arms that have reached the TDC by then
act first (R121, R318). -/
def tdcNostopTimeout (s : State) (t : Nat) : State :=
  let x := s.tdc t
  let inst := x.startAt + x.tmo * 2560
  if s.tdcState t = 2 && x.tmo ≠ 0 then ((s.takeArms t (inst / 2)).advInst (inst / 2)).tdcNoStop t inst else s
def tdcNostartTimeout (s0 : State) (t : Nat) : State :=
  let s := if s0.tdcState t = 1 || s0.tdcState t = 2 then s0 else s0.takeArms t (((s0.tdc t).arms.head?.map (·.1)).getD 0)
  let x := s.tdc t
  let inst := (x.readyAt + x.tmo * 2560) / 2
  if s.tdcState t = 1 && x.tmo ≠ 0 then ((s.takeArms t inst).advInst inst).tdcEnd t 2 else s
def tdcOvfTimeout (s : State) (t : Nat) : State :=
  let x := s.tdc t
  let inst := x.startAt + 2 ^ 32 * 160
  if s.tdcState t = 2 then ((s.takeArms t (inst / 2)).advInst (inst / 2)).tdcOverflow t inst else s

/-- ABORT (R322). -/
def tdcAbort (s : State) (t : Nat) : State := if s.tdcState t = 1 || s.tdcState t = 2 then s.tdcEnd t 3 else s

end State

end Sys2Proof.Machine
end

