-- ==== Sys2Proof/Machine/Vector.lean ====
section
/-! DEFINITION. Vector issue (03_tiller_vectors.md, R53 to R87; 04_tiller_flow_and_apg.md; 05_segments_and_streaming.md; R161 to
R176): fetch, checks, pin actions, compares, and the control opcodes. -/

namespace Sys2Proof.Machine

/-! ### Checks (R59, R87, R132) -/

/-- The control opcode map (R67). -/
def opcodeKnown (opc : Nat) : Bool :=
  decide (opc ≤ 0x0B) || (decide (0x10 ≤ opc) && decide (opc ≤ 0x15)) || (decide (0x20 ≤ opc) && decide (opc ≤ 0x22)) || opc = 0x28 || opc = 0x29
    || (decide (0x30 ≤ opc) && decide (opc ≤ 0x33)) || (decide (0x38 ≤ opc) && decide (opc ≤ 0x3A)) || opc = 0x40 || opc = 0x41

/-- The operand is a vector SRAM target (R68). -/
def hasTarget (opc : Nat) : Bool := opc = 0x04 || opc = 0x05 || opc = 0x10 || opc = 0x11 || opc = 0x12 || opc = 0x14 || opc = 0x15

/-- Operand bits shown as 0 for an opcode without a target (R67, R102, R120, R121, R125, R131, R143, R154). -/
def reservedOperand (opc : Nat) : Nat :=
  match opc with
  | 0x00 | 0x06 | 0x0A => 0xFFFFFFFF
  | 0x03 => 0xFFFFFFFC
  | 0x07 | 0x39 | 0x3A => 0xFFFF0000
  | 0x08 | 0x09 | 0x29 | 0x41 => 0xFFFFFF00
  | 0x21 => 0xFFFFFFE0
  | 0x22 => 0xFF000000
  | 0x28 => 0xFFFFFE00
  | 0x30 => 0x7FF00000
  | 0x31 => 0x7FFF0000
  | 0x33 => 0x3FF00000
  | _ => 0

/-- Some pin code is 0xF (R62). -/
def badPin (w : Nat) : Bool := (List.range 8).any (fun p => bits w (4 * p + 3) (4 * p) = 15)

/-- APG_CONFLICT (R100, R103). -/
def apgConflict (v : Vec) : Bool :=
  let x := addrOpOf v.xop
  let y := addrOpOf v.yop
  !chainOk v.xop v.yop || !savesOk v.xop v.yop || (v.opc = 0x30 && (x.op ≠ 0 || y.chain)) || (v.opc = 0x31 && (y.op ≠ 0 || x.chain))
    || (v.opc = 0x32 && v.dop % 16 ≠ 0) || (v.opc = 0x33 && ((x.op = 6 && x.n = bits v.opd 31 30) || (y.op = 6 && y.n = bits v.opd 31 30)))

/-! ### Pin codes and formats (R62 to R65, R170) -/

/-- Bit `sel` of a generator of n bits, and the next one, wrapping (R64, R65); nothing beyond the generator. -/
def selectBits (n v sel : Nat) : Bool × Bool := if n ≤ sel then (false, false) else (v.testBit sel, v.testBit ((sel + 1) % n))

/-- The level of a data bit. -/
def dataLevel (d : Bool) : Level := if d then .vih else .vil

/-- Driver edges of a drive of bits (a, b) in a format: edge number and action (R170). -/
def driveEdges (fmt : Nat) (a b : Bool) : List (Nat × EdgeAct) :=
  match fmt with
  | 1 => [(0, .on), (1, .sel (dataLevel a)), (2, .sel .vil)]
  | 2 => [(0, .on), (1, .sel (dataLevel a)), (2, .sel .vih)]
  | 3 => [(0, .on), (0, .sel (dataLevel (!a))), (1, .sel (dataLevel a)), (2, .sel (dataLevel (!a)))]
  | 4 => [(0, .on), (1, .sel (dataLevel a)), (2, .sel (dataLevel b))]
  | _ => [(0, .on), (1, .sel (dataLevel a))]

/-- The clock pulse of DK (R63), and the level it returns to. -/
def clockEdges (fmt : Nat) : List (Nat × EdgeAct) :=
  match fmt with
  | 2 => [(0, .on), (1, .sel .vil), (2, .sel .vih)]
  | 3 => driveEdges 3 true true
  | _ => [(0, .on), (1, .sel .vih), (2, .sel .vil)]
def clockReturn (fmt : Nat) : Level := if fmt = 2 then .vih else .vil

/-- The codes that drive data (R62). -/
def drivesData (code : Nat) : Bool := code ≤ 1 || code = 7 || code = 8 || code = 10 || code = 11

/-- What a compare code expects: the first bit for AE (R62). -/
def expectOf (code : Nat) (d : Bool) : Option Expect :=
  match code with
  | 2 => some .low
  | 3 => some .high
  | 4 => some .mid
  | 9 => some (if d then .high else .low)
  | 13 => some .cap
  | _ => none

/-- The comparator pair a level logic drive shows through L-digital (R390). -/
def shownBy (on d : Bool) : Bool × Bool := if on then (d, d) else (false, true)

namespace State

/-- The entries a vector would queue (R115, R117). -/
def wantsLevels (v : Vec) (first : Bool) : Nat := b2n (first && decide (v.lvl ≠ 0)) + b2n (v.opc = 0x38)

/-- EVS may fire a channel (R131, R408). -/
def mayFireEvs (s : State) (t k : Nat) : Bool :=
  s.get (EV_CH_CFG_OWNER k) = 2 && s.get (EV_CH_CFG_TDOM k) = s.get (EV_TDOM_DOM (t / 8) (t % 8)) && !s.on (EV_CH_CFG_SEC k) && !s.on (EV_CH_CFG_LOCK k)

/-- The opcode with its operand and condition passes the checks 0x04 to 0x0A (R87). -/
def opcodeCause (s : State) (t opc opd cnd : Nat) : Nat :=
  if !opcodeKnown opc then 0x04
  else if !condOk opc cnd then 0x05
  else if !hasTarget opc && opd &&& reservedOperand opc ≠ 0 then 0x06
  else if hasTarget opc && 2 ^ 14 ≤ opd then 0x07
  else if (opc = 0x05 || (opc = 0x28 && opd.testBit 8)) && s.get (TL_SEQ_STAT_SP t) = 8 then 0x08
  else if opc = 0x06 && s.get (TL_SEQ_STAT_SP t) = 0 then 0x09
  else if opc = 0x03 && !s.fbit (TL_SEQ_STAT_LOOP_OPEN t) (opd % 4) then 0x0A
  else 0

/-- Every check on a vector due to issue (R87, R132), with the level-change entry it names (R114): 0, or the cause. -/
def vectorCause (s : State) (t : Nat) (v : Vec) (entry : List Nat) (first : Bool) : Nat :=
  let c := s.opcodeCause t v.opc v.opd v.cnd
  if v.rsv ≠ 0 then 0x02
  else if badPin v.pin then 0x03
  else if c ≠ 0 then c
  else if !addrOpOk v.xop || !addrOpOk v.yop || !dataOpOk v.dop then 0x10
  else if apgConflict v then 0x11
  else if (first && v.lvl ≠ 0 && !entry.all changeOk) || (v.opc = 0x38 && !changeOk v.opd) then 0x12
  else if 16 < s.lvlPending t + wantsLevels v first then 0x13
  else if v.opc = 0x41 && !s.mayFireEvs t (v.opd % 256) then 0x14
  else 0

/-! ### Placing a pin's edges and strobes (R163, R164) -/

/-- The data bits a code puts on a pin (R62 to R65), before the issue's APG operations. -/
def pinData (s : State) (t p code : Nat) : Bool × Bool :=
  let sel (k : Nat) : Nat := s.get (TL_AMAP_SEL t (k + p / 4) (p % 4))
  match code with
  | 1 => (true, true)
  | 7 => ((s.pin (8 * t + p)).lastDrive, (s.pin (8 * t + p)).lastDrive)
  | 8 | 9 => selectBits 32 (s.dataSeen t) (sel 0)
  | 10 => selectBits 20 (s.physical t).1 (sel 2)
  | 11 => selectBits 16 (s.physical t).2 (sel 4)
  | _ => (false, false)

/-- Where edge e of a pin falls in a vector issued at an instant (R163): corrections never reverse the order of two edges that act in the
vector (R164). -/
def edgeAt (s : State) (t k p inst : Nat) (acting : List Nat) (e : Nat) : Nat :=
  let raw (j : Nat) : Nat := (Int.ofNat (inst + s.tsEdge t k p j) + s.correction t p j).toNat
  (acting.filter (fun j => decide (s.tsEdge t k p j < s.tsEdge t k p e))).foldl (fun m j => max m (raw j)) (raw e)

/-- Edges of a pin's vector: its driver edges, its new DN value, the level a clock pulse returns to. -/
def driveOf (s : State) (t p code fmt : Nat) : List (Nat × EdgeAct) × Option Bool × Option Level :=
  let d := s.pinData t p code
  if drivesData code then (driveEdges fmt d.1 (if fmt = 4 then d.2 else d.1), some (if fmt = 4 then d.2 else d.1), none)
  else match code with
    | 6 => (clockEdges fmt, none, some (clockReturn fmt))
    | 12 => ([], none, none)
    | 14 => [(0, EdgeAct.on), (0, EdgeAct.sel .vtt)] |> fun l => (l, none, none)
    | _ => ([(0, .off)], none, none)

/-- The partner's logic drive in the same vector (R390, L-digital): for the first or the second bit. -/
def partnerShows (s : State) (t q code fmt inst : Nat) (second : Bool) : Bool × Bool :=
  let d := s.pinData t q code
  if drivesData code then shownBy true (if second && fmt = 4 then d.2 else d.1)
  else if code = 6 then shownBy true (fmt != 2)
  else if code = 12 then (let x := (s.pin (8 * t + q)).runTo inst false; shownBy (x.enable && x.sel != .vtt) (x.sel == .vih))
  else shownBy false false

/-- The edges of a pin that act in a vector: those of its drive, and its strobes (R164, R170, R172). -/
def actingEdges (s : State) (t k p code : Nat) : List Nat :=
  let fmt := s.tsFmt t k p
  let drive := ((s.driveOf t p code fmt).1.map (·.1)).eraseDups
  if (expectOf code (s.pinData t p code).1).isNone then drive
  else if code ≠ 13 && (fmt = 4 || (s.tsWindow t k p && decide (s.tsEdge t k p 3 < s.tsEdge t k p 4))) then drive ++ [3, 4]
  else drive ++ [3]

/-- The strobes of a pin in a vector (R62, R64, R66, R172, R390), each with the instants at which it and its pin's compare have resolved,
40 ns after the programmed edge (R80, R198). -/
def strobesOf (s : State) (t k p inst pinWord : Nat) : List Strobe :=
  let code := bits pinWord (4 * p + 3) (4 * p)
  let fmt := s.tsFmt t k p
  let d := s.pinData t p code
  let q := p ^^^ 1
  let qcode := bits pinWord (4 * q + 3) (4 * q)
  let lp := s.loopback (8 * t + p)
  let acting := s.actingEdges t k p code
  let e3 := s.edgeAt t k p inst acting 3
  let e4 := s.edgeAt t k p inst acting 4
  let window := s.tsWindow t k p && code ≠ 13 && decide (s.tsEdge t k p 3 < s.tsEdge t k p 4)
  let solved (e : Nat) : Nat := ceilCycle (inst + s.tsEdge t k p e + 5120)
  let mk (x : Expect) (second : Bool) (a u : Nat) : Strobe :=
    let z : Strobe := ⟨p, second, x, a, u, window, s.fbit (TL_CMASK_MASK t) p, if lp = 2 then some q else none, none, false, solved (if second || window then 4 else 3), solved (if window || (fmt = 4 && code ≠ 13) then 4 else 3), false⟩
    if lp = 1 then (let o := s.partnerShows t q qcode (s.tsFmt t k q) inst second; { z with got := some o, failed := x.failsOn o }) else z
  match expectOf code d.1 with
  | none => []
  | some x =>
    if fmt = 4 && code ≠ 13 then [mk x false e3 e3, mk ((expectOf code d.2).getD x) true e4 e4]
    else if window then [mk x false e3 e4] else [mk x false e3 e3]

/-- One pin acts (R58 step 2): edges and strobes placed, the instant noted at which the latches may clear, E3 of a compare (R188). -/
def pinActs (s0 : State) (t k inst pinWord : Nat) (s : State) (p : Nat) : State :=
  let g := 8 * t + p
  let code := bits pinWord (4 * p + 3) (4 * p)
  let d := s0.driveOf t p code (s0.tsFmt t k p)
  let acting := s0.actingEdges t k p code
  let zs := s0.strobesOf t k p inst pinWord
  let s1 := s.catchUp g inst
  let x := s1.pin g
  let edges := d.1.foldl (fun l e => placeEdge l ⟨s0.edgeAt t k p inst acting e.1, e.1, e.2⟩) x.edges
  let compares := code ≠ 13
  let clears := if compares then zs.filter (fun z => !z.second) |>.map (·.at_) else []
  let s2 := s1.setPin g { x with edges := edges, lastDrive := d.2.1.getD x.lastDrive, dkReturn := if code = 12 then x.dkReturn else d.2.2, clears := clears.foldl insertNat x.clears }
  let s3 := (zs.filter (fun z => decide (z.at_ = z.until_) && z.got.isNone)).foldl (fun s z => s.placeStrobe g z.at_) s2
  s3.prunePin g inst

/-- The instant at which a vector's unmasked compares have resolved (R80); its period end when it has none. -/
def waitsUntil (endAt : Nat) (zs : List Strobe) : Nat :=
  match zs.filter (·.isOpen) with
  | [] => endAt
  | z :: r => r.foldl (fun m y => max m y.solveAt) z.solveAt

/-! ### Conditions (R78 to R85) -/

/-- Condition mask m. -/
def cndMask (s : State) (t m : Nat) : Nat := bits (s.reg (if m < 4 then TL_CND_MASK_LO t else TL_CND_MASK_HI t)).toNat (8 * (m % 4) + 7) (8 * (m % 4))

/-- Clear sticky bits at an instant: bits that a compare set in the same cycle stay (R85). -/
def clearSticky (s : State) (t mask inst : Nat) : State :=
  let c := s.cmp t
  let keep := if sameCycle c.setAt inst then c.setBits else 0
  s.put (TL_STICKY_FAIL t) (s.get (TL_STICKY_FAIL t) &&& (0xFF ^^^ (mask &&& (0xFF ^^^ keep))))

/-- Pins of mask m that failed in the vector of index v (R78). -/
def failedIn (s : State) (t v : Nat) : Nat := ((s.cmp t).fails.find? (fun f => f.1 = v)).elim 0 (·.2)

/-- Least index of a vector of this run with compares still to resolve, if any. -/
def firstOpen (s : State) (t : Nat) : Option Nat :=
  ((s.cmp t).queue.filterMap (fun d => match d with
    | .sample c => if c.resolved || c.run ≠ (s.cmp t).run then none else some c.vidx
    | _ => none)).head?

/-- Index of the vector most recently issued. -/
def vidx (s : State) (t : Nat) : Nat := (s.reg (TL_VIDX_LO t)).toNat + s.get (TL_VIDX_HI_VIDX_HI t) * 2 ^ 32

/-- The truth of a condition (R78). With NOWAIT, VFAIL looks at the latest vector that, with all before it, has resolved
(R81). -/
def condTrue (s : State) (t cnd : Nat) : Bool :=
  let sel := cnd % 8
  let nowait := cnd.testBit 7
  match bits cnd 5 3 with
  | 0 => true
  | 1 =>
    if nowait then
      let before := (s.firstOpen t).getD (s.vidx t)
      before ≠ 0 && s.failedIn t (before - 1) &&& s.cndMask t sel ≠ 0
    else s.failedIn t (s.vidx t) &&& s.cndMask t sel ≠ 0
  | 2 => s.get (TL_STICKY_FAIL t) &&& s.cndMask t sel ≠ 0
  | 3 => s.fbit (TL_EVIN_LATCH t) sel
  | _ => s.flag t sel

/-- CLR of a condition (R82). -/
def condClear (s : State) (t cnd inst : Nat) : State :=
  if !cnd.testBit 6 then s
  else if bits cnd 5 3 = 2 then s.clearSticky t (s.cndMask t (cnd % 8)) inst
  else s.clearFlag t (cnd % 8)

/-- The condition waits for compares (R78, R80). -/
def condWaits (cnd : Nat) : Bool := (bits cnd 5 3 = 1 || bits cnd 5 3 = 2) && !cnd.testBit 7

/-! ### Opcodes (R58 step 6). Each acts for the vector most recently issued. -/

/-- An event input latch clears (R128): nothing is then left of it for the next pass (R141). -/
def dropLatch (s : State) (t j : Nat) : State :=
  let s1 := s.putBit (TL_EVIN_LATCH t) j false
  if (s1.tl t).desc.brkSel = j then s1.modTl t (fun x => { x with brkLatch := false }) else s1

/-- What follows the vector. -/
def follow (s : State) (t : Nat) (n : Next) : State := s.modTl t (fun x => { x with next := n, dueAt := x.endAt })

def opNop (s : State) (t : Nat) : State := s.follow t .seq

/-- REPEAT n (R69): `repLeft` counts the issues still to make, from the first issue on. -/
def opRepeat (s : State) (t n : Nat) : State :=
  let x := s.tl t
  let left := if x.repLeft = 0 then max 1 n - 1 else x.repLeft - 1
  (s.setTl t { x with repLeft := left }).follow t (if left = 0 then .seq else .again)

/-- Loop start k. -/
def loopStart (t k : Nat) : Field := if k % 2 = 0 then TL_LOOP_START_START_LO t (k / 2) else TL_LOOP_START_START_HI t (k / 2)

/-- LOOP k, n (R70, R71). -/
def opLoop (s : State) (t w : Nat) : State :=
  let k := bits w 31 30
  let x := s.tl t
  if x.looped then s.follow t .seq
  else
    let s1 := if s.fbit (TL_SEQ_STAT_LOOP_OPEN t) k then s.trace t 4 x.vec.opc (x.idx % 2 ^ 14) else s
    (((s1.put (TL_LOOP_COUNT t k) (bits w 29 0)).put (loopStart t k) x.idx).putBit (TL_SEQ_STAT_LOOP_OPEN t) k true).follow t .seq

/-- ENDLOOP k (R70). -/
def opEndloop (s : State) (t w : Nat) : State :=
  let k := w % 4
  let n := s.get (TL_LOOP_COUNT t k)
  let x := s.tl t
  if n = 0 then (s.putBit (TL_SEQ_STAT_LOOP_OPEN t) k false).follow t .seq
  else
    let start := s.get (loopStart t k)
    let s1 := if s.on (TL_SEQ_CTRL_TRACE_LOOPS t) then s.trace t 3 x.vec.opc (x.idx % 2 ^ 14 + start * 2 ^ 16) else s
    (s1.put (TL_LOOP_COUNT t k) (n - 1)).follow t (.loopBack start)

def opJump (s : State) (t w : Nat) : State := s.follow t (.jump (w % 2 ^ 14) false)
def opCall (s : State) (t w : Nat) : State := s.follow t (.jump (w % 2 ^ 14) true)
def opRet (s : State) (t : Nat) : State := s.follow t .ret

/-- HALT (R76): at the end of its period. -/
def opHalt (s : State) (t w : Nat) : State := s.follow t (.halt (w % 2 ^ 16))

/-- CLRS (R77): the pins are cleared once this vector's own compares have been added. -/
def opClrs (s : State) (t w : Nat) : State :=
  let c := s.cmp t
  let now := s.vidx t
  let own (d : Deliver) : Option Cmp := match d with
    | .sample x => if x.run = c.run && x.vidx = now && !x.resolved then some x else none
    | _ => none
  if let x :: _ := c.queue.filterMap own then (s.setCmp t { c with queue := onIssue c.queue x (fun e => { e with clrs := w % 256 }) }).follow t .seq
  else (s.clearSticky t (w % 256) (s.tl t).issueAt).follow t .seq

/-- CMASK (R77): in force from this vector's own compares on. -/
def opCmask (s : State) (t w : Nat) : State := (s.put (TL_CMASK_MASK t) (w % 256)).follow t .seq

def opPause (s : State) (t : Nat) : State := s.follow t (.park .pause)
def opTmark (s : State) (t w : Nat) : State := (s.trace t 8 (s.tl t).vec.opc w).follow t .seq

/-- The decision of a conditional transfer at an instant (R82): taken or not, to a target, calling or not; what follows is due at
`due`. -/
def decide_ (s : State) (t w cnd inst due : Nat) (pass call : Bool) : State :=
  let s1 := s.condClear t cnd inst
  if s.condTrue t cnd == pass then s1.modTl t (fun x => { x with next := .seq, dueAt := due })
  else s1.modTl t (fun x => { x with next := .jump (w % 2 ^ 14) call, dueAt := due })

/-- A conditional transfer: decided at the issue, or held until the compares have resolved (R80, R81). -/
def opCond (s : State) (t w cnd : Nat) (pass call : Bool) : State :=
  if condWaits cnd then s.follow t .undecided else s.decide_ t w cnd (s.tl t).issueAt (s.tl t).endAt pass call

def opJfail (s : State) (t w cnd : Nat) : State := s.opCond t w cnd false false
def opJpass (s : State) (t w cnd : Nat) : State := s.opCond t w cnd true false
def opCfail (s : State) (t w cnd : Nat) : State := s.opCond t w cnd false true
def opCpass (s : State) (t w cnd : Nat) : State := s.opCond t w cnd true true

/-- JEVT (R83). -/
def opJevt (s : State) (t w cnd : Nat) : State :=
  if s.fbit (TL_EVIN_LATCH t) (cnd % 8) then (s.dropLatch t (cnd % 8)).follow t (.jump (w % 2 ^ 14) false) else s.follow t .seq

/-- MATCH n (R84): counts its issues and waits for their compares. -/
def opMatch (s : State) (t : Nat) : State := (s.modTl t (fun x => { x with matches_ := x.matches_ + 1 })).follow t .undecided

/-- The decision of MATCH n (R84). -/
def decideMatch (s : State) (t n cnd inst : Nat) : State :=
  let x := s.tl t
  let bad := s.failedIn t (s.vidx t) &&& s.cndMask t (cnd % 8) ≠ 0
  if !bad then s.setTl t { x with matches_ := 0, next := .seq, dueAt := inst }
  else if x.matches_ < n + 1 then s.setTl t { x with next := .again, dueAt := inst }
  else ((s.mark (TL_FLAGS_MATCHX t)).trace t 5 x.vec.opc (x.idx % 2 ^ 14)).setTl t { (s.trace t 5 x.vec.opc (x.idx % 2 ^ 14)).tl t with matches_ := 0, next := .seq, dueAt := inst }

/-- WAITRC W (R39, R122, R123). DESIGN CHOICE: a target within the vector's own period sets LATE, with its trace entry, at the issue and
not at the target or the period end, since the period end is known there (log entry 20). -/
def opWaitrc (s : State) (t w : Nat) : State :=
  let x := s.tl t
  let d := (w + 2 ^ 32 - (s.countAt (x.issueAt / 1280) + 2 ^ 48 - 64) % 2 ^ 32) % 2 ^ 32
  let s1 := s.follow t .seq
  if d = 0 then s1
  else if 2 ^ 31 ≤ d then s1.setLate t x.idx
  else
    let wake := (x.issueAt / 1280 + d) * 1280
    if wake < x.endAt then s1.setLate t x.idx
    else if wake = x.endAt then s1
    else s.follow t (.park (.waitrc w))

/-- RDV k (R44, R49, R122): a non-member halts; a member behind its group's epoch goes on late; the others arrive and park. One that
arrives past the count of a TIMEOUT release under way goes on late when that release acts (R48). -/
def opRdv (s : State) (t w : Nat) : State :=
  let k := w % 32
  let x := s.tl t
  let s1 := s.follow t .seq
  let stamp := s.countAt (x.issueAt / 1280)
  if !s.on (GL_RDV_CFG_EN k) || !(s.rdvMask k).testBit t then s.follow t .notMember
  else if s.ownEpoch t k ≠ s.get (GL_RDV_STAT_EPOCH k) then (s1.setOwnEpoch t k (s.ownEpoch t k + 1)).setLate t x.idx
  else (s.arrive t k stamp).follow t (.park (.rdv k))

/-- CALGAP (R125). -/
def opCalgap (s : State) (t w : Nat) : State :=
  s.follow t (.calgap (bits w 23 0))

def opSeg (s : State) (t w : Nat) : State := s.follow t (.enterSeg (w % 256) (w.testBit 8))
/-- STREAM (R154): the prime is requested 8 cycles after the issue instant. -/
def opStream (s : State) (t w : Nat) : State := (s.modTl t (fun x => { x with primes := x.primes ++ [(x.issueAt + 1280, w % 256)] })).follow t .seq
def opMeas (s : State) (t w : Nat) : State := (s.measure t (s.tl t).issueAt (w % 2 ^ 16)).follow t .seq
def opTdcarm (s : State) (t w : Nat) : State := (s.tdcarm t (s.tl t).issueAt (w % 2 ^ 16)).follow t .seq

/-- EVW (R130). -/
def opEvw (s : State) (t w cnd : Nat) : State :=
  let x := s.tl t
  let j := cnd % 8
  let s1 := s.follow t .seq
  if s.fbit (TL_EVIN_LATCH t) j then s1.dropLatch t j
  else
    let tmo := bits w 31 14
    let dead := if tmo = 0 then none else some (x.issueAt + tmo * 128 * 1280)
    s.follow t (.park (.evw j dead (w % 2 ^ 14)))

def opEvs (s : State) (t w : Nat) : State := (s.fireChannel (w % 256)).follow t .seq

/-- LVLQ (R112, R115): the change joins the queue. -/
def opLvlq (s : State) (t w : Nat) : State := (s.queueLevel t ⟨0, [w], s.vidx t, (s.tl t).issueAt⟩).follow t .seq

/-- The opcode of the vector most recently issued. The APG loads have acted with the APG update. -/
def opStep (s : State) (t : Nat) : State :=
  let v := (s.tl t).vec
  match v.opc with
  | 0x01 => s.opRepeat t v.opd
  | 0x02 => s.opLoop t v.opd
  | 0x03 => s.opEndloop t v.opd
  | 0x04 => s.opJump t v.opd
  | 0x05 => s.opCall t v.opd
  | 0x06 => s.opRet t
  | 0x07 => s.opHalt t v.opd
  | 0x08 => s.opClrs t v.opd
  | 0x09 => s.opCmask t v.opd
  | 0x0A => s.opPause t
  | 0x0B => s.opTmark t v.opd
  | 0x10 => s.opJfail t v.opd v.cnd
  | 0x11 => s.opJpass t v.opd v.cnd
  | 0x12 => s.opJevt t v.opd v.cnd
  | 0x13 => s.opMatch t
  | 0x14 => s.opCfail t v.opd v.cnd
  | 0x15 => s.opCpass t v.opd v.cnd
  | 0x20 => s.opWaitrc t v.opd
  | 0x21 => s.opRdv t v.opd
  | 0x22 => s.opCalgap t v.opd
  | 0x28 => s.opSeg t v.opd
  | 0x29 => s.opStream t v.opd
  | 0x38 => s.opLvlq t v.opd
  | 0x39 => s.opMeas t v.opd
  | 0x3A => s.opTdcarm t v.opd
  | 0x40 => s.opEvw t v.opd v.cnd
  | 0x41 => s.opEvs t v.opd
  | _ => s.opNop t

/-- Every compare of every vector issued so far has resolved; the latest instant among them. -/
def resolvedAll (s : State) (t : Nat) : Bool := (s.firstOpen t).isNone

/-- The decision a conditional vector waits for (R80, R82, R84). -/
def takeDecision (s : State) (t : Nat) (inst : Nat) : State :=
  let v := (s.tl t).vec
  match v.opc with
  | 0x10 => s.decide_ t v.opd v.cnd inst inst false false
  | 0x11 => s.decide_ t v.opd v.cnd inst inst true false
  | 0x14 => s.decide_ t v.opd v.cnd inst inst false true
  | 0x15 => s.decide_ t v.opd v.cnd inst inst true true
  | 0x13 => s.decideMatch t v.opd v.cnd inst
  | _ => s

/-- A conditional wait ends once every compare has resolved and the vector's period is over (R80). A stop that has come in the vector's
period discards the decision where that waits beyond the period end (R86); where it does not, the decision stands and the stop takes the
place of what follows (R92). -/
def endWait (s : State) (t : Nat) : State :=
  let x := s.tl t
  let wait := (s.cmp t).queue.foldl (fun m d => match d with
    | .sample c => if c.run = (s.cmp t).run then max m c.waitAt else m
    | _ => m) (s.cmp t).waitTo
  let inst := max x.endAt wait
  if s.engine t ≠ 1 || x.next ≠ .undecided then s
  else if x.stopReq && decide (x.endAt < wait) then s.stopNow t (ceilCycle x.endAt)
  else if s.resolvedAll t then (s.advInst inst).takeDecision t (if inst = x.endAt then inst else ceilCycle inst)
  else s

/-! ### Issue -/

/-- EVO pulses (R129): channel t, the gated channels of its strip and its column (R407), and the direct wires of the sheaf
neighbours. -/
def evo (s : State) (t : Nat) : State :=
  let gated (s : State) (e j : Nat) : State := if s.fbit (EV_CH_CFG_GATE e) j then s.fireChannel e else s
  let s1 := (stripTillers (rowOf t)).foldl (fun s q => gated s (64 + q) (colOf t)) (s.fireChannel t)
  let s2 := (List.range 8).foldl (fun s j => gated s (128 + 8 * j + colOf t) (rowOf t)) s1
  (s2.localSource (t ^^^ 1) 6).localSource (t ^^^ 8) 7

/-- A break is pending for the segment (R141). -/
def breakPending (s : State) (t : Nat) : Bool := s.fbit (TL_EVIN_LATCH t) (s.tl t).desc.brkSel || s.on (TL_SEG_STAT_BRK_REQ t)

/-- The vector due is the last of its segment's pass (R140). -/
def isLast (s : State) (t : Nat) : Bool :=
  let x := s.tl t
  s.on (TL_SEQ_STAT_INSEG t) && (if x.inStream then x.atPos + 1 = x.desc.length else x.desc.isSram && x.atIdx + 1 = x.desc.start + x.desc.length)

/-- A checked vector issues (R58), with the level-change entry it names. `again` tells a further issue of REPEAT or MATCH. DESIGN CHOICE: the last issue made of a MATCH whose
wait a stop ends is not its last issue for the fails it expects (log entry 25). -/
def issueVector (s0 : State) (t : Nat) (v : Vec) (entry : List Nat) (again : Bool) : State :=
  let x := s0.tl t
  let inst := x.dueAt
  let last := s0.isLast t
  let vi := x.issues % 2 ^ 48
  let test := last && x.desc.passes = 0
  let idx := if x.inStream then x.idx else x.atIdx
  let endAt := inst + s0.tsPeriod t v.tset
  let y := { x with vec := v, idx := idx, issueAt := inst, endAt := endAt, dueAt := endAt, issues := x.issues + 1, last := last, streamed := x.inStream, brk := test && s0.breakPending t, brkLatch := false, brkReq := false, repLeft := if again then x.repLeft else 0, matches_ := if again then x.matches_ else 0, next := .seq }
  let s1 := (s0.setTl t y).put48 (TL_VIDX_LO t) (TL_VIDX_HI t) vi
  let s2 := ((s1.put (TL_PC_INDEX t) idx).put (TL_PC_STREAMED t) (b2n x.inStream)).put (TL_STRM_POS_POS t) (if !x.inStream then s1.get (TL_STRM_POS_POS t) else if last then 0 else x.atPos + 1)
  let s3 := s2.setCmp t { s2.cmp t with pktOpen := true, pktVidx := vi }
  let s4 := if s3.unsynced then s3.tag t 29 else s3
  let s5 := if v.lvl ≠ 0 && !again then s4.queueLevel t ⟨v.lvl, entry, vi, inst⟩ else s4
  let s6 := if v.opc = 0x09 then s5.put (TL_CMASK_MASK t) (v.opd % 256) else s5
  let zs := (List.range 8).flatMap (fun p => s6.strobesOf t v.tset p inst v.pin)
  let s7 := (List.range 8).foldl (s6.pinActs t v.tset inst v.pin) s6
  let a := s6.physical t
  let inSeg := s6.on (TL_SEQ_STAT_INSEG t)
  let expected := if v.opc = 0x13 && y.matches_ < v.opd then s6.cndMask t (v.cnd % 8) else 0
  let c : Cmp := { run := (s6.cmp t).run, vidx := vi, strobes := zs, waitAt := waitsUntil endAt zs, resolved := !zs.any (·.isOpen), endAt := endAt, capture := v.cap = 1, twoSamples := (List.range 8).any (fun p => s6.tsFmt t v.tset p = 4), sent := false, tset := v.tset, inSeg := inSeg, streamed := x.inStream, seg := if inSeg then s6.get (TL_PC_SEG t) else 0, x := s6.get (TL_APG_X_X t), y := s6.get (TL_APG_Y_Y t), px := a.1, py := a.2, d := s6.dataSeen t % 4096, cbank := s6.bankOf t, expected := expected, clrs := 0, flushed := false }
  let s8 := if zs.isEmpty && v.cap = 0 then s7 else s7.setCmp t { s7.cmp t with queue := (s7.cmp t).queue ++ [.sample c] }
  let s9 := if v.evo = 1 then s8.evo t else s8
  let s10 := s9.apgStep t v
  (if x.inStream then s10.setStrm t { s10.strm t with buf := (s10.strm t).buf.drop 1, gone := (s10.strm t).gone + 1 } else s10).opStep t

/-! ### Fetch -/

/-- What opcodes have asked for 8 cycles after their issue comes about, up to an instant: primes (R154) and arms of the TDC
(R121). -/
def delayed (s : State) (t inst : Nat) : State := (s.takePrimes t inst).takeArms t inst

/-- The level-change entry that a word names, as it stands (R114). -/
def levelsOf (s : State) (t w : Nat) : List Nat := s.lvlEntry t (vecOf w).lvl

/-- A word is fetched from vector SRAM and decoded (R60, R114): the state after the read, and the word with its double-bit error and its
level-change entry. -/
def fetchSram (s : State) (t idx : Nat) : State × Ahead :=
  let i := s.inject .vectorSram t
  let w := i.1.loadLE (vecAddr t idx) 16
  match i.1.eccOf (vecAddr t idx) i.2 with
  | 0 => (i.1, ⟨idx, w, false, s.levelsOf t w⟩)
  | 1 => (i.1.bump (TL_VSRAM_ECC_CORR t), ⟨idx, w, false, s.levelsOf t w⟩)
  | _ => (i.1, ⟨idx, w, true, s.levelsOf t w⟩)

/-- The word due from vector SRAM: the one decoded ahead, as it was then (R61), or fetched now; what has been decoded for another
course is dropped (R53). -/
def dueWord (s : State) (t idx : Nat) : State × Ahead :=
  match (s.tl t).ahead with
  | w :: r => if w.idx = idx then (s.modTl t (fun x => { x with ahead := r }), w) else (s.discardAhead t).fetchSram t idx
  | [] => s.fetchSram t idx

/-- The opcodes beyond which no vector is decoded before they have issued (R122). -/
def endsDecode (opc : Nat) : Bool := opc = 0x20 || opc = 0x21 || opc = 0x22 || opc = 0x40

/-- The engine decodes ahead up to n further words of vector SRAM beyond the vector most recently issued (R53). Which and how many,
up to 16, the spec leaves open: the command says how many. DESIGN CHOICE: they are those that follow without a transfer (log entry
22). -/
def decodeAhead (s : State) (t : Nat) : Nat → State
  | 0 => s
  | n + 1 =>
    let x := s.tl t
    let opc := ((x.ahead.getLast?).map (fun w => (vecOf w.word).opc)).getD x.vec.opc
    let idx := ((x.ahead.getLast?).map (·.idx + 1)).getD (x.idx + 1)
    if s.engine t ≠ 1 || x.streamed || (endsDecode opc && !x.ahead.isEmpty) || 2 ^ 14 ≤ idx || 16 ≤ x.ahead.length then s
    else
      let r := s.fetchSram t idx
      (r.1.modTl t (fun x => { x with ahead := x.ahead ++ [r.2] })).decodeAhead t n

/-- The tiller stalls for its stream (R155). -/
def stall (s : State) (t : Nat) : State :=
  let x := s.tl t
  let inst := ceilCycle x.dueAt
  let s1 := (s.advInst inst).setTl t { x with stallFrom := inst, refillAt := none }
  let s2 := ((s1.put (TL_SEQ_STAT_STATE t) 3).mark (TL_STRM_STAT_STALL t)).mark (TL_STRM_STAT_STALLED_NOW t)
  let s3 := ((s2.bump (TL_STRM_CNT_STALLS t)).tag t 23).pinsIdle t x.vec.tset inst
  (s3.trace t 14 x.vec.opc x.atPos).tlSource t 15

/-- The word at an index of vector SRAM with its level-change entry, none with a double-bit error. -/
def wordAt (s : State) (t idx : Nat) : Option (Vec × List Nat) :=
  let w := s.loadLE (vecAddr t idx) 16
  if s.eccOf (vecAddr t idx) 0 = 2 then none else some (vecOf w, s.levelsOf t w)

/-- The next stream vector, as buffered. -/
def streamDue (s : State) (t : Nat) : Option StreamVec := (s.strm t).buf.head?.filter (fun v => decide (v.idx = (s.tl t).atPos))

/-- The vector due, where nothing keeps it from issuing: no shortfall, no error, no failing check. -/
def goodDue (s : State) (t : Nat) : Option Vec :=
  let x := s.tl t
  let v := if x.next = .again then some (x.vec, []) else if x.inStream then (s.streamDue t).bind (fun w => if w.poison then none else some (expandStream x.desc w.idx w.word, []))
    else if 2 ^ 14 ≤ x.atIdx then none
    else match x.ahead.head? with
      | some w => if w.idx = x.atIdx then (if w.bad then none else some (vecOf w.word, w.entry)) else s.wordAt t x.atIdx
      | none => s.wordAt t x.atIdx
  (v.filter (fun v => s.vectorCause t v.1 v.2 (x.next ≠ .again) = 0)).map (·.1)

/-- A stop waits and the vector due would issue HALT (R92): its halt code. -/
def haltDueAt (s : State) (t : Nat) : Option Nat :=
  match s.goodDue t with
  | some v => if v.opc = 0x07 then some (v.opd % 2 ^ 16) else none
  | none => none

/-- A firing an EVS was refused shows in the channel's status (R408). -/
def markRefused (s : State) (cause k : Nat) : State := if cause = 0x14 then (s.mark (EV_CH_STAT_FIRE_REJ k)).source 1285 else s

/-- A vector due is checked, and issues or faults. -/
def checkAndIssue (s : State) (t : Nat) (v : Vec) (entry : List Nat) (again : Bool) : State :=
  let x := s.tl t
  let cause := s.vectorCause t v entry (!again)
  if cause ≠ 0 then (s.markRefused cause (v.opd % 256)).faultNow t cause (if x.inStream then x.idx else x.atIdx) v.opc (ceilCycle x.dueAt) else s.issueVector t v entry again

/-- The vector due issues, or a stop, a fault, a stall or UNDERRUN takes its place. The trace entry of a fault holds the opcode of
the word that faults, as it stands in memory; a fetch beyond the last index concerns the vector before it. Words decoded ahead for
another course than a stream's are dropped (R53, R61). DESIGN CHOICE: where a stop keeps a HALT from issuing, TL_HALT_CODE takes the
operand of that HALT, since R92 gives its cause alone (log entry 19). -/
def issueDue (s0 : State) (t : Nat) : State :=
  let s := if (s0.tl t).inStream && (s0.tl t).next ≠ .again then s0.discardAhead t else s0
  let x := s.tl t
  let inst := ceilCycle x.dueAt
  if x.stopReq then (match s.haltDueAt t with
    | some code => s.haltNow t inst code
    | none => s.stopNow t inst)
  else if x.next = .again then s.checkAndIssue t x.vec [] true
  else if x.inStream then
    match s.streamDue t with
    | none => if x.desc.stallOk then s.stall t else s.underrun t inst
    | some w =>
      let v := expandStream x.desc w.idx w.word
      if w.poison then (s.setStrm t { s.strm t with buf := (s.strm t).buf.drop 1 }).faultNow t 0x27 x.idx v.opc inst else s.checkAndIssue t v [] false
  else if 2 ^ 14 ≤ x.atIdx then s.faultNow t 0x0B x.idx x.vec.opc inst
  else
    let r := s.dueWord t x.atIdx
    if r.2.bad then r.1.faultNow t 0x01 x.atIdx (vecOf r.2.word).opc inst else r.1.checkAndIssue t (vecOf r.2.word) r.2.entry false

/-- VECTOR_ISSUE (R58): the end of the period in progress, with all it brings, and the next issue, beyond which n words are then
decoded. -/
def vectorIssue (s0 : State) (t n : Nat) : State :=
  let s := (s0.delayed t (s0.tl t).dueAt).endWait t
  let x := s.tl t
  if s.engine t ≠ 1 || x.gap.isSome || x.next = .undecided then s
  else
    let s1 := (s.advInst x.dueAt).periodEnd t
    let y := s1.tl t
    if s1.engine t = 1 && y.gap.isNone && (y.next = .ready || y.next = .again) then (s1.issueDue t).decodeAhead t n else s1

/-- An opcode acts for the vector most recently issued as if that vector carried it: its operand and condition are checked
first (R87). A halt, a park or a gap begins at the end of that vector's period, to which the clock is brought. -/
def asOpcode (s : State) (t opc opd cnd : Nat) (f : State → State) : State :=
  let x := s.tl t
  if s.engine t ≠ 1 || x.issues = 0 || x.gap.isSome then s
  else
    let c0 := s.opcodeCause t opc opd cnd
    let c := if c0 ≠ 0 then c0 else if opc = 0x38 && !changeOk opd then 0x12 else if opc = 0x38 && decide (16 < s.lvlPending t + 1) then 0x13 else if opc = 0x41 && !s.mayFireEvs t (opd % 256) then 0x14 else 0
    if c ≠ 0 && x.stopReq then s.stopNow t (ceilCycle x.dueAt)
    else if c ≠ 0 then (s.markRefused c (opd % 256)).faultNow t c x.idx opc (ceilCycle x.dueAt)
    else
      let s1 := f (s.setTl t { x with vec := { x.vec with opc := opc, opd := opd, cnd := cnd } })
      if (s1.tl t).next.stops then (s1.advInst (s1.tl t).dueAt).periodEnd t else s1

/-! ### Compares resolve (R80 to R86) -/

/-- The pins whose strobes fail among some taken ones (R66). -/
def failMask (zs : List Strobe) : Nat := (List.range 8).foldl (fun m p => if zs.any (fun z => z.pin = p && z.failed && !z.masked) then m + 2 ^ p else m) 0

/-- The issue whose compare resolves next, by instant. -/
def nextResolve (s : State) (t : Nat) : Option Cmp :=
  ((s.cmp t).queue.filterMap (fun d => match d with
    | .sample c => if c.resolved then none else some c
    | _ => none)).foldl (fun b c => match b with
      | none => some c
      | some d => if c.nextAt < d.nextAt then some c else some d) none

/-- The strobes of an issue whose compares resolve by an instant, taken (R80). -/
def solveDue (s : State) (t : Nat) (c : Cmp) (inst : Nat) : List Strobe :=
  (c.strobes.filter (fun z => z.isOpen && decide (z.solveAt ≤ inst))).map (s.takeStrobe t)

/-- The strobes of an issue once those compares have resolved. -/
def solveAll (s : State) (t : Nat) (c : Cmp) (inst : Nat) : List Strobe :=
  c.strobes.map (fun z => if z.isOpen && decide (z.solveAt ≤ inst) then { s.takeStrobe t z with solved := true } else z)

/-- COMPARE_RESOLVE (R80): the compares of one vector that resolve next, each at its own instant; a wait that hung on them ends when the
vector's period is over. Those of a CLRS's own vector are added before its bits clear (R77). -/
def compareResolve (s0 : State) (t : Nat) : State :=
  match s0.nextResolve t with
  | none => s0
  | some c =>
    let inst := c.nextAt
    let s := (s0.advInst inst).tillerCatchUp t inst
    let zs := s.solveAll t c inst
    let full := !zs.any (·.isOpen)
    let all := failMask (s.solveDue t c inst)
    let counted := all &&& (0xFF ^^^ c.expected)
    let x := s.cmp t
    let fails := if all = 0 || c.run ≠ x.run then x.fails
      else (c.vidx, all ||| s.failedIn t c.vidx) :: (x.fails.filter (fun f => decide (f.1 ≠ c.vidx ∧ c.vidx < f.1 + 65536)))
    let others := if sameCycle x.setAt inst then x.setBits else 0
    let s1 := s.setCmp t { x with queue := onIssue x.queue c (fun e => { e with strobes := zs, resolved := full }), fails := fails, setAt := inst, setBits := others ||| counted, waitTo := if full && c.run = x.run then max x.waitTo c.waitAt else x.waitTo }
    let s2 := s1.put (TL_STICKY_FAIL t) (s1.get (TL_STICKY_FAIL t) ||| counted)
    let s3 := if !full || c.clrs = 0 then s2 else s2.put (TL_STICKY_FAIL t) (s2.get (TL_STICKY_FAIL t) &&& (0xFF ^^^ (c.clrs &&& (0xFF ^^^ others))))
    let s4 := s3.drainAll t
    if (s4.tl t).endAt ≤ inst then s4.endWait t else s4

/-! ### Parks end -/

/-- The TDC hears an event input latch that sets (R317). -/
def tdcHears (s : State) (t j : Nat) : State :=
  if s.fbit (TL_EVIN_LATCH t) j then s
  else
    let x := s.tdc t
    s.setTdc t { x with startHeard := x.startHeard ||| 2 ^ j, stopHeard := x.stopHeard ||| 2 ^ j }

/-- Set an event input latch (R127, R128): one that comes after the test of a break counts for the next pass (R141). -/
def setLatch (s : State) (t j : Nat) : State :=
  let s1 := (s.tdcHears t j).putBit (TL_EVIN_LATCH t) j true
  if (s1.tl t).brk && (s1.tl t).desc.brkSel = j && s1.on (TL_SEQ_STAT_INSEG t) then s1.modTl t (fun x => { x with brkLatch := true }) else s1

/-- EVW_WAKE (R130): the awaited latch sets at an instant; the next vector issues on a cycle 4 cycles later, not before the period end.
DESIGN CHOICE: a latch that sets early enough within the vector's own period keeps it from parking: no PARK and no RESUME is traced (log
entry 20). -/
def evwWake (s : State) (t at_ : Nat) : State :=
  let go := ceilCycle (at_ + 640)
  match s.waitsFor t with
  | .evw j _ _ =>
    let s1 := (s.settle t go).dropLatch t j
    if s.engine t ≠ 1 && s.engine t ≠ 2 then s
    else if s1.engine t = 2 then s1.unparkAt t (max go (ceilCycle (s.tl t).endAt)) none
    else s1.modTl t (fun x => { x with next := .seq, dueAt := ceilCycle x.endAt })
  | _ => s

/-- EVW_TIMEOUT (R130): a latch that has set by the deadline wins. The target issues on a cycle, not before the period end, and RESUME
is traced with it. -/
def evwTimeout (s : State) (t : Nat) : State :=
  match s.waitsFor t with
  | .evw j (some dead) dest =>
    if s.fbit (TL_EVIN_LATCH t) j then s.evwWake t dead else
    let s1 := (s.settle t (ceilCycle dead)).bump (TL_OPSTAT_EVW_TMO t)
    if s.engine t ≠ 1 && s.engine t ≠ 2 then s
    else if s1.engine t = 2 then s1.unparkAt t (max (ceilCycle dead) (ceilCycle (s.tl t).endAt)) (some dest)
    else
      let x := s1.tl t
      (s1.trace t 7 x.vec.opc (x.idx % 2 ^ 14 + dest % 2 ^ 14 * 2 ^ 16)).setTl t { (s1.trace t 7 x.vec.opc (x.idx % 2 ^ 14 + dest % 2 ^ 14 * 2 ^ 16)).tl t with next := .timeout dest, dueAt := ceilCycle x.endAt }
  | _ => s

/-- STALL_RESUME (R155): 16 cycles after the buffer holds enough, the vector due issues. -/
def stallResume (s : State) (t : Nat) : State :=
  if s.engine t ≠ 3 || !s.bufferReady t then s
  else
    let x := s.tl t
    let inst := ceilCycle (x.refillAt.getD s.now) + 2560
    let s1 := ((s.advInst inst).put (TL_SEQ_STAT_STATE t) 1).put (TL_STRM_STAT_STALLED_NOW t) 0
    let s2 := (s1.bumpBy (TL_STRM_DEAD_TICKS t) ((inst - x.stallFrom) / 1280)).trace t 15 x.vec.opc x.atPos
    s2.modTl t (fun x => { x with dueAt := inst })

/-- A gap ends at tick G + LEN (R125, R159). -/
def gapEnd (s0 : State) (t : Nat) : State :=
  match (s0.tl t).gap with
  | none => s0
  | some g =>
    let s := s0.advTo g.until_
    let s1 := (s.put (TL_OPSTAT_IN_GAP t) 0).endStep t
    let s2 := s1.modTl t (fun x => { x with gap := none, dueAt := g.until_ * 1280 })
    if g.segment then
      if (s2.tl t).stopReq then s2.stopNow t (g.until_ * 1280) else (s2.leaveSegment t).takeLink t (g.until_ * 1280)
    else s2

end State

end Sys2Proof.Machine
end

