-- ==== Sys2Proof/Machine/Capture.lean ====
section
/-! DEFINITION. Samples (07_capture_and_fail_queues.md, R196 to R202, R215 to R227): delivery to the fail FIFO, the capture
buffer, the trigger conditions and the mask test. -/

namespace Sys2Proof.Machine

/-- Whether a pin satisfies a trigger code (R221). -/
def codeMatches (m : Sample) (p code : Nat) : Bool :=
  let st := m.strobed.testBit p
  let hi := m.hi.testBit p
  let lo := m.lo.testBit p
  match code with
  | 0 => true
  | 1 => m.fail.testBit p
  | 2 => st && !m.fail.testBit p
  | 3 => st && hi
  | 4 => st && !hi && !lo
  | 5 => st && !hi && lo
  | 6 => !st
  | 7 => st
  | _ => false

/-- A strobed pin's state is outside an allowed set (R226). -/
def violates (m : Sample) (allow p : Nat) : Bool :=
  m.strobed.testBit p && !(if m.hi.testBit p then allow.testBit (3 * p + 2) else if m.lo.testBit p then allow.testBit (3 * p + 1) else allow.testBit (3 * p))

/-- Capture entry (R215). -/
def captureEntry (c : Cmp) (m : Sample) (trig : Bool) : Nat :=
  c.vidx + m.strobed * 2 ^ 48 + m.hi * 2 ^ 56 + m.lo * 2 ^ 64 + m.fail * 2 ^ 72 + c.tset * 2 ^ 80 + b2n m.second * 2 ^ 86 + b2n trig * 2 ^ 87 + c.x * 2 ^ 88 + c.y * 2 ^ 108

namespace State

/-- Condition i is satisfied by a sample (R221, R222). -/
def condSatisfied (s : State) (t : Nat) (m : Sample) (i : Nat) : Bool :=
  let pat := (List.range 8).all (fun p => codeMatches m p (s.get (TL_TRIG_PAT_CODE t i p)))
  let evt := s.fbit (TL_EVIN_LATCH t) (s.get (TL_TRIG_CFG_EVT_SEL t i))
  s.on (TL_TRIG_CFG_EN t i) && (match s.get (TL_TRIG_CFG_EVT_MODE t i) with
    | 0 => pat
    | 1 => pat && evt
    | 2 => pat && !evt
    | _ => pat || evt)

/-- Conditions count a sample; the mask of those that fire (R223). -/
def fireConditions (s : State) (t : Nat) (m : Sample) : State × Nat :=
  (List.range 4).foldl (fun (a : State × Nat) i =>
    let x := a.1.cap t
    if x.spent.testBit i || !s.condSatisfied t m i then a
    else
      let n := storeGet (fun _ => 0) x.counts i + 1
      let s1 := a.1.setCap t { x with counts := storeSet (fun _ => 0) x.counts i n }
      if n < max 1 (s.get (TL_TRIG_CFG_COUNT t i)) then (s1, a.2)
      else ((s1.setCap t { s1.cap t with spent := (s1.cap t).spent ||| 2 ^ i }).putBit (TL_TRIG_STATUS_FIRED t) i true, a.2 ||| 2 ^ i)) (s, 0)

/-- A sample is kept in the ring, or stored (R215 to R217). -/
def storeSample (s : State) (t : Nat) (c : Cmp) (m : Sample) (trig : Bool) : State :=
  let x := s.cap t
  let e : Entry := ⟨captureEntry c m trig, false⟩
  let keep := trig || !s.on (TL_CAP_CTRL_FAILONLY t) || m.fail ≠ 0
  if !keep then s
  else if s.get (TL_CAP_STAT_STATE t) = 1 && !trig then
    let l := x.entries ++ [e]
    s.setCap t { x with entries := l.drop (l.length - s.get (TL_CAP_LEN_PRE t)) }
  else s.setCap t { x with entries := x.entries ++ [e], stored := x.entries.length + 1, post := if trig then 0 else x.post + 1 }

/-- TRIGGER is taken in ARMED (R217, R223). -/
def takeTrigger (s : State) (t : Nat) (c : Cmp) (m : Sample) : State :=
  let s2 := (((s.closeRing t).storeSample t c m true).put (TL_CAP_STAT_STATE t) 2).mark (TL_FLAGS_TRIG t)
  (s2.localSource t 3).tlSource t 5

/-- The mask test on a sample (R226): the action it takes, 1 the end of the acquisition, 2 a stop. -/
def maskTest (s : State) (t : Nat) (c : Cmp) (m : Sample) : State × Nat :=
  let bad := pinMask (violates m (s.get (TL_MASK_CTRL_ALLOW t)))
  if !s.on (TL_MASK_CTRL_EN t) || bad = 0 then (s, 0)
  else
    let s1 := s.bump (TL_MASK_STAT_VIOL t)
    let s2 := if (s1.cap t).violated then s1
      else ((s1.setCap t { s1.cap t with violated := true }).put (TL_MASK_STAT_FIRST_PINS t) bad).setReg (TL_MASK_VIDX t) (BitVec.ofNat 32 c.vidx)
    let act := s.get (TL_MASK_CTRL_ACTION t)
    (if act = 2 then s2.mark (TL_MASK_STAT_STOPPED t) else s2, act)

/-- One sample reaches triggers, capture buffer and mask test (R215 to R227). An acquisition ends for the lowest-numbered of
its causes (R218). Tells whether a condition or the mask test asks for a stop (R223, R226). DESIGN CHOICE: a POST written while TRIGGERED
counts from the next sample on, since R217 does not say which one does (log entry 25). -/
def takeSample (s : State) (t : Nat) (c : Cmp) (m : Sample) : State × Bool :=
  let st := s.get (TL_CAP_STAT_STATE t)
  if st = 1 || st = 2 then
    let r := s.fireConditions t m
    let i := lowestBit 4 r.2
    let act := if r.2 = 0 then 0 else s.get (TL_TRIG_CFG_ACTION t i)
    let s1 := if r.2 = 0 then r.1
      else ((r.1.put (TL_TRIG_STATUS_ACT_COND t) i).mark (TL_TRIG_STATUS_ACT_VALID t)).setReg (TL_TRIG_VIDX t) (BitVec.ofNat 32 c.vidx)
    let s2 := if act = 1 && st = 1 then s1.takeTrigger t c m else s1.storeSample t c m false
    let k := s2.maskTest t c m
    let x := s2.cap t
    let shot := k.1.get (TL_CAP_STAT_STATE t) = 2
    let s3 :=
      if shot && decide (s.get (TL_CAP_LEN_POST t) ≤ x.post) then (k.1.endAcquisition t 1).autoRearm t
      else if shot && 1024 ≤ x.stored then ((k.1.mark (TL_CAP_STAT_TRUNC t)).endAcquisition t 2).autoRearm t
      else if act = 2 then (k.1.endAcquisition t 3).autoRearm t
      else if k.2 = 1 then (k.1.endAcquisition t 4).autoRearm t
      else k.1
    (s3, act = 3 || k.2 = 2)
  else
    let missed := st = 3 && (List.range 4).any (fun i => s.get (TL_TRIG_CFG_ACTION t i) = 1 && s.condSatisfied t m i)
    let k := (if missed then s.bump (TL_CAP_CNT_MISSED t) else s).maskTest t c m
    (k.1, k.2 = 2)

/-- One sample of an issue is delivered; a stop that it asks for is asked for at its delivery instant (R218, R225). -/
def deliverSample (s : State) (t : Nat) (c : Cmp) (second : Bool) (inst : Nat) : State :=
  let r := s.takeSample t c (sampleOf c second)
  if r.2 then r.1.requestStop t inst else r.1

/-- SAMPLE_DELIVER (R198): the sample whose turn it is, first or second, once its compares have resolved; at the later of its own
resolution and the delivery of the sample before. The fail record of both forms when the last one is delivered (R200). -/
def sampleDeliver (s0 : State) (t : Nat) : State :=
  let s := s0.drainAll t
  match nextTurn (s.cmp t).queue with
  | some (.sample c, rest) =>
    let inst := max (c.completeAt c.sent) (s.cmp t).sentAt
    if c.strobes.any (fun z => z.isOpen && decide (z.solveAt ≤ inst)) then s
    else
      let s1 := s.advInst inst
      let zs := c.strobes.map (fun z => if z.second == c.sent then s1.takeStrobe t z else z)
      let d := s1.addressed t { c with strobes := zs }
      if c.twoSamples && !c.sent then
        (s1.setCmp t { s1.cmp t with queue := onIssue (s1.cmp t).queue c (fun e => { e with strobes := zs, sent := true }), sentAt := inst }).deliverSample t d false inst
      else
        (((s1.setCmp t { s1.cmp t with queue := rest, sentAt := inst }).formRecord t d).deliverSample t d c.sent inst).drainAll t
  | _ => s

/-! ### Writes of the capture unit's registers (R216, R218, R221, R223) -/

/-- A write of ARM, and of ABORT. -/
def writeArm (s : State) (t : Nat) : State :=
  let st := s.get (TL_CAP_STAT_STATE t)
  if st = 1 || st = 2 then s.mark (TL_CAP_STAT_ARM_BUSY t) else s.armCapture t
def writeAbort (s : State) (t : Nat) : State :=
  let st := s.get (TL_CAP_STAT_STATE t)
  if st = 1 || st = 2 then s.endAcquisition t 6 else s

/-- A pattern with a code above 7, a configuration with an action above 3, is ignored and reported. -/
def writePattern (s : State) (t i w : Nat) : State :=
  if (List.range 8).any (fun p => 8 ≤ bits w (4 * p + 3) (4 * p)) then s.mark (TL_CAP_STAT_WR_REJ t) else s.setReg (TL_TRIG_PAT t i) (BitVec.ofNat 32 w)
def writeCondition (s : State) (t i w : Nat) : State :=
  if 4 ≤ bits w 30 28 then s.mark (TL_CAP_STAT_WR_REJ t) else s.setReg (TL_TRIG_CFG t i) (BitVec.ofNat 32 (w &&& 0xFF80FFFF))

end State

end Sys2Proof.Machine
end

