-- ==== Sys2Proof/Machine/Calib.lean ====
section
/-! DEFINITION. Sensors, bands, rate of rise, thermal shutdown and calibration runs (11_calibration_heat_and_wear.md, R327 to
R351). Temperatures are in 1/128 °C. -/

namespace Sys2Proof.Machine

/-- Insert into a rising list. -/
def insertInt : List Int → Int → List Int
  | [], n => [n]
  | a :: r, n => if n < a then n :: a :: r else a :: insertInt r n

def sortInts (l : List Int) : List Int := l.foldl insertInt []

/-- Twice the median; with an even number of readings the mean of the middle two (R328, R329). None of no readings. -/
def median2 (l : List Int) : Option Int :=
  let m := sortInts l
  if m.isEmpty then none else some (m.getD ((m.length - 1) / 2) 0 + m.getD (m.length / 2) 0)

/-- The band the first value of T chooses, with no hysteresis (R330). -/
def firstBand (t : Int) : Nat := (max 0 (min 7 ((t - 15 * 128) / 1280))).toNat

/-- Readings saturate at 16 bits (R327: below -64 °C and above 191.99 °C). -/
def clampReading (i : Int) : Int := max (-8192) (min 24575 i)

/-- Ticks of a calibration step, and of a millisecond. -/
def stepTicks : Nat := 2000
def msTicks : Nat := 100000

namespace State

/-! ### Calibration runs (R337 to R346) -/

/-- Number 0 to 4 of the strip's calibration state as held; SUSPENDED is shown while it is held (R343). -/
def calState (s : State) (r : Nat) : Nat := s.get (ST_CAL_STAT_STATE r)
def calShown (s : State) (r : Nat) : Nat := if s.calState r = 2 && s.held r then 3 else s.calState r

/-- A supervisor in state RUN serves the strip (R393): one that is trapped or booting starts no calibration step (R398). -/
def served (s : State) (r : Nat) : Bool :=
  (List.range 2).any (fun d => s.get (svState d) = 1 && (s.get (svDoms d)).testBit (r / 4))

/-- A free tiller (R338): IDLE or FAULTED, every driver and PPMU off, and no armed START_AT pending on its group. -/
def freeTiller (s : State) (t : Nat) : Bool :=
  (s.engine t = 0 || s.engine t = 5)
    && (tillerPins t).all (fun g => !s.on (PN_CTRL_DRV_EN g) && s.get (PN_PPMU_CTRL_MODE g) = 0)
    && !s.slots.any (fun x => x.op == SchedOp.start && (x.group = 15 || x.group = s.startGroup t) && s.on (armBit t))

/-- The tiller's usable interval (R338): first tick, and last tick if it has one. -/
def calUsable (s : State) (t : Nat) : Option (Nat × Option Nat) :=
  let c := s.calTl t
  match (s.tl t).gap with
  | some g => if 4000 ≤ g.len && decide (g.g ≤ s.ticks) then some (g.g, some (g.g + g.len - 200)) else none
  | none =>
    if s.freeTiller t then some (s.ticks, none)
    else if (s.engine t = 0 || s.engine t = 4) && decide (s.ticks < c.prober) then some (c.proberFrom, some c.prober)
    else none

/-- The strip pin of step n, as a pin number of its tiller (R339). -/
def stepPin (n : Nat) : Nat := if n < 240 then n / 30 else (n - 240) / 10

/-- The tiller's work is complete, or it is skipped in this run (R339). -/
def calComplete (s : State) (t : Nat) : Bool := s.fbit (ST_CAL_STAT_DONE (rowOf t)) (colOf t)

/-- A step starts if it ends within the usable interval (R339). -/
def tryStep (s : State) (t : Nat) : State :=
  let r := rowOf t
  let c := s.calTl t
  if s.calState r ≠ 2 || s.held r || !s.served r || s.calComplete t || c.stepEnd.isSome then s
  else match s.calUsable t with
    | none => s
    | some (from_, until_) =>
      let e := max s.ticks from_ + stepTicks
      if until_.any (fun u => decide (u < e)) then s
      else
        let g := 8 * t + stepPin c.done
        let inGap := (s.tl t).gap.isSome
        let s1 := if inGap && !c.used then s.bump (TL_OPSTAT_GAP_USED t) else s
        ((s1.setCalTl t { c with stepEnd := some e, used := c.used || inGap }).setPin g { s1.pin g with calPath := true }).mark (PN_STAT_SELFTEST_ACTIVE g)

def trySteps (s : State) (r : Nat) : State := (stripTillers r).foldl tryStep s

/-- The self-check path of the step in progress opens. -/
def openPaths (s : State) (t : Nat) : State :=
  (tillerPins t).foldl (fun s g => if (s.pin g).calPath then
    (s.setPin g { s.pin g with calPath := false }).put (PN_STAT_SELFTEST_ACTIVE g) (b2n (s.get (PN_CTRL_SELFTEST g) ≠ 0)) else s) s

/-- Write a word of a bank of strip r. -/
def setBank (s : State) (r bank i w v : Nat) : State :=
  { s with banks := storeSet (fun _ => BitVec.ofNat 32 Config.factoryBank) s.banks (2048 * r + 1024 * bank + 16 * i + w) (BitVec.ofNat 32 v) }

/-- A skipped tiller's new words are copied from the active bank (R339). -/
def copyBank (s : State) (r c : Nat) : State :=
  let a := s.get (ST_CAL_STAT_ACT_BANK r)
  (List.range 128).foldl (fun s j => s.setBank r (1 - a) (8 * c + j / 16) (j % 16) (s.bankWord r a (8 * c + j / 16) (j % 16))) s

/-- All the strip's steps and progress are forgotten. -/
def clearRun (s : State) (r : Nat) : State :=
  ((stripTillers r).foldl (fun s t => (s.openPaths t).setCalTl t { s.calTl t with done := 0, stepEnd := none, rms := [] }) s).put (ST_CAL_STAT_DONE r) 0

/-- A run starts from nothing with the present T and band (R338). -/
def beginRun (s : State) (r : Nat) : State :=
  let s1 := ((s.clearRun r).put (ST_CAL_STAT_STATE r) 2).put (ST_CAL_TREF_TSTART r) (s.get (ST_TSTRIP_T r))
  let s2 := s1.setStrip r { s1.strip r with runAt := s1.ticks, runBand := s1.get (ST_TSTRIP_BAND r), heldTicks := 0 }
  let skip := s2.get (ST_CAL_CTRL_SKIP r)
  let s3 := s2.put (ST_CAL_STAT_DONE r) skip
  (List.range 8).foldl (fun s c => if skip.testBit c then s.copyBank r c else s) s3

/-- A change becomes pending for all eight tillers at once (R335); those at a safe point take it (R334). -/
def pendStrip (s : State) (r : Nat) : State :=
  let s1 := (stripTillers r).foldl (fun s t => if (s.tl t).switchFrom.isSome then s else s.setTl t { s.tl t with switchFrom := some s.ticks }) s
  (stripTillers r).foldl (fun s t => if s.active t then s else s.safePoint t) (s1.put (ST_CAL_STAT_PEND r) 0xFF)

/-- The inactive bank becomes the active one, pending for all eight tillers, with TREF the present T (R341, R346). -/
def adoptBank (s : State) (r : Nat) : State :=
  let s1 := (s.put (ST_CAL_STAT_ACT_BANK r) (1 - s.get (ST_CAL_STAT_ACT_BANK r))).put (ST_CAL_TREF_TREF r) (s.get (ST_TSTRIP_T r))
  ((s1.put (ST_CAL_STAT_DUE r) 0).put (ST_CAL_STAT_STATE r) 4).pendStrip r

/-- A strip becomes DUE (R337). -/
def setDue (s : State) (r : Nat) : State :=
  if !s.on (ST_CAL_CTRL_EN r) || s.on (ST_CAL_STAT_DUE r) then s
  else
    let s1 := s.mark (ST_CAL_STAT_DUE r)
    (if s1.calState r = 0 then s1.put (ST_CAL_STAT_STATE r) 1 else s1).stSource r 6

/-- A run in progress is abandoned (R342). -/
def abandonRun (s : State) (r : Nat) (due : Bool) : State :=
  let s1 := if due then s else s.put (ST_CAL_STAT_DUE r) 0
  if s.calState r ≠ 2 then s
  else (((s1.clearRun r).put (ST_CAL_STAT_STATE r) (s1.calRest r)).bump (ST_CAL_CNT_ABANDONS r)).stSource r 9

/-- The worst pin-edge of a tiller and its figure (R344). -/
def worstEdge (s : State) (t : Nat) : Nat × Nat :=
  (s.calTl t).rms.foldl (fun b e => if b.2 < e.2 then e else b) (0, 0)

/-- When every tiller is complete the quality check passes the new bank or raises QUAL_FAIL (R341, R344). -/
def completeRun (s : State) (r : Nat) : State :=
  if s.calState r ≠ 2 || s.get (ST_CAL_STAT_DONE r) ≠ 0xFF then s
  else
    let live := (stripTillers r).filter (fun t => decide ((s.calTl t).done = 320))
    let s1 := live.foldl (fun s t => (s.put (ST_CAL_QUAL_T_EDGE r (colOf t)) (s.worstEdge t).1).put (ST_CAL_QUAL_T_RMS r (colOf t)) (s.worstEdge t).2) s
    let worst := live.foldl (fun m t => max m (s.worstEdge t).2) 0
    let s2 := s1.put (ST_CAL_QUAL_WORST r) worst
    if worst ≤ s2.get (ST_CAL_QUAL_QLIM r) then
      let s3 := ((s2.adoptBank r).wrapUp (ST_CAL_CNT_RUNS r)).put48 (ST_CAL_LAST_LO r) (ST_CAL_LAST_HI r) s2.count.toNat
      s3.stSource r 7
    else (s2.put (ST_CAL_STAT_STATE r) (s2.calRest r)).stSource r 8

/-- CAL_RUN_START (R338): with all its conditions a run starts; otherwise nothing. -/
def calRunStart (s : State) (r : Nat) : State :=
  let usable (t : Nat) : Bool := match s.calUsable t with
    | some (a, b) => decide (a ≤ s.ticks) && !b.any (fun u => decide (u < s.ticks))
    | none => false
  if s.on (ST_CAL_STAT_DUE r) && s.on (ST_CAL_CTRL_EN r) && s.served r && !s.held r && s.get (ST_CAL_STAT_PEND r) = 0
      && s.calState r ≤ 1 && (stripTillers r).any usable then ((s.beginRun r).completeRun r).trySteps r
  else s

/-- The new words of a finished step go to the inactive bank (R332, R339): `word` and `rms` are what it measured. -/
def stepWords (s : State) (t n word rms : Nat) : State :=
  let r := rowOf t
  let b := 1 - s.get (ST_CAL_STAT_ACT_BANK r)
  if n < 240 then
    if n % 6 = 5 then
      let s1 := s.setBank r b (8 * colOf t + n / 30) (n / 6 % 5) (word % 2 ^ 16)
      s1.setCalTl t { s1.calTl t with rms := storeSet (fun _ => 0) (s1.calTl t).rms (n / 6) rms }
    else s
  else if (n - 240) % 10 < 8 then s.setBank r b (8 * colOf t + (n - 240) / 10) (5 + (n - 240) % 10) word
  else s

/-- CAL_STEP_END (R339): a step of a tiller completes. -/
def calStepEnd (s : State) (t word rms : Nat) : State :=
  match (s.calTl t).stepEnd with
  | none => s
  | some e =>
    let s1 := (s.advTo e).openPaths t
    let n := (s1.calTl t).done
    let s2 := (s1.stepWords t n word rms)
    let s3 := s2.setCalTl t { s2.calTl t with done := n + 1, stepEnd := none }
    if n + 1 = 320 then (s3.putBit (ST_CAL_STAT_DONE (rowOf t)) (colOf t) true).completeRun (rowOf t) else s3.tryStep t

/-- The tick at which `ST_CAL_TMO` has run from a tick (R342, R345). -/
def calTmoAt (s : State) (r from_ : Nat) : Nat := from_ + s.get (ST_CAL_TMO_MS r) * msTicks

/-- CAL_TIMEOUT (R342): held time is not counted, and while the strip is held the clock stands (R343). -/
def calTimeout (s : State) (r : Nat) : State :=
  if s.calState r = 2 && !s.held r then
    (s.advTo (s.calTmoAt r (s.strip r).runAt + (s.strip r).heldTicks)).abandonRun r true
  else s

/-- SWITCH_STUCK (R345). -/
def switchStuck (s : State) (t : Nat) : State :=
  match (s.tl t).switchFrom with
  | some f => if s.switchPending t then (s.advTo (s.calTmoAt (rowOf t) f)).stSource (rowOf t) 10 else s
  | none => s

/-- A run restarts when its band or temperature has moved (R342). -/
def restartTest (s : State) (r : Nat) : State :=
  let far := decide (2 * (s.get (ST_CAL_DT_DT r) : Int) < ((signed 16 (s.get (ST_TSTRIP_T r)) - signed 16 (s.get (ST_CAL_TREF_TSTART r))).natAbs : Int))
  if s.calState r = 2 && !s.held r && (far || s.get (ST_TSTRIP_BAND r) ≠ (s.strip r).runBand) then
    (((s.bump (ST_CAL_CNT_RESTARTS r)).beginRun r).completeRun r).trySteps r
  else s

/-- CAL_HOLD_EXPIRE (R37, R343): pending switches are taken, a suspended run goes on. -/
def calHoldExpire (s : State) (r : Nat) : State :=
  let hs := s.holds.filter (fun h => h.strip = r)
  match hs.getLast? with
  | none => s
  | some h =>
    let begun := max (hs.foldl (fun m h => min m h.from_) h.from_) (s.strip r).runAt
    let s1 := s.holdExpire r
    let s2 := if s1.calState r = 2 then s1.setStrip r { s1.strip r with heldTicks := (s1.strip r).heldTicks + (h.until_ - begun) } else s1
    (s2.restartTest r).trySteps r

/-- A write of `ST_CAL_CTRL.RUN_NOW`, ABORT, COMMIT, RELOAD (R335, R337, R342, R346). -/
def runNow (s : State) (r : Nat) : State := s.setDue r
def calAbort (s : State) (r : Nat) : State := s.abandonRun r false
def calCommit (s : State) (r : Nat) : State := if s.calState r ≤ 1 then s.adoptBank r else s.mark (ST_CAL_STAT_BUSY_REJ r)
def calReload (s : State) (r : Nat) : State := s.pendStrip r

/-- An access of `ST_CAL_DATA` advances IDX when AINC is set. -/
def calAdvance (s : State) (r : Nat) : State := if s.on (ST_CAL_IDX_AINC r) then s.put (ST_CAL_IDX_IDX r) (s.get (ST_CAL_IDX_IDX r) + 1) else s

/-- A write of `ST_CAL_DATA` (R346). -/
def calDataWrite (s : State) (r w : Nat) : State :=
  let i := s.get (ST_CAL_IDX_IDX r)
  let s1 :=
    if i / 1024 = s.get (ST_CAL_STAT_ACT_BANK r) then s.mark (ST_CAL_STAT_ACT_REJ r)
    else if 2 ≤ s.calState r then s.mark (ST_CAL_STAT_BUSY_REJ r)
    else s.setBank r (i / 1024) (i % 1024 / 16) (i % 16) (if i % 16 < 5 then w % 2 ^ 16 else if i % 16 < 13 then w else 0)
  s1.calAdvance r

/-- The word `ST_CAL_DATA` shows. -/
def calData (s : State) (r : Nat) : Nat :=
  let i := s.get (ST_CAL_IDX_IDX r)
  s.bankWord r (i / 1024) (i % 1024 / 16) (i % 16)

/-- What `ST_CAL_PROG` shows: the non-skipped column with the fewest steps done, and its steps. -/
def calProg (s : State) (r : Nat) : Nat :=
  let live := (List.range 8).filter (fun c => !s.fbit (ST_CAL_CTRL_SKIP r) c)
  match live with
  | [] => 0
  | c0 :: rest =>
    let c := rest.foldl (fun b c => if (s.calTl (8 * r + c)).done < (s.calTl (8 * r + b)).done then c else b) c0
    c * 2 ^ 16 + (s.calTl (8 * r + c)).done

/-- A write of `GL_PGAP.GO` (R338): LEN in µs, from the write. -/
def proberGap (s : State) (strips len : Nat) : State :=
  let chosen := (List.range 8).filter (fun r => strips.testBit r)
  let s1 := chosen.foldl (fun s r => (stripTillers r).foldl (fun s t =>
    s.setCalTl t { s.calTl t with proberFrom := s.ticks + 100, prober := s.ticks + 100 * len - 200 }) s) s
  chosen.foldl trySteps s1

/-- GAP_START (R125, R133, R159): tick G of a gap. -/
def gapStart (s : State) (t : Nat) : State :=
  match (s.tl t).gap with
  | none => s
  | some g =>
    let s1 := s.advTo g.g
    let x := s1.tl t
    let s2 := s1.trace t 12 x.vec.opc ((if g.segment then 0x3FFF else x.idx % 2 ^ 14) + g.len % 2 ^ 14 * 2 ^ 16)
    let s3 := (s2.setCalTl t { s2.calTl t with used := false }).safePoint t
    s3.tryStep t

/-! ### Sensors (R327 to R330) -/

/-- Sensor k of strip r as an unbroken reading. -/
def liveReadings (s : State) (r : Nat) : List Int :=
  ((List.range 4).filter (fun k => !s.on (ST_TEMP_BROKEN r k))).map (fun k => signed 16 (s.get (ST_TEMP_TEMP r k)))

/-- A reading differs from twice its reference by more than 6.0 °C (R328). -/
def disagrees (x : Int) (ref2 : Option Int) : Bool := match ref2 with
  | some m => decide (1536 < (2 * x - m).natAbs)
  | none => false

/-- Count of the sample: consecutive disagreeing samples of sensor k of strip r. -/
def wrongAfter (s : State) (r k : Nat) : Nat :=
  if s.on (ST_TEMP_BROKEN r k) then 0
  else
    let others := (List.range 4).filter (fun j => j != k && !s.on (ST_TEMP_BROKEN r j))
    if disagrees (signed 16 (s.get (ST_TEMP_TEMP r k))) (median2 (others.map (fun j => signed 16 (s.get (ST_TEMP_TEMP r j))))) then storeGet (fun _ => 0) (s.strip r).wrong k + 1 else 0

/-- The check of a strip's sensors (R328). -/
def checkStrip (s : State) (r : Nat) : State :=
  let w := (List.range 4).map (fun k => s.wrongAfter r k)
  let hit := (List.range 4).filter (fun k => decide (8 ≤ w.getD k 0))
  let keep (k : Nat) : Nat := if hit.contains k then 0 else w.getD k 0
  let s1 := s.setStrip r { s.strip r with wrong := (List.range 4).foldl (fun m k => storeSet (fun _ => 0) m k (keep k)) [] }
  match hit with
  | [] => s1
  | [k] => (s1.mark (ST_TEMP_BROKEN r k)).stSource r 2
  | _ => (s1.mark (ST_TSTRIP_SPLIT r)).stSource r 3

/-- The check of sensor 32 or 33 against the strip beside it (R328). -/
def checkEdge (s : State) (d : Nat) : State :=
  let r := 7 * d
  let bad := !s.on (GL_TEMP_SV_BROKEN d) && disagrees (signed 16 (s.get (GL_TEMP_SV_TEMP d))) (median2 (s.liveReadings r))
  let n := if bad then (if d = 0 then s.monitor.wrongN else s.monitor.wrongS) + 1 else 0
  let s1 := { s with monitor := if d = 0 then { s.monitor with wrongN := n } else { s.monitor with wrongS := n } }
  if n ≠ 8 then s1
  else { s1 with monitor := if d = 0 then { s1.monitor with wrongN := 0 } else { s1.monitor with wrongS := 0 } }.mark (GL_TEMP_SV_BROKEN d)

/-- A mean whose rounding the manual leaves open: half of a sum, up or down (R329). -/
def halfOf2 (s : State) (n : Int) : State × Int :=
  if n % 2 = 0 then (s, n / 2) else (s.draw, n / 2 + (if Config.roundsUp s.draws then 1 else 0))

/-- A strip's temperature from its own sensors (R329); the strip is BLIND when none is left. -/
def formT (s : State) (r : Nat) : State :=
  match median2 (s.liveReadings r) with
  | some m =>
    let q := s.halfOf2 m
    (q.1.put (ST_TSTRIP_BLIND r) 0).put (ST_TSTRIP_T r) (unsigned 16 q.2)
  | none => if s.on (ST_TSTRIP_BLIND r) then s else (s.mark (ST_TSTRIP_BLIND r)).stSource r 4

/-- A blind strip takes the mean of its neighbours that are not (R329). -/
def formBlind (s : State) (r : Nat) : State :=
  if !s.on (ST_TSTRIP_BLIND r) then s
  else
    let near := ((List.range 8).filter (fun q => (q + 1 = r || q = r + 1) && !s.on (ST_TSTRIP_BLIND q))).map (fun q => signed 16 (s.get (ST_TSTRIP_T q)))
    match median2 near with
    | none => s
    | some m =>
      let q := s.halfOf2 m
      q.1.put (ST_TSTRIP_T r) (unsigned 16 q.2)

/-- The band follows T (R330); its change is pending for the strip's tillers and makes it due (R335, R337). -/
def followBand (s : State) (r : Nat) : State :=
  let t := signed 16 (s.get (ST_TSTRIP_T r))
  let b := s.get (ST_TSTRIP_BAND r)
  let first := (s.strip r).temps.isEmpty
  let n := if first then firstBand t
    else if b < 7 && decide (((26 + 10 * b : Nat) : Int) * 128 ≤ t) then b + 1
    else if 0 < b && decide (t < ((14 + 10 * b : Nat) : Int) * 128) then b - 1
    else b
  let s1 := s.put (ST_TSTRIP_BAND_OOR r) (b2n (decide (t < 15 * 128) || decide (95 * 128 ≤ t)))
  let s2 := s1.put (ST_TSTRIP_BAND r) n
  if first then s2.pendStrip r
  else if n = b then s2
  else
    let s3 := (s2.stSource r 5).pendStrip r
    if s3.on (ST_CAL_CTRL_AUTO r) then s3.setDue r else s3

/-- The temperature trigger of a run (R337). -/
def followT (s : State) (r : Nat) : State :=
  let far := decide ((s.get (ST_CAL_DT_DT r) : Int) < ((signed 16 (s.get (ST_TSTRIP_T r)) - signed 16 (s.get (ST_CAL_TREF_TREF r))).natAbs : Int))
  if s.on (ST_CAL_CTRL_AUTO r) && far then s.setDue r else s

/-! ### Rate of rise (R348 to R350) -/

/-- The reaction on one tiller (R349). -/
def riseReaction (s : State) (code t : Nat) : State :=
  if !s.active t || code = 0 then s
  else
    let s1 := (s.tag t 22).modTl t (fun x => { x with thermal := true })
    match code with
    | 2 => (s1.modTl t (fun x => { x with pauseReq := true })).putBit (ST_RISE_STAT_PAUSE_PEND (rowOf t)) (colOf t) true
    | 3 => s1.requestStop t s1.now
    | 4 => s1.safeStop t
    | _ => s1

/-- The strip's reaction is taken (R349, R350). -/
def takeReaction (s : State) (r : Nat) : State :=
  let code := s.get (ST_RISE_CFG_ACT_REACT r)
  let s1 := (s.bump (ST_RISE_STAT_ACTS r)).setStrip r { s.strip r with reacted := true, below := 0 }
  (stripTillers r).foldl (fun s t => s.riseReaction code t) (if code = 0 then s1 else s1.mark (ST_RISE_MARK r))

/-- The mark ends (R350). -/
def endMark (s : State) (r : Nat) : State :=
  let s1 := (s.put (ST_RISE_MARK r) 0).setStrip r { s.strip r with reacted := false }
  (stripTillers r).foldl (fun s t =>
    let s2 := s.modTl t (fun x => { x with thermal := false })
    if s2.on (ST_RISE_CFG_AUTO_RESUME r) && s2.fbit (ST_RISE_STAT_PAUSED r) (colOf t) then s2.unparkAt t (s2.now + 160) none else s2) s1

/-- The rate of rise over the last 100 samples (R348): 1/8 °C/s, of T differences in 1/128 °C over 0.1 s. The thresholds are held
against the rate before it is rounded. -/
def followRate (s : State) (r : Nat) : State :=
  let t := signed 16 (s.get (ST_TSTRIP_T r))
  let x := s.strip r
  let s1 := s.setStrip r { x with temps := (t :: x.temps).take 101 }
  match (t :: x.temps)[100]? with
  | none => s1
  | some old =>
    let n := (t - old) * 5
    let s2 := if n % 8 = 0 then s1 else s1.draw
    let rate := n / 8 + (if n % 8 ≠ 0 && Config.roundsUp s1.draws then 1 else 0)
    let warn := decide (8 * (s.get (ST_RISE_CFG_WARN r) : Int) ≤ n)
    let act := decide (8 * (s.get (ST_RISE_CFG_ACT r) : Int) ≤ n)
    let below := if warn then 0 else x.below + 1
    let s3 := (s2.put (ST_RISE_RATE r) (unsigned 16 rate)).setStrip r { s2.strip r with below := below }
    let s4 := if warn && !s.on (ST_RISE_WARN_NOW r) then s3.stSource r 0 else s3
    let s5 := (s4.put (ST_RISE_WARN_NOW r) (b2n warn)).put (ST_RISE_ACT_NOW r) (b2n act)
    let s6 := if act && !s.on (ST_RISE_ACT_NOW r) then (if x.reacted then s5.stSource r 1 else (s5.stSource r 1).takeReaction r) else s5
    if (s6.strip r).reacted && 100 ≤ (s6.strip r).below then s6.endMark r else s6

/-! ### Thermal shutdown (R351) -/

/-- Unbroken sensors at 125.0 °C or more, lowest first. -/
def hotSensors (s : State) : List Nat :=
  (List.range 34).filter (fun n =>
    if n < 32 then !s.on (ST_TEMP_BROKEN (n / 4) (n % 4)) && decide (16000 ≤ signed 16 (s.get (ST_TEMP_TEMP (n / 4) (n % 4))))
    else !s.on (GL_TEMP_SV_BROKEN (n - 32)) && decide (16000 ≤ signed 16 (s.get (GL_TEMP_SV_TEMP (n - 32)))))

/-- The strip whose rate a log entry gives (R352). -/
def tripStrip (n : Nat) : Nat := if n < 32 then n / 4 else 7 * (n - 32)

/-- Shutdown, or HOT_ALONE (R351). -/
def thermalTest (s : State) : State :=
  match s.hotSensors with
  | [] => { s with monitor := { s.monitor with alone := 0 } }
  | [_] =>
    let s1 := { s with monitor := { s.monitor with alone := s.monitor.alone + 1 } }
    if 8 ≤ s1.monitor.alone then (s1.mark GL_THERM_STAT_HOT_ALONE).raiseLine 177 else s1
  | a :: b :: _ =>
    let s1 := { s with monitor := { s.monitor with alone := 0 } }
    if s1.monitor.trip.isSome then s1
    else
      let s2 := allTillers.foldl shutStop s1
      { s2 with monitor := { s2.monitor with trip := some ⟨s2.ticks, s2.count.toNat, a, b, s.get (ST_RISE_RATE (tripStrip a)), false⟩ } }

/-- The next sample of the sensors, every 1 ms, in deep sleep and in shutdown at 10 Hz (R327, R351, R441). -/
def sampleTick (s : State) : State :=
  let s1 := s.advTo s.monitor.sampleAt
  let slow := s1.get GL_PWR_STAT_STATE = 4 || s1.get GL_PWR_STAT_STATE = 5
  { s1 with monitor := { s1.monitor with sampleAt := s1.ticks + (if slow then 10000000 else 100000) } }

/-- SENSOR_SAMPLE (R327): the 34 sensors convert. -/
def sensorSample (s0 : State) (readings : List Int) : State :=
  let s := s0.sampleTick
  let rd (n : Nat) : Nat := unsigned 16 (clampReading (readings.getD n 0))
  let s1 := (List.range 32).foldl (fun s n => s.put (ST_TEMP_TEMP (n / 4) (n % 4)) (rd n)) s
  let s2 := (s1.put (GL_TEMP_SV_TEMP 0) (rd 32)).put (GL_TEMP_SV_TEMP 1) (rd 33)
  let s3 := (List.range 8).foldl checkStrip ((s2.checkEdge 0).checkEdge 1)
  let s4 := (List.range 8).foldl formBlind ((List.range 8).foldl formT s3)
  let s5 := (List.range 8).foldl (fun s r => ((s.followBand r).followT r).followRate r) s4
  ((List.range 8).foldl (fun s r => (s.restartTest r).trySteps r) s5).thermalTest

end State

end Sys2Proof.Machine
end

