-- ==== Sys2Proof/Machine/Repair.lean ====
section
/-! DEFINITION. Repair contexts and the analysis of the built-in routines (08_threshers.md, R246, R255 to R259): pure functions
on one context. -/

namespace Sys2Proof.Machine

/-! ### CRC-32 (R259, R383) -/

/-- One bit of the CRC: polynomial 0x04C11DB7, most significant bit first. -/
def crc32Step (c : Nat) (b : Bool) : Nat := if c.testBit 31 != b then (c * 2 % 2 ^ 32) ^^^ 0x04C11DB7 else c * 2 % 2 ^ 32

/-- One byte. -/
def crc32Byte (c b : Nat) : Nat := (List.range 8).foldr (fun i c => crc32Step c (b.testBit i)) c

/-- The CRC-32 of bytes from a value, no reflection, no final XOR. -/
def crc32 (c : Nat) (l : List Nat) : Nat := l.foldl crc32Byte c

/-! ### The context (R246) -/

/-- A context with its fields apart. -/
structure Ctx where
  key : Nat
  status : Nat
  ovf : Nat
  mustRow : Nat
  mustCol : Nat
  cross : Nat
  rowAddr : List Nat
  colAddr : List Nat
  rowCnt : List Nat
  colCnt : List Nat
  deriving DecidableEq, Repr

/-- Bytes [hi:lo] of a 512-bit number. -/
def bytesOf (n lo len : Nat) : Nat := n >>> (8 * lo) % 2 ^ (8 * len)

def Ctx.ofNat (n : Nat) : Ctx :=
  { key := bytesOf n 0 3, status := bytesOf n 3 2, ovf := bytesOf n 5 1, mustRow := bytesOf n 6 1, mustCol := bytesOf n 7 1, cross := bytesOf n 8 8,
    rowAddr := (List.range 8).map (fun i => bytesOf n (16 + 2 * i) 2), colAddr := (List.range 8).map (fun i => bytesOf n (32 + 2 * i) 2),
    rowCnt := (List.range 8).map (fun i => bytesOf n (48 + i) 1), colCnt := (List.range 8).map (fun i => bytesOf n (56 + i) 1) }

/-- Little-endian fields of w bytes each. -/
def packList (w : Nat) (l : List Nat) : Nat := l.foldr (fun v r => v % 2 ^ (8 * w) + r * 2 ^ (8 * w)) 0

def Ctx.toNat (c : Ctx) : Nat :=
  c.key + c.status % 2 ^ 16 * 2 ^ 24 + c.ovf * 2 ^ 40 + c.mustRow * 2 ^ 48 + c.mustCol * 2 ^ 56 + c.cross * 2 ^ 64
    + packList 2 c.rowAddr * 2 ^ 128 + packList 2 c.colAddr * 2 ^ 256 + packList 1 c.rowCnt * 2 ^ 384 + packList 1 c.colCnt * 2 ^ 448

/-- Bits of STATUS. -/
def ctxValid : Nat := 0
def ctxStale : Nat := 1
def ctxUnrepairable : Nat := 2
def ctxSolved : Nat := 3
def ctxCandOvf : Nat := 4
def ctxPartial : Nat := 5
def ctxCbankMix : Nat := 6
def ctxCbankFirst : Nat := 7
def ctxUnsynced : Nat := 8
def ctxThermal : Nat := 9

/-- Set or clear a bit of a number. -/
def setBit (n i : Nat) (b : Bool) : Nat := if b then n ||| 2 ^ i else if n.testBit i then n ^^^ 2 ^ i else n

def Ctx.has (c : Ctx) (i : Nat) : Bool := c.status.testBit i
def Ctx.flag (c : Ctx) (i : Nat) (b : Bool) : Ctx := { c with status := setBit c.status i b }

/-- The key of tiller t and a region (R246). -/
def ctxKey (t region : Nat) : Nat := region % 4096 + t * 4096

/-- The shadow a first LDCTX makes: cleared, with the key and VALID (R247). -/
def newCtx (key : Nat) : Nat := key + 2 ^ 24

def Ctx.rowUsed (c : Ctx) (i : Nat) : Bool := c.rowCnt.getD i 0 != 0 || c.mustRow.testBit i
def Ctx.colUsed (c : Ctx) (j : Nat) : Bool := c.colCnt.getD j 0 != 0 || c.mustCol.testBit j
def Ctx.crossAt (c : Ctx) (i j : Nat) : Bool := c.cross.testBit (8 * i + j)
def eight : List Nat := List.range 8
def inc8 (n : Nat) : Nat := min (n + 1) 255

/-- Take cells off the counts of the other kind when a line becomes must (R256). -/
def Ctx.mustRowNow (c : Ctx) (i : Nat) : Ctx :=
  eight.foldl (fun c j => if c.crossAt i j then { c with cross := setBit c.cross (8 * i + j) false, colCnt := c.colCnt.set j (c.colCnt.getD j 0 - 1) } else c)
    { c with mustRow := setBit c.mustRow i true }

def Ctx.mustColNow (c : Ctx) (j : Nat) : Ctx :=
  eight.foldl (fun c i => if c.crossAt i j then { c with cross := setBit c.cross (8 * i + j) false, rowCnt := c.rowCnt.set i (c.rowCnt.getD i 0 - 1) } else c)
    { c with mustCol := setBit c.mustCol j true }

/-- The must-repair cascade (R256): at most sixteen lines can become must. -/
def Ctx.cascade (sr sc : Nat) : Nat → Ctx → Ctx
  | 0, c => c
  | n + 1, c =>
    let fr : Int := (sr : Int) - popCount 8 c.mustRow
    let fc : Int := (sc : Int) - popCount 8 c.mustCol
    match eight.find? (fun i => c.rowUsed i && !c.mustRow.testBit i && decide (fc < (c.rowCnt.getD i 0 : Int))) with
    | some i => (c.mustRowNow i).cascade sr sc n
    | none => match eight.find? (fun j => c.colUsed j && !c.mustCol.testBit j && decide (fr < (c.colCnt.getD j 0 : Int))) with
      | some j => (c.mustColNow j).cascade sr sc n
      | none => c

/-- A new failing cell is counted at its slots, then the cascade runs (R256). -/
def Ctx.count (c : Ctx) (i j : Option Nat) (sr sc : Nat) : Ctx :=
  let row (c : Ctx) (i : Nat) : Ctx := { c with rowCnt := c.rowCnt.set i (inc8 (c.rowCnt.getD i 0)) }
  let col (c : Ctx) (j : Nat) : Ctx := { c with colCnt := c.colCnt.set j (inc8 (c.colCnt.getD j 0)) }
  let c1 := match i, j with
    | some i, some j => col (row { c with cross := setBit c.cross (8 * i + j) true } i) j
    | some i, none => (row c i).flag ctxPartial true
    | none, some j => (col c j).flag ctxPartial true
    | none, none => { (c.flag ctxCandOvf true).flag ctxUnrepairable true with ovf := inc8 c.ovf }
  let c2 := c1.cascade sr sc 16
  if sr < popCount 8 c2.mustRow || sc < popCount 8 c2.mustCol then c2.flag ctxUnrepairable true else c2

/-- MUSTFIX (R256) on one fail record: CBANK, UNSYNCED, THERMAL of the record, its cell, the spares. -/
def Ctx.mustfix (c0 : Ctx) (fresh cbank unsynced thermal : Bool) (row col sr sc : Nat) : Ctx :=
  let c1 := if fresh then c0.flag ctxCbankFirst cbank else if cbank != c0.has ctxCbankFirst then c0.flag ctxCbankMix true else c0
  let c2 := if unsynced then c1.flag ctxUnsynced true else c1
  let c := (if thermal then c2.flag ctxThermal true else c2).flag ctxSolved false
  if c.has ctxUnrepairable then c
  else
    let i := eight.find? (fun i => c.rowUsed i && c.rowAddr.getD i 0 = row)
    let j := eight.find? (fun j => c.colUsed j && c.colAddr.getD j 0 = col)
    if i.any c.mustRow.testBit || j.any c.mustCol.testBit then c
    else
      let fi := eight.find? (fun i => !c.rowUsed i)
      let fj := eight.find? (fun j => !c.colUsed j)
      let ca := match i, fi with
        | none, some k => { c with rowAddr := c.rowAddr.set k row }
        | _, _ => c
      let cb := match j, fj with
        | none, some k => { ca with colAddr := ca.colAddr.set k col }
        | _, _ => ca
      let i1 := i.or fi
      let j1 := j.or fj
      match i1, j1 with
      | some a, some b => if cb.crossAt a b then cb else cb.count i1 j1 sr sc
      | _, _ => cb.count i1 j1 sr sc

/-! ### ALLOC (R257) -/

/-- CROSS bits outside the chosen rows and columns. -/
def Ctx.uncovered (c : Ctx) (rows cols : Nat) : List (Nat × Nat) :=
  (eight.flatMap (fun i => eight.map (fun j => (i, j)))).filter (fun p => c.crossAt p.1 p.2 && !rows.testBit p.1 && !cols.testBit p.2)

/-- The line with the highest score: rows before columns, then the lower index. -/
def bestLine (cand : List (Bool × Nat × Nat)) : Option (Bool × Nat) :=
  (cand.foldl (fun b x => match b with
    | none => some x
    | some y => if y.2.2 < x.2.2 then some x else some y) none).map (fun x => (x.1, x.2.1))

/-- The greedy choice; tells whether a cell stays uncovered. -/
def Ctx.greedy (c : Ctx) (sr sc : Nat) : Nat → Nat → Nat → Nat × Nat × Bool
  | 0, rows, cols => (rows, cols, !(c.uncovered rows cols).isEmpty)
  | n + 1, rows, cols =>
    let u := c.uncovered rows cols
    if u.isEmpty then (rows, cols, false)
    else
      let rs := if popCount 8 rows < sr then (eight.filter (fun i => !rows.testBit i)).map (fun i => (true, i, u.countP (fun p => p.1 = i))) else []
      let cs := if popCount 8 cols < sc then (eight.filter (fun j => !cols.testBit j)).map (fun j => (false, j, u.countP (fun p => p.2 = j))) else []
      match bestLine (rs ++ cs) with
      | none => (rows, cols, true)
      | some (true, i) => c.greedy sr sc n (setBit rows i true) cols
      | some (false, j) => c.greedy sr sc n rows (setBit cols j true)

/-- ALLOC (R257): the context with its new STATUS, and the chosen rows and columns; none for an UNREPAIRABLE region. -/
def Ctx.alloc (c : Ctx) (sr sc : Nat) : Ctx × Nat × Nat :=
  if c.has ctxUnrepairable then (c, 0, 0)
  else
    let cols := eight.foldl (fun m j => if c.colUsed j && !c.mustCol.testBit j && decide (eight.countP (fun i => c.crossAt i j) < c.colCnt.getD j 0) then setBit m j true else m) c.mustCol
    let rows := eight.foldl (fun m i => if c.rowUsed i && !c.mustRow.testBit i && decide (eight.countP (fun j => c.crossAt i j) < c.rowCnt.getD i 0) then setBit m i true else m) c.mustRow
    let r := c.greedy sr sc 16 rows cols
    let bad := r.2.2 || sr < popCount 8 r.1 || sc < popCount 8 r.2.1
    if bad then ((c.flag ctxUnrepairable true).flag ctxSolved false, 0, 0) else (c.flag ctxSolved true, r.1, r.2.1)

/-! ### Ring entries (R263) -/

/-- Place a value at a byte offset. -/
def atByte (off v : Nat) : Nat := v * 2 ^ (8 * off)

/-- The eight-byte header. -/
def ringHeader (type thresher t site seq : Nat) : Nat := type + thresher * 2 ^ 8 + t * 2 ^ 13 + site % 4096 * 2 ^ 19 + seq % 2 ^ 32 * 2 ^ 32

/-- Addresses of the chosen slots in candidate order, 0xFFFF where unused. -/
def repairLines (addr : List Nat) (chosen : Nat) : Nat :=
  let l := (eight.filter chosen.testBit).map (fun i => addr.getD i 0)
  packList 2 (l ++ List.replicate (8 - l.length) 0xFFFF)

/-- SOLUTION entry. -/
def solutionEntry (head region : Nat) (c : Ctx) (rows cols sr sc : Nat) : Nat :=
  head + atByte 8 (region % 4096) + atByte 10 (c.status % 2 ^ 16) + atByte 12 (popCount 8 rows + popCount 8 cols * 16) + atByte 13 (sr + sc * 16)
    + atByte 14 c.ovf + atByte 16 (repairLines c.rowAddr rows) + atByte 32 (repairLines c.colAddr cols)

/-- PACKET entry of a packet-end record (0 bits of it for a command, with VIDX all ones). -/
def packetEntry (head seg reason flushed pass vidx fails : Nat) (x : PktTotals) (sig : Nat) : Nat :=
  let sat (n : Nat) : Nat := min n 0xFFFFFFFF
  head + atByte 8 seg + atByte 9 (reason + flushed * 8) + atByte 10 x.flags + atByte 12 pass + atByte 16 vidx + atByte 24 fails
    + atByte 28 (sat x.dropped) + atByte 32 (sat x.solutions) + atByte 36 (sat x.applied) + atByte 40 (sat x.poisoned) + atByte 44 (sat x.chaffs) + atByte 48 sig

/-- RECORD entry. -/
def recordEntry (head data : Nat) (poison : Bool) : Nat := head + atByte 8 (b2n poison) + atByte 16 data

/-! ### Region map (R255) -/

/-- Region, row and column of a cell (X, Y) under a region map. -/
def regionOfCell (x y colw roww yw ysh xw xsh : Nat) : Nat × Nat × Nat :=
  ((y >>> ysh) % 2 ^ yw * 2 ^ xw + (x >>> xsh) % 2 ^ xw, x % 2 ^ roww, y % 2 ^ colw)

end Sys2Proof.Machine
end

