-- ==== Sys2Proof/Machine/Thresher.lean ====
section
/-! DEFINITION. Threshers (08_threshers.md): input FIFOs and the crossbar, states, faults, contexts, commits, posted work, and
the built-in routines. -/

namespace Sys2Proof.Machine

namespace State

/-! ### States and units -/

/-- `TH_STAT.STATE`: 0 STOPPED, 1 IDLE, 2 PRE, 3 POST, 4 FAULTED (R232). -/
def thState (s : State) (i : Nat) : Nat := s.get (TH_STAT_STATE i)
def enterTh (s : State) (i st : Nat) : State := s.put (TH_STAT_STATE i) st
def modThr (s : State) (i : Nat) (f : Thresher → Thresher) : State := s.setThr i (f (s.thr i))
/-- The other thresher of the sheaf. -/
def otherTh (i : Nat) : Nat := if i % 2 = 0 then i + 1 else i - 1
/-- Card site of tiller t (R16). -/
def cardSite (s : State) (t : Nat) : Nat := 64 * s.here + t

/-- Reads and posted writes outstanding (R241). -/
def thReads (s : State) (i : Nat) : Nat := (s.thr i).bufs.countP (fun b => b.2.line.isSome)
def postedLine : Posted → Bool
  | .line _ _ _ _ => true
  | .ring _ _ _ => true
  | _ => false
def thWrites (s : State) (i : Nat) : Nat := (s.thr i).posted.countP postedLine

/-- n words of free values from draw d on. -/
def freeWords (d : Nat) : Nat → Nat
  | 0 => 0
  | n + 1 => (Config.microValue (d + n)).toNat * 2 ^ (32 * n) + freeWords d n

/-- Working state that nothing has written: 0 after a reset, free values after an abandonment, a fault or a built-in
routine (R237). -/
def wildG (w k : Nat) : Nat := if w = 0 || k = 0 then 0 else (Config.microValue (w + k)).toNat
def wildLine (w k : Nat) : LineBuf := if w = 0 then LineBuf.reset else ⟨freeWords (w + 64 + 32 * k) 16, Config.microChoice (w + 32 * k), none, false, false, 0⟩
def wildRing (w k : Nat) : Nat := if w = 0 then 0 else freeWords (w + 1024 + 32 * k) 16
def wildScratchWord (w k : Nat) : Nat := if w = 0 then 0 else (Config.microValue (w + 2048 + k)).toNat

/-- Working state may hold any value (R237). Buffers busy with a read stay busy. -/
def scramble (s : State) (i : Nat) : State :=
  let x := s.thr i
  let w := s.draws + 1
  let s1 := s.setThr i { x with g := [], z := Config.microChoice (w + 1), n := Config.microChoice (w + 2), c := Config.microChoice (w + 3), fresh := Config.microChoice (w + 4), shadow := freeWords (w + 40) 16, ringBufs := [], bufs := x.bufs.filter (fun b => b.2.line.isSome), wild := w }
  { s1 with draws := s1.draws + 4096 }

/-- The built-in routines keep what they like in scratch. -/
def scrambleScratch (s : State) (i : Nat) : State :=
  let s1 := s.modThr i (fun x => { x with scratch := [], wildScratch := s.draws + 1 })
  { s1 with draws := s1.draws + 4096 }

/-- The wait for ring space ends: its thresher cycles are counted, twelve to a tick (R262). -/
def waitedRing (s : State) (i : Nat) : State :=
  match (s.thr i).waitFrom with
  | some w => (s.bumpBy (TH_CNT_WAIT_CYCLES i) (12 * (s.ticks - w))).modThr i (fun x => { x with waitFrom := none })
  | none => s

/-- The cycles waited so far are counted, and the wait goes on. -/
def countWait (s : State) (i : Nat) : State :=
  if (s.thr i).waitFrom.isNone then s else (s.waitedRing i).modThr i (fun x => { x with waitFrom := some s.ticks })

/-- A context that a reset has found locked is marked stale as it is released (R250). -/
def releaseLock (s : State) (i : Nat) : State :=
  let x := s.thr i
  let s1 := s.setThr i { x with lock := none, staleRel := false }
  match x.lock, x.staleRel with
  | some j, true =>
    let a := ctxBase (i / 2) + 64 * j + 3
    if (s1.byteAt a).toNat.testBit 0 then s1.setByte a (s1.byteAt a ||| 2) else s1
  | _, _ => s1

/-- Lock and reservations are released (R238, R240, R265). -/
def releaseWork (s : State) (i : Nat) : State :=
  ((s.waitedRing i).releaseLock i).modThr i (fun x => { x with reserved := 0, allowed := 0, after := 0, stack := [], curw := none, hard := false })

/-- Working state is discarded (R240, R265): outstanding reads become orphans (R244). -/
def discardWork (s : State) (i : Nat) : State :=
  ((s.releaseWork i).modThr i (fun x => { x with bufs := x.bufs.map (fun b => if b.2.line.isSome then (b.1, { b.2 with orphan := true }) else b) })).scramble i

/-! ### Contexts (R245 to R250) -/

def ctxAddr (i j : Nat) : Nat := ctxBase (i / 2) + 64 * j

/-- A context is written whole with fresh check bits (R248). -/
def writeCtx (s : State) (i j v : Nat) : State :=
  (List.range 8).foldl (fun s k => s.markUncorr (ctxAddr i j + 8 * k) false) (s.storeBytes (ctxAddr i j) (bytesLE 64 v))

/-- A thresher reads word k of a context (R245): a single-bit error is corrected and counted, a double-bit one tells true. -/
def ctxCheck (s : State) (i j k : Nat) : State × Bool :=
  let r := s.inject .context (i / 2)
  let e := r.1.eccOf (ctxAddr i j + 8 * k) r.2
  (if e = 1 then r.1.bump (SH_CTX_STAT_CORR (i / 2)) else r.1, e == 2)

/-- STALE is set in context j if it is VALID and the other thresher does not hold it (R250). Tells a double-bit error. -/
def staleOne (s : State) (i j : Nat) : State × Bool :=
  let a := ctxAddr i j + 3
  if (s.thr (otherTh i)).lock = some j then (s.modThr (otherTh i) (fun x => { x with staleRel := true }), false)
  else
    let r := s.ctxCheck i j 0
    if r.2 || !(r.1.byteAt a).toNat.testBit 0 then r else ((r.1.setByte a (r.1.byteAt a ||| 2)).markUncorr (ctxAddr i j) false, false)

/-- A thresher fault, beside the resets held for the end of its routine (R265). -/
def faultAlone (s : State) (i cause : Nat) : State :=
  let s1 := (((s.discardWork i).enterTh i 4).put (TH_FAULT_CAUSE i) cause).put (TH_FAULT_UPC i) (s.thr i).upc
  ((s1.modThr i (fun x => { x with heldStop := false, heldTillers := [] })).source (1024 + 8 * (i / 2) + i % 2)).raiseLine (128 + i)

/-- STALE is set in every VALID context of tiller t's range (R250). A context whose first word cannot be corrected stays as it is, and
faults the thresher once the range has been visited (R245). -/
def markStale (s : State) (i t : Nat) : State :=
  let base := s.get (SH_CTX_MAP_BASE (i / 2) (inSheaf t))
  let r := (List.range (s.get (SH_CTX_MAP_COUNT (i / 2) (inSheaf t)))).foldl (fun r n =>
    let q := r.1.staleOne i (base + n)
    (q.1, r.2 || q.2)) (s, false)
  if r.2 then r.1.faultAlone i 6 else r.1

/-- A tiller's records, packet totals and the cursor of its packet end are discarded (R250). -/
def purgeTiller (s : State) (i t : Nat) : State :=
  let x := s.thr i
  let mid := x.cursor ≠ 0 && (s.sheaf (i / 2)).builtin && (x.fifo.head?).any (fun e => e.tiller = t && !e.cmd)
  s.setThr i { x with fifo := x.fifo.filter (fun e => e.tiller ≠ t || e.cmd), totals := storeSet (fun _ => PktTotals.reset) x.totals (inSheaf t) PktTotals.reset, cursor := if mid then 0 else x.cursor }

/-- A tiller or strip reset as it takes effect in a thresher (R250); a move that waited for what is discarded is done (R231). -/
def takeReset (s : State) (i t : Nat) : State := ((s.purgeTiller i t).markStale i t).settleRoute t

/-- What an LDCTX meets (R245, R247). -/
inductive CtxLoad where
  | wait
  | fault (cause : Nat) (s : State)
  | ok (s : State)

/-- Lock a context and copy it to the shadow (R247): words are corrected or fault (R245). -/
def loadCtx (s : State) (i key j : Nat) : CtxLoad :=
  if (s.thr (otherTh i)).lock = some j then .wait
  else
    let r := s.inject .context (i / 2)
    let errs := (List.range 8).map (fun k => r.1.eccOf (ctxAddr i j + 8 * k) (if k = 0 then r.2 else 0))
    let s1 := r.1.bumpBy (SH_CTX_STAT_CORR (i / 2)) (errs.countP (· == 1))
    if errs.contains 2 then .fault 6 s1
    else
      let v := s1.loadLE (ctxAddr i j) 64
      let st := bytesOf v 3 2
      let isNew := !st.testBit 0 || st.testBit 1
      if !isNew && bytesOf v 0 3 ≠ key then .fault 5 s1
      else .ok ((s1.modThr i (fun x => { x with lock := some j, fresh := isNew, shadow := if isNew then newCtx key else v })))

/-! ### Posted work (R239, R241 to R243, R262) -/

def ringSize (s : State) (i : Nat) : Nat := 2 ^ (s.get (TH_RING_HI_SIZE i) + 6)
/-- Ring entries neither occupied nor reserved. -/
def ringFree (s : State) (i : Nat) : Nat :=
  let n := s.ringSize i
  n - 1 - ((s.thr i).ringNext + n - s.get (TH_RING_TAIL_INDEX i) % n) % n - (s.thr i).reserved
def ringBase (s : State) (i : Nat) : Nat := s.get (TH_RING_HI_BASE_HI i) * 2 ^ 26 + s.get (TH_RING_LO_BASE_LO i)

/-- Post the next ring entry. -/
def postRing (s : State) (i data : Nat) : State :=
  let x := s.thr i
  s.setThr i { x with posted := x.posted ++ [.ring (s.ringBase i + x.ringNext) data x.issued], issued := x.issued + 1, ringNext := (x.ringNext + 1) % s.ringSize i }

def postLine (s : State) (i line data : Nat) (poison : Bool) : State :=
  s.modThr i (fun x => { x with posted := x.posted ++ [.line line data poison x.issued], issued := x.issued + 1 })

/-- A notice reaches its queue, or is lost (R239). -/
def noteNow (s : State) (i n0 n1 : Nat) : State :=
  let r := s.postNotice (s.get (TH_CTRL_HMQ i)) n0 n1
  if r.2 then r.1 else (r.1.mark (TH_STAT_NOTICE_LOST i)).source (1024 + 8 * (i / 2) + 2 + i % 2)

/-- A notice waits behind every write posted before it (R243). -/
def postNote (s : State) (i n0 n1 : Nat) : State :=
  if (s.thr i).posted.isEmpty then s.noteNow i n0 n1 else s.modThr i (fun x => { x with posted := x.posted ++ [.note n0 n1] })

/-- Notices whose writes are all visible. -/
def flushNotes (s : State) (i : Nat) : Nat → State
  | 0 => s
  | n + 1 => match (s.thr i).posted with
    | .note a b :: r => ((s.modThr i (fun x => { x with posted := r })).noteNow i a b).flushNotes i n
    | _ => s

/-- The posted writes before write k, that write, and what comes after it. -/
def splitPosted : List Posted → Nat → Option (List Posted × Posted × List Posted)
  | [], _ => none
  | p :: r, k =>
    if postedLine p && k = 0 then some ([], p, r)
    else (splitPosted r (if postedLine p then k - 1 else k)).map (fun q => (p :: q.1, q.2))

/-- The line a posted write goes to. -/
def lineOf : Posted → Option Nat
  | .line l _ _ _ => some l
  | .ring l _ _ => some l
  | _ => none

/-- Ring entries that became visible while an older one was not: how many come before the next that is not, and what stays. -/
def seenRun : List Posted → Nat × List Posted
  | [] => (0, [])
  | .seen :: r => ((seenRun r).1 + 1, (seenRun r).2)
  | .ring l d n :: r => (0, .ring l d n :: r)
  | p :: r => ((seenRun r).1, p :: (seenRun r).2)

/-- An earlier read of a line is still under way; `n` numbers the later request (R242). -/
def readFirst (s : State) (i line n : Nat) : Bool := (s.thr i).bufs.any (fun b => b.2.line = some line && decide (b.2.at_ < n))

/-- HEAD moves over n entries (R262). -/
def headOn (s : State) (i n : Nat) : State := s.put (TH_RING_HEAD_INDEX i) ((s.get (TH_RING_HEAD_INDEX i) + n) % s.ringSize i)

/-- TH_WRITE_COMPLETE (R242, R243, R262): posted write k, in the order of posting, becomes visible unless an earlier request to its
line is still under way. DEDUCED: HEAD moves over a ring entry once it and every earlier entry are visible. -/
def thWriteComplete (s : State) (i k : Nat) : State :=
  match splitPosted (s.thr i).posted k with
  | some (a, .line l d p n, b) =>
    if a.any (fun w => lineOf w = some l) || s.readFirst i l n then s
    else ((s.modThr i (fun x => { x with posted := a ++ b })).memPut (64 * l) (bytesLE 64 d) p).flushNotes i (a ++ b).length
  | some (a, .ring l d n, b) =>
    if a.any (fun w => lineOf w = some l) || s.readFirst i l n then s
    else if a.any (fun w => match w with | .ring _ _ _ => true | _ => false) then
      (s.modThr i (fun x => { x with posted := a ++ .seen :: b })).memPut (64 * l) (bytesLE 64 d) false
    else
      let q := seenRun b
      (((s.modThr i (fun x => { x with posted := a ++ q.2 })).memPut (64 * l) (bytesLE 64 d) false).headOn i (q.1 + 1)).flushNotes i (a ++ q.2).length
  | _ => s

/-- Newest data posted for a line (R242). -/
def postedData (s : State) (i line : Nat) : Option (Nat × Bool) :=
  (s.thr i).posted.foldl (fun o p => match p with
    | .line l d b _ => if l = line then some (d, b) else o
    | .ring l d _ => if l = line then some (d, false) else o
    | _ => o) none

/-- A DRAM line with its poison (R244). -/
def lineData (s : State) (line : Nat) : State × Nat × Bool :=
  let r := if s.answers (64 * line) then s.lineCheck (64 * line) 64 else (s, false)
  (r.1, ofBytesLE (r.1.memBytes (64 * line) 64), r.2)

/-- TH_READ_COMPLETE (R242, R244): the read into buffer b fills it, or is discarded as an orphan; it waits for an earlier read of its
line. -/
def thReadComplete (s : State) (i b : Nat) : State :=
  let x := s.thr i
  let y := storeGet (wildLine x.wild) x.bufs b
  match y.line with
  | none => s
  | some l =>
    let put (s : State) (z : LineBuf) : State := s.modThr i (fun x => { x with bufs := storeSet (wildLine x.wild) x.bufs b z })
    if s.readFirst i l y.at_ then s
    else if y.orphan then s.modThr i (fun x => { x with bufs := x.bufs.filter (fun e => e.1 != b) })
    else if y.got then put s { y with line := none, got := false }
    else
      let r := s.lineData l
      put r.1 ⟨r.2.1, r.2.2, none, false, false, 0⟩

/-! ### Faults, commits, ends (R238 to R240, R265) -/

/-- A thresher fault (R265). A held reset is taken as the routine ends. -/
def thFault (s : State) (i cause : Nat) : State := (s.thr i).heldTillers.foldl (fun s t => s.takeReset i t) (s.faultAlone i cause)

/-- The head record leaves the input FIFO. -/
def popRecord (s : State) (i : Nat) : State :=
  match (s.thr i).fifo with
  | [] => s
  | e :: r => ((s.modThr i (fun x => { x with fifo := r })).bump (TH_CNT_REC_RECS i)).settleRoute e.tiller

/-- COMMIT and COMMITK (R238), once room is there: shadow, cursor, head record, POST with n posting operations. -/
def commit (s : State) (i n : Nat) (keep : Bool) : State :=
  let x := s.thr i
  let s1 := match x.lock with
    | some j => s.writeCtx i j x.shadow
    | none => s
  let s2 := s1.modThr i (fun x => { x with cursor := x.curw.getD x.cursor, curw := none, allowed := n, after := 0 })
  (if keep then s2 else s2.popRecord i).enterTh i 3

/-- Room for n posted lines (R238). -/
def postRoom (s : State) (i n : Nat) : Bool := decide (s.thWrites i + n ≤ 16)

/-- END (R233, R238, R240): lock and reservations are released, held interrupts are taken. -/
def endRoutine (s : State) (i : Nat) : State :=
  let x := s.thr i
  let s0 := if x.hard then ((s.releaseWork i).scramble i).scrambleScratch i else s.releaseWork i
  let s1 := s0.modThr i (fun y => { y with heldStop := false, heldTillers := [] })
  x.heldTillers.foldl (fun s t => s.takeReset i t) (s1.enterTh i (if x.heldStop then 0 else 1))

/-- The routine is abandoned (R240). -/
def abandonRoutine (s : State) (i : Nat) : State := (s.discardWork i).bump (TH_CNT_ABN_ABANDONS i)

/-! ### Register commands -/

/-- A write of `TH_CTRL.RUN` (R232, R240, R252). -/
def writeRun (s : State) (i : Nat) (run : Bool) : State :=
  if run then
    if s.on (SH_UCS_CTRL_LOAD_EN (i / 2)) then s
    else
      let s1 := (s.mark (TH_CTRL_RUN i)).modThr i (fun x => { x with heldStop := false })
      if s1.thState i = 0 then s1.enterTh i 1 else s1
  else
    let s1 := s.put (TH_CTRL_RUN i) 0
    match s1.thState i with
    | 1 => s1.enterTh i 0
    | 2 => (s1.abandonRoutine i).enterTh i 0
    | 3 => s1.modThr i (fun x => { x with heldStop := true })
    | _ => s1

/-- A write of `TH_CTRL.RESTART` (R265). -/
def thRestart (s : State) (i : Nat) : State :=
  if s.thState i = 4 then s.enterTh i (if s.on (TH_CTRL_RUN i) then 1 else 0) else s

/-- A GO of `TH_CMD` (R230, R255). No field of the register gives the record's argument or its other bits (R235): they are
free. -/
def thCommand (s : State) (i cmd q : Nat) : State :=
  let t := (sheafTillers (i / 2)).getD q 0
  if (s.thr i).fifo.length < 16 && (s.route t).force = i % 2 && (cmd = 1 || cmd = 2) then
    { s.modThr i (fun x => { x with fifo := x.fifo ++ [⟨cmd + 16 * freeWords s.draws 3, t, false, true⟩] }) with draws := s.draws + 4 }
  else s.mark (TH_STAT_CMD_REJ i)

/-- A write of `SH_XBAR_ROUTE` (R231). -/
def writeRouteBit (s : State) (t b : Nat) : State :=
  let r := s.route t
  if r.wait then (if b = r.force then (s.setRoute t { r with wait := false }).showMove t else s)
  else if b = r.force then s
  else
    let s1 := (s.setRoute t { r with wait := true }).showMove t
    if s1.active t then s1
    else if (s1.fq t).entries.isEmpty && !s1.holdsOf (2 * sheafOf t + r.force) t then
      ((s1.setRoute t ⟨b, false, []⟩).showMove t).source (1024 + 8 * sheafOf t + 5)
    else s1.routeBoundary t

def writeXbar (s : State) (u w : Nat) : State :=
  (sheafTillers u).foldl (fun s t => s.writeRouteBit t (b2n (w.testBit (inSheaf t)))) (s.put (SH_XBAR_ROUTE_ROUTE u) w)

/-- The tiller may hand its oldest entry to a thresher of the pair now (R230, R231). -/
def mayTake (s : State) (t k : Nat) : Bool :=
  !s.on (TL_FQ_STAT_DEST_NOW t) && !(s.fq t).entries.isEmpty && s.entryTarget t = k && !s.holdsOf (2 * sheafOf t + (1 - k)) t

/-- XBAR_TAKE (R230): the crossbar takes the tiller's oldest entry when its turn in the round-robin has come and the input FIFO
has room. -/
def xbarTake (s : State) (t : Nat) : State :=
  let u := sheafOf t
  let k := s.entryTarget t
  let i := 2 * u + k
  let last := if k = 0 then (s.sheaf u).served0 else (s.sheaf u).served1
  let order := (List.range 4).map (fun n => (sheafTillers u).getD ((last + 1 + n) % 4) 0)
  if order.find? (fun q => s.mayTake q k) ≠ some t || 16 ≤ (s.thr i).fifo.length then s
  else match s.fifoTake t with
    | (s1, none) => s1
    | (s1, some e) =>
      let x := s1.sheaf u
      let s2 := s1.setSheaf u (if k = 0 then { x with served0 := inSheaf t } else { x with served1 := inSheaf t })
      (s2.modThr i (fun y => { y with fifo := y.fifo ++ [⟨e.data, t, e.poison, false⟩] })).settleRoute t

/-- A tiller or strip reset reaches the sheaf's threshers (R19, R240, R250): a routine of the tiller is abandoned with its record, or,
after its commit, holds the reset until END. -/
def resetInThresher (s : State) (t i : Nat) : State :=
  let x := s.thr i
  if s.thState i = 2 && x.cur = t then
    let s1 := (s.abandonRoutine i).modThr i (fun y => { y with fifo := y.fifo.drop 1, cursor := if x.hard then 0 else y.cursor, solve := if x.hard && (y.fifo.head?).any (·.cmd) then PktTotals.reset else y.solve })
    (s1.enterTh i 1).takeReset i t
  else if s.thState i = 3 && x.cur = t then s.modThr i (fun y => { y with heldTillers := y.heldTillers ++ [t] })
  else s.takeReset i t

def resetInThreshers (s : State) (t : Nat) : State :=
  ((s.resetInThresher t (2 * sheafOf t)).resetInThresher t (2 * sheafOf t + 1)).settleRoute t

/-! ### The built-in routines (R255 to R264) -/

/-- Which entry register a record is dispatched through (R233): FAIL, CHAFF, PEND, POISON, CMD. -/
def entryOf (e : InRec) : Nat := if e.cmd then 4 else if e.poison then 3 else match bits e.data 121 120 with
  | 0 => 0
  | 1 => 1
  | _ => 2

/-- The entry leads into the default image, of which no word has been stored over (R251). -/
def builtinEntry (s : State) (i k : Nat) : Bool :=
  let x := s.sheaf (i / 2)
  x.builtin && x.words.isEmpty && s.get (TH_ENTRY_INDEX i k) = x.entries.getD k 0

def totalsOf (s : State) (i q : Nat) : PktTotals := storeGet (fun _ => PktTotals.reset) (s.thr i).totals q
def setTotals (s : State) (i q : Nat) (x : PktTotals) : State := s.modThr i (fun y => { y with totals := storeSet (fun _ => PktTotals.reset) y.totals q x })

/-- Flags of a record that join those of its packet: UNSYNCED and THERMAL (R263). -/
def recordFlags (d : Nat) : Nat := b2n (d.testBit 124) * 8 + b2n (d.testBit 126) * 16

/-- The packet totals after an unpoisoned record (R255, R263). -/
def tally (x : PktTotals) (d : Nat) : PktTotals :=
  let y := { x with flags := x.flags ||| recordFlags d }
  match bits d 121 120 with
  | 0 => { y with applied := y.applied + 1 }
  | 1 => { y with chaffs := y.chaffs + 1, dropped := y.dropped + bits d 103 80, flags := y.flags ||| 1 }
  | _ => y

/-- Wait in PRE for ring space or posted-write room (R238, R262). -/
def waitRing (s : State) (i : Nat) : State := s.modThr i (fun x => { x with waitFrom := x.waitFrom.orElse (fun _ => some s.ticks) })
/-- One routine from its reservations to END: ring entries and posted lines it needs, whether the record stays, what it does
after the commit. -/
def runRoutine (s : State) (i ring lines : Nat) (keep : Bool) (next : Option Nat) (work : State → State) : State :=
  if s.ringFree i < ring then s.waitRing i
  else
    let s1 := s.waitedRing i
    if !s1.postRoom i lines then s1
    else (work ((s1.modThr i (fun x => { x with curw := next })).commit i lines keep)).endRoutine i

/-- A routine that works on a context: it waits for the lock, faults, or goes on with the shadow loaded. -/
def withCtx (s : State) (i key j : Nat) (k : State → State) : State :=
  match s.loadCtx i key j with
  | .wait => s
  | .fault c s1 => s1.thFault i c
  | .ok s1 => k s1

/-- The PACKET entry and its notice (R263, R264). -/
def postPacket (s : State) (i t seq d : Nat) (x : PktTotals) (sig : Nat) : State :=
  let idx := (s.thr i).ringNext
  let y := { x with flags := x.flags ||| recordFlags d }
  let e := packetEntry (ringHeader 2 i t (s.cardSite t) seq) (bits d 87 80) (bits d 90 88) (bits d 91 91) (bits d 79 48) (bits d 47 0) (bits d 119 92) y sig
  let n0 := 3 * 2 ^ 27 + i * 2 ^ 22 + t * 2 ^ 16 + idx % 2 ^ 16
  let n1 := seq % 2 ^ 15 * 2 ^ 16 + y.flags % 256 * 2 ^ 8 + min y.solutions 255
  (s.postRing i e).postNote i n0 n1

/-- ALLOC on the context held in the shadow (R257) and its SOLUTION entry: flags UNREP and CBANK_MIX join the totals. -/
def solveShadow (s : State) (i t q region seq : Nat) (next : Nat) (add : State → (PktTotals → PktTotals) → State) : State :=
  let u := i / 2
  let sr := s.get (SH_SPARE_SR u q)
  let sc := s.get (SH_SPARE_SC u q)
  let a := (Ctx.ofNat (s.thr i).shadow).alloc sr sc
  let e := solutionEntry (ringHeader 1 i t (s.cardSite t) seq) region a.1 a.2.1 a.2.2 sr sc
  let s1 := s.modThr i (fun x => { x with shadow := a.1.toNat })
  s1.runRoutine i 1 1 true (some next) (fun s => add (s.postRing i e) (fun x =>
    { x with solutions := x.solutions + 1, flags := x.flags ||| b2n (a.1.has ctxUnrepairable) * 4 ||| b2n (a.1.has ctxCbankMix) * 32 }))

/-- The line and bit of FAILMAP for a cell (R258). -/
def mapCell (s : State) (u q x col : Nat) : Nat × Nat :=
  let k := (x * 2 ^ s.get (SH_RMAP_COLW u q) + col) >>> s.get (SH_BMAP_LO_SHIFT u q)
  ((s.get (SH_BMAP_HI_BASE_HI u q) * 2 ^ 26 + s.get (SH_BMAP_LO_BASE_LO u q) + k / 512) % 2 ^ 28, k % 512)

/-- A fail record in REPAIR mode (R255, R256, R258). A record that touches no context takes no bitmap bit either: FAILMAP goes on
from the commit points of MUSTFIX. -/
def repairRecord (s : State) (i t q d : Nat) : State :=
  let u := i / 2
  let rm := SH_RMAP_COLW u q
  let c := regionOfCell (bits d 67 48) (bits d 83 68) (s.get rm) (s.get (SH_RMAP_ROWW u q)) (s.get (SH_RMAP_YW u q)) (s.get (SH_RMAP_YSH u q)) (s.get (SH_RMAP_XW u q)) (s.get (SH_RMAP_XSH u q))
  let oor := decide (s.get (SH_CTX_MAP_COUNT u q) ≤ c.1)
  if oor || bits d 91 84 &&& s.get (SH_SPARE_DQ_MASK u q) = 0 then
    s.runRoutine i 0 0 false none (fun s => s.setTotals i q { tally (s.totalsOf i q) d with flags := (tally (s.totalsOf i q) d).flags ||| b2n oor * 64 })
  else
    s.withCtx i (ctxKey t c.1) (s.get (SH_CTX_MAP_BASE u q) + c.1) (fun s =>
      let x := s.thr i
      let m := (Ctx.ofNat x.shadow).mustfix x.fresh (d.testBit 125) (d.testBit 124) (d.testBit 126) c.2.1 c.2.2 (s.get (SH_SPARE_SR u q)) (s.get (SH_SPARE_SC u q))
      let p := s.totalsOf i q
      let s1 := (s.modThr i (fun x => { x with shadow := m.toNat })).setTotals i q { p with touched := if p.touched.contains c.1 then p.touched else p.touched ++ [c.1] }
      let done (s : State) : State := s.setTotals i q (tally (s.totalsOf i q) d)
      if s1.on (TH_CTRL_FAILMAP i) then
        let b := s1.mapCell u q (bits d 67 48) c.2.2
        let r := match (s1.thr i).mapLine with
          | some (l, v, bad) => if l = b.1 then (s1, v, bad) else match s1.postedData i b.1 with
            | some y => (s1, y.1, y.2)
            | none => s1.lineData b.1
          | none => match s1.postedData i b.1 with
            | some y => (s1, y.1, y.2)
            | none => s1.lineData b.1
        let v := r.2.1 ||| 2 ^ b.2
        r.1.runRoutine i 0 1 false none (fun s => done ((s.postLine i b.1 v r.2.2).modThr i (fun x => { x with mapLine := some (b.1, v, r.2.2) })))
      else s1.runRoutine i 0 0 false none done)

/-- A packet-end record (R255, R264): one COMMITK for each touched region, then the final COMMIT. -/
def packetEndRecord (s : State) (i t q d mode : Nat) : State :=
  let u := i / 2
  let seq := s.get (SH_PKT_SEQ_SEQ u q)
  let p := s.totalsOf i q
  let rest := if mode = 0 then p.touched.filter (fun r => decide ((s.thr i).cursor ≤ r)) else []
  match rest with
  | r0 :: l =>
    let r := l.foldl min r0
    s.withCtx i (ctxKey t r) (s.get (SH_CTX_MAP_BASE u q) + r) (fun s =>
      s.solveShadow i t q r seq (r + 1) (fun s f => s.setTotals i q (f (s.totalsOf i q))))
  | [] =>
    s.runRoutine i (if mode = 2 then 2 else 1) (if mode = 2 then 2 else 1) false (some 0) (fun s =>
      let s1 := if mode = 2 then s.postRing i (recordEntry (ringHeader 3 i t (s.cardSite t) seq) d false) else s
      let s2 := (s1.wrapUp (SH_PKT_SEQ_SEQ u q)).postPacket i t seq d p (if mode = 1 then p.crc else 0)
      s2.setTotals i q PktTotals.reset)

/-- A context of the range that SOLVE visits: valid, not stale, of this tiller (R255). -/
def solvable (s : State) (i t j : Nat) : Bool :=
  let v := s.loadLE (ctxAddr i j) 5
  bytesOf v 3 2 % 4 = 1 && bytesOf v 0 3 / 4096 = t

/-- What SOLVE finds on its way through the range. -/
inductive Visit where
  | none (s : State)
  | bad (s : State)
  | found (s : State) (n : Nat)

/-- SOLVE visits contexts n of the range until one is to be solved: it reads each one's first word (R245, R255). -/
def visit (s : State) (i t base : Nat) : List Nat → Visit
  | [] => .none s
  | n :: r =>
    let q := s.ctxCheck i (base + n) 0
    if q.2 then .bad q.1 else if q.1.solvable i t (base + n) then .found q.1 n else visit q.1 i t base r

/-- A command record (R255): each context by one COMMITK from the cursor, then the final COMMIT. -/
def commandRecord (s : State) (i t q cmd : Nat) : State :=
  let u := i / 2
  let base := s.get (SH_CTX_MAP_BASE u q)
  let count := s.get (SH_CTX_MAP_COUNT u q)
  let n := (s.thr i).cursor
  if cmd = 1 then
    match s.visit i t base ((List.range count).drop n) with
    | .bad s => s.thFault i 6
    | .found s n =>
      let key := s.loadLE (ctxAddr i (base + n)) 3
      s.withCtx i key (base + n) (fun s => s.solveShadow i t q (key % 4096) 0xFFFFFFFF (n + 1) (fun s f => s.modThr i (fun x => { x with solve := f x.solve })))
    | .none s =>
      s.runRoutine i 1 1 false (some 0) (fun s =>
        let x := { (s.thr i).solve with flags := (s.thr i).solve.flags ||| 128 }
        (s.postPacket i t 0xFFFFFFFF (2 ^ 48 - 1) x 0).modThr i (fun y => { y with solve := PktTotals.reset }))
  else if count ≤ n then s.runRoutine i 0 0 false (some 0) id
  else if (s.thr (otherTh i)).lock = some (base + n) then s
  else (s.modThr i (fun x => { x with lock := some (base + n), shadow := 0 })).runRoutine i 0 0 true (some (n + 1)) id

/-- The built-in routine of the head record, from dispatch to END (R255). -/
def hardRoutine (s : State) (i : Nat) (e : InRec) : State :=
  let t := e.tiller
  let q := inSheaf t
  let mode := s.get (TH_CTRL_MODE i)
  let seq := s.get (SH_PKT_SEQ_SEQ (i / 2) q)
  if e.cmd then s.commandRecord i t q (e.data % 16)
  else if e.poison then
    let note (s : State) : State :=
      let x := s.totalsOf i q
      (s.bump (TH_CNT_ABN_POISONED i)).setTotals i q { x with poisoned := x.poisoned + 1, flags := x.flags ||| 2 }
    if mode = 2 then s.runRoutine i 1 1 false none (fun s => note (s.postRing i (recordEntry (ringHeader 3 i t (s.cardSite t) seq) e.data true)))
    else s.runRoutine i 0 0 false none note
  else match bits e.data 121 120, mode with
    | 0, 0 => s.repairRecord i t q e.data
    | 0, 1 => s.runRoutine i 0 0 false none (fun s =>
        let x := tally (s.totalsOf i q) e.data
        s.setTotals i q { x with crc := crc32 x.crc (bytesLE 6 (bits e.data 91 48)) })
    | 2, _ => s.packetEndRecord i t q e.data mode
    | _, 2 => s.runRoutine i 1 1 false none (fun s =>
        (s.postRing i (recordEntry (ringHeader 3 i t (s.cardSite t) seq) e.data false)).setTotals i q (tally (s.totalsOf i q) e.data))
    | _, _ => s.runRoutine i 0 0 false none (fun s => s.setTotals i q (tally (s.totalsOf i q) e.data))

/-! ### Dispatch (R233) -/

/-- A fetch from the control store (R251): corrected, or a UC_ECC fault of the fetching thresher. -/
def fetchCheck (s : State) (i : Nat) : State × Bool :=
  let r := s.inject .controlStore (i / 2)
  match popCount 16 r.2 with
  | 0 => (r.1, true)
  | 1 => (r.1.bump (SH_UCS_ECC_CORR (i / 2)), true)
  | _ => (r.1.bump (SH_UCS_ECC_UNCORR (i / 2)), false)

/-- A scratch read (R265). -/
def scratchCheck (s : State) (i : Nat) : State × Bool :=
  let r := s.inject .scratch i
  (r.1, decide (popCount 16 r.2 < 2))

/-- TH_DISPATCH (R233): the head record's entry routine starts. A built-in routine runs to its END; one that waits in PRE is
tried again. A dispatch to user microcode enters PRE at the entry index. -/
def thDispatch (s : State) (i : Nat) : State :=
  match (s.thr i).fifo with
  | [] => s
  | e :: _ =>
    if s.thState i = 2 && (s.thr i).hard then s.hardRoutine i e
    else if s.thState i ≠ 1 then s
    else
      let k := entryOf e
      let s1 := (s.enterTh i 2).modThr i (fun x => { x with cur := e.tiller, upc := s.get (TH_ENTRY_INDEX i k), hard := s.builtinEntry i k, stack := [], reserved := 0, allowed := 0, after := 0, curw := none, lock := none })
      if !s.builtinEntry i k then s1
      else
        let f := s1.fetchCheck i
        if !f.2 then f.1.thFault i 1
        else
          let c := f.1.scratchCheck i
          if !c.2 then c.1.thFault i 10 else c.1.hardRoutine i e

end State

end Sys2Proof.Machine
end

