-- ==== Sys2Proof/Machine/Micro.lean ====
section
/-! DEFINITION. Microwords (08_threshers.md, R234 to R239) and the control store (R251 to R254). -/

namespace Sys2Proof.Machine

/-! ### Fields of a microword (R234) -/

def uSop (w : Nat) : Nat := bits w 7 0
def uTarget (w : Nat) : Nat := bits w 21 8
def uN (w : Nat) : Nat := bits w 12 8
def uWaitBuf (w : Nat) : Nat := bits w 11 8
def uCond (w : Nat) : Nat := bits w 27 22
def uAop (w : Nat) : Nat := bits w 39 32
def uDst (w : Nat) : Nat := bits w 44 40
def uSrcA (w : Nat) : Nat := bits w 49 45
def uSrcB (w : Nat) : Nat := bits w 54 50
def uBimm (w : Nat) : Bool := w.testBit 55
def uImm (w : Nat) : Nat := bits w 87 56
def uMop (w : Nat) : Nat := bits w 95 88
def uBuf (w : Nat) : Nat := bits w 99 96
def uMa (w : Nat) : Nat := bits w 104 100
def uMd (w : Nat) : Nat := bits w 109 105
def uMoff (w : Nat) : Nat := bits w 125 110
def uCop (w : Nat) : Nat := bits w 135 128
def uCoff (w : Nat) : Nat := bits w 141 136
def uCreg (w : Nat) : Nat := bits w 146 142
def uCw (w : Nat) : Nat := bits w 148 147
def uIop (w : Nat) : Nat := bits w 167 160
def uId (w : Nat) : Nat := bits w 172 168
def uIa (w : Nat) : Nat := bits w 177 173
def uIimm (w : Nat) : Nat := bits w 193 178

/-- g registers the slots write (R235). -/
def uWrites (w : Nat) : List Nat :=
  (if 1 ≤ uAop w && decide (uAop w ≤ 14) then [uDst w] else []) ++ (if uMop w = 3 then [uMd w] else []) ++
  (if uCop w = 2 || uCop w = 4 || uCop w = 6 then [uCreg w] else []) ++
  (if uIop w = 1 || uIop w = 2 || uIop w = 9 || uIop w = 10 then [uId w] else [])

def noRepeats : List Nat → Bool
  | [] => true
  | a :: r => !r.contains a && noRepeats r

/-- The word is an ILLEGAL_UWORD (R234, R236): a reserved bit set, an unlisted code, a register written twice. DEDUCED: so are the
values a field's own description does not list (a condition of BRC and BRNC, a width of 3, a count beyond its range). -/
def uIllegal (w : Nat) : Bool :=
  bits w 31 28 != 0 || bits w 127 126 != 0 || bits w 159 149 != 0 || w >>> 194 != 0 ||
  decide (0x0B < uSop w) || decide (0x0F < uAop w) || decide (5 < uMop w) || decide (7 < uCop w) || decide (0x0A < uIop w) ||
  ((uSop w = 2 || uSop w = 3) && !([0, 1, 2, 3, 4, 5, 8, 9, 10].contains (uCond w))) ||
  ((uSop w = 6 || uSop w = 7) && decide (16 < uN w)) || ((uCop w = 2 || uCop w = 3) && uCw w = 3) ||
  (uIop w = 4 && (uIimm w % 8 = 0 || decide (4 < uIimm w % 8))) || !noRepeats (uWrites w)

/-- The word holds a micro-op that only the pre-commit part, or only the post-commit part, may use (R235). -/
def uPre (w : Nat) : Bool :=
  uSop w = 6 || uSop w = 7 || uSop w = 9 || uSop w = 10 || uMop w = 1 || uCop w = 1 || uCop w = 3 || uCop w = 5 || uCop w = 6 || uCop w = 7 || uIop w = 4 || uIop w = 8
def uPost (w : Nat) : Bool := uMop w = 2 || uIop w = 6 || uIop w = 7

namespace State

/-! ### Operands -/

/-- g0 reads 0. -/
def gReg (s : State) (i k : Nat) : Nat := if k = 0 then 0 else storeGet (wildG (s.thr i).wild) (s.thr i).g k
/-- Writes to g0 are discarded. -/
def setG (s : State) (i k v : Nat) : State :=
  if k = 0 then s else s.modThr i (fun x => { x with g := storeSet (wildG x.wild) x.g k (v % 2 ^ 32) })
def setFlags (s : State) (i v : Nat) (c : Bool) : State := s.modThr i (fun x => { x with z := decide (v % 2 ^ 32 = 0), n := v.testBit 31, c := c })
def lineBuf (s : State) (i b : Nat) : LineBuf := storeGet (wildLine (s.thr i).wild) (s.thr i).bufs b
def setLineBuf (s : State) (i b : Nat) (y : LineBuf) : State := s.modThr i (fun x => { x with bufs := storeSet (wildLine x.wild) x.bufs b y })
def ringBuf (s : State) (i b : Nat) : Nat := storeGet (wildRing (s.thr i).wild) (s.thr i).ringBufs b

/-- A free word, and a free choice (log entry 9). -/
def freeWord (s : State) : State × Nat := (s.draw, (Config.microValue s.draws).toNat)
def freeBool (s : State) : State × Bool := (s.draw, Config.microChoice s.draws)

/-- What a line buffer holds; while a read into it is under way the manual does not say. -/
def bufHeld (s : State) (i b : Nat) : State × Nat × Bool :=
  let y := s.lineBuf i b
  if y.line.isNone then (s, y.data, y.poison)
  else ({ s with draws := s.draws + 16 }, freeWords s.draws 16, Config.microChoice s.draws)

/-- Line number g[MA] + MOFF, 28 bits (R235, R241). -/
def uLine (s : State) (i w : Nat) : Nat := unsigned 28 (Int.ofNat (s.gReg i (uMa w)) + signed 16 (uMoff w))

/-- A condition (R236), read at the start of the cycle. -/
def uTest (s : State) (i w : Nat) : State × Bool :=
  let x := s.thr i
  match uCond w with
  | 0 => (s, x.z) | 1 => (s, !x.z) | 2 => (s, x.n) | 3 => (s, !x.n) | 4 => (s, x.c) | 5 => (s, !x.c)
  | 8 => (s, x.fresh)
  | 9 => let r := s.bufHeld i (uBuf w); (r.1, r.2.2)
  | _ => match x.fifo with
    | e :: _ => (s, e.data.testBit 125)
    | [] => s.freeBool

/-! ### The arithmetic slot -/

/-- The smaller of two operands; where the signed and the unsigned order differ the manual does not say which order holds. -/
def smaller (s : State) (a b : Nat) : State × Nat :=
  if a.testBit 31 = b.testBit 31 then (s, min a b) else let r := s.freeBool; (r.1, if r.2 then a else b)

/-- Result of an arithmetic micro-op with operands a and b and old destination d; the carry of ADD. -/
def aluResult (s : State) (op a b d : Nat) : State × Nat :=
  let lsb := b % 32
  let width := bits b 10 5
  let one := if Config.unaryOperand op then b else a
  let field := 1 ≤ width && decide (lsb + width ≤ 32)
  match op with
  | 1 => (s, one)
  | 2 => (s, (a + b) % 2 ^ 32)
  | 3 | 15 => (s, (a + 2 ^ 32 - b) % 2 ^ 32)
  | 4 => (s, a &&& b) | 5 => (s, a ||| b) | 6 => (s, a ^^^ b)
  | 7 => if b < 32 then (s, a <<< b % 2 ^ 32) else s.freeWord
  | 8 => if b < 32 then (s, a >>> b) else s.freeWord
  | 9 => if field then (s, a >>> lsb % 2 ^ width) else s.freeWord
  | 10 => if field then (s, insert32 d (lsb + width - 1) lsb a) else s.freeWord
  | 11 => (s, popCount 32 one)
  | 12 => (s, lowestBit 32 one)
  | 13 => s.smaller a b
  | 14 => let r := s.smaller a b; (r.1, if r.2 = a then b else a)
  | _ => (s, 0)

/-- The ALU slot: `old` is the state at the start of the cycle. C is the carry of ADD; the manual gives no other. -/
def aluSlot (old s : State) (i w : Nat) : State :=
  let op := uAop w
  if op = 0 then s
  else
    let a := old.gReg i (uSrcA w)
    let b := if uBimm w then uImm w else old.gReg i (uSrcB w)
    let r := s.aluResult op a b (old.gReg i (uDst w))
    let s1 := if op = 15 then r.1 else r.1.setG i (uDst w) r.2
    if op = 1 then s1
    else if op = 2 then s1.setFlags i r.2 (decide (2 ^ 32 ≤ a + b))
    else let c := s1.freeBool; c.1.setFlags i r.2 c.2

/-! ### The memory slot -/

/-- LDL: a read is issued; data still posted to the line is what it returns (R242). -/
def issueRead (s : State) (i b line : Nat) : State :=
  s.setLineBuf i b (match s.postedData i line with
    | some y => ⟨y.1, y.2, some line, false, true, (s.thr i).issued⟩
    | none => ⟨(s.lineBuf i b).data, false, some line, false, false, (s.thr i).issued⟩)
  |>.modThr i (fun x => { x with issued := x.issued + 1 })

def memSlot (old s : State) (i w : Nat) : State :=
  let b := uBuf w
  let k := uMoff w % 16
  match uMop w with
  | 1 => s.issueRead i b (old.uLine i w)
  | 2 =>
    let r := s.bufHeld i b
    (r.1.postLine i (old.uLine i w) r.2.1 r.2.2).modThr i (fun x => { x with allowed := x.allowed - 1 })
  | 3 => let r := s.bufHeld i b; r.1.setG i (uMd w) (bytesOf r.2.1 (4 * k) 4)
  | 4 => let y := s.lineBuf i b; s.setLineBuf i b { y with data := y.data - bytesOf y.data (4 * k) 4 * 2 ^ (32 * k) + old.gReg i (uMd w) * 2 ^ (32 * k) }
  | 5 => let y := s.lineBuf i b; s.setLineBuf i b { y with data := y.data ||| 2 ^ (old.gReg i (uMd w) % 512) }
  | _ => s

/-! ### The context slot -/

/-- Byte k of the shadow, and what stands in place of a byte beyond it (log entry 9). -/
def shadowByte (s : State) (i k : Nat) : State × Nat :=
  if k < 64 then (s, bytesOf (s.thr i).shadow k 1) else let r := s.freeWord; (r.1, r.2 % 256)
def setShadowByte (s : State) (i k v : Nat) : State :=
  let put (s : State) (k v : Nat) : State := s.modThr i (fun x => { x with shadow := x.shadow - bytesOf x.shadow k 1 * 2 ^ (8 * k) + v % 256 * 2 ^ (8 * k) })
  if k < 64 then put s k v else let r := s.freeWord; put r.1 (k % 64) r.2
/-- n bytes of the shadow from byte k, little-endian. -/
def shadowBytes (s : State) (i k : Nat) : Nat → State × Nat
  | 0 => (s, 0)
  | n + 1 =>
    let r := s.shadowByte i k
    let q := r.1.shadowBytes i (k + 1) n
    (q.1, r.2 + 256 * q.2)
def setShadowBytes (s : State) (i k v : Nat) : Nat → State
  | 0 => s
  | n + 1 => (s.setShadowByte i k v).setShadowBytes i (k + 1) (v / 256) n

def ctxSlot (old s : State) (i w : Nat) : State :=
  let k := uCoff w
  let g := old.gReg i (uCreg w)
  match uCop w with
  | 2 => let r := s.shadowBytes i k (2 ^ uCw w); r.1.setG i (uCreg w) r.2
  | 3 => s.setShadowBytes i k g (2 ^ uCw w)
  | 4 =>
    let r := (List.range 8).foldl (fun r n => let h := r.1.shadowBytes i (k + 2 * n) 2; (h.1, r.2 + b2n (h.2 = g % 2 ^ 16) * 2 ^ n)) (s, 0)
    r.1.setG i (uCreg w) r.2
  | 5 => let r := s.shadowByte i k; r.1.setShadowByte i k (min (r.2 + 1) 255)
  | 6 =>
    let b := k + g % 64 / 8
    let r := s.shadowByte i b
    (r.1.setShadowByte i b (r.2 ||| 2 ^ (g % 8))).setG i (uCreg w) (b2n (r.2.testBit (g % 8)))
  | 7 => s.modThr i (fun x => { x with shadow := x.shadow % 2 ^ 24 })
  | _ => s

/-! ### The input, scratch and output slot -/

/-- Tag word of a record (R235). -/
def tagWord (e : InRec) : Nat := e.tiller + inSheaf e.tiller * 2 ^ 6 + b2n e.poison * 2 ^ 8 + b2n e.cmd * 2 ^ 9

def ioSlot (old s : State) (i w : Nat) : State :=
  let m := uIimm w
  let d := old.gReg i (uId w)
  let a := old.gReg i (uIa w)
  match uIop w with
  | 1 => match (old.thr i).fifo with
    | e :: _ => s.setG i (uId w) (if m.testBit 2 then tagWord e else word32 e.data (m % 4))
    | [] => let r := s.freeWord; r.1.setG i (uId w) r.2
  | 2 => s.setG i (uId w) (storeGet (wildScratchWord (old.thr i).wildScratch) (old.thr i).scratch ((m + a) % 1024))
  | 3 => s.modThr i (fun x => { x with scratch := storeSet (wildScratchWord x.wildScratch) x.scratch ((m + a) % 1024) d })
  | 4 => s.modThr i (fun x => { x with reserved := x.reserved + m % 8 })
  | 5 =>
    let b := m / 16 % 4
    let v := s.ringBuf i b
    let k := m % 16
    s.modThr i (fun x => { x with ringBufs := storeSet (wildRing x.wild) x.ringBufs b (v - bytesOf v (4 * k) 4 * 2 ^ (32 * k) + d * 2 ^ (32 * k)) })
  | 6 => (s.postRing i (old.ringBuf i (m % 4))).modThr i (fun x => { x with reserved := x.reserved - 1, allowed := x.allowed - 1 })
  | 7 => s.postNote i d a
  | 8 => s.modThr i (fun x => { x with curw := some d })
  | 9 => s.setG i (uId w) (old.thr i).cursor
  | 10 =>
    let u := i / 2
    let q := m - 2
    match m with
    | 0 => s.setG i (uId w) (16 * s.get LK_MESH_POS_Y + s.get LK_MESH_POS_X)
    | 1 => s.setG i (uId w) i
    | 2 | 3 | 4 | 5 => s.setG i (uId w) (s.get (SH_BMAP_HI_BASE_HI u q) * 2 ^ 26 + s.get (SH_BMAP_LO_BASE_LO u q))
    | _ => let r := s.freeWord; r.1.setG i (uId w) r.2
  | _ => s

/-! ### The sequence slot -/

def uGoTo (s : State) (i k : Nat) : State := s.modThr i (fun x => { x with upc := k % 16384 })

/-- The sequence slot is last: a commit or an END acts on what the other slots leave, but writes the shadow and the cursor as they
stood at the start of the cycle (R234). DEDUCED. -/
def seqSlot (old s : State) (i w : Nat) : State :=
  let x := old.thr i
  let next := x.upc + 1
  let test := { old with draws := s.draws }.uTest i w
  let s := { s with draws := test.1.draws }
  match uSop w with
  | 1 => s.uGoTo i (uTarget w)
  | 2 => s.uGoTo i (if test.2 then uTarget w else next)
  | 3 => s.uGoTo i (if test.2 then next else uTarget w)
  | 4 => (s.modThr i (fun y => { y with stack := next % 16384 :: y.stack })).uGoTo i (uTarget w)
  | 5 => (s.modThr i (fun y => { y with stack := x.stack.drop 1 })).uGoTo i (x.stack.headD 0)
  | 6 | 7 =>
    let y := s.thr i
    let s1 := (s.modThr i (fun y => { y with shadow := x.shadow, lock := x.lock, curw := x.curw })).commit i (uN w) (uSop w = 7)
    (s1.modThr i (fun z => { z with shadow := y.shadow, lock := y.lock, curw := if uIop w = 8 then y.curw else none })).uGoTo i next
  | 8 => (s.uGoTo i next).endRoutine i
  | _ => s.uGoTo i next

/-! ### A whole microword -/

/-- The word must wait this cycle (R238, R241, R243, R244, R247, R262). -/
def uWaits (s : State) (i w : Nat) : Bool :=
  ((uSop w = 6 || uSop w = 7) && !s.postRoom i (uN w)) || (uSop w = 9 && (s.thReads i + (s.thr i).posted.length != 0)) ||
  (uSop w = 10 && (s.lineBuf i (uWaitBuf w)).line.isSome) || (uMop w = 1 && (s.lineBuf i (uBuf w)).line.isSome) ||
  (uCop w = 1 && (s.thr (otherTh i)).lock = some (s.gReg i (uCreg w) % 4096)) || (uIop w = 4 && decide (s.ringFree i < uIimm w % 8))

/-- Runtime checks of a word in phase (R235, R238, R239, R265): a fault cause, in the order of R265. -/
def uCheck (s : State) (i w : Nat) : Option Nat :=
  let x := s.thr i
  let post := s.thState i = 3
  let posts := b2n (uMop w = 2) + b2n (uIop w = 6)
  if uIllegal w then some 2
  else if (post && uPre w) || (!post && uPost w) then some 3
  else if post && decide (256 ≤ x.after) then some 4
  else if (uSop w = 4 && decide (4 ≤ x.stack.length)) || (uSop w = 5 && x.stack.isEmpty) then some 7
  else if decide (x.allowed < posts) || (uIop w = 6 && x.reserved = 0) then some 8
  else if uSop w = 11 then some 9
  else none

/-- LDCTX (R247): the context of an earlier LDCTX of the routine is released. -/
def ldctx (s : State) (i g : Nat) : CtxLoad :=
  (s.releaseLock i).loadCtx i (bits g 29 12) (g % 4096)

/-- The thresher executes a microword in this cycle, waits with it, or faults (R234 to R239). -/
def runWord (s : State) (i w : Nat) : State :=
  match s.uCheck i w with
  | some c => s.thFault i c
  | none =>
    if s.uWaits i w then (if uIop w = 4 && decide (s.ringFree i < uIimm w % 8) then s.bump (TH_CNT_WAIT_CYCLES i) else s)
    else
      let sc := if uIop w = 2 then s.scratchCheck i else (s, true)
      if !sc.2 then sc.1.thFault i 10
      else
        let s0 := sc.1
        let ld := if uCop w = 1 then s0.ldctx i (s0.gReg i (uCreg w)) else .ok s0
        match ld with
        | .wait => s0
        | .fault c s1 => s1.thFault i c
        | .ok s1 =>
          let s2 := if s0.thState i = 3 then s1.modThr i (fun x => { x with after := x.after + 1 }) else s1
          let s3 := s0.ioSlot (s0.ctxSlot (s0.memSlot (s0.aluSlot s2 i w) i w) i w) i w
          s0.seqSlot s3 i w

/-- A micro-op given as a command: a word that holds only that operation, executed by a thresher whose routine is running. -/
def runOp (s : State) (i w : Nat) : State := if s.thState i = 2 || s.thState i = 3 then s.runWord i w else s

/-! ### The control store (R251 to R254) -/

/-- The word at an index: as stored, of the default image, or 0 in a store nothing has loaded. -/
def ucWord (s : State) (u a : Nat) : Nat :=
  let x := s.sheaf u
  match storeGet (fun _ => none) x.words a with
  | some w => w
  | none => if x.builtin then (Config.defaultWord a).toNat else 0

/-- One thresher cycle of a routine in user microcode. -/
def thCycle (s : State) (i : Nat) : State :=
  if (s.thState i = 2 || s.thState i = 3) && !(s.thr i).hard then
    let f := s.fetchCheck i
    if !f.2 then f.1.thFault i 1 else f.1.runWord i (f.1.ucWord (i / 2) (f.1.thr i).upc)
  else s

/-- n thresher cycles of one thresher. -/
def thCycles (s : State) (i : Nat) : Nat → State
  | 0 => s
  | n + 1 => (s.thCycle i).thCycles i n

/-- Threshers inside a routine of user microcode. -/
def microRunning (s : State) : List Nat := (List.range 32).filter (fun i => (s.thState i = 2 || s.thState i = 3) && !(s.thr i).hard)

/-- The threshers' cycles of one tick: twelve. -/
def microTick (s : State) : State := s.microRunning.foldl (fun s i => s.thCycles i 12) s

/-- A write of `SH_UCS_CTRL.LOAD_EN` (R252). -/
def ucsLoadEn (s : State) (u : Nat) (en : Bool) : State :=
  if !en then s.put (SH_UCS_CTRL_LOAD_EN u) 0
  else if s.thState (2 * u) = 0 && s.thState (2 * u + 1) = 0 then s.mark (SH_UCS_CTRL_LOAD_EN u)
  else s.mark (SH_UCS_CTRL_REFUSED u)

/-- A write of `SH_UCS_DATA0` to `DATA7` in load mode (R252): DATA7 stores the word. -/
def ucsData (s : State) (u k v : Nat) : State :=
  if !s.on (SH_UCS_CTRL_LOAD_EN u) then s
  else
    let x := s.sheaf u
    let y := { x with data := storeSet (fun _ => 0) x.data k v }
    if k ≠ 7 then s.setSheaf u y
    else
      let w := (List.range 8).foldl (fun n i => n + storeGet (fun _ => 0) y.data i * 2 ^ (32 * i)) 0
      (s.setSheaf u { y with words := storeSet (fun _ => none) y.words (s.get (SH_UCS_CTRL_ADDR u)) (some w) }).wrapUp (SH_UCS_CTRL_ADDR u)

/-- `SH_UCS_FINISH` with GO (R252): `src` tells the path of the write. DESIGN CHOICE: outside load mode it has no effect, as R252 names
none (log entry 27). -/
def ucsFinish (s : State) (u src version hash : Nat) : State :=
  if !s.on (SH_UCS_CTRL_LOAD_EN u) then s
  else
    (((s.put (SH_UC_VERSION_SRC u) src).put (SH_UC_VERSION_VERSION u) version).put (SH_UC_VERSION_HASH u) hash).put (SH_UCS_CTRL_LOAD_EN u) 0

/-- The read path presents the word at ADDR (R254). -/
def present (s : State) (u : Nat) : State :=
  let a := s.get (SH_UCRD_ADDR_ADDR u)
  let r := s.inject .controlStore u
  let w := s.ucWord u a
  let s1 := match popCount 16 r.2 with
    | 0 => r.1
    | 1 => r.1.bump (SH_UCS_ECC_CORR u)
    | _ => r.1.mark (SH_UCRD_ADDR_UNCORR u)
  (List.range 8).foldl (fun s k => s.put (SH_UCRD_D_DATA u k) (word32 w k)) s1

def ucrdAdvance (s : State) (u : Nat) : State := (s.wrapUp (SH_UCRD_ADDR_ADDR u)).present u

end State

end Sys2Proof.Machine
end

