-- ==== Sys2Proof/Machine/Link.lean ====
section
/-! DEFINITION. Genhar ports and the card mesh (12_links_and_memory.md, R379 to R392), the scrubber and DRAM initialisation
(R367, R368), host accesses through BAR2 (R360). -/

namespace Sys2Proof.Machine

/-! ### Flits (R381): 512-bit numbers, byte 0 lowest -/

def fDx (f : Nat) : Nat := bits f 3 0
def fDy (f : Nat) : Nat := bits f 7 4
def fSx (f : Nat) : Nat := bits f 11 8
def fSy (f : Nat) : Nat := bits f 15 12
def fVc (f : Nat) : Nat := bits f 17 16
def fType (f : Nat) : Nat := bits f 23 18
def fTag (f : Nat) : Nat := bits f 31 24
def fLen (f : Nat) : Nat := bits f 37 32
def fFirst (f : Nat) : Bool := f.testBit 38
def fLast (f : Nat) : Bool := f.testBit 39
def fHops (f : Nat) : Nat := bits f 43 40
def fPoison (f : Nat) : Bool := f.testBit 44

/-- Bytes of the payload from byte k. -/
def fBytes (f k n : Nat) : List Nat := bytesLE n (bytesOf f (8 + k) n)

/-- A flit; the source position is filled in by the sender. -/
def mkFlit (dx dy sx sy vc ty tag : Nat) (first last poison : Bool) (payload : List Nat) : Nat :=
  dx % 16 + dy % 16 * 2 ^ 4 + sx * 2 ^ 8 + sy * 2 ^ 12 + vc * 2 ^ 16 + ty * 2 ^ 18 + tag % 256 * 2 ^ 24 + payload.length * 2 ^ 32 +
    b2n first * 2 ^ 38 + b2n last * 2 ^ 39 + b2n poison * 2 ^ 44 + ofBytesLE payload * 2 ^ 64

/-- A list cut into pieces of n; `fuel` bounds the number of pieces. -/
def chunks (n : Nat) : Nat → List Nat → List (List Nat)
  | 0, _ => []
  | fuel + 1, l => if l.isEmpty then [] else l.take n :: chunks n fuel (l.drop n)

/-- First data byte of flit k of a MEM_WR message, and the one after its last (R382). -/
def flitFrom (k : Nat) : Nat := if k = 0 then 0 else 56 * k - 8
def flitUntil (k : Nat) : Nat := 56 * k + 48

/-- Flits of a MEM_WR message (R382): the address and 48 data bytes, then 56 bytes each. `poison` lists the bytes that poisoned lines gave;
a flit that holds some of them carries POISON (R366). -/
def memWrFlits (sx sy dx dy vc tag addr : Nat) (data : List Nat) (poison : List (Nat × Nat)) : List Nat :=
  let parts := (bytesLE 8 addr ++ data.take 48) :: chunks 56 10 (data.drop 48)
  (parts.zip (List.range parts.length)).map (fun p => mkFlit dx dy sx sy vc 8 tag (p.2 = 0) (p.2 + 1 = parts.length)
    (poison.any (fun b => decide (b.1 < flitUntil p.2) && decide (flitFrom p.2 < b.2))) p.1)

/-- Flits of a message (R45, R382). -/
def MeshMsg.flits (sx sy : Nat) : MeshMsg → List Nat
  | .rdvReport x y k e first complete n stamp =>
    [mkFlit x y sx sy 1 1 0 true true false ([k % 256, e % 256, b2n first + 2 * b2n complete, n % 256] ++ bytesLE 6 stamp)]
  | .rdvRelease x y k e timeout r => [mkFlit x y sx sy 1 2 0 true true false ([k % 256, e % 256, b2n timeout, 0] ++ bytesLE 6 r)]
  | .memWr x y vc addr data poison tag => memWrFlits sx sy x y vc tag addr data poison
  | .memAck x y tag window => [mkFlit x y sx sy 0 9 0 true true false [tag % 256, b2n window]]

/-- Credits a receiver's buffers give (R385). -/
def creditsOf (v : Nat) : Nat := [16, 16, 64, 128].getD v 0

namespace State

def portState (s : State) (p : Nat) : Nat := s.get (LK_G_STAT_STATE p)
def modPort (s : State) (p : Nat) (f : Port → Port) : State := s.setPort p (f (s.port p))

/-! ### Position (R387) -/

/-- The position in force: the override or the straps. -/
def takePosition (s : State) : State :=
  let ovr := s.on LK_MESH_POS_OVR
  let x := if ovr then s.get LK_MESH_POS_OVR_X else s.power.cpos % 8
  let y := if ovr then s.get LK_MESH_POS_OVR_Y else s.power.cpos / 8 % 8
  ((s.put LK_MESH_POS_X x).put LK_MESH_POS_Y y).put LK_MESH_POS_VALID (b2n (decide (y ≤ 5)))

/-- The neighbour a port expects (R387). -/
def expected (s : State) (p : Nat) : Option (Nat × Nat) :=
  let x := s.get LK_MESH_POS_X
  let y := s.get LK_MESH_POS_Y
  match p with
  | 0 => if y = 0 then none else some (x, y - 1)
  | 1 => some (x + 1, y)
  | 2 => some (x, y + 1)
  | _ => if x = 0 then none else some (x - 1, y)

/-! ### Sending what a receiver owes (R384, R385) -/

def ackOf (s : State) (p : Nat) : Bool × Nat := ((s.port p).any, ((s.port p).rxSeq + 255) % 256)

/-- A CREDIT block returns all credits owed and acknowledges. -/
def sendCredit (s : State) (p : Nat) : State :=
  let x := s.port p
  let c (v : Nat) : Nat := storeGet (fun _ => 0) x.owed v
  let s1 := s.setPort p { x with owed := [], accepted := 0 }
  { s1 with linkOut := s1.linkOut ++ [.credit p (c 0) (c 1) (c 2) (c 3) (s.ackOf p).1 (s.ackOf p).2] }

/-- A flit from port p has left its buffer: its credit is owed, and returned once 8 are. -/
def owe (s : State) (p v : Nat) : State :=
  if s.portState p ≠ 2 then s
  else
    let n := storeGet (fun _ => 0) (s.port p).owed v + 1
    let s1 := s.modPort p (fun x => { x with owed := storeSet (fun _ => 0) x.owed v n, owedAt := if x.owed.isEmpty then s.ticks else x.owedAt })
    if 8 ≤ n then s1.sendCredit p else s1

def oweFrom (s : State) (o : Option Nat) (v : Nat) : State := match o with
  | some p => s.owe p v
  | none => s

/-! ### Consuming a message (R45, R381, R382) -/

/-- The flit is one a consumer takes (R381). -/
def flitFits (f : Nat) : Bool :=
  decide (fLen f ≤ 56) && bits f 63 45 = 0 && (match fType f with
    | 1 | 2 => fVc f = 1
    | 8 => 2 ≤ fVc f
    | 9 => fVc f = 0
    | _ => false)

/-- A MEM_WR flit joins its message; `from_` is the port it came in by. -/
def assemble (s : State) (from_ : Option Nat) (f : Nat) : State :=
  let mine (a : Assembly) : Bool := a.x = fSx f && a.y = fSy f && a.vc = fVc f && a.tag = fTag f && !a.done
  if fFirst f then
    { s with assembly := s.assembly.filter (fun a => !mine a) ++ [⟨fSx f, fSy f, fVc f, fTag f, ofBytesLE (fBytes f 0 8), fBytes f 8 (fLen f - 8), [fPoison f], from_, fLast f⟩] }
  else
    { s with assembly := s.assembly.map (fun a => if mine a then { a with data := a.data ++ fBytes f 0 (fLen f), poison := a.poison ++ [fPoison f], done := fLast f } else a) }

/-- A flit at its destination. -/
def consume (s : State) (from_ : Option Nat) (f : Nat) : State :=
  if !flitFits f then s.bump LK_MESH_DROP_TYPE
  else
    let b (k : Nat) : Nat := bytesOf f (8 + k) 1
    match fType f with
    | 1 => { s with meshIn := s.meshIn ++ [.rdvReport (fSx f) (fSy f) (b 0) (b 1) (bits (b 2) 0 0 = 1) (bits (b 2) 1 1 = 1) (b 3) (bytesOf f 12 6)] }
    | 2 => { s with meshIn := s.meshIn ++ [.rdvRelease (fSx f) (fSy f) (b 0) (b 1) (b 2 = 1) (bytesOf f 12 6)] }
    | 9 => { s with meshIn := s.meshIn ++ [.memAck (fSx f) (fSy f) (b 0) (b 1 = 1)] }
    | _ => s.assemble from_ f

/-! ### Routing (R388) -/

/-- The port a flit leaves by; none for the part itself. -/
def portFor (s : State) (f : Nat) : Option Nat :=
  let x := s.get LK_MESH_POS_X
  let y := s.get LK_MESH_POS_Y
  if x < fDx f then some 1 else if fDx f < x then some 3 else if y < fDy f then some 2 else if fDy f < y then some 0 else none

/-- A flit from input port `from_`, or the part's own, is dropped, consumed or put before its output. -/
def routeFlit (s : State) (from_ : Option Nat) (f : Nat) : State :=
  let v := fVc f
  if 7 < fDx f || decide (5 < fDy f) then (s.bump LK_MESH_DROP_BAD_DEST).oweFrom from_ v
  else match s.portFor f with
    | none => (s.consume from_ f).oweFrom from_ v
    | some p =>
      if 12 ≤ fHops f then (s.bump LK_MESH_DROP_HOPS).oweFrom from_ v
      else if s.portState p ≠ 2 then (s.bump LK_MESH_DROP_PORT_DOWN).oweFrom from_ v
      else s.modPort p (fun x => { x with out := x.out ++ [⟨f + 2 ^ 40, from_⟩] })

/-- The part's own messages go to the ports. -/
def routeOwn (s : State) : State :=
  let fs := s.meshOut.flatMap (MeshMsg.flits (s.get LK_MESH_POS_X) (s.get LK_MESH_POS_Y))
  fs.foldl (fun s f => s.routeFlit none f) { s with meshOut := [] }

/-! ### Port states (R389) -/

/-- ALIGN blocks on the four lanes of a port (R380). -/
def sendAlign (s : State) (p : Nat) (ready : Bool) : State :=
  { s with linkOut := s.linkOut ++ (List.range 4).map (fun l => LinkOut.align p l (s.get LK_MESH_POS_X) (s.get LK_MESH_POS_Y) p ready) }

/-- Everything under way on the link of a port is given up, and the port is in a state. -/
def giveUpLink (s : State) (p st : Nat) : State :=
  let s1 := s.setPort p { Port.reset with out := (s.port p).out }
  let s2 := (List.range 4).foldl (fun s q => s.modPort q (fun x => { x with out := x.out.map (fun o => if o.from_ = some p then { o with from_ := none } else o) })) s1
  let s3 := (List.range 4).foldl (fun s v => s.put (LK_G_CREDIT_CR p v) 0) s2
  s3.put (LK_G_STAT_STATE p) st

/-- A port starts training with the position in force from then on (R387): it sends ALIGN blocks. -/
def startTraining (s : State) (p : Nat) : State :=
  let s0 := s.takePosition
  if s0.on LK_MESH_POS_VALID then (s0.giveUpLink p 1).sendAlign p false else s0.giveUpLink p 0

/-- All four ports train (R452). -/
def trainPorts (s : State) : State := (List.range 4).foldl startTraining s

/-- The port returns what it receives (R390): far-end loopback, unless a PRBS takes the place of the stream (R392). -/
def retransmits (s : State) (p : Nat) : Bool := s.portState p = 5 && s.get (LK_G_CTRL_LPBK p) = 3 && s.get (LK_G_CTRL_PRBS p) = 0
def resend (s : State) (p : Nat) (b : LinkOut) : State := if s.retransmits p then { s with linkOut := s.linkOut ++ [b] } else s

/-- A port goes DOWN (R384, R389) and returns to TRAINING at once. -/
def portDown (s : State) (p : Nat) : State :=
  let s1 := (s.bumpBy (LK_G_CNT_LOST p) (s.port p).replay.length).mark (LK_G_STAT_WENT_DOWN p)
  ((s1.raiseLine 182).source (1310 + p)).startTraining p

/-- The state a write of `LK_G_CTRL` leaves the port in (R389, R390): EN = 0 before a loopback, which a port with an invalid position does
not enter. Only training takes a new position (R387). -/
def settlePort (s : State) (p : Nat) (retrain : Bool) : State :=
  let st := s.portState p
  if !s.on (LK_G_CTRL_EN p) then (if st = 0 then s else s.giveUpLink p 0)
  else if s.get (LK_G_CTRL_LPBK p) ≠ 0 then (if st = 5 || !s.on LK_MESH_POS_VALID then s else s.giveUpLink p 5)
  else if st = 0 || st = 5 || retrain then s.startTraining p
  else s

/-- ALIGN_RECEIVE (R389): the lane, the neighbour's position and port. Once ALIGN blocks have come on all lanes the port sends its own as
ready. The manual gives the port field no effect but in a far-end loopback, where it is returned. -/
def alignReceive (s : State) (p lane x y port : Nat) (ready : Bool) : State :=
  if s.portState p = 5 then s.resend p (.align p lane x y port ready)
  else if s.portState p = 0 then s
  else
    let s1 := (s.put (LK_G_STAT_NBR_X p) x).put (LK_G_STAT_NBR_Y p) y
    if s.portState p ≠ 1 then s1
    else
      let z := s1.port p
      let s2 := s1.setPort p { z with seen := z.seen ||| 2 ^ lane, lanes := if ready then z.lanes ||| 2 ^ lane else z.lanes }
      if z.seen ≠ 15 && z.seen ||| 2 ^ lane = 15 then s2.sendAlign p true else s2

/-- TRAINING_COMPLETE (R387, R389). -/
def trainingComplete (s : State) (p : Nat) : State :=
  if s.portState p ≠ 1 || (s.port p).lanes ≠ 15 then s
  else if s.expected p = some (s.get (LK_G_STAT_NBR_X p), s.get (LK_G_STAT_NBR_Y p)) then
    (List.range 4).foldl (fun s v => s.put (LK_G_CREDIT_CR p v) (creditsOf v)) (s.put (LK_G_STAT_STATE p) 2)
  else (s.put (LK_G_STAT_STATE p) 3).source (1314 + p)

def blockLockLoss (s : State) (p : Nat) : State := if s.portState p = 2 then s.portDown p else s

/-! ### Reliability (R384) -/

/-- Acknowledged flits leave the replay buffer. -/
def takeAck (s : State) (p : Nat) (v : Bool) (a : Nat) : State :=
  let x := s.port p
  match v, x.replay.findIdx? (fun f => f.1 = a) with
  | true, some k =>
    let keep := x.replay.drop (k + 1)
    s.setPort p { x with replay := keep, again := x.again.filter (fun f => keep.contains f), tries := 0, ackAt := s.ticks }
  | _, _ => s

/-- Replay from the flit with a SEQ; after 16 replays with no advance the port goes DOWN. -/
def replayFrom (s : State) (p seq : Nat) : State :=
  let x := s.port p
  match x.replay.findIdx? (fun f => f.1 = seq) with
  | none => s
  | some k =>
    if 16 ≤ x.tries then s.portDown p
    else (s.setPort p { x with again := x.replay.drop k, tries := x.tries + 1, ackAt := s.ticks }).bump (LK_G_CNT_REPLAYS p)

def nakReceive (s : State) (p seq : Nat) : State :=
  if s.portState p = 2 then (s.bump (LK_G_CNT_NAKS p)).replayFrom p seq else s.resend p (.nak p seq)

/-- REPLAY_TIMEOUT: 1 µs (100 ticks) after the last advance of ACKSEQ, the last replay or the first flit sent. -/
def replayTimeout (s : State) (p : Nat) : State :=
  match s.portState p, (s.port p).replay with
  | 2, f :: _ => (s.advTo ((s.port p).ackAt + 100)).replayFrom p f.1
  | _, _ => s

def creditReceive (s : State) (p : Nat) (c : List Nat) (ackv : Bool) (ackseq : Nat) : State :=
  if s.portState p ≠ 2 then s.resend p (.credit p (c.getD 0 0) (c.getD 1 0) (c.getD 2 0) (c.getD 3 0) ackv ackseq)
  else ((List.range 4).foldl (fun s v => s.put (LK_G_CREDIT_CR p v) (min (creditsOf v) (s.get (LK_G_CREDIT_CR p v) + c.getD v 0))) s).takeAck p ackv ackseq

/-- CREDIT_RETURN_TIMER (R385): 100 ns (10 ticks) after the first credit became pending, what is owed is sent. -/
def creditReturnTimer (s : State) (p : Nat) : State :=
  if s.portState p = 2 && !(s.port p).owed.isEmpty then (s.advTo ((s.port p).owedAt + 10)).sendCredit p else s

/-- ACK_TIMER (R384): 200 ns (20 ticks) after the first flit not yet acknowledged, the same. -/
def ackTimer (s : State) (p : Nat) : State :=
  if s.portState p = 2 && (s.port p).accepted ≠ 0 then (s.advTo ((s.port p).acceptedAt + 20)).sendCredit p else s

/-- FLIT_RECEIVE (R383, R384): accepted in order, or discarded with one NAK. A flit broken by a block error (R380) is one whose CRC does not
check. -/
def flitReceive (s : State) (p flit seq crc : Nat) (ackv : Bool) (ackseq : Nat) : State :=
  if s.portState p ≠ 2 then s.resend p (.flit p flit seq crc ackv ackseq)
  else
    let good := crc = crc32 0xFFFFFFFF (bytesLE 64 flit ++ [seq])
    let s1 := if good then s.takeAck p ackv ackseq else s.bump (LK_G_CNT_CRC_ERR p)
    let x := s1.port p
    if good && seq = x.rxSeq then
      let s2 := s1.setPort p { x with rxSeq := (seq + 1) % 256, any := true, naked := false, accepted := x.accepted + 1, acceptedAt := if x.accepted = 0 then s1.ticks else x.acceptedAt }
      let s3 := if 16 ≤ x.accepted + 1 then s2.sendCredit p else s2
      s3.routeFlit (some p) flit
    else if x.naked then s1
    else
      let s2 := s1.setPort p { x with naked := true }
      { s2 with linkOut := s2.linkOut ++ [.nak p x.rxSeq] }

/-- The flit goes out with its trailer. -/
def emit (s : State) (p flit seq : Nat) : State :=
  let s1 := s.modPort p (fun x => { x with accepted := 0 })
  { s1 with linkOut := s1.linkOut ++ [.flit p flit seq (crc32 0xFFFFFFFF (bytesLE 64 flit ++ [seq])) (s.ackOf p).1 (s.ackOf p).2] }

/-- VC to send on next (R385): VC1, VC0, then VC2 and VC3 in alternation; one that has a flit and a credit. -/
def nextVc (s : State) (p : Nat) : Option Nat :=
  let x := s.port p
  let ready (v : Nat) : Bool := x.out.any (fun o => fVc o.flit = v) && s.get (LK_G_CREDIT_CR p v) ≠ 0
  (if x.lastBulk then [1, 0, 3, 2] else [1, 0, 2, 3]).find? ready

/-- Input port of a waiting flit: 4 for the part's own. -/
def sourceOf (o : OutFlit) : Nat := o.from_.getD 4

/-- FLIT_TRANSMIT (R383 to R385). -/
def flitTransmit (s0 : State) (p : Nat) : State :=
  let s := s0.routeOwn
  let x := s.port p
  if s.portState p ≠ 2 then s
  else match x.again with
    | f :: r => (s.setPort p { x with again := r }).emit p f.2 f.1
    | [] =>
      if 64 ≤ x.replay.length then s
      else match s.nextVc p with
        | none => s
        | some v =>
          let last := storeGet (fun _ => 4) x.lastIn v
          let i := ((List.range 5).map (fun n => (last + 1 + n) % 5)).find? (fun i => x.out.any (fun o => fVc o.flit = v && sourceOf o = i))
          match x.out.findIdx? (fun o => fVc o.flit = v && some (sourceOf o) = i) with
          | none => s
          | some k => match x.out[k]? with
            | none => s
            | some o =>
              let y := { x with out := x.out.eraseIdx k, replay := x.replay ++ [(x.txSeq, o.flit)], txSeq := (x.txSeq + 1) % 256, lastBulk := if 2 ≤ v then v == 2 else x.lastBulk, lastIn := storeSet (fun _ => 4) x.lastIn v (sourceOf o), ackAt := if x.replay.isEmpty then s.ticks else x.ackAt }
              let s1 := (s.setPort p y).put (LK_G_CREDIT_CR p v) (s.get (LK_G_CREDIT_CR p v) - 1)
              (s1.emit p o.flit x.txSeq).oweFrom o.from_ v

/-! ### Mesh messages that have arrived -/

/-- A message is taken from those received; the command acts whether or not it is among them. -/
def takeMesh (s : State) (m : MeshMsg) : State := { s with meshIn := s.meshIn.erase m }

/-- Some line is written by both messages. -/
def sameLine (a b : Assembly) : Bool := (linesIn a.addr a.data.length).any (linesIn b.addr b.data.length).contains

/-- The bytes of a message are stored line by line, a line poisoned if a flit that carries some of its bytes is (R366). -/
def memWrStore (s : State) (a : Assembly) : State :=
  (linesIn a.addr a.data.length).foldl (fun s l =>
    let lo := max a.addr l - a.addr
    let hi := min a.data.length (l + 64 - a.addr)
    let bad := (List.range a.poison.length).any (fun k => a.poison.getD k false && decide (lo < flitUntil k) && decide (flitFrom k < hi))
    s.memPut (a.addr + lo) ((a.data.drop lo).take (hi - lo)) bad) s

/-- MEM_WR (R382): a complete message is checked, written and acknowledged. One of a port waits for an earlier complete one of that port
to a line they share (R364); a message that has lost a flit delays none. -/
def memWrArrive (s : State) (x y vc tag : Nat) : State :=
  let mine (a : Assembly) : Bool := a.x = x && a.y = y && a.vc = vc && a.tag = tag && a.done
  match s.assembly.find? mine with
  | none => s
  | some a =>
    if (s.assembly.takeWhile (· != a)).any (fun b => b.done && b.from_ = a.from_ && sameLine b a) then s
    else
      let inside := decide (a.addr + a.data.length ≤ 0x400000000)
      let s1 := { s with assembly := s.assembly.erase a }
      let s2 := if inside then s1.memWrStore a else s1
      { s2 with meshOut := s2.meshOut ++ [.memAck x y tag !inside] }

/-! ### DRAM -/

/-- DRAM_INIT_DONE (R368): every word of the stack is 0 with valid check bits. -/
def dramInitDone (s : State) (east : Bool) : State :=
  let mine (a : Nat) : Bool := if east then decide (0x200000000 ≤ a ∧ a < 0x400000000) else decide (a < 0x200000000)
  let s1 := { s with mem := storeKeep (fun a => !mine a) s.mem, uncorr := s.uncorr.filter (fun a => !mine a), single := s.single.filter (fun a => !mine a) }
  s1.mark (if east then GL_MEM_STAT_E_READY else GL_MEM_STAT_W_READY)

/-- SCRUB_PASS (R367): the group's lines are read; single-bit errors are written back. Only a line that holds an error shows it, and
the first line, whose read meets an error that waits to be injected (R421). -/
def scrubPass (s : State) (u : Nat) : State :=
  if !s.on (SH_MEM_SCRUB_EN u) then s
  else
    let mine (a : Nat) : Bool := regionOf a = .dram && groupOf a = u && s.answers a
    let lines := ((homeBase u :: (s.single ++ s.uncorr)).filter mine).map (fun a => a / 64 * 64)
    let s1 := lines.eraseDups.foldl (fun s l => (s.lineCheck l 64).1) s
    { s1 with single := s1.single.filter (fun a => !mine a) }

/-! ### Host accesses through BAR2 (R360, R366) -/

/-- An AER error is logged (R366, R412). -/
def aer (s : State) (e : AerError) : State := { s with hostConfig := { s.hostConfig with aer := s.hostConfig.aer ++ [e] } }.source 1318

/-- The sheaf's context slice takes a host write (R248). -/
def ctxOpen (s : State) (a : Nat) : Bool :=
  let u := (a - 0x401000000) / 0x40000
  s.thState (2 * u) = 0 && s.thState (2 * u + 1) = 0

/-- Bytes of a write the context store does not take, by sheaf. -/
def ctxDenied (s : State) (a n : Nat) : List Nat :=
  (((linesIn a n).filter (fun l => regionOf l = .context && !s.ctxOpen l)).map (fun l => (l - 0x401000000) / 0x40000)).eraseDups

def denyCtx (s : State) (us : List Nat) : State := us.foldl (fun s u => (s.mark (SH_CTX_STAT_WR_DENIED u)).source (1024 + 8 * u + 4)) s

/-- BAR2_WRITE (R360): bytes not enabled are `none`; EP data is stored poisoned (R366). -/
def bar2Write (s : State) (a : Nat) (data : List (Option Nat)) (ep : Bool) : State :=
  let us := s.ctxDenied a data.length
  let take := (data.zip (List.range data.length)).map (fun d => if regionOf (a + d.2) = .context && !s.ctxOpen (a + d.2) then none else d.1)
  let s1 := if ep then (s.bump LK_PCIE_ERR_POISON_RX).aer .poisonedReceived else s
  (s1.denyCtx us).memWrite a take ep

/-- BAR2_READ (R360, R365, R366). -/
def bar2Read (s : State) (a n : Nat) : State :=
  let r := s.hostRead a n
  let s1 := if r.2 then (r.1.bump LK_PCIE_ERR_POISON_TX).aer .poisonedSent else r.1
  { s1 with rdData := ofBytesLE (s1.memBytes a n), rdPoison := r.2 }

/-! ### The host link (R371, R412, R415) -/

/-- The link trains; not while the PMA loopback holds it down (R392). -/
def pcieLinkUp (s : State) (speed width : Nat) : State :=
  if s.on LK_PCIE_LPBK_EN then s else
  (((s.put LK_PCIE_STAT_SPEED speed).put LK_PCIE_STAT_WIDTH width).mark LK_PCIE_STAT_UP).source 1319

/-- A lost link raises the host port's error line (R416). -/
def pcieLinkDown (s : State) : State :=
  if s.on LK_PCIE_STAT_UP then (((s.put LK_PCIE_STAT_UP 0).put LK_PCIE_STAT_SPEED 0).put LK_PCIE_STAT_WIDTH 0).raiseLine 181 else s

/-- Registers that a host-port reset returns to their Reset values. -/
def hostPortReg (a : Nat) : Bool := decide (0x80000 ≤ a ∧ a < 0x82000)

/-- HOST_PORT_RESET (R371): link down until it has retrained, configuration space, channels and queues reset. -/
def hostPortReset (s : State) : State :=
  { s.clearRegs hostPortReg with dmas := [], hmqs := [], hostConfig := HostConfig.reset }

end State

end Sys2Proof.Machine
end

