-- ==== Sys2Proof/Machine/Router.lean ====
section
/-! DEFINITION. The event router (13_supervisors_events_faults.md, R406 to R411) and the rearm of interrupt vectors (R415). -/

namespace Sys2Proof.Machine

/-- Edge steps: a merge window, the delivery time, the refractory time, a slot of the arrival count (R406, R409 to R411). -/
def mergeSteps : Nat := 320
def deliverSteps : Nat := 1536
def quietSteps : Nat := 5120
def slotSteps : Nat := 128000

namespace State

/-- The user domain may fire a channel, and may write its EN, GATE and LOCK (R408). -/
def userMayFire (s : State) (e : Nat) : Bool := s.get (EV_CH_CFG_OWNER e) = 1 && !s.on (EV_CH_CFG_SEC e) && !s.on (EV_CH_CFG_LOCK e)
def userMayConfigure (s : State) (e : Nat) : Bool :=
  (s.get (EV_CH_CFG_OWNER e) = 1 || s.get (EV_CH_CFG_OWNER e) = 2) && !s.on (EV_CH_CFG_SEC e) && !s.on (EV_CH_CFG_LOCK e)

/-- A firing by register (R408). -/
def evFire (s : State) (e : Nat) (user : Bool) : State :=
  if user && !s.userMayFire e then (s.mark (EV_CH_STAT_FIRE_REJ e)).source 1285 else s.fireChannel e

/-- Channels 64 to 191 have a GATE (R407). -/
def gatedChannel (e : Nat) : Bool := 64 ≤ e && decide (e < 192)

def rejectConfig (s : State) (e : Nat) : State := (s.mark (EV_CH_STAT_CFG_REJ e)).source 1286

/-- A write of `EV_CH_CFG` (R408, R411). From the user domain only EN, GATE and LOCK are reached. -/
def chCfgWrite (s : State) (e w : Nat) (user : Bool) : State :=
  let en := w.testBit 31
  let old := s.on (EV_CH_CFG_EN e)
  let open_ := !user || s.userMayConfigure e
  let touched := en != old || w.testBit 30 || (gatedChannel e && decide (bits w 15 8 ≠ s.get (EV_CH_CFG_GATE e)))
  let s1 :=
    if !open_ then (if touched then s.rejectConfig e else s)
    else
      let s1 := if gatedChannel e then s.put (EV_CH_CFG_GATE e) (bits w 15 8) else s
      let s2 := if w.testBit 30 then s1.mark (EV_CH_CFG_LOCK e) else s1
      if en && s2.on (EV_CH_STAT_RUNAWAY e) then s2.rejectConfig e
      else
        s2.put (EV_CH_CFG_EN e) (b2n en)
  if user then s1
  else
    let s2 := (s1.put (EV_CH_CFG_SEC e) (bits w 28 28)).put (EV_CH_CFG_TDOM e) (bits w 25 22)
    let s3 := if bits w 27 26 = 3 then s2 else s2.put (EV_CH_CFG_OWNER e) (bits w 27 26)
    if w.testBit 29 then s3.put (EV_CH_CFG_LOCK e) 0 else s3

/-- EVENT_ARRIVAL (R408 to R411) at an instant: discarded while EN is 0, counted, then the runaway limit, the refractory time
and the merge window of the event accepted last. -/
def eventArrival (s0 : State) (e at_ : Nat) : State :=
  let s1 := if 192 ≤ e then s0.tillerCatchUp (e % 64) at_ else s0
  let s := { s1 with firings := s1.firings.erase e }.advInst at_
  if !s.on (EV_CH_CFG_EN e) then s
  else
    let x := s.chan e
    let slot := at_ / slotSteps
    let recent := x.arrivals.filter (fun a => decide (slot < a.1 + 10))
    let arr := match recent with
      | (k, n) :: r => if k = slot then (k, n + 1) :: r else (slot, 1) :: recent
      | [] => [(slot, 1)]
    let s1 := s.setChan e { x with arrivals := arr }
    if 256 < (arr.map (·.2)).sum then ((s1.put (EV_CH_CFG_EN e) 0).mark (EV_CH_STAT_RUNAWAY e)).source 1284
    else if at_ < x.quietTo then s1.bump (EV_CH_STAT_SUPPR e)
    else if x.window = some (at_ / mergeSteps) then s1.bump (EV_CH_STAT_MERGED e)
    else s1.setChan e { s1.chan e with window := some (at_ / mergeSteps), flight := (s1.chan e).flight ++ [at_] }

/-- The consumer of a channel (R407). A delivery to a wake input ends deep sleep, or is held until the power-down that enters it
has ended (R442). -/
def consumer (s : State) (e : Nat) : State :=
  let t := e % 64
  if e < 64 then s.tlSource t 0
  else if e < 128 then s.setLatch t 6
  else if e < 192 then s.setLatch t 7
  else if s.get GL_PWR_STAT_STATE = 4 || (s.get GL_PWR_STAT_STATE = 3 && s.power.goal = 4) then { s with power := { s.power with wake := true } }
  else s

/-- EVENT_DELIVER (R406, R410): the oldest accepted event reaches its consumer 12 ns after its arrival. -/
def eventDeliver (s : State) (e : Nat) : State :=
  let x := s.chan e
  match x.flight with
  | [] => s
  | a :: r =>
    let s1 := (s.advInst (a + deliverSteps)).setChan e { x with flight := r, quietTo := a + deliverSteps + quietSteps }
    s1.consumer e

/-- A write of `EV_VEC_REARM` (R415): each named vector whose summary is 1 sends its message. -/
def vecRearm (s : State) (n w : Nat) : State := s.sendVectors (w * 2 ^ (32 * n) &&& s.vectorMask)

end State

end Sys2Proof.Machine
end

