-- ==== Sys2Proof/Machine/Nvm.lean ====
section
/-! DEFINITION. The NVM (13_supervisors_events_faults.md, R429 to R431), wear saves and the shutdown log
(11_calibration_heat_and_wear.md, R352, R357). -/

namespace Sys2Proof.Machine

/-- Key under which a wear save holds the contact cycles, beside the counters' own numbers. -/
def contactKey : Nat := 0x400

/-- Ticks from a trip to the end of the time over which its peak is taken (R351). -/
def peakTicks : Nat := 5000000

namespace State

def modNvm (s : State) (f : Nvm → Nvm) : State := { s with nvm := f s.nvm }

/-- The word at byte address 4·i: as programmed, or free since the last erase or record of unstated layout (log entry 11). -/
def nvmWord (s : State) (i : Nat) : Word :=
  match storeGet (fun _ => none) s.nvm.words i with
  | some w => w
  | none =>
    let n := storeGet (fun _ => 0) s.nvm.events (i / 64)
    BitVec.ofNat 32 (ofBytesLE ((List.range 4).map (fun k => (Config.nvmByte n (4 * i + k)).toNat)))

/-- The contents of n rows from row r are no longer known. -/
def forgetRows (s : State) (r n : Nat) : State :=
  s.modNvm (fun x => { x with words := storeKeep (fun i => decide (i / 64 < r) || decide (r + n ≤ i / 64)) x.words, events := (List.range n).foldl (fun e k => storeSet (fun _ => 0) e (r + k) (x.count + 1)) x.events, count := x.count + 1 })

/-- A sector has been erased: it is counted (R354), its contents are unknown. -/
def eraseSector (s : State) (sec : Nat) : State :=
  (s.setWear (0x300 + sec) (min (s.wearOf (0x300 + sec) + 1) 0xFFFFFFFF)).forgetRows (16 * sec) 16

/-- What an operation on a sector of a record makes unknown (R429, R430): copy A of the fields marked NVM in sectors 2 to 4, copy B in 5 to
7; in 88 to 95 the wear save, and in 96 and 97 the shutdown log, unless a sector is erased that does not hold the valid record. What
the records then hold is free (log entry 5). -/
def recordChanged (s : State) (op sec : Nat) : State :=
  let n := s.nvm.image + 1
  if 2 ≤ sec && sec < 5 then s.modNvm (fun x => { x with image := n, imageA := n })
  else if 5 ≤ sec && sec < 8 then s.modNvm (fun x => { x with image := n, imageB := n })
  else if 88 ≤ sec && sec < 96 && (op = 1 || sec = s.nvm.savedIn) then
    (contactKey :: List.range 0x380).foldl (fun s k => s.modNvm (fun x => { x with saved := storeSet (fun _ => 0) x.saved k (Config.nvmField n k).toNat })) (s.modNvm (fun x => { x with image := n, savedIn := if op = 1 then sec else 0 }))
  else if (sec = 96 || sec = 97) && (op = 1 || (s.nvm.logCount ≠ 0 && sec = 97 - s.nvm.logCount % 2)) then
    (List.range 64).foldl (fun s k => s.modNvm (fun x => { x with log := storeSet (fun _ => 0) x.log k (Config.logField n k).toNat }))
      (s.modNvm (fun x => { x with image := n, logNext := (Config.logField n 64).toNat % 64, logCount := (Config.logField n 65).toNat % 65536 }))
  else s

/-- `NV_CTRL.GO` (R431): `host` is BAR0 or the management port, `lead` the supervisor that holds the token. -/
def nvmPermits (sec : Nat) (host lead : Bool) : Bool :=
  (sec < 8 && (host || lead)) || (decide (88 ≤ sec ∧ sec ≤ 97) && lead) || (decide (112 ≤ sec) && (host || lead))

def nvmGo (s : State) (op : Nat) (host lead : Bool) : State :=
  let a := s.get NV_ADDR_ADDR
  if op ≠ 1 && op ≠ 2 then s
  else if !nvmPermits (a / 4096) host lead || s.on NV_STAT_BUSY then (s.mark NV_STAT_DENIED).source 1293
  else
    let s1 := (s.recordChanged op (a / 4096)).mark NV_STAT_BUSY
    if op = 2 then (s1.eraseSector (a / 4096)).modNvm (fun x => { x with op := some (2, a) })
    else
      let r := a / 256
      s1.modNvm (fun x => { x with op := some (1, a), words := (List.range 64).foldl (fun w k => storeSet (fun _ => none) w (64 * r + k) (some (storeGet (fun _ => 0) x.row k))) x.words })

/-- NV_OP_DONE (R431). A row that failed its verify holds unknown bytes. -/
def nvmDone (s : State) (verified : Bool) : State :=
  match s.nvm.op with
  | none => s
  | some (op, a) =>
    let s1 := ((s.put NV_STAT_BUSY 0).modNvm (fun x => { x with op := none })).source 1292
    if op = 1 && !verified then ((s1.mark NV_STAT_VERIFY_ERR).source 1295).forgetRows (a / 256) 1 else s1

/-- An access of `NV_DATA` moves ADDR when AINC is set. -/
def nvmAdvance (s : State) : State := if s.on NV_ADDR_AINC then s.put NV_ADDR_ADDR (s.get NV_ADDR_ADDR + 4) else s

def nvmRead (s : State) : State × Nat :=
  let r := s.inject .nvm 0
  (r.1.nvmAdvance, (r.1.nvmWord (r.1.get NV_ADDR_ADDR / 4)).toNat)

def nvmFill (s : State) (w : Nat) : State :=
  (s.modNvm (fun x => { x with row := storeSet (fun _ => 0) x.row (s.get NV_ADDR_ADDR / 4 % 64) (BitVec.ofNat 32 w) })).nvmAdvance

/-! ### Wear saves (R357) -/

/-- Begin a save into the next sector of the rotation; one in progress goes on. -/
def startSave (s : State) : State :=
  if s.on GL_WEAR_STAT_SAVE_BUSY then s
  else
    let s1 := (s.mark GL_WEAR_STAT_SAVE_BUSY).eraseSector s.nvm.nextSave
    s1.modNvm (fun x => { x with saving := some (storeSet (fun _ => 0) s1.wear contactKey (s1.reg GL_WEAR_CONTACT).toNat) })

def nextSector (n : Nat) : Nat := if n = 95 then 88 else n + 1

/-- WEAR_SAVE_DONE (R357): a save that fails its verify is retried in the next sector. -/
def saveDone (s : State) (verified : Bool) : State :=
  match s.nvm.saving with
  | none => s
  | some c =>
    let s1 := s.modNvm (fun x => { x with nextSave := nextSector x.nextSave })
    if verified then
      let s2 := (s1.put GL_WEAR_STAT_SAVE_BUSY 0).modNvm (fun x => { x with saving := none, saved := c, savedIn := s.nvm.nextSave })
      ({ s2 with monitor := { s2.monitor with savedAt := s2.ticks } }).lifeModel
    else (s1.mark GL_WEAR_STAT_SAVE_ERR).eraseSector s1.nvm.nextSave

/-- Minutes since the last save, as shown. -/
def saveAge (s : State) : Nat := min 0xFFFF ((s.ticks - s.monitor.savedAt) / 6000000000)

/-! ### The shutdown log (R352) -/

/-- A log entry of a trip with the peak reading of its first sensor. -/
def logEntry (x : Trip) (peak seq : Nat) : Nat :=
  x.count % 2 ^ 48 + x.sensor * 2 ^ 48 + x.partner * 2 ^ 54 + peak % 2 ^ 16 * 2 ^ 64 + x.rate % 2 ^ 16 * 2 ^ 80 + seq % 2 ^ 16 * 2 ^ 96 + 2 ^ 112

/-- The log entry of a trip and a wear save are written (R351, R352). -/
def writeLog (s : State) (x : Trip) (peak : Int) : State :=
  let n := s.nvm.logCount + 1
  let k := s.nvm.logNext
  let s1 := (s.eraseSector (96 + s.nvm.logCount % 2)).modNvm (fun y => { y with log := storeSet (fun _ => 0) y.log k (logEntry x (unsigned 16 peak) n), logNext := (k + 1) % 64, logCount := n })
  let s2 := { s1 with monitor := { s1.monitor with trip := some { x with logged := true } } }
  ((s2.put GL_THERM_STAT_LOG_NEXT ((k + 1) % 64)).bump GL_THERM_STAT_LOG_COUNT).startSave

/-- SHUTDOWN_LOG (R351, R352): 50 ms after the trip its peak is fixed, and the entry is written, once. -/
def shutdownLog (s : State) (peak : Int) : State :=
  match s.monitor.trip with
  | none => s
  | some x => if x.logged then s else (s.advTo (x.tick + peakTicks)).writeLog x peak

/-- Word w of the selected log entry. -/
def logWord (s : State) (w : Nat) : Nat := word32 (storeGet (fun _ => 0) s.nvm.log (s.get GL_TLOG_IDX_ENTRY)) w

end State

end Sys2Proof.Machine
end

