-- ==== Sys2Proof/Machine/Super.lean ====
section
/-! DEFINITION. The supervisors, the lead token, mailboxes and notices (13_supervisors_events_faults.md, R393 to R403). -/

namespace Sys2Proof.Machine

/-- The supervisor a register access comes from: 0 SVN, 1 SVS (R393). -/
def supervisorOf : View → Option Nat
  | .svn => some 0
  | .svs => some 1
  | _ => none

/-- BAR0 and the management port (R397, R399). -/
def hostView : View → Bool
  | .bar0 => true
  | .msp => true
  | _ => false

/-- The user domain (R404). -/
def userView : View → Bool
  | .bar4 => true
  | .dmaUser => true
  | _ => false

/-- Ticks of 10 ms without a heartbeat (R394), and of the unit of `SV_HB.AGE`. -/
def silentTicks : Nat := 1000000
def ageTicks : Nat := 10000

/-- The answer DENIED. -/
def SvCmd.denied (c : SvCmd) : SvCmd := { c with status := some 3 }

/-- R1 of a command's response (R402): what the part fixes, or the firmware's value within its limit. -/
def SvCmd.answer (c : SvCmd) (value : Nat) : Nat := c.value.getD (min value (c.limit.getD value))

namespace State

/-- A notice of supervisor d (R403): lost if its queue has no room. -/
def svNotice (s : State) (d ev : Nat) : State := (s.postNotice (s.get SV_CTRL_HMQ) (4 * 2 ^ 27 + d * 2 ^ 26 + ev) (s.count.toNat % 2 ^ 31)).1

/-- Supervisor d holds the lead token (R396). -/
def leads (s : State) (d : Nat) : Bool := s.get SV_LEAD_HOLDER = d + 1

/-! ### The lead token -/

/-- A lead-only write without the token (R398). -/
def leadConflict (s : State) (d : Nat) : State := ((s.mark SV_LEAD_CONFLICT).put SV_LEAD_CULPRIT (d + 1)).raiseLine 183

/-- CLAIM (R396). -/
def leadClaim (s : State) (d : Nat) : State :=
  if s.get SV_LEAD_HOLDER = 0 && !s.on SV_LEAD_CONFLICT then (s.put SV_LEAD_HOLDER (d + 1)).svNotice d 1 else s

/-- TAKEOVER (R400). -/
def leadTakeover (s : State) (d : Nat) : State :=
  if s.leads (1 - d) && s.on (svSilent (1 - d)) && !s.on SV_LEAD_CONFLICT && !s.on (svSilent d) && s.get (svState d) ≠ 2 then
    (((s.put SV_LEAD_HOLDER (d + 1)).bump SV_LEAD_TAKEOVERS).source 1288).svNotice d 2
  else s

/-- `SV_LEAD_SET` with GO (R399). -/
def leadSet (s : State) (holder : Nat) : State :=
  if holder = 3 then s else ((s.put SV_LEAD_HOLDER holder).put SV_LEAD_CONFLICT 0).put SV_LEAD_CULPRIT 0

/-! ### Domains (R395) -/

/-- The calibration runs of domain d end as by ABORT, the strips stay DUE. -/
def abandonDomain (s : State) (d : Nat) : State := (List.range 4).foldl (fun s k => s.abandonRun (4 * d + k) true) s

/-- Domain d is served by nobody and its own supervisor is SILENT or restarting: the other adopts it if it may. -/
def adopt (s : State) (d : Nat) : State :=
  let o := 1 - d
  if (s.on (svSilent d) || s.get (svState d) = 0) && !s.fbit (svDoms d) d && !s.fbit (svDoms o) d && !s.on (svSilent o) && s.get (svState o) ≠ 2 then
    ((s.putBit (svDoms o) d true).abandonDomain d).svNotice o 3
  else s

def adoptBoth (s : State) : State := (s.adopt 0).adopt 1

/-- A supervisor gives up what it serves. -/
def giveUp (s : State) (d : Nat) : State := (s.put (svDoms d) 0).adoptBoth

/-- Supervisor d takes its own domain back. -/
def takeBack (s : State) (d : Nat) : State :=
  if s.fbit (svDoms d) d then s
  else
    let had := s.fbit (svDoms (1 - d)) d
    let s1 := (s.putBit (svDoms (1 - d)) d false).putBit (svDoms d) d true
    (if had then s1.abandonDomain d else s1).svNotice d 4

/-! ### Traps and restarts (R398, R399) -/

def svTrap (s : State) (d : Nat) : State := if s.get (svState d) = 1 then ((s.put (svState d) 2).source 1290).svNotice d 5 else s

def svRelease (s : State) (d : Nat) : State := if s.get (svState d) = 2 then ((s.put (svState d) 1).svNotice d 6).adoptBoth else s

/-- Firmware restart: the supervisor boots again; the command it was serving is forgotten. -/
def svRestart (s : State) (d : Nat) : State :=
  (((s.put (svState d) 0).put (SV_MBX_STAT_BUSY d) 0).setSv d { s.sv d with cmd := none }).giveUp d

/-! ### Services (R401, R402) -/

/-- Load the default image into the sheaves of a mask whose threshers are both STOPPED (R252); the others set REFUSED. -/
def loadDefault (s : State) (u : Nat) : State × Bool :=
  if s.thState (2 * u) = 0 && s.thState (2 * u + 1) = 0 then
    let s1 := s.setSheaf u { s.sheaf u with words := [], builtin := true }
    ((((s1.put (SH_UC_VERSION_SRC u) 1).put (SH_UC_VERSION_VERSION u) (Config.defaultVersion.toNat / 2 ^ 16)).put (SH_UC_VERSION_HASH u) (Config.defaultVersion.toNat % 2 ^ 16)).put (SH_UCS_CTRL_LOAD_EN u) 0, true)
  else (s.mark (SH_UCS_CTRL_REFUSED u), false)

def loadMask (s : State) (mask : Nat) : State × Nat :=
  (List.range 16).foldl (fun r u => if mask.testBit u then ((r.1.loadDefault u).1, if (r.1.loadDefault u).2 then r.2 + 2 ^ u else r.2) else r) (s, 0)

/-- Strip r is in the domain supervisor d serves. -/
def serves (s : State) (d r : Nat) : Bool := s.fbit (svDoms d) (r / 4)

/-- RUN_NOW for each masked strip the supervisor serves; the mask of those made DUE (R335, R402). -/
def runMask (s : State) (d mask : Nat) : State × Nat :=
  (List.range 8).foldl (fun x r => if mask.testBit r && s.serves d r then (x.1.runNow r, if s.on (ST_CAL_CTRL_EN r) then x.2 + 2 ^ r else x.2) else x) (s, 0)

/-- The SEQ service (R443) sets an output's EN: an output whose source or code has been set. -/
def seqWants (s : State) (t h : Nat) : Bool := s.get (TL_SUP_CTRL_SRC t h) ≠ 0 || s.get (TL_SUP_CODE_CODE t h) ≠ s.zeroCode t h

def seqUp (s : State) (t : Nat) : State :=
  (List.range 2).foldl (fun s h => if s.seqWants t h then s.requestEnable t h else s) s

/-- Taking an output down; the current it carries is not known to the part (log entry 6). -/
def seqDown (s : State) (t : Nat) : State :=
  (List.range 2).foldl (fun s h => if s.on (TL_SUP_CTRL_EN t h) then s.draw.disableOutput t h (Config.loadCurrent s.draws) else s) s

def seqMask (s : State) (mask : Nat) (up : Bool) : State :=
  (List.range 8).foldl (fun s r => if mask.testBit r then (if up then (stripTillers r).foldl seqUp s else (stripTillers r).reverse.foldl seqDown s) else s) s

/-- Firmware uptime in ms, saturating in 31 bits. -/
def uptime (s : State) (d : Nat) : Nat := min ((s.ticks - (s.sv d).started) / 100000) (2 ^ 31 - 1)

/-- Tillers of the mask that ARG0 and ARG1 of supervisor d hold (R402). -/
def argTillers (s : State) (d : Nat) : List Nat := allTillers.filter (fun t => (s.reg (SV_ARG d (t / 32))).toNat.testBit (t % 32))

/-- The supervisor acts on its command: statuses 1 BAD_CODE and 3 DENIED, and values the part itself fixes; the rest of the answer
is the firmware's. SELFCHECK, whose loopback check the part's rules do not describe, counts at most the masked tillers that are IDLE or
HALTED. -/
def serve (s : State) (d : Nat) (c : SvCmd) : State × SvCmd :=
  let a := (s.reg (SV_ARG d 0)).toNat
  if s.get (svState d) = 2 && c.code ≠ 1 && c.code ≠ 2 then (s, c.denied)
  else match c.code with
    | 1 => (s, { c with status := some 0, value := some (s.uptime d) })
    | 2 => (s, { c with status := some 0 })
    | 3 => if s.leads d then ((s.loadMask a).1, { c with value := some (s.loadMask a).2 }) else (s, c.denied)
    | 4 =>
      if a % 256 ≠ 0 && !(List.range 8).any (fun r => a.testBit r && s.serves d r) then (s, c.denied)
      else ((s.runMask d (a % 256)).1, { c with value := some (s.runMask d (a % 256)).2 })
    | 5 => if s.leads d then (s.startSave, { c with value := some 0 }) else (s, c.denied)
    | 6 =>
      if (List.range 8).any (fun r => a.testBit r && !s.serves d r) then (s, c.denied)
      else if 1 < (s.reg (SV_ARG d 1)).toNat then (s, c)
      else (s.seqMask (a % 256) ((s.reg (SV_ARG d 1)).toNat = 1), { c with value := some (a % 256) })
    | 7 =>
      if (s.argTillers d).any (fun t => !s.serves d (rowOf t)) then (s, c.denied)
      else (s, { c with limit := some ((s.argTillers d).countP (fun t => decide (s.engine t = 0 ∨ s.engine t = 4))) })
    | _ => (s, { c with status := some 1 })

/-- The pending command is taken up. -/
def serveNow (s : State) (d : Nat) : State :=
  match (s.sv d).cmd with
  | none => s
  | some c =>
    let r := s.serve d c
    r.1.setSv d { r.1.sv d with cmd := some r.2 }

/-- `SV_CMD` with GO (R401): while the firmware is not up the command waits. -/
def svCommand (s : State) (d code tag_ : Nat) : State :=
  if s.on (SV_MBX_STAT_BUSY d) then s.mark (SV_MBX_STAT_CMD_REJ d)
  else
    let s1 := (s.mark (SV_MBX_STAT_BUSY d)).setSv d { s.sv d with cmd := some ⟨code, tag_, none, none, none⟩ }
    if s.get (svState d) = 1 || s.get (svState d) = 2 then s1.serveNow d else s1

/-- SV_RESPONSE (R402): the response enters the queue whole, and waits while the queue has no room. -/
def svResponse (s : State) (d status value : Nat) : State :=
  let x := s.sv d
  match x.cmd with
  | none => s
  | some c =>
    if !(s.get (svState d) = 1 || s.get (svState d) = 2) || 62 < x.mbx.length then s
    else
      let r0 := c.tag * 2 ^ 16 + c.code * 2 ^ 8 + c.status.getD status
      ((s.setSv d { x with cmd := none, mbx := x.mbx ++ [r0, c.answer value] }).put (SV_MBX_STAT_BUSY d) 0).source 1291

/-- A read of `SV_MBX_RD` (R229). -/
def mbxPop (s : State) (d : Nat) : State × Nat :=
  match (s.sv d).mbx with
  | [] => (s, notValid)
  | w :: r => (s.setSv d { s.sv d with mbx := r }, w)

/-! ### Heartbeats (R394, R395) -/

/-- A write of `SV_HB` by the named supervisor. The firmware of one that is booting has started when it first writes. -/
def heartbeat (s : State) (d : Nat) : State :=
  let s1 := (s.put (svSilent d) 0).setSv d { s.sv d with hbAt := s.ticks }
  let s2 := if s1.get (svState d) = 0 && s1.on GL_BOOT_STAT_DONE then
      ((s1.put (svState d) 1).setSv d { s1.sv d with started := s1.ticks }).serveNow d
    else s1
  if s2.get (svState d) = 1 then (s2.takeBack d).adoptBoth else s2.adoptBoth

/-- The age of the last heartbeat, as shown. -/
def hbAge (s : State) (d : Nat) : Nat := min ((s.ticks - (s.sv d).hbAt) / ageTicks) 0xFFFF

/-- SUPERVISOR_SILENT (R394): the age reaches 10 ms. -/
def svGoesSilent (s0 : State) (d : Nat) : State :=
  let s := s0.advTo ((s0.sv d).hbAt + silentTicks)
  if s.on (svSilent d) then s else ((s.mark (svSilent d)).source 1289).giveUp d

end State

end Sys2Proof.Machine
end

