-- ==== Sys2Proof/Machine/Reset.lean ====
section
/-! DEFINITION. Block resets and chip reset (01_two_hierarchies.md, R18 to R21; 14_power_package_bringup.md, R447, R448). -/

namespace Sys2Proof.Machine

/-- An address lies in n bytes from b. -/
def within (a b n : Nat) : Bool := decide (b ≤ a ∧ a < b + n)

/-- Registers of a tiller's block, pins included, that a tiller reset returns to their Reset values: not the trace registers
(R93), `TL_RESULT` (R137), the energy ceilings (R279). -/
def tillerReg (t a : Nat) : Bool :=
  within a (tlBase t) 0x1000 && !within a (TL_TRACE_CTRL t) 0x18 && !(a = TL_RESULT t) && !(a = TL_SUP_ECEIL t 0) && !(a = TL_SUP_ECEIL t 1)

/-- Registers of a sheaf's block that a sheaf reset returns to their Reset values: not `SH_UC_VERSION`, not the entry points. -/
def sheafReg (u a : Nat) : Bool :=
  within a (shBase u) 0x1000 && !(a = SH_UC_VERSION u) && !within a (TH_ENTRY (2 * u) 0) 20 && !within a (TH_ENTRY (2 * u + 1) 0) 20

/-- Register space that keeps its contents over a chip reset: the always-on registers (R52, R353, R394, R396, R406, R419, R422,
R441, R447). -/
def alwaysOn (a : Nat) : Bool :=
  a = GL_RST_CAUSE || a = GL_RST_STAT || a = GL_PWR_CTRL || a = GL_PWR_STAT || a = 0x418 || a = 0x41C || within a 0x1000 20 || within a 0x2000 24
    || within a 0x3020 12 || a = FC_ALIVE || within a 0x4000 0x1000 || a = MSP_STATUS || within a 0xA000 0x28

namespace State

/-! ### Pin, tiller, sheaf and strip -/

/-- What a block reset leaves of a pin beside its registers. -/
def freshPin (s : State) (g : Nat) : Pin := { Pin.reset with lowSince := some ((s.pin g).lowSince.getD s.ticks) }

/-- Registers of a pin, and of a tiller with its pins, that hold NVM fields (R8). -/
def pinSafeRegs (g : Nat) : List Nat := PN_PPMU_FORCE g :: (List.range 7).map (PN_LVL g)
def tillerSafeRegs (t : Nat) : List Nat :=
  (tillerPins t).flatMap pinSafeRegs ++ (List.range 2).flatMap (fun h => [TL_SUP_CTRL t h, TL_SUP_CODE t h, TL_SUP_VLIM t h])

/-- A tiller's NVM fields are loaded (R8, R298): the code of an output enters its chain. -/
def loadTiller (s : State) (t : Nat) : State :=
  if s.nvm.loaded = 0 then s
  else (List.range 2).foldl (fun s h => (s.setSup t h { s.sup t h with codeIn := s.get (TL_SUP_CODE_CODE t h) }).runChain t h |>.1) (s.loadSafe (tillerSafeRegs t))

/-- A pin after a reset of its own: the past that strobes already taken may still need is kept (R173), with the reset as its newest
change; latches record from it on. -/
def restartPin (s before : State) (g : Nat) : Pin :=
  let x := (before.pin g).runTo before.now true
  let o := before.above g
  let n := s.above g
  { before.freshPin g with
    history := ⟨before.now, n.1, n.2⟩ :: (if x.history.isEmpty then [⟨0, o.1, o.2⟩] else x.history)
    wave := (before.now, false, .vil) :: x.wave ++ (if (before.pin g).wave.isEmpty then [(0, (before.pin g).enable, (before.pin g).sel)] else [])
    strobes := x.strobes, hiFrom := before.now, loFrom := before.now }

/-- Pin reset (R19): driver inhibited, latches cleared, pending strobes discarded (R175). A calibration run of the strip is abandoned
(R21). -/
def pinReset (s : State) (g : Nat) : State :=
  let s1 := (s.abandonRun (g / 64) true).pinSafe g s.now
  let s2 := (s1.clearRegs (fun a => within a (pnBase g) 0x100)).loadSafe (pinSafeRegs g)
  (s2.setPin g (s2.restartPin s1 g)).drainAll (g / 8)

/-- The result of a tiller that a reset reaches (R19, R137): complete and INVALID if it was running, marked INVALID otherwise. -/
def resetResult (s : State) (t : Nat) : State :=
  if s.active t then ((s.leaveRendezvous t).tag t 30).completeResult t else (s.leaveRendezvous t).invalidate t

/-- Everything of a tiller beside its registers starts afresh: trace and deskew cache are kept (R93, R18), so is a switch that is
pending, which the idle tiller takes (R334). -/
def freshTiller (s : State) (t : Nat) : State :=
  let x := s.tl t
  let s1 := s.setTl t { Tiller.reset with trace := x.trace, traceLen := x.traceLen, deskew := x.deskew, switchFrom := x.switchFrom, thermal := x.thermal }
  let s2 := ((((s1.setCmp t Compare.reset).setCap t Capture.reset).setLvl t Levels.reset).setStrm t Stream.reset).setTdc t Tdc.reset
  let s3 := (([TL_VIDX_LO t, TL_TDC_LAST_LO t, TL_TDC_MEAN_LO t, TL_ADC_SUM_LO t, TL_ADC_RES_LO t].foldl freeLatch s2).setSup t 0 { Supply.reset with disAt := (s.sup t 0).disAt } |>.setSup t 1 { Supply.reset with disAt := (s.sup t 1).disAt }).setAdc t { Adc.reset with refAt := (s.adc t).refAt, sliceAt := (s.adc t).sliceAt }
  (tillerPins t).foldl (fun s g => s.setPin g (s.freshPin g)) (s3.setFq t FailFifo.reset)

/-- Reset of one tiller and its pins (R19, R40, R49, R110, R118, R214, R250, R279, R298, R323). -/
def tillerReset (s : State) (t : Nat) : State :=
  let s1 := ((s.abandonRun (rowOf t) true).resetResult t).outputsSafe t s.now
  let on := s1.refOn t
  let s2 := (s1.fifoEmpty t).routeBoundary t
  let s3 := ((s2.clearRegs (fun a => tillerReg t a || a = GL_PIN_LPBK t)).freshTiller t).loadTiller t
  let s4 := ((s3.put (lateBit t) 0).joinEpochs t).afterRef t on
  let s5 := (s4.putBit (ST_RISE_STAT_PAUSE_PEND (rowOf t)) (colOf t) false).putBit (ST_RISE_STAT_PAUSED (rowOf t)) (colOf t) false
  let s6 := (s5.putBit (waitBit t 0) (colOf t) false).putBit (waitBit t 1) (colOf t) false
  (s6.resetInThreshers t).safePoint t

/-- A thresher's posted writes complete; what it was doing is gone (R19, R240). -/
def threshReset (s : State) (i : Nat) : State :=
  let land (s : State) : Posted → State
    | .line l d p _ => s.memPut (64 * l) (bytesLE 64 d) p
    | .ring l d _ => s.memPut (64 * l) (bytesLE 64 d) false
    | _ => s
  ((s.thr i).posted.foldl land s).setThr i Thresher.reset

/-- Sheaf reset (R19): the context slice is cleared, the crossbar returns to R14, the control store stays. -/
def sheafReset (s : State) (u : Nat) : State :=
  let s1 := ((s.threshReset (2 * u)).threshReset (2 * u + 1)).clearRegs (sheafReg u)
  let mine (a : Nat) : Bool := within a (ctxBase u) 0x40000
  let s2 := { s1 with mem := storeKeep (fun a => !mine a) s1.mem, uncorr := s1.uncorr.filter (fun a => !mine a), single := s1.single.filter (fun a => !mine a) }
  (sheafTillers u).foldl (fun s t => s.setRoute t (Route.reset t)) (s2.setSheaf u { s2.sheaf u with data := [], served0 := 3, served1 := 3 })

/-- The strip's event latches and enables, which lie in the words of all sources (R413). -/
def clearStripEvents (s : State) (r : Nat) : State :=
  (List.range 11).foldl (fun s k => (s.putBit (EV_PEND_PEND ((1152 + 11 * r + k) / 32)) ((1152 + 11 * r + k) % 32) false).putBit (EV_ENA_ENA ((1152 + 11 * r + k) / 32)) ((1152 + 11 * r + k) % 32) false) s

/-- Registers that a strip reset reaches in the strip's block (R19, R23): thermal, sequencing, event segment; not the calibration. -/
def stripReg (r a : Nat) : Bool := within a (stBase r) 0x400 || within a (stBase r + 0x1000) 0x1000

/-- Strip reset (R19): its tillers, its thermal, sequencing and event registers. BROKEN marks are kept (R328); so are calibration
registers, coefficients and deskew tables (R18), a switch that CAL_HOLD keeps pending, the corrections in force, and the samples of T
that tell a first one (R330). The band starts again at 0 and follows T with its hysteresis. DESIGN CHOICE: a run that the reset abandons
raises ABANDON (R342) before the event latches are reset, so that no latch of the strip shows it afterwards (log entry 42). -/
def stripReset (s : State) (r : Nat) : State :=
  let s1 := (stripTillers r).foldl tillerReset (s.abandonRun r true)
  let broken (k : Nat) : Bool := s1.on (ST_TEMP_BROKEN r k)
  let s2 := s1.clearRegs (stripReg r)
  let s3 := (List.range 4).foldl (fun s k => if broken k then s.mark (ST_TEMP_BROKEN r k) else s) s2
  let s4 := (s3.clearStripEvents r).setStrip r { s3.strip r with wrong := [], reacted := false, below := 0 }
  let s5 := { s4 with lastAdmit := storeSet (fun _ => none) s4.lastAdmit r none }
  (stripTillers r).foldl (fun s t => s.modTl t (fun x => { x with thermal := false })) s5

/-! ### Chip -/

/-- The bit of a reset source in `GL_RST_CAUSE.SRC` (R447). -/
def causeBit (code : Nat) : Nat := 2 ^ (code - 1)

/-- The core domain is as after power-up: DRAM keeps its contents (R19), so do the count and the lock state (R30), the router
(R406), wear (R354), and the registers `keep` names. -/
def freshCore (s : State) (keep : Nat → Bool) : State :=
  let dram (a : Nat) : Bool := regionOf a = .dram
  let s1 : State := { State.reset with pending := s.pending, regs := storeKeep keep s.regs, mem := storeKeep dram s.mem, uncorr := s.uncorr.filter dram, single := s.single.filter dram, ticks := s.ticks, count := s.count, sync := s.sync }
  let s2 : State := { s1 with hostOut := s.hostOut, linkOut := s.linkOut, rdData := s.rdData, rdPoison := s.rdPoison, draws := s.draws, firings := s.firings, chans := s.chans, wear := s.wear, monitor := s.monitor }
  let s3 : State := { s2 with nvm := { s.nvm with op := none, row := [], loaded := 0 }, msp := { Msp.reset with flash := s.msp.flash, marker := s.msp.marker }, collector := { s.collector with snapshot := Collector.reset.snapshot, waiting := [] }, svs := (List.range 2).foldl (fun m d => storeSet (fun _ => Supervisor.reset) m d { Supervisor.reset with hbAt := (s.sv d).hbAt }) [], power := { s.power with released := false, flashTried := false } }
  (allTillers.foldl (fun q t => (List.range 2).foldl (fun q h =>
    if (s.sup t h).disAt.isNone && !s.supOn t h then q else q.setSup t h { Supply.reset with disAt := if s.supOn t h then some s.ticks else (s.sup t h).disAt }) q) s3).put GL_RST_STAT_REGS_READY 0

/-- Ticks of 10 µs from a cause of chip reset to the release of the internal reset (R448). -/
def releaseTicks : Nat := 1000

/-- A chip reset (R447, R448) for a cause: outputs that were on are switched off (R272), the token returns to NONE (R396), ALIVE stops (R420); the fault first latched is kept
(R419); the Genhar ports train anew if VAUX and VCORE are up (R452). Of two sources at one tick CODE shows the lower. -/
def chipReset (s : State) (code : Nat) : State :=
  let shown := if s.power.resetAt = some s.ticks then min code (s.get GL_RST_STAT_CODE) else code
  let s1 := (allTillers.foldl (fun q t => (q.dropOutput t 0).dropOutput t 1) s).freshCore alwaysOn
  let s2 : State := { s1 with collector := { s1.collector with level := false }, power := { s1.power with resetAt := some s.ticks, dueAt := s.ticks + releaseTicks } }
  let s3 := (s2.put GL_RST_CAUSE_SRC (s2.get GL_RST_CAUSE_SRC ||| causeBit code)).put GL_RST_STAT_CODE shown
  let s4 := (s3.put FC_ALIVE_RUNNING 0).put SV_LEAD_HOLDER 0
  if s4.fbit GL_PWR_STAT_PG 0 && s4.fbit GL_PWR_STAT_PG 1 then s4.trainPorts else s4

/-! ### The reset unit (R20) -/

/-- How many units a scope has (R19). -/
def scopeUnits (scope : Nat) : Nat := match scope with
  | 0 => 512 | 1 => 64 | 2 => 16 | _ => 8

/-- The tillers a scope must find stopped (R19). -/
def scopeTillers (scope index : Nat) : List Nat := match scope with
  | 0 => [index / 8]
  | 2 => sheafTillers index
  | _ => []

/-- Scope a lies inside scope b. -/
def insideScope (a b : Nat × Nat) : Bool :=
  a = b || (a.1 = 0 && b.1 = 1 && a.2 / 8 = b.2) || (a.1 = 0 && b.1 = 3 && a.2 / 64 = b.2) || (a.1 = 1 && b.1 = 3 && a.2 / 8 = b.2)

/-- The reset acts; `fault` tells that a reaction of the fault collector requested it. -/
def startReset (s : State) (scope index : Nat) (fault : Bool) : State :=
  let s1 := match scope with
    | 0 => s.pinReset index
    | 1 => s.tillerReset index
    | 2 => s.sheafReset index
    | _ => s.stripReset index
  { s1 with resets := { s1.resets with busy := some (scope, index), at_ := s1.ticks, byFault := fault } }.mark GL_BLK_RST_STAT_BUSY

/-- The outcome of a request, in `GL_BLK_RST_STAT.RESULT`. -/
def resetOutcome (s : State) (n : Nat) : State := s.put GL_BLK_RST_STAT_RESULT n

/-- A request of the reset unit below chip scope (R19, R20); the outcome is 0 when it runs or waits, 4 when it is absorbed, and a
refusal otherwise. A reaction and a register request that name one scope in one cycle make one reset, whether it runs or is held, and
both are accepted (DESIGN CHOICE: the cycle is the model's tick). DESIGN CHOICE: a request that both fails its precondition and meets a held request
is refused with RST_BUSY (log entry 42). -/
def requestReset (s : State) (scope index : Nat) (fault : Bool) : State × Nat :=
  let refuse (n : Nat) : State × Nat := (s.resetOutcome n, n)
  let accepted := (s.wrapUp GL_BLK_RST_STAT_SEQ).resetOutcome 0
  if 4 ≤ scope then refuse 2
  else if scopeUnits scope ≤ index then refuse 3
  else match s.resets.busy with
    | none => if (scopeTillers scope index).any s.active then refuse 1 else (accepted.startReset scope index fault, 0)
    | some b =>
      if b = (scope, index) && s.resets.at_ = s.ticks && s.resets.byFault != fault then (accepted, 0) else
      if s.resets.pend = some (scope, index) && s.resets.pendAt = s.ticks && s.resets.pendByFault != fault then (accepted, 0) else
      if insideScope (scope, index) b then (((s.wrapUp GL_BLK_RST_STAT_SEQ).resetOutcome 4).bump GL_BLK_RST_STAT_MERGE_CNT, 4)
      else if (scopeTillers scope index).any s.active then refuse 1
      else if s.resets.pend.isSome then refuse 5
      else if insideScope b (scope, index) then (accepted.startReset scope index fault, 0)
      else ({ accepted with resets := { accepted.resets with pend := some (scope, index), pendAt := s.ticks, pendByFault := fault } }.mark GL_BLK_RST_STAT_PEND, 0)

/-- `GL_BLK_RST` with GO: chip scope resets the part, these registers with it, unless a request is held (R20). -/
def blockReset (s : State) (scope index : Nat) : State :=
  if scope ≠ 4 then (s.requestReset scope index false).1
  else if s.resets.pend.isSome then s.resetOutcome 5
  else s.chipReset 7

/-- BLOCK_RESET_DONE (R19, R20): the reset completes, and the pending request runs if its precondition holds now. -/
def blockResetDone (s : State) : State :=
  if s.resets.busy.isNone then s
  else
    let s1 := { s with resets := Resets.reset }.put GL_BLK_RST_STAT_BUSY 0
    match s.resets.pend with
    | none => s1
    | some (scope, index) =>
      let s2 := s1.put GL_BLK_RST_STAT_PEND 0
      if (scopeTillers scope index).any s2.active then s2.resetOutcome 1 else s2.startReset scope index false

end State

end Sys2Proof.Machine
end

