-- ==== Sys2Proof/Machine/Power.lean ====
section
/-! DEFINITION. Power sequencing, deep sleep, chip reset release and thermal shutdown (14_power_package_bringup.md, R438 to R442,
R447, R448; 11_calibration_heat_and_wear.md, R347, R351, R353). -/

namespace Sys2Proof.Machine

/-- Registers that stay powered without the core: the always-on ones, the sensor readings with their BROKEN marks (R351, R441), and
in deep sleep the pin blocks, whose WATCH comparators go on (R189, R441). -/
def stillPowered (asleep : Bool) (a : Nat) : Bool :=
  alwaysOn a || (within a 0x10000 0x10000 && decide (a % 0x2000 < 0x10)) || within a (GL_TEMP_SV 0) 8 || (asleep && within a 0x40000 0x40000 && decide (0x800 ≤ a % 0x1000))

/-- Key of CMD OFF and SLEEP, and of `GL_THERM_CLR` (R353). -/
def powerKey : Nat := 0x50FF
def thermKey : Nat := 0x0C1E

/-- Ticks between steps, of the wait for a PG, from PG_RAW to the release of chip reset, from the safe state to the first REG_EN that falls
(R438 to R440), from a trip to SHUTDOWN (R351), between periodic wear saves (R357). -/
def railTicks : Nat := 100000
def pgTicks : Nat := 1000000
def rawTicks : Nat := 10000
def safeTicks : Nat := 10000
def tripTicks : Nat := 10000
def saveTicks : Nat := 60000000000

namespace State

def powerState (s : State) : Nat := s.get GL_PWR_STAT_STATE
def modPower (s : State) (f : Power → Power) : State := { s with power := f s.power }

/-- Step of the sequence whose REG_EN rose last, 0 if none is high. -/
def topStep (s : State) : Nat := ((List.range 6).reverse.find? (fun k => s.fbit GL_PWR_STAT_REG_EN k)).elim 0 (· + 1)

/-- Power-up from step 1 as a chip reset of a source (R447). -/
def powerUp (s : State) (code : Nat) : State :=
  let s1 := (s.chipReset code).modPower (fun p => { p with wake := false, afterSave := none, dueAt := s.ticks + pgTicks })
  ((s1.put GL_PWR_STAT_STATE 1).put GL_PWR_STAT_REG_EN 1).put GL_PWR_STAT_PG 0

/-- A thermal trip governs every other sequence until its own rails-off (R440). -/
def tripped (s : State) : Bool := s.monitor.trip.isSome && !s.on GL_THERM_STAT_SHUTDOWN

/-- A power-down begins (R440): every tiller stops, its result INVALID, pins and outputs safe. `goal` is the state at its end. -/
def startPowerDown (s : State) (goal : Nat) : State :=
  ((allTillers.foldl shutStop s).put GL_PWR_STAT_STATE 3).modPower (fun p => { p with goal := goal, afterSave := none, dueAt := s.ticks + safeTicks })

/-- A power failure of a step (R439). -/
def powerFail (s : State) (step : Nat) : State :=
  (((s.mark GL_PWR_STAT_PWR_FAIL).put GL_PWR_STAT_FAIL_STEP step).startPowerDown 0).modPower (fun p => { p with failAt := some s.ticks })

/-- POWER_STEP_START (R438): 1 ms after a PG has been accepted the next REG_EN rises. -/
def powerStepStart (s : State) : State :=
  let k := s.topStep
  if s.powerState = 1 && !s.tripped && 0 < k && k < 6 && s.fbit GL_PWR_STAT_PG (k - 1) then
    let s1 := s.advTo s.power.dueAt
    (s1.putBit GL_PWR_STAT_REG_EN k true).modPower (fun p => { p with dueAt := s1.ticks + pgTicks })
  else s

/-- POWER_STEP_DONE (R438): a PG is accepted, not later than 10 ms after its REG_EN. With VCORE the clock PLL starts and the Genhar ports
train (R452); after the last one chip reset is released 100 µs later. -/
def powerStepDone (s : State) : State :=
  let k := s.topStep
  if s.powerState = 1 && !s.tripped && 0 < k && !s.fbit GL_PWR_STAT_PG (k - 1) && decide (s.ticks ≤ s.power.dueAt) then
    let s1 := (s.putBit GL_PWR_STAT_PG (k - 1) true).modPower (fun p => { p with dueAt := s.ticks + (if k = 6 then rawTicks else railTicks) })
    if k = 6 then s1.put GL_PWR_STAT_STATE 2 else if k = 2 then (s1.modPower (fun p => { p with pll := true })).trainPorts else s1
  else s

/-- PG_TIMEOUT (10 ms after the REG_EN), PG_FALL (R439): ignored in a power-down; of several PGs that fall in one cycle, which the model takes to be one tick,
the lowest step is recorded. -/
def pgTimeout (s : State) : State :=
  let k := s.topStep
  if s.powerState = 1 && !s.tripped && 0 < k && !s.fbit GL_PWR_STAT_PG (k - 1) then (s.advTo s.power.dueAt).powerFail k else s

def pgFall (s : State) (step : Nat) : State :=
  if s.tripped then s
  else if (s.powerState = 1 || s.powerState = 2) && s.fbit GL_PWR_STAT_REG_EN (step - 1) && s.fbit GL_PWR_STAT_PG (step - 1) then
    (s.putBit GL_PWR_STAT_PG (step - 1) false).powerFail step
  else if s.powerState = 3 && s.power.failAt = some s.ticks && s.fbit GL_PWR_STAT_REG_EN (step - 1) && s.fbit GL_PWR_STAT_PG (step - 1) then
    s.put GL_PWR_STAT_FAIL_STEP (min step (s.get GL_PWR_STAT_FAIL_STEP))
  else s

/-- VMEM falls: DRAM is lost. -/
def loseDram (s : State) : State :=
  let dram (a : Nat) : Bool := regionOf a = .dram
  let s1 : State := { s with mem := storeKeep (fun a => !dram a) s.mem, uncorr := s.uncorr.filter (fun a => !dram a), single := s.single.filter (fun a => !dram a), power := { s.power with memW := false, memE := false } }
  (s1.put GL_MEM_STAT_W_READY 0).put GL_MEM_STAT_E_READY 0

/-- Step k of the power-up sequence is undone (R440): step 3 loses DRAM; step 2 loses the core and its clocks, deep sleep keeping the pins. -/
def railDown (s : State) (k : Nat) : State :=
  let s1 := if k = 0 then s else (s.putBit GL_PWR_STAT_REG_EN (k - 1) false).putBit GL_PWR_STAT_PG (k - 1) false
  if k = 3 then s1.loseDram
  else if k = 2 then
    let s2 := s1.freshCore (stillPowered (s1.power.goal == 4))
    (if s1.power.goal = 4 then { s2 with pins := s1.pins } else s2).modPower (fun p => { p with pll := false })
  else s1

/-- POWER_DOWN_STEP (R440): the next REG_EN falls, 100 µs after the safe state and then 1 ms apart; after the last the part is off, asleep or shut down, and a held wake request starts
the power-up (R442). -/
def powerDownStep (s0 : State) : State :=
  if s0.powerState ≠ 3 || s0.tripped then s0
  else
    let a := s0.advTo s0.power.dueAt
    let s := a.modPower (fun p => { p with dueAt := a.ticks + railTicks })
    let s3 := s.railDown s.topStep
    if 1 < s.topStep then s3
    else
      let s4 := s3.put GL_PWR_STAT_STATE s3.power.goal
      if s4.power.goal = 4 && s4.power.wake then s4.powerUp 4 else s4

/-- The part is on its way into deep sleep. -/
def fallingAsleep (s : State) : Bool := s.powerState = 3 && s.power.goal = 4

/-- Deep sleep ends for a wake request (R442). -/
def wakeUp (s : State) : State :=
  if s.monitor.trip.isSome then s else if s.powerState = 4 then s.powerUp 4 else if s.fallingAsleep then s.modPower (fun p => { p with wake := true }) else s

/-- A delivery to a wake input in deep sleep. -/
def wakeIfAsked (s : State) : State := if s.powerState = 4 && s.power.wake && s.monitor.trip.isNone then s.powerUp 4 else s

/-- Every tiller stopped, every output off (R441). -/
def maySleep (s : State) : Bool :=
  allTillers.all (fun t => !s.active t && !s.on (TL_SUP_CTRL_EN t 0) && !s.on (TL_SUP_CTRL_EN t 1))

/-- `GL_PWR_CTRL` with GO: CMD ON and WAKE from the management port only (R439 to R442). -/
def powerCommand (s : State) (msp : Bool) (cmd key : Nat) : State :=
  let free := s.powerState = 2 && key = powerKey && s.power.afterSave.isNone && s.monitor.trip.isNone
  if cmd = 1 && msp && s.powerState = 0 then s.powerUp 3
  else if cmd = 2 && free then s.startSave.modPower (fun p => { p with afterSave := some 0 })
  else if cmd = 3 && free && s.maySleep then s.startSave.modPower (fun p => { p with afterSave := some 4 })
  else if cmd = 4 && msp && s.monitor.trip.isNone && (s.powerState = 4 || s.fallingAsleep) then s.wakeUp
  else s.mark GL_PWR_STAT_CMD_REJ

/-- WEAR_SAVE_DONE (R357): a power-down that waits for the save goes on (R440, R441). -/
def saveEnds (s : State) (verified : Bool) : State :=
  let s1 := s.saveDone verified
  match s1.power.afterSave with
  | some g => if !s1.on GL_WEAR_STAT_SAVE_BUSY && s1.powerState = 2 && s1.monitor.trip.isNone then s1.startPowerDown g else s1
  | none => s1

/-- RST_N low for 1 µs (R442, R447), and its rise. -/
def resetPinLow (s0 : State) : State :=
  let s := s0.modPower (fun p => { p with rstLow := true })
  if s.powerState = 2 then s.chipReset 5 else s.wakeUp

def resetPinHigh (s : State) : State := s.modPower (fun p => { p with rstLow := false })

/-- CHIP_RESET_RELEASE (R447, R448): 10 µs after the cause, or 100 µs after PG_RAW (R438). -/
def chipResetRelease (s : State) : State :=
  if s.powerState = 2 && !s.power.rstLow && !s.power.released then
    (s.advTo s.power.dueAt).modPower (fun p => { p with released := true })
  else s

/-- A failing copy of an NVM record (R430). -/
def copyFail (s : State) (bad : Nat) : State := if bad = 0 then s else ((s.mark NV_STAT_COPY_FAIL).source 1294).raiseLine 180

/-- The first band of a strip, and its caches (R330, R347). -/
def firstTemperature (s : State) (r : Nat) : State :=
  let s1 := s.followBand r
  s1.setStrip r { s1.strip r with temps := [signed 16 (s1.get (ST_TSTRIP_T r))] }

/-- REGS_READY (R347, R430, R448): `bad` tells which copies of the safe codes (bit 0 A, bit 1 B) and of the boot pointer (bits 2 and 3) fail,
`calBad` which of each strip's calibration record; copy A is used if it checks. The NVM fields are loaded; with both copies of the safe codes bad every code is its 0 V code, and no driver, clamp or output can be
enabled. -/
def regsReady (s : State) (readings : List Int) (bad : Nat) (calBad : List Nat) : State :=
  if !s.power.released || s.on GL_RST_STAT_REGS_READY then s
  else
    let rd (n : Nat) : Nat := unsigned 16 (clampReading (readings.getD n 0))
    let s1 := (List.range 32).foldl (fun s n => s.put (ST_TEMP_TEMP (n / 4) (n % 4)) (rd n)) s
    let s2 := (s1.put (GL_TEMP_SV_TEMP 0) (rd 32)).put (GL_TEMP_SV_TEMP 1) (rd 33)
    let s3 := (List.range 8).foldl formBlind ((List.range 8).foldl formT s2)
    let s4 := (List.range 8).foldl firstTemperature s3
    let safeBad := bad % 4
    let s5 := calBad.foldl copyFail ((s4.copyFail safeBad).copyFail (bad / 4))
    let s6 := (s5.put GL_MEM_STAT_W_READY (b2n s.power.memW)).put GL_MEM_STAT_E_READY (b2n s.power.memE)
    let s7 := s6.modNvm (fun x => { x with loaded := if safeBad = 3 then 0 else if safeBad % 2 = 0 then x.imageA else x.imageB, pointer := if bad / 4 % 2 = 0 then some 0 else if bad / 8 = 0 then some 1 else none })
    ((allTillers.foldl loadTiller { s7 with resetEnd := s7.ticks }).modPower (fun p => { p with noSafe := safeBad = 3 })).mark GL_RST_STAT_REGS_READY

/-- DRAM_INIT_DONE (R368): once VMEM is up a stack is initialised, once. -/
def stackDone (s : State) (east : Bool) : State :=
  if !s.fbit GL_PWR_STAT_PG 2 || (if east then s.power.memE else s.power.memW) then s
  else (s.dramInitDone east).modPower (fun p => if east then { p with memE := true } else { p with memW := true })

/-! ### VBULK and REFCLK -/

/-- VBULK rises (R438, R447): POR, straps read, the first REG_EN rises; wear and the log come from the NVM (R352, R354). -/
def vbulkPowerUp (s : State) (cpos : Nat) : State :=
  let s1 : State := { State.reset with pending := s.pending, ticks := s.ticks, hostOut := s.hostOut, linkOut := s.linkOut, rdData := s.rdData, rdPoison := s.rdPoison, draws := s.draws, wear := storeKeep (fun k => k != contactKey) s.nvm.saved }
  let s2 : State := { s1 with nvm := { s.nvm with op := none, row := [], saving := none, loaded := 0, pointer := none }, msp := { Msp.reset with flash := s.msp.flash, marker := s.msp.marker }, power := { Power.reset with cpos := cpos, dueAt := s.ticks + pgTicks }, monitor := { Monitor.reset with savedAt := s.ticks, sampleAt := s.ticks, periodAt := s.ticks + saveTicks } }
  let s3 := ((s2.setSv 0 { Supervisor.reset with hbAt := s.ticks }).setSv 1 { Supervisor.reset with hbAt := s.ticks }).put GL_PWR_STAT_REG_EN 1
  let s4 := s3.setReg GL_WEAR_CONTACT (BitVec.ofNat 32 (storeGet (fun _ => 0) s.nvm.saved contactKey))
  ((s4.freshLife.put GL_THERM_STAT_LOG_NEXT s.nvm.logNext).put GL_THERM_STAT_LOG_COUNT (min s.nvm.logCount 0xFFFF)).lifeModel

/-- VBULK is lost: nothing is powered (R357). -/
def lossOfVbulk (s : State) : State :=
  let s1 := (s.freshCore alwaysOn).loseDram.modPower (fun p => { p with vbulk := false, afterSave := none, wake := false })
  ((s1.put GL_PWR_STAT_STATE 0).put GL_PWR_STAT_REG_EN 0).put GL_PWR_STAT_PG 0

/-- REFCLK is lost (R26), a fault of the clock block once the PLL has been started (R438); and it returns. -/
def clockLost (s : State) : State :=
  let s1 := s.modPower (fun p => { p with pllLost := true })
  if s.power.pll then s1.raiseLine 176 else s1
def clockFound (s : State) : State := s.modPower (fun p => { p with pllLost := false })

/-! ### Thermal shutdown (R351, R353) -/

/-- ALIVE stops by a reaction or by shutdown (R420). -/
def aliveStop (s : State) : State :=
  ({ s with collector := { s.collector with level := false } }.put FC_ALIVE_RUNNING 0).mark FC_ALIVE_STOPPED |>.source 1281

/-- SHUTDOWN_RAILS_OFF: 100 µs after the trip the rails go down in the order of R440. -/
def shutdownRailsOff (s : State) : State :=
  match s.monitor.trip with
  | none => s
  | some x =>
    if s.on GL_THERM_STAT_SHUTDOWN then s
    else
      let s1 := s.advTo (x.tick + tripTicks)
      ((s1.mark GL_THERM_STAT_SHUTDOWN).aliveStop.put GL_PWR_STAT_STATE 3).modPower (fun p => { p with goal := 5, afterSave := none, wake := false, dueAt := s1.ticks })

/-- WEAR_SAVE_PERIODIC (R357): every 10 minutes, counted in the always-on domain. -/
def periodicSave (s : State) : State :=
  let s1 := s.advTo s.monitor.periodAt
  { s1 with monitor := { s1.monitor with periodAt := s1.monitor.periodAt + saveTicks } }.startSave

/-- Every unbroken sensor reads below 105.0 °C. -/
def coolEnough (s : State) : Bool :=
  (List.range 32).all (fun n => s.on (ST_TEMP_BROKEN (n / 4) (n % 4)) || decide (signed 16 (s.get (ST_TEMP_TEMP (n / 4) (n % 4))) < 13440))
    && (List.range 2).all (fun d => s.on (GL_TEMP_SV_BROKEN d) || decide (signed 16 (s.get (GL_TEMP_SV_TEMP d)) < 13440))

/-- A write of `GL_THERM_CLR.KEY` through the management port. -/
def thermClear (s : State) (key : Nat) : State :=
  if s.powerState = 5 && key = thermKey && s.coolEnough then
    let s1 := { s with monitor := { s.monitor with trip := none } }.put GL_THERM_STAT_SHUTDOWN 0
    s1.powerUp 2
  else s.mark GL_THERM_STAT_CLR_REJ

end State

end Sys2Proof.Machine
end

