-- ==== Sys2Proof/Machine/Fault.lean ====
section
/-! DEFINITION. The fault collector, ALIVE and fault injection (13_supervisors_events_faults.md, R416 to R421). -/

namespace Sys2Proof.Machine

/-- The tillers SAFE reaches for block b (R416). -/
def reachOf (b : Nat) : List Nat :=
  if b < 128 then [b % 64]
  else if b < 160 then sheafTillers ((b - 128) / 2)
  else if b < 176 then sheafTillers (b - 160)
  else if b = 178 then List.range 32
  else if b = 179 then (List.range 32).map (· + 32)
  else allTillers

/-- The supervisors TRAP goes to: that of the block's domain, both for blocks 176 to 183 (R418). -/
def trapsOf (b : Nat) : List Nat :=
  if b < 128 then [rowOf (b % 64) / 4]
  else if b < 160 then [(b - 128) / 16]
  else if b < 176 then [(b - 160) / 8]
  else [0, 1]

/-- BLKRST of block b does nothing, and its bit reads 0 in `FC_REACT` (R416). -/
def noBlockReset (b : Nat) : Bool := decide (160 ≤ b ∧ b ≤ 177) || b = 180 || b = 182 || b = 183 || decide (184 ≤ b)

/-- Bits of a reaction byte (R418). -/
def reactAlive : Nat := 5
def reactChip : Nat := 4
def reactBlock : Nat := 3
def reactSafe : Nat := 2
def reactTrap : Nat := 1
def reactInt : Nat := 0

/-- Key of a kick; ticks of 100 ms and of half a period of ALIVE (R420). -/
def aliveKey : Nat := 0xA11E
def aliveTicks : Nat := 10000000
def aliveHalf : Nat := 50000

namespace State

def reactionOf (s : State) (b : Nat) : Nat := s.get (FC_REACT_REACT (b / 4) (b % 4))
def faultBit (s : State) (b : Nat) : Bool := s.fbit (FC_STAT_STAT (b / 32)) (b % 32)

/-- `FC_FIRST` (R419): the first bit that sets; the lowest of several in one tick. -/
def firstFault (s : State) (b : Nat) : State :=
  if !s.on FC_FIRST_VALID then
    let s1 := (((s.mark FC_FIRST_VALID).put FC_FIRST_MULTI 0).put FC_FIRST_BIT b).put48 FC_FIRST_RC_LO FC_FIRST_RC_HI s.count.toNat
    { s1 with collector := { s1.collector with firstAt := s.ticks } }
  else if s.collector.firstAt = s.ticks then (s.put FC_FIRST_BIT (min b (s.get FC_FIRST_BIT))).mark FC_FIRST_MULTI
  else s

/-- Ticks of 2 µs from the latch to a reset (R418). -/
def reactTicks : Nat := 200

/-- The reactions of block b in their order (R418). A block reset waits for SAFE to complete; CHIPRST takes its place. -/
def react (s : State) (b : Nat) : State :=
  let r := s.reactionOf b
  let s1 := if r.testBit reactAlive then s.aliveStop else s
  let s2 := if r.testBit reactSafe then (reachOf b).foldl safeStop s1 else s1
  let s3 := if r.testBit reactTrap then (trapsOf b).foldl svTrap s2 else s2
  let s4 := if r.testBit reactInt then s3.source 1280 else s3
  if r.testBit reactChip || (r.testBit reactBlock && !noBlockReset b) then
    { s4 with collector := { s4.collector with waiting := s4.collector.waiting ++ [(b + 256 * b2n (r.testBit reactChip), s.ticks + reactTicks)] } }
  else s4

/-- ERROR_LINE (R417, R418): the line is latched; a bit that is already set acts again only after it has been cleared. -/
def errorLine (s : State) (b : Nat) : State :=
  let s1 := s.dropLine b
  if s1.faultBit b then s1 else ((s1.putBit (FC_STAT_STAT (b / 32)) (b % 32) true).firstFault b).react b

/-- The block reset of block b (R416); a refused one is reported. -/
def reactReset (s : State) (b : Nat) : State :=
  let try_ (scope index : Nat) : State :=
    let r := s.requestReset scope index true
    if r.2 = 0 || r.2 = 4 then r.1 else r.1.source 1283
  if b < 128 then try_ 1 (b % 64)
  else if b < 160 then try_ 2 ((b - 128) / 2)
  else if b = 178 then s.svRestart 0
  else if b = 179 then s.svRestart 1
  else if b = 181 then s.hostPortReset
  else s

/-- FAULT_REACT_RESET (R418): the reset that has waited longest, 2 µs after its latch. -/
def faultReactReset (s : State) : State :=
  match s.collector.waiting with
  | [] => s
  | (n, at_) :: r =>
    let s1 := { s.advTo at_ with collector := { s.collector with waiting := r } }
    if 256 ≤ n then s1.chipReset 6 else s1.reactReset n

/-- A read of `FC_STAT0` takes the snapshot; other words return it (R417). -/
def statRead (s : State) (k : Nat) : State × Nat :=
  let snap := if k = 0 then (List.range 8).map (fun i => (s.reg (FC_STAT i)).toNat) else s.collector.snapshot
  ({ s with collector := { s.collector with snapshot := snap } }, snap.getD k 0)

/-- The block holds its line raised: a FAULTED engine or thresher, a lost PLL. -/
def lineHeld (s : State) (b : Nat) : Bool :=
  if b < 64 then s.get (TL_SEQ_STAT_STATE b) = 5
  else if 128 ≤ b && b < 160 then s.thState (b - 128) = 4
  else b = 176 && s.power.pllLost

/-- A W1C write of word k (R417): a bit whose line is still raised sets again. -/
def statClear (s : State) (k w : Nat) : State :=
  let gone := (List.range 32).filter (fun i => w.testBit i && s.faultBit (32 * k + i))
  gone.foldl (fun s i => if s.lineHeld (32 * k + i) then s.raiseLine (32 * k + i) else s) (gone.foldl (fun s i => s.putBit (FC_STAT_STAT k) i false) s)

/-! ### ALIVE (R420) -/

def aliveKick (s : State) (key : Nat) : State :=
  if key ≠ aliveKey || s.on FC_ALIVE_STOPPED then s
  else if s.on FC_ALIVE_RUNNING then { s with collector := { s.collector with kickAt := s.ticks } }
  else { s with collector := { s.collector with kickAt := s.ticks, toggleAt := s.ticks + aliveHalf, level := true } }.mark FC_ALIVE_RUNNING

/-- ALIVE_TOGGLE: 500 µs high, 500 µs low. -/
def aliveToggle (s : State) : State :=
  if s.on FC_ALIVE_RUNNING then
    let x := s.collector
    { s.advTo x.toggleAt with collector := { x with toggleAt := x.toggleAt + aliveHalf, level := !x.level } }
  else s

/-- 100 ms without a kick; in deep sleep ALIVE needs none. -/
def aliveTimeout (s0 : State) : State :=
  let s := s0.advTo (s0.collector.kickAt + aliveTicks)
  if s.on FC_ALIVE_RUNNING && s.powerState ≠ 4 then { s with collector := { s.collector with level := false } }.put FC_ALIVE_RUNNING 0 else s

/-- No status bit whose reaction selects ALIVE is set. -/
def aliveFree (s : State) : Bool := !(List.range 184).any (fun b => s.faultBit b && (s.reactionOf b).testBit reactAlive)

/-! ### Injection (R421) -/

/-- A write of `FC_INJ` whose fields have been stored: `go` arms, CONT = 0 ends an injection into every read. -/
def injectWrite (s : State) (go wasCont : Bool) : State :=
  let s1 := if wasCont && !s.on FC_INJ_CONT then s.put FC_INJ_STAT_ARMED 0 else s
  if !go then s1
  else if s.get FC_INJ_INSTANCE < injectionUnits (s.get FC_INJ_CLASS) then s1.mark FC_INJ_STAT_ARMED
  else s1.mark FC_INJ_STAT_BAD

end State

end Sys2Proof.Machine
end

