-- ==== Sys2Proof/Machine/Access.lean ====
section
/-! DEFINITION. Reads of register space (00_scope.md, R5, R10, R11; 01_two_hierarchies.md, R23, R24): what a register shows, and
what a read does. -/

namespace Sys2Proof.Machine

/-! ### Places -/

/-- The address of the register in the first unit of its kind, and the number of its unit: strip, thresher, sheaf, tiller, pin. -/
def kindOf (a : Nat) : Nat :=
  if a < 0x10000 then a
  else if a < 0x20000 then 0x10000 + a % 0x2000
  else if a < 0x30000 then (if a % 0x1000 < 0x800 then 0x20000 + a % 0x400 else 0x20000 + a % 0x1000)
  else if 0x40000 ≤ a ∧ a < 0x80000 then (if a % 0x1000 < 0x800 then 0x40000 + a % 0x1000 else 0x40800 + a % 0x100)
  else a
def unitOf (a : Nat) : Nat :=
  if a < 0x10000 then 0
  else if a < 0x20000 then (a - 0x10000) / 0x2000
  else if a < 0x30000 then
    (if a % 0x1000 < 0x800 then 2 * ((a - 0x20000) / 0x1000) + a % 0x1000 / 0x400 else (a - 0x20000) / 0x1000)
  else if 0x40000 ≤ a ∧ a < 0x80000 then
    (if a % 0x1000 < 0x800 then (a - 0x40000) / 0x1000 else 8 * ((a - 0x40000) / 0x1000) + (a % 0x1000 - 0x800) / 0x100)
  else 0

/-- Number of a register within an array of n registers at stride d, if the address is one of them. -/
def arrayIndex (a base d n : Nat) : Option Nat :=
  if base ≤ a ∧ (a - base) % d = 0 ∧ (a - base) / d < n then some ((a - base) / d) else none

/-- Fields laid over a word. -/
def overlay (w : Nat) (l : List (Field × Nat)) : Nat := l.foldl (fun w p => insert32 w p.1.hi p.1.lo p.2) w

/-- The MSI-X table and its pending bits (R372). -/
def isMsix (a : Nat) : Bool := within a 0x81000 0x400 || within a 0x81800 8

/-- Table space (R24). -/
def isTable (a : Nat) : Bool := within a 0x100000 0x4E0000

/-- `GL_VRAW_STAT` from the two measured values and the two targets, in millivolts: each OK bit tells a value within 30 mV (R300). -/
def vrawWord (w e targetW targetE : Nat) : Nat :=
  let near (a b : Nat) : Nat := b2n (decide (((a : Int) - b).natAbs ≤ 30))
  w % 2 ^ 13 + e % 2 ^ 13 * 2 ^ 16 + near (e % 2 ^ 13) targetE * 2 ^ 30 + near (w % 2 ^ 13) targetW * 2 ^ 31

namespace State

/-! ### What a register shows -/

/-- The eleven latches or enables of strip r among the words of all sources (R413). -/
def stripBits (s : State) (word : Nat → Nat) (r : Nat) : Nat :=
  (List.range 11).foldl (fun m k => m + b2n ((s.reg (word ((1152 + 11 * r + k) / 32))).toNat.testBit ((1152 + 11 * r + k) % 32)) * 2 ^ k) 0

/-- Fields of the global registers that show state kept elsewhere. -/
def shownGlobal (s : State) (a : Nat) : List (Field × Nat) :=
  if a = GL_RC_LO then [(GL_RC_LO_COUNT_LO, s.count.toNat)]
  else if a = GL_RC_HI then [(GL_RC_HI_COUNT_HI, s.count.toNat / 2 ^ 32)]
  else if a = GL_SCHED_STAT then [(GL_SCHED_STAT_USED, s.slots.length)]
  else if a = GL_CAL_HOLD then [(GL_CAL_HOLD_STRIPS, s.heldStrips)]
  else if a = SV_HB_N then [(SV_HB_N_AGE, s.hbAge 0)]
  else if a = SV_HB_S then [(SV_HB_S_AGE, s.hbAge 1)]
  else if a = SV_MBX_STAT 0 then [(SV_MBX_STAT_WORDS 0, (s.sv 0).mbx.length)]
  else if a = SV_MBX_STAT 1 then [(SV_MBX_STAT_WORDS 1, (s.sv 1).mbx.length)]
  else if a = GL_WEAR_STAT then [(GL_WEAR_STAT_AGE, s.saveAge)]
  else if a = GL_WEAR_DATA then [(GL_WEAR_DATA_VALUE, s.wearShown (s.get GL_WEAR_IDX_IDX))]
  else if a = EV_VEC_STAT 0 then [(EV_VEC_STAT_SUM 0, s.vectorMask)]
  else if a = EV_VEC_STAT 1 then [(EV_VEC_STAT_SUM 1, s.vectorMask / 2 ^ 32)]
  else if a = MSP_M_STAT then [(MSP_M_STAT_WORDS, s.msp.fifo.length)]
  else match arrayIndex a (GL_TLOG_W 0) 4 4 with
    | some k => [(GL_TLOG_W_WORD k, s.logWord k)]
    | none => []

/-- Of strip r. -/
def shownStrip (s : State) (r a : Nat) : List (Field × Nat) :=
  if a = ST_TH_EVT r then [(ST_TH_EVT_EVT r, s.stripBits EV_PEND r)]
  else if a = ST_TH_EVT_EN r then [(ST_TH_EVT_EN_EVT r, s.stripBits EV_ENA r)]
  else if a = ST_CAL_STAT r then [(ST_CAL_STAT_STATE r, s.calShown r)]
  else if a = ST_CAL_PROG r then [(⟨a, 31, 0⟩, s.calProg r)]
  else if a = ST_CAL_DATA r then [(ST_CAL_DATA_DATA r, s.calData r)]
  else []

/-- Of thresher i. -/
def shownThresher (s : State) (i a : Nat) : List (Field × Nat) :=
  if a = TH_STAT i then
    [(TH_STAT_IN_FILL i, (s.thr i).fifo.length), (TH_STAT_TAGS i, s.thReads i + s.thWrites i),
     (TH_STAT_HELD i, b2n ((s.thr i).heldStop || !(s.thr i).heldTillers.isEmpty))]
  else []

/-- Of sheaf u: in load mode the version reads 0 (R252). -/
def shownSheaf (s : State) (u a : Nat) : List (Field × Nat) :=
  if a = SH_UC_VERSION u && s.on (SH_UCS_CTRL_LOAD_EN u) then [(⟨a, 31, 0⟩, 0)] else []

/-- Of tiller t. A range of VDUT that waits reads as written (R267, R271). DESIGN CHOICE: while ARMED or TRIGGERED, when no entry can be
read, ENTRIES shows those kept or stored so far (log entry 25). -/
def shownTiller (s : State) (t a : Nat) : List (Field × Nat) :=
  if a = TL_FLAGS t then [(TL_FLAGS_LATE t, b2n (s.flag t 0)), (TL_FLAGS_STALLED t, b2n (s.flag t 1))]
  else if a = TL_SUP_CTRL t 0 then (match (s.sup t 0).rangeWait with | some r => [(TL_SUP_CTRL_RNG t 0, r)] | none => [])
  else if a = TL_APG_PX t then [(TL_APG_PX_PX t, (s.physical t).1)]
  else if a = TL_APG_PY t then [(TL_APG_PY_PY t, (s.physical t).2)]
  else if a = TL_LVL_STAT t then [(TL_LVL_STAT_DONE_CNT t, (s.lvl t).done.length), (TL_LVL_STAT_PEND t, s.lvlPending t)]
  else if a = TL_STRM_STAT t then [(TL_STRM_STAT_BUF t, (s.strm t).buf.length)]
  else if a = TL_CAP_STAT t then [(TL_CAP_STAT_ENTRIES t, (s.cap t).entries.length)]
  else if a = TL_FQ_STAT t then [(TL_FQ_STAT_PKTS t, s.fifoPackets t), (TL_FQ_STAT_FILL t, s.fifoFill t)]
  else if a = TL_ADC_STAT t then
    [(TL_ADC_STAT_REF_ON t, b2n (s.refOn t)), (TL_ADC_STAT_CAL_SUSP t, b2n (!s.on (TL_ADC_STAT_REF_READY t)))]
  else []

/-- Fields of the register at an address that show state kept elsewhere. -/
def shownFields (s : State) (a : Nat) : List (Field × Nat) :=
  if a < 0x10000 then s.shownGlobal a
  else if a < 0x20000 then s.shownStrip (unitOf a) a
  else if a < 0x30000 then (if a % 0x1000 < 0x800 then s.shownThresher (unitOf a) a else s.shownSheaf (unitOf a) a)
  else if a < 0x80000 then (if a % 0x1000 < 0x800 then s.shownTiller (unitOf a) a else [])
  else match arrayIndex a (LK_HMQ_STAT 0) 0x10 4 with
    | some q => [(LK_HMQ_STAT_NOTICES q, s.hmqCount q)]
    | none => []

/-- The word a register shows. -/
def shown (s : State) (a : Nat) : Nat := overlay (s.reg a).toNat (s.shownFields a)

/-! ### Reads -/

/-- Addresses outside the always-on domain are unimplemented until the part is ready (R11, R448). `GL_RST_STAT` keeps its contents
over every reset, yet it is no register of that domain's list (R441). -/
def reachable (s : State) (a : Nat) : Bool :=
  s.power.vbulk && ((alwaysOn a && !(a = GL_RST_STAT)) || s.on GL_RST_STAT_REGS_READY)

/-- RC fields return to their Reset values (R5). -/
def clearRead (s : State) (a : Nat) : State :=
  match regAt a with
  | none => s
  | some d => s.setReg a (BitVec.ofNat 32 ((d.flds.filter (fun f => f.acc == .rc)).foldl
      (fun w f => insert32 w f.hi f.lo (bits (resetWord a).toNat f.hi f.lo)) (s.reg a).toNat))

/-- Low words of the pairs of R52, by kind. -/
def isPairLow (k : Nat) : Bool :=
  k = GL_RC_LO || (arrayIndex k (GL_RDV_REL_LO 0) 0x40 32).isSome || k = FC_FIRST_RC_LO || k = TL_VIDX_LO 0 || k = TL_TDC_LAST_LO 0
    || k = TL_TDC_MEAN_LO 0 || k = TL_ADC_SUM_LO 0 || k = ST_CAL_LAST_LO 0

/-- The master's data FIFO is read (R228, R427). -/
def mspPop (s : State) : State × Nat :=
  match s.msp.fifo with
  | [] => (s.mark MSP_M_STAT_UNDERRUN, (s.reg MSP_M_DATA).toNat)
  | w :: r => ({ s with msp := { s.msp with fifo := r } }.setReg MSP_M_DATA (BitVec.ofNat 32 w), w)

/-- The measured VRAW values, which no command carries: free (log entry 13). -/
def vrawRead (s : State) : State × Nat :=
  let x := (Config.vrawReading s.draws).toNat
  (s.draw, vrawWord x (x / 2 ^ 16) (s.get GL_VRAW_TRIM_W_CUR) (s.get GL_VRAW_TRIM_E_CUR))

/-- What the latches of two tillers' pins have set is reported before the word of their sources is read (R189). -/
def pendUp (s : State) (i : Nat) : State := (s.tillerCatchUp (2 * i) s.now).tillerCatchUp (2 * i + 1) s.now

/-- A read of the i-th word of latches. -/
def pendRead (s : State) (i : Nat) : State × Nat := ((s.pendUp i).clearRead (EV_PEND i), (s.pendUp i).shown (EV_PEND i))

/-- Registers that an arm of the TDC changes (R318), by kind. -/
def tdcKind (k : Nat) : Bool :=
  [TL_TDC_STAT 0, TL_TDC_RESULT 0, TL_TDC_CNT 0, TL_TDC_LAST_LO 0, TL_TDC_LAST_HI 0, TL_TDC_MEAN_LO 0, TL_TDC_MEAN_HI 0, TL_TDC_SD 0, TL_TDC_MIN 0, TL_TDC_MAX 0, TL_TDC_NVALID 0].contains k

/-- A read of a register of the TDC, after the arms that have reached it (R121, R318). -/
def tdcRead (s : State) (a : Nat) : State × Nat :=
  let k := kindOf a
  let s1 := s.delayed (unitOf a) s.now
  if isPairLow k then s1.readLow a else if isPairLow (k - 4) then s1.readHigh (a - 4) else (s1.clearRead a, s1.shown a)

/-- Reads with an effect of their own in a block of a unit: latches, sources, pops, snapshots. -/
def readUnit (s : State) (a : Nat) : Option (State × Nat) :=
  let k := kindOf a
  let u := unitOf a
  if k = PN_CMP 0 then some (s.catchUp u s.now, (s.catchUp u s.now).shown a)
  else if k = TL_ADC_RES_LO 0 then some (s.readResult u)
  else if k = TL_ADC_RES_HI 0 then (let r := s.readHigh (a - 4); some (if s.freshLatch (a - 4) then r.1 else r.1.put (TL_ADC_RES_HI_VALID u) 0, r.2))
  else if k = TL_OPSTAT 0 || k = TL_STRM_STAT 0 || k = TL_STRM_CNT 0 || k = TL_SEG_ERR 0 then
    some ((s.delayed u s.now).clearRead a, (s.delayed u s.now).shown a)
  else if k = TH_CNT_WAIT 0 then some ((s.countWait u).clearRead a, (s.countWait u).shown a)
  else if k = TL_FQ_RD 0 0 then some (s.fifoRead u)
  else if k = TL_CAP_RD 0 0 then some (s.captureRead u)
  else if 0x40310 ≤ k && k < 0x40320 then some (s, word32 (s.fq u).hold ((k - 0x40310) / 4))
  else if 0x402D0 ≤ k && k < 0x402E0 then some (s, word32 (s.cap u).hold ((k - 0x402D0) / 4))
  else if k = TL_LVL_DONE 0 then some (s.readDone u)
  else if k = TL_RESULT 0 then some (s.put (TL_RESULT_VALID u) 0, (s.reg a).toNat)
  else if k = ST_CAL_DATA 0 then some (s.calAdvance u, s.shown a)
  else if k = SH_UCRD_D 0 7 then some (s.ucrdAdvance u, (s.reg a).toNat)
  else none

/-- Those of the global registers. -/
def readGlobal (s : State) (a : Nat) : Option (State × Nat) :=
  if a = NV_DATA then some s.nvmRead
  else if a = MSP_M_DATA then some s.mspPop
  else if a = SV_MBX_RD 0 then some (s.mbxPop 0)
  else if a = SV_MBX_RD 1 then some (s.mbxPop 1)
  else if a = GL_VRAW_STAT then some s.vrawRead
  else match arrayIndex a (FC_STAT 0) 4 8, arrayIndex a (LK_HMQ_RD 0) 0x10 4, arrayIndex a (EV_PEND 0) 4 32 with
    | some i, _, _ => some (s.statRead i)
    | _, some q, _ => some (s.hmqPop q)
    | _, _, some i => some (s.pendRead i)
    | _, _, _ => none

/-- Reads with an effect of their own: pairs, and those above. None for every other register. -/
def readOwn (s : State) (a : Nat) : Option (State × Nat) :=
  let k := kindOf a
  if tdcKind k then some (s.tdcRead a)
  else if isPairLow k then some (s.readLow a)
  else if 4 ≤ k && isPairLow (k - 4) then some (s.readHigh (a - 4))
  else if (s.readUnit a).isSome then s.readUnit a
  else s.readGlobal a

/-- A read of an aligned word of register space (R10, R11, R24, R372): the state after it and the word. -/
def regRead (s : State) (v : View) (a : Nat) : State × Nat :=
  if !s.reachable a || a % 4 ≠ 0 then (s, 0)
  else if isTable a then (s, (s.reg a).toNat)
  else if isMsix a then (s, if userView v then 0 else (s.reg a).toNat)
  else if (regAt a).isNone then (s, 0)
  else match s.readOwn a with
    | some r => r
    | none => (s.clearRead a, s.shown a)

/-- The RC bits of the register at an address. -/
def rcMask (a : Nat) : Nat := match regAt a with
  | none => 0
  | some d => (d.flds.filter (fun f => f.acc == .rc)).foldl (fun w f => insert32 w f.hi f.lo (2 ^ 32 - 1)) 0

/-- A read of the register of a kind pops, frees a latch or advances an address. -/
def popKind (k : Nat) : Bool :=
  isPairLow k || (4 ≤ k && isPairLow (k - 4)) || [TL_ADC_RES_LO 0, TL_ADC_RES_HI 0, TL_FQ_RD 0 0, TL_CAP_RD 0 0, TL_LVL_DONE 0, TL_RESULT 0, ST_CAL_DATA 0, SH_UCRD_D 0 7, NV_DATA, MSP_M_DATA, SV_MBX_RD 0, SV_MBX_RD 1].contains k
    || (arrayIndex k (FC_STAT 0) 4 8).isSome || (arrayIndex k (LK_HMQ_RD 0) 0x10 4).isSome

/-- The read has a side effect (R424): it clears an RC field, or it is a pop and the like that changes the part. -/
def readActs (s : State) (v : View) (a : Nat) : Bool :=
  (popKind (kindOf a) && decide ((s.regRead v a).1 ≠ s)) || decide ((s.regRead v a).2 &&& rcMask a ≠ (resetWord a).toNat &&& rcMask a)

/-- A command's read: its word stands in the model's output port. -/
def readOut (s : State) (v : View) (a : Nat) : State :=
  let r := s.regRead v a
  { r.1 with rdData := r.2, rdPoison := false }

end State

end Sys2Proof.Machine
end

