-- ==== Sys2Proof/Machine/Boot.lean ====
section
/-! DEFINITION. Boot (14_power_package_bringup.md, R449 to R451) and the master mode of the management port
(13_supervisors_events_faults.md, R427, R428). -/

namespace Sys2Proof.Machine

/-! ### Boot images (R450) -/

/-- Magic number of a header, bytes of a header and of a section descriptor, bytes of a whole control store. -/
def bootMagic : Nat := 0x4851B007
def headerBytes : Nat := 16
def storeImageBytes : Nat := 0x80000

/-- n little-endian bytes at an offset of an image. -/
def imageField (img : List Nat) (off n : Nat) : Nat := ofBytesLE ((img.drop off).take n)

/-- A section of an image. -/
structure Section where
  kind : Nat
  mask : Nat
  data : List Nat
  deriving DecidableEq, Repr

/-- Section j of an image of `len` bytes; none when its descriptor breaks R450 or its bytes lie outside the image. A microcode
section is whole words, an entry section five 4-byte values (DEDUCED). -/
def sectionAt (img : List Nat) (len j : Nat) : Option Section :=
  let b := headerBytes * (j + 1)
  let kind := imageField img b 1 % 16
  let off := imageField img (b + 4) 4
  let n := imageField img (b + 8) 4
  if kind = 0 || 4 < kind || len < off + n || imageField img (b + 12) 4 ≠ 0 then none
  else if (kind = 3 && (n % 32 ≠ 0 || storeImageBytes < n)) || (kind = 4 && n ≠ 20) then none
  else some ⟨kind, imageField img (b + 1) 2, (img.drop off).take n⟩

/-- The error code of a failing image, or its version and sections: 1 magic, 2 length, 3 CRC, 4 section (R451). -/
def checkImage (img : List Nat) : Nat ⊕ (Nat × List Section) :=
  let n := imageField img 6 2
  let len := imageField img 8 4
  if imageField img 0 4 ≠ bootMagic then .inl 1
  else if len < headerBytes * (n + 1) || img.length < len then .inl 2
  else if crc32 0xFFFFFFFF ((img.take len).drop headerBytes) ≠ imageField img 12 4 then .inl 3
  else if n = 0 || 16 < n || (List.range n).any (fun j => (sectionAt img len j).isNone) then .inl 4
  else .inr (imageField img 4 2, (List.range n).filterMap (sectionAt img len))

namespace State

/-- A section of 512 KiB whose every word is that of the default image (log entry 10). -/
def isDefault (data : List Nat) : Bool :=
  data.length = storeImageBytes && (List.range 16384).all (fun k => imageField data (32 * k) 32 = (Config.defaultWord k).toNat)

/-- A microcode section reaches sheaf u (R252, R450): the default image, or words stored one by one from index 0. -/
def loadSection (s : State) (data : List Nat) (u : Nat) : State :=
  if isDefault data then (s.loadDefault u).1
  else if s.thState (2 * u) = 0 && s.thState (2 * u + 1) = 0 then
    let x := s.sheaf u
    let words := (List.range (data.length / 32)).foldl (fun l k => storeSet (fun _ => none) l k (some (imageField data (32 * k) 32))) x.words
    (((s.setSheaf u { x with words := words }).put (SH_UC_VERSION_SRC u) 1).put (SH_UC_VERSION_VERSION u)
      (Config.defaultVersion.toNat / 2 ^ 16)).put (SH_UC_VERSION_HASH u) (Config.defaultVersion.toNat % 2 ^ 16)
  else s.mark (SH_UCS_CTRL_REFUSED u)

/-- An entry section reaches sheaf u. -/
def loadEntries (s : State) (data : List Nat) (u : Nat) : State :=
  let e (k : Nat) : Nat := imageField data (4 * k) 4 % 16384
  let s1 := (List.range 5).foldl (fun s k => (s.put (TH_ENTRY_INDEX (2 * u) k) (e k)).put (TH_ENTRY_INDEX (2 * u + 1) k) (e k)) s
  s1.setSheaf u { s1.sheaf u with entries := (List.range 5).map e }

def loadOne (s : State) (x : Section) : State :=
  (List.range 16).foldl (fun s u => if !x.mask.testBit u then s else if x.kind = 3 then s.loadSection x.data u
    else if x.kind = 4 then s.loadEntries x.data u else s) s

/-- A supervisor starts: its firmware is running, its heartbeat is fresh, a waiting command is taken up. -/
def svStart (s : State) (d : Nat) : State :=
  let s1 := ((s.put (svState d) 1).put (svSilent d) 0).setSv d { s.sv d with hbAt := s.ticks, started := s.ticks }
  let s2 := s1.draw.put (svVersion d) (Config.firmwareVersion s1.draws).toNat
  (s2.takeBack d).serveNow d

/-- Both supervisors claim the lead token (R396, R451); which of them comes first is the firmware's affair, and free (log entry 39). -/
def claimLead (s : State) : State :=
  let d := b2n (Config.svsFirst s.draws)
  (s.draw.leadClaim d).leadClaim (1 - d)

/-- An image has passed its checks (R451). -/
def bootDone (s : State) (used version : Nat) (l : List Section) : State :=
  let s1 := l.foldl loadOne s
  let s2 := (((s1.mark GL_BOOT_STAT_DONE).put GL_BOOT_STAT_USED used).put GL_BOOT_STAT_ERR 0).put GL_BOOT_STAT_VERSION version
  ((s2.svStart 0).svStart 1).claimLead

/-- Boot has failed: the supervisors stay in BOOT. -/
def bootFail (s : State) (err : Nat) : State := (s.mark GL_BOOT_STAT_FAIL).put GL_BOOT_STAT_ERR err

/-- The service may boot: the part is ready and no image has been accepted. -/
def mayBoot (s : State) : Bool := s.on GL_RST_STAT_REGS_READY && !s.on GL_BOOT_STAT_DONE

/-- n bytes, within one word, at an offset of the boot pointer in use (R449). DESIGN CHOICE: the record begins its sector (log entry 39). -/
def pointerField (s : State) (off n : Nat) : Nat := match s.nvm.pointer with
  | some c => bits (s.nvmWord ((4096 * c + off) / 4)).toNat (8 * (off % 4) + 8 * n - 1) (8 * (off % 4))
  | none => 0

/-- The pointer names the host as the source of the image (R449). DESIGN CHOICE: every other value of SRC is taken for FLASH. -/
def bootsFromHost (s : State) : Bool := s.pointerField 0 4 = 2

/-- The transaction recorded as driven to the flash. -/
def driveFlash (s : State) (x : FlashOut) : State := { s with msp := { s.msp with flash := s.msp.flash ++ [x] } }

/-- The boot service reads n bytes of an image with the pointer's settings (R449, R451). -/
def flashRead (s : State) (off n : Nat) : State :=
  let lanes := s.pointerField 13 1
  s.driveFlash ⟨s.pointerField 12 1, s.pointerField off 4, if 2 ^ 24 ≤ s.pointerField off 4 then 4 else 3, s.pointerField 14 1, lanes % 4, lanes / 4 % 4, lanes / 16 % 4, s.pointerField 15 1, false, true, n, []⟩

/-- BOOT_FLASH (R451): image A, and image B if magic, length or CRC of A fails; the last error is the one shown. `timeouts` tells the reads
that time out. -/
def bootFlash (s : State) (timeouts : Nat) (a b : List Nat) : State :=
  if !s.mayBoot || s.power.flashTried || s.bootsFromHost then s
  else
    let s1 := s.modPower (fun p => { p with flashTried := true })
    if s.nvm.pointer.isNone then s1.bootFail 6
    else
      let s2 := s1.flashRead 4 a.length
      if timeouts.testBit 0 then s2.bootFail 5
      else match checkImage a with
        | .inr (v, l) => s2.bootDone 1 v l
        | .inl e =>
          if e = 4 then s2.bootFail 4
          else
            let s3 := s2.flashRead 8 b.length
            if timeouts.testBit 1 then s3.bootFail 5
            else match checkImage b with
              | .inr (v, l) => s3.bootDone 2 v l
              | .inl e => s3.bootFail e

/-- `GL_BOOT_CTRL.GO` (R451): the image in DRAM at `GL_BOOT_ADDR`. Poisoned data fails the CRC. -/
def bootHost (s : State) : State :=
  if !s.mayBoot then s
  else
    let a := s.get GL_BOOT_ADDR_HI_ADDR_HI * 2 ^ 32 + s.get GL_BOOT_ADDR_LO_ADDR_LO * 64
    let len := ofBytesLE (s.memBytes (a + 8) 4)
    if ofBytesLE (s.memBytes a 4) ≠ bootMagic then s.bootFail 1
    else if 0x400000000 < a + len then s.bootFail 2
    else
      let r := s.dramCheck a len
      match checkImage (r.1.memBytes a len) with
      | .inr (v, l) => if r.2 then r.1.bootFail 3 else r.1.bootDone 3 v l
      | .inl e => r.1.bootFail e

/-! ### The master mode of the management port (R427, R428) -/

/-- Words in the master's data FIFO at most. -/
def mspFifoWords : Nat := 64

/-- The boot service holds the port (R451): with SRC FLASH, from REGS_READY until it has ended its reading of the flash. -/
def bootHolds (s : State) : Bool := s.mayBoot && !s.power.flashTried && !s.bootsFromHost

/-- A word is pushed; one that finds the FIFO full is lost (R228). -/
def mspPush (s : State) (w : Nat) : State :=
  if mspFifoWords ≤ s.msp.fifo.length then s else { s with msp := { s.msp with fifo := s.msp.fifo ++ [w] } }

/-- `MSP_M_LEN` (R427): a length above 256 loads 256. -/
def mspLen (s : State) (w : Nat) : State := s.setReg MSP_M_LEN (BitVec.ofNat 32 (min (w % 512) 256))

/-- `MSP_M_CMD.GO` once the command's fields are stored: refused, or the transaction starts. A write phase takes its words as it
starts. What goes to the flash is recorded. With LPBK = 1 MSP_F_CS# stays high and IO0 is returned to IO1 (R428). -/
def mspGo (s : State) : State :=
  let len := s.get MSP_M_LEN_VALUE
  let rd := s.on MSP_M_CMD_RD
  let wide := s.get MSP_M_CMD_CLN ≠ 0 || s.get MSP_M_CMD_ALN ≠ 0 || s.get MSP_M_CMD_DLN ≠ 0
  if s.on MSP_M_STAT_BUSY || !s.on MSP_M_CTRL_EN || (!rd && decide (4 * s.msp.fifo.length < len)) || (s.on MSP_M_CTRL_LPBK && wide) || s.bootHolds then
    s.mark MSP_M_STAT_REFUSED
  else
    let n := (len + 3) / 4
    let s1 := if s.on MSP_M_CTRL_LPBK then s else s.driveFlash
      ⟨s.get MSP_M_CMD_OPCODE, (s.reg MSP_M_ADDR).toNat, [0, 3, 4, 0].getD (s.get MSP_M_CMD_ABYTES) 0, s.get MSP_M_CMD_DUMMY, s.get MSP_M_CMD_CLN, s.get MSP_M_CMD_ALN, s.get MSP_M_CMD_DLN, s.get MSP_M_CTRL_DIV, s.on MSP_M_CTRL_CPOL, rd, len, if rd then [] else s.msp.fifo.take n⟩
    { s1.mark MSP_M_STAT_BUSY with msp := { s1.msp with fifo := if rd then s.msp.fifo else s.msp.fifo.drop n, reads := if rd then some len else none, selects := !s.on MSP_M_CTRL_LPBK, loops := s.on MSP_M_CTRL_LPBK } }

/-- As many words are received as the transaction in progress asks for. -/
def mspFits (s : State) (n : Nat) : Bool := !s.on MSP_M_STAT_BUSY || n = (match s.msp.reads with
  | some k => (k + 3) / 4
  | none => 0)

/-- n words that IO1 takes from IO0 in a loopback (R428). The manual does not give what IO0 puts out while a data phase reads: free (log
entry 40). The last word holds only the bytes asked for. -/
def loopWords (d n : Nat) : List Nat :=
  (List.range ((n + 3) / 4)).map (fun k => (Config.loopWord (d + k)).toNat % 2 ^ (8 * min 4 (n - 4 * k)))

/-- The words received join the FIFO, those it has room for (R427): the flash's, or in a loopback IO0's (R428). -/
def mspGot (s : State) (received : List Nat) : State :=
  match s.msp.reads with
  | none => s
  | some n =>
    if s.msp.loops then (loopWords s.draws n).foldl mspPush { s with draws := s.draws + 64 }
    else (received.take ((n + 3) / 4)).foldl mspPush s

/-- The management port's master is idle again, and MSP_F_CS# high. -/
def mspIdle (s : State) : State := { s with msp := { s.msp with reads := none, selects := false, loops := false } }

/-- MSP_MASTER_DONE (R427). -/
def mspDone (s : State) (received : List Nat) : State :=
  if s.on MSP_M_STAT_BUSY then ((s.mspGot received).put MSP_M_STAT_BUSY 0).mspIdle.source 1296 else s

end State

end Sys2Proof.Machine
end

