-- ==== Sys2Proof/Machine/RegWrite.lean ====
section
/-! DEFINITION. Writes of register space: the access codes (00_scope.md, R5 to R11), who may write what
(13_supervisors_events_faults.md, R395 to R398, R404, R405), and each register's own rules. -/

namespace Sys2Proof.Machine

/-! ### Fields -/

/-- What a field does with a value it does not take: ignores one above a bound, or loads the nearer end of a range. -/
inductive Limit where
  | ignoreAbove (n : Nat)
  | range (lo hi : Nat)
  deriving DecidableEq, Repr

/-- Fields that do not take every value, by the register's address in its first unit and the field's lowest bit. -/
def fieldLimits : List (Nat × Nat × Limit) := [
  (GL_VRAW_TRIM_W, 30, .ignoreAbove 1), (GL_VRAW_TRIM_E, 30, .ignoreAbove 1), (GL_VRAW_TRIM_W, 0, .range 800 4300),
  (GL_VRAW_TRIM_E, 0, .range 800 4300), (GL_RDV_TMO, 0, .range 1024 0xFFFFFFFF), (TL_SUP_CTRL 0 0, 6, .ignoreAbove 2),
  (TL_SUP_CTRL 0 1, 6, .ignoreAbove 2), (TL_SUP_WF_CTRL 0 0, 26, .ignoreAbove 2), (TL_SUP_WF_CTRL 0 1, 26, .ignoreAbove 2),
  (TL_SUP_WF_CTRL 0 0, 19, .ignoreAbove 2), (TL_SUP_WF_CTRL 0 1, 19, .ignoreAbove 2), (TL_SUP_ILIM 0 0, 0, .range 0 36044),
  (TL_SUP_SLEW 0 0, 16, .range 1 0xFFFF), (TL_SUP_SLEW 0 1, 16, .range 1 0xFFFF)] ++ [
  (TL_SUP_SUP 0 0, 24, .range 1 15), (TL_SUP_SUP 0 1, 24, .range 1 15), (TL_SUP_SUP 0 0, 16, .range 1 255),
  (TL_SUP_SUP 0 1, 16, .range 1 255), (TL_SUP_CB 0 0, 0, .range 1 255), (TL_SUP_CB 0 0, 8, .range 1 255), (TL_SUP_CB 0 0, 16, .range 1 255),
  (TL_SUP_CB 0 1, 0, .range 1 255), (TL_SUP_CB 0 1, 8, .range 1 255), (TL_SUP_CB 0 1, 16, .range 1 255),
  (TL_ADC_CFG 0, 0, .ignoreAbove 13), (TL_ADC_CFG 0, 16, .range 25 0xFFFF), (TL_ADC_CFG 0, 12, .range 0 8), (TL_TDC_CFG 0, 0, .range 0 1280)] ++ [
  (TL_MASK_CTRL 0, 29, .ignoreAbove 2), (PN_CTRL 0, 2, .ignoreAbove 2), (PN_CTRL 0, 9, .ignoreAbove 5), (PN_PPMU_CTRL 0, 0, .ignoreAbove 4),
  (PN_PPMU_CTRL 0, 4, .ignoreAbove 4), (TH_CTRL 0, 2, .ignoreAbove 2), (ST_RISE_CFG 0, 29, .ignoreAbove 4), (ST_CAL_TMO 0, 0, .range 1 0xFFFF),
  (SH_MEM_SCRUB 0, 0, .range 1 0xFFFF), (LK_MESH_TMO, 0, .range 1 0xFFFF), (MSP_M_CMD, 22, .ignoreAbove 2)]

/-- Fields of the arrays of global and link registers that do not take every value. -/
def arrayLimit (k lo : Nat) : Option Limit :=
  if (arrayIndex k (GL_RDV_CFG 0) 0x40 32).isSome && lo = 4 then some (.ignoreAbove 5)
  else if (arrayIndex k (LK_DMA_SIZE 0) 0x40 8).isSome then some (.ignoreAbove 12)
  else if (arrayIndex k (LK_G_CTRL 0) 0x2000 4).isSome && lo = 4 then some (.ignoreAbove 4)
  else if (arrayIndex k (LK_HMQ_THR 0) 0x10 4).isSome then some (.range 1 512)
  else none

/-- The value a field takes of one written to it; none when the write is ignored. -/
def fieldTakes (k lo v : Nat) : Option Nat :=
  match ((fieldLimits.find? (fun e => e.1 = k && e.2.1 = lo)).map (·.2.2)).orElse (fun _ => arrayLimit k lo) with
  | some (.ignoreAbove n) => if n < v then none else some v
  | some (.range a b) => some (max a (min b v))
  | none => some v

/-- One field of a word under its access code (R5): `w` is the word written. -/
def storeField (locked : Bool) (k w : Nat) (old : Nat) (f : FieldD) : Nat :=
  let v := bits w f.hi f.lo
  let now := bits old f.hi f.lo
  match f.acc with
  | .rw => ((fieldTakes k f.lo v).map (insert32 old f.hi f.lo)).getD old
  | .rwl => if locked then old else ((fieldTakes k f.lo v).map (insert32 old f.hi f.lo)).getD old
  | .w1c => insert32 old f.hi f.lo (now ^^^ (now &&& v))
  | .w1s => insert32 old f.hi f.lo (now ||| v)
  | .ro | .wo | .rc => old

/-- The write would act on a /S field (R6). -/
def actsOn (locked : Bool) (shown w : Nat) (f : FieldD) : Bool :=
  f.sys && match f.acc with
    | .rw => decide (bits w f.hi f.lo ≠ bits shown f.hi f.lo)
    | .rwl => !locked && decide (bits w f.hi f.lo ≠ bits shown f.hi f.lo)
    | .wo | .w1c | .w1s => decide (bits w f.hi f.lo ≠ 0)
    | .ro | .rc => false

/-- The word with its /S fields made to change nothing. -/
def withoutSys (shown w : Nat) (l : List FieldD) : Nat :=
  l.foldl (fun w f => if f.sys then insert32 w f.hi f.lo (if f.acc == .rw || f.acc == .rwl then bits shown f.hi f.lo else 0) else w) w

namespace State

/-- A write with no rule beyond the access codes of the register's fields. -/
def storeWord (s : State) (a w : Nat) : State :=
  match regAt a with
  | none => s
  | some d => s.setReg a (BitVec.ofNat 32 (d.flds.foldl (storeField (s.on FC_LOCK_LOCK) (kindOf a) w) (s.reg a).toNat))

/-- Bit i of the word written. -/
def andThen (s : State) (b : Bool) (f : State → State) : State := if b then f s else s

/-- A discarded write of the user domain is reported (R405). -/
def reportDiscard (s : State) (a : Nat) : State :=
  let s1 := if s.on SV_DOM_REJ_REJ then s else s.put SV_DOM_REJ_OFFSET a
  ((s1.mark SV_DOM_REJ_REJ).bump SV_DOM_CNT_COUNT).source 1287

/-! ### Global registers -/

/-- A table of interrupt enables or vectors is written: risen vectors send (R415). -/
def storeVector (s : State) (a w : Nat) : State := (s.storeWord a w).vectorsRisen s.vectorMask

/-- The message queues whose source is raised by their level (R378), as bits of word 40. -/
def raisedQueues (s : State) : Nat :=
  (List.range 4).foldl (fun m q => if s.get (LK_HMQ_THR_THR q) ≤ (s.hmq q).notices.length then m ||| 2 ^ (1298 + q - 1280) else m) 0

/-- `EV_PEND` (R413): a source whose condition still holds stays pending; word 41 has eight sources. -/
def writePend (s : State) (i w : Nat) : State :=
  let held := if i = 40 then s.raisedQueues else 0
  s.storeWord (EV_PEND i) (if i = 41 then w % 256 else w ^^^ (w &&& held))

/-- MASK, CFG and PARTS of group k (R50). -/
def writeRdv (s : State) (k a w : Nat) : State :=
  if s.get (GL_RDV_STAT_STATE k) ≠ 0 then (s.mark (GL_RDV_STAT_WR_BUSY k)).source 1247
  else s.storeWord a (if a = GL_RDV_PARTS_HI k then w % 2 ^ 16 else w)

/-- `GL_PIN_LPBK` of tiller t (R391). -/
def writeLoopback (s : State) (t w : Nat) : State :=
  if s.engine t = 1 || s.engine t = 3 then s.mark (GL_PIN_LPBK_WR_BUSY t) else s.storeWord (GL_PIN_LPBK t) w

/-- `FC_ALIVE` (R420): STOPPED clears before the kick is judged. -/
def writeAlive (s : State) (v : View) (w : Nat) : State :=
  let s1 := if w.testBit 30 && hostView v && s.aliveFree then s.put FC_ALIVE_STOPPED 0 else s
  s1.andThen (w.testBit 31) (fun s => s.aliveKick (w % 2 ^ 16))

/-- `FC_REACT` word k: the block-reset bit of a block that has no reset reads 0 (R416). -/
def writeReact (s : State) (k w : Nat) : State :=
  s.storeWord (FC_REACT k) ((List.range 4).foldl (fun w j => if noBlockReset (4 * k + j) then insert32 w (8 * j + 3) (8 * j + 3) 0 else w) w)

/-- `EV_CH_STAT`: once RUNAWAY is cleared the count restarts (R411). -/
def writeChStat (s : State) (e w : Nat) : State :=
  let s1 := s.storeWord (EV_CH_STAT e) w
  if w.testBit 31 && s.on (EV_CH_STAT_RUNAWAY e) then s1.setChan e { s1.chan e with arrivals := [] } else s1

/-- `SV_CTRL` (R399): a restart before a release. -/
def writeSvCtrl (s : State) (v : View) (w : Nat) : State :=
  let s1 := s.storeWord SV_CTRL w
  if !hostView v then s1
  else (((s1.andThen (w.testBit 2) (svRestart · 0)).andThen (w.testBit 3) (svRestart · 1)).andThen (w.testBit 0) (svRelease · 0)).andThen
    (w.testBit 1) (svRelease · 1)

/-- `SV_LEAD_CLAIM` (R396, R400). -/
def writeLeadClaim (s : State) (v : View) (w : Nat) : State :=
  match supervisorOf v with
  | some d => (s.andThen (w.testBit 0) (leadClaim · d)).andThen (w.testBit 1) (leadTakeover · d)
  | none => s

/-- `SV_HB_N`, `SV_HB_S` (R394): by the named supervisor alone. -/
def writeHeartbeat (s : State) (v : View) (d : Nat) : State := if supervisorOf v = some d then s.heartbeat d else s

/-- `NV_CTRL` (R431). -/
def writeNvCtrl (s : State) (v : View) (w : Nat) : State :=
  let s1 := s.storeWord NV_CTRL w
  let lead := match supervisorOf v with
    | some d => s.leads d
    | none => false
  s1.andThen (w.testBit 31) (fun s => s.nvmGo (bits w 30 29) (hostView v) lead)

/-- `GL_WEAR_CTRL` (R356, R357). -/
def writeWearCtrl (s : State) (w : Nat) : State :=
  let s1 := s.storeWord GL_WEAR_CTRL w
  (s1.andThen (w.testBit 30 && !s1.on GL_WEAR_CTRL_TD_SRC) contactCycle).andThen (w.testBit 31) startSave

/-- Global registers below the time base, supervisors, collector and router. -/
def writeGlobalLow (s : State) (v : View) (a w : Nat) : State :=
  if a = GL_BLK_RST then (s.storeWord a w).andThen (w.testBit 31) (fun s => s.blockReset (bits w 26 24) (bits w 8 0))
  else if a = GL_PWR_CTRL then s.andThen (w.testBit 31) (fun s => s.powerCommand (v == .msp) (bits w 30 28) (w % 2 ^ 16))
  else if a = GL_BOOT_CTRL then s.andThen (w.testBit 31 && hostView v) bootHost
  else if a = GL_VRAW_TRIM_W || a = GL_VRAW_TRIM_E then (s.storeWord a w).trackVraw
  else if a = GL_PGAP then (s.storeWord a w).andThen (w.testBit 31) (fun s => s.proberGap (bits w 27 20) (bits w 19 0))
  else if a = GL_THERM_CLR then (if v == .msp then s.thermClear (bits w 31 16) else s)
  else match arrayIndex a (GL_PIN_LPBK 0) 4 64 with
    | some t => s.writeLoopback t w
    | none => s.storeWord a w

/-- The time base and the rendezvous groups. -/
def writeTimeBase (s : State) (a w : Nat) : State :=
  if a = GL_SYNC_CTRL then (s.andThen (w.testBit 0 != s.on GL_SYNC_CTRL_EN) (writeSyncEn · (w.testBit 0))).storeWord a w
  else if a = GL_SYNC_TRIM then
    (if w.testBit 31 then s.put GL_SYNC_TRIM_CLAMP 0 else s).andThen (w % 512 ≠ s.get GL_SYNC_TRIM_TRIM) (writeTrim · (w % 512))
  else if 0x1100 ≤ a && a < 0x1900 && (a - 0x1100) % 0x40 < 0x14 then s.writeRdv ((a - 0x1100) / 0x40) a w
  else s.storeWord a w

/-- Supervisors and the fault collector. -/
def writeSupervisors (s : State) (v : View) (a w : Nat) : State :=
  if a = SV_LEAD_CLAIM then s.writeLeadClaim v w
  else if a = SV_LEAD_SET then s.andThen (w.testBit 31 && hostView v) (fun s => s.leadSet (w % 4))
  else if a = SV_HB_N then s.writeHeartbeat v 0
  else if a = SV_HB_S then s.writeHeartbeat v 1
  else if a = SV_CTRL then s.writeSvCtrl v w
  else if a = SV_CMD 0 then (s.storeWord a w).andThen (w.testBit 31) (fun s => s.svCommand 0 (bits w 7 0) (bits w 23 16))
  else if a = SV_CMD 1 then (s.storeWord a w).andThen (w.testBit 31) (fun s => s.svCommand 1 (bits w 7 0) (bits w 23 16))
  else if a = FC_INJ then (s.storeWord a w).injectWrite (w.testBit 31) (s.on FC_INJ_CONT)
  else if a = FC_ALIVE then s.writeAlive v w
  else match arrayIndex a (FC_STAT 0) 4 8, arrayIndex a (FC_REACT 0) 4 46 with
    | some k, _ => s.statClear k w
    | _, some k => s.writeReact k w
    | _, _ => s.storeWord a w

/-- The event router and the interrupt words. -/
def writeEvents (s : State) (v : View) (a w : Nat) : State :=
  if a < 0x4800 then (if a % 8 = 0 then s.chCfgWrite ((a - 0x4000) / 8) w (userView v) else s.writeChStat ((a - 0x4000) / 8) w)
  else if a = EV_FIRE then (s.storeWord a w).andThen (w.testBit 31) (fun s => s.evFire (w % 256) (userView v))
  else match arrayIndex a (EV_PEND 0) 4 42, arrayIndex a (EV_ENA 0) 4 42, arrayIndex a (EV_VMAP 0) 4 9, arrayIndex a (EV_VEC_REARM 0) 4 2 with
    | some i, _, _, _ => s.writePend i w
    | _, some i, _, _ => s.storeVector a (if i = 41 then w % 256 else w)
    | _, _, some _, _ => s.storeVector a w
    | _, _, _, some n => s.vecRearm n w
    | _, _, _, _ => s.storeWord a w

/-- NVM, management port and wear. -/
def writeAux (s : State) (v : View) (a w : Nat) : State :=
  if a = NV_DATA then s.nvmFill w
  else if a = NV_CTRL then s.writeNvCtrl v w
  else if a = MSP_M_CMD then (s.storeWord a w).andThen (w.testBit 31) mspGo
  else if a = MSP_M_LEN then s.mspLen w
  else if a = MSP_M_DATA then s.mspPush w
  else if a = GL_WEAR_CTRL then s.writeWearCtrl w
  else s.storeWord a w

def writeGlobal (s : State) (v : View) (a w : Nat) : State :=
  if a < 0x1000 then s.writeGlobalLow v a w
  else if a < 0x2000 then s.writeTimeBase a w
  else if a < 0x4000 then s.writeSupervisors v a w
  else if a < 0x6000 then s.writeEvents v a w
  else s.writeAux v a w

/-! ### Strip registers -/

/-- Write the eleven bits of strip r in the words of all sources: a mask to clear, or the new values (R413). -/
def putStripBits (s : State) (f : Nat → Field) (r : Nat) (b : Nat → Bool → Bool) : State :=
  (List.range 11).foldl (fun s k =>
    let n := 1152 + 11 * r + k
    s.putBit (f (n / 32)) (n % 32) (b k (s.fbit (f (n / 32)) (n % 32)))) s

/-- `ST_CAL_CTRL`: EN takes a waiting strip to IDLE and back (R346). Then ABORT, COMMIT, RELOAD, RUN_NOW act in this order. -/
def writeCalCtrl (s0 : State) (r w : Nat) : State :=
  let s := s0.storeWord (ST_CAL_CTRL r) w
  ((((s.andThen (decide (s.calState r ≤ 1)) (fun s => s.put (ST_CAL_STAT_STATE r) (s.calRest r))).andThen (w.testBit 30) (calAbort · r)).andThen (w.testBit 29) (calCommit · r)).andThen (w.testBit 28)
    (calReload · r)).andThen (w.testBit 31) (runNow · r)

def writeStrip (s : State) (r a w : Nat) : State :=
  if a = ST_TH_EVT r then s.putStripBits EV_PEND_PEND r (fun k b => b && !w.testBit k)
  else if a = ST_TH_EVT_EN r then (s.putStripBits EV_ENA_ENA r (fun k _ => w.testBit k)).vectorsRisen s.vectorMask
  else if a = ST_CAL_CTRL r then s.writeCalCtrl r w
  else if a = ST_CAL_DATA r then s.calDataWrite r w
  else s.storeWord a w

/-! ### Thresher and sheaf registers -/

/-- `TH_CTRL` (R232, R240, R265): MODE and FAILMAP change only while STOPPED. -/
def writeThCtrl (s : State) (i w : Nat) : State :=
  let changes := decide (bits w 3 2 ≠ 3 ∧ bits w 3 2 ≠ s.get (TH_CTRL_MODE i)) || w.testBit 4 != s.on (TH_CTRL_FAILMAP i)
  let s0 := s.put (TH_CTRL_HMQ i) (bits w 9 8)
  let s1 := if s.thState i ≠ 0 then s0.andThen changes (·.mark (TH_STAT_WR_BUSY i))
    else (if bits w 3 2 = 3 then s0 else s0.put (TH_CTRL_MODE i) (bits w 3 2)).put (TH_CTRL_FAILMAP i) (bits w 4 4)
  (s1.andThen (w.testBit 1) (thRestart · i)).andThen (w.testBit 0 != s.on (TH_CTRL_RUN i)) (writeRun · i (w.testBit 0))

/-- `TH_RING_LO`, `TH_RING_HI` (R260, R262): only while STOPPED; a write empties the ring. -/
def writeRing (s : State) (i a w : Nat) : State :=
  if s.thState i ≠ 0 then s.mark (TH_STAT_WR_BUSY i)
  else (((s.storeWord a (if a = TH_RING_HI i && decide (10 < bits w 31 28) then insert32 w 31 28 (s.get (TH_RING_HI_SIZE i)) else w)).put (TH_RING_HEAD_INDEX i) 0).put (TH_RING_TAIL_INDEX i) 0).modThr i (fun x => { x with ringNext := 0 })

def writeThresher (s : State) (i a w : Nat) : State :=
  if a = TH_CTRL i then s.writeThCtrl i w
  else if a = TH_CMD i then (s.storeWord a w).andThen (w.testBit 31) (fun s => s.thCommand i (bits w 27 24) (w % 4))
  else if a = TH_RING_LO i || a = TH_RING_HI i then s.writeRing i a w
  else if a = TH_RING_TAIL i then (if s.ringSize i ≤ w % 2 ^ 16 then s else s.storeWord a w)
  else s.storeWord a w

/-- The path that `SH_UC_VERSION.SRC` names for a write (R252): a supervisor's is its boot service's. -/
def uploadPath (v : View) : Nat := match v with
  | .msp => 3
  | .svn | .svs => 1
  | _ => 2

/-- `SH_UCS_CTRL` (R252). -/
def writeUcsCtrl (s : State) (u w : Nat) : State :=
  let s1 := (s.put (SH_UCS_CTRL_ADDR u) (bits w 13 0)).andThen (w.testBit 30) (·.put (SH_UCS_CTRL_REFUSED u) 0)
  s1.andThen (w.testBit 31 != s.on (SH_UCS_CTRL_LOAD_EN u)) (ucsLoadEn · u (w.testBit 31))

def writeSheaf (s : State) (v : View) (u a w : Nat) : State :=
  if a = SH_UCS_CTRL u then s.writeUcsCtrl u w
  else if a = SH_UCS_FINISH u then s.andThen (w.testBit 31) (fun s => s.ucsFinish u (uploadPath v) (bits w 23 16) (bits w 15 0))
  else if a = SH_UCRD_ADDR u then (s.storeWord a w).present u
  else if a = SH_XBAR_ROUTE u then s.writeXbar u w
  else match arrayIndex a (SH_UCS_DATA u 0) 4 8, arrayIndex a (SH_CTX_MAP u 0) 4 4, arrayIndex a (SH_RMAP u 0) 4 4, arrayIndex a (SH_SPARE u 0) 4 4 with
    | some k, _, _, _ => s.ucsData u k w
    | _, some _, _, _ => if 4096 < bits w 11 0 + bits w 28 16 then s else s.storeWord a w
    | _, _, some _, _ => if 12 < bits w 8 5 + bits w 17 14 || 16 < bits w 22 18 || 16 < bits w 27 23 then s else s.storeWord a w
    | _, _, _, some _ => if 8 < bits w 3 0 || 8 < bits w 7 4 then s else s.storeWord a w
    | _, _, _, _ => s.storeWord a w

/-! ### Tiller registers -/

/-- `TL_EVIN` (R128): a latch written 1 in both fields ends up set. -/
def writeEvin (s : State) (t w : Nat) : State :=
  let s1 := (List.range 8).foldl (fun s j => s.andThen (w.testBit j) (dropLatch · t j)) (s.storeWord (TL_EVIN t) w)
  (List.range 8).foldl (fun s j => s.andThen (w.testBit (8 + j)) (setLatch · t j)) s1

/-- `TL_SEG_CTRL` (R141, R154). A break asked for after the test of the pass's last vector counts for the next pass. -/
def segBreak (s : State) (t : Nat) : State :=
  let s1 := s.mark (TL_SEG_STAT_BRK_REQ t)
  if (s.tl t).brk then s1.modTl t (fun x => { x with brkReq := true }) else s1
def writeSegCtrl (s : State) (t w : Nat) : State :=
  ((s.storeWord (TL_SEG_CTRL t) w).andThen (w.testBit 2) (fun s => (s.takePrimes t s.now).prime t (bits w 15 8))).andThen (w.testBit 1) (segBreak · t)

/-- `TL_SEG_CHECK` (R148). -/
def writeSegCheck (s : State) (t w : Nat) : State :=
  (s.storeWord (TL_SEG_CHECK t) w).andThen (w.testBit 31) (·.mark (TL_SEG_CHECK_BUSY t))

/-- The check completes: the result is the cause of the first check that fails. -/
def segCheckDone (s : State) (t : Nat) : State :=
  if s.on (TL_SEG_CHECK_BUSY t) then
    (s.put (TL_SEG_CHECK_BUSY t) 0).put (TL_SEG_CHECK_RESULT t) (descCause (s.readDesc t (s.get (TL_SEG_CHECK_SEG t))))
  else s

/-- `TL_CAP_CTRL` (R216, R218, R220): ABORT before ARM. DESIGN CHOICE: AUTO written 1 in a DONE unit whose entries are all read re-arms it
at that write, since no last pop is still to come (log entry 25). -/
def writeCapCtrl (s : State) (t w : Nat) : State :=
  (((s.storeWord (TL_CAP_CTRL t) w).andThen (w.testBit 1) (writeAbort · t)).andThen (w.testBit 0) (writeArm · t)).autoRearm t

/-- `TL_FQ_CTRL` (R209 to R211): FLUSH before DEST. -/
def writeFqCtrl (s : State) (t w : Nat) : State :=
  let s1 := (s.put (TL_FQ_CTRL_PKT_MODE t) (bits w 1 1)).andThen (w.testBit 2) (requestFlush · t)
  if bits w 0 0 = s.get (TL_FQ_CTRL_DEST t) then s1 else s1.writeDest t (bits w 0 0)

/-- `TL_ADC_CTRL` (R305, R310, R316): ABORT before TRIG. -/
def writeAdcCtrl (s : State) (t w : Nat) : State :=
  let s1 := (s.storeWord (TL_ADC_CTRL t) w).afterRef t (s.refOn t)
  (s1.andThen (w.testBit 2) (adcAbort · t)).andThen (w.testBit 1) (fun s => s.adcTrigger t s.now (s.get (TL_ADC_BURST_COUNT t)))

/-- `TL_TDC_CTRL`: ABORT before ARM, after the arms that have reached the TDC before (R121). -/
def writeTdcCtrl (s : State) (t w : Nat) : State := ((s.takeArms t s.now).andThen (w.testBit 2) (tdcAbort · t)).andThen (w.testBit 1) (tdcArmWrite · t)

/-- The registers that command and set up the TDC; the unused bits of a source byte read 0 (R317). -/
def writeTdc (s : State) (t a w : Nat) : State :=
  if a = TL_TDC_CTRL t then s.writeTdcCtrl t w else s.storeWord a (if a = TL_TDC_SRC t then w &&& 0x3F3F else w)

/-- The load current of a step that a register write takes: given, or free (log entry 6). -/
def loadDrawn (s : State) (load : Option Nat) : State × Nat := match load with
  | some i => (s, i)
  | none => (s.draw, Config.loadCurrent s.draws)

/-- A VDUT range field (R271). -/
def writeRange (s : State) (t range : Nat) (load : Option Nat) : State :=
  if (range = s.get (TL_SUP_CTRL_RNG t 0) && !s.on (TL_SUP_STAT_RNG_PEND t 0)) || s.queueStands t 2 then s
  else if s.supOn t 0 then (s.loadDrawn load).1.changeRange t range (s.loadDrawn load).2
  else s.changeRange t range 0

/-- An EN field (R269). -/
def writeEn (s : State) (t h : Nat) (en : Bool) (load : Option Nat) : State :=
  if en then (if s.on (TL_SUP_CTRL_EN t h) then s else s.requestEnable t h)
  else if s.supOn t h then (s.loadDrawn load).1.disableOutput t h (s.loadDrawn load).2
  else s.disableOutput t h 0

/-- SRC decides which input the setpoint chain takes (R266, R267). -/
def writeSrc (s : State) (t h src : Nat) : State :=
  if src = 3 || src = s.get (TL_SUP_CTRL_SRC t h) then s
  else
    let s1 := s.put (TL_SUP_CTRL_SRC t h) src
    ((if src = 0 then s1.setSup t h { s1.sup t h with codeIn := s1.get (TL_SUP_CODE_CODE t h) } else s1).runChain t h).1

/-- `TL_VDUT_CTRL`, `TL_HV_CTRL`: EN is judged before CLEAR. -/
def writeSupCtrl (s : State) (t h w : Nat) (load : Option Nat) : State :=
  let s1 := ((s.put (TL_SUP_CTRL_CB_EN t h) (bits w 31 31)).put (TL_SUP_CTRL_SUP_EN t h) (bits w 30 30)).afterRef t (s.refOn t)
  let s2 := s1.writeSrc t h (bits w 7 6)
  let s3 := if h = 0 then s2.writeRange t (bits w 5 4) load else s2.writeSpan t (w.testBit 4)
  (s3.writeEn t h (w.testBit 0) load).andThen (w.testBit 8) (supplyClear · t h)

/-- The ceiling may only be lowered (R279). -/
def writeCeiling (s : State) (t h w : Nat) : State :=
  if s.get (TL_SUP_ECEIL_ECEIL t h) < w % 2 ^ 16 then s.supFlag t h (TL_SUP_STAT_CEIL_REJ t h)
  else (s.storeWord (TL_SUP_ECEIL t h) w).recomputeEnergy t h

/-- Player registers (R293): while ARMED or RUNNING only STOP acts, and a write that is not STOP alone sets WR_BUSY. -/
def writeWfCtrl (s : State) (t h w : Nat) : State :=
  let s1 := s.storeWord (TL_SUP_WF_CTRL t h) w
  if s.wfState t h = 1 || s.wfState t h = 2 then
    let s2 := s.andThen (w.testBit 31 || !w.testBit 30 || decide (s1 ≠ s)) (·.mark (TL_SUP_WF_STAT_WR_BUSY t h))
    s2.andThen (w.testBit 30) (wfStop · t h)
  else (s1.andThen (w.testBit 30) (wfStop · t h)).andThen (w.testBit 31) (wfGo · t h)
def writePlayer (s : State) (t h a w : Nat) : State :=
  if s.wfState t h = 1 || s.wfState t h = 2 then s.mark (TL_SUP_WF_STAT_WR_BUSY t h)
  else s.storeWord a (if a = TL_SUP_WF_SEED t h then w % 2 ^ 31 else w)

/-- Registers of supply h. -/
def writeSupply (s : State) (t h a w : Nat) (load : Option Nat) : State :=
  if a = TL_SUP_CTRL t h then s.writeSupCtrl t h w load
  else if a = TL_SUP_CODE t h then if s.queueStands t (2 * h + 1) then s else (s.writeCode t h (if h = 0 then w % 2 ^ 18 else w % 2 ^ 16)).1
  else if a = TL_SUP_VLIM t h then ((s.storeWord a w).runChain t h).1.trackVraw
  else if a = TL_SUP_CEXT t h then (s.storeWord a w).recomputeEnergy t h
  else if a = TL_SUP_ECEIL t h then s.writeCeiling t h w
  else if a = TL_SUP_SLEW t h then (s.storeWord a w).slewWritten t h
  else if a = TL_SUP_ILIM t 1 && s.queueStands t 4 then s.put (TL_SUP_ILIM_TIME t 1) (bits w (TL_SUP_ILIM_TIME t 1).hi (TL_SUP_ILIM_TIME t 1).lo)
  else if a = TL_SUP_WF_CTRL t h then s.writeWfCtrl t h w
  else if 0x40 ≤ a % 0x100 then s.writePlayer t h a w
  else s.storeWord a w

/-- The guarded APG register at an address of tiller t. -/
def apgRegAt (t a : Nat) : Option ApgReg :=
  ([.ctrl, .x, .y, .d, .xmax, .ymax, .index 0, .index 1, .index 2, .index 3, .bg 0, .bg 1, .bg 2, .bg 3, .dxm, .dym, .tsel] : List ApgReg).find? (fun r => apgAddr t r = a)

/-- Registers of tiller t but its supplies. -/
def writeEngine (s : State) (t a w : Nat) : State :=
  if a = TL_SEQ_CTRL t then (s.storeWord a w).seqCommands t (w.testBit 1) (w.testBit 2) (w.testBit 0)
  else if a = TL_STICKY t then s.clearSticky t (w % 256) s.now
  else if a = TL_TRACE_RD t then s.traceSelect t (w % 256)
  else if a = TL_EVIN t then s.writeEvin t w
  else if a = TL_SEG_CTRL t then s.writeSegCtrl t w
  else if a = TL_SEG_CHECK t then s.writeSegCheck t w
  else if a = TL_CAP_CTRL t then s.writeCapCtrl t w
  else if a = TL_FQ_CTRL t then s.writeFqCtrl t w
  else if a = TL_ADC_CTRL t then s.writeAdcCtrl t w
  else if within a (TL_TDC_CTRL t) 0x10 then (s.takeArms t s.now).writeTdc t a w
  else match apgRegAt t a, arrayIndex a (TL_TRIG_PAT t 0) 4 4, arrayIndex a (TL_TRIG_CFG t 0) 4 4 with
    | some r, _, _ => s.apgWrite t r w
    | _, some i, _ => s.writePattern t i w
    | _, _, some i => s.writeCondition t i w
    | _, _, _ => s.storeWord a w

def writeTiller (s : State) (t a w : Nat) (load : Option Nat) : State :=
  if (a % 0x1000) / 0x100 = 5 then s.writeSupply t 0 a w load
  else if (a % 0x1000) / 0x100 = 6 then s.writeSupply t 1 a w load
  else s.writeEngine t a w

/-! ### Pin registers -/

/-- A driver or PPMU that connects ends the tiller's calibration interval first (R340). -/
def connects (s : State) (g : Nat) (b : Bool) : State := if b && s.freeTiller (g / 8) then s.endInterval (g / 8) else s

/-- The comparator outputs after a write of SELFTEST: complements where SWAP came or went, or what a tie gives (R190). -/
def selfTestOutputs (s : State) (g : Nat) (before : Bool) : State :=
  if (s.tiedTo g).isSome then s.followTie g
  else if s.swapped g = before || s.on (PN_STAT_MODE_SETTLING g) then s
  else s.complement g s.now

/-- `PN_CTRL` (R181 to R190, R430). -/
def writePinCtrl (s0 : State) (g w0 : Nat) : State :=
  let s := (s0.catchUp g s0.now).connects g (w0.testBit 0 && !s0.power.noSafe)
  let w := if s.power.noSafe then insert32 w0 1 0 (s.get ⟨PN_CTRL g, 1, 0⟩) else w0
  let selfNew := decide (bits w 11 9 ≤ 5 ∧ bits w 11 9 ≠ s.get (PN_CTRL_SELFTEST g))
  let busy := selfNew && (s.engine (g / 8) = 1 || s.engine (g / 8) = 3)
  let s1 := s.storeWord (PN_CTRL g) (if busy then insert32 w 11 9 (s.get (PN_CTRL_SELFTEST g)) else w)
  let s2 := s1.andThen busy (·.mark (PN_STAT_WR_BUSY g))
  let s3 := (s2.put (PN_STAT_SELFTEST_ACTIVE g) (b2n ((s2.pin g).calPath || s2.get (PN_CTRL_SELFTEST g) ≠ 0))).selfTestOutputs g (s.swapped g)
  s3.andThen (s3.get (PN_CTRL_CMP_MODE g) ≠ s.get (PN_CTRL_CMP_MODE g)) (·.mark (PN_STAT_MODE_SETTLING g))

/-- `PN_PPMU_CTRL` (R191, R194). -/
def writePpmu (s0 : State) (g w : Nat) : State :=
  let s := s0.connects g (decide (1 ≤ bits w 2 0 ∧ bits w 2 0 ≤ 4))
  let s1 := s.storeWord (PN_PPMU_CTRL g) w
  if s1.get (PN_PPMU_CTRL_RANGE g) ≠ s.get (PN_PPMU_CTRL_RANGE g) then s1.setPin g { s1.pin g with ppmuAt := some s1.ticks } else s1

/-- `PN_CMP` (R188): a latch clears and records from the engine cycle of the write on. DEDUCED: that is the cycle in which the tick of the
write begins, or that of the pin's newest comparator change if it is later (log entry 24). -/
def writeCmp (s0 : State) (g w : Nat) : State :=
  let s := s0.catchUp g s0.now
  let inst := ((s.pin g).history.head?.map (·.at_)).elim s.now (max s.now)
  s.latchFrom g (inst / 160 * 160) (w.testBit 3) (w.testBit 2)

def writePin (s : State) (g a w : Nat) : State :=
  if a = PN_CTRL g then s.writePinCtrl g w
  else if a = PN_PPMU_CTRL g then s.writePpmu g w
  else if a = PN_PPMU_FORCE g then s.writeLevel g 7 (w % 2 ^ 16)
  else if a = PN_CMP g then s.writeCmp g w
  else match arrayIndex a (PN_LVL g 0) 4 7 with
    | some k => s.writeLevel g k (w % 2 ^ 16)
    | none => s.storeWord a w

/-! ### Link registers -/

/-- DMA channel states of `LK_DMA_STAT.STATE`: 0 IDLE, 1 ACTIVE, 2 ERROR. -/
def dmaState (s : State) (c : Nat) : Nat := s.get (LK_DMA_STAT_STATE c)

/-- Entries of channel c's ring (R373). -/
def dmaRing (s : State) (c : Nat) : Nat := 2 ^ (s.get (LK_DMA_SIZE_SIZE c) + 4)

/-- The channel goes on to the next ring entry. -/
def dmaAdvance (s : State) (c : Nat) : State :=
  ((s.put (LK_DMA_CONS_INDEX c) ((s.get (LK_DMA_CONS_INDEX c) + 1) % s.dmaRing c)).put (LK_DMA_STAT_STATE c) 0).setDma c (s.dma c).again

/-- RESUME leaves ERROR, skipping the failed descriptor (R375); an error notice that waits is posted first (R377). -/
def dmaResume (s : State) (c : Nat) : State := if s.dmaState c = 2 && (s.dma c).note.isNone then s.dmaAdvance c else s

/-- ABORT stops the channel (R373). DEDUCED: EN reads 0 and CONS stays. -/
def dmaAbort (s : State) (c : Nat) : State :=
  let s1 := s.put (LK_DMA_CTRL_EN c) 0
  if s.dmaState c = 1 && (s.dma c).note.isNone then (s1.setDma c (s.dma c).again).put (LK_DMA_STAT_STATE c) 0 else s1

/-- EN written 1 takes the domain of the view (R373). -/
def dmaEnable (s : State) (c : Nat) (en user : Bool) : State :=
  if en then (s.put (LK_DMA_CTRL_EN c) 1).put (LK_DMA_CTRL_DOMAIN c) (b2n (!user)) else s.put (LK_DMA_CTRL_EN c) 0

/-- `LK_DMA_CTRL`: EN, RESUME, ABORT, in this order. -/
def writeDmaCtrl (s : State) (v : View) (c w : Nat) : State :=
  ((s.dmaEnable c (w.testBit 0) (userView v)).andThen (w.testBit 1) (dmaResume · c)).andThen (w.testBit 2) (dmaAbort · c)

/-- `LK_PCIE_LPBK` (R392): taken from the management port alone; the link is down while the loopback acts. -/
def writePcieLoopback (s : State) (v : View) (w : Nat) : State :=
  if v != .msp then s else (s.storeWord LK_PCIE_LPBK w).andThen (w.testBit 31) (·.pcieLinkDown)

def writeLink (s : State) (v : View) (a w : Nat) : State :=
  if a = LK_PCIE_LPBK then s.writePcieLoopback v w
  else match arrayIndex a (LK_DMA_CTRL 0) 0x40 8, arrayIndex a (LK_DMA_SIZE 0) 0x40 8, arrayIndex a (LK_HMQ_THR 0) 0x10 4, arrayIndex a (LK_G_CTRL 0) 0x2000 4 with
    | some c, _, _, _ => s.writeDmaCtrl v c w
    | _, some c, _, _ => if s.on (LK_DMA_CTRL_EN c) then s else s.storeWord a w
    | _, _, some q, _ => (s.storeWord a w).hmqLevel q
    | _, _, _, some p => (s.storeWord a w).settlePort p (w.testBit 1)
    | _, _, _, _ => s.storeWord a w

/-- A word of the MSI-X table (R372): an entry that is unmasked while its message is pending sends it. -/
def writeMsix (s : State) (a w : Nat) : State :=
  if 0x81800 ≤ a then s
  else
    let v := (a - 0x81000) / 16
    let k := (a - 0x81000) % 16 / 4
    let s1 := s.setReg a (BitVec.ofNat 32 (if k = 3 then w % 2 else if k = 0 then w - w % 4 else w))
    if k = 3 && w % 2 = 0 && (s1.reg (msixPending (v / 32))).toNat.testBit (v % 32) then
      (s1.putBit ⟨msixPending (v / 32), 31, 0⟩ (v % 32) false).sendVector v
    else s1

/-! ### Tables (R24, R25) -/

/-- Largest value of edge e in a set of period p (R166). -/
def edgeBound (p e : Nat) : Nat := if e < 3 then p - 1 else p + 4095

/-- The check a write of word `off` of a timing set meets (R167): 0, or the reason. -/
def timingReason (s : State) (t k off w : Nat) : Nat :=
  if off = 0 then
    if w % 2 ^ 24 < 160 then 1 else if w / 2 ^ 24 ≠ 0 then 2
    else if (List.range 8).any (fun p => (List.range 5).any (fun e => decide (edgeBound (w % 2 ^ 24) e < s.tsEdge t k p e))) then 4 else 0
  else if off % 0x20 = 0 then
    if w / 2 ^ 7 ≠ 0 then 2 else if 4 < bits w 2 0 || 4 < bits w 6 4 || (bits w 2 0 = 4 && w.testBit 3) then 5 else 0
  else if w / 2 ^ 24 ≠ 0 then 2 else if edgeBound (s.tsPeriod t k) (off % 0x20 / 4 - 1) < w then 3 else 0

/-- A word of a timing set that holds something: the period, a format, an edge. -/
def timingWord (off : Nat) : Bool := off = 0 || (decide (0x100 ≤ off) && decide (off % 0x20 < 0x18))

/-- TIMING_SET_WRITE (R165, R167). -/
def timingWrite (s : State) (t k off w : Nat) : State :=
  if off = 8 then (if w.testBit 31 then s.put ⟨tsAddr t k 8, 31, 31⟩ 0 else s)
  else if !timingWord off then s
  else if s.timingReason t k off w = 0 then s.setReg (tsAddr t k off) (BitVec.ofNat 32 w)
  else s.setReg (tsAddr t k 8) (BitVec.ofNat 32 (2 ^ 31 + s.timingReason t k off w * 2 ^ 28 + off))

/-- A word of table space: a scrambler or topology entry, a level change, a segment descriptor, a deskew word. -/
def writeTable (s : State) (a w : Nat) : State :=
  if a < 0x300000 then s.timingWrite ((a - 0x100000) / 0x8000) ((a - 0x100000) % 0x8000 / 0x200) (a % 0x200) w
  else if a < 0x340000 then s.setReg a (BitVec.ofNat 32 w)
  else if a < 0x540000 then (if (a - 0x340000) % 0x8000 < 0x4040 then s.setReg a (BitVec.ofNat 32 w) else s)
  else if a < 0x5C0000 then ((s.takePrimes ((a - 0x540000) / 0x2000) s.now).setReg a (BitVec.ofNat 32 w)).descriptorWritten ((a - 0x540000) / 0x2000) ((a - 0x540000) % 0x2000 / 32)
  else if a % 0x20 < 0x14 then s.setReg a (BitVec.ofNat 32 (w % 2 ^ 16)) else s

/-! ### Every write -/

/-- The register's own rules. -/
def writeOwn (s : State) (v : View) (a w : Nat) (load : Option Nat) : State :=
  if a < 0x10000 then s.writeGlobal v a w
  else if a < 0x20000 then s.writeStrip (unitOf a) a w
  else if a < 0x30000 then (if a % 0x1000 < 0x800 then s.writeThresher (unitOf a) a w else s.writeSheaf v (unitOf a) a w)
  else if a < 0x80000 then (if a % 0x1000 < 0x800 then s.writeTiller (unitOf a) a w load else s.writePin (unitOf a) a w)
  else s.writeLink v a w

/-- A supervisor's write that needs the lead token (R397). -/
def leadOnly (s : State) (a w : Nat) : Bool :=
  a = GL_VRAW_TRIM_W || a = GL_VRAW_TRIM_E || a = GL_SYNC_CTRL || a = GL_SYNC_TRIM || (a = GL_BLK_RST && bits w 26 24 = 4)
    || (a = NV_CTRL && w.testBit 31 && (bits w 30 29 = 1 || bits w 30 29 = 2)) || a = FC_ALIVE || a = FC_LOCK
    || (arrayIndex a (FC_REACT 0) 4 46).isSome || (decide (0x20804 ≤ kindOf a) && decide (kindOf a < 0x20838))
    || (arrayIndex (kindOf a) (TH_ENTRY 0 0) 4 5).isSome
    || ((arrayIndex a (EV_CH_CFG 0) 8 256).isSome && (w.testBit 29 || decide (bits w 28 22 ≠ bits (s.reg a).toNat 28 22)))

/-- A supervisor writes. -/
def supervisorWrite (s : State) (v : View) (d a w : Nat) (load : Option Nat) : State :=
  if 0x10000 ≤ a && a < 0x20000 && !s.serves d (unitOf a) then s.mark (svDomRej d)
  else if s.leadOnly a w && !s.leads d then s.leadConflict d
  else s.writeOwn v a w load

/-- The user domain writes (R6): what falls on /S fields is discarded. -/
def userWrite (s : State) (v : View) (d : RegD) (a w : Nat) (load : Option Nat) : State :=
  let s1 := if d.flds.any (actsOn (s.on FC_LOCK_LOCK) (s.shown a) w) then s.reportDiscard a else s
  if d.flds.all (fun f => f.sys || f.acc == .ro || f.acc == .rc) then s1 else s1.writeOwn v a (withoutSys (s.shown a) w d.flds) load

/-- A write of an aligned word of register space (R5, R10, R11), with the current of the output it may switch, if that is
known. -/
def regWriteWith (s : State) (v : View) (a w : Nat) (load : Option Nat) : State :=
  if !s.reachable a || a % 4 ≠ 0 then s
  else if isTable a then s.writeTable a w
  else if isMsix a then (if userView v then s else s.writeMsix a w)
  else match regAt a with
    | none => s
    | some d =>
      if userView v then s.userWrite v d a w load
      else match supervisorOf v with
        | some k => s.supervisorWrite v k a w load
        | none => s.writeOwn v a w load

def regWrite (s : State) (v : View) (a w : Nat) : State := s.regWriteWith v a w none

/-- One 32-bit write as it comes in (R10): over PCIe one without all four byte enables is discarded. -/
def wordWrite (s : State) (v : View) (a : Nat) (w : Word) (be : BitVec 4) : State :=
  if (v == .bar0 || v == .bar4) && be ≠ 15 then s else s.regWrite v a w.toNat

/-- A write access (R10): one of 64 bits is two of 32, the low address first. -/
def busWrite (s : State) (v : View) (a : Nat) (w : WriteData) : State :=
  match w.hi with
  | none => s.wordWrite v a w.word w.be
  | some h => (s.wordWrite v a w.word w.be).wordWrite v (a + 4) h.1 h.2

/-- A write of a register with one field replaced and its WO bits 0: what a command that names one field or one action writes. -/
def mergeFieldWith (s : State) (v : View) (f : Field) (val : Nat) (load : Option Nat) : State :=
  match regAt f.addr with
  | none => s
  | some d =>
    let keep := (d.flds.filter (fun g => g.acc == .rw || g.acc == .rwl)).foldl (fun w g => insert32 w g.hi g.lo (bits (s.shown f.addr) g.hi g.lo)) 0
    s.regWriteWith v f.addr (insert32 keep f.hi f.lo val) load

def mergeField (s : State) (v : View) (f : Field) (val : Nat) : State := s.mergeFieldWith v f val none

end State

end Sys2Proof.Machine
end

