-- ==== Sys2Proof/Machine/Operands.lean ====
section
/-! DEFINITION. The words that command operands stand for: microwords with one operation (08_threshers.md, R234, R235), command
words of the time base (R33) and of the supervisors' mailboxes (R401). -/

namespace Sys2Proof.Machine

/-! ### Microwords that hold one operation (R234) -/

/-- The sequence slot. -/
def seqWord (op : Nat) : Nat := op
def seqTarget (op target : Nat) : Nat := op + target * 2 ^ 8
def seqCount (op n : Nat) : Nat := op + n * 2 ^ 8
def seqCond (op cond buf target : Nat) : Nat := op + target * 2 ^ 8 + cond * 2 ^ 22 + buf * 2 ^ 96

/-- The ALU slot. -/
def aluWord (op : Nat) (o : AluOps) : Nat :=
  op * 2 ^ 32 + o.dst.val * 2 ^ 40 + o.srca.val * 2 ^ 45 + o.srcb.val * 2 ^ 50 + b2n o.bimm * 2 ^ 55 + o.imm.toNat * 2 ^ 56

/-- The memory slot. -/
def memWord (op : Nat) (o : MemOps) : Nat :=
  op * 2 ^ 88 + o.buf.val * 2 ^ 96 + o.ma.val * 2 ^ 100 + o.md.val * 2 ^ 105 + o.moff.toNat * 2 ^ 110

/-- The context slot. -/
def ctxWord (op : Nat) (o : CtxOps) : Nat := op * 2 ^ 128 + o.coff.val * 2 ^ 136 + o.creg.val * 2 ^ 142 + o.cw.val * 2 ^ 147

/-- The input, scratch and output slot. -/
def ioWord (op : Nat) (o : IoOps) : Nat := op * 2 ^ 160 + o.id.val * 2 ^ 168 + o.ia.val * 2 ^ 173 + o.iimm.toNat * 2 ^ 178

/-! ### Register words -/

/-- `GL_BLK_RST` with GO (R18). -/
def blkRstWord (scope index : Nat) : Nat := 2 ^ 31 + scope * 2 ^ 24 + index

/-- `GL_PWR_CTRL` with GO (R439 to R442). -/
def pwrWord (cmd key : Nat) : Nat := 2 ^ 31 + cmd * 2 ^ 28 + key

/-- `GL_PGAP` with GO (R338). -/
def pgapWord (strips len : Nat) : Nat := 2 ^ 31 + strips * 2 ^ 20 + len

/-- `TH_CMD` with GO (R255). -/
def thCmdWord (cmd q : Nat) : Nat := 2 ^ 31 + cmd * 2 ^ 24 + q

/-- The register of a pin level: the seven levels, and the PPMU force code (R179). -/
def levelReg (g k : Nat) : Nat := if k = 7 then PN_PPMU_FORCE g else PN_LVL g k

namespace State

/-- A mailbox command (R401): the arguments, then the code with GO. -/
def svCall (s : State) (v : View) (d code a0 a1 a2 : Nat) : State :=
  (((s.regWrite v (SV_ARG d 0) a0).regWrite v (SV_ARG d 1) a1).regWrite v (SV_ARG d 2) a2).regWrite v (SV_CMD d) (2 ^ 31 + code)

/-- A comparator output changes at an instant (R185, R188). -/
def crossingAt (s : State) (g : Nat) (high above : Bool) (at_ : Nat) : State := (s.advInst at_).crossing g at_ high above

/-- The commands that only a register gives: a write of one field. -/
def releaseField (d : Nat) : Field := if d = 0 then SV_CTRL_RELEASE_N else SV_CTRL_RELEASE_S
def restartField (d : Nat) : Field := if d = 0 then SV_CTRL_RESTART_N else SV_CTRL_RESTART_S

end State

end Sys2Proof.Machine
end

