-- ==== Sys2Proof/Machine/CmdApg.lean ====
section
/-! DEFINITION. Address and data operations of the APG and its guarded registers (04_tiller_flow_and_apg.md, R99 to R109). -/

namespace Sys2Proof.Machine

/-- ADDR_HOLD (R99): Address operation HOLD reduces the generator value modulo M + 1. -/
def execAddrHold (t : Fin 64) (gen : Gen) (s : State) : Host.Outcome State Fault Refusal := .next (s.addrOp t.val gen ⟨0, 0, false⟩)

/-- ADDR_INC (R99): Address operation INC steps the generator up with carry at M. -/
def execAddrInc (t : Fin 64) (gen : Gen) (chain : Bool) (s : State) : Host.Outcome State Fault Refusal := .next (s.addrOp t.val gen ⟨1, 0, chain⟩)

/-- ADDR_DEC (R99): Address operation DEC steps the generator down with carry at 0. -/
def execAddrDec (t : Fin 64) (gen : Gen) (chain : Bool) (s : State) : Host.Outcome State Fault Refusal := .next (s.addrOp t.val gen ⟨2, 0, chain⟩)

/-- ADDR_COMP (R99): Address operation COMP sets the generator to M − A. -/
def execAddrComp (t : Fin 64) (gen : Gen) (s : State) : Host.Outcome State Fault Refusal := .next (s.addrOp t.val gen ⟨3, 0, false⟩)

/-- ADDR_LDI (R99): Address operation LDI loads I[n] reduced modulo M + 1. -/
def execAddrLdi (t : Fin 64) (gen : Gen) (n : Fin 4) (s : State) : Host.Outcome State Fault Refusal := .next (s.addrOp t.val gen ⟨4, n.val, false⟩)

/-- ADDR_ADDI (R99): Address operation ADDI adds I[n] modulo M + 1 with carry. -/
def execAddrAddi (t : Fin 64) (gen : Gen) (n : Fin 4) (chain : Bool) (s : State) : Host.Outcome State Fault Refusal := .next (s.addrOp t.val gen ⟨5, n.val, chain⟩)

/-- ADDR_SAVI (R99): Address operation SAVI writes the reduced value to the generator and I[n]. -/
def execAddrSavi (t : Fin 64) (gen : Gen) (n : Fin 4) (s : State) : Host.Outcome State Fault Refusal := .next (s.addrOp t.val gen ⟨6, n.val, false⟩)

/-- ADDR_ZERO (R99): Address operation ZERO sets the generator to 0. -/
def execAddrZero (t : Fin 64) (gen : Gen) (s : State) : Host.Outcome State Fault Refusal := .next (s.addrOp t.val gen ⟨7, 0, false⟩)

/-- DATA_HOLD (R104): Data operation HOLD keeps D. -/
def execDataHold (t : Fin 64) (s : State) : Host.Outcome State Fault Refusal := .next (s.dataOp t.val 0 0)

/-- DATA_INV (R104): Data operation INV inverts D. -/
def execDataInv (t : Fin 64) (s : State) : Host.Outcome State Fault Refusal := .next (s.dataOp t.val 1 0)

/-- DATA_BG (R104): Data operation BGn loads background B[n]. -/
def execDataBg (t : Fin 64) (n : Fin 4) (s : State) : Host.Outcome State Fault Refusal := .next (s.dataOp t.val 2 n.val)

/-- DATA_BGI (R104): Data operation BGIn loads the inverse of B[n]. -/
def execDataBgi (t : Fin 64) (n : Fin 4) (s : State) : Host.Outcome State Fault Refusal := .next (s.dataOp t.val 3 n.val)

/-- DATA_CKB (R104): Data operation CKBn forms a checkerboard of B[n] from the new address. -/
def execDataCkb (t : Fin 64) (n : Fin 4) (s : State) : Host.Outcome State Fault Refusal := .next (s.dataOp t.val 4 n.val)

/-- DATA_ADRB (R104): Data operation ADRBn inverts B[n] by the masked address parity. -/
def execDataAdrb (t : Fin 64) (n : Fin 4) (s : State) : Host.Outcome State Fault Refusal := .next (s.dataOp t.val 5 n.val)

/-- DATA_XORB (R104): Data operation XORBn XORs D with B[n]. -/
def execDataXorb (t : Fin 64) (n : Fin 4) (s : State) : Host.Outcome State Fault Refusal := .next (s.dataOp t.val 6 n.val)

/-- DATA_ROL (R104): Data operation ROL rotates D left by one bit. -/
def execDataRol (t : Fin 64) (s : State) : Host.Outcome State Fault Refusal := .next (s.dataOp t.val 7 0)

/-- DATA_ROR (R104): Data operation ROR rotates D right by one bit. -/
def execDataRor (t : Fin 64) (s : State) : Host.Outcome State Fault Refusal := .next (s.dataOp t.val 8 0)

/-- DATA_ADDR (R104): Data operation ADDR loads D from the physical address. -/
def execDataAddr (t : Fin 64) (s : State) : Host.Outcome State Fault Refusal := .next (s.dataOp t.val 9 0)

/-- APG_WRITE (R109): a host write to an APG register takes effect unless the tiller runs, in which case WR_BUSY sets. -/
def execApgWrite (v : View) (t : Fin 64) (reg : ApgReg) (w : Word) (s : State) : Host.Outcome State Fault Refusal :=
  .next (s.regWrite v (State.apgAddr t.val reg) w.toNat)

end Sys2Proof.Machine
end

