-- ==== Sys2Proof/Machine/CmdCalib.lean ====
section
/-! DEFINITION. Temperature, calibration and wear (11_calibration_heat_and_wear.md, R327 to R358). -/

namespace Sys2Proof.Machine

/-- SENSOR_SAMPLE (R327): every 1 ms the sensors convert and the checks, strip temperature, band and rate of rise update. -/
def execSensorSample (readings : List Int) (s : State) : Host.Outcome State Fault Refusal :=
  if readings.length = 34 then .next (s.sensorSample readings) else .fault .malformed

/-- SHUTDOWN_RAILS_OFF (R351): One hundred µs into a shutdown REG_EN falls and ALIVE stops. -/
def execShutdownRailsOff (s : State) : Host.Outcome State Fault Refusal := .next (s.shutdownRailsOff)

/-- SHUTDOWN_LOG (R352): After 50 ms of shutdown the log entry and a wear save are written to the NVM. -/
def execShutdownLog (peak : Int) (s : State) : Host.Outcome State Fault Refusal := .next (s.shutdownLog peak)

/-- CAL_RUN_START (R338): a DUE strip with a usable interval and no pending switch starts a calibration run. -/
def execCalRunStart (r : Fin 8) (s : State) : Host.Outcome State Fault Refusal := .next (s.calRunStart r.val)

/-- CAL_STEP_END (R339): a 20 µs calibration step of a tiller completes. -/
def execCalStepEnd (t : Fin 64) (word : Word) (rms : BitVec 16) (s : State) : Host.Outcome State Fault Refusal := .next (s.calStepEnd t.val word.toNat rms.toNat)

/-- CAL_TIMEOUT (R342): a run still in progress after ST_CAL_TMO ms is abandoned. -/
def execCalTimeout (r : Fin 8) (s : State) : Host.Outcome State Fault Refusal := .next (s.calTimeout r.val)

/-- SWITCH_STUCK (R345): a switch pending for ST_CAL_TMO ms raises STUCK. -/
def execSwitchStuck (t : Fin 64) (s : State) : Host.Outcome State Fault Refusal := .next (s.switchStuck t.val)

/-- CAL_RUN_NOW (R337): a write of ST_CAL_CTRL.RUN_NOW makes the strip DUE. -/
def execCalRunNow (v : View) (r : Fin 8) (s : State) : Host.Outcome State Fault Refusal := .next (s.mergeField v (ST_CAL_CTRL_RUN_NOW r.val) 1)

/-- CAL_ABORT (R342): a write of ST_CAL_CTRL.ABORT abandons the run and clears DUE. -/
def execCalAbort (v : View) (r : Fin 8) (s : State) : Host.Outcome State Fault Refusal := .next (s.mergeField v (ST_CAL_CTRL_ABORT r.val) 1)

/-- CAL_COMMIT (R346): a write of ST_CAL_CTRL.COMMIT makes the inactive bank pending for all eight tillers. -/
def execCalCommit (v : View) (r : Fin 8) (s : State) : Host.Outcome State Fault Refusal := .next (s.mergeField v (ST_CAL_CTRL_COMMIT r.val) 1)

/-- CAL_RELOAD (R335): a write of ST_CAL_CTRL.RELOAD makes a cache reload pending for every tiller. -/
def execCalReload (v : View) (r : Fin 8) (s : State) : Host.Outcome State Fault Refusal := .next (s.mergeField v (ST_CAL_CTRL_RELOAD r.val) 1)

/-- CAL_DATA_WRITE (R346): a write of ST_CAL_DATA writes the inactive bank or is rejected, and advances IDX. -/
def execCalDataWrite (v : View) (r : Fin 8) (w : Word) (s : State) : Host.Outcome State Fault Refusal := .next (s.regWrite v (ST_CAL_DATA r.val) w.toNat)

/-- PROBER_GAP (R338): a write of GL_PGAP GO declares a prober gap for the chosen strips. -/
def execProberGap (v : View) (strips : BitVec 8) (len : BitVec 20) (s : State) : Host.Outcome State Fault Refusal :=
  .next (s.regWrite v GL_PGAP (pgapWord strips.toNat len.toNat))

/-- THERM_CLEAR (R353): a write of GL_THERM_CLR through the management port clears shutdown and powers up, or is refused. -/
def execThermClear (v : View) (key : BitVec 16) (s : State) : Host.Outcome State Fault Refusal := .next (s.regWrite v GL_THERM_CLR (key.toNat * 2 ^ 16))

/-- WEAR_ACCRUE (R355): each millisecond driving pins add to their stress counters. -/
def execWearAccrue (g : Fin 512) (s : State) : Host.Outcome State Fault Refusal := .next (s.wearAccrue g.val)

/-- CONTACT_CYCLE (R356): a write of GL_WEAR_CTRL.TD counts one contact cycle. -/
def execContactCycle (v : View) (s : State) : Host.Outcome State Fault Refusal := .next (s.mergeField v GL_WEAR_CTRL_TD 1)

/-- WEAR_SAVE (R357): a write of GL_WEAR_CTRL.SAVE writes the wear counters to the NVM and evaluates the life model. -/
def execWearSave (v : View) (s : State) : Host.Outcome State Fault Refusal := .next (s.mergeField v GL_WEAR_CTRL_SAVE 1)

/-- WEAR_SAVE_PERIODIC (R357): every 10 minutes the wear counters are saved. -/
def execWearSavePeriodic (s : State) : Host.Outcome State Fault Refusal := .next (s.periodicSave)

/-- WEAR_SAVE_DONE (R357): a wear save finishes its NVM write and verify, SAVE_BUSY clears, SAVE_ERR and retry apply, and an orderly power-down may proceed. -/
def execWearSaveDone (verified : Bool) (s : State) : Host.Outcome State Fault Refusal := .next (s.saveEnds verified)

end Sys2Proof.Machine
end

