-- ==== Sys2Proof/Machine/CmdCapture.lean ====
section
/-! DEFINITION. Samples, capture and fail queues (07_capture_and_fail_queues.md, R196 to R228). -/

namespace Sys2Proof.Machine

/-- SAMPLE_DELIVER (R198): a complete sample is delivered in index order to the fail FIFO, capture buffer, triggers and mask test. -/
def execSampleDeliver (t : Fin 64) (s : State) : Host.Outcome State Fault Refusal := .next (s.sampleDeliver t.val)

/-- FQ_FLUSH (R209): a write of TL_FQ_CTRL.FLUSH requests a flush at the next packet end, or at once if the tiller is not running. -/
def execFqFlush (v : View) (t : Fin 64) (s : State) : Host.Outcome State Fault Refusal := .next (s.mergeField v (TL_FQ_CTRL_FLUSH t.val) 1)

/-- FQ_DEST_WRITE (R211): a write that changes TL_FQ_CTRL.DEST takes effect at the next packet end or at once. -/
def execFqDestWrite (v : View) (t : Fin 64) (host : Bool) (s : State) : Host.Outcome State Fault Refusal := .next (s.mergeField v (TL_FQ_CTRL_DEST t.val) (b2n host))

/-- FQ_READ (R213): a read of TL_FQ_RD0 pops the oldest entry into the holding register. -/
def execFqRead (t : Fin 64) (s : State) : Host.Outcome State Fault Refusal := .next (s.readOut .bar0 (TL_FQ_RD t.val 0))

/-- CAP_ARM (R216): a write of TL_CAP_CTRL.ARM clears and arms the capture unit. -/
def execCapArm (v : View) (t : Fin 64) (s : State) : Host.Outcome State Fault Refusal := .next (s.mergeField v (TL_CAP_CTRL_ARM t.val) 1)

/-- CAP_ABORT (R218): a write of TL_CAP_CTRL.ABORT ends the acquisition with END_WHY ABORT. -/
def execCapAbort (v : View) (t : Fin 64) (s : State) : Host.Outcome State Fault Refusal := .next (s.mergeField v (TL_CAP_CTRL_ABORT t.val) 1)

/-- CAP_READ (R219): a read of TL_CAP_RD0 pops a capture entry, re-arming with AUTO when drained. -/
def execCapRead (t : Fin 64) (s : State) : Host.Outcome State Fault Refusal := .next (s.readOut .bar0 (TL_CAP_RD t.val 0))

end Sys2Proof.Machine
end

