-- ==== Sys2Proof/Machine/CmdEvent.lean ====
section
/-! DEFINITION. The event router and the fault collector (13_supervisors_events_faults.md, R406 to R421). -/

namespace Sys2Proof.Machine

/-- EV_FIRE (R408): a write of EV_FIRE GO fires a channel if the writer's domain is permitted. -/
def execEvFire (v : View) (e : Fin 256) (s : State) : Host.Outcome State Fault Refusal := .next (s.regWrite v EV_FIRE (2 ^ 31 + e.val))

/-- EVENT_ARRIVAL (R409): an arrival at a router channel is merged, suppressed or accepted and counted for runaway. -/
def execEventArrival (e : Fin 256) (at_ : Nat) (s : State) : Host.Outcome State Fault Refusal := .next (s.eventArrival e.val at_)

/-- EVENT_DELIVER (R406): an accepted event reaches its consumer 12 ns later and the channel becomes refractory. -/
def execEventDeliver (e : Fin 256) (s : State) : Host.Outcome State Fault Refusal := .next ((s.eventDeliver e.val).wakeIfAsked)

/-- EV_CH_CFG_WRITE (R408): a write of EV_CH_CFG configures a channel under the permissions and runaway rules. -/
def execEvChCfgWrite (v : View) (e : Fin 256) (w : Word) (s : State) : Host.Outcome State Fault Refusal := .next (s.regWrite v (EV_CH_CFG e.val) w.toNat)

/-- ERROR_LINE (R418): a block's error line is latched in the status word and its reactions act. -/
def execErrorLine (b : Fin 184) (s : State) : Host.Outcome State Fault Refusal := .next (s.errorLine b.val)

/-- FAULT_REACT_RESET (R418): once SAFE is complete a BLKRST or CHIPRST reaction requests its reset. -/
def execFaultReactReset (s : State) : Host.Outcome State Fault Refusal := .next (s.faultReactReset)

/-- FC_STAT_READ (R417): a read of FC_STAT0 snapshots all eight status words. -/
def execFcStatRead (s : State) : Host.Outcome State Fault Refusal := .next (s.readOut .bar0 (FC_STAT 0))

/-- FAULT_INJECT (R421): a write of FC_INJ GO arms inversion of a checker's check bits. -/
def execFaultInject (v : View) (w : Word) (s : State) : Host.Outcome State Fault Refusal := .next (s.regWrite v FC_INJ w.toNat)

/-- ALIVE_KICK (R420): a write of FC_ALIVE.KICK with KEY 0xA11E starts or keeps ALIVE toggling. -/
def execAliveKick (v : View) (key : BitVec 16) (s : State) : Host.Outcome State Fault Refusal := .next (s.regWrite v FC_ALIVE (2 ^ 31 + key.toNat))

/-- ALIVE_TOGGLE (R420): every 500 µs ALIVE toggles. -/
def execAliveToggle (s : State) : Host.Outcome State Fault Refusal := .next (s.aliveToggle)

/-- ALIVE_TIMEOUT (R420): One hundred ms without a kick stops ALIVE low. -/
def execAliveTimeout (s : State) : Host.Outcome State Fault Refusal := .next (s.aliveTimeout)

end Sys2Proof.Machine
end

