-- ==== Sys2Proof/Machine/CmdLink.lean ====
section
/-! DEFINITION. Genhar links (12_links_and_memory.md, R379 to R390). -/

namespace Sys2Proof.Machine

/-- FLIT_RECEIVE (R384): a flit and its trailer are received, accepted or discarded with NAK, and routed or consumed. -/
def execFlitReceive (p : Fin 4) (flit : BitVec 512) (seq : Fin 256) (crc : BitVec 32) (ackv : Bool) (ackseq : Fin 256) (s : State) : Host.Outcome State Fault Refusal :=
  .next (s.flitReceive p.val flit.toNat seq.val crc.toNat ackv ackseq.val)

/-- FLIT_TRANSMIT (R385): an output port sends the next flit chosen by VC priority when it holds a credit. -/
def execFlitTransmit (p : Fin 4) (s : State) : Host.Outcome State Fault Refusal := .next (s.flitTransmit p.val)

/-- NAK_RECEIVE (R384): a received NAK makes the transmitter replay from the named SEQ. -/
def execNakReceive (p : Fin 4) (seq : Fin 256) (s : State) : Host.Outcome State Fault Refusal := .next (s.nakReceive p.val seq.val)

/-- CREDIT_RECEIVE (R385): a CREDIT block returns credits and acknowledges SEQs. -/
def execCreditReceive (p : Fin 4) (c0 c1 c2 c3 : Fin 256) (ackv : Bool) (ackseq : Fin 256) (s : State) : Host.Outcome State Fault Refusal :=
  .next (s.creditReceive p.val [c0.val, c1.val, c2.val, c3.val] ackv ackseq.val)

/-- REPLAY_TIMEOUT (R384): One µs without ACKSEQ advance replays from the oldest flit, going DOWN after 16 replays. -/
def execReplayTimeout (p : Fin 4) (s : State) : Host.Outcome State Fault Refusal := .next (s.replayTimeout p.val)

/-- CREDIT_RETURN_TIMER (R385): One hundred ns after a credit becomes pending a CREDIT block is sent. -/
def execCreditReturnTimer (p : Fin 4) (s : State) : Host.Outcome State Fault Refusal := .next (s.creditReturnTimer p.val)

/-- ACK_TIMER (R384): Accepted SEQs are acknowledged at least every 200 ns. -/
def execAckTimer (p : Fin 4) (s : State) : Host.Outcome State Fault Refusal := .next (s.ackTimer p.val)

/-- ALIGN_RECEIVE (R389): an ALIGN block drives lane deskew and the position check of training. -/
def execAlignReceive (p : Fin 4) (lane : Fin 4) (x y : Fin 8) (port : Fin 4) (ready : Bool) (s : State) : Host.Outcome State Fault Refusal :=
  .next (s.alignReceive p.val lane.val x.val y.val port.val ready)

/-- TRAINING_COMPLETE (R389): Training completes and the port enters UP, or MISWIRED on a wrong neighbour. -/
def execTrainingComplete (p : Fin 4) (s : State) : Host.Outcome State Fault Refusal := .next (s.trainingComplete p.val)

/-- BLOCK_LOCK_LOSS (R389): Sixteen bad sync headers in 64 on a lane take the port DOWN. -/
def execBlockLockLoss (p : Fin 4) (s : State) : Host.Outcome State Fault Refusal := .next (s.blockLockLoss p.val)

/-- PORT_ENABLE (R389): a write of LK_G_CTRL.EN enables or disables a Genhar port. -/
def execPortEnable (v : View) (p : Fin 4) (en : Bool) (s : State) : Host.Outcome State Fault Refusal := .next (s.mergeField v (LK_G_CTRL_EN p.val) (b2n en))

/-- PORT_RETRAIN (R389): a write of LK_G_CTRL.RETRAIN returns the port to TRAINING. -/
def execPortRetrain (v : View) (p : Fin 4) (s : State) : Host.Outcome State Fault Refusal := .next (s.mergeField v (LK_G_CTRL_RETRAIN p.val) 1)

/-- PORT_LOOPBACK (R390): a write of LK_G_CTRL.LPBK enters or leaves a Genhar loopback. -/
def execPortLoopback (v : View) (p : Fin 4) (mode : Fin 8) (s : State) : Host.Outcome State Fault Refusal := .next (s.mergeField v (LK_G_CTRL_LPBK p.val) mode.val)

end Sys2Proof.Machine
end

