-- ==== Sys2Proof/Machine/CmdMeasure.lean ====
section
/-! DEFINITION. The tiller ADC and TDC (10_measurement.md, R301 to R323). -/

namespace Sys2Proof.Machine

/-- ADC_TRIG (R305): a write of TL_ADC_CTRL.TRIG triggers a burst, held if one runs. -/
def execAdcTrig (v : View) (t : Fin 64) (s : State) : Host.Outcome State Fault Refusal := .next (s.mergeField v (TL_ADC_CTRL_TRIG t.val) 1)

/-- ADC_TRIGGER (R120): a MEAS trigger reaches the ADC 8 cycles after issue and starts or is held. -/
def execAdcTrigger (t : Fin 64) (s : State) : Host.Outcome State Fault Refusal := .next (s.triggerDue t.val)

/-- ADC_ABORT (R316): a write of TL_ADC_CTRL.ABORT ends the burst and publishes what was gathered. -/
def execAdcAbort (v : View) (t : Fin 64) (s : State) : Host.Outcome State Fault Refusal := .next (s.mergeField v (TL_ADC_CTRL_ABORT t.val) 1)

/-- ADC_CONVERSION_START (R306): a burst conversion starts at its instant, delayed away from supervision and calibration starts. -/
def execAdcConversionStart (t : Fin 64) (at_ : Nat) (s : State) : Host.Outcome State Fault Refusal := .next (s.convStart t.val at_)

/-- ADC_HELD_BURST_BEGIN (R307): a held trigger begins its burst 25 ticks after the running burst's last conversion. -/
def execAdcHeldBurstBegin (t : Fin 64) (s : State) : Host.Outcome State Fault Refusal := .next (s.heldBurst t.val)

/-- ADC_RESULT (R308): a conversion result is ready and tagged, and the last one publishes the burst. -/
def execAdcResult (t : Fin 64) (raw : Int) (overRange : Bool) (s : State) : Host.Outcome State Fault Refusal := .next (s.adcResult t.val raw overRange)

/-- REF_READY (R310): Two ms after the reference buffer turns on REF_READY sets. -/
def execRefReady (t : Fin 64) (s : State) : Host.Outcome State Fault Refusal := .next (s.refReady t.val)

/-- ADC_SLICE_EXCHANGE (R311): every 1 ms the calibrated spare slice replaces an active slice. -/
def execAdcSliceExchange (t : Fin 64) (s : State) : Host.Outcome State Fault Refusal := .next (s.sliceExchange t.val)

/-- ADC_RES_READ (R314): a read of TL_ADC_RES_LO latches the high word and consumes VALID. -/
def execAdcResRead (t : Fin 64) (s : State) : Host.Outcome State Fault Refusal := .next (s.readOut .bar0 (TL_ADC_RES_LO t.val))

/-- TDC_ARM (R318): a write of TL_TDC_CTRL.ARM or a TDCARM clears the TDC and enters ARMED. -/
def execTdcArm (v : View) (t : Fin 64) (s : State) : Host.Outcome State Fault Refusal := .next (s.mergeField v (TL_TDC_CTRL_ARM t.val) 1)

/-- TDC_ABORT (R322): a write of TL_TDC_CTRL.ABORT ends the acquisition and publishes its statistics. -/
def execTdcAbort (v : View) (t : Fin 64) (s : State) : Host.Outcome State Fault Refusal := .next (s.mergeField v (TL_TDC_CTRL_ABORT t.val) 1)

/-- TDC_START_EDGE (R319): a start edge in ARMED begins a pair. -/
def execTdcStartEdge (t : Fin 64) (at_ : Nat) (s : State) : Host.Outcome State Fault Refusal := .next (s.tdcStart t.val at_)

/-- TDC_STOP_EDGE (R320): a stop edge after the hold-off ends a pair with its interval. -/
def execTdcStopEdge (t : Fin 64) (at_ : Nat) (s : State) : Host.Outcome State Fault Refusal := .next (s.tdcStop t.val at_)

/-- TDC_NOSTOP_TIMEOUT (R321): a pair without a stop after TMO ticks ends NOSTOP. -/
def execTdcNostopTimeout (t : Fin 64) (s : State) : Host.Outcome State Fault Refusal := .next (s.tdcNostopTimeout t.val)

/-- TDC_NOSTART_TIMEOUT (R321): No start within TMO ticks ends the acquisition NOSTART. -/
def execTdcNostartTimeout (t : Fin 64) (s : State) : Host.Outcome State Fault Refusal := .next (s.tdcNostartTimeout t.val)

/-- TDC_OVF (R321): a pair whose coarse count reaches 2^32 grains ends OVF. -/
def execTdcOvf (t : Fin 64) (s : State) : Host.Outcome State Fault Refusal := .next (s.tdcOvfTimeout t.val)

/-- TDC_RESULT_READ (R323): a read of TL_TDC_RESULT consumes VALID. -/
def execTdcResultRead (t : Fin 64) (s : State) : Host.Outcome State Fault Refusal := .next (s.readOut .bar0 (TL_TDC_RESULT t.val))

end Sys2Proof.Machine
end

