-- ==== Sys2Proof/Machine/Dma.lean ====
section
/-! DEFINITION. DMA channels (12_links_and_memory.md, R373 to R377). A transfer's reads and writes are made by the command that
ends it, except those of the mesh, whose messages go out as acknowledgements make room (R382). -/

namespace Sys2Proof.Machine

/-- Fields of a descriptor's CTRL (R374). -/
def DmaDesc.dir (d : DmaDesc) : Nat := bits d.ctrl 1 0
def DmaDesc.win (d : DmaDesc) : Nat := bits d.ctrl 3 2
def DmaDesc.asks (d : DmaDesc) : Bool := d.ctrl.testBit 4
def DmaDesc.queue (d : DmaDesc) : Nat := bits d.ctrl 6 5
def DmaDesc.vc (d : DmaDesc) : Nat := if d.ctrl.testBit 7 then 2 else 3
def DmaDesc.rx (d : DmaDesc) : Nat := bits d.ctrl 10 8
def DmaDesc.ry (d : DmaDesc) : Nat := bits d.ctrl 13 11
/-- The device-side address: DST of H2D, SRC otherwise. -/
def DmaDesc.device (d : DmaDesc) : Nat := if d.dir = 0 then d.dst else d.src

/-- The descriptor in 32 bytes of a ring entry (R374). -/
def dmaDesc (w : BitVec 256) (data : List Nat) (ep : List (Nat × Nat)) : DmaDesc :=
  let n := w.toNat
  ⟨bits n 63 0, bits n 127 64, bits n 159 128, bits n 191 160, bits n 223 192, data, ep⟩

/-- First register of a 16-byte read port (R213, R219). -/
def isReadPort (a : Nat) : Bool := kindOf a = TL_FQ_RD 0 0 || kindOf a = TL_CAP_RD 0 0

/-- n bytes from an address stay inside a block of a power of two that starts inside a region. -/
def insideBlock (a n base size block : Nat) : Bool := decide (base ≤ a) && decide (a < base + size) && decide (a + n ≤ a / block * block + block)

/-- The device-side range lies in its window (R374). -/
def DmaDesc.inWindow (d : DmaDesc) : Bool :=
  if d.dir = 2 then decide (d.src + d.len ≤ 0x400000000) && decide (d.dst + d.len ≤ 0x400000000)
  else if d.dir = 3 || d.win = 3 then true
  else if d.win = 0 then
    decide (d.device + d.len ≤ 0x400000000) || insideBlock d.device d.len 0x400000000 0x1000000 0x40000
      || insideBlock d.device d.len 0x401000000 0x400000 0x40000
  else if d.win = 1 then decide (d.device + d.len ≤ 0x1000000)
  else isReadPort d.device

/-- CODE of the first failing check of R375, 0 if none fails; (x, y) is the part's own position. -/
def DmaDesc.check (d : DmaDesc) (x y : Nat) : Nat :=
  let unit := if d.win = 2 then 16 else 4
  if d.len % unit ≠ 0 then 1
  else if d.src % unit ≠ 0 || d.dst % unit ≠ 0 then 2
  else if !d.inWindow then 3
  else if d.ctrl / 2 ^ 14 ≠ 0 || d.dir = 3 || d.win = 3 || (d.win = 2 && d.dir ≠ 1) || (d.dir = 2 && d.win ≠ 0) then 4
  else if d.dir = 2 && (decide (5 < d.ry) || (d.rx = x && d.ry = y)) then 5
  else 0

namespace State

/-- The domain a channel acts in (R373). -/
def dmaView (s : State) (c : Nat) : View := if s.on (LK_DMA_CTRL_DOMAIN c) then .dmaSys else .dmaUser

/-- Host address of the ring entry being executed (R373). -/
def dmaEntry (s : State) (c : Nat) : Nat :=
  s.get (LK_DMA_RING_HI_BASE_HI c) * 2 ^ 32 + s.get (LK_DMA_RING_LO_BASE_LO c) * 32 + 32 * s.get (LK_DMA_CONS_INDEX c)

/-- Poisoned data has been moved (R366). -/
def dmaPoison (s : State) (c : Nat) : State := (s.setDma c { s.dma c with poison := true }).mark (LK_DMA_STAT_POISON c)

/-- A descriptor ends with a CODE (R375, R376, R377): STATUS, the register, the notice, and on success the next entry. -/
def dmaFinish (s : State) (c code : Nat) (d : DmaDesc) : State :=
  let status := 2 ^ 31 + b2n (s.dma c).poison * 2 ^ 30 + code
  let n0 := (if code = 0 then 1 else 2) * 2 ^ 27 + c * 2 ^ 24 + s.get (LK_DMA_CONS_INDEX c) * 2 ^ 8 + code
  let s1 := { s with hostOut := s.hostOut ++ [HostMsg.write (s.dmaEntry c + 28) (bytesLE 4 status) false] }
  let s2 :=
    if code = 0 then s1.dmaAdvance c
    else (((((s1.setDma c (s1.dma c).again).put (LK_DMA_STAT_STATE c) 2).mark (LK_DMA_STAT_ERR c)).put (LK_DMA_STAT_CODE c) code)).source (1302 + c)
  if code = 0 && !d.asks then s2 else s2.dmaPost c d.queue n0 (d.utag % 2 ^ 31)

/-! ### Mesh writes -/

/-- A DRAM read of n bytes line by line: the bytes of each poisoned line, as offsets from the first (R366). -/
def poisonedBytes (s : State) (a n : Nat) : State × List (Nat × Nat) :=
  (linesIn a n).foldl (fun r l =>
    let lo := max a l
    let hi := min (a + n) (l + 64)
    let q := r.1.lineCheck lo (hi - lo)
    (q.1, if q.2 then r.2 ++ [(lo - a, hi - a)] else r.2)) (s, [])

/-- The tag of a channel's next message: one that none of its messages still unacknowledged holds (R382). DESIGN CHOICE: when the tags
of ended transfers leave none, the oldest of them is used again (log entry 34). -/
def freeTag (c : Nat) (x : Dma) : Nat :=
  let held := x.stale ++ x.unacked.map (·.tag)
  match ((List.range 32).map (fun i => 32 * c + (x.tag + i) % 32)).find? (fun t => !held.contains t) with
  | some t => t
  | none => x.stale.headD (32 * c + x.tag % 32)

/-- The next message of a D2R transfer: up to 512 bytes (R382). -/
def dmaSend (s : State) (c : Nat) (d : DmaDesc) : State :=
  let x := s.dma c
  let n := min 512 (d.len - x.sent)
  let r := s.poisonedBytes (d.src + x.sent) n
  let tag := freeTag c x
  let s1 := if r.2.isEmpty then r.1 else r.1.dmaPoison c
  let y := s1.dma c
  let s2 := s1.setDma c { y with sent := x.sent + n, unacked := x.unacked ++ [⟨tag, n, s.ticks⟩], tag := (tag + 1) % 32, stale := x.stale.erase tag }
  { s2 with meshOut := s2.meshOut ++ [MeshMsg.memWr d.rx d.ry d.vc (d.dst + x.sent) (s.memBytes (d.src + x.sent) n) r.2 tag] }

/-- Messages go out while fewer than 16 are unacknowledged. -/
def dmaSendAll (d : DmaDesc) (c : Nat) : Nat → State → State
  | 0, s => s
  | k + 1, s => if decide ((s.dma c).sent < d.len) && decide ((s.dma c).unacked.length < 16) then dmaSendAll d c k (s.dmaSend c d) else s

/-- MEM_ACK (R376, R382): a message of the part is acknowledged; one refused ends its transfer with REMOTE. One of a transfer that has
ended frees its tag. -/
def memAckArrive (s0 : State) (x y tag : Nat) (window : Bool) : State :=
  let s := s0.takeMesh (.memAck x y tag window)
  let c := tag / 32
  let z := s.dma c
  match z.active, z.unacked.find? (fun u => u.tag = tag) with
  | some d, some u =>
    if d.dir ≠ 2 || d.rx ≠ x || d.ry ≠ y then s
    else if window then (s.setDma c { z with unacked := z.unacked.erase u }).dmaFinish c 0x12 d
    else
      dmaSendAll d c 16 ((s.setDma c { z with unacked := z.unacked.erase u }).put (LK_DMA_DONEB_BYTES c) (s.get (LK_DMA_DONEB_BYTES c) + u.bytes))
  | _, _ => if z.stale.contains tag then s.setDma c { z with stale := z.stale.erase tag } else s

/-- DMA_REMOTE_TIMEOUT (R376): the oldest mesh write has waited `LK_MESH_TMO` µs. -/
def dmaRemoteTimeout (s : State) (c : Nat) : State :=
  match (s.dma c).active, (s.dma c).unacked with
  | some d, u :: _ => (s.advTo (u.at_ + 100 * s.get LK_MESH_TMO_US)).dmaFinish c 0x12 d
  | _, _ => s

/-! ### Local transfers -/

/-- Words written to consecutive registers in the channel's domain. -/
def dmaRegWrites (v : View) : Nat → List Nat → State → State
  | a, b0 :: b1 :: b2 :: b3 :: r, s => dmaRegWrites v (a + 4) r (s.regWrite v a (ofBytesLE [b0, b1, b2, b3]))
  | _, _, s => s

/-- n words read from registers at addresses d apart: the state and the bytes. -/
def dmaRegReads (v : View) (addr : Nat → Nat) (s : State) (n : Nat) : State × List Nat :=
  (List.range n).foldl (fun r i => let q := r.1.regRead v (addr i); (q.1, r.2 ++ bytesLE 4 q.2)) (s, [])

/-- The first n bytes of host data reach device memory word by word, a word poisoned if a poisoned completion carries some of it
(R366). -/
def dmaStore (s : State) (n : Nat) (d : DmaDesc) : State :=
  (wordsIn d.dst n).foldl (fun s w =>
    let lo := max d.dst w - d.dst
    let hi := min n (w + wordBytes w - d.dst)
    s.memPut (d.dst + lo) ((d.data.drop lo).take (hi - lo)) (d.ep.any (fun p => decide (lo < p.2) && decide (p.1 < hi)))) s

/-- The first n bytes of host data reach the device (R366). DESIGN CHOICE: registers take poisoned data as it is (log entry 34). -/
def dmaIn (s : State) (c n : Nat) (d : DmaDesc) : State :=
  let bad := d.ep.filter (fun p => decide (p.1 < p.2) && decide (p.1 < n))
  let s1 := if bad.isEmpty then s else (s.dmaPoison c).bumpBy LK_PCIE_ERR_POISON_RX bad.length
  if d.win = 0 then s1.dmaStore n d else dmaRegWrites (s.dmaView c) d.dst (d.data.take n) s1

/-- The bytes of one line go to the host, poisoned if the line is (R366). -/
def dmaOutLine (c src dst : Nat) (s : State) (n : Nat) : State :=
  let r := s.hostRead src n
  let s1 := if r.2 then (r.1.dmaPoison c).bump LK_PCIE_ERR_POISON_TX else r.1
  { s1 with hostOut := s1.hostOut ++ [HostMsg.write dst (s1.memBytes src n) r.2] }

/-- The first n bytes of device data reach the host. -/
def dmaOut (s : State) (c n : Nat) (d : DmaDesc) : State :=
  if d.win = 0 then
    (linesIn d.src n).foldl (fun s l =>
      let lo := max d.src l
      dmaOutLine c lo (d.dst + (lo - d.src)) s (min (d.src + n) (l + 64) - lo)) s
  else
    let r := dmaRegReads (s.dmaView c) (fun i => if d.win = 2 then d.src + 4 * (i % 4) else d.src + 4 * i) s (n / 4)
    { r.1 with hostOut := r.1.hostOut ++ [HostMsg.write d.dst r.2 false] }

/-- The first n bytes are moved. -/
def dmaMove (s : State) (c n : Nat) (d : DmaDesc) : State :=
  (if d.dir = 0 then s.dmaIn c n d else if d.dir = 1 then s.dmaOut c n d else s).put (LK_DMA_DONEB_BYTES c) n

/-- The context store refuses the transfer's writes (R248). -/
def dmaClosed (s : State) (d : DmaDesc) : Bool := d.dir = 0 && d.win = 0 && regionOf d.dst = .context && !s.ctxOpen d.dst

/-- A transfer ends with an error after n bytes; a refused context write is reported as R248 says. -/
def dmaFail (s : State) (c code n : Nat) (d : DmaDesc) : State :=
  let m := min n d.len
  let s1 := if code = 0x11 then s.denyCtx [(d.dst - 0x401000000) / 0x40000] else s
  (if d.dir = 2 then s1 else s1.dmaMove c (m - m % 4) d).dmaFinish c code d

/-! ### Descriptors -/

/-- A descriptor may start: enabled, idle, one waits, no notice waits, the host can be reached (R373, R377). -/
def dmaReady (s : State) (c : Nat) : Bool :=
  s.on GL_RST_STAT_REGS_READY && s.on LK_PCIE_STAT_UP && s.on (LK_DMA_CTRL_EN c) && s.dmaState c = 0 && (s.dma c).note.isNone
    && s.get (LK_DMA_CONS_INDEX c) ≠ s.get (LK_DMA_PROD_INDEX c) % s.dmaRing c

/-- DMA_DESCRIPTOR (R375): refused with a CODE, or begun. -/
def dmaStart (s : State) (c : Nat) (d : DmaDesc) : State :=
  let code := d.check (s.get LK_MESH_POS_X) (s.get LK_MESH_POS_Y)
  let s1 := (s.setDma c { (s.dma c).again with active := some d }).put (LK_DMA_DONEB_BYTES c) 0
  if code ≠ 0 then s1.dmaFinish c code d
  else
    let s2 := s1.put (LK_DMA_STAT_STATE c) 1
    if d.dir = 2 then dmaSendAll d c 16 s2 else s2

/-- DMA_DESCRIPTOR: the host supplies as many bytes as an H2D descriptor that passes its checks asks for. -/
def dmaTake (s : State) (c : Nat) (d : DmaDesc) : Host.Outcome State Fault Refusal :=
  if !s.dmaReady c then .next s
  else if d.dir = 0 && d.check (s.get LK_MESH_POS_X) (s.get LK_MESH_POS_Y) = 0 && d.data.length ≠ d.len then .fault .malformed
  else .next (s.dmaStart c d)

/-- DMA_DESCRIPTOR_DONE (R376): the transfer is complete; a context slice that is closed refuses it. -/
def dmaDone (s : State) (c : Nat) : State :=
  match (s.dma c).active with
  | none => s
  | some d =>
    if d.dir = 2 then (if d.len ≤ (s.dma c).sent && (s.dma c).unacked.isEmpty then s.dmaFinish c 0 d else s)
    else if s.dmaClosed d then s.dmaFail c 0x11 0 d
    else (s.dmaMove c d.len d).dmaFinish c 0 d

/-- DMA_TRANSFER_ERROR (R376): a host completion that failed, or a context write discarded while the slice is closed. A mesh
write is posted, so that a D2R transfer meets no host error. -/
def dmaTransferError (s : State) (c : Nat) (why : TransferError) (moved : Nat) : State :=
  match (s.dma c).active with
  | none => s
  | some d =>
    match why with
    | .context => if d.dir ≠ 2 && s.dmaClosed d then s.dmaFail c 0x11 moved d else s
    | .status => if d.dir = 0 then s.dmaFail c 0x10 moved d else s
    | .timeout => if d.dir = 0 then (s.bump LK_PCIE_ERR_CPL_TMO).dmaFail c 0x10 moved d else s

end State

end Sys2Proof.Machine
end

