-- ==== Sys2Proof/Machine/CmdMemory.lean ====
section
/-! DEFINITION. Device memory, the host port and DMA (12_links_and_memory.md, R359 to R378; R415). -/

namespace Sys2Proof.Machine

/-- BAR2_WRITE (R360): a host BAR2 write stores data, merging partial protected words by read-modify-write. -/
def execBar2Write (addr : Nat) (data : List (Option Byte)) (ep : Bool) (s : State) : Host.Outcome State Fault Refusal :=
  if data.length ≠ 0 ∧ addr + data.length ≤ 2 ^ 35 then .next (s.bar2Write addr (data.map (Option.map BitVec.toNat)) ep) else .fault .malformed

/-- DRAM_INIT_DONE (R368): a stack finishes clearing to 0 and its READY bit sets. -/
def execDramInitDone (east : Bool) (s : State) : Host.Outcome State Fault Refusal := .next (s.stackDone east)

/-- SCRUB_PASS (R367): the scrubber reads the group's DRAM and writes back corrected words. -/
def execScrubPass (u : Fin 16) (s : State) : Host.Outcome State Fault Refusal := .next (s.scrubPass u.val)

/-- HOST_PORT_RESET (R371): PERST#, hot reset or FLR resets the host port, DMA channels and HMQs alone. -/
def execHostPortReset (s : State) : Host.Outcome State Fault Refusal := .next (s.hostPortReset)

/-- VEC_REARM (R415): a write of EV_VEC_REARM resends a vector's message if its summary is 1. -/
def execVecRearm (v : View) (vec : Fin 64) (s : State) : Host.Outcome State Fault Refusal := .next (s.regWrite v (EV_VEC_REARM (vec.val / 32)) (2 ^ (vec.val % 32)))

/-- DMA_ENABLE (R373): a write of LK_DMA_CTRL.EN enables a channel in the domain of the view used. -/
def execDmaEnable (v : View) (c : Fin 8) (en : Bool) (s : State) : Host.Outcome State Fault Refusal := .next (s.mergeField v (LK_DMA_CTRL_EN c.val) (b2n en))

/-- DMA_PROD_WRITE (R373): a write of LK_DMA_PROD makes new descriptors available. -/
def execDmaProdWrite (v : View) (c : Fin 8) (w : Word) (s : State) : Host.Outcome State Fault Refusal := .next (s.regWrite v (LK_DMA_PROD c.val) w.toNat)

/-- DMA_DESCRIPTOR (R375): a channel fetches and checks a descriptor and begins its transfer or refuses it. -/
def execDmaDescriptor (c : Fin 8) (desc : BitVec 256) (data : List Byte) (ep : List (Nat × Nat)) (s : State) : Host.Outcome State Fault Refusal :=
  s.dmaTake c.val (dmaDesc desc (data.map BitVec.toNat) ep)

/-- DMA_DESCRIPTOR_DONE (R376): a descriptor's writes become visible and STATUS and the notice are written. -/
def execDmaDescriptorDone (c : Fin 8) (s : State) : Host.Outcome State Fault Refusal := .next (s.dmaDone c.val)

/-- DMA_TRANSFER_ERROR (R376): a host error or refused context write ends a transfer with an error code. -/
def execDmaTransferError (c : Fin 8) (why : TransferError) (moved : Nat) (s : State) : Host.Outcome State Fault Refusal := .next (s.dmaTransferError c.val why moved)

/-- DMA_REMOTE_TIMEOUT (R376): a mesh write without MEM_ACK within LK_MESH_TMO ends the transfer with REMOTE. -/
def execDmaRemoteTimeout (c : Fin 8) (s : State) : Host.Outcome State Fault Refusal := .next (s.dmaRemoteTimeout c.val)

/-- DMA_RESUME (R375): a write of LK_DMA_CTRL.RESUME leaves ERROR and skips the failed descriptor. -/
def execDmaResume (v : View) (c : Fin 8) (s : State) : Host.Outcome State Fault Refusal := .next (s.mergeField v (LK_DMA_CTRL_RESUME c.val) 1)

/-- DMA_ABORT (R373): a write of LK_DMA_CTRL.ABORT stops the channel after the TLP in progress. -/
def execDmaAbort (v : View) (c : Fin 8) (s : State) : Host.Outcome State Fault Refusal := .next (s.mergeField v (LK_DMA_CTRL_ABORT c.val) 1)

/-- HMQ_READ (R378): a read of LK_HMQ_RD pops one notice word or returns NOT_VALID. -/
def execHmqRead (q : Fin 4) (s : State) : Host.Outcome State Fault Refusal := .next (s.readOut .bar0 (LK_HMQ_RD q.val))

/-- MEM_WR (R382): a complete MEM_WR message is checked, written to DRAM and acknowledged. -/
def execMemWr (x y : Fin 16) (vc : Fin 4) (tag : Fin 256) (s : State) : Host.Outcome State Fault Refusal := .next (s.memWrArrive x.val y.val vc.val tag.val)

/-- MEM_ACK (R382): a MEM_ACK message completes an unacknowledged mesh write. -/
def execMemAck (x y : Fin 16) (tag : Fin 256) (window : Bool) (s : State) : Host.Outcome State Fault Refusal := .next (s.memAckArrive x.val y.val tag.val window)

/-- BAR2_READ (R360): a host read through BAR2 of DRAM, vector SRAM or context store returns data, with ECC correction, poison completions and DRAM error counting. -/
def execBar2Read (addr : Nat) (len : Nat) (s : State) : Host.Outcome State Fault Refusal :=
  if len ≠ 0 ∧ addr + len ≤ 2 ^ 35 then .next (s.bar2Read addr len) else .fault .malformed

/-- PCIE_LINK_UP (R371): the PCIe link completes training and comes up, setting LK_PCIE_STAT.UP and raising the link-retrained source. -/
def execPcieLinkUp (speed : Fin 8) (width : Fin 16) (s : State) : Host.Outcome State Fault Refusal := .next (s.pcieLinkUp speed.val width.val)

/-- PCIE_LINK_DOWN (R416): the PCIe host link is lost, UP clears, and interrupt messages are no longer sent. -/
def execPcieLinkDown (s : State) : Host.Outcome State Fault Refusal := .next (s.pcieLinkDown)

end Sys2Proof.Machine
end

