-- ==== Sys2Proof/Machine/CmdMicroMem.lean ====
section
/-! DEFINITION. Memory, context and output micro-operations (08_threshers.md, R235 to R247, R255, R262). -/

namespace Sys2Proof.Machine

/-- LDL (R241): Micro-op LDL issues a DRAM line read into a line buffer. -/
def execMLdl (i : Fin 32) (o : MemOps) (s : State) : Host.Outcome State Fault Refusal := .next (s.runOp i.val (memWord 1 o))

/-- STL (R238): Micro-op STL posts a line buffer write to DRAM after commit. -/
def execMStl (i : Fin 32) (o : MemOps) (s : State) : Host.Outcome State Fault Refusal := .next (s.runOp i.val (memWord 2 o))

/-- LDW (R235): Micro-op LDW moves a buffer word to a register. -/
def execMLdw (i : Fin 32) (o : MemOps) (s : State) : Host.Outcome State Fault Refusal := .next (s.runOp i.val (memWord 3 o))

/-- STW (R235): Micro-op STW moves a register to a buffer word. -/
def execMStw (i : Fin 32) (o : MemOps) (s : State) : Host.Outcome State Fault Refusal := .next (s.runOp i.val (memWord 4 o))

/-- BSET (R235): Micro-op BSET sets a bit of a line buffer. -/
def execMBset (i : Fin 32) (o : MemOps) (s : State) : Host.Outcome State Fault Refusal := .next (s.runOp i.val (memWord 5 o))

/-- LDCTX (R247): Micro-op LDCTX locks a context and copies it to the shadow, initialising or faulting on a key mismatch. -/
def execMLdctx (i : Fin 32) (o : CtxOps) (s : State) : Host.Outcome State Fault Refusal := .next (s.runOp i.val (ctxWord 1 o))

/-- CRD (R235): Micro-op CRD reads bytes of the shadow context. -/
def execMCrd (i : Fin 32) (o : CtxOps) (s : State) : Host.Outcome State Fault Refusal := .next (s.runOp i.val (ctxWord 2 o))

/-- CWR (R235): Micro-op CWR writes bytes of the shadow context before commit. -/
def execMCwr (i : Fin 32) (o : CtxOps) (s : State) : Host.Outcome State Fault Refusal := .next (s.runOp i.val (ctxWord 3 o))

/-- CFIND (R235): Micro-op CFIND returns a mask of matching shadow halfwords. -/
def execMCfind (i : Fin 32) (o : CtxOps) (s : State) : Host.Outcome State Fault Refusal := .next (s.runOp i.val (ctxWord 4 o))

/-- CINCS (R235): Micro-op CINCS saturating-increments a shadow byte. -/
def execMCincs (i : Fin 32) (o : CtxOps) (s : State) : Host.Outcome State Fault Refusal := .next (s.runOp i.val (ctxWord 5 o))

/-- CTSB (R235): Micro-op CTSB tests and sets a bit of a shadow field. -/
def execMCtsb (i : Fin 32) (o : CtxOps) (s : State) : Host.Outcome State Fault Refusal := .next (s.runOp i.val (ctxWord 6 o))

/-- CZERO (R235): Micro-op CZERO zeroes shadow bytes 3 to 63. -/
def execMCzero (i : Fin 32) (s : State) : Host.Outcome State Fault Refusal := .next (s.runOp i.val (ctxWord 7 ⟨0, 0, 0⟩))

/-- INRD (R235): Micro-op INRD reads a word or the tag of the head record. -/
def execMInrd (i : Fin 32) (o : IoOps) (s : State) : Host.Outcome State Fault Refusal := .next (s.runOp i.val (ioWord 1 o))

/-- SRD (R235): Micro-op SRD reads a scratch word. -/
def execMSrd (i : Fin 32) (o : IoOps) (s : State) : Host.Outcome State Fault Refusal := .next (s.runOp i.val (ioWord 2 o))

/-- SWR (R235): Micro-op SWR writes a scratch word. -/
def execMSwr (i : Fin 32) (o : IoOps) (s : State) : Host.Outcome State Fault Refusal := .next (s.runOp i.val (ioWord 3 o))

/-- RSV (R262): Micro-op RSV reserves ring entries, waiting for space. -/
def execMRsv (i : Fin 32) (o : IoOps) (s : State) : Host.Outcome State Fault Refusal := .next (s.runOp i.val (ioWord 4 o))

/-- RPUT (R235): Micro-op RPUT writes a word of a ring-entry buffer. -/
def execMRput (i : Fin 32) (o : IoOps) (s : State) : Host.Outcome State Fault Refusal := .next (s.runOp i.val (ioWord 5 o))

/-- RPOST (R238): Micro-op RPOST posts a reserved ring entry after commit. -/
def execMRpost (i : Fin 32) (o : IoOps) (s : State) : Host.Outcome State Fault Refusal := .next (s.runOp i.val (ioWord 6 o))

/-- NOTE (R243): Micro-op NOTE posts a notice to the HMQ once earlier writes are visible. -/
def execMNote (i : Fin 32) (o : IoOps) (s : State) : Host.Outcome State Fault Refusal := .next (s.runOp i.val (ioWord 7 o))

/-- CURW (R235): Micro-op CURW writes the cursor, applied at commit. -/
def execMCurw (i : Fin 32) (o : IoOps) (s : State) : Host.Outcome State Fault Refusal := .next (s.runOp i.val (ioWord 8 o))

/-- CURR (R235): Micro-op CURR reads the committed cursor. -/
def execMCurr (i : Fin 32) (o : IoOps) (s : State) : Host.Outcome State Fault Refusal := .next (s.runOp i.val (ioWord 9 o))

/-- STAT (R255): Micro-op STAT reads a thresher value chosen by IIMM. -/
def execMStat (i : Fin 32) (o : IoOps) (s : State) : Host.Outcome State Fault Refusal := .next (s.runOp i.val (ioWord 10 o))

end Sys2Proof.Machine
end

