-- ==== Sys2Proof/Machine/CmdMicroSeq.lean ====
section
/-! DEFINITION. Sequence and ALU micro-operations (08_threshers.md, R234 to R238). -/

namespace Sys2Proof.Machine

/-- NEXT (R235): Micro-op NEXT continues at the next control-store index. -/
def execUNext (i : Fin 32) (s : State) : Host.Outcome State Fault Refusal := .next (s.runOp i.val (seqWord 0))

/-- BR (R235): Micro-op BR goes to TARGET. -/
def execUBr (i : Fin 32) (target : BitVec 14) (s : State) : Host.Outcome State Fault Refusal := .next (s.runOp i.val (seqTarget 1 target.toNat))

/-- BRC (R236): Micro-op BRC goes to TARGET if COND is true. -/
def execUBrc (i : Fin 32) (cond : Fin 64) (buf : Fin 16) (target : BitVec 14) (s : State) : Host.Outcome State Fault Refusal :=
  .next (s.runOp i.val (seqCond 2 cond.val buf.val target.toNat))

/-- BRNC (R236): Micro-op BRNC goes to TARGET if COND is false. -/
def execUBrnc (i : Fin 32) (cond : Fin 64) (buf : Fin 16) (target : BitVec 14) (s : State) : Host.Outcome State Fault Refusal :=
  .next (s.runOp i.val (seqCond 3 cond.val buf.val target.toNat))

/-- CALLU (R235): Micro-op CALLU makes a micro call, faulting at depth 4. -/
def execUCallu (i : Fin 32) (target : BitVec 14) (s : State) : Host.Outcome State Fault Refusal := .next (s.runOp i.val (seqTarget 4 target.toNat))

/-- RETU (R235): Micro-op RETU returns from a micro call, faulting at depth 0. -/
def execURetu (i : Fin 32) (s : State) : Host.Outcome State Fault Refusal := .next (s.runOp i.val (seqWord 5))

/-- COMMIT (R238): COMMIT n waits for posted-write room, writes the shadow, applies the cursor, pops the record and enters POST. -/
def execUCommit (i : Fin 32) (n : Fin 32) (s : State) : Host.Outcome State Fault Refusal := .next (s.runOp i.val (seqCount 6 n.val))

/-- COMMITK (R238): COMMITK n commits as COMMIT but keeps the record at the head. -/
def execUCommitk (i : Fin 32) (n : Fin 32) (s : State) : Host.Outcome State Fault Refusal := .next (s.runOp i.val (seqCount 7 n.val))

/-- END (R233): Micro-op END ends the routine, releasing the lock and reservations and taking any held interrupt. -/
def execUEnd (i : Fin 32) (s : State) : Host.Outcome State Fault Refusal := .next (s.runOp i.val (seqWord 8))

/-- FENCE (R243): Micro-op FENCE waits until every request of the thresher has completed. -/
def execUFence (i : Fin 32) (s : State) : Host.Outcome State Fault Refusal := .next (s.runOp i.val (seqWord 9))

/-- WAITL (R235): Micro-op WAITL waits until line buffer b is filled. -/
def execUWaitl (i : Fin 32) (b : Fin 16) (s : State) : Host.Outcome State Fault Refusal := .next (s.runOp i.val (seqCount 10 b.val))

/-- STOPU (R265): Micro-op STOPU stops the thresher with fault UC_STOP. -/
def execUStopu (i : Fin 32) (s : State) : Host.Outcome State Fault Refusal := .next (s.runOp i.val (seqWord 11))

/-- ALU_NOP (R235): ALU micro-op NOP does nothing. -/
def execAluNop (i : Fin 32) (s : State) : Host.Outcome State Fault Refusal := .next (s.runOp i.val (seqWord 0))

/-- MOV (R235): ALU micro-op MOV copies an operand to a register. -/
def execAluMov (i : Fin 32) (o : AluOps) (s : State) : Host.Outcome State Fault Refusal := .next (s.runOp i.val (aluWord 1 o))

/-- ADD (R235): ALU micro-op ADD adds two operands. -/
def execAluAdd (i : Fin 32) (o : AluOps) (s : State) : Host.Outcome State Fault Refusal := .next (s.runOp i.val (aluWord 2 o))

/-- SUB (R235): ALU micro-op SUB subtracts two operands. -/
def execAluSub (i : Fin 32) (o : AluOps) (s : State) : Host.Outcome State Fault Refusal := .next (s.runOp i.val (aluWord 3 o))

/-- AND (R235): ALU micro-op AND combines two operands bitwise. -/
def execAluAnd (i : Fin 32) (o : AluOps) (s : State) : Host.Outcome State Fault Refusal := .next (s.runOp i.val (aluWord 4 o))

/-- OR (R235): ALU micro-op OR combines two operands bitwise. -/
def execAluOr (i : Fin 32) (o : AluOps) (s : State) : Host.Outcome State Fault Refusal := .next (s.runOp i.val (aluWord 5 o))

/-- XOR (R235): ALU micro-op XOR combines two operands bitwise. -/
def execAluXor (i : Fin 32) (o : AluOps) (s : State) : Host.Outcome State Fault Refusal := .next (s.runOp i.val (aluWord 6 o))

/-- SHL (R235): ALU micro-op SHL shifts left. -/
def execAluShl (i : Fin 32) (o : AluOps) (s : State) : Host.Outcome State Fault Refusal := .next (s.runOp i.val (aluWord 7 o))

/-- SHR (R235): ALU micro-op SHR shifts right. -/
def execAluShr (i : Fin 32) (o : AluOps) (s : State) : Host.Outcome State Fault Refusal := .next (s.runOp i.val (aluWord 8 o))

/-- EXT (R235): ALU micro-op EXT extracts a bit field. -/
def execAluExt (i : Fin 32) (o : AluOps) (s : State) : Host.Outcome State Fault Refusal := .next (s.runOp i.val (aluWord 9 o))

/-- INS (R235): ALU micro-op INS inserts a bit field. -/
def execAluIns (i : Fin 32) (o : AluOps) (s : State) : Host.Outcome State Fault Refusal := .next (s.runOp i.val (aluWord 10 o))

/-- POPC (R235): ALU micro-op POPC counts set bits. -/
def execAluPopc (i : Fin 32) (o : AluOps) (s : State) : Host.Outcome State Fault Refusal := .next (s.runOp i.val (aluWord 11 o))

/-- CTZ (R235): ALU micro-op CTZ counts trailing zeros, 32 for zero. -/
def execAluCtz (i : Fin 32) (o : AluOps) (s : State) : Host.Outcome State Fault Refusal := .next (s.runOp i.val (aluWord 12 o))

/-- MIN (R235): ALU micro-op MIN takes the smaller operand. -/
def execAluMin (i : Fin 32) (o : AluOps) (s : State) : Host.Outcome State Fault Refusal := .next (s.runOp i.val (aluWord 13 o))

/-- MAX (R235): ALU micro-op MAX takes the larger operand. -/
def execAluMax (i : Fin 32) (o : AluOps) (s : State) : Host.Outcome State Fault Refusal := .next (s.runOp i.val (aluWord 14 o))

/-- CMP (R235): ALU micro-op CMP sets the flags only. -/
def execAluCmp (i : Fin 32) (o : AluOps) (s : State) : Host.Outcome State Fault Refusal := .next (s.runOp i.val (aluWord 15 o))

end Sys2Proof.Machine
end

