-- ==== Sys2Proof/Machine/Analog.lean ====
section
/-! DEFINITION. What the analogue side reports and when it settles: range changes and admission of supplies (R271 to R275, R443),
waveform tables (R288, R293), drivers, comparators and PPMUs (R182, R187, R193), event inputs (R127). -/

namespace Sys2Proof.Machine

namespace State

/-! ### Supplies -/

/-- RANGE_HANDOVER (R271): 2 µs after the application the limit of the new range alone applies. -/
def rangeHandover (s : State) (t : Nat) : State :=
  match (s.sup t 0).rangeAt with
  | some a => (s.advTo (a + 200)).setSup t 0 { s.sup t 0 with oldRange := s.get (TL_SUP_CTRL_RNG t 0) }
  | none => s

/-- RANGE_OLD_DISCONNECT (R271): after 5 µs the change is complete; a change that waits begins. -/
def rangeOldDisconnect (s : State) (t microamps : Nat) : State :=
  let x := s.sup t 0
  match x.rangeAt with
  | none => s
  | some a =>
    let s1 := ((s.advTo (a + 500)).setSup t 0 { x with rangeAt := none, rangeWait := none }).put (TL_SUP_STAT_RNG_PEND t 0) 0
    match x.rangeWait with
    | some r => s1.changeRange t r microamps
    | none => s1

/-- SETTLE_WINDOW_END (R271): 20 µs after the application. -/
def settleWindowEnd (s : State) (t : Nat) : State :=
  match (s.sup t 0).settleUntil with
  | some u => ((s.advTo u).setSup t 0 { s.sup t 0 with settleUntil := none }).put (TL_SUP_STAT_SETTLE t 0) 0
  | none => s

/-- SENSE_OPEN (R273). -/
def senseOpen (s : State) (t : Nat) : State := if s.supOn t 0 then s.mark (TL_SUP_STAT_SENSE_OPEN t 0) else s

/-- DROPOUT (R275). -/
def dropout (s : State) (t : Nat) : State := if s.supOn t 0 then s.supFlag t 0 (TL_SUP_STAT_DROPOUT t 0) else s

/-- The enable that a strip's sequencer admits next: by column, VDUT before HV (R443). -/
def nextEnable (s : State) (r : Nat) : Option (Nat × Nat) :=
  ((stripTillers r).flatMap (fun t => [(t, 0), (t, 1)])).find? (fun x => (s.sup x.1 x.2).enReq)

/-- ENABLE_ADMIT (R443): in its turn, once the spacing has passed. -/
def enableAdmit (s : State) (t h : Nat) : State :=
  if s.nextEnable (rowOf t) ≠ some (t, h) then s
  else match storeGet (fun _ => none) s.lastAdmit (rowOf t) with
    | some a => (s.advTo (a + 50 * s.get (ST_SEQ_CFG_STAGGER (rowOf t)))).enableOutput t h
    | none => s.enableOutput t h

/-- WAVEFORM_TABLE_FETCH (R288, R293, R365): a 64-byte line of the table arrives, with its poison. -/
def wfFetch (s : State) (t h line : Nat) : State :=
  let len := s.get (TL_SUP_WF_LEN_LEN t h)
  if s.get (TL_SUP_CTRL_SRC t h) ≠ 1 || !(s.wfState t h = 1 || s.wfState t h = 2) || len ≤ 16 * line then s
  else
    let a := s.wfBase t h + 64 * line
    let r := s.dramCheck a 64
    let x := r.1.sup t h
    let ks := (List.range 16).filter (fun i => decide (16 * line + i < len))
    r.1.setSup t h { x with table := ks.foldl (fun m i => storeSet (fun _ => none) m (16 * line + i) (some (s.loadLE (a + 4 * i) 4, r.2))) x.table }

/-! ### Pins -/

/-- DRIVER_ILIM (R182): a driver that drives the ball and has been in current limit for over 200 ns; the pin's tiller owns the error
line (R416). -/
def driverLimit (s : State) (g : Nat) : State :=
  if (s.ballDrive g).isNone || s.on (PN_STAT_ILIM_NOW g) then s
  else
    let s1 := ((s.mark (PN_STAT_ILIM g)).mark (PN_STAT_ILIM_NOW g)).bump (PN_CNT_ILIM_EVENTS g)
    if s.on (PN_CTRL_ILIM_ERR g) then s1.raiseLine (64 + g / 8) else s1

/-- PPMU_LIMIT (R193): in a mode that forces. -/
def ppmuLimit (s : State) (g : Nat) : State := if s.ppmuForces g = .nothing then s else s.mark (PN_STAT_PPMU_LIM g)

/-- CMP_MODE_SETTLED (R186, R187): after a mode change, a self-check or power-up the comparators follow their inputs. -/
def cmpSettled (s : State) (g : Nat) (hi lo : CmpInput) : State :=
  ((s.put (PN_STAT_MODE_SETTLING g) 0).resolveInput g true hi).resolveInput g false lo

/-! ### Event inputs -/

/-- EVENT_INPUT_SET (R127): a local source on its way to an input latch reaches it. -/
def inputSet (s : State) (t j : Nat) : State :=
  if s.wires.contains (t, j) then { s with wires := s.wires.erase (t, j) }.setLatch t j else s

end State

end Sys2Proof.Machine
end

