-- ==== Sys2Proof/Machine/CmdPin.lean ====
section
/-! DEFINITION. Pin electronics (06_pin_electronics.md, R165 to R194; R391). -/

namespace Sys2Proof.Machine

/-- TIMING_SET_WRITE (R167): a write to a timing-set word is checked and stored or refused with a reason. -/
def execTimingSetWrite (v : View) (t : Fin 64) (set : Fin 64) (offset : Fin 512) (w : Word) (s : State) : Host.Outcome State Fault Refusal :=
  .next (s.regWrite v (tsAddr t.val set.val offset.val) w.toNat)

/-- PN_CTRL_WRITE (R186): a write of PN_CTRL applies driver, clamp, comparator mode and guarded SELFTEST settings. -/
def execPnCtrlWrite (v : View) (g : Fin 512) (w : Word) (s : State) : Host.Outcome State Fault Refusal := .next (s.regWrite v (PN_CTRL g.val) w.toNat)

/-- CMP_MODE_SETTLED (R186): a comparator mode change settles within 1 µs and MODE_SETTLING clears. -/
def execCmpModeSettled (g : Fin 512) (hi lo : CmpInput) (s : State) : Host.Outcome State Fault Refusal := .next (s.cmpSettled g.val hi lo)

/-- LEVEL_REG_WRITE (R179): a write of a pin level code is applied within 200 ns, with clamp writes checked. -/
def execLevelRegWrite (v : View) (g : Fin 512) (level : Fin 8) (code : BitVec 16) (s : State) : Host.Outcome State Fault Refusal :=
  .next (s.regWrite v (levelReg g.val level.val) code.toNat)

/-- PPMU_CTRL_WRITE (R191): a write of PN_PPMU_CTRL changes the PPMU mode or makes a make-before-break range change. -/
def execPpmuCtrlWrite (v : View) (g : Fin 512) (w : Word) (s : State) : Host.Outcome State Fault Refusal := .next (s.regWrite v (PN_PPMU_CTRL g.val) w.toNat)

/-- DRIVER_ILIM (R182): a driver in current limit for over 200 ns sets ILIM and may raise the pin's error line. -/
def execDriverIlim (g : Fin 512) (s : State) : Host.Outcome State Fault Refusal := .next (s.driverLimit g.val)

/-- COMPARATOR_CROSSING (R188): a comparator output change sets HI_SEEN or LO_SEEN and feeds the WATCH summary. -/
def execComparatorCrossing (g : Fin 512) (high above : Bool) (at_ : Nat) (s : State) : Host.Outcome State Fault Refusal := .next (s.crossingAt g.val high above at_)

/-- PIN_LOOPBACK_WRITE (R391): a write of GL_PIN_LPBK sets pin loopbacks or is ignored while the tiller runs. -/
def execPinLoopbackWrite (v : View) (t : Fin 64) (w : Word) (s : State) : Host.Outcome State Fault Refusal := .next (s.regWrite v (GL_PIN_LPBK t.val) w.toNat)

/-- PPMU_LIMIT (R193): the PPMU reaches its current or voltage limit, holds the output there and sets PN_STAT.PPMU_LIM. -/
def execPpmuLimit (g : Fin 512) (s : State) : Host.Outcome State Fault Refusal := .next (s.ppmuLimit g.val)

end Sys2Proof.Machine
end

