-- ==== Sys2Proof/Machine/Msp.lean ====
section
/-! DEFINITION. Slave transactions of the management port (13_supervisors_events_faults.md, R422 to R426). -/

namespace Sys2Proof.Machine

/-- Ends of the blocks within a span, as the layout tables of 01_two_hierarchies.md give them, lowest first. -/
def globalEnds : List Nat := [0x40, 0x80, 0x1000, 0x2000, 0x3000, 0x4000, 0x8000, 0x9000, 0xA000, 0xB000, 0x10000]
def stripEnds : List Nat := [0x400, 0x1000, 0x1400, 0x1800, 0x2000]
def sheafEnds : List Nat := [0x400, 0x800, 0xC00, 0xE00, 0x1000]
def tillerEnds : List Nat := [0x100, 0x200, 0x280, 0x380, 0x400, 0x500, 0x600, 0x700, 0x800, 0x900, 0xA00, 0xB00, 0xC00, 0xD00, 0xE00, 0xF00, 0x1000]
def linkEnds : List Nat := [0x2000, 0x4000, 0x6000, 0x8000, 0xA000, 0x10000]
def spaceEnds : List Nat := [0x40000, 0x100000, 0x300000, 0x340000, 0x540000, 0x5C0000, 0x5E0000, 0x1000000]

/-- First end above an offset. -/
def endIn (l : List Nat) (o : Nat) : Nat := (l.find? (fun e => decide (o < e))).getD 0

/-- First address after the smallest range that holds an address (R426). -/
def mspEnd (a : Nat) : Nat :=
  if a < 0x10000 then endIn globalEnds a
  else if a < 0x20000 then a / 0x2000 * 0x2000 + endIn stripEnds (a % 0x2000)
  else if a < 0x30000 then a / 0x1000 * 0x1000 + endIn sheafEnds (a % 0x1000)
  else if 0x40000 ≤ a ∧ a < 0x80000 then a / 0x1000 * 0x1000 + endIn tillerEnds (a % 0x1000)
  else if 0x80000 ≤ a ∧ a < 0x90000 then 0x80000 + endIn linkEnds (a - 0x80000)
  else endIn spaceEnds a

namespace State

/-- A word of the register space is implemented (R11, R24, R372). -/
def implemented (s : State) (a : Nat) : Bool :=
  s.reachable a && ((isTable a && !(within a 0x340000 0x200000 && decide (0x4040 ≤ (a - 0x340000) % 0x8000))) || isMsix a || (regAt a).isSome)

/-- The word can be accessed in a transaction whose block ends at `e`. -/
def mspValid (s : State) (e a : Nat) : Bool := decide (a < e) && s.implemented a

/-- A word at no address of the block (R412, R426). -/
def mspOvf (s : State) : State := (s.mark MSP_STATUS_OVF).source 1297

/-- One word read. -/
def mspWordRead (s : State) (e a : Nat) : State × Nat := if s.mspValid e a then s.regRead .msp a else (s.mspOvf, 0)

/-- One word written. -/
def mspWordWrite (s : State) (e a w : Nat) : State := if s.mspValid e a then s.regWrite .msp a w else s.mspOvf

/-- k words read from an address on: the state and the words, the first lowest. -/
def mspReads (e : Nat) : Nat → Nat → State → State × Nat
  | 0, _, s => (s, 0)
  | k + 1, a, s =>
    let r := s.mspWordRead e a
    let q := mspReads e k (a + 4) r.1
    (q.1, r.2 + 2 ^ 32 * q.2)

def mspWrites (e : Nat) : List Word → Nat → State → State
  | [], _, s => s
  | w :: r, a, s => mspWrites e r (a + 4) (s.mspWordWrite e a w.toNat)

/-- Words the transaction accesses at most (R423); an open one runs on. -/
def mspLimit (x : MspTrans) (k : Nat) : Nat := if x.cnt then min k (x.n.val + 1) else k

/-- A word is still to come when CS# rises (R424, R425). -/
def mspMore (x : MspTrans) (k : Nat) : Bool := !x.cnt || decide (k < x.n.val + 1)

/-- The word prefetched and not sent (R424): a side effect stands, and LOST sets. -/
def mspPrefetch (s : State) (x : MspTrans) : State :=
  let a := x.addr.toNat + 4 * x.clocked
  if mspMore x x.clocked && s.mspValid (mspEnd x.addr.toNat) a && s.readActs .msp a then (s.regRead .msp a).1.mark MSP_STATUS_LOST else s

/-- A read (R424): the marker 0xA5 and the words; after a time-out the marker 0x5A, and every word reads 0. -/
def mspReadPart (s : State) (x : MspTrans) : State :=
  if x.tmo then { s.mark MSP_STATUS_TMO with rdData := 0, rdPoison := false, msp := { s.msp with marker := 0x5A } }
  else
    let r := mspReads (mspEnd x.addr.toNat) (mspLimit x x.clocked) x.addr.toNat s
    let s1 := r.1.mspPrefetch x
    { s1 with rdData := r.2, rdPoison := false, msp := { s1.msp with marker := 0xA5 } }

def mspWritePart (s : State) (x : MspTrans) : State :=
  mspWrites (mspEnd x.addr.toNat) (x.words.take (mspLimit x x.words.length)) x.addr.toNat s

/-- MSP_TRANSACTION (R422 to R426). -/
def mspTransaction (s : State) (x : MspTrans) : State :=
  if !s.power.vbulk then s
  else
    let s0 := (s.put MSP_STATUS_MODE3 (b2n x.mode3)).bump MSP_STATUS_TRANS
    let sent := if x.read then x.clocked else x.words.length
    let s1 := if x.cut = .inHeader || (x.cut = .inWord && mspMore x sent) then s0.mark MSP_STATUS_FRAG else s0
    if x.cut = .inHeader then s1
    else if x.addr.toNat % 4 ≠ 0 then (if x.read then { s1.mark MSP_STATUS_ALIGN with rdData := 0, rdPoison := false } else s1.mark MSP_STATUS_ALIGN)
    else if x.read then s1.mspReadPart x
    else s1.mspWritePart x

end State

end Sys2Proof.Machine
end

