-- ==== Sys2Proof/Machine/CmdPort.lean ====
section
/-! DEFINITION. The management port and the NVM (13_supervisors_events_faults.md, R422 to R431). -/

namespace Sys2Proof.Machine

/-- MSP_TRANSACTION (R423): a management-port slave transaction reads or writes BAR0 words until its count or CS# rise. -/
def execMspTransaction (x : MspTrans) (s : State) : Host.Outcome State Fault Refusal := .next (s.mspTransaction x)

/-- MSP_MASTER_GO (R427): a write of MSP_M_CMD.GO runs one boot-flash transaction or is refused. -/
def execMspMasterGo (v : View) (w : Word) (s : State) : Host.Outcome State Fault Refusal := .next (s.regWrite v MSP_M_CMD (insert32 w.toNat 31 31 1))

/-- MSP_MASTER_DONE (R427): a master transaction ends and MSP_M_DONE is raised. -/
def execMspMasterDone (received : List Word) (s : State) : Host.Outcome State Fault Refusal :=
  if s.mspFits received.length then .next (s.mspDone (received.map BitVec.toNat)) else .fault .malformed

/-- MSP_DATA_READ (R427): a read of MSP_M_DATA pops the data FIFO, or sets UNDERRUN when empty. -/
def execMspDataRead (s : State) : Host.Outcome State Fault Refusal := .next (s.readOut .bar0 MSP_M_DATA)

/-- MSP_DATA_WRITE (R427): a write of MSP_M_DATA pushes a word into the data FIFO. -/
def execMspDataWrite (v : View) (w : Word) (s : State) : Host.Outcome State Fault Refusal := .next (s.regWrite v MSP_M_DATA w.toNat)

/-- NV_PROGRAM (R431): NV_CTRL GO with OP PROGRAM programs the row buffer to a row, or is DENIED. -/
def execNvProgram (v : View) (w : Word) (s : State) : Host.Outcome State Fault Refusal := .next (s.regWrite v NV_CTRL (insert32 (insert32 w.toNat 31 31 1) 30 29 1))

/-- NV_ERASE (R431): NV_CTRL GO with OP ERASE erases a sector, or is DENIED. -/
def execNvErase (v : View) (w : Word) (s : State) : Host.Outcome State Fault Refusal := .next (s.regWrite v NV_CTRL (insert32 (insert32 w.toNat 31 31 1) 30 29 2))

/-- NV_OP_DONE (R431): an NVM erase or program completes, verifies and clears BUSY. -/
def execNvOpDone (verified : Bool) (s : State) : Host.Outcome State Fault Refusal := .next (s.nvmDone verified)

/-- NV_DATA_ACCESS (R431): an access of NV_DATA reads a word or fills the row buffer and advances ADDR. -/
def execNvDataAccess (v : View) (write : Bool) (w : Word) (s : State) : Host.Outcome State Fault Refusal :=
  .next (if write then s.regWrite v NV_DATA w.toNat else s.readOut v NV_DATA)

end Sys2Proof.Machine
end

