-- ==== Sys2Proof/Machine/CmdPower.lean ====
section
/-! DEFINITION. Power, reset and boot (14_power_package_bringup.md, R438 to R452). -/

namespace Sys2Proof.Machine

/-- VBULK_POWER_UP (R438): VBULK above 8.5 V for 5 ms releases the always-on reset and starts power-up. -/
def execVbulkPowerUp (cpos : BitVec 6) (s : State) : Host.Outcome State Fault Refusal := .next (s.vbulkPowerUp cpos.toNat)

/-- POWER_STEP_DONE (R438): a step's PG reads high for 100 µs and is accepted. -/
def execPowerStepDone (s : State) : Host.Outcome State Fault Refusal := .next (s.powerStepDone)

/-- POWER_STEP_START (R438): One ms after a PG is accepted the next REG_EN rises. -/
def execPowerStepStart (s : State) : Host.Outcome State Fault Refusal := .next (s.powerStepStart)

/-- PG_TIMEOUT (R439): a PG not accepted within 10 ms is a power failure and starts power-down. -/
def execPgTimeout (s : State) : Host.Outcome State Fault Refusal := .next (s.pgTimeout)

/-- PG_FALL (R439): a PG that falls while its REG_EN is high is a power failure and starts power-down. The operand is the bit of
the step in REG_EN and PG, so that step 1 has bit 0. -/
def execPgFall (step : Fin 6) (s : State) : Host.Outcome State Fault Refusal := .next (s.pgFall (step.val + 1))

/-- POWER_DOWN_STEP (R440): each REG_EN falls in order, 1 ms apart, during power-down. -/
def execPowerDownStep (s : State) : Host.Outcome State Fault Refusal := .next (s.powerDownStep)

/-- PWR_ON (R439): GL_PWR_CTRL CMD ON through the management port restarts power-up after a failure. -/
def execPwrOn (v : View) (key : BitVec 16) (s : State) : Host.Outcome State Fault Refusal := .next (s.regWrite v GL_PWR_CTRL (pwrWord 1 key.toNat))

/-- PWR_OFF (R440): GL_PWR_CTRL CMD OFF with the key saves wear and powers down. -/
def execPwrOff (v : View) (key : BitVec 16) (s : State) : Host.Outcome State Fault Refusal := .next (s.regWrite v GL_PWR_CTRL (pwrWord 2 key.toNat))

/-- PWR_SLEEP (R441): GL_PWR_CTRL CMD SLEEP with the key enters deep sleep, or is refused. -/
def execPwrSleep (v : View) (key : BitVec 16) (s : State) : Host.Outcome State Fault Refusal := .next (s.regWrite v GL_PWR_CTRL (pwrWord 3 key.toNat))

/-- PWR_WAKE (R442): GL_PWR_CTRL CMD WAKE through the management port ends deep sleep. -/
def execPwrWake (v : View) (key : BitVec 16) (s : State) : Host.Outcome State Fault Refusal := .next (s.regWrite v GL_PWR_CTRL (pwrWord 4 key.toNat))

/-- RST_N_INPUT (R447): RST_N low for 1 µs causes a chip reset or ends deep sleep. -/
def execRstNInput (s : State) : Host.Outcome State Fault Refusal := .next (s.resetPinLow)

/-- CHIP_RESET_RELEASE (R448): Ten µs into a chip reset the internal reset releases and the NVM load begins. -/
def execChipResetRelease (s : State) : Host.Outcome State Fault Refusal := .next (s.chipResetRelease)

/-- REGS_READY (R448): the NVM load and vector SRAM clearing finish, REGS_READY sets and boot begins. -/
def execRegsReady (readings : List Int) (bad : Fin 16) (calBad : List (Fin 4)) (s : State) : Host.Outcome State Fault Refusal :=
  if readings.length = 34 ∧ calBad.length = 8 then .next (s.regsReady readings bad.val (calBad.map Fin.val)) else .fault .malformed

/-- BOOT_FLASH (R451): the boot service reads and checks a flash image and starts the supervisors. Bits 0 and 1 of the first operand tell
that the read of image A, of image B, times out. -/
def execBootFlash (timeouts : Fin 4) (imageA imageB : List Byte) (s : State) : Host.Outcome State Fault Refusal :=
  .next (s.bootFlash timeouts.val (imageA.map BitVec.toNat) (imageB.map BitVec.toNat))

/-- BOOT_HOST_GO (R451): a write of GL_BOOT_CTRL.GO boots from a host image in DRAM. -/
def execBootHostGo (v : View) (s : State) : Host.Outcome State Fault Refusal := .next (s.mergeField v GL_BOOT_CTRL_GO 1)

/-- LOSS_OF_VBULK (R357): VBULK is removed and the always-on domain loses power, losing wear accrued since the last save and ending any shutdown. -/
def execLossOfVbulk (s : State) : Host.Outcome State Fault Refusal := .next (s.lossOfVbulk)

/-- RST_N_RELEASE (R447): RST_N rises, ending a chip reset that it held, including one held during power-up. -/
def execRstNRelease (s : State) : Host.Outcome State Fault Refusal := .next (s.resetPinHigh)

end Sys2Proof.Machine
end

