-- ==== Sys2Proof/Machine/CmdRegister.lean ====
section
/-! DEFINITION. Register accesses and block resets (00_scope.md, 01_two_hierarchies.md): R5, R19, R20, R25, R447. -/

namespace Sys2Proof.Machine

/-- REG_WRITE (R5): a register write to a register with no row of its own sets each field under its access code. -/
def execRegWrite (v : View) (addr : Nat) (w : WriteData) (s : State) : Host.Outcome State Fault Refusal :=
  .next (s.busWrite v addr w)

/-- BLK_RST_PIN (R19): GL_BLK_RST GO with SCOPE pin requests a reset of one pin sub-block, refused with RST_BUSY if its tiller runs. -/
def execBlkRstPin (v : View) (index : BitVec 9) (s : State) : Host.Outcome State Fault Refusal := .next (s.regWrite v GL_BLK_RST (blkRstWord 0 index.toNat))

/-- BLK_RST_TILLER (R19): GL_BLK_RST GO with SCOPE tiller stops the tiller, sends its outputs safe, flushes its fails and marks its contexts stale. -/
def execBlkRstTiller (v : View) (index : BitVec 9) (s : State) : Host.Outcome State Fault Refusal := .next (s.regWrite v GL_BLK_RST (blkRstWord 1 index.toNat))

/-- BLK_RST_SHEAF (R19): GL_BLK_RST GO with SCOPE sheaf resets two threshers and clears the context slice, refused while a tiller of the sheaf runs. -/
def execBlkRstSheaf (v : View) (index : BitVec 9) (s : State) : Host.Outcome State Fault Refusal := .next (s.regWrite v GL_BLK_RST (blkRstWord 2 index.toNat))

/-- BLK_RST_STRIP (R19): GL_BLK_RST GO with SCOPE strip resets eight tillers, their pins, strip thermal, sequencing and event segment. -/
def execBlkRstStrip (v : View) (index : BitVec 9) (s : State) : Host.Outcome State Fault Refusal := .next (s.regWrite v GL_BLK_RST (blkRstWord 3 index.toNat))

/-- BLK_RST_CHIP (R447): GL_BLK_RST GO with SCOPE chip requests a chip reset with the rails up. -/
def execBlkRstChip (v : View) (index : BitVec 9) (s : State) : Host.Outcome State Fault Refusal := .next (s.regWrite v GL_BLK_RST (blkRstWord 4 index.toNat))

/-- BLOCK_RESET_DONE (R20): a block reset completes after its scope's time, and any held pending request then starts. -/
def execBlockResetDone (s : State) : Host.Outcome State Fault Refusal := .next (s.blockResetDone)

/-- TABLE_WRITE (R25): a write to a tiller or strip table takes effect for the next access to that entry. -/
def execTableWrite (v : View) (addr : Nat) (w : WriteData) (s : State) : Host.Outcome State Fault Refusal :=
  .next (if isTable addr then s.busWrite v addr w else s)

/-- RC_FIELD_READ (R5): a read of a register with an RC field returns the value and returns the field to its reset value. -/
def execRcFieldRead (v : View) (addr : Nat) (s : State) : Host.Outcome State Fault Refusal := .next (s.readOut v addr)

end Sys2Proof.Machine
end

