-- ==== Sys2Proof/Machine/CmdSuper.lean ====
section
/-! DEFINITION. Supervisors, the lead token and their services (13_supervisors_events_faults.md, R394 to R403). -/

namespace Sys2Proof.Machine

/-- HEARTBEAT (R394): a supervisor write of its SV_HB register clears SILENT and may retake its domain. -/
def execHeartbeat (v : View) (d : Fin 2) (w : Word) (s : State) : Host.Outcome State Fault Refusal := .next (s.regWrite v (SV_HB_N + 4 * d.val) w.toNat)

/-- SUPERVISOR_SILENT (R394): a heartbeat age of 10 ms sets SILENT and the other supervisor adopts the domain. -/
def execSupervisorSilent (d : Fin 2) (s : State) : Host.Outcome State Fault Refusal := .next (s.svGoesSilent d.val)

/-- LEAD_CLAIM (R396): a supervisor claim of the lead token is granted while HOLDER is NONE and no conflict stands. -/
def execLeadClaim (v : View) (s : State) : Host.Outcome State Fault Refusal := .next (s.regWrite v SV_LEAD_CLAIM 1)

/-- LEAD_TAKEOVER (R400): a takeover by the non-holder is accepted when the holder is SILENT. -/
def execLeadTakeover (v : View) (s : State) : Host.Outcome State Fault Refusal := .next (s.regWrite v SV_LEAD_CLAIM 2)

/-- LEAD_SET (R399): a host write of SV_LEAD_SET assigns the token and clears CONFLICT. -/
def execLeadSet (v : View) (w : Word) (s : State) : Host.Outcome State Fault Refusal := .next (s.regWrite v SV_LEAD_SET w.toNat)

/-- SUPERVISOR_RELEASE (R399): a write of SV_CTRL.RELEASE_N or RELEASE_S ends a supervisor's trap. -/
def execSupervisorRelease (v : View) (d : Fin 2) (s : State) : Host.Outcome State Fault Refusal := .next (s.mergeField v (State.releaseField d.val) 1)

/-- SUPERVISOR_RESTART (R395): a write of SV_CTRL.RESTART_N or RESTART_S reboots a supervisor, which gives up its domain. -/
def execSupervisorRestart (v : View) (d : Fin 2) (s : State) : Host.Outcome State Fault Refusal := .next (s.mergeField v (State.restartField d.val) 1)

/-- PING (R402): Supervisor service PING returns firmware uptime. -/
def execPing (v : View) (d : Fin 2) (a0 a1 a2 : Word) (s : State) : Host.Outcome State Fault Refusal := .next (s.svCall v d.val 1 a0.toNat a1.toNat a2.toNat)

/-- VERSION (R402): Supervisor service VERSION returns the firmware version. -/
def execVersion (v : View) (d : Fin 2) (a0 a1 a2 : Word) (s : State) : Host.Outcome State Fault Refusal := .next (s.svCall v d.val 2 a0.toNat a1.toNat a2.toNat)

/-- UCODE_LOAD (R402): Supervisor service UCODE_LOAD loads the default image into masked sheaves. -/
def execUcodeLoad (v : View) (d : Fin 2) (a0 a1 a2 : Word) (s : State) : Host.Outcome State Fault Refusal := .next (s.svCall v d.val 3 a0.toNat a1.toNat a2.toNat)

/-- CAL_RUN (R402): Supervisor service CAL_RUN makes the masked strips DUE. -/
def execCalRun (v : View) (d : Fin 2) (a0 a1 a2 : Word) (s : State) : Host.Outcome State Fault Refusal := .next (s.svCall v d.val 4 a0.toNat a1.toNat a2.toNat)

/-- SV_WEAR_SAVE (R402): Supervisor service WEAR_SAVE performs a wear save. -/
def execSvWearSave (v : View) (d : Fin 2) (a0 a1 a2 : Word) (s : State) : Host.Outcome State Fault Refusal := .next (s.svCall v d.val 5 a0.toNat a1.toNat a2.toNat)

/-- SEQ (R443): Supervisor service SEQ enables or disables the supplies of the masked strips in order. -/
def execSvSeq (v : View) (d : Fin 2) (a0 a1 a2 : Word) (s : State) : Host.Outcome State Fault Refusal := .next (s.svCall v d.val 6 a0.toNat a1.toNat a2.toNat)

/-- SELFCHECK (R402): Supervisor service SELFCHECK runs an L-pad loopback check of the masked tillers. -/
def execSelfcheck (v : View) (d : Fin 2) (a0 a1 a2 : Word) (s : State) : Host.Outcome State Fault Refusal := .next (s.svCall v d.val 7 a0.toNat a1.toNat a2.toNat)

/-- SV_RESPONSE (R402): a supervisor queues a command response when the mailbox has room and BUSY clears. -/
def execSvResponse (d : Fin 2) (status : BitVec 8) (value : BitVec 31) (s : State) : Host.Outcome State Fault Refusal :=
  .next (s.svResponse d.val status.toNat value.toNat)

/-- MBX_READ (R402): a read of SV_MBX_RD pops one response word or returns NOT_VALID. -/
def execMbxRead (d : Fin 2) (s : State) : Host.Outcome State Fault Refusal := .next (s.readOut .bar0 (SV_MBX_RD d.val))

end Sys2Proof.Machine
end

