-- ==== Sys2Proof/Machine/CmdSupply.lean ====
section
/-! DEFINITION. DUT supplies (09_dut_supplies_and_energy.md, R266 to R298; R443). -/

namespace Sys2Proof.Machine

/-- SUPPLY_ENABLE (R269): a write of EN = 1 to a VDUT or HV output requests admission through the strip sequencer. -/
def execSupplyEnable (v : View) (t : Fin 64) (h : Fin 2) (s : State) : Host.Outcome State Fault Refusal := .next (s.mergeField v (TL_SUP_CTRL_EN t.val h.val) 1)

/-- ENABLE_ADMIT (R443): the strip sequencer admits a waiting enable and the output turns on. -/
def execEnableAdmit (t : Fin 64) (h : Fin 2) (s : State) : Host.Outcome State Fault Refusal := .next (s.enableAdmit t.val h.val)

/-- SUPPLY_DISABLE (R269): a write of EN = 0 opens the pass stage and closes the discharge switch. -/
def execSupplyDisable (v : View) (t : Fin 64) (h : Fin 2) (microamps : Nat) (s : State) : Host.Outcome State Fault Refusal :=
  .next (s.mergeFieldWith v (TL_SUP_CTRL_EN t.val h.val) 0 (some microamps))

/-- SUPPLY_CLEAR (R285): a write of CLEAR after the hold-off returns a LOCKOUT output to OFF. -/
def execSupplyClear (v : View) (t : Fin 64) (h : Fin 2) (s : State) : Host.Outcome State Fault Refusal := .next (s.mergeField v (TL_SUP_CTRL_CLEAR t.val h.val) 1)

/-- SUPPLY_RANGE_CHANGE (R271): a VDUT range write starts a make-before-break range change or applies at once when disabled. -/
def execSupplyRangeChange (v : View) (t : Fin 64) (range : Fin 4) (microamps : Nat) (s : State) : Host.Outcome State Fault Refusal :=
  .next (s.mergeFieldWith v (TL_SUP_CTRL_RNG t.val 0) range.val (some microamps))

/-- RANGE_HANDOVER (R271): Two µs into a range change regulation hands over to the new stage. -/
def execRangeHandover (t : Fin 64) (s : State) : Host.Outcome State Fault Refusal := .next (s.rangeHandover t.val)

/-- RANGE_OLD_DISCONNECT (R271): Five µs into a range change the old stage disconnects and RNG_PEND clears. -/
def execRangeOldDisconnect (t : Fin 64) (microamps : Nat) (s : State) : Host.Outcome State Fault Refusal := .next (s.rangeOldDisconnect t.val microamps)

/-- SETTLE_WINDOW_END (R271): Twenty µs after a range change the SETTLE window ends. -/
def execSettleWindowEnd (t : Fin 64) (s : State) : Host.Outcome State Fault Refusal := .next (s.settleWindowEnd t.val)

/-- HV_SPAN_WRITE (R277): a write of TL_HV_CTRL.SPAN changes the span and reloads CODE, or is ignored while enabled. -/
def execHvSpanWrite (v : View) (t : Fin 64) (bipolar : Bool) (s : State) : Host.Outcome State Fault Refusal :=
  .next (s.mergeField v ⟨TL_SUP_CTRL t.val 1, 4, 4⟩ (b2n bipolar))

/-- SUPPLY_CODE_WRITE (R267): a write of an output CODE enters the setpoint chain. -/
def execSupplyCodeWrite (v : View) (t : Fin 64) (h : Fin 2) (code : Fin 262144) (s : State) : Host.Outcome State Fault Refusal :=
  .next (s.regWrite v (TL_SUP_CODE t.val h.val) code.val)

/-- ENERGY_LIMIT_WRITE (R281): a write of CEXT or ECEIL recomputes the permitted codes and clamps the output at once. -/
def execEnergyLimitWrite (v : View) (t : Fin 64) (h : Fin 2) (ceiling : Bool) (w : Word) (s : State) : Host.Outcome State Fault Refusal :=
  .next (s.regWrite v (if ceiling then TL_SUP_ECEIL t.val h.val else TL_SUP_CEXT t.val h.val) w.toNat)

/-- CURRENT_LIMIT_ENTER (R270): an output enters current limit and an episode is counted. -/
def execCurrentLimitEnter (t : Fin 64) (h : Fin 2) (s : State) : Host.Outcome State Fault Refusal := .next (s.enterLimit t.val h.val)

/-- ILIM_TRIP (R270): an output in limit for TIME µs faults with ILIM_TRIP. -/
def execIlimTrip (t : Fin 64) (h : Fin 2) (s : State) : Host.Outcome State Fault Refusal := .next (s.limitTrip t.val h.val)

/-- SLEW_STEP (R292): every RATE ticks the slew limiter steps its output toward the target. -/
def execSlewStep (t : Fin 64) (h : Fin 2) (s : State) : Host.Outcome State Fault Refusal := .next (s.slewStep t.val h.val)

/-- WF_GO (R287): a write of WF_CTRL.GO starts or arms the waveform player, or refuses it. -/
def execWfGo (v : View) (t : Fin 64) (h : Fin 2) (s : State) : Host.Outcome State Fault Refusal := .next (s.mergeField v (TL_SUP_WF_CTRL_GO t.val h.val) 1)

/-- WF_STOP (R293): a write of WF_CTRL.STOP returns the deviation to 0 at the next sample boundary. -/
def execWfStop (v : View) (t : Fin 64) (h : Fin 2) (s : State) : Host.Outcome State Fault Refusal := .next (s.mergeField v (TL_SUP_WF_CTRL_STOP t.val h.val) 1)

/-- WF_SAMPLE (R288): at each sample boundary the player forms its deviation and the setpoint chain runs. -/
def execWfSample (t : Fin 64) (h : Fin 2) (s : State) : Host.Outcome State Fault Refusal := .next (s.wfSample t.val h.val)

/-- CROWBAR_TRIP (R284): a contact-loss or arc detector trips and the crowbar diverts the stored energy. -/
def execCrowbarTrip (t : Fin 64) (h : Fin 2) (arc : Bool) (s : State) : Host.Outcome State Fault Refusal := .next (s.crowbarTrip t.val h.val arc)

/-- CROWBAR_OPEN (R284): Two µs after onset the crowbar opens and the output enters LOCKOUT with fault CROWBAR. -/
def execCrowbarOpen (t : Fin 64) (h : Fin 2) (s : State) : Host.Outcome State Fault Refusal := .next (s.crowbarOpen t.val h.val)

/-- CROWBAR_HOLDOFF_END (R284): One hundred µs after onset the hold-off ends and CLEAR is accepted. -/
def execCrowbarHoldoffEnd (t : Fin 64) (h : Fin 2) (s : State) : Host.Outcome State Fault Refusal := .next (s.crowbarHoldoff t.val h.val)

/-- SUPERVISION_READ (R294): a supervision conversion checks an output against its window, faulting after CNT violations. The tags of
the reading follow from the state (R309, R310), so its last operand says nothing. -/
def execSupervisionRead (t : Fin 64) (h : Fin 2) (code : Int) (_tags : Unit) (s : State) : Host.Outcome State Fault Refusal :=
  .next (s.superviseReading t.val h.val code)

/-- SENSE_OPEN (R273): a force-sense difference above 300 mV for 10 µs moves regulation to internal sense. -/
def execSenseOpen (t : Fin 64) (s : State) : Host.Outcome State Fault Refusal := .next (s.senseOpen t.val)

/-- DROPOUT (R275): VRAW headroom below 200 mV sets DROPOUT. -/
def execDropout (t : Fin 64) (s : State) : Host.Outcome State Fault Refusal := .next (s.dropout t.val)

/-- LEAVE_CURRENT_LIMIT (R270): a driver or DUT output leaves current limit, ILIM_NOW clears and the continuous-limit trip time stops. -/
def execLeaveCurrentLimit (which : LimitUnit) (s : State) : Host.Outcome State Fault Refusal :=
  .next (match which with | .driver g => s.put (PN_STAT_ILIM_NOW g.val) 0 | .supply t h => s.leaveLimit t.val h.val)

/-- WAVEFORM_TABLE_FETCH (R293): a waveform table line arrives from DRAM for a player, poisoned if it is uncorrectable, deciding whether the entry is there by its sample boundary. -/
def execWaveformTableFetch (t : Fin 64) (h : Fin 2) (line : Nat) (s : State) : Host.Outcome State Fault Refusal := .next (s.wfFetch t.val h.val line)

end Sys2Proof.Machine
end

