-- ==== Sys2Proof/Machine/CmdThresher.lean ====
section
/-! DEFINITION. Crossbar, dispatch and control of threshers, and their control store (08_threshers.md, R230 to R265). -/

namespace Sys2Proof.Machine

/-- XBAR_TAKE (R230): the crossbar moves a fail FIFO entry into a thresher input FIFO with room. -/
def execXbarTake (t : Fin 64) (s : State) : Host.Outcome State Fault Refusal := .next (s.xbarTake t.val)

/-- TH_DISPATCH (R233): a record at the input FIFO head is dispatched to its entry routine. -/
def execThDispatch (i : Fin 32) (s : State) : Host.Outcome State Fault Refusal := .next (s.thDispatch i.val)

/-- TH_READ_COMPLETE (R244): a thresher DRAM read completes and fills its line buffer, or is discarded as an orphan. -/
def execThReadComplete (i : Fin 32) (b : Fin 16) (s : State) : Host.Outcome State Fault Refusal := .next (s.thReadComplete i.val b.val)

/-- TH_WRITE_COMPLETE (R243): a posted thresher write completes and becomes visible, advancing ring HEAD. -/
def execThWriteComplete (w : PostedTurn) (s : State) : Host.Outcome State Fault Refusal := .next (s.thWriteComplete w.thresher.val w.place.val)

/-- TH_RUN (R240): a write of TH_CTRL.RUN = 1 starts dispatching. -/
def execThRun (v : View) (i : Fin 32) (s : State) : Host.Outcome State Fault Refusal := .next (s.mergeField v (TH_CTRL_RUN i.val) 1)

/-- TH_STOP (R240): a write of TH_CTRL.RUN = 0 abandons a pre-commit routine or stops at END. -/
def execThStop (v : View) (i : Fin 32) (s : State) : Host.Outcome State Fault Refusal := .next (s.mergeField v (TH_CTRL_RUN i.val) 0)

/-- TH_RESTART (R265): a write of TH_CTRL.RESTART clears FAULTED and dispatches the head record again. -/
def execThRestart (v : View) (i : Fin 32) (s : State) : Host.Outcome State Fault Refusal := .next (s.mergeField v (TH_CTRL_RESTART i.val) 1)

/-- TH_CMD_SOLVE (R255): TH_CMD GO with CMD SOLVE enqueues a command to solve every valid context of tiller q. -/
def execThCmdSolve (v : View) (i : Fin 32) (q : Fin 4) (s : State) : Host.Outcome State Fault Refusal := .next (s.regWrite v (TH_CMD i.val) (thCmdWord 1 q.val))

/-- TH_CMD_CLEAR (R255): TH_CMD GO with CMD CLEAR enqueues a command to zero tiller q's contexts. -/
def execThCmdClear (v : View) (i : Fin 32) (q : Fin 4) (s : State) : Host.Outcome State Fault Refusal := .next (s.regWrite v (TH_CMD i.val) (thCmdWord 2 q.val))

/-- XBAR_ROUTE_WRITE (R231): a write of SH_XBAR_ROUTE moves tillers between threshers at their next packet boundary. -/
def execXbarRouteWrite (v : View) (u : Fin 16) (w : Word) (s : State) : Host.Outcome State Fault Refusal := .next (s.regWrite v (SH_XBAR_ROUTE u.val) w.toNat)

/-- UCS_LOAD_EN (R252): a write of SH_UCS_CTRL.LOAD_EN enters control-store load mode or is refused. -/
def execUcsLoadEn (v : View) (u : Fin 16) (en : Bool) (s : State) : Host.Outcome State Fault Refusal := .next (s.mergeField v (SH_UCS_CTRL_LOAD_EN u.val) (b2n en))

/-- UCS_DATA_WRITE (R252): a write of SH_UCS_DATA7 stores a microword and increments ADDR. -/
def execUcsDataWrite (v : View) (u : Fin 16) (k : Fin 8) (w : Word) (s : State) : Host.Outcome State Fault Refusal :=
  .next (s.regWrite v (SH_UCS_DATA u.val k.val) w.toNat)

/-- UCS_FINISH (R252): a write of SH_UCS_FINISH GO stores version and hash and leaves load mode. -/
def execUcsFinish (v : View) (u : Fin 16) (w : Word) (s : State) : Host.Outcome State Fault Refusal := .next (s.regWrite v (SH_UCS_FINISH u.val) w.toNat)

/-- UCRD_ADDR_WRITE (R254): a write of SH_UCRD_ADDR presents a control-store word in D0 to D7. -/
def execUcrdAddrWrite (v : View) (u : Fin 16) (w : Word) (s : State) : Host.Outcome State Fault Refusal := .next (s.regWrite v (SH_UCRD_ADDR u.val) w.toNat)

/-- UCRD_D7_READ (R254): a read of SH_UCRD_D7 advances the read address by 1. -/
def execUcrdD7Read (u : Fin 16) (s : State) : Host.Outcome State Fault Refusal := .next (s.readOut .bar0 (SH_UCRD_D u.val 7))

end Sys2Proof.Machine
end

