-- ==== Sys2Proof/Machine/CmdTiller.lean ====
section
/-! DEFINITION. Tiller control, trace, level queue, event inputs and segments (chapters 03, 04, 05). -/

namespace Sys2Proof.Machine

/-- TL_RUN (R90): a write of TL_SEQ_CTRL.RUN starts the tiller at its entry segment or is refused. -/
def execTlRun (v : View) (t : Fin 64) (s : State) : Host.Outcome State Fault Refusal := .next (s.mergeField v (TL_SEQ_CTRL_RUN t.val) 1)

/-- TL_STOP (R92): a write of TL_SEQ_CTRL.STOP stops the tiller at the next vector boundary with HALTED_EXT. -/
def execTlStop (v : View) (t : Fin 64) (s : State) : Host.Outcome State Fault Refusal := .next (s.mergeField v (TL_SEQ_CTRL_STOP t.val) 1)

/-- TL_RESUME (R77): a write of TL_SEQ_CTRL.RESUME ends a PAUSE park. -/
def execTlResume (v : View) (t : Fin 64) (s : State) : Host.Outcome State Fault Refusal := .next (s.mergeField v (TL_SEQ_CTRL_RESUME t.val) 1)

/-- TRACE_RD_WRITE (R93): a write of TL_TRACE_RD snapshots the selected trace entry into TL_TRACE_W0 to W3. -/
def execTraceRdWrite (v : View) (t : Fin 64) (entry : Fin 256) (s : State) : Host.Outcome State Fault Refusal := .next (s.regWrite v (TL_TRACE_RD t.val) entry.val)

/-- LEVEL_APPLY (R116): a queued level-change entry is applied at its instant and writes a done-log word. -/
def execLevelApply (t : Fin 64) (s : State) : Host.Outcome State Fault Refusal := .next (s.applyLevels t.val)

/-- LVL_DONE_READ (R119): a read of TL_LVL_DONE pops one done-log word, or repeats the last and sets UNDERRUN. -/
def execLvlDoneRead (t : Fin 64) (s : State) : Host.Outcome State Fault Refusal := .next (s.readOut .bar0 (TL_LVL_DONE t.val))

/-- EVENT_INPUT_SET (R127): a local source or direct neighbour wire sets a tiller event input latch 2 cycles after it fires. -/
def execEventInputSet (t : Fin 64) (input : Fin 8) (s : State) : Host.Outcome State Fault Refusal := .next (s.inputSet t.val input.val)

/-- EVIN_FIRE (R128): a write of TL_EVIN.FIRE sets the chosen event input latches. -/
def execEvinFire (v : View) (t : Fin 64) (mask : BitVec 8) (s : State) : Host.Outcome State Fault Refusal := .next (s.mergeField v (TL_EVIN_FIRE t.val) mask.toNat)

/-- RESULT_READ (R137): a read of TL_RESULT returns the result and clears VALID after its first read. -/
def execResultRead (t : Fin 64) (s : State) : Host.Outcome State Fault Refusal := .next (s.readOut .bar0 (TL_RESULT t.val))

/-- PRIME (R154): a write of TL_SEG_CTRL.PRIME starts the fetch of a streamed segment's first pass, or is ignored or refused. -/
def execPrime (v : View) (t : Fin 64) (seg : Fin 256) (s : State) : Host.Outcome State Fault Refusal := .next (s.regWrite v (TL_SEG_CTRL t.val) (seg.val * 2 ^ 8 + 2 ^ 2))

/-- SEG_BREAK (R141): a write of TL_SEG_CTRL.BREAK makes a break pending for a REPEAT = 0 segment. -/
def execSegBreak (v : View) (t : Fin 64) (s : State) : Host.Outcome State Fault Refusal := .next (s.mergeField v (TL_SEG_CTRL_BREAK t.val) 1)

/-- SEG_CHECK (R148): a write of TL_SEG_CHECK with GO checks a descriptor without running it. -/
def execSegCheck (v : View) (t : Fin 64) (seg : Fin 256) (s : State) : Host.Outcome State Fault Refusal := .next (s.regWrite v (TL_SEG_CHECK t.val) (2 ^ 31 + seg.val))

/-- SEG_CHECK_DONE (R148): a descriptor check completes within 1 µs and RESULT is set. -/
def execSegCheckDone (t : Fin 64) (s : State) : Host.Outcome State Fault Refusal := .next (s.segCheckDone t.val)

end Sys2Proof.Machine
end

