-- ==== Sys2Proof/Machine/CmdTime.lean ====
section
/-! DEFINITION. Time base and rendezvous (02_rachis_count.md): R26, R29 to R52. While REFCLK is absent none of these events has an
effect (R26); accesses of the registers are those of chapter 01 and stay possible. -/

namespace Sys2Proof.Machine

/-- SYNC_FRAME (R29): a 128-bit SYNC frame is received whole and judged good or bad, driving lock, loss and relock. -/
def execSyncFrame (start : Nat) (frame : BitVec 128) (s : State) : Host.Outcome State Fault Refusal :=
  .next (if s.power.vbulk && !s.power.pllLost then s.takeFrame start frame.toNat else s)

/-- RELOCK_DEFERRED (R31): once every tiller is IDLE, HALTED or FAULTED, a part held in LOST by COUNT_CONFLICT relocks by the rule. -/
def execRelockDeferred (s : State) : Host.Outcome State Fault Refusal := .next (s.clocked (s.relockDeferred))

/-- SYNC_NOP (R33): a NOP command word has no effect and is not counted. -/
def execSyncNop (c : BitVec 48) (arg : BitVec 16) (s : State) : Host.Outcome State Fault Refusal := .next (s.syncCommand c.toNat 0 arg.toNat)

/-- START_AT (R34): a START_AT command is checked and held in a pending slot for its target count. -/
def execStartAt (c : BitVec 48) (group : Fin 16) (s7 : Bool) (fine : Fin 128) (arg : BitVec 16) (s : State) : Host.Outcome State Fault Refusal :=
  .next (s.syncCommand c.toNat (State.commandWord 1 group.val (b2n s7) fine.val) arg.toNat)

/-- HALT_AT (R34): a HALT_AT command is checked and held in a pending slot for its target count. -/
def execHaltAt (c : BitVec 48) (group : Fin 16) (s7 : Bool) (fine : Fin 128) (arg : BitVec 16) (s : State) : Host.Outcome State Fault Refusal :=
  .next (s.syncCommand c.toNat (State.commandWord 2 group.val (b2n s7) fine.val) arg.toNat)

/-- CLEAR_LATE (R34): a CLEAR_LATE command is checked and held in a pending slot for its target count. -/
def execClearLate (c : BitVec 48) (group : Fin 16) (s7 : Bool) (fine : Fin 128) (arg : BitVec 16) (s : State) : Host.Outcome State Fault Refusal :=
  .next (s.syncCommand c.toNat (State.commandWord 4 group.val (b2n s7) fine.val) arg.toNat)

/-- CAL_HOLD (R37): a CAL_HOLD command sets or releases calibration holds of the masked strips from C + 128. -/
def execCalHold (c : BitVec 48) (group : Fin 16) (mask : BitVec 8) (arg : BitVec 16) (s : State) : Host.Outcome State Fault Refusal :=
  .next (s.syncCommand c.toNat (State.commandWord 3 group.val (mask.toNat / 128) (mask.toNat % 128)) arg.toNat)

/-- START_AT_DUE (R34): at count N the armed tillers of the group start at their entry segment and their arm bits clear. -/
def execStartAtDue (group : Fin 16) (n : BitVec 48) (s : State) : Host.Outcome State Fault Refusal := .next (s.clocked (s.startDue group.val n.toNat))

/-- HALT_AT_DUE (R34): at count N the running tillers of the group stop as by STOP with HALTED_EXT. -/
def execHaltAtDue (group : Fin 16) (n : BitVec 48) (s : State) : Host.Outcome State Fault Refusal := .next (s.clocked (s.haltDue group.val n.toNat))

/-- CLEAR_LATE_DUE (R34): at count N the LATE bits of the group's tillers clear. -/
def execClearLateDue (group : Fin 16) (n : BitVec 48) (s : State) : Host.Outcome State Fault Refusal := .next (s.clocked (s.clearLateDue group.val n.toNat))

/-- CAL_HOLD_EXPIRE (R37): a strip's calibration hold ends when its 128·ARG ticks have passed. -/
def execCalHoldExpire (r : Fin 8) (s : State) : Host.Outcome State Fault Refusal := .next (s.clocked (s.calHoldExpire r.val))

/-- SYNC_EN_WRITE (R30): a write of GL_SYNC_CTRL.EN enters LOCAL on 0 or HUNT on a change from 0 to 1. -/
def execSyncEnWrite (v : View) (en : Bool) (s : State) : Host.Outcome State Fault Refusal := .next (s.mergeField v GL_SYNC_CTRL_EN (b2n en))

/-- TRIM_WRITE (R43): a write of GL_SYNC_TRIM.TRIM moves the tick boundary, clamping above 320 and setting CLAMP. -/
def execTrimWrite (v : View) (trim : BitVec 9) (s : State) : Host.Outcome State Fault Refusal := .next (s.mergeField v GL_SYNC_TRIM_TRIM trim.toNat)

/-- RC_LO_READ (R52): a read of a low word of a 64-bit pair latches its high word for 1 µs. -/
def execRcLoRead (pair : Pair64) (s : State) : Host.Outcome State Fault Refusal := .next (s.readOut .bar0 (State.pairAddr pair))

/-- RC_HI_READ (R52): a read of a high word returns the latched value within 1 µs and frees the latch. -/
def execRcHiRead (pair : Pair64) (s : State) : Host.Outcome State Fault Refusal := .next (s.readOut .bar0 (State.pairAddr pair + 4))

/-- HI_LATCH_EXPIRE (R52): a high-word latch is freed 1 µs after its low read. -/
def execHiLatchExpire (pair : Pair64) (s : State) : Host.Outcome State Fault Refusal := .next (s.expireLatch (State.pairAddr pair))

/-- RDV_REPORT (R46): the leader accepts or discards an RDV_REPORT message and sends RDV_RELEASE when every part is complete. -/
def execRdvReport (k : Fin 32) (x : Fin 16) (y : Fin 16) (epoch : Fin 256) (first complete : Bool) (arrivals : Fin 256) (stamp : BitVec 48) (s : State) : Host.Outcome State Fault Refusal :=
  .next (s.clocked ((s.takeMesh (.rdvReport x.val y.val k.val epoch.val first complete arrivals.val stamp.toNat)).leadReport k.val x.val y.val epoch.val first complete stamp.toNat))

/-- RDV_RELEASE (R49): a part accepts or discards an RDV_RELEASE message, releasing at once if it arrives late. -/
def execRdvRelease (k : Fin 32) (x : Fin 16) (y : Fin 16) (epoch : Fin 256) (timeout : Bool) (r : BitVec 48) (s : State) : Host.Outcome State Fault Refusal :=
  .next (s.clocked ((s.takeMesh (.rdvRelease x.val y.val k.val epoch.val timeout r.toNat)).releaseMessage k.val x.val y.val r.toNat timeout))

/-- RDV_RELEASE_DUE (R46): at count R the parked members of the epoch are released and the epoch advances. -/
def execRdvReleaseDue (k : Fin 32) (s : State) : Host.Outcome State Fault Refusal := .next (s.clocked (s.releaseDue k.val))

/-- RDV_TIMEOUT (R48): at T_first + TMO an incomplete epoch makes the leader send a TIMEOUT release and record missing parts. -/
def execRdvTimeout (k : Fin 32) (s : State) : Host.Outcome State Fault Refusal := .next (s.clocked (s.rdvTimeout k.val))

/-- CLOCK_LOCK_LOSS (R26): REFCLK stops or leaves its range and the clock PLL loses lock, raising the clock block's error line. -/
def execClockLockLoss (s : State) : Host.Outcome State Fault Refusal := .next (s.clockLost)

/-- PLL_LOCK (R26): REFCLK returns within range and the clock PLL regains lock, so the rules that depend on REFCLK apply again. -/
def execPllLock (s : State) : Host.Outcome State Fault Refusal := .next (s.clockFound)

end Sys2Proof.Machine
end

