-- ==== Sys2Proof/Machine/CmdVector.lean ====
section
/-! DEFINITION. Vectors, their opcodes and what ends a wait or a park (03_tiller_vectors.md, 04_tiller_flow_and_apg.md, 05_segments_and_streaming.md). -/

namespace Sys2Proof.Machine

/-- VECTOR_ISSUE (R58): at a period end the next vector is checked and issues its level change, pin actions, compares, EVO and APG update. -/
def execVectorIssue (t : IssueTurn) (s : State) : Host.Outcome State Fault Refusal := .next (s.vectorIssue t.tiller.val t.ahead.val)

/-- NOP (R67): the NOP opcode continues with the next vector. -/
def execVNop (t : Fin 64) (s : State) : Host.Outcome State Fault Refusal := .next (s.asOpcode t.val 0x00 0 0 (State.opNop · t.val))

/-- REPEAT (R69): REPEAT n issues its vector n times back to back. -/
def execVRepeat (t : Fin 64) (w : Word) (s : State) : Host.Outcome State Fault Refusal := .next (s.asOpcode t.val 0x01 w.toNat 0 (State.opRepeat · t.val w.toNat))

/-- LOOP (R70): LOOP k, n loads counter k and the loop start and sets open bit k. -/
def execVLoop (t : Fin 64) (w : Word) (s : State) : Host.Outcome State Fault Refusal := .next (s.asOpcode t.val 0x02 w.toNat 0 (State.opLoop · t.val w.toNat))

/-- ENDLOOP (R70): ENDLOOP k loops back while counter k is nonzero, else falls through and clears open bit k. -/
def execVEndloop (t : Fin 64) (w : Word) (s : State) : Host.Outcome State Fault Refusal := .next (s.asOpcode t.val 0x03 w.toNat 0 (State.opEndloop · t.val w.toNat))

/-- JUMP (R72): JUMP continues at the target index. -/
def execVJump (t : Fin 64) (w : Word) (s : State) : Host.Outcome State Fault Refusal := .next (s.asOpcode t.val 0x04 w.toNat 0 (State.opJump · t.val w.toNat))

/-- CALL (R72): CALL pushes a stack entry with segment state and continues at the target. -/
def execVCall (t : Fin 64) (w : Word) (s : State) : Host.Outcome State Fault Refusal := .next (s.asOpcode t.val 0x05 w.toNat 0 (State.opCall · t.val w.toNat))

/-- RET (R72): RET pops the top stack entry and restores its index and segment state. -/
def execVRet (t : Fin 64) (s : State) : Host.Outcome State Fault Refusal := .next (s.asOpcode t.val 0x06 0 0 (State.opRet · t.val))

/-- HALT (R76): HALT issues in full and the tiller enters HALTED with its halt code. -/
def execVHalt (t : Fin 64) (w : Word) (s : State) : Host.Outcome State Fault Refusal := .next (s.asOpcode t.val 0x07 w.toNat 0 (State.opHalt · t.val w.toNat))

/-- CLRS (R77): CLRS clears the sticky bits of the pins in its mask. -/
def execVClrs (t : Fin 64) (w : Word) (s : State) : Host.Outcome State Fault Refusal := .next (s.asOpcode t.val 0x08 w.toNat 0 (State.opClrs · t.val w.toNat))

/-- CMASK (R77): CMASK loads the compare mask from this vector's compares onward. -/
def execVCmask (t : Fin 64) (w : Word) (s : State) : Host.Outcome State Fault Refusal := .next (s.asOpcode t.val 0x09 w.toNat 0 (State.opCmask · t.val w.toNat))

/-- PAUSE (R77): PAUSE issues its vector and parks the tiller until RESUME. -/
def execVPause (t : Fin 64) (s : State) : Host.Outcome State Fault Refusal := .next (s.asOpcode t.val 0x0A 0 0 (State.opPause · t.val))

/-- TMARK (R77): TMARK writes a trace entry with its operand. -/
def execVTmark (t : Fin 64) (w : Word) (s : State) : Host.Outcome State Fault Refusal := .next (s.asOpcode t.val 0x0B w.toNat 0 (State.opTmark · t.val w.toNat))

/-- JFAIL (R82): JFAIL transfers to its target when its condition is true. -/
def execVJfail (t : Fin 64) (w : Word) (cnd : BitVec 8) (s : State) : Host.Outcome State Fault Refusal :=
  .next (s.asOpcode t.val 0x10 w.toNat cnd.toNat (State.opJfail · t.val w.toNat cnd.toNat))

/-- JPASS (R82): JPASS transfers to its target when its condition is false. -/
def execVJpass (t : Fin 64) (w : Word) (cnd : BitVec 8) (s : State) : Host.Outcome State Fault Refusal :=
  .next (s.asOpcode t.val 0x11 w.toNat cnd.toNat (State.opJpass · t.val w.toNat cnd.toNat))

/-- JEVT (R83): JEVT transfers when event input latch SEL is set and clears it. -/
def execVJevt (t : Fin 64) (w : Word) (cnd : BitVec 8) (s : State) : Host.Outcome State Fault Refusal :=
  .next (s.asOpcode t.val 0x12 w.toNat cnd.toNat (State.opJevt · t.val w.toNat cnd.toNat))

/-- MATCH (R84): MATCH n reissues its vector until no pin of mask SEL fails or n+1 issues expire. -/
def execVMatch (t : Fin 64) (w : Word) (cnd : BitVec 8) (s : State) : Host.Outcome State Fault Refusal :=
  .next (s.asOpcode t.val 0x13 w.toNat cnd.toNat (State.opMatch · t.val))

/-- CFAIL (R82): CFAIL calls its target when its condition is true. -/
def execVCfail (t : Fin 64) (w : Word) (cnd : BitVec 8) (s : State) : Host.Outcome State Fault Refusal :=
  .next (s.asOpcode t.val 0x14 w.toNat cnd.toNat (State.opCfail · t.val w.toNat cnd.toNat))

/-- CPASS (R82): CPASS calls its target when its condition is false. -/
def execVCpass (t : Fin 64) (w : Word) (cnd : BitVec 8) (s : State) : Host.Outcome State Fault Refusal :=
  .next (s.asOpcode t.val 0x15 w.toNat cnd.toNat (State.opCpass · t.val w.toNat cnd.toNat))

/-- WAITRC (R39): WAITRC parks the tiller until count W, or proceeds and sets LATE if W is past. -/
def execVWaitrc (t : Fin 64) (w : Word) (s : State) : Host.Outcome State Fault Refusal := .next (s.asOpcode t.val 0x20 w.toNat 0 (State.opWaitrc · t.val w.toNat))

/-- WAITRC_WAKE (R123): a parked WAITRC tiller issues its next vector at count W. -/
def execWaitrcWake (t : Fin 64) (s : State) : Host.Outcome State Fault Refusal := .next (s.clocked (s.waitrcWake t.val))

/-- RDV (R44): RDV k parks a member tiller, stamps its arrival and sends reports, or halts a non-member. -/
def execVRdv (t : Fin 64) (w : Word) (s : State) : Host.Outcome State Fault Refusal := .next (s.asOpcode t.val 0x21 w.toNat 0 (State.opRdv · t.val w.toNat))

/-- CALGAP (R125): CALGAP declares a gap of LEN ticks after its period end. -/
def execVCalgap (t : Fin 64) (w : Word) (s : State) : Host.Outcome State Fault Refusal := .next (s.asOpcode t.val 0x22 w.toNat 0 (State.opCalgap · t.val w.toNat))

/-- GAP_START (R125): at tick G of a gap a pending switch is taken and calibration may use the tiller's pins. -/
def execGapStart (t : Fin 64) (s : State) : Host.Outcome State Fault Refusal := .next (s.gapStart t.val)

/-- GAP_END (R159): at tick G + LEN a gap ends and the next vector issues or the gap segment's link is taken. -/
def execGapEnd (t : Fin 64) (s : State) : Host.Outcome State Fault Refusal := .next (s.gapEnd t.val)

/-- SEG (R143): SEG transfers to the entry of segment n, pushing a stack entry when CALL is set. -/
def execVSeg (t : Fin 64) (w : Word) (s : State) : Host.Outcome State Fault Refusal := .next (s.asOpcode t.val 0x28 w.toNat 0 (State.opSeg · t.val w.toNat))

/-- STREAM (R154): STREAM requests a prime of streamed segment n 8 cycles after issue. -/
def execVStream (t : Fin 64) (w : Word) (s : State) : Host.Outcome State Fault Refusal := .next (s.asOpcode t.val 0x29 w.toNat 0 (State.opStream · t.val w.toNat))

/-- SETX (R102): SETX loads X, or XMAX with X reduced, for the next issue. -/
def execVSetx (t : Fin 64) (w : Word) (s : State) : Host.Outcome State Fault Refusal :=
  .next (s.asOpcode t.val 0x30 w.toNat 0 (fun z => (z.loadAddr t.val .x w.toNat).follow t.val .seq))

/-- SETY (R102): SETY loads Y, or YMAX with Y reduced, for the next issue. -/
def execVSety (t : Fin 64) (w : Word) (s : State) : Host.Outcome State Fault Refusal :=
  .next (s.asOpcode t.val 0x31 w.toNat 0 (fun z => (z.loadAddr t.val .y w.toNat).follow t.val .seq))

/-- SETD (R102): SETD loads the APG data for the next issue. -/
def execVSetd (t : Fin 64) (w : Word) (s : State) : Host.Outcome State Fault Refusal :=
  .next (s.asOpcode t.val 0x32 w.toNat 0 (fun z => (z.loadData t.val w.toNat).follow t.val .seq))

/-- SETI (R102): SETI loads index register I[n]. -/
def execVSeti (t : Fin 64) (w : Word) (s : State) : Host.Outcome State Fault Refusal :=
  .next (s.asOpcode t.val 0x33 w.toNat 0 (fun z => (z.loadIndex t.val w.toNat).follow t.val .seq))

/-- LVLQ (R112): LVLQ queues one change word in the level queue. -/
def execVLvlq (t : Fin 64) (w : Word) (s : State) : Host.Outcome State Fault Refusal := .next (s.asOpcode t.val 0x38 w.toNat 0 (State.opLvlq · t.val w.toNat))

/-- MEAS (R120): MEAS sends a burst trigger of COUNT conversions to the tiller ADC. -/
def execVMeas (t : Fin 64) (w : Word) (s : State) : Host.Outcome State Fault Refusal := .next (s.asOpcode t.val 0x39 w.toNat 0 (State.opMeas · t.val w.toNat))

/-- TDCARM (R121): TDCARM arms the tiller TDC for N pairs, or is ignored if already armed. -/
def execVTdcarm (t : Fin 64) (w : Word) (s : State) : Host.Outcome State Fault Refusal := .next (s.asOpcode t.val 0x3A w.toNat 0 (State.opTdcarm · t.val w.toNat))

/-- EVW (R130): EVW consumes a set event latch or parks until it sets or the timeout expires. -/
def execVEvw (t : Fin 64) (w : Word) (cnd : BitVec 8) (s : State) : Host.Outcome State Fault Refusal :=
  .next (s.asOpcode t.val 0x40 w.toNat cnd.toNat (State.opEvw · t.val w.toNat cnd.toNat))

/-- EVW_WAKE (R130): the awaited latch sets and the parked EVW tiller issues its next vector. -/
def execEvwWake (t : Fin 64) (at_ : Nat) (s : State) : Host.Outcome State Fault Refusal := .next (s.evwWake t.val at_)

/-- EVW_TIMEOUT (R130): an EVW timeout expires and the tiller continues at the timeout target. -/
def execEvwTimeout (t : Fin 64) (s : State) : Host.Outcome State Fault Refusal := .next (s.evwTimeout t.val)

/-- EVS (R131): EVS fires an event-router channel owned by the tiller's program domain, or faults with EVS_OWNER. -/
def execVEvs (t : Fin 64) (w : Word) (s : State) : Host.Outcome State Fault Refusal := .next (s.asOpcode t.val 0x41 w.toNat 0 (State.opEvs · t.val w.toNat))

/-- COMPARE_RESOLVE (R80): a compare resolves 40 ns after its last strobe, ending any conditional wait it holds. -/
def execCompareResolve (t : Fin 64) (s : State) : Host.Outcome State Fault Refusal := .next (s.compareResolve t.val)

/-- STREAM_LINE_ARRIVE (R152): a 64-byte stream line arrives from DRAM into the stream buffer, poisoned if uncorrectable. -/
def execStreamLineArrive (t : Fin 64) (s : State) : Host.Outcome State Fault Refusal := .next (s.streamLine t.val)

/-- STALL_RESUME (R155): a stalled tiller issues the due vector 16 cycles after the buffer refills enough. -/
def execStallResume (t : Fin 64) (s : State) : Host.Outcome State Fault Refusal := .next (s.stallResume t.val)

end Sys2Proof.Machine
end

