-- ==== Sys2Proof/Machine/Dispatch.lean ====
section
/-! DEFINITION. One arm for each command: the meaning of the command, called directly. -/

namespace Sys2Proof.Machine

def exec (i : Instr) (s : State) : Host.Outcome State Fault Refusal :=
  match i with
  | .regWrite v addr w => Sys2Proof.Machine.execRegWrite v addr w s
  | .blkRstPin v index => Sys2Proof.Machine.execBlkRstPin v index s
  | .blkRstTiller v index => Sys2Proof.Machine.execBlkRstTiller v index s
  | .blkRstSheaf v index => Sys2Proof.Machine.execBlkRstSheaf v index s
  | .blkRstStrip v index => Sys2Proof.Machine.execBlkRstStrip v index s
  | .blkRstChip v index => Sys2Proof.Machine.execBlkRstChip v index s
  | .blockResetDone => Sys2Proof.Machine.execBlockResetDone s
  | .syncFrame start frame => Sys2Proof.Machine.execSyncFrame start frame s
  | .relockDeferred => Sys2Proof.Machine.execRelockDeferred s
  | .syncNop c arg => Sys2Proof.Machine.execSyncNop c arg s
  | .startAt c group s7 fine arg => Sys2Proof.Machine.execStartAt c group s7 fine arg s
  | .haltAt c group s7 fine arg => Sys2Proof.Machine.execHaltAt c group s7 fine arg s
  | .clearLate c group s7 fine arg => Sys2Proof.Machine.execClearLate c group s7 fine arg s
  | .calHold c group mask arg => Sys2Proof.Machine.execCalHold c group mask arg s
  | .startAtDue group n => Sys2Proof.Machine.execStartAtDue group n s
  | .haltAtDue group n => Sys2Proof.Machine.execHaltAtDue group n s
  | .clearLateDue group n => Sys2Proof.Machine.execClearLateDue group n s
  | .calHoldExpire r => Sys2Proof.Machine.execCalHoldExpire r s
  | .syncEnWrite v en => Sys2Proof.Machine.execSyncEnWrite v en s
  | .trimWrite v trim => Sys2Proof.Machine.execTrimWrite v trim s
  | .rcLoRead pair => Sys2Proof.Machine.execRcLoRead pair s
  | .rcHiRead pair => Sys2Proof.Machine.execRcHiRead pair s
  | .hiLatchExpire pair => Sys2Proof.Machine.execHiLatchExpire pair s
  | .rdvReport k x y epoch first complete arrivals stamp => Sys2Proof.Machine.execRdvReport k x y epoch first complete arrivals stamp s
  | .rdvRelease k x y epoch timeout r => Sys2Proof.Machine.execRdvRelease k x y epoch timeout r s
  | .rdvReleaseDue k => Sys2Proof.Machine.execRdvReleaseDue k s
  | .rdvTimeout k => Sys2Proof.Machine.execRdvTimeout k s
  | .vectorIssue t => Sys2Proof.Machine.execVectorIssue t s
  | .vNop t => Sys2Proof.Machine.execVNop t s
  | .vRepeat t w => Sys2Proof.Machine.execVRepeat t w s
  | .vLoop t w => Sys2Proof.Machine.execVLoop t w s
  | .vEndloop t w => Sys2Proof.Machine.execVEndloop t w s
  | .vJump t w => Sys2Proof.Machine.execVJump t w s
  | .vCall t w => Sys2Proof.Machine.execVCall t w s
  | .vRet t => Sys2Proof.Machine.execVRet t s
  | .vHalt t w => Sys2Proof.Machine.execVHalt t w s
  | .vClrs t w => Sys2Proof.Machine.execVClrs t w s
  | .vCmask t w => Sys2Proof.Machine.execVCmask t w s
  | .vPause t => Sys2Proof.Machine.execVPause t s
  | .vTmark t w => Sys2Proof.Machine.execVTmark t w s
  | .vJfail t w cnd => Sys2Proof.Machine.execVJfail t w cnd s
  | .vJpass t w cnd => Sys2Proof.Machine.execVJpass t w cnd s
  | .vJevt t w cnd => Sys2Proof.Machine.execVJevt t w cnd s
  | .vMatch t w cnd => Sys2Proof.Machine.execVMatch t w cnd s
  | .vCfail t w cnd => Sys2Proof.Machine.execVCfail t w cnd s
  | .vCpass t w cnd => Sys2Proof.Machine.execVCpass t w cnd s
  | .vWaitrc t w => Sys2Proof.Machine.execVWaitrc t w s
  | .waitrcWake t => Sys2Proof.Machine.execWaitrcWake t s
  | .vRdv t w => Sys2Proof.Machine.execVRdv t w s
  | .vCalgap t w => Sys2Proof.Machine.execVCalgap t w s
  | .gapStart t => Sys2Proof.Machine.execGapStart t s
  | .gapEnd t => Sys2Proof.Machine.execGapEnd t s
  | .vSeg t w => Sys2Proof.Machine.execVSeg t w s
  | .vStream t w => Sys2Proof.Machine.execVStream t w s
  | .vSetx t w => Sys2Proof.Machine.execVSetx t w s
  | .vSety t w => Sys2Proof.Machine.execVSety t w s
  | .vSetd t w => Sys2Proof.Machine.execVSetd t w s
  | .vSeti t w => Sys2Proof.Machine.execVSeti t w s
  | .vLvlq t w => Sys2Proof.Machine.execVLvlq t w s
  | .vMeas t w => Sys2Proof.Machine.execVMeas t w s
  | .vTdcarm t w => Sys2Proof.Machine.execVTdcarm t w s
  | .vEvw t w cnd => Sys2Proof.Machine.execVEvw t w cnd s
  | .evwWake t at_ => Sys2Proof.Machine.execEvwWake t at_ s
  | .evwTimeout t => Sys2Proof.Machine.execEvwTimeout t s
  | .vEvs t w => Sys2Proof.Machine.execVEvs t w s
  | .addrHold t gen => Sys2Proof.Machine.execAddrHold t gen s
  | .addrInc t gen chain => Sys2Proof.Machine.execAddrInc t gen chain s
  | .addrDec t gen chain => Sys2Proof.Machine.execAddrDec t gen chain s
  | .addrComp t gen => Sys2Proof.Machine.execAddrComp t gen s
  | .addrLdi t gen n => Sys2Proof.Machine.execAddrLdi t gen n s
  | .addrAddi t gen n chain => Sys2Proof.Machine.execAddrAddi t gen n chain s
  | .addrSavi t gen n => Sys2Proof.Machine.execAddrSavi t gen n s
  | .addrZero t gen => Sys2Proof.Machine.execAddrZero t gen s
  | .dataHold t => Sys2Proof.Machine.execDataHold t s
  | .dataInv t => Sys2Proof.Machine.execDataInv t s
  | .dataBg t n => Sys2Proof.Machine.execDataBg t n s
  | .dataBgi t n => Sys2Proof.Machine.execDataBgi t n s
  | .dataCkb t n => Sys2Proof.Machine.execDataCkb t n s
  | .dataAdrb t n => Sys2Proof.Machine.execDataAdrb t n s
  | .dataXorb t n => Sys2Proof.Machine.execDataXorb t n s
  | .dataRol t => Sys2Proof.Machine.execDataRol t s
  | .dataRor t => Sys2Proof.Machine.execDataRor t s
  | .dataAddr t => Sys2Proof.Machine.execDataAddr t s
  | .compareResolve t => Sys2Proof.Machine.execCompareResolve t s
  | .tlRun v t => Sys2Proof.Machine.execTlRun v t s
  | .tlStop v t => Sys2Proof.Machine.execTlStop v t s
  | .tlResume v t => Sys2Proof.Machine.execTlResume v t s
  | .traceRdWrite v t entry => Sys2Proof.Machine.execTraceRdWrite v t entry s
  | .apgWrite v t reg w => Sys2Proof.Machine.execApgWrite v t reg w s
  | .levelApply t => Sys2Proof.Machine.execLevelApply t s
  | .lvlDoneRead t => Sys2Proof.Machine.execLvlDoneRead t s
  | .eventInputSet t input => Sys2Proof.Machine.execEventInputSet t input s
  | .evinFire v t mask => Sys2Proof.Machine.execEvinFire v t mask s
  | .resultRead t => Sys2Proof.Machine.execResultRead t s
  | .prime v t seg => Sys2Proof.Machine.execPrime v t seg s
  | .segBreak v t => Sys2Proof.Machine.execSegBreak v t s
  | .segCheck v t seg => Sys2Proof.Machine.execSegCheck v t seg s
  | .segCheckDone t => Sys2Proof.Machine.execSegCheckDone t s
  | .streamLineArrive t => Sys2Proof.Machine.execStreamLineArrive t s
  | .stallResume t => Sys2Proof.Machine.execStallResume t s
  | .tableWrite v addr w => Sys2Proof.Machine.execTableWrite v addr w s
  | .timingSetWrite v t set offset w => Sys2Proof.Machine.execTimingSetWrite v t set offset w s
  | .pnCtrlWrite v g w => Sys2Proof.Machine.execPnCtrlWrite v g w s
  | .cmpModeSettled g hi lo => Sys2Proof.Machine.execCmpModeSettled g hi lo s
  | .levelRegWrite v g level code => Sys2Proof.Machine.execLevelRegWrite v g level code s
  | .ppmuCtrlWrite v g w => Sys2Proof.Machine.execPpmuCtrlWrite v g w s
  | .driverIlim g => Sys2Proof.Machine.execDriverIlim g s
  | .comparatorCrossing g high above at_ => Sys2Proof.Machine.execComparatorCrossing g high above at_ s
  | .sampleDeliver t => Sys2Proof.Machine.execSampleDeliver t s
  | .xbarTake t => Sys2Proof.Machine.execXbarTake t s
  | .fqFlush v t => Sys2Proof.Machine.execFqFlush v t s
  | .fqDestWrite v t host => Sys2Proof.Machine.execFqDestWrite v t host s
  | .fqRead t => Sys2Proof.Machine.execFqRead t s
  | .capArm v t => Sys2Proof.Machine.execCapArm v t s
  | .capAbort v t => Sys2Proof.Machine.execCapAbort v t s
  | .capRead t => Sys2Proof.Machine.execCapRead t s
  | .thDispatch th => Sys2Proof.Machine.execThDispatch th s
  | .uNext th => Sys2Proof.Machine.execUNext th s
  | .uBr th target => Sys2Proof.Machine.execUBr th target s
  | .uBrc th cond buf target => Sys2Proof.Machine.execUBrc th cond buf target s
  | .uBrnc th cond buf target => Sys2Proof.Machine.execUBrnc th cond buf target s
  | .uCallu th target => Sys2Proof.Machine.execUCallu th target s
  | .uRetu th => Sys2Proof.Machine.execURetu th s
  | .uCommit th n => Sys2Proof.Machine.execUCommit th n s
  | .uCommitk th n => Sys2Proof.Machine.execUCommitk th n s
  | .uEnd th => Sys2Proof.Machine.execUEnd th s
  | .uFence th => Sys2Proof.Machine.execUFence th s
  | .uWaitl th b => Sys2Proof.Machine.execUWaitl th b s
  | .uStopu th => Sys2Proof.Machine.execUStopu th s
  | .aluNop th => Sys2Proof.Machine.execAluNop th s
  | .aluMov th o => Sys2Proof.Machine.execAluMov th o s
  | .aluAdd th o => Sys2Proof.Machine.execAluAdd th o s
  | .aluSub th o => Sys2Proof.Machine.execAluSub th o s
  | .aluAnd th o => Sys2Proof.Machine.execAluAnd th o s
  | .aluOr th o => Sys2Proof.Machine.execAluOr th o s
  | .aluXor th o => Sys2Proof.Machine.execAluXor th o s
  | .aluShl th o => Sys2Proof.Machine.execAluShl th o s
  | .aluShr th o => Sys2Proof.Machine.execAluShr th o s
  | .aluExt th o => Sys2Proof.Machine.execAluExt th o s
  | .aluIns th o => Sys2Proof.Machine.execAluIns th o s
  | .aluPopc th o => Sys2Proof.Machine.execAluPopc th o s
  | .aluCtz th o => Sys2Proof.Machine.execAluCtz th o s
  | .aluMin th o => Sys2Proof.Machine.execAluMin th o s
  | .aluMax th o => Sys2Proof.Machine.execAluMax th o s
  | .aluCmp th o => Sys2Proof.Machine.execAluCmp th o s
  | .mLdl th o => Sys2Proof.Machine.execMLdl th o s
  | .mStl th o => Sys2Proof.Machine.execMStl th o s
  | .mLdw th o => Sys2Proof.Machine.execMLdw th o s
  | .mStw th o => Sys2Proof.Machine.execMStw th o s
  | .mBset th o => Sys2Proof.Machine.execMBset th o s
  | .mLdctx th o => Sys2Proof.Machine.execMLdctx th o s
  | .mCrd th o => Sys2Proof.Machine.execMCrd th o s
  | .mCwr th o => Sys2Proof.Machine.execMCwr th o s
  | .mCfind th o => Sys2Proof.Machine.execMCfind th o s
  | .mCincs th o => Sys2Proof.Machine.execMCincs th o s
  | .mCtsb th o => Sys2Proof.Machine.execMCtsb th o s
  | .mCzero th => Sys2Proof.Machine.execMCzero th s
  | .mInrd th o => Sys2Proof.Machine.execMInrd th o s
  | .mSrd th o => Sys2Proof.Machine.execMSrd th o s
  | .mSwr th o => Sys2Proof.Machine.execMSwr th o s
  | .mRsv th o => Sys2Proof.Machine.execMRsv th o s
  | .mRput th o => Sys2Proof.Machine.execMRput th o s
  | .mRpost th o => Sys2Proof.Machine.execMRpost th o s
  | .mNote th o => Sys2Proof.Machine.execMNote th o s
  | .mCurw th o => Sys2Proof.Machine.execMCurw th o s
  | .mCurr th o => Sys2Proof.Machine.execMCurr th o s
  | .mStat th o => Sys2Proof.Machine.execMStat th o s
  | .thReadComplete th b => Sys2Proof.Machine.execThReadComplete th b s
  | .thWriteComplete th => Sys2Proof.Machine.execThWriteComplete th s
  | .thRun v th => Sys2Proof.Machine.execThRun v th s
  | .thStop v th => Sys2Proof.Machine.execThStop v th s
  | .thRestart v th => Sys2Proof.Machine.execThRestart v th s
  | .thCmdSolve v th q => Sys2Proof.Machine.execThCmdSolve v th q s
  | .thCmdClear v th q => Sys2Proof.Machine.execThCmdClear v th q s
  | .xbarRouteWrite v u w => Sys2Proof.Machine.execXbarRouteWrite v u w s
  | .ucsLoadEn v u en => Sys2Proof.Machine.execUcsLoadEn v u en s
  | .ucsDataWrite v u k w => Sys2Proof.Machine.execUcsDataWrite v u k w s
  | .ucsFinish v u w => Sys2Proof.Machine.execUcsFinish v u w s
  | .ucrdAddrWrite v u w => Sys2Proof.Machine.execUcrdAddrWrite v u w s
  | .ucrdD7Read u => Sys2Proof.Machine.execUcrdD7Read u s
  | .supplyEnable v t h => Sys2Proof.Machine.execSupplyEnable v t h s
  | .enableAdmit t h => Sys2Proof.Machine.execEnableAdmit t h s
  | .supplyDisable v t h microamps => Sys2Proof.Machine.execSupplyDisable v t h microamps s
  | .supplyClear v t h => Sys2Proof.Machine.execSupplyClear v t h s
  | .supplyRangeChange v t range microamps => Sys2Proof.Machine.execSupplyRangeChange v t range microamps s
  | .rangeHandover t => Sys2Proof.Machine.execRangeHandover t s
  | .rangeOldDisconnect t microamps => Sys2Proof.Machine.execRangeOldDisconnect t microamps s
  | .settleWindowEnd t => Sys2Proof.Machine.execSettleWindowEnd t s
  | .hvSpanWrite v t bipolar => Sys2Proof.Machine.execHvSpanWrite v t bipolar s
  | .supplyCodeWrite v t h code => Sys2Proof.Machine.execSupplyCodeWrite v t h code s
  | .energyLimitWrite v t h ceiling w => Sys2Proof.Machine.execEnergyLimitWrite v t h ceiling w s
  | .currentLimitEnter t h => Sys2Proof.Machine.execCurrentLimitEnter t h s
  | .ilimTrip t h => Sys2Proof.Machine.execIlimTrip t h s
  | .slewStep t h => Sys2Proof.Machine.execSlewStep t h s
  | .wfGo v t h => Sys2Proof.Machine.execWfGo v t h s
  | .wfStop v t h => Sys2Proof.Machine.execWfStop v t h s
  | .wfSample t h => Sys2Proof.Machine.execWfSample t h s
  | .crowbarTrip t h arc => Sys2Proof.Machine.execCrowbarTrip t h arc s
  | .crowbarOpen t h => Sys2Proof.Machine.execCrowbarOpen t h s
  | .crowbarHoldoffEnd t h => Sys2Proof.Machine.execCrowbarHoldoffEnd t h s
  | .supervisionRead t h code tags => Sys2Proof.Machine.execSupervisionRead t h code tags s
  | .senseOpen t => Sys2Proof.Machine.execSenseOpen t s
  | .dropout t => Sys2Proof.Machine.execDropout t s
  | .adcTrig v t => Sys2Proof.Machine.execAdcTrig v t s
  | .adcTrigger t => Sys2Proof.Machine.execAdcTrigger t s
  | .adcAbort v t => Sys2Proof.Machine.execAdcAbort v t s
  | .adcConversionStart t at_ => Sys2Proof.Machine.execAdcConversionStart t at_ s
  | .adcHeldBurstBegin t => Sys2Proof.Machine.execAdcHeldBurstBegin t s
  | .adcResult t raw overRange => Sys2Proof.Machine.execAdcResult t raw overRange s
  | .refReady t => Sys2Proof.Machine.execRefReady t s
  | .adcSliceExchange t => Sys2Proof.Machine.execAdcSliceExchange t s
  | .adcResRead t => Sys2Proof.Machine.execAdcResRead t s
  | .tdcArm v t => Sys2Proof.Machine.execTdcArm v t s
  | .tdcAbort v t => Sys2Proof.Machine.execTdcAbort v t s
  | .tdcStartEdge t at_ => Sys2Proof.Machine.execTdcStartEdge t at_ s
  | .tdcStopEdge t at_ => Sys2Proof.Machine.execTdcStopEdge t at_ s
  | .tdcNostopTimeout t => Sys2Proof.Machine.execTdcNostopTimeout t s
  | .tdcNostartTimeout t => Sys2Proof.Machine.execTdcNostartTimeout t s
  | .tdcOvf t => Sys2Proof.Machine.execTdcOvf t s
  | .tdcResultRead t => Sys2Proof.Machine.execTdcResultRead t s
  | .sensorSample readings => Sys2Proof.Machine.execSensorSample readings s
  | .shutdownRailsOff => Sys2Proof.Machine.execShutdownRailsOff s
  | .shutdownLog peak => Sys2Proof.Machine.execShutdownLog peak s
  | .calRunStart r => Sys2Proof.Machine.execCalRunStart r s
  | .calStepEnd t word rms => Sys2Proof.Machine.execCalStepEnd t word rms s
  | .calTimeout r => Sys2Proof.Machine.execCalTimeout r s
  | .switchStuck t => Sys2Proof.Machine.execSwitchStuck t s
  | .calRunNow v r => Sys2Proof.Machine.execCalRunNow v r s
  | .calAbort v r => Sys2Proof.Machine.execCalAbort v r s
  | .calCommit v r => Sys2Proof.Machine.execCalCommit v r s
  | .calReload v r => Sys2Proof.Machine.execCalReload v r s
  | .calDataWrite v r w => Sys2Proof.Machine.execCalDataWrite v r w s
  | .proberGap v strips len => Sys2Proof.Machine.execProberGap v strips len s
  | .thermClear v key => Sys2Proof.Machine.execThermClear v key s
  | .wearAccrue g => Sys2Proof.Machine.execWearAccrue g s
  | .contactCycle v => Sys2Proof.Machine.execContactCycle v s
  | .wearSave v => Sys2Proof.Machine.execWearSave v s
  | .wearSavePeriodic => Sys2Proof.Machine.execWearSavePeriodic s
  | .bar2Write addr data ep => Sys2Proof.Machine.execBar2Write addr data ep s
  | .dramInitDone east => Sys2Proof.Machine.execDramInitDone east s
  | .scrubPass u => Sys2Proof.Machine.execScrubPass u s
  | .hostPortReset => Sys2Proof.Machine.execHostPortReset s
  | .vecRearm v vec => Sys2Proof.Machine.execVecRearm v vec s
  | .dmaEnable v c en => Sys2Proof.Machine.execDmaEnable v c en s
  | .dmaProdWrite v c w => Sys2Proof.Machine.execDmaProdWrite v c w s
  | .dmaDescriptor c desc data ep => Sys2Proof.Machine.execDmaDescriptor c desc data ep s
  | .dmaDescriptorDone c => Sys2Proof.Machine.execDmaDescriptorDone c s
  | .dmaTransferError c why moved => Sys2Proof.Machine.execDmaTransferError c why moved s
  | .dmaRemoteTimeout c => Sys2Proof.Machine.execDmaRemoteTimeout c s
  | .dmaResume v c => Sys2Proof.Machine.execDmaResume v c s
  | .dmaAbort v c => Sys2Proof.Machine.execDmaAbort v c s
  | .hmqRead q => Sys2Proof.Machine.execHmqRead q s
  | .flitReceive p flit seq crc ackv ackseq => Sys2Proof.Machine.execFlitReceive p flit seq crc ackv ackseq s
  | .flitTransmit p => Sys2Proof.Machine.execFlitTransmit p s
  | .nakReceive p seq => Sys2Proof.Machine.execNakReceive p seq s
  | .creditReceive p c0 c1 c2 c3 ackv ackseq => Sys2Proof.Machine.execCreditReceive p c0 c1 c2 c3 ackv ackseq s
  | .replayTimeout p => Sys2Proof.Machine.execReplayTimeout p s
  | .creditReturnTimer p => Sys2Proof.Machine.execCreditReturnTimer p s
  | .ackTimer p => Sys2Proof.Machine.execAckTimer p s
  | .alignReceive p lane x y port ready => Sys2Proof.Machine.execAlignReceive p lane x y port ready s
  | .trainingComplete p => Sys2Proof.Machine.execTrainingComplete p s
  | .blockLockLoss p => Sys2Proof.Machine.execBlockLockLoss p s
  | .portEnable v p en => Sys2Proof.Machine.execPortEnable v p en s
  | .portRetrain v p => Sys2Proof.Machine.execPortRetrain v p s
  | .portLoopback v p mode => Sys2Proof.Machine.execPortLoopback v p mode s
  | .memWr x y vc tag => Sys2Proof.Machine.execMemWr x y vc tag s
  | .memAck x y tag window => Sys2Proof.Machine.execMemAck x y tag window s
  | .pinLoopbackWrite v t w => Sys2Proof.Machine.execPinLoopbackWrite v t w s
  | .heartbeat v d w => Sys2Proof.Machine.execHeartbeat v d w s
  | .supervisorSilent d => Sys2Proof.Machine.execSupervisorSilent d s
  | .leadClaim v => Sys2Proof.Machine.execLeadClaim v s
  | .leadTakeover v => Sys2Proof.Machine.execLeadTakeover v s
  | .leadSet v w => Sys2Proof.Machine.execLeadSet v w s
  | .supervisorRelease v d => Sys2Proof.Machine.execSupervisorRelease v d s
  | .supervisorRestart v d => Sys2Proof.Machine.execSupervisorRestart v d s
  | .ping v d a0 a1 a2 => Sys2Proof.Machine.execPing v d a0 a1 a2 s
  | .version v d a0 a1 a2 => Sys2Proof.Machine.execVersion v d a0 a1 a2 s
  | .ucodeLoad v d a0 a1 a2 => Sys2Proof.Machine.execUcodeLoad v d a0 a1 a2 s
  | .calRun v d a0 a1 a2 => Sys2Proof.Machine.execCalRun v d a0 a1 a2 s
  | .svWearSave v d a0 a1 a2 => Sys2Proof.Machine.execSvWearSave v d a0 a1 a2 s
  | .svSeq v d a0 a1 a2 => Sys2Proof.Machine.execSvSeq v d a0 a1 a2 s
  | .selfcheck v d a0 a1 a2 => Sys2Proof.Machine.execSelfcheck v d a0 a1 a2 s
  | .svResponse d status value => Sys2Proof.Machine.execSvResponse d status value s
  | .mbxRead d => Sys2Proof.Machine.execMbxRead d s
  | .evFire v e => Sys2Proof.Machine.execEvFire v e s
  | .eventArrival e at_ => Sys2Proof.Machine.execEventArrival e at_ s
  | .eventDeliver e => Sys2Proof.Machine.execEventDeliver e s
  | .evChCfgWrite v e w => Sys2Proof.Machine.execEvChCfgWrite v e w s
  | .errorLine b => Sys2Proof.Machine.execErrorLine b s
  | .faultReactReset => Sys2Proof.Machine.execFaultReactReset s
  | .fcStatRead => Sys2Proof.Machine.execFcStatRead s
  | .faultInject v w => Sys2Proof.Machine.execFaultInject v w s
  | .aliveKick v key => Sys2Proof.Machine.execAliveKick v key s
  | .aliveToggle => Sys2Proof.Machine.execAliveToggle s
  | .aliveTimeout => Sys2Proof.Machine.execAliveTimeout s
  | .mspTransaction x => Sys2Proof.Machine.execMspTransaction x s
  | .mspMasterGo v w => Sys2Proof.Machine.execMspMasterGo v w s
  | .mspMasterDone received => Sys2Proof.Machine.execMspMasterDone received s
  | .mspDataRead => Sys2Proof.Machine.execMspDataRead s
  | .mspDataWrite v w => Sys2Proof.Machine.execMspDataWrite v w s
  | .nvProgram v w => Sys2Proof.Machine.execNvProgram v w s
  | .nvErase v w => Sys2Proof.Machine.execNvErase v w s
  | .nvOpDone verified => Sys2Proof.Machine.execNvOpDone verified s
  | .nvDataAccess v write w => Sys2Proof.Machine.execNvDataAccess v write w s
  | .vbulkPowerUp cpos => Sys2Proof.Machine.execVbulkPowerUp cpos s
  | .powerStepDone => Sys2Proof.Machine.execPowerStepDone s
  | .powerStepStart => Sys2Proof.Machine.execPowerStepStart s
  | .pgTimeout => Sys2Proof.Machine.execPgTimeout s
  | .pgFall step => Sys2Proof.Machine.execPgFall step s
  | .powerDownStep => Sys2Proof.Machine.execPowerDownStep s
  | .pwrOn v key => Sys2Proof.Machine.execPwrOn v key s
  | .pwrOff v key => Sys2Proof.Machine.execPwrOff v key s
  | .pwrSleep v key => Sys2Proof.Machine.execPwrSleep v key s
  | .pwrWake v key => Sys2Proof.Machine.execPwrWake v key s
  | .rstNInput => Sys2Proof.Machine.execRstNInput s
  | .chipResetRelease => Sys2Proof.Machine.execChipResetRelease s
  | .regsReady readings bad calBad => Sys2Proof.Machine.execRegsReady readings bad calBad s
  | .bootFlash timeouts imageA imageB => Sys2Proof.Machine.execBootFlash timeouts imageA imageB s
  | .bootHostGo v => Sys2Proof.Machine.execBootHostGo v s
  | .clockLockLoss => Sys2Proof.Machine.execClockLockLoss s
  | .rcFieldRead v addr => Sys2Proof.Machine.execRcFieldRead v addr s
  | .bar2Read addr len => Sys2Proof.Machine.execBar2Read addr len s
  | .pllLock => Sys2Proof.Machine.execPllLock s
  | .lossOfVbulk => Sys2Proof.Machine.execLossOfVbulk s
  | .leaveCurrentLimit which => Sys2Proof.Machine.execLeaveCurrentLimit which s
  | .ppmuLimit g => Sys2Proof.Machine.execPpmuLimit g s
  | .wearSaveDone verified => Sys2Proof.Machine.execWearSaveDone verified s
  | .pcieLinkUp speed width => Sys2Proof.Machine.execPcieLinkUp speed width s
  | .pcieLinkDown => Sys2Proof.Machine.execPcieLinkDown s
  | .rstNRelease => Sys2Proof.Machine.execRstNRelease s
  | .waveformTableFetch t h line => Sys2Proof.Machine.execWaveformTableFetch t h line s

end Sys2Proof.Machine
end

