-- ==== Sys2Proof/Machine/Step.lean ====
section
/-! DEFINITION. One step: the command in front of the queue, or, on an empty queue, one tick of the clock. -/

namespace Sys2Proof.Machine

/-- The block with no command waiting: one tick of 10 ns passes (log entry 1). The count register advances while REFCLK is there
(R26, R30), the part's own messages go to the Genhar ports, and threshers inside a routine of user microcode run twelve cycles. -/
def idle (s : State) : State :=
  if s.power.vbulk then ((s.advTo (s.ticks + 1)).routeOwn).microTick else s

/-- One step. -/
def step (s : State) : Host.Outcome State Fault Refusal :=
  match s.pending with
  | [] => .next (idle s)
  | c :: rest => exec c { s with pending := rest }

/-- The state with the command that a word spells put in front of its queue. -/
def State.withFetchWord (s : State) (nbits w : Nat) : State :=
  match decodeTableWord nbits w with
  | some c => { s with pending := c :: s.pending }
  | none => s

end Sys2Proof.Machine
end

