-- ==== Sys2Proof/WellFormed.lean ====
section
/-! DEFINITION. Commands that describe a step the part can meet: operands in the ranges of spec/ that their types do not carry. -/

namespace Sys2Proof

/-- An aligned word of the register space of 16 MiB (R5, R23). -/
def wordAddress (a : Nat) : Bool := decide (a < 0x1000000) && a % 4 == 0

/-- n bytes of BAR2 (R359, R360). -/
def bar2Range (a n : Nat) : Bool := n != 0 && decide (a + n ≤ 2 ^ 35)

/-- Readings of the 34 sensors (R327). -/
def sensorList (l : List Int) : Bool := l.length == 34

/-- The transaction carries words for a write only, and clocks words out for a read only (R423). -/
def MspTrans.fits (x : MspTrans) : Bool := if x.read then x.words.isEmpty else x.clocked == 0 && !x.tmo

/-- The command is well formed. -/
def Instr.wellFormed : Instr → Bool
  | .regWrite _ a _ => wordAddress a
  | .rcFieldRead _ a => wordAddress a
  | .tableWrite _ a _ => wordAddress a && decide (0x100000 ≤ a) && decide (a < 0x5E0000)
  | .timingSetWrite _ _ _ o _ => o.val % 4 == 0
  | .bar2Write a d _ => bar2Range a d.length
  | .bar2Read a n => bar2Range a n
  | .sensorSample l => sensorList l
  | .regsReady l _ c => sensorList l && c.length == 8
  | .mspTransaction x => x.fits
  | _ => true

end Sys2Proof
end

