-- ==== Sys2Proof/Safety.lean ====
section
/-! DEFINITION. What counts as a safe run: every command of the queue is well formed and every step answers a next state; and the
safe state of the outputs (06_pin_electronics.md, R184). -/

namespace Sys2Proof.Machine

/-- Every waiting command is well formed. -/
def State.queueOk (s : State) : Bool := s.pending.all Instr.wellFormed

/-- Device memory is in its canonical form: addresses strictly rising, no byte listed that an unlisted one reads as. -/
abbrev Memory.wf (m : List Host.Cell) : Bool := storeWf (fun _ => 0) m

/-- Memory, the registers, what the NVM keeps, and every store keyed by a unit's number are in their canonical form, so that equal
contents are equal data. -/
def State.canonical (s : State) : Bool :=
  Memory.wf s.mem && storeWf resetWord s.regs && storeWf (fun _ => none) s.latches && storeWf (fun _ => Rdv.reset) s.rdvs
    && storeWf (fun _ => 0) s.epochs && storeWf (fun _ => Tiller.reset) s.tillers && storeWf (fun _ => Compare.reset) s.compares
    && storeWf (fun _ => FailFifo.reset) s.fifos && storeWf (fun _ => Capture.reset) s.captures && storeWf (fun _ => Levels.reset) s.levels
    && storeWf (fun _ => Stream.reset) s.streams && storeWf (fun _ => Pin.reset) s.pins && storeWf (fun _ => Supply.reset) s.supplies
    && storeWf (fun _ => BitVec.ofNat 32 Config.factoryBank) s.banks && storeWf (fun _ => 0) s.wear && storeWf (fun _ => none) s.lastAdmit
    && storeWf (fun _ => CalTiller.reset) s.cals && storeWf (fun _ => Adc.reset) s.adcs && storeWf (fun _ => Tdc.reset) s.tdcs
    && storeWf (fun _ => Strip.reset) s.strips && storeWf (fun _ => Thresher.reset) s.threshers && storeWf (fun _ => Sheaf.reset) s.sheaves
    && storeWf Route.reset s.routes && storeWf (fun _ => Hmq.reset) s.hmqs && storeWf (fun _ => Dma.reset) s.dmas
    && storeWf (fun _ => Port.reset) s.ports && storeWf (fun _ => Chan.reset) s.chans && storeWf (fun _ => Supervisor.reset) s.svs
    && storeWf (fun _ => 0) s.nvm.saved && storeWf (fun _ => 0) (s.nvm.saving.getD [])

/-- Register space answers: the always-on domain is powered and the part is ready (R11, R448). -/
def State.ready (s : State) : Bool := s.power.vbulk && s.on GL_RST_STAT_REGS_READY

/-- The views whose writes no rule of the domains or of the supervisors limits: BAR0, the management port, the system DMA. -/
def directView (v : View) : Bool := !userView v && (supervisorOf v).isNone

/-- k steps from a state, none of which stops. -/
def runs (k : Nat) (s : State) : Bool :=
  match Sys2Proof.core.run k s with
  | .next _ => true
  | _ => false

/-- The outputs of tiller t are in the safe state (R88, R184): no driver, no clamp, no PPMU, no supply is on. -/
def State.outputsOff (s : State) (t : Nat) : Bool :=
  (tillerPins t).all (fun g => !s.on (PN_CTRL_DRV_EN g) && !s.on (PN_CTRL_CLAMP_EN g) && s.get (PN_PPMU_CTRL_MODE g) == 0)
    && !s.on (TL_SUP_CTRL_EN t 0) && !s.on (TL_SUP_CTRL_EN t 1)

end Sys2Proof.Machine
end

