-- ==== Sys2Proof/Certificates/Slice0/Obligations.lean ====
section
/-! DEFINITION. The statements for the provers. Where a statement says that a command completes, the state it answers is written
with the operations of the model that the command's rule names, and what can be read in it is said as well. -/

open Sys2Proof Sys2Proof.Machine

/-! ### The queue, reset, and every step -/

/-- One step runs the command in front of the queue on the state with the queue's rest. -/
def Obligations.StepRunsTheFrontCommand : Prop :=
  ∀ (c : Instr) (rest : List Instr) (s : State), s.pending = c :: rest → step s = exec c { s with pending := rest }

/-- On an empty queue a step is one tick of 10 ns while VBULK is there: the queue stays empty, the count goes on by one while the clock is
locked, and with no message of the part's own waiting and no thresher in a routine of user microcode nothing else changes. Without VBULK
nothing happens at all. The tick is the model's choice (log entry 1, DESIGN CHOICE), no rule of the spec. -/
def Obligations.EmptyQueueLetsOneTickPass : Prop :=
  ∀ s : State, s.pending = [] →
    (s.power.vbulk = false → step s = .next s) ∧
    (s.power.vbulk = true → ∃ t, step s = .next t ∧ t.ticks = s.ticks + 1 ∧ t.pending = [] ∧
      (s.meshOut = [] → s.microRunning = [] → t = { s with ticks := s.ticks + 1, count := if s.power.pllLost then s.count else s.count + 1 }))

/-- No command is refused. The only commands that stop are those whose operand lists are not what their row describes: readings of 34
sensors, checks of eight strips, bytes inside BAR2, as many bytes or words as were asked for. That such lists stop is the model's choice,
log entry 14: they are no command of the spec. -/
def Obligations.OnlyMalformedOperandListsStop : Prop :=
  ∀ (c : Instr) (s : State), (∃ t, exec c s = .next t) ∨ (exec c s = .fault .malformed ∧
    match c with
    | .sensorSample readings => readings.length ≠ 34
    | .regsReady readings _ calBad => readings.length ≠ 34 ∨ calBad.length ≠ 8
    | .bar2Write addr data _ => data.length = 0 ∨ 2 ^ 35 < addr + data.length
    | .bar2Read addr len => len = 0 ∨ 2 ^ 35 < addr + len
    | .dmaDescriptor _ desc data _ => data.length ≠ bits desc.toNat 159 128
    | .mspMasterDone received => s.on MSP_M_STAT_BUSY = true ∧ received.length ≠ s.msp.reads.elim 0 (fun n => (n + 3) / 4)
    | _ => False)

/-- Every step keeps the stores of the state in their canonical form (`State.canonical`): device memory, the registers, the wear counts, the
images of them that the NVM holds, and every store keyed by a unit's number have keys strictly rising and no entry that an unlisted key
reads as. -/
def Obligations.EveryStepKeepsTheCanonicalForm : Prop :=
  ∀ s t : State, s.canonical = true → step s = .next t → t.canonical = true

/-- The state after reset: nothing waits, every register holds its reset word, among them the identity and the first state of the power
sequence, every tiller is IDLE with its timing sets as a chip reset loads them, and every store is in its canonical form. That memory reads
0 is the model's choice (log entry 2). -/
def Obligations.ResetIsAsStated : Prop :=
  State.reset.canonical = true ∧ State.reset.pending = [] ∧ (∀ a, State.reset.reg a = resetWord a) ∧ State.reset.reg GL_ID = 0x4851A064 ∧
  State.reset.powerState = 1 ∧ State.reset.on GL_RST_STAT_REGS_READY = false ∧ (∀ a, State.reset.byteAt a = 0) ∧
  ∀ t k : Fin 64, State.reset.engine t.val = 0 ∧ State.reset.tsPeriod t.val k.val = 6400

/-- A step takes at most the front command from the queue, never turns back the clock or the supply of free values, and never
takes back a message sent to the host or on a link. That commands come in the order of time and that what the part has sent stands in lists of
the model's own are the model's choices (log entries 3 and 47). -/
def Obligations.StepsTakeNothingBack : Prop :=
  ∀ s t : State, step s = .next t →
    t.pending = s.pending.tail ∧ s.ticks ≤ t.ticks ∧ s.draws ≤ t.draws ∧ (∃ l, t.hostOut = s.hostOut ++ l) ∧ ∃ l, t.linkOut = s.linkOut ++ l

/-! ### Register space -/

/-- The access codes of one field of a word written: no bit outside the field changes; RW, and RWL without the lock, take the value where the
register holds it (`fieldTakes`); RWL under the lock, RO and RC keep theirs; W1C clears and W1S sets the bits written 1. -/
def Obligations.AccessCodesActOnTheirFieldAlone : Prop :=
  ∀ (locked : Bool) (k w old hi lo : Nat) (sys : Bool) (reset : Nat), lo ≤ hi → hi < 32 → old < 2 ^ 32 →
    (∀ acc hi' lo', (hi' < lo ∨ hi < lo') → bits (storeField locked k w old ⟨hi, lo, acc, sys, reset⟩) hi' lo' = bits old hi' lo') ∧
    (fieldTakes k lo (bits w hi lo) = some (bits w hi lo) →
      bits (storeField locked k w old ⟨hi, lo, .rw, sys, reset⟩) hi lo = bits w hi lo ∧
      bits (storeField false k w old ⟨hi, lo, .rwl, sys, reset⟩) hi lo = bits w hi lo) ∧
    storeField true k w old ⟨hi, lo, .rwl, sys, reset⟩ = old ∧
    storeField locked k w old ⟨hi, lo, .ro, sys, reset⟩ = old ∧
    storeField locked k w old ⟨hi, lo, .rc, sys, reset⟩ = old ∧
    (∀ i, (bits (storeField locked k w old ⟨hi, lo, .w1c, sys, reset⟩) hi lo).testBit i = ((bits old hi lo).testBit i && !(bits w hi lo).testBit i)) ∧
    (∀ i, (bits (storeField locked k w old ⟨hi, lo, .w1s, sys, reset⟩) hi lo).testBit i = ((bits old hi lo).testBit i || (bits w hi lo).testBit i))

/-- A write to an unimplemented register address, of 32 bits with any byte enables or of 64, is ignored where the second word's address is
unimplemented too, and a read of one returns 0. -/
def Obligations.UnimplementedAddressesIgnoreWritesAndReadZero : Prop :=
  ∀ (v : View) (a : Nat) (w : Word) (be : BitVec 4) (s : State), regAt a = none → isTable a = false → isMsix a = false →
    exec (.regWrite v a ⟨w, be, none⟩) s = .next s ∧
    (regAt (a + 4) = none → isTable (a + 4) = false → isMsix (a + 4) = false → ∀ h, exec (.regWrite v a ⟨w, be, some h⟩) s = .next s) ∧ ∃ t, exec (.rcFieldRead v a) s = .next t ∧ t.rdData = 0 ∧ t.regs = s.regs ∧ t.mem = s.mem

/-- Over PCIe a write without all byte enables is discarded, and a write of 64 bits is two of 32, the low address first. A write of 32 bits with
all byte enables, through a view that no rule limits, of a ready part: an implemented register's word goes to the register's own rules; the
mask of a rendezvous group that is IDLE takes the word, words of a level-change table and of the scrambler and topology tables
take the word, a deskew word its low sixteen bits, and no other register changes. -/
def Obligations.RegisterAndTableWritesComplete : Prop :=
  ∀ (v : View) (s : State),
    (∀ (a : Nat) (w : Word) (be : BitVec 4), v = .bar0 ∨ v = .bar4 → be ≠ 15 → exec (.regWrite v a ⟨w, be, none⟩) s = .next s) ∧
    (∀ (a : Nat) (w x : Word) (be bx : BitVec 4), exec (.regWrite v a ⟨w, be, some (x, bx)⟩) s =
      .next ((s.wordWrite v a w be).wordWrite v (a + 4) x bx)) ∧
    (s.ready = true → directView v = true →
      (∀ (a : Nat) (w : Word), (regAt a).isSome = true → a % 4 = 0 → isTable a = false → isMsix a = false →
        exec (.regWrite v a ⟨w, 15, none⟩) s = .next (s.writeOwn v a w.toNat none)) ∧
      (∀ (k : Fin 32) (w : Word), s.get (GL_RDV_STAT_STATE k.val) = 0 →
        ∃ t, exec (.regWrite v (GL_RDV_MASK_LO k.val) ⟨w, 15, none⟩) s = .next t ∧ t.reg (GL_RDV_MASK_LO k.val) = w ∧
          ∀ b, b ≠ GL_RDV_MASK_LO k.val → t.reg b = s.reg b) ∧
      (∀ (a : Nat) (w : Word), 0x300000 ≤ a → a < 0x340000 → a % 4 = 0 →
        exec (.tableWrite v a ⟨w, 15, none⟩) s = .next (s.setReg a w)) ∧
      (∀ (a : Nat) (w : Word), 0x340000 ≤ a → a < 0x540000 → a % 4 = 0 → (a - 0x340000) % 0x8000 < 0x4040 →
        exec (.tableWrite v a ⟨w, 15, none⟩) s = .next (s.setReg a w)) ∧
      (∀ (a : Nat) (w : Word), 0x5C0000 ≤ a → a < 0x5E0000 → a % 4 = 0 → a % 0x20 < 0x14 →
        exec (.tableWrite v a ⟨w, 15, none⟩) s = .next (s.setReg a (BitVec.ofNat 32 (w.toNat % 2 ^ 16)))))

/-- A read of an implemented register of a ready part that has no effect of its own beside its access codes presents the word the register
shows; every RC field then holds its reset value, and no other register changes. -/
def Obligations.ReadingReturnsTheWordAndResetsRcFields : Prop :=
  ∀ (v : View) (a : Nat) (d : RegD) (s : State), s.ready = true → a % 4 = 0 → isTable a = false → isMsix a = false →
    regAt a = some d → s.readOwn a = none →
    ∃ t, exec (.rcFieldRead v a) s = .next t ∧ t.rdData = s.shown a ∧ t.rdPoison = false ∧ (∀ b, b ≠ a → t.reg b = s.reg b) ∧
      ∀ f ∈ d.flds, f.acc = .rc → bits (t.reg a).toNat f.hi f.lo = bits (resetWord a).toNat f.hi f.lo

/-- A write through the user view of a register whose writable fields are all /S changes nothing in it, and is reported exactly when it
would have acted; in any other register the word that goes on leaves a /S field as it stands. -/
def Obligations.UserWritesKeepSystemFields : Prop :=
  ∀ (v : View) (a : Nat) (d : RegD) (w : Word) (s : State), s.ready = true → userView v = true → regAt a = some d → a % 4 = 0 → isTable a = false →
    isMsix a = false →
    (d.flds.all (fun f => f.sys || f.acc == .ro || f.acc == .rc) = true → exec (.regWrite v a ⟨w, 15, none⟩) s =
      .next (if d.flds.any (actsOn (s.on FC_LOCK_LOCK) (s.shown a) w.toNat) then s.reportDiscard a else s)) ∧
    (∀ f ∈ d.flds, f.sys = true → s.shown a = (s.reg a).toNat →
      (∀ x, fieldTakes (kindOf a) f.lo (bits (s.reg a).toNat f.hi f.lo) = some x → x = bits (s.reg a).toNat f.hi f.lo) →
      bits ((s.storeWord a (withoutSys (s.shown a) w.toNat d.flds)).reg a).toNat f.hi f.lo = bits (s.reg a).toNat f.hi f.lo)
/-! ### Block resets -/

/-- A request of the reset unit of a ready part, through a view that no rule limits, that finds the unit free and its precondition met (a pin
whose tiller is not active, a tiller, a sheaf none of whose tillers is active, a strip) starts the reset of its scope: the unit holds it as
the reset that runs. A pin's registers then hold their reset words, NVM fields as last loaded; a sheaf's context slice reads 0. One that
finds the unit busy makes one reset with a fault reaction to its scope in its cycle, is absorbed when its scope lies inside the reset that runs,
is refused when its precondition fails or a request is held, starts at once when its scope holds the one that runs, and is held otherwise. Chip scope resets the part while no request is held, keeping
the queue, the tick and the count, and is refused with QUEUE_FULL while one is, which is DEDUCED (log entry 42). A reset that completes with
none held frees the unit and changes no register but its status. -/
def Obligations.BlockResetsRun : Prop :=
  (∀ (v : View) (i : BitVec 9) (s : State), s.ready = true → directView v = true →
     (let u := fun scope => ((s.storeWord GL_BLK_RST (blkRstWord scope i.toNat)).wrapUp GL_BLK_RST_STAT_SEQ).put GL_BLK_RST_STAT_RESULT 0
      s.resets.busy = none →
      ((u 0).active (i.toNat / 8) = false → ∃ t, exec (.blkRstPin v i) s = .next t ∧ t = (u 0).startReset 0 i.toNat false ∧
         t.resets.busy = some (0, i.toNat) ∧ t.on GL_BLK_RST_STAT_BUSY = true ∧
         ∀ a, within a (pnBase i.toNat) 0x100 = true → t.reg a = if a ∈ State.pinSafeRegs i.toNat then s.safeWord a else resetWord a) ∧
      (i.toNat < 64 → ∃ t, exec (.blkRstTiller v i) s = .next t ∧ t = (u 1).startReset 1 i.toNat false ∧
         t.resets.busy = some (1, i.toNat) ∧ t.on GL_BLK_RST_STAT_BUSY = true) ∧
      (i.toNat < 16 → (sheafTillers i.toNat).all (fun t => !(u 2).active t) = true → ∃ t, exec (.blkRstSheaf v i) s = .next t ∧
         t = (u 2).startReset 2 i.toNat false ∧ t.resets.busy = some (2, i.toNat) ∧ ∀ a, within a (ctxBase i.toNat) 0x40000 = true → t.byteAt a = 0) ∧
      (i.toNat < 8 → ∃ t, exec (.blkRstStrip v i) s = .next t ∧ t = (u 3).startReset 3 i.toNat false ∧ t.resets.busy = some (3, i.toNat))) ∧
     (s.resets.pend = none → ∃ t, exec (.blkRstChip v i) s = .next t ∧ t = (s.storeWord GL_BLK_RST (blkRstWord 4 i.toNat)).chipReset 7 ∧
       t.pending = s.pending ∧ t.ticks = s.ticks ∧ t.count = s.count ∧ t.slots = [] ∧ t.resets = Resets.reset) ∧
     (∀ b, s.resets.busy = some b → i.toNat < 64 →
       let joins := (b = (1, i.toNat) ∧ s.resets.at_ = s.ticks ∧ s.resets.byFault = true) ∨
         (s.resets.pend = some (1, i.toNat) ∧ s.resets.pendAt = s.ticks ∧ s.resets.pendByFault = true)
       (joins → ∃ t, exec (.blkRstTiller v i) s = .next t ∧ t.resets = s.resets ∧ t.get GL_BLK_RST_STAT_RESULT = 0) ∧
       (¬joins →
       (State.insideScope (1, i.toNat) b = true → ∃ t, exec (.blkRstTiller v i) s = .next t ∧ t.resets = s.resets ∧ t.get GL_BLK_RST_STAT_RESULT = 4 ∧
         ∀ a, a ≠ GL_BLK_RST → a ≠ GL_BLK_RST_STAT → t.reg a = s.reg a) ∧
       (State.insideScope (1, i.toNat) b = false → s.resets.pend ≠ none → ∃ t, exec (.blkRstTiller v i) s = .next t ∧ t.resets = s.resets ∧
         t.get GL_BLK_RST_STAT_RESULT = 5) ∧
       (State.insideScope (1, i.toNat) b = false → s.resets.pend = none → State.insideScope b (1, i.toNat) = true → ∃ t, exec (.blkRstTiller v i) s = .next t ∧
         t.resets.busy = some (1, i.toNat) ∧ t.get GL_BLK_RST_STAT_RESULT = 0) ∧
       (State.insideScope (1, i.toNat) b = false → s.resets.pend = none → State.insideScope b (1, i.toNat) = false → ∃ t, exec (.blkRstTiller v i) s = .next t ∧
         t.resets.busy = some b ∧ t.resets.pend = some (1, i.toNat) ∧ t.on GL_BLK_RST_STAT_PEND = true))) ∧
     (s.resets.pend ≠ none → ∃ t, exec (.blkRstChip v i) s = .next t ∧ t.get GL_BLK_RST_STAT_RESULT = 5 ∧ t.resets = s.resets ∧
       ∀ a, a ≠ GL_BLK_RST → a ≠ GL_BLK_RST_STAT → t.reg a = s.reg a)) ∧
  (∀ (s : State), s.resets.busy ≠ none → s.resets.pend = none →
     ∃ t, exec .blockResetDone s = .next t ∧ t.resets = Resets.reset ∧ t.on GL_BLK_RST_STAT_BUSY = false ∧
       ∀ a, a ≠ GL_BLK_RST_STAT → t.reg a = s.reg a)

/-! ### Synchronisation -/

/-- SYNC at a powered part whose clock is locked. In HUNT a good frame that began 128 ticks after a kept one and counts 128 on locks the part to
its count, another good one is kept. In LOST such a frame locks it when its count is the part's own or every tiller is idle, and otherwise is
held as a conflict. In LOCKED a frame that fills one slot is judged: a good one with the part's count ends the run of bad ones, a third bad one
in a row loses the lock. In LOCAL no frame is taken. A conflict's pair is taken once every tiller is idle. A NOP does nothing. START_AT, HALT_AT
and CLEAR_LATE with a target that is not past take one of eight slots, or join the like command that has one; with S7 set, ARG 0, a target past,
or no slot free they are rejected. CAL_HOLD of group 0 holds its strips from count C + 128, of another group it is rejected. Without REFCLK none
of these events has an effect (R26). When a deferred relock takes the held pair, and when a hold comes into force, is DEDUCED (log entries 16 and
17). -/
def Obligations.SyncFramesAndCommandsComplete : Prop :=
  ∀ s : State,
    (∀ (start : Nat) (frame : BitVec 128), s.power.vbulk = true → s.power.pllLost = false → s.ticks ≤ start + 131 →
      let f := frame.toNat
      let c := bits f 111 64
      let v := s.advTo (start + 131)
      let g := s.sync.goods.find? (fun g => g.1 + 128 = start && (g.2 + 128) % 2 ^ 48 = c)
      (s.get GL_SYNC_STAT_STATE = 0 → State.frameGood f = true →
        (g.isSome = true → ∃ t, exec (.syncFrame start frame) s = .next t ∧
          t.get GL_SYNC_STAT_STATE = 1 ∧ t.on GL_SYNC_STAT_UNSYNCED = false ∧ t.ticks = start + 131 ∧ t.count = BitVec.ofNat 48 (c + 131)) ∧
        (g.isSome = false → ∃ t, exec (.syncFrame start frame) s = .next t ∧ t.get GL_SYNC_STAT_STATE = 0 ∧ (start, c) ∈ t.sync.goods ∧
          t.ticks = start + 131 ∧ t.count = v.count)) ∧
      (s.get GL_SYNC_STAT_STATE = 2 → State.frameGood f = true → g.isSome = true →
        (c = v.countAt start ∨ v.allIdle = true → ∃ t, exec (.syncFrame start frame) s = .next t ∧ t.get GL_SYNC_STAT_STATE = 1 ∧
          t.on GL_SYNC_STAT_UNSYNCED = false ∧ t.ticks = start + 131) ∧
        (c ≠ v.countAt start → v.allIdle = false → ∃ t, exec (.syncFrame start frame) s = .next t ∧ t.get GL_SYNC_STAT_STATE = 2 ∧
          t.on GL_SYNC_STAT_COUNT_CONFLICT = true ∧ t.sync.conflict = some (start, c) ∧ t.ticks = start + 131)) ∧
      (s.get GL_SYNC_STAT_STATE = 1 → s.sync.slot = none → s.countAt start % 128 = 0 →
        (State.frameGood f = true → c = v.countAt start → bits f 63 48 = 0 → ∃ t, exec (.syncFrame start frame) s = .next t ∧
          t.get GL_SYNC_STAT_STATE = 1 ∧ t.get GL_SYNC_STAT_BADRUN = 0 ∧ t.ticks = start + 131) ∧
        (State.frameGood f = false ∨ c ≠ v.countAt start → s.get GL_SYNC_STAT_BADRUN < 2 → ∃ t, exec (.syncFrame start frame) s = .next t ∧
          t.get GL_SYNC_STAT_STATE = 1 ∧ t.get GL_SYNC_STAT_BADRUN = s.get GL_SYNC_STAT_BADRUN + 1 ∧ t.ticks = start + 131) ∧
        (State.frameGood f = false ∨ c ≠ v.countAt start → s.get GL_SYNC_STAT_BADRUN = 2 → ∃ t, exec (.syncFrame start frame) s = .next t ∧
          t.get GL_SYNC_STAT_STATE = 2 ∧ t.on GL_SYNC_STAT_SYNC_LOST = true ∧ t.ticks = start + 131)) ∧
      (s.get GL_SYNC_STAT_STATE = 3 → exec (.syncFrame start frame) s = .next v)) ∧
    (∀ tick c, s.power.pllLost = false → s.sync.conflict = some (tick, c) → s.get GL_SYNC_STAT_STATE = 2 → s.allIdle = true →
      ∃ t, exec .relockDeferred s = .next t ∧ t.get GL_SYNC_STAT_STATE = 1 ∧ t.count = BitVec.ofNat 48 (c + (s.ticks - tick)) ∧
        t.get GL_SYNC_STAT_BADRUN = 0 ∧ t.sync = Sync.reset) ∧
    (∀ c arg, exec (.syncNop c arg) s = .next s) ∧
    (∀ (c : BitVec 48) (group : Fin 16) (fine : Fin 128) (arg : BitVec 16), s.takesCommands = true → arg ≠ 0 →
      let n := (c.toNat + 128 * arg.toNat + fine.val) % 2 ^ 48
      let full := fun (i : Instr) => ∃ t, exec i s = .next t ∧ t.slots = s.slots ∧ t.on GL_SCHED_STAT_FULL = true ∧
        t.get GL_SYNC_CNT_CMD_REJ = s.rejectCommand.get GL_SYNC_CNT_CMD_REJ
      (notBefore48 n s.view = true → s.slots.length < 8 →
        (⟨.start, group.val, n⟩ ∉ s.slots → ∃ t, exec (.startAt c group false fine arg) s = .next t ∧ t.slots = s.slots ++ [⟨.start, group.val, n⟩]) ∧
        (⟨.halt, group.val, n⟩ ∉ s.slots → ∃ t, exec (.haltAt c group false fine arg) s = .next t ∧ t.slots = s.slots ++ [⟨.halt, group.val, n⟩] ∧
          t.get GL_SYNC_CMD_ARG = arg.toNat ∧ ∀ a, a ≠ GL_SYNC_CMD → t.reg a = s.reg a) ∧
        (⟨.clearLate, group.val, n⟩ ∉ s.slots → ∃ t, exec (.clearLate c group false fine arg) s = .next t ∧
          t.slots = s.slots ++ [⟨.clearLate, group.val, n⟩] ∧ ∀ a, a ≠ GL_SYNC_CMD → t.reg a = s.reg a)) ∧
      (notBefore48 n s.view = true →
        (⟨.start, group.val, n⟩ ∈ s.slots → ∃ t, exec (.startAt c group false fine arg) s = .next t ∧ t.slots = s.slots ∧
          ∀ a, a ≠ GL_SYNC_CMD → t.reg a = s.reg a) ∧
        (⟨.halt, group.val, n⟩ ∈ s.slots → ∃ t, exec (.haltAt c group false fine arg) s = .next t ∧ t.slots = s.slots ∧
          ∀ a, a ≠ GL_SYNC_CMD → t.reg a = s.reg a) ∧
        (⟨.clearLate, group.val, n⟩ ∈ s.slots → ∃ t, exec (.clearLate c group false fine arg) s = .next t ∧ t.slots = s.slots ∧
          ∀ a, a ≠ GL_SYNC_CMD → t.reg a = s.reg a)) ∧
      (notBefore48 n s.view = true → 8 ≤ s.slots.length →
        (⟨.start, group.val, n⟩ ∉ s.slots → full (.startAt c group false fine arg)) ∧
        (⟨.halt, group.val, n⟩ ∉ s.slots → full (.haltAt c group false fine arg)) ∧
        (⟨.clearLate, group.val, n⟩ ∉ s.slots → full (.clearLate c group false fine arg))) ∧
      (notBefore48 n s.view = false → exec (.startAt c group false fine arg) s = .next s.rejectCommand ∧
        exec (.haltAt c group false fine arg) s = .next s.rejectCommand ∧ exec (.clearLate c group false fine arg) s = .next s.rejectCommand)) ∧
    (∀ (c : BitVec 48) (group : Fin 16) (s7 : Bool) (fine : Fin 128) (arg : BitVec 16), s.takesCommands = true → s7 = true ∨ arg = 0 →
      exec (.startAt c group s7 fine arg) s = .next s.rejectCommand ∧ exec (.haltAt c group s7 fine arg) s = .next s.rejectCommand ∧
      exec (.clearLate c group s7 fine arg) s = .next s.rejectCommand) ∧
    (∀ (c : BitVec 48) (mask : BitVec 8) (arg : BitVec 16), s.takesCommands = true →
      (∃ t, exec (.calHold c 0 mask arg) s = .next t ∧ (∀ a, a ≠ GL_SYNC_CMD → t.reg a = s.reg a) ∧
        t.holds = s.holds ++ ((List.range 8).filter (fun r => mask = 0 || mask.toNat.testBit r)).map (fun r =>
          (⟨r, s.tickOfCount ((c.toNat + 192) % 2 ^ 48), s.tickOfCount ((c.toNat + 192) % 2 ^ 48) + (if mask = 0 then 0 else 128 * arg.toNat)⟩ : Hold))) ∧
      ∀ group : Fin 16, group ≠ 0 → exec (.calHold c group mask arg) s = .next s.rejectCommand) ∧
    (s.power.pllLost = true → (∀ start frame, exec (.syncFrame start frame) s = .next s) ∧ exec .relockDeferred s = .next s ∧
      (∀ c group s7 fine arg, exec (.startAt c group s7 fine arg) s = .next s ∧ exec (.haltAt c group s7 fine arg) s = .next s ∧
        exec (.clearLate c group s7 fine arg) s = .next s) ∧
      ∀ c group mask arg, exec (.calHold c group mask arg) s = .next s)

/-- A scheduled command that falls due leaves its slot: the armed tillers of its group start unless a HALT_AT for the same count meets the
group, those of a HALT_AT that meets no START_AT are asked to stop, the LATE bits of a CLEAR_LATE's group clear. The one hold of a strip
ends: the time of the run it held counts anew (R342), a step that may start begins at once (R343), and that is the model's choice, log entry
30. None of them acts without REFCLK (R26). Written through a view that no rule limits, EN enters LOCAL on 0 and HUNT on a change to 1, and TRIM
takes its value, at most 320. The loss of the clock's lock raises line 176 of the clock block (R26, R416) while the PLL runs, and nothing else;
its return ends the loss. -/
def Obligations.ScheduledCommandsAndClockEventsAct : Prop :=
  ∀ s : State,
    (∀ (group : Fin 16) (n : BitVec 48) (u : State), s.power.pllLost = false →
      (s.takeSlot .start group.val n.toNat = some u → u.slots.all (fun x => !(x.op = .halt && x.target = n.toNat && groupsMeet x.group group.val)) = true →
        exec (.startAtDue group n) s = .next ((u.groupTillers group.val).foldl State.startArmed u)) ∧
      (s.takeSlot .halt group.val n.toNat = some u → u.slots.all (fun x => !(x.op = .start && x.target = n.toNat && groupsMeet x.group group.val)) = true →
        exec (.haltAtDue group n) s = .next ((u.groupTillers group.val).foldl (fun s t => s.requestStop t s.now) u)) ∧
      (s.takeSlot .clearLate group.val n.toNat = some u →
        ∃ t, exec (.clearLateDue group n) s = .next t ∧ ∀ k : Fin 64, k.val ∈ u.groupTillers group.val → t.on (State.lateBit k.val) = false)) ∧
    (∀ (r : Fin 8) (h : Hold), s.power.pllLost = false → s.holds = [h] → h.strip = r.val → h.from_ ≤ s.ticks → s.ticks ≤ h.until_ →
      ∃ t, exec (.calHoldExpire r) s = .next t ∧ t = (((if (s.holdExpire r.val).calState r.val = 2 then (s.holdExpire r.val).setStrip r.val
        { (s.holdExpire r.val).strip r.val with heldTicks := ((s.holdExpire r.val).strip r.val).heldTicks + (h.until_ - max h.from_ (s.strip r.val).runAt) }
        else s.holdExpire r.val).restartTest r.val).trySteps r.val) ∧ (s.holdExpire r.val).held r.val = false) ∧
    (∀ (v : View), s.ready = true → directView v = true → s.on GL_SYNC_CTRL_EN = true →
      ∃ t, exec (.syncEnWrite v false) s = .next t ∧ t.get GL_SYNC_STAT_STATE = 3 ∧ t.on GL_SYNC_CTRL_EN = false) ∧
    (∀ (v : View), s.ready = true → directView v = true → s.on GL_SYNC_CTRL_EN = false →
      ∃ t, exec (.syncEnWrite v true) s = .next t ∧ t.get GL_SYNC_STAT_STATE = 0 ∧ t.on GL_SYNC_CTRL_EN = true) ∧
    (∀ (v : View) (trim : BitVec 9), s.ready = true → directView v = true → s.get GL_SYNC_TRIM_TRIM ≤ 320 →
      ∃ t, exec (.trimWrite v trim) s = .next t ∧ t.get GL_SYNC_TRIM_TRIM = min 320 trim.toNat) ∧
    (s.power.pllLost = true → ∀ (group : Fin 16) (n : BitVec 48) (r : Fin 8), exec (.startAtDue group n) s = .next s ∧
      exec (.haltAtDue group n) s = .next s ∧ exec (.clearLateDue group n) s = .next s ∧ exec (.calHoldExpire r) s = .next s) ∧
    (∃ t, exec .clockLockLoss s = .next t ∧ t.power.pllLost = true ∧ (s.power.pll = true → 176 ∈ t.lines) ∧
      (s.power.pll = false → t.lines = s.lines) ∧ t.regs = s.regs) ∧
    (∃ t, exec .pllLock s = .next t ∧ t.power.pllLost = false ∧ t.regs = s.regs)

/-! ### Register pairs and read ports -/

/-- Reads with an effect of their own, of a ready part with no checker injection armed and no arm of a TDC on its way. RC_LO_READ presents a
pair's low word and latches its high word; RC_HI_READ within 100 ticks of the latch presents the latched word and frees the latch, and presents the live word where there is
none; HI_LATCH_EXPIRE frees the latch at its hundredth tick. LVL_DONE_READ takes the oldest word of the done log. FQ_READ takes the oldest
entry of a FIFO that DEST_NOW gives to the host, and is denied on another, where it presents the holding register's word (log entry 25). CAP_READ takes the oldest entry of a buffer that is DONE without
AUTO. MBX_READ takes the mailbox's oldest word. HMQ_READ takes the oldest notice's two words one after the other. MSP_DATA_READ takes the oldest
word of the management port's FIFO (R427). RESULT_READ, TDC_RESULT_READ (R323) and ADC_RES_READ present their register and clear its VALID.
FC_STAT_READ takes a snapshot of the eight words of FC_STAT and presents the first (R417). UCRD_D7_READ presents its word and advances the read address. -/
def Obligations.ReadsWithEffectsAct : Prop :=
  ∀ s : State, s.ready = true → s.on FC_INJ_STAT_ARMED = false →
    (∀ t : Fin 64, (s.tl t.val).primes = [] ∧ (s.tdc t.val).arms = []) →
    (∀ p : Pair64,
      (∃ t, exec (.rcLoRead p) s = .next t ∧ t.rdData = (s.pairLive (State.pairAddr p)).1 ∧
        t.latched (State.pairAddr p) = some ((s.pairLive (State.pairAddr p)).2, s.ticks) ∧ t.regs = s.regs) ∧
      (∀ hi at_, s.latched (State.pairAddr p) = some (hi, at_) → s.ticks ≤ at_ + 100 →
        (∃ t, exec (.rcHiRead p) s = .next t ∧ t.rdData = hi ∧ t.latched (State.pairAddr p) = none ∧ t.regs = s.regs) ∧
        (∃ t, exec (.hiLatchExpire p) s = .next t ∧ t.latched (State.pairAddr p) = none ∧ t.ticks = at_ + 100 ∧ t.regs = s.regs)) ∧
      (s.latched (State.pairAddr p) = none →
        ∃ t, exec (.rcHiRead p) s = .next t ∧ t.rdData = (s.pairLive (State.pairAddr p)).2 ∧ t.regs = s.regs)) ∧
    (∀ (t : Fin 64) (w : Nat) (r : List Nat), (s.lvl t.val).done = w :: r →
      ∃ u, exec (.lvlDoneRead t) s = .next u ∧ u.rdData = w ∧ (u.lvl t.val).done = r ∧ u.regs = s.regs) ∧
    (∀ (t : Fin 64) (e : Entry) (r : List Entry), s.on (TL_FQ_STAT_DEST_NOW t.val) = true → (s.fq t.val).entries = e :: r → (s.fq t.val).run = none →
      ∃ u, exec (.fqRead t) s = .next u ∧ u.rdData = word32 e.data 0 ∧ (u.fq t.val).entries = r ∧ (u.fq t.val).hold = e.data ∧
        u.on (TL_FQ_RDTAG_STALE t.val) = false) ∧
    (∀ t : Fin 64, s.on (TL_FQ_STAT_DEST_NOW t.val) = false →
      ∃ u, exec (.fqRead t) s = .next u ∧ u.rdData = word32 (s.fq t.val).hold 0 ∧ u.on (TL_FQ_STAT_RD_DENIED t.val) = true ∧ u.fifos = s.fifos) ∧
    (∀ (t : Fin 64) (e : Entry) (r : List Entry), s.get (TL_CAP_STAT_STATE t.val) = 3 → (s.cap t.val).entries = e :: r →
      s.on (TL_CAP_CTRL_AUTO t.val) = false → ∃ u, exec (.capRead t) s = .next u ∧ u.rdData = word32 e.data 0 ∧ (u.cap t.val).entries = r ∧
        (u.cap t.val).hold = e.data ∧ u.on (TL_CAP_RDTAG_STALE t.val) = false ∧ u.on (TL_CAP_RDTAG_POISON t.val) = e.poison) ∧
    (∀ (d : Fin 2) (w : Nat) (r : List Nat), (s.sv d.val).mbx = w :: r →
      ∃ u, exec (.mbxRead d) s = .next u ∧ u.rdData = w ∧ (u.sv d.val).mbx = r ∧ u.regs = s.regs) ∧
    (∀ (q : Fin 4) (w : Nat), (s.hmq q.val).half = some w → (∀ c, c < 8 → (s.dma c).note = none) →
      ∃ u, exec (.hmqRead q) s = .next u ∧ u.rdData = w ∧ (u.hmq q.val).half = none ∧ (u.hmq q.val).notices = (s.hmq q.val).notices ∧ u.regs = s.regs) ∧
    (∀ (q : Fin 4) (n0 n1 : Nat) (r : List (Nat × Nat)), (s.hmq q.val).half = none → (s.hmq q.val).notices = (n0, n1) :: r →
      ∃ u, exec (.hmqRead q) s = .next u ∧ u.rdData = n0 ∧ (u.hmq q.val).half = some n1 ∧ (u.hmq q.val).notices = r ∧ u.regs = s.regs) ∧
    (∀ (w : Nat) (r : List Nat), s.msp.fifo = w :: r → ∃ u, exec .mspDataRead s = .next u ∧ u.rdData = w ∧ u.msp.fifo = r) ∧
    (∀ t : Fin 64, ∃ u, exec (.resultRead t) s = .next u ∧ u.rdData = (s.reg (TL_RESULT t.val)).toNat ∧ u.on (TL_RESULT_VALID t.val) = false ∧
      ∀ a, a ≠ TL_RESULT t.val → u.reg a = s.reg a) ∧
    (∀ t : Fin 64, ∃ u, exec (.tdcResultRead t) s = .next u ∧ u.rdData = (s.reg (TL_TDC_RESULT t.val)).toNat ∧ u.on (TL_TDC_RESULT_VALID t.val) = false ∧
      ∀ a, a ≠ TL_TDC_RESULT t.val → u.reg a = s.reg a) ∧
    (∀ t : Fin 64, ∃ u, exec (.adcResRead t) s = .next u ∧ u.rdData = (s.reg (TL_ADC_RES_LO t.val)).toNat ∧ u.on (TL_ADC_RES_HI_VALID t.val) = false ∧
      ∀ a, a ≠ TL_ADC_RES_HI t.val → u.reg a = s.reg a) ∧
    (∃ u, exec .fcStatRead s = .next u ∧ u.rdData = (s.reg (FC_STAT 0)).toNat ∧ u.collector.snapshot = (List.range 8).map (fun i => (s.reg (FC_STAT i)).toNat) ∧
      u.regs = s.regs) ∧
    (∀ k : Fin 16, ∃ t, exec (.ucrdD7Read k) s = .next t ∧ t.rdData = (s.reg (SH_UCRD_D k.val 7)).toNat ∧
      t.get (SH_UCRD_ADDR_ADDR k.val) = (s.get (SH_UCRD_ADDR_ADDR k.val) + 1) % 2 ^ 14)
/-! ### Rendezvous -/

/-- Rendezvous messages and times of a group that is enabled, of a part with REFCLK; without it they do nothing (R26). RDV_REPORT: the leader of a group that is PENDING with nothing sent takes a report of
the present epoch from a part of the group; a FIRST that is the earliest so far is kept as T_first, and the COMPLETE of the last part
missing, the first one with a stamp, makes the leader send the release: the group is RELEASING. A report of another epoch changes nothing.
RDV_RELEASE: a release from the leader whose count the schedule view has not passed waits for it, and the group is RELEASING; its epoch byte is
not compared, which is DEDUCED (log entry 18). A message of a part that may not send it is a STRAY (R51). RDV_RELEASE_DUE: the group is IDLE in the next epoch with no arrivals. RDV_TIMEOUT: the leader of a
group with a first arrival and nothing sent sends a release with TIMEOUT, and the group is RELEASING. -/
def Obligations.RendezvousReportsAndReleases : Prop :=
  ∀ (k : Fin 32) (s : State), s.on (GL_RDV_CFG_EN k.val) = true →
    (s.power.pllLost = true → (∀ x y epoch first complete n stamp, exec (.rdvReport k x y epoch first complete n stamp) s = .next s) ∧
      (∀ x y epoch timeout r, exec (.rdvRelease k x y epoch timeout r) s = .next s) ∧ exec (.rdvReleaseDue k) s = .next s ∧
      exec (.rdvTimeout k) s = .next s) ∧
    (s.power.pllLost = false →
    (∀ (x y : Fin 16) (epoch : Fin 256) (first complete : Bool) (n : Fin 256) (stamp : BitVec 48),
      let part := 8 * y.val + x.val
      s.rdvLeader k.val = s.here →
      (x.val < 8 → y.val < 6 → (s.rdvParts k.val).testBit part = true → s.get (GL_RDV_STAT_STATE k.val) = 1 → (s.rdv k.val).sent = false →
        (epoch.val = s.get (GL_RDV_STAT_EPOCH k.val) →
          (complete = false → ∃ t, exec (.rdvReport k x y epoch first false n stamp) s = .next t ∧ t.get (GL_RDV_STAT_STATE k.val) = 1 ∧
            (t.rdv k.val).complete = (s.rdv k.val).complete ∧ (t.rdv k.val).tFirst = if first then some (match (s.rdv k.val).tFirst with
              | none => stamp.toNat
              | some f => if notBefore48 stamp.toNat f then f else stamp.toNat) else (s.rdv k.val).tFirst) ∧
          (((s.rdv k.val).complete ||| 2 ^ part) &&& s.rdvParts k.val = s.rdvParts k.val →
            ∃ t, exec (.rdvReport k x y epoch first true n stamp) s = .next t ∧ (t.rdv k.val).sent = true ∧ t.get (GL_RDV_STAT_STATE k.val) = 2)) ∧
        (epoch.val ≠ s.get (GL_RDV_STAT_EPOCH k.val) → ∃ t, exec (.rdvReport k x y epoch first complete n stamp) s = .next t ∧ t.regs = s.regs ∧
          t.rdvs = s.rdvs)) ∧
      (8 ≤ x.val ∨ 6 ≤ y.val ∨ (s.rdvParts k.val).testBit part = false → ∃ t, exec (.rdvReport k x y epoch first complete n stamp) s = .next t ∧
        t.on (GL_RDV_STAT_STRAY k.val) = true ∧ t.rdvs = s.rdvs)) ∧
    (∀ (x y : Fin 16) (epoch : Fin 256) (timeout : Bool) (r : BitVec 48),
      (x.val < 8 → s.rdvLeader k.val = 8 * y.val + x.val → ¬(notBefore48 s.view r.toNat = true ∧ s.view ≠ r.toNat) →
        ∃ t, exec (.rdvRelease k x y epoch timeout r) s = .next t ∧ (t.rdv k.val).release = some (r.toNat, timeout, true, false) ∧
          t.get (GL_RDV_STAT_STATE k.val) = 2 ∧ ∀ a, a ≠ GL_RDV_STAT k.val → t.reg a = s.reg a) ∧
      (s.rdvLeader k.val ≠ 8 * y.val + x.val → ∃ t, exec (.rdvRelease k x y epoch timeout r) s = .next t ∧
        t.on (GL_RDV_STAT_STRAY k.val) = true ∧ t.rdvs = s.rdvs)) ∧
    (∀ r timeout reaches late, (s.rdv k.val).release = some (r, timeout, reaches, late) →
      ∃ t, exec (.rdvReleaseDue k) s = .next t ∧ t.get (GL_RDV_STAT_STATE k.val) = 0 ∧
        t.get (GL_RDV_STAT_EPOCH k.val) = (s.get (GL_RDV_STAT_EPOCH k.val) + 1) % 256 ∧ t.get (GL_RDV_STAT_ARRIVED k.val) = 0) ∧
    (∀ f, (s.rdv k.val).tFirst = some f → (s.rdv k.val).sent = false → s.rdvLeader k.val = s.here →
      ∃ t, exec (.rdvTimeout k) s = .next t ∧ (t.rdv k.val).sent = true ∧ t.get (GL_RDV_STAT_STATE k.val) = 2 ∧
        t.on (GL_RDV_STAT_TIMEOUT k.val) = true))

/-- A write to a group's MASK, CFG or PARTS registers while the group's STATE is PENDING or RELEASING is ignored and sets WR_BUSY. -/
def Obligations.RendezvousSettingsAreHeldWhilePending : Prop :=
  ∀ (v : View) (k : Fin 32) (a : Nat) (w : Word) (s : State), s.ready = true →
    s.get (GL_RDV_STAT_STATE k.val) = 1 ∨ s.get (GL_RDV_STAT_STATE k.val) = 2 →
    a ∈ [GL_RDV_MASK_LO k.val, GL_RDV_MASK_HI k.val, GL_RDV_CFG k.val, GL_RDV_PARTS_LO k.val, GL_RDV_PARTS_HI k.val] →
    ∃ t, exec (.regWrite v a ⟨w, 15, none⟩) s = .next t ∧ t.on (GL_RDV_STAT_WR_BUSY k.val) = true ∧ t.rdvs = s.rdvs ∧
      ∀ b, b ≠ GL_RDV_STAT k.val → b ≠ EV_PEND 38 → b ≠ State.msixPending 0 → b ≠ State.msixPending 1 → t.reg b = s.reg b

/-! ### Opcodes of the tiller sequencer -/

namespace Sys2Proof.Machine

/-- Tiller t runs, has issued a vector of its run, is in no gap, and an opcode with operand and condition passes the checks of R87:
it acts for the vector most recently issued. -/
def State.opcodeRuns (s : State) (t opc opd cnd : Nat) : Bool :=
  s.engine t == 1 && (s.tl t).issues != 0 && (s.tl t).gap.isNone && s.opcodeCause t opc opd cnd == 0

/-- The vector most recently issued carries an opcode. -/
def State.carrying (s : State) (t opc opd cnd : Nat) : State :=
  s.setTl t { s.tl t with vec := { (s.tl t).vec with opc := opc, opd := opd, cnd := cnd } }

end Sys2Proof.Machine

/-- NOP, REPEAT, LOOP, ENDLOOP, JUMP, CALL, RET and SEG choose what follows their vector at the end of its period: the next one, the same
one again n - 1 times, the loop's start while its counter is not zero, the target, the popped index, the segment. An own opcode command acts
for the vector most recently issued; that is the model's choice (log entry 21). -/
def Obligations.SequenceOpcodesChooseWhatFollows : Prop :=
  ∀ (t : Fin 64) (w : Word) (s : State),
    (s.opcodeRuns t.val 0x00 0 0 = true →
      ∃ u, exec (.vNop t) s = .next u ∧ (u.tl t.val).next = .seq ∧ (u.tl t.val).dueAt = (s.tl t.val).endAt ∧ u.regs = s.regs) ∧
    (s.opcodeRuns t.val 0x01 w.toNat 0 = true →
      let left := if (s.tl t.val).repLeft = 0 then max 1 w.toNat - 1 else (s.tl t.val).repLeft - 1
      ∃ u, exec (.vRepeat t w) s = .next u ∧ (u.tl t.val).repLeft = left ∧ (u.tl t.val).next = (if left = 0 then .seq else .again) ∧ u.regs = s.regs) ∧
    (s.opcodeRuns t.val 0x02 w.toNat 0 = true → (s.tl t.val).looped = false →
      ∃ u, exec (.vLoop t w) s = .next u ∧ (u.tl t.val).next = .seq ∧ u.get (TL_LOOP_COUNT t.val (bits w.toNat 31 30)) = bits w.toNat 29 0 ∧
        u.get (State.loopStart t.val (bits w.toNat 31 30)) = (s.tl t.val).idx % 2 ^ 14 ∧ u.fbit (TL_SEQ_STAT_LOOP_OPEN t.val) (bits w.toNat 31 30) = true) ∧
    (s.opcodeRuns t.val 0x02 w.toNat 0 = true → (s.tl t.val).looped = true →
      ∃ u, exec (.vLoop t w) s = .next u ∧ (u.tl t.val).next = .seq ∧ u.regs = s.regs) ∧
    (s.opcodeRuns t.val 0x03 w.toNat 0 = true → s.get (TL_LOOP_COUNT t.val (w.toNat % 4)) = 0 →
      ∃ u, exec (.vEndloop t w) s = .next u ∧ (u.tl t.val).next = .seq ∧ u.fbit (TL_SEQ_STAT_LOOP_OPEN t.val) (w.toNat % 4) = false) ∧
    (s.opcodeRuns t.val 0x03 w.toNat 0 = true → s.get (TL_LOOP_COUNT t.val (w.toNat % 4)) ≠ 0 →
      ∃ u, exec (.vEndloop t w) s = .next u ∧ (u.tl t.val).next = .loopBack (s.get (State.loopStart t.val (w.toNat % 4))) ∧
        u.get (TL_LOOP_COUNT t.val (w.toNat % 4)) = s.get (TL_LOOP_COUNT t.val (w.toNat % 4)) - 1) ∧
    (s.opcodeRuns t.val 0x04 w.toNat 0 = true →
      ∃ u, exec (.vJump t w) s = .next u ∧ (u.tl t.val).next = .jump w.toNat false ∧ u.regs = s.regs) ∧
    (s.opcodeRuns t.val 0x05 w.toNat 0 = true →
      ∃ u, exec (.vCall t w) s = .next u ∧ (u.tl t.val).next = .jump w.toNat true ∧ u.regs = s.regs) ∧
    (s.opcodeRuns t.val 0x06 0 0 = true →
      ∃ u, exec (.vRet t) s = .next u ∧ (u.tl t.val).next = .ret ∧ u.regs = s.regs) ∧
    (s.opcodeRuns t.val 0x28 w.toNat 0 = true →
      ∃ u, exec (.vSeg t w) s = .next u ∧ (u.tl t.val).next = .enterSeg (w.toNat % 256) (w.toNat.testBit 8) ∧ u.regs = s.regs)

/-- CLRS, CMASK, TMARK and the loads of the APG act with their vector, and the next vector follows. CLRS clears the sticky bits of its pins, but
those that a compare set in the same cycle; while its own vector's compare is still to resolve it is noted for that. An own opcode command acts
for the vector most recently issued, which is the model's choice (log entry 21). -/
def Obligations.MasksMarksAndLoadsAct : Prop :=
  ∀ (t : Fin 64) (w : Word) (s : State),
    (s.opcodeRuns t.val 0x08 w.toNat 0 = true → (s.cmp t.val).queue = [] →
      let kept := if sameCycle (s.cmp t.val).setAt (s.tl t.val).issueAt then (s.cmp t.val).setBits else 0
      ∃ u, exec (.vClrs t w) s = .next u ∧ (u.tl t.val).next = .seq ∧
        u.get (TL_STICKY_FAIL t.val) = s.get (TL_STICKY_FAIL t.val) &&& (0xFF ^^^ (w.toNat % 256 &&& (0xFF ^^^ kept))) ∧
        ∀ a, a ≠ TL_STICKY t.val → u.reg a = s.reg a) ∧
    (∀ c : Cmp, s.opcodeRuns t.val 0x08 w.toNat 0 = true → (s.cmp t.val).queue = [.sample c] → c.run = (s.cmp t.val).run → c.vidx = s.vidx t.val →
      c.resolved = false → ∃ u, exec (.vClrs t w) s = .next u ∧ (u.tl t.val).next = .seq ∧ u.regs = s.regs ∧
        (u.cmp t.val).queue = [.sample { c with clrs := w.toNat % 256 }]) ∧
    (s.opcodeRuns t.val 0x09 w.toNat 0 = true →
      ∃ u, exec (.vCmask t w) s = .next u ∧ (u.tl t.val).next = .seq ∧ u.get (TL_CMASK_MASK t.val) = w.toNat % 256 ∧
        ∀ a, a ≠ TL_CMASK t.val → u.reg a = s.reg a) ∧
    (s.opcodeRuns t.val 0x0B w.toNat 0 = true →
      exec (.vTmark t w) s = .next (((s.carrying t.val 0x0B w.toNat 0).trace t.val 8 0x0B w.toNat).follow t.val .seq)) ∧
    (s.opcodeRuns t.val 0x30 w.toNat 0 = true →
      ∃ u, exec (.vSetx t w) s = .next u ∧ (u.tl t.val).next = .seq ∧
        (if w.toNat.testBit 31 then u.get (TL_APG_XMAX_XMAX t.val) = bits w.toNat 19 0 ∧
            u.get (TL_APG_X_X t.val) = s.get (TL_APG_X_X t.val) % (bits w.toNat 19 0 + 1)
          else u.get (TL_APG_X_X t.val) = bits w.toNat 19 0 % (s.get (TL_APG_XMAX_XMAX t.val) + 1))) ∧
    (s.opcodeRuns t.val 0x31 w.toNat 0 = true →
      ∃ u, exec (.vSety t w) s = .next u ∧ (u.tl t.val).next = .seq ∧
        (if w.toNat.testBit 31 then u.get (TL_APG_YMAX_YMAX t.val) = bits w.toNat 15 0 ∧
            u.get (TL_APG_Y_Y t.val) = s.get (TL_APG_Y_Y t.val) % (bits w.toNat 15 0 + 1)
          else u.get (TL_APG_Y_Y t.val) = bits w.toNat 15 0 % (s.get (TL_APG_YMAX_YMAX t.val) + 1))) ∧
    (s.opcodeRuns t.val 0x32 w.toNat 0 = true →
      ∃ u, exec (.vSetd t w) s = .next u ∧ (u.tl t.val).next = .seq ∧ u.reg (TL_APG_D t.val) = w ∧ ∀ a, a ≠ TL_APG_D t.val → u.reg a = s.reg a) ∧
    (s.opcodeRuns t.val 0x33 w.toNat 0 = true →
      ∃ u, exec (.vSeti t w) s = .next u ∧ (u.tl t.val).next = .seq ∧ u.get (TL_APG_I_I t.val (bits w.toNat 31 30)) = bits w.toNat 19 0 ∧
        ∀ a, a ≠ TL_APG_I t.val (bits w.toNat 31 30) → u.reg a = s.reg a)

/-- JFAIL and CFAIL transfer when their condition is true, JPASS and CPASS when it is false; a condition that waits for compares
leaves the vector undecided. A call that is taken on a full stack faults with cause 8 at the end of its vector's period (R72, R88). JEVT transfers
and clears its latch when the latch is set. MATCH counts its issue and waits. An own opcode command acts for the vector most recently issued,
which is the model's choice (log entry 21). -/
def Obligations.ConditionalOpcodesDecideOrWait : Prop :=
  ∀ (t : Fin 64) (w : Word) (cnd : BitVec 8) (s : State),
    (s.opcodeRuns t.val 0x10 w.toNat cnd.toNat = true →
      ∃ u, exec (.vJfail t w cnd) s = .next u ∧ (u.tl t.val).dueAt = (s.tl t.val).endAt ∧ (u.tl t.val).next =
        (if State.condWaits cnd.toNat then .undecided else if s.condTrue t.val cnd.toNat then .jump w.toNat false else .seq)) ∧
    (s.opcodeRuns t.val 0x11 w.toNat cnd.toNat = true →
      ∃ u, exec (.vJpass t w cnd) s = .next u ∧ (u.tl t.val).dueAt = (s.tl t.val).endAt ∧ (u.tl t.val).next =
        (if State.condWaits cnd.toNat then .undecided else if s.condTrue t.val cnd.toNat then .seq else .jump w.toNat false)) ∧
    (s.opcodeRuns t.val 0x14 w.toNat cnd.toNat = true →
      ∃ u, exec (.vCfail t w cnd) s = .next u ∧ (u.tl t.val).dueAt = (s.tl t.val).endAt ∧ (u.tl t.val).next =
        (if State.condWaits cnd.toNat then .undecided else if s.condTrue t.val cnd.toNat then .jump w.toNat true else .seq)) ∧
    (s.opcodeRuns t.val 0x15 w.toNat cnd.toNat = true →
      ∃ u, exec (.vCpass t w cnd) s = .next u ∧ (u.tl t.val).dueAt = (s.tl t.val).endAt ∧ (u.tl t.val).next =
        (if State.condWaits cnd.toNat then .undecided else if s.condTrue t.val cnd.toNat then .seq else .jump w.toNat true)) ∧
    (let x := s.tl t.val
     let u := (s.advInst x.dueAt).faultNow t.val 0x08 x.idx x.vec.opc (ceilCycle x.dueAt)
     ∀ (ahead : Fin 17) (i : Nat), s.engine t.val = 1 → x.gap = none → x.primes = [] → (s.tdc t.val).arms = [] → x.stopReq = false → x.next = .jump i true →
      s.get (TL_SEQ_STAT_SP t.val) = 8 → u.engine t.val ≠ 1 → exec (.vectorIssue ⟨t, ahead⟩) s = .next u) ∧
    (s.opcodeRuns t.val 0x12 w.toNat cnd.toNat = true →
      ∃ u, exec (.vJevt t w cnd) s = .next u ∧ u.fbit (TL_EVIN_LATCH t.val) (cnd.toNat % 8) = false ∧ (u.tl t.val).next =
        (if s.fbit (TL_EVIN_LATCH t.val) (cnd.toNat % 8) then .jump w.toNat false else .seq)) ∧
    (s.opcodeRuns t.val 0x13 w.toNat cnd.toNat = true →
      ∃ u, exec (.vMatch t w cnd) s = .next u ∧ (u.tl t.val).next = .undecided ∧ (u.tl t.val).matches_ = (s.tl t.val).matches_ + 1 ∧ u.regs = s.regs)

/-- HALT, PAUSE, WAITRC, RDV, EVW and CALGAP act at the end of their vector's period, to which the clock is brought: HALT ends the pass of a last
vector (so does the halt of a non-member, by log entry 19) and halts with its code; a PAUSE, a WAITRC for a count after that end, an RDV of a
member in the group's epoch, which arrives, and an EVW whose latch is clear park where no stop waits; a CALGAP begins its gap. A WAITRC whose
count is past, or inside its vector's period, goes on with LATE set, one whose count is that of its issue or of its period end goes on, an RDV of
a tiller that is no member halts it, an EVW whose latch is set clears it and goes on. That the command brings the clock to the period's end, for
the vector most recently issued, is the model's choice, log entry 21; that LATE sets at the issue is log entry 20's. -/
def Obligations.WaitingOpcodesActAtThePeriodEnd : Prop :=
  ∀ (t : Fin 64) (w : Word) (cnd : BitVec 8) (s : State),
    let x := s.tl t.val
    let parked := fun (opc opd cnd : Nat) (p : Park) =>
      ((((s.carrying t.val opc opd cnd).follow t.val (.park p)).advInst x.endAt).modTl t.val (fun y => { y with next := .seq })).parkAt t.val (State.parkWhy p) p (ceilCycle x.endAt)
    let ahead := (w.toNat + 2 ^ 32 - (s.countAt (x.issueAt / 1280) + 2 ^ 48 - 64) % 2 ^ 32) % 2 ^ 32
    (s.opcodeRuns t.val 0x07 w.toNat 0 = true →
      exec (.vHalt t w) s = .next (((((s.carrying t.val 0x07 w.toNat 0).follow t.val (.halt w.toNat)).advInst x.endAt).lastPass t.val).haltNow t.val
        (ceilCycle x.endAt) w.toNat)) ∧
    (s.opcodeRuns t.val 0x0A 0 0 = true → x.stopReq = false → exec (.vPause t) s = .next (parked 0x0A 0 0 .pause)) ∧
    (s.opcodeRuns t.val 0x20 w.toNat 0 = true → x.stopReq = false → ahead < 2 ^ 31 → x.endAt < (x.issueAt / 1280 + ahead) * 1280 → ahead ≠ 0 →
      exec (.vWaitrc t w) s = .next (parked 0x20 w.toNat 0 (.waitrc w.toNat))) ∧
    (s.opcodeRuns t.val 0x20 w.toNat 0 = true → 2 ^ 31 ≤ ahead ∨ (ahead ≠ 0 ∧ (x.issueAt / 1280 + ahead) * 1280 < x.endAt) →
      exec (.vWaitrc t w) s = .next (((s.carrying t.val 0x20 w.toNat 0).follow t.val .seq).setLate t.val x.idx)) ∧
    (s.opcodeRuns t.val 0x20 w.toNat 0 = true → ahead = 0 ∨ (ahead < 2 ^ 31 ∧ (x.issueAt / 1280 + ahead) * 1280 = x.endAt) →
      exec (.vWaitrc t w) s = .next ((s.carrying t.val 0x20 w.toNat 0).follow t.val .seq)) ∧
    (s.opcodeRuns t.val 0x21 w.toNat 0 = true → x.stopReq = false → s.on (GL_RDV_CFG_EN w.toNat) = true → (s.rdvMask w.toNat).testBit t.val = true →
      s.ownEpoch t.val w.toNat = s.get (GL_RDV_STAT_EPOCH w.toNat) →
      exec (.vRdv t w) s = .next ((((((s.carrying t.val 0x21 w.toNat 0).arrive t.val w.toNat (s.countAt (x.issueAt / 1280))).follow t.val (.park (.rdv w.toNat))).advInst
        x.endAt).modTl t.val (fun y => { y with next := .seq })).parkAt t.val 2 (.rdv w.toNat) (ceilCycle x.endAt))) ∧
    (s.opcodeRuns t.val 0x21 w.toNat 0 = true → (s.rdvMask w.toNat).testBit t.val = false →
      exec (.vRdv t w) s = .next ((((s.carrying t.val 0x21 w.toNat 0).follow t.val .notMember).advInst x.endAt).notMember t.val (ceilCycle x.endAt))) ∧
    (s.opcodeRuns t.val 0x40 w.toNat cnd.toNat = true → s.fbit (TL_EVIN_LATCH t.val) (cnd.toNat % 8) = true →
      ∃ u, exec (.vEvw t w cnd) s = .next u ∧ (u.tl t.val).next = .seq ∧ u.fbit (TL_EVIN_LATCH t.val) (cnd.toNat % 8) = false) ∧
    (s.opcodeRuns t.val 0x40 w.toNat cnd.toNat = true → s.fbit (TL_EVIN_LATCH t.val) (cnd.toNat % 8) = false → x.stopReq = false →
      exec (.vEvw t w cnd) s = .next (parked 0x40 w.toNat cnd.toNat (.evw (cnd.toNat % 8)
        (if bits w.toNat 31 14 = 0 then none else some (x.issueAt + bits w.toNat 31 14 * 128 * 1280)) (w.toNat % 2 ^ 14)))) ∧
    (s.opcodeRuns t.val 0x22 w.toNat 0 = true → x.stopReq = false →
      exec (.vCalgap t w) s = .next ((((s.carrying t.val 0x22 w.toNat 0).follow t.val (.calgap w.toNat)).advInst x.endAt).enterGap t.val x.endAt w.toNat x.vec.tset false))

/-- LVLQ queues its change word with the issue instant, from which its time counts, and EVS fires its channel; STREAM asks for the prime of its
segment, MEAS for a trigger of the ADC and TDCARM for an arm of the TDC, each 8 cycles after the issue instant; the next vector follows. An own
opcode command acts for the vector most recently issued, which is the model's choice (log entry 21). -/
def Obligations.DeviceOpcodesActAtTheirIssue : Prop :=
  ∀ (t : Fin 64) (w : Word) (s : State),
    (s.opcodeRuns t.val 0x38 w.toNat 0 = true → changeOk w.toNat = true → s.lvlPending t.val < 16 →
      ∃ u, exec (.vLvlq t w) s = .next u ∧ (u.tl t.val).next = .seq ∧ u.regs = s.regs ∧
        (u.lvl t.val).queue = (s.lvl t.val).queue ++ [⟨0, [w.toNat], s.vidx t.val, (s.tl t.val).issueAt⟩]) ∧
    (s.opcodeRuns t.val 0x41 w.toNat 0 = true → s.mayFireEvs t.val w.toNat = true →
      ∃ u, exec (.vEvs t w) s = .next u ∧ (u.tl t.val).next = .seq ∧ u.regs = s.regs ∧ u.firings = s.firings ++ [w.toNat]) ∧
    (s.opcodeRuns t.val 0x29 w.toNat 0 = true → ∃ u, exec (.vStream t w) s = .next u ∧ (u.tl t.val).next = .seq ∧ u.regs = s.regs ∧
      (u.tl t.val).primes = (s.tl t.val).primes ++ [((s.tl t.val).issueAt + 8 * 160, w.toNat)]) ∧
    (s.opcodeRuns t.val 0x39 w.toNat 0 = true → ∃ u, exec (.vMeas t w) s = .next u ∧ (u.tl t.val).next = .seq ∧ u.regs = s.regs ∧
      (u.adc t.val).due = (s.adc t.val).due ++ [((s.tl t.val).issueAt + 8 * 160, w.toNat)]) ∧
    (s.opcodeRuns t.val 0x3A w.toNat 0 = true → ∃ u, exec (.vTdcarm t w) s = .next u ∧ (u.tl t.val).next = .seq ∧ u.regs = s.regs ∧
      (u.tdc t.val).arms = (s.tdc t.val).arms ++ [((s.tl t.val).issueAt + 8 * 160, w.toNat)])

/-- An opcode that fails a check faults its tiller with the check's cause, unless a stop waits, which takes its place (log entry 19). An own opcode
command acts for the vector most recently issued, which is the model's choice (log entry 21). Shown for: a CALGAP with a
reserved operand bit set, a JUMP outside vector SRAM, a CALL on a full stack, a RET on an empty one, an ENDLOOP of a closed loop, a MATCH
with a condition it does not allow, an LVLQ with a word that is no level change or with sixteen changes pending. -/
def Obligations.OpcodesThatFailACheckFault : Prop :=
  ∀ (t : Fin 64) (w : Word) (cnd : BitVec 8) (s : State),
    s.engine t.val = 1 → (s.tl t.val).issues ≠ 0 → (s.tl t.val).gap = none →
    let faulted := fun (opc c : Nat) => (.next (if (s.tl t.val).stopReq then s.stopNow t.val (ceilCycle (s.tl t.val).dueAt)
      else s.faultNow t.val c (s.tl t.val).idx opc (ceilCycle (s.tl t.val).dueAt)) : Host.Outcome State Fault Refusal)
    (2 ^ 24 ≤ w.toNat → exec (.vCalgap t w) s = faulted 0x22 0x06) ∧
    (2 ^ 14 ≤ w.toNat → exec (.vJump t w) s = faulted 0x04 0x07) ∧
    (w.toNat < 2 ^ 14 → s.get (TL_SEQ_STAT_SP t.val) = 8 → exec (.vCall t w) s = faulted 0x05 0x08) ∧
    (s.get (TL_SEQ_STAT_SP t.val) = 0 → exec (.vRet t) s = faulted 0x06 0x09) ∧
    (w.toNat < 4 → s.fbit (TL_SEQ_STAT_LOOP_OPEN t.val) w.toNat = false → exec (.vEndloop t w) s = faulted 0x03 0x0A) ∧
    (condOk 0x13 cnd.toNat = false → exec (.vMatch t w cnd) s = faulted 0x13 0x05) ∧
    (changeOk w.toNat = false → exec (.vLvlq t w) s = faulted 0x38 0x12) ∧
    (changeOk w.toNat = true → 16 ≤ s.lvlPending t.val → exec (.vLvlq t w) s = faulted 0x38 0x13)

/-! ### Vectors issue, waits and gaps end -/

/-- At the end of the period of a vector of SRAM that nothing else follows, with no stop waiting and no checker injection armed, the next word of
SRAM is due: one decoded ahead as it was then, otherwise as memory holds it now. It issues when it passes every check; with a reserved bit
set, or a double-bit error, and beyond the end of the SRAM, the tiller faults instead. `ahead` words are decoded after it, with the level-change entries that they name;
that the command says how many is the model's choice (log entry 22). -/
def Obligations.VectorsIssueInOrder : Prop :=
  ∀ (t : Fin 64) (ahead : Fin 17) (s : State),
    let x := s.tl t.val
    let i := x.idx + 1
    let u := (s.advInst x.dueAt).goTo t.val i x.dueAt
    let v := vecOf (s.loadLE (vecAddr t.val i) 16)
    s.engine t.val = 1 → x.gap = none → x.next = .seq → x.last = false → x.streamed = false → x.stopReq = false → x.primes = [] →
      (s.tdc t.val).arms = [] → s.on FC_INJ_STAT_ARMED = false →
      (i < 2 ^ 14 → x.ahead = [] → vecAddr t.val i ∉ s.single → vecAddr t.val i ∉ s.uncorr →
        (u.vectorCause t.val v (u.levelsOf t.val (u.loadLE (vecAddr t.val i) 16)) true = 0 → exec (.vectorIssue ⟨t, ahead⟩) s =
          .next ((u.issueVector t.val v (u.levelsOf t.val (u.loadLE (vecAddr t.val i) 16)) false).decodeAhead t.val ahead.val)) ∧
        (v.rsv ≠ 0 → exec (.vectorIssue ⟨t, ahead⟩) s = .next ((u.faultNow t.val 0x02 i v.opc (ceilCycle x.dueAt)).decodeAhead t.val ahead.val))) ∧
      (∀ w r, i < 2 ^ 14 → x.ahead = w :: r → w.idx = i → w.bad = false →
        let y := u.modTl t.val (fun z => { z with ahead := r })
        y.vectorCause t.val (vecOf w.word) w.entry true = 0 →
          exec (.vectorIssue ⟨t, ahead⟩) s = .next ((y.issueVector t.val (vecOf w.word) w.entry false).decodeAhead t.val ahead.val)) ∧
      (i < 2 ^ 14 → x.ahead = [] → vecAddr t.val i ∈ s.uncorr →
        exec (.vectorIssue ⟨t, ahead⟩) s = .next ((u.faultNow t.val 0x01 i v.opc (ceilCycle x.dueAt)).decodeAhead t.val ahead.val)) ∧
      (2 ^ 14 ≤ i → exec (.vectorIssue ⟨t, ahead⟩) s =
        .next ((u.faultNow t.val 0x0B x.idx x.vec.opc (ceilCycle x.dueAt)).decodeAhead t.val ahead.val))

/-- A parked tiller goes on at the count a WAITRC waits for, 4 cycles after the latch an EVW waits for sets, and at an EVW's time-out, at which a
latch already set wins; it then runs, and its next vector is due not before the end of the period of its last one. A gap begins at its
tick, where a pending switch is taken and a calibration step may start, and is over at its last tick: a CALGAP goes on with the vector due,
a gap segment, which is left, with its link where no stop waits. -/
def Obligations.ParksAndGapsEnd : Prop :=
  (∀ (t : Fin 64) (s : State), s.engine t.val = 2 → (s.tl t.val).next = .seq →
     let cycle := ceilCycle (s.tl t.val).endAt
     (∀ w, s.power.pllLost = false → (s.tl t.val).park = .waitrc w →
       let d := (w + 64 + 2 ^ 32 - s.count.toNat % 2 ^ 32) % 2 ^ 32
       ∃ u, exec (.waitrcWake t) s = .next u ∧ u.engine t.val = 1 ∧ u.get (TL_SEQ_STAT_PARK_WHY t.val) = 0 ∧ (u.tl t.val).park = .none ∧
         (d < 2 ^ 31 → (u.tl t.val).dueAt = max ((s.ticks + d) * 1280) cycle)) ∧
     (∀ j dead dest at_, j < 8 → (s.tl t.val).park = .evw j dead dest →
       ∃ u, exec (.evwWake t at_) s = .next u ∧ u.engine t.val = 1 ∧ (u.tl t.val).park = .none ∧ u.fbit (TL_EVIN_LATCH t.val) j = false ∧
         (u.tl t.val).dueAt = max (ceilCycle (at_ + 640)) cycle ∧ (u.tl t.val).next = .seq) ∧
     (∀ j dead dest, (s.tl t.val).park = .evw j (some dead) dest →
       (s.fbit (TL_EVIN_LATCH t.val) j = false → ∃ u, exec (.evwTimeout t) s = .next u ∧ u.engine t.val = 1 ∧ (u.tl t.val).park = .none ∧
         (u.tl t.val).next = .timeout dest ∧ (u.tl t.val).dueAt = max (ceilCycle dead) cycle ∧
         u.get (TL_OPSTAT_EVW_TMO t.val) = min (s.get (TL_OPSTAT_EVW_TMO t.val) + 1) 255) ∧
       (s.fbit (TL_EVIN_LATCH t.val) j = true → exec (.evwTimeout t) s = exec (.evwWake t dead) s))) ∧
  (∀ (t : Fin 64) (g : Gap) (s : State), (s.tl t.val).gap = some g →
     (let u := (s.advTo g.g).trace t.val 12 (s.tl t.val).vec.opc ((if g.segment then 0x3FFF else (s.tl t.val).idx % 2 ^ 14) + g.len % 2 ^ 14 * 2 ^ 16)
      exec (.gapStart t) s = .next (((u.setCalTl t.val { u.calTl t.val with used := false }).safePoint t.val).tryStep t.val)) ∧
     (g.segment = false → ∃ u, exec (.gapEnd t) s = .next u ∧ (u.tl t.val).gap = none ∧ (u.tl t.val).dueAt = g.until_ * 1280 ∧
       u.ticks = max s.ticks g.until_ ∧ u.get (TL_OPSTAT_IN_GAP t.val) = 0 ∧ (u.calTl t.val).stepEnd = none) ∧
     (g.segment = true → (s.tl t.val).stopReq = false →
       exec (.gapEnd t) s = .next ((((((s.advTo g.until_).put (TL_OPSTAT_IN_GAP t.val) 0).endStep t.val).modTl t.val
         (fun x => { x with gap := none, dueAt := g.until_ * 1280 })).leaveSegment t.val).takeLink t.val (g.until_ * 1280))))

/-- The compares of a vector that resolve next are taken at their strobes, each 40 ns after its own edge, once the latches of the tiller's pins have
caught up; their fails join the sticky bits of their pins but for those a MATCH expects, and what has come to its turn is delivered; a
conditional wait whose vector's period is over by then goes on. -/
def Obligations.ComparesResolveIntoStickyFails : Prop :=
  ∀ (t : Fin 64) (c : Cmp) (s : State), s.nextResolve t.val = some c → c.clrs = 0 →
    let v := (s.advInst c.nextAt).tillerCatchUp t.val c.nextAt
    let zs := v.solveAll t.val c c.nextAt
    let all := State.failMask (v.solveDue t.val c c.nextAt)
    ∃ u : State, exec (.compareResolve t) s =
        .next (if ((u.drainAll t.val).tl t.val).endAt ≤ c.nextAt then (u.drainAll t.val).endWait t.val else u.drainAll t.val) ∧
      u.ticks = v.ticks ∧ c.nextAt / 1280 ≤ u.ticks ∧
      u.get (TL_STICKY_FAIL t.val) = (v.get (TL_STICKY_FAIL t.val) ||| (all &&& (0xFF ^^^ c.expected))) % 256 ∧
      (u.cmp t.val).setAt = c.nextAt ∧
      (u.cmp t.val).queue = onIssue (v.cmp t.val).queue c (fun e => { e with strobes := zs, resolved := !zs.any (·.isOpen) }) ∧
      (all ≠ 0 → c.run = (v.cmp t.val).run → u.failedIn t.val c.vidx = all ||| v.failedIn t.val c.vidx) ∧
      ∀ a, a ≠ TL_STICKY t.val → u.reg a = v.reg a

/-- A line of a stream that has room, of the present pass, brings the vectors it holds, in order; a stalled tiller whose buffer holds enough runs
again 16 cycles after the refill. -/
def Obligations.StreamLinesArriveAndStallsEnd : Prop :=
  ∀ (t : Fin 64) (s : State),
    (∀ n, (s.tl t.val).primes = [] → (s.strm t.val).seg = some n → (s.strm t.val).ahead = none → (s.strm t.val).fetch < (s.strm t.val).desc.length →
      State.lineRoom (s.strm t.val) = true →
      ∃ u, exec (.streamLineArrive t) s = .next u ∧
        (u.strm t.val).fetch = min ((s.strm t.val).fetch + 16) (s.strm t.val).desc.length ∧
        ∃ l, (u.strm t.val).buf = (s.strm t.val).buf ++ l ∧ l.map (·.idx) = List.range' (s.strm t.val).fetch (min 16 ((s.strm t.val).desc.length - (s.strm t.val).fetch))) ∧
    (s.engine t.val = 3 → s.bufferReady t.val = true →
      ∃ u, exec (.stallResume t) s = .next u ∧ u.engine t.val = 1 ∧ u.on (TL_STRM_STAT_STALLED_NOW t.val) = false ∧
        (u.tl t.val).dueAt = ceilCycle ((s.tl t.val).refillAt.getD s.now) + 16 * 160)

/-! ### The pattern generator -/

/-- Address operations without a chained step, on a generator's value A with limit M, and with the index register n they name:
the new value, and the carry flag of those that write one. A chained INC or DEC that wraps steps the other generator by one
the same way, a chained ADDI that carries steps it up; one that does not wrap leaves it alone. -/
def Obligations.AddressOperationsStepTheirGenerators : Prop :=
  (∀ (t : Fin 64) (g : Gen) (n : Fin 4) (s : State),
     let a := s.get (genValue t.val g)
     let m := s.get (genLimit t.val g)
     let v := s.indexFor t.val g n.val
     (∃ u, exec (.addrHold t g) s = .next u ∧ u.get (genValue t.val g) = a % (m + 1) ∧ u.reg (TL_FLAGS t.val) = s.reg (TL_FLAGS t.val)) ∧
     (∃ u, exec (.addrInc t g false) s = .next u ∧ u.get (genValue t.val g) = (a + 1) % (m + 1) ∧ u.on (genCarry t.val g) = decide (a = m)) ∧
     (∃ u, exec (.addrDec t g false) s = .next u ∧ u.get (genValue t.val g) = (if a = 0 then m else (a - 1) % (m + 1)) ∧
       u.on (genCarry t.val g) = decide (a = 0)) ∧
     (∃ u, exec (.addrComp t g) s = .next u ∧ ((u.get (genValue t.val g) : Nat) : Int) = ((m : Int) - a) % (m + 1) ∧ u.on (genCarry t.val g) = false) ∧
     (∃ u, exec (.addrLdi t g n) s = .next u ∧ u.get (genValue t.val g) = v % (m + 1) ∧ u.on (genCarry t.val g) = false) ∧
     (∃ u, exec (.addrAddi t g n false) s = .next u ∧ u.get (genValue t.val g) = (a + v) % (m + 1) ∧ u.on (genCarry t.val g) = decide (m < a + v)) ∧
     (∃ u, exec (.addrSavi t g n) s = .next u ∧ u.get (genValue t.val g) = a % (m + 1) ∧ u.get (TL_APG_I_I t.val n.val) = a % (m + 1) ∧
       u.reg (TL_FLAGS t.val) = s.reg (TL_FLAGS t.val)) ∧
     (∃ u, exec (.addrZero t g) s = .next u ∧ u.get (genValue t.val g) = 0 ∧ u.on (genCarry t.val g) = false)) ∧
  (∀ (t : Fin 64) (g : Gen) (n : Fin 4) (s : State),
     let a := s.get (genValue t.val g)
     let m := s.get (genLimit t.val g)
     let b := s.get (genValue t.val (otherGen g))
     let k := s.get (genLimit t.val (otherGen g))
     (∃ u, exec (.addrInc t g true) s = .next u ∧ u.get (genValue t.val (otherGen g)) = if a = m then (b + 1) % (k + 1) else b) ∧
     (∃ u, exec (.addrDec t g true) s = .next u ∧
       u.get (genValue t.val (otherGen g)) = if a = 0 then (if b = 0 then k else (b - 1) % (k + 1)) else b) ∧
     (∃ u, exec (.addrAddi t g n true) s = .next u ∧
       u.get (genValue t.val (otherGen g)) = if m < a + s.indexFor t.val g n.val then (b + 1) % (k + 1) else b))

/-- Data operations write D and nothing else. A write of a guarded APG register of a tiller that neither runs nor stalls sets
it; of one that does it is ignored with WR_BUSY. TL_APG_CTRL is guarded in its bits [2:0] alone: a write that leaves them as they are, or finds the
tiller unguarded, takes them and clears WR_BUSY with its bit 31; another sets WR_BUSY and changes nothing else. -/
def Obligations.PatternDataIsComputedAndGuarded : Prop :=
  (∀ (t : Fin 64) (n : Fin 4) (s : State),
     let d := s.reg (TL_APG_D t.val)
     let b := s.reg (TL_APG_BG t.val n.val)
     let p := s.physical t.val
     let writes := fun (c : Instr) (w : Word) => ∃ u, exec c s = .next u ∧ u.reg (TL_APG_D t.val) = w ∧ ∀ a, a ≠ TL_APG_D t.val → u.reg a = s.reg a
     writes (.dataHold t) d ∧ writes (.dataInv t) (~~~ d) ∧ writes (.dataBg t n) b ∧ writes (.dataBgi t n) (~~~ b) ∧
     writes (.dataCkb t n) (if p.1.testBit 0 = p.2.testBit 0 then b else ~~~ b) ∧
     writes (.dataAdrb t n) (if parity 20 (p.1 &&& s.get (TL_APG_DXM_DXM t.val)) = parity 16 (p.2 &&& s.get (TL_APG_DYM_DYM t.val)) then b else ~~~ b) ∧
     writes (.dataXorb t n) (d ^^^ b) ∧ writes (.dataRol t) (d.rotateLeft 1) ∧ writes (.dataRor t) (d.rotateRight 1) ∧
     writes (.dataAddr t) (BitVec.ofNat 32 (p.2 % 2 ^ 16 * 2 ^ 16 + p.1 % 2 ^ 16))) ∧
  (∀ (v : View) (t : Fin 64) (r : ApgReg) (w : Word) (s : State), s.ready = true → directView v = true → r ≠ .ctrl →
     (s.guarded t.val = false → ∃ u, exec (.apgWrite v t r w) s = .next u ∧
       u.reg (State.apgAddr t.val r) = BitVec.ofNat 32 (w.toNat &&& State.apgMask r) ∧ ∀ a, a ≠ State.apgAddr t.val r → u.reg a = s.reg a) ∧
     (s.guarded t.val = true → ∃ u, exec (.apgWrite v t r w) s = .next u ∧ u.on (TL_APG_CTRL_WR_BUSY t.val) = true ∧
       ∀ a, a ≠ TL_APG_CTRL t.val → u.reg a = s.reg a)) ∧
  (∀ (v : View) (t : Fin 64) (w : Word) (s : State), s.ready = true → directView v = true →
     let low := fun (z : State) => bits (z.reg (TL_APG_CTRL t.val)).toNat 2 0
     (w.toNat % 8 = low s ∨ s.guarded t.val = false → ∃ u, exec (.apgWrite v t .ctrl w) s = .next u ∧ low u = w.toNat % 8 ∧
       u.on (TL_APG_CTRL_WR_BUSY t.val) = (s.on (TL_APG_CTRL_WR_BUSY t.val) && !w.toNat.testBit 31) ∧ ∀ a, a ≠ TL_APG_CTRL t.val → u.reg a = s.reg a) ∧
     (w.toNat % 8 ≠ low s → s.guarded t.val = true → ∃ u, exec (.apgWrite v t .ctrl w) s = .next u ∧ low u = low s ∧
       u.on (TL_APG_CTRL_WR_BUSY t.val) = true ∧ ∀ a, a ≠ TL_APG_CTRL t.val → u.reg a = s.reg a))

/-! ### Tiller control -/

/-- RUN starts an IDLE or HALTED tiller at its entry segment when the descriptor passes its checks, here a segment of vectors in SRAM;
otherwise, and in every other state, it is REFUSED, as is the start of an armed tiller that is FAULTED, whose arm bit clears. STOP
stops a parked or stalled tiller at once and a running one at its next boundary, and does nothing to one that has stopped. RESUME ends a PAUSE park
one cycle later. A start comes at the tick of its write, which is the model's choice (log entry 19). -/
def Obligations.RunStopAndResume : Prop :=
  ∀ (v : View) (t : Fin 64) (s : State), s.ready = true → directView v = true → s.canonical = true →
    (let n := s.get (TL_SEG_ENTRY_SEG t.val)
     let d := s.readDesc t.val n
     (s.engine t.val = 0 ∨ s.engine t.val = 4) →
       (descCause d = 0 → d.isSram = true → ∃ u, exec (.tlRun v t) s = .next u ∧ u.engine t.val = 1 ∧ u.on (TL_SEQ_STAT_INSEG t.val) = true ∧
         u.get (TL_PC_SEG t.val) = n ∧ u.get (TL_STICKY_FAIL t.val) = 0 ∧ u.on (TL_RESULT_VALID t.val) = false ∧ u.on (TL_SEQ_STAT_REGSTART t.val) = true ∧
         (u.tl t.val).next = .ready ∧ (u.tl t.val).atIdx = d.start ∧ (u.tl t.val).issues = 0 ∧ (u.tl t.val).dueAt = s.now) ∧
       (descCause d ≠ 0 → ∃ u, exec (.tlRun v t) s = .next u ∧ u.engine t.val = s.engine t.val ∧ u.on (TL_SEQ_STAT_REFUSED t.val) = true ∧
         u.on (TL_SEG_ERR_ERR t.val) = true ∧ u.get (TL_SEG_ERR_SEG t.val) = n ∧ u.get (TL_SEG_ERR_CAUSE t.val) = descCause d)) ∧
    (s.engine t.val = 1 ∨ s.engine t.val = 2 ∨ s.engine t.val = 3 ∨ s.engine t.val = 5 →
      ∃ u, exec (.tlRun v t) s = .next u ∧ u.on (TL_SEQ_STAT_REFUSED t.val) = true ∧ u.tillers = s.tillers ∧ ∀ a, a ≠ TL_SEQ_STAT t.val → u.reg a = s.reg a) ∧
    (s.engine t.val = 5 → s.on (State.armBit t.val) = true → (s.startArmed t.val).engine t.val = 5 ∧ (s.startArmed t.val).on (State.armBit t.val) = false ∧
      (s.startArmed t.val).on (TL_SEQ_STAT_REFUSED t.val) = true ∧ (s.startArmed t.val).tillers = s.tillers) ∧
    (s.engine t.val = 1 → (s.tl t.val).gap = none → (s.tl t.val).next ≠ .undecided →
      ∃ u, exec (.tlStop v t) s = .next u ∧ (u.tl t.val).stopReq = true ∧ u.reg = s.reg) ∧
    (s.engine t.val = 2 ∨ s.engine t.val = 3 → exec (.tlStop v t) s = .next (s.stopNow t.val s.now)) ∧
    (s.engine t.val = 0 ∨ s.engine t.val = 4 ∨ s.engine t.val = 5 → exec (.tlStop v t) s = .next s) ∧
    (s.engine t.val = 2 → s.get (TL_SEQ_STAT_PARK_WHY t.val) = 3 →
      ∃ u, exec (.tlResume v t) s = .next u ∧ u.engine t.val = 1 ∧ (u.tl t.val).dueAt = s.now + 160 ∧ (u.tl t.val).park = .none)

/-- The trace entry that is selected is presented in the four trace words. A write of FIRE sets the latches it names (R128); a local source
on its way to an input sets that input's latch. -/
def Obligations.TraceAndEventInputs : Prop :=
  ∀ (v : View) (t : Fin 64) (s : State), s.ready = true → directView v = true →
    (∀ e : Fin 256, ∃ u, exec (.traceRdWrite v t e) s = .next u ∧ u.get (TL_TRACE_RD_ENTRY t.val) = e.val ∧
      ∀ i, i < 4 → u.get (TL_TRACE_W_WORD t.val i) = word32 (storeGet (fun _ => 0) (s.tl t.val).trace e.val) i) ∧
    (∀ mask : BitVec 8, ∃ u, exec (.evinFire v t mask) s = .next u ∧ u.get (TL_EVIN_LATCH t.val) = s.get (TL_EVIN_LATCH t.val) ||| mask.toNat ∧
      ∀ a, a ≠ TL_EVIN t.val → u.reg a = s.reg a) ∧
    (∀ j : Fin 8, (t.val, j.val) ∈ s.wires → ∃ u, exec (.eventInputSet t j) s = .next u ∧ u.fbit (TL_EVIN_LATCH t.val) j.val = true ∧
      u.wires = s.wires.erase (t.val, j.val) ∧ ∀ a, a ≠ TL_EVIN t.val → u.reg a = s.reg a)

/-- Segment commands of a ready part, through a view that no rule limits. A prime, with no earlier one still to act, of a streamed segment that
passes its checks begins its fetch, and is rejected while a streamed segment is current; a BREAK is requested; a check runs and ends with
the cause of the first check that fails. -/
def Obligations.SegmentCommandsComplete : Prop :=
  ∀ (v : View) (t : Fin 64) (s : State), s.ready = true → directView v = true →
    (∀ n : Fin 256, (s.tl t.val).primes = [] → s.streamCurrent t.val = false → descCause (s.readDesc t.val n.val) = 0 → (s.readDesc t.val n.val).isStream = true →
      ∃ u, exec (.prime v t n) s = .next u ∧ u.on (TL_STRM_STAT_PRIMED t.val) = true ∧ u.get (TL_STRM_STAT_PRIMED_SEG t.val) = n.val ∧
        (u.strm t.val).seg = some n.val ∧ (u.strm t.val).buf = [] ∧ (u.strm t.val).entered = false) ∧
    (∀ n : Fin 256, (s.tl t.val).primes = [] → s.streamCurrent t.val = true →
      ∃ u, exec (.prime v t n) s = .next u ∧ u.get (TL_STRM_CNT_PRIME_REJ t.val) = min (s.get (TL_STRM_CNT_PRIME_REJ t.val) + 1) 255 ∧ u.streams = s.streams) ∧
    (∃ u, exec (.segBreak v t) s = .next u ∧ u.on (TL_SEG_STAT_BRK_REQ t.val) = true) ∧
    (∀ n : Fin 256, ∃ u, exec (.segCheck v t n) s = .next u ∧ u.on (TL_SEG_CHECK_BUSY t.val) = true ∧ u.get (TL_SEG_CHECK_SEG t.val) = n.val ∧
      ∀ a, a ≠ TL_SEG_CHECK t.val → u.reg a = s.reg a) ∧
    (s.on (TL_SEG_CHECK_BUSY t.val) = true → ∃ u, exec (.segCheckDone t) s = .next u ∧ u.on (TL_SEG_CHECK_BUSY t.val) = false ∧
      u.get (TL_SEG_CHECK_RESULT t.val) = descCause (s.readDesc t.val (s.get (TL_SEG_CHECK_SEG t.val))) ∧ ∀ a, a ≠ TL_SEG_CHECK t.val → u.reg a = s.reg a)

/-- The level change at the head of the queue, here one word for a driver or threshold level of a pin, acts at its instant (`lvlInstant`: 16
cycles after its vector's issue, not before 32 cycles after the one before it) and joins a done log that has room. A write of a timing-set
word that passes the check is stored; one that fails leaves the set and reports the reason and the word. -/
def Obligations.LevelsAndTimingSetsChange : Prop :=
  (∀ (t : Fin 64) (e : LvlEntry) (r : List LvlEntry) (w : Nat) (s : State), (s.lvl t.val).queue = e :: r → e.words = [w] →
     8 ≤ bits w 31 24 → bits w 31 24 < 0x30 → bits w 23 16 = 0 → (s.lvl t.val).done.length < 16 →
     ∃ u, exec (.levelApply t) s = .next u ∧ u.get (PN_LVL_CODE (8 * t.val + bits w 31 24 % 8) ((bits w 31 24 - 8) / 8)) = bits w 15 0 ∧
       (u.lvl t.val).queue = r ∧ (u.lvl t.val).done = (s.lvl t.val).done ++ [e.entry * 2 ^ 24 + e.vidx % 65536] ∧
       u.ticks = max s.ticks (s.lvlInstant t.val e / 1280)) ∧
  (∀ (v : View) (t k : Fin 64) (off : Fin 512) (w : Word) (s : State), s.ready = true → off.val % 4 = 0 → off.val ≠ 8 → State.timingWord off.val = true →
     (s.timingReason t.val k.val off.val w.toNat = 0 → ∃ u, exec (.timingSetWrite v t k off w) s = .next u ∧
       u.reg (tsAddr t.val k.val off.val) = w ∧ ∀ a, a ≠ tsAddr t.val k.val off.val → u.reg a = s.reg a) ∧
     (s.timingReason t.val k.val off.val w.toNat ≠ 0 → ∃ u, exec (.timingSetWrite v t k off w) s = .next u ∧
       bits (u.reg (tsAddr t.val k.val 8)).toNat 31 31 = 1 ∧ bits (u.reg (tsAddr t.val k.val 8)).toNat 30 28 = s.timingReason t.val k.val off.val w.toNat ∧
       bits (u.reg (tsAddr t.val k.val 8)).toNat 8 0 = off.val ∧ ∀ a, a ≠ tsAddr t.val k.val 8 → u.reg a = s.reg a))

/-! ### Pins -/

/-- Pins of a ready part, written through a view that no rule limits. PN_CTRL takes its driver, clamp and comparator fields; a comparator mode that
changes settles; a change of SELFTEST is turned away with WR_BUSY while the tiller runs. A level write takes its code where the level queue
has not reached that setting in its cycle, and changes no other register of a pin whose inputs no self-check ties; a clamp code less than 0.5 V
from its partner's is turned away. PN_PPMU_CTRL takes mode and range. GL_PIN_LPBK takes its modes unless the tiller runs. A crossing of a
comparator that runs, which is the command's operand, sets its output, complemented under SWAP, unless a mode change settles or a self-check ties
the inputs, and then changes no register (log entry 24); when a mode change settles the outputs follow their inputs, and an input inside the band reads 0 and is unresolved. A driver that
drives the ball and is in limit, with line 64 + t of its tiller where ILIM_ERR asks for it (log entry 28), and a PPMU that forces and is at its
limit, show in the pin's status. -/
def Obligations.PinsTakeWritesAndShowEvents : Prop :=
  (∀ (v : View) (g : Fin 512) (w : Word) (s : State), s.ready = true → directView v = true →
     (s.power.noSafe = false → bits w.toNat 3 2 ≤ 2 → ∃ u, exec (.pnCtrlWrite v g w) s = .next u ∧
       u.get (PN_CTRL_DRV_EN g.val) = bits w.toNat 0 0 ∧ u.get (PN_CTRL_CLAMP_EN g.val) = bits w.toNat 1 1 ∧
       u.get (PN_CTRL_CMP_MODE g.val) = bits w.toNat 3 2 ∧
       (bits w.toNat 3 2 ≠ s.get (PN_CTRL_CMP_MODE g.val) → u.on (PN_STAT_MODE_SETTLING g.val) = true)) ∧
     (s.engine (g.val / 8) = 1 ∨ s.engine (g.val / 8) = 3 → bits w.toNat 11 9 ≤ 5 → bits w.toNat 11 9 ≠ s.get (PN_CTRL_SELFTEST g.val) →
       ∃ u, exec (.pnCtrlWrite v g w) s = .next u ∧ u.get (PN_CTRL_SELFTEST g.val) = s.get (PN_CTRL_SELFTEST g.val) ∧ u.on (PN_STAT_WR_BUSY g.val) = true) ∧
     (∀ (k : Fin 8) (code : BitVec 16), s.queueStands (g.val / 8) (8 + 8 * k.val + g.val % 8) = false →
       (k.val < 5 → ∃ u, exec (.levelRegWrite v g k code) s = .next u ∧ u.get (PN_LVL_CODE g.val k.val) = code.toNat ∧
         (s.tiedTo g.val = none → ∀ a, a ≠ PN_LVL g.val k.val → u.reg a = s.reg a)) ∧
       (k.val = 5 → State.clampsOk code.toNat (s.get (PN_LVL_CODE g.val 6)) = true → ∃ u, exec (.levelRegWrite v g k code) s = .next u ∧
         u.get (PN_LVL_CODE g.val 5) = code.toNat ∧ (s.tiedTo g.val = none → ∀ a, a ≠ PN_LVL g.val 5 → u.reg a = s.reg a)) ∧
       (k.val = 6 → State.clampsOk (s.get (PN_LVL_CODE g.val 5)) code.toNat = true → ∃ u, exec (.levelRegWrite v g k code) s = .next u ∧
         u.get (PN_LVL_CODE g.val 6) = code.toNat ∧ (s.tiedTo g.val = none → ∀ a, a ≠ PN_LVL g.val 6 → u.reg a = s.reg a)) ∧
       (k.val = 7 → ∃ u, exec (.levelRegWrite v g k code) s = .next u ∧ u.get (PN_PPMU_FORCE_CODE g.val) = code.toNat ∧
         ∀ a, a ≠ PN_PPMU_FORCE g.val → u.reg a = s.reg a)) ∧
     (∀ (k : Fin 8) (code : BitVec 16), k.val < 5 → s.queueStands (g.val / 8) (8 + 8 * k.val + g.val % 8) = true →
       exec (.levelRegWrite v g k code) s = .next s) ∧
     (∀ code : BitVec 16,
       (State.clampsOk code.toNat (s.get (PN_LVL_CODE g.val 6)) = false → ∃ u, exec (.levelRegWrite v g 5 code) s = .next u ∧
         u.on (PN_STAT_CLAMP_REJ g.val) = true ∧ ∀ a, a ≠ PN_STAT g.val → u.reg a = s.reg a) ∧
       (State.clampsOk (s.get (PN_LVL_CODE g.val 5)) code.toNat = false → ∃ u, exec (.levelRegWrite v g 6 code) s = .next u ∧
         u.on (PN_STAT_CLAMP_REJ g.val) = true ∧ ∀ a, a ≠ PN_STAT g.val → u.reg a = s.reg a)) ∧
     (bits w.toNat 2 0 ≤ 4 → bits w.toNat 6 4 ≤ 4 → ∃ u, exec (.ppmuCtrlWrite v g w) s = .next u ∧
       u.get (PN_PPMU_CTRL_MODE g.val) = bits w.toNat 2 0 ∧ u.get (PN_PPMU_CTRL_RANGE g.val) = bits w.toNat 6 4) ∧
     (∀ t : Fin 64, ¬(s.engine t.val = 1 ∨ s.engine t.val = 3) → ∃ u, exec (.pinLoopbackWrite v t w) s = .next u ∧
       (∀ p, p < 8 → u.get (GL_PIN_LPBK_MODE t.val p) = bits w.toNat (2 * p + 1) (2 * p)) ∧ ∀ a, a ≠ GL_PIN_LPBK t.val → u.reg a = s.reg a) ∧
     (∀ t : Fin 64, s.engine t.val = 1 ∨ s.engine t.val = 3 → ∃ u, exec (.pinLoopbackWrite v t w) s = .next u ∧ u.on (GL_PIN_LPBK_WR_BUSY t.val) = true ∧
       (∀ p, p < 8 → u.get (GL_PIN_LPBK_MODE t.val p) = s.get (GL_PIN_LPBK_MODE t.val p)) ∧ ∀ a, a ≠ GL_PIN_LPBK t.val → u.reg a = s.reg a)) ∧
  (∀ (g : Fin 512) (s : State),
     (∀ (above : Bool) (at_ : Nat), s.on (PN_STAT_MODE_SETTLING g.val) = false → s.tiedTo g.val = none →
       (s.comparatorRuns g.val true = true → ∃ u, exec (.comparatorCrossing g true above at_) s = .next u ∧
         u.on (PN_CMP_ABOVE_H g.val) = (above != s.swapped g.val) ∧ u.on (PN_CMP_ABOVE_L g.val) = s.on (PN_CMP_ABOVE_L g.val) ∧
         u.on (PN_STAT_UNRES_HI g.val) = false ∧ u.ticks = max s.ticks (at_ / 1280)) ∧
       (s.comparatorRuns g.val false = true → ∃ u, exec (.comparatorCrossing g false above at_) s = .next u ∧
         u.on (PN_CMP_ABOVE_L g.val) = (above != s.swapped g.val) ∧ u.on (PN_CMP_ABOVE_H g.val) = s.on (PN_CMP_ABOVE_H g.val) ∧
         u.on (PN_STAT_UNRES_LO g.val) = false ∧ u.ticks = max s.ticks (at_ / 1280))) ∧
     (∀ (high above : Bool) (at_ : Nat), s.on (PN_STAT_MODE_SETTLING g.val) = true ∨ s.tiedTo g.val ≠ none →
       ∃ u, exec (.comparatorCrossing g high above at_) s = .next u ∧ u.regs = s.regs) ∧
     (∀ hi lo : CmpInput, ∃ u, exec (.cmpModeSettled g hi lo) s = .next u ∧ u.on (PN_STAT_MODE_SETTLING g.val) = false ∧
       u.on (PN_CMP_ABOVE_H g.val) = (s.inputOf g.val true hi == .above) ∧ u.on (PN_CMP_ABOVE_L g.val) = (s.inputOf g.val false lo == .above) ∧
       u.on (PN_STAT_UNRES_HI g.val) = (s.inputOf g.val true hi == .inside) ∧ u.on (PN_STAT_UNRES_LO g.val) = (s.inputOf g.val false lo == .inside)) ∧
     (((s.catchUp g.val s.now).ballDrive g.val).isSome = true → s.on (PN_STAT_ILIM_NOW g.val) = false →
       ∃ u, exec (.driverIlim g) s = .next u ∧ u.on (PN_STAT_ILIM g.val) = true ∧ u.on (PN_STAT_ILIM_NOW g.val) = true ∧
         u.get (PN_CNT_ILIM_EVENTS g.val) = min (s.get (PN_CNT_ILIM_EVENTS g.val) + 1) 65535 ∧
         (s.on (PN_CTRL_ILIM_ERR g.val) = true → 64 + g.val / 8 ∈ u.lines)) ∧
     (s.ppmuForces g.val ≠ .nothing →
       ∃ u, exec (.ppmuLimit g) s = .next u ∧ u.on (PN_STAT_PPMU_LIM g.val) = true ∧ ∀ a, a ≠ PN_STAT g.val → u.reg a = s.reg a))

/-! ### Samples, capture and fail queues -/

/-- The one sample due of a queue is delivered to the capture unit at the later of its own completion and the delivery before it, once its compares
have resolved: the first of two leaves the second in the queue, the last one takes the issue out of it and forms its fail record. With the
capture unit IDLE and the mask test off, a failing issue of one sample that no flush covers forms a record: it is counted and enters a FIFO that
has room. That a sample without a strobe is complete at the period end is the model's choice (log entry 25). -/
def Obligations.SamplesAreDelivered : Prop :=
  ∀ (t : Fin 64) (c : Cmp) (s : State), (s.cmp t.val).queue = [.sample c] → c.capture = true → (c.sent = true → c.twoSamples = true) →
    let inst := max (c.completeAt c.sent) (s.cmp t.val).sentAt
    let v := (s.drainAll t.val).advInst inst
    let zs := c.strobes.map (fun z => if z.second == c.sent then v.takeStrobe t.val z else z)
    let d := v.addressed t.val { c with strobes := zs }
    c.strobes.all (fun z => !z.isOpen || decide (inst < z.solveAt)) = true →
    (c.twoSamples = true → c.sent = false → exec (.sampleDeliver t) s =
      .next ((v.setCmp t.val { v.cmp t.val with queue := [.sample { c with strobes := zs, sent := true }], sentAt := inst }).deliverSample t.val d false inst)) ∧
    (c.twoSamples = false ∨ c.sent = true → exec (.sampleDeliver t) s =
      .next ((((v.setCmp t.val { v.cmp t.val with queue := [], sentAt := inst }).formRecord t.val d).deliverSample t.val d c.sent inst).drainAll t.val)) ∧
    (s.get (TL_CAP_STAT_STATE t.val) = 0 → s.on (TL_MASK_CTRL_EN t.val) = false → c.twoSamples = false → (sampleOf d false).fail ≠ 0 →
      c.flushed = false → s.fifoFill t.val < 512 →
      ∃ u e, exec (.sampleDeliver t) s = .next u ∧ u.get (TL_FQ_RECS_RECS t.val) = min (s.get (TL_FQ_RECS_RECS t.val) + 1) (2 ^ 32 - 1) ∧
        (u.fq t.val).entries = (s.fq t.val).entries ++ [e] ∧ (u.cmp t.val).queue = [])

/-- FLUSH empties the FIFO of a tiller that is not active into one FLUSHED record and is pending in one that is; a change of DEST likewise acts at
once or is pending; one already bound to the record of a flush waits for that record (log entry 25). ARM arms an idle or done unit, empty, and is turned away with ARM_BUSY by another; ABORT without AUTO ends an acquisition
as DONE with its cause, and of a ring keeps at most the last PRE samples (R217), with PRE as it then stands, which is the model's choice (log
entry 25). -/
def Obligations.QueueAndCaptureCommandsComplete : Prop :=
  ∀ (v : View) (t : Fin 64) (s : State), s.ready = true → directView v = true →
    (s.active t.val = false → ∃ u e, exec (.fqFlush v t) s = .next u ∧ (u.fq t.val).entries = [⟨e, false⟩] ∧ bits e 121 120 = 2 ∧ bits e 90 88 = 7 ∧
      bits e 91 91 = 1 ∧ (u.fq t.val).run = none) ∧
    (s.active t.val = true → ∃ u, exec (.fqFlush v t) s = .next u ∧ u.on (TL_FQ_STAT_FLUSH_PEND t.val) = true ∧ u.fifos = s.fifos) ∧
    (∀ host : Bool, s.active t.val = false → s.on (TL_FQ_CTRL_DEST t.val) ≠ host → s.boundDest t.val ≠ some (b2n host) →
      ∃ u, exec (.fqDestWrite v t host) s = .next u ∧ u.on (TL_FQ_STAT_DEST_NOW t.val) = host ∧ u.on (TL_FQ_CTRL_DEST t.val) = host) ∧
    (∀ host : Bool, s.on (TL_FQ_CTRL_DEST t.val) ≠ host → s.boundDest t.val = some (b2n host) →
      ∃ u, exec (.fqDestWrite v t host) s = .next u ∧ u.on (TL_FQ_STAT_DEST_NOW t.val) = s.on (TL_FQ_STAT_DEST_NOW t.val) ∧
        u.on (TL_FQ_STAT_DEST_PEND t.val) = (s.on (TL_FQ_STAT_DEST_NOW t.val) != host) ∧ u.on (TL_FQ_CTRL_DEST t.val) = host) ∧
    (∀ host : Bool, s.active t.val = true → s.on (TL_FQ_CTRL_DEST t.val) ≠ host → s.on (TL_FQ_STAT_DEST_NOW t.val) ≠ host → s.boundDest t.val ≠ some (b2n host) →
      ∃ u, exec (.fqDestWrite v t host) s = .next u ∧ u.on (TL_FQ_STAT_DEST_NOW t.val) = s.on (TL_FQ_STAT_DEST_NOW t.val) ∧
        u.on (TL_FQ_STAT_DEST_PEND t.val) = true ∧ u.on (TL_FQ_CTRL_DEST t.val) = host) ∧
    (s.get (TL_CAP_STAT_STATE t.val) ≠ 1 → s.get (TL_CAP_STAT_STATE t.val) ≠ 2 → ∃ u, exec (.capArm v t) s = .next u ∧
      u.get (TL_CAP_STAT_STATE t.val) = 1 ∧ u.get (TL_CAP_STAT_END_WHY t.val) = 0 ∧ (u.cap t.val).entries = [] ∧ u.reg (TL_TRIG_STATUS t.val) = 0) ∧
    (s.get (TL_CAP_STAT_STATE t.val) = 1 ∨ s.get (TL_CAP_STAT_STATE t.val) = 2 →
      (∃ u, exec (.capArm v t) s = .next u ∧ u.on (TL_CAP_STAT_ARM_BUSY t.val) = true ∧ u.captures = s.captures) ∧
      (s.on (TL_CAP_CTRL_AUTO t.val) = false → ∃ u, exec (.capAbort v t) s = .next u ∧ u.get (TL_CAP_STAT_STATE t.val) = 3 ∧
        u.get (TL_CAP_STAT_END_WHY t.val) = 6 ∧ (u.cap t.val).entries = if s.get (TL_CAP_STAT_STATE t.val) = 1 then
          (s.cap t.val).entries.drop ((s.cap t.val).entries.length - s.get (TL_CAP_LEN_PRE t.val)) else (s.cap t.val).entries))

/-! ### Micro-operations of the threshers -/

namespace Sys2Proof.Machine

/-- Thresher i is inside a routine, before its commit or at most 255 microwords after it. -/
def State.inRoutine (s : State) (i : Nat) : Bool := s.thState i == 2 || (s.thState i == 3 && decide ((s.thr i).after < 256))

end Sys2Proof.Machine

/-- Sequence micro-ops: NEXT, BR, BRC, BRNC, CALLU and RETU choose the next index; a fifth call and a return without one fault. COMMIT
and COMMITK wait for room, then write shadow and cursor and enter POST, with or without taking the record; END releases lock and reservations
and, where the routine holds no reset, leaves the thresher IDLE, or STOPPED after a held stop; FENCE and WAITL wait; STOPU faults. Before the
commit alone stand COMMIT, COMMITK, FENCE and WAITL: in POST they fault, as does a condition that is not in the list (R236). What BRC and BRNC
test of a buffer whose read is under way, or of a record that is not there, is free (log entry 9). -/
def Obligations.SequenceMicroOpsSteerTheRoutine : Prop :=
  ∀ (i : Fin 32) (s : State),
    let x := s.thr i.val
    let next := (x.upc + 1) % 16384
    (s.inRoutine i.val = true →
      (∃ u, exec (.uNext i) s = .next u ∧ (u.thr i.val).upc = next ∧ (u.thr i.val).g = x.g) ∧
      (∀ target, ∃ u, exec (.uBr i target) s = .next u ∧ (u.thr i.val).upc = target.toNat) ∧
      (∀ (cond : Fin 64) (buf : Fin 16) (target : BitVec 14), cond.val < 6 ∨ cond.val = 8 →
        let taken := match cond.val with
          | 0 => x.z | 1 => !x.z | 2 => x.n | 3 => !x.n | 4 => x.c | 5 => !x.c | _ => x.fresh
        (∃ u, exec (.uBrc i cond buf target) s = .next u ∧ (u.thr i.val).upc = if taken then target.toNat else next) ∧
        (∃ u, exec (.uBrnc i cond buf target) s = .next u ∧ (u.thr i.val).upc = if taken then next else target.toNat)) ∧
      (∀ (buf : Fin 16) (target : BitVec 14), let y := s.lineBuf i.val buf.val
        (y.line = none →
          (∃ u, exec (.uBrc i 9 buf target) s = .next u ∧ (u.thr i.val).upc = if y.poison then target.toNat else next) ∧
          (∃ u, exec (.uBrnc i 9 buf target) s = .next u ∧ (u.thr i.val).upc = if y.poison then next else target.toNat)) ∧
        (∀ e l, x.fifo = e :: l →
          (∃ u, exec (.uBrc i 10 buf target) s = .next u ∧ (u.thr i.val).upc = if e.data.testBit 125 then target.toNat else next) ∧
          (∃ u, exec (.uBrnc i 10 buf target) s = .next u ∧ (u.thr i.val).upc = if e.data.testBit 125 then next else target.toNat)) ∧
        ∀ k : Fin 64, k = 9 ∨ k = 10 →
          (∃ u, exec (.uBrc i k buf target) s = .next u ∧ ((u.thr i.val).upc = target.toNat ∨ (u.thr i.val).upc = next)) ∧
          (∃ u, exec (.uBrnc i k buf target) s = .next u ∧ ((u.thr i.val).upc = target.toNat ∨ (u.thr i.val).upc = next))) ∧
      (∀ (cond : Fin 64) (buf : Fin 16) (target : BitVec 14), cond.val = 6 ∨ cond.val = 7 ∨ 10 < cond.val →
        exec (.uBrc i cond buf target) s = .next (s.thFault i.val 2) ∧ exec (.uBrnc i cond buf target) s = .next (s.thFault i.val 2)) ∧
      (∀ target, x.stack.length < 4 → ∃ u, exec (.uCallu i target) s = .next u ∧ (u.thr i.val).upc = target.toNat ∧ (u.thr i.val).stack = next :: x.stack) ∧
      (∀ target, 4 ≤ x.stack.length → exec (.uCallu i target) s = .next (s.thFault i.val 7)) ∧
      (∀ r l, x.stack = r :: l → ∃ u, exec (.uRetu i) s = .next u ∧ (u.thr i.val).upc = r % 16384 ∧ (u.thr i.val).stack = l) ∧
      (x.stack = [] → exec (.uRetu i) s = .next (s.thFault i.val 7)) ∧
      (∃ u, exec (.uEnd i) s = .next u ∧ (u.thr i.val).lock = none ∧ (u.thr i.val).reserved = 0 ∧ (u.thr i.val).heldTillers = [] ∧
        (x.heldTillers = [] → u.thState i.val = if x.heldStop then 0 else 1)) ∧
      (∃ u, exec (.uStopu i) s = .next u ∧ u.thState i.val = 4 ∧ 128 + i.val ∈ u.lines ∧
        (x.heldTillers = [] → u.get (TH_FAULT_CAUSE i.val) = 9))) ∧
    (s.thState i.val = 3 → exec (.uFence i) s = .next (s.thFault i.val 3) ∧ (∀ b, exec (.uWaitl i b) s = .next (s.thFault i.val 3)) ∧
      ∀ n : Fin 32, n.val ≤ 16 → exec (.uCommit i n) s = .next (s.thFault i.val 3) ∧ exec (.uCommitk i n) s = .next (s.thFault i.val 3)) ∧
    (s.thState i.val = 2 →
      (∀ n : Fin 32, n.val ≤ 16 → s.thWrites i.val + n.val ≤ 16 →
        (∃ u, exec (.uCommit i n) s = .next u ∧ u.thState i.val = 3 ∧ (u.thr i.val).allowed = n.val ∧ (u.thr i.val).after = 0 ∧ (u.thr i.val).upc = next ∧
          (u.thr i.val).cursor = x.curw.getD x.cursor ∧ (u.thr i.val).fifo = x.fifo.tail) ∧
        (∃ u, exec (.uCommitk i n) s = .next u ∧ u.thState i.val = 3 ∧ (u.thr i.val).allowed = n.val ∧ (u.thr i.val).upc = next ∧
          (u.thr i.val).cursor = x.curw.getD x.cursor ∧ (u.thr i.val).fifo = x.fifo ∧
          ∀ j, x.lock = some j → ∀ k, k < 64 → u.byteAt (State.ctxAddr i.val j + k) = BitVec.ofNat 8 (bytesOf x.shadow k 1))) ∧
      (∀ n : Fin 32, n.val ≤ 16 → 16 < s.thWrites i.val + n.val → exec (.uCommit i n) s = .next s ∧ exec (.uCommitk i n) s = .next s) ∧
      (s.thReads i.val = 0 → x.posted = [] → ∃ u, exec (.uFence i) s = .next u ∧ (u.thr i.val).upc = next) ∧
      (s.thReads i.val ≠ 0 ∨ x.posted ≠ [] → exec (.uFence i) s = .next s) ∧
      (∀ b : Fin 16, (s.lineBuf i.val b.val).line = none → ∃ u, exec (.uWaitl i b) s = .next u ∧ (u.thr i.val).upc = next) ∧
      (∀ b : Fin 16, (s.lineBuf i.val b.val).line ≠ none → exec (.uWaitl i b) s = .next s))

/-- Arithmetic micro-ops write their result to g[DST], but not to g0, which reads 0, and its sign and zero to the flags; MOV sets no flags and CMP
writes no register.
Where the spec states no result (a shift by 32 or more, a field outside the word, an order that the signs decide, which operand an op of one
operand takes) the value is free: the op completes all the same. The free values are those of log entry 9. -/
def Obligations.ArithmeticMicroOpsCompute : Prop :=
  ∀ (i : Fin 32) (o : AluOps) (s : State), s.inRoutine i.val = true →
    let held := fun (r : Nat) => if o.dst = 0 then 0 else r % 2 ^ 32
    let a := s.gReg i.val o.srca.val
    let b := if o.bimm then o.imm.toNat else s.gReg i.val o.srcb.val
    let one := fun (op : Nat) => if Config.unaryOperand op then b else a
    let writes := fun (c : Instr) (r : Nat) => ∃ u, exec c s = .next u ∧ u.gReg i.val o.dst.val = held r ∧
      (∀ k, k ≠ o.dst.val → u.gReg i.val k = s.gReg i.val k) ∧ (u.thr i.val).z = decide (r % 2 ^ 32 = 0) ∧ (u.thr i.val).n = r.testBit 31 ∧
      (u.thr i.val).upc = ((s.thr i.val).upc + 1) % 16384
    let completes := fun (c : Instr) => ∃ u, exec c s = .next u ∧ (∀ k, k ≠ o.dst.val → u.gReg i.val k = s.gReg i.val k) ∧
      (u.thr i.val).upc = ((s.thr i.val).upc + 1) % 16384
    (∃ u, exec (.aluNop i) s = .next u ∧ (u.thr i.val).g = (s.thr i.val).g ∧ (u.thr i.val).upc = ((s.thr i.val).upc + 1) % 16384) ∧
    (∃ u, exec (.aluMov i o) s = .next u ∧ u.gReg i.val o.dst.val = held (one 1) ∧ (∀ k, k ≠ o.dst.val → u.gReg i.val k = s.gReg i.val k) ∧
      (u.thr i.val).z = (s.thr i.val).z ∧ (u.thr i.val).n = (s.thr i.val).n ∧ (u.thr i.val).c = (s.thr i.val).c) ∧
    writes (.aluAdd i o) ((a + b) % 2 ^ 32) ∧
    (∃ u, exec (.aluAdd i o) s = .next u ∧ (u.thr i.val).c = decide (2 ^ 32 ≤ a + b)) ∧
    writes (.aluSub i o) ((a + 2 ^ 32 - b) % 2 ^ 32) ∧
    writes (.aluAnd i o) (a &&& b) ∧ writes (.aluOr i o) (a ||| b) ∧ writes (.aluXor i o) (a ^^^ b) ∧
    (b < 32 → writes (.aluShl i o) (a <<< b % 2 ^ 32) ∧ writes (.aluShr i o) (a >>> b)) ∧
    (1 ≤ bits b 10 5 → b % 32 + bits b 10 5 ≤ 32 → writes (.aluExt i o) (bits a (b % 32 + bits b 10 5 - 1) (b % 32)) ∧
      writes (.aluIns i o) (insert32 (s.gReg i.val o.dst.val) (b % 32 + bits b 10 5 - 1) (b % 32) a)) ∧
    writes (.aluPopc i o) (popCount 32 (one 11)) ∧ writes (.aluCtz i o) (lowestBit 32 (one 12)) ∧
    (a.testBit 31 = b.testBit 31 → writes (.aluMin i o) (min a b) ∧ writes (.aluMax i o) (max a b)) ∧
    (∃ u, exec (.aluCmp i o) s = .next u ∧ (∀ k, u.gReg i.val k = s.gReg i.val k) ∧ (u.thr i.val).z = decide ((a + 2 ^ 32 - b) % 2 ^ 32 = 0) ∧
      (u.thr i.val).n = ((a + 2 ^ 32 - b) % 2 ^ 32).testBit 31) ∧
    completes (.aluShl i o) ∧ completes (.aluShr i o) ∧ completes (.aluExt i o) ∧ completes (.aluIns i o) ∧ completes (.aluMin i o) ∧ completes (.aluMax i o)

/-- Memory and context micro-ops: LDL reads a line before the commit, STL posts one after it; LDW, STW and BSET work on a buffer that no
read is filling; a result for g0, which reads 0, is discarded; LDCTX locks a context and copies it, makes it anew or faults; the rest work on the shadow. -/
def Obligations.MemoryAndContextMicroOpsAct : Prop :=
  ∀ (i : Fin 32) (o : MemOps) (c : CtxOps) (s : State),
    let x := s.thr i.val
    let y := s.lineBuf i.val o.buf.val
    let line := unsigned 28 (Int.ofNat (s.gReg i.val o.ma.val) + signed 16 o.moff.toNat)
    let k := o.moff.toNat % 16
    let g := s.gReg i.val c.creg.val
    let n := 2 ^ c.cw.val
    (s.thState i.val = 2 → y.line = none → ∃ u, exec (.mLdl i o) s = .next u ∧ (u.lineBuf i.val o.buf.val).line = some line ∧
      ∀ b, b ≠ o.buf.val → u.lineBuf i.val b = s.lineBuf i.val b) ∧
    (s.thState i.val = 3 → x.after < 256 → 1 ≤ x.allowed → y.line = none → ∃ u, exec (.mStl i o) s = .next u ∧
      (u.thr i.val).posted = x.posted ++ [.line line y.data y.poison x.issued] ∧ (u.thr i.val).allowed = x.allowed - 1) ∧
    (s.inRoutine i.val = true → y.line = none → ∃ u, exec (.mLdw i o) s = .next u ∧ u.gReg i.val o.md.val = if o.md = 0 then 0 else bytesOf y.data (4 * k) 4) ∧
    (s.inRoutine i.val = true → s.gReg i.val o.md.val < 2 ^ 32 → ∃ u, exec (.mStw i o) s = .next u ∧
      ∀ j, j < 16 → bytesOf (u.lineBuf i.val o.buf.val).data (4 * j) 4 = if j = k then s.gReg i.val o.md.val else bytesOf y.data (4 * j) 4) ∧
    (s.inRoutine i.val = true → ∃ u, exec (.mBset i o) s = .next u ∧
      ∀ j, (u.lineBuf i.val o.buf.val).data.testBit j = (y.data.testBit j || decide (j = s.gReg i.val o.md.val % 512))) ∧
    (s.thState i.val = 2 → s.on FC_INJ_STAT_ARMED = false → s.single = [] → s.uncorr = [] → (s.thr (State.otherTh i.val)).lock ≠ some (g % 4096) →
      let m := (s.releaseLock i.val).loadLE (State.ctxAddr i.val (g % 4096)) 64
      let valid := (bytesOf m 3 2).testBit 0 && !(bytesOf m 3 2).testBit 1
      (valid = true → bytesOf m 0 3 = bits g 29 12 → ∃ u, exec (.mLdctx i c) s = .next u ∧ (u.thr i.val).lock = some (g % 4096) ∧
        (u.thr i.val).shadow = m ∧ (u.thr i.val).fresh = false) ∧
      (valid = false → ∃ u, exec (.mLdctx i c) s = .next u ∧ (u.thr i.val).lock = some (g % 4096) ∧
        (u.thr i.val).shadow = bits g 29 12 + 2 ^ 24 ∧ (u.thr i.val).fresh = true) ∧
      (valid = true → bytesOf m 0 3 ≠ bits g 29 12 → ∃ u, exec (.mLdctx i c) s = .next u ∧ u.thState i.val = 4 ∧ u.get (TH_FAULT_CAUSE i.val) = 5)) ∧
    (s.thState i.val = 2 → (s.thr (State.otherTh i.val)).lock = some (g % 4096) → exec (.mLdctx i c) s = .next s) ∧
    (s.inRoutine i.val = true → c.cw.val < 3 → c.coff.val + n ≤ 64 → ∃ u, exec (.mCrd i c) s = .next u ∧
      u.gReg i.val c.creg.val = if c.creg = 0 then 0 else bytesOf x.shadow c.coff.val n) ∧
    (s.thState i.val = 2 → c.cw.val < 3 → c.coff.val + n ≤ 64 → ∃ u, exec (.mCwr i c) s = .next u ∧ ∀ j, j < 64 → bytesOf (u.thr i.val).shadow j 1 =
      if c.coff.val ≤ j ∧ j < c.coff.val + n then g / 256 ^ (j - c.coff.val) % 256 else bytesOf x.shadow j 1) ∧
    (s.inRoutine i.val = true → c.coff.val + 16 ≤ 64 → ∃ u, exec (.mCfind i c) s = .next u ∧ u.gReg i.val c.creg.val < 256 ∧
      ∀ j, j < 8 → (u.gReg i.val c.creg.val).testBit j = (c.creg != 0 && decide (bytesOf x.shadow (c.coff.val + 2 * j) 2 = g % 2 ^ 16))) ∧
    (s.thState i.val = 2 → ∃ u, exec (.mCincs i c) s = .next u ∧ ∀ j, j < 64 → bytesOf (u.thr i.val).shadow j 1 =
      if j = c.coff.val then min (bytesOf x.shadow j 1 + 1) 255 else bytesOf x.shadow j 1) ∧
    (s.thState i.val = 2 → c.coff.val + g % 64 / 8 < 64 →
      let b := 8 * c.coff.val + g % 64
      ∃ u, exec (.mCtsb i c) s = .next u ∧ u.gReg i.val c.creg.val = (if c.creg = 0 then 0 else b2n (x.shadow.testBit b)) ∧
        ∀ j, j < 512 → (u.thr i.val).shadow.testBit j = (x.shadow.testBit j || decide (j = b))) ∧
    (s.thState i.val = 2 → ∃ u, exec (.mCzero i) s = .next u ∧ (u.thr i.val).shadow = x.shadow % 2 ^ 24)

/-- Input, scratch and output micro-ops: reads of the head record, its tag, scratch, the cursor and the thresher's values, discarded for g0; writes of
scratch, of a ring buffer and of the next cursor; reservations of ring entries, which wait for space; posted entries and notices
after the commit. -/
def Obligations.InputAndOutputMicroOpsAct : Prop :=
  ∀ (i : Fin 32) (o : IoOps) (s : State),
    let x := s.thr i.val
    let m := o.iimm.toNat
    let d := s.gReg i.val o.id.val
    let a := s.gReg i.val o.ia.val
    let held := fun (r : Nat) => if o.id = 0 then 0 else r
    let scratch := fun (z : Thresher) (k : Nat) => storeGet (State.wildScratchWord z.wildScratch) z.scratch k
    (s.inRoutine i.val = true →
      (∀ e r, x.fifo = e :: r → ∃ u, exec (.mInrd i o) s = .next u ∧
        u.gReg i.val o.id.val = held ((if m.testBit 2 then State.tagWord e else word32 e.data (m % 4)) % 2 ^ 32)) ∧
      (s.on FC_INJ_STAT_ARMED = false → ∃ u, exec (.mSrd i o) s = .next u ∧ u.gReg i.val o.id.val = held (scratch x ((m + a) % 1024) % 2 ^ 32)) ∧
      (∃ u, exec (.mSwr i o) s = .next u ∧ ∀ k, scratch (u.thr i.val) k = if k = (m + a) % 1024 then d else scratch x k) ∧
      (d < 2 ^ 32 → ∃ u, exec (.mRput i o) s = .next u ∧ ∀ j, j < 16 → bytesOf (u.ringBuf i.val (m / 16 % 4)) (4 * j) 4 =
        if j = m % 16 then d else bytesOf (s.ringBuf i.val (m / 16 % 4)) (4 * j) 4) ∧
      (∃ u, exec (.mCurr i o) s = .next u ∧ u.gReg i.val o.id.val = held (x.cursor % 2 ^ 32)) ∧
      (m = 0 → ∃ u, exec (.mStat i o) s = .next u ∧ u.gReg i.val o.id.val = held (16 * s.get LK_MESH_POS_Y + s.get LK_MESH_POS_X)) ∧
      (m = 1 → ∃ u, exec (.mStat i o) s = .next u ∧ u.gReg i.val o.id.val = held i.val) ∧
      (2 ≤ m → m ≤ 5 → ∃ u, exec (.mStat i o) s = .next u ∧ u.gReg i.val o.id.val =
        held (s.get (SH_BMAP_HI_BASE_HI (i.val / 2) (m - 2)) * 2 ^ 26 + s.get (SH_BMAP_LO_BASE_LO (i.val / 2) (m - 2))))) ∧
    (s.thState i.val = 2 →
      (1 ≤ m % 8 → m % 8 ≤ 4 → m % 8 ≤ s.ringFree i.val → ∃ u, exec (.mRsv i o) s = .next u ∧ (u.thr i.val).reserved = x.reserved + m % 8) ∧
      (1 ≤ m % 8 → m % 8 ≤ 4 → s.ringFree i.val < m % 8 → ∃ u, exec (.mRsv i o) s = .next u ∧ u.threshers = s.threshers ∧
        u.get (TH_CNT_WAIT_CYCLES i.val) = min (s.get (TH_CNT_WAIT_CYCLES i.val) + 1) (2 ^ 32 - 1)) ∧
      (∃ u, exec (.mCurw i o) s = .next u ∧ (u.thr i.val).curw = some d)) ∧
    (s.thState i.val = 3 → x.after < 256 →
      (1 ≤ x.allowed → 1 ≤ x.reserved → ∃ u, exec (.mRpost i o) s = .next u ∧ (u.thr i.val).reserved = x.reserved - 1 ∧ (u.thr i.val).allowed = x.allowed - 1 ∧
        (u.thr i.val).posted = x.posted ++ [.ring (s.ringBase i.val + x.ringNext) (s.ringBuf i.val (m % 4)) x.issued] ∧
        (u.thr i.val).ringNext = (x.ringNext + 1) % s.ringSize i.val) ∧
      (x.posted ≠ [] → ∃ u, exec (.mNote i o) s = .next u ∧ (u.thr i.val).posted = x.posted ++ [.note d a]))

/-! ### Threshers -/

/-- The crossbar takes a tiller's oldest entry when the tiller is first in turn and the input FIFO has room; a record at the head of an
IDLE thresher enters its entry's routine, here in user microcode; a read fills its buffer once no earlier read of its line is under way;
a posted write becomes visible, ahead of an older one to another line as well, but not before an earlier request to its own line; a
ring entry posted alone advances HEAD. -/
def Obligations.RecordsAndRequestsOfThreshersMove : Prop :=
  ∀ s : State,
    (∀ (t : Fin 64) (e : Entry) (r : List Entry), s.on (TL_FQ_STAT_DEST_NOW t.val) = false → (s.fq t.val).entries = e :: r → (s.fq t.val).run = none → e.poison = false →
      (s.route t.val).plan = [] → (s.route t.val).force < 2 → s.on FC_INJ_STAT_ARMED = false →
      let i := 2 * sheafOf t.val + (s.route t.val).force
      (s.thr (2 * sheafOf t.val + (1 - (s.route t.val).force))).fifo = [] → (s.thr i).fifo.length < 16 →
      (∀ q ∈ sheafTillers (sheafOf t.val), q ≠ t.val → (s.fq q).entries = []) →
      ∃ u, exec (.xbarTake t) s = .next u ∧ (u.fq t.val).entries = r ∧ (u.thr i).fifo = (s.thr i).fifo ++ [⟨e.data, t.val, false, false⟩]) ∧
    (∀ (i : Fin 32) (e : InRec) (r : List InRec), (s.thr i.val).fifo = e :: r → s.thState i.val = 1 → s.builtinEntry i.val (State.entryOf e) = false →
      ∃ u, exec (.thDispatch i) s = .next u ∧ u.thState i.val = 2 ∧ (u.thr i.val).upc = s.get (TH_ENTRY_INDEX i.val (State.entryOf e)) ∧
        (u.thr i.val).cur = e.tiller ∧ (u.thr i.val).lock = none ∧ (u.thr i.val).fifo = (s.thr i.val).fifo ∧ ∀ a, a ≠ TH_STAT i.val → u.reg a = s.reg a) ∧
    (∀ (i : Fin 32) (b : Fin 16) (l : Nat), (s.lineBuf i.val b.val).line = some l → (s.lineBuf i.val b.val).orphan = false → (s.lineBuf i.val b.val).got = false →
      s.answers (64 * l) = false → s.readFirst i.val l (s.lineBuf i.val b.val).at_ = false →
      ∃ u, exec (.thReadComplete i b) s = .next u ∧ (u.lineBuf i.val b.val).line = none ∧
        (u.lineBuf i.val b.val).data = ofBytesLE (s.memBytes (64 * l) 64) ∧ u.regs = s.regs) ∧
    (∀ (i : Fin 32) (b : Fin 16) (l : Nat), (s.lineBuf i.val b.val).line = some l → s.readFirst i.val l (s.lineBuf i.val b.val).at_ = true →
      exec (.thReadComplete i b) s = .next s) ∧
    (∀ (i : Fin 32) (l d n : Nat) (p : Bool), (s.thr i.val).posted = [.line l d p n] → s.readFirst i.val l n = false →
      exec (.thWriteComplete ⟨i, 0⟩) s = .next ((s.modThr i.val (fun x => { x with posted := [] })).memPut (64 * l) (bytesLE 64 d) p)) ∧
    (∀ (i : Fin 32) (l d n l' d' n' : Nat) (p p' : Bool) (r : List Posted), (s.thr i.val).posted = .line l d p n :: .line l' d' p' n' :: r →
      (l = l' ∨ s.readFirst i.val l' n' = true → exec (.thWriteComplete ⟨i, 1⟩) s = .next s) ∧
      (l ≠ l' → s.readFirst i.val l' n' = false → exec (.thWriteComplete ⟨i, 1⟩) s =
        .next ((s.modThr i.val (fun x => { x with posted := .line l d p n :: r })).memPut (64 * l') (bytesLE 64 d') p'))) ∧
    (∀ (i : Fin 32) (l d n : Nat), (s.thr i.val).posted = [.ring l d n] → s.readFirst i.val l n = false → s.ringSize i.val ≤ 65536 →
      ∃ u, exec (.thWriteComplete ⟨i, 0⟩) s = .next u ∧ (u.thr i.val).posted = [] ∧
        u.get (TH_RING_HEAD_INDEX i.val) = (s.get (TH_RING_HEAD_INDEX i.val) + 1) % s.ringSize i.val)

/-- RUN starts dispatching unless the control store is being loaded; clearing it stops an IDLE thresher, abandons a routine
before its commit and is held by one after it; RESTART clears FAULTED; a SOLVE or CLEAR enters the input FIFO as a command
record. The crossbar's routing is written; a tiller moved to the other thresher keeps the move pending while it is active, completes it at
the write when nothing waits, leaves its waiting records to the old thresher otherwise, and a write back cancels it (R231). The control store opens for loading while both threshers are STOPPED, takes words,
is finished with its version and hash; its read port presents the word at its address. -/
def Obligations.ThreshersAndSheavesObeyCommands : Prop :=
  (∀ (v : View) (i : Fin 32) (s : State), s.ready = true → directView v = true →
     (s.on (TH_CTRL_RUN i.val) = false → s.thState i.val = 0 → s.on (SH_UCS_CTRL_LOAD_EN (i.val / 2)) = false →
       ∃ u, exec (.thRun v i) s = .next u ∧ u.thState i.val = 1 ∧ u.on (TH_CTRL_RUN i.val) = true) ∧
     (s.on (TH_CTRL_RUN i.val) = false → s.on (SH_UCS_CTRL_LOAD_EN (i.val / 2)) = true →
       ∃ u, exec (.thRun v i) s = .next u ∧ u.thState i.val = s.thState i.val ∧ u.on (TH_CTRL_RUN i.val) = false) ∧
     (s.on (TH_CTRL_RUN i.val) = true →
       (s.thState i.val = 1 → ∃ u, exec (.thStop v i) s = .next u ∧ u.thState i.val = 0 ∧ u.on (TH_CTRL_RUN i.val) = false) ∧
       (s.thState i.val = 2 → ∃ u, exec (.thStop v i) s = .next u ∧ u.thState i.val = 0 ∧ u.on (TH_CTRL_RUN i.val) = false ∧ (u.thr i.val).lock = none ∧
         (u.thr i.val).fifo = (s.thr i.val).fifo ∧ u.get (TH_CNT_ABN_ABANDONS i.val) = min (s.get (TH_CNT_ABN_ABANDONS i.val) + 1) 65535) ∧
       (s.thState i.val = 3 → ∃ u, exec (.thStop v i) s = .next u ∧ u.thState i.val = 3 ∧ (u.thr i.val).heldStop = true)) ∧
     (s.thState i.val = 4 → ∃ u, exec (.thRestart v i) s = .next u ∧ u.thState i.val = (if s.on (TH_CTRL_RUN i.val) then 1 else 0) ∧
       (u.thr i.val).fifo = (s.thr i.val).fifo) ∧
     (∀ (q : Fin 4), (s.thr i.val).fifo.length < 16 →
       let t := (sheafTillers (i.val / 2)).getD q.val 0
       (s.route t).force = i.val % 2 →
       (∃ u e, exec (.thCmdSolve v i q) s = .next u ∧ (u.thr i.val).fifo = (s.thr i.val).fifo ++ [e] ∧ e.cmd = true ∧ e.tiller = t ∧ e.data % 16 = 1) ∧
       (∃ u e, exec (.thCmdClear v i q) s = .next u ∧ (u.thr i.val).fifo = (s.thr i.val).fifo ++ [e] ∧ e.cmd = true ∧ e.tiller = t ∧ e.data % 16 = 2)) ∧
     (∀ (q : Fin 4), 16 ≤ (s.thr i.val).fifo.length →
       (∃ u, exec (.thCmdSolve v i q) s = .next u ∧ u.on (TH_STAT_CMD_REJ i.val) = true ∧ u.threshers = s.threshers) ∧
       (∃ u, exec (.thCmdClear v i q) s = .next u ∧ u.on (TH_STAT_CMD_REJ i.val) = true ∧ u.threshers = s.threshers))) ∧
  (∀ (v : View) (u : Fin 16) (w : Word) (s : State), s.ready = true → directView v = true →
     (∃ z, exec (.xbarRouteWrite v u w) s = .next z ∧ z.get (SH_XBAR_ROUTE_ROUTE u.val) = w.toNat % 16) ∧
     (let stays := fun t => (s.route t).wait = false ∧ (s.route t).force = b2n (w.toNat.testBit (inSheaf t))
      ((∀ t ∈ sheafTillers u.val, stays t) → ∃ z, exec (.xbarRouteWrite v u w) s = .next z ∧ z.routes = s.routes) ∧
      (∀ q ∈ sheafTillers u.val, (∀ p ∈ sheafTillers u.val, p ≠ q → stays p) → (s.route q).force < 2 →
        let r := s.route q
        let b := b2n (w.toNat.testBit (inSheaf q))
        let becomes := fun (x : Route) (pend : Bool) => ∃ z, exec (.xbarRouteWrite v u w) s = .next z ∧ z.route q = x ∧
          z.fbit (SH_XBAR_ROUTE_PEND u.val) (inSheaf q) = pend
        let waiting := !(s.fq q).entries.isEmpty || s.holdsOf (2 * u.val + r.force) q
        (r.wait = true → b = r.force → becomes { r with wait := false } (!r.plan.isEmpty)) ∧
        (r.wait = false → b ≠ r.force → s.active q = true → becomes { r with wait := true } true) ∧
        (r.wait = false → b ≠ r.force → s.active q = false → r.plan = [] → waiting = true →
          becomes ⟨b, false, [((s.fq q).entries.length, r.force)]⟩ true) ∧
        (r.wait = false → b ≠ r.force → s.active q = false → waiting = false → becomes ⟨b, false, []⟩ false ∧
          ∃ z, exec (.xbarRouteWrite v u w) s = .next z ∧ z.fbit (EV_PEND_PEND ((1029 + 8 * u.val) / 32)) ((1029 + 8 * u.val) % 32) = true))) ∧
     (s.on (SH_UCS_CTRL_LOAD_EN u.val) = false → s.thState (2 * u.val) = 0 → s.thState (2 * u.val + 1) = 0 →
       ∃ z, exec (.ucsLoadEn v u true) s = .next z ∧ z.on (SH_UCS_CTRL_LOAD_EN u.val) = true) ∧
     (s.on (SH_UCS_CTRL_LOAD_EN u.val) = false → s.thState (2 * u.val) ≠ 0 →
       ∃ z, exec (.ucsLoadEn v u true) s = .next z ∧ z.on (SH_UCS_CTRL_LOAD_EN u.val) = false ∧ z.on (SH_UCS_CTRL_REFUSED u.val) = true) ∧
     (∀ k : Fin 8, s.on (SH_UCS_CTRL_LOAD_EN u.val) = true → k.val ≠ 7 →
       ∃ z, exec (.ucsDataWrite v u k w) s = .next z ∧ storeGet (fun _ => 0) (z.sheaf u.val).data k.val = w.toNat ∧ (z.sheaf u.val).words = (s.sheaf u.val).words ∧
         z.regs = s.regs) ∧
     (s.on (SH_UCS_CTRL_LOAD_EN u.val) = true →
       ((∀ k, k < 7 → storeGet (fun _ => 0) (s.sheaf u.val).data k < 2 ^ 32) → ∃ z, exec (.ucsDataWrite v u 7 w) s = .next z ∧ z.get (SH_UCS_CTRL_ADDR u.val) = (s.get (SH_UCS_CTRL_ADDR u.val) + 1) % 2 ^ 14 ∧
         ∃ x, storeGet (fun _ => none) (z.sheaf u.val).words (s.get (SH_UCS_CTRL_ADDR u.val)) = some x ∧ x / 2 ^ 224 = w.toNat) ∧
       (w.toNat.testBit 31 = true → ∃ z, exec (.ucsFinish v u w) s = .next z ∧ z.on (SH_UCS_CTRL_LOAD_EN u.val) = false ∧
         z.get (SH_UC_VERSION_VERSION u.val) = bits w.toNat 23 16 ∧ z.get (SH_UC_VERSION_HASH u.val) = bits w.toNat 15 0)) ∧
     (s.on FC_INJ_STAT_ARMED = false → ∃ z, exec (.ucrdAddrWrite v u w) s = .next z ∧ z.get (SH_UCRD_ADDR_ADDR u.val) = w.toNat % 2 ^ 14 ∧
       ∀ k, k < 8 → z.get (SH_UCRD_D_DATA u.val k) = word32 (s.ucWord u.val (w.toNat % 2 ^ 14)) k))

/-! ### DUT supplies -/

/-- EN = 1 puts an OFF output in the sequencer's queue, or turns it on at once with STAGGER = 0; LOCKOUT ignores it. The
sequencer admits the first in its order after the spacing. EN = 0 turns an ON output off at its 0 V code; CLEAR leaves LOCKOUT once the
hold-off has ended. With EN = 0 a range is taken at once, with EN = 1 make before break, counted as a hot switch above 1 mA if the output
is ON, and behind one under way; its old range disconnects and its settling window ends in their time. A range that a level queue took in
this cycle stands. SPAN changes while EN = 0 and takes the new span's 0 V code, otherwise it is refused. -/
def Obligations.SuppliesTurnOnAndChangeRange : Prop :=
  (∀ (v : View) (t : Fin 64) (h : Fin 2) (s : State), s.ready = true → directView v = true →
     (s.get (TL_SUP_STAT_STATE t.val h.val) = 0 → s.on (TL_SUP_CTRL_EN t.val h.val) = false → s.power.noSafe = false → s.inReset t.val = false →
       (s.get (ST_SEQ_CFG_STAGGER (rowOf t.val)) ≠ 0 → ∃ u, exec (.supplyEnable v t h) s = .next u ∧ u.on (TL_SUP_CTRL_EN t.val h.val) = true ∧
         (u.sup t.val h.val).enReq = true ∧ u.fbit (State.waitBit t.val h.val) (colOf t.val) = true ∧ u.get (TL_SUP_STAT_STATE t.val h.val) = 0) ∧
       (s.get (ST_SEQ_CFG_STAGGER (rowOf t.val)) = 0 → ∃ u, exec (.supplyEnable v t h) s = .next u ∧ u.on (TL_SUP_CTRL_EN t.val h.val) = true ∧
         u.get (TL_SUP_STAT_STATE t.val h.val) = 1 ∧ (u.sup t.val h.val).enReq = false)) ∧
     (s.get (TL_SUP_STAT_STATE t.val h.val) = 2 → s.on (TL_SUP_CTRL_EN t.val h.val) = false →
       ∃ u, exec (.supplyEnable v t h) s = .next u ∧ u.on (TL_SUP_CTRL_EN t.val h.val) = false ∧ u.get (TL_SUP_STAT_STATE t.val h.val) = 2) ∧
     (∀ a, s.nextEnable (rowOf t.val) = some (t.val, h.val) → storeGet (fun _ => none) s.lastAdmit (rowOf t.val) = some a →
       ∃ u, exec (.enableAdmit t h) s = .next u ∧ u.get (TL_SUP_STAT_STATE t.val h.val) = 1 ∧ (u.sup t.val h.val).enReq = false ∧
         u.fbit (State.waitBit t.val h.val) (colOf t.val) = false ∧ u.ticks = max s.ticks (a + 50 * s.get (ST_SEQ_CFG_STAGGER (rowOf t.val)))) ∧
     (∀ microamps, s.supOn t.val h.val = true → s.on (TL_SUP_CTRL_EN t.val h.val) = true →
       ∃ u, exec (.supplyDisable v t h microamps) s = .next u ∧ u.on (TL_SUP_CTRL_EN t.val h.val) = false ∧ u.get (TL_SUP_STAT_STATE t.val h.val) = 0 ∧
         u.supOut t.val h.val = s.zeroCode t.val h.val ∧ (u.sup t.val h.val).enReq = false) ∧
     (s.get (TL_SUP_STAT_STATE t.val h.val) = 2 → ∃ u, exec (.supplyClear v t h) s = .next u ∧
       u.get (TL_SUP_STAT_STATE t.val h.val) = if (s.sup t.val h.val).heldOff then 0 else 2)) ∧
  (∀ (v : View) (t : Fin 64) (s : State), s.ready = true → directView v = true →
     (∀ (range : Fin 4) (microamps : Nat), s.queueStands t.val 2 = false → s.on (TL_SUP_CTRL_EN t.val 0) = false → (s.sup t.val 0).rangeWait = none →
       ∃ u, exec (.supplyRangeChange v t range microamps) s = .next u ∧ u.get (TL_SUP_CTRL_RNG t.val 0) = range.val) ∧
     (∀ (range : Fin 4) (microamps : Nat), s.queueStands t.val 2 = false → s.on (TL_SUP_CTRL_EN t.val 0) = true →
       (s.on (TL_SUP_STAT_RNG_PEND t.val 0) = false → s.get (TL_SUP_CTRL_RNG t.val 0) ≠ range.val →
         ∃ u, exec (.supplyRangeChange v t range microamps) s = .next u ∧
         u.get (TL_SUP_CTRL_RNG t.val 0) = range.val ∧ u.on (TL_SUP_STAT_RNG_PEND t.val 0) = true ∧ u.on (TL_SUP_STAT_SETTLE t.val 0) = true ∧
         (u.sup t.val 0).oldRange = s.get (TL_SUP_CTRL_RNG t.val 0) ∧ (u.sup t.val 0).rangeAt = some s.ticks ∧
         u.get (TL_SUP_CNT_HOTSW t.val 0) = (if s.supOn t.val 0 = true ∧ 1000 < microamps then min (s.get (TL_SUP_CNT_HOTSW t.val 0) + 1) 255 else s.get (TL_SUP_CNT_HOTSW t.val 0))) ∧
       (s.on (TL_SUP_STAT_RNG_PEND t.val 0) = true → ∃ u, exec (.supplyRangeChange v t range microamps) s = .next u ∧
         u.get (TL_SUP_CTRL_RNG t.val 0) = s.get (TL_SUP_CTRL_RNG t.val 0) ∧ (u.sup t.val 0).rangeWait = some range.val)) ∧
     (∀ (range : Fin 4) (microamps : Nat), s.queueStands t.val 2 = true → s.on (TL_SUP_CTRL_EN t.val 0) = true →
       ∃ u, exec (.supplyRangeChange v t range microamps) s = .next u ∧ u.get (TL_SUP_CTRL_RNG t.val 0) = s.get (TL_SUP_CTRL_RNG t.val 0)) ∧
     (∀ a, (s.sup t.val 0).rangeAt = some a →
       (∃ u, exec (.rangeHandover t) s = .next u ∧ (u.sup t.val 0).oldRange = s.get (TL_SUP_CTRL_RNG t.val 0) ∧ u.ticks = max s.ticks (a + 200)) ∧
       (∀ microamps, (s.sup t.val 0).rangeWait = none → ∃ u, exec (.rangeOldDisconnect t microamps) s = .next u ∧ (u.sup t.val 0).rangeAt = none ∧
         u.on (TL_SUP_STAT_RNG_PEND t.val 0) = false ∧ u.ticks = max s.ticks (a + 500))) ∧
     (∀ a, (s.sup t.val 0).settleUntil = some a → ∃ u, exec (.settleWindowEnd t) s = .next u ∧ (u.sup t.val 0).settleUntil = none ∧
       u.on (TL_SUP_STAT_SETTLE t.val 0) = false ∧ u.ticks = max s.ticks a) ∧
     (∀ b : Bool, s.bipolar t.val 1 ≠ b → s.on (TL_SUP_CTRL_EN t.val 1) = false → ∃ u, exec (.hvSpanWrite v t b) s = .next u ∧ u.bipolar t.val 1 = b ∧
       u.get (TL_SUP_CODE_CODE t.val 1) = if b then 32768 else 0) ∧
     (∀ b : Bool, s.bipolar t.val 1 ≠ b → s.on (TL_SUP_CTRL_EN t.val 1) = true → ∃ u, exec (.hvSpanWrite v t b) s = .next u ∧
       u.bipolar t.val 1 = s.bipolar t.val 1 ∧ u.on (TL_SUP_STAT_RANGE_BUSY t.val 1) = true))

/-- A code enters the chain, in STATIC at once, unless a level queue gave one in this cycle; an energy ceiling is only lowered; a limit is
entered, left and trips after its time; the slew limiter steps towards its target. -/
def Obligations.CodesAndLimitsAct : Prop :=
  ∀ (v : View) (t : Fin 64) (h : Fin 2) (w : Word) (s : State),
    (s.ready = true → directView v = true →
      (∀ code : Fin 262144, s.queueStands t.val (2 * h.val + 1) = false → ∃ u, exec (.supplyCodeWrite v t h code) s = .next u ∧
        u.get (TL_SUP_CODE_CODE t.val h.val) = (if h = 0 then code.val else code.val % 65536) ∧
        (s.get (TL_SUP_CTRL_SRC t.val h.val) = 0 → (u.sup t.val h.val).codeIn = if h = 0 then code.val else code.val % 65536)) ∧
      (∀ code : Fin 262144, s.queueStands t.val (2 * h.val + 1) = true → exec (.supplyCodeWrite v t h code) s = .next s) ∧
      (∃ u, exec (.energyLimitWrite v t h false w) s = .next u ∧ u.get (TL_SUP_CEXT_CEXT t.val h.val) = w.toNat % 2 ^ 20) ∧
      (w.toNat % 2 ^ 16 ≤ s.get (TL_SUP_ECEIL_ECEIL t.val h.val) → ∃ u, exec (.energyLimitWrite v t h true w) s = .next u ∧
        u.get (TL_SUP_ECEIL_ECEIL t.val h.val) = w.toNat % 2 ^ 16) ∧
      (s.get (TL_SUP_ECEIL_ECEIL t.val h.val) < w.toNat % 2 ^ 16 → ∃ u, exec (.energyLimitWrite v t h true w) s = .next u ∧
        u.get (TL_SUP_ECEIL_ECEIL t.val h.val) = s.get (TL_SUP_ECEIL_ECEIL t.val h.val) ∧ u.on (TL_SUP_STAT_CEIL_REJ t.val h.val) = true)) ∧
    (s.supOn t.val h.val = true → s.on (TL_SUP_STAT_ILIM_NOW t.val h.val) = false → ∃ u, exec (.currentLimitEnter t h) s = .next u ∧
      u.on (TL_SUP_STAT_ILIM t.val h.val) = true ∧ u.on (TL_SUP_STAT_ILIM_NOW t.val h.val) = true ∧ (u.sup t.val h.val).limitAt = some s.ticks ∧
      u.get (TL_SUP_CNT_ILIM_EVENTS t.val h.val) = min (s.get (TL_SUP_CNT_ILIM_EVENTS t.val h.val) + 1) 65535) ∧
    (∀ a, (s.sup t.val h.val).limitAt = some a → s.get (TL_SUP_ILIM_TIME t.val h.val) ≠ 0 → ∃ u, exec (.ilimTrip t h) s = .next u ∧
      u.get (TL_SUP_STAT_STATE t.val h.val) = 2 ∧ u.get (TL_SUP_STAT_CAUSE t.val h.val) = 2 ∧ 64 + t.val ∈ u.lines ∧
      u.ticks = max s.ticks (a + 100 * s.get (TL_SUP_ILIM_TIME t.val h.val))) ∧
    (∃ u, exec (.leaveCurrentLimit (.supply t h)) s = .next u ∧ u.on (TL_SUP_STAT_ILIM_NOW t.val h.val) = false ∧ (u.sup t.val h.val).limitAt = none) ∧
    (∀ g : Fin 512, ∃ u, exec (.leaveCurrentLimit (.driver g)) s = .next u ∧ u.on (PN_STAT_ILIM_NOW g.val) = false ∧ ∀ a, a ≠ PN_STAT g.val → u.reg a = s.reg a) ∧
    (s.supOn t.val h.val = true → s.get (TL_SUP_SLEW_STEP t.val h.val) ≠ 0 →
      let o := s.supOut t.val h.val
      let g := s.get (TL_SUP_TGT_CODE t.val h.val)
      let step := s.get (TL_SUP_SLEW_STEP t.val h.val)
      ∃ u, exec (.slewStep t h) s = .next u ∧ u.supOut t.val h.val = if o ≤ g then min g (o + step) else max g (o - step))

/-- The waveform player starts 5 µs after GO, waits for an event or for its count, or starts at the next tick with START_LATE; a bad table
is refused and a player at work ignores GO; STOP acts at the next sample, which returns the deviation to 0; a generated sample is the
generator's; a line of the table arrives with its entries. -/
def Obligations.WaveformPlayerRuns : Prop :=
  ∀ (v : View) (t : Fin 64) (h : Fin 2) (s : State),
    (s.ready = true → directView v = true →
      (s.wfState t.val h.val = 0 → s.wfTableOk t.val h.val = true →
        (s.get (TL_SUP_WF_CTRL_START_SRC t.val h.val) = 0 → ∃ u, exec (.wfGo v t h) s = .next u ∧ u.wfState t.val h.val = 2 ∧
          (u.sup t.val h.val).nextAt = some (s.ticks + 500) ∧ (u.sup t.val h.val).pos = 0) ∧
        (s.get (TL_SUP_WF_CTRL_START_SRC t.val h.val) = 1 → ∃ u, exec (.wfGo v t h) s = .next u ∧ u.wfState t.val h.val = 1 ∧
          (u.sup t.val h.val).nextAt = none) ∧
        (s.get (TL_SUP_WF_CTRL_START_SRC t.val h.val) = 2 →
          let ahead := (s.get (TL_SUP_WF_START_VALUE t.val h.val) + 2 ^ 32 - s.view % 2 ^ 32) % 2 ^ 32
          (ahead < 2 ^ 31 → ∃ u, exec (.wfGo v t h) s = .next u ∧ u.wfState t.val h.val = 1 ∧ (u.sup t.val h.val).nextAt = none) ∧
          (2 ^ 31 ≤ ahead → ∃ u, exec (.wfGo v t h) s = .next u ∧ u.wfState t.val h.val = 2 ∧ u.on (TL_SUP_WF_STAT_START_LATE t.val h.val) = true ∧
            (u.sup t.val h.val).nextAt = some (s.ticks + 1)))) ∧
      (s.wfState t.val h.val = 0 → s.wfTableOk t.val h.val = false → ∃ u, exec (.wfGo v t h) s = .next u ∧ u.wfState t.val h.val = 0 ∧
        u.on (TL_SUP_WF_STAT_REFUSED t.val h.val) = true) ∧
      (s.wfState t.val h.val = 1 ∨ s.wfState t.val h.val = 2 → ∃ u, exec (.wfGo v t h) s = .next u ∧ u.wfState t.val h.val = s.wfState t.val h.val ∧
        u.on (TL_SUP_WF_STAT_WR_BUSY t.val h.val) = true ∧ u.supplies = s.supplies) ∧
      (s.wfState t.val h.val = 1 → ∃ u, exec (.wfStop v t h) s = .next u ∧ u.wfState t.val h.val = 0) ∧
      (s.wfState t.val h.val = 2 → ∃ u, exec (.wfStop v t h) s = .next u ∧ u.wfState t.val h.val = 2 ∧ (u.sup t.val h.val).stopReq = true)) ∧
    (∀ a, s.wfState t.val h.val = 2 → (s.sup t.val h.val).nextAt = some a →
      ((s.sup t.val h.val).stopReq = true → ∃ u, exec (.wfSample t h) s = .next u ∧ u.wfState t.val h.val = 0 ∧ (u.sup t.val h.val).dev = 0 ∧
        u.ticks = max s.ticks a) ∧
      ((s.sup t.val h.val).stopReq = false → s.get (TL_SUP_CTRL_SRC t.val h.val) = 2 → ∃ u, exec (.wfSample t h) s = .next u ∧ u.wfState t.val h.val = 2 ∧
        (u.sup t.val h.val).dev = (s.wfGenerate t.val h.val).1 ∧ (u.sup t.val h.val).nextAt = some (max s.ticks a + State.samplePeriod h.val))) ∧
    (∀ line, s.get (TL_SUP_CTRL_SRC t.val h.val) = 1 → s.wfState t.val h.val = 1 ∨ s.wfState t.val h.val = 2 → 16 * line < s.get (TL_SUP_WF_LEN_LEN t.val h.val) →
      ∃ u p, exec (.waveformTableFetch t h line) s = .next u ∧ ∀ i, i < 16 → 16 * line + i < s.get (TL_SUP_WF_LEN_LEN t.val h.val) →
        storeGet (fun _ => none) (u.sup t.val h.val).table (16 * line + i) = some (s.loadLE (s.wfBase t.val h.val + 64 * line + 4 * i) 4, p))

/-- A crowbar that trips, outside its detector's blanking, opens once, after 2 µs, into LOCKOUT and holds off for 100 µs; a supervision
reading, in microvolts by the model's choice (log entry 28), comes at the next instant of its grid (R306, log entry 29) and, outside its
window, faults the output when enough have followed each other; one before the reference is ready neither violates nor breaks a run; an
output still above 0.5 V long after its disable is STUCK; the sense and headroom detectors show in the status, and SENSE_OPEN, whose
interrupt source the spec does not list, changes nothing else (log entry 28). -/
def Obligations.ProtectionOfSuppliesActs : Prop :=
  ∀ (t : Fin 64) (h : Fin 2) (s : State),
    (∀ arc, s.on (TL_SUP_CTRL_CB_EN t.val h.val) = true → s.supOn t.val h.val = true → (s.sup t.val h.val).crowbarAt = none →
      arc = true ∨ ((s.sup t.val h.val).enAt + 1000 ≤ s.ticks ∧ ∀ a, (s.sup t.val h.val).rangeAt = some a → a + 500 ≤ s.ticks) →
      ∃ u, exec (.crowbarTrip t h arc) s = .next u ∧ (u.sup t.val h.val).crowbarAt = some s.ticks ∧ (u.sup t.val h.val).heldOff = false ∧
        u.get (TL_SUP_CNT_CROWBARS t.val h.val) = min (s.get (TL_SUP_CNT_CROWBARS t.val h.val) + 1) 255) ∧
    ((s.sup t.val h.val).opened = true → exec (.crowbarOpen t h) s = .next s) ∧
    (∀ a, (s.sup t.val h.val).crowbarAt = some a → (s.sup t.val h.val).opened = false →
      ∃ u, exec (.crowbarOpen t h) s = .next u ∧ u.get (TL_SUP_STAT_STATE t.val h.val) = 2 ∧ u.get (TL_SUP_STAT_CAUSE t.val h.val) = 1 ∧
        u.on (TL_SUP_CTRL_EN t.val h.val) = false ∧ (u.sup t.val h.val).heldOff = false ∧ 64 + t.val ∈ u.lines ∧ u.ticks = max s.ticks (a + 200)) ∧
    (∀ a, (s.sup t.val h.val).crowbarAt = some a → ∃ u, exec (.crowbarHoldoffEnd t h) s = .next u ∧ (u.sup t.val h.val).crowbarAt = none ∧
      (u.sup t.val h.val).heldOff = true ∧ u.ticks = max s.ticks (a + 10000) ∧ u.regs = s.regs) ∧
    (∀ code : Int, s.on (TL_SUP_CTRL_SUP_EN t.val h.val) = true → s.supOn t.val h.val = true → (h = 0 → s.on (TL_SUP_STAT_SETTLE t.val 0) = false) → (s.sup t.val h.val).history = [] →
      let v := s.volts t.val h.val (s.supOut t.val h.val)
      let tol : Int := s.get (TL_SUP_SUP_TOL t.val h.val) * 1000
      s.refStart t.val + 200000 ≤ s.readingTick t.val h.val →
      (v * 1000000 - tol * 65536 ≤ code * 65536 → code * 65536 ≤ v * 1000000 + tol * 65536 →
        ∃ u, exec (.supervisionRead t h code ()) s = .next u ∧ (u.sup t.val h.val).viol = 0 ∧ u.regs = s.regs ∧ u.ticks = s.readingTick t.val h.val) ∧
      (v * 1000000 + tol * 65536 < code * 65536 ∨ code * 65536 < v * 1000000 - tol * 65536 → max 1 (s.get (TL_SUP_SUP_CNT t.val h.val)) ≤ (s.sup t.val h.val).viol + 1 →
        ∃ u, exec (.supervisionRead t h code ()) s = .next u ∧ u.get (TL_SUP_STAT_STATE t.val h.val) = 2 ∧ u.get (TL_SUP_STAT_CAUSE t.val h.val) = 3)) ∧
    (∀ code : Int, s.on (TL_SUP_CTRL_SUP_EN t.val h.val) = true → s.readingTick t.val h.val < s.refStart t.val + 200000 →
      (s.supOn t.val h.val = true ∨ (s.sup t.val h.val).disAt = none) → ∃ u, exec (.supervisionRead t h code ()) s = .next u ∧
      u.regs = s.regs ∧ (u.sup t.val h.val).viol = (s.sup t.val h.val).viol) ∧
    (∀ (code : Int) (a : Nat), s.on (TL_SUP_CTRL_SUP_EN t.val h.val) = true → s.supOn t.val h.val = false → (s.sup t.val h.val).disAt = some a → 500000 < code →
      a + 1000000 < s.readingTick t.val h.val → ∃ u, exec (.supervisionRead t h code ()) s = .next u ∧ u.on (TL_SUP_STAT_STUCK t.val h.val) = true) ∧
    (∀ code : Int, s.on (TL_SUP_CTRL_SUP_EN t.val h.val) = false → exec (.supervisionRead t h code ()) s = .next s) ∧
    (s.supOn t.val 0 = true → (∃ u, exec (.senseOpen t) s = .next u ∧ u.on (TL_SUP_STAT_SENSE_OPEN t.val 0) = true ∧
        ∀ a, a ≠ TL_SUP_STAT t.val 0 → u.reg a = s.reg a) ∧
      (∃ u, exec (.dropout t) s = .next u ∧ u.on (TL_SUP_STAT_DROPOUT t.val 0) = true))

/-! ### Measurement -/

/-- A trigger of the ADC begins a burst, is held behind the one that runs, or is lost; MEAS's trigger comes at its instant. A conversion
starts at the first instant allowed (R306), during a calibration step at the given instant within the model's bound (log entry 29), and counts
SETTLE_LEFT down; the result of a burst's last one, unfiltered and without a buffer, is published, saturated beyond full scale and within
8 LSB of 0 from a grounded input (R302, R303); a burst with no conversion in progress ends with ABORT, which publishes by the model's choice
(log entry 29). The reference gets ready 2 ms after it turns on; slices are exchanged 1 ms after the exchange before, whose phase is the
model's choice (log entry 29). -/
def Obligations.AdcBurstsRun : Prop :=
  ∀ (v : View) (t : Fin 64) (s : State),
    (s.ready = true → directView v = true →
      ((s.adc t.val).bursts = [] → ∃ u b, exec (.adcTrig v t) s = .next u ∧ (u.adc t.val).bursts = [b] ∧ b.count = max 1 (s.get (TL_ADC_BURST_COUNT t.val)) ∧
        b.input = s.get (TL_ADC_CFG_INPUT t.val) ∧ b.trigAt = s.now ∧ b.started = 0 ∧ u.on (TL_ADC_STAT_BUSY t.val) = true) ∧
      ((s.adc t.val).bursts ≠ [] → (s.adc t.val).held = none → ∃ u, exec (.adcTrig v t) s = .next u ∧
        (u.adc t.val).held = some (s.now, s.get (TL_ADC_BURST_COUNT t.val)) ∧ (u.adc t.val).bursts = (s.adc t.val).bursts ∧ u.on (TL_ADC_STAT_HELD t.val) = true) ∧
      ((s.adc t.val).bursts ≠ [] → (s.adc t.val).held.isSome = true → ∃ u, exec (.adcTrig v t) s = .next u ∧
        u.get (TL_ADC_CNT_OVERRUN t.val) = min (s.get (TL_ADC_CNT_OVERRUN t.val) + 1) 65535 ∧ (u.adc t.val).held = (s.adc t.val).held) ∧
      (∀ b, (s.adc t.val).bursts = [b] → b.convs = [] → ∃ u, exec (.adcAbort v t) s = .next u ∧ (u.adc t.val).bursts = [] ∧ (u.adc t.val).held = none ∧
        u.on (TL_ADC_RES_HI_VALID t.val) = true ∧ u.on (TL_ADC_STAT_ABORTED t.val) = true ∧ u.on (TL_ADC_STAT_BUSY t.val) = false)) ∧
    (∀ inst n r, (s.adc t.val).due = (inst, n) :: r → (s.adc t.val).bursts = [] → ∃ u b, exec (.adcTrigger t) s = .next u ∧ (u.adc t.val).due = r ∧
      (u.adc t.val).bursts = [b] ∧ b.count = max 1 n ∧ b.trigAt = inst ∧ u.ticks = max s.ticks (inst / 1280)) ∧
    (∀ b at_, (s.adc t.val).bursts = [b] → b.started < b.count →
      let inst := match (s.calTl t.val).stepEnd with
        | some e => s.clearOf t.val 1 (s.clearOf t.val 0 (max (s.convEarliest t.val b) (min at_ (e * 1280 + 32000))))
        | none => s.convEarliest t.val b
      ∃ u c, exec (.adcConversionStart t at_) s = .next u ∧ c.at_ = inst ∧
      (u.adc t.val).bursts = [{ b with started := b.started + 1, lastAt := inst, convs := b.convs ++ [c] }] ∧
      u.get (TL_ADC_STAT_SETTLE_LEFT t.val) = s.get (TL_ADC_STAT_SETTLE_LEFT t.val) - 1 ∧ u.ticks = max s.ticks (inst / 1280)) ∧
    (∀ h n b, (s.adc t.val).held = some (h, n) → (s.adc t.val).bursts = [b] → b.count ≤ b.started → ∃ u b', exec (.adcHeldBurstBegin t) s = .next u ∧
      (u.adc t.val).held = none ∧ (u.adc t.val).bursts = [b, b'] ∧ b'.count = max 1 n ∧ b'.trigAt = max h (b.lastAt + 32000) ∧
      u.on (TL_ADC_STAT_HELD t.val) = false) ∧
    (∀ b c (raw : Int) (beyond : Bool), (s.adc t.val).bursts = [b] → b.convs = [c] → b.flen = 0 → b.count = b.total + 1 → b.buffer = none → b.line = [] →
      let data : Int := if c.grounded then max (-8) (min 8 raw) else if beyond then (if raw < 0 then -32768 else 32767) else max (-32768) (min 32767 raw)
      ∃ u, exec (.adcResult t raw beyond) s = .next u ∧ (u.adc t.val).bursts = [] ∧ u.on (TL_ADC_RES_HI_VALID t.val) = true ∧
        u.get (TL_ADC_RES_HI_SEQ t.val) = (s.get (TL_ADC_RES_HI_SEQ t.val) + 1) % 2 ^ 16 ∧ bits (u.reg (TL_ADC_RES_LO t.val)).toNat 15 0 = unsigned 16 data ∧
        u.on (TL_ADC_STAT_BUSY t.val) = false ∧ u.ticks = max s.ticks ((c.at_ + 120 * 1280) / 1280)) ∧
    (s.refOn t.val = true → ∃ u, exec (.refReady t) s = .next u ∧ u.on (TL_ADC_STAT_REF_READY t.val) = true ∧
      u.ticks = max s.ticks (s.refStart t.val + 200000) ∧ ∀ a, a ≠ TL_ADC_STAT t.val → u.reg a = s.reg a) ∧
    (∃ u, exec (.adcSliceExchange t) s = .next u ∧ (∀ a, a ≠ TL_ADC_STAT t.val → u.reg a = s.reg a) ∧
      u.ticks = max ((s.adc t.val).sliceAt.getD s.resetEnd + 100000) s.ticks ∧ (u.adc t.val).sliceAt = some u.ticks ∧
      u.get (TL_ADC_STAT_CAL_ROUND t.val) = if s.on (TL_ADC_STAT_REF_READY t.val) then (s.get (TL_ADC_STAT_CAL_ROUND t.val) + 1) % 256
        else s.get (TL_ADC_STAT_CAL_ROUND t.val))

/-- The time-interval counter, with no TDCARM on its way: armed when it is not at work, with the sources then set; an edge of the start
source opens a pair and one of the stop source after the hold-off closes it, at times that take the deskew of a comparator's pin and the
grain of an event, whose latch the edge uses up; which edges a source can have given is read from the model's state (log entry 29). A stop
edge while ARMED is counted. A pair without a stop, an acquisition without a start and a pair that overflows
end in their time; ABORT ends the acquisition. -/
def Obligations.TimeIntervalsAreCounted : Prop :=
  ∀ (v : View) (t : Fin 64) (s : State),
    let x := s.tdc t.val
    let ended := fun (u : State) (why : Nat) => u.tdcState t.val = 3 ∧ u.on (TL_TDC_RESULT_VALID t.val) = true ∧ u.get (TL_TDC_RESULT_END t.val) = why
    x.arms = [] →
    (s.ready = true → directView v = true →
      (s.tdcState t.val = 0 ∨ s.tdcState t.val = 3 → ∃ u, exec (.tdcArm v t) s = .next u ∧ u.tdcState t.val = 1 ∧ (u.tdc t.val).pairs = max 1 (s.get (TL_TDC_CFG_N t.val)) ∧
        (u.tdc t.val).ivls = [] ∧ (u.tdc t.val).start = s.get (TL_TDC_SRC_START t.val) % 64 ∧ (u.tdc t.val).stop = s.get (TL_TDC_SRC_STOP t.val) % 64 ∧
        u.get (TL_TDC_STAT_PAIRS t.val) = 0 ∧ u.reg (TL_TDC_CNT t.val) = 0) ∧
      (s.tdcState t.val = 1 ∨ s.tdcState t.val = 2 →
        (∃ u, exec (.tdcArm v t) s = .next u ∧ u.on (TL_TDC_STAT_ARM_REJ t.val) = true ∧ u.tdcs = s.tdcs) ∧
        (∃ u, exec (.tdcAbort v t) s = .next u ∧ ended u 3))) ∧
    (∀ at_, s.tdcState t.val = 1 →
      (s.edgeSeen t.val x.start true = true → x.readyAt ≤ s.edgeTime t.val x.start at_ → ∃ u, exec (.tdcStartEdge t at_) s = .next u ∧ u.tdcState t.val = 2 ∧
        (u.tdc t.val).startAt = s.edgeTime t.val x.start at_ ∧ u.ticks = max s.ticks (at_ / 2 / 1280) ∧
        (x.start.testBit 5 = true → u.edgeSeen t.val x.start true = false)) ∧
      (s.edgeSeen t.val x.stop false = true → ∃ u, exec (.tdcStopEdge t at_) s = .next u ∧ u.tdcState t.val = 1 ∧ (u.tdc t.val).order = min 255 (x.order + 1) ∧
        u.regs = s.regs)) ∧
    (s.tdcState t.val = 2 → s.get (TL_TDC_STAT_PAIRS t.val) + 1 < 65536 →
      let closed := fun (u : State) => u.get (TL_TDC_STAT_PAIRS t.val) = s.get (TL_TDC_STAT_PAIRS t.val) + 1 ∧
        u.tdcState t.val = if x.pairs ≤ s.get (TL_TDC_STAT_PAIRS t.val) + 1 then 3 else 1
      (∀ at_, s.edgeSeen t.val x.stop false = true → let e := s.edgeTime t.val x.stop at_
        (x.startAt + 2 * x.holdoff ≤ e → e < x.startAt + 2 ^ 32 * 160 → ∃ u, exec (.tdcStopEdge t at_) s = .next u ∧ closed u ∧
          (u.tdc t.val).ivls = x.ivls ++ [e - x.startAt] ∧ u.reg (TL_TDC_LAST_LO t.val) = BitVec.ofNat 32 (e - x.startAt)) ∧
        (e < x.startAt + 2 * x.holdoff → ∃ u, exec (.tdcStopEdge t at_) s = .next u ∧ (u.tdc t.val).ivls = x.ivls ∧ u.regs = s.regs)) ∧
      (x.tmo ≠ 0 → ∃ u, exec (.tdcNostopTimeout t) s = .next u ∧ closed u ∧ (u.tdc t.val).nostop = min 255 (x.nostop + 1)) ∧
      (∃ u, exec (.tdcOvf t) s = .next u ∧ closed u ∧ (u.tdc t.val).ovf = min 255 (x.ovf + 1) ∧ u.reg (TL_TDC_LAST_LO t.val) = 0xFFFFFFFF)) ∧
    (s.tdcState t.val = 1 → x.tmo ≠ 0 → ∃ u, exec (.tdcNostartTimeout t) s = .next u ∧ ended u 2)

/-! ### Temperature, calibration and wear -/

/-- Calibration: a DUE strip that is enabled, served and not held, with no switch pending and a usable interval, starts a run with no step
done, T and the skipped columns; a step's end counts it and stores its word in the inactive bank, at the place the model chose (log entry
30), and the last one completes its column; a
run that takes too long is abandoned and stays DUE; a switch that stays pending raises its source. RUN_NOW makes an enabled strip DUE, ABORT
abandons a run and without one changes neither DUE nor the count, COMMIT makes the inactive bank active unless a run or a switch is on,
RELOAD is pending for the active tillers, a word of the inactive bank is stored and others are rejected, and a prober gap is declared. -/
def Obligations.CalibrationRunsAndBanksChange : Prop :=
  ∀ (v : View) (r : Fin 8) (t : Fin 64) (s : State),
    (∀ (c : Fin 8) (a : Nat), s.on (ST_CAL_STAT_DUE r.val) = true → s.on (ST_CAL_CTRL_EN r.val) = true → s.served r.val = true → s.held r.val = false →
      s.get (ST_CAL_STAT_PEND r.val) = 0 → s.calState r.val ≤ 1 → s.get (ST_CAL_CTRL_SKIP r.val) ≠ 0xFF →
      s.calUsable (8 * r.val + c.val) = some (a, none) → a ≤ s.ticks →
      ∃ u, exec (.calRunStart r) s = .next u ∧ u.calState r.val = 2 ∧ u.get (ST_CAL_TREF_TSTART r.val) = s.get (ST_TSTRIP_T r.val) ∧
        u.get (ST_CAL_STAT_DONE r.val) = s.get (ST_CAL_CTRL_SKIP r.val) ∧ ∀ k : Fin 8, (u.calTl (8 * r.val + k.val)).done = 0) ∧
    (∀ (e : Nat) (word : Word) (rms : BitVec 16), (s.calTl t.val).stepEnd = some e →
      let n := (s.calTl t.val).done
      ∃ u, exec (.calStepEnd t word rms) s = .next u ∧ u.ticks = max s.ticks e ∧ (n < 319 → (u.calTl t.val).done = n + 1) ∧
        (n < 240 → n % 6 = 5 → u.bankWord (rowOf t.val) (1 - s.get (ST_CAL_STAT_ACT_BANK (rowOf t.val))) (8 * colOf t.val + n / 30) (n / 6 % 5) =
          word.toNat % 2 ^ 16) ∧
        (240 ≤ n → n < 320 → (n - 240) % 10 < 8 →
          u.bankWord (rowOf t.val) (1 - s.get (ST_CAL_STAT_ACT_BANK (rowOf t.val))) (8 * colOf t.val + (n - 240) / 10) (5 + (n - 240) % 10) = word.toNat) ∧
        (n = 319 → u.fbit (ST_CAL_STAT_DONE (rowOf t.val)) (colOf t.val) = true)) ∧
    (s.calState r.val = 2 → s.held r.val = false → ∃ u, exec (.calTimeout r) s = .next u ∧ u.calState r.val = s.calRest r.val ∧
      u.on (ST_CAL_STAT_DUE r.val) = s.on (ST_CAL_STAT_DUE r.val) ∧
      u.get (ST_CAL_CNT_ABANDONS r.val) = min (s.get (ST_CAL_CNT_ABANDONS r.val) + 1) 255 ∧
      u.ticks = max s.ticks ((s.strip r.val).runAt + s.get (ST_CAL_TMO_MS r.val) * 100000 + (s.strip r.val).heldTicks)) ∧
    (∀ f, (s.tl t.val).switchFrom = some f → s.switchPending t.val = true → exec (.switchStuck t) s =
      .next ((s.advTo (f + s.get (ST_CAL_TMO_MS (rowOf t.val)) * 100000)).stSource (rowOf t.val) 10)) ∧
    (s.ready = true → directView v = true →
      (s.on (ST_CAL_CTRL_EN r.val) = true → s.on (ST_CAL_STAT_DUE r.val) = false → ∃ u, exec (.calRunNow v r) s = .next u ∧
        u.on (ST_CAL_STAT_DUE r.val) = true ∧ u.calState r.val = if s.calState r.val ≤ 1 then 1 else s.calState r.val) ∧
      (s.on (ST_CAL_CTRL_EN r.val) = false → ∃ u, exec (.calRunNow v r) s = .next u ∧ u.on (ST_CAL_STAT_DUE r.val) = s.on (ST_CAL_STAT_DUE r.val)) ∧
      (s.calState r.val = 2 → ∃ u, exec (.calAbort v r) s = .next u ∧ u.calState r.val = 0 ∧ u.on (ST_CAL_STAT_DUE r.val) = false ∧
        u.get (ST_CAL_CNT_ABANDONS r.val) = min (s.get (ST_CAL_CNT_ABANDONS r.val) + 1) 255) ∧
      (s.calState r.val ≠ 2 → ∃ u, exec (.calAbort v r) s = .next u ∧ u.on (ST_CAL_STAT_DUE r.val) = s.on (ST_CAL_STAT_DUE r.val) ∧
        u.get (ST_CAL_CNT_ABANDONS r.val) = s.get (ST_CAL_CNT_ABANDONS r.val)) ∧
      (s.calState r.val ≤ 1 → ∃ u, exec (.calCommit v r) s = .next u ∧ u.on (ST_CAL_STAT_DUE r.val) = false ∧
        u.get (ST_CAL_STAT_ACT_BANK r.val) = 1 - s.get (ST_CAL_STAT_ACT_BANK r.val) ∧ u.get (ST_CAL_TREF_TREF r.val) = s.get (ST_TSTRIP_T r.val) ∧
        ((stripTillers r).all s.active = true → u.calState r.val = 4 ∧ u.get (ST_CAL_STAT_PEND r.val) = 0xFF)) ∧
      (2 ≤ s.calState r.val → ∃ u, exec (.calCommit v r) s = .next u ∧ u.on (ST_CAL_STAT_BUSY_REJ r.val) = true ∧
        u.get (ST_CAL_STAT_ACT_BANK r.val) = s.get (ST_CAL_STAT_ACT_BANK r.val)) ∧
      (∃ u, exec (.calReload v r) s = .next u ∧ ∀ c : Fin 8, s.active (8 * r.val + c.val) = true → u.fbit (ST_CAL_STAT_PEND r.val) c.val = true) ∧
      (∀ w : Word, let i := s.get (ST_CAL_IDX_IDX r.val)
        ∃ u, exec (.calDataWrite v r w) s = .next u ∧ u.get (ST_CAL_IDX_IDX r.val) = (if s.on (ST_CAL_IDX_AINC r.val) then (i + 1) % 2048 else i) ∧
          (i / 1024 = s.get (ST_CAL_STAT_ACT_BANK r.val) → u.on (ST_CAL_STAT_ACT_REJ r.val) = true ∧ u.banks = s.banks) ∧
          (i / 1024 ≠ s.get (ST_CAL_STAT_ACT_BANK r.val) → 2 ≤ s.calState r.val → u.on (ST_CAL_STAT_BUSY_REJ r.val) = true ∧ u.banks = s.banks) ∧
          (i / 1024 ≠ s.get (ST_CAL_STAT_ACT_BANK r.val) → s.calState r.val ≤ 1 → u.bankWord r.val (i / 1024) (i % 1024 / 16) (i % 16) =
            if i % 16 < 5 then w.toNat % 2 ^ 16 else if i % 16 < 13 then w.toNat else 0)) ∧
      (∀ (strips : BitVec 8) (len : BitVec 20), strips.toNat.testBit (rowOf t.val) = true → ∃ u, exec (.proberGap v strips len) s = .next u ∧
        (u.calTl t.val).proberFrom = s.ticks + 100 ∧ (u.calTl t.val).prober = s.ticks + 100 * len.toNat - 200))

/-- The sensors convert. A trip takes the rails down, is logged with its first sensor's peak, and is cleared through the management port
when the part has cooled. A driving pin takes up the stress of its setpoint farthest from 0 V, kept in units of 2^-40 s and rounded down to
one, which is the model's choice (log entry 8); a contact cycle counts where TD_SRC takes it from the register; a save begins in the next
sector of its rotation and, verified, is what the NVM holds; one that fails its verify goes on in the next sector (log entry
31). -/
def Obligations.HeatAndWearAct : Prop :=
  (∀ s : State,
     (∀ l : List Int, l.length = 34 → ∃ u, exec (.sensorSample l) s = .next u ∧
       (∀ r k, r < 8 → k < 4 → u.get (ST_TEMP_TEMP r k) = unsigned 16 (clampReading (l.getD (4 * r + k) 0))) ∧
       (∀ d : Fin 2, u.get (GL_TEMP_SV_TEMP d.val) = unsigned 16 (clampReading (l.getD (32 + d.val) 0)))) ∧
     (s.monitor.trip.isSome = true → s.on GL_THERM_STAT_SHUTDOWN = false → ∃ u, exec .shutdownRailsOff s = .next u ∧ u.on GL_THERM_STAT_SHUTDOWN = true ∧
       u.powerState = 3 ∧ u.power.goal = 5 ∧ u.on FC_ALIVE_RUNNING = false ∧ u.collector.level = false) ∧
     (∀ x (peak : Int), s.monitor.trip = some x → x.logged = false → ∃ u, exec (.shutdownLog peak) s = .next u ∧
       storeGet (fun _ => 0) u.nvm.log s.nvm.logNext = State.logEntry x (unsigned 16 peak) (s.nvm.logCount + 1) ∧ u.nvm.logNext = (s.nvm.logNext + 1) % 64 ∧
       u.nvm.logCount = s.nvm.logCount + 1 ∧ u.on GL_WEAR_STAT_SAVE_BUSY = true) ∧
     (s.power.vbulk = true → s.powerState = 5 →
       (s.coolEnough = true → ∃ u, exec (.thermClear .msp 0x0C1E) s = .next u ∧ u.powerState = 1 ∧ u.on GL_THERM_STAT_SHUTDOWN = false ∧ u.monitor.trip = none) ∧
       (∀ key, s.coolEnough = false ∨ key ≠ 0x0C1E → exec (.thermClear .msp key) s = .next (s.mark GL_THERM_STAT_CLR_REJ)))) ∧
  (∀ (v : View) (g : Fin 512) (s : State),
     (∀ j : Fin 3, s.on (PN_CTRL_DRV_EN g.val) = true → s.get (PN_PPMU_CTRL_MODE g.val) = 0 →
       (∀ k : Fin 3, (levelVolts 0 (s.get (PN_LVL_CODE g.val k.val))).natAbs ≤ (levelVolts 0 (s.get (PN_LVL_CODE g.val j.val))).natAbs) →
       exec (.wearAccrue g) s = .next (s.setWear g.val (s.wearOf g.val +
         stressStep (s.get (PN_LVL_CODE g.val j.val)) (signed 16 (s.get (ST_TSTRIP_T (rowOf (g.val / 8)))))))) ∧
     (s.on (PN_CTRL_DRV_EN g.val) = false ∨ s.get (PN_PPMU_CTRL_MODE g.val) ≠ 0 → exec (.wearAccrue g) s = .next s) ∧
     (s.ready = true → directView v = true →
       (s.on GL_WEAR_CTRL_TD_SRC = false → ∃ u, exec (.contactCycle v) s = .next u ∧
         u.get GL_WEAR_CONTACT_COUNT = min (s.get GL_WEAR_CONTACT_COUNT + 1) 0xFFFFFFFF ∧ u.wear = s.wear) ∧
       (s.on GL_WEAR_CTRL_TD_SRC = true → ∃ u, exec (.contactCycle v) s = .next u ∧ u.get GL_WEAR_CONTACT_COUNT = s.get GL_WEAR_CONTACT_COUNT) ∧
       (s.on GL_WEAR_STAT_SAVE_BUSY = false → ∃ u, exec (.wearSave v) s = .next u ∧ u.on GL_WEAR_STAT_SAVE_BUSY = true ∧ u.nvm.saving.isSome = true ∧
         u.wearOf (0x300 + s.nvm.nextSave) = min (s.wearOf (0x300 + s.nvm.nextSave) + 1) 0xFFFFFFFF)) ∧
     (s.on GL_WEAR_STAT_SAVE_BUSY = false → ∃ u, exec .wearSavePeriodic s = .next u ∧ u.on GL_WEAR_STAT_SAVE_BUSY = true ∧
       u.nvm.saving = some (storeSet (fun _ => 0) u.wear contactKey (s.reg GL_WEAR_CONTACT).toNat) ∧
       ∀ k, u.wearOf k = if k = 0x300 + s.nvm.nextSave then min (s.wearOf k + 1) 0xFFFFFFFF else s.wearOf k) ∧
     (∀ c, s.nvm.saving = some c → s.power.afterSave = none →
       (∃ u, exec (.wearSaveDone true) s = .next u ∧ u.on GL_WEAR_STAT_SAVE_BUSY = false ∧ u.nvm.saved = c ∧ u.nvm.saving = none ∧
         u.nvm.nextSave = (if s.nvm.nextSave = 95 then 88 else s.nvm.nextSave + 1) ∧ u.monitor.savedAt = s.ticks) ∧
       (∃ u, exec (.wearSaveDone false) s = .next u ∧ u.on GL_WEAR_STAT_SAVE_ERR = true ∧ u.nvm.saving = some c ∧ u.nvm.saved = s.nvm.saved ∧
         u.nvm.nextSave = if s.nvm.nextSave = 95 then 88 else s.nvm.nextSave + 1)))

/-! ### Memory, host port and DMA -/

/-- A host write stores its enabled bytes where the address space answers and leaves every other byte; a context slice whose
threshers run refuses it. A host read gives the bytes that are there. A stack is cleared when its initialisation ends; a scrub
pass leaves no single-bit error of its group. A reset of the host port clears its registers, channels and queues and returns what the
model holds of the configuration space (log entry 46) to its defaults; the link comes up, unless the PMA loopback holds it down, and is lost; REARM sends a vector's message again when its summary is 1. -/
def Obligations.DeviceMemoryAndHostPortAct : Prop :=
  (∀ s : State,
     (∀ (addr : Nat) (data : List (Option Byte)) (ep : Bool), data.length ≠ 0 → addr + data.length ≤ 2 ^ 35 →
       ((∀ i, i < data.length → regionOf (addr + i) ≠ .context) → ∃ u, exec (.bar2Write addr data ep) s = .next u ∧ ∀ a, u.byteAt a =
         if addr ≤ a ∧ a < addr + data.length ∧ s.answers a = true then (data.getD (a - addr) none).getD (s.byteAt a) else s.byteAt a) ∧
       ((∀ i, i < data.length → regionOf (addr + i) = .context ∧ s.ctxOpen (addr + i) = false) → ∃ u, exec (.bar2Write addr data ep) s = .next u ∧
         u.mem = s.mem ∧ u.on (SH_CTX_STAT_WR_DENIED ((addr - 0x401000000) / 0x40000)) = true)) ∧
     (∀ addr n : Nat, n ≠ 0 → addr + n ≤ 2 ^ 35 → ∃ u, exec (.bar2Read addr n) s = .next u ∧ u.rdData = ofBytesLE (s.memBytes addr n) ∧
       u.rdPoison = (s.hostRead addr n).2 ∧ u.mem = s.mem) ∧
     (s.fbit GL_PWR_STAT_PG 2 = true →
       (s.power.memW = false → ∃ u, exec (.dramInitDone false) s = .next u ∧ u.on GL_MEM_STAT_W_READY = true ∧
         ∀ a, u.byteAt a = if a < 0x200000000 then 0 else s.byteAt a) ∧
       (s.power.memE = false → ∃ u, exec (.dramInitDone true) s = .next u ∧ u.on GL_MEM_STAT_E_READY = true ∧
         ∀ a, u.byteAt a = if 0x200000000 ≤ a ∧ a < 0x400000000 then 0 else s.byteAt a)) ∧
     (∀ g : Fin 16, s.on (SH_MEM_SCRUB_EN g.val) = true → ∃ u, exec (.scrubPass g) s = .next u ∧ u.mem = s.mem ∧
       ∀ a ∈ u.single, a ∈ s.single ∧ ¬(regionOf a = .dram ∧ groupOf a = g.val ∧ s.answers a = true)) ∧
     (∀ g : Fin 16, s.on (SH_MEM_SCRUB_EN g.val) = false → exec (.scrubPass g) s = .next s)) ∧
  (∀ (v : View) (s : State),
     (∃ u, exec .hostPortReset s = .next u ∧ u.dmas = [] ∧ u.hmqs = [] ∧ u.hostConfig = HostConfig.reset ∧ u.mem = s.mem ∧
       ∀ a, u.reg a = if 0x80000 ≤ a ∧ a < 0x82000 then resetWord a else s.reg a) ∧
     (s.on LK_PCIE_LPBK_EN = true → ∀ (speed : Fin 8) (width : Fin 16), exec (.pcieLinkUp speed width) s = .next s) ∧
     (s.on LK_PCIE_LPBK_EN = false → ∀ (speed : Fin 8) (width : Fin 16), ∃ u, exec (.pcieLinkUp speed width) s = .next u ∧ u.on LK_PCIE_STAT_UP = true ∧
       u.get LK_PCIE_STAT_SPEED = speed.val ∧ u.get LK_PCIE_STAT_WIDTH = width.val ∧ u.fbit (EV_PEND_PEND 41) 7 = true) ∧
     (s.on LK_PCIE_STAT_UP = true → ∃ u, exec .pcieLinkDown s = .next u ∧ u.on LK_PCIE_STAT_UP = false ∧ 181 ∈ u.lines ∧
       ∀ a, a ≠ LK_PCIE_STAT → u.reg a = s.reg a) ∧
     (∀ vec : Fin 64, s.ready = true → directView v = true →
       (s.vectorMask.testBit vec.val = true → exec (.vecRearm v vec) s = .next (s.sendVector vec.val)) ∧
       (s.vectorMask.testBit vec.val = false → exec (.vecRearm v vec) s = .next s)))

/-- A DMA channel takes EN and PROD, begins a descriptor that passes its checks and ends one that fails in ERROR with the check's code; a
transfer's end moves the data, to device memory or line by line to the host, advances CONS and writes STATUS; host errors, refused context
writes and time-outs end in ERROR, which RESUME leaves; ABORT stops it and keeps the tags of messages not yet acknowledged. A complete MEM_WR
message is written and acknowledged, after an earlier complete one of its port to a line they share. At which command a transfer's bytes move,
and that the failing channel shows ERROR at once, is DEDUCED (log entry 34). -/
def Obligations.DmaChannelsRunDescriptors : Prop :=
  ∀ (v : View) (c : Fin 8) (s : State),
    let next := (s.get (LK_DMA_CONS_INDEX c.val) + 1) % s.dmaRing c.val % 2 ^ 16
    let failed := fun (u : State) (code : Nat) => u.dmaState c.val = 2 ∧ u.get (LK_DMA_STAT_CODE c.val) = code ∧ u.on (LK_DMA_STAT_ERR c.val) = true ∧
      (u.dma c.val).active = none
    (s.ready = true → directView v = true →
      (∃ u, exec (.dmaEnable v c true) s = .next u ∧ u.on (LK_DMA_CTRL_EN c.val) = true ∧ u.on (LK_DMA_CTRL_DOMAIN c.val) = true) ∧
      (∃ u, exec (.dmaEnable v c false) s = .next u ∧ u.on (LK_DMA_CTRL_EN c.val) = false) ∧
      (∀ w : Word, ∃ u, exec (.dmaProdWrite v c w) s = .next u ∧ u.get (LK_DMA_PROD_INDEX c.val) = w.toNat % 2 ^ 16) ∧
      (s.dmaState c.val = 2 → (s.dma c.val).note = none → ∃ u, exec (.dmaResume v c) s = .next u ∧ u.dmaState c.val = 0 ∧
        u.get (LK_DMA_CONS_INDEX c.val) = next) ∧
      (s.dmaState c.val = 1 → (s.dma c.val).note = none → ∃ u, exec (.dmaAbort v c) s = .next u ∧ u.dmaState c.val = 0 ∧
        u.on (LK_DMA_CTRL_EN c.val) = false ∧ (u.dma c.val) = (s.dma c.val).again ∧ u.get (LK_DMA_CONS_INDEX c.val) = s.get (LK_DMA_CONS_INDEX c.val))) ∧
    (∀ (w : BitVec 256) (data : List Byte) (ep : List (Nat × Nat)), s.dmaReady c.val = true →
      let d := dmaDesc w (data.map BitVec.toNat) ep
      let code := d.check (s.get LK_MESH_POS_X) (s.get LK_MESH_POS_Y)
      (code = 0 → d.dir ≤ 1 → (d.dir = 0 → data.length = d.len) → ∃ u, exec (.dmaDescriptor c w data ep) s = .next u ∧ u.dmaState c.val = 1 ∧
        (u.dma c.val).active = some d ∧ u.get (LK_DMA_DONEB_BYTES c.val) = 0) ∧
      (code = 0 → d.dir = 2 → ∃ u, exec (.dmaDescriptor c w data ep) s = .next u ∧ u.dmaState c.val = 1 ∧ (u.dma c.val).active = some d ∧
        (u.dma c.val).unacked.length ≤ 16) ∧
      (code ≠ 0 → ∃ u, exec (.dmaDescriptor c w data ep) s = .next u ∧ failed u code)) ∧
    (∀ d, (s.dma c.val).active = some d →
      (d.dir = 0 → d.win = 0 → d.inWindow = true → d.ep = [] → (regionOf d.dst = .context → s.ctxOpen d.dst = true) →
        ∃ u, exec (.dmaDescriptorDone c) s = .next u ∧ u.dmaState c.val = 0 ∧ u.get (LK_DMA_CONS_INDEX c.val) = next ∧
          HostMsg.write (s.dmaEntry c.val + 28) (bytesLE 4 (2 ^ 31 + b2n (s.dma c.val).poison * 2 ^ 30)) false ∈ u.hostOut ∧
          ∀ a, u.byteAt a = if d.dst ≤ a ∧ a < d.dst + min d.len d.data.length ∧ s.answers a = true then BitVec.ofNat 8 (d.data.getD (a - d.dst) 0) else s.byteAt a) ∧
      (d.dir = 1 → ∃ u, exec (.dmaDescriptorDone c) s = .next u ∧ u.dmaState c.val = 0 ∧ (u.dma c.val).active = none ∧
        (d.win = 0 → u.mem = s.mem ∧ u.get (LK_DMA_CONS_INDEX c.val) = next ∧ ∀ l ∈ linesIn d.src d.len, let a := max d.src l
          ∃ p, HostMsg.write (d.dst + (a - d.src)) (s.memBytes a (min (d.src + d.len) (l + 64) - a)) p ∈ u.hostOut)) ∧
      (d.dir = 2 → d.len ≤ (s.dma c.val).sent → (s.dma c.val).unacked = [] → ∃ u, exec (.dmaDescriptorDone c) s = .next u ∧ u.dmaState c.val = 0 ∧
        u.get (LK_DMA_CONS_INDEX c.val) = next ∧ u.mem = s.mem) ∧
      (d.dir = 0 → ∀ moved, (∃ u, exec (.dmaTransferError c .status moved) s = .next u ∧ failed u 0x10) ∧
        (∃ u, exec (.dmaTransferError c .timeout moved) s = .next u ∧ failed u 0x10)) ∧
      (d.dir = 0 → d.win = 0 → regionOf d.dst = .context → s.ctxOpen d.dst = false → ∀ moved, ∃ u, exec (.dmaTransferError c .context moved) s = .next u ∧
        failed u 0x11) ∧
      (∀ (m : Unacked) r, (s.dma c.val).unacked = m :: r → ∃ u, exec (.dmaRemoteTimeout c) s = .next u ∧ failed u 0x12 ∧
        u.ticks = max s.ticks (m.at_ + 100 * s.get LK_MESH_TMO_US)) ∧
      (∀ (x y : Fin 16) (tag : Fin 256) (m : Unacked), tag.val / 32 = c.val → d.dir = 2 → d.rx = x.val → d.ry = y.val →
        (s.dma c.val).unacked.find? (fun k => k.tag = tag.val) = some m →
        (∃ u, exec (.memAck x y tag true) s = .next u ∧ failed u 0x12) ∧
        (d.len ≤ (s.dma c.val).sent → ∃ u, exec (.memAck x y tag false) s = .next u ∧ (u.dma c.val).unacked = (s.dma c.val).unacked.erase m ∧
          u.get (LK_DMA_DONEB_BYTES c.val) = (s.get (LK_DMA_DONEB_BYTES c.val) + m.bytes) % 2 ^ 32))) ∧
    (∀ (x y : Fin 16) (vc : Fin 4) (tag : Fin 256) (a : Assembly), s.assembly.find? (fun a => a.x = x.val && a.y = y.val && a.vc = vc.val && a.tag = tag.val && a.done) = some a →
      ((s.assembly.takeWhile (· != a)).any (fun b => b.done && b.from_ = a.from_ && State.sameLine b a) = true → exec (.memWr x y vc tag) s = .next s) ∧
      ((s.assembly.takeWhile (· != a)).any (fun b => b.done && b.from_ = a.from_ && State.sameLine b a) = false →
      (a.addr + a.data.length ≤ 0x400000000 → ∃ u, exec (.memWr x y vc tag) s = .next u ∧ u.meshOut = s.meshOut ++ [.memAck x.val y.val tag.val false] ∧
        ∀ b, u.byteAt b = if a.addr ≤ b ∧ b < a.addr + a.data.length ∧ s.answers b = true then BitVec.ofNat 8 (a.data.getD (b - a.addr) 0) else s.byteAt b) ∧
      (0x400000000 < a.addr + a.data.length → ∃ u, exec (.memWr x y vc tag) s = .next u ∧ u.meshOut = s.meshOut ++ [.memAck x.val y.val tag.val true] ∧
        u.mem = s.mem)))

/-! ### Genhar links -/

/-- A flit in order is accepted and goes on to its output port, another is discarded with one NAK; a port sends what it has to
repeat, or the next flit for which it holds a credit; NAKs and time-outs replay; credits and acknowledgements pass in both
directions. A port trains, sending ALIGN blocks, comes UP with all credits beside the neighbour it expects and is MISWIRED beside another;
loss of lock takes it down; EN, RETRAIN and LPBK are obeyed, and in the far-end loopback what comes in goes out again. HOPS that rises with
every send, RETRAIN that clears the replay buffer, the position taken when a port begins to train, the instants of the timers and the ALIGN
blocks sent once for each stage are the model's choices (log entry 35). -/
def Obligations.GenharPortsCarryFlits : Prop :=
  (∀ (p : Fin 4) (s : State), s.portState p.val = 2 →
     let x := s.port p.val
     (∀ (flit : BitVec 512) (seq ackseq : Fin 256) (crc : BitVec 32) (ackv : Bool),
       let good := crc.toNat = crc32 0xFFFFFFFF (bytesLE 64 flit.toNat ++ [seq.val])
       let f := flit.toNat
       (good → seq.val = x.rxSeq → ∃ u, exec (.flitReceive p flit seq crc ackv ackseq) s = .next u ∧ (u.port p.val).rxSeq = (seq.val + 1) % 256 ∧
         (u.port p.val).any = true ∧ (u.port p.val).naked = false ∧ (fDx f ≤ 7 → fDy f ≤ 5 → fHops f < 12 → ∀ q, s.portFor f = some q → s.portState q = 2 →
           (u.port q).out = (s.port q).out ++ [⟨f + 2 ^ 40, some p.val⟩])) ∧
       (¬good ∨ seq.val ≠ x.rxSeq → x.naked = false → ∃ u, exec (.flitReceive p flit seq crc ackv ackseq) s = .next u ∧
         u.linkOut = s.linkOut ++ [.nak p.val x.rxSeq] ∧ (u.port p.val).rxSeq = x.rxSeq ∧ (u.port p.val).naked = true)) ∧
     (s.meshOut = [] →
       (∀ f r, x.again = f :: r → ∃ u, exec (.flitTransmit p) s = .next u ∧ (u.port p.val).again = r ∧ (u.port p.val).replay = x.replay ∧
         u.linkOut = s.linkOut ++ [.flit p.val f.2 f.1 (crc32 0xFFFFFFFF (bytesLE 64 f.2 ++ [f.1])) x.any ((x.rxSeq + 255) % 256)] ∧ u.regs = s.regs) ∧
       (∀ o, x.again = [] → x.replay.length < 64 → x.out = [o] → o.from_ = none → s.nextVc p.val = some (fVc o.flit) →
         ∃ u, exec (.flitTransmit p) s = .next u ∧ (u.port p.val).out = [] ∧ (u.port p.val).replay = x.replay ++ [(x.txSeq, o.flit)] ∧
           (u.port p.val).txSeq = (x.txSeq + 1) % 256 ∧ u.get (LK_G_CREDIT_CR p.val (fVc o.flit)) = s.get (LK_G_CREDIT_CR p.val (fVc o.flit)) - 1 ∧
           u.linkOut = s.linkOut ++ [.flit p.val o.flit x.txSeq (crc32 0xFFFFFFFF (bytesLE 64 o.flit ++ [x.txSeq])) x.any ((x.rxSeq + 255) % 256)])) ∧
     (∀ (seq : Fin 256) k, x.replay.findIdx? (fun f => f.1 = seq.val) = some k → x.tries < 16 → ∃ u, exec (.nakReceive p seq) s = .next u ∧
       (u.port p.val).again = x.replay.drop k ∧ (u.port p.val).tries = x.tries + 1 ∧ u.get (LK_G_CNT_NAKS p.val) = min (s.get (LK_G_CNT_NAKS p.val) + 1) 255 ∧
       u.get (LK_G_CNT_REPLAYS p.val) = min (s.get (LK_G_CNT_REPLAYS p.val) + 1) 255) ∧
     (∀ f r, x.replay = f :: r →
       (x.tries < 16 → ∃ u, exec (.replayTimeout p) s = .next u ∧ (u.port p.val).again = x.replay ∧ (u.port p.val).tries = x.tries + 1) ∧
       (16 ≤ x.tries → ∃ u, exec (.replayTimeout p) s = .next u ∧ u.on (LK_G_STAT_WENT_DOWN p.val) = true ∧ 182 ∈ u.lines ∧
         u.portState p.val = s.takePosition.get LK_MESH_POS_VALID)) ∧
     (∀ (c : Fin 4 → Fin 256) (ackv : Bool) (ackseq : Fin 256), ∃ u, exec (.creditReceive p (c 0) (c 1) (c 2) (c 3) ackv ackseq) s = .next u ∧
       ∀ k : Fin 4, u.get (LK_G_CREDIT_CR p.val k.val) = min (creditsOf k.val) (s.get (LK_G_CREDIT_CR p.val k.val) + (c k).val)) ∧
     (let sends := fun (u : State) => u.linkOut = s.linkOut ++ [.credit p.val (storeGet (fun _ => 0) x.owed 0) (storeGet (fun _ => 0) x.owed 1)
         (storeGet (fun _ => 0) x.owed 2) (storeGet (fun _ => 0) x.owed 3) x.any ((x.rxSeq + 255) % 256)] ∧ (u.port p.val).owed = [] ∧
         (u.port p.val).accepted = 0 ∧ u.regs = s.regs
      (x.owed ≠ [] → ∃ u, exec (.creditReturnTimer p) s = .next u ∧ sends u) ∧ (x.accepted ≠ 0 → ∃ u, exec (.ackTimer p) s = .next u ∧ sends u))) ∧
  (∀ (v : View) (p : Fin 4) (s : State),
     let aligns := fun ready => (List.range 4).map (fun l => LinkOut.align p.val l (s.get LK_MESH_POS_X) (s.get LK_MESH_POS_Y) p.val ready)
     (∀ (lane port : Fin 4) (x y : Fin 8), s.portState p.val = 1 → ∃ u, exec (.alignReceive p lane x y port true) s = .next u ∧
       u.get (LK_G_STAT_NBR_X p.val) = x.val ∧ u.get (LK_G_STAT_NBR_Y p.val) = y.val ∧ (u.port p.val).lanes = (s.port p.val).lanes ||| 2 ^ lane.val ∧
       u.linkOut = s.linkOut ++ (if (s.port p.val).seen ≠ 15 ∧ (s.port p.val).seen ||| 2 ^ lane.val = 15 then aligns true else [])) ∧
     (∀ (lane port : Fin 4) (x y : Fin 8) (ready : Bool), s.portState p.val = 0 → exec (.alignReceive p lane x y port ready) s = .next s) ∧
     (s.portState p.val = 5 → s.get (LK_G_CTRL_LPBK p.val) = 3 → s.get (LK_G_CTRL_PRBS p.val) = 0 →
       (∀ (lane port : Fin 4) (x y : Fin 8) (ready : Bool), exec (.alignReceive p lane x y port ready) s =
         .next { s with linkOut := s.linkOut ++ [.align p.val lane.val x.val y.val port.val ready] }) ∧
       (∀ (seq : Fin 256), exec (.nakReceive p seq) s = .next { s with linkOut := s.linkOut ++ [.nak p.val seq.val] }) ∧
       (∀ (c : Fin 4 → Fin 256) (ackv : Bool) (ackseq : Fin 256), exec (.creditReceive p (c 0) (c 1) (c 2) (c 3) ackv ackseq) s =
         .next { s with linkOut := s.linkOut ++ [.credit p.val (c 0).val (c 1).val (c 2).val (c 3).val ackv ackseq.val] }) ∧
       (∀ (flit : BitVec 512) (seq ackseq : Fin 256) (crc : BitVec 32) (ackv : Bool), exec (.flitReceive p flit seq crc ackv ackseq) s =
         .next { s with linkOut := s.linkOut ++ [.flit p.val flit.toNat seq.val crc.toNat ackv ackseq.val] })) ∧
     (s.portState p.val = 1 → (s.port p.val).lanes = 15 →
       (s.expected p.val = some (s.get (LK_G_STAT_NBR_X p.val), s.get (LK_G_STAT_NBR_Y p.val)) → ∃ u, exec (.trainingComplete p) s = .next u ∧
         u.portState p.val = 2 ∧ ∀ k : Fin 4, u.get (LK_G_CREDIT_CR p.val k.val) = creditsOf k.val) ∧
       (s.expected p.val ≠ some (s.get (LK_G_STAT_NBR_X p.val), s.get (LK_G_STAT_NBR_Y p.val)) → ∃ u, exec (.trainingComplete p) s = .next u ∧
         u.portState p.val = 3 ∧ u.port p.val = s.port p.val)) ∧
     (s.portState p.val = 2 → ∃ u, exec (.blockLockLoss p) s = .next u ∧ u.on (LK_G_STAT_WENT_DOWN p.val) = true ∧ 182 ∈ u.lines ∧
       u.portState p.val = s.takePosition.get LK_MESH_POS_VALID ∧ (u.port p.val).replay = []) ∧
     (s.ready = true → directView v = true →
       (s.portState p.val ≠ 0 → ∃ u, exec (.portEnable v p false) s = .next u ∧ u.portState p.val = 0 ∧ u.on (LK_G_CTRL_EN p.val) = false) ∧
       (s.portState p.val = 0 → s.get (LK_G_CTRL_LPBK p.val) = 0 → ∃ u, exec (.portEnable v p true) s = .next u ∧
         u.portState p.val = s.takePosition.get LK_MESH_POS_VALID ∧ u.on (LK_G_CTRL_EN p.val) = true) ∧
       (s.on (LK_G_CTRL_EN p.val) = true → s.get (LK_G_CTRL_LPBK p.val) = 0 → ∃ u, exec (.portRetrain v p) s = .next u ∧
         u.portState p.val = s.takePosition.get LK_MESH_POS_VALID ∧ (u.port p.val).replay = [] ∧ (u.port p.val).lanes = 0 ∧
         (s.takePosition.on LK_MESH_POS_VALID = true → u.linkOut.length = s.linkOut.length + 4)) ∧
       (∀ mode : Fin 8, s.on (LK_G_CTRL_EN p.val) = true → 1 ≤ mode.val → mode.val ≤ 4 → s.portState p.val ≠ 5 → s.on LK_MESH_POS_VALID = false →
         ∃ u, exec (.portLoopback v p mode) s = .next u ∧ u.portState p.val = s.portState p.val ∧ u.ports = s.ports) ∧
       (∀ mode : Fin 8, s.on (LK_G_CTRL_EN p.val) = true → 1 ≤ mode.val → mode.val ≤ 4 → s.portState p.val ≠ 5 → s.on LK_MESH_POS_VALID = true →
         ∃ u, exec (.portLoopback v p mode) s = .next u ∧ u.portState p.val = 5 ∧ u.get (LK_G_CTRL_LPBK p.val) = mode.val) ∧
       (s.on (LK_G_CTRL_EN p.val) = true → s.portState p.val = 5 → ∃ u, exec (.portLoopback v p 0) s = .next u ∧
         u.portState p.val = s.takePosition.get LK_MESH_POS_VALID ∧ u.get (LK_G_CTRL_LPBK p.val) = 0)))

/-! ### Supervisors -/

/-- A heartbeat by the named supervisor makes it heard again, ten milliseconds without one make it SILENT and hand its domain over; the
token is claimed, taken over and set; a trapped supervisor is released, a restarted one boots. That a supervisor in BOOT takes a domain too
and that a restart drops the command it was given is DEDUCED (log entry 38). -/
def Obligations.SupervisorsHoldTheirDomains : Prop :=
  ∀ (v : View) (d : Fin 2) (s : State),
    (∀ w : Word, s.ready = true →
      (supervisorOf v = some d.val → ∃ u, exec (.heartbeat v d w) s = .next u ∧ u = s.heartbeat d.val ∧ u.on (svSilent d.val) = false ∧ (u.sv d.val).hbAt = s.ticks) ∧
      (directView v = true → exec (.heartbeat v d w) s = .next s)) ∧
    (s.on (svSilent d.val) = false → ∃ u, exec (.supervisorSilent d) s = .next u ∧ u.on (svSilent d.val) = true ∧ u.get (svDoms d.val) = 0 ∧
      u.fbit (EV_PEND_PEND 40) 9 = true ∧ u.ticks = max s.ticks ((s.sv d.val).hbAt + 1000000) ∧
      (s.on (svSilent (1 - d.val)) = false → s.get (svState (1 - d.val)) ≠ 2 → u.fbit (svDoms (1 - d.val)) d.val = true)) ∧
    (s.ready = true → supervisorOf v = some d.val →
      (s.get SV_LEAD_HOLDER = 0 → s.on SV_LEAD_CONFLICT = false → ∃ u, exec (.leadClaim v) s = .next u ∧ u.get SV_LEAD_HOLDER = d.val + 1) ∧
      (s.get SV_LEAD_HOLDER ≠ 0 → exec (.leadClaim v) s = .next s) ∧
      (s.leads (1 - d.val) = true → s.on (svSilent (1 - d.val)) = true → s.on SV_LEAD_CONFLICT = false → s.on (svSilent d.val) = false → s.get (svState d.val) ≠ 2 →
        ∃ u, exec (.leadTakeover v) s = .next u ∧ u.get SV_LEAD_HOLDER = d.val + 1 ∧ u.fbit (EV_PEND_PEND 40) 8 = true)) ∧
    (s.ready = true → hostView v = true →
      (∀ w : Word, w.toNat.testBit 31 = true → w.toNat % 4 ≠ 3 → ∃ u, exec (.leadSet v w) s = .next u ∧ u.get SV_LEAD_HOLDER = w.toNat % 4 ∧
        u.on SV_LEAD_CONFLICT = false ∧ u.get SV_LEAD_CULPRIT = 0) ∧
      (s.get (svState d.val) = 2 → ∃ u, exec (.supervisorRelease v d) s = .next u ∧ u.get (svState d.val) = 1) ∧
      (∃ u, exec (.supervisorRestart v d) s = .next u ∧ u.get (svState d.val) = 0 ∧ (u.sv d.val).cmd = none ∧ u.on (SV_MBX_STAT_BUSY d.val) = false))

/-- A mailbox command of a running supervisor is taken up: PING and VERSION are answered OK; UCODE_LOAD and WEAR_SAVE act for the supervisor
that leads and are denied to the other; CAL_RUN makes the masked strips of its domain that are enabled DUE and is denied where it serves none
of them; SEQ sets EN of the outputs that want it, or clears EN, in the masked strips, and is denied where the supervisor does not serve one of
them; SELFCHECK is denied where it does not serve one of the masked tillers, and counts at most those that are IDLE or HALTED. A trapped supervisor serves PING and VERSION alone; one in BOOT lets the command wait; one that finds
BUSY is rejected. A response joins the mailbox when it has room. What the firmware itself measures is the operand of the response (log
entries 12 and 38). -/
def Obligations.SupervisorServicesAct : Prop :=
  ∀ (v : View) (d : Fin 2) (s : State),
    (∀ a0 a1 a2 : Word, s.ready = true → directView v = true → s.on (SV_MBX_STAT_BUSY d.val) = false →
      let took := fun (u : State) (code : Nat) (status value : Option Nat) => (u.sv d.val).cmd = some ⟨code, 0, status, value, none⟩ ∧
        u.on (SV_MBX_STAT_BUSY d.val) = true
      let stopped := fun (k : Nat) => s.thState (2 * k) = 0 ∧ s.thState (2 * k + 1) = 0
      let all := [(3, Instr.ucodeLoad v d a0 a1 a2), (4, .calRun v d a0 a1 a2), (5, .svWearSave v d a0 a1 a2), (6, .svSeq v d a0 a1 a2), (7, .selfcheck v d a0 a1 a2)]
      (s.get (svState d.val) = 0 → ∀ x ∈ (1, Instr.ping v d a0 a1 a2) :: (2, .version v d a0 a1 a2) :: all, ∃ u, exec x.2 s = .next u ∧ took u x.1 none none) ∧
      (s.get (svState d.val) = 1 ∨ s.get (svState d.val) = 2 →
        (∃ u, exec (.ping v d a0 a1 a2) s = .next u ∧ took u 1 (some 0) (some (min ((s.ticks - (s.sv d.val).started) / 100000) (2 ^ 31 - 1)))) ∧
        (∃ u, exec (.version v d a0 a1 a2) s = .next u ∧ took u 2 (some 0) none)) ∧
      (s.get (svState d.val) = 2 → ∀ x ∈ all, ∃ u, exec x.2 s = .next u ∧ took u x.1 (some 3) none ∧ u.sheaves = s.sheaves ∧ u.supplies = s.supplies) ∧
      (s.get (svState d.val) = 1 →
        (s.leads d.val = true → ∃ u m, exec (.ucodeLoad v d a0 a1 a2) s = .next u ∧ took u 3 none (some m) ∧ m < 2 ^ 16 ∧
          ∀ k, k < 16 → (m.testBit k = true ↔ a0.toNat.testBit k = true ∧ stopped k) ∧
            (m.testBit k = true → (u.sheaf k).builtin = true ∧ (u.sheaf k).words = []) ∧
            (a0.toNat.testBit k = true → ¬stopped k → u.on (SH_UCS_CTRL_REFUSED k) = true)) ∧
        (s.leads d.val = false → ∃ u, exec (.ucodeLoad v d a0 a1 a2) s = .next u ∧ took u 3 (some 3) none ∧ u.sheaves = s.sheaves) ∧
        (∃ u m, exec (.calRun v d a0 a1 a2) s = .next u ∧ m < 2 ^ 8 ∧
          (∀ r, r < 8 → (m.testBit r = true ↔ a0.toNat.testBit r = true ∧ s.serves d.val r = true ∧ s.on (ST_CAL_CTRL_EN r) = true)) ∧
          (a0.toNat % 2 ^ 8 ≠ 0 → (∀ r, r < 8 → a0.toNat.testBit r = true → s.serves d.val r = false) → took u 4 (some 3) none) ∧
          (a0.toNat % 2 ^ 8 = 0 ∨ (∃ r, r < 8 ∧ a0.toNat.testBit r = true ∧ s.serves d.val r = true) → took u 4 none (some m) ∧
            ∀ r, r < 8 → m.testBit r = true → u.on (ST_CAL_STAT_DUE r) = true)) ∧
        (s.leads d.val = true → ∃ u, exec (.svWearSave v d a0 a1 a2) s = .next u ∧ took u 5 none (some 0) ∧ u.on GL_WEAR_STAT_SAVE_BUSY = true) ∧
        (s.leads d.val = false → ∃ u, exec (.svWearSave v d a0 a1 a2) s = .next u ∧ took u 5 (some 3) none) ∧
        ((∃ r, r < 8 ∧ a0.toNat.testBit r = true ∧ s.serves d.val r = false) → ∃ u, exec (.svSeq v d a0 a1 a2) s = .next u ∧ took u 6 (some 3) none ∧
          u.supplies = s.supplies) ∧
        ((∀ r, r < 8 → a0.toNat.testBit r = true → s.serves d.val r = true) →
          (a1 = 1 → ∃ u, exec (.svSeq v d a0 a1 a2) s = .next u ∧ took u 6 none (some (a0.toNat % 2 ^ 8)) ∧
            ∀ t h, t < 64 → h < 2 → a0.toNat.testBit (rowOf t) = true → s.seqWants t h = true → s.get (TL_SUP_STAT_STATE t h) = 0 →
              s.power.noSafe = false → s.inReset t = false → u.on (TL_SUP_CTRL_EN t h) = true) ∧
          (a1 = 0 → ∃ u, exec (.svSeq v d a0 a1 a2) s = .next u ∧ took u 6 none (some (a0.toNat % 2 ^ 8)) ∧
            ∀ t h, t < 64 → h < 2 → a0.toNat.testBit (rowOf t) = true → u.on (TL_SUP_CTRL_EN t h) = false)) ∧
        (let masked := allTillers.filter (fun t => (if t < 32 then a0 else a1).toNat.testBit (t % 32))
         (masked.any (fun t => !s.serves d.val (rowOf t)) = true → ∃ u, exec (.selfcheck v d a0 a1 a2) s = .next u ∧ took u 7 (some 3) none) ∧
         (masked.any (fun t => !s.serves d.val (rowOf t)) = false → ∃ u, exec (.selfcheck v d a0 a1 a2) s = .next u ∧
           (u.sv d.val).cmd = some ⟨7, 0, none, none, some (masked.countP (fun t => decide (s.engine t = 0 ∨ s.engine t = 4)))⟩)))) ∧
    (∀ a0 a1 a2 : Word, s.ready = true → directView v = true → s.on (SV_MBX_STAT_BUSY d.val) = true →
      ∀ c ∈ [Instr.ping v d a0 a1 a2, .version v d a0 a1 a2, .ucodeLoad v d a0 a1 a2, .calRun v d a0 a1 a2, .svWearSave v d a0 a1 a2,
        .svSeq v d a0 a1 a2, .selfcheck v d a0 a1 a2], ∃ u, exec c s = .next u ∧ u.on (SV_MBX_STAT_CMD_REJ d.val) = true ∧ u.svs = s.svs) ∧
    (∀ c (status : BitVec 8) (value : BitVec 31), (s.sv d.val).cmd = some c →
      (s.get (svState d.val) = 1 ∨ s.get (svState d.val) = 2 → (s.sv d.val).mbx.length ≤ 62 → ∃ u, exec (.svResponse d status value) s = .next u ∧
        (u.sv d.val).cmd = none ∧ u.on (SV_MBX_STAT_BUSY d.val) = false ∧
        (u.sv d.val).mbx = (s.sv d.val).mbx ++ [c.tag * 2 ^ 16 + c.code * 2 ^ 8 + c.status.getD status.toNat, c.answer value.toNat] ∧
        u.fbit (EV_PEND_PEND 40) 11 = true) ∧
      (62 < (s.sv d.val).mbx.length → exec (.svResponse d status value) s = .next s)) ∧
    ((s.sv d.val).cmd = none → ∀ status value, exec (.svResponse d status value) s = .next s)

/-! ### Events and faults -/

/-- A channel is configured and fired by those who may; an arrival is discarded, suppressed, merged, accepted, or trips the runaway limit;
an accepted event reaches its consumer and makes the channel refractory, or wakes the part. The places of the merge windows and of the
arrival slots, and the instant from which the refractory time runs, are as DEDUCED in log entry 36. -/
def Obligations.RouterChannelsCarryEvents : Prop :=
  ∀ (v : View) (e : Fin 256) (s : State),
    (s.ready = true → directView v = true → ∃ u, exec (.evFire v e) s = .next u ∧ u.firings = s.firings ++ [e.val]) ∧
    (s.ready = true → userView v = true → (s.userMayFire e.val = true → ∃ u, exec (.evFire v e) s = .next u ∧ u.firings = s.firings ++ [e.val]) ∧
      (s.userMayFire e.val = false → ∃ u, exec (.evFire v e) s = .next u ∧ u.firings = s.firings ∧ u.on (EV_CH_STAT_FIRE_REJ e.val) = true)) ∧
    (∀ w : Word, s.ready = true → directView v = true →
      (s.on (EV_CH_STAT_RUNAWAY e.val) = false ∨ w.toNat.testBit 31 = false → ∃ u, exec (.evChCfgWrite v e w) s = .next u ∧
        u.on (EV_CH_CFG_EN e.val) = w.toNat.testBit 31 ∧ u.on (EV_CH_CFG_SEC e.val) = w.toNat.testBit 28 ∧ u.get (EV_CH_CFG_TDOM e.val) = bits w.toNat 25 22 ∧
        u.get (EV_CH_CFG_OWNER e.val) = (if bits w.toNat 27 26 = 3 then s.get (EV_CH_CFG_OWNER e.val) else bits w.toNat 27 26) ∧
        u.on (EV_CH_CFG_LOCK e.val) = (!w.toNat.testBit 29 && (w.toNat.testBit 30 || s.on (EV_CH_CFG_LOCK e.val)))) ∧
      (s.on (EV_CH_STAT_RUNAWAY e.val) = true → w.toNat.testBit 31 = true → ∃ u, exec (.evChCfgWrite v e w) s = .next u ∧
        u.on (EV_CH_CFG_EN e.val) = s.on (EV_CH_CFG_EN e.val) ∧ u.on (EV_CH_STAT_CFG_REJ e.val) = true)) ∧
    (∀ at_ : Nat,
      (s.on (EV_CH_CFG_EN e.val) = false → ∃ u, exec (.eventArrival e at_) s = .next u ∧ u.chan e.val = s.chan e.val ∧ u.regs = s.regs) ∧
      (s.on (EV_CH_CFG_EN e.val) = true → (s.chan e.val).arrivals = [] →
        (at_ < (s.chan e.val).quietTo → ∃ u, exec (.eventArrival e at_) s = .next u ∧
          u.get (EV_CH_STAT_SUPPR e.val) = min (s.get (EV_CH_STAT_SUPPR e.val) + 1) 255 ∧ (u.chan e.val).flight = (s.chan e.val).flight) ∧
        ((s.chan e.val).quietTo ≤ at_ → (s.chan e.val).window = some (at_ / 320) → ∃ u, exec (.eventArrival e at_) s = .next u ∧
          u.get (EV_CH_STAT_MERGED e.val) = min (s.get (EV_CH_STAT_MERGED e.val) + 1) 255 ∧ (u.chan e.val).flight = (s.chan e.val).flight) ∧
        ((s.chan e.val).quietTo ≤ at_ → (s.chan e.val).window ≠ some (at_ / 320) → ∃ u, exec (.eventArrival e at_) s = .next u ∧
          (u.chan e.val).flight = (s.chan e.val).flight ++ [at_] ∧ (u.chan e.val).window = some (at_ / 320) ∧ u.regs = s.regs)) ∧
      (s.on (EV_CH_CFG_EN e.val) = true → (s.chan e.val).arrivals = [(at_ / 128000, 256)] → ∃ u, exec (.eventArrival e at_) s = .next u ∧
        u.on (EV_CH_CFG_EN e.val) = false ∧ u.on (EV_CH_STAT_RUNAWAY e.val) = true ∧ u.fbit (EV_PEND_PEND 40) 4 = true)) ∧
    (∀ a r, (s.chan e.val).flight = a :: r →
      (s.powerState ≠ 4 → ∃ u, exec (.eventDeliver e) s = .next u ∧ (u.chan e.val).flight = r ∧ (u.chan e.val).quietTo = a + 1536 + 5120 ∧
        u.ticks = max s.ticks ((a + 1536) / 1280) ∧
        (e.val < 64 → u.fbit (EV_PEND_PEND (e.val / 2)) (16 * (e.val % 2)) = true) ∧
        (64 ≤ e.val → e.val < 128 → u.fbit (TL_EVIN_LATCH (e.val % 64)) 6 = true) ∧ (128 ≤ e.val → e.val < 192 → u.fbit (TL_EVIN_LATCH (e.val % 64)) 7 = true)) ∧
      (s.powerState = 4 → 192 ≤ e.val → ∃ u, exec (.eventDeliver e) s = .next u ∧ u.powerState = 1))

/-- An error line is latched, the first one recorded, and INT, TRAP and the stop of ALIVE act while a reset is noted; a chip reset, a
supervisor's restart or the host port's reset that was noted is made in its turn; a check is armed for injection; ALIVE starts, toggles every
500 µs from its start and stops 100 ms after the last kick. That TRAP and INT act as the bit sets, which lines keep their level, the 2 µs of
a reset that was noted and the grid of ALIVE are as DEDUCED in log entry 37. -/
def Obligations.FaultsAreCollected : Prop :=
  ∀ (v : View) (b : Fin 184) (s : State),
    (s.faultBit b.val = false → ∃ u, exec (.errorLine b) s = .next u ∧ u.faultBit b.val = true ∧
      (s.on FC_FIRST_VALID = false → u.on FC_FIRST_VALID = true ∧ u.get FC_FIRST_BIT = b.val) ∧
      ((s.reactionOf b.val).testBit 0 = true → u.fbit (EV_PEND_PEND 40) 0 = true) ∧
      ((s.reactionOf b.val).testBit 1 = true → ∀ d ∈ trapsOf b.val, u.get (svState d) = if s.get (svState d) = 1 then 2 else s.get (svState d)) ∧
      ((s.reactionOf b.val).testBit 5 = true → u.on FC_ALIVE_STOPPED = true ∧ u.on FC_ALIVE_RUNNING = false) ∧
      u.collector.waiting = if (s.reactionOf b.val).testBit 4 then s.collector.waiting ++ [(b.val + 256, s.ticks + 200)] else
        if (s.reactionOf b.val).testBit 3 && !noBlockReset b.val then s.collector.waiting ++ [(b.val, s.ticks + 200)] else s.collector.waiting) ∧
    (s.faultBit b.val = true → exec (.errorLine b) s = .next (s.dropLine b.val)) ∧
    (∀ n at_ r, s.collector.waiting = (n, at_) :: r →
      (256 ≤ n → exec .faultReactReset s = .next ({ s.advTo at_ with collector := { s.collector with waiting := r } }.chipReset 6)) ∧
      (n = 178 ∨ n = 179 → ∃ u, exec .faultReactReset s = .next u ∧ u.get (svState (n - 178)) = 0 ∧ u.collector.waiting = r) ∧
      (n = 181 → ∃ u, exec .faultReactReset s = .next u ∧ u.dmas = [] ∧ u.hmqs = [] ∧ u.collector.waiting = r)) ∧
    (∀ w : Word, s.ready = true → directView v = true → s.on FC_INJ_CONT = false → w.toNat.testBit 31 = true →
      (bits w.toNat 7 0 < injectionUnits (bits w.toNat 15 8) → ∃ u, exec (.faultInject v w) s = .next u ∧ u.on FC_INJ_STAT_ARMED = true ∧
        u.get FC_INJ_MASK = bits w.toNat 23 16 ∧ u.get FC_INJ_CLASS = bits w.toNat 15 8 ∧ u.get FC_INJ_INSTANCE = bits w.toNat 7 0) ∧
      (injectionUnits (bits w.toNat 15 8) ≤ bits w.toNat 7 0 → ∃ u, exec (.faultInject v w) s = .next u ∧ u.on FC_INJ_STAT_BAD = true ∧
        u.on FC_INJ_STAT_ARMED = s.on FC_INJ_STAT_ARMED)) ∧
    (s.ready = true → directView v = true → s.on FC_ALIVE_STOPPED = false → (∃ u, exec (.aliveKick v 0xA11E) s = .next u ∧ u.on FC_ALIVE_RUNNING = true ∧
        u.collector.kickAt = s.ticks ∧ (s.on FC_ALIVE_RUNNING = false → u.collector.level = true ∧ u.collector.toggleAt = s.ticks + 50000)) ∧
      ∀ key, key ≠ 0xA11E → exec (.aliveKick v key) s = .next s) ∧
    (s.on FC_ALIVE_RUNNING = true → (∃ u, exec .aliveToggle s = .next u ∧ u.collector.level = !s.collector.level ∧ u.regs = s.regs ∧
        u.ticks = max s.ticks s.collector.toggleAt ∧ u.collector.toggleAt = s.collector.toggleAt + 50000) ∧
      (s.powerState ≠ 4 → ∃ u, exec .aliveTimeout s = .next u ∧ u.on FC_ALIVE_RUNNING = false ∧ u.collector.level = false ∧
        u.ticks = max s.ticks (s.collector.kickAt + 10000000) ∧ ∀ a, a ≠ FC_ALIVE → u.reg a = s.reg a))

/-! ### Management port and NVM -/

/-- A slave transaction of one whole word counts and accesses its register behind the marker 0xA5, one that timed out reads 0 behind 0x5A, an
unaligned one sets ALIGN; the master takes a command, with MSP_F_CS# low and the transaction driven to the flash unless its loopback is on, and
ends it with the words received, or in the loopback with those IO0 gave, which are free; a word is pushed; a row is programmed and a sector
erased where the host may, with their end; NV_DATA is filled and read. When the words of a write phase are taken, and that a read of TMO makes
no access, is DEDUCED (log entry 40); that the contents change as GO is accepted too (log entry 31). -/
def Obligations.ManagementPortAndNvmAct : Prop :=
  ∀ (v : View) (s : State),
    (s.power.vbulk = true → ∀ x : MspTrans, x.cut = .clean → x.tmo = false →
      let s0 := (s.put MSP_STATUS_MODE3 (b2n x.mode3)).bump MSP_STATUS_TRANS
      (x.addr.toNat % 4 = 0 → s0.mspValid (mspEnd x.addr.toNat) x.addr.toNat = true →
        (x.read = true → x.cnt = true → x.n = 0 → x.clocked = 1 → ∃ u, exec (.mspTransaction x) s = .next u ∧ u.msp.marker = 0xA5 ∧
          u.rdData = (s0.regRead .msp x.addr.toNat).2 ∧ u.regs = (s0.regRead .msp x.addr.toNat).1.regs) ∧
        (∀ w, x.read = false → x.words = [w] → exec (.mspTransaction x) s = .next (s0.regWrite .msp x.addr.toNat w.toNat))) ∧
      (x.addr.toNat % 4 ≠ 0 → ∃ u, exec (.mspTransaction x) s = .next u ∧ u.on MSP_STATUS_ALIGN = true ∧
        u.get MSP_STATUS_TRANS = s0.get MSP_STATUS_TRANS ∧ ∀ a, a ≠ MSP_STATUS → u.reg a = s.reg a)) ∧
    (s.power.vbulk = true → ∀ x : MspTrans, x.cut = .clean → x.tmo = true → x.read = true → x.addr.toNat % 4 = 0 →
      ∃ u, exec (.mspTransaction x) s = .next u ∧ u.on MSP_STATUS_TMO = true ∧ u.rdData = 0 ∧ u.msp.marker = 0x5A ∧ ∀ a, a ≠ MSP_STATUS → u.reg a = s.reg a) ∧
    (s.power.vbulk = false → ∀ x, exec (.mspTransaction x) s = .next s) ∧
    (s.ready = true → directView v = true →
      (∀ w : Word, let u0 := s.storeWord MSP_M_CMD (insert32 w.toNat 31 31 1)
        let lp := s.on MSP_M_CTRL_LPBK
        let drives := fun (u : State) (l : List Nat) => u.msp.selects = !lp ∧ u.msp.loops = lp ∧ (lp = true → u.msp.flash = s.msp.flash) ∧
          (lp = false → ∃ x, u.msp.flash = s.msp.flash ++ [x] ∧ x.opcode = u0.get MSP_M_CMD_OPCODE ∧ x.addr = (s.reg MSP_M_ADDR).toNat ∧
            x.rd = u0.on MSP_M_CMD_RD ∧ x.len = s.get MSP_M_LEN_VALUE ∧ x.words = l)
        s.on MSP_M_STAT_BUSY = false → s.on MSP_M_CTRL_EN = true → s.bootHolds = false →
        (lp = true → u0.get MSP_M_CMD_CLN = 0 ∧ u0.get MSP_M_CMD_ALN = 0 ∧ u0.get MSP_M_CMD_DLN = 0) →
        (u0.on MSP_M_CMD_RD = true → ∃ u, exec (.mspMasterGo v w) s = .next u ∧ u.on MSP_M_STAT_BUSY = true ∧
          u.msp.fifo = s.msp.fifo ∧ u.msp.reads = some (s.get MSP_M_LEN_VALUE) ∧ drives u []) ∧
        (u0.on MSP_M_CMD_RD = false → s.get MSP_M_LEN_VALUE ≤ 4 * s.msp.fifo.length → ∃ u, exec (.mspMasterGo v w) s = .next u ∧
          u.on MSP_M_STAT_BUSY = true ∧ u.msp.fifo = s.msp.fifo.drop ((s.get MSP_M_LEN_VALUE + 3) / 4) ∧ u.msp.reads = none ∧
          drives u (s.msp.fifo.take ((s.get MSP_M_LEN_VALUE + 3) / 4)))) ∧
      (∀ w : Word, s.on MSP_M_STAT_BUSY = true → ∃ u, exec (.mspMasterGo v w) s = .next u ∧ u.on MSP_M_STAT_REFUSED = true ∧ u.msp = s.msp) ∧
      (∀ w : Word, s.msp.fifo.length < 64 → ∃ u, exec (.mspDataWrite v w) s = .next u ∧ u.msp.fifo = s.msp.fifo ++ [w.toNat] ∧ u.regs = s.regs) ∧
      (∀ w : Word, let a := s.get NV_ADDR_ADDR
        s.on NV_STAT_BUSY = false → a / 4096 < 8 ∨ 112 ≤ a / 4096 →
        (∃ u, exec (.nvProgram v w) s = .next u ∧ u.on NV_STAT_BUSY = true ∧ u.nvm.op = some (1, a) ∧
          ∀ k, k < 64 → storeGet (fun _ => none) u.nvm.words (64 * (a / 256) + k) = some (storeGet (fun _ => 0) s.nvm.row k)) ∧
        (∃ u, exec (.nvErase v w) s = .next u ∧ u.on NV_STAT_BUSY = true ∧ u.nvm.op = some (2, a) ∧
          u.wearOf (0x300 + a / 4096) = min (s.wearOf (0x300 + a / 4096) + 1) 0xFFFFFFFF)) ∧
      (∀ w : Word, let a := s.get NV_ADDR_ADDR
        s.on NV_STAT_BUSY = true ∨ (8 ≤ a / 4096 ∧ a / 4096 < 112) → ∃ u t, exec (.nvProgram v w) s = .next u ∧ exec (.nvErase v w) s = .next t ∧
          u.on NV_STAT_DENIED = true ∧ t.on NV_STAT_DENIED = true ∧ u.nvm = s.nvm ∧ t.nvm = s.nvm) ∧
      (∀ w : Word, ∃ u, exec (.nvDataAccess v true w) s = .next u ∧ storeGet (fun _ => 0) u.nvm.row (s.get NV_ADDR_ADDR / 4 % 64) = w ∧ u.nvm.words = s.nvm.words) ∧
      (s.on FC_INJ_STAT_ARMED = false → ∃ u, exec (.nvDataAccess v false 0) s = .next u ∧ u.rdData = (s.nvmWord (s.get NV_ADDR_ADDR / 4)).toNat ∧ u.nvm = s.nvm)) ∧
    (∀ (n : Nat) (l : List Word), s.on MSP_M_STAT_BUSY = true → s.msp.reads = some n → l.length = (n + 3) / 4 → s.msp.fifo.length + l.length ≤ 64 →
      ∃ u, exec (.mspMasterDone l) s = .next u ∧ u.on MSP_M_STAT_BUSY = false ∧
        u.msp = { s.msp with fifo := s.msp.fifo ++ (if s.msp.loops then State.loopWords s.draws n else l.map BitVec.toNat), reads := none, selects := false, loops := false } ∧
        u.fbit (EV_PEND_PEND 40) 16 = true) ∧
    (∀ op a, s.nvm.op = some (op, a) →
      (∃ u, exec (.nvOpDone true) s = .next u ∧ u.on NV_STAT_BUSY = false ∧ u.nvm = { s.nvm with op := none } ∧ u.fbit (EV_PEND_PEND 40) 12 = true) ∧
      (op = 1 → ∃ u, exec (.nvOpDone false) s = .next u ∧ u.on NV_STAT_BUSY = false ∧ u.nvm.op = none ∧ u.on NV_STAT_VERIFY_ERR = true))

/-! ### Power, reset and boot -/

/-- Power: VBULK begins the sequence, a step's PG is accepted in its time and the next step starts, with VCORE the clock PLL starts and the
Genhar ports train; a missing PG or one that falls is a failure, of several that fall in one tick the lowest is recorded, the steps go down in
order; ON and WAKE of the management port, OFF and SLEEP are obeyed in the states that take them; between a thermal trip and its rails-off
nothing else moves the sequence. That a cycle is a tick, from which command the times of a step run, and that ON and WAKE need no key is
DEDUCED (log entry 41). -/
def Obligations.PowerSequencesRun : Prop :=
  ∀ (v : View) (s : State),
    (∀ cpos, ∃ u, exec (.vbulkPowerUp cpos) s = .next u ∧ u.power = { Power.reset with cpos := cpos.toNat, dueAt := s.ticks + pgTicks } ∧ u.get GL_PWR_STAT_REG_EN = 1 ∧
      u.powerState = 1 ∧ u.pending = s.pending ∧ u.ticks = s.ticks ∧ u.on GL_RST_STAT_REGS_READY = false ∧
      ∀ k, u.wearOf k = if k = contactKey then 0 else storeGet (fun _ => 0) s.nvm.saved k) ∧
    (s.tripped = true → (∀ step : Fin 6, exec (.pgFall step) s = .next s) ∧
      ∀ c ∈ [Instr.powerStepStart, .powerStepDone, .pgTimeout, .powerDownStep], exec c s = .next s) ∧
    (∀ k, s.topStep = k + 1 → s.powerState = 1 → s.tripped = false →
      (s.fbit GL_PWR_STAT_PG k = true → k < 5 → ∃ u, exec .powerStepStart s = .next u ∧ u.fbit GL_PWR_STAT_REG_EN (k + 1) = true ∧ ∀ a, a ≠ GL_PWR_STAT → u.reg a = s.reg a) ∧
      (s.fbit GL_PWR_STAT_PG k = false →
        (s.ticks ≤ s.power.dueAt → ∃ u, exec .powerStepDone s = .next u ∧ u.fbit GL_PWR_STAT_PG k = true ∧ (u.powerState = if k = 5 then 2 else 1) ∧
          (k ≠ 1 → ∀ a, a ≠ GL_PWR_STAT → u.reg a = s.reg a) ∧
          (k = 1 → u.power.pll = true ∧ ∀ p : Fin 4, u.portState p.val = s.takePosition.get LK_MESH_POS_VALID)) ∧
        (s.power.dueAt < s.ticks → exec .powerStepDone s = .next s) ∧
        (∃ u, exec .pgTimeout s = .next u ∧ u.on GL_PWR_STAT_PWR_FAIL = true ∧ u.get GL_PWR_STAT_FAIL_STEP = k + 1 ∧ u.powerState = 3 ∧ u.power.goal = 0))) ∧
    (∀ step : Fin 6, s.tripped = false → s.powerState = 1 ∨ s.powerState = 2 → s.fbit GL_PWR_STAT_REG_EN step.val = true → s.fbit GL_PWR_STAT_PG step.val = true →
      ∃ u, exec (.pgFall step) s = .next u ∧ u.on GL_PWR_STAT_PWR_FAIL = true ∧ u.get GL_PWR_STAT_FAIL_STEP = step.val + 1 ∧ u.powerState = 3 ∧
        u.fbit GL_PWR_STAT_PG step.val = false) ∧
    (∀ step : Fin 6, s.tripped = false → s.powerState = 3 → s.power.failAt = some s.ticks → s.fbit GL_PWR_STAT_REG_EN step.val = true → s.fbit GL_PWR_STAT_PG step.val = true →
      ∃ u, exec (.pgFall step) s = .next u ∧ u.get GL_PWR_STAT_FAIL_STEP = min (step.val + 1) (s.get GL_PWR_STAT_FAIL_STEP) ∧ u.powerState = 3) ∧
    (s.powerState = 3 → s.tripped = false →
      (1 < s.topStep → ∃ u, exec .powerDownStep s = .next u ∧ u.fbit GL_PWR_STAT_REG_EN (s.topStep - 1) = false ∧ u.powerState = 3) ∧
      (s.topStep ≤ 1 → s.power.goal = 0 ∨ s.power.goal = 5 ∨ (s.power.goal = 4 ∧ s.power.wake = false) → ∃ u, exec .powerDownStep s = .next u ∧
        u.powerState = s.power.goal) ∧
      (s.topStep ≤ 1 → s.power.goal = 4 → s.power.wake = true → ∃ u, exec .powerDownStep s = .next u ∧ u.powerState = 1 ∧ u.get GL_PWR_STAT_REG_EN = 1)) ∧
    (s.power.vbulk = true → ∀ key,
      (s.powerState = 0 → ∃ u, exec (.pwrOn .msp key) s = .next u ∧ u.powerState = 1 ∧ u.get GL_PWR_STAT_REG_EN = 1 ∧ u.get GL_PWR_STAT_PG = 0) ∧
      (s.powerState = 4 → s.monitor.trip = none → ∃ u, exec (.pwrWake .msp key) s = .next u ∧ u.powerState = 1 ∧ u.get GL_PWR_STAT_REG_EN = 1 ∧ u.power.wake = false) ∧
      (s.powerState = 2 → exec (.pwrOn .msp key) s = .next (s.mark GL_PWR_STAT_CMD_REJ) ∧ exec (.pwrWake .msp key) s = .next (s.mark GL_PWR_STAT_CMD_REJ))) ∧
    (s.ready = true → directView v = true → s.powerState = 2 → s.power.afterSave = none → s.monitor.trip = none →
      (∃ u, exec (.pwrOff v 0x50FF) s = .next u ∧ u.power.afterSave = some 0 ∧ u.on GL_WEAR_STAT_SAVE_BUSY = true ∧ u.powerState = 2) ∧
      (s.maySleep = true → ∃ u, exec (.pwrSleep v 0x50FF) s = .next u ∧ u.power.afterSave = some 4 ∧ u.on GL_WEAR_STAT_SAVE_BUSY = true ∧ u.powerState = 2) ∧
      (s.maySleep = false → exec (.pwrSleep v 0x50FF) s = .next (s.mark GL_PWR_STAT_CMD_REJ)) ∧
      (∀ key, key ≠ 0x50FF → exec (.pwrOff v key) s = .next (s.mark GL_PWR_STAT_CMD_REJ) ∧ exec (.pwrSleep v key) s = .next (s.mark GL_PWR_STAT_CMD_REJ))) ∧
    (∃ u, exec .lossOfVbulk s = .next u ∧ u.power.vbulk = false ∧ u.powerState = 0 ∧ u.get GL_PWR_STAT_REG_EN = 0 ∧ ∀ a, regionOf a = .dram → u.byteAt a = 0)

/-- RST_N resets the part, its ports training with the position then taken, or wakes it; the release of a chip reset comes in its time;
REGS_READY follows with the first readings and the NVM's fields, of copy A if it checks, unless both copies of the safe codes fail; an image
that passes its checks boots the supervisors, which claim the lead token, from the flash that the boot pointer names or from the host, another
fails with its code. Where the pointer lies in its sector, which supervisor claims first, what makes a section and which error is shown is the
model's choice (log entry 39); what the changed fields then hold is free (log entry 5); which command a reset's time runs from is log entry
41's. -/
def Obligations.ResetReleaseAndBootAct : Prop :=
  ∀ (v : View) (s : State),
    (s.powerState = 2 → ∃ u, exec .rstNInput s = .next u ∧ u.power.rstLow = true ∧ u.power.released = false ∧ u.on GL_RST_STAT_REGS_READY = false ∧
      (s.fbit GL_PWR_STAT_PG 0 = true → s.fbit GL_PWR_STAT_PG 1 = true → ∀ p : Fin 4, u.portState p.val = b2n (decide (s.power.cpos / 8 % 8 ≤ 5)))) ∧
    (s.powerState = 4 → s.monitor.trip = none → ∃ u, exec .rstNInput s = .next u ∧ u.power.rstLow = true ∧ u.powerState = 1) ∧
    (∃ u, exec .rstNRelease s = .next u ∧ u.power = { s.power with rstLow := false } ∧ u.regs = s.regs) ∧
    (s.powerState = 2 → s.power.rstLow = false → s.power.released = false → ∃ u, exec .chipResetRelease s = .next u ∧ u.power.released = true ∧
      u.ticks = max s.ticks s.power.dueAt ∧ u.regs = s.regs) ∧
    (∀ (l : List Int) (bad : Fin 16) (calBad : List (Fin 4)), l.length = 34 → calBad.length = 8 → s.power.released = true → s.on GL_RST_STAT_REGS_READY = false →
      ∃ u, exec (.regsReady l bad calBad) s = .next u ∧ u.on GL_RST_STAT_REGS_READY = true ∧ u.power.noSafe = decide (bad.val % 4 = 3) ∧
        u.nvm.loaded = (if bad.val % 4 = 3 then 0 else if bad.val % 4 = 1 then s.nvm.imageB else s.nvm.imageA) ∧
        u.nvm.pointer = (if bad.val / 4 = 3 then none else if bad.val / 4 = 1 then some 1 else some 0) ∧
        (∀ r k, r < 8 → k < 4 → u.get (ST_TEMP_TEMP r k) = unsigned 16 (clampReading (l.getD (4 * r + k) 0))) ∧
        (bad.val ≠ 0 → u.on NV_STAT_COPY_FAIL = true ∧ 180 ∈ u.lines)) ∧
    (s.on GL_RST_STAT_REGS_READY = true → s.on GL_BOOT_STAT_DONE = false →
      (∀ (tmo : Fin 4) (a b : List Byte), s.power.flashTried = true ∨ s.bootsFromHost = true → exec (.bootFlash tmo a b) s = .next s) ∧
      (s.power.flashTried = false → s.bootsFromHost = false → ∀ (tmo : Fin 4) (a b : List Byte),
        let fails := fun (e : Nat) => ∃ u, exec (.bootFlash tmo a b) s = .next u ∧ u.on GL_BOOT_STAT_FAIL = true ∧ u.get GL_BOOT_STAT_ERR = e ∧
          u.on GL_BOOT_STAT_DONE = false ∧ u.svs = s.svs
        let boots := fun (used : Nat) => ∃ u, exec (.bootFlash tmo a b) s = .next u ∧ u.on GL_BOOT_STAT_DONE = true ∧ u.get GL_BOOT_STAT_USED = used ∧
          u.get (svState 0) = 1 ∧ u.get (svState 1) = 1 ∧ (s.get SV_LEAD_HOLDER = 0 → s.on SV_LEAD_CONFLICT = false → u.get SV_LEAD_HOLDER ≠ 0) ∧
          ∃ x r, u.msp.flash = s.msp.flash ++ x :: r ∧ x.addr = s.pointerField 4 4 ∧ x.len = a.length ∧ r.length + 1 = used
        let checkA := checkImage (a.map BitVec.toNat)
        let checkB := checkImage (b.map BitVec.toNat)
        (s.nvm.pointer = none → fails 6) ∧
        (∀ c, s.nvm.pointer = some c →
          (tmo.val.testBit 0 = true → fails 5) ∧
          (tmo.val.testBit 0 = false →
            (∀ r, checkA = .inr r → boots 1) ∧
            (checkA = .inl 4 → fails 4) ∧
            (∀ e, checkA = .inl e → e ≠ 4 → tmo.val.testBit 1 = true → fails 5) ∧
            (∀ e r, checkA = .inl e → e ≠ 4 → tmo.val.testBit 1 = false → checkB = .inr r → boots 2) ∧
            (∀ e f, checkA = .inl e → e ≠ 4 → tmo.val.testBit 1 = false → checkB = .inl f → fails f)))) ∧
      (s.power.vbulk = true → hostView v = true →
        let a := s.get GL_BOOT_ADDR_HI_ADDR_HI * 2 ^ 32 + s.get GL_BOOT_ADDR_LO_ADDR_LO * 64
        let n := ofBytesLE (s.memBytes (a + 8) 4)
        (ofBytesLE (s.memBytes a 4) ≠ 0x4851B007 → exec (.bootHostGo v) s = .next (s.bootFail 1)) ∧
        (ofBytesLE (s.memBytes a 4) = 0x4851B007 → 0x400000000 < a + n → exec (.bootHostGo v) s = .next (s.bootFail 2)) ∧
        (∀ e, ofBytesLE (s.memBytes a 4) = 0x4851B007 → a + n ≤ 0x400000000 → checkImage (s.memBytes a n) = .inl e →
          ∃ u, exec (.bootHostGo v) s = .next u ∧ u.on GL_BOOT_STAT_FAIL = true ∧ u.get GL_BOOT_STAT_ERR = e) ∧
        (∀ ver l, ofBytesLE (s.memBytes a 4) = 0x4851B007 → a + n ≤ 0x400000000 → (s.dramCheck a n).2 = false → checkImage (s.memBytes a n) = .inr (ver, l) →
          ∃ u, exec (.bootHostGo v) s = .next u ∧ u.on GL_BOOT_STAT_DONE = true ∧ u.get GL_BOOT_STAT_USED = 3)))
end

