-- ==== Sys2Proof/Laws/State.lean ====
section
/-! SUPPORT. What each elementary update leaves of each field of the state: one law per field and update. -/

namespace Sys2Proof.Machine.State

section law_setReg
variable (s : State) (a : Nat) (v : Word)
@[simp] theorem setReg_pending : (s.setReg a v).pending = s.pending := rfl
theorem setReg_regs : (s.setReg a v).regs = storeSet resetWord s.regs a v := rfl
@[simp] theorem setReg_mem : (s.setReg a v).mem = s.mem := rfl
@[simp] theorem setReg_uncorr : (s.setReg a v).uncorr = s.uncorr := rfl
@[simp] theorem setReg_single : (s.setReg a v).single = s.single := rfl
@[simp] theorem setReg_ticks : (s.setReg a v).ticks = s.ticks := rfl
@[simp] theorem setReg_count : (s.setReg a v).count = s.count := rfl
@[simp] theorem setReg_sync : (s.setReg a v).sync = s.sync := rfl
@[simp] theorem setReg_slots : (s.setReg a v).slots = s.slots := rfl
@[simp] theorem setReg_holds : (s.setReg a v).holds = s.holds := rfl
@[simp] theorem setReg_latches : (s.setReg a v).latches = s.latches := rfl
@[simp] theorem setReg_rdvs : (s.setReg a v).rdvs = s.rdvs := rfl
@[simp] theorem setReg_epochs : (s.setReg a v).epochs = s.epochs := rfl
@[simp] theorem setReg_tillers : (s.setReg a v).tillers = s.tillers := rfl
@[simp] theorem setReg_compares : (s.setReg a v).compares = s.compares := rfl
@[simp] theorem setReg_fifos : (s.setReg a v).fifos = s.fifos := rfl
@[simp] theorem setReg_captures : (s.setReg a v).captures = s.captures := rfl
@[simp] theorem setReg_levels : (s.setReg a v).levels = s.levels := rfl
@[simp] theorem setReg_streams : (s.setReg a v).streams = s.streams := rfl
@[simp] theorem setReg_pins : (s.setReg a v).pins = s.pins := rfl
@[simp] theorem setReg_supplies : (s.setReg a v).supplies = s.supplies := rfl
@[simp] theorem setReg_wires : (s.setReg a v).wires = s.wires := rfl
@[simp] theorem setReg_firings : (s.setReg a v).firings = s.firings := rfl
@[simp] theorem setReg_lines : (s.setReg a v).lines = s.lines := rfl
@[simp] theorem setReg_meshOut : (s.setReg a v).meshOut = s.meshOut := rfl
@[simp] theorem setReg_hostOut : (s.setReg a v).hostOut = s.hostOut := rfl
@[simp] theorem setReg_rdData : (s.setReg a v).rdData = s.rdData := rfl
@[simp] theorem setReg_rdPoison : (s.setReg a v).rdPoison = s.rdPoison := rfl
@[simp] theorem setReg_draws : (s.setReg a v).draws = s.draws := rfl
@[simp] theorem setReg_banks : (s.setReg a v).banks = s.banks := rfl
@[simp] theorem setReg_wear : (s.setReg a v).wear = s.wear := rfl
@[simp] theorem setReg_lastAdmit : (s.setReg a v).lastAdmit = s.lastAdmit := rfl
@[simp] theorem setReg_cals : (s.setReg a v).cals = s.cals := rfl
@[simp] theorem setReg_adcs : (s.setReg a v).adcs = s.adcs := rfl
@[simp] theorem setReg_tdcs : (s.setReg a v).tdcs = s.tdcs := rfl
@[simp] theorem setReg_resetEnd : (s.setReg a v).resetEnd = s.resetEnd := rfl
@[simp] theorem setReg_strips : (s.setReg a v).strips = s.strips := rfl
@[simp] theorem setReg_monitor : (s.setReg a v).monitor = s.monitor := rfl
@[simp] theorem setReg_threshers : (s.setReg a v).threshers = s.threshers := rfl
@[simp] theorem setReg_sheaves : (s.setReg a v).sheaves = s.sheaves := rfl
@[simp] theorem setReg_routes : (s.setReg a v).routes = s.routes := rfl
@[simp] theorem setReg_hmqs : (s.setReg a v).hmqs = s.hmqs := rfl
@[simp] theorem setReg_dmas : (s.setReg a v).dmas = s.dmas := rfl
@[simp] theorem setReg_hostConfig : (s.setReg a v).hostConfig = s.hostConfig := rfl
@[simp] theorem setReg_ports : (s.setReg a v).ports = s.ports := rfl
@[simp] theorem setReg_linkOut : (s.setReg a v).linkOut = s.linkOut := rfl
@[simp] theorem setReg_meshIn : (s.setReg a v).meshIn = s.meshIn := rfl
@[simp] theorem setReg_assembly : (s.setReg a v).assembly = s.assembly := rfl
@[simp] theorem setReg_chans : (s.setReg a v).chans = s.chans := rfl
@[simp] theorem setReg_svs : (s.setReg a v).svs = s.svs := rfl
@[simp] theorem setReg_collector : (s.setReg a v).collector = s.collector := rfl
@[simp] theorem setReg_nvm : (s.setReg a v).nvm = s.nvm := rfl
@[simp] theorem setReg_msp : (s.setReg a v).msp = s.msp := rfl
@[simp] theorem setReg_power : (s.setReg a v).power = s.power := rfl
@[simp] theorem setReg_resets : (s.setReg a v).resets = s.resets := rfl
end law_setReg

section law_clearRegs
variable (s : State) (p : Nat → Bool)
@[simp] theorem clearRegs_pending : (s.clearRegs p).pending = s.pending := rfl
theorem clearRegs_regs : (s.clearRegs p).regs = storeKeep (fun a => !p a) s.regs := rfl
@[simp] theorem clearRegs_mem : (s.clearRegs p).mem = s.mem := rfl
@[simp] theorem clearRegs_uncorr : (s.clearRegs p).uncorr = s.uncorr := rfl
@[simp] theorem clearRegs_single : (s.clearRegs p).single = s.single := rfl
@[simp] theorem clearRegs_ticks : (s.clearRegs p).ticks = s.ticks := rfl
@[simp] theorem clearRegs_count : (s.clearRegs p).count = s.count := rfl
@[simp] theorem clearRegs_sync : (s.clearRegs p).sync = s.sync := rfl
@[simp] theorem clearRegs_slots : (s.clearRegs p).slots = s.slots := rfl
@[simp] theorem clearRegs_holds : (s.clearRegs p).holds = s.holds := rfl
@[simp] theorem clearRegs_latches : (s.clearRegs p).latches = s.latches := rfl
@[simp] theorem clearRegs_rdvs : (s.clearRegs p).rdvs = s.rdvs := rfl
@[simp] theorem clearRegs_epochs : (s.clearRegs p).epochs = s.epochs := rfl
@[simp] theorem clearRegs_tillers : (s.clearRegs p).tillers = s.tillers := rfl
@[simp] theorem clearRegs_compares : (s.clearRegs p).compares = s.compares := rfl
@[simp] theorem clearRegs_fifos : (s.clearRegs p).fifos = s.fifos := rfl
@[simp] theorem clearRegs_captures : (s.clearRegs p).captures = s.captures := rfl
@[simp] theorem clearRegs_levels : (s.clearRegs p).levels = s.levels := rfl
@[simp] theorem clearRegs_streams : (s.clearRegs p).streams = s.streams := rfl
@[simp] theorem clearRegs_pins : (s.clearRegs p).pins = s.pins := rfl
@[simp] theorem clearRegs_supplies : (s.clearRegs p).supplies = s.supplies := rfl
@[simp] theorem clearRegs_wires : (s.clearRegs p).wires = s.wires := rfl
@[simp] theorem clearRegs_firings : (s.clearRegs p).firings = s.firings := rfl
@[simp] theorem clearRegs_lines : (s.clearRegs p).lines = s.lines := rfl
@[simp] theorem clearRegs_meshOut : (s.clearRegs p).meshOut = s.meshOut := rfl
@[simp] theorem clearRegs_hostOut : (s.clearRegs p).hostOut = s.hostOut := rfl
@[simp] theorem clearRegs_rdData : (s.clearRegs p).rdData = s.rdData := rfl
@[simp] theorem clearRegs_rdPoison : (s.clearRegs p).rdPoison = s.rdPoison := rfl
@[simp] theorem clearRegs_draws : (s.clearRegs p).draws = s.draws := rfl
@[simp] theorem clearRegs_banks : (s.clearRegs p).banks = s.banks := rfl
@[simp] theorem clearRegs_wear : (s.clearRegs p).wear = s.wear := rfl
@[simp] theorem clearRegs_lastAdmit : (s.clearRegs p).lastAdmit = s.lastAdmit := rfl
@[simp] theorem clearRegs_cals : (s.clearRegs p).cals = s.cals := rfl
@[simp] theorem clearRegs_adcs : (s.clearRegs p).adcs = s.adcs := rfl
@[simp] theorem clearRegs_tdcs : (s.clearRegs p).tdcs = s.tdcs := rfl
@[simp] theorem clearRegs_resetEnd : (s.clearRegs p).resetEnd = s.resetEnd := rfl
@[simp] theorem clearRegs_strips : (s.clearRegs p).strips = s.strips := rfl
@[simp] theorem clearRegs_monitor : (s.clearRegs p).monitor = s.monitor := rfl
@[simp] theorem clearRegs_threshers : (s.clearRegs p).threshers = s.threshers := rfl
@[simp] theorem clearRegs_sheaves : (s.clearRegs p).sheaves = s.sheaves := rfl
@[simp] theorem clearRegs_routes : (s.clearRegs p).routes = s.routes := rfl
@[simp] theorem clearRegs_hmqs : (s.clearRegs p).hmqs = s.hmqs := rfl
@[simp] theorem clearRegs_dmas : (s.clearRegs p).dmas = s.dmas := rfl
@[simp] theorem clearRegs_hostConfig : (s.clearRegs p).hostConfig = s.hostConfig := rfl
@[simp] theorem clearRegs_ports : (s.clearRegs p).ports = s.ports := rfl
@[simp] theorem clearRegs_linkOut : (s.clearRegs p).linkOut = s.linkOut := rfl
@[simp] theorem clearRegs_meshIn : (s.clearRegs p).meshIn = s.meshIn := rfl
@[simp] theorem clearRegs_assembly : (s.clearRegs p).assembly = s.assembly := rfl
@[simp] theorem clearRegs_chans : (s.clearRegs p).chans = s.chans := rfl
@[simp] theorem clearRegs_svs : (s.clearRegs p).svs = s.svs := rfl
@[simp] theorem clearRegs_collector : (s.clearRegs p).collector = s.collector := rfl
@[simp] theorem clearRegs_nvm : (s.clearRegs p).nvm = s.nvm := rfl
@[simp] theorem clearRegs_msp : (s.clearRegs p).msp = s.msp := rfl
@[simp] theorem clearRegs_power : (s.clearRegs p).power = s.power := rfl
@[simp] theorem clearRegs_resets : (s.clearRegs p).resets = s.resets := rfl
end law_clearRegs

section law_setTl
variable (s : State) (t : Nat) (x : Tiller)
@[simp] theorem setTl_pending : (s.setTl t x).pending = s.pending := rfl
@[simp] theorem setTl_regs : (s.setTl t x).regs = s.regs := rfl
@[simp] theorem setTl_mem : (s.setTl t x).mem = s.mem := rfl
@[simp] theorem setTl_uncorr : (s.setTl t x).uncorr = s.uncorr := rfl
@[simp] theorem setTl_single : (s.setTl t x).single = s.single := rfl
@[simp] theorem setTl_ticks : (s.setTl t x).ticks = s.ticks := rfl
@[simp] theorem setTl_count : (s.setTl t x).count = s.count := rfl
@[simp] theorem setTl_sync : (s.setTl t x).sync = s.sync := rfl
@[simp] theorem setTl_slots : (s.setTl t x).slots = s.slots := rfl
@[simp] theorem setTl_holds : (s.setTl t x).holds = s.holds := rfl
@[simp] theorem setTl_latches : (s.setTl t x).latches = s.latches := rfl
@[simp] theorem setTl_rdvs : (s.setTl t x).rdvs = s.rdvs := rfl
@[simp] theorem setTl_epochs : (s.setTl t x).epochs = s.epochs := rfl
theorem setTl_tillers : (s.setTl t x).tillers = storeSet (fun _ => Tiller.reset) s.tillers t x := rfl
@[simp] theorem setTl_compares : (s.setTl t x).compares = s.compares := rfl
@[simp] theorem setTl_fifos : (s.setTl t x).fifos = s.fifos := rfl
@[simp] theorem setTl_captures : (s.setTl t x).captures = s.captures := rfl
@[simp] theorem setTl_levels : (s.setTl t x).levels = s.levels := rfl
@[simp] theorem setTl_streams : (s.setTl t x).streams = s.streams := rfl
@[simp] theorem setTl_pins : (s.setTl t x).pins = s.pins := rfl
@[simp] theorem setTl_supplies : (s.setTl t x).supplies = s.supplies := rfl
@[simp] theorem setTl_wires : (s.setTl t x).wires = s.wires := rfl
@[simp] theorem setTl_firings : (s.setTl t x).firings = s.firings := rfl
@[simp] theorem setTl_lines : (s.setTl t x).lines = s.lines := rfl
@[simp] theorem setTl_meshOut : (s.setTl t x).meshOut = s.meshOut := rfl
@[simp] theorem setTl_hostOut : (s.setTl t x).hostOut = s.hostOut := rfl
@[simp] theorem setTl_rdData : (s.setTl t x).rdData = s.rdData := rfl
@[simp] theorem setTl_rdPoison : (s.setTl t x).rdPoison = s.rdPoison := rfl
@[simp] theorem setTl_draws : (s.setTl t x).draws = s.draws := rfl
@[simp] theorem setTl_banks : (s.setTl t x).banks = s.banks := rfl
@[simp] theorem setTl_wear : (s.setTl t x).wear = s.wear := rfl
@[simp] theorem setTl_lastAdmit : (s.setTl t x).lastAdmit = s.lastAdmit := rfl
@[simp] theorem setTl_cals : (s.setTl t x).cals = s.cals := rfl
@[simp] theorem setTl_adcs : (s.setTl t x).adcs = s.adcs := rfl
@[simp] theorem setTl_tdcs : (s.setTl t x).tdcs = s.tdcs := rfl
@[simp] theorem setTl_resetEnd : (s.setTl t x).resetEnd = s.resetEnd := rfl
@[simp] theorem setTl_strips : (s.setTl t x).strips = s.strips := rfl
@[simp] theorem setTl_monitor : (s.setTl t x).monitor = s.monitor := rfl
@[simp] theorem setTl_threshers : (s.setTl t x).threshers = s.threshers := rfl
@[simp] theorem setTl_sheaves : (s.setTl t x).sheaves = s.sheaves := rfl
@[simp] theorem setTl_routes : (s.setTl t x).routes = s.routes := rfl
@[simp] theorem setTl_hmqs : (s.setTl t x).hmqs = s.hmqs := rfl
@[simp] theorem setTl_dmas : (s.setTl t x).dmas = s.dmas := rfl
@[simp] theorem setTl_hostConfig : (s.setTl t x).hostConfig = s.hostConfig := rfl
@[simp] theorem setTl_ports : (s.setTl t x).ports = s.ports := rfl
@[simp] theorem setTl_linkOut : (s.setTl t x).linkOut = s.linkOut := rfl
@[simp] theorem setTl_meshIn : (s.setTl t x).meshIn = s.meshIn := rfl
@[simp] theorem setTl_assembly : (s.setTl t x).assembly = s.assembly := rfl
@[simp] theorem setTl_chans : (s.setTl t x).chans = s.chans := rfl
@[simp] theorem setTl_svs : (s.setTl t x).svs = s.svs := rfl
@[simp] theorem setTl_collector : (s.setTl t x).collector = s.collector := rfl
@[simp] theorem setTl_nvm : (s.setTl t x).nvm = s.nvm := rfl
@[simp] theorem setTl_msp : (s.setTl t x).msp = s.msp := rfl
@[simp] theorem setTl_power : (s.setTl t x).power = s.power := rfl
@[simp] theorem setTl_resets : (s.setTl t x).resets = s.resets := rfl
end law_setTl

section law_setCmp
variable (s : State) (t : Nat) (x : Compare)
@[simp] theorem setCmp_pending : (s.setCmp t x).pending = s.pending := rfl
@[simp] theorem setCmp_regs : (s.setCmp t x).regs = s.regs := rfl
@[simp] theorem setCmp_mem : (s.setCmp t x).mem = s.mem := rfl
@[simp] theorem setCmp_uncorr : (s.setCmp t x).uncorr = s.uncorr := rfl
@[simp] theorem setCmp_single : (s.setCmp t x).single = s.single := rfl
@[simp] theorem setCmp_ticks : (s.setCmp t x).ticks = s.ticks := rfl
@[simp] theorem setCmp_count : (s.setCmp t x).count = s.count := rfl
@[simp] theorem setCmp_sync : (s.setCmp t x).sync = s.sync := rfl
@[simp] theorem setCmp_slots : (s.setCmp t x).slots = s.slots := rfl
@[simp] theorem setCmp_holds : (s.setCmp t x).holds = s.holds := rfl
@[simp] theorem setCmp_latches : (s.setCmp t x).latches = s.latches := rfl
@[simp] theorem setCmp_rdvs : (s.setCmp t x).rdvs = s.rdvs := rfl
@[simp] theorem setCmp_epochs : (s.setCmp t x).epochs = s.epochs := rfl
@[simp] theorem setCmp_tillers : (s.setCmp t x).tillers = s.tillers := rfl
theorem setCmp_compares : (s.setCmp t x).compares = storeSet (fun _ => Compare.reset) s.compares t x := rfl
@[simp] theorem setCmp_fifos : (s.setCmp t x).fifos = s.fifos := rfl
@[simp] theorem setCmp_captures : (s.setCmp t x).captures = s.captures := rfl
@[simp] theorem setCmp_levels : (s.setCmp t x).levels = s.levels := rfl
@[simp] theorem setCmp_streams : (s.setCmp t x).streams = s.streams := rfl
@[simp] theorem setCmp_pins : (s.setCmp t x).pins = s.pins := rfl
@[simp] theorem setCmp_supplies : (s.setCmp t x).supplies = s.supplies := rfl
@[simp] theorem setCmp_wires : (s.setCmp t x).wires = s.wires := rfl
@[simp] theorem setCmp_firings : (s.setCmp t x).firings = s.firings := rfl
@[simp] theorem setCmp_lines : (s.setCmp t x).lines = s.lines := rfl
@[simp] theorem setCmp_meshOut : (s.setCmp t x).meshOut = s.meshOut := rfl
@[simp] theorem setCmp_hostOut : (s.setCmp t x).hostOut = s.hostOut := rfl
@[simp] theorem setCmp_rdData : (s.setCmp t x).rdData = s.rdData := rfl
@[simp] theorem setCmp_rdPoison : (s.setCmp t x).rdPoison = s.rdPoison := rfl
@[simp] theorem setCmp_draws : (s.setCmp t x).draws = s.draws := rfl
@[simp] theorem setCmp_banks : (s.setCmp t x).banks = s.banks := rfl
@[simp] theorem setCmp_wear : (s.setCmp t x).wear = s.wear := rfl
@[simp] theorem setCmp_lastAdmit : (s.setCmp t x).lastAdmit = s.lastAdmit := rfl
@[simp] theorem setCmp_cals : (s.setCmp t x).cals = s.cals := rfl
@[simp] theorem setCmp_adcs : (s.setCmp t x).adcs = s.adcs := rfl
@[simp] theorem setCmp_tdcs : (s.setCmp t x).tdcs = s.tdcs := rfl
@[simp] theorem setCmp_resetEnd : (s.setCmp t x).resetEnd = s.resetEnd := rfl
@[simp] theorem setCmp_strips : (s.setCmp t x).strips = s.strips := rfl
@[simp] theorem setCmp_monitor : (s.setCmp t x).monitor = s.monitor := rfl
@[simp] theorem setCmp_threshers : (s.setCmp t x).threshers = s.threshers := rfl
@[simp] theorem setCmp_sheaves : (s.setCmp t x).sheaves = s.sheaves := rfl
@[simp] theorem setCmp_routes : (s.setCmp t x).routes = s.routes := rfl
@[simp] theorem setCmp_hmqs : (s.setCmp t x).hmqs = s.hmqs := rfl
@[simp] theorem setCmp_dmas : (s.setCmp t x).dmas = s.dmas := rfl
@[simp] theorem setCmp_hostConfig : (s.setCmp t x).hostConfig = s.hostConfig := rfl
@[simp] theorem setCmp_ports : (s.setCmp t x).ports = s.ports := rfl
@[simp] theorem setCmp_linkOut : (s.setCmp t x).linkOut = s.linkOut := rfl
@[simp] theorem setCmp_meshIn : (s.setCmp t x).meshIn = s.meshIn := rfl
@[simp] theorem setCmp_assembly : (s.setCmp t x).assembly = s.assembly := rfl
@[simp] theorem setCmp_chans : (s.setCmp t x).chans = s.chans := rfl
@[simp] theorem setCmp_svs : (s.setCmp t x).svs = s.svs := rfl
@[simp] theorem setCmp_collector : (s.setCmp t x).collector = s.collector := rfl
@[simp] theorem setCmp_nvm : (s.setCmp t x).nvm = s.nvm := rfl
@[simp] theorem setCmp_msp : (s.setCmp t x).msp = s.msp := rfl
@[simp] theorem setCmp_power : (s.setCmp t x).power = s.power := rfl
@[simp] theorem setCmp_resets : (s.setCmp t x).resets = s.resets := rfl
end law_setCmp

section law_setFq
variable (s : State) (t : Nat) (x : FailFifo)
@[simp] theorem setFq_pending : (s.setFq t x).pending = s.pending := rfl
@[simp] theorem setFq_regs : (s.setFq t x).regs = s.regs := rfl
@[simp] theorem setFq_mem : (s.setFq t x).mem = s.mem := rfl
@[simp] theorem setFq_uncorr : (s.setFq t x).uncorr = s.uncorr := rfl
@[simp] theorem setFq_single : (s.setFq t x).single = s.single := rfl
@[simp] theorem setFq_ticks : (s.setFq t x).ticks = s.ticks := rfl
@[simp] theorem setFq_count : (s.setFq t x).count = s.count := rfl
@[simp] theorem setFq_sync : (s.setFq t x).sync = s.sync := rfl
@[simp] theorem setFq_slots : (s.setFq t x).slots = s.slots := rfl
@[simp] theorem setFq_holds : (s.setFq t x).holds = s.holds := rfl
@[simp] theorem setFq_latches : (s.setFq t x).latches = s.latches := rfl
@[simp] theorem setFq_rdvs : (s.setFq t x).rdvs = s.rdvs := rfl
@[simp] theorem setFq_epochs : (s.setFq t x).epochs = s.epochs := rfl
@[simp] theorem setFq_tillers : (s.setFq t x).tillers = s.tillers := rfl
@[simp] theorem setFq_compares : (s.setFq t x).compares = s.compares := rfl
theorem setFq_fifos : (s.setFq t x).fifos = storeSet (fun _ => FailFifo.reset) s.fifos t x := rfl
@[simp] theorem setFq_captures : (s.setFq t x).captures = s.captures := rfl
@[simp] theorem setFq_levels : (s.setFq t x).levels = s.levels := rfl
@[simp] theorem setFq_streams : (s.setFq t x).streams = s.streams := rfl
@[simp] theorem setFq_pins : (s.setFq t x).pins = s.pins := rfl
@[simp] theorem setFq_supplies : (s.setFq t x).supplies = s.supplies := rfl
@[simp] theorem setFq_wires : (s.setFq t x).wires = s.wires := rfl
@[simp] theorem setFq_firings : (s.setFq t x).firings = s.firings := rfl
@[simp] theorem setFq_lines : (s.setFq t x).lines = s.lines := rfl
@[simp] theorem setFq_meshOut : (s.setFq t x).meshOut = s.meshOut := rfl
@[simp] theorem setFq_hostOut : (s.setFq t x).hostOut = s.hostOut := rfl
@[simp] theorem setFq_rdData : (s.setFq t x).rdData = s.rdData := rfl
@[simp] theorem setFq_rdPoison : (s.setFq t x).rdPoison = s.rdPoison := rfl
@[simp] theorem setFq_draws : (s.setFq t x).draws = s.draws := rfl
@[simp] theorem setFq_banks : (s.setFq t x).banks = s.banks := rfl
@[simp] theorem setFq_wear : (s.setFq t x).wear = s.wear := rfl
@[simp] theorem setFq_lastAdmit : (s.setFq t x).lastAdmit = s.lastAdmit := rfl
@[simp] theorem setFq_cals : (s.setFq t x).cals = s.cals := rfl
@[simp] theorem setFq_adcs : (s.setFq t x).adcs = s.adcs := rfl
@[simp] theorem setFq_tdcs : (s.setFq t x).tdcs = s.tdcs := rfl
@[simp] theorem setFq_resetEnd : (s.setFq t x).resetEnd = s.resetEnd := rfl
@[simp] theorem setFq_strips : (s.setFq t x).strips = s.strips := rfl
@[simp] theorem setFq_monitor : (s.setFq t x).monitor = s.monitor := rfl
@[simp] theorem setFq_threshers : (s.setFq t x).threshers = s.threshers := rfl
@[simp] theorem setFq_sheaves : (s.setFq t x).sheaves = s.sheaves := rfl
@[simp] theorem setFq_routes : (s.setFq t x).routes = s.routes := rfl
@[simp] theorem setFq_hmqs : (s.setFq t x).hmqs = s.hmqs := rfl
@[simp] theorem setFq_dmas : (s.setFq t x).dmas = s.dmas := rfl
@[simp] theorem setFq_hostConfig : (s.setFq t x).hostConfig = s.hostConfig := rfl
@[simp] theorem setFq_ports : (s.setFq t x).ports = s.ports := rfl
@[simp] theorem setFq_linkOut : (s.setFq t x).linkOut = s.linkOut := rfl
@[simp] theorem setFq_meshIn : (s.setFq t x).meshIn = s.meshIn := rfl
@[simp] theorem setFq_assembly : (s.setFq t x).assembly = s.assembly := rfl
@[simp] theorem setFq_chans : (s.setFq t x).chans = s.chans := rfl
@[simp] theorem setFq_svs : (s.setFq t x).svs = s.svs := rfl
@[simp] theorem setFq_collector : (s.setFq t x).collector = s.collector := rfl
@[simp] theorem setFq_nvm : (s.setFq t x).nvm = s.nvm := rfl
@[simp] theorem setFq_msp : (s.setFq t x).msp = s.msp := rfl
@[simp] theorem setFq_power : (s.setFq t x).power = s.power := rfl
@[simp] theorem setFq_resets : (s.setFq t x).resets = s.resets := rfl
end law_setFq

section law_setCap
variable (s : State) (t : Nat) (x : Capture)
@[simp] theorem setCap_pending : (s.setCap t x).pending = s.pending := rfl
@[simp] theorem setCap_regs : (s.setCap t x).regs = s.regs := rfl
@[simp] theorem setCap_mem : (s.setCap t x).mem = s.mem := rfl
@[simp] theorem setCap_uncorr : (s.setCap t x).uncorr = s.uncorr := rfl
@[simp] theorem setCap_single : (s.setCap t x).single = s.single := rfl
@[simp] theorem setCap_ticks : (s.setCap t x).ticks = s.ticks := rfl
@[simp] theorem setCap_count : (s.setCap t x).count = s.count := rfl
@[simp] theorem setCap_sync : (s.setCap t x).sync = s.sync := rfl
@[simp] theorem setCap_slots : (s.setCap t x).slots = s.slots := rfl
@[simp] theorem setCap_holds : (s.setCap t x).holds = s.holds := rfl
@[simp] theorem setCap_latches : (s.setCap t x).latches = s.latches := rfl
@[simp] theorem setCap_rdvs : (s.setCap t x).rdvs = s.rdvs := rfl
@[simp] theorem setCap_epochs : (s.setCap t x).epochs = s.epochs := rfl
@[simp] theorem setCap_tillers : (s.setCap t x).tillers = s.tillers := rfl
@[simp] theorem setCap_compares : (s.setCap t x).compares = s.compares := rfl
@[simp] theorem setCap_fifos : (s.setCap t x).fifos = s.fifos := rfl
theorem setCap_captures : (s.setCap t x).captures = storeSet (fun _ => Capture.reset) s.captures t x := rfl
@[simp] theorem setCap_levels : (s.setCap t x).levels = s.levels := rfl
@[simp] theorem setCap_streams : (s.setCap t x).streams = s.streams := rfl
@[simp] theorem setCap_pins : (s.setCap t x).pins = s.pins := rfl
@[simp] theorem setCap_supplies : (s.setCap t x).supplies = s.supplies := rfl
@[simp] theorem setCap_wires : (s.setCap t x).wires = s.wires := rfl
@[simp] theorem setCap_firings : (s.setCap t x).firings = s.firings := rfl
@[simp] theorem setCap_lines : (s.setCap t x).lines = s.lines := rfl
@[simp] theorem setCap_meshOut : (s.setCap t x).meshOut = s.meshOut := rfl
@[simp] theorem setCap_hostOut : (s.setCap t x).hostOut = s.hostOut := rfl
@[simp] theorem setCap_rdData : (s.setCap t x).rdData = s.rdData := rfl
@[simp] theorem setCap_rdPoison : (s.setCap t x).rdPoison = s.rdPoison := rfl
@[simp] theorem setCap_draws : (s.setCap t x).draws = s.draws := rfl
@[simp] theorem setCap_banks : (s.setCap t x).banks = s.banks := rfl
@[simp] theorem setCap_wear : (s.setCap t x).wear = s.wear := rfl
@[simp] theorem setCap_lastAdmit : (s.setCap t x).lastAdmit = s.lastAdmit := rfl
@[simp] theorem setCap_cals : (s.setCap t x).cals = s.cals := rfl
@[simp] theorem setCap_adcs : (s.setCap t x).adcs = s.adcs := rfl
@[simp] theorem setCap_tdcs : (s.setCap t x).tdcs = s.tdcs := rfl
@[simp] theorem setCap_resetEnd : (s.setCap t x).resetEnd = s.resetEnd := rfl
@[simp] theorem setCap_strips : (s.setCap t x).strips = s.strips := rfl
@[simp] theorem setCap_monitor : (s.setCap t x).monitor = s.monitor := rfl
@[simp] theorem setCap_threshers : (s.setCap t x).threshers = s.threshers := rfl
@[simp] theorem setCap_sheaves : (s.setCap t x).sheaves = s.sheaves := rfl
@[simp] theorem setCap_routes : (s.setCap t x).routes = s.routes := rfl
@[simp] theorem setCap_hmqs : (s.setCap t x).hmqs = s.hmqs := rfl
@[simp] theorem setCap_dmas : (s.setCap t x).dmas = s.dmas := rfl
@[simp] theorem setCap_hostConfig : (s.setCap t x).hostConfig = s.hostConfig := rfl
@[simp] theorem setCap_ports : (s.setCap t x).ports = s.ports := rfl
@[simp] theorem setCap_linkOut : (s.setCap t x).linkOut = s.linkOut := rfl
@[simp] theorem setCap_meshIn : (s.setCap t x).meshIn = s.meshIn := rfl
@[simp] theorem setCap_assembly : (s.setCap t x).assembly = s.assembly := rfl
@[simp] theorem setCap_chans : (s.setCap t x).chans = s.chans := rfl
@[simp] theorem setCap_svs : (s.setCap t x).svs = s.svs := rfl
@[simp] theorem setCap_collector : (s.setCap t x).collector = s.collector := rfl
@[simp] theorem setCap_nvm : (s.setCap t x).nvm = s.nvm := rfl
@[simp] theorem setCap_msp : (s.setCap t x).msp = s.msp := rfl
@[simp] theorem setCap_power : (s.setCap t x).power = s.power := rfl
@[simp] theorem setCap_resets : (s.setCap t x).resets = s.resets := rfl
end law_setCap

section law_setLvl
variable (s : State) (t : Nat) (x : Levels)
@[simp] theorem setLvl_pending : (s.setLvl t x).pending = s.pending := rfl
@[simp] theorem setLvl_regs : (s.setLvl t x).regs = s.regs := rfl
@[simp] theorem setLvl_mem : (s.setLvl t x).mem = s.mem := rfl
@[simp] theorem setLvl_uncorr : (s.setLvl t x).uncorr = s.uncorr := rfl
@[simp] theorem setLvl_single : (s.setLvl t x).single = s.single := rfl
@[simp] theorem setLvl_ticks : (s.setLvl t x).ticks = s.ticks := rfl
@[simp] theorem setLvl_count : (s.setLvl t x).count = s.count := rfl
@[simp] theorem setLvl_sync : (s.setLvl t x).sync = s.sync := rfl
@[simp] theorem setLvl_slots : (s.setLvl t x).slots = s.slots := rfl
@[simp] theorem setLvl_holds : (s.setLvl t x).holds = s.holds := rfl
@[simp] theorem setLvl_latches : (s.setLvl t x).latches = s.latches := rfl
@[simp] theorem setLvl_rdvs : (s.setLvl t x).rdvs = s.rdvs := rfl
@[simp] theorem setLvl_epochs : (s.setLvl t x).epochs = s.epochs := rfl
@[simp] theorem setLvl_tillers : (s.setLvl t x).tillers = s.tillers := rfl
@[simp] theorem setLvl_compares : (s.setLvl t x).compares = s.compares := rfl
@[simp] theorem setLvl_fifos : (s.setLvl t x).fifos = s.fifos := rfl
@[simp] theorem setLvl_captures : (s.setLvl t x).captures = s.captures := rfl
theorem setLvl_levels : (s.setLvl t x).levels = storeSet (fun _ => Levels.reset) s.levels t x := rfl
@[simp] theorem setLvl_streams : (s.setLvl t x).streams = s.streams := rfl
@[simp] theorem setLvl_pins : (s.setLvl t x).pins = s.pins := rfl
@[simp] theorem setLvl_supplies : (s.setLvl t x).supplies = s.supplies := rfl
@[simp] theorem setLvl_wires : (s.setLvl t x).wires = s.wires := rfl
@[simp] theorem setLvl_firings : (s.setLvl t x).firings = s.firings := rfl
@[simp] theorem setLvl_lines : (s.setLvl t x).lines = s.lines := rfl
@[simp] theorem setLvl_meshOut : (s.setLvl t x).meshOut = s.meshOut := rfl
@[simp] theorem setLvl_hostOut : (s.setLvl t x).hostOut = s.hostOut := rfl
@[simp] theorem setLvl_rdData : (s.setLvl t x).rdData = s.rdData := rfl
@[simp] theorem setLvl_rdPoison : (s.setLvl t x).rdPoison = s.rdPoison := rfl
@[simp] theorem setLvl_draws : (s.setLvl t x).draws = s.draws := rfl
@[simp] theorem setLvl_banks : (s.setLvl t x).banks = s.banks := rfl
@[simp] theorem setLvl_wear : (s.setLvl t x).wear = s.wear := rfl
@[simp] theorem setLvl_lastAdmit : (s.setLvl t x).lastAdmit = s.lastAdmit := rfl
@[simp] theorem setLvl_cals : (s.setLvl t x).cals = s.cals := rfl
@[simp] theorem setLvl_adcs : (s.setLvl t x).adcs = s.adcs := rfl
@[simp] theorem setLvl_tdcs : (s.setLvl t x).tdcs = s.tdcs := rfl
@[simp] theorem setLvl_resetEnd : (s.setLvl t x).resetEnd = s.resetEnd := rfl
@[simp] theorem setLvl_strips : (s.setLvl t x).strips = s.strips := rfl
@[simp] theorem setLvl_monitor : (s.setLvl t x).monitor = s.monitor := rfl
@[simp] theorem setLvl_threshers : (s.setLvl t x).threshers = s.threshers := rfl
@[simp] theorem setLvl_sheaves : (s.setLvl t x).sheaves = s.sheaves := rfl
@[simp] theorem setLvl_routes : (s.setLvl t x).routes = s.routes := rfl
@[simp] theorem setLvl_hmqs : (s.setLvl t x).hmqs = s.hmqs := rfl
@[simp] theorem setLvl_dmas : (s.setLvl t x).dmas = s.dmas := rfl
@[simp] theorem setLvl_hostConfig : (s.setLvl t x).hostConfig = s.hostConfig := rfl
@[simp] theorem setLvl_ports : (s.setLvl t x).ports = s.ports := rfl
@[simp] theorem setLvl_linkOut : (s.setLvl t x).linkOut = s.linkOut := rfl
@[simp] theorem setLvl_meshIn : (s.setLvl t x).meshIn = s.meshIn := rfl
@[simp] theorem setLvl_assembly : (s.setLvl t x).assembly = s.assembly := rfl
@[simp] theorem setLvl_chans : (s.setLvl t x).chans = s.chans := rfl
@[simp] theorem setLvl_svs : (s.setLvl t x).svs = s.svs := rfl
@[simp] theorem setLvl_collector : (s.setLvl t x).collector = s.collector := rfl
@[simp] theorem setLvl_nvm : (s.setLvl t x).nvm = s.nvm := rfl
@[simp] theorem setLvl_msp : (s.setLvl t x).msp = s.msp := rfl
@[simp] theorem setLvl_power : (s.setLvl t x).power = s.power := rfl
@[simp] theorem setLvl_resets : (s.setLvl t x).resets = s.resets := rfl
end law_setLvl

section law_setStrm
variable (s : State) (t : Nat) (x : Stream)
@[simp] theorem setStrm_pending : (s.setStrm t x).pending = s.pending := rfl
@[simp] theorem setStrm_regs : (s.setStrm t x).regs = s.regs := rfl
@[simp] theorem setStrm_mem : (s.setStrm t x).mem = s.mem := rfl
@[simp] theorem setStrm_uncorr : (s.setStrm t x).uncorr = s.uncorr := rfl
@[simp] theorem setStrm_single : (s.setStrm t x).single = s.single := rfl
@[simp] theorem setStrm_ticks : (s.setStrm t x).ticks = s.ticks := rfl
@[simp] theorem setStrm_count : (s.setStrm t x).count = s.count := rfl
@[simp] theorem setStrm_sync : (s.setStrm t x).sync = s.sync := rfl
@[simp] theorem setStrm_slots : (s.setStrm t x).slots = s.slots := rfl
@[simp] theorem setStrm_holds : (s.setStrm t x).holds = s.holds := rfl
@[simp] theorem setStrm_latches : (s.setStrm t x).latches = s.latches := rfl
@[simp] theorem setStrm_rdvs : (s.setStrm t x).rdvs = s.rdvs := rfl
@[simp] theorem setStrm_epochs : (s.setStrm t x).epochs = s.epochs := rfl
@[simp] theorem setStrm_tillers : (s.setStrm t x).tillers = s.tillers := rfl
@[simp] theorem setStrm_compares : (s.setStrm t x).compares = s.compares := rfl
@[simp] theorem setStrm_fifos : (s.setStrm t x).fifos = s.fifos := rfl
@[simp] theorem setStrm_captures : (s.setStrm t x).captures = s.captures := rfl
@[simp] theorem setStrm_levels : (s.setStrm t x).levels = s.levels := rfl
theorem setStrm_streams : (s.setStrm t x).streams = storeSet (fun _ => Stream.reset) s.streams t x := rfl
@[simp] theorem setStrm_pins : (s.setStrm t x).pins = s.pins := rfl
@[simp] theorem setStrm_supplies : (s.setStrm t x).supplies = s.supplies := rfl
@[simp] theorem setStrm_wires : (s.setStrm t x).wires = s.wires := rfl
@[simp] theorem setStrm_firings : (s.setStrm t x).firings = s.firings := rfl
@[simp] theorem setStrm_lines : (s.setStrm t x).lines = s.lines := rfl
@[simp] theorem setStrm_meshOut : (s.setStrm t x).meshOut = s.meshOut := rfl
@[simp] theorem setStrm_hostOut : (s.setStrm t x).hostOut = s.hostOut := rfl
@[simp] theorem setStrm_rdData : (s.setStrm t x).rdData = s.rdData := rfl
@[simp] theorem setStrm_rdPoison : (s.setStrm t x).rdPoison = s.rdPoison := rfl
@[simp] theorem setStrm_draws : (s.setStrm t x).draws = s.draws := rfl
@[simp] theorem setStrm_banks : (s.setStrm t x).banks = s.banks := rfl
@[simp] theorem setStrm_wear : (s.setStrm t x).wear = s.wear := rfl
@[simp] theorem setStrm_lastAdmit : (s.setStrm t x).lastAdmit = s.lastAdmit := rfl
@[simp] theorem setStrm_cals : (s.setStrm t x).cals = s.cals := rfl
@[simp] theorem setStrm_adcs : (s.setStrm t x).adcs = s.adcs := rfl
@[simp] theorem setStrm_tdcs : (s.setStrm t x).tdcs = s.tdcs := rfl
@[simp] theorem setStrm_resetEnd : (s.setStrm t x).resetEnd = s.resetEnd := rfl
@[simp] theorem setStrm_strips : (s.setStrm t x).strips = s.strips := rfl
@[simp] theorem setStrm_monitor : (s.setStrm t x).monitor = s.monitor := rfl
@[simp] theorem setStrm_threshers : (s.setStrm t x).threshers = s.threshers := rfl
@[simp] theorem setStrm_sheaves : (s.setStrm t x).sheaves = s.sheaves := rfl
@[simp] theorem setStrm_routes : (s.setStrm t x).routes = s.routes := rfl
@[simp] theorem setStrm_hmqs : (s.setStrm t x).hmqs = s.hmqs := rfl
@[simp] theorem setStrm_dmas : (s.setStrm t x).dmas = s.dmas := rfl
@[simp] theorem setStrm_hostConfig : (s.setStrm t x).hostConfig = s.hostConfig := rfl
@[simp] theorem setStrm_ports : (s.setStrm t x).ports = s.ports := rfl
@[simp] theorem setStrm_linkOut : (s.setStrm t x).linkOut = s.linkOut := rfl
@[simp] theorem setStrm_meshIn : (s.setStrm t x).meshIn = s.meshIn := rfl
@[simp] theorem setStrm_assembly : (s.setStrm t x).assembly = s.assembly := rfl
@[simp] theorem setStrm_chans : (s.setStrm t x).chans = s.chans := rfl
@[simp] theorem setStrm_svs : (s.setStrm t x).svs = s.svs := rfl
@[simp] theorem setStrm_collector : (s.setStrm t x).collector = s.collector := rfl
@[simp] theorem setStrm_nvm : (s.setStrm t x).nvm = s.nvm := rfl
@[simp] theorem setStrm_msp : (s.setStrm t x).msp = s.msp := rfl
@[simp] theorem setStrm_power : (s.setStrm t x).power = s.power := rfl
@[simp] theorem setStrm_resets : (s.setStrm t x).resets = s.resets := rfl
end law_setStrm

section law_setPin
variable (s : State) (g : Nat) (x : Pin)
@[simp] theorem setPin_pending : (s.setPin g x).pending = s.pending := rfl
@[simp] theorem setPin_regs : (s.setPin g x).regs = s.regs := rfl
@[simp] theorem setPin_mem : (s.setPin g x).mem = s.mem := rfl
@[simp] theorem setPin_uncorr : (s.setPin g x).uncorr = s.uncorr := rfl
@[simp] theorem setPin_single : (s.setPin g x).single = s.single := rfl
@[simp] theorem setPin_ticks : (s.setPin g x).ticks = s.ticks := rfl
@[simp] theorem setPin_count : (s.setPin g x).count = s.count := rfl
@[simp] theorem setPin_sync : (s.setPin g x).sync = s.sync := rfl
@[simp] theorem setPin_slots : (s.setPin g x).slots = s.slots := rfl
@[simp] theorem setPin_holds : (s.setPin g x).holds = s.holds := rfl
@[simp] theorem setPin_latches : (s.setPin g x).latches = s.latches := rfl
@[simp] theorem setPin_rdvs : (s.setPin g x).rdvs = s.rdvs := rfl
@[simp] theorem setPin_epochs : (s.setPin g x).epochs = s.epochs := rfl
@[simp] theorem setPin_tillers : (s.setPin g x).tillers = s.tillers := rfl
@[simp] theorem setPin_compares : (s.setPin g x).compares = s.compares := rfl
@[simp] theorem setPin_fifos : (s.setPin g x).fifos = s.fifos := rfl
@[simp] theorem setPin_captures : (s.setPin g x).captures = s.captures := rfl
@[simp] theorem setPin_levels : (s.setPin g x).levels = s.levels := rfl
@[simp] theorem setPin_streams : (s.setPin g x).streams = s.streams := rfl
theorem setPin_pins : (s.setPin g x).pins = storeSet (fun _ => Pin.reset) s.pins g x := rfl
@[simp] theorem setPin_supplies : (s.setPin g x).supplies = s.supplies := rfl
@[simp] theorem setPin_wires : (s.setPin g x).wires = s.wires := rfl
@[simp] theorem setPin_firings : (s.setPin g x).firings = s.firings := rfl
@[simp] theorem setPin_lines : (s.setPin g x).lines = s.lines := rfl
@[simp] theorem setPin_meshOut : (s.setPin g x).meshOut = s.meshOut := rfl
@[simp] theorem setPin_hostOut : (s.setPin g x).hostOut = s.hostOut := rfl
@[simp] theorem setPin_rdData : (s.setPin g x).rdData = s.rdData := rfl
@[simp] theorem setPin_rdPoison : (s.setPin g x).rdPoison = s.rdPoison := rfl
@[simp] theorem setPin_draws : (s.setPin g x).draws = s.draws := rfl
@[simp] theorem setPin_banks : (s.setPin g x).banks = s.banks := rfl
@[simp] theorem setPin_wear : (s.setPin g x).wear = s.wear := rfl
@[simp] theorem setPin_lastAdmit : (s.setPin g x).lastAdmit = s.lastAdmit := rfl
@[simp] theorem setPin_cals : (s.setPin g x).cals = s.cals := rfl
@[simp] theorem setPin_adcs : (s.setPin g x).adcs = s.adcs := rfl
@[simp] theorem setPin_tdcs : (s.setPin g x).tdcs = s.tdcs := rfl
@[simp] theorem setPin_resetEnd : (s.setPin g x).resetEnd = s.resetEnd := rfl
@[simp] theorem setPin_strips : (s.setPin g x).strips = s.strips := rfl
@[simp] theorem setPin_monitor : (s.setPin g x).monitor = s.monitor := rfl
@[simp] theorem setPin_threshers : (s.setPin g x).threshers = s.threshers := rfl
@[simp] theorem setPin_sheaves : (s.setPin g x).sheaves = s.sheaves := rfl
@[simp] theorem setPin_routes : (s.setPin g x).routes = s.routes := rfl
@[simp] theorem setPin_hmqs : (s.setPin g x).hmqs = s.hmqs := rfl
@[simp] theorem setPin_dmas : (s.setPin g x).dmas = s.dmas := rfl
@[simp] theorem setPin_hostConfig : (s.setPin g x).hostConfig = s.hostConfig := rfl
@[simp] theorem setPin_ports : (s.setPin g x).ports = s.ports := rfl
@[simp] theorem setPin_linkOut : (s.setPin g x).linkOut = s.linkOut := rfl
@[simp] theorem setPin_meshIn : (s.setPin g x).meshIn = s.meshIn := rfl
@[simp] theorem setPin_assembly : (s.setPin g x).assembly = s.assembly := rfl
@[simp] theorem setPin_chans : (s.setPin g x).chans = s.chans := rfl
@[simp] theorem setPin_svs : (s.setPin g x).svs = s.svs := rfl
@[simp] theorem setPin_collector : (s.setPin g x).collector = s.collector := rfl
@[simp] theorem setPin_nvm : (s.setPin g x).nvm = s.nvm := rfl
@[simp] theorem setPin_msp : (s.setPin g x).msp = s.msp := rfl
@[simp] theorem setPin_power : (s.setPin g x).power = s.power := rfl
@[simp] theorem setPin_resets : (s.setPin g x).resets = s.resets := rfl
end law_setPin

section law_setSup
variable (s : State) (t h : Nat) (x : Supply)
@[simp] theorem setSup_pending : (s.setSup t h x).pending = s.pending := rfl
@[simp] theorem setSup_regs : (s.setSup t h x).regs = s.regs := rfl
@[simp] theorem setSup_mem : (s.setSup t h x).mem = s.mem := rfl
@[simp] theorem setSup_uncorr : (s.setSup t h x).uncorr = s.uncorr := rfl
@[simp] theorem setSup_single : (s.setSup t h x).single = s.single := rfl
@[simp] theorem setSup_ticks : (s.setSup t h x).ticks = s.ticks := rfl
@[simp] theorem setSup_count : (s.setSup t h x).count = s.count := rfl
@[simp] theorem setSup_sync : (s.setSup t h x).sync = s.sync := rfl
@[simp] theorem setSup_slots : (s.setSup t h x).slots = s.slots := rfl
@[simp] theorem setSup_holds : (s.setSup t h x).holds = s.holds := rfl
@[simp] theorem setSup_latches : (s.setSup t h x).latches = s.latches := rfl
@[simp] theorem setSup_rdvs : (s.setSup t h x).rdvs = s.rdvs := rfl
@[simp] theorem setSup_epochs : (s.setSup t h x).epochs = s.epochs := rfl
@[simp] theorem setSup_tillers : (s.setSup t h x).tillers = s.tillers := rfl
@[simp] theorem setSup_compares : (s.setSup t h x).compares = s.compares := rfl
@[simp] theorem setSup_fifos : (s.setSup t h x).fifos = s.fifos := rfl
@[simp] theorem setSup_captures : (s.setSup t h x).captures = s.captures := rfl
@[simp] theorem setSup_levels : (s.setSup t h x).levels = s.levels := rfl
@[simp] theorem setSup_streams : (s.setSup t h x).streams = s.streams := rfl
@[simp] theorem setSup_pins : (s.setSup t h x).pins = s.pins := rfl
theorem setSup_supplies : (s.setSup t h x).supplies = storeSet (fun _ => Supply.reset) s.supplies (2 * t + h) x := rfl
@[simp] theorem setSup_wires : (s.setSup t h x).wires = s.wires := rfl
@[simp] theorem setSup_firings : (s.setSup t h x).firings = s.firings := rfl
@[simp] theorem setSup_lines : (s.setSup t h x).lines = s.lines := rfl
@[simp] theorem setSup_meshOut : (s.setSup t h x).meshOut = s.meshOut := rfl
@[simp] theorem setSup_hostOut : (s.setSup t h x).hostOut = s.hostOut := rfl
@[simp] theorem setSup_rdData : (s.setSup t h x).rdData = s.rdData := rfl
@[simp] theorem setSup_rdPoison : (s.setSup t h x).rdPoison = s.rdPoison := rfl
@[simp] theorem setSup_draws : (s.setSup t h x).draws = s.draws := rfl
@[simp] theorem setSup_banks : (s.setSup t h x).banks = s.banks := rfl
@[simp] theorem setSup_wear : (s.setSup t h x).wear = s.wear := rfl
@[simp] theorem setSup_lastAdmit : (s.setSup t h x).lastAdmit = s.lastAdmit := rfl
@[simp] theorem setSup_cals : (s.setSup t h x).cals = s.cals := rfl
@[simp] theorem setSup_adcs : (s.setSup t h x).adcs = s.adcs := rfl
@[simp] theorem setSup_tdcs : (s.setSup t h x).tdcs = s.tdcs := rfl
@[simp] theorem setSup_resetEnd : (s.setSup t h x).resetEnd = s.resetEnd := rfl
@[simp] theorem setSup_strips : (s.setSup t h x).strips = s.strips := rfl
@[simp] theorem setSup_monitor : (s.setSup t h x).monitor = s.monitor := rfl
@[simp] theorem setSup_threshers : (s.setSup t h x).threshers = s.threshers := rfl
@[simp] theorem setSup_sheaves : (s.setSup t h x).sheaves = s.sheaves := rfl
@[simp] theorem setSup_routes : (s.setSup t h x).routes = s.routes := rfl
@[simp] theorem setSup_hmqs : (s.setSup t h x).hmqs = s.hmqs := rfl
@[simp] theorem setSup_dmas : (s.setSup t h x).dmas = s.dmas := rfl
@[simp] theorem setSup_hostConfig : (s.setSup t h x).hostConfig = s.hostConfig := rfl
@[simp] theorem setSup_ports : (s.setSup t h x).ports = s.ports := rfl
@[simp] theorem setSup_linkOut : (s.setSup t h x).linkOut = s.linkOut := rfl
@[simp] theorem setSup_meshIn : (s.setSup t h x).meshIn = s.meshIn := rfl
@[simp] theorem setSup_assembly : (s.setSup t h x).assembly = s.assembly := rfl
@[simp] theorem setSup_chans : (s.setSup t h x).chans = s.chans := rfl
@[simp] theorem setSup_svs : (s.setSup t h x).svs = s.svs := rfl
@[simp] theorem setSup_collector : (s.setSup t h x).collector = s.collector := rfl
@[simp] theorem setSup_nvm : (s.setSup t h x).nvm = s.nvm := rfl
@[simp] theorem setSup_msp : (s.setSup t h x).msp = s.msp := rfl
@[simp] theorem setSup_power : (s.setSup t h x).power = s.power := rfl
@[simp] theorem setSup_resets : (s.setSup t h x).resets = s.resets := rfl
end law_setSup

section law_setRdv
variable (s : State) (k : Nat) (x : Rdv)
@[simp] theorem setRdv_pending : (s.setRdv k x).pending = s.pending := rfl
@[simp] theorem setRdv_regs : (s.setRdv k x).regs = s.regs := rfl
@[simp] theorem setRdv_mem : (s.setRdv k x).mem = s.mem := rfl
@[simp] theorem setRdv_uncorr : (s.setRdv k x).uncorr = s.uncorr := rfl
@[simp] theorem setRdv_single : (s.setRdv k x).single = s.single := rfl
@[simp] theorem setRdv_ticks : (s.setRdv k x).ticks = s.ticks := rfl
@[simp] theorem setRdv_count : (s.setRdv k x).count = s.count := rfl
@[simp] theorem setRdv_sync : (s.setRdv k x).sync = s.sync := rfl
@[simp] theorem setRdv_slots : (s.setRdv k x).slots = s.slots := rfl
@[simp] theorem setRdv_holds : (s.setRdv k x).holds = s.holds := rfl
@[simp] theorem setRdv_latches : (s.setRdv k x).latches = s.latches := rfl
theorem setRdv_rdvs : (s.setRdv k x).rdvs = storeSet (fun _ => Rdv.reset) s.rdvs k x := rfl
@[simp] theorem setRdv_epochs : (s.setRdv k x).epochs = s.epochs := rfl
@[simp] theorem setRdv_tillers : (s.setRdv k x).tillers = s.tillers := rfl
@[simp] theorem setRdv_compares : (s.setRdv k x).compares = s.compares := rfl
@[simp] theorem setRdv_fifos : (s.setRdv k x).fifos = s.fifos := rfl
@[simp] theorem setRdv_captures : (s.setRdv k x).captures = s.captures := rfl
@[simp] theorem setRdv_levels : (s.setRdv k x).levels = s.levels := rfl
@[simp] theorem setRdv_streams : (s.setRdv k x).streams = s.streams := rfl
@[simp] theorem setRdv_pins : (s.setRdv k x).pins = s.pins := rfl
@[simp] theorem setRdv_supplies : (s.setRdv k x).supplies = s.supplies := rfl
@[simp] theorem setRdv_wires : (s.setRdv k x).wires = s.wires := rfl
@[simp] theorem setRdv_firings : (s.setRdv k x).firings = s.firings := rfl
@[simp] theorem setRdv_lines : (s.setRdv k x).lines = s.lines := rfl
@[simp] theorem setRdv_meshOut : (s.setRdv k x).meshOut = s.meshOut := rfl
@[simp] theorem setRdv_hostOut : (s.setRdv k x).hostOut = s.hostOut := rfl
@[simp] theorem setRdv_rdData : (s.setRdv k x).rdData = s.rdData := rfl
@[simp] theorem setRdv_rdPoison : (s.setRdv k x).rdPoison = s.rdPoison := rfl
@[simp] theorem setRdv_draws : (s.setRdv k x).draws = s.draws := rfl
@[simp] theorem setRdv_banks : (s.setRdv k x).banks = s.banks := rfl
@[simp] theorem setRdv_wear : (s.setRdv k x).wear = s.wear := rfl
@[simp] theorem setRdv_lastAdmit : (s.setRdv k x).lastAdmit = s.lastAdmit := rfl
@[simp] theorem setRdv_cals : (s.setRdv k x).cals = s.cals := rfl
@[simp] theorem setRdv_adcs : (s.setRdv k x).adcs = s.adcs := rfl
@[simp] theorem setRdv_tdcs : (s.setRdv k x).tdcs = s.tdcs := rfl
@[simp] theorem setRdv_resetEnd : (s.setRdv k x).resetEnd = s.resetEnd := rfl
@[simp] theorem setRdv_strips : (s.setRdv k x).strips = s.strips := rfl
@[simp] theorem setRdv_monitor : (s.setRdv k x).monitor = s.monitor := rfl
@[simp] theorem setRdv_threshers : (s.setRdv k x).threshers = s.threshers := rfl
@[simp] theorem setRdv_sheaves : (s.setRdv k x).sheaves = s.sheaves := rfl
@[simp] theorem setRdv_routes : (s.setRdv k x).routes = s.routes := rfl
@[simp] theorem setRdv_hmqs : (s.setRdv k x).hmqs = s.hmqs := rfl
@[simp] theorem setRdv_dmas : (s.setRdv k x).dmas = s.dmas := rfl
@[simp] theorem setRdv_hostConfig : (s.setRdv k x).hostConfig = s.hostConfig := rfl
@[simp] theorem setRdv_ports : (s.setRdv k x).ports = s.ports := rfl
@[simp] theorem setRdv_linkOut : (s.setRdv k x).linkOut = s.linkOut := rfl
@[simp] theorem setRdv_meshIn : (s.setRdv k x).meshIn = s.meshIn := rfl
@[simp] theorem setRdv_assembly : (s.setRdv k x).assembly = s.assembly := rfl
@[simp] theorem setRdv_chans : (s.setRdv k x).chans = s.chans := rfl
@[simp] theorem setRdv_svs : (s.setRdv k x).svs = s.svs := rfl
@[simp] theorem setRdv_collector : (s.setRdv k x).collector = s.collector := rfl
@[simp] theorem setRdv_nvm : (s.setRdv k x).nvm = s.nvm := rfl
@[simp] theorem setRdv_msp : (s.setRdv k x).msp = s.msp := rfl
@[simp] theorem setRdv_power : (s.setRdv k x).power = s.power := rfl
@[simp] theorem setRdv_resets : (s.setRdv k x).resets = s.resets := rfl
end law_setRdv

section law_setCalTl
variable (s : State) (t : Nat) (x : CalTiller)
@[simp] theorem setCalTl_pending : (s.setCalTl t x).pending = s.pending := rfl
@[simp] theorem setCalTl_regs : (s.setCalTl t x).regs = s.regs := rfl
@[simp] theorem setCalTl_mem : (s.setCalTl t x).mem = s.mem := rfl
@[simp] theorem setCalTl_uncorr : (s.setCalTl t x).uncorr = s.uncorr := rfl
@[simp] theorem setCalTl_single : (s.setCalTl t x).single = s.single := rfl
@[simp] theorem setCalTl_ticks : (s.setCalTl t x).ticks = s.ticks := rfl
@[simp] theorem setCalTl_count : (s.setCalTl t x).count = s.count := rfl
@[simp] theorem setCalTl_sync : (s.setCalTl t x).sync = s.sync := rfl
@[simp] theorem setCalTl_slots : (s.setCalTl t x).slots = s.slots := rfl
@[simp] theorem setCalTl_holds : (s.setCalTl t x).holds = s.holds := rfl
@[simp] theorem setCalTl_latches : (s.setCalTl t x).latches = s.latches := rfl
@[simp] theorem setCalTl_rdvs : (s.setCalTl t x).rdvs = s.rdvs := rfl
@[simp] theorem setCalTl_epochs : (s.setCalTl t x).epochs = s.epochs := rfl
@[simp] theorem setCalTl_tillers : (s.setCalTl t x).tillers = s.tillers := rfl
@[simp] theorem setCalTl_compares : (s.setCalTl t x).compares = s.compares := rfl
@[simp] theorem setCalTl_fifos : (s.setCalTl t x).fifos = s.fifos := rfl
@[simp] theorem setCalTl_captures : (s.setCalTl t x).captures = s.captures := rfl
@[simp] theorem setCalTl_levels : (s.setCalTl t x).levels = s.levels := rfl
@[simp] theorem setCalTl_streams : (s.setCalTl t x).streams = s.streams := rfl
@[simp] theorem setCalTl_pins : (s.setCalTl t x).pins = s.pins := rfl
@[simp] theorem setCalTl_supplies : (s.setCalTl t x).supplies = s.supplies := rfl
@[simp] theorem setCalTl_wires : (s.setCalTl t x).wires = s.wires := rfl
@[simp] theorem setCalTl_firings : (s.setCalTl t x).firings = s.firings := rfl
@[simp] theorem setCalTl_lines : (s.setCalTl t x).lines = s.lines := rfl
@[simp] theorem setCalTl_meshOut : (s.setCalTl t x).meshOut = s.meshOut := rfl
@[simp] theorem setCalTl_hostOut : (s.setCalTl t x).hostOut = s.hostOut := rfl
@[simp] theorem setCalTl_rdData : (s.setCalTl t x).rdData = s.rdData := rfl
@[simp] theorem setCalTl_rdPoison : (s.setCalTl t x).rdPoison = s.rdPoison := rfl
@[simp] theorem setCalTl_draws : (s.setCalTl t x).draws = s.draws := rfl
@[simp] theorem setCalTl_banks : (s.setCalTl t x).banks = s.banks := rfl
@[simp] theorem setCalTl_wear : (s.setCalTl t x).wear = s.wear := rfl
@[simp] theorem setCalTl_lastAdmit : (s.setCalTl t x).lastAdmit = s.lastAdmit := rfl
theorem setCalTl_cals : (s.setCalTl t x).cals = storeSet (fun _ => CalTiller.reset) s.cals t x := rfl
@[simp] theorem setCalTl_adcs : (s.setCalTl t x).adcs = s.adcs := rfl
@[simp] theorem setCalTl_tdcs : (s.setCalTl t x).tdcs = s.tdcs := rfl
@[simp] theorem setCalTl_resetEnd : (s.setCalTl t x).resetEnd = s.resetEnd := rfl
@[simp] theorem setCalTl_strips : (s.setCalTl t x).strips = s.strips := rfl
@[simp] theorem setCalTl_monitor : (s.setCalTl t x).monitor = s.monitor := rfl
@[simp] theorem setCalTl_threshers : (s.setCalTl t x).threshers = s.threshers := rfl
@[simp] theorem setCalTl_sheaves : (s.setCalTl t x).sheaves = s.sheaves := rfl
@[simp] theorem setCalTl_routes : (s.setCalTl t x).routes = s.routes := rfl
@[simp] theorem setCalTl_hmqs : (s.setCalTl t x).hmqs = s.hmqs := rfl
@[simp] theorem setCalTl_dmas : (s.setCalTl t x).dmas = s.dmas := rfl
@[simp] theorem setCalTl_hostConfig : (s.setCalTl t x).hostConfig = s.hostConfig := rfl
@[simp] theorem setCalTl_ports : (s.setCalTl t x).ports = s.ports := rfl
@[simp] theorem setCalTl_linkOut : (s.setCalTl t x).linkOut = s.linkOut := rfl
@[simp] theorem setCalTl_meshIn : (s.setCalTl t x).meshIn = s.meshIn := rfl
@[simp] theorem setCalTl_assembly : (s.setCalTl t x).assembly = s.assembly := rfl
@[simp] theorem setCalTl_chans : (s.setCalTl t x).chans = s.chans := rfl
@[simp] theorem setCalTl_svs : (s.setCalTl t x).svs = s.svs := rfl
@[simp] theorem setCalTl_collector : (s.setCalTl t x).collector = s.collector := rfl
@[simp] theorem setCalTl_nvm : (s.setCalTl t x).nvm = s.nvm := rfl
@[simp] theorem setCalTl_msp : (s.setCalTl t x).msp = s.msp := rfl
@[simp] theorem setCalTl_power : (s.setCalTl t x).power = s.power := rfl
@[simp] theorem setCalTl_resets : (s.setCalTl t x).resets = s.resets := rfl
end law_setCalTl

section law_setAdc
variable (s : State) (t : Nat) (x : Adc)
@[simp] theorem setAdc_pending : (s.setAdc t x).pending = s.pending := rfl
@[simp] theorem setAdc_regs : (s.setAdc t x).regs = s.regs := rfl
@[simp] theorem setAdc_mem : (s.setAdc t x).mem = s.mem := rfl
@[simp] theorem setAdc_uncorr : (s.setAdc t x).uncorr = s.uncorr := rfl
@[simp] theorem setAdc_single : (s.setAdc t x).single = s.single := rfl
@[simp] theorem setAdc_ticks : (s.setAdc t x).ticks = s.ticks := rfl
@[simp] theorem setAdc_count : (s.setAdc t x).count = s.count := rfl
@[simp] theorem setAdc_sync : (s.setAdc t x).sync = s.sync := rfl
@[simp] theorem setAdc_slots : (s.setAdc t x).slots = s.slots := rfl
@[simp] theorem setAdc_holds : (s.setAdc t x).holds = s.holds := rfl
@[simp] theorem setAdc_latches : (s.setAdc t x).latches = s.latches := rfl
@[simp] theorem setAdc_rdvs : (s.setAdc t x).rdvs = s.rdvs := rfl
@[simp] theorem setAdc_epochs : (s.setAdc t x).epochs = s.epochs := rfl
@[simp] theorem setAdc_tillers : (s.setAdc t x).tillers = s.tillers := rfl
@[simp] theorem setAdc_compares : (s.setAdc t x).compares = s.compares := rfl
@[simp] theorem setAdc_fifos : (s.setAdc t x).fifos = s.fifos := rfl
@[simp] theorem setAdc_captures : (s.setAdc t x).captures = s.captures := rfl
@[simp] theorem setAdc_levels : (s.setAdc t x).levels = s.levels := rfl
@[simp] theorem setAdc_streams : (s.setAdc t x).streams = s.streams := rfl
@[simp] theorem setAdc_pins : (s.setAdc t x).pins = s.pins := rfl
@[simp] theorem setAdc_supplies : (s.setAdc t x).supplies = s.supplies := rfl
@[simp] theorem setAdc_wires : (s.setAdc t x).wires = s.wires := rfl
@[simp] theorem setAdc_firings : (s.setAdc t x).firings = s.firings := rfl
@[simp] theorem setAdc_lines : (s.setAdc t x).lines = s.lines := rfl
@[simp] theorem setAdc_meshOut : (s.setAdc t x).meshOut = s.meshOut := rfl
@[simp] theorem setAdc_hostOut : (s.setAdc t x).hostOut = s.hostOut := rfl
@[simp] theorem setAdc_rdData : (s.setAdc t x).rdData = s.rdData := rfl
@[simp] theorem setAdc_rdPoison : (s.setAdc t x).rdPoison = s.rdPoison := rfl
@[simp] theorem setAdc_draws : (s.setAdc t x).draws = s.draws := rfl
@[simp] theorem setAdc_banks : (s.setAdc t x).banks = s.banks := rfl
@[simp] theorem setAdc_wear : (s.setAdc t x).wear = s.wear := rfl
@[simp] theorem setAdc_lastAdmit : (s.setAdc t x).lastAdmit = s.lastAdmit := rfl
@[simp] theorem setAdc_cals : (s.setAdc t x).cals = s.cals := rfl
theorem setAdc_adcs : (s.setAdc t x).adcs = storeSet (fun _ => Adc.reset) s.adcs t x := rfl
@[simp] theorem setAdc_tdcs : (s.setAdc t x).tdcs = s.tdcs := rfl
@[simp] theorem setAdc_resetEnd : (s.setAdc t x).resetEnd = s.resetEnd := rfl
@[simp] theorem setAdc_strips : (s.setAdc t x).strips = s.strips := rfl
@[simp] theorem setAdc_monitor : (s.setAdc t x).monitor = s.monitor := rfl
@[simp] theorem setAdc_threshers : (s.setAdc t x).threshers = s.threshers := rfl
@[simp] theorem setAdc_sheaves : (s.setAdc t x).sheaves = s.sheaves := rfl
@[simp] theorem setAdc_routes : (s.setAdc t x).routes = s.routes := rfl
@[simp] theorem setAdc_hmqs : (s.setAdc t x).hmqs = s.hmqs := rfl
@[simp] theorem setAdc_dmas : (s.setAdc t x).dmas = s.dmas := rfl
@[simp] theorem setAdc_hostConfig : (s.setAdc t x).hostConfig = s.hostConfig := rfl
@[simp] theorem setAdc_ports : (s.setAdc t x).ports = s.ports := rfl
@[simp] theorem setAdc_linkOut : (s.setAdc t x).linkOut = s.linkOut := rfl
@[simp] theorem setAdc_meshIn : (s.setAdc t x).meshIn = s.meshIn := rfl
@[simp] theorem setAdc_assembly : (s.setAdc t x).assembly = s.assembly := rfl
@[simp] theorem setAdc_chans : (s.setAdc t x).chans = s.chans := rfl
@[simp] theorem setAdc_svs : (s.setAdc t x).svs = s.svs := rfl
@[simp] theorem setAdc_collector : (s.setAdc t x).collector = s.collector := rfl
@[simp] theorem setAdc_nvm : (s.setAdc t x).nvm = s.nvm := rfl
@[simp] theorem setAdc_msp : (s.setAdc t x).msp = s.msp := rfl
@[simp] theorem setAdc_power : (s.setAdc t x).power = s.power := rfl
@[simp] theorem setAdc_resets : (s.setAdc t x).resets = s.resets := rfl
end law_setAdc

section law_setTdc
variable (s : State) (t : Nat) (x : Tdc)
@[simp] theorem setTdc_pending : (s.setTdc t x).pending = s.pending := rfl
@[simp] theorem setTdc_regs : (s.setTdc t x).regs = s.regs := rfl
@[simp] theorem setTdc_mem : (s.setTdc t x).mem = s.mem := rfl
@[simp] theorem setTdc_uncorr : (s.setTdc t x).uncorr = s.uncorr := rfl
@[simp] theorem setTdc_single : (s.setTdc t x).single = s.single := rfl
@[simp] theorem setTdc_ticks : (s.setTdc t x).ticks = s.ticks := rfl
@[simp] theorem setTdc_count : (s.setTdc t x).count = s.count := rfl
@[simp] theorem setTdc_sync : (s.setTdc t x).sync = s.sync := rfl
@[simp] theorem setTdc_slots : (s.setTdc t x).slots = s.slots := rfl
@[simp] theorem setTdc_holds : (s.setTdc t x).holds = s.holds := rfl
@[simp] theorem setTdc_latches : (s.setTdc t x).latches = s.latches := rfl
@[simp] theorem setTdc_rdvs : (s.setTdc t x).rdvs = s.rdvs := rfl
@[simp] theorem setTdc_epochs : (s.setTdc t x).epochs = s.epochs := rfl
@[simp] theorem setTdc_tillers : (s.setTdc t x).tillers = s.tillers := rfl
@[simp] theorem setTdc_compares : (s.setTdc t x).compares = s.compares := rfl
@[simp] theorem setTdc_fifos : (s.setTdc t x).fifos = s.fifos := rfl
@[simp] theorem setTdc_captures : (s.setTdc t x).captures = s.captures := rfl
@[simp] theorem setTdc_levels : (s.setTdc t x).levels = s.levels := rfl
@[simp] theorem setTdc_streams : (s.setTdc t x).streams = s.streams := rfl
@[simp] theorem setTdc_pins : (s.setTdc t x).pins = s.pins := rfl
@[simp] theorem setTdc_supplies : (s.setTdc t x).supplies = s.supplies := rfl
@[simp] theorem setTdc_wires : (s.setTdc t x).wires = s.wires := rfl
@[simp] theorem setTdc_firings : (s.setTdc t x).firings = s.firings := rfl
@[simp] theorem setTdc_lines : (s.setTdc t x).lines = s.lines := rfl
@[simp] theorem setTdc_meshOut : (s.setTdc t x).meshOut = s.meshOut := rfl
@[simp] theorem setTdc_hostOut : (s.setTdc t x).hostOut = s.hostOut := rfl
@[simp] theorem setTdc_rdData : (s.setTdc t x).rdData = s.rdData := rfl
@[simp] theorem setTdc_rdPoison : (s.setTdc t x).rdPoison = s.rdPoison := rfl
@[simp] theorem setTdc_draws : (s.setTdc t x).draws = s.draws := rfl
@[simp] theorem setTdc_banks : (s.setTdc t x).banks = s.banks := rfl
@[simp] theorem setTdc_wear : (s.setTdc t x).wear = s.wear := rfl
@[simp] theorem setTdc_lastAdmit : (s.setTdc t x).lastAdmit = s.lastAdmit := rfl
@[simp] theorem setTdc_cals : (s.setTdc t x).cals = s.cals := rfl
@[simp] theorem setTdc_adcs : (s.setTdc t x).adcs = s.adcs := rfl
theorem setTdc_tdcs : (s.setTdc t x).tdcs = storeSet (fun _ => Tdc.reset) s.tdcs t x := rfl
@[simp] theorem setTdc_resetEnd : (s.setTdc t x).resetEnd = s.resetEnd := rfl
@[simp] theorem setTdc_strips : (s.setTdc t x).strips = s.strips := rfl
@[simp] theorem setTdc_monitor : (s.setTdc t x).monitor = s.monitor := rfl
@[simp] theorem setTdc_threshers : (s.setTdc t x).threshers = s.threshers := rfl
@[simp] theorem setTdc_sheaves : (s.setTdc t x).sheaves = s.sheaves := rfl
@[simp] theorem setTdc_routes : (s.setTdc t x).routes = s.routes := rfl
@[simp] theorem setTdc_hmqs : (s.setTdc t x).hmqs = s.hmqs := rfl
@[simp] theorem setTdc_dmas : (s.setTdc t x).dmas = s.dmas := rfl
@[simp] theorem setTdc_hostConfig : (s.setTdc t x).hostConfig = s.hostConfig := rfl
@[simp] theorem setTdc_ports : (s.setTdc t x).ports = s.ports := rfl
@[simp] theorem setTdc_linkOut : (s.setTdc t x).linkOut = s.linkOut := rfl
@[simp] theorem setTdc_meshIn : (s.setTdc t x).meshIn = s.meshIn := rfl
@[simp] theorem setTdc_assembly : (s.setTdc t x).assembly = s.assembly := rfl
@[simp] theorem setTdc_chans : (s.setTdc t x).chans = s.chans := rfl
@[simp] theorem setTdc_svs : (s.setTdc t x).svs = s.svs := rfl
@[simp] theorem setTdc_collector : (s.setTdc t x).collector = s.collector := rfl
@[simp] theorem setTdc_nvm : (s.setTdc t x).nvm = s.nvm := rfl
@[simp] theorem setTdc_msp : (s.setTdc t x).msp = s.msp := rfl
@[simp] theorem setTdc_power : (s.setTdc t x).power = s.power := rfl
@[simp] theorem setTdc_resets : (s.setTdc t x).resets = s.resets := rfl
end law_setTdc

section law_setStrip
variable (s : State) (r : Nat) (x : Strip)
@[simp] theorem setStrip_pending : (s.setStrip r x).pending = s.pending := rfl
@[simp] theorem setStrip_regs : (s.setStrip r x).regs = s.regs := rfl
@[simp] theorem setStrip_mem : (s.setStrip r x).mem = s.mem := rfl
@[simp] theorem setStrip_uncorr : (s.setStrip r x).uncorr = s.uncorr := rfl
@[simp] theorem setStrip_single : (s.setStrip r x).single = s.single := rfl
@[simp] theorem setStrip_ticks : (s.setStrip r x).ticks = s.ticks := rfl
@[simp] theorem setStrip_count : (s.setStrip r x).count = s.count := rfl
@[simp] theorem setStrip_sync : (s.setStrip r x).sync = s.sync := rfl
@[simp] theorem setStrip_slots : (s.setStrip r x).slots = s.slots := rfl
@[simp] theorem setStrip_holds : (s.setStrip r x).holds = s.holds := rfl
@[simp] theorem setStrip_latches : (s.setStrip r x).latches = s.latches := rfl
@[simp] theorem setStrip_rdvs : (s.setStrip r x).rdvs = s.rdvs := rfl
@[simp] theorem setStrip_epochs : (s.setStrip r x).epochs = s.epochs := rfl
@[simp] theorem setStrip_tillers : (s.setStrip r x).tillers = s.tillers := rfl
@[simp] theorem setStrip_compares : (s.setStrip r x).compares = s.compares := rfl
@[simp] theorem setStrip_fifos : (s.setStrip r x).fifos = s.fifos := rfl
@[simp] theorem setStrip_captures : (s.setStrip r x).captures = s.captures := rfl
@[simp] theorem setStrip_levels : (s.setStrip r x).levels = s.levels := rfl
@[simp] theorem setStrip_streams : (s.setStrip r x).streams = s.streams := rfl
@[simp] theorem setStrip_pins : (s.setStrip r x).pins = s.pins := rfl
@[simp] theorem setStrip_supplies : (s.setStrip r x).supplies = s.supplies := rfl
@[simp] theorem setStrip_wires : (s.setStrip r x).wires = s.wires := rfl
@[simp] theorem setStrip_firings : (s.setStrip r x).firings = s.firings := rfl
@[simp] theorem setStrip_lines : (s.setStrip r x).lines = s.lines := rfl
@[simp] theorem setStrip_meshOut : (s.setStrip r x).meshOut = s.meshOut := rfl
@[simp] theorem setStrip_hostOut : (s.setStrip r x).hostOut = s.hostOut := rfl
@[simp] theorem setStrip_rdData : (s.setStrip r x).rdData = s.rdData := rfl
@[simp] theorem setStrip_rdPoison : (s.setStrip r x).rdPoison = s.rdPoison := rfl
@[simp] theorem setStrip_draws : (s.setStrip r x).draws = s.draws := rfl
@[simp] theorem setStrip_banks : (s.setStrip r x).banks = s.banks := rfl
@[simp] theorem setStrip_wear : (s.setStrip r x).wear = s.wear := rfl
@[simp] theorem setStrip_lastAdmit : (s.setStrip r x).lastAdmit = s.lastAdmit := rfl
@[simp] theorem setStrip_cals : (s.setStrip r x).cals = s.cals := rfl
@[simp] theorem setStrip_adcs : (s.setStrip r x).adcs = s.adcs := rfl
@[simp] theorem setStrip_tdcs : (s.setStrip r x).tdcs = s.tdcs := rfl
@[simp] theorem setStrip_resetEnd : (s.setStrip r x).resetEnd = s.resetEnd := rfl
theorem setStrip_strips : (s.setStrip r x).strips = storeSet (fun _ => Strip.reset) s.strips r x := rfl
@[simp] theorem setStrip_monitor : (s.setStrip r x).monitor = s.monitor := rfl
@[simp] theorem setStrip_threshers : (s.setStrip r x).threshers = s.threshers := rfl
@[simp] theorem setStrip_sheaves : (s.setStrip r x).sheaves = s.sheaves := rfl
@[simp] theorem setStrip_routes : (s.setStrip r x).routes = s.routes := rfl
@[simp] theorem setStrip_hmqs : (s.setStrip r x).hmqs = s.hmqs := rfl
@[simp] theorem setStrip_dmas : (s.setStrip r x).dmas = s.dmas := rfl
@[simp] theorem setStrip_hostConfig : (s.setStrip r x).hostConfig = s.hostConfig := rfl
@[simp] theorem setStrip_ports : (s.setStrip r x).ports = s.ports := rfl
@[simp] theorem setStrip_linkOut : (s.setStrip r x).linkOut = s.linkOut := rfl
@[simp] theorem setStrip_meshIn : (s.setStrip r x).meshIn = s.meshIn := rfl
@[simp] theorem setStrip_assembly : (s.setStrip r x).assembly = s.assembly := rfl
@[simp] theorem setStrip_chans : (s.setStrip r x).chans = s.chans := rfl
@[simp] theorem setStrip_svs : (s.setStrip r x).svs = s.svs := rfl
@[simp] theorem setStrip_collector : (s.setStrip r x).collector = s.collector := rfl
@[simp] theorem setStrip_nvm : (s.setStrip r x).nvm = s.nvm := rfl
@[simp] theorem setStrip_msp : (s.setStrip r x).msp = s.msp := rfl
@[simp] theorem setStrip_power : (s.setStrip r x).power = s.power := rfl
@[simp] theorem setStrip_resets : (s.setStrip r x).resets = s.resets := rfl
end law_setStrip

section law_setThr
variable (s : State) (i : Nat) (x : Thresher)
@[simp] theorem setThr_pending : (s.setThr i x).pending = s.pending := rfl
@[simp] theorem setThr_regs : (s.setThr i x).regs = s.regs := rfl
@[simp] theorem setThr_mem : (s.setThr i x).mem = s.mem := rfl
@[simp] theorem setThr_uncorr : (s.setThr i x).uncorr = s.uncorr := rfl
@[simp] theorem setThr_single : (s.setThr i x).single = s.single := rfl
@[simp] theorem setThr_ticks : (s.setThr i x).ticks = s.ticks := rfl
@[simp] theorem setThr_count : (s.setThr i x).count = s.count := rfl
@[simp] theorem setThr_sync : (s.setThr i x).sync = s.sync := rfl
@[simp] theorem setThr_slots : (s.setThr i x).slots = s.slots := rfl
@[simp] theorem setThr_holds : (s.setThr i x).holds = s.holds := rfl
@[simp] theorem setThr_latches : (s.setThr i x).latches = s.latches := rfl
@[simp] theorem setThr_rdvs : (s.setThr i x).rdvs = s.rdvs := rfl
@[simp] theorem setThr_epochs : (s.setThr i x).epochs = s.epochs := rfl
@[simp] theorem setThr_tillers : (s.setThr i x).tillers = s.tillers := rfl
@[simp] theorem setThr_compares : (s.setThr i x).compares = s.compares := rfl
@[simp] theorem setThr_fifos : (s.setThr i x).fifos = s.fifos := rfl
@[simp] theorem setThr_captures : (s.setThr i x).captures = s.captures := rfl
@[simp] theorem setThr_levels : (s.setThr i x).levels = s.levels := rfl
@[simp] theorem setThr_streams : (s.setThr i x).streams = s.streams := rfl
@[simp] theorem setThr_pins : (s.setThr i x).pins = s.pins := rfl
@[simp] theorem setThr_supplies : (s.setThr i x).supplies = s.supplies := rfl
@[simp] theorem setThr_wires : (s.setThr i x).wires = s.wires := rfl
@[simp] theorem setThr_firings : (s.setThr i x).firings = s.firings := rfl
@[simp] theorem setThr_lines : (s.setThr i x).lines = s.lines := rfl
@[simp] theorem setThr_meshOut : (s.setThr i x).meshOut = s.meshOut := rfl
@[simp] theorem setThr_hostOut : (s.setThr i x).hostOut = s.hostOut := rfl
@[simp] theorem setThr_rdData : (s.setThr i x).rdData = s.rdData := rfl
@[simp] theorem setThr_rdPoison : (s.setThr i x).rdPoison = s.rdPoison := rfl
@[simp] theorem setThr_draws : (s.setThr i x).draws = s.draws := rfl
@[simp] theorem setThr_banks : (s.setThr i x).banks = s.banks := rfl
@[simp] theorem setThr_wear : (s.setThr i x).wear = s.wear := rfl
@[simp] theorem setThr_lastAdmit : (s.setThr i x).lastAdmit = s.lastAdmit := rfl
@[simp] theorem setThr_cals : (s.setThr i x).cals = s.cals := rfl
@[simp] theorem setThr_adcs : (s.setThr i x).adcs = s.adcs := rfl
@[simp] theorem setThr_tdcs : (s.setThr i x).tdcs = s.tdcs := rfl
@[simp] theorem setThr_resetEnd : (s.setThr i x).resetEnd = s.resetEnd := rfl
@[simp] theorem setThr_strips : (s.setThr i x).strips = s.strips := rfl
@[simp] theorem setThr_monitor : (s.setThr i x).monitor = s.monitor := rfl
theorem setThr_threshers : (s.setThr i x).threshers = storeSet (fun _ => Thresher.reset) s.threshers i x := rfl
@[simp] theorem setThr_sheaves : (s.setThr i x).sheaves = s.sheaves := rfl
@[simp] theorem setThr_routes : (s.setThr i x).routes = s.routes := rfl
@[simp] theorem setThr_hmqs : (s.setThr i x).hmqs = s.hmqs := rfl
@[simp] theorem setThr_dmas : (s.setThr i x).dmas = s.dmas := rfl
@[simp] theorem setThr_hostConfig : (s.setThr i x).hostConfig = s.hostConfig := rfl
@[simp] theorem setThr_ports : (s.setThr i x).ports = s.ports := rfl
@[simp] theorem setThr_linkOut : (s.setThr i x).linkOut = s.linkOut := rfl
@[simp] theorem setThr_meshIn : (s.setThr i x).meshIn = s.meshIn := rfl
@[simp] theorem setThr_assembly : (s.setThr i x).assembly = s.assembly := rfl
@[simp] theorem setThr_chans : (s.setThr i x).chans = s.chans := rfl
@[simp] theorem setThr_svs : (s.setThr i x).svs = s.svs := rfl
@[simp] theorem setThr_collector : (s.setThr i x).collector = s.collector := rfl
@[simp] theorem setThr_nvm : (s.setThr i x).nvm = s.nvm := rfl
@[simp] theorem setThr_msp : (s.setThr i x).msp = s.msp := rfl
@[simp] theorem setThr_power : (s.setThr i x).power = s.power := rfl
@[simp] theorem setThr_resets : (s.setThr i x).resets = s.resets := rfl
end law_setThr

section law_setSheaf
variable (s : State) (u : Nat) (x : Sheaf)
@[simp] theorem setSheaf_pending : (s.setSheaf u x).pending = s.pending := rfl
@[simp] theorem setSheaf_regs : (s.setSheaf u x).regs = s.regs := rfl
@[simp] theorem setSheaf_mem : (s.setSheaf u x).mem = s.mem := rfl
@[simp] theorem setSheaf_uncorr : (s.setSheaf u x).uncorr = s.uncorr := rfl
@[simp] theorem setSheaf_single : (s.setSheaf u x).single = s.single := rfl
@[simp] theorem setSheaf_ticks : (s.setSheaf u x).ticks = s.ticks := rfl
@[simp] theorem setSheaf_count : (s.setSheaf u x).count = s.count := rfl
@[simp] theorem setSheaf_sync : (s.setSheaf u x).sync = s.sync := rfl
@[simp] theorem setSheaf_slots : (s.setSheaf u x).slots = s.slots := rfl
@[simp] theorem setSheaf_holds : (s.setSheaf u x).holds = s.holds := rfl
@[simp] theorem setSheaf_latches : (s.setSheaf u x).latches = s.latches := rfl
@[simp] theorem setSheaf_rdvs : (s.setSheaf u x).rdvs = s.rdvs := rfl
@[simp] theorem setSheaf_epochs : (s.setSheaf u x).epochs = s.epochs := rfl
@[simp] theorem setSheaf_tillers : (s.setSheaf u x).tillers = s.tillers := rfl
@[simp] theorem setSheaf_compares : (s.setSheaf u x).compares = s.compares := rfl
@[simp] theorem setSheaf_fifos : (s.setSheaf u x).fifos = s.fifos := rfl
@[simp] theorem setSheaf_captures : (s.setSheaf u x).captures = s.captures := rfl
@[simp] theorem setSheaf_levels : (s.setSheaf u x).levels = s.levels := rfl
@[simp] theorem setSheaf_streams : (s.setSheaf u x).streams = s.streams := rfl
@[simp] theorem setSheaf_pins : (s.setSheaf u x).pins = s.pins := rfl
@[simp] theorem setSheaf_supplies : (s.setSheaf u x).supplies = s.supplies := rfl
@[simp] theorem setSheaf_wires : (s.setSheaf u x).wires = s.wires := rfl
@[simp] theorem setSheaf_firings : (s.setSheaf u x).firings = s.firings := rfl
@[simp] theorem setSheaf_lines : (s.setSheaf u x).lines = s.lines := rfl
@[simp] theorem setSheaf_meshOut : (s.setSheaf u x).meshOut = s.meshOut := rfl
@[simp] theorem setSheaf_hostOut : (s.setSheaf u x).hostOut = s.hostOut := rfl
@[simp] theorem setSheaf_rdData : (s.setSheaf u x).rdData = s.rdData := rfl
@[simp] theorem setSheaf_rdPoison : (s.setSheaf u x).rdPoison = s.rdPoison := rfl
@[simp] theorem setSheaf_draws : (s.setSheaf u x).draws = s.draws := rfl
@[simp] theorem setSheaf_banks : (s.setSheaf u x).banks = s.banks := rfl
@[simp] theorem setSheaf_wear : (s.setSheaf u x).wear = s.wear := rfl
@[simp] theorem setSheaf_lastAdmit : (s.setSheaf u x).lastAdmit = s.lastAdmit := rfl
@[simp] theorem setSheaf_cals : (s.setSheaf u x).cals = s.cals := rfl
@[simp] theorem setSheaf_adcs : (s.setSheaf u x).adcs = s.adcs := rfl
@[simp] theorem setSheaf_tdcs : (s.setSheaf u x).tdcs = s.tdcs := rfl
@[simp] theorem setSheaf_resetEnd : (s.setSheaf u x).resetEnd = s.resetEnd := rfl
@[simp] theorem setSheaf_strips : (s.setSheaf u x).strips = s.strips := rfl
@[simp] theorem setSheaf_monitor : (s.setSheaf u x).monitor = s.monitor := rfl
@[simp] theorem setSheaf_threshers : (s.setSheaf u x).threshers = s.threshers := rfl
theorem setSheaf_sheaves : (s.setSheaf u x).sheaves = storeSet (fun _ => Sheaf.reset) s.sheaves u x := rfl
@[simp] theorem setSheaf_routes : (s.setSheaf u x).routes = s.routes := rfl
@[simp] theorem setSheaf_hmqs : (s.setSheaf u x).hmqs = s.hmqs := rfl
@[simp] theorem setSheaf_dmas : (s.setSheaf u x).dmas = s.dmas := rfl
@[simp] theorem setSheaf_hostConfig : (s.setSheaf u x).hostConfig = s.hostConfig := rfl
@[simp] theorem setSheaf_ports : (s.setSheaf u x).ports = s.ports := rfl
@[simp] theorem setSheaf_linkOut : (s.setSheaf u x).linkOut = s.linkOut := rfl
@[simp] theorem setSheaf_meshIn : (s.setSheaf u x).meshIn = s.meshIn := rfl
@[simp] theorem setSheaf_assembly : (s.setSheaf u x).assembly = s.assembly := rfl
@[simp] theorem setSheaf_chans : (s.setSheaf u x).chans = s.chans := rfl
@[simp] theorem setSheaf_svs : (s.setSheaf u x).svs = s.svs := rfl
@[simp] theorem setSheaf_collector : (s.setSheaf u x).collector = s.collector := rfl
@[simp] theorem setSheaf_nvm : (s.setSheaf u x).nvm = s.nvm := rfl
@[simp] theorem setSheaf_msp : (s.setSheaf u x).msp = s.msp := rfl
@[simp] theorem setSheaf_power : (s.setSheaf u x).power = s.power := rfl
@[simp] theorem setSheaf_resets : (s.setSheaf u x).resets = s.resets := rfl
end law_setSheaf

section law_setRoute
variable (s : State) (t : Nat) (x : Route)
@[simp] theorem setRoute_pending : (s.setRoute t x).pending = s.pending := rfl
@[simp] theorem setRoute_regs : (s.setRoute t x).regs = s.regs := rfl
@[simp] theorem setRoute_mem : (s.setRoute t x).mem = s.mem := rfl
@[simp] theorem setRoute_uncorr : (s.setRoute t x).uncorr = s.uncorr := rfl
@[simp] theorem setRoute_single : (s.setRoute t x).single = s.single := rfl
@[simp] theorem setRoute_ticks : (s.setRoute t x).ticks = s.ticks := rfl
@[simp] theorem setRoute_count : (s.setRoute t x).count = s.count := rfl
@[simp] theorem setRoute_sync : (s.setRoute t x).sync = s.sync := rfl
@[simp] theorem setRoute_slots : (s.setRoute t x).slots = s.slots := rfl
@[simp] theorem setRoute_holds : (s.setRoute t x).holds = s.holds := rfl
@[simp] theorem setRoute_latches : (s.setRoute t x).latches = s.latches := rfl
@[simp] theorem setRoute_rdvs : (s.setRoute t x).rdvs = s.rdvs := rfl
@[simp] theorem setRoute_epochs : (s.setRoute t x).epochs = s.epochs := rfl
@[simp] theorem setRoute_tillers : (s.setRoute t x).tillers = s.tillers := rfl
@[simp] theorem setRoute_compares : (s.setRoute t x).compares = s.compares := rfl
@[simp] theorem setRoute_fifos : (s.setRoute t x).fifos = s.fifos := rfl
@[simp] theorem setRoute_captures : (s.setRoute t x).captures = s.captures := rfl
@[simp] theorem setRoute_levels : (s.setRoute t x).levels = s.levels := rfl
@[simp] theorem setRoute_streams : (s.setRoute t x).streams = s.streams := rfl
@[simp] theorem setRoute_pins : (s.setRoute t x).pins = s.pins := rfl
@[simp] theorem setRoute_supplies : (s.setRoute t x).supplies = s.supplies := rfl
@[simp] theorem setRoute_wires : (s.setRoute t x).wires = s.wires := rfl
@[simp] theorem setRoute_firings : (s.setRoute t x).firings = s.firings := rfl
@[simp] theorem setRoute_lines : (s.setRoute t x).lines = s.lines := rfl
@[simp] theorem setRoute_meshOut : (s.setRoute t x).meshOut = s.meshOut := rfl
@[simp] theorem setRoute_hostOut : (s.setRoute t x).hostOut = s.hostOut := rfl
@[simp] theorem setRoute_rdData : (s.setRoute t x).rdData = s.rdData := rfl
@[simp] theorem setRoute_rdPoison : (s.setRoute t x).rdPoison = s.rdPoison := rfl
@[simp] theorem setRoute_draws : (s.setRoute t x).draws = s.draws := rfl
@[simp] theorem setRoute_banks : (s.setRoute t x).banks = s.banks := rfl
@[simp] theorem setRoute_wear : (s.setRoute t x).wear = s.wear := rfl
@[simp] theorem setRoute_lastAdmit : (s.setRoute t x).lastAdmit = s.lastAdmit := rfl
@[simp] theorem setRoute_cals : (s.setRoute t x).cals = s.cals := rfl
@[simp] theorem setRoute_adcs : (s.setRoute t x).adcs = s.adcs := rfl
@[simp] theorem setRoute_tdcs : (s.setRoute t x).tdcs = s.tdcs := rfl
@[simp] theorem setRoute_resetEnd : (s.setRoute t x).resetEnd = s.resetEnd := rfl
@[simp] theorem setRoute_strips : (s.setRoute t x).strips = s.strips := rfl
@[simp] theorem setRoute_monitor : (s.setRoute t x).monitor = s.monitor := rfl
@[simp] theorem setRoute_threshers : (s.setRoute t x).threshers = s.threshers := rfl
@[simp] theorem setRoute_sheaves : (s.setRoute t x).sheaves = s.sheaves := rfl
theorem setRoute_routes : (s.setRoute t x).routes = storeSet Route.reset s.routes t x := rfl
@[simp] theorem setRoute_hmqs : (s.setRoute t x).hmqs = s.hmqs := rfl
@[simp] theorem setRoute_dmas : (s.setRoute t x).dmas = s.dmas := rfl
@[simp] theorem setRoute_hostConfig : (s.setRoute t x).hostConfig = s.hostConfig := rfl
@[simp] theorem setRoute_ports : (s.setRoute t x).ports = s.ports := rfl
@[simp] theorem setRoute_linkOut : (s.setRoute t x).linkOut = s.linkOut := rfl
@[simp] theorem setRoute_meshIn : (s.setRoute t x).meshIn = s.meshIn := rfl
@[simp] theorem setRoute_assembly : (s.setRoute t x).assembly = s.assembly := rfl
@[simp] theorem setRoute_chans : (s.setRoute t x).chans = s.chans := rfl
@[simp] theorem setRoute_svs : (s.setRoute t x).svs = s.svs := rfl
@[simp] theorem setRoute_collector : (s.setRoute t x).collector = s.collector := rfl
@[simp] theorem setRoute_nvm : (s.setRoute t x).nvm = s.nvm := rfl
@[simp] theorem setRoute_msp : (s.setRoute t x).msp = s.msp := rfl
@[simp] theorem setRoute_power : (s.setRoute t x).power = s.power := rfl
@[simp] theorem setRoute_resets : (s.setRoute t x).resets = s.resets := rfl
end law_setRoute

section law_setHmq
variable (s : State) (q : Nat) (x : Hmq)
@[simp] theorem setHmq_pending : (s.setHmq q x).pending = s.pending := rfl
@[simp] theorem setHmq_regs : (s.setHmq q x).regs = s.regs := rfl
@[simp] theorem setHmq_mem : (s.setHmq q x).mem = s.mem := rfl
@[simp] theorem setHmq_uncorr : (s.setHmq q x).uncorr = s.uncorr := rfl
@[simp] theorem setHmq_single : (s.setHmq q x).single = s.single := rfl
@[simp] theorem setHmq_ticks : (s.setHmq q x).ticks = s.ticks := rfl
@[simp] theorem setHmq_count : (s.setHmq q x).count = s.count := rfl
@[simp] theorem setHmq_sync : (s.setHmq q x).sync = s.sync := rfl
@[simp] theorem setHmq_slots : (s.setHmq q x).slots = s.slots := rfl
@[simp] theorem setHmq_holds : (s.setHmq q x).holds = s.holds := rfl
@[simp] theorem setHmq_latches : (s.setHmq q x).latches = s.latches := rfl
@[simp] theorem setHmq_rdvs : (s.setHmq q x).rdvs = s.rdvs := rfl
@[simp] theorem setHmq_epochs : (s.setHmq q x).epochs = s.epochs := rfl
@[simp] theorem setHmq_tillers : (s.setHmq q x).tillers = s.tillers := rfl
@[simp] theorem setHmq_compares : (s.setHmq q x).compares = s.compares := rfl
@[simp] theorem setHmq_fifos : (s.setHmq q x).fifos = s.fifos := rfl
@[simp] theorem setHmq_captures : (s.setHmq q x).captures = s.captures := rfl
@[simp] theorem setHmq_levels : (s.setHmq q x).levels = s.levels := rfl
@[simp] theorem setHmq_streams : (s.setHmq q x).streams = s.streams := rfl
@[simp] theorem setHmq_pins : (s.setHmq q x).pins = s.pins := rfl
@[simp] theorem setHmq_supplies : (s.setHmq q x).supplies = s.supplies := rfl
@[simp] theorem setHmq_wires : (s.setHmq q x).wires = s.wires := rfl
@[simp] theorem setHmq_firings : (s.setHmq q x).firings = s.firings := rfl
@[simp] theorem setHmq_lines : (s.setHmq q x).lines = s.lines := rfl
@[simp] theorem setHmq_meshOut : (s.setHmq q x).meshOut = s.meshOut := rfl
@[simp] theorem setHmq_hostOut : (s.setHmq q x).hostOut = s.hostOut := rfl
@[simp] theorem setHmq_rdData : (s.setHmq q x).rdData = s.rdData := rfl
@[simp] theorem setHmq_rdPoison : (s.setHmq q x).rdPoison = s.rdPoison := rfl
@[simp] theorem setHmq_draws : (s.setHmq q x).draws = s.draws := rfl
@[simp] theorem setHmq_banks : (s.setHmq q x).banks = s.banks := rfl
@[simp] theorem setHmq_wear : (s.setHmq q x).wear = s.wear := rfl
@[simp] theorem setHmq_lastAdmit : (s.setHmq q x).lastAdmit = s.lastAdmit := rfl
@[simp] theorem setHmq_cals : (s.setHmq q x).cals = s.cals := rfl
@[simp] theorem setHmq_adcs : (s.setHmq q x).adcs = s.adcs := rfl
@[simp] theorem setHmq_tdcs : (s.setHmq q x).tdcs = s.tdcs := rfl
@[simp] theorem setHmq_resetEnd : (s.setHmq q x).resetEnd = s.resetEnd := rfl
@[simp] theorem setHmq_strips : (s.setHmq q x).strips = s.strips := rfl
@[simp] theorem setHmq_monitor : (s.setHmq q x).monitor = s.monitor := rfl
@[simp] theorem setHmq_threshers : (s.setHmq q x).threshers = s.threshers := rfl
@[simp] theorem setHmq_sheaves : (s.setHmq q x).sheaves = s.sheaves := rfl
@[simp] theorem setHmq_routes : (s.setHmq q x).routes = s.routes := rfl
theorem setHmq_hmqs : (s.setHmq q x).hmqs = storeSet (fun _ => Hmq.reset) s.hmqs q x := rfl
@[simp] theorem setHmq_dmas : (s.setHmq q x).dmas = s.dmas := rfl
@[simp] theorem setHmq_hostConfig : (s.setHmq q x).hostConfig = s.hostConfig := rfl
@[simp] theorem setHmq_ports : (s.setHmq q x).ports = s.ports := rfl
@[simp] theorem setHmq_linkOut : (s.setHmq q x).linkOut = s.linkOut := rfl
@[simp] theorem setHmq_meshIn : (s.setHmq q x).meshIn = s.meshIn := rfl
@[simp] theorem setHmq_assembly : (s.setHmq q x).assembly = s.assembly := rfl
@[simp] theorem setHmq_chans : (s.setHmq q x).chans = s.chans := rfl
@[simp] theorem setHmq_svs : (s.setHmq q x).svs = s.svs := rfl
@[simp] theorem setHmq_collector : (s.setHmq q x).collector = s.collector := rfl
@[simp] theorem setHmq_nvm : (s.setHmq q x).nvm = s.nvm := rfl
@[simp] theorem setHmq_msp : (s.setHmq q x).msp = s.msp := rfl
@[simp] theorem setHmq_power : (s.setHmq q x).power = s.power := rfl
@[simp] theorem setHmq_resets : (s.setHmq q x).resets = s.resets := rfl
end law_setHmq

section law_setDma
variable (s : State) (c : Nat) (x : Dma)
@[simp] theorem setDma_pending : (s.setDma c x).pending = s.pending := rfl
@[simp] theorem setDma_regs : (s.setDma c x).regs = s.regs := rfl
@[simp] theorem setDma_mem : (s.setDma c x).mem = s.mem := rfl
@[simp] theorem setDma_uncorr : (s.setDma c x).uncorr = s.uncorr := rfl
@[simp] theorem setDma_single : (s.setDma c x).single = s.single := rfl
@[simp] theorem setDma_ticks : (s.setDma c x).ticks = s.ticks := rfl
@[simp] theorem setDma_count : (s.setDma c x).count = s.count := rfl
@[simp] theorem setDma_sync : (s.setDma c x).sync = s.sync := rfl
@[simp] theorem setDma_slots : (s.setDma c x).slots = s.slots := rfl
@[simp] theorem setDma_holds : (s.setDma c x).holds = s.holds := rfl
@[simp] theorem setDma_latches : (s.setDma c x).latches = s.latches := rfl
@[simp] theorem setDma_rdvs : (s.setDma c x).rdvs = s.rdvs := rfl
@[simp] theorem setDma_epochs : (s.setDma c x).epochs = s.epochs := rfl
@[simp] theorem setDma_tillers : (s.setDma c x).tillers = s.tillers := rfl
@[simp] theorem setDma_compares : (s.setDma c x).compares = s.compares := rfl
@[simp] theorem setDma_fifos : (s.setDma c x).fifos = s.fifos := rfl
@[simp] theorem setDma_captures : (s.setDma c x).captures = s.captures := rfl
@[simp] theorem setDma_levels : (s.setDma c x).levels = s.levels := rfl
@[simp] theorem setDma_streams : (s.setDma c x).streams = s.streams := rfl
@[simp] theorem setDma_pins : (s.setDma c x).pins = s.pins := rfl
@[simp] theorem setDma_supplies : (s.setDma c x).supplies = s.supplies := rfl
@[simp] theorem setDma_wires : (s.setDma c x).wires = s.wires := rfl
@[simp] theorem setDma_firings : (s.setDma c x).firings = s.firings := rfl
@[simp] theorem setDma_lines : (s.setDma c x).lines = s.lines := rfl
@[simp] theorem setDma_meshOut : (s.setDma c x).meshOut = s.meshOut := rfl
@[simp] theorem setDma_hostOut : (s.setDma c x).hostOut = s.hostOut := rfl
@[simp] theorem setDma_rdData : (s.setDma c x).rdData = s.rdData := rfl
@[simp] theorem setDma_rdPoison : (s.setDma c x).rdPoison = s.rdPoison := rfl
@[simp] theorem setDma_draws : (s.setDma c x).draws = s.draws := rfl
@[simp] theorem setDma_banks : (s.setDma c x).banks = s.banks := rfl
@[simp] theorem setDma_wear : (s.setDma c x).wear = s.wear := rfl
@[simp] theorem setDma_lastAdmit : (s.setDma c x).lastAdmit = s.lastAdmit := rfl
@[simp] theorem setDma_cals : (s.setDma c x).cals = s.cals := rfl
@[simp] theorem setDma_adcs : (s.setDma c x).adcs = s.adcs := rfl
@[simp] theorem setDma_tdcs : (s.setDma c x).tdcs = s.tdcs := rfl
@[simp] theorem setDma_resetEnd : (s.setDma c x).resetEnd = s.resetEnd := rfl
@[simp] theorem setDma_strips : (s.setDma c x).strips = s.strips := rfl
@[simp] theorem setDma_monitor : (s.setDma c x).monitor = s.monitor := rfl
@[simp] theorem setDma_threshers : (s.setDma c x).threshers = s.threshers := rfl
@[simp] theorem setDma_sheaves : (s.setDma c x).sheaves = s.sheaves := rfl
@[simp] theorem setDma_routes : (s.setDma c x).routes = s.routes := rfl
@[simp] theorem setDma_hmqs : (s.setDma c x).hmqs = s.hmqs := rfl
theorem setDma_dmas : (s.setDma c x).dmas = storeSet (fun _ => Dma.reset) s.dmas c x := rfl
@[simp] theorem setDma_hostConfig : (s.setDma c x).hostConfig = s.hostConfig := rfl
@[simp] theorem setDma_ports : (s.setDma c x).ports = s.ports := rfl
@[simp] theorem setDma_linkOut : (s.setDma c x).linkOut = s.linkOut := rfl
@[simp] theorem setDma_meshIn : (s.setDma c x).meshIn = s.meshIn := rfl
@[simp] theorem setDma_assembly : (s.setDma c x).assembly = s.assembly := rfl
@[simp] theorem setDma_chans : (s.setDma c x).chans = s.chans := rfl
@[simp] theorem setDma_svs : (s.setDma c x).svs = s.svs := rfl
@[simp] theorem setDma_collector : (s.setDma c x).collector = s.collector := rfl
@[simp] theorem setDma_nvm : (s.setDma c x).nvm = s.nvm := rfl
@[simp] theorem setDma_msp : (s.setDma c x).msp = s.msp := rfl
@[simp] theorem setDma_power : (s.setDma c x).power = s.power := rfl
@[simp] theorem setDma_resets : (s.setDma c x).resets = s.resets := rfl
end law_setDma

section law_setPort
variable (s : State) (p : Nat) (x : Port)
@[simp] theorem setPort_pending : (s.setPort p x).pending = s.pending := rfl
@[simp] theorem setPort_regs : (s.setPort p x).regs = s.regs := rfl
@[simp] theorem setPort_mem : (s.setPort p x).mem = s.mem := rfl
@[simp] theorem setPort_uncorr : (s.setPort p x).uncorr = s.uncorr := rfl
@[simp] theorem setPort_single : (s.setPort p x).single = s.single := rfl
@[simp] theorem setPort_ticks : (s.setPort p x).ticks = s.ticks := rfl
@[simp] theorem setPort_count : (s.setPort p x).count = s.count := rfl
@[simp] theorem setPort_sync : (s.setPort p x).sync = s.sync := rfl
@[simp] theorem setPort_slots : (s.setPort p x).slots = s.slots := rfl
@[simp] theorem setPort_holds : (s.setPort p x).holds = s.holds := rfl
@[simp] theorem setPort_latches : (s.setPort p x).latches = s.latches := rfl
@[simp] theorem setPort_rdvs : (s.setPort p x).rdvs = s.rdvs := rfl
@[simp] theorem setPort_epochs : (s.setPort p x).epochs = s.epochs := rfl
@[simp] theorem setPort_tillers : (s.setPort p x).tillers = s.tillers := rfl
@[simp] theorem setPort_compares : (s.setPort p x).compares = s.compares := rfl
@[simp] theorem setPort_fifos : (s.setPort p x).fifos = s.fifos := rfl
@[simp] theorem setPort_captures : (s.setPort p x).captures = s.captures := rfl
@[simp] theorem setPort_levels : (s.setPort p x).levels = s.levels := rfl
@[simp] theorem setPort_streams : (s.setPort p x).streams = s.streams := rfl
@[simp] theorem setPort_pins : (s.setPort p x).pins = s.pins := rfl
@[simp] theorem setPort_supplies : (s.setPort p x).supplies = s.supplies := rfl
@[simp] theorem setPort_wires : (s.setPort p x).wires = s.wires := rfl
@[simp] theorem setPort_firings : (s.setPort p x).firings = s.firings := rfl
@[simp] theorem setPort_lines : (s.setPort p x).lines = s.lines := rfl
@[simp] theorem setPort_meshOut : (s.setPort p x).meshOut = s.meshOut := rfl
@[simp] theorem setPort_hostOut : (s.setPort p x).hostOut = s.hostOut := rfl
@[simp] theorem setPort_rdData : (s.setPort p x).rdData = s.rdData := rfl
@[simp] theorem setPort_rdPoison : (s.setPort p x).rdPoison = s.rdPoison := rfl
@[simp] theorem setPort_draws : (s.setPort p x).draws = s.draws := rfl
@[simp] theorem setPort_banks : (s.setPort p x).banks = s.banks := rfl
@[simp] theorem setPort_wear : (s.setPort p x).wear = s.wear := rfl
@[simp] theorem setPort_lastAdmit : (s.setPort p x).lastAdmit = s.lastAdmit := rfl
@[simp] theorem setPort_cals : (s.setPort p x).cals = s.cals := rfl
@[simp] theorem setPort_adcs : (s.setPort p x).adcs = s.adcs := rfl
@[simp] theorem setPort_tdcs : (s.setPort p x).tdcs = s.tdcs := rfl
@[simp] theorem setPort_resetEnd : (s.setPort p x).resetEnd = s.resetEnd := rfl
@[simp] theorem setPort_strips : (s.setPort p x).strips = s.strips := rfl
@[simp] theorem setPort_monitor : (s.setPort p x).monitor = s.monitor := rfl
@[simp] theorem setPort_threshers : (s.setPort p x).threshers = s.threshers := rfl
@[simp] theorem setPort_sheaves : (s.setPort p x).sheaves = s.sheaves := rfl
@[simp] theorem setPort_routes : (s.setPort p x).routes = s.routes := rfl
@[simp] theorem setPort_hmqs : (s.setPort p x).hmqs = s.hmqs := rfl
@[simp] theorem setPort_dmas : (s.setPort p x).dmas = s.dmas := rfl
@[simp] theorem setPort_hostConfig : (s.setPort p x).hostConfig = s.hostConfig := rfl
theorem setPort_ports : (s.setPort p x).ports = storeSet (fun _ => Port.reset) s.ports p x := rfl
@[simp] theorem setPort_linkOut : (s.setPort p x).linkOut = s.linkOut := rfl
@[simp] theorem setPort_meshIn : (s.setPort p x).meshIn = s.meshIn := rfl
@[simp] theorem setPort_assembly : (s.setPort p x).assembly = s.assembly := rfl
@[simp] theorem setPort_chans : (s.setPort p x).chans = s.chans := rfl
@[simp] theorem setPort_svs : (s.setPort p x).svs = s.svs := rfl
@[simp] theorem setPort_collector : (s.setPort p x).collector = s.collector := rfl
@[simp] theorem setPort_nvm : (s.setPort p x).nvm = s.nvm := rfl
@[simp] theorem setPort_msp : (s.setPort p x).msp = s.msp := rfl
@[simp] theorem setPort_power : (s.setPort p x).power = s.power := rfl
@[simp] theorem setPort_resets : (s.setPort p x).resets = s.resets := rfl
end law_setPort

section law_setChan
variable (s : State) (e : Nat) (x : Chan)
@[simp] theorem setChan_pending : (s.setChan e x).pending = s.pending := rfl
@[simp] theorem setChan_regs : (s.setChan e x).regs = s.regs := rfl
@[simp] theorem setChan_mem : (s.setChan e x).mem = s.mem := rfl
@[simp] theorem setChan_uncorr : (s.setChan e x).uncorr = s.uncorr := rfl
@[simp] theorem setChan_single : (s.setChan e x).single = s.single := rfl
@[simp] theorem setChan_ticks : (s.setChan e x).ticks = s.ticks := rfl
@[simp] theorem setChan_count : (s.setChan e x).count = s.count := rfl
@[simp] theorem setChan_sync : (s.setChan e x).sync = s.sync := rfl
@[simp] theorem setChan_slots : (s.setChan e x).slots = s.slots := rfl
@[simp] theorem setChan_holds : (s.setChan e x).holds = s.holds := rfl
@[simp] theorem setChan_latches : (s.setChan e x).latches = s.latches := rfl
@[simp] theorem setChan_rdvs : (s.setChan e x).rdvs = s.rdvs := rfl
@[simp] theorem setChan_epochs : (s.setChan e x).epochs = s.epochs := rfl
@[simp] theorem setChan_tillers : (s.setChan e x).tillers = s.tillers := rfl
@[simp] theorem setChan_compares : (s.setChan e x).compares = s.compares := rfl
@[simp] theorem setChan_fifos : (s.setChan e x).fifos = s.fifos := rfl
@[simp] theorem setChan_captures : (s.setChan e x).captures = s.captures := rfl
@[simp] theorem setChan_levels : (s.setChan e x).levels = s.levels := rfl
@[simp] theorem setChan_streams : (s.setChan e x).streams = s.streams := rfl
@[simp] theorem setChan_pins : (s.setChan e x).pins = s.pins := rfl
@[simp] theorem setChan_supplies : (s.setChan e x).supplies = s.supplies := rfl
@[simp] theorem setChan_wires : (s.setChan e x).wires = s.wires := rfl
@[simp] theorem setChan_firings : (s.setChan e x).firings = s.firings := rfl
@[simp] theorem setChan_lines : (s.setChan e x).lines = s.lines := rfl
@[simp] theorem setChan_meshOut : (s.setChan e x).meshOut = s.meshOut := rfl
@[simp] theorem setChan_hostOut : (s.setChan e x).hostOut = s.hostOut := rfl
@[simp] theorem setChan_rdData : (s.setChan e x).rdData = s.rdData := rfl
@[simp] theorem setChan_rdPoison : (s.setChan e x).rdPoison = s.rdPoison := rfl
@[simp] theorem setChan_draws : (s.setChan e x).draws = s.draws := rfl
@[simp] theorem setChan_banks : (s.setChan e x).banks = s.banks := rfl
@[simp] theorem setChan_wear : (s.setChan e x).wear = s.wear := rfl
@[simp] theorem setChan_lastAdmit : (s.setChan e x).lastAdmit = s.lastAdmit := rfl
@[simp] theorem setChan_cals : (s.setChan e x).cals = s.cals := rfl
@[simp] theorem setChan_adcs : (s.setChan e x).adcs = s.adcs := rfl
@[simp] theorem setChan_tdcs : (s.setChan e x).tdcs = s.tdcs := rfl
@[simp] theorem setChan_resetEnd : (s.setChan e x).resetEnd = s.resetEnd := rfl
@[simp] theorem setChan_strips : (s.setChan e x).strips = s.strips := rfl
@[simp] theorem setChan_monitor : (s.setChan e x).monitor = s.monitor := rfl
@[simp] theorem setChan_threshers : (s.setChan e x).threshers = s.threshers := rfl
@[simp] theorem setChan_sheaves : (s.setChan e x).sheaves = s.sheaves := rfl
@[simp] theorem setChan_routes : (s.setChan e x).routes = s.routes := rfl
@[simp] theorem setChan_hmqs : (s.setChan e x).hmqs = s.hmqs := rfl
@[simp] theorem setChan_dmas : (s.setChan e x).dmas = s.dmas := rfl
@[simp] theorem setChan_hostConfig : (s.setChan e x).hostConfig = s.hostConfig := rfl
@[simp] theorem setChan_ports : (s.setChan e x).ports = s.ports := rfl
@[simp] theorem setChan_linkOut : (s.setChan e x).linkOut = s.linkOut := rfl
@[simp] theorem setChan_meshIn : (s.setChan e x).meshIn = s.meshIn := rfl
@[simp] theorem setChan_assembly : (s.setChan e x).assembly = s.assembly := rfl
theorem setChan_chans : (s.setChan e x).chans = storeSet (fun _ => Chan.reset) s.chans e x := rfl
@[simp] theorem setChan_svs : (s.setChan e x).svs = s.svs := rfl
@[simp] theorem setChan_collector : (s.setChan e x).collector = s.collector := rfl
@[simp] theorem setChan_nvm : (s.setChan e x).nvm = s.nvm := rfl
@[simp] theorem setChan_msp : (s.setChan e x).msp = s.msp := rfl
@[simp] theorem setChan_power : (s.setChan e x).power = s.power := rfl
@[simp] theorem setChan_resets : (s.setChan e x).resets = s.resets := rfl
end law_setChan

section law_setSv
variable (s : State) (d : Nat) (x : Supervisor)
@[simp] theorem setSv_pending : (s.setSv d x).pending = s.pending := rfl
@[simp] theorem setSv_regs : (s.setSv d x).regs = s.regs := rfl
@[simp] theorem setSv_mem : (s.setSv d x).mem = s.mem := rfl
@[simp] theorem setSv_uncorr : (s.setSv d x).uncorr = s.uncorr := rfl
@[simp] theorem setSv_single : (s.setSv d x).single = s.single := rfl
@[simp] theorem setSv_ticks : (s.setSv d x).ticks = s.ticks := rfl
@[simp] theorem setSv_count : (s.setSv d x).count = s.count := rfl
@[simp] theorem setSv_sync : (s.setSv d x).sync = s.sync := rfl
@[simp] theorem setSv_slots : (s.setSv d x).slots = s.slots := rfl
@[simp] theorem setSv_holds : (s.setSv d x).holds = s.holds := rfl
@[simp] theorem setSv_latches : (s.setSv d x).latches = s.latches := rfl
@[simp] theorem setSv_rdvs : (s.setSv d x).rdvs = s.rdvs := rfl
@[simp] theorem setSv_epochs : (s.setSv d x).epochs = s.epochs := rfl
@[simp] theorem setSv_tillers : (s.setSv d x).tillers = s.tillers := rfl
@[simp] theorem setSv_compares : (s.setSv d x).compares = s.compares := rfl
@[simp] theorem setSv_fifos : (s.setSv d x).fifos = s.fifos := rfl
@[simp] theorem setSv_captures : (s.setSv d x).captures = s.captures := rfl
@[simp] theorem setSv_levels : (s.setSv d x).levels = s.levels := rfl
@[simp] theorem setSv_streams : (s.setSv d x).streams = s.streams := rfl
@[simp] theorem setSv_pins : (s.setSv d x).pins = s.pins := rfl
@[simp] theorem setSv_supplies : (s.setSv d x).supplies = s.supplies := rfl
@[simp] theorem setSv_wires : (s.setSv d x).wires = s.wires := rfl
@[simp] theorem setSv_firings : (s.setSv d x).firings = s.firings := rfl
@[simp] theorem setSv_lines : (s.setSv d x).lines = s.lines := rfl
@[simp] theorem setSv_meshOut : (s.setSv d x).meshOut = s.meshOut := rfl
@[simp] theorem setSv_hostOut : (s.setSv d x).hostOut = s.hostOut := rfl
@[simp] theorem setSv_rdData : (s.setSv d x).rdData = s.rdData := rfl
@[simp] theorem setSv_rdPoison : (s.setSv d x).rdPoison = s.rdPoison := rfl
@[simp] theorem setSv_draws : (s.setSv d x).draws = s.draws := rfl
@[simp] theorem setSv_banks : (s.setSv d x).banks = s.banks := rfl
@[simp] theorem setSv_wear : (s.setSv d x).wear = s.wear := rfl
@[simp] theorem setSv_lastAdmit : (s.setSv d x).lastAdmit = s.lastAdmit := rfl
@[simp] theorem setSv_cals : (s.setSv d x).cals = s.cals := rfl
@[simp] theorem setSv_adcs : (s.setSv d x).adcs = s.adcs := rfl
@[simp] theorem setSv_tdcs : (s.setSv d x).tdcs = s.tdcs := rfl
@[simp] theorem setSv_resetEnd : (s.setSv d x).resetEnd = s.resetEnd := rfl
@[simp] theorem setSv_strips : (s.setSv d x).strips = s.strips := rfl
@[simp] theorem setSv_monitor : (s.setSv d x).monitor = s.monitor := rfl
@[simp] theorem setSv_threshers : (s.setSv d x).threshers = s.threshers := rfl
@[simp] theorem setSv_sheaves : (s.setSv d x).sheaves = s.sheaves := rfl
@[simp] theorem setSv_routes : (s.setSv d x).routes = s.routes := rfl
@[simp] theorem setSv_hmqs : (s.setSv d x).hmqs = s.hmqs := rfl
@[simp] theorem setSv_dmas : (s.setSv d x).dmas = s.dmas := rfl
@[simp] theorem setSv_hostConfig : (s.setSv d x).hostConfig = s.hostConfig := rfl
@[simp] theorem setSv_ports : (s.setSv d x).ports = s.ports := rfl
@[simp] theorem setSv_linkOut : (s.setSv d x).linkOut = s.linkOut := rfl
@[simp] theorem setSv_meshIn : (s.setSv d x).meshIn = s.meshIn := rfl
@[simp] theorem setSv_assembly : (s.setSv d x).assembly = s.assembly := rfl
@[simp] theorem setSv_chans : (s.setSv d x).chans = s.chans := rfl
theorem setSv_svs : (s.setSv d x).svs = storeSet (fun _ => Supervisor.reset) s.svs d x := rfl
@[simp] theorem setSv_collector : (s.setSv d x).collector = s.collector := rfl
@[simp] theorem setSv_nvm : (s.setSv d x).nvm = s.nvm := rfl
@[simp] theorem setSv_msp : (s.setSv d x).msp = s.msp := rfl
@[simp] theorem setSv_power : (s.setSv d x).power = s.power := rfl
@[simp] theorem setSv_resets : (s.setSv d x).resets = s.resets := rfl
end law_setSv

section law_setByte
variable (s : State) (a : Nat) (v : Byte)
@[simp] theorem setByte_pending : (s.setByte a v).pending = s.pending := rfl
@[simp] theorem setByte_regs : (s.setByte a v).regs = s.regs := rfl
theorem setByte_mem : (s.setByte a v).mem = storeSet (fun _ => 0) s.mem a v := rfl
@[simp] theorem setByte_uncorr : (s.setByte a v).uncorr = s.uncorr := rfl
@[simp] theorem setByte_single : (s.setByte a v).single = s.single := rfl
@[simp] theorem setByte_ticks : (s.setByte a v).ticks = s.ticks := rfl
@[simp] theorem setByte_count : (s.setByte a v).count = s.count := rfl
@[simp] theorem setByte_sync : (s.setByte a v).sync = s.sync := rfl
@[simp] theorem setByte_slots : (s.setByte a v).slots = s.slots := rfl
@[simp] theorem setByte_holds : (s.setByte a v).holds = s.holds := rfl
@[simp] theorem setByte_latches : (s.setByte a v).latches = s.latches := rfl
@[simp] theorem setByte_rdvs : (s.setByte a v).rdvs = s.rdvs := rfl
@[simp] theorem setByte_epochs : (s.setByte a v).epochs = s.epochs := rfl
@[simp] theorem setByte_tillers : (s.setByte a v).tillers = s.tillers := rfl
@[simp] theorem setByte_compares : (s.setByte a v).compares = s.compares := rfl
@[simp] theorem setByte_fifos : (s.setByte a v).fifos = s.fifos := rfl
@[simp] theorem setByte_captures : (s.setByte a v).captures = s.captures := rfl
@[simp] theorem setByte_levels : (s.setByte a v).levels = s.levels := rfl
@[simp] theorem setByte_streams : (s.setByte a v).streams = s.streams := rfl
@[simp] theorem setByte_pins : (s.setByte a v).pins = s.pins := rfl
@[simp] theorem setByte_supplies : (s.setByte a v).supplies = s.supplies := rfl
@[simp] theorem setByte_wires : (s.setByte a v).wires = s.wires := rfl
@[simp] theorem setByte_firings : (s.setByte a v).firings = s.firings := rfl
@[simp] theorem setByte_lines : (s.setByte a v).lines = s.lines := rfl
@[simp] theorem setByte_meshOut : (s.setByte a v).meshOut = s.meshOut := rfl
@[simp] theorem setByte_hostOut : (s.setByte a v).hostOut = s.hostOut := rfl
@[simp] theorem setByte_rdData : (s.setByte a v).rdData = s.rdData := rfl
@[simp] theorem setByte_rdPoison : (s.setByte a v).rdPoison = s.rdPoison := rfl
@[simp] theorem setByte_draws : (s.setByte a v).draws = s.draws := rfl
@[simp] theorem setByte_banks : (s.setByte a v).banks = s.banks := rfl
@[simp] theorem setByte_wear : (s.setByte a v).wear = s.wear := rfl
@[simp] theorem setByte_lastAdmit : (s.setByte a v).lastAdmit = s.lastAdmit := rfl
@[simp] theorem setByte_cals : (s.setByte a v).cals = s.cals := rfl
@[simp] theorem setByte_adcs : (s.setByte a v).adcs = s.adcs := rfl
@[simp] theorem setByte_tdcs : (s.setByte a v).tdcs = s.tdcs := rfl
@[simp] theorem setByte_resetEnd : (s.setByte a v).resetEnd = s.resetEnd := rfl
@[simp] theorem setByte_strips : (s.setByte a v).strips = s.strips := rfl
@[simp] theorem setByte_monitor : (s.setByte a v).monitor = s.monitor := rfl
@[simp] theorem setByte_threshers : (s.setByte a v).threshers = s.threshers := rfl
@[simp] theorem setByte_sheaves : (s.setByte a v).sheaves = s.sheaves := rfl
@[simp] theorem setByte_routes : (s.setByte a v).routes = s.routes := rfl
@[simp] theorem setByte_hmqs : (s.setByte a v).hmqs = s.hmqs := rfl
@[simp] theorem setByte_dmas : (s.setByte a v).dmas = s.dmas := rfl
@[simp] theorem setByte_hostConfig : (s.setByte a v).hostConfig = s.hostConfig := rfl
@[simp] theorem setByte_ports : (s.setByte a v).ports = s.ports := rfl
@[simp] theorem setByte_linkOut : (s.setByte a v).linkOut = s.linkOut := rfl
@[simp] theorem setByte_meshIn : (s.setByte a v).meshIn = s.meshIn := rfl
@[simp] theorem setByte_assembly : (s.setByte a v).assembly = s.assembly := rfl
@[simp] theorem setByte_chans : (s.setByte a v).chans = s.chans := rfl
@[simp] theorem setByte_svs : (s.setByte a v).svs = s.svs := rfl
@[simp] theorem setByte_collector : (s.setByte a v).collector = s.collector := rfl
@[simp] theorem setByte_nvm : (s.setByte a v).nvm = s.nvm := rfl
@[simp] theorem setByte_msp : (s.setByte a v).msp = s.msp := rfl
@[simp] theorem setByte_power : (s.setByte a v).power = s.power := rfl
@[simp] theorem setByte_resets : (s.setByte a v).resets = s.resets := rfl
end law_setByte

section law_dropLine
variable (s : State) (b : Nat)
@[simp] theorem dropLine_pending : (s.dropLine b).pending = s.pending := rfl
@[simp] theorem dropLine_regs : (s.dropLine b).regs = s.regs := rfl
@[simp] theorem dropLine_mem : (s.dropLine b).mem = s.mem := rfl
@[simp] theorem dropLine_uncorr : (s.dropLine b).uncorr = s.uncorr := rfl
@[simp] theorem dropLine_single : (s.dropLine b).single = s.single := rfl
@[simp] theorem dropLine_ticks : (s.dropLine b).ticks = s.ticks := rfl
@[simp] theorem dropLine_count : (s.dropLine b).count = s.count := rfl
@[simp] theorem dropLine_sync : (s.dropLine b).sync = s.sync := rfl
@[simp] theorem dropLine_slots : (s.dropLine b).slots = s.slots := rfl
@[simp] theorem dropLine_holds : (s.dropLine b).holds = s.holds := rfl
@[simp] theorem dropLine_latches : (s.dropLine b).latches = s.latches := rfl
@[simp] theorem dropLine_rdvs : (s.dropLine b).rdvs = s.rdvs := rfl
@[simp] theorem dropLine_epochs : (s.dropLine b).epochs = s.epochs := rfl
@[simp] theorem dropLine_tillers : (s.dropLine b).tillers = s.tillers := rfl
@[simp] theorem dropLine_compares : (s.dropLine b).compares = s.compares := rfl
@[simp] theorem dropLine_fifos : (s.dropLine b).fifos = s.fifos := rfl
@[simp] theorem dropLine_captures : (s.dropLine b).captures = s.captures := rfl
@[simp] theorem dropLine_levels : (s.dropLine b).levels = s.levels := rfl
@[simp] theorem dropLine_streams : (s.dropLine b).streams = s.streams := rfl
@[simp] theorem dropLine_pins : (s.dropLine b).pins = s.pins := rfl
@[simp] theorem dropLine_supplies : (s.dropLine b).supplies = s.supplies := rfl
@[simp] theorem dropLine_wires : (s.dropLine b).wires = s.wires := rfl
@[simp] theorem dropLine_firings : (s.dropLine b).firings = s.firings := rfl
theorem dropLine_lines : (s.dropLine b).lines = s.lines.filter (· != b) := rfl
@[simp] theorem dropLine_meshOut : (s.dropLine b).meshOut = s.meshOut := rfl
@[simp] theorem dropLine_hostOut : (s.dropLine b).hostOut = s.hostOut := rfl
@[simp] theorem dropLine_rdData : (s.dropLine b).rdData = s.rdData := rfl
@[simp] theorem dropLine_rdPoison : (s.dropLine b).rdPoison = s.rdPoison := rfl
@[simp] theorem dropLine_draws : (s.dropLine b).draws = s.draws := rfl
@[simp] theorem dropLine_banks : (s.dropLine b).banks = s.banks := rfl
@[simp] theorem dropLine_wear : (s.dropLine b).wear = s.wear := rfl
@[simp] theorem dropLine_lastAdmit : (s.dropLine b).lastAdmit = s.lastAdmit := rfl
@[simp] theorem dropLine_cals : (s.dropLine b).cals = s.cals := rfl
@[simp] theorem dropLine_adcs : (s.dropLine b).adcs = s.adcs := rfl
@[simp] theorem dropLine_tdcs : (s.dropLine b).tdcs = s.tdcs := rfl
@[simp] theorem dropLine_resetEnd : (s.dropLine b).resetEnd = s.resetEnd := rfl
@[simp] theorem dropLine_strips : (s.dropLine b).strips = s.strips := rfl
@[simp] theorem dropLine_monitor : (s.dropLine b).monitor = s.monitor := rfl
@[simp] theorem dropLine_threshers : (s.dropLine b).threshers = s.threshers := rfl
@[simp] theorem dropLine_sheaves : (s.dropLine b).sheaves = s.sheaves := rfl
@[simp] theorem dropLine_routes : (s.dropLine b).routes = s.routes := rfl
@[simp] theorem dropLine_hmqs : (s.dropLine b).hmqs = s.hmqs := rfl
@[simp] theorem dropLine_dmas : (s.dropLine b).dmas = s.dmas := rfl
@[simp] theorem dropLine_hostConfig : (s.dropLine b).hostConfig = s.hostConfig := rfl
@[simp] theorem dropLine_ports : (s.dropLine b).ports = s.ports := rfl
@[simp] theorem dropLine_linkOut : (s.dropLine b).linkOut = s.linkOut := rfl
@[simp] theorem dropLine_meshIn : (s.dropLine b).meshIn = s.meshIn := rfl
@[simp] theorem dropLine_assembly : (s.dropLine b).assembly = s.assembly := rfl
@[simp] theorem dropLine_chans : (s.dropLine b).chans = s.chans := rfl
@[simp] theorem dropLine_svs : (s.dropLine b).svs = s.svs := rfl
@[simp] theorem dropLine_collector : (s.dropLine b).collector = s.collector := rfl
@[simp] theorem dropLine_nvm : (s.dropLine b).nvm = s.nvm := rfl
@[simp] theorem dropLine_msp : (s.dropLine b).msp = s.msp := rfl
@[simp] theorem dropLine_power : (s.dropLine b).power = s.power := rfl
@[simp] theorem dropLine_resets : (s.dropLine b).resets = s.resets := rfl
end law_dropLine

section law_localSource
variable (s : State) (t code : Nat)
@[simp] theorem localSource_pending : (s.localSource t code).pending = s.pending := rfl
@[simp] theorem localSource_regs : (s.localSource t code).regs = s.regs := rfl
@[simp] theorem localSource_mem : (s.localSource t code).mem = s.mem := rfl
@[simp] theorem localSource_uncorr : (s.localSource t code).uncorr = s.uncorr := rfl
@[simp] theorem localSource_single : (s.localSource t code).single = s.single := rfl
@[simp] theorem localSource_ticks : (s.localSource t code).ticks = s.ticks := rfl
@[simp] theorem localSource_count : (s.localSource t code).count = s.count := rfl
@[simp] theorem localSource_sync : (s.localSource t code).sync = s.sync := rfl
@[simp] theorem localSource_slots : (s.localSource t code).slots = s.slots := rfl
@[simp] theorem localSource_holds : (s.localSource t code).holds = s.holds := rfl
@[simp] theorem localSource_latches : (s.localSource t code).latches = s.latches := rfl
@[simp] theorem localSource_rdvs : (s.localSource t code).rdvs = s.rdvs := rfl
@[simp] theorem localSource_epochs : (s.localSource t code).epochs = s.epochs := rfl
@[simp] theorem localSource_tillers : (s.localSource t code).tillers = s.tillers := rfl
@[simp] theorem localSource_compares : (s.localSource t code).compares = s.compares := rfl
@[simp] theorem localSource_fifos : (s.localSource t code).fifos = s.fifos := rfl
@[simp] theorem localSource_captures : (s.localSource t code).captures = s.captures := rfl
@[simp] theorem localSource_levels : (s.localSource t code).levels = s.levels := rfl
@[simp] theorem localSource_streams : (s.localSource t code).streams = s.streams := rfl
@[simp] theorem localSource_pins : (s.localSource t code).pins = s.pins := rfl
@[simp] theorem localSource_supplies : (s.localSource t code).supplies = s.supplies := rfl
theorem localSource_wires : (s.localSource t code).wires = s.wires ++ (((List.range 6).filter (fun j => s.get (TL_EVIN_SEL_SRC t j) == code)).map (fun j => (t, j))) := rfl
@[simp] theorem localSource_firings : (s.localSource t code).firings = s.firings := rfl
@[simp] theorem localSource_lines : (s.localSource t code).lines = s.lines := rfl
@[simp] theorem localSource_meshOut : (s.localSource t code).meshOut = s.meshOut := rfl
@[simp] theorem localSource_hostOut : (s.localSource t code).hostOut = s.hostOut := rfl
@[simp] theorem localSource_rdData : (s.localSource t code).rdData = s.rdData := rfl
@[simp] theorem localSource_rdPoison : (s.localSource t code).rdPoison = s.rdPoison := rfl
@[simp] theorem localSource_draws : (s.localSource t code).draws = s.draws := rfl
@[simp] theorem localSource_banks : (s.localSource t code).banks = s.banks := rfl
@[simp] theorem localSource_wear : (s.localSource t code).wear = s.wear := rfl
@[simp] theorem localSource_lastAdmit : (s.localSource t code).lastAdmit = s.lastAdmit := rfl
@[simp] theorem localSource_cals : (s.localSource t code).cals = s.cals := rfl
@[simp] theorem localSource_adcs : (s.localSource t code).adcs = s.adcs := rfl
@[simp] theorem localSource_tdcs : (s.localSource t code).tdcs = s.tdcs := rfl
@[simp] theorem localSource_resetEnd : (s.localSource t code).resetEnd = s.resetEnd := rfl
@[simp] theorem localSource_strips : (s.localSource t code).strips = s.strips := rfl
@[simp] theorem localSource_monitor : (s.localSource t code).monitor = s.monitor := rfl
@[simp] theorem localSource_threshers : (s.localSource t code).threshers = s.threshers := rfl
@[simp] theorem localSource_sheaves : (s.localSource t code).sheaves = s.sheaves := rfl
@[simp] theorem localSource_routes : (s.localSource t code).routes = s.routes := rfl
@[simp] theorem localSource_hmqs : (s.localSource t code).hmqs = s.hmqs := rfl
@[simp] theorem localSource_dmas : (s.localSource t code).dmas = s.dmas := rfl
@[simp] theorem localSource_hostConfig : (s.localSource t code).hostConfig = s.hostConfig := rfl
@[simp] theorem localSource_ports : (s.localSource t code).ports = s.ports := rfl
@[simp] theorem localSource_linkOut : (s.localSource t code).linkOut = s.linkOut := rfl
@[simp] theorem localSource_meshIn : (s.localSource t code).meshIn = s.meshIn := rfl
@[simp] theorem localSource_assembly : (s.localSource t code).assembly = s.assembly := rfl
@[simp] theorem localSource_chans : (s.localSource t code).chans = s.chans := rfl
@[simp] theorem localSource_svs : (s.localSource t code).svs = s.svs := rfl
@[simp] theorem localSource_collector : (s.localSource t code).collector = s.collector := rfl
@[simp] theorem localSource_nvm : (s.localSource t code).nvm = s.nvm := rfl
@[simp] theorem localSource_msp : (s.localSource t code).msp = s.msp := rfl
@[simp] theorem localSource_power : (s.localSource t code).power = s.power := rfl
@[simp] theorem localSource_resets : (s.localSource t code).resets = s.resets := rfl
end law_localSource

section law_fireChannel
variable (s : State) (k : Nat)
@[simp] theorem fireChannel_pending : (s.fireChannel k).pending = s.pending := rfl
@[simp] theorem fireChannel_regs : (s.fireChannel k).regs = s.regs := rfl
@[simp] theorem fireChannel_mem : (s.fireChannel k).mem = s.mem := rfl
@[simp] theorem fireChannel_uncorr : (s.fireChannel k).uncorr = s.uncorr := rfl
@[simp] theorem fireChannel_single : (s.fireChannel k).single = s.single := rfl
@[simp] theorem fireChannel_ticks : (s.fireChannel k).ticks = s.ticks := rfl
@[simp] theorem fireChannel_count : (s.fireChannel k).count = s.count := rfl
@[simp] theorem fireChannel_sync : (s.fireChannel k).sync = s.sync := rfl
@[simp] theorem fireChannel_slots : (s.fireChannel k).slots = s.slots := rfl
@[simp] theorem fireChannel_holds : (s.fireChannel k).holds = s.holds := rfl
@[simp] theorem fireChannel_latches : (s.fireChannel k).latches = s.latches := rfl
@[simp] theorem fireChannel_rdvs : (s.fireChannel k).rdvs = s.rdvs := rfl
@[simp] theorem fireChannel_epochs : (s.fireChannel k).epochs = s.epochs := rfl
@[simp] theorem fireChannel_tillers : (s.fireChannel k).tillers = s.tillers := rfl
@[simp] theorem fireChannel_compares : (s.fireChannel k).compares = s.compares := rfl
@[simp] theorem fireChannel_fifos : (s.fireChannel k).fifos = s.fifos := rfl
@[simp] theorem fireChannel_captures : (s.fireChannel k).captures = s.captures := rfl
@[simp] theorem fireChannel_levels : (s.fireChannel k).levels = s.levels := rfl
@[simp] theorem fireChannel_streams : (s.fireChannel k).streams = s.streams := rfl
@[simp] theorem fireChannel_pins : (s.fireChannel k).pins = s.pins := rfl
@[simp] theorem fireChannel_supplies : (s.fireChannel k).supplies = s.supplies := rfl
@[simp] theorem fireChannel_wires : (s.fireChannel k).wires = s.wires := rfl
theorem fireChannel_firings : (s.fireChannel k).firings = s.firings ++ [k] := rfl
@[simp] theorem fireChannel_lines : (s.fireChannel k).lines = s.lines := rfl
@[simp] theorem fireChannel_meshOut : (s.fireChannel k).meshOut = s.meshOut := rfl
@[simp] theorem fireChannel_hostOut : (s.fireChannel k).hostOut = s.hostOut := rfl
@[simp] theorem fireChannel_rdData : (s.fireChannel k).rdData = s.rdData := rfl
@[simp] theorem fireChannel_rdPoison : (s.fireChannel k).rdPoison = s.rdPoison := rfl
@[simp] theorem fireChannel_draws : (s.fireChannel k).draws = s.draws := rfl
@[simp] theorem fireChannel_banks : (s.fireChannel k).banks = s.banks := rfl
@[simp] theorem fireChannel_wear : (s.fireChannel k).wear = s.wear := rfl
@[simp] theorem fireChannel_lastAdmit : (s.fireChannel k).lastAdmit = s.lastAdmit := rfl
@[simp] theorem fireChannel_cals : (s.fireChannel k).cals = s.cals := rfl
@[simp] theorem fireChannel_adcs : (s.fireChannel k).adcs = s.adcs := rfl
@[simp] theorem fireChannel_tdcs : (s.fireChannel k).tdcs = s.tdcs := rfl
@[simp] theorem fireChannel_resetEnd : (s.fireChannel k).resetEnd = s.resetEnd := rfl
@[simp] theorem fireChannel_strips : (s.fireChannel k).strips = s.strips := rfl
@[simp] theorem fireChannel_monitor : (s.fireChannel k).monitor = s.monitor := rfl
@[simp] theorem fireChannel_threshers : (s.fireChannel k).threshers = s.threshers := rfl
@[simp] theorem fireChannel_sheaves : (s.fireChannel k).sheaves = s.sheaves := rfl
@[simp] theorem fireChannel_routes : (s.fireChannel k).routes = s.routes := rfl
@[simp] theorem fireChannel_hmqs : (s.fireChannel k).hmqs = s.hmqs := rfl
@[simp] theorem fireChannel_dmas : (s.fireChannel k).dmas = s.dmas := rfl
@[simp] theorem fireChannel_hostConfig : (s.fireChannel k).hostConfig = s.hostConfig := rfl
@[simp] theorem fireChannel_ports : (s.fireChannel k).ports = s.ports := rfl
@[simp] theorem fireChannel_linkOut : (s.fireChannel k).linkOut = s.linkOut := rfl
@[simp] theorem fireChannel_meshIn : (s.fireChannel k).meshIn = s.meshIn := rfl
@[simp] theorem fireChannel_assembly : (s.fireChannel k).assembly = s.assembly := rfl
@[simp] theorem fireChannel_chans : (s.fireChannel k).chans = s.chans := rfl
@[simp] theorem fireChannel_svs : (s.fireChannel k).svs = s.svs := rfl
@[simp] theorem fireChannel_collector : (s.fireChannel k).collector = s.collector := rfl
@[simp] theorem fireChannel_nvm : (s.fireChannel k).nvm = s.nvm := rfl
@[simp] theorem fireChannel_msp : (s.fireChannel k).msp = s.msp := rfl
@[simp] theorem fireChannel_power : (s.fireChannel k).power = s.power := rfl
@[simp] theorem fireChannel_resets : (s.fireChannel k).resets = s.resets := rfl
end law_fireChannel

section law_draw
variable (s : State)
@[simp] theorem draw_pending : (s.draw).pending = s.pending := rfl
@[simp] theorem draw_regs : (s.draw).regs = s.regs := rfl
@[simp] theorem draw_mem : (s.draw).mem = s.mem := rfl
@[simp] theorem draw_uncorr : (s.draw).uncorr = s.uncorr := rfl
@[simp] theorem draw_single : (s.draw).single = s.single := rfl
@[simp] theorem draw_ticks : (s.draw).ticks = s.ticks := rfl
@[simp] theorem draw_count : (s.draw).count = s.count := rfl
@[simp] theorem draw_sync : (s.draw).sync = s.sync := rfl
@[simp] theorem draw_slots : (s.draw).slots = s.slots := rfl
@[simp] theorem draw_holds : (s.draw).holds = s.holds := rfl
@[simp] theorem draw_latches : (s.draw).latches = s.latches := rfl
@[simp] theorem draw_rdvs : (s.draw).rdvs = s.rdvs := rfl
@[simp] theorem draw_epochs : (s.draw).epochs = s.epochs := rfl
@[simp] theorem draw_tillers : (s.draw).tillers = s.tillers := rfl
@[simp] theorem draw_compares : (s.draw).compares = s.compares := rfl
@[simp] theorem draw_fifos : (s.draw).fifos = s.fifos := rfl
@[simp] theorem draw_captures : (s.draw).captures = s.captures := rfl
@[simp] theorem draw_levels : (s.draw).levels = s.levels := rfl
@[simp] theorem draw_streams : (s.draw).streams = s.streams := rfl
@[simp] theorem draw_pins : (s.draw).pins = s.pins := rfl
@[simp] theorem draw_supplies : (s.draw).supplies = s.supplies := rfl
@[simp] theorem draw_wires : (s.draw).wires = s.wires := rfl
@[simp] theorem draw_firings : (s.draw).firings = s.firings := rfl
@[simp] theorem draw_lines : (s.draw).lines = s.lines := rfl
@[simp] theorem draw_meshOut : (s.draw).meshOut = s.meshOut := rfl
@[simp] theorem draw_hostOut : (s.draw).hostOut = s.hostOut := rfl
@[simp] theorem draw_rdData : (s.draw).rdData = s.rdData := rfl
@[simp] theorem draw_rdPoison : (s.draw).rdPoison = s.rdPoison := rfl
theorem draw_draws : (s.draw).draws = s.draws + 1 := rfl
@[simp] theorem draw_banks : (s.draw).banks = s.banks := rfl
@[simp] theorem draw_wear : (s.draw).wear = s.wear := rfl
@[simp] theorem draw_lastAdmit : (s.draw).lastAdmit = s.lastAdmit := rfl
@[simp] theorem draw_cals : (s.draw).cals = s.cals := rfl
@[simp] theorem draw_adcs : (s.draw).adcs = s.adcs := rfl
@[simp] theorem draw_tdcs : (s.draw).tdcs = s.tdcs := rfl
@[simp] theorem draw_resetEnd : (s.draw).resetEnd = s.resetEnd := rfl
@[simp] theorem draw_strips : (s.draw).strips = s.strips := rfl
@[simp] theorem draw_monitor : (s.draw).monitor = s.monitor := rfl
@[simp] theorem draw_threshers : (s.draw).threshers = s.threshers := rfl
@[simp] theorem draw_sheaves : (s.draw).sheaves = s.sheaves := rfl
@[simp] theorem draw_routes : (s.draw).routes = s.routes := rfl
@[simp] theorem draw_hmqs : (s.draw).hmqs = s.hmqs := rfl
@[simp] theorem draw_dmas : (s.draw).dmas = s.dmas := rfl
@[simp] theorem draw_hostConfig : (s.draw).hostConfig = s.hostConfig := rfl
@[simp] theorem draw_ports : (s.draw).ports = s.ports := rfl
@[simp] theorem draw_linkOut : (s.draw).linkOut = s.linkOut := rfl
@[simp] theorem draw_meshIn : (s.draw).meshIn = s.meshIn := rfl
@[simp] theorem draw_assembly : (s.draw).assembly = s.assembly := rfl
@[simp] theorem draw_chans : (s.draw).chans = s.chans := rfl
@[simp] theorem draw_svs : (s.draw).svs = s.svs := rfl
@[simp] theorem draw_collector : (s.draw).collector = s.collector := rfl
@[simp] theorem draw_nvm : (s.draw).nvm = s.nvm := rfl
@[simp] theorem draw_msp : (s.draw).msp = s.msp := rfl
@[simp] theorem draw_power : (s.draw).power = s.power := rfl
@[simp] theorem draw_resets : (s.draw).resets = s.resets := rfl
end law_draw

section law_put
variable (s : State) (f : Field) (v : Nat)
@[simp] theorem put_pending : (s.put f v).pending = s.pending := rfl
theorem put_regs : (s.put f v).regs = storeSet resetWord s.regs f.addr (BitVec.ofNat 32 (insert32 (s.reg f.addr).toNat f.hi f.lo v)) := rfl
@[simp] theorem put_mem : (s.put f v).mem = s.mem := rfl
@[simp] theorem put_uncorr : (s.put f v).uncorr = s.uncorr := rfl
@[simp] theorem put_single : (s.put f v).single = s.single := rfl
@[simp] theorem put_ticks : (s.put f v).ticks = s.ticks := rfl
@[simp] theorem put_count : (s.put f v).count = s.count := rfl
@[simp] theorem put_sync : (s.put f v).sync = s.sync := rfl
@[simp] theorem put_slots : (s.put f v).slots = s.slots := rfl
@[simp] theorem put_holds : (s.put f v).holds = s.holds := rfl
@[simp] theorem put_latches : (s.put f v).latches = s.latches := rfl
@[simp] theorem put_rdvs : (s.put f v).rdvs = s.rdvs := rfl
@[simp] theorem put_epochs : (s.put f v).epochs = s.epochs := rfl
@[simp] theorem put_tillers : (s.put f v).tillers = s.tillers := rfl
@[simp] theorem put_compares : (s.put f v).compares = s.compares := rfl
@[simp] theorem put_fifos : (s.put f v).fifos = s.fifos := rfl
@[simp] theorem put_captures : (s.put f v).captures = s.captures := rfl
@[simp] theorem put_levels : (s.put f v).levels = s.levels := rfl
@[simp] theorem put_streams : (s.put f v).streams = s.streams := rfl
@[simp] theorem put_pins : (s.put f v).pins = s.pins := rfl
@[simp] theorem put_supplies : (s.put f v).supplies = s.supplies := rfl
@[simp] theorem put_wires : (s.put f v).wires = s.wires := rfl
@[simp] theorem put_firings : (s.put f v).firings = s.firings := rfl
@[simp] theorem put_lines : (s.put f v).lines = s.lines := rfl
@[simp] theorem put_meshOut : (s.put f v).meshOut = s.meshOut := rfl
@[simp] theorem put_hostOut : (s.put f v).hostOut = s.hostOut := rfl
@[simp] theorem put_rdData : (s.put f v).rdData = s.rdData := rfl
@[simp] theorem put_rdPoison : (s.put f v).rdPoison = s.rdPoison := rfl
@[simp] theorem put_draws : (s.put f v).draws = s.draws := rfl
@[simp] theorem put_banks : (s.put f v).banks = s.banks := rfl
@[simp] theorem put_wear : (s.put f v).wear = s.wear := rfl
@[simp] theorem put_lastAdmit : (s.put f v).lastAdmit = s.lastAdmit := rfl
@[simp] theorem put_cals : (s.put f v).cals = s.cals := rfl
@[simp] theorem put_adcs : (s.put f v).adcs = s.adcs := rfl
@[simp] theorem put_tdcs : (s.put f v).tdcs = s.tdcs := rfl
@[simp] theorem put_resetEnd : (s.put f v).resetEnd = s.resetEnd := rfl
@[simp] theorem put_strips : (s.put f v).strips = s.strips := rfl
@[simp] theorem put_monitor : (s.put f v).monitor = s.monitor := rfl
@[simp] theorem put_threshers : (s.put f v).threshers = s.threshers := rfl
@[simp] theorem put_sheaves : (s.put f v).sheaves = s.sheaves := rfl
@[simp] theorem put_routes : (s.put f v).routes = s.routes := rfl
@[simp] theorem put_hmqs : (s.put f v).hmqs = s.hmqs := rfl
@[simp] theorem put_dmas : (s.put f v).dmas = s.dmas := rfl
@[simp] theorem put_hostConfig : (s.put f v).hostConfig = s.hostConfig := rfl
@[simp] theorem put_ports : (s.put f v).ports = s.ports := rfl
@[simp] theorem put_linkOut : (s.put f v).linkOut = s.linkOut := rfl
@[simp] theorem put_meshIn : (s.put f v).meshIn = s.meshIn := rfl
@[simp] theorem put_assembly : (s.put f v).assembly = s.assembly := rfl
@[simp] theorem put_chans : (s.put f v).chans = s.chans := rfl
@[simp] theorem put_svs : (s.put f v).svs = s.svs := rfl
@[simp] theorem put_collector : (s.put f v).collector = s.collector := rfl
@[simp] theorem put_nvm : (s.put f v).nvm = s.nvm := rfl
@[simp] theorem put_msp : (s.put f v).msp = s.msp := rfl
@[simp] theorem put_power : (s.put f v).power = s.power := rfl
@[simp] theorem put_resets : (s.put f v).resets = s.resets := rfl
end law_put

end Sys2Proof.Machine.State
end

