-- ==== Sys2Proof/Laws/Store.lean ====
section
/-! SUPPORT. Laws of the sparse stores: what a read gives after a write, and that every write keeps the canonical form. -/

namespace Sys2Proof.Machine

variable {α : Type} {d : Nat → α}

theorem storeGet_nil (k : Nat) : storeGet d [] k = d k := rfl

/-- A key that no entry carries reads as its default. -/
theorem storeGet_absent {l : Store α} {k : Nat} (h : ∀ e ∈ l, e.1 ≠ k) : storeGet d l k = d k := by
  induction l with
  | nil => rfl
  | cons e r ih =>
    simp only [storeGet, h e (by simp), if_false]
    exact ih fun x hx => h x (by simp [hx])

theorem storeGet_storePut_same (l : Store α) (k : Nat) (v : α) : storeGet d (storePut l k v) k = v := by
  induction l with
  | nil => simp [storePut, storeGet]
  | cons e r ih =>
    obtain ⟨j, w⟩ := e
    simp only [storePut]
    split_ifs with h1 h2
    · simp [storeGet]
    · simp [storeGet]
    · simp [storeGet, Ne.symm h2, ih]

theorem storeGet_storePut_other (l : Store α) {k j : Nat} (v : α) (h : j ≠ k) :
    storeGet d (storePut l k v) j = storeGet d l j := by
  induction l with
  | nil => simp [storePut, storeGet, Ne.symm h]
  | cons e r ih =>
    obtain ⟨i, w⟩ := e
    simp only [storePut]
    split_ifs with h1 h2
    · simp [storeGet, Ne.symm h]
    · subst h2
      simp [storeGet, Ne.symm h]
    · simp [storeGet, ih]

theorem storeGet_filter (l : Store α) {k j : Nat} : storeGet d (l.filter (fun e => e.1 != k)) j = if j = k then d k else storeGet d l j := by
  induction l with
  | nil => simp +contextual [storeGet]
  | cons e r ih =>
    obtain ⟨i, w⟩ := e
    by_cases hik : i = k
    · subst hik
      simp only [List.filter_cons, bne_self_eq_false, Bool.false_eq_true, if_false, ih, storeGet]
      split_ifs with h1 h2 <;> simp_all
    · simp only [List.filter_cons, bne_iff_ne, ne_eq, hik, not_false_eq_true, if_true, storeGet, ih]
      split_ifs with h1 h2 <;> simp_all

/-- A key reads what was written to it last. -/
@[simp] theorem storeGet_storeSet_same [DecidableEq α] (l : Store α) (k : Nat) (v : α) : storeGet d (storeSet d l k v) k = v := by
  unfold storeSet
  split_ifs with h
  · rw [storeGet_filter]
    simp [h]
  · exact storeGet_storePut_same l k v

/-- A write leaves every other key as it was. -/
theorem storeGet_storeSet_other [DecidableEq α] (l : Store α) {k j : Nat} (v : α) (h : j ≠ k) :
    storeGet d (storeSet d l k v) j = storeGet d l j := by
  unfold storeSet
  split_ifs with hv
  · rw [storeGet_filter]
    simp [h]
  · exact storeGet_storePut_other l v h

theorem storeGet_storeSet [DecidableEq α] (l : Store α) (k j : Nat) (v : α) :
    storeGet d (storeSet d l k v) j = if j = k then v else storeGet d l j := by
  split_ifs with h
  · rw [h, storeGet_storeSet_same]
  · exact storeGet_storeSet_other l v h

/-- Keys strictly rise, and no entry holds what an unlisted key reads as. -/
theorem storeWf_iff [DecidableEq α] (l : Store α) :
    storeWf d l = true ↔ l.Pairwise (fun a b => a.1 < b.1) ∧ ∀ e ∈ l, e.2 ≠ d e.1 := by
  induction l with
  | nil => simp [storeWf]
  | cons e r ih =>
    obtain ⟨k, v⟩ := e
    cases r with
    | nil => simp [storeWf]
    | cons e2 r2 =>
      obtain ⟨j, w⟩ := e2
      simp only [storeWf, Bool.and_eq_true, decide_eq_true_eq, ih, List.pairwise_cons, List.mem_cons, forall_eq_or_imp]
      constructor
      · rintro ⟨⟨hv, hk⟩, ⟨hj, hp⟩, hw, hr⟩
        exact ⟨⟨⟨hk, fun a ha => lt_trans hk (hj a ha)⟩, hj, hp⟩, hv, hw, hr⟩
      · rintro ⟨⟨⟨hk, -⟩, hj, hp⟩, hv, hw, hr⟩
        exact ⟨⟨hv, hk⟩, ⟨hj, hp⟩, hw, hr⟩

theorem mem_storePut {l : Store α} {k : Nat} {v : α} {e : Nat × α} (h : e ∈ storePut l k v) : e = (k, v) ∨ e ∈ l := by
  induction l with
  | nil => simpa [storePut] using h
  | cons f r ih =>
    obtain ⟨j, w⟩ := f
    simp only [storePut] at h
    split_ifs at h with h1 h2
    · simpa using h
    · simp only [List.mem_cons] at h ⊢
      tauto
    · simp only [List.mem_cons] at h ⊢
      rcases h with h | h
      · exact .inr (.inl h)
      · rcases ih h with h | h
        · exact .inl h
        · exact .inr (.inr h)

theorem storePut_pairwise {l : Store α} {k : Nat} {v : α} (h : l.Pairwise (fun a b => a.1 < b.1)) :
    (storePut l k v).Pairwise (fun a b => a.1 < b.1) := by
  induction l with
  | nil => simp [storePut]
  | cons f r ih =>
    obtain ⟨j, w⟩ := f
    rw [List.pairwise_cons] at h
    simp only [storePut]
    split_ifs with h1 h2
    · rw [List.pairwise_cons, List.pairwise_cons]
      refine ⟨fun a ha => ?_, h⟩
      rcases List.mem_cons.1 ha with rfl | ha
      · exact h1
      · exact lt_trans h1 (h.1 a ha)
    · subst h2
      exact List.pairwise_cons.2 h
    · refine List.pairwise_cons.2 ⟨fun a ha => ?_, ih h.2⟩
      rcases mem_storePut ha with rfl | ha
      · simp only
        omega
      · exact h.1 a ha

/-- A write keeps the canonical form. -/
theorem storeSet_wf [DecidableEq α] {l : Store α} (h : storeWf d l = true) (k : Nat) (v : α) : storeWf d (storeSet d l k v) = true := by
  rw [storeWf_iff] at h ⊢
  unfold storeSet
  split_ifs with hv
  · exact ⟨h.1.filter _, fun e he => h.2 e (List.mem_filter.1 he).1⟩
  · refine ⟨storePut_pairwise h.1, fun e he => ?_⟩
    rcases mem_storePut he with rfl | he
    · exact hv
    · exact h.2 e he

/-- Forgetting entries keeps the canonical form. -/
theorem storeKeep_wf [DecidableEq α] {l : Store α} (h : storeWf d l = true) (p : Nat → Bool) : storeWf d (storeKeep p l) = true := by
  rw [storeWf_iff] at h ⊢
  exact ⟨h.1.filter _, fun e he => h.2 e (List.mem_filter.1 he).1⟩

/-- What a store reads as after the entries outside a predicate are forgotten. -/
theorem storeGet_storeKeep (l : Store α) (p : Nat → Bool) (k : Nat) :
    storeGet d (storeKeep p l) k = if p k then storeGet d l k else d k := by
  induction l with
  | nil => simp [storeKeep, storeGet]
  | cons e r ih =>
    obtain ⟨i, w⟩ := e
    simp only [storeKeep, List.filter_cons] at ih ⊢
    by_cases hp : p i
    · simp only [hp, if_true, storeGet, ih]
      split_ifs with h1 h2 <;> simp_all
    · simp only [hp, Bool.false_eq_true, if_false, ih, storeGet]
      split_ifs with h1 h2 <;> simp_all

theorem storeGet_head [DecidableEq α] {k : Nat} {v : α} {r : Store α} (h : storeWf d ((k, v) :: r) = true) (j : Nat) (hj : j ≤ k) :
    storeGet d ((k, v) :: r) j = if j = k then v else d j := by
  rw [storeWf_iff, List.pairwise_cons] at h
  split_ifs with e
  · simp [storeGet, e]
  · refine storeGet_absent fun x hx => ?_
    rcases List.mem_cons.1 hx with rfl | hx
    · exact fun c => e c.symm
    · have := h.1.1 x hx
      simp only at this
      omega

/-- Canonical stores that read alike at every key are equal as data. -/
theorem store_ext [DecidableEq α] {l m : Store α} (hl : storeWf d l = true) (hm : storeWf d m = true)
    (h : ∀ k, storeGet d l k = storeGet d m k) : l = m := by
  induction l generalizing m with
  | nil =>
    cases m with
    | nil => rfl
    | cons e r =>
      obtain ⟨k, v⟩ := e
      have h1 := h k
      rw [storeGet_head hm k le_rfl, if_pos rfl, storeGet_nil] at h1
      exact absurd h1.symm (((storeWf_iff _).1 hm).2 (k, v) (by simp))
  | cons e r ih =>
    obtain ⟨k, v⟩ := e
    have hv := ((storeWf_iff _).1 hl).2 (k, v) (by simp)
    cases m with
    | nil =>
      have h1 := h k
      rw [storeGet_head hl k le_rfl, if_pos rfl, storeGet_nil] at h1
      exact absurd h1 hv
    | cons f q =>
      obtain ⟨j, w⟩ := f
      have hw := ((storeWf_iff _).1 hm).2 (j, w) (by simp)
      have hkj : k = j := by
        rcases lt_trichotomy k j with c | c | c
        · have h1 := h k
          rw [storeGet_head hl k le_rfl, if_pos rfl, storeGet_head hm k c.le, if_neg c.ne] at h1
          exact absurd h1 hv
        · exact c
        · have h1 := h j
          rw [storeGet_head hm j le_rfl, if_pos rfl, storeGet_head hl j c.le, if_neg c.ne] at h1
          exact absurd h1.symm hw
      subst hkj
      have hvw : v = w := by
        have h1 := h k
        rwa [storeGet_head hl k le_rfl, storeGet_head hm k le_rfl, if_pos rfl, if_pos rfl] at h1
      subst hvw
      have wr : storeWf d r = true := by
        rw [storeWf_iff, List.pairwise_cons] at hl
        exact (storeWf_iff _).2 ⟨hl.1.2, fun e he => hl.2 e (List.mem_cons_of_mem _ he)⟩
      have wq : storeWf d q = true := by
        rw [storeWf_iff, List.pairwise_cons] at hm
        exact (storeWf_iff _).2 ⟨hm.1.2, fun e he => hm.2 e (List.mem_cons_of_mem _ he)⟩
      rw [ih wr wq fun i => ?_]
      by_cases hi : i = k
      · subst hi
        rw [storeWf_iff, List.pairwise_cons] at hl hm
        rw [storeGet_absent fun e he => (hl.1.1 e he).ne', storeGet_absent fun e he => (hm.1.1 e he).ne']
      · have h1 := h i
        simpa [storeGet, Ne.symm hi] using h1

end Sys2Proof.Machine
end

