-- ==== Sys2Proof/Laws/Memory.lean ====
section
/-! SUPPORT. Device memory: a byte reads as last written, every other byte is kept, the canonical form is kept. -/

namespace Sys2Proof.Machine

namespace State

theorem byteAt_setByte (s : State) (a b : Nat) (v : Byte) : (s.setByte a v).byteAt b = if b = a then v else s.byteAt b :=
  storeGet_storeSet s.mem a b v

theorem setByte_wf {s : State} (h : Memory.wf s.mem = true) (a : Nat) (v : Byte) : Memory.wf (s.setByte a v).mem = true :=
  storeSet_wf h a v

/-- Outside the bytes stored, memory is kept. -/
theorem byteAt_storeBytes_other (s : State) (a b : Nat) (l : List Nat) (h : b < a ∨ a + l.length ≤ b) :
    (s.storeBytes a l).byteAt b = s.byteAt b := by
  induction l generalizing s a with
  | nil => rfl
  | cons x r ih =>
    simp only [List.length_cons] at h
    rw [State.storeBytes, ih _ _ (by omega), byteAt_setByte, if_neg (by omega)]

/-- Each byte stored reads back. -/
theorem byteAt_storeBytes_same (s : State) (a : Nat) (l : List Nat) (k : Nat) (h : k < l.length) :
    (s.storeBytes a l).byteAt (a + k) = BitVec.ofNat 8 l[k] := by
  induction l generalizing s a k with
  | nil => simp at h
  | cons x r ih =>
    rw [State.storeBytes]
    cases k with
    | zero => rw [byteAt_storeBytes_other _ _ _ _ (Or.inl (by omega)), byteAt_setByte, if_pos (Nat.add_zero a), List.getElem_cons_zero]
    | succ k => rw [show a + (k + 1) = a + 1 + k by omega, ih _ _ _ (by simpa using h), List.getElem_cons_succ]

theorem storeBytes_wf {s : State} (h : Memory.wf s.mem = true) (a : Nat) (l : List Nat) : Memory.wf (s.storeBytes a l).mem = true := by
  induction l generalizing s a with
  | nil => exact h
  | cons x r ih => exact ih (setByte_wf h a _) _

@[simp] theorem regs_storeBytes (s : State) (a : Nat) (l : List Nat) : (s.storeBytes a l).regs = s.regs := by
  induction l generalizing s a with
  | nil => rfl
  | cons x r ih => exact ih _ _

end State

/-- The bytes of a number spell it, reduced to their width (R3). -/
theorem ofBytesLE_bytesLE (n v : Nat) : ofBytesLE (bytesLE n v) = v % 256 ^ n := by
  induction n generalizing v with
  | zero => simp [bytesLE, ofBytesLE, Nat.mod_one]
  | succ n ih => rw [bytesLE, ofBytesLE, ih, Nat.pow_succ', Nat.mod_mul]

theorem length_bytesLE (n v : Nat) : (bytesLE n v).length = n := by
  induction n generalizing v with
  | zero => rfl
  | succ n ih => rw [bytesLE, List.length_cons, ih]

namespace State

/-- A number stored little-endian is loaded back (R3). -/
theorem loadLE_storeBytes (s : State) (a n v : Nat) : (s.storeBytes a (bytesLE n v)).loadLE a n = v % 256 ^ n := by
  induction n generalizing s a v with
  | zero => simp [State.loadLE, Nat.mod_one]
  | succ n ih =>
    rw [bytesLE, State.storeBytes, State.loadLE, ih, byteAt_storeBytes_other _ _ _ _ (Or.inl (Nat.lt_succ_self a)), byteAt_setByte, if_pos rfl,
      Nat.pow_succ', Nat.mod_mul]
    simp

end State

end Sys2Proof.Machine
end

