-- ==== Sys2Proof/Laws/PerInstr.lean ====
section
/-! SUPPORT. Statements made for every command, one lemma each: which commands can be ill formed. -/

namespace Sys2Proof.Laws.Ranged

/-- The commands whose operands carry an address, a list or a transaction. -/
def ranged : Instr → Bool
  | .regWrite .. | .rcFieldRead .. | .tableWrite .. | .timingSetWrite .. | .bar2Write .. | .bar2Read .. | .sensorSample ..
  | .regsReady .. | .mspTransaction .. => true
  | _ => false

/-- Only those can be ill formed. -/
def Statement (i : Instr) : Prop := i.wellFormed = true ∨ ranged i = true

theorem regWrite (v : View) (addr : Nat) (w : WriteData) : Statement (.regWrite v addr w) := .inr rfl
theorem blkRstPin (v : View) (index : BitVec 9) : Statement (.blkRstPin v index) := .inl rfl
theorem blkRstTiller (v : View) (index : BitVec 9) : Statement (.blkRstTiller v index) := .inl rfl
theorem blkRstSheaf (v : View) (index : BitVec 9) : Statement (.blkRstSheaf v index) := .inl rfl
theorem blkRstStrip (v : View) (index : BitVec 9) : Statement (.blkRstStrip v index) := .inl rfl
theorem blkRstChip (v : View) (index : BitVec 9) : Statement (.blkRstChip v index) := .inl rfl
theorem blockResetDone : Statement (.blockResetDone) := .inl rfl
theorem syncFrame (start : Nat) (frame : BitVec 128) : Statement (.syncFrame start frame) := .inl rfl
theorem relockDeferred : Statement (.relockDeferred) := .inl rfl
theorem syncNop (c : BitVec 48) (arg : BitVec 16) : Statement (.syncNop c arg) := .inl rfl
theorem startAt (c : BitVec 48) (group : Fin 16) (s7 : Bool) (fine : Fin 128) (arg : BitVec 16) : Statement (.startAt c group s7 fine arg) := .inl rfl
theorem haltAt (c : BitVec 48) (group : Fin 16) (s7 : Bool) (fine : Fin 128) (arg : BitVec 16) : Statement (.haltAt c group s7 fine arg) := .inl rfl
theorem clearLate (c : BitVec 48) (group : Fin 16) (s7 : Bool) (fine : Fin 128) (arg : BitVec 16) : Statement (.clearLate c group s7 fine arg) := .inl rfl
theorem calHold (c : BitVec 48) (group : Fin 16) (mask : BitVec 8) (arg : BitVec 16) : Statement (.calHold c group mask arg) := .inl rfl
theorem startAtDue (group : Fin 16) (n : BitVec 48) : Statement (.startAtDue group n) := .inl rfl
theorem haltAtDue (group : Fin 16) (n : BitVec 48) : Statement (.haltAtDue group n) := .inl rfl
theorem clearLateDue (group : Fin 16) (n : BitVec 48) : Statement (.clearLateDue group n) := .inl rfl
theorem calHoldExpire (r : Fin 8) : Statement (.calHoldExpire r) := .inl rfl
theorem syncEnWrite (v : View) (en : Bool) : Statement (.syncEnWrite v en) := .inl rfl
theorem trimWrite (v : View) (trim : BitVec 9) : Statement (.trimWrite v trim) := .inl rfl
theorem rcLoRead (pair : Pair64) : Statement (.rcLoRead pair) := .inl rfl
theorem rcHiRead (pair : Pair64) : Statement (.rcHiRead pair) := .inl rfl
theorem hiLatchExpire (pair : Pair64) : Statement (.hiLatchExpire pair) := .inl rfl
theorem rdvReport (k : Fin 32) (x : Fin 16) (y : Fin 16) (epoch : Fin 256) (first complete : Bool) (arrivals : Fin 256) (stamp : BitVec 48) : Statement (.rdvReport k x y epoch first complete arrivals stamp) := .inl rfl
theorem rdvRelease (k : Fin 32) (x : Fin 16) (y : Fin 16) (epoch : Fin 256) (timeout : Bool) (r : BitVec 48) : Statement (.rdvRelease k x y epoch timeout r) := .inl rfl
theorem rdvReleaseDue (k : Fin 32) : Statement (.rdvReleaseDue k) := .inl rfl
theorem rdvTimeout (k : Fin 32) : Statement (.rdvTimeout k) := .inl rfl
theorem vectorIssue (t : IssueTurn) : Statement (.vectorIssue t) := .inl rfl
theorem vNop (t : Fin 64) : Statement (.vNop t) := .inl rfl
theorem vRepeat (t : Fin 64) (w : Word) : Statement (.vRepeat t w) := .inl rfl
theorem vLoop (t : Fin 64) (w : Word) : Statement (.vLoop t w) := .inl rfl
theorem vEndloop (t : Fin 64) (w : Word) : Statement (.vEndloop t w) := .inl rfl
theorem vJump (t : Fin 64) (w : Word) : Statement (.vJump t w) := .inl rfl
theorem vCall (t : Fin 64) (w : Word) : Statement (.vCall t w) := .inl rfl
theorem vRet (t : Fin 64) : Statement (.vRet t) := .inl rfl
theorem vHalt (t : Fin 64) (w : Word) : Statement (.vHalt t w) := .inl rfl
theorem vClrs (t : Fin 64) (w : Word) : Statement (.vClrs t w) := .inl rfl
theorem vCmask (t : Fin 64) (w : Word) : Statement (.vCmask t w) := .inl rfl
theorem vPause (t : Fin 64) : Statement (.vPause t) := .inl rfl
theorem vTmark (t : Fin 64) (w : Word) : Statement (.vTmark t w) := .inl rfl
theorem vJfail (t : Fin 64) (w : Word) (cnd : BitVec 8) : Statement (.vJfail t w cnd) := .inl rfl
theorem vJpass (t : Fin 64) (w : Word) (cnd : BitVec 8) : Statement (.vJpass t w cnd) := .inl rfl
theorem vJevt (t : Fin 64) (w : Word) (cnd : BitVec 8) : Statement (.vJevt t w cnd) := .inl rfl
theorem vMatch (t : Fin 64) (w : Word) (cnd : BitVec 8) : Statement (.vMatch t w cnd) := .inl rfl
theorem vCfail (t : Fin 64) (w : Word) (cnd : BitVec 8) : Statement (.vCfail t w cnd) := .inl rfl
theorem vCpass (t : Fin 64) (w : Word) (cnd : BitVec 8) : Statement (.vCpass t w cnd) := .inl rfl
theorem vWaitrc (t : Fin 64) (w : Word) : Statement (.vWaitrc t w) := .inl rfl
theorem waitrcWake (t : Fin 64) : Statement (.waitrcWake t) := .inl rfl
theorem vRdv (t : Fin 64) (w : Word) : Statement (.vRdv t w) := .inl rfl
theorem vCalgap (t : Fin 64) (w : Word) : Statement (.vCalgap t w) := .inl rfl
theorem gapStart (t : Fin 64) : Statement (.gapStart t) := .inl rfl
theorem gapEnd (t : Fin 64) : Statement (.gapEnd t) := .inl rfl
theorem vSeg (t : Fin 64) (w : Word) : Statement (.vSeg t w) := .inl rfl
theorem vStream (t : Fin 64) (w : Word) : Statement (.vStream t w) := .inl rfl
theorem vSetx (t : Fin 64) (w : Word) : Statement (.vSetx t w) := .inl rfl
theorem vSety (t : Fin 64) (w : Word) : Statement (.vSety t w) := .inl rfl
theorem vSetd (t : Fin 64) (w : Word) : Statement (.vSetd t w) := .inl rfl
theorem vSeti (t : Fin 64) (w : Word) : Statement (.vSeti t w) := .inl rfl
theorem vLvlq (t : Fin 64) (w : Word) : Statement (.vLvlq t w) := .inl rfl
theorem vMeas (t : Fin 64) (w : Word) : Statement (.vMeas t w) := .inl rfl
theorem vTdcarm (t : Fin 64) (w : Word) : Statement (.vTdcarm t w) := .inl rfl
theorem vEvw (t : Fin 64) (w : Word) (cnd : BitVec 8) : Statement (.vEvw t w cnd) := .inl rfl
theorem evwWake (t : Fin 64) (at_ : Nat) : Statement (.evwWake t at_) := .inl rfl
theorem evwTimeout (t : Fin 64) : Statement (.evwTimeout t) := .inl rfl
theorem vEvs (t : Fin 64) (w : Word) : Statement (.vEvs t w) := .inl rfl
theorem addrHold (t : Fin 64) (gen : Gen) : Statement (.addrHold t gen) := .inl rfl
theorem addrInc (t : Fin 64) (gen : Gen) (chain : Bool) : Statement (.addrInc t gen chain) := .inl rfl
theorem addrDec (t : Fin 64) (gen : Gen) (chain : Bool) : Statement (.addrDec t gen chain) := .inl rfl
theorem addrComp (t : Fin 64) (gen : Gen) : Statement (.addrComp t gen) := .inl rfl
theorem addrLdi (t : Fin 64) (gen : Gen) (n : Fin 4) : Statement (.addrLdi t gen n) := .inl rfl
theorem addrAddi (t : Fin 64) (gen : Gen) (n : Fin 4) (chain : Bool) : Statement (.addrAddi t gen n chain) := .inl rfl
theorem addrSavi (t : Fin 64) (gen : Gen) (n : Fin 4) : Statement (.addrSavi t gen n) := .inl rfl
theorem addrZero (t : Fin 64) (gen : Gen) : Statement (.addrZero t gen) := .inl rfl
theorem dataHold (t : Fin 64) : Statement (.dataHold t) := .inl rfl
theorem dataInv (t : Fin 64) : Statement (.dataInv t) := .inl rfl
theorem dataBg (t : Fin 64) (n : Fin 4) : Statement (.dataBg t n) := .inl rfl
theorem dataBgi (t : Fin 64) (n : Fin 4) : Statement (.dataBgi t n) := .inl rfl
theorem dataCkb (t : Fin 64) (n : Fin 4) : Statement (.dataCkb t n) := .inl rfl
theorem dataAdrb (t : Fin 64) (n : Fin 4) : Statement (.dataAdrb t n) := .inl rfl
theorem dataXorb (t : Fin 64) (n : Fin 4) : Statement (.dataXorb t n) := .inl rfl
theorem dataRol (t : Fin 64) : Statement (.dataRol t) := .inl rfl
theorem dataRor (t : Fin 64) : Statement (.dataRor t) := .inl rfl
theorem dataAddr (t : Fin 64) : Statement (.dataAddr t) := .inl rfl
theorem compareResolve (t : Fin 64) : Statement (.compareResolve t) := .inl rfl
theorem tlRun (v : View) (t : Fin 64) : Statement (.tlRun v t) := .inl rfl
theorem tlStop (v : View) (t : Fin 64) : Statement (.tlStop v t) := .inl rfl
theorem tlResume (v : View) (t : Fin 64) : Statement (.tlResume v t) := .inl rfl
theorem traceRdWrite (v : View) (t : Fin 64) (entry : Fin 256) : Statement (.traceRdWrite v t entry) := .inl rfl
theorem apgWrite (v : View) (t : Fin 64) (reg : ApgReg) (w : Word) : Statement (.apgWrite v t reg w) := .inl rfl
theorem levelApply (t : Fin 64) : Statement (.levelApply t) := .inl rfl
theorem lvlDoneRead (t : Fin 64) : Statement (.lvlDoneRead t) := .inl rfl
theorem eventInputSet (t : Fin 64) (input : Fin 8) : Statement (.eventInputSet t input) := .inl rfl
theorem evinFire (v : View) (t : Fin 64) (mask : BitVec 8) : Statement (.evinFire v t mask) := .inl rfl
theorem resultRead (t : Fin 64) : Statement (.resultRead t) := .inl rfl
theorem prime (v : View) (t : Fin 64) (seg : Fin 256) : Statement (.prime v t seg) := .inl rfl
theorem segBreak (v : View) (t : Fin 64) : Statement (.segBreak v t) := .inl rfl
theorem segCheck (v : View) (t : Fin 64) (seg : Fin 256) : Statement (.segCheck v t seg) := .inl rfl
theorem segCheckDone (t : Fin 64) : Statement (.segCheckDone t) := .inl rfl
theorem streamLineArrive (t : Fin 64) : Statement (.streamLineArrive t) := .inl rfl
theorem stallResume (t : Fin 64) : Statement (.stallResume t) := .inl rfl
theorem tableWrite (v : View) (addr : Nat) (w : WriteData) : Statement (.tableWrite v addr w) := .inr rfl
theorem timingSetWrite (v : View) (t : Fin 64) (set : Fin 64) (offset : Fin 512) (w : Word) : Statement (.timingSetWrite v t set offset w) := .inr rfl
theorem pnCtrlWrite (v : View) (g : Fin 512) (w : Word) : Statement (.pnCtrlWrite v g w) := .inl rfl
theorem cmpModeSettled (g : Fin 512) (hi lo : CmpInput) : Statement (.cmpModeSettled g hi lo) := .inl rfl
theorem levelRegWrite (v : View) (g : Fin 512) (level : Fin 8) (code : BitVec 16) : Statement (.levelRegWrite v g level code) := .inl rfl
theorem ppmuCtrlWrite (v : View) (g : Fin 512) (w : Word) : Statement (.ppmuCtrlWrite v g w) := .inl rfl
theorem driverIlim (g : Fin 512) : Statement (.driverIlim g) := .inl rfl
theorem comparatorCrossing (g : Fin 512) (high above : Bool) (at_ : Nat) : Statement (.comparatorCrossing g high above at_) := .inl rfl
theorem sampleDeliver (t : Fin 64) : Statement (.sampleDeliver t) := .inl rfl
theorem xbarTake (t : Fin 64) : Statement (.xbarTake t) := .inl rfl
theorem fqFlush (v : View) (t : Fin 64) : Statement (.fqFlush v t) := .inl rfl
theorem fqDestWrite (v : View) (t : Fin 64) (host : Bool) : Statement (.fqDestWrite v t host) := .inl rfl
theorem fqRead (t : Fin 64) : Statement (.fqRead t) := .inl rfl
theorem capArm (v : View) (t : Fin 64) : Statement (.capArm v t) := .inl rfl
theorem capAbort (v : View) (t : Fin 64) : Statement (.capAbort v t) := .inl rfl
theorem capRead (t : Fin 64) : Statement (.capRead t) := .inl rfl
theorem thDispatch (i : Fin 32) : Statement (.thDispatch i) := .inl rfl
theorem uNext (i : Fin 32) : Statement (.uNext i) := .inl rfl
theorem uBr (i : Fin 32) (target : BitVec 14) : Statement (.uBr i target) := .inl rfl
theorem uBrc (i : Fin 32) (cond : Fin 64) (buf : Fin 16) (target : BitVec 14) : Statement (.uBrc i cond buf target) := .inl rfl
theorem uBrnc (i : Fin 32) (cond : Fin 64) (buf : Fin 16) (target : BitVec 14) : Statement (.uBrnc i cond buf target) := .inl rfl
theorem uCallu (i : Fin 32) (target : BitVec 14) : Statement (.uCallu i target) := .inl rfl
theorem uRetu (i : Fin 32) : Statement (.uRetu i) := .inl rfl
theorem uCommit (i : Fin 32) (n : Fin 32) : Statement (.uCommit i n) := .inl rfl
theorem uCommitk (i : Fin 32) (n : Fin 32) : Statement (.uCommitk i n) := .inl rfl
theorem uEnd (i : Fin 32) : Statement (.uEnd i) := .inl rfl
theorem uFence (i : Fin 32) : Statement (.uFence i) := .inl rfl
theorem uWaitl (i : Fin 32) (b : Fin 16) : Statement (.uWaitl i b) := .inl rfl
theorem uStopu (i : Fin 32) : Statement (.uStopu i) := .inl rfl
theorem aluNop (i : Fin 32) : Statement (.aluNop i) := .inl rfl
theorem aluMov (i : Fin 32) (o : AluOps) : Statement (.aluMov i o) := .inl rfl
theorem aluAdd (i : Fin 32) (o : AluOps) : Statement (.aluAdd i o) := .inl rfl
theorem aluSub (i : Fin 32) (o : AluOps) : Statement (.aluSub i o) := .inl rfl
theorem aluAnd (i : Fin 32) (o : AluOps) : Statement (.aluAnd i o) := .inl rfl
theorem aluOr (i : Fin 32) (o : AluOps) : Statement (.aluOr i o) := .inl rfl
theorem aluXor (i : Fin 32) (o : AluOps) : Statement (.aluXor i o) := .inl rfl
theorem aluShl (i : Fin 32) (o : AluOps) : Statement (.aluShl i o) := .inl rfl
theorem aluShr (i : Fin 32) (o : AluOps) : Statement (.aluShr i o) := .inl rfl
theorem aluExt (i : Fin 32) (o : AluOps) : Statement (.aluExt i o) := .inl rfl
theorem aluIns (i : Fin 32) (o : AluOps) : Statement (.aluIns i o) := .inl rfl
theorem aluPopc (i : Fin 32) (o : AluOps) : Statement (.aluPopc i o) := .inl rfl
theorem aluCtz (i : Fin 32) (o : AluOps) : Statement (.aluCtz i o) := .inl rfl
theorem aluMin (i : Fin 32) (o : AluOps) : Statement (.aluMin i o) := .inl rfl
theorem aluMax (i : Fin 32) (o : AluOps) : Statement (.aluMax i o) := .inl rfl
theorem aluCmp (i : Fin 32) (o : AluOps) : Statement (.aluCmp i o) := .inl rfl
theorem mLdl (i : Fin 32) (o : MemOps) : Statement (.mLdl i o) := .inl rfl
theorem mStl (i : Fin 32) (o : MemOps) : Statement (.mStl i o) := .inl rfl
theorem mLdw (i : Fin 32) (o : MemOps) : Statement (.mLdw i o) := .inl rfl
theorem mStw (i : Fin 32) (o : MemOps) : Statement (.mStw i o) := .inl rfl
theorem mBset (i : Fin 32) (o : MemOps) : Statement (.mBset i o) := .inl rfl
theorem mLdctx (i : Fin 32) (o : CtxOps) : Statement (.mLdctx i o) := .inl rfl
theorem mCrd (i : Fin 32) (o : CtxOps) : Statement (.mCrd i o) := .inl rfl
theorem mCwr (i : Fin 32) (o : CtxOps) : Statement (.mCwr i o) := .inl rfl
theorem mCfind (i : Fin 32) (o : CtxOps) : Statement (.mCfind i o) := .inl rfl
theorem mCincs (i : Fin 32) (o : CtxOps) : Statement (.mCincs i o) := .inl rfl
theorem mCtsb (i : Fin 32) (o : CtxOps) : Statement (.mCtsb i o) := .inl rfl
theorem mCzero (i : Fin 32) : Statement (.mCzero i) := .inl rfl
theorem mInrd (i : Fin 32) (o : IoOps) : Statement (.mInrd i o) := .inl rfl
theorem mSrd (i : Fin 32) (o : IoOps) : Statement (.mSrd i o) := .inl rfl
theorem mSwr (i : Fin 32) (o : IoOps) : Statement (.mSwr i o) := .inl rfl
theorem mRsv (i : Fin 32) (o : IoOps) : Statement (.mRsv i o) := .inl rfl
theorem mRput (i : Fin 32) (o : IoOps) : Statement (.mRput i o) := .inl rfl
theorem mRpost (i : Fin 32) (o : IoOps) : Statement (.mRpost i o) := .inl rfl
theorem mNote (i : Fin 32) (o : IoOps) : Statement (.mNote i o) := .inl rfl
theorem mCurw (i : Fin 32) (o : IoOps) : Statement (.mCurw i o) := .inl rfl
theorem mCurr (i : Fin 32) (o : IoOps) : Statement (.mCurr i o) := .inl rfl
theorem mStat (i : Fin 32) (o : IoOps) : Statement (.mStat i o) := .inl rfl
theorem thReadComplete (i : Fin 32) (b : Fin 16) : Statement (.thReadComplete i b) := .inl rfl
theorem thWriteComplete (w : PostedTurn) : Statement (.thWriteComplete w) := .inl rfl
theorem thRun (v : View) (i : Fin 32) : Statement (.thRun v i) := .inl rfl
theorem thStop (v : View) (i : Fin 32) : Statement (.thStop v i) := .inl rfl
theorem thRestart (v : View) (i : Fin 32) : Statement (.thRestart v i) := .inl rfl
theorem thCmdSolve (v : View) (i : Fin 32) (q : Fin 4) : Statement (.thCmdSolve v i q) := .inl rfl
theorem thCmdClear (v : View) (i : Fin 32) (q : Fin 4) : Statement (.thCmdClear v i q) := .inl rfl
theorem xbarRouteWrite (v : View) (s : Fin 16) (w : Word) : Statement (.xbarRouteWrite v s w) := .inl rfl
theorem ucsLoadEn (v : View) (s : Fin 16) (en : Bool) : Statement (.ucsLoadEn v s en) := .inl rfl
theorem ucsDataWrite (v : View) (s : Fin 16) (k : Fin 8) (w : Word) : Statement (.ucsDataWrite v s k w) := .inl rfl
theorem ucsFinish (v : View) (s : Fin 16) (w : Word) : Statement (.ucsFinish v s w) := .inl rfl
theorem ucrdAddrWrite (v : View) (s : Fin 16) (w : Word) : Statement (.ucrdAddrWrite v s w) := .inl rfl
theorem ucrdD7Read (s : Fin 16) : Statement (.ucrdD7Read s) := .inl rfl
theorem supplyEnable (v : View) (t : Fin 64) (h : Fin 2) : Statement (.supplyEnable v t h) := .inl rfl
theorem enableAdmit (t : Fin 64) (h : Fin 2) : Statement (.enableAdmit t h) := .inl rfl
theorem supplyDisable (v : View) (t : Fin 64) (h : Fin 2) (microamps : Nat) : Statement (.supplyDisable v t h microamps) := .inl rfl
theorem supplyClear (v : View) (t : Fin 64) (h : Fin 2) : Statement (.supplyClear v t h) := .inl rfl
theorem supplyRangeChange (v : View) (t : Fin 64) (range : Fin 4) (microamps : Nat) : Statement (.supplyRangeChange v t range microamps) := .inl rfl
theorem rangeHandover (t : Fin 64) : Statement (.rangeHandover t) := .inl rfl
theorem rangeOldDisconnect (t : Fin 64) (microamps : Nat) : Statement (.rangeOldDisconnect t microamps) := .inl rfl
theorem settleWindowEnd (t : Fin 64) : Statement (.settleWindowEnd t) := .inl rfl
theorem hvSpanWrite (v : View) (t : Fin 64) (bipolar : Bool) : Statement (.hvSpanWrite v t bipolar) := .inl rfl
theorem supplyCodeWrite (v : View) (t : Fin 64) (h : Fin 2) (code : Fin 262144) : Statement (.supplyCodeWrite v t h code) := .inl rfl
theorem energyLimitWrite (v : View) (t : Fin 64) (h : Fin 2) (ceiling : Bool) (w : Word) : Statement (.energyLimitWrite v t h ceiling w) := .inl rfl
theorem currentLimitEnter (t : Fin 64) (h : Fin 2) : Statement (.currentLimitEnter t h) := .inl rfl
theorem ilimTrip (t : Fin 64) (h : Fin 2) : Statement (.ilimTrip t h) := .inl rfl
theorem slewStep (t : Fin 64) (h : Fin 2) : Statement (.slewStep t h) := .inl rfl
theorem wfGo (v : View) (t : Fin 64) (h : Fin 2) : Statement (.wfGo v t h) := .inl rfl
theorem wfStop (v : View) (t : Fin 64) (h : Fin 2) : Statement (.wfStop v t h) := .inl rfl
theorem wfSample (t : Fin 64) (h : Fin 2) : Statement (.wfSample t h) := .inl rfl
theorem crowbarTrip (t : Fin 64) (h : Fin 2) (arc : Bool) : Statement (.crowbarTrip t h arc) := .inl rfl
theorem crowbarOpen (t : Fin 64) (h : Fin 2) : Statement (.crowbarOpen t h) := .inl rfl
theorem crowbarHoldoffEnd (t : Fin 64) (h : Fin 2) : Statement (.crowbarHoldoffEnd t h) := .inl rfl
theorem supervisionRead (t : Fin 64) (h : Fin 2) (code : Int) (tags : Unit) : Statement (.supervisionRead t h code tags) := .inl rfl
theorem senseOpen (t : Fin 64) : Statement (.senseOpen t) := .inl rfl
theorem dropout (t : Fin 64) : Statement (.dropout t) := .inl rfl
theorem adcTrig (v : View) (t : Fin 64) : Statement (.adcTrig v t) := .inl rfl
theorem adcTrigger (t : Fin 64) : Statement (.adcTrigger t) := .inl rfl
theorem adcAbort (v : View) (t : Fin 64) : Statement (.adcAbort v t) := .inl rfl
theorem adcConversionStart (t : Fin 64) (at_ : Nat) : Statement (.adcConversionStart t at_) := .inl rfl
theorem adcHeldBurstBegin (t : Fin 64) : Statement (.adcHeldBurstBegin t) := .inl rfl
theorem adcResult (t : Fin 64) (raw : Int) (overRange : Bool) : Statement (.adcResult t raw overRange) := .inl rfl
theorem refReady (t : Fin 64) : Statement (.refReady t) := .inl rfl
theorem adcSliceExchange (t : Fin 64) : Statement (.adcSliceExchange t) := .inl rfl
theorem adcResRead (t : Fin 64) : Statement (.adcResRead t) := .inl rfl
theorem tdcArm (v : View) (t : Fin 64) : Statement (.tdcArm v t) := .inl rfl
theorem tdcAbort (v : View) (t : Fin 64) : Statement (.tdcAbort v t) := .inl rfl
theorem tdcStartEdge (t : Fin 64) (at_ : Nat) : Statement (.tdcStartEdge t at_) := .inl rfl
theorem tdcStopEdge (t : Fin 64) (at_ : Nat) : Statement (.tdcStopEdge t at_) := .inl rfl
theorem tdcNostopTimeout (t : Fin 64) : Statement (.tdcNostopTimeout t) := .inl rfl
theorem tdcNostartTimeout (t : Fin 64) : Statement (.tdcNostartTimeout t) := .inl rfl
theorem tdcOvf (t : Fin 64) : Statement (.tdcOvf t) := .inl rfl
theorem tdcResultRead (t : Fin 64) : Statement (.tdcResultRead t) := .inl rfl
theorem sensorSample (readings : List Int) : Statement (.sensorSample readings) := .inr rfl
theorem shutdownRailsOff : Statement (.shutdownRailsOff) := .inl rfl
theorem shutdownLog (peak : Int) : Statement (.shutdownLog peak) := .inl rfl
theorem calRunStart (r : Fin 8) : Statement (.calRunStart r) := .inl rfl
theorem calStepEnd (t : Fin 64) (word : Word) (rms : BitVec 16) : Statement (.calStepEnd t word rms) := .inl rfl
theorem calTimeout (r : Fin 8) : Statement (.calTimeout r) := .inl rfl
theorem switchStuck (t : Fin 64) : Statement (.switchStuck t) := .inl rfl
theorem calRunNow (v : View) (r : Fin 8) : Statement (.calRunNow v r) := .inl rfl
theorem calAbort (v : View) (r : Fin 8) : Statement (.calAbort v r) := .inl rfl
theorem calCommit (v : View) (r : Fin 8) : Statement (.calCommit v r) := .inl rfl
theorem calReload (v : View) (r : Fin 8) : Statement (.calReload v r) := .inl rfl
theorem calDataWrite (v : View) (r : Fin 8) (w : Word) : Statement (.calDataWrite v r w) := .inl rfl
theorem proberGap (v : View) (strips : BitVec 8) (len : BitVec 20) : Statement (.proberGap v strips len) := .inl rfl
theorem thermClear (v : View) (key : BitVec 16) : Statement (.thermClear v key) := .inl rfl
theorem wearAccrue (g : Fin 512) : Statement (.wearAccrue g) := .inl rfl
theorem contactCycle (v : View) : Statement (.contactCycle v) := .inl rfl
theorem wearSave (v : View) : Statement (.wearSave v) := .inl rfl
theorem wearSavePeriodic : Statement (.wearSavePeriodic) := .inl rfl
theorem bar2Write (addr : Nat) (data : List (Option Byte)) (ep : Bool) : Statement (.bar2Write addr data ep) := .inr rfl
theorem dramInitDone (east : Bool) : Statement (.dramInitDone east) := .inl rfl
theorem scrubPass (s : Fin 16) : Statement (.scrubPass s) := .inl rfl
theorem hostPortReset : Statement (.hostPortReset) := .inl rfl
theorem vecRearm (v : View) (vec : Fin 64) : Statement (.vecRearm v vec) := .inl rfl
theorem dmaEnable (v : View) (c : Fin 8) (en : Bool) : Statement (.dmaEnable v c en) := .inl rfl
theorem dmaProdWrite (v : View) (c : Fin 8) (w : Word) : Statement (.dmaProdWrite v c w) := .inl rfl
theorem dmaDescriptor (c : Fin 8) (desc : BitVec 256) (data : List Byte) (ep : List (Nat × Nat)) : Statement (.dmaDescriptor c desc data ep) := .inl rfl
theorem dmaDescriptorDone (c : Fin 8) : Statement (.dmaDescriptorDone c) := .inl rfl
theorem dmaTransferError (c : Fin 8) (why : TransferError) (moved : Nat) : Statement (.dmaTransferError c why moved) := .inl rfl
theorem dmaRemoteTimeout (c : Fin 8) : Statement (.dmaRemoteTimeout c) := .inl rfl
theorem dmaResume (v : View) (c : Fin 8) : Statement (.dmaResume v c) := .inl rfl
theorem dmaAbort (v : View) (c : Fin 8) : Statement (.dmaAbort v c) := .inl rfl
theorem hmqRead (q : Fin 4) : Statement (.hmqRead q) := .inl rfl
theorem flitReceive (p : Fin 4) (flit : BitVec 512) (seq : Fin 256) (crc : BitVec 32) (ackv : Bool) (ackseq : Fin 256) : Statement (.flitReceive p flit seq crc ackv ackseq) := .inl rfl
theorem flitTransmit (p : Fin 4) : Statement (.flitTransmit p) := .inl rfl
theorem nakReceive (p : Fin 4) (seq : Fin 256) : Statement (.nakReceive p seq) := .inl rfl
theorem creditReceive (p : Fin 4) (c0 c1 c2 c3 : Fin 256) (ackv : Bool) (ackseq : Fin 256) : Statement (.creditReceive p c0 c1 c2 c3 ackv ackseq) := .inl rfl
theorem replayTimeout (p : Fin 4) : Statement (.replayTimeout p) := .inl rfl
theorem creditReturnTimer (p : Fin 4) : Statement (.creditReturnTimer p) := .inl rfl
theorem ackTimer (p : Fin 4) : Statement (.ackTimer p) := .inl rfl
theorem alignReceive (p : Fin 4) (lane : Fin 4) (x y : Fin 8) (port : Fin 4) (ready : Bool) : Statement (.alignReceive p lane x y port ready) := .inl rfl
theorem trainingComplete (p : Fin 4) : Statement (.trainingComplete p) := .inl rfl
theorem blockLockLoss (p : Fin 4) : Statement (.blockLockLoss p) := .inl rfl
theorem portEnable (v : View) (p : Fin 4) (en : Bool) : Statement (.portEnable v p en) := .inl rfl
theorem portRetrain (v : View) (p : Fin 4) : Statement (.portRetrain v p) := .inl rfl
theorem portLoopback (v : View) (p : Fin 4) (mode : Fin 8) : Statement (.portLoopback v p mode) := .inl rfl
theorem memWr (x y : Fin 16) (vc : Fin 4) (tag : Fin 256) : Statement (.memWr x y vc tag) := .inl rfl
theorem memAck (x y : Fin 16) (tag : Fin 256) (window : Bool) : Statement (.memAck x y tag window) := .inl rfl
theorem pinLoopbackWrite (v : View) (t : Fin 64) (w : Word) : Statement (.pinLoopbackWrite v t w) := .inl rfl
theorem heartbeat (v : View) (d : Fin 2) (w : Word) : Statement (.heartbeat v d w) := .inl rfl
theorem supervisorSilent (d : Fin 2) : Statement (.supervisorSilent d) := .inl rfl
theorem leadClaim (v : View) : Statement (.leadClaim v) := .inl rfl
theorem leadTakeover (v : View) : Statement (.leadTakeover v) := .inl rfl
theorem leadSet (v : View) (w : Word) : Statement (.leadSet v w) := .inl rfl
theorem supervisorRelease (v : View) (d : Fin 2) : Statement (.supervisorRelease v d) := .inl rfl
theorem supervisorRestart (v : View) (d : Fin 2) : Statement (.supervisorRestart v d) := .inl rfl
theorem ping (v : View) (d : Fin 2) (a0 a1 a2 : Word) : Statement (.ping v d a0 a1 a2) := .inl rfl
theorem version (v : View) (d : Fin 2) (a0 a1 a2 : Word) : Statement (.version v d a0 a1 a2) := .inl rfl
theorem ucodeLoad (v : View) (d : Fin 2) (a0 a1 a2 : Word) : Statement (.ucodeLoad v d a0 a1 a2) := .inl rfl
theorem calRun (v : View) (d : Fin 2) (a0 a1 a2 : Word) : Statement (.calRun v d a0 a1 a2) := .inl rfl
theorem svWearSave (v : View) (d : Fin 2) (a0 a1 a2 : Word) : Statement (.svWearSave v d a0 a1 a2) := .inl rfl
theorem svSeq (v : View) (d : Fin 2) (a0 a1 a2 : Word) : Statement (.svSeq v d a0 a1 a2) := .inl rfl
theorem selfcheck (v : View) (d : Fin 2) (a0 a1 a2 : Word) : Statement (.selfcheck v d a0 a1 a2) := .inl rfl
theorem svResponse (d : Fin 2) (status : BitVec 8) (value : BitVec 31) : Statement (.svResponse d status value) := .inl rfl
theorem mbxRead (d : Fin 2) : Statement (.mbxRead d) := .inl rfl
theorem evFire (v : View) (e : Fin 256) : Statement (.evFire v e) := .inl rfl
theorem eventArrival (e : Fin 256) (at_ : Nat) : Statement (.eventArrival e at_) := .inl rfl
theorem eventDeliver (e : Fin 256) : Statement (.eventDeliver e) := .inl rfl
theorem evChCfgWrite (v : View) (e : Fin 256) (w : Word) : Statement (.evChCfgWrite v e w) := .inl rfl
theorem errorLine (b : Fin 184) : Statement (.errorLine b) := .inl rfl
theorem faultReactReset : Statement (.faultReactReset) := .inl rfl
theorem fcStatRead : Statement (.fcStatRead) := .inl rfl
theorem faultInject (v : View) (w : Word) : Statement (.faultInject v w) := .inl rfl
theorem aliveKick (v : View) (key : BitVec 16) : Statement (.aliveKick v key) := .inl rfl
theorem aliveToggle : Statement (.aliveToggle) := .inl rfl
theorem aliveTimeout : Statement (.aliveTimeout) := .inl rfl
theorem mspTransaction (x : MspTrans) : Statement (.mspTransaction x) := .inr rfl
theorem mspMasterGo (v : View) (w : Word) : Statement (.mspMasterGo v w) := .inl rfl
theorem mspMasterDone (received : List Word) : Statement (.mspMasterDone received) := .inl rfl
theorem mspDataRead : Statement (.mspDataRead) := .inl rfl
theorem mspDataWrite (v : View) (w : Word) : Statement (.mspDataWrite v w) := .inl rfl
theorem nvProgram (v : View) (w : Word) : Statement (.nvProgram v w) := .inl rfl
theorem nvErase (v : View) (w : Word) : Statement (.nvErase v w) := .inl rfl
theorem nvOpDone (verified : Bool) : Statement (.nvOpDone verified) := .inl rfl
theorem nvDataAccess (v : View) (write : Bool) (w : Word) : Statement (.nvDataAccess v write w) := .inl rfl
theorem vbulkPowerUp (cpos : BitVec 6) : Statement (.vbulkPowerUp cpos) := .inl rfl
theorem powerStepDone : Statement (.powerStepDone) := .inl rfl
theorem powerStepStart : Statement (.powerStepStart) := .inl rfl
theorem pgTimeout : Statement (.pgTimeout) := .inl rfl
theorem pgFall (step : Fin 6) : Statement (.pgFall step) := .inl rfl
theorem powerDownStep : Statement (.powerDownStep) := .inl rfl
theorem pwrOn (v : View) (key : BitVec 16) : Statement (.pwrOn v key) := .inl rfl
theorem pwrOff (v : View) (key : BitVec 16) : Statement (.pwrOff v key) := .inl rfl
theorem pwrSleep (v : View) (key : BitVec 16) : Statement (.pwrSleep v key) := .inl rfl
theorem pwrWake (v : View) (key : BitVec 16) : Statement (.pwrWake v key) := .inl rfl
theorem rstNInput : Statement (.rstNInput) := .inl rfl
theorem chipResetRelease : Statement (.chipResetRelease) := .inl rfl
theorem regsReady (readings : List Int) (bad : Fin 16) (calBad : List (Fin 4)) : Statement (.regsReady readings bad calBad) := .inr rfl
theorem bootFlash (timeouts : Fin 4) (imageA imageB : List Byte) : Statement (.bootFlash timeouts imageA imageB) := .inl rfl
theorem bootHostGo (v : View) : Statement (.bootHostGo v) := .inl rfl
theorem clockLockLoss : Statement (.clockLockLoss) := .inl rfl
theorem rcFieldRead (v : View) (addr : Nat) : Statement (.rcFieldRead v addr) := .inr rfl
theorem bar2Read (addr : Nat) (len : Nat) : Statement (.bar2Read addr len) := .inr rfl
theorem pllLock : Statement (.pllLock) := .inl rfl
theorem lossOfVbulk : Statement (.lossOfVbulk) := .inl rfl
theorem leaveCurrentLimit (which : LimitUnit) : Statement (.leaveCurrentLimit which) := .inl rfl
theorem ppmuLimit (g : Fin 512) : Statement (.ppmuLimit g) := .inl rfl
theorem wearSaveDone (verified : Bool) : Statement (.wearSaveDone verified) := .inl rfl
theorem pcieLinkUp (speed : Fin 8) (width : Fin 16) : Statement (.pcieLinkUp speed width) := .inl rfl
theorem pcieLinkDown : Statement (.pcieLinkDown) := .inl rfl
theorem rstNRelease : Statement (.rstNRelease) := .inl rfl
theorem waveformTableFetch (t : Fin 64) (h : Fin 2) (line : Nat) : Statement (.waveformTableFetch t h line) := .inl rfl

end Sys2Proof.Laws.Ranged
end

