-- ==== Sys2Proof/Laws/Regs.lean ====
section
/-! SUPPORT. Registers and fields: what a read gives after a write. -/

namespace Sys2Proof.Machine

/-! ### Bit fields of a word -/

theorem testBit_bits (n hi lo i : Nat) : (bits n hi lo).testBit i = (decide (i < hi + 1 - lo) && n.testBit (lo + i)) := by
  simp [bits, Nat.testBit_mod_two_pow, Nat.testBit_shiftRight]

theorem bits_lt (n hi lo : Nat) : bits n hi lo < 2 ^ (hi + 1 - lo) := Nat.mod_lt _ (by positivity)

theorem testBit_insert32 (n hi lo v i : Nat) (hn : n < 2 ^ 32) (hhi : hi < 32) (hlo : lo ≤ hi) :
    (insert32 n hi lo v).testBit i = if lo ≤ i ∧ i ≤ hi then v.testBit (i - lo) else n.testBit i := by
  have hf : (0xFFFFFFFF : Nat) = 2 ^ 32 - 1 := by norm_num
  have hb : 32 ≤ i → n.testBit i = false := fun h =>
    Nat.testBit_lt_two_pow (lt_of_lt_of_le hn (Nat.pow_le_pow_right (by norm_num) h))
  unfold insert32
  rw [hf]
  simp only [Nat.testBit_or, Nat.testBit_and, Nat.testBit_xor, Nat.testBit_shiftLeft, Nat.testBit_two_pow_sub_one, Nat.testBit_mod_two_pow]
  by_cases h32 : i < 32
  · split_ifs with h
    · have e : i - lo < hi + 1 - lo := by omega
      simp [h32, h.1, e]
    · have e : ¬ (lo ≤ i ∧ i - lo < hi + 1 - lo) := by omega
      rcases Decidable.not_and_iff_not_or_not.1 e with e | e <;> simp [h32, e]
  · have h : ¬ (lo ≤ i ∧ i ≤ hi) := by omega
    have e : ¬ (i - lo < hi + 1 - lo) := by omega
    simp [h, e, hb (by omega)]

theorem insert32_lt (n hi lo v : Nat) (hn : n < 2 ^ 32) (hhi : hi < 32) (hlo : lo ≤ hi) : insert32 n hi lo v < 2 ^ 32 := by
  refine Nat.lt_pow_two_of_testBit _ fun i h => ?_
  rw [testBit_insert32 _ _ _ _ _ hn hhi hlo, if_neg (by omega)]
  exact Nat.testBit_lt_two_pow (lt_of_lt_of_le hn (Nat.pow_le_pow_right (by norm_num) h))

/-- The field just written reads as the value written, reduced to its width. -/
theorem bits_insert32_same (n hi lo v : Nat) (hn : n < 2 ^ 32) (hhi : hi < 32) (hlo : lo ≤ hi) :
    bits (insert32 n hi lo v) hi lo = v % 2 ^ (hi + 1 - lo) := by
  refine Nat.eq_of_testBit_eq fun i => ?_
  rw [testBit_bits, testBit_insert32 _ _ _ _ _ hn hhi hlo, Nat.testBit_mod_two_pow]
  by_cases h : i < hi + 1 - lo
  · rw [if_pos (by omega)]
    simp
  · simp [h]

/-- A field beside the one written keeps its value. -/
theorem bits_insert32_other (n hi lo v hi' lo' : Nat) (hn : n < 2 ^ 32) (hhi : hi < 32) (hlo : lo ≤ hi) (h : hi' < lo ∨ hi < lo') :
    bits (insert32 n hi lo v) hi' lo' = bits n hi' lo' := by
  refine Nat.eq_of_testBit_eq fun i => ?_
  rw [testBit_bits, testBit_bits, testBit_insert32 _ _ _ _ _ hn hhi hlo]
  by_cases hi0 : i < hi' + 1 - lo'
  · rw [if_neg (by omega)]
  · simp [hi0]

/-! ### Registers -/

namespace State

theorem reg_setReg (s : State) (a b : Nat) (v : Word) : (s.setReg a v).reg b = if b = a then v else s.reg b :=
  storeGet_storeSet s.regs a b v

@[simp] theorem reg_setReg_same (s : State) (a : Nat) (v : Word) : (s.setReg a v).reg a = v := by
  rw [reg_setReg, if_pos rfl]

theorem reg_setReg_other (s : State) {a b : Nat} (v : Word) (h : b ≠ a) : (s.setReg a v).reg b = s.reg b := by
  rw [reg_setReg, if_neg h]

/-! ### Fields -/

/-- A field lies in its 32-bit word. -/
theorem get_put_same (s : State) (f : Field) (v : Nat) (hf : f.lo ≤ f.hi) (h32 : f.hi < 32) : (s.put f v).get f = v % 2 ^ (f.hi + 1 - f.lo) := by
  have hn := (s.reg f.addr).isLt
  unfold State.get State.put
  rw [reg_setReg_same, BitVec.toNat_ofNat, Nat.mod_eq_of_lt (insert32_lt _ _ _ _ hn h32 hf), bits_insert32_same _ _ _ _ hn h32 hf]

/-- A field beside it in the same register keeps its value. -/
theorem get_put_beside (s : State) {f g : Field} (v : Nat) (hf : f.lo ≤ f.hi) (h32 : f.hi < 32) (ha : g.addr = f.addr)
    (h : g.hi < f.lo ∨ f.hi < g.lo) : (s.put f v).get g = s.get g := by
  have hn := (s.reg f.addr).isLt
  unfold State.get State.put
  rw [ha, reg_setReg_same, BitVec.toNat_ofNat, Nat.mod_eq_of_lt (insert32_lt _ _ _ _ hn h32 hf), bits_insert32_other _ _ _ _ _ _ hn h32 hf h]

theorem reg_put_other (s : State) (f : Field) (v : Nat) {b : Nat} (h : b ≠ f.addr) : (s.put f v).reg b = s.reg b := reg_setReg_other s _ h

theorem get_put_other (s : State) {f g : Field} (v : Nat) (h : g.addr ≠ f.addr) : (s.put f v).get g = s.get g := by
  unfold State.get
  rw [reg_put_other s f v h]

theorem reg_mark_other (s : State) (f : Field) {b : Nat} (h : b ≠ f.addr) : (s.mark f).reg b = s.reg b := reg_put_other s f 1 h
theorem reg_bumpBy_other (s : State) (f : Field) (n : Nat) {b : Nat} (h : b ≠ f.addr) : (s.bumpBy f n).reg b = s.reg b := reg_put_other s f _ h
theorem reg_bump_other (s : State) (f : Field) {b : Nat} (h : b ≠ f.addr) : (s.bump f).reg b = s.reg b := reg_put_other s f _ h
theorem reg_wrapUp_other (s : State) (f : Field) {b : Nat} (h : b ≠ f.addr) : (s.wrapUp f).reg b = s.reg b := reg_put_other s f _ h
theorem reg_putBit_other (s : State) (f : Field) (i : Nat) (v : Bool) {b : Nat} (h : b ≠ f.addr) : (s.putBit f i v).reg b = s.reg b :=
  reg_put_other s f _ h

/-- A flag just marked reads as set. -/
theorem on_mark (s : State) (f : Field) (hf : f.lo ≤ f.hi) (h32 : f.hi < 32) : (s.mark f).on f = true := by
  have h1 : 1 < 2 ^ (f.hi + 1 - f.lo) := Nat.one_lt_two_pow (by omega)
  unfold State.on State.mark
  rw [get_put_same s f 1 hf h32, Nat.mod_eq_of_lt h1]
  rfl

/-- A register forgotten reads as its reset word; the others are kept (R8). -/
theorem reg_clearRegs (s : State) (p : Nat → Bool) (a : Nat) : (s.clearRegs p).reg a = if p a then resetWord a else s.reg a := by
  unfold State.reg State.clearRegs
  rw [storeGet_storeKeep]
  cases p a <;> rfl

/-! ### The clock -/

/-- Time never goes back, and reaches the tick asked for. -/
@[simp] theorem ticks_advTo (s : State) (tick : Nat) : (s.advTo tick).ticks = max s.ticks tick := by
  unfold State.advTo
  split
  · next h => exact (Nat.max_eq_right h.le).symm
  · next h => exact (Nat.max_eq_left (Nat.le_of_not_lt h)).symm

@[simp] theorem reg_advTo (s : State) (tick a : Nat) : (s.advTo tick).reg a = s.reg a := by
  unfold State.advTo
  split <;> rfl

@[simp] theorem byteAt_advTo (s : State) (tick a : Nat) : (s.advTo tick).byteAt a = s.byteAt a := by
  unfold State.advTo
  split <;> rfl

end State

end Sys2Proof.Machine
end

