-- ==== Sys2Proof/Laws/Repair.lean ====
section
/-! SUPPORT. The CRC-32 of R383 is a 32-bit number. -/

namespace Sys2Proof.Machine

theorem crc32Step_lt (c : Nat) (b : Bool) : crc32Step c b < 2 ^ 32 := by
  unfold crc32Step
  split
  · exact Nat.xor_lt_two_pow (Nat.mod_lt _ (by decide)) (by decide)
  · exact Nat.mod_lt _ (by decide)

theorem crc32Byte_lt (c b : Nat) : crc32Byte c b < 2 ^ 32 := by
  simpa [crc32Byte, List.range_succ] using crc32Step_lt _ _

theorem crc32_lt (l : List Nat) (c : Nat) (h : c < 2 ^ 32) : crc32 c l < 2 ^ 32 := by
  induction l generalizing c with
  | nil => exact h
  | cons b r ih => exact ih _ (crc32Byte_lt c b)

theorem crc32_toNat (l : List Nat) (c : Nat) (h : c < 2 ^ 32) : (BitVec.ofNat 32 (crc32 c l)).toNat = crc32 c l := by
  rw [BitVec.toNat_ofNat, Nat.mod_eq_of_lt (crc32_lt l c h)]

end Sys2Proof.Machine
end

