-- ==== Sys2Proof/Laws/Route.lean ====
section
/-! SUPPORT. Where a write of register space goes: the block an address falls in, its unit, the register's own rules. -/

namespace Sys2Proof.Machine

/-! ### Addresses of a block -/

theorem kindOf_tiller {t o : Nat} (ht : t < 64) (ho : o < 0x800) : kindOf (tlBase t + o) = 0x40000 + o := by
  unfold kindOf tlBase
  rw [if_neg (by omega), if_neg (by omega), if_neg (by omega), if_pos (by omega), if_pos (by omega)]
  omega

theorem unitOf_tiller {t o : Nat} (ht : t < 64) (ho : o < 0x800) : unitOf (tlBase t + o) = t := by
  unfold unitOf tlBase
  rw [if_neg (by omega), if_neg (by omega), if_neg (by omega), if_pos (by omega), if_pos (by omega)]
  omega

theorem regAt_tiller {t o : Nat} (ht : t < 64) (ho : o < 0x800) : regAt (tlBase t + o) = tillerRegs.find? (fun d => d.has o) := by
  have e : blockOf (tlBase t + o) = (tillerRegs, o) := by
    unfold blockOf tlBase
    rw [if_neg (by omega), if_neg (by omega), if_neg (by omega), if_neg (by omega), if_pos (by omega), if_pos (by omega)]
    exact congrArg _ (by omega)
  rw [regAt, e]

theorem kindOf_pin {g o : Nat} (hg : g < 512) (ho : o < 0x100) : kindOf (pnBase g + o) = 0x40800 + o := by
  unfold kindOf pnBase
  rw [if_neg (by omega), if_neg (by omega), if_neg (by omega), if_pos (by omega), if_neg (by omega)]
  omega

theorem unitOf_pin {g o : Nat} (hg : g < 512) (ho : o < 0x100) : unitOf (pnBase g + o) = g := by
  unfold unitOf pnBase
  rw [if_neg (by omega), if_neg (by omega), if_neg (by omega), if_pos (by omega), if_neg (by omega)]
  omega

theorem regAt_pin {g o : Nat} (hg : g < 512) (ho : o < 0x100) : regAt (pnBase g + o) = pinRegs.find? (fun d => d.has o) := by
  have e : blockOf (pnBase g + o) = (pinRegs, o) := by
    unfold blockOf pnBase
    rw [if_neg (by omega), if_neg (by omega), if_neg (by omega), if_neg (by omega), if_pos (by omega), if_neg (by omega)]
    exact congrArg _ (by omega)
  rw [regAt, e]

theorem kindOf_strip {r o : Nat} (hr : r < 8) (ho : o < 0x2000) : kindOf (stBase r + o) = 0x10000 + o := by
  unfold kindOf stBase
  rw [if_neg (by omega), if_pos (by omega)]
  omega

theorem unitOf_strip {r o : Nat} (hr : r < 8) (ho : o < 0x2000) : unitOf (stBase r + o) = r := by
  unfold unitOf stBase
  rw [if_neg (by omega), if_pos (by omega)]
  omega

theorem regAt_strip {r o : Nat} (hr : r < 8) (ho : o < 0x2000) : regAt (stBase r + o) = stripRegs.find? (fun d => d.has o) := by
  have e : blockOf (stBase r + o) = (stripRegs, o) := by
    unfold blockOf stBase
    rw [if_neg (by omega), if_pos (by omega)]
    exact congrArg _ (by omega)
  rw [regAt, e]

theorem kindOf_thresher {i o : Nat} (hi : i < 32) (ho : o < 0x400) : kindOf (thBase i + o) = 0x20000 + o := by
  unfold kindOf thBase
  rw [if_neg (by omega), if_neg (by omega), if_pos (by omega), if_pos (by omega)]
  omega

theorem unitOf_thresher {i o : Nat} (hi : i < 32) (ho : o < 0x400) : unitOf (thBase i + o) = i := by
  unfold unitOf thBase
  rw [if_neg (by omega), if_neg (by omega), if_pos (by omega), if_pos (by omega)]
  omega

theorem regAt_thresher {i o : Nat} (hi : i < 32) (ho : o < 0x400) : regAt (thBase i + o) = thresherRegs.find? (fun d => d.has o) := by
  have e : blockOf (thBase i + o) = (thresherRegs, o) := by
    unfold blockOf thBase
    rw [if_neg (by omega), if_neg (by omega), if_pos (by omega), if_pos (by omega)]
    exact congrArg _ (by omega)
  rw [regAt, e]

theorem kindOf_sheaf {u o : Nat} (hu : u < 16) (h1 : 0x800 ≤ o) (h2 : o < 0x1000) : kindOf (shBase u + o) = 0x20000 + o := by
  unfold kindOf shBase
  rw [if_neg (by omega), if_neg (by omega), if_pos (by omega), if_neg (by omega)]
  omega

theorem unitOf_sheaf {u o : Nat} (hu : u < 16) (h1 : 0x800 ≤ o) (h2 : o < 0x1000) : unitOf (shBase u + o) = u := by
  unfold unitOf shBase
  rw [if_neg (by omega), if_neg (by omega), if_pos (by omega), if_neg (by omega)]
  omega

theorem regAt_sheaf {u o : Nat} (hu : u < 16) (h1 : 0x800 ≤ o) (h2 : o < 0x1000) : regAt (shBase u + o) = sheafRegs.find? (fun d => d.has o) := by
  have e : blockOf (shBase u + o) = (sheafRegs, o) := by
    unfold blockOf shBase
    rw [if_neg (by omega), if_neg (by omega), if_pos (by omega), if_neg (by omega)]
    exact congrArg _ (by omega)
  rw [regAt, e]

theorem regAt_global {o : Nat} (ho : o < 0x10000) : regAt o = globalRegs.find? (fun d => d.has o) := by
  rw [regAt, blockOf, if_pos ho]

theorem regAt_link {o : Nat} (ho : o < 0x10000) : regAt (0x80000 + o) = linkRegs.find? (fun d => d.has o) := by
  have e : blockOf (0x80000 + o) = (linkRegs, o) := by
    unfold blockOf
    rw [if_neg (by omega), if_neg (by omega), if_neg (by omega), if_neg (by omega), if_neg (by omega), if_pos (by omega)]
    exact congrArg _ (by omega)
  rw [regAt, e]

/-! ### Writes -/

namespace State

/-- A part that is ready answers at every address. -/
theorem reachable_of_ready {s : State} (h : s.ready = true) (a : Nat) : s.reachable a = true := by
  simp only [State.ready, Bool.and_eq_true] at h
  simp [State.reachable, h.1, h.2]

/-- A register is written under its own rules. -/
theorem regWriteWith_direct (s : State) (v : View) (a w : Nat) (load : Option Nat) (hr : s.reachable a = true) (h4 : a % 4 = 0)
    (ht : isTable a = false) (hm : isMsix a = false) (hd : (regAt a).isSome = true) (hv : directView v = true) :
    s.regWriteWith v a w load = s.writeOwn v a w load := by
  simp only [directView, Bool.and_eq_true, Bool.not_eq_true', Option.isNone_iff_eq_none] at hv
  obtain ⟨d, hd⟩ := Option.isSome_iff_exists.1 hd
  simp [State.regWriteWith, hr, h4, ht, hm, hd, hv.1, hv.2]

theorem writeOwn_tiller (s : State) (v : View) {t o : Nat} (ht : t < 64) (ho : o < 0x800) (w : Nat) (load : Option Nat) :
    s.writeOwn v (tlBase t + o) w load = s.writeTiller t (tlBase t + o) w load := by
  have e := unitOf_tiller ht ho
  unfold State.writeOwn
  rw [e]
  unfold tlBase
  rw [if_neg (by omega), if_neg (by omega), if_neg (by omega), if_pos (by omega), if_pos (by omega)]

theorem writeOwn_pin (s : State) (v : View) {g o : Nat} (hg : g < 512) (ho : o < 0x100) (w : Nat) (load : Option Nat) :
    s.writeOwn v (pnBase g + o) w load = s.writePin g (pnBase g + o) w := by
  have e := unitOf_pin hg ho
  unfold State.writeOwn
  rw [e]
  unfold pnBase
  rw [if_neg (by omega), if_neg (by omega), if_neg (by omega), if_pos (by omega), if_neg (by omega)]

theorem writeOwn_strip (s : State) (v : View) {r o : Nat} (hr : r < 8) (ho : o < 0x2000) (w : Nat) (load : Option Nat) :
    s.writeOwn v (stBase r + o) w load = s.writeStrip r (stBase r + o) w := by
  have e := unitOf_strip hr ho
  unfold State.writeOwn
  rw [e]
  unfold stBase
  rw [if_neg (by omega), if_pos (by omega)]

theorem writeOwn_thresher (s : State) (v : View) {i o : Nat} (hi : i < 32) (ho : o < 0x400) (w : Nat) (load : Option Nat) :
    s.writeOwn v (thBase i + o) w load = s.writeThresher i (thBase i + o) w := by
  have e := unitOf_thresher hi ho
  unfold State.writeOwn
  rw [e]
  unfold thBase
  rw [if_neg (by omega), if_neg (by omega), if_pos (by omega), if_pos (by omega)]

theorem writeOwn_sheaf (s : State) (v : View) {u o : Nat} (hu : u < 16) (h1 : 0x800 ≤ o) (h2 : o < 0x1000) (w : Nat) (load : Option Nat) :
    s.writeOwn v (shBase u + o) w load = s.writeSheaf v u (shBase u + o) w := by
  have e := unitOf_sheaf hu h1 h2
  unfold State.writeOwn
  rw [e]
  unfold shBase
  rw [if_neg (by omega), if_neg (by omega), if_pos (by omega), if_neg (by omega)]

theorem writeOwn_global (s : State) (v : View) {a : Nat} (ha : a < 0x10000) (w : Nat) (load : Option Nat) :
    s.writeOwn v a w load = s.writeGlobal v a w := by
  rw [State.writeOwn, if_pos ha]

theorem writeOwn_link (s : State) (v : View) {a : Nat} (ha : 0x80000 ≤ a) (w : Nat) (load : Option Nat) :
    s.writeOwn v a w load = s.writeLink v a w := by
  unfold State.writeOwn
  rw [if_neg (by omega), if_neg (by omega), if_neg (by omega), if_neg (by omega)]

end State

end Sys2Proof.Machine
end

