-- ==== Sys2Proof/Laws/Steady.lean ====
section
/-! SUPPORT. What no operation of the part does to a state: touch the command queue, turn the clock or the counter of free values
back, take back a message sent to the host or on a link, leave the canonical form. Here the relation and the elementary updates. -/

namespace Sys2Proof.Machine

/-- What every operation keeps between the state before it and the state after it. -/
structure Steady (s t : State) : Prop where
  pending : t.pending = s.pending
  ticks : s.ticks ≤ t.ticks
  draws : s.draws ≤ t.draws
  host : s.hostOut <+: t.hostOut
  link : s.linkOut <+: t.linkOut
  canon : s.canonical = true → t.canonical = true

/-- The stores of a state, every other field blanked. -/
def State.core (s : State) : State :=
  { s with uncorr := [], single := [], count := 0, sync := Sync.reset, slots := [], holds := [], wires := [], firings := [], lines := [], meshOut := [], rdData := 0, rdPoison := false, resetEnd := 0, monitor := Monitor.reset, meshIn := [], assembly := [], collector := Collector.reset, nvm := { Nvm.reset with saved := s.nvm.saved, saving := s.nvm.saving }, msp := Msp.reset, power := Power.reset, resets := Resets.reset, hostConfig := HostConfig.reset }

namespace Steady

variable {a s t : State}

theorem refl (s : State) : Steady s s := ⟨rfl, le_rfl, le_rfl, List.prefix_rfl, List.prefix_rfl, id⟩

theorem trans {u : State} (h : Steady s t) (k : Steady t u) : Steady s u :=
  ⟨k.pending.trans h.pending, h.ticks.trans k.ticks, h.draws.trans k.draws, h.host.trans k.host, h.link.trans k.link, k.canon ∘ h.canon⟩

/-- An update outside the stores. -/
theorem raw (h : Steady a s) (e : t.core = s.core) : Steady a t := by
  have hp : t.pending = s.pending := by have := congrArg State.pending e; exact this
  have ht : t.ticks = s.ticks := by have := congrArg State.ticks e; exact this
  have hd : t.draws = s.draws := by have := congrArg State.draws e; exact this
  have hh : t.hostOut = s.hostOut := by have := congrArg State.hostOut e; exact this
  have hl : t.linkOut = s.linkOut := by have := congrArg State.linkOut e; exact this
  have hc : t.canonical = s.canonical := by have := congrArg State.canonical e; exact this
  exact ⟨hp ▸ h.pending, ht ▸ h.ticks, hd ▸ h.draws, hh ▸ h.host, hl ▸ h.link, hc ▸ h.canon⟩

/-- The same, in the shape in which an operation writes it. -/
theorem update {uncorr' : List Nat} {single' : List Nat} {count' : BitVec 48} {sync' : Sync} {slots' : List Slot} {holds' : List Hold} {wires' : List (Nat × Nat)} {firings' : List Nat} {lines' : List Nat} {meshOut' : List MeshMsg} {rdData' : Nat} {rdPoison' : Bool} {resetEnd' : Nat} {monitor' : Monitor} {meshIn' : List MeshMsg} {assembly' : List Assembly} {collector' : Collector} {msp' : Msp} {power' : Power} {resets' : Resets} {hostConfig' : HostConfig} {nvm' : Nvm}
    (h : Steady a s) (e1 : nvm'.saved = s.nvm.saved) (e2 : nvm'.saving = s.nvm.saving) :
    Steady a { s with uncorr := uncorr', single := single', count := count', sync := sync', slots := slots', holds := holds', wires := wires', firings := firings', lines := lines', meshOut := meshOut', rdData := rdData', rdPoison := rdPoison', resetEnd := resetEnd', monitor := monitor', meshIn := meshIn', assembly := assembly', collector := collector', msp := msp', power := power', resets := resets', hostConfig := hostConfig', nvm := nvm' } :=
  h.raw (by simp [State.core, e1, e2])

/-! One entry of a store that an operation writes in place. -/

theorem wearAt (h : Steady a s) (k : Nat) (v : Nat) : Steady a { s with wear := storeSet (fun _ => 0) s.wear k v } := by
  refine h.trans ⟨rfl, le_rfl, le_rfl, List.prefix_rfl, List.prefix_rfl, fun c => ?_⟩
  simp only [State.canonical, Bool.and_eq_true] at c ⊢
  have e := storeSet_wf (l := s.wear) (by tauto) k v
  tauto

theorem lastAdmitAt (h : Steady a s) (k : Nat) (v : Option Nat) : Steady a { s with lastAdmit := storeSet (fun _ => none) s.lastAdmit k v } := by
  refine h.trans ⟨rfl, le_rfl, le_rfl, List.prefix_rfl, List.prefix_rfl, fun c => ?_⟩
  simp only [State.canonical, Bool.and_eq_true] at c ⊢
  have e := storeSet_wf (l := s.lastAdmit) (by tauto) k v
  tauto

theorem epochsAt (h : Steady a s) (k : Nat) (v : Nat) : Steady a { s with epochs := storeSet (fun _ => 0) s.epochs k v } := by
  refine h.trans ⟨rfl, le_rfl, le_rfl, List.prefix_rfl, List.prefix_rfl, fun c => ?_⟩
  simp only [State.canonical, Bool.and_eq_true] at c ⊢
  have e := storeSet_wf (l := s.epochs) (by tauto) k v
  tauto

theorem latchesAt (h : Steady a s) (k : Nat) (v : Option (Nat × Nat)) : Steady a { s with latches := storeSet (fun _ => none) s.latches k v } := by
  refine h.trans ⟨rfl, le_rfl, le_rfl, List.prefix_rfl, List.prefix_rfl, fun c => ?_⟩
  simp only [State.canonical, Bool.and_eq_true] at c ⊢
  have e := storeSet_wf (l := s.latches) (by tauto) k v
  tauto

theorem banksAt (h : Steady a s) (k : Nat) (v : Word) : Steady a { s with banks := storeSet (fun _ => BitVec.ofNat 32 Config.factoryBank) s.banks k v } := by
  refine h.trans ⟨rfl, le_rfl, le_rfl, List.prefix_rfl, List.prefix_rfl, fun c => ?_⟩
  simp only [State.canonical, Bool.and_eq_true] at c ⊢
  have e := storeSet_wf (l := s.banks) (by tauto) k v
  tauto

/-- Memory forgotten outside what is kept. -/
theorem memKept (h : Steady a s) (p : Nat → Bool) : Steady a { s with mem := storeKeep p s.mem } := by
  refine h.trans ⟨rfl, le_rfl, le_rfl, List.prefix_rfl, List.prefix_rfl, fun c => ?_⟩
  simp only [State.canonical, Bool.and_eq_true] at c ⊢
  have e : Memory.wf (storeKeep p s.mem) = true := storeKeep_wf (by tauto) p
  tauto

/-- Free values drawn. -/
theorem drawn {n : Nat} (h : Steady a s) (e : s.draws ≤ n) : Steady a { s with draws := n } :=
  h.trans ⟨rfl, le_rfl, e, List.prefix_rfl, List.prefix_rfl, id⟩

/-- Messages sent. -/
theorem sentHost (h : Steady a s) (l : List HostMsg) : Steady a { s with hostOut := s.hostOut ++ l } :=
  h.trans ⟨rfl, le_rfl, le_rfl, List.prefix_append _ _, List.prefix_rfl, id⟩

theorem sentLink (h : Steady a s) (l : List LinkOut) : Steady a { s with linkOut := s.linkOut ++ l } :=
  h.trans ⟨rfl, le_rfl, le_rfl, List.prefix_rfl, List.prefix_append _ _, id⟩

theorem ite {p : Prop} [Decidable p] {x y : State} (hx : Steady a x) (hy : Steady a y) : Steady a (if p then x else y) := by
  split <;> assumption

theorem ite_fst {β : Type} {p : Prop} [Decidable p] {x y : State × β} (hx : Steady a x.1) (hy : Steady a y.1) :
    Steady a (if p then x else y).1 := by
  split <;> assumption

theorem foldl {β : Type} {f : State → β → State} (h : Steady a s) (l : List β) (hf : ∀ s x, Steady s (f s x)) : Steady a (l.foldl f s) := by
  induction l generalizing s with
  | nil => exact h
  | cons x r ih => exact ih (h.trans (hf s x))

theorem foldl_fst {β γ : Type} {f : State × γ → β → State × γ} {p : State × γ} (h : Steady a p.1) (l : List β)
    (hf : ∀ p x, Steady p.1 (f p x).1) : Steady a (l.foldl f p).1 := by
  induction l generalizing p with
  | nil => exact h
  | cons x r ih => exact ih (h.trans (hf p x))

/-- The state of a pair whose value is known. -/
theorem of_pair {β : Type} {p : State × β} {v : β} (e : p = (t, v)) (h : Steady a p.1) : Steady a t := by
  subst e
  exact h

end Steady

/-- Memory at reset is in its canonical form. -/
theorem reset_memory_wf : Memory.wf State.reset.mem = true := rfl

end Sys2Proof.Machine
end

