-- ==== Sys2Proof/Laws/SteadyOps.lean ====
section
/-! SUPPORT. The operations of Machine/Ops.lean are steady. -/

namespace Sys2Proof.Machine

theorem Steady.setReg {zs s : State} (hs : Steady zs s) (a : Nat) (v : Word) : Steady zs (s.setReg a v) := by
  refine hs.trans ⟨rfl, le_rfl, le_rfl, List.prefix_rfl, List.prefix_rfl, fun c => ?_⟩
  simp only [State.canonical, Bool.and_eq_true] at c ⊢
  simp [State.setReg, c, storeSet_wf]

theorem Steady.put {zs s : State} (hs : Steady zs s) (f : Field) (v : Nat) : Steady zs (s.put f v) := by
  unfold State.put
  repeat' (first
    | with_reducible assumption
    | with_reducible exact Steady.refl _
    | with_reducible refine Steady.setReg ?_ _ _)

theorem Steady.mark {zs s : State} (hs : Steady zs s) (f : Field) : Steady zs (s.mark f) := by
  unfold State.mark
  repeat' (first
    | with_reducible assumption
    | with_reducible exact Steady.refl _
    | with_reducible refine Steady.put ?_ _ _)

theorem Steady.bumpBy {zs s : State} (hs : Steady zs s) (f : Field) (n : Nat) : Steady zs (s.bumpBy f n) := by
  unfold State.bumpBy
  repeat' (first
    | with_reducible assumption
    | with_reducible exact Steady.refl _
    | with_reducible refine Steady.put ?_ _ _)

theorem Steady.bump {zs s : State} (hs : Steady zs s) (f : Field) : Steady zs (s.bump f) := by
  unfold State.bump
  repeat' (first
    | with_reducible assumption
    | with_reducible exact Steady.refl _
    | with_reducible refine Steady.bumpBy ?_ _ _)

theorem Steady.wrapUp {zs s : State} (hs : Steady zs s) (f : Field) : Steady zs (s.wrapUp f) := by
  unfold State.wrapUp
  repeat' (first
    | with_reducible assumption
    | with_reducible exact Steady.refl _
    | with_reducible refine Steady.put ?_ _ _)

theorem Steady.putBit {zs s : State} (hs : Steady zs s) (f : Field) (i : Nat) (b : Bool) : Steady zs (s.putBit f i b) := by
  unfold State.putBit
  repeat' (first
    | with_reducible assumption
    | with_reducible exact Steady.refl _
    | with_reducible refine Steady.ite ?_ ?_
    | with_reducible refine Steady.put ?_ _ _)

theorem Steady.put48 {zs s : State} (hs : Steady zs s) (lo hi : Nat) (v : Nat) : Steady zs (s.put48 lo hi v) := by
  unfold State.put48
  repeat' (first
    | with_reducible assumption
    | with_reducible exact Steady.refl _
    | with_reducible refine Steady.setReg ?_ _ _)

theorem Steady.loadSafe {zs s : State} (hs : Steady zs s) (l : List Nat) : Steady zs (s.loadSafe l) := by
  unfold State.loadSafe
  repeat' (first
    | with_reducible assumption
    | with_reducible exact Steady.refl _
    | with_reducible refine Steady.ite ?_ ?_
    | with_reducible refine Steady.foldl ?_ _ ?_
    | with_reducible refine Steady.foldl_fst ?_ _ ?_
    | with_reducible refine Steady.setReg ?_ _ _
    | intro _
    | dsimp only
    | split)

theorem Steady.clearRegs {zs s : State} (hs : Steady zs s) (p : Nat → Bool) : Steady zs (s.clearRegs p) := by
  refine hs.trans ⟨rfl, le_rfl, le_rfl, List.prefix_rfl, List.prefix_rfl, fun c => ?_⟩
  simp only [State.canonical, Bool.and_eq_true] at c ⊢
  simp [State.clearRegs, c, storeKeep_wf]

theorem Steady.setTl {zs s : State} (hs : Steady zs s) (t : Nat) (x : Tiller) : Steady zs (s.setTl t x) := by
  refine hs.trans ⟨rfl, le_rfl, le_rfl, List.prefix_rfl, List.prefix_rfl, fun c => ?_⟩
  simp only [State.canonical, Bool.and_eq_true] at c ⊢
  simp [State.setTl, c, storeSet_wf]

theorem Steady.modTl {zs s : State} (hs : Steady zs s) (t : Nat) (f : Tiller → Tiller) : Steady zs (s.modTl t f) := hs.setTl _ _

theorem Steady.setCmp {zs s : State} (hs : Steady zs s) (t : Nat) (x : Compare) : Steady zs (s.setCmp t x) := by
  refine hs.trans ⟨rfl, le_rfl, le_rfl, List.prefix_rfl, List.prefix_rfl, fun c => ?_⟩
  simp only [State.canonical, Bool.and_eq_true] at c ⊢
  simp [State.setCmp, c, storeSet_wf]

theorem Steady.setFq {zs s : State} (hs : Steady zs s) (t : Nat) (x : FailFifo) : Steady zs (s.setFq t x) := by
  refine hs.trans ⟨rfl, le_rfl, le_rfl, List.prefix_rfl, List.prefix_rfl, fun c => ?_⟩
  simp only [State.canonical, Bool.and_eq_true] at c ⊢
  simp [State.setFq, c, storeSet_wf]

theorem Steady.setCap {zs s : State} (hs : Steady zs s) (t : Nat) (x : Capture) : Steady zs (s.setCap t x) := by
  refine hs.trans ⟨rfl, le_rfl, le_rfl, List.prefix_rfl, List.prefix_rfl, fun c => ?_⟩
  simp only [State.canonical, Bool.and_eq_true] at c ⊢
  simp [State.setCap, c, storeSet_wf]

theorem Steady.setLvl {zs s : State} (hs : Steady zs s) (t : Nat) (x : Levels) : Steady zs (s.setLvl t x) := by
  refine hs.trans ⟨rfl, le_rfl, le_rfl, List.prefix_rfl, List.prefix_rfl, fun c => ?_⟩
  simp only [State.canonical, Bool.and_eq_true] at c ⊢
  simp [State.setLvl, c, storeSet_wf]

theorem Steady.setStrm {zs s : State} (hs : Steady zs s) (t : Nat) (x : Stream) : Steady zs (s.setStrm t x) := by
  refine hs.trans ⟨rfl, le_rfl, le_rfl, List.prefix_rfl, List.prefix_rfl, fun c => ?_⟩
  simp only [State.canonical, Bool.and_eq_true] at c ⊢
  simp [State.setStrm, c, storeSet_wf]

theorem Steady.setPin {zs s : State} (hs : Steady zs s) (g : Nat) (x : Pin) : Steady zs (s.setPin g x) := by
  refine hs.trans ⟨rfl, le_rfl, le_rfl, List.prefix_rfl, List.prefix_rfl, fun c => ?_⟩
  simp only [State.canonical, Bool.and_eq_true] at c ⊢
  simp [State.setPin, c, storeSet_wf]

theorem Steady.setSup {zs s : State} (hs : Steady zs s) (t h : Nat) (x : Supply) : Steady zs (s.setSup t h x) := by
  refine hs.trans ⟨rfl, le_rfl, le_rfl, List.prefix_rfl, List.prefix_rfl, fun c => ?_⟩
  simp only [State.canonical, Bool.and_eq_true] at c ⊢
  simp [State.setSup, c, storeSet_wf]

theorem Steady.setRdv {zs s : State} (hs : Steady zs s) (k : Nat) (x : Rdv) : Steady zs (s.setRdv k x) := by
  refine hs.trans ⟨rfl, le_rfl, le_rfl, List.prefix_rfl, List.prefix_rfl, fun c => ?_⟩
  simp only [State.canonical, Bool.and_eq_true] at c ⊢
  simp [State.setRdv, c, storeSet_wf]

theorem Steady.setCalTl {zs s : State} (hs : Steady zs s) (t : Nat) (x : CalTiller) : Steady zs (s.setCalTl t x) := by
  refine hs.trans ⟨rfl, le_rfl, le_rfl, List.prefix_rfl, List.prefix_rfl, fun c => ?_⟩
  simp only [State.canonical, Bool.and_eq_true] at c ⊢
  simp [State.setCalTl, c, storeSet_wf]

theorem Steady.setAdc {zs s : State} (hs : Steady zs s) (t : Nat) (x : Adc) : Steady zs (s.setAdc t x) := by
  refine hs.trans ⟨rfl, le_rfl, le_rfl, List.prefix_rfl, List.prefix_rfl, fun c => ?_⟩
  simp only [State.canonical, Bool.and_eq_true] at c ⊢
  simp [State.setAdc, c, storeSet_wf]

theorem Steady.setTdc {zs s : State} (hs : Steady zs s) (t : Nat) (x : Tdc) : Steady zs (s.setTdc t x) := by
  refine hs.trans ⟨rfl, le_rfl, le_rfl, List.prefix_rfl, List.prefix_rfl, fun c => ?_⟩
  simp only [State.canonical, Bool.and_eq_true] at c ⊢
  simp [State.setTdc, c, storeSet_wf]

theorem Steady.setStrip {zs s : State} (hs : Steady zs s) (r : Nat) (x : Strip) : Steady zs (s.setStrip r x) := by
  refine hs.trans ⟨rfl, le_rfl, le_rfl, List.prefix_rfl, List.prefix_rfl, fun c => ?_⟩
  simp only [State.canonical, Bool.and_eq_true] at c ⊢
  simp [State.setStrip, c, storeSet_wf]

theorem Steady.setThr {zs s : State} (hs : Steady zs s) (i : Nat) (x : Thresher) : Steady zs (s.setThr i x) := by
  refine hs.trans ⟨rfl, le_rfl, le_rfl, List.prefix_rfl, List.prefix_rfl, fun c => ?_⟩
  simp only [State.canonical, Bool.and_eq_true] at c ⊢
  simp [State.setThr, c, storeSet_wf]

theorem Steady.setSheaf {zs s : State} (hs : Steady zs s) (u : Nat) (x : Sheaf) : Steady zs (s.setSheaf u x) := by
  refine hs.trans ⟨rfl, le_rfl, le_rfl, List.prefix_rfl, List.prefix_rfl, fun c => ?_⟩
  simp only [State.canonical, Bool.and_eq_true] at c ⊢
  simp [State.setSheaf, c, storeSet_wf]

theorem Steady.setRoute {zs s : State} (hs : Steady zs s) (t : Nat) (x : Route) : Steady zs (s.setRoute t x) := by
  refine hs.trans ⟨rfl, le_rfl, le_rfl, List.prefix_rfl, List.prefix_rfl, fun c => ?_⟩
  simp only [State.canonical, Bool.and_eq_true] at c ⊢
  simp [State.setRoute, c, storeSet_wf]

theorem Steady.setHmq {zs s : State} (hs : Steady zs s) (q : Nat) (x : Hmq) : Steady zs (s.setHmq q x) := by
  refine hs.trans ⟨rfl, le_rfl, le_rfl, List.prefix_rfl, List.prefix_rfl, fun c => ?_⟩
  simp only [State.canonical, Bool.and_eq_true] at c ⊢
  simp [State.setHmq, c, storeSet_wf]

theorem Steady.setDma {zs s : State} (hs : Steady zs s) (c : Nat) (x : Dma) : Steady zs (s.setDma c x) := by
  refine hs.trans ⟨rfl, le_rfl, le_rfl, List.prefix_rfl, List.prefix_rfl, fun c => ?_⟩
  simp only [State.canonical, Bool.and_eq_true] at c ⊢
  simp [State.setDma, c, storeSet_wf]

theorem Steady.setPort {zs s : State} (hs : Steady zs s) (p : Nat) (x : Port) : Steady zs (s.setPort p x) := by
  refine hs.trans ⟨rfl, le_rfl, le_rfl, List.prefix_rfl, List.prefix_rfl, fun c => ?_⟩
  simp only [State.canonical, Bool.and_eq_true] at c ⊢
  simp [State.setPort, c, storeSet_wf]

theorem Steady.setChan {zs s : State} (hs : Steady zs s) (e : Nat) (x : Chan) : Steady zs (s.setChan e x) := by
  refine hs.trans ⟨rfl, le_rfl, le_rfl, List.prefix_rfl, List.prefix_rfl, fun c => ?_⟩
  simp only [State.canonical, Bool.and_eq_true] at c ⊢
  simp [State.setChan, c, storeSet_wf]

theorem Steady.setSv {zs s : State} (hs : Steady zs s) (d : Nat) (x : Supervisor) : Steady zs (s.setSv d x) := by
  refine hs.trans ⟨rfl, le_rfl, le_rfl, List.prefix_rfl, List.prefix_rfl, fun c => ?_⟩
  simp only [State.canonical, Bool.and_eq_true] at c ⊢
  simp [State.setSv, c, storeSet_wf]

theorem Steady.advTo {zs s : State} (hs : Steady zs s) (tick : Nat) : Steady zs (s.advTo tick) := by
  unfold State.advTo
  split
  · exact hs.trans ⟨rfl, by simp only; omega, le_rfl, List.prefix_rfl, List.prefix_rfl, id⟩
  · exact hs

theorem Steady.advInst {zs s : State} (hs : Steady zs s) (inst : Nat) : Steady zs (s.advInst inst) := by
  unfold State.advInst
  repeat' (first
    | with_reducible assumption
    | with_reducible exact Steady.refl _
    | with_reducible refine Steady.advTo ?_ _)

/-- What the clock lets through is steady where both choices are. -/
theorem Steady.clocked {zs s t : State} (hs : Steady zs s) (ht : Steady zs t) : Steady zs (s.clocked t) := Steady.ite hs ht

theorem Steady.setByte {zs s : State} (hs : Steady zs s) (a : Nat) (v : Byte) : Steady zs (s.setByte a v) := by
  refine hs.trans ⟨rfl, le_rfl, le_rfl, List.prefix_rfl, List.prefix_rfl, fun c => ?_⟩
  simp only [State.canonical, Bool.and_eq_true] at c ⊢
  have hm : Memory.wf (s.setByte a v).mem = true := storeSet_wf (by tauto) a v
  simp only [State.setByte] at hm ⊢
  tauto

theorem Steady.storeBytes {zs s : State} (hs : Steady zs s) (a : Nat) (l : List Nat) : Steady zs (s.storeBytes a l) := by
  induction l generalizing s a with
  | nil => exact hs
  | cons b r ih => exact ih (hs.setByte _ _) _

theorem Steady.sendVector {zs s : State} (hs : Steady zs s) (v : Nat) : Steady zs (s.sendVector v) := by
  unfold State.sendVector
  split
  · exact hs
  · split
    · exact hs.setReg _ _
    · exact hs.trans ⟨rfl, le_rfl, le_rfl, List.prefix_append _ _, List.prefix_rfl, id⟩

theorem Steady.sendVectors {zs s : State} (hs : Steady zs s) (m : Nat) : Steady zs (s.sendVectors m) := by
  unfold State.sendVectors
  repeat' (first
    | with_reducible assumption
    | with_reducible exact Steady.refl _
    | with_reducible refine Steady.ite ?_ ?_
    | with_reducible refine Steady.foldl ?_ _ ?_
    | with_reducible refine Steady.foldl_fst ?_ _ ?_
    | with_reducible refine Steady.sendVector ?_ _
    | intro _)

theorem Steady.vectorsRisen {zs s : State} (hs : Steady zs s) (before : Nat) : Steady zs (State.vectorsRisen before s) := by
  unfold State.vectorsRisen
  repeat' (first
    | with_reducible assumption
    | with_reducible exact Steady.refl _
    | with_reducible refine Steady.ite ?_ ?_
    | with_reducible refine Steady.sendVectors ?_ _)

theorem Steady.source {zs s : State} (hs : Steady zs s) (n : Nat) : Steady zs (s.source n) := by
  unfold State.source
  repeat' (first
    | with_reducible assumption
    | with_reducible exact Steady.refl _
    | with_reducible refine Steady.putBit ?_ _ _ _
    | with_reducible refine Steady.vectorsRisen ?_ _)

theorem Steady.tlSource {zs s : State} (hs : Steady zs s) (t k : Nat) : Steady zs (s.tlSource t k) := by
  unfold State.tlSource
  repeat' (first
    | with_reducible assumption
    | with_reducible exact Steady.refl _
    | with_reducible refine Steady.source ?_ _)

theorem Steady.stSource {zs s : State} (hs : Steady zs s) (r k : Nat) : Steady zs (s.stSource r k) := by
  unfold State.stSource
  repeat' (first
    | with_reducible assumption
    | with_reducible exact Steady.refl _
    | with_reducible refine Steady.source ?_ _)

theorem Steady.raiseLine {zs s : State} (hs : Steady zs s) (b : Nat) : Steady zs (s.raiseLine b) := by
  unfold State.raiseLine
  repeat' (first
    | with_reducible assumption
    | with_reducible exact Steady.refl _
    | with_reducible refine Steady.ite ?_ ?_
    | dsimp only
    | split
    | with_reducible refine Steady.update ?_ rfl rfl)

theorem Steady.dropLine {zs s : State} (hs : Steady zs s) (b : Nat) : Steady zs (s.dropLine b) := by
  unfold State.dropLine
  repeat' (first
    | with_reducible assumption
    | with_reducible exact Steady.refl _
    | dsimp only
    | with_reducible refine Steady.update ?_ rfl rfl)

theorem Steady.localSource {zs s : State} (hs : Steady zs s) (t code : Nat) : Steady zs (s.localSource t code) := by
  unfold State.localSource
  repeat' (first
    | with_reducible assumption
    | with_reducible exact Steady.refl _
    | intro _
    | dsimp only
    | with_reducible refine Steady.update ?_ rfl rfl)

theorem Steady.fireChannel {zs s : State} (hs : Steady zs s) (k : Nat) : Steady zs (s.fireChannel k) := by
  unfold State.fireChannel
  repeat' (first
    | with_reducible assumption
    | with_reducible exact Steady.refl _
    | dsimp only
    | with_reducible refine Steady.update ?_ rfl rfl)

theorem Steady.draw {zs s : State} (hs : Steady zs s) : Steady zs s.draw :=
  hs.trans ⟨rfl, le_rfl, Nat.le_succ _, List.prefix_rfl, List.prefix_rfl, id⟩

end Sys2Proof.Machine
end

