-- ==== Sys2Proof/Laws/SteadyHmq.lean ====
section
/-! SUPPORT. The operations of Machine/Hmq.lean are steady. -/

namespace Sys2Proof.Machine

theorem Steady.hmqLevel {zs s : State} (hs : Steady zs s) (q : Nat) : Steady zs (s.hmqLevel q) := by
  unfold State.hmqLevel
  repeat' (first
    | with_reducible assumption
    | with_reducible exact Steady.refl _
    | with_reducible refine Steady.ite ?_ ?_
    | with_reducible refine Steady.source ?_ _
    | dsimp only
    | split)

theorem Steady.postNotice {zs s : State} (hs : Steady zs s) (q n0 n1 : Nat) : Steady zs (s.postNotice q n0 n1).1 := by
  unfold State.postNotice
  repeat' (first
    | with_reducible assumption
    | with_reducible exact Steady.refl _
    | with_reducible refine Steady.ite ?_ ?_
    | with_reducible refine Steady.ite_fst ?_ ?_
    | with_reducible refine Steady.mark ?_ _
    | with_reducible refine Steady.setHmq ?_ _ _
    | with_reducible refine Steady.hmqLevel ?_ _
    | dsimp only
    | split)

theorem Steady.dmaPost {zs s : State} (hs : Steady zs s) (c q n0 n1 : Nat) : Steady zs (s.dmaPost c q n0 n1) := by
  unfold State.dmaPost
  repeat' (first
    | with_reducible assumption
    | with_reducible exact Steady.refl _
    | with_reducible refine Steady.ite ?_ ?_
    | with_reducible refine Steady.mark ?_ _
    | with_reducible refine Steady.setDma ?_ _ _
    | with_reducible refine Steady.postNotice ?_ _ _ _)

theorem Steady.dmaNotes {zs s : State} (hs : Steady zs s) (q : Nat) : Steady zs (s.dmaNotes q) := by
  unfold State.dmaNotes
  repeat' (first
    | with_reducible assumption
    | with_reducible exact Steady.refl _
    | with_reducible refine Steady.ite ?_ ?_
    | with_reducible refine Steady.foldl ?_ _ ?_
    | with_reducible refine Steady.foldl_fst ?_ _ ?_
    | with_reducible refine Steady.put ?_ _ _
    | with_reducible refine Steady.setDma ?_ _ _
    | with_reducible refine Steady.postNotice ?_ _ _ _
    | intro _
    | dsimp only
    | split)

theorem Steady.hmqPop {zs s : State} (hs : Steady zs s) (q : Nat) : Steady zs (s.hmqPop q).1 := by
  unfold State.hmqPop
  repeat' (first
    | with_reducible assumption
    | with_reducible exact Steady.refl _
    | with_reducible refine Steady.setHmq ?_ _ _
    | with_reducible refine Steady.dmaNotes ?_ _
    | dsimp only
    | split)

theorem Steady.showMove {zs s : State} (hs : Steady zs s) (t : Nat) : Steady zs (s.showMove t) := by
  unfold State.showMove
  repeat' (first
    | with_reducible assumption
    | with_reducible exact Steady.refl _
    | with_reducible refine Steady.putBit ?_ _ _ _)

theorem Steady.settleRoute {zs s : State} (hs : Steady zs s) (t : Nat) : Steady zs (s.settleRoute t) := by
  unfold State.settleRoute
  repeat' (first
    | with_reducible assumption
    | with_reducible exact Steady.refl _
    | with_reducible refine Steady.ite ?_ ?_
    | with_reducible refine Steady.setRoute ?_ _ _
    | with_reducible refine Steady.source ?_ _
    | with_reducible refine Steady.showMove ?_ _)

theorem Steady.routeBoundary {zs s : State} (hs : Steady zs s) (t : Nat) : Steady zs (s.routeBoundary t) := by
  unfold State.routeBoundary
  repeat' (first
    | with_reducible assumption
    | with_reducible exact Steady.refl _
    | with_reducible refine Steady.ite ?_ ?_
    | with_reducible refine Steady.setRoute ?_ _ _
    | with_reducible refine Steady.showMove ?_ _
    | with_reducible refine Steady.settleRoute ?_ _)

theorem Steady.routeTaken {zs s : State} (hs : Steady zs s) (t : Nat) : Steady zs (s.routeTaken t) := by
  unfold State.routeTaken
  repeat' (first
    | with_reducible assumption
    | with_reducible exact Steady.refl _
    | with_reducible refine Steady.ite ?_ ?_
    | with_reducible refine Steady.setRoute ?_ _ _)

theorem Steady.routeEmptied {zs s : State} (hs : Steady zs s) (t : Nat) : Steady zs (s.routeEmptied t) := by
  unfold State.routeEmptied
  repeat' (first
    | with_reducible assumption
    | with_reducible exact Steady.refl _
    | with_reducible refine Steady.ite ?_ ?_
    | with_reducible refine Steady.setRoute ?_ _ _)

end Sys2Proof.Machine
end

