-- ==== Sys2Proof/Laws/SteadySupply.lean ====
section
/-! SUPPORT. The operations of Machine/Supply.lean are steady. -/

namespace Sys2Proof.Machine

theorem Steady.supFlag {zs s : State} (hs : Steady zs s) (t h : Nat) (f : Field) : Steady zs (s.supFlag t h f) := by
  unfold State.supFlag
  repeat' (first
    | with_reducible assumption
    | with_reducible exact Steady.refl _
    | with_reducible refine Steady.ite ?_ ?_
    | with_reducible refine Steady.mark ?_ _
    | with_reducible refine Steady.tlSource ?_ _ _)

theorem Steady.tag {zs s : State} (hs : Steady zs s) (t bit : Nat) : Steady zs (s.tag t bit) := by
  unfold State.tag
  repeat' (first
    | with_reducible assumption
    | with_reducible exact Steady.refl _
    | with_reducible refine Steady.modTl ?_ _ _)

theorem Steady.invalidate {zs s : State} (hs : Steady zs s) (t : Nat) : Steady zs (s.invalidate t) := by
  unfold State.invalidate
  repeat' (first
    | with_reducible assumption
    | with_reducible exact Steady.refl _
    | with_reducible refine Steady.ite ?_ ?_
    | with_reducible refine Steady.mark ?_ _
    | with_reducible refine Steady.tag ?_ _ _)

theorem Steady.setOut {zs s : State} (hs : Steady zs s) (t h o : Nat) : Steady zs (s.setOut t h o) := by
  unfold State.setOut
  repeat' (first
    | with_reducible assumption
    | with_reducible exact Steady.refl _
    | with_reducible refine Steady.put ?_ _ _
    | with_reducible refine Steady.setSup ?_ _ _ _)

theorem Steady.energyClamp {zs s : State} (hs : Steady zs s) (t h : Nat) : Steady zs (s.energyClamp t h) := by
  unfold State.energyClamp
  repeat' (first
    | with_reducible assumption
    | with_reducible exact Steady.refl _
    | with_reducible refine Steady.bump ?_ _
    | with_reducible refine Steady.supFlag ?_ _ _ _
    | with_reducible refine Steady.tag ?_ _ _)

theorem Steady.runChain {zs s : State} (hs : Steady zs s) (t h : Nat) : Steady zs (s.runChain t h).1 := by
  unfold State.runChain
  repeat' (first
    | with_reducible assumption
    | with_reducible exact Steady.refl _
    | with_reducible refine Steady.ite ?_ ?_
    | with_reducible refine Steady.ite_fst ?_ ?_
    | with_reducible refine Steady.put ?_ _ _
    | with_reducible refine Steady.supFlag ?_ _ _ _
    | with_reducible refine Steady.setOut ?_ _ _ _
    | with_reducible refine Steady.energyClamp ?_ _ _)

theorem Steady.writeCode {zs s : State} (hs : Steady zs s) (t h code : Nat) : Steady zs (s.writeCode t h code).1 := by
  unfold State.writeCode
  repeat' (first
    | with_reducible assumption
    | with_reducible exact Steady.refl _
    | with_reducible refine Steady.ite ?_ ?_
    | with_reducible refine Steady.ite_fst ?_ ?_
    | with_reducible refine Steady.put ?_ _ _
    | with_reducible refine Steady.setSup ?_ _ _ _
    | with_reducible refine Steady.runChain ?_ _ _)

theorem Steady.trackVraw {zs s : State} (hs : Steady zs s) : Steady zs (s.trackVraw) := by
  unfold State.trackVraw
  repeat' (first
    | with_reducible assumption
    | with_reducible exact Steady.refl _
    | with_reducible refine Steady.ite ?_ ?_
    | with_reducible refine Steady.put ?_ _ _)

theorem Steady.enableOutput {zs s : State} (hs : Steady zs s) (t h : Nat) : Steady zs (s.enableOutput t h) := by
  unfold State.enableOutput
  repeat' (first
    | with_reducible assumption
    | with_reducible exact Steady.refl _
    | with_reducible refine Steady.ite ?_ ?_
    | with_reducible refine Steady.put ?_ _ _
    | with_reducible refine Steady.putBit ?_ _ _ _
    | with_reducible refine Steady.setSup ?_ _ _ _
    | with_reducible refine Steady.setOut ?_ _ _ _
    | with_reducible refine Steady.trackVraw ?_
    | with_reducible refine Steady.lastAdmitAt ?_ _ _)

theorem Steady.requestEnable {zs s : State} (hs : Steady zs s) (t h : Nat) : Steady zs (s.requestEnable t h) := by
  unfold State.requestEnable
  repeat' (first
    | with_reducible assumption
    | with_reducible exact Steady.refl _
    | with_reducible refine Steady.ite ?_ ?_
    | with_reducible refine Steady.mark ?_ _
    | with_reducible refine Steady.putBit ?_ _ _ _
    | with_reducible refine Steady.setSup ?_ _ _ _
    | with_reducible refine Steady.trackVraw ?_
    | with_reducible refine Steady.enableOutput ?_ _ _
    | dsimp only
    | split)

theorem Steady.rangeNow {zs s : State} (hs : Steady zs s) (t : Nat) : Steady zs (s.rangeNow t) := by
  unfold State.rangeNow
  repeat' (first
    | with_reducible assumption
    | with_reducible exact Steady.refl _
    | with_reducible refine Steady.put ?_ _ _
    | with_reducible refine Steady.setSup ?_ _ _ _
    | dsimp only
    | split)

theorem Steady.hotSwitch {zs s : State} (hs : Steady zs s) (t h microamps : Nat) : Steady zs (s.hotSwitch t h microamps) := by
  unfold State.hotSwitch
  repeat' (first
    | with_reducible assumption
    | with_reducible exact Steady.refl _
    | with_reducible refine Steady.ite ?_ ?_
    | with_reducible refine Steady.bump ?_ _
    | with_reducible refine Steady.wearAt ?_ _ _)

theorem Steady.dropOutput {zs s : State} (hs : Steady zs s) (t h : Nat) : Steady zs (s.dropOutput t h) := by
  unfold State.dropOutput
  repeat' (first
    | with_reducible assumption
    | with_reducible exact Steady.refl _
    | with_reducible refine Steady.ite ?_ ?_
    | with_reducible refine Steady.draw ?_
    | with_reducible refine Steady.hotSwitch ?_ _ _ _
    | dsimp only
    | split)

theorem Steady.disableOutput {zs s : State} (hs : Steady zs s) (t h microamps : Nat) : Steady zs (s.disableOutput t h microamps) := by
  unfold State.disableOutput
  repeat' (first
    | with_reducible assumption
    | with_reducible exact Steady.refl _
    | with_reducible refine Steady.ite ?_ ?_
    | with_reducible refine Steady.put ?_ _ _
    | with_reducible refine Steady.putBit ?_ _ _ _
    | with_reducible refine Steady.setSup ?_ _ _ _
    | with_reducible refine Steady.setOut ?_ _ _ _
    | with_reducible refine Steady.trackVraw ?_
    | with_reducible refine Steady.rangeNow ?_ _
    | with_reducible refine Steady.hotSwitch ?_ _ _ _
    | dsimp only
    | split)

theorem Steady.supplySafe {zs s : State} (hs : Steady zs s) (t h : Nat) : Steady zs (s.supplySafe t h) := by
  unfold State.supplySafe
  repeat' (first
    | with_reducible assumption
    | with_reducible exact Steady.refl _
    | with_reducible refine Steady.ite ?_ ?_
    | with_reducible refine Steady.setReg ?_ _ _
    | with_reducible refine Steady.put ?_ _ _
    | with_reducible refine Steady.setSup ?_ _ _ _
    | with_reducible refine Steady.draw ?_
    | with_reducible refine Steady.setOut ?_ _ _ _
    | with_reducible refine Steady.runChain ?_ _ _
    | with_reducible refine Steady.disableOutput ?_ _ _ _
    | dsimp only
    | split)

theorem Steady.suppliesSafe {zs s : State} (hs : Steady zs s) (t : Nat) : Steady zs (s.suppliesSafe t) := by
  unfold State.suppliesSafe
  repeat' (first
    | with_reducible assumption
    | with_reducible exact Steady.refl _
    | with_reducible refine Steady.supplySafe ?_ _ _)

theorem Steady.supplyFault {zs s : State} (hs : Steady zs s) (t h cause : Nat) : Steady zs (s.supplyFault t h cause) := by
  unfold State.supplyFault
  repeat' (first
    | with_reducible assumption
    | with_reducible exact Steady.refl _
    | with_reducible refine Steady.put ?_ _ _
    | with_reducible refine Steady.setSup ?_ _ _ _
    | with_reducible refine Steady.raiseLine ?_ _
    | with_reducible refine Steady.invalidate ?_ _
    | with_reducible refine Steady.supplySafe ?_ _ _
    | dsimp only)

theorem Steady.supplyClear {zs s : State} (hs : Steady zs s) (t h : Nat) : Steady zs (s.supplyClear t h) := by
  unfold State.supplyClear
  repeat' (first
    | with_reducible assumption
    | with_reducible exact Steady.refl _
    | with_reducible refine Steady.ite ?_ ?_
    | with_reducible refine Steady.put ?_ _ _)

theorem Steady.beginRange {zs s : State} (hs : Steady zs s) (t range : Nat) : Steady zs (s.beginRange t range) := by
  unfold State.beginRange
  repeat' (first
    | with_reducible assumption
    | with_reducible exact Steady.refl _
    | with_reducible refine Steady.put ?_ _ _
    | with_reducible refine Steady.mark ?_ _
    | with_reducible refine Steady.setSup ?_ _ _ _)

theorem Steady.changeRange {zs s : State} (hs : Steady zs s) (t range microamps : Nat) : Steady zs (s.changeRange t range microamps) := by
  unfold State.changeRange
  repeat' (first
    | with_reducible assumption
    | with_reducible exact Steady.refl _
    | with_reducible refine Steady.ite ?_ ?_
    | with_reducible refine Steady.put ?_ _ _
    | with_reducible refine Steady.setSup ?_ _ _ _
    | with_reducible refine Steady.hotSwitch ?_ _ _ _
    | with_reducible refine Steady.beginRange ?_ _ _
    | dsimp only
    | split)

theorem Steady.recomputeEnergy {zs s : State} (hs : Steady zs s) (t h : Nat) : Steady zs (s.recomputeEnergy t h) := by
  unfold State.recomputeEnergy
  repeat' (first
    | with_reducible assumption
    | with_reducible exact Steady.refl _
    | with_reducible refine Steady.ite ?_ ?_
    | with_reducible refine Steady.setOut ?_ _ _ _
    | with_reducible refine Steady.energyClamp ?_ _ _
    | with_reducible refine Steady.runChain ?_ _ _
    | with_reducible refine Steady.trackVraw ?_)

theorem Steady.writeSpan {zs s : State} (hs : Steady zs s) (t : Nat) (b : Bool) : Steady zs (s.writeSpan t b) := by
  unfold State.writeSpan
  repeat' (first
    | with_reducible assumption
    | with_reducible exact Steady.refl _
    | with_reducible refine Steady.ite ?_ ?_
    | with_reducible refine Steady.put ?_ _ _
    | with_reducible refine Steady.putBit ?_ _ _ _
    | with_reducible refine Steady.setSup ?_ _ _ _
    | with_reducible refine Steady.supFlag ?_ _ _ _
    | with_reducible refine Steady.setOut ?_ _ _ _
    | with_reducible refine Steady.recomputeEnergy ?_ _ _
    | dsimp only
    | split)

theorem Steady.wfGo {zs s : State} (hs : Steady zs s) (t h : Nat) : Steady zs (s.wfGo t h) := by
  unfold State.wfGo
  repeat' (first
    | with_reducible assumption
    | with_reducible exact Steady.refl _
    | with_reducible refine Steady.ite ?_ ?_
    | with_reducible refine Steady.put ?_ _ _
    | with_reducible refine Steady.mark ?_ _
    | with_reducible refine Steady.setSup ?_ _ _ _
    | with_reducible refine Steady.runChain ?_ _ _
    | dsimp only
    | split)

theorem Steady.wfStop {zs s : State} (hs : Steady zs s) (t h : Nat) : Steady zs (s.wfStop t h) := by
  unfold State.wfStop
  repeat' (first
    | with_reducible assumption
    | with_reducible exact Steady.refl _
    | with_reducible refine Steady.put ?_ _ _
    | with_reducible refine Steady.setSup ?_ _ _ _
    | dsimp only
    | split)

theorem Steady.slip {zs s : State} (hs : Steady zs s) (t h : Nat) : Steady zs (s.slip t h) := by
  unfold State.slip
  repeat' (first
    | with_reducible assumption
    | with_reducible exact Steady.refl _
    | with_reducible refine Steady.setSup ?_ _ _ _)

theorem Steady.wfEnd {zs s : State} (hs : Steady zs s) (t h : Nat) : Steady zs (s.wfEnd t h) := by
  unfold State.wfEnd
  repeat' (first
    | with_reducible assumption
    | with_reducible exact Steady.refl _
    | with_reducible refine Steady.ite ?_ ?_
    | with_reducible refine Steady.put ?_ _ _
    | with_reducible refine Steady.setSup ?_ _ _ _
    | with_reducible refine Steady.runChain ?_ _ _
    | with_reducible refine Steady.supplyFault ?_ _ _ _
    | with_reducible refine Steady.slip ?_ _ _
    | intro _
    | dsimp only
    | split)

theorem Steady.wfSample {zs s : State} (hs : Steady zs s) (t h : Nat) : Steady zs (s.wfSample t h) := by
  unfold State.wfSample
  repeat' (first
    | with_reducible assumption
    | with_reducible exact Steady.refl _
    | with_reducible refine Steady.ite ?_ ?_
    | with_reducible refine Steady.put ?_ _ _
    | with_reducible refine Steady.setSup ?_ _ _ _
    | with_reducible refine Steady.advTo ?_ _
    | with_reducible refine Steady.runChain ?_ _ _
    | with_reducible refine Steady.supplyFault ?_ _ _ _
    | with_reducible refine Steady.slip ?_ _ _
    | with_reducible refine Steady.wfEnd ?_ _ _
    | intro _
    | dsimp only
    | split)

theorem Steady.enterLimit {zs s : State} (hs : Steady zs s) (t h : Nat) : Steady zs (s.enterLimit t h) := by
  unfold State.enterLimit
  repeat' (first
    | with_reducible assumption
    | with_reducible exact Steady.refl _
    | with_reducible refine Steady.ite ?_ ?_
    | with_reducible refine Steady.mark ?_ _
    | with_reducible refine Steady.bump ?_ _
    | with_reducible refine Steady.setSup ?_ _ _ _
    | with_reducible refine Steady.supFlag ?_ _ _ _)

theorem Steady.leaveLimit {zs s : State} (hs : Steady zs s) (t h : Nat) : Steady zs (s.leaveLimit t h) := by
  unfold State.leaveLimit
  repeat' (first
    | with_reducible assumption
    | with_reducible exact Steady.refl _
    | with_reducible refine Steady.put ?_ _ _
    | with_reducible refine Steady.setSup ?_ _ _ _)

theorem Steady.limitTrip {zs s : State} (hs : Steady zs s) (t h : Nat) : Steady zs (s.limitTrip t h) := by
  unfold State.limitTrip
  repeat' (first
    | with_reducible assumption
    | with_reducible exact Steady.refl _
    | with_reducible refine Steady.ite ?_ ?_
    | with_reducible refine Steady.advTo ?_ _
    | with_reducible refine Steady.supplyFault ?_ _ _ _
    | dsimp only
    | split)

theorem Steady.crowbarTrip {zs s : State} (hs : Steady zs s) (t h : Nat) (arc : Bool) : Steady zs (s.crowbarTrip t h arc) := by
  unfold State.crowbarTrip
  repeat' (first
    | with_reducible assumption
    | with_reducible exact Steady.refl _
    | with_reducible refine Steady.ite ?_ ?_
    | with_reducible refine Steady.bump ?_ _
    | with_reducible refine Steady.setSup ?_ _ _ _
    | with_reducible refine Steady.invalidate ?_ _
    | with_reducible refine Steady.wearAt ?_ _ _
    | intro _
    | dsimp only
    | split
    | with_reducible refine Steady.update ?_ rfl rfl)

theorem Steady.crowbarOpen {zs s : State} (hs : Steady zs s) (t h : Nat) : Steady zs (s.crowbarOpen t h) := by
  unfold State.crowbarOpen
  repeat' (first
    | with_reducible assumption
    | with_reducible exact Steady.refl _
    | with_reducible refine Steady.ite ?_ ?_
    | with_reducible refine Steady.setSup ?_ _ _ _
    | with_reducible refine Steady.advTo ?_ _
    | with_reducible refine Steady.supplyFault ?_ _ _ _
    | dsimp only
    | split)

theorem Steady.crowbarHoldoff {zs s : State} (hs : Steady zs s) (t h : Nat) : Steady zs (s.crowbarHoldoff t h) := by
  unfold State.crowbarHoldoff
  repeat' (first
    | with_reducible assumption
    | with_reducible exact Steady.refl _
    | with_reducible refine Steady.setSup ?_ _ _ _
    | with_reducible refine Steady.advTo ?_ _
    | dsimp only
    | split)

theorem Steady.superviseReading {zs s : State} (hs : Steady zs s) (t h : Nat) (microvolts : Int) : Steady zs (s.superviseReading t h microvolts) := by
  unfold State.superviseReading
  repeat' (first
    | with_reducible assumption
    | with_reducible exact Steady.refl _
    | with_reducible refine Steady.ite ?_ ?_
    | with_reducible refine Steady.foldl ?_ _ ?_
    | with_reducible refine Steady.foldl_fst ?_ _ ?_
    | with_reducible refine Steady.setSup ?_ _ _ _
    | with_reducible refine Steady.advTo ?_ _
    | with_reducible refine Steady.supFlag ?_ _ _ _
    | with_reducible refine Steady.supplyFault ?_ _ _ _
    | intro _
    | dsimp only
    | split)

theorem Steady.slewWritten {zs s : State} (hs : Steady zs s) (t h : Nat) : Steady zs (s.slewWritten t h) := by
  unfold State.slewWritten
  repeat' (first
    | with_reducible assumption
    | with_reducible exact Steady.refl _
    | with_reducible refine Steady.ite ?_ ?_
    | with_reducible refine Steady.setSup ?_ _ _ _
    | with_reducible refine Steady.setOut ?_ _ _ _
    | dsimp only
    | split)

theorem Steady.slewStep {zs s : State} (hs : Steady zs s) (t h : Nat) : Steady zs (s.slewStep t h) := by
  unfold State.slewStep
  repeat' (first
    | with_reducible assumption
    | with_reducible exact Steady.refl _
    | with_reducible refine Steady.ite ?_ ?_
    | with_reducible refine Steady.setSup ?_ _ _ _
    | with_reducible refine Steady.advTo ?_ _
    | with_reducible refine Steady.setOut ?_ _ _ _)

end Sys2Proof.Machine
end

