-- ==== Sys2Proof/Laws/SteadyRdv.lean ====
section
/-! SUPPORT. The operations of Machine/Rdv.lean are steady. -/

namespace Sys2Proof.Machine

theorem Steady.setOwnEpoch {zs s : State} (hs : Steady zs s) (t k e : Nat) : Steady zs (s.setOwnEpoch t k e) := by
  unfold State.setOwnEpoch
  repeat' (first
    | with_reducible assumption
    | with_reducible exact Steady.refl _
    | with_reducible refine Steady.epochsAt ?_ _ _)

theorem Steady.joinEpochs {zs s : State} (hs : Steady zs s) (t : Nat) : Steady zs (s.joinEpochs t) := by
  unfold State.joinEpochs
  repeat' (first
    | with_reducible assumption
    | with_reducible exact Steady.refl _
    | with_reducible refine Steady.foldl ?_ _ ?_
    | with_reducible refine Steady.foldl_fst ?_ _ ?_
    | with_reducible refine Steady.setOwnEpoch ?_ _ _ _
    | intro _)

theorem Steady.takeRelease {zs s : State} (hs : Steady zs s) (k r : Nat) (timeout reaches : Bool) : Steady zs (s.takeRelease k r timeout reaches) := by
  unfold State.takeRelease
  repeat' (first
    | with_reducible assumption
    | with_reducible exact Steady.refl _
    | with_reducible refine Steady.put ?_ _ _
    | with_reducible refine Steady.setRdv ?_ _ _
    | dsimp only)

theorem Steady.sendRelease {zs s : State} (hs : Steady zs s) (k r0 : Nat) (timeout : Bool) : Steady zs (s.sendRelease k r0 timeout) := by
  unfold State.sendRelease
  repeat' (first
    | with_reducible assumption
    | with_reducible exact Steady.refl _
    | with_reducible refine Steady.ite ?_ ?_
    | with_reducible refine Steady.setRdv ?_ _ _
    | with_reducible refine Steady.takeRelease ?_ _ _ _ _
    | intro _
    | dsimp only
    | split
    | with_reducible refine Steady.update ?_ rfl rfl)

theorem Steady.openEpoch {zs s : State} (hs : Steady zs s) (k : Nat) : Steady zs (s.openEpoch k) := by
  unfold State.openEpoch
  repeat' (first
    | with_reducible assumption
    | with_reducible exact Steady.refl _
    | with_reducible refine Steady.ite ?_ ?_
    | with_reducible refine Steady.foldl ?_ _ ?_
    | with_reducible refine Steady.foldl_fst ?_ _ ?_
    | with_reducible refine Steady.put ?_ _ _
    | with_reducible refine Steady.mark ?_ _
    | intro _
    | dsimp only
    | split)

theorem Steady.leadReport {zs s : State} (hs : Steady zs s) (k x y epoch : Nat) (first complete : Bool) (stamp : Nat) : Steady zs (s.leadReport k x y epoch first complete stamp) := by
  unfold State.leadReport
  repeat' (first
    | with_reducible assumption
    | with_reducible exact Steady.refl _
    | with_reducible refine Steady.ite ?_ ?_
    | with_reducible refine Steady.mark ?_ _
    | with_reducible refine Steady.setRdv ?_ _ _
    | with_reducible refine Steady.sendRelease ?_ _ _ _
    | with_reducible refine Steady.openEpoch ?_ _
    | dsimp only
    | split)

theorem Steady.report {zs s : State} (hs : Steady zs s) (k : Nat) (first complete : Bool) (stamp : Nat) : Steady zs (s.report k first complete stamp) := by
  unfold State.report
  repeat' (first
    | with_reducible assumption
    | with_reducible exact Steady.refl _
    | with_reducible refine Steady.ite ?_ ?_
    | with_reducible refine Steady.leadReport ?_ _ _ _ _ _ _ _
    | intro _
    | dsimp only
    | split
    | with_reducible refine Steady.update ?_ rfl rfl)

theorem Steady.reportDone {zs s : State} (hs : Steady zs s) (k : Nat) (first : Bool) (stamp : Nat) : Steady zs (s.reportDone k first stamp) := by
  unfold State.reportDone
  repeat' (first
    | with_reducible assumption
    | with_reducible exact Steady.refl _
    | with_reducible refine Steady.ite ?_ ?_
    | with_reducible refine Steady.setRdv ?_ _ _
    | with_reducible refine Steady.openEpoch ?_ _
    | with_reducible refine Steady.report ?_ _ _ _ _
    | dsimp only
    | split)

theorem Steady.arrive {zs s : State} (hs : Steady zs s) (t k stamp : Nat) : Steady zs (s.arrive t k stamp) := by
  unfold State.arrive
  repeat' (first
    | with_reducible assumption
    | with_reducible exact Steady.refl _
    | with_reducible refine Steady.ite ?_ ?_
    | with_reducible refine Steady.put ?_ _ _
    | with_reducible refine Steady.setRdv ?_ _ _
    | with_reducible refine Steady.openEpoch ?_ _
    | with_reducible refine Steady.reportDone ?_ _ _ _
    | intro _
    | dsimp only
    | split)

theorem Steady.withdrawOne {zs s : State} (hs : Steady zs s) (t k stamp : Nat) : Steady zs (s.withdrawOne t k stamp).1 := by
  unfold State.withdrawOne
  repeat' (first
    | with_reducible assumption
    | with_reducible exact Steady.refl _
    | with_reducible refine Steady.ite ?_ ?_
    | with_reducible refine Steady.ite_fst ?_ ?_
    | with_reducible refine Steady.setRdv ?_ _ _
    | with_reducible refine Steady.reportDone ?_ _ _ _
    | dsimp only
    | split)

theorem Steady.withdraw {zs s : State} (hs : Steady zs s) (t stamp : Nat) : Steady zs (s.withdraw t stamp).1 := by
  unfold State.withdraw
  repeat' (first
    | with_reducible assumption
    | with_reducible exact Steady.refl _
    | with_reducible refine Steady.foldl ?_ _ ?_
    | with_reducible refine Steady.foldl_fst ?_ _ ?_
    | with_reducible refine Steady.withdrawOne ?_ _ _ _
    | intro _)

theorem Steady.rejoin {zs s : State} (hs : Steady zs s) (t : Nat) : Steady zs (s.rejoin t) := by
  unfold State.rejoin
  repeat' (first
    | with_reducible assumption
    | with_reducible exact Steady.refl _
    | with_reducible refine Steady.ite ?_ ?_
    | with_reducible refine Steady.foldl ?_ _ ?_
    | with_reducible refine Steady.foldl_fst ?_ _ ?_
    | with_reducible refine Steady.setRdv ?_ _ _
    | with_reducible refine Steady.joinEpochs ?_ _
    | intro _)

theorem Steady.advanceEpoch {zs s : State} (hs : Steady zs s) (k : Nat) : Steady zs (s.advanceEpoch k) := by
  unfold State.advanceEpoch
  repeat' (first
    | with_reducible assumption
    | with_reducible exact Steady.refl _
    | with_reducible refine Steady.put ?_ _ _
    | with_reducible refine Steady.wrapUp ?_ _
    | with_reducible refine Steady.setRdv ?_ _ _)

end Sys2Proof.Machine
end

