-- ==== Sys2Proof/Laws/SteadyTrace.lean ====
section
/-! SUPPORT. The operations of Machine/Trace.lean are steady. -/

namespace Sys2Proof.Machine

theorem Steady.inject {zs s : State} (hs : Steady zs s) (c : Checker) (unit : Nat) : Steady zs (s.inject c unit).1 := by
  unfold State.inject
  repeat' (first
    | with_reducible assumption
    | with_reducible exact Steady.refl _
    | with_reducible refine Steady.ite ?_ ?_
    | with_reducible refine Steady.ite_fst ?_ ?_
    | with_reducible refine Steady.put ?_ _ _
    | with_reducible refine Steady.mark ?_ _
    | with_reducible refine Steady.bump ?_ _
    | with_reducible refine Steady.source ?_ _)

theorem Steady.trace {zs s : State} (hs : Steady zs s) (t kind opc w1 : Nat) : Steady zs (s.trace t kind opc w1) := by
  unfold State.trace
  repeat' (first
    | with_reducible assumption
    | with_reducible exact Steady.refl _
    | with_reducible refine Steady.ite ?_ ?_
    | with_reducible refine Steady.put ?_ _ _
    | with_reducible refine Steady.mark ?_ _
    | with_reducible refine Steady.setTl ?_ _ _)

theorem Steady.traceSelect {zs s : State} (hs : Steady zs s) (t entry : Nat) : Steady zs (s.traceSelect t entry) := by
  unfold State.traceSelect
  repeat' (first
    | with_reducible assumption
    | with_reducible exact Steady.refl _
    | with_reducible refine Steady.foldl ?_ _ ?_
    | with_reducible refine Steady.foldl_fst ?_ _ ?_
    | with_reducible refine Steady.put ?_ _ _
    | with_reducible refine Steady.trace ?_ _ _ _ _
    | intro _)

theorem Steady.clearFlag {zs s : State} (hs : Steady zs s) (t n : Nat) : Steady zs (s.clearFlag t n) := by
  unfold State.clearFlag
  repeat' (first
    | with_reducible assumption
    | with_reducible exact Steady.refl _
    | with_reducible refine Steady.ite ?_ ?_
    | with_reducible refine Steady.put ?_ _ _)

theorem Steady.setLate {zs s : State} (hs : Steady zs s) (t idx : Nat) : Steady zs (s.setLate t idx) := by
  unfold State.setLate
  repeat' (first
    | with_reducible assumption
    | with_reducible exact Steady.refl _
    | with_reducible refine Steady.mark ?_ _
    | with_reducible refine Steady.tlSource ?_ _ _
    | with_reducible refine Steady.tag ?_ _ _
    | with_reducible refine Steady.trace ?_ _ _ _ _)

theorem Steady.completeResult {zs s : State} (hs : Steady zs s) (t : Nat) : Steady zs (s.completeResult t) := by
  unfold State.completeResult
  repeat' (first
    | with_reducible assumption
    | with_reducible exact Steady.refl _
    | with_reducible refine Steady.setReg ?_ _ _)

theorem Steady.leaveRendezvous {zs s : State} (hs : Steady zs s) (t : Nat) : Steady zs (s.leaveRendezvous t) := by
  unfold State.leaveRendezvous
  repeat' (first
    | with_reducible assumption
    | with_reducible exact Steady.refl _
    | with_reducible refine Steady.ite ?_ ?_
    | with_reducible refine Steady.tag ?_ _ _
    | with_reducible refine Steady.withdraw ?_ _ _)

end Sys2Proof.Machine
end

