-- ==== Sys2Proof/Laws/SteadyMemory.lean ====
section
/-! SUPPORT. The operations of Machine/Memory.lean are steady. -/

namespace Sys2Proof.Machine

theorem Steady.lineCheck {zs s : State} (hs : Steady zs s) (a n : Nat) : Steady zs (s.lineCheck a n).1 := by
  unfold State.lineCheck
  repeat' (first
    | with_reducible assumption
    | with_reducible exact Steady.refl _
    | with_reducible refine Steady.ite ?_ ?_
    | with_reducible refine Steady.ite_fst ?_ ?_
    | with_reducible refine Steady.put ?_ _ _
    | with_reducible refine Steady.mark ?_ _
    | with_reducible refine Steady.bumpBy ?_ _ _
    | with_reducible refine Steady.bump ?_ _
    | with_reducible refine Steady.source ?_ _
    | with_reducible refine Steady.raiseLine ?_ _
    | with_reducible refine Steady.inject ?_ _ _)

theorem Steady.dramCheck {zs s : State} (hs : Steady zs s) (a n : Nat) : Steady zs (s.dramCheck a n).1 := by
  unfold State.dramCheck
  repeat' (first
    | with_reducible assumption
    | with_reducible exact Steady.refl _
    | with_reducible refine Steady.foldl ?_ _ ?_
    | with_reducible refine Steady.foldl_fst ?_ _ ?_
    | with_reducible refine Steady.lineCheck ?_ _ _
    | intro _)

theorem Steady.storeCheck {zs s : State} (hs : Steady zs s) (w : Nat) : Steady zs (s.storeCheck w).1 := by
  unfold State.storeCheck
  repeat' (first
    | with_reducible assumption
    | with_reducible exact Steady.refl _
    | with_reducible refine Steady.ite ?_ ?_
    | with_reducible refine Steady.ite_fst ?_ ?_
    | with_reducible refine Steady.inject ?_ _ _
    | dsimp only
    | split)

theorem Steady.markUncorr {zs s : State} (hs : Steady zs s) (w : Nat) (bad : Bool) : Steady zs (s.markUncorr w bad) := by
  unfold State.markUncorr
  repeat' (first
    | with_reducible assumption
    | with_reducible exact Steady.refl _
    | with_reducible refine Steady.ite ?_ ?_
    | dsimp only
    | split
    | with_reducible refine Steady.update ?_ rfl rfl)

theorem Steady.writeWord {zs s : State} (hs : Steady zs s) (w : Nat) (bytes : List (Nat × Nat)) (poison : Bool) : Steady zs (s.writeWord w bytes poison) := by
  unfold State.writeWord
  repeat' (first
    | with_reducible assumption
    | with_reducible exact Steady.refl _
    | with_reducible refine Steady.ite ?_ ?_
    | with_reducible refine Steady.foldl ?_ _ ?_
    | with_reducible refine Steady.foldl_fst ?_ _ ?_
    | with_reducible refine Steady.setByte ?_ _ _
    | with_reducible refine Steady.lineCheck ?_ _ _
    | with_reducible refine Steady.storeCheck ?_ _
    | with_reducible refine Steady.markUncorr ?_ _ _
    | intro _
    | dsimp only
    | split)

theorem Steady.memWrite {zs s : State} (hs : Steady zs s) (a : Nat) (data : List (Option Nat)) (poison : Bool) : Steady zs (s.memWrite a data poison) := by
  unfold State.memWrite
  repeat' (first
    | with_reducible assumption
    | with_reducible exact Steady.refl _
    | with_reducible refine Steady.foldl ?_ _ ?_
    | with_reducible refine Steady.foldl_fst ?_ _ ?_
    | with_reducible refine Steady.writeWord ?_ _ _ _
    | intro _)

theorem Steady.memPut {zs s : State} (hs : Steady zs s) (a : Nat) (data : List Nat) (poison : Bool) : Steady zs (s.memPut a data poison) := by
  unfold State.memPut
  repeat' (first
    | with_reducible assumption
    | with_reducible exact Steady.refl _
    | with_reducible refine Steady.memWrite ?_ _ _ _)

theorem Steady.hostRead {zs s : State} (hs : Steady zs s) (a n : Nat) : Steady zs (s.hostRead a n).1 := by
  unfold State.hostRead
  repeat' (first
    | with_reducible assumption
    | with_reducible exact Steady.refl _
    | with_reducible refine Steady.ite ?_ ?_
    | with_reducible refine Steady.ite_fst ?_ ?_
    | with_reducible refine Steady.foldl ?_ _ ?_
    | with_reducible refine Steady.foldl_fst ?_ _ ?_
    | with_reducible refine Steady.dramCheck ?_ _ _
    | with_reducible refine Steady.storeCheck ?_ _
    | intro _
    | dsimp only
    | split)

end Sys2Proof.Machine
end

