-- ==== Sys2Proof/Laws/SteadyWear.lean ====
section
/-! SUPPORT. The operations of Machine/Wear.lean are steady. -/

namespace Sys2Proof.Machine

theorem Steady.setWear {zs s : State} (hs : Steady zs s) (k v : Nat) : Steady zs (s.setWear k v) := by
  unfold State.setWear
  repeat' (first
    | with_reducible assumption
    | with_reducible exact Steady.refl _
    | with_reducible refine Steady.wearAt ?_ _ _)

theorem Steady.lifeModel {zs s : State} (hs : Steady zs s) : Steady zs (s.lifeModel) := by
  unfold State.lifeModel
  repeat' (first
    | with_reducible assumption
    | with_reducible exact Steady.refl _
    | with_reducible refine Steady.ite ?_ ?_
    | with_reducible refine Steady.foldl ?_ _ ?_
    | with_reducible refine Steady.foldl_fst ?_ _ ?_
    | with_reducible refine Steady.put ?_ _ _)

theorem Steady.freshLife {zs s : State} (hs : Steady zs s) : Steady zs (s.freshLife) := by
  unfold State.freshLife
  exact Steady.update hs rfl rfl

theorem Steady.contactCycle {zs s : State} (hs : Steady zs s) : Steady zs (s.contactCycle) := by
  unfold State.contactCycle
  repeat' (first
    | with_reducible assumption
    | with_reducible exact Steady.refl _
    | with_reducible refine Steady.bump ?_ _
    | with_reducible refine Steady.lifeModel ?_
    | dsimp only
    | with_reducible refine Steady.update ?_ rfl rfl)

theorem Steady.wearAccrue {zs s : State} (hs : Steady zs s) (g : Nat) : Steady zs (s.wearAccrue g) := by
  unfold State.wearAccrue
  repeat' (first
    | with_reducible assumption
    | with_reducible exact Steady.refl _
    | with_reducible refine Steady.ite ?_ ?_
    | with_reducible refine Steady.setWear ?_ _ _
    | dsimp only
    | split)

end Sys2Proof.Machine
end

