-- ==== Sys2Proof/Laws/SteadyPins.lean ====
section
/-! SUPPORT. The operations of Machine/Pins.lean are steady. -/

namespace Sys2Proof.Machine

theorem Steady.switchNow {zs s : State} (hs : Steady zs s) (t : Nat) : Steady zs (s.switchNow t) := by
  unfold State.switchNow
  repeat' (first
    | with_reducible assumption
    | with_reducible exact Steady.refl _
    | with_reducible refine Steady.ite ?_ ?_
    | with_reducible refine Steady.foldl ?_ _ ?_
    | with_reducible refine Steady.foldl_fst ?_ _ ?_
    | with_reducible refine Steady.put ?_ _ _
    | with_reducible refine Steady.putBit ?_ _ _ _
    | with_reducible refine Steady.setTl ?_ _ _
    | intro _
    | dsimp only
    | split)

theorem Steady.safePoint {zs s : State} (hs : Steady zs s) (t : Nat) : Steady zs (s.safePoint t) := by
  unfold State.safePoint
  repeat' (first
    | with_reducible assumption
    | with_reducible exact Steady.refl _
    | with_reducible refine Steady.ite ?_ ?_
    | with_reducible refine Steady.switchNow ?_ _)

theorem Steady.pendSwitch {zs s : State} (hs : Steady zs s) (t : Nat) : Steady zs (s.pendSwitch t) := by
  unfold State.pendSwitch
  repeat' (first
    | with_reducible assumption
    | with_reducible exact Steady.refl _
    | with_reducible refine Steady.ite ?_ ?_
    | with_reducible refine Steady.putBit ?_ _ _ _
    | with_reducible refine Steady.setTl ?_ _ _
    | with_reducible refine Steady.safePoint ?_ _)

theorem Steady.touchdown {zs s : State} (hs : Steady zs s) (g : Nat) : Steady zs (s.touchdown g) := by
  unfold State.touchdown
  repeat' (first
    | with_reducible assumption
    | with_reducible exact Steady.refl _
    | with_reducible refine Steady.ite ?_ ?_
    | with_reducible refine Steady.contactCycle ?_
    | dsimp only
    | split)

theorem Steady.latch {zs s : State} (hs : Steady zs s) (g : Nat) (hi lo : Bool) : Steady zs (s.latch g hi lo) := by
  unfold State.latch
  repeat' (first
    | with_reducible assumption
    | with_reducible exact Steady.refl _
    | with_reducible refine Steady.ite ?_ ?_
    | with_reducible refine Steady.mark ?_ _
    | with_reducible refine Steady.tlSource ?_ _ _
    | with_reducible refine Steady.fireChannel ?_ _
    | with_reducible refine Steady.touchdown ?_ _)

theorem Steady.latchFrom {zs s : State} (hs : Steady zs s) (g inst : Nat) (high low : Bool) : Steady zs (s.latchFrom g inst high low) := by
  unfold State.latchFrom
  repeat' (first
    | with_reducible assumption
    | with_reducible exact Steady.refl _
    | with_reducible refine Steady.ite ?_ ?_
    | with_reducible refine Steady.put ?_ _ _
    | with_reducible refine Steady.setPin ?_ _ _
    | with_reducible refine Steady.latch ?_ _ _ _
    | intro _
    | dsimp only
    | split)

theorem Steady.latchClear {zs s : State} (hs : Steady zs s) (g inst : Nat) : Steady zs (s.latchClear g inst) := by
  unfold State.latchClear
  repeat' (first
    | with_reducible assumption
    | with_reducible exact Steady.refl _
    | with_reducible refine Steady.ite ?_ ?_
    | with_reducible refine Steady.latchFrom ?_ _ _ _ _
    | dsimp only
    | split)

theorem Steady.catchUp {zs s : State} (hs : Steady zs s) (g inst : Nat) : Steady zs (s.catchUp g inst) := by
  unfold State.catchUp
  repeat' (first
    | with_reducible assumption
    | with_reducible exact Steady.refl _
    | with_reducible refine Steady.foldl ?_ _ ?_
    | with_reducible refine Steady.foldl_fst ?_ _ ?_
    | with_reducible refine Steady.setPin ?_ _ _
    | with_reducible refine Steady.latchClear ?_ _ _
    | intro _
    | dsimp only)

theorem Steady.tillerCatchUp {zs s : State} (hs : Steady zs s) (t inst : Nat) : Steady zs (s.tillerCatchUp t inst) := by
  unfold State.tillerCatchUp
  repeat' (first
    | with_reducible assumption
    | with_reducible exact Steady.refl _
    | with_reducible refine Steady.foldl ?_ _ ?_
    | with_reducible refine Steady.foldl_fst ?_ _ ?_
    | with_reducible refine Steady.catchUp ?_ _ _
    | intro _
    | dsimp only)

theorem Steady.setOutput {zs s : State} (hs : Steady zs s) (g inst : Nat) (high above : Bool) : Steady zs (s.setOutput g inst high above) := by
  unfold State.setOutput
  repeat' (first
    | with_reducible assumption
    | with_reducible exact Steady.refl _
    | with_reducible refine Steady.ite ?_ ?_
    | with_reducible refine Steady.put ?_ _ _
    | with_reducible refine Steady.setPin ?_ _ _
    | with_reducible refine Steady.latch ?_ _ _ _
    | with_reducible refine Steady.catchUp ?_ _ _)

theorem Steady.crossing {zs s : State} (hs : Steady zs s) (g inst : Nat) (high above : Bool) : Steady zs (s.crossing g inst high above) := by
  unfold State.crossing
  repeat' (first
    | with_reducible assumption
    | with_reducible exact Steady.refl _
    | with_reducible refine Steady.ite ?_ ?_
    | with_reducible refine Steady.put ?_ _ _
    | with_reducible refine Steady.setOutput ?_ _ _ _ _
    | dsimp only
    | split)

theorem Steady.complement {zs s : State} (hs : Steady zs s) (g inst : Nat) : Steady zs (s.complement g inst) := by
  unfold State.complement
  repeat' (first
    | with_reducible assumption
    | with_reducible exact Steady.refl _
    | with_reducible refine Steady.ite ?_ ?_
    | with_reducible refine Steady.setOutput ?_ _ _ _ _
    | dsimp only
    | split)

theorem Steady.followOne {zs s : State} (hs : Steady zs s) (g : Nat) (high : Bool) (v : Int) : Steady zs (s.followOne g high v) := by
  unfold State.followOne
  repeat' (first
    | with_reducible assumption
    | with_reducible exact Steady.refl _
    | with_reducible refine Steady.ite ?_ ?_
    | with_reducible refine Steady.put ?_ _ _
    | with_reducible refine Steady.setOutput ?_ _ _ _ _
    | dsimp only
    | split)

theorem Steady.followTie {zs s : State} (hs : Steady zs s) (g : Nat) : Steady zs (s.followTie g) := by
  unfold State.followTie
  repeat' (first
    | with_reducible assumption
    | with_reducible exact Steady.refl _
    | with_reducible refine Steady.ite ?_ ?_
    | with_reducible refine Steady.followOne ?_ _ _ _
    | dsimp only
    | split)

theorem Steady.resolveInput {zs s : State} (hs : Steady zs s) (g : Nat) (high : Bool) (i0 : CmpInput) : Steady zs (s.resolveInput g high i0) := by
  unfold State.resolveInput
  repeat' (first
    | with_reducible assumption
    | with_reducible exact Steady.refl _
    | with_reducible refine Steady.ite ?_ ?_
    | with_reducible refine Steady.put ?_ _ _
    | with_reducible refine Steady.setOutput ?_ _ _ _ _
    | dsimp only
    | split)

theorem Steady.dropStrobes {zs s : State} (hs : Steady zs s) (g inst : Nat) : Steady zs (s.dropStrobes g inst) := by
  unfold State.dropStrobes
  repeat' (first
    | with_reducible assumption
    | with_reducible exact Steady.refl _
    | with_reducible refine Steady.ite ?_ ?_
    | with_reducible refine Steady.setCmp ?_ _ _
    | intro _
    | dsimp only
    | split)

theorem Steady.pinSafe {zs s : State} (hs : Steady zs s) (g inst : Nat) : Steady zs (s.pinSafe g inst) := by
  unfold State.pinSafe
  repeat' (first
    | with_reducible assumption
    | with_reducible exact Steady.refl _
    | with_reducible refine Steady.ite ?_ ?_
    | with_reducible refine Steady.foldl ?_ _ ?_
    | with_reducible refine Steady.foldl_fst ?_ _ ?_
    | with_reducible refine Steady.setReg ?_ _ _
    | with_reducible refine Steady.put ?_ _ _
    | with_reducible refine Steady.mark ?_ _
    | with_reducible refine Steady.complement ?_ _ _
    | with_reducible refine Steady.dropStrobes ?_ _ _
    | intro _
    | dsimp only
    | split)

theorem Steady.pinsSafe {zs s : State} (hs : Steady zs s) (t inst : Nat) : Steady zs (s.pinsSafe t inst) := by
  unfold State.pinsSafe
  repeat' (first
    | with_reducible assumption
    | with_reducible exact Steady.refl _
    | with_reducible refine Steady.foldl ?_ _ ?_
    | with_reducible refine Steady.foldl_fst ?_ _ ?_
    | with_reducible refine Steady.pinSafe ?_ _ _
    | intro _)

theorem Steady.outputsSafe {zs s : State} (hs : Steady zs s) (t inst : Nat) : Steady zs (s.outputsSafe t inst) := by
  unfold State.outputsSafe
  repeat' (first
    | with_reducible assumption
    | with_reducible exact Steady.refl _
    | with_reducible refine Steady.suppliesSafe ?_ _
    | with_reducible refine Steady.pinsSafe ?_ _ _)

theorem Steady.pinIdle {zs s : State} (hs : Steady zs s) (t p tset inst : Nat) : Steady zs (s.pinIdle t p tset inst) := by
  unfold State.pinIdle
  repeat' (first
    | with_reducible assumption
    | with_reducible exact Steady.refl _
    | with_reducible refine Steady.foldl ?_ _ ?_
    | with_reducible refine Steady.foldl_fst ?_ _ ?_
    | with_reducible refine Steady.setPin ?_ _ _
    | with_reducible refine Steady.catchUp ?_ _ _
    | intro _
    | dsimp only)

theorem Steady.pinsIdle {zs s : State} (hs : Steady zs s) (t tset inst : Nat) : Steady zs (s.pinsIdle t tset inst) := by
  unfold State.pinsIdle
  repeat' (first
    | with_reducible assumption
    | with_reducible exact Steady.refl _
    | with_reducible refine Steady.foldl ?_ _ ?_
    | with_reducible refine Steady.foldl_fst ?_ _ ?_
    | with_reducible refine Steady.pinIdle ?_ _ _ _ _
    | intro _)

theorem Steady.prunePin {zs s : State} (hs : Steady zs s) (g inst : Nat) : Steady zs (s.prunePin g inst) := by
  unfold State.prunePin
  repeat' (first
    | with_reducible assumption
    | with_reducible exact Steady.refl _
    | with_reducible refine Steady.setPin ?_ _ _
    | intro _
    | dsimp only)

theorem Steady.placeStrobe {zs s : State} (hs : Steady zs s) (g inst : Nat) : Steady zs (s.placeStrobe g inst) := by
  unfold State.placeStrobe
  repeat' (first
    | with_reducible assumption
    | with_reducible exact Steady.refl _
    | with_reducible refine Steady.ite ?_ ?_
    | with_reducible refine Steady.bumpBy ?_ _ _
    | with_reducible refine Steady.setPin ?_ _ _)

end Sys2Proof.Machine
end

