-- ==== Sys2Proof/Laws/SteadyFailFifo.lean ====
section
/-! SUPPORT. The operations of Machine/FailFifo.lean are steady. -/

namespace Sys2Proof.Machine

theorem Steady.fifoPut {zs s : State} (hs : Steady zs s) (t : Nat) (e : Nat) : Steady zs (s.fifoPut t e) := by
  unfold State.fifoPut
  repeat' (first
    | with_reducible assumption
    | with_reducible exact Steady.refl _
    | with_reducible refine Steady.ite ?_ ?_
    | with_reducible refine Steady.setFq ?_ _ _
    | with_reducible refine Steady.tlSource ?_ _ _
    | with_reducible refine Steady.localSource ?_ _ _)

theorem Steady.dropRecord {zs s : State} (hs : Steady zs s) (t vidx : Nat) (fail : Bool) (flags : Nat) : Steady zs (s.dropRecord t vidx fail flags) := by
  unfold State.dropRecord
  repeat' (first
    | with_reducible assumption
    | with_reducible exact Steady.refl _
    | with_reducible refine Steady.ite ?_ ?_
    | with_reducible refine Steady.mark ?_ _
    | with_reducible refine Steady.bump ?_ _
    | with_reducible refine Steady.setFq ?_ _ _
    | with_reducible refine Steady.tlSource ?_ _ _)

theorem Steady.fifoOffer {zs s : State} (hs : Steady zs s) (t e vidx : Nat) (fail : Bool) : Steady zs (s.fifoOffer t e vidx fail) := by
  unfold State.fifoOffer
  repeat' (first
    | with_reducible assumption
    | with_reducible exact Steady.refl _
    | with_reducible refine Steady.ite ?_ ?_
    | with_reducible refine Steady.fifoPut ?_ _ _
    | with_reducible refine Steady.dropRecord ?_ _ _ _ _
    | dsimp only
    | split)

theorem Steady.formRecord {zs s : State} (hs : Steady zs s) (t : Nat) (c : Cmp) : Steady zs (s.formRecord t c) := by
  unfold State.formRecord
  repeat' (first
    | with_reducible assumption
    | with_reducible exact Steady.refl _
    | with_reducible refine Steady.ite ?_ ?_
    | with_reducible refine Steady.bump ?_ _
    | with_reducible refine Steady.setFq ?_ _ _
    | with_reducible refine Steady.fifoOffer ?_ _ _ _ _
    | dsimp only
    | split)

theorem Steady.fifoFreed {zs s : State} (hs : Steady zs s) (t : Nat) : Steady zs (s.fifoFreed t) := by
  unfold State.fifoFreed
  repeat' (first
    | with_reducible assumption
    | with_reducible exact Steady.refl _
    | with_reducible refine Steady.ite ?_ ?_
    | with_reducible refine Steady.put ?_ _ _
    | with_reducible refine Steady.bump ?_ _
    | with_reducible refine Steady.setFq ?_ _ _
    | with_reducible refine Steady.fifoPut ?_ _ _
    | dsimp only
    | split)

theorem Steady.fifoTake {zs s : State} (hs : Steady zs s) (t : Nat) : Steady zs (s.fifoTake t).1 := by
  unfold State.fifoTake
  repeat' (first
    | with_reducible assumption
    | with_reducible exact Steady.refl _
    | with_reducible refine Steady.ite ?_ ?_
    | with_reducible refine Steady.ite_fst ?_ ?_
    | with_reducible refine Steady.mark ?_ _
    | with_reducible refine Steady.setFq ?_ _ _
    | with_reducible refine Steady.raiseLine ?_ _
    | with_reducible refine Steady.routeTaken ?_ _
    | with_reducible refine Steady.inject ?_ _ _
    | with_reducible refine Steady.fifoFreed ?_ _
    | dsimp only
    | split)

theorem Steady.fifoEmpty {zs s : State} (hs : Steady zs s) (t : Nat) : Steady zs (s.fifoEmpty t) := by
  unfold State.fifoEmpty
  repeat' (first
    | with_reducible assumption
    | with_reducible exact Steady.refl _
    | with_reducible refine Steady.put ?_ _ _
    | with_reducible refine Steady.setFq ?_ _ _
    | with_reducible refine Steady.routeEmptied ?_ _)

theorem Steady.applyDest {zs s : State} (hs : Steady zs s) (t : Nat) : Steady zs (s.applyDest t) := by
  unfold State.applyDest
  repeat' (first
    | with_reducible assumption
    | with_reducible exact Steady.refl _
    | with_reducible refine Steady.ite ?_ ?_
    | with_reducible refine Steady.put ?_ _ _
    | dsimp only
    | split)

theorem Steady.applyBound {zs s : State} (hs : Steady zs s) (t : Nat) (dest : Option Nat) : Steady zs (s.applyBound t dest) := by
  unfold State.applyBound
  repeat' (first
    | with_reducible assumption
    | with_reducible exact Steady.refl _
    | with_reducible refine Steady.ite ?_ ?_
    | with_reducible refine Steady.put ?_ _ _
    | dsimp only
    | split)

theorem Steady.endPacket {zs s : State} (hs : Steady zs s) (t : Nat) (p : PktEnd) : Steady zs (s.endPacket t p) := by
  unfold State.endPacket
  repeat' (first
    | with_reducible assumption
    | with_reducible exact Steady.refl _
    | with_reducible refine Steady.ite ?_ ?_
    | with_reducible refine Steady.setFq ?_ _ _
    | with_reducible refine Steady.routeBoundary ?_ _
    | with_reducible refine Steady.fifoOffer ?_ _ _ _ _
    | with_reducible refine Steady.applyBound ?_ _ _
    | dsimp only
    | split)

theorem Steady.closeRing {zs s : State} (hs : Steady zs s) (t : Nat) : Steady zs (s.closeRing t) := by
  unfold State.closeRing
  repeat' (first
    | with_reducible assumption
    | with_reducible exact Steady.refl _
    | with_reducible refine Steady.put ?_ _ _
    | with_reducible refine Steady.setCap ?_ _ _
    | dsimp only)

theorem Steady.endAcquisition {zs s : State} (hs : Steady zs s) (t why : Nat) : Steady zs (s.endAcquisition t why) := by
  unfold State.endAcquisition
  repeat' (first
    | with_reducible assumption
    | with_reducible exact Steady.refl _
    | with_reducible refine Steady.ite ?_ ?_
    | with_reducible refine Steady.put ?_ _ _
    | with_reducible refine Steady.bump ?_ _
    | with_reducible refine Steady.setCap ?_ _ _
    | with_reducible refine Steady.tlSource ?_ _ _
    | with_reducible refine Steady.closeRing ?_ _
    | dsimp only
    | split)

theorem Steady.armCapture {zs s : State} (hs : Steady zs s) (t : Nat) : Steady zs (s.armCapture t) := by
  unfold State.armCapture
  repeat' (first
    | with_reducible assumption
    | with_reducible exact Steady.refl _
    | with_reducible refine Steady.setReg ?_ _ _
    | with_reducible refine Steady.put ?_ _ _
    | with_reducible refine Steady.setCap ?_ _ _
    | dsimp only
    | split)

theorem Steady.autoRearm {zs s : State} (hs : Steady zs s) (t : Nat) : Steady zs (s.autoRearm t) := by
  unfold State.autoRearm
  repeat' (first
    | with_reducible assumption
    | with_reducible exact Steady.refl _
    | with_reducible refine Steady.ite ?_ ?_
    | with_reducible refine Steady.armCapture ?_ _)

theorem Steady.boundaryNow {zs s : State} (hs : Steady zs s) (t : Nat) (d : Deliver) : Steady zs (s.boundaryNow t d) := by
  cases d with
  | sample c => exact hs
  | packetEnd p => exact Steady.endPacket hs _ _
  | tillerStop n => exact Steady.ite (Steady.autoRearm (Steady.endAcquisition hs _ _) _) hs

theorem Steady.dropResolved {zs s : State} (hs : Steady zs s) (t : Nat) : Steady zs (s.dropResolved t) := by
  unfold State.dropResolved
  repeat' (first
    | with_reducible assumption
    | with_reducible exact Steady.refl _
    | with_reducible refine Steady.setCmp ?_ _ _
    | intro _
    | dsimp only
    | split)

theorem Steady.drain {zs s : State} (hs : Steady zs s) (t n : Nat) : Steady zs (s.drain t n) := by
  induction n generalizing s with
  | zero => exact hs
  | succ n ih =>
    unfold State.drain
    split
    · exact hs
    · dsimp only
      exact Steady.ite (ih (Steady.formRecord (hs.setCmp _ _) _ _)) hs
    · exact ih (Steady.boundaryNow (hs.setCmp _ _) _ _)

theorem Steady.drainAll {zs s : State} (hs : Steady zs s) (t : Nat) : Steady zs (s.drainAll t) := by
  unfold State.drainAll
  repeat' (first
    | with_reducible assumption
    | with_reducible exact Steady.refl _
    | with_reducible refine Steady.dropResolved ?_ _
    | with_reducible refine Steady.drain ?_ _ _
    | dsimp only)

theorem Steady.addBoundary {zs s : State} (hs : Steady zs s) (t : Nat) (d : Deliver) : Steady zs (s.addBoundary t d) := by
  unfold State.addBoundary
  repeat' (first
    | with_reducible assumption
    | with_reducible exact Steady.refl _
    | with_reducible refine Steady.setCmp ?_ _ _
    | with_reducible refine Steady.drainAll ?_ _)

theorem Steady.fifoDiscard {zs s : State} (hs : Steady zs s) (t : Nat) : Steady zs (s.fifoDiscard t) := by
  unfold State.fifoDiscard
  repeat' (first
    | with_reducible assumption
    | with_reducible exact Steady.refl _
    | with_reducible refine Steady.put ?_ _ _
    | with_reducible refine Steady.setFq ?_ _ _
    | with_reducible refine Steady.settleRoute ?_ _
    | with_reducible refine Steady.routeEmptied ?_ _
    | dsimp only)

theorem Steady.packetBoundary {zs s : State} (hs : Steady zs s) (t reason : Nat) : Steady zs (s.packetBoundary t reason) := by
  unfold State.packetBoundary
  repeat' (first
    | with_reducible assumption
    | with_reducible exact Steady.refl _
    | with_reducible refine Steady.ite ?_ ?_
    | with_reducible refine Steady.put ?_ _ _
    | with_reducible refine Steady.setCmp ?_ _ _
    | with_reducible refine Steady.applyDest ?_ _
    | with_reducible refine Steady.addBoundary ?_ _ _
    | with_reducible refine Steady.fifoDiscard ?_ _
    | dsimp only
    | split)

theorem Steady.flushNow {zs s : State} (hs : Steady zs s) (t : Nat) : Steady zs (s.flushNow t) := by
  unfold State.flushNow
  repeat' (first
    | with_reducible assumption
    | with_reducible exact Steady.refl _
    | with_reducible refine Steady.put ?_ _ _
    | with_reducible refine Steady.setCmp ?_ _ _
    | with_reducible refine Steady.fifoPut ?_ _ _
    | with_reducible refine Steady.fifoDiscard ?_ _
    | dsimp only)

theorem Steady.stopBoundary {zs s : State} (hs : Steady zs s) (t reason : Nat) : Steady zs (s.stopBoundary t reason) := by
  unfold State.stopBoundary
  repeat' (first
    | with_reducible assumption
    | with_reducible exact Steady.refl _
    | with_reducible refine Steady.ite ?_ ?_
    | with_reducible refine Steady.applyDest ?_ _
    | with_reducible refine Steady.packetBoundary ?_ _ _
    | with_reducible refine Steady.flushNow ?_ _
    | dsimp only
    | split)

theorem Steady.requestFlush {zs s : State} (hs : Steady zs s) (t : Nat) : Steady zs (s.requestFlush t) := by
  unfold State.requestFlush
  repeat' (first
    | with_reducible assumption
    | with_reducible exact Steady.refl _
    | with_reducible refine Steady.ite ?_ ?_
    | with_reducible refine Steady.mark ?_ _
    | with_reducible refine Steady.flushNow ?_ _)

theorem Steady.writeDest {zs s : State} (hs : Steady zs s) (t dest : Nat) : Steady zs (s.writeDest t dest) := by
  unfold State.writeDest
  repeat' (first
    | with_reducible assumption
    | with_reducible exact Steady.refl _
    | with_reducible refine Steady.ite ?_ ?_
    | with_reducible refine Steady.put ?_ _ _
    | with_reducible refine Steady.mark ?_ _
    | dsimp only
    | split)

theorem Steady.fifoRead {zs s : State} (hs : Steady zs s) (t : Nat) : Steady zs (s.fifoRead t).1 := by
  unfold State.fifoRead
  repeat' (first
    | with_reducible assumption
    | with_reducible exact Steady.refl _
    | with_reducible refine Steady.ite ?_ ?_
    | with_reducible refine Steady.ite_fst ?_ ?_
    | with_reducible refine Steady.put ?_ _ _
    | with_reducible refine Steady.mark ?_ _
    | with_reducible refine Steady.setFq ?_ _ _
    | with_reducible refine Steady.settleRoute ?_ _
    | with_reducible refine Steady.fifoTake ?_ _
    | dsimp only
    | split
    | refine Steady.of_pair (by assumption) ?_)

theorem Steady.captureRead {zs s : State} (hs : Steady zs s) (t : Nat) : Steady zs (s.captureRead t).1 := by
  unfold State.captureRead
  repeat' (first
    | with_reducible assumption
    | with_reducible exact Steady.refl _
    | with_reducible refine Steady.ite ?_ ?_
    | with_reducible refine Steady.ite_fst ?_ ?_
    | with_reducible refine Steady.put ?_ _ _
    | with_reducible refine Steady.mark ?_ _
    | with_reducible refine Steady.setCap ?_ _ _
    | with_reducible refine Steady.raiseLine ?_ _
    | with_reducible refine Steady.inject ?_ _ _
    | with_reducible refine Steady.autoRearm ?_ _
    | dsimp only
    | split)

end Sys2Proof.Machine
end

