-- ==== Sys2Proof/Laws/SteadyApg.lean ====
section
/-! SUPPORT. The operations of Machine/Apg.lean are steady. -/

namespace Sys2Proof.Machine

theorem Steady.genStep {zs s : State} (hs : Steady zs s) (t : Nat) (g : Gen) (op v : Nat) : Steady zs (s.genStep t g op v).1 := by
  unfold State.genStep
  repeat' (first
    | with_reducible assumption
    | with_reducible exact Steady.refl _
    | with_reducible refine Steady.put ?_ _ _
    | dsimp only
    | split)

theorem Steady.addrOp {zs s : State} (hs : Steady zs s) (t : Nat) (g : Gen) (o : AddrOp) : Steady zs (s.addrOp t g o) := by
  unfold State.addrOp
  repeat' (first
    | with_reducible assumption
    | with_reducible exact Steady.refl _
    | with_reducible refine Steady.ite ?_ ?_
    | with_reducible refine Steady.put ?_ _ _
    | with_reducible refine Steady.genStep ?_ _ _ _ _)

theorem Steady.dataOp {zs s : State} (hs : Steady zs s) (t op n : Nat) : Steady zs (s.dataOp t op n) := by
  unfold State.dataOp
  repeat' (first
    | with_reducible assumption
    | with_reducible exact Steady.refl _
    | with_reducible refine Steady.put ?_ _ _)

theorem Steady.loadAddr {zs s : State} (hs : Steady zs s) (t : Nat) (g : Gen) (opd : Nat) : Steady zs (s.loadAddr t g opd) := by
  unfold State.loadAddr
  repeat' (first
    | with_reducible assumption
    | with_reducible exact Steady.refl _
    | with_reducible refine Steady.ite ?_ ?_
    | with_reducible refine Steady.put ?_ _ _)

theorem Steady.loadData {zs s : State} (hs : Steady zs s) (t opd : Nat) : Steady zs (s.loadData t opd) := by
  unfold State.loadData
  repeat' (first
    | with_reducible assumption
    | with_reducible exact Steady.refl _
    | with_reducible refine Steady.put ?_ _ _)

theorem Steady.loadIndex {zs s : State} (hs : Steady zs s) (t opd : Nat) : Steady zs (s.loadIndex t opd) := by
  unfold State.loadIndex
  repeat' (first
    | with_reducible assumption
    | with_reducible exact Steady.refl _
    | with_reducible refine Steady.put ?_ _ _)

theorem Steady.apgStep {zs s : State} (hs : Steady zs s) (t : Nat) (v : Vec) : Steady zs (s.apgStep t v) := by
  unfold State.apgStep
  repeat' (first
    | with_reducible assumption
    | with_reducible exact Steady.refl _
    | with_reducible refine Steady.ite ?_ ?_
    | with_reducible refine Steady.put ?_ _ _
    | with_reducible refine Steady.genStep ?_ _ _ _ _
    | with_reducible refine Steady.dataOp ?_ _ _ _
    | with_reducible refine Steady.loadAddr ?_ _ _ _
    | with_reducible refine Steady.loadData ?_ _ _
    | with_reducible refine Steady.loadIndex ?_ _ _
    | dsimp only
    | split)

theorem Steady.apgWrite {zs s : State} (hs : Steady zs s) (t : Nat) (r : ApgReg) (w : Nat) : Steady zs (s.apgWrite t r w) := by
  unfold State.apgWrite
  repeat' (first
    | with_reducible assumption
    | with_reducible exact Steady.refl _
    | with_reducible refine Steady.ite ?_ ?_
    | with_reducible refine Steady.setReg ?_ _ _
    | with_reducible refine Steady.put ?_ _ _
    | with_reducible refine Steady.mark ?_ _
    | dsimp only
    | split)

end Sys2Proof.Machine
end

