-- ==== Sys2Proof/Laws/SteadySegments.lean ====
section
/-! SUPPORT. The operations of Machine/Segments.lean are steady. -/

namespace Sys2Proof.Machine

theorem Steady.refuseSegment {zs s : State} (hs : Steady zs s) (t n cause : Nat) : Steady zs (s.refuseSegment t n cause) := by
  unfold State.refuseSegment
  repeat' (first
    | with_reducible assumption
    | with_reducible exact Steady.refl _
    | with_reducible refine Steady.put ?_ _ _
    | with_reducible refine Steady.mark ?_ _)

theorem Steady.discardStream {zs s : State} (hs : Steady zs s) (t : Nat) : Steady zs (s.discardStream t) := by
  unfold State.discardStream
  repeat' (first
    | with_reducible assumption
    | with_reducible exact Steady.refl _
    | with_reducible refine Steady.put ?_ _ _
    | with_reducible refine Steady.bumpBy ?_ _ _
    | with_reducible refine Steady.setStrm ?_ _ _)

theorem Steady.beginFetch {zs s : State} (hs : Steady zs s) (t n : Nat) (d : SegDesc) : Steady zs (s.beginFetch t n d) := by
  unfold State.beginFetch
  repeat' (first
    | with_reducible assumption
    | with_reducible exact Steady.refl _
    | with_reducible refine Steady.setStrm ?_ _ _
    | with_reducible refine Steady.discardStream ?_ _)

theorem Steady.prime {zs s : State} (hs : Steady zs s) (t n : Nat) : Steady zs (s.prime t n) := by
  unfold State.prime
  repeat' (first
    | with_reducible assumption
    | with_reducible exact Steady.refl _
    | with_reducible refine Steady.ite ?_ ?_
    | with_reducible refine Steady.put ?_ _ _
    | with_reducible refine Steady.mark ?_ _
    | with_reducible refine Steady.bump ?_ _
    | with_reducible refine Steady.refuseSegment ?_ _ _ _
    | with_reducible refine Steady.beginFetch ?_ _ _ _)

theorem Steady.takePrimes {zs s : State} (hs : Steady zs s) (t inst : Nat) : Steady zs (s.takePrimes t inst) := by
  unfold State.takePrimes
  repeat' (first
    | with_reducible assumption
    | with_reducible exact Steady.refl _
    | with_reducible refine Steady.ite ?_ ?_
    | with_reducible refine Steady.foldl ?_ _ ?_
    | with_reducible refine Steady.foldl_fst ?_ _ ?_
    | with_reducible refine Steady.setTl ?_ _ _
    | with_reducible refine Steady.prime ?_ _ _
    | intro _
    | dsimp only
    | split)

theorem Steady.readLine {zs s : State} (hs : Steady zs s) (d : SegDesc) (i : Nat) : Steady zs (s.readLine d i).1 := by
  have h : ∀ n : Nat, Steady zs (let r := s.dramCheck (d.address + 4 * i) n
      (r.1, (List.range (min 16 (d.length - i))).map (fun j => (⟨i + j, s.loadLE (d.address + 4 * i + 4 * j) 4, r.2⟩ : StreamVec)))).1 :=
    fun n => Steady.dramCheck hs _ n
  exact h 64

theorem Steady.takeLine {zs s : State} (hs : Steady zs s) (t : Nat) : Steady zs (s.takeLine t) := by
  unfold State.takeLine
  repeat' (first
    | with_reducible assumption
    | with_reducible exact Steady.refl _
    | with_reducible refine Steady.ite ?_ ?_
    | with_reducible refine Steady.setStrm ?_ _ _
    | with_reducible refine Steady.readLine ?_ _ _
    | dsimp only
    | split)

theorem Steady.streamLine {zs s : State} (hs : Steady zs s) (t : Nat) : Steady zs (s.streamLine t) := by
  unfold State.streamLine
  repeat' (first
    | with_reducible assumption
    | with_reducible exact Steady.refl _
    | with_reducible refine Steady.ite ?_ ?_
    | with_reducible refine Steady.modTl ?_ _ _
    | with_reducible refine Steady.takePrimes ?_ _ _
    | with_reducible refine Steady.takeLine ?_ _
    | intro _
    | dsimp only
    | split)

theorem Steady.enterStream {zs s : State} (hs : Steady zs s) (t n : Nat) (d : SegDesc) : Steady zs (s.enterStream t n d) := by
  unfold State.enterStream
  repeat' (first
    | with_reducible assumption
    | with_reducible exact Steady.refl _
    | with_reducible refine Steady.ite ?_ ?_
    | with_reducible refine Steady.put ?_ _ _
    | with_reducible refine Steady.setStrm ?_ _ _
    | with_reducible refine Steady.beginFetch ?_ _ _ _
    | dsimp only
    | split)

theorem Steady.nextPassStream {zs s : State} (hs : Steady zs s) (t : Nat) : Steady zs (s.nextPassStream t) := by
  unfold State.nextPassStream
  repeat' (first
    | with_reducible assumption
    | with_reducible exact Steady.refl _
    | with_reducible refine Steady.ite ?_ ?_
    | with_reducible refine Steady.setStrm ?_ _ _)

theorem Steady.descriptorWritten {zs s : State} (hs : Steady zs s) (t n : Nat) : Steady zs (s.descriptorWritten t n) := by
  unfold State.descriptorWritten
  repeat' (first
    | with_reducible assumption
    | with_reducible exact Steady.refl _
    | with_reducible refine Steady.ite ?_ ?_
    | with_reducible refine Steady.bumpBy ?_ _ _
    | with_reducible refine Steady.setStrm ?_ _ _
    | with_reducible refine Steady.discardStream ?_ _
    | dsimp only
    | split)

theorem Steady.leaveStream {zs s : State} (hs : Steady zs s) (t : Nat) : Steady zs (s.leaveStream t) := by
  unfold State.leaveStream
  repeat' (first
    | with_reducible assumption
    | with_reducible exact Steady.refl _
    | with_reducible refine Steady.ite ?_ ?_
    | with_reducible refine Steady.discardStream ?_ _)

end Sys2Proof.Machine
end

