-- ==== Sys2Proof/Laws/SteadyLevels.lean ====
section
/-! SUPPORT. The operations of Machine/Levels.lean are steady. -/

namespace Sys2Proof.Machine

theorem Steady.queueLevel {zs s : State} (hs : Steady zs s) (t : Nat) (e : LvlEntry) : Steady zs (s.queueLevel t e) := by
  unfold State.queueLevel
  repeat' (first
    | with_reducible assumption
    | with_reducible exact Steady.refl _
    | with_reducible refine Steady.setLvl ?_ _ _)

theorem Steady.discardLevels {zs s : State} (hs : Steady zs s) (t : Nat) : Steady zs (s.discardLevels t) := by
  unfold State.discardLevels
  repeat' (first
    | with_reducible assumption
    | with_reducible exact Steady.refl _
    | with_reducible refine Steady.setLvl ?_ _ _)

theorem Steady.lvlFlag {zs s : State} (hs : Steady zs s) (t : Nat) (f : Field) : Steady zs (s.lvlFlag t f) := by
  unfold State.lvlFlag
  repeat' (first
    | with_reducible assumption
    | with_reducible exact Steady.refl _
    | with_reducible refine Steady.mark ?_ _
    | with_reducible refine Steady.tlSource ?_ _ _)

theorem Steady.applyChange {zs s : State} (hs : Steady zs s) (t : Nat) (ws : List Nat) (w : Nat) : Steady zs (s.applyChange t ws w).1 := by
  unfold State.applyChange
  repeat' (first
    | with_reducible assumption
    | with_reducible exact Steady.refl _
    | with_reducible refine Steady.ite ?_ ?_
    | with_reducible refine Steady.ite_fst ?_ ?_
    | with_reducible refine Steady.put ?_ _ _
    | with_reducible refine Steady.draw ?_
    | with_reducible refine Steady.writeCode ?_ _ _ _
    | with_reducible refine Steady.changeRange ?_ _ _ _
    | with_reducible refine Steady.followTie ?_ _
    | dsimp only
    | split)

theorem Steady.logDone {zs s : State} (hs : Steady zs s) (t w : Nat) : Steady zs (s.logDone t w) := by
  unfold State.logDone
  repeat' (first
    | with_reducible assumption
    | with_reducible exact Steady.refl _
    | with_reducible refine Steady.ite ?_ ?_
    | with_reducible refine Steady.setLvl ?_ _ _
    | with_reducible refine Steady.lvlFlag ?_ _ _)

theorem Steady.applyLevels {zs s : State} (hs : Steady zs s) (t : Nat) : Steady zs (s.applyLevels t) := by
  unfold State.applyLevels
  repeat' (first
    | with_reducible assumption
    | with_reducible exact Steady.refl _
    | with_reducible refine Steady.ite ?_ ?_
    | with_reducible refine Steady.foldl ?_ _ ?_
    | with_reducible refine Steady.foldl_fst ?_ _ ?_
    | with_reducible refine Steady.setLvl ?_ _ _
    | with_reducible refine Steady.advInst ?_ _
    | with_reducible refine Steady.tlSource ?_ _ _
    | with_reducible refine Steady.localSource ?_ _ _
    | with_reducible refine Steady.tag ?_ _ _
    | with_reducible refine Steady.lvlFlag ?_ _ _
    | with_reducible refine Steady.applyChange ?_ _ _ _
    | with_reducible refine Steady.logDone ?_ _ _
    | intro _
    | dsimp only
    | split
    | refine Steady.of_pair (by assumption) ?_)

theorem Steady.readDone {zs s : State} (hs : Steady zs s) (t : Nat) : Steady zs (s.readDone t).1 := by
  unfold State.readDone
  repeat' (first
    | with_reducible assumption
    | with_reducible exact Steady.refl _
    | with_reducible refine Steady.setLvl ?_ _ _
    | with_reducible refine Steady.lvlFlag ?_ _ _
    | dsimp only
    | split)

theorem Steady.writeLevel {zs s : State} (hs : Steady zs s) (g k code : Nat) : Steady zs (s.writeLevel g k code) := by
  unfold State.writeLevel
  repeat' (first
    | with_reducible assumption
    | with_reducible exact Steady.refl _
    | with_reducible refine Steady.ite ?_ ?_
    | with_reducible refine Steady.put ?_ _ _
    | with_reducible refine Steady.mark ?_ _
    | with_reducible refine Steady.followTie ?_ _
    | dsimp only
    | split)

end Sys2Proof.Machine
end

