-- ==== Sys2Proof/Laws/SteadyTiller.lean ====
section
/-! SUPPORT. The operations of Machine/Tiller.lean are steady. -/

namespace Sys2Proof.Machine

theorem Steady.endStep {zs s : State} (hs : Steady zs s) (t : Nat) : Steady zs (s.endStep t) := by
  unfold State.endStep
  repeat' (first
    | with_reducible assumption
    | with_reducible exact Steady.refl _
    | with_reducible refine Steady.ite ?_ ?_
    | with_reducible refine Steady.foldl ?_ _ ?_
    | with_reducible refine Steady.foldl_fst ?_ _ ?_
    | with_reducible refine Steady.put ?_ _ _
    | with_reducible refine Steady.setPin ?_ _ _
    | with_reducible refine Steady.setCalTl ?_ _ _
    | intro _
    | dsimp only
    | split)

theorem Steady.endInterval {zs s : State} (hs : Steady zs s) (t : Nat) : Steady zs (s.endInterval t) := by
  unfold State.endInterval
  repeat' (first
    | with_reducible assumption
    | with_reducible exact Steady.refl _
    | with_reducible refine Steady.setCalTl ?_ _ _
    | with_reducible refine Steady.endStep ?_ _
    | dsimp only)

theorem Steady.leaveSegment {zs s : State} (hs : Steady zs s) (t : Nat) : Steady zs (s.leaveSegment t) := by
  unfold State.leaveSegment
  repeat' (first
    | with_reducible assumption
    | with_reducible exact Steady.refl _
    | with_reducible refine Steady.put ?_ _ _)

theorem Steady.traceSegment {zs s : State} (hs : Steady zs s) (t : Nat) (d : SegDesc) : Steady zs (s.traceSegment t d) := by
  unfold State.traceSegment
  repeat' (first
    | with_reducible assumption
    | with_reducible exact Steady.refl _
    | with_reducible refine Steady.ite ?_ ?_
    | with_reducible refine Steady.trace ?_ _ _ _ _)

theorem Steady.packetIf {zs s : State} (hs : Steady zs s) (t : Nat) : Steady zs (s.packetIf t) := by
  unfold State.packetIf
  repeat' (first
    | with_reducible assumption
    | with_reducible exact Steady.refl _
    | with_reducible refine Steady.ite ?_ ?_
    | with_reducible refine Steady.packetBoundary ?_ _ _)

theorem Steady.becomeCurrent {zs s : State} (hs : Steady zs s) (t n : Nat) (d : SegDesc) (pass : Nat) : Steady zs (s.becomeCurrent t n d pass) := by
  unfold State.becomeCurrent
  repeat' (first
    | with_reducible assumption
    | with_reducible exact Steady.refl _
    | with_reducible refine Steady.setReg ?_ _ _
    | with_reducible refine Steady.put ?_ _ _
    | with_reducible refine Steady.setTl ?_ _ _
    | with_reducible refine Steady.traceSegment ?_ _ _
    | with_reducible refine Steady.packetIf ?_ _)

theorem Steady.pushCall {zs s : State} (hs : Steady zs s) (t ret : Nat) (inSeg : Bool) : Steady zs (s.pushCall t ret inSeg) := by
  unfold State.pushCall
  repeat' (first
    | with_reducible assumption
    | with_reducible exact Steady.refl _
    | with_reducible refine Steady.setReg ?_ _ _
    | with_reducible refine Steady.put ?_ _ _
    | with_reducible refine Steady.setTl ?_ _ _)

theorem Steady.popCall {zs s : State} (hs : Steady zs s) (t : Nat) : Steady zs (s.popCall t).1 := by
  unfold State.popCall
  repeat' (first
    | with_reducible assumption
    | with_reducible exact Steady.refl _
    | with_reducible refine Steady.put ?_ _ _
    | with_reducible refine Steady.setTl ?_ _ _)

theorem Steady.emptyStack {zs s : State} (hs : Steady zs s) (t : Nat) : Steady zs (s.emptyStack t) := by
  unfold State.emptyStack
  repeat' (first
    | with_reducible assumption
    | with_reducible exact Steady.refl _
    | with_reducible refine Steady.foldl ?_ _ ?_
    | with_reducible refine Steady.foldl_fst ?_ _ ?_
    | with_reducible refine Steady.put ?_ _ _
    | intro _)

theorem Steady.discardAhead {zs s : State} (hs : Steady zs s) (t : Nat) : Steady zs (s.discardAhead t) := by
  unfold State.discardAhead
  repeat' (first
    | with_reducible assumption
    | with_reducible exact Steady.refl _
    | with_reducible refine Steady.ite ?_ ?_
    | with_reducible refine Steady.bumpBy ?_ _ _
    | with_reducible refine Steady.setTl ?_ _ _
    | dsimp only
    | split)

theorem Steady.stopEngine {zs s : State} (hs : Steady zs s) (t state cause inst reason : Nat) (safe : Bool) : Steady zs (s.stopEngine t state cause inst reason safe) := by
  unfold State.stopEngine
  repeat' (first
    | with_reducible assumption
    | with_reducible exact Steady.refl _
    | with_reducible refine Steady.ite ?_ ?_
    | with_reducible refine Steady.put ?_ _ _
    | with_reducible refine Steady.bumpBy ?_ _ _
    | with_reducible refine Steady.putBit ?_ _ _ _
    | with_reducible refine Steady.setTl ?_ _ _
    | with_reducible refine Steady.advInst ?_ _
    | with_reducible refine Steady.tlSource ?_ _ _
    | with_reducible refine Steady.tag ?_ _ _
    | with_reducible refine Steady.trace ?_ _ _ _ _
    | with_reducible refine Steady.completeResult ?_ _
    | with_reducible refine Steady.leaveRendezvous ?_ _
    | with_reducible refine Steady.safePoint ?_ _
    | with_reducible refine Steady.outputsSafe ?_ _ _
    | with_reducible refine Steady.pinsIdle ?_ _ _ _
    | with_reducible refine Steady.addBoundary ?_ _ _
    | with_reducible refine Steady.stopBoundary ?_ _ _
    | with_reducible refine Steady.leaveStream ?_ _
    | with_reducible refine Steady.discardLevels ?_ _
    | with_reducible refine Steady.endStep ?_ _
    | with_reducible refine Steady.discardAhead ?_ _
    | dsimp only
    | split)

theorem Steady.startEngine {zs s : State} (hs : Steady zs s) (t : Nat) (byReg : Bool) : Steady zs (s.startEngine t byReg).1 := by
  unfold State.startEngine
  repeat' (first
    | with_reducible assumption
    | with_reducible exact Steady.refl _
    | with_reducible refine Steady.ite ?_ ?_
    | with_reducible refine Steady.ite_fst ?_ ?_
    | with_reducible refine Steady.foldl ?_ _ ?_
    | with_reducible refine Steady.foldl_fst ?_ _ ?_
    | with_reducible refine Steady.put ?_ _ _
    | with_reducible refine Steady.mark ?_ _
    | with_reducible refine Steady.put48 ?_ _ _ _
    | with_reducible refine Steady.setTl ?_ _ _
    | with_reducible refine Steady.setCmp ?_ _ _
    | with_reducible refine Steady.setCap ?_ _ _
    | with_reducible refine Steady.setPin ?_ _ _
    | with_reducible refine Steady.rejoin ?_ _
    | with_reducible refine Steady.trace ?_ _ _ _ _
    | with_reducible refine Steady.refuseSegment ?_ _ _ _
    | with_reducible refine Steady.endInterval ?_ _
    | with_reducible refine Steady.emptyStack ?_ _
    | intro _
    | dsimp only
    | split)

theorem Steady.enterGap {zs s : State} (hs : Steady zs s) (t inst len tset : Nat) (segment : Bool) : Steady zs (s.enterGap t inst len tset segment) := by
  unfold State.enterGap
  repeat' (first
    | with_reducible assumption
    | with_reducible exact Steady.refl _
    | with_reducible refine Steady.ite ?_ ?_
    | with_reducible refine Steady.mark ?_ _
    | with_reducible refine Steady.setTl ?_ _ _
    | with_reducible refine Steady.modTl ?_ _ _
    | with_reducible refine Steady.safePoint ?_ _
    | with_reducible refine Steady.pinsIdle ?_ _ _ _
    | with_reducible refine Steady.leaveSegment ?_ _
    | intro _
    | dsimp only
    | split)

theorem Steady.toFirst {zs s : State} (hs : Steady zs s) (t inst : Nat) : Steady zs (s.toFirst t inst) := by
  unfold State.toFirst
  repeat' (first
    | with_reducible assumption
    | with_reducible exact Steady.refl _
    | with_reducible refine Steady.ite ?_ ?_
    | with_reducible refine Steady.put ?_ _ _
    | with_reducible refine Steady.modTl ?_ _ _)

theorem Steady.enterChecked {zs s : State} (hs : Steady zs s) (t n inst : Nat) (d : SegDesc) : Steady zs (s.enterChecked t n inst d) := by
  unfold State.enterChecked
  repeat' (first
    | with_reducible assumption
    | with_reducible exact Steady.refl _
    | with_reducible refine Steady.ite ?_ ?_
    | with_reducible refine Steady.enterStream ?_ _ _ _
    | with_reducible refine Steady.leaveStream ?_ _
    | with_reducible refine Steady.becomeCurrent ?_ _ _ _ _
    | with_reducible refine Steady.enterGap ?_ _ _ _ _ _
    | with_reducible refine Steady.toFirst ?_ _ _)

theorem Steady.startAt {zs s : State} (hs : Steady zs s) (t inst : Nat) (byReg : Bool) : Steady zs (s.startAt t inst byReg) := by
  unfold State.startAt
  repeat' (first
    | with_reducible assumption
    | with_reducible exact Steady.refl _
    | with_reducible refine Steady.ite ?_ ?_
    | with_reducible refine Steady.startEngine ?_ _ _
    | with_reducible refine Steady.enterChecked ?_ _ _ _ _)

theorem Steady.afterStop {zs s : State} (hs : Steady zs s) (t inst : Nat) (again : Bool) : Steady zs (s.afterStop t inst again) := by
  unfold State.afterStop
  repeat' (first
    | with_reducible assumption
    | with_reducible exact Steady.refl _
    | with_reducible refine Steady.ite ?_ ?_
    | with_reducible refine Steady.startAt ?_ _ _ _)

theorem Steady.clearBreak {zs s : State} (hs : Steady zs s) (t : Nat) : Steady zs (s.clearBreak t) := by
  unfold State.clearBreak
  repeat' (first
    | with_reducible assumption
    | with_reducible exact Steady.refl _
    | with_reducible refine Steady.put ?_ _ _
    | with_reducible refine Steady.putBit ?_ _ _ _)

theorem Steady.countPass {zs s : State} (hs : Steady zs s) (t : Nat) : Steady zs (s.countPass t) := by
  unfold State.countPass
  repeat' (first
    | with_reducible assumption
    | with_reducible exact Steady.refl _
    | with_reducible refine Steady.ite ?_ ?_
    | with_reducible refine Steady.setReg ?_ _ _
    | with_reducible refine Steady.modTl ?_ _ _
    | with_reducible refine Steady.packetBoundary ?_ _ _
    | with_reducible refine Steady.leaveSegment ?_ _
    | with_reducible refine Steady.clearBreak ?_ _
    | intro _
    | dsimp only
    | split)

theorem Steady.lastPass {zs s : State} (hs : Steady zs s) (t : Nat) : Steady zs (s.lastPass t) := by
  unfold State.lastPass
  repeat' (first
    | with_reducible assumption
    | with_reducible exact Steady.refl _
    | with_reducible refine Steady.ite ?_ ?_
    | with_reducible refine Steady.countPass ?_ _
    | dsimp only
    | split)

theorem Steady.haltNow {zs s : State} (hs : Steady zs s) (t inst code : Nat) : Steady zs (s.haltNow t inst code) := by
  unfold State.haltNow
  repeat' (first
    | with_reducible assumption
    | with_reducible exact Steady.refl _
    | with_reducible refine Steady.put ?_ _ _
    | with_reducible refine Steady.stopEngine ?_ _ _ _ _ _ _
    | with_reducible refine Steady.afterStop ?_ _ _ _
    | dsimp only)

theorem Steady.stopNow {zs s : State} (hs : Steady zs s) (t inst : Nat) : Steady zs (s.stopNow t inst) := by
  unfold State.stopNow
  repeat' (first
    | with_reducible assumption
    | with_reducible exact Steady.refl _
    | with_reducible refine Steady.tag ?_ _ _
    | with_reducible refine Steady.stopEngine ?_ _ _ _ _ _ _
    | with_reducible refine Steady.afterStop ?_ _ _ _
    | with_reducible refine Steady.lastPass ?_ _
    | dsimp only
    | split)

theorem Steady.underrun {zs s : State} (hs : Steady zs s) (t inst : Nat) : Steady zs (s.underrun t inst) := by
  unfold State.underrun
  repeat' (first
    | with_reducible assumption
    | with_reducible exact Steady.refl _
    | with_reducible refine Steady.stopEngine ?_ _ _ _ _ _ _)

theorem Steady.notMember {zs s : State} (hs : Steady zs s) (t inst : Nat) : Steady zs (s.notMember t inst) := by
  unfold State.notMember
  repeat' (first
    | with_reducible assumption
    | with_reducible exact Steady.refl _
    | with_reducible refine Steady.tag ?_ _ _
    | with_reducible refine Steady.stopEngine ?_ _ _ _ _ _ _
    | with_reducible refine Steady.afterStop ?_ _ _ _
    | with_reducible refine Steady.lastPass ?_ _
    | dsimp only)

theorem Steady.faultNow {zs s : State} (hs : Steady zs s) (t cause idx opc inst : Nat) : Steady zs (s.faultNow t cause idx opc inst) := by
  unfold State.faultNow
  repeat' (first
    | with_reducible assumption
    | with_reducible exact Steady.refl _
    | with_reducible refine Steady.put ?_ _ _
    | with_reducible refine Steady.raiseLine ?_ _
    | with_reducible refine Steady.trace ?_ _ _ _ _
    | with_reducible refine Steady.stopEngine ?_ _ _ _ _ _ _
    | dsimp only)

theorem Steady.faultOrStop {zs s : State} (hs : Steady zs s) (t cause inst : Nat) : Steady zs (s.faultOrStop t cause inst) := by
  unfold State.faultOrStop
  repeat' (first
    | with_reducible assumption
    | with_reducible exact Steady.refl _
    | with_reducible refine Steady.ite ?_ ?_
    | with_reducible refine Steady.stopNow ?_ _ _
    | with_reducible refine Steady.faultNow ?_ _ _ _ _ _
    | dsimp only
    | split)

theorem Steady.enterSegment {zs s : State} (hs : Steady zs s) (t n inst : Nat) : Steady zs (s.enterSegment t n inst) := by
  unfold State.enterSegment
  repeat' (first
    | with_reducible assumption
    | with_reducible exact Steady.refl _
    | with_reducible refine Steady.ite ?_ ?_
    | with_reducible refine Steady.enterChecked ?_ _ _ _ _
    | with_reducible refine Steady.stopNow ?_ _ _
    | with_reducible refine Steady.faultOrStop ?_ _ _ _
    | dsimp only
    | split)

theorem Steady.goTo {zs s : State} (hs : Steady zs s) (t idx inst : Nat) : Steady zs (s.goTo t idx inst) := by
  unfold State.goTo
  repeat' (first
    | with_reducible assumption
    | with_reducible exact Steady.refl _
    | with_reducible refine Steady.modTl ?_ _ _
    | intro _
    | dsimp only)

theorem Steady.returnTo {zs s : State} (hs : Steady zs s) (t inst : Nat) : Steady zs (s.returnTo t inst) := by
  unfold State.returnTo
  repeat' (first
    | with_reducible assumption
    | with_reducible exact Steady.refl _
    | with_reducible refine Steady.ite ?_ ?_
    | with_reducible refine Steady.put ?_ _ _
    | with_reducible refine Steady.leaveStream ?_ _
    | with_reducible refine Steady.becomeCurrent ?_ _ _ _ _
    | with_reducible refine Steady.popCall ?_ _
    | with_reducible refine Steady.faultOrStop ?_ _ _ _
    | with_reducible refine Steady.goTo ?_ _ _ _
    | dsimp only
    | split)

theorem Steady.transferOut {zs s : State} (hs : Steady zs s) (t dest : Nat) (push traced : Bool) : Steady zs (s.transferOut t dest push traced) := by
  unfold State.transferOut
  repeat' (first
    | with_reducible assumption
    | with_reducible exact Steady.refl _
    | with_reducible refine Steady.ite ?_ ?_
    | with_reducible refine Steady.mark ?_ _
    | with_reducible refine Steady.trace ?_ _ _ _ _
    | with_reducible refine Steady.packetBoundary ?_ _ _
    | with_reducible refine Steady.leaveStream ?_ _
    | with_reducible refine Steady.leaveSegment ?_ _
    | with_reducible refine Steady.pushCall ?_ _ _ _)

theorem Steady.parkAt {zs s : State} (hs : Steady zs s) (t why : Nat) (p : Park) (inst : Nat) : Steady zs (s.parkAt t why p inst) := by
  unfold State.parkAt
  repeat' (first
    | with_reducible assumption
    | with_reducible exact Steady.refl _
    | with_reducible refine Steady.ite ?_ ?_
    | with_reducible refine Steady.put ?_ _ _
    | with_reducible refine Steady.setTl ?_ _ _
    | with_reducible refine Steady.advInst ?_ _
    | with_reducible refine Steady.tlSource ?_ _ _
    | with_reducible refine Steady.trace ?_ _ _ _ _
    | with_reducible refine Steady.pinsIdle ?_ _ _ _)

theorem Steady.unparkAt {zs s : State} (hs : Steady zs s) (t inst : Nat) (dest : Option Nat) : Steady zs (s.unparkAt t inst dest) := by
  unfold State.unparkAt
  repeat' (first
    | with_reducible assumption
    | with_reducible exact Steady.refl _
    | with_reducible refine Steady.put ?_ _ _
    | with_reducible refine Steady.putBit ?_ _ _ _
    | with_reducible refine Steady.setTl ?_ _ _
    | with_reducible refine Steady.advInst ?_ _
    | with_reducible refine Steady.trace ?_ _ _ _ _)

theorem Steady.passEnd {zs s : State} (hs : Steady zs s) (t inst : Nat) : Steady zs (s.passEnd t inst) := by
  unfold State.passEnd
  repeat' (first
    | with_reducible assumption
    | with_reducible exact Steady.refl _
    | with_reducible refine Steady.ite ?_ ?_
    | with_reducible refine Steady.putBit ?_ _ _ _
    | with_reducible refine Steady.modTl ?_ _ _
    | with_reducible refine Steady.safePoint ?_ _
    | with_reducible refine Steady.traceSegment ?_ _ _
    | with_reducible refine Steady.countPass ?_ _
    | with_reducible refine Steady.parkAt ?_ _ _ _ _
    | intro _
    | dsimp only
    | split)

theorem Steady.nextPass {zs s : State} (hs : Steady zs s) (t inst : Nat) : Steady zs (s.nextPass t inst) := by
  unfold State.nextPass
  repeat' (first
    | with_reducible assumption
    | with_reducible exact Steady.refl _
    | with_reducible refine Steady.ite ?_ ?_
    | with_reducible refine Steady.nextPassStream ?_ _
    | with_reducible refine Steady.toFirst ?_ _ _)

theorem Steady.takeLink {zs s : State} (hs : Steady zs s) (t inst : Nat) : Steady zs (s.takeLink t inst) := by
  unfold State.takeLink
  repeat' (first
    | with_reducible assumption
    | with_reducible exact Steady.refl _
    | with_reducible refine Steady.haltNow ?_ _ _ _
    | with_reducible refine Steady.enterSegment ?_ _ _ _
    | with_reducible refine Steady.returnTo ?_ _ _
    | dsimp only
    | split)

theorem Steady.afterPass {zs s : State} (hs : Steady zs s) (t inst : Nat) : Steady zs (s.afterPass t inst) := by
  unfold State.afterPass
  repeat' (first
    | with_reducible assumption
    | with_reducible exact Steady.refl _
    | with_reducible refine Steady.ite ?_ ?_
    | with_reducible refine Steady.nextPass ?_ _ _
    | with_reducible refine Steady.takeLink ?_ _ _
    | dsimp only
    | split)

theorem Steady.periodEnd {zs s : State} (hs : Steady zs s) (t : Nat) : Steady zs (s.periodEnd t) := by
  unfold State.periodEnd
  repeat' (first
    | with_reducible assumption
    | with_reducible exact Steady.refl _
    | with_reducible refine Steady.ite ?_ ?_
    | with_reducible refine Steady.modTl ?_ _ _
    | with_reducible refine Steady.enterGap ?_ _ _ _ _ _
    | with_reducible refine Steady.lastPass ?_ _
    | with_reducible refine Steady.haltNow ?_ _ _ _
    | with_reducible refine Steady.stopNow ?_ _ _
    | with_reducible refine Steady.notMember ?_ _ _
    | with_reducible refine Steady.faultOrStop ?_ _ _ _
    | with_reducible refine Steady.enterSegment ?_ _ _ _
    | with_reducible refine Steady.goTo ?_ _ _ _
    | with_reducible refine Steady.returnTo ?_ _ _
    | with_reducible refine Steady.transferOut ?_ _ _ _ _
    | with_reducible refine Steady.parkAt ?_ _ _ _ _
    | with_reducible refine Steady.passEnd ?_ _ _
    | with_reducible refine Steady.nextPass ?_ _ _
    | with_reducible refine Steady.takeLink ?_ _ _
    | with_reducible refine Steady.afterPass ?_ _ _
    | intro _
    | dsimp only
    | split)

theorem Steady.settle {zs s : State} (hs : Steady zs s) (t inst : Nat) : Steady zs (s.settle t inst) := by
  unfold State.settle
  repeat' (first
    | with_reducible assumption
    | with_reducible exact Steady.refl _
    | with_reducible refine Steady.ite ?_ ?_
    | with_reducible refine Steady.advInst ?_ _
    | with_reducible refine Steady.periodEnd ?_ _
    | dsimp only
    | split)

theorem Steady.requestStop {zs s : State} (hs : Steady zs s) (t inst : Nat) : Steady zs (s.requestStop t inst) := by
  unfold State.requestStop
  repeat' (first
    | with_reducible assumption
    | with_reducible exact Steady.refl _
    | with_reducible refine Steady.ite ?_ ?_
    | with_reducible refine Steady.modTl ?_ _ _
    | with_reducible refine Steady.stopNow ?_ _ _
    | intro _
    | dsimp only
    | split)

theorem Steady.safeStop {zs s : State} (hs : Steady zs s) (t : Nat) : Steady zs (s.safeStop t) := by
  unfold State.safeStop
  repeat' (first
    | with_reducible assumption
    | with_reducible exact Steady.refl _
    | with_reducible refine Steady.ite ?_ ?_
    | with_reducible refine Steady.tag ?_ _ _
    | with_reducible refine Steady.invalidate ?_ _
    | with_reducible refine Steady.outputsSafe ?_ _ _
    | with_reducible refine Steady.drainAll ?_ _
    | with_reducible refine Steady.discardLevels ?_ _
    | with_reducible refine Steady.requestStop ?_ _ _
    | dsimp only
    | split)

theorem Steady.shutStop {zs s : State} (hs : Steady zs s) (t : Nat) : Steady zs (s.shutStop t) := by
  unfold State.shutStop
  repeat' (first
    | with_reducible assumption
    | with_reducible exact Steady.refl _
    | with_reducible refine Steady.ite ?_ ?_
    | with_reducible refine Steady.tag ?_ _ _
    | with_reducible refine Steady.invalidate ?_ _
    | with_reducible refine Steady.outputsSafe ?_ _ _
    | with_reducible refine Steady.discardLevels ?_ _
    | with_reducible refine Steady.stopEngine ?_ _ _ _ _ _ _
    | dsimp only
    | split)

theorem Steady.runWrite {zs s : State} (hs : Steady zs s) (t : Nat) : Steady zs (s.runWrite t) := by
  unfold State.runWrite
  repeat' (first
    | with_reducible assumption
    | with_reducible exact Steady.refl _
    | with_reducible refine Steady.startAt ?_ _ _ _)

theorem Steady.resumeWrite {zs s : State} (hs : Steady zs s) (t : Nat) : Steady zs (s.resumeWrite t) := by
  unfold State.resumeWrite
  repeat' (first
    | with_reducible assumption
    | with_reducible exact Steady.refl _
    | with_reducible refine Steady.ite ?_ ?_
    | with_reducible refine Steady.unparkAt ?_ _ _ _)

theorem Steady.seqCommands {zs s : State} (hs : Steady zs s) (t : Nat) (stop resume run : Bool) : Steady zs (s.seqCommands t stop resume run) := by
  unfold State.seqCommands
  repeat' (first
    | with_reducible assumption
    | with_reducible exact Steady.refl _
    | with_reducible refine Steady.ite ?_ ?_
    | with_reducible refine Steady.modTl ?_ _ _
    | with_reducible refine Steady.requestStop ?_ _ _
    | with_reducible refine Steady.runWrite ?_ _
    | with_reducible refine Steady.resumeWrite ?_ _)

end Sys2Proof.Machine
end

