-- ==== Sys2Proof/Laws/SteadySync.lean ====
section
/-! SUPPORT. The operations of Machine/Sync.lean are steady. -/

namespace Sys2Proof.Machine

theorem Steady.latchHigh {zs s : State} (hs : Steady zs s) (lo hi : Nat) : Steady zs (s.latchHigh lo hi) := by
  unfold State.latchHigh
  repeat' (first
    | with_reducible assumption
    | with_reducible exact Steady.refl _
    | with_reducible refine Steady.latchesAt ?_ _ _)

theorem Steady.freeLatch {zs s : State} (hs : Steady zs s) (lo : Nat) : Steady zs (s.freeLatch lo) := by
  unfold State.freeLatch
  repeat' (first
    | with_reducible assumption
    | with_reducible exact Steady.refl _
    | with_reducible refine Steady.latchesAt ?_ _ _)

theorem Steady.readLow {zs s : State} (hs : Steady zs s) (lo : Nat) : Steady zs (s.readLow lo).1 := by
  unfold State.readLow
  repeat' (first
    | with_reducible assumption
    | with_reducible exact Steady.refl _
    | with_reducible refine Steady.latchHigh ?_ _ _)

theorem Steady.readHigh {zs s : State} (hs : Steady zs s) (lo : Nat) : Steady zs (s.readHigh lo).1 := by
  unfold State.readHigh
  repeat' (first
    | with_reducible assumption
    | with_reducible exact Steady.refl _
    | with_reducible refine Steady.ite ?_ ?_
    | with_reducible refine Steady.ite_fst ?_ ?_
    | with_reducible refine Steady.freeLatch ?_ _
    | dsimp only
    | split)

theorem Steady.expireLatch {zs s : State} (hs : Steady zs s) (lo : Nat) : Steady zs (s.expireLatch lo) := by
  unfold State.expireLatch
  repeat' (first
    | with_reducible assumption
    | with_reducible exact Steady.refl _
    | with_reducible refine Steady.advTo ?_ _
    | with_reducible refine Steady.freeLatch ?_ _
    | dsimp only
    | split)

theorem Steady.inCore {zs s : State} (hs : Steady zs s) {f : State → State} (hf : Steady zs (f s)) : Steady zs (s.inCore f) := by
  unfold State.inCore
  split <;> assumption

theorem Steady.rejectCommand {zs s : State} (hs : Steady zs s) : Steady zs (s.rejectCommand) := by
  unfold State.rejectCommand
  repeat' (first
    | with_reducible assumption
    | with_reducible exact Steady.refl _
    | with_reducible refine Steady.bump ?_ _
    | with_reducible refine Steady.source ?_ _)

theorem Steady.loadCount {zs s : State} (hs : Steady zs s) (tick c : Nat) : Steady zs (s.loadCount tick c) := by
  unfold State.loadCount
  repeat' (first
    | with_reducible assumption
    | with_reducible exact Steady.refl _
    | dsimp only
    | with_reducible refine Steady.update ?_ rfl rfl)

theorem Steady.enterSync {zs s : State} (hs : Steady zs s) (st : Nat) : Steady zs (s.enterSync st) := by
  unfold State.enterSync
  repeat' (first
    | with_reducible refine Steady.inCore ?_ ?_
    | with_reducible assumption
    | with_reducible exact Steady.refl _
    | with_reducible refine Steady.put ?_ _ _
    | dsimp only
    | with_reducible refine Steady.update ?_ rfl rfl)

theorem Steady.loseSync {zs s : State} (hs : Steady zs s) : Steady zs (s.loseSync) := by
  unfold State.loseSync
  repeat' (first
    | with_reducible refine Steady.inCore ?_ ?_
    | with_reducible assumption
    | with_reducible exact Steady.refl _
    | with_reducible refine Steady.ite ?_ ?_
    | with_reducible refine Steady.mark ?_ _
    | with_reducible refine Steady.source ?_ _
    | with_reducible refine Steady.enterSync ?_ _
    | intro _
    | dsimp only
    | split
    | with_reducible refine Steady.update ?_ rfl rfl)

theorem Steady.takePair {zs s : State} (hs : Steady zs s) (tick c : Nat) : Steady zs (s.takePair tick c) := by
  unfold State.takePair
  repeat' (first
    | with_reducible refine Steady.inCore ?_ ?_
    | with_reducible assumption
    | with_reducible exact Steady.refl _
    | with_reducible refine Steady.ite ?_ ?_
    | with_reducible refine Steady.mark ?_ _
    | with_reducible refine Steady.source ?_ _
    | with_reducible refine Steady.loadCount ?_ _ _
    | with_reducible refine Steady.enterSync ?_ _
    | intro _
    | dsimp only
    | split
    | with_reducible refine Steady.update ?_ rfl rfl)

theorem Steady.relockDeferred {zs s : State} (hs : Steady zs s) : Steady zs (s.relockDeferred) := by
  unfold State.relockDeferred
  repeat' (first
    | with_reducible assumption
    | with_reducible exact Steady.refl _
    | with_reducible refine Steady.ite ?_ ?_
    | with_reducible refine Steady.put ?_ _ _
    | with_reducible refine Steady.loadCount ?_ _ _
    | with_reducible refine Steady.enterSync ?_ _
    | dsimp only
    | split)

theorem Steady.acceptCommand {zs s : State} (hs : Steady zs s) (cmd arg : Nat) : Steady zs (s.acceptCommand cmd arg) := by
  unfold State.acceptCommand
  repeat' (first
    | with_reducible assumption
    | with_reducible exact Steady.refl _
    | with_reducible refine Steady.put ?_ _ _)

theorem Steady.scheduleCommand {zs s : State} (hs : Steady zs s) (op : SchedOp) (code c group s7 fine arg : Nat) : Steady zs (s.scheduleCommand op code c group s7 fine arg) := by
  unfold State.scheduleCommand
  repeat' (first
    | with_reducible assumption
    | with_reducible exact Steady.refl _
    | with_reducible refine Steady.ite ?_ ?_
    | with_reducible refine Steady.foldl ?_ _ ?_
    | with_reducible refine Steady.foldl_fst ?_ _ ?_
    | with_reducible refine Steady.mark ?_ _
    | with_reducible refine Steady.source ?_ _
    | with_reducible refine Steady.endInterval ?_ _
    | with_reducible refine Steady.rejectCommand ?_
    | with_reducible refine Steady.acceptCommand ?_ _ _
    | intro _
    | dsimp only
    | split
    | with_reducible refine Steady.update ?_ rfl rfl)

theorem Steady.calHold {zs s : State} (hs : Steady zs s) (c group mask arg : Nat) : Steady zs (s.calHold c group mask arg) := by
  unfold State.calHold
  repeat' (first
    | with_reducible assumption
    | with_reducible exact Steady.refl _
    | with_reducible refine Steady.ite ?_ ?_
    | with_reducible refine Steady.rejectCommand ?_
    | with_reducible refine Steady.acceptCommand ?_ _ _
    | intro _
    | dsimp only
    | split
    | with_reducible refine Steady.update ?_ rfl rfl)

theorem Steady.syncCommand {zs s : State} (hs : Steady zs s) (c cmd arg : Nat) : Steady zs (s.syncCommand c cmd arg) := by
  unfold State.syncCommand
  repeat' (first
    | with_reducible assumption
    | with_reducible exact Steady.refl _
    | with_reducible refine Steady.ite ?_ ?_
    | with_reducible refine Steady.rejectCommand ?_
    | with_reducible refine Steady.scheduleCommand ?_ _ _ _ _ _ _ _
    | with_reducible refine Steady.calHold ?_ _ _ _ _
    | dsimp only
    | split)

theorem Steady.badFrame {zs s : State} (hs : Steady zs s) : Steady zs (s.badFrame) := by
  unfold State.badFrame
  repeat' (first
    | with_reducible refine Steady.inCore ?_ ?_
    | with_reducible assumption
    | with_reducible exact Steady.refl _
    | with_reducible refine Steady.ite ?_ ?_
    | with_reducible refine Steady.put ?_ _ _
    | with_reducible refine Steady.bump ?_ _
    | with_reducible refine Steady.loseSync ?_
    | dsimp only
    | split)

theorem Steady.judgeSlot {zs s : State} (hs : Steady zs s) (tick frame : Nat) : Steady zs (s.judgeSlot tick frame) := by
  unfold State.judgeSlot
  repeat' (first
    | with_reducible assumption
    | with_reducible exact Steady.refl _
    | with_reducible refine Steady.ite ?_ ?_
    | with_reducible refine Steady.put ?_ _ _
    | with_reducible refine Steady.advTo ?_ _
    | with_reducible refine Steady.syncCommand ?_ _ _ _
    | with_reducible refine Steady.badFrame ?_
    | dsimp only
    | split)

theorem Steady.endSlot {zs s : State} (hs : Steady zs s) (first : Nat) : Steady zs (s.endSlot first) := by
  unfold State.endSlot
  repeat' split
  · exact Steady.judgeSlot (Steady.update hs rfl rfl) _ _
  · exact hs
  · exact hs

theorem Steady.takeSlots {zs s : State} (hs : Steady zs s) (start frame : Nat) : Steady zs (s.takeSlots start frame) := by
  have h1 := Steady.endSlot hs (start - s.countAt start % 128)
  unfold State.takeSlots
  dsimp only
  split
  · exact Steady.judgeSlot (Steady.update h1 rfl rfl) _ _
  · split
    · exact Steady.judgeSlot h1 _ _
    · exact Steady.update (Steady.judgeSlot h1 _ _) rfl rfl

theorem Steady.takeWindow {zs s : State} (hs : Steady zs s) (start frame : Nat) : Steady zs (s.takeWindow start frame) := by
  unfold State.takeWindow
  repeat' (first
    | with_reducible assumption
    | with_reducible exact Steady.refl _
    | with_reducible refine Steady.ite ?_ ?_
    | with_reducible refine Steady.put ?_ _ _
    | with_reducible refine Steady.advTo ?_ _
    | with_reducible refine Steady.takePair ?_ _ _
    | with_reducible refine Steady.badFrame ?_
    | intro _
    | dsimp only
    | split
    | with_reducible refine Steady.update ?_ rfl rfl)

theorem Steady.takeFrame {zs s : State} (hs : Steady zs s) (start frame : Nat) : Steady zs (s.takeFrame start frame) := by
  unfold State.takeFrame
  repeat' (first
    | with_reducible assumption
    | with_reducible exact Steady.refl _
    | with_reducible refine Steady.advTo ?_ _
    | with_reducible refine Steady.takeSlots ?_ _ _
    | with_reducible refine Steady.takeWindow ?_ _ _
    | dsimp only
    | split)

theorem Steady.takeSlot {zs s s1 : State} {op : SchedOp} {group n : Nat} (e : s.takeSlot op group n = some s1) (hs : Steady zs s) : Steady zs s1 := by
  unfold State.takeSlot at e
  split at e
  · cases e
    exact (Steady.advTo hs _).update rfl rfl
  · exact absurd e nofun

theorem Steady.startArmed {zs s : State} (hs : Steady zs s) (t : Nat) : Steady zs (s.startArmed t) := by
  unfold State.startArmed
  repeat' (first
    | with_reducible assumption
    | with_reducible exact Steady.refl _
    | with_reducible refine Steady.ite ?_ ?_
    | with_reducible refine Steady.put ?_ _ _
    | with_reducible refine Steady.startAt ?_ _ _ _)

theorem Steady.startDue {zs s : State} (hs : Steady zs s) (group n : Nat) : Steady zs (s.startDue group n) := by
  unfold State.startDue
  repeat' (first
    | with_reducible assumption
    | with_reducible exact Steady.refl _
    | with_reducible refine Steady.ite ?_ ?_
    | with_reducible refine Steady.foldl ?_ _ ?_
    | with_reducible refine Steady.foldl_fst ?_ _ ?_
    | with_reducible refine Steady.rejectCommand ?_
    | with_reducible refine Steady.takeSlot (by assumption) ?_
    | with_reducible refine Steady.startArmed ?_ _
    | intro _
    | dsimp only
    | split)

theorem Steady.haltDue {zs s : State} (hs : Steady zs s) (group n : Nat) : Steady zs (s.haltDue group n) := by
  unfold State.haltDue
  split
  · exact hs
  · have h1 : Steady zs _ := Steady.takeSlot (by assumption) hs
    refine Steady.foldl (Steady.foldl h1 _ fun u x => ?_) _ fun u x => Steady.requestStop (Steady.refl u) _ _
    exact (Steady.rejectCommand (Steady.refl u)).update (s := u.rejectCommand) rfl rfl

theorem Steady.clearLateDue {zs s : State} (hs : Steady zs s) (group n : Nat) : Steady zs (s.clearLateDue group n) := by
  unfold State.clearLateDue
  repeat' (first
    | with_reducible assumption
    | with_reducible exact Steady.refl _
    | with_reducible refine Steady.foldl ?_ _ ?_
    | with_reducible refine Steady.foldl_fst ?_ _ ?_
    | with_reducible refine Steady.put ?_ _ _
    | with_reducible refine Steady.takeSlot (by assumption) ?_
    | intro _
    | dsimp only
    | split)

theorem Steady.holdExpire {zs s : State} (hs : Steady zs s) (r : Nat) : Steady zs (s.holdExpire r) := by
  unfold State.holdExpire
  repeat' (first
    | with_reducible assumption
    | with_reducible exact Steady.refl _
    | with_reducible refine Steady.ite ?_ ?_
    | with_reducible refine Steady.foldl ?_ _ ?_
    | with_reducible refine Steady.foldl_fst ?_ _ ?_
    | with_reducible refine Steady.advTo ?_ _
    | with_reducible refine Steady.safePoint ?_ _
    | intro _
    | dsimp only
    | split
    | with_reducible refine Steady.update ?_ rfl rfl)

theorem Steady.writeSyncEn {zs s : State} (hs : Steady zs s) (en : Bool) : Steady zs (s.writeSyncEn en) := by
  unfold State.writeSyncEn
  repeat' (first
    | with_reducible assumption
    | with_reducible exact Steady.refl _
    | with_reducible refine Steady.ite ?_ ?_
    | with_reducible refine Steady.put ?_ _ _
    | with_reducible refine Steady.enterSync ?_ _)

theorem Steady.writeTrim {zs s : State} (hs : Steady zs s) (v : Nat) : Steady zs (s.writeTrim v) := by
  unfold State.writeTrim
  repeat' (first
    | with_reducible assumption
    | with_reducible exact Steady.refl _
    | with_reducible refine Steady.ite ?_ ?_
    | with_reducible refine Steady.put ?_ _ _
    | with_reducible refine Steady.mark ?_ _
    | with_reducible refine Steady.source ?_ _)

theorem Steady.releaseTiller {zs s : State} (hs : Steady zs s) (t inst : Nat) : Steady zs (s.releaseTiller t inst) := by
  unfold State.releaseTiller
  repeat' (first
    | with_reducible assumption
    | with_reducible exact Steady.refl _
    | with_reducible refine Steady.ite ?_ ?_
    | with_reducible refine Steady.modTl ?_ _ _
    | with_reducible refine Steady.setLate ?_ _ _
    | with_reducible refine Steady.unparkAt ?_ _ _ _
    | with_reducible refine Steady.settle ?_ _ _)

theorem Steady.releaseMember {zs s : State} (hs : Steady zs s) (timeout late : Bool) (k inst : Nat) (t : Nat) : Steady zs (State.releaseMember timeout late k inst s t) := by
  unfold State.releaseMember
  repeat' (first
    | with_reducible assumption
    | with_reducible exact Steady.refl _
    | with_reducible refine Steady.ite ?_ ?_
    | with_reducible refine Steady.mark ?_ _
    | with_reducible refine Steady.tag ?_ _ _
    | with_reducible refine Steady.setOwnEpoch ?_ _ _ _
    | with_reducible refine Steady.setLate ?_ _ _
    | with_reducible refine Steady.releaseTiller ?_ _ _)

theorem Steady.releaseNow {zs s : State} (hs : Steady zs s) (k r : Nat) (timeout late reaches : Bool) : Steady zs (s.releaseNow k r timeout late reaches) := by
  unfold State.releaseNow
  repeat' (first
    | with_reducible assumption
    | with_reducible exact Steady.refl _
    | with_reducible refine Steady.ite ?_ ?_
    | with_reducible refine Steady.foldl ?_ _ ?_
    | with_reducible refine Steady.foldl_fst ?_ _ ?_
    | with_reducible refine Steady.setReg ?_ _ _
    | with_reducible refine Steady.put ?_ _ _
    | with_reducible refine Steady.mark ?_ _
    | with_reducible refine Steady.put48 ?_ _ _ _
    | with_reducible refine Steady.setRdv ?_ _ _
    | with_reducible refine Steady.source ?_ _
    | with_reducible refine Steady.tag ?_ _ _
    | with_reducible refine Steady.advanceEpoch ?_ _
    | with_reducible refine Steady.releaseMember ?_ _ _ _ _ _
    | intro _
    | dsimp only
    | split)

theorem Steady.releaseMessage {zs s : State} (hs : Steady zs s) (k x y r : Nat) (timeout : Bool) : Steady zs (s.releaseMessage k x y r timeout) := by
  unfold State.releaseMessage
  repeat' (first
    | with_reducible assumption
    | with_reducible exact Steady.refl _
    | with_reducible refine Steady.ite ?_ ?_
    | with_reducible refine Steady.mark ?_ _
    | with_reducible refine Steady.takeRelease ?_ _ _ _ _
    | with_reducible refine Steady.releaseNow ?_ _ _ _ _ _)

theorem Steady.releaseDue {zs s : State} (hs : Steady zs s) (k : Nat) : Steady zs (s.releaseDue k) := by
  unfold State.releaseDue
  repeat' (first
    | with_reducible assumption
    | with_reducible exact Steady.refl _
    | with_reducible refine Steady.advTo ?_ _
    | with_reducible refine Steady.releaseNow ?_ _ _ _ _ _
    | dsimp only
    | split)

theorem Steady.rdvTimeout {zs s : State} (hs : Steady zs s) (k : Nat) : Steady zs (s.rdvTimeout k) := by
  unfold State.rdvTimeout
  repeat' (first
    | with_reducible assumption
    | with_reducible exact Steady.refl _
    | with_reducible refine Steady.ite ?_ ?_
    | with_reducible refine Steady.foldl ?_ _ ?_
    | with_reducible refine Steady.foldl_fst ?_ _ ?_
    | with_reducible refine Steady.setReg ?_ _ _
    | with_reducible refine Steady.mark ?_ _
    | with_reducible refine Steady.advTo ?_ _
    | with_reducible refine Steady.sendRelease ?_ _ _ _
    | intro _
    | dsimp only
    | split)

theorem Steady.waitrcWake {zs s : State} (hs : Steady zs s) (t : Nat) : Steady zs (s.waitrcWake t) := by
  unfold State.waitrcWake
  repeat' (first
    | with_reducible assumption
    | with_reducible exact Steady.refl _
    | with_reducible refine Steady.ite ?_ ?_
    | with_reducible refine Steady.advTo ?_ _
    | with_reducible refine Steady.releaseTiller ?_ _ _
    | dsimp only
    | split)

end Sys2Proof.Machine
end

