-- ==== Sys2Proof/Laws/SteadyMeasure.lean ====
section
/-! SUPPORT. The operations of Machine/Measure.lean are steady. -/

namespace Sys2Proof.Machine

theorem Steady.afterRef {zs s : State} (hs : Steady zs s) (t : Nat) (before : Bool) : Steady zs (s.afterRef t before) := by
  unfold State.afterRef
  repeat' (first
    | with_reducible assumption
    | with_reducible exact Steady.refl _
    | with_reducible refine Steady.ite ?_ ?_
    | with_reducible refine Steady.put ?_ _ _
    | with_reducible refine Steady.setAdc ?_ _ _)

theorem Steady.refReady {zs s : State} (hs : Steady zs s) (t : Nat) : Steady zs (s.refReady t) := by
  unfold State.refReady
  repeat' (first
    | with_reducible assumption
    | with_reducible exact Steady.refl _
    | with_reducible refine Steady.ite ?_ ?_
    | with_reducible refine Steady.mark ?_ _
    | with_reducible refine Steady.advTo ?_ _)

theorem Steady.sliceExchange {zs s : State} (hs : Steady zs s) (t : Nat) : Steady zs (s.sliceExchange t) := by
  unfold State.sliceExchange
  repeat' (first
    | with_reducible assumption
    | with_reducible exact Steady.refl _
    | with_reducible refine Steady.ite ?_ ?_
    | with_reducible refine Steady.wrapUp ?_ _
    | with_reducible refine Steady.setAdc ?_ _ _
    | with_reducible refine Steady.advTo ?_ _
    | dsimp only
    | split)

theorem Steady.beginBurst {zs s : State} (hs : Steady zs s) (t trigAt count : Nat) : Steady zs (s.beginBurst t trigAt count) := by
  unfold State.beginBurst
  repeat' (first
    | with_reducible assumption
    | with_reducible exact Steady.refl _
    | with_reducible refine Steady.ite ?_ ?_
    | with_reducible refine Steady.put ?_ _ _
    | with_reducible refine Steady.mark ?_ _
    | with_reducible refine Steady.setAdc ?_ _ _
    | dsimp only
    | split)

theorem Steady.adcTrigger {zs s : State} (hs : Steady zs s) (t inst count : Nat) : Steady zs (s.adcTrigger t inst count) := by
  unfold State.adcTrigger
  repeat' (first
    | with_reducible assumption
    | with_reducible exact Steady.refl _
    | with_reducible refine Steady.ite ?_ ?_
    | with_reducible refine Steady.mark ?_ _
    | with_reducible refine Steady.bump ?_ _
    | with_reducible refine Steady.setAdc ?_ _ _
    | with_reducible refine Steady.beginBurst ?_ _ _ _)

theorem Steady.measure {zs s : State} (hs : Steady zs s) (t inst count : Nat) : Steady zs (s.measure t inst count) := by
  unfold State.measure
  repeat' (first
    | with_reducible assumption
    | with_reducible exact Steady.refl _
    | with_reducible refine Steady.setAdc ?_ _ _)

theorem Steady.triggerDue {zs s : State} (hs : Steady zs s) (t : Nat) : Steady zs (s.triggerDue t) := by
  unfold State.triggerDue
  repeat' (first
    | with_reducible assumption
    | with_reducible exact Steady.refl _
    | with_reducible refine Steady.setAdc ?_ _ _
    | with_reducible refine Steady.advInst ?_ _
    | with_reducible refine Steady.adcTrigger ?_ _ _ _
    | dsimp only
    | split)

theorem Steady.convStart {zs s : State} (hs : Steady zs s) (t at_ : Nat) : Steady zs (s.convStart t at_) := by
  unfold State.convStart
  repeat' (first
    | with_reducible assumption
    | with_reducible exact Steady.refl _
    | with_reducible refine Steady.ite ?_ ?_
    | with_reducible refine Steady.put ?_ _ _
    | with_reducible refine Steady.bump ?_ _
    | with_reducible refine Steady.setAdc ?_ _ _
    | with_reducible refine Steady.advInst ?_ _
    | dsimp only
    | split)

theorem Steady.heldBurst {zs s : State} (hs : Steady zs s) (t : Nat) : Steady zs (s.heldBurst t) := by
  unfold State.heldBurst
  repeat' (first
    | with_reducible assumption
    | with_reducible exact Steady.refl _
    | with_reducible refine Steady.ite ?_ ?_
    | with_reducible refine Steady.put ?_ _ _
    | with_reducible refine Steady.setAdc ?_ _ _
    | with_reducible refine Steady.advInst ?_ _
    | with_reducible refine Steady.beginBurst ?_ _ _ _
    | dsimp only
    | split)

theorem Steady.flushLine {zs s : State} (hs : Steady zs s) (b : Burst) (stored : Nat) : Steady zs (s.flushLine b stored) := by
  unfold State.flushLine
  repeat' (first
    | with_reducible assumption
    | with_reducible exact Steady.refl _
    | with_reducible refine Steady.ite ?_ ?_
    | with_reducible refine Steady.memPut ?_ _ _ _
    | dsimp only
    | split)

theorem Steady.publishBurst {zs s : State} (hs : Steady zs s) (t : Nat) (b : Burst) : Steady zs (s.publishBurst t b) := by
  unfold State.publishBurst
  repeat' (first
    | with_reducible assumption
    | with_reducible exact Steady.refl _
    | with_reducible refine Steady.ite ?_ ?_
    | with_reducible refine Steady.setReg ?_ _ _
    | with_reducible refine Steady.put ?_ _ _
    | with_reducible refine Steady.mark ?_ _
    | with_reducible refine Steady.wrapUp ?_ _
    | with_reducible refine Steady.setAdc ?_ _ _
    | with_reducible refine Steady.tlSource ?_ _ _
    | with_reducible refine Steady.localSource ?_ _ _
    | with_reducible refine Steady.flushLine ?_ _ _
    | dsimp only
    | split)

theorem Steady.adcResult {zs s : State} (hs : Steady zs s) (t : Nat) (raw : Int) (overRange : Bool) : Steady zs (s.adcResult t raw overRange) := by
  unfold State.adcResult
  repeat' (first
    | with_reducible assumption
    | with_reducible exact Steady.refl _
    | with_reducible refine Steady.ite ?_ ?_
    | with_reducible refine Steady.foldl ?_ _ ?_
    | with_reducible refine Steady.foldl_fst ?_ _ ?_
    | with_reducible refine Steady.mark ?_ _
    | with_reducible refine Steady.setAdc ?_ _ _
    | with_reducible refine Steady.advInst ?_ _
    | with_reducible refine Steady.settle ?_ _ _
    | with_reducible refine Steady.flushLine ?_ _ _
    | with_reducible refine Steady.publishBurst ?_ _ _
    | intro _
    | dsimp only
    | split)

theorem Steady.adcAbort {zs s : State} (hs : Steady zs s) (t : Nat) : Steady zs (s.adcAbort t) := by
  unfold State.adcAbort
  repeat' (first
    | with_reducible assumption
    | with_reducible exact Steady.refl _
    | with_reducible refine Steady.ite ?_ ?_
    | with_reducible refine Steady.put ?_ _ _
    | with_reducible refine Steady.setAdc ?_ _ _
    | with_reducible refine Steady.publishBurst ?_ _ _
    | dsimp only
    | split)

theorem Steady.readResult {zs s : State} (hs : Steady zs s) (t : Nat) : Steady zs (s.readResult t).1 := by
  unfold State.readResult
  repeat' (first
    | with_reducible assumption
    | with_reducible exact Steady.refl _
    | with_reducible refine Steady.put ?_ _ _
    | with_reducible refine Steady.readLow ?_ _)

theorem Steady.tdcClear {zs s : State} (hs : Steady zs s) (t : Nat) : Steady zs (s.tdcClear t) := by
  unfold State.tdcClear
  repeat' (first
    | with_reducible assumption
    | with_reducible exact Steady.refl _
    | with_reducible refine Steady.foldl ?_ _ ?_
    | with_reducible refine Steady.foldl_fst ?_ _ ?_
    | with_reducible refine Steady.setReg ?_ _ _
    | with_reducible refine Steady.put ?_ _ _
    | intro _)

theorem Steady.tdcArm {zs s : State} (hs : Steady zs s) (t inst n : Nat) : Steady zs (s.tdcArm t inst n).1 := by
  unfold State.tdcArm
  repeat' (first
    | with_reducible assumption
    | with_reducible exact Steady.refl _
    | with_reducible refine Steady.ite ?_ ?_
    | with_reducible refine Steady.ite_fst ?_ ?_
    | with_reducible refine Steady.put ?_ _ _
    | with_reducible refine Steady.setTdc ?_ _ _
    | with_reducible refine Steady.tdcClear ?_ _
    | dsimp only
    | split)

theorem Steady.tdcarm {zs s : State} (hs : Steady zs s) (t inst n : Nat) : Steady zs (s.tdcarm t inst n) := by
  unfold State.tdcarm
  repeat' (first
    | with_reducible assumption
    | with_reducible exact Steady.refl _
    | with_reducible refine Steady.setTdc ?_ _ _
    | dsimp only)

theorem Steady.armArrives {zs s : State} (hs : Steady zs s) (t : Nat) (a : Nat × Nat) : Steady zs (s.armArrives t a) := by
  unfold State.armArrives
  repeat' (first
    | with_reducible assumption
    | with_reducible exact Steady.refl _
    | with_reducible refine Steady.ite ?_ ?_
    | with_reducible refine Steady.bump ?_ _
    | with_reducible refine Steady.tdcArm ?_ _ _ _
    | dsimp only
    | split)

theorem Steady.takeArms {zs s : State} (hs : Steady zs s) (t inst : Nat) : Steady zs (s.takeArms t inst) := by
  unfold State.takeArms
  repeat' (first
    | with_reducible assumption
    | with_reducible exact Steady.refl _
    | with_reducible refine Steady.ite ?_ ?_
    | with_reducible refine Steady.foldl ?_ _ ?_
    | with_reducible refine Steady.foldl_fst ?_ _ ?_
    | with_reducible refine Steady.setTdc ?_ _ _
    | with_reducible refine Steady.armArrives ?_ _ _
    | intro _
    | dsimp only
    | split)

theorem Steady.tdcArmWrite {zs s : State} (hs : Steady zs s) (t : Nat) : Steady zs (s.tdcArmWrite t) := by
  unfold State.tdcArmWrite
  repeat' (first
    | with_reducible assumption
    | with_reducible exact Steady.refl _
    | with_reducible refine Steady.ite ?_ ?_
    | with_reducible refine Steady.mark ?_ _
    | with_reducible refine Steady.tdcArm ?_ _ _ _)

theorem Steady.tdcEnd {zs s : State} (hs : Steady zs s) (t why : Nat) : Steady zs (s.tdcEnd t why) := by
  unfold State.tdcEnd
  repeat' (first
    | with_reducible assumption
    | with_reducible exact Steady.refl _
    | with_reducible refine Steady.foldl ?_ _ ?_
    | with_reducible refine Steady.foldl_fst ?_ _ ?_
    | with_reducible refine Steady.setReg ?_ _ _
    | with_reducible refine Steady.put ?_ _ _
    | with_reducible refine Steady.mark ?_ _
    | with_reducible refine Steady.wrapUp ?_ _
    | with_reducible refine Steady.put48 ?_ _ _ _
    | with_reducible refine Steady.tlSource ?_ _ _
    | with_reducible refine Steady.localSource ?_ _ _)

theorem Steady.tdcPair {zs s : State} (hs : Steady zs s) (t inst lo hi : Nat) (x : Tdc) : Steady zs (s.tdcPair t inst lo hi x) := by
  unfold State.tdcPair
  repeat' (first
    | with_reducible assumption
    | with_reducible exact Steady.refl _
    | with_reducible refine Steady.ite ?_ ?_
    | with_reducible refine Steady.setReg ?_ _ _
    | with_reducible refine Steady.put ?_ _ _
    | with_reducible refine Steady.wrapUp ?_ _
    | with_reducible refine Steady.setTdc ?_ _ _
    | with_reducible refine Steady.tdcEnd ?_ _ _)

theorem Steady.tdcNoStop {zs s : State} (hs : Steady zs s) (t inst : Nat) : Steady zs (s.tdcNoStop t inst) := by
  unfold State.tdcNoStop
  repeat' (first
    | with_reducible assumption
    | with_reducible exact Steady.refl _
    | with_reducible refine Steady.draw ?_
    | with_reducible refine Steady.tdcPair ?_ _ _ _ _ _)

theorem Steady.tdcOverflow {zs s : State} (hs : Steady zs s) (t inst : Nat) : Steady zs (s.tdcOverflow t inst) := by
  unfold State.tdcOverflow
  repeat' (first
    | with_reducible assumption
    | with_reducible exact Steady.refl _
    | with_reducible refine Steady.tdcPair ?_ _ _ _ _ _)

theorem Steady.edgeTaken {zs s : State} (hs : Steady zs s) (t src : Nat) (start : Bool) : Steady zs (s.edgeTaken t src start) := by
  unfold State.edgeTaken
  repeat' (first
    | with_reducible assumption
    | with_reducible exact Steady.refl _
    | with_reducible refine Steady.ite ?_ ?_
    | with_reducible refine Steady.setTdc ?_ _ _
    | dsimp only
    | split)

theorem Steady.tdcStart {zs s : State} (hs : Steady zs s) (t at_ : Nat) : Steady zs (s.tdcStart t at_) := by
  unfold State.tdcStart
  repeat' (first
    | with_reducible assumption
    | with_reducible exact Steady.refl _
    | with_reducible refine Steady.ite ?_ ?_
    | with_reducible refine Steady.put ?_ _ _
    | with_reducible refine Steady.setTdc ?_ _ _
    | with_reducible refine Steady.advInst ?_ _
    | with_reducible refine Steady.startAt ?_ _ _ _
    | with_reducible refine Steady.takeArms ?_ _ _
    | with_reducible refine Steady.edgeTaken ?_ _ _ _
    | dsimp only
    | split)

theorem Steady.stopAt {zs s : State} (hs : Steady zs s) (t at_ : Nat) : Steady zs (s.stopAt t at_) := by
  unfold State.stopAt
  repeat' (first
    | with_reducible assumption
    | with_reducible exact Steady.refl _
    | with_reducible refine Steady.ite ?_ ?_
    | with_reducible refine Steady.setTdc ?_ _ _
    | with_reducible refine Steady.startAt ?_ _ _ _
    | with_reducible refine Steady.tdcPair ?_ _ _ _ _ _
    | with_reducible refine Steady.tdcOverflow ?_ _ _
    | dsimp only
    | split)

theorem Steady.tdcStop {zs s : State} (hs : Steady zs s) (t at_ : Nat) : Steady zs (s.tdcStop t at_) := by
  unfold State.tdcStop
  repeat' (first
    | with_reducible assumption
    | with_reducible exact Steady.refl _
    | with_reducible refine Steady.ite ?_ ?_
    | with_reducible refine Steady.advInst ?_ _
    | with_reducible refine Steady.takeArms ?_ _ _
    | with_reducible refine Steady.edgeTaken ?_ _ _ _
    | with_reducible refine Steady.stopAt ?_ _ _
    | dsimp only
    | split)

theorem Steady.tdcNostopTimeout {zs s : State} (hs : Steady zs s) (t : Nat) : Steady zs (s.tdcNostopTimeout t) := by
  unfold State.tdcNostopTimeout
  repeat' (first
    | with_reducible assumption
    | with_reducible exact Steady.refl _
    | with_reducible refine Steady.ite ?_ ?_
    | with_reducible refine Steady.advInst ?_ _
    | with_reducible refine Steady.startAt ?_ _ _ _
    | with_reducible refine Steady.takeArms ?_ _ _
    | with_reducible refine Steady.tdcNoStop ?_ _ _
    | dsimp only
    | split)

theorem Steady.tdcNostartTimeout {zs s : State} (hs : Steady zs s) (t : Nat) : Steady zs (s.tdcNostartTimeout t) := by
  unfold State.tdcNostartTimeout
  repeat' (first
    | with_reducible assumption
    | with_reducible exact Steady.refl _
    | with_reducible refine Steady.ite ?_ ?_
    | with_reducible refine Steady.advInst ?_ _
    | with_reducible refine Steady.takeArms ?_ _ _
    | with_reducible refine Steady.tdcEnd ?_ _ _
    | dsimp only
    | split)

theorem Steady.tdcOvfTimeout {zs s : State} (hs : Steady zs s) (t : Nat) : Steady zs (s.tdcOvfTimeout t) := by
  unfold State.tdcOvfTimeout
  repeat' (first
    | with_reducible assumption
    | with_reducible exact Steady.refl _
    | with_reducible refine Steady.ite ?_ ?_
    | with_reducible refine Steady.advInst ?_ _
    | with_reducible refine Steady.startAt ?_ _ _ _
    | with_reducible refine Steady.takeArms ?_ _ _
    | with_reducible refine Steady.tdcOverflow ?_ _ _
    | dsimp only
    | split)

theorem Steady.tdcAbort {zs s : State} (hs : Steady zs s) (t : Nat) : Steady zs (s.tdcAbort t) := by
  unfold State.tdcAbort
  repeat' (first
    | with_reducible assumption
    | with_reducible exact Steady.refl _
    | with_reducible refine Steady.ite ?_ ?_
    | with_reducible refine Steady.tdcEnd ?_ _ _)

end Sys2Proof.Machine
end

