-- ==== Sys2Proof/Laws/SteadyVector.lean ====
section
/-! SUPPORT. The operations of Machine/Vector.lean are steady. -/

namespace Sys2Proof.Machine

theorem Steady.pinActs {zs s : State} (hs : Steady zs s) (s0 : State) (t k inst pinWord p : Nat) : Steady zs (s0.pinActs t k inst pinWord s p) := by
  unfold State.pinActs
  dsimp only
  refine Steady.prunePin (Steady.foldl ?_ _ ?_) _ _
  · exact Steady.setPin (Steady.catchUp hs _ _) _ _
  · intro s x
    exact Steady.placeStrobe (Steady.refl s) _ _

theorem Steady.clearSticky {zs s : State} (hs : Steady zs s) (t mask inst : Nat) : Steady zs (s.clearSticky t mask inst) := by
  unfold State.clearSticky
  repeat' (first
    | with_reducible assumption
    | with_reducible exact Steady.refl _
    | with_reducible refine Steady.ite ?_ ?_
    | with_reducible refine Steady.put ?_ _ _
    | dsimp only
    | split)

theorem Steady.condClear {zs s : State} (hs : Steady zs s) (t cnd inst : Nat) : Steady zs (s.condClear t cnd inst) := by
  unfold State.condClear
  repeat' (first
    | with_reducible assumption
    | with_reducible exact Steady.refl _
    | with_reducible refine Steady.ite ?_ ?_
    | with_reducible refine Steady.clearFlag ?_ _ _
    | with_reducible refine Steady.clearSticky ?_ _ _ _)

theorem Steady.dropLatch {zs s : State} (hs : Steady zs s) (t j : Nat) : Steady zs (s.dropLatch t j) := by
  unfold State.dropLatch
  repeat' (first
    | with_reducible assumption
    | with_reducible exact Steady.refl _
    | with_reducible refine Steady.ite ?_ ?_
    | with_reducible refine Steady.putBit ?_ _ _ _
    | with_reducible refine Steady.modTl ?_ _ _
    | intro _
    | dsimp only
    | split)

theorem Steady.follow {zs s : State} (hs : Steady zs s) (t : Nat) (n : Next) : Steady zs (s.follow t n) := by
  unfold State.follow
  repeat' (first
    | with_reducible assumption
    | with_reducible exact Steady.refl _
    | with_reducible refine Steady.modTl ?_ _ _)

theorem Steady.opNop {zs s : State} (hs : Steady zs s) (t : Nat) : Steady zs (s.opNop t) := by
  unfold State.opNop
  repeat' (first
    | with_reducible assumption
    | with_reducible exact Steady.refl _
    | with_reducible refine Steady.follow ?_ _ _)

theorem Steady.opRepeat {zs s : State} (hs : Steady zs s) (t n : Nat) : Steady zs (s.opRepeat t n) := by
  unfold State.opRepeat
  repeat' (first
    | with_reducible assumption
    | with_reducible exact Steady.refl _
    | with_reducible refine Steady.ite ?_ ?_
    | with_reducible refine Steady.setTl ?_ _ _
    | with_reducible refine Steady.follow ?_ _ _)

theorem Steady.opLoop {zs s : State} (hs : Steady zs s) (t w : Nat) : Steady zs (s.opLoop t w) := by
  unfold State.opLoop
  repeat' (first
    | with_reducible assumption
    | with_reducible exact Steady.refl _
    | with_reducible refine Steady.ite ?_ ?_
    | with_reducible refine Steady.put ?_ _ _
    | with_reducible refine Steady.putBit ?_ _ _ _
    | with_reducible refine Steady.trace ?_ _ _ _ _
    | with_reducible refine Steady.follow ?_ _ _)

theorem Steady.opEndloop {zs s : State} (hs : Steady zs s) (t w : Nat) : Steady zs (s.opEndloop t w) := by
  unfold State.opEndloop
  repeat' (first
    | with_reducible assumption
    | with_reducible exact Steady.refl _
    | with_reducible refine Steady.ite ?_ ?_
    | with_reducible refine Steady.put ?_ _ _
    | with_reducible refine Steady.putBit ?_ _ _ _
    | with_reducible refine Steady.trace ?_ _ _ _ _
    | with_reducible refine Steady.follow ?_ _ _)

theorem Steady.opJump {zs s : State} (hs : Steady zs s) (t w : Nat) : Steady zs (s.opJump t w) := by
  unfold State.opJump
  repeat' (first
    | with_reducible assumption
    | with_reducible exact Steady.refl _
    | with_reducible refine Steady.follow ?_ _ _)

theorem Steady.opCall {zs s : State} (hs : Steady zs s) (t w : Nat) : Steady zs (s.opCall t w) := by
  unfold State.opCall
  repeat' (first
    | with_reducible assumption
    | with_reducible exact Steady.refl _
    | with_reducible refine Steady.follow ?_ _ _)

theorem Steady.opRet {zs s : State} (hs : Steady zs s) (t : Nat) : Steady zs (s.opRet t) := by
  unfold State.opRet
  repeat' (first
    | with_reducible assumption
    | with_reducible exact Steady.refl _
    | with_reducible refine Steady.follow ?_ _ _)

theorem Steady.opHalt {zs s : State} (hs : Steady zs s) (t w : Nat) : Steady zs (s.opHalt t w) := by
  unfold State.opHalt
  repeat' (first
    | with_reducible assumption
    | with_reducible exact Steady.refl _
    | with_reducible refine Steady.follow ?_ _ _)

theorem Steady.opClrs {zs s : State} (hs : Steady zs s) (t w : Nat) : Steady zs (s.opClrs t w) := by
  unfold State.opClrs
  repeat' (first
    | with_reducible assumption
    | with_reducible exact Steady.refl _
    | with_reducible refine Steady.ite ?_ ?_
    | with_reducible refine Steady.setCmp ?_ _ _
    | with_reducible refine Steady.clearSticky ?_ _ _ _
    | with_reducible refine Steady.follow ?_ _ _
    | intro _
    | dsimp only
    | split)

theorem Steady.opCmask {zs s : State} (hs : Steady zs s) (t w : Nat) : Steady zs (s.opCmask t w) := by
  unfold State.opCmask
  repeat' (first
    | with_reducible assumption
    | with_reducible exact Steady.refl _
    | with_reducible refine Steady.put ?_ _ _
    | with_reducible refine Steady.follow ?_ _ _)

theorem Steady.opPause {zs s : State} (hs : Steady zs s) (t : Nat) : Steady zs (s.opPause t) := by
  unfold State.opPause
  repeat' (first
    | with_reducible assumption
    | with_reducible exact Steady.refl _
    | with_reducible refine Steady.follow ?_ _ _)

theorem Steady.opTmark {zs s : State} (hs : Steady zs s) (t w : Nat) : Steady zs (s.opTmark t w) := by
  unfold State.opTmark
  repeat' (first
    | with_reducible assumption
    | with_reducible exact Steady.refl _
    | with_reducible refine Steady.trace ?_ _ _ _ _
    | with_reducible refine Steady.follow ?_ _ _)

theorem Steady.decide_ {zs s : State} (hs : Steady zs s) (t w cnd inst due : Nat) (pass call : Bool) : Steady zs (s.decide_ t w cnd inst due pass call) := by
  unfold State.decide_
  repeat' (first
    | with_reducible assumption
    | with_reducible exact Steady.refl _
    | with_reducible refine Steady.ite ?_ ?_
    | with_reducible refine Steady.modTl ?_ _ _
    | with_reducible refine Steady.condClear ?_ _ _ _
    | intro _
    | dsimp only
    | split)

theorem Steady.opCond {zs s : State} (hs : Steady zs s) (t w cnd : Nat) (pass call : Bool) : Steady zs (s.opCond t w cnd pass call) := by
  unfold State.opCond
  repeat' (first
    | with_reducible assumption
    | with_reducible exact Steady.refl _
    | with_reducible refine Steady.ite ?_ ?_
    | with_reducible refine Steady.follow ?_ _ _
    | with_reducible refine Steady.decide_ ?_ _ _ _ _ _ _ _
    | dsimp only
    | split)

theorem Steady.opJfail {zs s : State} (hs : Steady zs s) (t w cnd : Nat) : Steady zs (s.opJfail t w cnd) := by
  unfold State.opJfail
  repeat' (first
    | with_reducible assumption
    | with_reducible exact Steady.refl _
    | with_reducible refine Steady.opCond ?_ _ _ _ _ _)

theorem Steady.opJpass {zs s : State} (hs : Steady zs s) (t w cnd : Nat) : Steady zs (s.opJpass t w cnd) := by
  unfold State.opJpass
  repeat' (first
    | with_reducible assumption
    | with_reducible exact Steady.refl _
    | with_reducible refine Steady.opCond ?_ _ _ _ _ _)

theorem Steady.opCfail {zs s : State} (hs : Steady zs s) (t w cnd : Nat) : Steady zs (s.opCfail t w cnd) := by
  unfold State.opCfail
  repeat' (first
    | with_reducible assumption
    | with_reducible exact Steady.refl _
    | with_reducible refine Steady.opCond ?_ _ _ _ _ _)

theorem Steady.opCpass {zs s : State} (hs : Steady zs s) (t w cnd : Nat) : Steady zs (s.opCpass t w cnd) := by
  unfold State.opCpass
  repeat' (first
    | with_reducible assumption
    | with_reducible exact Steady.refl _
    | with_reducible refine Steady.opCond ?_ _ _ _ _ _)

theorem Steady.opJevt {zs s : State} (hs : Steady zs s) (t w cnd : Nat) : Steady zs (s.opJevt t w cnd) := by
  unfold State.opJevt
  repeat' (first
    | with_reducible assumption
    | with_reducible exact Steady.refl _
    | with_reducible refine Steady.ite ?_ ?_
    | with_reducible refine Steady.dropLatch ?_ _ _
    | with_reducible refine Steady.follow ?_ _ _
    | dsimp only
    | split)

theorem Steady.opMatch {zs s : State} (hs : Steady zs s) (t : Nat) : Steady zs (s.opMatch t) := by
  unfold State.opMatch
  repeat' (first
    | with_reducible assumption
    | with_reducible exact Steady.refl _
    | with_reducible refine Steady.modTl ?_ _ _
    | with_reducible refine Steady.follow ?_ _ _)

theorem Steady.decideMatch {zs s : State} (hs : Steady zs s) (t n cnd inst : Nat) : Steady zs (s.decideMatch t n cnd inst) := by
  unfold State.decideMatch
  repeat' (first
    | with_reducible assumption
    | with_reducible exact Steady.refl _
    | with_reducible refine Steady.ite ?_ ?_
    | with_reducible refine Steady.mark ?_ _
    | with_reducible refine Steady.setTl ?_ _ _
    | with_reducible refine Steady.trace ?_ _ _ _ _)

theorem Steady.opWaitrc {zs s : State} (hs : Steady zs s) (t w : Nat) : Steady zs (s.opWaitrc t w) := by
  unfold State.opWaitrc
  repeat' (first
    | with_reducible assumption
    | with_reducible exact Steady.refl _
    | with_reducible refine Steady.ite ?_ ?_
    | with_reducible refine Steady.setLate ?_ _ _
    | with_reducible refine Steady.follow ?_ _ _)

theorem Steady.opRdv {zs s : State} (hs : Steady zs s) (t w : Nat) : Steady zs (s.opRdv t w) := by
  unfold State.opRdv
  repeat' (first
    | with_reducible assumption
    | with_reducible exact Steady.refl _
    | with_reducible refine Steady.ite ?_ ?_
    | with_reducible refine Steady.setOwnEpoch ?_ _ _ _
    | with_reducible refine Steady.arrive ?_ _ _ _
    | with_reducible refine Steady.setLate ?_ _ _
    | with_reducible refine Steady.notMember ?_ _ _
    | with_reducible refine Steady.follow ?_ _ _
    | dsimp only
    | split)

theorem Steady.opCalgap {zs s : State} (hs : Steady zs s) (t w : Nat) : Steady zs (s.opCalgap t w) := by
  unfold State.opCalgap
  repeat' (first
    | with_reducible assumption
    | with_reducible exact Steady.refl _
    | with_reducible refine Steady.follow ?_ _ _)

theorem Steady.opSeg {zs s : State} (hs : Steady zs s) (t w : Nat) : Steady zs (s.opSeg t w) := by
  unfold State.opSeg
  repeat' (first
    | with_reducible assumption
    | with_reducible exact Steady.refl _
    | with_reducible refine Steady.follow ?_ _ _)

theorem Steady.opStream {zs s : State} (hs : Steady zs s) (t w : Nat) : Steady zs (s.opStream t w) := by
  unfold State.opStream
  repeat' (first
    | with_reducible assumption
    | with_reducible exact Steady.refl _
    | with_reducible refine Steady.modTl ?_ _ _
    | with_reducible refine Steady.follow ?_ _ _
    | intro _
    | dsimp only)

theorem Steady.opMeas {zs s : State} (hs : Steady zs s) (t w : Nat) : Steady zs (s.opMeas t w) := by
  unfold State.opMeas
  repeat' (first
    | with_reducible assumption
    | with_reducible exact Steady.refl _
    | with_reducible refine Steady.measure ?_ _ _ _
    | with_reducible refine Steady.follow ?_ _ _)

theorem Steady.opTdcarm {zs s : State} (hs : Steady zs s) (t w : Nat) : Steady zs (s.opTdcarm t w) := by
  unfold State.opTdcarm
  repeat' (first
    | with_reducible assumption
    | with_reducible exact Steady.refl _
    | with_reducible refine Steady.tdcarm ?_ _ _ _
    | with_reducible refine Steady.follow ?_ _ _)

theorem Steady.opEvw {zs s : State} (hs : Steady zs s) (t w cnd : Nat) : Steady zs (s.opEvw t w cnd) := by
  unfold State.opEvw
  repeat' (first
    | with_reducible assumption
    | with_reducible exact Steady.refl _
    | with_reducible refine Steady.ite ?_ ?_
    | with_reducible refine Steady.dropLatch ?_ _ _
    | with_reducible refine Steady.follow ?_ _ _
    | dsimp only
    | split)

theorem Steady.opEvs {zs s : State} (hs : Steady zs s) (t w : Nat) : Steady zs (s.opEvs t w) := by
  unfold State.opEvs
  repeat' (first
    | with_reducible assumption
    | with_reducible exact Steady.refl _
    | with_reducible refine Steady.fireChannel ?_ _
    | with_reducible refine Steady.follow ?_ _ _)

theorem Steady.opLvlq {zs s : State} (hs : Steady zs s) (t w : Nat) : Steady zs (s.opLvlq t w) := by
  unfold State.opLvlq
  repeat' (first
    | with_reducible assumption
    | with_reducible exact Steady.refl _
    | with_reducible refine Steady.queueLevel ?_ _ _
    | with_reducible refine Steady.follow ?_ _ _)

theorem Steady.opStep {zs s : State} (hs : Steady zs s) (t : Nat) : Steady zs (s.opStep t) := by
  unfold State.opStep
  repeat' (first
    | with_reducible assumption
    | with_reducible exact Steady.refl _
    | with_reducible refine Steady.opNop ?_ _
    | with_reducible refine Steady.opRepeat ?_ _ _
    | with_reducible refine Steady.opLoop ?_ _ _
    | with_reducible refine Steady.opEndloop ?_ _ _
    | with_reducible refine Steady.opJump ?_ _ _
    | with_reducible refine Steady.opCall ?_ _ _
    | with_reducible refine Steady.opRet ?_ _
    | with_reducible refine Steady.opHalt ?_ _ _
    | with_reducible refine Steady.opClrs ?_ _ _
    | with_reducible refine Steady.opCmask ?_ _ _
    | with_reducible refine Steady.opPause ?_ _
    | with_reducible refine Steady.opTmark ?_ _ _
    | with_reducible refine Steady.opJfail ?_ _ _ _
    | with_reducible refine Steady.opJpass ?_ _ _ _
    | with_reducible refine Steady.opCfail ?_ _ _ _
    | with_reducible refine Steady.opCpass ?_ _ _ _
    | with_reducible refine Steady.opJevt ?_ _ _ _
    | with_reducible refine Steady.opMatch ?_ _
    | with_reducible refine Steady.opWaitrc ?_ _ _
    | with_reducible refine Steady.opRdv ?_ _ _
    | with_reducible refine Steady.opCalgap ?_ _ _
    | with_reducible refine Steady.opSeg ?_ _ _
    | with_reducible refine Steady.opStream ?_ _ _
    | with_reducible refine Steady.opMeas ?_ _ _
    | with_reducible refine Steady.opTdcarm ?_ _ _
    | with_reducible refine Steady.opEvw ?_ _ _ _
    | with_reducible refine Steady.opEvs ?_ _ _
    | with_reducible refine Steady.opLvlq ?_ _ _
    | dsimp only
    | split)

theorem Steady.takeDecision {zs s : State} (hs : Steady zs s) (t : Nat) (inst : Nat) : Steady zs (s.takeDecision t inst) := by
  unfold State.takeDecision
  repeat' (first
    | with_reducible assumption
    | with_reducible exact Steady.refl _
    | with_reducible refine Steady.decide_ ?_ _ _ _ _ _ _ _
    | with_reducible refine Steady.decideMatch ?_ _ _ _ _
    | dsimp only
    | split)

theorem Steady.endWait {zs s : State} (hs : Steady zs s) (t : Nat) : Steady zs (s.endWait t) := by
  unfold State.endWait
  repeat' (first
    | with_reducible assumption
    | with_reducible exact Steady.refl _
    | with_reducible refine Steady.ite ?_ ?_
    | with_reducible refine Steady.foldl ?_ _ ?_
    | with_reducible refine Steady.foldl_fst ?_ _ ?_
    | with_reducible refine Steady.advInst ?_ _
    | with_reducible refine Steady.stopNow ?_ _ _
    | with_reducible refine Steady.takeDecision ?_ _ _
    | intro _
    | dsimp only
    | split)

theorem Steady.evo {zs s : State} (hs : Steady zs s) (t : Nat) : Steady zs (s.evo t) := by
  unfold State.evo
  repeat' (first
    | with_reducible assumption
    | with_reducible exact Steady.refl _
    | with_reducible refine Steady.ite ?_ ?_
    | with_reducible refine Steady.foldl ?_ _ ?_
    | with_reducible refine Steady.foldl_fst ?_ _ ?_
    | with_reducible refine Steady.localSource ?_ _ _
    | with_reducible refine Steady.fireChannel ?_ _
    | intro _)

theorem Steady.issueVector {zs s : State} (hs : Steady zs s) (t : Nat) (v : Vec) (entry : List Nat) (again : Bool) : Steady zs (s.issueVector t v entry again) := by
  unfold State.issueVector
  repeat' (first
    | with_reducible assumption
    | with_reducible exact Steady.refl _
    | with_reducible refine Steady.ite ?_ ?_
    | with_reducible refine Steady.foldl ?_ _ ?_
    | with_reducible refine Steady.foldl_fst ?_ _ ?_
    | with_reducible refine Steady.put ?_ _ _
    | with_reducible refine Steady.put48 ?_ _ _ _
    | with_reducible refine Steady.setTl ?_ _ _
    | with_reducible refine Steady.setCmp ?_ _ _
    | with_reducible refine Steady.setStrm ?_ _ _
    | with_reducible refine Steady.tag ?_ _ _
    | with_reducible refine Steady.apgStep ?_ _ _
    | with_reducible refine Steady.queueLevel ?_ _ _
    | with_reducible refine Steady.pinActs ?_ _ _ _ _ _ _
    | with_reducible refine Steady.opStep ?_ _
    | with_reducible refine Steady.evo ?_ _
    | intro _
    | dsimp only
    | split)

theorem Steady.delayed {zs s : State} (hs : Steady zs s) (t inst : Nat) : Steady zs (s.delayed t inst) := by
  unfold State.delayed
  repeat' (first
    | with_reducible assumption
    | with_reducible exact Steady.refl _
    | with_reducible refine Steady.takePrimes ?_ _ _
    | with_reducible refine Steady.takeArms ?_ _ _
    | dsimp only)

theorem Steady.fetchSram {zs s : State} (hs : Steady zs s) (t idx : Nat) : Steady zs (s.fetchSram t idx).1 := by
  unfold State.fetchSram
  repeat' (first
    | with_reducible assumption
    | with_reducible exact Steady.refl _
    | with_reducible refine Steady.bump ?_ _
    | with_reducible refine Steady.inject ?_ _ _
    | dsimp only
    | split)

theorem Steady.dueWord {zs s : State} (hs : Steady zs s) (t idx : Nat) : Steady zs (s.dueWord t idx).1 := by
  unfold State.dueWord
  repeat' (first
    | with_reducible assumption
    | with_reducible exact Steady.refl _
    | with_reducible refine Steady.ite ?_ ?_
    | with_reducible refine Steady.ite_fst ?_ ?_
    | with_reducible refine Steady.modTl ?_ _ _
    | with_reducible refine Steady.discardAhead ?_ _
    | with_reducible refine Steady.fetchSram ?_ _ _
    | intro _
    | dsimp only
    | split)

theorem Steady.decodeAhead {zs s : State} (hs : Steady zs s) (t n : Nat) : Steady zs (s.decodeAhead t n) := by
  induction n generalizing s with
  | zero => exact hs
  | succ n ih =>
    unfold State.decodeAhead
    dsimp only
    split
    · exact hs
    · exact ih ((Steady.fetchSram hs _ _).setTl _ _)

theorem Steady.stall {zs s : State} (hs : Steady zs s) (t : Nat) : Steady zs (s.stall t) := by
  unfold State.stall
  repeat' (first
    | with_reducible assumption
    | with_reducible exact Steady.refl _
    | with_reducible refine Steady.put ?_ _ _
    | with_reducible refine Steady.mark ?_ _
    | with_reducible refine Steady.bump ?_ _
    | with_reducible refine Steady.setTl ?_ _ _
    | with_reducible refine Steady.advInst ?_ _
    | with_reducible refine Steady.tlSource ?_ _ _
    | with_reducible refine Steady.tag ?_ _ _
    | with_reducible refine Steady.trace ?_ _ _ _ _
    | with_reducible refine Steady.pinsIdle ?_ _ _ _
    | dsimp only)

theorem Steady.markRefused {zs s : State} (hs : Steady zs s) (cause k : Nat) : Steady zs (s.markRefused cause k) := by
  unfold State.markRefused
  repeat' (first
    | with_reducible assumption
    | with_reducible exact Steady.refl _
    | with_reducible refine Steady.ite ?_ ?_
    | with_reducible refine Steady.mark ?_ _
    | with_reducible refine Steady.source ?_ _)

theorem Steady.checkAndIssue {zs s : State} (hs : Steady zs s) (t : Nat) (v : Vec) (entry : List Nat) (again : Bool) : Steady zs (s.checkAndIssue t v entry again) := by
  unfold State.checkAndIssue
  repeat' (first
    | with_reducible assumption
    | with_reducible exact Steady.refl _
    | with_reducible refine Steady.ite ?_ ?_
    | with_reducible refine Steady.faultNow ?_ _ _ _ _ _
    | with_reducible refine Steady.issueVector ?_ _ _ _ _
    | with_reducible refine Steady.markRefused ?_ _ _
    | dsimp only
    | split)

theorem Steady.issueDue {zs s : State} (hs : Steady zs s) (t : Nat) : Steady zs (s.issueDue t) := by
  unfold State.issueDue
  repeat' (first
    | with_reducible assumption
    | with_reducible exact Steady.refl _
    | with_reducible refine Steady.ite ?_ ?_
    | with_reducible refine Steady.setStrm ?_ _ _
    | with_reducible refine Steady.discardAhead ?_ _
    | with_reducible refine Steady.haltNow ?_ _ _ _
    | with_reducible refine Steady.stopNow ?_ _ _
    | with_reducible refine Steady.underrun ?_ _ _
    | with_reducible refine Steady.faultNow ?_ _ _ _ _ _
    | with_reducible refine Steady.dueWord ?_ _ _
    | with_reducible refine Steady.stall ?_ _
    | with_reducible refine Steady.checkAndIssue ?_ _ _ _ _
    | dsimp only
    | split)

theorem Steady.vectorIssue {zs s : State} (hs : Steady zs s) (t n : Nat) : Steady zs (s.vectorIssue t n) := by
  unfold State.vectorIssue
  extract_lets s1 x
  have h1 : Steady zs s1 := Steady.endWait (Steady.delayed hs _ _) _
  split
  · exact h1
  · have h2 := Steady.periodEnd (Steady.advInst h1 x.dueAt) t
    exact Steady.ite (Steady.decodeAhead (Steady.issueDue h2 _) _ _) h2

theorem Steady.asOpcode {zs s : State} (hs : Steady zs s) (t opc opd cnd : Nat) {f : State → State} (hf : ∀ s, Steady s (f s)) :
    Steady zs (s.asOpcode t opc opd cnd f) := by
  unfold State.asOpcode
  dsimp only
  split
  · exact hs
  · have h1 : ∀ u, Steady zs u → Steady zs (f u) := fun u h => h.trans (hf u)
    refine Steady.ite (Steady.stopNow hs _ _) (Steady.ite (Steady.faultNow (Steady.markRefused hs _ _) _ _ _ _ _) (Steady.ite ?_ ?_))
    · exact Steady.periodEnd (Steady.advInst (h1 _ (hs.setTl _ _)) _) _
    · exact h1 _ (hs.setTl _ _)

theorem Steady.compareResolve {zs s : State} (hs : Steady zs s) (t : Nat) : Steady zs (s.compareResolve t) := by
  unfold State.compareResolve
  repeat' (first
    | with_reducible assumption
    | with_reducible exact Steady.refl _
    | with_reducible refine Steady.ite ?_ ?_
    | with_reducible refine Steady.put ?_ _ _
    | with_reducible refine Steady.setCmp ?_ _ _
    | with_reducible refine Steady.advInst ?_ _
    | with_reducible refine Steady.tillerCatchUp ?_ _ _
    | with_reducible refine Steady.drainAll ?_ _
    | with_reducible refine Steady.endWait ?_ _
    | intro _
    | dsimp only
    | split)

theorem Steady.tdcHears {zs s : State} (hs : Steady zs s) (t j : Nat) : Steady zs (s.tdcHears t j) := by
  unfold State.tdcHears
  repeat' (first
    | with_reducible assumption
    | with_reducible exact Steady.refl _
    | with_reducible refine Steady.ite ?_ ?_
    | with_reducible refine Steady.setTdc ?_ _ _
    | dsimp only
    | split)

theorem Steady.setLatch {zs s : State} (hs : Steady zs s) (t j : Nat) : Steady zs (s.setLatch t j) := by
  unfold State.setLatch
  repeat' (first
    | with_reducible assumption
    | with_reducible exact Steady.refl _
    | with_reducible refine Steady.ite ?_ ?_
    | with_reducible refine Steady.putBit ?_ _ _ _
    | with_reducible refine Steady.modTl ?_ _ _
    | with_reducible refine Steady.tdcHears ?_ _ _
    | intro _
    | dsimp only
    | split)

theorem Steady.evwWake {zs s : State} (hs : Steady zs s) (t at_ : Nat) : Steady zs (s.evwWake t at_) := by
  unfold State.evwWake
  repeat' (first
    | with_reducible assumption
    | with_reducible exact Steady.refl _
    | with_reducible refine Steady.ite ?_ ?_
    | with_reducible refine Steady.modTl ?_ _ _
    | with_reducible refine Steady.unparkAt ?_ _ _ _
    | with_reducible refine Steady.settle ?_ _ _
    | with_reducible refine Steady.dropLatch ?_ _ _
    | intro _
    | dsimp only
    | split)

theorem Steady.evwTimeout {zs s : State} (hs : Steady zs s) (t : Nat) : Steady zs (s.evwTimeout t) := by
  unfold State.evwTimeout
  repeat' (first
    | with_reducible assumption
    | with_reducible exact Steady.refl _
    | with_reducible refine Steady.ite ?_ ?_
    | with_reducible refine Steady.bump ?_ _
    | with_reducible refine Steady.setTl ?_ _ _
    | with_reducible refine Steady.trace ?_ _ _ _ _
    | with_reducible refine Steady.unparkAt ?_ _ _ _
    | with_reducible refine Steady.settle ?_ _ _
    | with_reducible refine Steady.evwWake ?_ _ _
    | dsimp only
    | split)

theorem Steady.stallResume {zs s : State} (hs : Steady zs s) (t : Nat) : Steady zs (s.stallResume t) := by
  unfold State.stallResume
  repeat' (first
    | with_reducible assumption
    | with_reducible exact Steady.refl _
    | with_reducible refine Steady.ite ?_ ?_
    | with_reducible refine Steady.put ?_ _ _
    | with_reducible refine Steady.bumpBy ?_ _ _
    | with_reducible refine Steady.modTl ?_ _ _
    | with_reducible refine Steady.advInst ?_ _
    | with_reducible refine Steady.trace ?_ _ _ _ _
    | intro _
    | dsimp only
    | split)

theorem Steady.gapEnd {zs s : State} (hs : Steady zs s) (t : Nat) : Steady zs (s.gapEnd t) := by
  unfold State.gapEnd
  repeat' (first
    | with_reducible assumption
    | with_reducible exact Steady.refl _
    | with_reducible refine Steady.ite ?_ ?_
    | with_reducible refine Steady.put ?_ _ _
    | with_reducible refine Steady.modTl ?_ _ _
    | with_reducible refine Steady.advTo ?_ _
    | with_reducible refine Steady.endStep ?_ _
    | with_reducible refine Steady.leaveSegment ?_ _
    | with_reducible refine Steady.stopNow ?_ _ _
    | with_reducible refine Steady.takeLink ?_ _ _
    | intro _
    | dsimp only
    | split)

end Sys2Proof.Machine
end

