-- ==== Sys2Proof/Laws/SteadyCapture.lean ====
section
/-! SUPPORT. The operations of Machine/Capture.lean are steady. -/

namespace Sys2Proof.Machine

theorem Steady.fireConditions {zs s : State} (hs : Steady zs s) (t : Nat) (m : Sample) : Steady zs (s.fireConditions t m).1 := by
  unfold State.fireConditions
  repeat' (first
    | with_reducible assumption
    | with_reducible exact Steady.refl _
    | with_reducible refine Steady.ite ?_ ?_
    | with_reducible refine Steady.ite_fst ?_ ?_
    | with_reducible refine Steady.foldl ?_ _ ?_
    | with_reducible refine Steady.foldl_fst ?_ _ ?_
    | with_reducible refine Steady.putBit ?_ _ _ _
    | with_reducible refine Steady.setCap ?_ _ _
    | intro _)

theorem Steady.storeSample {zs s : State} (hs : Steady zs s) (t : Nat) (c : Cmp) (m : Sample) (trig : Bool) : Steady zs (s.storeSample t c m trig) := by
  unfold State.storeSample
  repeat' (first
    | with_reducible assumption
    | with_reducible exact Steady.refl _
    | with_reducible refine Steady.ite ?_ ?_
    | with_reducible refine Steady.setCap ?_ _ _)

theorem Steady.takeTrigger {zs s : State} (hs : Steady zs s) (t : Nat) (c : Cmp) (m : Sample) : Steady zs (s.takeTrigger t c m) := by
  unfold State.takeTrigger
  repeat' (first
    | with_reducible assumption
    | with_reducible exact Steady.refl _
    | with_reducible refine Steady.put ?_ _ _
    | with_reducible refine Steady.mark ?_ _
    | with_reducible refine Steady.tlSource ?_ _ _
    | with_reducible refine Steady.localSource ?_ _ _
    | with_reducible refine Steady.closeRing ?_ _
    | with_reducible refine Steady.storeSample ?_ _ _ _ _
    | dsimp only)

theorem Steady.maskTest {zs s : State} (hs : Steady zs s) (t : Nat) (c : Cmp) (m : Sample) : Steady zs (s.maskTest t c m).1 := by
  unfold State.maskTest
  repeat' (first
    | with_reducible assumption
    | with_reducible exact Steady.refl _
    | with_reducible refine Steady.ite ?_ ?_
    | with_reducible refine Steady.ite_fst ?_ ?_
    | with_reducible refine Steady.setReg ?_ _ _
    | with_reducible refine Steady.put ?_ _ _
    | with_reducible refine Steady.mark ?_ _
    | with_reducible refine Steady.bump ?_ _
    | with_reducible refine Steady.setCap ?_ _ _
    | dsimp only
    | split)

theorem Steady.takeSample {zs s : State} (hs : Steady zs s) (t : Nat) (c : Cmp) (m : Sample) : Steady zs (s.takeSample t c m).1 := by
  unfold State.takeSample
  repeat' (first
    | with_reducible assumption
    | with_reducible exact Steady.refl _
    | with_reducible refine Steady.ite ?_ ?_
    | with_reducible refine Steady.ite_fst ?_ ?_
    | with_reducible refine Steady.setReg ?_ _ _
    | with_reducible refine Steady.put ?_ _ _
    | with_reducible refine Steady.mark ?_ _
    | with_reducible refine Steady.bump ?_ _
    | with_reducible refine Steady.endAcquisition ?_ _ _
    | with_reducible refine Steady.autoRearm ?_ _
    | with_reducible refine Steady.fireConditions ?_ _ _
    | with_reducible refine Steady.storeSample ?_ _ _ _ _
    | with_reducible refine Steady.takeTrigger ?_ _ _ _
    | with_reducible refine Steady.maskTest ?_ _ _ _
    | intro _
    | dsimp only
    | split)

theorem Steady.deliverSample {zs s : State} (hs : Steady zs s) (t : Nat) (c : Cmp) (second : Bool) (inst : Nat) : Steady zs (s.deliverSample t c second inst) := by
  unfold State.deliverSample
  repeat' (first
    | with_reducible assumption
    | with_reducible exact Steady.refl _
    | with_reducible refine Steady.ite ?_ ?_
    | with_reducible refine Steady.requestStop ?_ _ _
    | with_reducible refine Steady.takeSample ?_ _ _ _
    | dsimp only
    | split)

theorem Steady.sampleDeliver {zs s : State} (hs : Steady zs s) (t : Nat) : Steady zs (s.sampleDeliver t) := by
  unfold State.sampleDeliver
  repeat' (first
    | with_reducible assumption
    | with_reducible exact Steady.refl _
    | with_reducible refine Steady.ite ?_ ?_
    | with_reducible refine Steady.setCmp ?_ _ _
    | with_reducible refine Steady.advInst ?_ _
    | with_reducible refine Steady.formRecord ?_ _ _
    | with_reducible refine Steady.drainAll ?_ _
    | with_reducible refine Steady.deliverSample ?_ _ _ _ _
    | intro _
    | dsimp only
    | split)

theorem Steady.writeArm {zs s : State} (hs : Steady zs s) (t : Nat) : Steady zs (s.writeArm t) := by
  unfold State.writeArm
  repeat' (first
    | with_reducible assumption
    | with_reducible exact Steady.refl _
    | with_reducible refine Steady.ite ?_ ?_
    | with_reducible refine Steady.mark ?_ _
    | with_reducible refine Steady.armCapture ?_ _)

theorem Steady.writeAbort {zs s : State} (hs : Steady zs s) (t : Nat) : Steady zs (s.writeAbort t) := by
  unfold State.writeAbort
  repeat' (first
    | with_reducible assumption
    | with_reducible exact Steady.refl _
    | with_reducible refine Steady.ite ?_ ?_
    | with_reducible refine Steady.endAcquisition ?_ _ _
    | dsimp only
    | split)

theorem Steady.writePattern {zs s : State} (hs : Steady zs s) (t i w : Nat) : Steady zs (s.writePattern t i w) := by
  unfold State.writePattern
  repeat' (first
    | with_reducible assumption
    | with_reducible exact Steady.refl _
    | with_reducible refine Steady.ite ?_ ?_
    | with_reducible refine Steady.setReg ?_ _ _
    | with_reducible refine Steady.mark ?_ _)

theorem Steady.writeCondition {zs s : State} (hs : Steady zs s) (t i w : Nat) : Steady zs (s.writeCondition t i w) := by
  unfold State.writeCondition
  repeat' (first
    | with_reducible assumption
    | with_reducible exact Steady.refl _
    | with_reducible refine Steady.ite ?_ ?_
    | with_reducible refine Steady.setReg ?_ _ _
    | with_reducible refine Steady.mark ?_ _)

end Sys2Proof.Machine
end

