-- ==== Sys2Proof/Laws/SteadyCalib.lean ====
section
/-! SUPPORT. The operations of Machine/Calib.lean are steady. -/

namespace Sys2Proof.Machine

theorem Steady.tryStep {zs s : State} (hs : Steady zs s) (t : Nat) : Steady zs (s.tryStep t) := by
  unfold State.tryStep
  repeat' (first
    | with_reducible assumption
    | with_reducible exact Steady.refl _
    | with_reducible refine Steady.ite ?_ ?_
    | with_reducible refine Steady.mark ?_ _
    | with_reducible refine Steady.bump ?_ _
    | with_reducible refine Steady.setPin ?_ _ _
    | with_reducible refine Steady.setCalTl ?_ _ _
    | intro _
    | dsimp only
    | split)

theorem Steady.trySteps {zs s : State} (hs : Steady zs s) (r : Nat) : Steady zs (s.trySteps r) := by
  unfold State.trySteps
  repeat' (first
    | with_reducible assumption
    | with_reducible exact Steady.refl _
    | with_reducible refine Steady.foldl ?_ _ ?_
    | with_reducible refine Steady.foldl_fst ?_ _ ?_
    | with_reducible refine Steady.tryStep ?_ _
    | intro _)

theorem Steady.openPaths {zs s : State} (hs : Steady zs s) (t : Nat) : Steady zs (s.openPaths t) := by
  unfold State.openPaths
  repeat' (first
    | with_reducible assumption
    | with_reducible exact Steady.refl _
    | with_reducible refine Steady.ite ?_ ?_
    | with_reducible refine Steady.foldl ?_ _ ?_
    | with_reducible refine Steady.foldl_fst ?_ _ ?_
    | with_reducible refine Steady.put ?_ _ _
    | with_reducible refine Steady.setPin ?_ _ _
    | intro _)

theorem Steady.setBank {zs s : State} (hs : Steady zs s) (r bank i w v : Nat) : Steady zs (s.setBank r bank i w v) := by
  unfold State.setBank
  repeat' (first
    | with_reducible assumption
    | with_reducible exact Steady.refl _
    | with_reducible refine Steady.banksAt ?_ _ _)

theorem Steady.copyBank {zs s : State} (hs : Steady zs s) (r c : Nat) : Steady zs (s.copyBank r c) := by
  unfold State.copyBank
  repeat' (first
    | with_reducible assumption
    | with_reducible exact Steady.refl _
    | with_reducible refine Steady.foldl ?_ _ ?_
    | with_reducible refine Steady.foldl_fst ?_ _ ?_
    | with_reducible refine Steady.setBank ?_ _ _ _ _ _
    | intro _)

theorem Steady.clearRun {zs s : State} (hs : Steady zs s) (r : Nat) : Steady zs (s.clearRun r) := by
  unfold State.clearRun
  repeat' (first
    | with_reducible assumption
    | with_reducible exact Steady.refl _
    | with_reducible refine Steady.foldl ?_ _ ?_
    | with_reducible refine Steady.foldl_fst ?_ _ ?_
    | with_reducible refine Steady.put ?_ _ _
    | with_reducible refine Steady.setCalTl ?_ _ _
    | with_reducible refine Steady.openPaths ?_ _
    | intro _)

theorem Steady.beginRun {zs s : State} (hs : Steady zs s) (r : Nat) : Steady zs (s.beginRun r) := by
  unfold State.beginRun
  repeat' (first
    | with_reducible assumption
    | with_reducible exact Steady.refl _
    | with_reducible refine Steady.ite ?_ ?_
    | with_reducible refine Steady.foldl ?_ _ ?_
    | with_reducible refine Steady.foldl_fst ?_ _ ?_
    | with_reducible refine Steady.put ?_ _ _
    | with_reducible refine Steady.setStrip ?_ _ _
    | with_reducible refine Steady.copyBank ?_ _ _
    | with_reducible refine Steady.clearRun ?_ _
    | intro _)

theorem Steady.pendStrip {zs s : State} (hs : Steady zs s) (r : Nat) : Steady zs (s.pendStrip r) := by
  unfold State.pendStrip
  repeat' (first
    | with_reducible assumption
    | with_reducible exact Steady.refl _
    | with_reducible refine Steady.ite ?_ ?_
    | with_reducible refine Steady.foldl ?_ _ ?_
    | with_reducible refine Steady.foldl_fst ?_ _ ?_
    | with_reducible refine Steady.put ?_ _ _
    | with_reducible refine Steady.setTl ?_ _ _
    | with_reducible refine Steady.safePoint ?_ _
    | intro _)

theorem Steady.adoptBank {zs s : State} (hs : Steady zs s) (r : Nat) : Steady zs (s.adoptBank r) := by
  unfold State.adoptBank
  repeat' (first
    | with_reducible assumption
    | with_reducible exact Steady.refl _
    | with_reducible refine Steady.put ?_ _ _
    | with_reducible refine Steady.pendStrip ?_ _)

theorem Steady.setDue {zs s : State} (hs : Steady zs s) (r : Nat) : Steady zs (s.setDue r) := by
  unfold State.setDue
  repeat' (first
    | with_reducible assumption
    | with_reducible exact Steady.refl _
    | with_reducible refine Steady.ite ?_ ?_
    | with_reducible refine Steady.put ?_ _ _
    | with_reducible refine Steady.mark ?_ _
    | with_reducible refine Steady.stSource ?_ _ _)

theorem Steady.abandonRun {zs s : State} (hs : Steady zs s) (r : Nat) (due : Bool) : Steady zs (s.abandonRun r due) := by
  unfold State.abandonRun
  repeat' (first
    | with_reducible assumption
    | with_reducible exact Steady.refl _
    | with_reducible refine Steady.ite ?_ ?_
    | with_reducible refine Steady.put ?_ _ _
    | with_reducible refine Steady.bump ?_ _
    | with_reducible refine Steady.stSource ?_ _ _
    | with_reducible refine Steady.clearRun ?_ _
    | dsimp only
    | split)

theorem Steady.completeRun {zs s : State} (hs : Steady zs s) (r : Nat) : Steady zs (s.completeRun r) := by
  unfold State.completeRun
  repeat' (first
    | with_reducible assumption
    | with_reducible exact Steady.refl _
    | with_reducible refine Steady.ite ?_ ?_
    | with_reducible refine Steady.foldl ?_ _ ?_
    | with_reducible refine Steady.foldl_fst ?_ _ ?_
    | with_reducible refine Steady.put ?_ _ _
    | with_reducible refine Steady.wrapUp ?_ _
    | with_reducible refine Steady.put48 ?_ _ _ _
    | with_reducible refine Steady.stSource ?_ _ _
    | with_reducible refine Steady.adoptBank ?_ _
    | intro _
    | dsimp only
    | split)

theorem Steady.calRunStart {zs s : State} (hs : Steady zs s) (r : Nat) : Steady zs (s.calRunStart r) := by
  unfold State.calRunStart
  repeat' (first
    | with_reducible assumption
    | with_reducible exact Steady.refl _
    | with_reducible refine Steady.ite ?_ ?_
    | with_reducible refine Steady.trySteps ?_ _
    | with_reducible refine Steady.beginRun ?_ _
    | with_reducible refine Steady.completeRun ?_ _)

theorem Steady.stepWords {zs s : State} (hs : Steady zs s) (t n word rms : Nat) : Steady zs (s.stepWords t n word rms) := by
  unfold State.stepWords
  repeat' (first
    | with_reducible assumption
    | with_reducible exact Steady.refl _
    | with_reducible refine Steady.ite ?_ ?_
    | with_reducible refine Steady.setCalTl ?_ _ _
    | with_reducible refine Steady.setBank ?_ _ _ _ _ _)

theorem Steady.calStepEnd {zs s : State} (hs : Steady zs s) (t word rms : Nat) : Steady zs (s.calStepEnd t word rms) := by
  unfold State.calStepEnd
  repeat' (first
    | with_reducible assumption
    | with_reducible exact Steady.refl _
    | with_reducible refine Steady.ite ?_ ?_
    | with_reducible refine Steady.putBit ?_ _ _ _
    | with_reducible refine Steady.setCalTl ?_ _ _
    | with_reducible refine Steady.advTo ?_ _
    | with_reducible refine Steady.tryStep ?_ _
    | with_reducible refine Steady.openPaths ?_ _
    | with_reducible refine Steady.completeRun ?_ _
    | with_reducible refine Steady.stepWords ?_ _ _ _ _
    | dsimp only
    | split)

theorem Steady.calTimeout {zs s : State} (hs : Steady zs s) (r : Nat) : Steady zs (s.calTimeout r) := by
  unfold State.calTimeout
  repeat' (first
    | with_reducible assumption
    | with_reducible exact Steady.refl _
    | with_reducible refine Steady.ite ?_ ?_
    | with_reducible refine Steady.advTo ?_ _
    | with_reducible refine Steady.abandonRun ?_ _ _)

theorem Steady.switchStuck {zs s : State} (hs : Steady zs s) (t : Nat) : Steady zs (s.switchStuck t) := by
  unfold State.switchStuck
  repeat' (first
    | with_reducible assumption
    | with_reducible exact Steady.refl _
    | with_reducible refine Steady.ite ?_ ?_
    | with_reducible refine Steady.advTo ?_ _
    | with_reducible refine Steady.stSource ?_ _ _
    | dsimp only
    | split)

theorem Steady.restartTest {zs s : State} (hs : Steady zs s) (r : Nat) : Steady zs (s.restartTest r) := by
  unfold State.restartTest
  repeat' (first
    | with_reducible assumption
    | with_reducible exact Steady.refl _
    | with_reducible refine Steady.ite ?_ ?_
    | with_reducible refine Steady.bump ?_ _
    | with_reducible refine Steady.trySteps ?_ _
    | with_reducible refine Steady.beginRun ?_ _
    | with_reducible refine Steady.completeRun ?_ _)

theorem Steady.calHoldExpire {zs s : State} (hs : Steady zs s) (r : Nat) : Steady zs (s.calHoldExpire r) := by
  unfold State.calHoldExpire
  repeat' (first
    | with_reducible assumption
    | with_reducible exact Steady.refl _
    | with_reducible refine Steady.ite ?_ ?_
    | with_reducible refine Steady.foldl ?_ _ ?_
    | with_reducible refine Steady.foldl_fst ?_ _ ?_
    | with_reducible refine Steady.setStrip ?_ _ _
    | with_reducible refine Steady.holdExpire ?_ _
    | with_reducible refine Steady.trySteps ?_ _
    | with_reducible refine Steady.restartTest ?_ _
    | intro _
    | dsimp only
    | split)

theorem Steady.runNow {zs s : State} (hs : Steady zs s) (r : Nat) : Steady zs (s.runNow r) := by
  unfold State.runNow
  repeat' (first
    | with_reducible assumption
    | with_reducible exact Steady.refl _
    | with_reducible refine Steady.setDue ?_ _)

theorem Steady.calAbort {zs s : State} (hs : Steady zs s) (r : Nat) : Steady zs (s.calAbort r) := by
  unfold State.calAbort
  repeat' (first
    | with_reducible assumption
    | with_reducible exact Steady.refl _
    | with_reducible refine Steady.abandonRun ?_ _ _)

theorem Steady.calCommit {zs s : State} (hs : Steady zs s) (r : Nat) : Steady zs (s.calCommit r) := by
  unfold State.calCommit
  repeat' (first
    | with_reducible assumption
    | with_reducible exact Steady.refl _
    | with_reducible refine Steady.ite ?_ ?_
    | with_reducible refine Steady.mark ?_ _
    | with_reducible refine Steady.adoptBank ?_ _)

theorem Steady.calReload {zs s : State} (hs : Steady zs s) (r : Nat) : Steady zs (s.calReload r) := by
  unfold State.calReload
  repeat' (first
    | with_reducible assumption
    | with_reducible exact Steady.refl _
    | with_reducible refine Steady.pendStrip ?_ _)

theorem Steady.calAdvance {zs s : State} (hs : Steady zs s) (r : Nat) : Steady zs (s.calAdvance r) := by
  unfold State.calAdvance
  repeat' (first
    | with_reducible assumption
    | with_reducible exact Steady.refl _
    | with_reducible refine Steady.ite ?_ ?_
    | with_reducible refine Steady.put ?_ _ _)

theorem Steady.calDataWrite {zs s : State} (hs : Steady zs s) (r w : Nat) : Steady zs (s.calDataWrite r w) := by
  unfold State.calDataWrite
  repeat' (first
    | with_reducible assumption
    | with_reducible exact Steady.refl _
    | with_reducible refine Steady.ite ?_ ?_
    | with_reducible refine Steady.mark ?_ _
    | with_reducible refine Steady.setBank ?_ _ _ _ _ _
    | with_reducible refine Steady.calAdvance ?_ _)

theorem Steady.proberGap {zs s : State} (hs : Steady zs s) (strips len : Nat) : Steady zs (s.proberGap strips len) := by
  unfold State.proberGap
  repeat' (first
    | with_reducible assumption
    | with_reducible exact Steady.refl _
    | with_reducible refine Steady.foldl ?_ _ ?_
    | with_reducible refine Steady.foldl_fst ?_ _ ?_
    | with_reducible refine Steady.setCalTl ?_ _ _
    | with_reducible refine Steady.trySteps ?_ _
    | intro _)

theorem Steady.gapStart {zs s : State} (hs : Steady zs s) (t : Nat) : Steady zs (s.gapStart t) := by
  unfold State.gapStart
  repeat' (first
    | with_reducible assumption
    | with_reducible exact Steady.refl _
    | with_reducible refine Steady.ite ?_ ?_
    | with_reducible refine Steady.setCalTl ?_ _ _
    | with_reducible refine Steady.advTo ?_ _
    | with_reducible refine Steady.trace ?_ _ _ _ _
    | with_reducible refine Steady.safePoint ?_ _
    | with_reducible refine Steady.tryStep ?_ _
    | dsimp only
    | split)

theorem Steady.checkStrip {zs s : State} (hs : Steady zs s) (r : Nat) : Steady zs (s.checkStrip r) := by
  unfold State.checkStrip
  repeat' (first
    | with_reducible assumption
    | with_reducible exact Steady.refl _
    | with_reducible refine Steady.ite ?_ ?_
    | with_reducible refine Steady.foldl ?_ _ ?_
    | with_reducible refine Steady.foldl_fst ?_ _ ?_
    | with_reducible refine Steady.mark ?_ _
    | with_reducible refine Steady.setStrip ?_ _ _
    | with_reducible refine Steady.stSource ?_ _ _
    | intro _
    | dsimp only
    | split)

theorem Steady.checkEdge {zs s : State} (hs : Steady zs s) (d : Nat) : Steady zs (s.checkEdge d) := by
  unfold State.checkEdge
  repeat' (first
    | with_reducible assumption
    | with_reducible exact Steady.refl _
    | with_reducible refine Steady.ite ?_ ?_
    | with_reducible refine Steady.mark ?_ _
    | dsimp only
    | split
    | with_reducible refine Steady.update ?_ rfl rfl)

theorem Steady.halfOf2 {zs s : State} (hs : Steady zs s) (n : Int) : Steady zs (s.halfOf2 n).1 := by
  unfold State.halfOf2
  repeat' (first
    | with_reducible assumption
    | with_reducible exact Steady.refl _
    | with_reducible refine Steady.ite ?_ ?_
    | with_reducible refine Steady.ite_fst ?_ ?_
    | with_reducible refine Steady.draw ?_)

theorem Steady.formT {zs s : State} (hs : Steady zs s) (r : Nat) : Steady zs (s.formT r) := by
  unfold State.formT
  repeat' (first
    | with_reducible assumption
    | with_reducible exact Steady.refl _
    | with_reducible refine Steady.ite ?_ ?_
    | with_reducible refine Steady.put ?_ _ _
    | with_reducible refine Steady.mark ?_ _
    | with_reducible refine Steady.stSource ?_ _ _
    | with_reducible refine Steady.halfOf2 ?_ _
    | dsimp only
    | split)

theorem Steady.formBlind {zs s : State} (hs : Steady zs s) (r : Nat) : Steady zs (s.formBlind r) := by
  unfold State.formBlind
  repeat' (first
    | with_reducible assumption
    | with_reducible exact Steady.refl _
    | with_reducible refine Steady.ite ?_ ?_
    | with_reducible refine Steady.put ?_ _ _
    | with_reducible refine Steady.halfOf2 ?_ _
    | intro _
    | dsimp only
    | split)

theorem Steady.followBand {zs s : State} (hs : Steady zs s) (r : Nat) : Steady zs (s.followBand r) := by
  unfold State.followBand
  repeat' (first
    | with_reducible assumption
    | with_reducible exact Steady.refl _
    | with_reducible refine Steady.ite ?_ ?_
    | with_reducible refine Steady.put ?_ _ _
    | with_reducible refine Steady.stSource ?_ _ _
    | with_reducible refine Steady.pendStrip ?_ _
    | with_reducible refine Steady.setDue ?_ _)

theorem Steady.followT {zs s : State} (hs : Steady zs s) (r : Nat) : Steady zs (s.followT r) := by
  unfold State.followT
  repeat' (first
    | with_reducible assumption
    | with_reducible exact Steady.refl _
    | with_reducible refine Steady.ite ?_ ?_
    | with_reducible refine Steady.setDue ?_ _)

theorem Steady.riseReaction {zs s : State} (hs : Steady zs s) (code t : Nat) : Steady zs (s.riseReaction code t) := by
  unfold State.riseReaction
  repeat' (first
    | with_reducible assumption
    | with_reducible exact Steady.refl _
    | with_reducible refine Steady.ite ?_ ?_
    | with_reducible refine Steady.putBit ?_ _ _ _
    | with_reducible refine Steady.modTl ?_ _ _
    | with_reducible refine Steady.tag ?_ _ _
    | with_reducible refine Steady.requestStop ?_ _ _
    | with_reducible refine Steady.safeStop ?_ _
    | intro _
    | dsimp only
    | split)

theorem Steady.takeReaction {zs s : State} (hs : Steady zs s) (r : Nat) : Steady zs (s.takeReaction r) := by
  unfold State.takeReaction
  repeat' (first
    | with_reducible assumption
    | with_reducible exact Steady.refl _
    | with_reducible refine Steady.ite ?_ ?_
    | with_reducible refine Steady.foldl ?_ _ ?_
    | with_reducible refine Steady.foldl_fst ?_ _ ?_
    | with_reducible refine Steady.mark ?_ _
    | with_reducible refine Steady.bump ?_ _
    | with_reducible refine Steady.setStrip ?_ _ _
    | with_reducible refine Steady.riseReaction ?_ _ _
    | intro _)

theorem Steady.endMark {zs s : State} (hs : Steady zs s) (r : Nat) : Steady zs (s.endMark r) := by
  unfold State.endMark
  repeat' (first
    | with_reducible assumption
    | with_reducible exact Steady.refl _
    | with_reducible refine Steady.ite ?_ ?_
    | with_reducible refine Steady.foldl ?_ _ ?_
    | with_reducible refine Steady.foldl_fst ?_ _ ?_
    | with_reducible refine Steady.put ?_ _ _
    | with_reducible refine Steady.modTl ?_ _ _
    | with_reducible refine Steady.setStrip ?_ _ _
    | with_reducible refine Steady.unparkAt ?_ _ _ _
    | intro _)

theorem Steady.followRate {zs s : State} (hs : Steady zs s) (r : Nat) : Steady zs (s.followRate r) := by
  unfold State.followRate
  repeat' (first
    | with_reducible assumption
    | with_reducible exact Steady.refl _
    | with_reducible refine Steady.ite ?_ ?_
    | with_reducible refine Steady.put ?_ _ _
    | with_reducible refine Steady.setStrip ?_ _ _
    | with_reducible refine Steady.stSource ?_ _ _
    | with_reducible refine Steady.draw ?_
    | with_reducible refine Steady.takeReaction ?_ _
    | with_reducible refine Steady.endMark ?_ _
    | dsimp only
    | split)

theorem Steady.thermalTest {zs s : State} (hs : Steady zs s) : Steady zs s.thermalTest := by
  have h0 : Steady zs { s with monitor := { s.monitor with alone := 0 } } := hs.update rfl rfl
  have h1 : Steady zs { s with monitor := { s.monitor with alone := s.monitor.alone + 1 } } := hs.update rfl rfl
  unfold State.thermalTest
  split
  · exact h0
  · exact Steady.ite (Steady.raiseLine (h1.mark _) _) h1
  · refine Steady.ite h0 ?_
    have h2 := Steady.foldl h0 allTillers fun u x => Steady.shutStop (Steady.refl u) x
    dsimp only
    generalize allTillers.foldl State.shutStop _ = u at h2 ⊢
    exact h2.update rfl rfl

theorem Steady.sampleTick {zs s : State} (hs : Steady zs s) : Steady zs s.sampleTick := by
  unfold State.sampleTick
  dsimp only
  exact Steady.update (hs.advTo _) rfl rfl

theorem Steady.sensorSample {zs s : State} (hs : Steady zs s) (readings : List Int) : Steady zs (s.sensorSample readings) := by
  unfold State.sensorSample
  dsimp only
  replace hs := hs.sampleTick
  generalize s.sampleTick = s at hs ⊢
  repeat' (first
    | with_reducible assumption
    | with_reducible exact Steady.refl _
    | with_reducible refine Steady.foldl ?_ _ ?_
    | with_reducible refine Steady.foldl_fst ?_ _ ?_
    | with_reducible refine Steady.put ?_ _ _
    | with_reducible refine Steady.trySteps ?_ _
    | with_reducible refine Steady.restartTest ?_ _
    | with_reducible refine Steady.checkStrip ?_ _
    | with_reducible refine Steady.checkEdge ?_ _
    | with_reducible refine Steady.formT ?_ _
    | with_reducible refine Steady.formBlind ?_ _
    | with_reducible refine Steady.followBand ?_ _
    | with_reducible refine Steady.followT ?_ _
    | with_reducible refine Steady.followRate ?_ _
    | with_reducible refine Steady.thermalTest ?_
    | intro _)

end Sys2Proof.Machine
end

