-- ==== Sys2Proof/Laws/SteadyThresher.lean ====
section
/-! SUPPORT. The operations of Machine/Thresher.lean are steady. -/

namespace Sys2Proof.Machine

theorem Steady.enterTh {zs s : State} (hs : Steady zs s) (i st : Nat) : Steady zs (s.enterTh i st) := by
  unfold State.enterTh
  repeat' (first
    | with_reducible assumption
    | with_reducible exact Steady.refl _
    | with_reducible refine Steady.put ?_ _ _)

theorem Steady.modThr {zs s : State} (hs : Steady zs s) (i : Nat) (f : Thresher → Thresher) : Steady zs (s.modThr i f) := hs.setThr _ _

theorem Steady.scramble {zs s : State} (hs : Steady zs s) (i : Nat) : Steady zs (s.scramble i) :=
  Steady.drawn (hs.setThr _ _) (Nat.le_add_right _ _)

theorem Steady.scrambleScratch {zs s : State} (hs : Steady zs s) (i : Nat) : Steady zs (s.scrambleScratch i) :=
  Steady.drawn (hs.modThr _ _) (Nat.le_add_right _ _)

theorem Steady.waitedRing {zs s : State} (hs : Steady zs s) (i : Nat) : Steady zs (s.waitedRing i) := by
  unfold State.waitedRing
  repeat' (first
    | with_reducible assumption
    | with_reducible exact Steady.refl _
    | with_reducible refine Steady.bumpBy ?_ _ _
    | with_reducible refine Steady.modThr ?_ _ _
    | intro _
    | dsimp only
    | split)

theorem Steady.countWait {zs s : State} (hs : Steady zs s) (i : Nat) : Steady zs (s.countWait i) := by
  unfold State.countWait
  repeat' (first
    | with_reducible assumption
    | with_reducible exact Steady.refl _
    | with_reducible refine Steady.ite ?_ ?_
    | with_reducible refine Steady.modThr ?_ _ _
    | with_reducible refine Steady.waitedRing ?_ _
    | intro _
    | dsimp only
    | split)

theorem Steady.releaseLock {zs s : State} (hs : Steady zs s) (i : Nat) : Steady zs (s.releaseLock i) := by
  unfold State.releaseLock
  repeat' (first
    | with_reducible assumption
    | with_reducible exact Steady.refl _
    | with_reducible refine Steady.ite ?_ ?_
    | with_reducible refine Steady.setThr ?_ _ _
    | with_reducible refine Steady.setByte ?_ _ _
    | dsimp only
    | split)

theorem Steady.releaseWork {zs s : State} (hs : Steady zs s) (i : Nat) : Steady zs (s.releaseWork i) := by
  unfold State.releaseWork
  repeat' (first
    | with_reducible assumption
    | with_reducible exact Steady.refl _
    | with_reducible refine Steady.modThr ?_ _ _
    | with_reducible refine Steady.waitedRing ?_ _
    | with_reducible refine Steady.releaseLock ?_ _
    | intro _
    | dsimp only)

theorem Steady.discardWork {zs s : State} (hs : Steady zs s) (i : Nat) : Steady zs (s.discardWork i) := by
  unfold State.discardWork
  repeat' (first
    | with_reducible assumption
    | with_reducible exact Steady.refl _
    | with_reducible refine Steady.ite ?_ ?_
    | with_reducible refine Steady.modThr ?_ _ _
    | with_reducible refine Steady.scramble ?_ _
    | with_reducible refine Steady.releaseWork ?_ _)

theorem Steady.writeCtx {zs s : State} (hs : Steady zs s) (i j v : Nat) : Steady zs (s.writeCtx i j v) := by
  unfold State.writeCtx
  repeat' (first
    | with_reducible assumption
    | with_reducible exact Steady.refl _
    | with_reducible refine Steady.foldl ?_ _ ?_
    | with_reducible refine Steady.foldl_fst ?_ _ ?_
    | with_reducible refine Steady.storeBytes ?_ _ _
    | with_reducible refine Steady.markUncorr ?_ _ _
    | intro _)

theorem Steady.ctxCheck {zs s : State} (hs : Steady zs s) (i j k : Nat) : Steady zs (s.ctxCheck i j k).1 := by
  unfold State.ctxCheck
  repeat' (first
    | with_reducible assumption
    | with_reducible exact Steady.refl _
    | with_reducible refine Steady.ite ?_ ?_
    | with_reducible refine Steady.ite_fst ?_ ?_
    | with_reducible refine Steady.bump ?_ _
    | with_reducible refine Steady.inject ?_ _ _
    | dsimp only
    | split)

theorem Steady.staleOne {zs s : State} (hs : Steady zs s) (i j : Nat) : Steady zs (s.staleOne i j).1 := by
  unfold State.staleOne
  repeat' (first
    | with_reducible assumption
    | with_reducible exact Steady.refl _
    | with_reducible refine Steady.ite ?_ ?_
    | with_reducible refine Steady.ite_fst ?_ ?_
    | with_reducible refine Steady.setByte ?_ _ _
    | with_reducible refine Steady.markUncorr ?_ _ _
    | with_reducible refine Steady.modThr ?_ _ _
    | with_reducible refine Steady.ctxCheck ?_ _ _ _
    | intro _
    | dsimp only
    | split)

theorem Steady.faultAlone {zs s : State} (hs : Steady zs s) (i cause : Nat) : Steady zs (s.faultAlone i cause) := by
  unfold State.faultAlone
  repeat' (first
    | with_reducible assumption
    | with_reducible exact Steady.refl _
    | with_reducible refine Steady.put ?_ _ _
    | with_reducible refine Steady.source ?_ _
    | with_reducible refine Steady.raiseLine ?_ _
    | with_reducible refine Steady.enterTh ?_ _ _
    | with_reducible refine Steady.modThr ?_ _ _
    | with_reducible refine Steady.discardWork ?_ _
    | intro _
    | dsimp only)

theorem Steady.markStale {zs s : State} (hs : Steady zs s) (i t : Nat) : Steady zs (s.markStale i t) := by
  unfold State.markStale
  repeat' (first
    | with_reducible assumption
    | with_reducible exact Steady.refl _
    | with_reducible refine Steady.ite ?_ ?_
    | with_reducible refine Steady.foldl ?_ _ ?_
    | with_reducible refine Steady.foldl_fst ?_ _ ?_
    | with_reducible refine Steady.staleOne ?_ _ _
    | with_reducible refine Steady.faultAlone ?_ _ _
    | intro _
    | dsimp only
    | split)

theorem Steady.purgeTiller {zs s : State} (hs : Steady zs s) (i t : Nat) : Steady zs (s.purgeTiller i t) := by
  unfold State.purgeTiller
  repeat' (first
    | with_reducible assumption
    | with_reducible exact Steady.refl _
    | with_reducible refine Steady.ite ?_ ?_
    | with_reducible refine Steady.setThr ?_ _ _
    | intro _
    | dsimp only
    | split)

theorem Steady.takeReset {zs s : State} (hs : Steady zs s) (i t : Nat) : Steady zs (s.takeReset i t) := by
  unfold State.takeReset
  repeat' (first
    | with_reducible assumption
    | with_reducible exact Steady.refl _
    | with_reducible refine Steady.settleRoute ?_ _
    | with_reducible refine Steady.markStale ?_ _ _
    | with_reducible refine Steady.purgeTiller ?_ _ _
    | dsimp only)

/-- What loading a context leaves. -/
theorem Steady.loadCtx {zs s : State} (hs : Steady zs s) (i key j : Nat) : match s.loadCtx i key j with
    | .wait => True
    | .fault _ s1 => Steady zs s1
    | .ok s1 => Steady zs s1 := by
  have h1 : ∀ n, Steady zs ((s.inject .context (i / 2)).1.bumpBy (SH_CTX_STAT_CORR (i / 2)) n) := fun n => Steady.bumpBy (Steady.inject hs _ _) _ _
  unfold State.loadCtx
  dsimp only
  split_ifs
  all_goals first
    | with_reducible exact True.intro
    | with_reducible exact h1 _
    | with_reducible exact (h1 _).modThr _ _

theorem Steady.postRing {zs s : State} (hs : Steady zs s) (i data : Nat) : Steady zs (s.postRing i data) := by
  unfold State.postRing
  repeat' (first
    | with_reducible assumption
    | with_reducible exact Steady.refl _
    | with_reducible refine Steady.setThr ?_ _ _
    | dsimp only)

theorem Steady.postLine {zs s : State} (hs : Steady zs s) (i line data : Nat) (poison : Bool) : Steady zs (s.postLine i line data poison) := by
  unfold State.postLine
  repeat' (first
    | with_reducible assumption
    | with_reducible exact Steady.refl _
    | with_reducible refine Steady.modThr ?_ _ _
    | intro _
    | dsimp only)

theorem Steady.noteNow {zs s : State} (hs : Steady zs s) (i n0 n1 : Nat) : Steady zs (s.noteNow i n0 n1) := by
  unfold State.noteNow
  repeat' (first
    | with_reducible assumption
    | with_reducible exact Steady.refl _
    | with_reducible refine Steady.ite ?_ ?_
    | with_reducible refine Steady.mark ?_ _
    | with_reducible refine Steady.source ?_ _
    | with_reducible refine Steady.postNotice ?_ _ _ _)

theorem Steady.postNote {zs s : State} (hs : Steady zs s) (i n0 n1 : Nat) : Steady zs (s.postNote i n0 n1) := by
  unfold State.postNote
  repeat' (first
    | with_reducible assumption
    | with_reducible exact Steady.refl _
    | with_reducible refine Steady.ite ?_ ?_
    | with_reducible refine Steady.modThr ?_ _ _
    | with_reducible refine Steady.noteNow ?_ _ _ _)

theorem Steady.flushNotes {zs s : State} (hs : Steady zs s) (i n : Nat) : Steady zs (s.flushNotes i n) := by
  induction n generalizing s with
  | zero => exact hs
  | succ n ih =>
    unfold State.flushNotes
    split
    · exact ih (Steady.noteNow (hs.modThr _ _) _ _ _)
    · exact hs

theorem Steady.headOn {zs s : State} (hs : Steady zs s) (i n : Nat) : Steady zs (s.headOn i n) := by
  unfold State.headOn
  repeat' (first
    | with_reducible assumption
    | with_reducible exact Steady.refl _
    | with_reducible refine Steady.put ?_ _ _
    | dsimp only)

theorem Steady.thWriteComplete {zs s : State} (hs : Steady zs s) (i k : Nat) : Steady zs (s.thWriteComplete i k) := by
  unfold State.thWriteComplete
  repeat' (first
    | with_reducible assumption
    | with_reducible exact Steady.refl _
    | with_reducible refine Steady.ite ?_ ?_
    | with_reducible refine Steady.memPut ?_ _ _ _
    | with_reducible refine Steady.modThr ?_ _ _
    | with_reducible refine Steady.flushNotes ?_ _ _
    | with_reducible refine Steady.headOn ?_ _ _
    | intro _
    | dsimp only
    | split)

theorem Steady.lineData {zs s : State} (hs : Steady zs s) (line : Nat) : Steady zs (s.lineData line).1 := by
  unfold State.lineData
  repeat' (first
    | with_reducible assumption
    | with_reducible exact Steady.refl _
    | with_reducible refine Steady.ite ?_ ?_
    | with_reducible refine Steady.ite_fst ?_ ?_
    | with_reducible refine Steady.lineCheck ?_ _ _)

theorem Steady.thReadComplete {zs s : State} (hs : Steady zs s) (i b : Nat) : Steady zs (s.thReadComplete i b) := by
  unfold State.thReadComplete
  repeat' (first
    | with_reducible assumption
    | with_reducible exact Steady.refl _
    | with_reducible refine Steady.ite ?_ ?_
    | with_reducible refine Steady.put ?_ _ _
    | with_reducible refine Steady.modThr ?_ _ _
    | with_reducible refine Steady.lineData ?_ _
    | intro _
    | dsimp only
    | split)

theorem Steady.thFault {zs s : State} (hs : Steady zs s) (i cause : Nat) : Steady zs (s.thFault i cause) := by
  unfold State.thFault
  repeat' (first
    | with_reducible assumption
    | with_reducible exact Steady.refl _
    | with_reducible refine Steady.foldl ?_ _ ?_
    | with_reducible refine Steady.foldl_fst ?_ _ ?_
    | with_reducible refine Steady.faultAlone ?_ _ _
    | with_reducible refine Steady.takeReset ?_ _ _
    | intro _
    | dsimp only)

theorem Steady.popRecord {zs s : State} (hs : Steady zs s) (i : Nat) : Steady zs (s.popRecord i) := by
  unfold State.popRecord
  repeat' (first
    | with_reducible assumption
    | with_reducible exact Steady.refl _
    | with_reducible refine Steady.bump ?_ _
    | with_reducible refine Steady.settleRoute ?_ _
    | with_reducible refine Steady.modThr ?_ _ _
    | intro _
    | dsimp only
    | split)

theorem Steady.commit {zs s : State} (hs : Steady zs s) (i n : Nat) (keep : Bool) : Steady zs (s.commit i n keep) := by
  unfold State.commit
  repeat' (first
    | with_reducible assumption
    | with_reducible exact Steady.refl _
    | with_reducible refine Steady.ite ?_ ?_
    | with_reducible refine Steady.enterTh ?_ _ _
    | with_reducible refine Steady.modThr ?_ _ _
    | with_reducible refine Steady.writeCtx ?_ _ _ _
    | with_reducible refine Steady.popRecord ?_ _
    | intro _
    | dsimp only
    | split)

theorem Steady.endRoutine {zs s : State} (hs : Steady zs s) (i : Nat) : Steady zs (s.endRoutine i) := by
  unfold State.endRoutine
  repeat' (first
    | with_reducible assumption
    | with_reducible exact Steady.refl _
    | with_reducible refine Steady.ite ?_ ?_
    | with_reducible refine Steady.foldl ?_ _ ?_
    | with_reducible refine Steady.foldl_fst ?_ _ ?_
    | with_reducible refine Steady.enterTh ?_ _ _
    | with_reducible refine Steady.modThr ?_ _ _
    | with_reducible refine Steady.scramble ?_ _
    | with_reducible refine Steady.scrambleScratch ?_ _
    | with_reducible refine Steady.releaseWork ?_ _
    | with_reducible refine Steady.takeReset ?_ _ _
    | intro _
    | dsimp only
    | split)

theorem Steady.abandonRoutine {zs s : State} (hs : Steady zs s) (i : Nat) : Steady zs (s.abandonRoutine i) := by
  unfold State.abandonRoutine
  repeat' (first
    | with_reducible assumption
    | with_reducible exact Steady.refl _
    | with_reducible refine Steady.bump ?_ _
    | with_reducible refine Steady.discardWork ?_ _)

theorem Steady.writeRun {zs s : State} (hs : Steady zs s) (i : Nat) (run : Bool) : Steady zs (s.writeRun i run) := by
  unfold State.writeRun
  repeat' (first
    | with_reducible assumption
    | with_reducible exact Steady.refl _
    | with_reducible refine Steady.ite ?_ ?_
    | with_reducible refine Steady.put ?_ _ _
    | with_reducible refine Steady.mark ?_ _
    | with_reducible refine Steady.enterTh ?_ _ _
    | with_reducible refine Steady.modThr ?_ _ _
    | with_reducible refine Steady.abandonRoutine ?_ _
    | intro _
    | dsimp only
    | split)

theorem Steady.thRestart {zs s : State} (hs : Steady zs s) (i : Nat) : Steady zs (s.thRestart i) := by
  unfold State.thRestart
  repeat' (first
    | with_reducible assumption
    | with_reducible exact Steady.refl _
    | with_reducible refine Steady.ite ?_ ?_
    | with_reducible refine Steady.enterTh ?_ _ _)

theorem Steady.thCommand {zs s : State} (hs : Steady zs s) (i cmd q : Nat) : Steady zs (s.thCommand i cmd q) := by
  unfold State.thCommand
  dsimp only
  split
  · exact Steady.drawn (hs.modThr _ _) (Nat.le_add_right _ _)
  · exact hs.mark _

theorem Steady.writeRouteBit {zs s : State} (hs : Steady zs s) (t b : Nat) : Steady zs (s.writeRouteBit t b) := by
  unfold State.writeRouteBit
  repeat' (first
    | with_reducible assumption
    | with_reducible exact Steady.refl _
    | with_reducible refine Steady.ite ?_ ?_
    | with_reducible refine Steady.setRoute ?_ _ _
    | with_reducible refine Steady.source ?_ _
    | with_reducible refine Steady.showMove ?_ _
    | with_reducible refine Steady.routeBoundary ?_ _)

theorem Steady.writeXbar {zs s : State} (hs : Steady zs s) (u w : Nat) : Steady zs (s.writeXbar u w) := by
  unfold State.writeXbar
  repeat' (first
    | with_reducible assumption
    | with_reducible exact Steady.refl _
    | with_reducible refine Steady.foldl ?_ _ ?_
    | with_reducible refine Steady.foldl_fst ?_ _ ?_
    | with_reducible refine Steady.put ?_ _ _
    | with_reducible refine Steady.writeRouteBit ?_ _ _
    | intro _)

theorem Steady.xbarTake {zs s : State} (hs : Steady zs s) (t : Nat) : Steady zs (s.xbarTake t) := by
  unfold State.xbarTake
  repeat' (first
    | with_reducible assumption
    | with_reducible exact Steady.refl _
    | with_reducible refine Steady.ite ?_ ?_
    | with_reducible refine Steady.setSheaf ?_ _ _
    | with_reducible refine Steady.settleRoute ?_ _
    | with_reducible refine Steady.fifoTake ?_ _
    | with_reducible refine Steady.modThr ?_ _ _
    | intro _
    | dsimp only
    | split
    | refine Steady.of_pair (by assumption) ?_)

theorem Steady.resetInThresher {zs s : State} (hs : Steady zs s) (t i : Nat) : Steady zs (s.resetInThresher t i) := by
  unfold State.resetInThresher
  repeat' (first
    | with_reducible assumption
    | with_reducible exact Steady.refl _
    | with_reducible refine Steady.ite ?_ ?_
    | with_reducible refine Steady.enterTh ?_ _ _
    | with_reducible refine Steady.modThr ?_ _ _
    | with_reducible refine Steady.takeReset ?_ _ _
    | with_reducible refine Steady.abandonRoutine ?_ _
    | intro _
    | dsimp only
    | split)

theorem Steady.resetInThreshers {zs s : State} (hs : Steady zs s) (t : Nat) : Steady zs (s.resetInThreshers t) := by
  unfold State.resetInThreshers
  repeat' (first
    | with_reducible assumption
    | with_reducible exact Steady.refl _
    | with_reducible refine Steady.settleRoute ?_ _
    | with_reducible refine Steady.resetInThresher ?_ _ _)

theorem Steady.setTotals {zs s : State} (hs : Steady zs s) (i q : Nat) (x : PktTotals) : Steady zs (s.setTotals i q x) := by
  unfold State.setTotals
  repeat' (first
    | with_reducible assumption
    | with_reducible exact Steady.refl _
    | with_reducible refine Steady.modThr ?_ _ _)

theorem Steady.waitRing {zs s : State} (hs : Steady zs s) (i : Nat) : Steady zs (s.waitRing i) := by
  unfold State.waitRing
  repeat' (first
    | with_reducible assumption
    | with_reducible exact Steady.refl _
    | with_reducible refine Steady.modThr ?_ _ _)

theorem Steady.runRoutine {zs s : State} (hs : Steady zs s) (i ring lines : Nat) (keep : Bool) (next : Option Nat) {work : State → State}
    (hf : ∀ s, Steady s (work s)) : Steady zs (s.runRoutine i ring lines keep next work) := by
  unfold State.runRoutine
  dsimp only
  split
  · exact Steady.waitRing hs _
  · split
    · exact Steady.waitedRing hs _
    · exact Steady.endRoutine ((Steady.commit ((Steady.waitedRing hs _).modThr _ _) _ _ _).trans (hf _)) _

theorem Steady.withCtx {zs s : State} (hs : Steady zs s) (i key j : Nat) {k : State → State} (hf : ∀ s, Steady s (k s)) : Steady zs (s.withCtx i key j k) := by
  have h := Steady.loadCtx hs i key j
  unfold State.withCtx
  split
  · exact hs
  · simp only [*] at h
    exact Steady.thFault h _ _
  · simp only [*] at h
    exact h.trans (hf _)

theorem Steady.postPacket {zs s : State} (hs : Steady zs s) (i t seq d : Nat) (x : PktTotals) (sig : Nat) : Steady zs (s.postPacket i t seq d x sig) := by
  unfold State.postPacket
  repeat' (first
    | with_reducible assumption
    | with_reducible exact Steady.refl _
    | with_reducible refine Steady.postRing ?_ _ _
    | with_reducible refine Steady.postNote ?_ _ _ _)

theorem Steady.solveShadow {zs s : State} (hs : Steady zs s) (i t q region seq next : Nat) {add : State → (PktTotals → PktTotals) → State}
    (hf : ∀ s f, Steady s (add s f)) : Steady zs (s.solveShadow i t q region seq next add) := by
  unfold State.solveShadow
  dsimp only
  exact Steady.runRoutine (hs.modThr _ _) _ _ _ _ _ (fun s => (Steady.postRing (Steady.refl s) _ _).trans (hf _ _))

theorem Steady.repairRecord {zs s : State} (hs : Steady zs s) (i t q d : Nat) : Steady zs (s.repairRecord i t q d) := by
  unfold State.repairRecord
  repeat' (first
    | with_reducible assumption
    | with_reducible exact Steady.refl _
    | with_reducible refine Steady.ite ?_ ?_
    | with_reducible refine Steady.modThr ?_ _ _
    | with_reducible refine Steady.postLine ?_ _ _ _ _
    | with_reducible refine Steady.lineData ?_ _
    | with_reducible refine Steady.setTotals ?_ _ _ _
    | with_reducible refine Steady.runRoutine ?_ _ _ _ _ _ (fun _ => ?_)
    | with_reducible refine Steady.withCtx ?_ _ _ _ (fun _ => ?_)
    | intro _
    | dsimp only
    | split)

theorem Steady.packetEndRecord {zs s : State} (hs : Steady zs s) (i t q d mode : Nat) : Steady zs (s.packetEndRecord i t q d mode) := by
  unfold State.packetEndRecord
  repeat' (first
    | with_reducible assumption
    | with_reducible exact Steady.refl _
    | with_reducible refine Steady.ite ?_ ?_
    | with_reducible refine Steady.foldl ?_ _ ?_
    | with_reducible refine Steady.foldl_fst ?_ _ ?_
    | with_reducible refine Steady.wrapUp ?_ _
    | with_reducible refine Steady.postRing ?_ _ _
    | with_reducible refine Steady.setTotals ?_ _ _ _
    | with_reducible refine Steady.runRoutine ?_ _ _ _ _ _ (fun _ => ?_)
    | with_reducible refine Steady.withCtx ?_ _ _ _ (fun _ => ?_)
    | with_reducible refine Steady.postPacket ?_ _ _ _ _ _ _
    | with_reducible refine Steady.solveShadow ?_ _ _ _ _ _ _ (fun _ _ => ?_)
    | intro _
    | dsimp only
    | split)

theorem Steady.visit {zs s : State} (hs : Steady zs s) (i t base : Nat) (l : List Nat) : match s.visit i t base l with
    | .none s1 => Steady zs s1
    | .bad s1 => Steady zs s1
    | .found s1 _ => Steady zs s1 := by
  induction l generalizing s with
  | nil => exact hs
  | cons n r ih =>
    have h := Steady.ctxCheck hs i (base + n) 0
    unfold State.visit
    dsimp only
    by_cases hb : (s.ctxCheck i (base + n) 0).2 = true
    · rw [if_pos hb]
      exact h
    · rw [if_neg hb]
      by_cases hf : (s.ctxCheck i (base + n) 0).1.solvable i t (base + n) = true
      · rw [if_pos hf]
        exact h
      · rw [if_neg hf]
        exact ih h

theorem Steady.commandRecord {zs s : State} (hs : Steady zs s) (i t q cmd : Nat) : Steady zs (s.commandRecord i t q cmd) := by
  unfold State.commandRecord
  dsimp only
  refine Steady.ite ?_ (Steady.ite ?_ (Steady.ite hs ?_))
  · have h := Steady.visit hs i t (s.get (SH_CTX_MAP_BASE (i / 2) q)) ((List.range (s.get (SH_CTX_MAP_COUNT (i / 2) q))).drop (s.thr i).cursor)
    split
    · simp only [*] at h
      exact Steady.thFault h _ _
    · simp only [*] at h
      exact Steady.withCtx h _ _ _ (fun _ => Steady.solveShadow (Steady.refl _) _ _ _ _ _ _ (fun _ _ => Steady.modThr (Steady.refl _) _ _))
    · simp only [*] at h
      exact Steady.runRoutine h _ _ _ _ _ (fun _ => Steady.modThr (Steady.postPacket (Steady.refl _) _ _ _ _ _ _) _ _)
  · exact Steady.runRoutine hs _ _ _ _ _ (fun _ => Steady.refl _)
  · exact Steady.runRoutine (hs.modThr _ _) _ _ _ _ _ (fun _ => Steady.refl _)

theorem Steady.hardRoutine {zs s : State} (hs : Steady zs s) (i : Nat) (e : InRec) : Steady zs (s.hardRoutine i e) := by
  unfold State.hardRoutine
  repeat' (first
    | with_reducible assumption
    | with_reducible exact Steady.refl _
    | with_reducible refine Steady.ite ?_ ?_
    | with_reducible refine Steady.bump ?_ _
    | with_reducible refine Steady.postRing ?_ _ _
    | with_reducible refine Steady.setTotals ?_ _ _ _
    | with_reducible refine Steady.runRoutine ?_ _ _ _ _ _ (fun _ => ?_)
    | with_reducible refine Steady.repairRecord ?_ _ _ _ _
    | with_reducible refine Steady.packetEndRecord ?_ _ _ _ _ _
    | with_reducible refine Steady.commandRecord ?_ _ _ _ _
    | intro _
    | dsimp only
    | split)

theorem Steady.fetchCheck {zs s : State} (hs : Steady zs s) (i : Nat) : Steady zs (s.fetchCheck i).1 := by
  unfold State.fetchCheck
  repeat' (first
    | with_reducible assumption
    | with_reducible exact Steady.refl _
    | with_reducible refine Steady.bump ?_ _
    | with_reducible refine Steady.inject ?_ _ _
    | dsimp only
    | split)

theorem Steady.scratchCheck {zs s : State} (hs : Steady zs s) (i : Nat) : Steady zs (s.scratchCheck i).1 := by
  unfold State.scratchCheck
  repeat' (first
    | with_reducible assumption
    | with_reducible exact Steady.refl _
    | with_reducible refine Steady.inject ?_ _ _)

theorem Steady.thDispatch {zs s : State} (hs : Steady zs s) (i : Nat) : Steady zs (s.thDispatch i) := by
  unfold State.thDispatch
  repeat' (first
    | with_reducible assumption
    | with_reducible exact Steady.refl _
    | with_reducible refine Steady.ite ?_ ?_
    | with_reducible refine Steady.enterTh ?_ _ _
    | with_reducible refine Steady.modThr ?_ _ _
    | with_reducible refine Steady.thFault ?_ _ _
    | with_reducible refine Steady.hardRoutine ?_ _ _
    | with_reducible refine Steady.fetchCheck ?_ _
    | with_reducible refine Steady.scratchCheck ?_ _
    | intro _
    | dsimp only
    | split)

end Sys2Proof.Machine
end

