-- ==== Sys2Proof/Laws/SteadyMicro.lean ====
section
/-! SUPPORT. The operations of Machine/Micro.lean are steady. -/

namespace Sys2Proof.Machine

theorem Steady.setG {zs s : State} (hs : Steady zs s) (i k v : Nat) : Steady zs (s.setG i k v) := by
  unfold State.setG
  repeat' (first
    | with_reducible assumption
    | with_reducible exact Steady.refl _
    | with_reducible refine Steady.ite ?_ ?_
    | with_reducible refine Steady.modThr ?_ _ _)

theorem Steady.setFlags {zs s : State} (hs : Steady zs s) (i v : Nat) (c : Bool) : Steady zs (s.setFlags i v c) := by
  unfold State.setFlags
  repeat' (first
    | with_reducible assumption
    | with_reducible exact Steady.refl _
    | with_reducible refine Steady.modThr ?_ _ _)

theorem Steady.setLineBuf {zs s : State} (hs : Steady zs s) (i b : Nat) (y : LineBuf) : Steady zs (s.setLineBuf i b y) := by
  unfold State.setLineBuf
  repeat' (first
    | with_reducible assumption
    | with_reducible exact Steady.refl _
    | with_reducible refine Steady.modThr ?_ _ _)

theorem Steady.freeWord {zs s : State} (hs : Steady zs s) : Steady zs (s.freeWord).1 := by
  unfold State.freeWord
  repeat' (first
    | with_reducible assumption
    | with_reducible exact Steady.refl _
    | with_reducible refine Steady.draw ?_)

theorem Steady.freeBool {zs s : State} (hs : Steady zs s) : Steady zs (s.freeBool).1 := by
  unfold State.freeBool
  repeat' (first
    | with_reducible assumption
    | with_reducible exact Steady.refl _
    | with_reducible refine Steady.draw ?_)

theorem Steady.bufHeld {zs s : State} (hs : Steady zs s) (i b : Nat) : Steady zs (s.bufHeld i b).1 := by
  unfold State.bufHeld
  dsimp only
  exact Steady.ite_fst hs (Steady.drawn hs (Nat.le_add_right _ _))

theorem Steady.uTest {zs s : State} (hs : Steady zs s) (i w : Nat) : Steady zs (s.uTest i w).1 := by
  unfold State.uTest
  repeat' (first
    | with_reducible assumption
    | with_reducible exact Steady.refl _
    | with_reducible refine Steady.freeBool ?_
    | with_reducible refine Steady.bufHeld ?_ _ _
    | dsimp only
    | split)

theorem Steady.smaller {zs s : State} (hs : Steady zs s) (a b : Nat) : Steady zs (s.smaller a b).1 := by
  unfold State.smaller
  repeat' (first
    | with_reducible assumption
    | with_reducible exact Steady.refl _
    | with_reducible refine Steady.ite ?_ ?_
    | with_reducible refine Steady.ite_fst ?_ ?_
    | with_reducible refine Steady.freeBool ?_)

theorem Steady.aluResult {zs s : State} (hs : Steady zs s) (op a b d : Nat) : Steady zs (s.aluResult op a b d).1 := by
  unfold State.aluResult
  repeat' (first
    | with_reducible assumption
    | with_reducible exact Steady.refl _
    | with_reducible refine Steady.ite ?_ ?_
    | with_reducible refine Steady.ite_fst ?_ ?_
    | with_reducible refine Steady.freeWord ?_
    | with_reducible refine Steady.smaller ?_ _ _
    | dsimp only
    | split)

theorem Steady.aluSlot {zs s : State} (hs : Steady zs s) (old : State) (i w : Nat) : Steady zs (old.aluSlot s i w) := by
  unfold State.aluSlot
  repeat' (first
    | with_reducible assumption
    | with_reducible exact Steady.refl _
    | with_reducible refine Steady.ite ?_ ?_
    | with_reducible refine Steady.setG ?_ _ _ _
    | with_reducible refine Steady.setFlags ?_ _ _ _
    | with_reducible refine Steady.freeBool ?_
    | with_reducible refine Steady.aluResult ?_ _ _ _ _)

theorem Steady.issueRead {zs s : State} (hs : Steady zs s) (i b line : Nat) : Steady zs (s.issueRead i b line) := by
  unfold State.issueRead
  repeat' (first
    | with_reducible assumption
    | with_reducible exact Steady.refl _
    | with_reducible refine Steady.modThr ?_ _ _
    | with_reducible refine Steady.setLineBuf ?_ _ _ _
    | intro _
    | dsimp only
    | split)

theorem Steady.memSlot {zs s : State} (hs : Steady zs s) (old : State) (i w : Nat) : Steady zs (old.memSlot s i w) := by
  unfold State.memSlot
  repeat' (first
    | with_reducible assumption
    | with_reducible exact Steady.refl _
    | with_reducible refine Steady.modThr ?_ _ _
    | with_reducible refine Steady.postLine ?_ _ _ _ _
    | with_reducible refine Steady.setG ?_ _ _ _
    | with_reducible refine Steady.setLineBuf ?_ _ _ _
    | with_reducible refine Steady.bufHeld ?_ _ _
    | with_reducible refine Steady.issueRead ?_ _ _ _
    | intro _
    | dsimp only
    | split)

theorem Steady.shadowByte {zs s : State} (hs : Steady zs s) (i k : Nat) : Steady zs (s.shadowByte i k).1 := by
  unfold State.shadowByte
  repeat' (first
    | with_reducible assumption
    | with_reducible exact Steady.refl _
    | with_reducible refine Steady.ite ?_ ?_
    | with_reducible refine Steady.ite_fst ?_ ?_
    | with_reducible refine Steady.freeWord ?_)

theorem Steady.setShadowByte {zs s : State} (hs : Steady zs s) (i k v : Nat) : Steady zs (s.setShadowByte i k v) := by
  unfold State.setShadowByte
  repeat' (first
    | with_reducible assumption
    | with_reducible exact Steady.refl _
    | with_reducible refine Steady.ite ?_ ?_
    | with_reducible refine Steady.put ?_ _ _
    | with_reducible refine Steady.modThr ?_ _ _
    | with_reducible refine Steady.freeWord ?_)

theorem Steady.shadowBytes {zs s : State} (hs : Steady zs s) (i k n : Nat) : Steady zs (s.shadowBytes i k n).1 := by
  induction n generalizing s k with
  | zero => exact hs
  | succ n ih => exact ih (Steady.shadowByte hs _ _) _

theorem Steady.setShadowBytes {zs s : State} (hs : Steady zs s) (i k v n : Nat) : Steady zs (s.setShadowBytes i k v n) := by
  induction n generalizing s k v with
  | zero => exact hs
  | succ n ih => exact ih (Steady.setShadowByte hs _ _ _) _ _

theorem Steady.ctxSlot {zs s : State} (hs : Steady zs s) (old : State) (i w : Nat) : Steady zs (old.ctxSlot s i w) := by
  unfold State.ctxSlot
  repeat' (first
    | with_reducible assumption
    | with_reducible exact Steady.refl _
    | with_reducible refine Steady.foldl ?_ _ ?_
    | with_reducible refine Steady.foldl_fst ?_ _ ?_
    | with_reducible refine Steady.modThr ?_ _ _
    | with_reducible refine Steady.setG ?_ _ _ _
    | with_reducible refine Steady.shadowByte ?_ _ _
    | with_reducible refine Steady.setShadowByte ?_ _ _ _
    | with_reducible refine Steady.shadowBytes ?_ _ _ _
    | with_reducible refine Steady.setShadowBytes ?_ _ _ _ _
    | intro _
    | dsimp only
    | split)

theorem Steady.ioSlot {zs s : State} (hs : Steady zs s) (old : State) (i w : Nat) : Steady zs (old.ioSlot s i w) := by
  unfold State.ioSlot
  repeat' (first
    | with_reducible assumption
    | with_reducible exact Steady.refl _
    | with_reducible refine Steady.ite ?_ ?_
    | with_reducible refine Steady.modThr ?_ _ _
    | with_reducible refine Steady.postRing ?_ _ _
    | with_reducible refine Steady.postNote ?_ _ _ _
    | with_reducible refine Steady.setG ?_ _ _ _
    | with_reducible refine Steady.freeWord ?_
    | intro _
    | dsimp only
    | split)

theorem Steady.uGoTo {zs s : State} (hs : Steady zs s) (i k : Nat) : Steady zs (s.uGoTo i k) := by
  unfold State.uGoTo
  repeat' (first
    | with_reducible assumption
    | with_reducible exact Steady.refl _
    | with_reducible refine Steady.modThr ?_ _ _)

theorem Steady.seqSlot {zs s : State} (hs : Steady zs s) (old : State) (i w : Nat) : Steady zs (old.seqSlot s i w) := by
  unfold State.seqSlot
  extract_lets x next test s1
  have h1 : Steady zs s1 := hs.drawn (Steady.uTest (Steady.refl { old with draws := s.draws }) i w).draws
  clear_value s1
  repeat' (first
    | with_reducible assumption
    | with_reducible refine Steady.modThr ?_ _ _
    | with_reducible refine Steady.commit ?_ _ _ _
    | with_reducible refine Steady.endRoutine ?_ _
    | with_reducible refine Steady.uGoTo ?_ _ _
    | dsimp only
    | split)

theorem Steady.ldctx {zs s : State} (hs : Steady zs s) (i g : Nat) : match s.ldctx i g with
    | .wait => True
    | .fault _ s1 => Steady zs s1
    | .ok s1 => Steady zs s1 := Steady.loadCtx (Steady.releaseLock hs _) _ _ _

theorem Steady.runWord {zs s : State} (hs : Steady zs s) (i w : Nat) : Steady zs (s.runWord i w) := by
  unfold State.runWord
  split
  · exact Steady.thFault hs _ _
  · refine Steady.ite (Steady.ite (hs.bump _) hs) ?_
    dsimp only
    have hc : Steady zs (if uIop w = 2 then s.scratchCheck i else (s, true)).1 := Steady.ite_fst (Steady.scratchCheck hs _) hs
    generalize (if uIop w = 2 then s.scratchCheck i else (s, true)) = sc at hc ⊢
    refine Steady.ite (Steady.thFault hc _ _) ?_
    have hl : match (if uCop w = 1 then sc.1.ldctx i (sc.1.gReg i (uCreg w)) else State.CtxLoad.ok sc.1) with
        | .wait => True
        | .fault _ s1 => Steady zs s1
        | .ok s1 => Steady zs s1 := by
      by_cases h : uCop w = 1
      · simpa only [h, if_true] using Steady.ldctx hc i (sc.1.gReg i (uCreg w))
      · simpa only [h, if_false] using hc
    generalize (if uCop w = 1 then sc.1.ldctx i (sc.1.gReg i (uCreg w)) else State.CtxLoad.ok sc.1) = ld at hl ⊢
    cases ld with
    | wait => exact hc
    | fault c s1 => exact Steady.thFault hl _ _
    | ok s1 =>
      have h2 : Steady zs (if sc.1.thState i = 3 then s1.modThr i (fun x => { x with after := x.after + 1 }) else s1) := Steady.ite (Steady.modThr hl _ _) hl
      exact Steady.seqSlot (Steady.ioSlot (Steady.ctxSlot (Steady.memSlot (Steady.aluSlot h2 _ _ _) _ _ _) _ _ _) _ _ _) _ _ _

theorem Steady.runOp {zs s : State} (hs : Steady zs s) (i w : Nat) : Steady zs (s.runOp i w) := by
  unfold State.runOp
  repeat' (first
    | with_reducible assumption
    | with_reducible exact Steady.refl _
    | with_reducible refine Steady.ite ?_ ?_
    | with_reducible refine Steady.runWord ?_ _ _)

theorem Steady.thCycle {zs s : State} (hs : Steady zs s) (i : Nat) : Steady zs (s.thCycle i) := by
  unfold State.thCycle
  repeat' (first
    | with_reducible assumption
    | with_reducible exact Steady.refl _
    | with_reducible refine Steady.ite ?_ ?_
    | with_reducible refine Steady.thFault ?_ _ _
    | with_reducible refine Steady.fetchCheck ?_ _
    | with_reducible refine Steady.runWord ?_ _ _)

theorem Steady.thCycles {zs s : State} (hs : Steady zs s) (i n : Nat) : Steady zs (s.thCycles i n) := by
  induction n generalizing s with
  | zero => exact hs
  | succ n ih => exact ih (Steady.thCycle hs _)

theorem Steady.microTick {zs s : State} (hs : Steady zs s) : Steady zs (s.microTick) := by
  unfold State.microTick
  repeat' (first
    | with_reducible assumption
    | with_reducible exact Steady.refl _
    | with_reducible refine Steady.foldl ?_ _ ?_
    | with_reducible refine Steady.foldl_fst ?_ _ ?_
    | with_reducible refine Steady.thCycles ?_ _ _
    | intro _)

theorem Steady.ucsLoadEn {zs s : State} (hs : Steady zs s) (u : Nat) (en : Bool) : Steady zs (s.ucsLoadEn u en) := by
  unfold State.ucsLoadEn
  repeat' (first
    | with_reducible assumption
    | with_reducible exact Steady.refl _
    | with_reducible refine Steady.ite ?_ ?_
    | with_reducible refine Steady.put ?_ _ _
    | with_reducible refine Steady.mark ?_ _)

theorem Steady.ucsData {zs s : State} (hs : Steady zs s) (u k v : Nat) : Steady zs (s.ucsData u k v) := by
  unfold State.ucsData
  repeat' (first
    | with_reducible assumption
    | with_reducible exact Steady.refl _
    | with_reducible refine Steady.ite ?_ ?_
    | with_reducible refine Steady.foldl ?_ _ ?_
    | with_reducible refine Steady.foldl_fst ?_ _ ?_
    | with_reducible refine Steady.wrapUp ?_ _
    | with_reducible refine Steady.setSheaf ?_ _ _)

theorem Steady.ucsFinish {zs s : State} (hs : Steady zs s) (u src version hash : Nat) : Steady zs (s.ucsFinish u src version hash) := by
  unfold State.ucsFinish
  repeat' (first
    | with_reducible assumption
    | with_reducible exact Steady.refl _
    | with_reducible refine Steady.ite ?_ ?_
    | with_reducible refine Steady.put ?_ _ _)

theorem Steady.present {zs s : State} (hs : Steady zs s) (u : Nat) : Steady zs (s.present u) := by
  unfold State.present
  repeat' (first
    | with_reducible assumption
    | with_reducible exact Steady.refl _
    | with_reducible refine Steady.foldl ?_ _ ?_
    | with_reducible refine Steady.foldl_fst ?_ _ ?_
    | with_reducible refine Steady.put ?_ _ _
    | with_reducible refine Steady.mark ?_ _
    | with_reducible refine Steady.bump ?_ _
    | with_reducible refine Steady.inject ?_ _ _
    | intro _
    | dsimp only
    | split)

theorem Steady.ucrdAdvance {zs s : State} (hs : Steady zs s) (u : Nat) : Steady zs (s.ucrdAdvance u) := by
  unfold State.ucrdAdvance
  repeat' (first
    | with_reducible assumption
    | with_reducible exact Steady.refl _
    | with_reducible refine Steady.wrapUp ?_ _
    | with_reducible refine Steady.present ?_ _)

end Sys2Proof.Machine
end

