-- ==== Sys2Proof/Laws/SteadyLink.lean ====
section
/-! SUPPORT. The operations of Machine/Link.lean are steady. -/

namespace Sys2Proof.Machine

theorem Steady.modPort {zs s : State} (hs : Steady zs s) (i : Nat) (f : Port → Port) : Steady zs (s.modPort i f) := hs.setPort _ _

theorem Steady.takePosition {zs s : State} (hs : Steady zs s) : Steady zs (s.takePosition) := by
  unfold State.takePosition
  repeat' (first
    | with_reducible assumption
    | with_reducible exact Steady.refl _
    | with_reducible refine Steady.ite ?_ ?_
    | with_reducible refine Steady.put ?_ _ _)

theorem Steady.sendCredit {zs s : State} (hs : Steady zs s) (p : Nat) : Steady zs (s.sendCredit p) := by
  unfold State.sendCredit
  repeat' (first
    | with_reducible assumption
    | with_reducible exact Steady.refl _
    | with_reducible refine Steady.setPort ?_ _ _
    | intro _
    | dsimp only
    | with_reducible refine Steady.sentLink ?_ _)

theorem Steady.owe {zs s : State} (hs : Steady zs s) (p v : Nat) : Steady zs (s.owe p v) := by
  unfold State.owe
  repeat' (first
    | with_reducible assumption
    | with_reducible exact Steady.refl _
    | with_reducible refine Steady.ite ?_ ?_
    | with_reducible refine Steady.modPort ?_ _ _
    | with_reducible refine Steady.sendCredit ?_ _)

theorem Steady.oweFrom {zs s : State} (hs : Steady zs s) (o : Option Nat) (v : Nat) : Steady zs (s.oweFrom o v) := by
  unfold State.oweFrom
  repeat' (first
    | with_reducible assumption
    | with_reducible exact Steady.refl _
    | with_reducible refine Steady.owe ?_ _ _
    | dsimp only
    | split)

theorem Steady.assemble {zs s : State} (hs : Steady zs s) (from_ : Option Nat) (f : Nat) : Steady zs (s.assemble from_ f) := by
  unfold State.assemble
  repeat' (first
    | with_reducible assumption
    | with_reducible exact Steady.refl _
    | with_reducible refine Steady.ite ?_ ?_
    | with_reducible refine Steady.tag ?_ _ _
    | intro _
    | dsimp only
    | split
    | with_reducible refine Steady.update ?_ rfl rfl)

theorem Steady.consume {zs s : State} (hs : Steady zs s) (from_ : Option Nat) (f : Nat) : Steady zs (s.consume from_ f) := by
  unfold State.consume
  repeat' (first
    | with_reducible assumption
    | with_reducible exact Steady.refl _
    | with_reducible refine Steady.ite ?_ ?_
    | with_reducible refine Steady.bump ?_ _
    | with_reducible refine Steady.assemble ?_ _ _
    | dsimp only
    | split
    | with_reducible refine Steady.update ?_ rfl rfl)

theorem Steady.routeFlit {zs s : State} (hs : Steady zs s) (from_ : Option Nat) (f : Nat) : Steady zs (s.routeFlit from_ f) := by
  unfold State.routeFlit
  repeat' (first
    | with_reducible assumption
    | with_reducible exact Steady.refl _
    | with_reducible refine Steady.ite ?_ ?_
    | with_reducible refine Steady.bump ?_ _
    | with_reducible refine Steady.modPort ?_ _ _
    | with_reducible refine Steady.oweFrom ?_ _ _
    | with_reducible refine Steady.consume ?_ _ _
    | intro _
    | dsimp only
    | split)

theorem Steady.routeOwn {zs s : State} (hs : Steady zs s) : Steady zs (s.routeOwn) := by
  unfold State.routeOwn
  repeat' (first
    | with_reducible assumption
    | with_reducible exact Steady.refl _
    | with_reducible refine Steady.foldl ?_ _ ?_
    | with_reducible refine Steady.foldl_fst ?_ _ ?_
    | with_reducible refine Steady.routeFlit ?_ _ _
    | intro _
    | dsimp only
    | with_reducible refine Steady.update ?_ rfl rfl)

theorem Steady.sendAlign {zs s : State} (hs : Steady zs s) (p : Nat) (ready : Bool) : Steady zs (s.sendAlign p ready) := by
  unfold State.sendAlign
  repeat' (first
    | with_reducible assumption
    | with_reducible exact Steady.refl _
    | intro _
    | dsimp only
    | with_reducible refine Steady.sentLink ?_ _
    | with_reducible refine Steady.update ?_ rfl rfl)

theorem Steady.giveUpLink {zs s : State} (hs : Steady zs s) (p st : Nat) : Steady zs (s.giveUpLink p st) := by
  unfold State.giveUpLink
  repeat' (first
    | with_reducible assumption
    | with_reducible exact Steady.refl _
    | with_reducible refine Steady.ite ?_ ?_
    | with_reducible refine Steady.foldl ?_ _ ?_
    | with_reducible refine Steady.foldl_fst ?_ _ ?_
    | with_reducible refine Steady.put ?_ _ _
    | with_reducible refine Steady.setPort ?_ _ _
    | with_reducible refine Steady.modPort ?_ _ _
    | intro _
    | dsimp only
    | split)

theorem Steady.startTraining {zs s : State} (hs : Steady zs s) (p : Nat) : Steady zs (s.startTraining p) := by
  unfold State.startTraining
  repeat' (first
    | with_reducible assumption
    | with_reducible exact Steady.refl _
    | with_reducible refine Steady.ite ?_ ?_
    | with_reducible refine Steady.takePosition ?_
    | with_reducible refine Steady.sendAlign ?_ _ _
    | with_reducible refine Steady.giveUpLink ?_ _ _
    | dsimp only
    | split)

theorem Steady.trainPorts {zs s : State} (hs : Steady zs s) : Steady zs (s.trainPorts) := by
  unfold State.trainPorts
  repeat' (first
    | with_reducible assumption
    | with_reducible exact Steady.refl _
    | with_reducible refine Steady.foldl ?_ _ ?_
    | with_reducible refine Steady.foldl_fst ?_ _ ?_
    | with_reducible refine Steady.startTraining ?_ _
    | intro _
    | dsimp only)

theorem Steady.resend {zs s : State} (hs : Steady zs s) (p : Nat) (b : LinkOut) : Steady zs (s.resend p b) := by
  unfold State.resend
  repeat' (first
    | with_reducible assumption
    | with_reducible exact Steady.refl _
    | with_reducible refine Steady.ite ?_ ?_
    | dsimp only
    | split
    | with_reducible refine Steady.sentLink ?_ _
    | with_reducible refine Steady.update ?_ rfl rfl)

theorem Steady.portDown {zs s : State} (hs : Steady zs s) (p : Nat) : Steady zs (s.portDown p) := by
  unfold State.portDown
  repeat' (first
    | with_reducible assumption
    | with_reducible exact Steady.refl _
    | with_reducible refine Steady.mark ?_ _
    | with_reducible refine Steady.bumpBy ?_ _ _
    | with_reducible refine Steady.source ?_ _
    | with_reducible refine Steady.raiseLine ?_ _
    | with_reducible refine Steady.startTraining ?_ _)

theorem Steady.settlePort {zs s : State} (hs : Steady zs s) (p : Nat) (retrain : Bool) : Steady zs (s.settlePort p retrain) := by
  unfold State.settlePort
  repeat' (first
    | with_reducible assumption
    | with_reducible exact Steady.refl _
    | with_reducible refine Steady.ite ?_ ?_
    | with_reducible refine Steady.giveUpLink ?_ _ _
    | with_reducible refine Steady.startTraining ?_ _
    | dsimp only
    | split)

theorem Steady.alignReceive {zs s : State} (hs : Steady zs s) (p lane x y port : Nat) (ready : Bool) : Steady zs (s.alignReceive p lane x y port ready) := by
  unfold State.alignReceive
  repeat' (first
    | with_reducible assumption
    | with_reducible exact Steady.refl _
    | with_reducible refine Steady.ite ?_ ?_
    | with_reducible refine Steady.put ?_ _ _
    | with_reducible refine Steady.setPort ?_ _ _
    | with_reducible refine Steady.sendAlign ?_ _ _
    | with_reducible refine Steady.resend ?_ _ _
    | dsimp only
    | split)

theorem Steady.trainingComplete {zs s : State} (hs : Steady zs s) (p : Nat) : Steady zs (s.trainingComplete p) := by
  unfold State.trainingComplete
  repeat' (first
    | with_reducible assumption
    | with_reducible exact Steady.refl _
    | with_reducible refine Steady.ite ?_ ?_
    | with_reducible refine Steady.foldl ?_ _ ?_
    | with_reducible refine Steady.foldl_fst ?_ _ ?_
    | with_reducible refine Steady.put ?_ _ _
    | with_reducible refine Steady.source ?_ _
    | intro _)

theorem Steady.blockLockLoss {zs s : State} (hs : Steady zs s) (p : Nat) : Steady zs (s.blockLockLoss p) := by
  unfold State.blockLockLoss
  repeat' (first
    | with_reducible assumption
    | with_reducible exact Steady.refl _
    | with_reducible refine Steady.ite ?_ ?_
    | with_reducible refine Steady.portDown ?_ _)

theorem Steady.takeAck {zs s : State} (hs : Steady zs s) (p : Nat) (v : Bool) (a : Nat) : Steady zs (s.takeAck p v a) := by
  unfold State.takeAck
  repeat' (first
    | with_reducible assumption
    | with_reducible exact Steady.refl _
    | with_reducible refine Steady.setPort ?_ _ _
    | intro _
    | dsimp only
    | split)

theorem Steady.replayFrom {zs s : State} (hs : Steady zs s) (p seq : Nat) : Steady zs (s.replayFrom p seq) := by
  unfold State.replayFrom
  repeat' (first
    | with_reducible assumption
    | with_reducible exact Steady.refl _
    | with_reducible refine Steady.ite ?_ ?_
    | with_reducible refine Steady.bump ?_ _
    | with_reducible refine Steady.setPort ?_ _ _
    | with_reducible refine Steady.portDown ?_ _
    | intro _
    | dsimp only
    | split)

theorem Steady.nakReceive {zs s : State} (hs : Steady zs s) (p seq : Nat) : Steady zs (s.nakReceive p seq) := by
  unfold State.nakReceive
  repeat' (first
    | with_reducible assumption
    | with_reducible exact Steady.refl _
    | with_reducible refine Steady.ite ?_ ?_
    | with_reducible refine Steady.bump ?_ _
    | with_reducible refine Steady.resend ?_ _ _
    | with_reducible refine Steady.replayFrom ?_ _ _
    | dsimp only
    | split)

theorem Steady.replayTimeout {zs s : State} (hs : Steady zs s) (p : Nat) : Steady zs (s.replayTimeout p) := by
  unfold State.replayTimeout
  repeat' (first
    | with_reducible assumption
    | with_reducible exact Steady.refl _
    | with_reducible refine Steady.advTo ?_ _
    | with_reducible refine Steady.replayFrom ?_ _ _
    | dsimp only
    | split)

theorem Steady.creditReceive {zs s : State} (hs : Steady zs s) (p : Nat) (c : List Nat) (ackv : Bool) (ackseq : Nat) : Steady zs (s.creditReceive p c ackv ackseq) := by
  unfold State.creditReceive
  repeat' (first
    | with_reducible assumption
    | with_reducible exact Steady.refl _
    | with_reducible refine Steady.ite ?_ ?_
    | with_reducible refine Steady.foldl ?_ _ ?_
    | with_reducible refine Steady.foldl_fst ?_ _ ?_
    | with_reducible refine Steady.put ?_ _ _
    | with_reducible refine Steady.resend ?_ _ _
    | with_reducible refine Steady.takeAck ?_ _ _ _
    | intro _
    | dsimp only
    | split)

theorem Steady.creditReturnTimer {zs s : State} (hs : Steady zs s) (p : Nat) : Steady zs (s.creditReturnTimer p) := by
  unfold State.creditReturnTimer
  repeat' (first
    | with_reducible assumption
    | with_reducible exact Steady.refl _
    | with_reducible refine Steady.ite ?_ ?_
    | with_reducible refine Steady.advTo ?_ _
    | with_reducible refine Steady.sendCredit ?_ _)

theorem Steady.ackTimer {zs s : State} (hs : Steady zs s) (p : Nat) : Steady zs (s.ackTimer p) := by
  unfold State.ackTimer
  repeat' (first
    | with_reducible assumption
    | with_reducible exact Steady.refl _
    | with_reducible refine Steady.ite ?_ ?_
    | with_reducible refine Steady.advTo ?_ _
    | with_reducible refine Steady.sendCredit ?_ _)

theorem Steady.flitReceive {zs s : State} (hs : Steady zs s) (p flit seq crc : Nat) (ackv : Bool) (ackseq : Nat) : Steady zs (s.flitReceive p flit seq crc ackv ackseq) := by
  unfold State.flitReceive
  repeat' (first
    | with_reducible assumption
    | with_reducible exact Steady.refl _
    | with_reducible refine Steady.ite ?_ ?_
    | with_reducible refine Steady.bump ?_ _
    | with_reducible refine Steady.setPort ?_ _ _
    | with_reducible refine Steady.sendCredit ?_ _
    | with_reducible refine Steady.routeFlit ?_ _ _
    | with_reducible refine Steady.resend ?_ _ _
    | with_reducible refine Steady.takeAck ?_ _ _ _
    | dsimp only
    | split
    | with_reducible refine Steady.sentLink ?_ _
    | with_reducible refine Steady.update ?_ rfl rfl)

theorem Steady.emit {zs s : State} (hs : Steady zs s) (p flit seq : Nat) : Steady zs (s.emit p flit seq) := by
  unfold State.emit
  repeat' (first
    | with_reducible assumption
    | with_reducible exact Steady.refl _
    | with_reducible refine Steady.modPort ?_ _ _
    | intro _
    | dsimp only
    | with_reducible refine Steady.sentLink ?_ _)

theorem Steady.flitTransmit {zs s : State} (hs : Steady zs s) (p : Nat) : Steady zs (s.flitTransmit p) := by
  unfold State.flitTransmit
  repeat' (first
    | with_reducible assumption
    | with_reducible exact Steady.refl _
    | with_reducible refine Steady.ite ?_ ?_
    | with_reducible refine Steady.put ?_ _ _
    | with_reducible refine Steady.setPort ?_ _ _
    | with_reducible refine Steady.oweFrom ?_ _ _
    | with_reducible refine Steady.routeOwn ?_
    | with_reducible refine Steady.emit ?_ _ _ _
    | intro _
    | dsimp only
    | split)

theorem Steady.takeMesh {zs s : State} (hs : Steady zs s) (m : MeshMsg) : Steady zs (s.takeMesh m) := by
  unfold State.takeMesh
  repeat' (first
    | with_reducible assumption
    | with_reducible exact Steady.refl _
    | dsimp only
    | with_reducible refine Steady.update ?_ rfl rfl)

theorem Steady.memWrStore {zs s : State} (hs : Steady zs s) (a : Assembly) : Steady zs (s.memWrStore a) := by
  unfold State.memWrStore
  repeat' (first
    | with_reducible assumption
    | with_reducible exact Steady.refl _
    | with_reducible refine Steady.foldl ?_ _ ?_
    | with_reducible refine Steady.foldl_fst ?_ _ ?_
    | with_reducible refine Steady.memPut ?_ _ _ _
    | intro _
    | dsimp only)

theorem Steady.memWrArrive {zs s : State} (hs : Steady zs s) (x y vc tag : Nat) : Steady zs (s.memWrArrive x y vc tag) := by
  unfold State.memWrArrive
  repeat' (first
    | with_reducible assumption
    | with_reducible exact Steady.refl _
    | with_reducible refine Steady.ite ?_ ?_
    | with_reducible refine Steady.tag ?_ _ _
    | with_reducible refine Steady.memWrStore ?_ _
    | intro _
    | dsimp only
    | split
    | with_reducible refine Steady.update ?_ rfl rfl)

theorem Steady.dramInitDone {zs s : State} (hs : Steady zs s) (east : Bool) : Steady zs (s.dramInitDone east) := by
  unfold State.dramInitDone
  dsimp only
  refine Steady.mark ?_ _
  exact (hs.memKept _).raw rfl

theorem Steady.scrubPass {zs s : State} (hs : Steady zs s) (u : Nat) : Steady zs (s.scrubPass u) := by
  unfold State.scrubPass
  repeat' (first
    | with_reducible assumption
    | with_reducible exact Steady.refl _
    | with_reducible refine Steady.ite ?_ ?_
    | with_reducible refine Steady.foldl ?_ _ ?_
    | with_reducible refine Steady.foldl_fst ?_ _ ?_
    | with_reducible refine Steady.lineCheck ?_ _ _
    | intro _
    | dsimp only
    | split
    | with_reducible refine Steady.update ?_ rfl rfl)

theorem Steady.aer {zs s : State} (hs : Steady zs s) (e : AerError) : Steady zs (s.aer e) := by
  unfold State.aer
  repeat' (first
    | with_reducible assumption
    | with_reducible exact Steady.refl _
    | with_reducible refine Steady.source ?_ _
    | dsimp only
    | with_reducible refine Steady.update ?_ rfl rfl)

theorem Steady.denyCtx {zs s : State} (hs : Steady zs s) (us : List Nat) : Steady zs (s.denyCtx us) := by
  unfold State.denyCtx
  repeat' (first
    | with_reducible assumption
    | with_reducible exact Steady.refl _
    | with_reducible refine Steady.foldl ?_ _ ?_
    | with_reducible refine Steady.foldl_fst ?_ _ ?_
    | with_reducible refine Steady.mark ?_ _
    | with_reducible refine Steady.source ?_ _
    | intro _)

theorem Steady.bar2Write {zs s : State} (hs : Steady zs s) (a : Nat) (data : List (Option Nat)) (ep : Bool) : Steady zs (s.bar2Write a data ep) := by
  unfold State.bar2Write
  repeat' (first
    | with_reducible assumption
    | with_reducible exact Steady.refl _
    | with_reducible refine Steady.ite ?_ ?_
    | with_reducible refine Steady.bump ?_ _
    | with_reducible refine Steady.memWrite ?_ _ _ _
    | with_reducible refine Steady.aer ?_ _
    | with_reducible refine Steady.denyCtx ?_ _
    | intro _
    | dsimp only
    | split)

theorem Steady.bar2Read {zs s : State} (hs : Steady zs s) (a n : Nat) : Steady zs (s.bar2Read a n) := by
  unfold State.bar2Read
  repeat' (first
    | with_reducible assumption
    | with_reducible exact Steady.refl _
    | with_reducible refine Steady.ite ?_ ?_
    | with_reducible refine Steady.bump ?_ _
    | with_reducible refine Steady.hostRead ?_ _ _
    | with_reducible refine Steady.aer ?_ _
    | dsimp only
    | split
    | with_reducible refine Steady.update ?_ rfl rfl)

theorem Steady.pcieLinkUp {zs s : State} (hs : Steady zs s) (speed width : Nat) : Steady zs (s.pcieLinkUp speed width) := by
  unfold State.pcieLinkUp
  repeat' (first
    | with_reducible assumption
    | with_reducible exact Steady.refl _
    | with_reducible refine Steady.ite ?_ ?_
    | with_reducible refine Steady.put ?_ _ _
    | with_reducible refine Steady.mark ?_ _
    | with_reducible refine Steady.source ?_ _
    | dsimp only
    | split)

theorem Steady.pcieLinkDown {zs s : State} (hs : Steady zs s) : Steady zs (s.pcieLinkDown) := by
  unfold State.pcieLinkDown
  repeat' (first
    | with_reducible assumption
    | with_reducible exact Steady.refl _
    | with_reducible refine Steady.ite ?_ ?_
    | with_reducible refine Steady.put ?_ _ _
    | with_reducible refine Steady.raiseLine ?_ _)

theorem Steady.hostPortReset {zs s : State} (hs : Steady zs s) : Steady zs s.hostPortReset := by
  refine (hs.clearRegs State.hostPortReg).trans ⟨rfl, le_rfl, le_rfl, List.prefix_rfl, List.prefix_rfl, fun c => ?_⟩
  simp only [State.canonical, Bool.and_eq_true, State.hostPortReset] at c ⊢
  have e1 : storeWf (fun _ => Dma.reset) ([] : List (Nat × Dma)) = true := rfl
  have e2 : storeWf (fun _ => Hmq.reset) ([] : List (Nat × Hmq)) = true := rfl
  tauto

end Sys2Proof.Machine
end

