-- ==== Sys2Proof/Laws/SteadyRouter.lean ====
section
/-! SUPPORT. The operations of Machine/Router.lean are steady. -/

namespace Sys2Proof.Machine

theorem Steady.evFire {zs s : State} (hs : Steady zs s) (e : Nat) (user : Bool) : Steady zs (s.evFire e user) := by
  unfold State.evFire
  repeat' (first
    | with_reducible assumption
    | with_reducible exact Steady.refl _
    | with_reducible refine Steady.ite ?_ ?_
    | with_reducible refine Steady.mark ?_ _
    | with_reducible refine Steady.source ?_ _
    | with_reducible refine Steady.fireChannel ?_ _)

theorem Steady.rejectConfig {zs s : State} (hs : Steady zs s) (e : Nat) : Steady zs (s.rejectConfig e) := by
  unfold State.rejectConfig
  repeat' (first
    | with_reducible assumption
    | with_reducible exact Steady.refl _
    | with_reducible refine Steady.mark ?_ _
    | with_reducible refine Steady.source ?_ _)

theorem Steady.chCfgWrite {zs s : State} (hs : Steady zs s) (e w : Nat) (user : Bool) : Steady zs (s.chCfgWrite e w user) := by
  unfold State.chCfgWrite
  repeat' (first
    | with_reducible assumption
    | with_reducible exact Steady.refl _
    | with_reducible refine Steady.ite ?_ ?_
    | with_reducible refine Steady.put ?_ _ _
    | with_reducible refine Steady.mark ?_ _
    | with_reducible refine Steady.rejectConfig ?_ _
    | dsimp only
    | split)

theorem Steady.eventArrival {zs s : State} (hs : Steady zs s) (e at_ : Nat) : Steady zs (s.eventArrival e at_) := by
  unfold State.eventArrival
  repeat' (first
    | with_reducible assumption
    | with_reducible exact Steady.refl _
    | with_reducible refine Steady.ite ?_ ?_
    | with_reducible refine Steady.put ?_ _ _
    | with_reducible refine Steady.mark ?_ _
    | with_reducible refine Steady.bump ?_ _
    | with_reducible refine Steady.setChan ?_ _ _
    | with_reducible refine Steady.advInst ?_ _
    | with_reducible refine Steady.source ?_ _
    | with_reducible refine Steady.tillerCatchUp ?_ _ _
    | intro _
    | dsimp only
    | split
    | with_reducible refine Steady.update ?_ rfl rfl)

theorem Steady.consumer {zs s : State} (hs : Steady zs s) (e : Nat) : Steady zs (s.consumer e) := by
  unfold State.consumer
  repeat' (first
    | with_reducible assumption
    | with_reducible exact Steady.refl _
    | with_reducible refine Steady.ite ?_ ?_
    | with_reducible refine Steady.tlSource ?_ _ _
    | with_reducible refine Steady.setLatch ?_ _ _
    | dsimp only
    | split
    | with_reducible refine Steady.update ?_ rfl rfl)

theorem Steady.eventDeliver {zs s : State} (hs : Steady zs s) (e : Nat) : Steady zs (s.eventDeliver e) := by
  unfold State.eventDeliver
  repeat' (first
    | with_reducible assumption
    | with_reducible exact Steady.refl _
    | with_reducible refine Steady.setChan ?_ _ _
    | with_reducible refine Steady.advInst ?_ _
    | with_reducible refine Steady.consumer ?_ _
    | dsimp only
    | split)

theorem Steady.vecRearm {zs s : State} (hs : Steady zs s) (n w : Nat) : Steady zs (s.vecRearm n w) := by
  unfold State.vecRearm
  repeat' (first
    | with_reducible assumption
    | with_reducible exact Steady.refl _
    | with_reducible refine Steady.sendVectors ?_ _)

end Sys2Proof.Machine
end

