-- ==== Sys2Proof/Laws/SteadyNvm.lean ====
section
/-! SUPPORT. The operations of Machine/Nvm.lean are steady. -/

namespace Sys2Proof.Machine

theorem Steady.modNvm {zs s : State} (hs : Steady zs s) (f : Nvm → Nvm) (e1 : (f s.nvm).saved = s.nvm.saved) (e2 : (f s.nvm).saving = s.nvm.saving) :
    Steady zs (s.modNvm f) := hs.update e1 e2

theorem Steady.forgetRows {zs s : State} (hs : Steady zs s) (r n : Nat) : Steady zs (s.forgetRows r n) := by
  unfold State.forgetRows
  repeat' (first
    | with_reducible assumption
    | with_reducible exact Steady.refl _
    | with_reducible refine Steady.foldl ?_ _ ?_
    | with_reducible refine Steady.foldl_fst ?_ _ ?_
    | with_reducible refine Steady.modNvm ?_ _ rfl rfl)

theorem Steady.eraseSector {zs s : State} (hs : Steady zs s) (sec : Nat) : Steady zs (s.eraseSector sec) := by
  unfold State.eraseSector
  repeat' (first
    | with_reducible assumption
    | with_reducible exact Steady.refl _
    | with_reducible refine Steady.setWear ?_ _ _
    | with_reducible refine Steady.forgetRows ?_ _ _)

/-- A saved wear value that an operation on the memory replaces. -/
theorem Steady.savedAt {zs s : State} (hs : Steady zs s) (k v : Nat) :
    Steady zs (s.modNvm (fun x => { x with saved := storeSet (fun _ => 0) x.saved k v })) := by
  refine hs.trans ⟨rfl, le_rfl, le_rfl, List.prefix_rfl, List.prefix_rfl, fun c => ?_⟩
  simp only [State.canonical, Bool.and_eq_true, State.modNvm] at c ⊢
  have e := storeSet_wf (l := s.nvm.saved) (by tauto) k v
  tauto

theorem Steady.recordChanged {zs s : State} (hs : Steady zs s) (op sec : Nat) : Steady zs (s.recordChanged op sec) := by
  unfold State.recordChanged
  dsimp only
  refine Steady.ite (hs.modNvm _ rfl rfl) (Steady.ite (hs.modNvm _ rfl rfl) (Steady.ite ?_ (Steady.ite ?_ hs)))
  · exact Steady.foldl (hs.modNvm _ rfl rfl) _ fun u k => Steady.savedAt (Steady.refl u) _ _
  · exact Steady.foldl (hs.modNvm _ rfl rfl) _ fun u k => (Steady.refl u).modNvm _ rfl rfl

theorem Steady.nvmGo {zs s : State} (hs : Steady zs s) (op : Nat) (host lead : Bool) : Steady zs (s.nvmGo op host lead) := by
  unfold State.nvmGo
  repeat' (first
    | with_reducible assumption
    | with_reducible exact Steady.refl _
    | with_reducible refine Steady.ite ?_ ?_
    | with_reducible refine Steady.foldl ?_ _ ?_
    | with_reducible refine Steady.foldl_fst ?_ _ ?_
    | with_reducible refine Steady.mark ?_ _
    | with_reducible refine Steady.source ?_ _
    | with_reducible refine Steady.modNvm ?_ _ rfl rfl
    | with_reducible refine Steady.eraseSector ?_ _
    | with_reducible refine Steady.recordChanged ?_ _ _
    | intro _
    | dsimp only
    | split)

theorem Steady.nvmDone {zs s : State} (hs : Steady zs s) (verified : Bool) : Steady zs (s.nvmDone verified) := by
  unfold State.nvmDone
  repeat' (first
    | with_reducible assumption
    | with_reducible exact Steady.refl _
    | with_reducible refine Steady.ite ?_ ?_
    | with_reducible refine Steady.put ?_ _ _
    | with_reducible refine Steady.mark ?_ _
    | with_reducible refine Steady.source ?_ _
    | with_reducible refine Steady.modNvm ?_ _ rfl rfl
    | with_reducible refine Steady.forgetRows ?_ _ _
    | intro _
    | dsimp only
    | split)

theorem Steady.nvmAdvance {zs s : State} (hs : Steady zs s) : Steady zs (s.nvmAdvance) := by
  unfold State.nvmAdvance
  repeat' (first
    | with_reducible assumption
    | with_reducible exact Steady.refl _
    | with_reducible refine Steady.ite ?_ ?_
    | with_reducible refine Steady.put ?_ _ _)

theorem Steady.nvmRead {zs s : State} (hs : Steady zs s) : Steady zs (s.nvmRead).1 := by
  unfold State.nvmRead
  repeat' (first
    | with_reducible assumption
    | with_reducible exact Steady.refl _
    | with_reducible refine Steady.inject ?_ _ _
    | with_reducible refine Steady.nvmAdvance ?_)

theorem Steady.nvmFill {zs s : State} (hs : Steady zs s) (w : Nat) : Steady zs (s.nvmFill w) := by
  unfold State.nvmFill
  repeat' (first
    | with_reducible assumption
    | with_reducible exact Steady.refl _
    | with_reducible refine Steady.modNvm ?_ _ rfl rfl
    | with_reducible refine Steady.nvmAdvance ?_)

theorem Steady.startSave {zs s : State} (hs : Steady zs s) : Steady zs s.startSave := by
  unfold State.startSave
  dsimp only
  refine Steady.ite hs ?_
  have h1 := Steady.eraseSector (hs.mark GL_WEAR_STAT_SAVE_BUSY) s.nvm.nextSave
  generalize (s.mark GL_WEAR_STAT_SAVE_BUSY).eraseSector s.nvm.nextSave = u at h1 ⊢
  refine h1.trans ⟨rfl, le_rfl, le_rfl, List.prefix_rfl, List.prefix_rfl, fun c => ?_⟩
  simp only [State.canonical, Bool.and_eq_true] at c ⊢
  have e := storeSet_wf (d := fun _ => 0) (l := u.wear) (by tauto) contactKey (u.reg GL_WEAR_CONTACT).toNat
  simp only [State.modNvm, Option.getD_some]
  tauto

/-- A save that ends becomes the saved contents. -/
theorem Steady.saved {zs s : State} (hs : Steady zs s) {c : Store Nat} (n : Nat) (e : s.nvm.saving = some c) :
    Steady zs (s.modNvm (fun x => { x with saving := none, saved := c, savedIn := n })) := by
  refine hs.trans ⟨rfl, le_rfl, le_rfl, List.prefix_rfl, List.prefix_rfl, fun h => ?_⟩
  simp only [State.canonical, Bool.and_eq_true, e, Option.getD_some] at h
  have e0 : storeWf (fun _ => 0) ([] : Store Nat) = true := rfl
  simp only [State.canonical, Bool.and_eq_true, State.modNvm, Option.getD_none]
  tauto

theorem Steady.saveDone {zs s : State} (hs : Steady zs s) (verified : Bool) : Steady zs (s.saveDone verified) := by
  unfold State.saveDone
  split
  · exact hs
  · next c e =>
    have h1 : Steady zs (s.modNvm (fun x => { x with nextSave := State.nextSector x.nextSave })) := hs.modNvm _ rfl rfl
    dsimp only
    refine Steady.ite ?_ (Steady.eraseSector (h1.mark _) _)
    have h2 : Steady zs _ := Steady.saved (h1.put GL_WEAR_STAT_SAVE_BUSY 0) (c := c) s.nvm.nextSave e
    exact Steady.lifeModel (h2.update rfl rfl)

theorem Steady.writeLog {zs s : State} (hs : Steady zs s) (x : Trip) (peak : Int) : Steady zs (s.writeLog x peak) := by
  unfold State.writeLog
  dsimp only
  refine Steady.startSave (Steady.bump (Steady.put ?_ _ _) _)
  exact Steady.update (Steady.modNvm (Steady.eraseSector hs _) _ rfl rfl) rfl rfl

theorem Steady.shutdownLog {zs s : State} (hs : Steady zs s) (peak : Int) : Steady zs (s.shutdownLog peak) := by
  unfold State.shutdownLog
  split
  · exact hs
  · exact Steady.ite hs (Steady.writeLog (hs.advTo _) _ _)

end Sys2Proof.Machine
end

