-- ==== Sys2Proof/Laws/SteadySuper.lean ====
section
/-! SUPPORT. The operations of Machine/Super.lean are steady. -/

namespace Sys2Proof.Machine

theorem Steady.svNotice {zs s : State} (hs : Steady zs s) (d ev : Nat) : Steady zs (s.svNotice d ev) := by
  unfold State.svNotice
  repeat' (first
    | with_reducible assumption
    | with_reducible exact Steady.refl _
    | with_reducible refine Steady.postNotice ?_ _ _ _)

theorem Steady.leadConflict {zs s : State} (hs : Steady zs s) (d : Nat) : Steady zs (s.leadConflict d) := by
  unfold State.leadConflict
  repeat' (first
    | with_reducible assumption
    | with_reducible exact Steady.refl _
    | with_reducible refine Steady.put ?_ _ _
    | with_reducible refine Steady.mark ?_ _
    | with_reducible refine Steady.raiseLine ?_ _)

theorem Steady.leadClaim {zs s : State} (hs : Steady zs s) (d : Nat) : Steady zs (s.leadClaim d) := by
  unfold State.leadClaim
  repeat' (first
    | with_reducible assumption
    | with_reducible exact Steady.refl _
    | with_reducible refine Steady.ite ?_ ?_
    | with_reducible refine Steady.put ?_ _ _
    | with_reducible refine Steady.svNotice ?_ _ _)

theorem Steady.leadTakeover {zs s : State} (hs : Steady zs s) (d : Nat) : Steady zs (s.leadTakeover d) := by
  unfold State.leadTakeover
  repeat' (first
    | with_reducible assumption
    | with_reducible exact Steady.refl _
    | with_reducible refine Steady.ite ?_ ?_
    | with_reducible refine Steady.put ?_ _ _
    | with_reducible refine Steady.bump ?_ _
    | with_reducible refine Steady.source ?_ _
    | with_reducible refine Steady.svNotice ?_ _ _)

theorem Steady.leadSet {zs s : State} (hs : Steady zs s) (holder : Nat) : Steady zs (s.leadSet holder) := by
  unfold State.leadSet
  repeat' (first
    | with_reducible assumption
    | with_reducible exact Steady.refl _
    | with_reducible refine Steady.ite ?_ ?_
    | with_reducible refine Steady.put ?_ _ _)

theorem Steady.abandonDomain {zs s : State} (hs : Steady zs s) (d : Nat) : Steady zs (s.abandonDomain d) := by
  unfold State.abandonDomain
  repeat' (first
    | with_reducible assumption
    | with_reducible exact Steady.refl _
    | with_reducible refine Steady.foldl ?_ _ ?_
    | with_reducible refine Steady.foldl_fst ?_ _ ?_
    | with_reducible refine Steady.abandonRun ?_ _ _
    | intro _)

theorem Steady.adopt {zs s : State} (hs : Steady zs s) (d : Nat) : Steady zs (s.adopt d) := by
  unfold State.adopt
  repeat' (first
    | with_reducible assumption
    | with_reducible exact Steady.refl _
    | with_reducible refine Steady.ite ?_ ?_
    | with_reducible refine Steady.putBit ?_ _ _ _
    | with_reducible refine Steady.svNotice ?_ _ _
    | with_reducible refine Steady.abandonDomain ?_ _)

theorem Steady.adoptBoth {zs s : State} (hs : Steady zs s) : Steady zs (s.adoptBoth) := by
  unfold State.adoptBoth
  repeat' (first
    | with_reducible assumption
    | with_reducible exact Steady.refl _
    | with_reducible refine Steady.adopt ?_ _)

theorem Steady.giveUp {zs s : State} (hs : Steady zs s) (d : Nat) : Steady zs (s.giveUp d) := by
  unfold State.giveUp
  repeat' (first
    | with_reducible assumption
    | with_reducible exact Steady.refl _
    | with_reducible refine Steady.put ?_ _ _
    | with_reducible refine Steady.adoptBoth ?_)

theorem Steady.takeBack {zs s : State} (hs : Steady zs s) (d : Nat) : Steady zs (s.takeBack d) := by
  unfold State.takeBack
  repeat' (first
    | with_reducible assumption
    | with_reducible exact Steady.refl _
    | with_reducible refine Steady.ite ?_ ?_
    | with_reducible refine Steady.putBit ?_ _ _ _
    | with_reducible refine Steady.svNotice ?_ _ _
    | with_reducible refine Steady.abandonDomain ?_ _)

theorem Steady.svTrap {zs s : State} (hs : Steady zs s) (d : Nat) : Steady zs (s.svTrap d) := by
  unfold State.svTrap
  repeat' (first
    | with_reducible assumption
    | with_reducible exact Steady.refl _
    | with_reducible refine Steady.ite ?_ ?_
    | with_reducible refine Steady.put ?_ _ _
    | with_reducible refine Steady.source ?_ _
    | with_reducible refine Steady.svNotice ?_ _ _)

theorem Steady.svRelease {zs s : State} (hs : Steady zs s) (d : Nat) : Steady zs (s.svRelease d) := by
  unfold State.svRelease
  repeat' (first
    | with_reducible assumption
    | with_reducible exact Steady.refl _
    | with_reducible refine Steady.ite ?_ ?_
    | with_reducible refine Steady.put ?_ _ _
    | with_reducible refine Steady.svNotice ?_ _ _
    | with_reducible refine Steady.adoptBoth ?_)

theorem Steady.svRestart {zs s : State} (hs : Steady zs s) (d : Nat) : Steady zs (s.svRestart d) := by
  unfold State.svRestart
  repeat' (first
    | with_reducible assumption
    | with_reducible exact Steady.refl _
    | with_reducible refine Steady.put ?_ _ _
    | with_reducible refine Steady.setSv ?_ _ _
    | with_reducible refine Steady.giveUp ?_ _)

theorem Steady.loadDefault {zs s : State} (hs : Steady zs s) (u : Nat) : Steady zs (s.loadDefault u).1 := by
  unfold State.loadDefault
  repeat' (first
    | with_reducible assumption
    | with_reducible exact Steady.refl _
    | with_reducible refine Steady.ite ?_ ?_
    | with_reducible refine Steady.ite_fst ?_ ?_
    | with_reducible refine Steady.put ?_ _ _
    | with_reducible refine Steady.mark ?_ _
    | with_reducible refine Steady.setSheaf ?_ _ _)

theorem Steady.loadMask {zs s : State} (hs : Steady zs s) (mask : Nat) : Steady zs (s.loadMask mask).1 := by
  unfold State.loadMask
  repeat' (first
    | with_reducible assumption
    | with_reducible exact Steady.refl _
    | with_reducible refine Steady.ite ?_ ?_
    | with_reducible refine Steady.ite_fst ?_ ?_
    | with_reducible refine Steady.foldl ?_ _ ?_
    | with_reducible refine Steady.foldl_fst ?_ _ ?_
    | with_reducible refine Steady.loadDefault ?_ _
    | intro _)

theorem Steady.runMask {zs s : State} (hs : Steady zs s) (d mask : Nat) : Steady zs (s.runMask d mask).1 := by
  unfold State.runMask
  repeat' (first
    | with_reducible assumption
    | with_reducible exact Steady.refl _
    | with_reducible refine Steady.ite ?_ ?_
    | with_reducible refine Steady.ite_fst ?_ ?_
    | with_reducible refine Steady.foldl ?_ _ ?_
    | with_reducible refine Steady.foldl_fst ?_ _ ?_
    | with_reducible refine Steady.runNow ?_ _
    | intro _
    | dsimp only
    | split)

theorem Steady.seqUp {zs s : State} (hs : Steady zs s) (t : Nat) : Steady zs (s.seqUp t) := by
  unfold State.seqUp
  repeat' (first
    | with_reducible assumption
    | with_reducible exact Steady.refl _
    | with_reducible refine Steady.ite ?_ ?_
    | with_reducible refine Steady.foldl ?_ _ ?_
    | with_reducible refine Steady.foldl_fst ?_ _ ?_
    | with_reducible refine Steady.requestEnable ?_ _ _
    | intro _)

theorem Steady.seqDown {zs s : State} (hs : Steady zs s) (t : Nat) : Steady zs (s.seqDown t) := by
  unfold State.seqDown
  repeat' (first
    | with_reducible assumption
    | with_reducible exact Steady.refl _
    | with_reducible refine Steady.ite ?_ ?_
    | with_reducible refine Steady.foldl ?_ _ ?_
    | with_reducible refine Steady.foldl_fst ?_ _ ?_
    | with_reducible refine Steady.draw ?_
    | with_reducible refine Steady.disableOutput ?_ _ _ _
    | intro _)

theorem Steady.seqMask {zs s : State} (hs : Steady zs s) (mask : Nat) (up : Bool) : Steady zs (s.seqMask mask up) := by
  unfold State.seqMask
  repeat' (first
    | with_reducible assumption
    | with_reducible exact Steady.refl _
    | with_reducible refine Steady.ite ?_ ?_
    | with_reducible refine Steady.foldl ?_ _ ?_
    | with_reducible refine Steady.foldl_fst ?_ _ ?_
    | with_reducible refine Steady.seqUp ?_ _
    | with_reducible refine Steady.seqDown ?_ _
    | intro _)

theorem Steady.serve {zs s : State} (hs : Steady zs s) (d : Nat) (c : SvCmd) : Steady zs (s.serve d c).1 := by
  unfold State.serve
  repeat' (first
    | with_reducible assumption
    | with_reducible exact Steady.refl _
    | with_reducible refine Steady.ite ?_ ?_
    | with_reducible refine Steady.ite_fst ?_ ?_
    | with_reducible refine Steady.startSave ?_
    | with_reducible refine Steady.loadMask ?_ _
    | with_reducible refine Steady.runMask ?_ _ _
    | with_reducible refine Steady.seqMask ?_ _ _
    | intro _
    | dsimp only
    | split)

theorem Steady.serveNow {zs s : State} (hs : Steady zs s) (d : Nat) : Steady zs (s.serveNow d) := by
  unfold State.serveNow
  repeat' (first
    | with_reducible assumption
    | with_reducible exact Steady.refl _
    | with_reducible refine Steady.setSv ?_ _ _
    | with_reducible refine Steady.serve ?_ _ _
    | dsimp only
    | split)

theorem Steady.svCommand {zs s : State} (hs : Steady zs s) (d code tag_ : Nat) : Steady zs (s.svCommand d code tag_) := by
  unfold State.svCommand
  repeat' (first
    | with_reducible assumption
    | with_reducible exact Steady.refl _
    | with_reducible refine Steady.ite ?_ ?_
    | with_reducible refine Steady.mark ?_ _
    | with_reducible refine Steady.setSv ?_ _ _
    | with_reducible refine Steady.serveNow ?_ _
    | dsimp only
    | split)

theorem Steady.svResponse {zs s : State} (hs : Steady zs s) (d status value : Nat) : Steady zs (s.svResponse d status value) := by
  unfold State.svResponse
  repeat' (first
    | with_reducible assumption
    | with_reducible exact Steady.refl _
    | with_reducible refine Steady.ite ?_ ?_
    | with_reducible refine Steady.put ?_ _ _
    | with_reducible refine Steady.setSv ?_ _ _
    | with_reducible refine Steady.source ?_ _
    | with_reducible refine Steady.tag ?_ _ _
    | dsimp only
    | split)

theorem Steady.mbxPop {zs s : State} (hs : Steady zs s) (d : Nat) : Steady zs (s.mbxPop d).1 := by
  unfold State.mbxPop
  repeat' (first
    | with_reducible assumption
    | with_reducible exact Steady.refl _
    | with_reducible refine Steady.setSv ?_ _ _
    | dsimp only
    | split)

theorem Steady.heartbeat {zs s : State} (hs : Steady zs s) (d : Nat) : Steady zs (s.heartbeat d) := by
  unfold State.heartbeat
  repeat' (first
    | with_reducible assumption
    | with_reducible exact Steady.refl _
    | with_reducible refine Steady.ite ?_ ?_
    | with_reducible refine Steady.put ?_ _ _
    | with_reducible refine Steady.setSv ?_ _ _
    | with_reducible refine Steady.adoptBoth ?_
    | with_reducible refine Steady.takeBack ?_ _
    | with_reducible refine Steady.serveNow ?_ _)

theorem Steady.svGoesSilent {zs s : State} (hs : Steady zs s) (d : Nat) : Steady zs (s.svGoesSilent d) := by
  unfold State.svGoesSilent
  repeat' (first
    | with_reducible assumption
    | with_reducible exact Steady.refl _
    | with_reducible refine Steady.ite ?_ ?_
    | with_reducible refine Steady.mark ?_ _
    | with_reducible refine Steady.advTo ?_ _
    | with_reducible refine Steady.source ?_ _
    | with_reducible refine Steady.giveUp ?_ _)

end Sys2Proof.Machine
end

