-- ==== Sys2Proof/Laws/SteadyReset.lean ====
section
/-! SUPPORT. The operations of Machine/Reset.lean are steady. -/

namespace Sys2Proof.Machine

theorem Steady.loadTiller {zs s : State} (hs : Steady zs s) (t : Nat) : Steady zs (s.loadTiller t) := by
  unfold State.loadTiller
  repeat' (first
    | with_reducible assumption
    | with_reducible exact Steady.refl _
    | with_reducible refine Steady.ite ?_ ?_
    | with_reducible refine Steady.foldl ?_ _ ?_
    | with_reducible refine Steady.foldl_fst ?_ _ ?_
    | with_reducible refine Steady.loadSafe ?_ _
    | with_reducible refine Steady.setSup ?_ _ _ _
    | with_reducible refine Steady.runChain ?_ _ _
    | intro _
    | dsimp only
    | split)

theorem Steady.pinReset {zs s : State} (hs : Steady zs s) (g : Nat) : Steady zs (s.pinReset g) := by
  unfold State.pinReset
  repeat' (first
    | with_reducible assumption
    | with_reducible exact Steady.refl _
    | with_reducible refine Steady.loadSafe ?_ _
    | with_reducible refine Steady.clearRegs ?_ _
    | with_reducible refine Steady.setPin ?_ _ _
    | with_reducible refine Steady.pinSafe ?_ _ _
    | with_reducible refine Steady.drainAll ?_ _
    | with_reducible refine Steady.abandonRun ?_ _ _
    | intro _
    | dsimp only)

theorem Steady.resetResult {zs s : State} (hs : Steady zs s) (t : Nat) : Steady zs (s.resetResult t) := by
  unfold State.resetResult
  repeat' (first
    | with_reducible assumption
    | with_reducible exact Steady.refl _
    | with_reducible refine Steady.ite ?_ ?_
    | with_reducible refine Steady.tag ?_ _ _
    | with_reducible refine Steady.invalidate ?_ _
    | with_reducible refine Steady.completeResult ?_ _
    | with_reducible refine Steady.leaveRendezvous ?_ _)

theorem Steady.freshTiller {zs s : State} (hs : Steady zs s) (t : Nat) : Steady zs (s.freshTiller t) := by
  unfold State.freshTiller
  repeat' (first
    | with_reducible assumption
    | with_reducible exact Steady.refl _
    | with_reducible refine Steady.foldl ?_ _ ?_
    | with_reducible refine Steady.foldl_fst ?_ _ ?_
    | with_reducible refine Steady.setTl ?_ _ _
    | with_reducible refine Steady.setCmp ?_ _ _
    | with_reducible refine Steady.setFq ?_ _ _
    | with_reducible refine Steady.setCap ?_ _ _
    | with_reducible refine Steady.setLvl ?_ _ _
    | with_reducible refine Steady.setStrm ?_ _ _
    | with_reducible refine Steady.setPin ?_ _ _
    | with_reducible refine Steady.setSup ?_ _ _ _
    | with_reducible refine Steady.setAdc ?_ _ _
    | with_reducible refine Steady.setTdc ?_ _ _
    | with_reducible refine Steady.trace ?_ _ _ _ _
    | with_reducible refine Steady.freeLatch ?_ _
    | intro _
    | dsimp only)

theorem Steady.tillerReset {zs s : State} (hs : Steady zs s) (t : Nat) : Steady zs (s.tillerReset t) := by
  unfold State.tillerReset
  repeat' (first
    | with_reducible assumption
    | with_reducible exact Steady.refl _
    | with_reducible refine Steady.put ?_ _ _
    | with_reducible refine Steady.putBit ?_ _ _ _
    | with_reducible refine Steady.clearRegs ?_ _
    | with_reducible refine Steady.routeBoundary ?_ _
    | with_reducible refine Steady.joinEpochs ?_ _
    | with_reducible refine Steady.safePoint ?_ _
    | with_reducible refine Steady.outputsSafe ?_ _ _
    | with_reducible refine Steady.fifoEmpty ?_ _
    | with_reducible refine Steady.afterRef ?_ _ _
    | with_reducible refine Steady.abandonRun ?_ _ _
    | with_reducible refine Steady.resetInThreshers ?_ _
    | with_reducible refine Steady.loadTiller ?_ _
    | with_reducible refine Steady.resetResult ?_ _
    | with_reducible refine Steady.freshTiller ?_ _
    | intro _
    | dsimp only)

theorem Steady.threshReset {zs s : State} (hs : Steady zs s) (i : Nat) : Steady zs (s.threshReset i) := by
  unfold State.threshReset
  repeat' (first
    | with_reducible assumption
    | with_reducible exact Steady.refl _
    | with_reducible refine Steady.foldl ?_ _ ?_
    | with_reducible refine Steady.foldl_fst ?_ _ ?_
    | with_reducible refine Steady.setThr ?_ _ _
    | with_reducible refine Steady.memPut ?_ _ _ _
    | intro _
    | dsimp only
    | split)

theorem Steady.sheafReset {zs s : State} (hs : Steady zs s) (u : Nat) : Steady zs (s.sheafReset u) := by
  unfold State.sheafReset
  dsimp only
  refine Steady.foldl (Steady.setSheaf ?_ _ _) _ fun v t => Steady.setRoute (Steady.refl v) _ _
  have h1 := (Steady.threshReset (Steady.threshReset hs (2 * u)) (2 * u + 1)).clearRegs (sheafReg u)
  generalize ((s.threshReset (2 * u)).threshReset (2 * u + 1)).clearRegs (sheafReg u) = v at h1 ⊢
  exact (h1.memKept _).raw rfl

theorem Steady.clearStripEvents {zs s : State} (hs : Steady zs s) (r : Nat) : Steady zs (s.clearStripEvents r) := by
  unfold State.clearStripEvents
  repeat' (first
    | with_reducible assumption
    | with_reducible exact Steady.refl _
    | with_reducible refine Steady.foldl ?_ _ ?_
    | with_reducible refine Steady.foldl_fst ?_ _ ?_
    | with_reducible refine Steady.putBit ?_ _ _ _
    | intro _)

theorem Steady.stripReset {zs s : State} (hs : Steady zs s) (r : Nat) : Steady zs (s.stripReset r) := by
  unfold State.stripReset
  repeat' (first
    | with_reducible assumption
    | with_reducible exact Steady.refl _
    | with_reducible refine Steady.ite ?_ ?_
    | with_reducible refine Steady.foldl ?_ _ ?_
    | with_reducible refine Steady.foldl_fst ?_ _ ?_
    | with_reducible refine Steady.mark ?_ _
    | with_reducible refine Steady.clearRegs ?_ _
    | with_reducible refine Steady.modTl ?_ _ _
    | with_reducible refine Steady.setStrip ?_ _ _
    | with_reducible refine Steady.abandonRun ?_ _ _
    | with_reducible refine Steady.tillerReset ?_ _
    | with_reducible refine Steady.clearStripEvents ?_ _
    | with_reducible refine Steady.lastAdmitAt ?_ _ _
    | intro _
    | dsimp only
    | split
    | with_reducible refine Steady.update ?_ rfl rfl)

theorem Steady.freshCore {zs s : State} (hs : Steady zs s) (keep : Nat → Bool) : Steady zs (s.freshCore keep) := by
  unfold State.freshCore
  dsimp only
  refine Steady.put (Steady.foldl ?_ _ fun q t => Steady.foldl (Steady.refl q) _ fun q h => Steady.ite (Steady.refl q) (Steady.setSup (Steady.refl q) _ _ _)) _ _
  refine hs.trans ⟨rfl, le_rfl, le_rfl, List.prefix_rfl, List.prefix_rfl, fun c => ?_⟩
  simp only [State.canonical, Bool.and_eq_true] at c ⊢
  have e1 : Memory.wf (storeKeep (fun a => decide (regionOf a = Region.dram)) s.mem) = true := storeKeep_wf (by tauto) _
  have e2 : storeWf resetWord (storeKeep keep s.regs) = true := storeKeep_wf (by tauto) _
  have e3 : ∀ l : List Nat, ∀ v : Nat → Supervisor, storeWf (fun _ => Supervisor.reset) (l.foldl (fun m d => storeSet (fun _ => Supervisor.reset) m d (v d)) []) = true := by
    intro l v
    have : ∀ m, storeWf (fun _ => Supervisor.reset) m = true → storeWf (fun _ => Supervisor.reset) (l.foldl (fun m d => storeSet (fun _ => Supervisor.reset) m d (v d)) m) = true := by
      induction l with
      | nil => exact fun _ h => h
      | cons x r ih => exact fun m h => ih _ (storeSet_wf h _ _)
    exact this _ rfl
  have e4 := e3 (List.range 2) (fun d => { Supervisor.reset with hbAt := (s.sv d).hbAt })
  have hr : State.reset.canonical = true := rfl
  simp only [State.canonical, Bool.and_eq_true] at hr
  tauto

theorem Steady.chipReset {zs s : State} (hs : Steady zs s) (code : Nat) : Steady zs (s.chipReset code) := by
  unfold State.chipReset
  repeat' (first
    | with_reducible assumption
    | with_reducible exact Steady.refl _
    | with_reducible refine Steady.ite ?_ ?_
    | with_reducible refine Steady.foldl ?_ _ ?_
    | with_reducible refine Steady.foldl_fst ?_ _ ?_
    | with_reducible refine Steady.put ?_ _ _
    | with_reducible refine Steady.dropOutput ?_ _ _
    | with_reducible refine Steady.trainPorts ?_
    | with_reducible refine Steady.freshCore ?_ _
    | intro _
    | dsimp only
    | split
    | with_reducible refine Steady.update ?_ rfl rfl)

theorem Steady.startReset {zs s : State} (hs : Steady zs s) (scope index : Nat) (fault : Bool) : Steady zs (s.startReset scope index fault) := by
  unfold State.startReset
  repeat' (first
    | with_reducible assumption
    | with_reducible exact Steady.refl _
    | with_reducible refine Steady.mark ?_ _
    | with_reducible refine Steady.pinReset ?_ _
    | with_reducible refine Steady.tillerReset ?_ _
    | with_reducible refine Steady.sheafReset ?_ _
    | with_reducible refine Steady.stripReset ?_ _
    | dsimp only
    | split
    | with_reducible refine Steady.update ?_ rfl rfl)

theorem Steady.resetOutcome {zs s : State} (hs : Steady zs s) (n : Nat) : Steady zs (s.resetOutcome n) := by
  unfold State.resetOutcome
  repeat' (first
    | with_reducible assumption
    | with_reducible exact Steady.refl _
    | with_reducible refine Steady.put ?_ _ _)

theorem Steady.requestReset {zs s : State} (hs : Steady zs s) (scope index : Nat) (fault : Bool) : Steady zs (s.requestReset scope index fault).1 := by
  unfold State.requestReset
  repeat' (first
    | with_reducible assumption
    | with_reducible exact Steady.refl _
    | with_reducible refine Steady.ite ?_ ?_
    | with_reducible refine Steady.ite_fst ?_ ?_
    | with_reducible refine Steady.mark ?_ _
    | with_reducible refine Steady.bump ?_ _
    | with_reducible refine Steady.wrapUp ?_ _
    | with_reducible refine Steady.startReset ?_ _ _ _
    | with_reducible refine Steady.resetOutcome ?_ _
    | dsimp only
    | split
    | with_reducible refine Steady.update ?_ rfl rfl)

theorem Steady.blockReset {zs s : State} (hs : Steady zs s) (scope index : Nat) : Steady zs (s.blockReset scope index) := by
  unfold State.blockReset
  repeat' (first
    | with_reducible assumption
    | with_reducible exact Steady.refl _
    | with_reducible refine Steady.ite ?_ ?_
    | with_reducible refine Steady.chipReset ?_ _
    | with_reducible refine Steady.resetOutcome ?_ _
    | with_reducible refine Steady.requestReset ?_ _ _ _
    | dsimp only
    | split)

theorem Steady.blockResetDone {zs s : State} (hs : Steady zs s) : Steady zs (s.blockResetDone) := by
  unfold State.blockResetDone
  repeat' (first
    | with_reducible assumption
    | with_reducible exact Steady.refl _
    | with_reducible refine Steady.ite ?_ ?_
    | with_reducible refine Steady.put ?_ _ _
    | with_reducible refine Steady.startReset ?_ _ _ _
    | with_reducible refine Steady.resetOutcome ?_ _
    | dsimp only
    | split
    | with_reducible refine Steady.update ?_ rfl rfl)

end Sys2Proof.Machine
end

