-- ==== Sys2Proof/Laws/SteadyPower.lean ====
section
/-! SUPPORT. The operations of Machine/Power.lean are steady. -/

namespace Sys2Proof.Machine

theorem Steady.modPower {zs s : State} (hs : Steady zs s) (f : Power → Power) : Steady zs (s.modPower f) := hs.raw rfl

theorem Steady.powerUp {zs s : State} (hs : Steady zs s) (code : Nat) : Steady zs (s.powerUp code) := by
  unfold State.powerUp
  repeat' (first
    | with_reducible assumption
    | with_reducible exact Steady.refl _
    | with_reducible refine Steady.put ?_ _ _
    | with_reducible refine Steady.chipReset ?_ _
    | with_reducible refine Steady.modPower ?_ _)

theorem Steady.startPowerDown {zs s : State} (hs : Steady zs s) (goal : Nat) : Steady zs (s.startPowerDown goal) := by
  unfold State.startPowerDown
  repeat' (first
    | with_reducible assumption
    | with_reducible exact Steady.refl _
    | with_reducible refine Steady.foldl ?_ _ ?_
    | with_reducible refine Steady.foldl_fst ?_ _ ?_
    | with_reducible refine Steady.put ?_ _ _
    | with_reducible refine Steady.shutStop ?_ _
    | with_reducible refine Steady.modPower ?_ _
    | intro _
    | dsimp only)

theorem Steady.powerFail {zs s : State} (hs : Steady zs s) (step : Nat) : Steady zs (s.powerFail step) := by
  unfold State.powerFail
  repeat' (first
    | with_reducible assumption
    | with_reducible exact Steady.refl _
    | with_reducible refine Steady.put ?_ _ _
    | with_reducible refine Steady.mark ?_ _
    | with_reducible refine Steady.modPower ?_ _
    | with_reducible refine Steady.startPowerDown ?_ _
    | intro _
    | dsimp only)

theorem Steady.powerStepStart {zs s : State} (hs : Steady zs s) : Steady zs (s.powerStepStart) := by
  unfold State.powerStepStart
  repeat' (first
    | with_reducible assumption
    | with_reducible exact Steady.refl _
    | with_reducible refine Steady.ite ?_ ?_
    | with_reducible refine Steady.putBit ?_ _ _ _
    | with_reducible refine Steady.advTo ?_ _
    | with_reducible refine Steady.modPower ?_ _
    | intro _
    | dsimp only
    | split)

theorem Steady.powerStepDone {zs s : State} (hs : Steady zs s) : Steady zs (s.powerStepDone) := by
  unfold State.powerStepDone
  repeat' (first
    | with_reducible assumption
    | with_reducible exact Steady.refl _
    | with_reducible refine Steady.ite ?_ ?_
    | with_reducible refine Steady.put ?_ _ _
    | with_reducible refine Steady.putBit ?_ _ _ _
    | with_reducible refine Steady.trainPorts ?_
    | with_reducible refine Steady.modPower ?_ _
    | intro _
    | dsimp only
    | split)

theorem Steady.pgTimeout {zs s : State} (hs : Steady zs s) : Steady zs (s.pgTimeout) := by
  unfold State.pgTimeout
  repeat' (first
    | with_reducible assumption
    | with_reducible exact Steady.refl _
    | with_reducible refine Steady.ite ?_ ?_
    | with_reducible refine Steady.advTo ?_ _
    | with_reducible refine Steady.powerFail ?_ _
    | dsimp only
    | split)

theorem Steady.pgFall {zs s : State} (hs : Steady zs s) (step : Nat) : Steady zs (s.pgFall step) := by
  unfold State.pgFall
  repeat' (first
    | with_reducible assumption
    | with_reducible exact Steady.refl _
    | with_reducible refine Steady.ite ?_ ?_
    | with_reducible refine Steady.put ?_ _ _
    | with_reducible refine Steady.putBit ?_ _ _ _
    | with_reducible refine Steady.powerFail ?_ _
    | dsimp only
    | split)

theorem Steady.loseDram {zs s : State} (hs : Steady zs s) : Steady zs s.loseDram := by
  unfold State.loseDram
  dsimp only
  refine Steady.put (Steady.put ?_ _ _) _ _
  exact (hs.memKept _).raw rfl

theorem Steady.railDown {zs s : State} (hs : Steady zs s) (k : Nat) : Steady zs (s.railDown k) := by
  unfold State.railDown
  dsimp only
  have h1 : Steady zs (if k = 0 then s else (s.putBit GL_PWR_STAT_REG_EN (k - 1) false).putBit GL_PWR_STAT_PG (k - 1) false) :=
    Steady.ite hs (Steady.putBit (Steady.putBit hs _ _ _) _ _ _)
  generalize (if k = 0 then s else (s.putBit GL_PWR_STAT_REG_EN (k - 1) false).putBit GL_PWR_STAT_PG (k - 1) false) = s1 at h1 ⊢
  have h2 := Steady.freshCore h1 (stillPowered (s1.power.goal == 4))
  generalize s1.freshCore (stillPowered (s1.power.goal == 4)) = s2 at h2 ⊢
  have h3 : Steady zs { s2 with pins := s1.pins } := by
    refine ⟨h2.pending, h2.ticks, h2.draws, h2.host, h2.link, fun c => ?_⟩
    have c1 := h1.canon c
    have c2 := h2.canon c
    simp only [State.canonical, Bool.and_eq_true] at c1 c2 ⊢
    tauto
  exact Steady.ite (Steady.loseDram h1) (Steady.ite (Steady.modPower (Steady.ite h3 h2) _) h1)

theorem Steady.powerDownStep {zs s : State} (hs : Steady zs s) : Steady zs (s.powerDownStep) := by
  unfold State.powerDownStep
  repeat' (first
    | with_reducible assumption
    | with_reducible exact Steady.refl _
    | with_reducible refine Steady.ite ?_ ?_
    | with_reducible refine Steady.put ?_ _ _
    | with_reducible refine Steady.advTo ?_ _
    | with_reducible refine Steady.modPower ?_ _
    | with_reducible refine Steady.powerUp ?_ _
    | with_reducible refine Steady.railDown ?_ _
    | intro _
    | dsimp only
    | split)

theorem Steady.wakeUp {zs s : State} (hs : Steady zs s) : Steady zs (s.wakeUp) := by
  unfold State.wakeUp
  repeat' (first
    | with_reducible assumption
    | with_reducible exact Steady.refl _
    | with_reducible refine Steady.ite ?_ ?_
    | with_reducible refine Steady.modPower ?_ _
    | with_reducible refine Steady.powerUp ?_ _
    | intro _
    | dsimp only
    | split)

theorem Steady.wakeIfAsked {zs s : State} (hs : Steady zs s) : Steady zs (s.wakeIfAsked) := by
  unfold State.wakeIfAsked
  repeat' (first
    | with_reducible assumption
    | with_reducible exact Steady.refl _
    | with_reducible refine Steady.ite ?_ ?_
    | with_reducible refine Steady.powerUp ?_ _
    | dsimp only
    | split)

theorem Steady.powerCommand {zs s : State} (hs : Steady zs s) (msp : Bool) (cmd key : Nat) : Steady zs (s.powerCommand msp cmd key) := by
  unfold State.powerCommand
  repeat' (first
    | with_reducible assumption
    | with_reducible exact Steady.refl _
    | with_reducible refine Steady.ite ?_ ?_
    | with_reducible refine Steady.mark ?_ _
    | with_reducible refine Steady.startSave ?_
    | with_reducible refine Steady.modPower ?_ _
    | with_reducible refine Steady.powerUp ?_ _
    | with_reducible refine Steady.wakeUp ?_
    | intro _
    | dsimp only
    | split)

theorem Steady.saveEnds {zs s : State} (hs : Steady zs s) (verified : Bool) : Steady zs (s.saveEnds verified) := by
  unfold State.saveEnds
  repeat' (first
    | with_reducible assumption
    | with_reducible exact Steady.refl _
    | with_reducible refine Steady.ite ?_ ?_
    | with_reducible refine Steady.saveDone ?_ _
    | with_reducible refine Steady.startPowerDown ?_ _
    | dsimp only
    | split)

theorem Steady.resetPinLow {zs s : State} (hs : Steady zs s) : Steady zs (s.resetPinLow) := by
  unfold State.resetPinLow
  repeat' (first
    | with_reducible assumption
    | with_reducible exact Steady.refl _
    | with_reducible refine Steady.ite ?_ ?_
    | with_reducible refine Steady.chipReset ?_ _
    | with_reducible refine Steady.modPower ?_ _
    | with_reducible refine Steady.wakeUp ?_)

theorem Steady.resetPinHigh {zs s : State} (hs : Steady zs s) : Steady zs (s.resetPinHigh) := by
  unfold State.resetPinHigh
  repeat' (first
    | with_reducible assumption
    | with_reducible exact Steady.refl _
    | with_reducible refine Steady.modPower ?_ _)

theorem Steady.chipResetRelease {zs s : State} (hs : Steady zs s) : Steady zs (s.chipResetRelease) := by
  unfold State.chipResetRelease
  repeat' (first
    | with_reducible assumption
    | with_reducible exact Steady.refl _
    | with_reducible refine Steady.ite ?_ ?_
    | with_reducible refine Steady.advTo ?_ _
    | with_reducible refine Steady.modPower ?_ _
    | intro _
    | dsimp only
    | split)

theorem Steady.copyFail {zs s : State} (hs : Steady zs s) (bad : Nat) : Steady zs (s.copyFail bad) := by
  unfold State.copyFail
  repeat' (first
    | with_reducible assumption
    | with_reducible exact Steady.refl _
    | with_reducible refine Steady.ite ?_ ?_
    | with_reducible refine Steady.mark ?_ _
    | with_reducible refine Steady.source ?_ _
    | with_reducible refine Steady.raiseLine ?_ _)

theorem Steady.firstTemperature {zs s : State} (hs : Steady zs s) (r : Nat) : Steady zs (s.firstTemperature r) := by
  unfold State.firstTemperature
  repeat' (first
    | with_reducible assumption
    | with_reducible exact Steady.refl _
    | with_reducible refine Steady.setStrip ?_ _ _
    | with_reducible refine Steady.followBand ?_ _)

theorem Steady.regsReady {zs s : State} (hs : Steady zs s) (readings : List Int) (bad : Nat) (calBad : List Nat) : Steady zs (s.regsReady readings bad calBad) := by
  unfold State.regsReady
  repeat' (first
    | with_reducible assumption
    | with_reducible exact Steady.refl _
    | with_reducible refine Steady.ite ?_ ?_
    | with_reducible refine Steady.foldl ?_ _ ?_
    | with_reducible refine Steady.foldl_fst ?_ _ ?_
    | with_reducible refine Steady.put ?_ _ _
    | with_reducible refine Steady.mark ?_ _
    | with_reducible refine Steady.formT ?_ _
    | with_reducible refine Steady.formBlind ?_ _
    | with_reducible refine Steady.modNvm ?_ _ rfl rfl
    | with_reducible refine Steady.loadTiller ?_ _
    | with_reducible refine Steady.modPower ?_ _
    | with_reducible refine Steady.copyFail ?_ _
    | with_reducible refine Steady.firstTemperature ?_ _
    | intro _
    | dsimp only
    | split
    | with_reducible refine Steady.update ?_ rfl rfl)

theorem Steady.stackDone {zs s : State} (hs : Steady zs s) (east : Bool) : Steady zs (s.stackDone east) := by
  unfold State.stackDone
  repeat' (first
    | with_reducible assumption
    | with_reducible exact Steady.refl _
    | with_reducible refine Steady.ite ?_ ?_
    | with_reducible refine Steady.dramInitDone ?_ _
    | with_reducible refine Steady.modPower ?_ _)

theorem Steady.vbulkPowerUp {zs s : State} (hs : Steady zs s) (cpos : Nat) : Steady zs (s.vbulkPowerUp cpos) := by
  unfold State.vbulkPowerUp
  dsimp only
  refine Steady.lifeModel (Steady.put (Steady.put (Steady.freshLife (Steady.setReg (Steady.put (Steady.setSv (Steady.setSv ?_ _ _) _ _) _ _) _ _)) _ _) _ _)
  refine hs.trans ⟨rfl, le_rfl, le_rfl, List.prefix_rfl, List.prefix_rfl, fun c => ?_⟩
  simp only [State.canonical, Bool.and_eq_true, Option.getD_none] at c ⊢
  have e1 : storeWf (fun _ => 0) (storeKeep (fun k => k != contactKey) s.nvm.saved) = true := storeKeep_wf (by tauto) _
  have e2 : storeWf (fun _ => 0) ([] : Store Nat) = true := rfl
  have hr : State.reset.canonical = true := rfl
  simp only [State.canonical, Bool.and_eq_true] at hr
  tauto

theorem Steady.lossOfVbulk {zs s : State} (hs : Steady zs s) : Steady zs (s.lossOfVbulk) := by
  unfold State.lossOfVbulk
  repeat' (first
    | with_reducible assumption
    | with_reducible exact Steady.refl _
    | with_reducible refine Steady.put ?_ _ _
    | with_reducible refine Steady.freshCore ?_ _
    | with_reducible refine Steady.modPower ?_ _
    | with_reducible refine Steady.loseDram ?_)

theorem Steady.clockLost {zs s : State} (hs : Steady zs s) : Steady zs (s.clockLost) := by
  unfold State.clockLost
  repeat' (first
    | with_reducible assumption
    | with_reducible exact Steady.refl _
    | with_reducible refine Steady.ite ?_ ?_
    | with_reducible refine Steady.raiseLine ?_ _
    | with_reducible refine Steady.modPower ?_ _
    | intro _
    | dsimp only
    | split)

theorem Steady.clockFound {zs s : State} (hs : Steady zs s) : Steady zs (s.clockFound) := by
  unfold State.clockFound
  repeat' (first
    | with_reducible assumption
    | with_reducible exact Steady.refl _
    | with_reducible refine Steady.modPower ?_ _)

theorem Steady.aliveStop {zs s : State} (hs : Steady zs s) : Steady zs (s.aliveStop) := by
  unfold State.aliveStop
  repeat' (first
    | with_reducible assumption
    | with_reducible exact Steady.refl _
    | with_reducible refine Steady.put ?_ _ _
    | with_reducible refine Steady.mark ?_ _
    | with_reducible refine Steady.source ?_ _
    | dsimp only
    | with_reducible refine Steady.update ?_ rfl rfl)

theorem Steady.shutdownRailsOff {zs s : State} (hs : Steady zs s) : Steady zs (s.shutdownRailsOff) := by
  unfold State.shutdownRailsOff
  repeat' (first
    | with_reducible assumption
    | with_reducible exact Steady.refl _
    | with_reducible refine Steady.ite ?_ ?_
    | with_reducible refine Steady.advTo ?_ _
    | dsimp only
    | split
    | with_reducible refine Steady.put ?_ _ _
    | with_reducible refine Steady.mark ?_ _
    | with_reducible refine Steady.modPower ?_ _
    | with_reducible refine Steady.aliveStop ?_)

theorem Steady.periodicSave {zs s : State} (hs : Steady zs s) : Steady zs s.periodicSave := by
  unfold State.periodicSave
  dsimp only
  exact Steady.startSave (Steady.update (hs.advTo _) rfl rfl)

theorem Steady.thermClear {zs s : State} (hs : Steady zs s) (key : Nat) : Steady zs (s.thermClear key) := by
  unfold State.thermClear
  repeat' (first
    | with_reducible assumption
    | with_reducible exact Steady.refl _
    | with_reducible refine Steady.ite ?_ ?_
    | with_reducible refine Steady.put ?_ _ _
    | with_reducible refine Steady.mark ?_ _
    | with_reducible refine Steady.powerUp ?_ _
    | dsimp only
    | split
    | with_reducible refine Steady.update ?_ rfl rfl)

end Sys2Proof.Machine
end

