-- ==== Sys2Proof/Laws/SteadyFault.lean ====
section
/-! SUPPORT. The operations of Machine/Fault.lean are steady. -/

namespace Sys2Proof.Machine

theorem Steady.firstFault {zs s : State} (hs : Steady zs s) (b : Nat) : Steady zs (s.firstFault b) := by
  unfold State.firstFault
  repeat' (first
    | with_reducible assumption
    | with_reducible exact Steady.refl _
    | with_reducible refine Steady.ite ?_ ?_
    | with_reducible refine Steady.put ?_ _ _
    | with_reducible refine Steady.mark ?_ _
    | with_reducible refine Steady.put48 ?_ _ _ _
    | dsimp only
    | split
    | with_reducible refine Steady.update ?_ rfl rfl)

theorem Steady.react {zs s : State} (hs : Steady zs s) (b : Nat) : Steady zs (s.react b) := by
  unfold State.react
  repeat' (first
    | with_reducible assumption
    | with_reducible exact Steady.refl _
    | with_reducible refine Steady.ite ?_ ?_
    | with_reducible refine Steady.foldl ?_ _ ?_
    | with_reducible refine Steady.foldl_fst ?_ _ ?_
    | with_reducible refine Steady.source ?_ _
    | with_reducible refine Steady.safeStop ?_ _
    | with_reducible refine Steady.svTrap ?_ _
    | with_reducible refine Steady.aliveStop ?_
    | intro _
    | dsimp only
    | split
    | with_reducible refine Steady.update ?_ rfl rfl)

theorem Steady.errorLine {zs s : State} (hs : Steady zs s) (b : Nat) : Steady zs (s.errorLine b) := by
  unfold State.errorLine
  repeat' (first
    | with_reducible assumption
    | with_reducible exact Steady.refl _
    | with_reducible refine Steady.ite ?_ ?_
    | with_reducible refine Steady.putBit ?_ _ _ _
    | with_reducible refine Steady.dropLine ?_ _
    | with_reducible refine Steady.firstFault ?_ _
    | with_reducible refine Steady.react ?_ _)

theorem Steady.reactReset {zs s : State} (hs : Steady zs s) (b : Nat) : Steady zs (s.reactReset b) := by
  unfold State.reactReset
  repeat' (first
    | with_reducible assumption
    | with_reducible exact Steady.refl _
    | with_reducible refine Steady.ite ?_ ?_
    | with_reducible refine Steady.source ?_ _
    | with_reducible refine Steady.hostPortReset ?_
    | with_reducible refine Steady.svRestart ?_ _
    | with_reducible refine Steady.requestReset ?_ _ _ _
    | dsimp only
    | split)

theorem Steady.faultReactReset {zs s : State} (hs : Steady zs s) : Steady zs (s.faultReactReset) := by
  unfold State.faultReactReset
  repeat' (first
    | with_reducible assumption
    | with_reducible exact Steady.refl _
    | with_reducible refine Steady.advTo ?_ _
    | with_reducible refine Steady.ite ?_ ?_
    | with_reducible refine Steady.chipReset ?_ _
    | with_reducible refine Steady.reactReset ?_ _
    | dsimp only
    | split
    | with_reducible refine Steady.update ?_ rfl rfl)

theorem Steady.statRead {zs s : State} (hs : Steady zs s) (k : Nat) : Steady zs (s.statRead k).1 := by
  unfold State.statRead
  repeat' (first
    | with_reducible assumption
    | with_reducible exact Steady.refl _
    | with_reducible refine Steady.ite ?_ ?_
    | with_reducible refine Steady.ite_fst ?_ ?_
    | intro _
    | dsimp only
    | split
    | with_reducible refine Steady.update ?_ rfl rfl)

theorem Steady.statClear {zs s : State} (hs : Steady zs s) (k w : Nat) : Steady zs (s.statClear k w) := by
  unfold State.statClear
  repeat' (first
    | with_reducible assumption
    | with_reducible exact Steady.refl _
    | with_reducible refine Steady.ite ?_ ?_
    | with_reducible refine Steady.foldl ?_ _ ?_
    | with_reducible refine Steady.foldl_fst ?_ _ ?_
    | with_reducible refine Steady.putBit ?_ _ _ _
    | with_reducible refine Steady.raiseLine ?_ _
    | intro _)

theorem Steady.aliveKick {zs s : State} (hs : Steady zs s) (key : Nat) : Steady zs (s.aliveKick key) := by
  unfold State.aliveKick
  repeat' (first
    | with_reducible assumption
    | with_reducible exact Steady.refl _
    | with_reducible refine Steady.ite ?_ ?_
    | with_reducible refine Steady.mark ?_ _
    | dsimp only
    | split
    | with_reducible refine Steady.update ?_ rfl rfl)

theorem Steady.aliveToggle {zs s : State} (hs : Steady zs s) : Steady zs (s.aliveToggle) := by
  unfold State.aliveToggle
  repeat' (first
    | with_reducible assumption
    | with_reducible exact Steady.refl _
    | with_reducible refine Steady.ite ?_ ?_
    | with_reducible refine Steady.advTo ?_ _
    | dsimp only
    | split
    | with_reducible refine Steady.update ?_ rfl rfl)

theorem Steady.aliveTimeout {zs s : State} (hs : Steady zs s) : Steady zs (s.aliveTimeout) := by
  unfold State.aliveTimeout
  repeat' (first
    | with_reducible assumption
    | with_reducible exact Steady.refl _
    | with_reducible refine Steady.ite ?_ ?_
    | with_reducible refine Steady.put ?_ _ _
    | with_reducible refine Steady.advTo ?_ _
    | dsimp only
    | split
    | with_reducible refine Steady.update ?_ rfl rfl)

theorem Steady.injectWrite {zs s : State} (hs : Steady zs s) (go wasCont : Bool) : Steady zs (s.injectWrite go wasCont) := by
  unfold State.injectWrite
  repeat' (first
    | with_reducible assumption
    | with_reducible exact Steady.refl _
    | with_reducible refine Steady.ite ?_ ?_
    | with_reducible refine Steady.put ?_ _ _
    | with_reducible refine Steady.mark ?_ _)

end Sys2Proof.Machine
end

