-- ==== Sys2Proof/Laws/SteadyAccess.lean ====
section
/-! SUPPORT. The operations of Machine/Access.lean are steady. -/

namespace Sys2Proof.Machine

theorem Steady.clearRead {zs s : State} (hs : Steady zs s) (a : Nat) : Steady zs (s.clearRead a) := by
  unfold State.clearRead
  repeat' (first
    | with_reducible assumption
    | with_reducible exact Steady.refl _
    | with_reducible refine Steady.foldl ?_ _ ?_
    | with_reducible refine Steady.foldl_fst ?_ _ ?_
    | with_reducible refine Steady.setReg ?_ _ _
    | intro _
    | dsimp only
    | split)

theorem Steady.mspPop {zs s : State} (hs : Steady zs s) : Steady zs (s.mspPop).1 := by
  unfold State.mspPop
  repeat' (first
    | with_reducible assumption
    | with_reducible exact Steady.refl _
    | with_reducible refine Steady.setReg ?_ _ _
    | with_reducible refine Steady.mark ?_ _
    | dsimp only
    | split
    | with_reducible refine Steady.update ?_ rfl rfl)

theorem Steady.vrawRead {zs s : State} (hs : Steady zs s) : Steady zs (s.vrawRead).1 := by
  unfold State.vrawRead
  repeat' (first
    | with_reducible assumption
    | with_reducible exact Steady.refl _
    | with_reducible refine Steady.draw ?_
    | dsimp only)

theorem Steady.pendUp {zs s : State} (hs : Steady zs s) (i : Nat) : Steady zs (s.pendUp i) := by
  unfold State.pendUp
  repeat' (first
    | with_reducible assumption
    | with_reducible exact Steady.refl _
    | with_reducible refine Steady.tillerCatchUp ?_ _ _
    | dsimp only)

theorem Steady.pendRead {zs s : State} (hs : Steady zs s) (i : Nat) : Steady zs (s.pendRead i).1 := by
  have h := Steady.clearRead (Steady.pendUp hs i) (EV_PEND i)
  unfold State.pendRead
  dsimp only
  exact h

theorem Steady.tdcRead {zs s : State} (hs : Steady zs s) (a : Nat) : Steady zs (s.tdcRead a).1 := by
  unfold State.tdcRead
  repeat' (first
    | with_reducible assumption
    | with_reducible exact Steady.refl _
    | with_reducible refine Steady.ite ?_ ?_
    | with_reducible refine Steady.ite_fst ?_ ?_
    | with_reducible refine Steady.readLow ?_ _
    | with_reducible refine Steady.readHigh ?_ _
    | with_reducible refine Steady.delayed ?_ _ _
    | with_reducible refine Steady.clearRead ?_ _
    | dsimp only
    | split)

/-- A choice between the answer of a read and another choice. -/
theorem Steady.if_some {zs : State} {p : Prop} [Decidable p] {x : State × Nat} {o : Option (State × Nat)} (hx : Steady zs x.1)
    (ho : ∀ r, o = some r → Steady zs r.1) (r : State × Nat) (e : (if p then some x else o) = some r) : Steady zs r.1 := by
  by_cases h : p
  · rw [if_pos h] at e
    exact Option.some.inj e ▸ hx
  · rw [if_neg h] at e
    exact ho r e

theorem Steady.readUnit_all {zs s : State} (a : Nat) (hs : Steady zs s) : ∀ r, s.readUnit a = some r → Steady zs r.1 := by
  have hd : ∀ t n, Steady zs ((s.delayed t n).clearRead a) := fun t n => Steady.clearRead (Steady.delayed hs t n) a
  unfold State.readUnit
  dsimp only
  refine Steady.if_some (by exact Steady.catchUp hs _ _) ?_
  refine Steady.if_some (by exact Steady.readResult hs _) ?_
  refine Steady.if_some (by exact Steady.ite (Steady.readHigh hs _) ((Steady.readHigh hs _).put _ _)) ?_
  refine Steady.if_some (by exact hd _ _) ?_
  refine Steady.if_some (by exact Steady.clearRead (Steady.countWait hs _) _) ?_
  refine Steady.if_some (by exact Steady.fifoRead hs _) ?_
  refine Steady.if_some (by exact Steady.captureRead hs _) ?_
  refine Steady.if_some (by exact hs) ?_
  refine Steady.if_some (by exact hs) ?_
  refine Steady.if_some (by exact Steady.readDone hs _) ?_
  refine Steady.if_some (by exact hs.put _ _) ?_
  refine Steady.if_some (by exact Steady.calAdvance hs (unitOf a)) ?_
  refine Steady.if_some (by exact Steady.ucrdAdvance hs (unitOf a)) ?_
  exact fun r e => nomatch e

theorem Steady.readGlobal_all {zs s : State} (a : Nat) (hs : Steady zs s) : ∀ r, s.readGlobal a = some r → Steady zs r.1 := by
  unfold State.readGlobal
  refine Steady.if_some (by exact Steady.nvmRead hs) ?_
  refine Steady.if_some (by exact Steady.mspPop hs) ?_
  refine Steady.if_some (by exact Steady.mbxPop hs _) ?_
  refine Steady.if_some (by exact Steady.mbxPop hs _) ?_
  refine Steady.if_some (by exact Steady.vrawRead hs) ?_
  intro r e
  split at e
  · exact Option.some.inj e ▸ Steady.statRead hs _
  · exact Option.some.inj e ▸ Steady.hmqPop hs _
  · exact Option.some.inj e ▸ Steady.pendRead hs _
  · cases e

theorem Steady.readOwn_all {zs s : State} (a : Nat) (hs : Steady zs s) : ∀ r, s.readOwn a = some r → Steady zs r.1 := by
  unfold State.readOwn
  dsimp only
  refine Steady.if_some (by exact Steady.tdcRead hs _) ?_
  refine Steady.if_some (by exact Steady.readLow hs _) ?_
  refine Steady.if_some (by exact Steady.readHigh hs _) ?_
  intro r e
  split at e
  · exact Steady.readUnit_all a hs r e
  · exact Steady.readGlobal_all a hs r e

theorem Steady.readOwn {zs s : State} {a : Nat} {r : State × Nat} (e : s.readOwn a = some r) (hs : Steady zs s) : Steady zs r.1 :=
  Steady.readOwn_all a hs r e

theorem Steady.regRead {zs s : State} (hs : Steady zs s) (v : View) (a : Nat) : Steady zs (s.regRead v a).1 := by
  unfold State.regRead
  repeat' (first
    | with_reducible assumption
    | with_reducible exact Steady.refl _
    | with_reducible refine Steady.ite ?_ ?_
    | with_reducible refine Steady.ite_fst ?_ ?_
    | with_reducible refine Steady.clearRead ?_ _
    | with_reducible refine Steady.readOwn (by assumption) ?_
    | dsimp only
    | split)

theorem Steady.readOut {zs s : State} (hs : Steady zs s) (v : View) (a : Nat) : Steady zs (s.readOut v a) := by
  unfold State.readOut
  repeat' (first
    | with_reducible assumption
    | with_reducible exact Steady.refl _
    | with_reducible refine Steady.regRead ?_ _ _
    | dsimp only
    | with_reducible refine Steady.update ?_ rfl rfl)

end Sys2Proof.Machine
end

