-- ==== Sys2Proof/Laws/SteadyBoot.lean ====
section
/-! SUPPORT. The operations of Machine/Boot.lean are steady. -/

namespace Sys2Proof.Machine

theorem Steady.loadSection {zs s : State} (hs : Steady zs s) (data : List Nat) (u : Nat) : Steady zs (s.loadSection data u) := by
  unfold State.loadSection
  repeat' (first
    | with_reducible assumption
    | with_reducible exact Steady.refl _
    | with_reducible refine Steady.ite ?_ ?_
    | with_reducible refine Steady.foldl ?_ _ ?_
    | with_reducible refine Steady.foldl_fst ?_ _ ?_
    | with_reducible refine Steady.put ?_ _ _
    | with_reducible refine Steady.mark ?_ _
    | with_reducible refine Steady.setSheaf ?_ _ _
    | with_reducible refine Steady.loadDefault ?_ _
    | intro _
    | dsimp only
    | split)

theorem Steady.loadEntries {zs s : State} (hs : Steady zs s) (data : List Nat) (u : Nat) : Steady zs (s.loadEntries data u) := by
  unfold State.loadEntries
  repeat' (first
    | with_reducible assumption
    | with_reducible exact Steady.refl _
    | with_reducible refine Steady.foldl ?_ _ ?_
    | with_reducible refine Steady.foldl_fst ?_ _ ?_
    | with_reducible refine Steady.put ?_ _ _
    | with_reducible refine Steady.setSheaf ?_ _ _
    | intro _)

theorem Steady.loadOne {zs s : State} (hs : Steady zs s) (x : Section) : Steady zs (s.loadOne x) := by
  unfold State.loadOne
  repeat' (first
    | with_reducible assumption
    | with_reducible exact Steady.refl _
    | with_reducible refine Steady.ite ?_ ?_
    | with_reducible refine Steady.foldl ?_ _ ?_
    | with_reducible refine Steady.foldl_fst ?_ _ ?_
    | with_reducible refine Steady.loadSection ?_ _ _
    | with_reducible refine Steady.loadEntries ?_ _ _
    | intro _)

theorem Steady.svStart {zs s : State} (hs : Steady zs s) (d : Nat) : Steady zs (s.svStart d) := by
  unfold State.svStart
  repeat' (first
    | with_reducible assumption
    | with_reducible exact Steady.refl _
    | with_reducible refine Steady.put ?_ _ _
    | with_reducible refine Steady.setSv ?_ _ _
    | with_reducible refine Steady.draw ?_
    | with_reducible refine Steady.takeBack ?_ _
    | with_reducible refine Steady.serveNow ?_ _)

theorem Steady.claimLead {zs s : State} (hs : Steady zs s) : Steady zs (s.claimLead) := by
  unfold State.claimLead
  repeat' (first
    | with_reducible assumption
    | with_reducible exact Steady.refl _
    | with_reducible refine Steady.draw ?_
    | with_reducible refine Steady.leadClaim ?_ _
    | dsimp only)

theorem Steady.bootDone {zs s : State} (hs : Steady zs s) (used version : Nat) (l : List Section) : Steady zs (s.bootDone used version l) := by
  unfold State.bootDone
  repeat' (first
    | with_reducible assumption
    | with_reducible exact Steady.refl _
    | with_reducible refine Steady.foldl ?_ _ ?_
    | with_reducible refine Steady.foldl_fst ?_ _ ?_
    | with_reducible refine Steady.put ?_ _ _
    | with_reducible refine Steady.mark ?_ _
    | with_reducible refine Steady.loadOne ?_ _
    | with_reducible refine Steady.svStart ?_ _
    | with_reducible refine Steady.claimLead ?_
    | intro _
    | dsimp only)

theorem Steady.bootFail {zs s : State} (hs : Steady zs s) (err : Nat) : Steady zs (s.bootFail err) := by
  unfold State.bootFail
  repeat' (first
    | with_reducible assumption
    | with_reducible exact Steady.refl _
    | with_reducible refine Steady.put ?_ _ _
    | with_reducible refine Steady.mark ?_ _)

theorem Steady.driveFlash {zs s : State} (hs : Steady zs s) (x : FlashOut) : Steady zs (s.driveFlash x) := by
  unfold State.driveFlash
  repeat' (first
    | with_reducible assumption
    | with_reducible exact Steady.refl _
    | dsimp only
    | with_reducible refine Steady.update ?_ rfl rfl)

theorem Steady.flashRead {zs s : State} (hs : Steady zs s) (off n : Nat) : Steady zs (s.flashRead off n) := by
  unfold State.flashRead
  repeat' (first
    | with_reducible assumption
    | with_reducible exact Steady.refl _
    | with_reducible refine Steady.ite ?_ ?_
    | with_reducible refine Steady.driveFlash ?_ _
    | dsimp only
    | split)

theorem Steady.bootFlash {zs s : State} (hs : Steady zs s) (timeouts : Nat) (a b : List Nat) : Steady zs (s.bootFlash timeouts a b) := by
  unfold State.bootFlash
  repeat' (first
    | with_reducible assumption
    | with_reducible exact Steady.refl _
    | with_reducible refine Steady.ite ?_ ?_
    | with_reducible refine Steady.modPower ?_ _
    | with_reducible refine Steady.bootDone ?_ _ _ _
    | with_reducible refine Steady.bootFail ?_ _
    | with_reducible refine Steady.flashRead ?_ _ _
    | intro _
    | dsimp only
    | split)

theorem Steady.bootHost {zs s : State} (hs : Steady zs s) : Steady zs (s.bootHost) := by
  unfold State.bootHost
  repeat' (first
    | with_reducible assumption
    | with_reducible exact Steady.refl _
    | with_reducible refine Steady.ite ?_ ?_
    | with_reducible refine Steady.dramCheck ?_ _ _
    | with_reducible refine Steady.bootDone ?_ _ _ _
    | with_reducible refine Steady.bootFail ?_ _
    | dsimp only
    | split)

theorem Steady.mspPush {zs s : State} (hs : Steady zs s) (w : Nat) : Steady zs (s.mspPush w) := by
  unfold State.mspPush
  repeat' (first
    | with_reducible assumption
    | with_reducible exact Steady.refl _
    | with_reducible refine Steady.ite ?_ ?_
    | dsimp only
    | split
    | with_reducible refine Steady.update ?_ rfl rfl)

theorem Steady.mspLen {zs s : State} (hs : Steady zs s) (w : Nat) : Steady zs (s.mspLen w) := by
  unfold State.mspLen
  repeat' (first
    | with_reducible assumption
    | with_reducible exact Steady.refl _
    | with_reducible refine Steady.setReg ?_ _ _)

theorem Steady.mspGo {zs s : State} (hs : Steady zs s) : Steady zs (s.mspGo) := by
  unfold State.mspGo
  repeat' (first
    | with_reducible assumption
    | with_reducible exact Steady.refl _
    | with_reducible refine Steady.ite ?_ ?_
    | with_reducible refine Steady.mark ?_ _
    | with_reducible refine Steady.driveFlash ?_ _
    | dsimp only
    | split
    | with_reducible refine Steady.update ?_ rfl rfl)

theorem Steady.mspGot {zs s : State} (hs : Steady zs s) (received : List Nat) : Steady zs (s.mspGot received) := by
  unfold State.mspGot
  split
  · exact hs
  · split
    · exact Steady.foldl (hs.drawn (Nat.le_add_right _ _)) _ (fun s w => Steady.mspPush (Steady.refl s) w)
    · exact Steady.foldl hs _ (fun s w => Steady.mspPush (Steady.refl s) w)

theorem Steady.mspIdle {zs s : State} (hs : Steady zs s) : Steady zs (s.mspIdle) := by
  unfold State.mspIdle
  repeat' (first
    | with_reducible assumption
    | with_reducible exact Steady.refl _
    | dsimp only
    | with_reducible refine Steady.update ?_ rfl rfl)

theorem Steady.mspDone {zs s : State} (hs : Steady zs s) (received : List Nat) : Steady zs (s.mspDone received) := by
  unfold State.mspDone
  repeat' (first
    | with_reducible assumption
    | with_reducible exact Steady.refl _
    | with_reducible refine Steady.ite ?_ ?_
    | with_reducible refine Steady.put ?_ _ _
    | with_reducible refine Steady.source ?_ _
    | with_reducible refine Steady.mspGot ?_ _
    | with_reducible refine Steady.mspIdle ?_)

end Sys2Proof.Machine
end

