-- ==== Sys2Proof/Laws/SteadyRegWrite.lean ====
section
/-! SUPPORT. The operations of Machine/RegWrite.lean are steady. -/

namespace Sys2Proof.Machine

theorem Steady.storeWord {zs s : State} (hs : Steady zs s) (a w : Nat) : Steady zs (s.storeWord a w) := by
  unfold State.storeWord
  repeat' (first
    | with_reducible assumption
    | with_reducible exact Steady.refl _
    | with_reducible refine Steady.foldl ?_ _ ?_
    | with_reducible refine Steady.foldl_fst ?_ _ ?_
    | with_reducible refine Steady.setReg ?_ _ _
    | intro _
    | dsimp only
    | split)

theorem Steady.andThen {zs s : State} (hs : Steady zs s) (b : Bool) {f : State → State} (hf : ∀ s, Steady s (f s)) : Steady zs (s.andThen b f) :=
  Steady.ite (hs.trans (hf s)) hs

theorem Steady.reportDiscard {zs s : State} (hs : Steady zs s) (a : Nat) : Steady zs (s.reportDiscard a) := by
  unfold State.reportDiscard
  repeat' (first
    | with_reducible assumption
    | with_reducible exact Steady.refl _
    | with_reducible refine Steady.ite ?_ ?_
    | with_reducible refine Steady.put ?_ _ _
    | with_reducible refine Steady.mark ?_ _
    | with_reducible refine Steady.bump ?_ _
    | with_reducible refine Steady.source ?_ _)

theorem Steady.storeVector {zs s : State} (hs : Steady zs s) (a w : Nat) : Steady zs (s.storeVector a w) := by
  unfold State.storeVector
  repeat' (first
    | with_reducible assumption
    | with_reducible exact Steady.refl _
    | with_reducible refine Steady.vectorsRisen ?_ _
    | with_reducible refine Steady.storeWord ?_ _ _)

theorem Steady.writePend {zs s : State} (hs : Steady zs s) (i w : Nat) : Steady zs (s.writePend i w) := by
  unfold State.writePend
  repeat' (first
    | with_reducible assumption
    | with_reducible exact Steady.refl _
    | with_reducible refine Steady.ite ?_ ?_
    | with_reducible refine Steady.storeWord ?_ _ _)

theorem Steady.writeRdv {zs s : State} (hs : Steady zs s) (k a w : Nat) : Steady zs (s.writeRdv k a w) := by
  unfold State.writeRdv
  repeat' (first
    | with_reducible assumption
    | with_reducible exact Steady.refl _
    | with_reducible refine Steady.ite ?_ ?_
    | with_reducible refine Steady.mark ?_ _
    | with_reducible refine Steady.source ?_ _
    | with_reducible refine Steady.storeWord ?_ _ _)

theorem Steady.writeLoopback {zs s : State} (hs : Steady zs s) (t w : Nat) : Steady zs (s.writeLoopback t w) := by
  unfold State.writeLoopback
  repeat' (first
    | with_reducible assumption
    | with_reducible exact Steady.refl _
    | with_reducible refine Steady.ite ?_ ?_
    | with_reducible refine Steady.mark ?_ _
    | with_reducible refine Steady.storeWord ?_ _ _)

theorem Steady.writeAlive {zs s : State} (hs : Steady zs s) (v : View) (w : Nat) : Steady zs (s.writeAlive v w) := by
  unfold State.writeAlive
  repeat' (first
    | with_reducible assumption
    | with_reducible exact Steady.refl _
    | with_reducible refine Steady.ite ?_ ?_
    | with_reducible refine Steady.put ?_ _ _
    | with_reducible refine Steady.aliveKick ?_ _
    | with_reducible refine Steady.andThen ?_ _ (fun _ => ?_))

theorem Steady.writeReact {zs s : State} (hs : Steady zs s) (k w : Nat) : Steady zs (s.writeReact k w) := by
  unfold State.writeReact
  repeat' (first
    | with_reducible assumption
    | with_reducible exact Steady.refl _
    | with_reducible refine Steady.ite ?_ ?_
    | with_reducible refine Steady.foldl ?_ _ ?_
    | with_reducible refine Steady.foldl_fst ?_ _ ?_
    | with_reducible refine Steady.storeWord ?_ _ _)

theorem Steady.writeChStat {zs s : State} (hs : Steady zs s) (e w : Nat) : Steady zs (s.writeChStat e w) := by
  unfold State.writeChStat
  repeat' (first
    | with_reducible assumption
    | with_reducible exact Steady.refl _
    | with_reducible refine Steady.ite ?_ ?_
    | with_reducible refine Steady.setChan ?_ _ _
    | with_reducible refine Steady.storeWord ?_ _ _
    | dsimp only
    | split)

theorem Steady.writeSvCtrl {zs s : State} (hs : Steady zs s) (v : View) (w : Nat) : Steady zs (s.writeSvCtrl v w) := by
  unfold State.writeSvCtrl
  repeat' (first
    | with_reducible assumption
    | with_reducible exact Steady.refl _
    | with_reducible refine Steady.ite ?_ ?_
    | with_reducible refine Steady.svRelease ?_ _
    | with_reducible refine Steady.svRestart ?_ _
    | with_reducible refine Steady.storeWord ?_ _ _
    | with_reducible refine Steady.andThen ?_ _ (fun _ => ?_))

theorem Steady.writeLeadClaim {zs s : State} (hs : Steady zs s) (v : View) (w : Nat) : Steady zs (s.writeLeadClaim v w) := by
  unfold State.writeLeadClaim
  repeat' (first
    | with_reducible assumption
    | with_reducible exact Steady.refl _
    | with_reducible refine Steady.leadClaim ?_ _
    | with_reducible refine Steady.leadTakeover ?_ _
    | with_reducible refine Steady.andThen ?_ _ (fun _ => ?_)
    | dsimp only
    | split)

theorem Steady.writeHeartbeat {zs s : State} (hs : Steady zs s) (v : View) (d : Nat) : Steady zs (s.writeHeartbeat v d) := by
  unfold State.writeHeartbeat
  repeat' (first
    | with_reducible assumption
    | with_reducible exact Steady.refl _
    | with_reducible refine Steady.ite ?_ ?_
    | with_reducible refine Steady.heartbeat ?_ _)

theorem Steady.writeNvCtrl {zs s : State} (hs : Steady zs s) (v : View) (w : Nat) : Steady zs (s.writeNvCtrl v w) := by
  unfold State.writeNvCtrl
  repeat' (first
    | with_reducible assumption
    | with_reducible exact Steady.refl _
    | with_reducible refine Steady.nvmGo ?_ _ _ _
    | with_reducible refine Steady.storeWord ?_ _ _
    | with_reducible refine Steady.andThen ?_ _ (fun _ => ?_)
    | intro _
    | dsimp only
    | split)

theorem Steady.writeWearCtrl {zs s : State} (hs : Steady zs s) (w : Nat) : Steady zs (s.writeWearCtrl w) := by
  unfold State.writeWearCtrl
  repeat' (first
    | with_reducible assumption
    | with_reducible exact Steady.refl _
    | with_reducible refine Steady.contactCycle ?_
    | with_reducible refine Steady.startSave ?_
    | with_reducible refine Steady.storeWord ?_ _ _
    | with_reducible refine Steady.andThen ?_ _ (fun _ => ?_))

theorem Steady.writeGlobalLow {zs s : State} (hs : Steady zs s) (v : View) (a w : Nat) : Steady zs (s.writeGlobalLow v a w) := by
  unfold State.writeGlobalLow
  repeat' (first
    | with_reducible assumption
    | with_reducible exact Steady.refl _
    | with_reducible refine Steady.ite ?_ ?_
    | with_reducible refine Steady.trackVraw ?_
    | with_reducible refine Steady.proberGap ?_ _ _
    | with_reducible refine Steady.blockReset ?_ _ _
    | with_reducible refine Steady.powerCommand ?_ _ _ _
    | with_reducible refine Steady.thermClear ?_ _
    | with_reducible refine Steady.bootHost ?_
    | with_reducible refine Steady.storeWord ?_ _ _
    | with_reducible refine Steady.andThen ?_ _ (fun _ => ?_)
    | with_reducible refine Steady.writeLoopback ?_ _ _
    | intro _
    | dsimp only
    | split)

theorem Steady.writeTimeBase {zs s : State} (hs : Steady zs s) (a w : Nat) : Steady zs (s.writeTimeBase a w) := by
  unfold State.writeTimeBase
  repeat' (first
    | with_reducible assumption
    | with_reducible exact Steady.refl _
    | with_reducible refine Steady.ite ?_ ?_
    | with_reducible refine Steady.put ?_ _ _
    | with_reducible refine Steady.writeSyncEn ?_ _
    | with_reducible refine Steady.writeTrim ?_ _
    | with_reducible refine Steady.storeWord ?_ _ _
    | with_reducible refine Steady.andThen ?_ _ (fun _ => ?_)
    | with_reducible refine Steady.writeRdv ?_ _ _ _)

theorem Steady.writeSupervisors {zs s : State} (hs : Steady zs s) (v : View) (a w : Nat) : Steady zs (s.writeSupervisors v a w) := by
  unfold State.writeSupervisors
  repeat' (first
    | with_reducible assumption
    | with_reducible exact Steady.refl _
    | with_reducible refine Steady.ite ?_ ?_
    | with_reducible refine Steady.leadSet ?_ _
    | with_reducible refine Steady.svCommand ?_ _ _ _
    | with_reducible refine Steady.statClear ?_ _ _
    | with_reducible refine Steady.injectWrite ?_ _ _
    | with_reducible refine Steady.storeWord ?_ _ _
    | with_reducible refine Steady.andThen ?_ _ (fun _ => ?_)
    | with_reducible refine Steady.writeAlive ?_ _ _
    | with_reducible refine Steady.writeReact ?_ _ _
    | with_reducible refine Steady.writeSvCtrl ?_ _ _
    | with_reducible refine Steady.writeLeadClaim ?_ _ _
    | with_reducible refine Steady.writeHeartbeat ?_ _ _
    | intro _
    | dsimp only
    | split)

theorem Steady.writeEvents {zs s : State} (hs : Steady zs s) (v : View) (a w : Nat) : Steady zs (s.writeEvents v a w) := by
  unfold State.writeEvents
  repeat' (first
    | with_reducible assumption
    | with_reducible exact Steady.refl _
    | with_reducible refine Steady.ite ?_ ?_
    | with_reducible refine Steady.evFire ?_ _ _
    | with_reducible refine Steady.chCfgWrite ?_ _ _ _
    | with_reducible refine Steady.vecRearm ?_ _ _
    | with_reducible refine Steady.storeWord ?_ _ _
    | with_reducible refine Steady.andThen ?_ _ (fun _ => ?_)
    | with_reducible refine Steady.storeVector ?_ _ _
    | with_reducible refine Steady.writePend ?_ _ _
    | with_reducible refine Steady.writeChStat ?_ _ _
    | intro _
    | dsimp only
    | split)

theorem Steady.writeAux {zs s : State} (hs : Steady zs s) (v : View) (a w : Nat) : Steady zs (s.writeAux v a w) := by
  unfold State.writeAux
  repeat' (first
    | with_reducible assumption
    | with_reducible exact Steady.refl _
    | with_reducible refine Steady.ite ?_ ?_
    | with_reducible refine Steady.nvmFill ?_ _
    | with_reducible refine Steady.mspPush ?_ _
    | with_reducible refine Steady.mspLen ?_ _
    | with_reducible refine Steady.mspGo ?_
    | with_reducible refine Steady.storeWord ?_ _ _
    | with_reducible refine Steady.andThen ?_ _ (fun _ => ?_)
    | with_reducible refine Steady.writeNvCtrl ?_ _ _
    | with_reducible refine Steady.writeWearCtrl ?_ _)

theorem Steady.writeGlobal {zs s : State} (hs : Steady zs s) (v : View) (a w : Nat) : Steady zs (s.writeGlobal v a w) := by
  unfold State.writeGlobal
  repeat' (first
    | with_reducible assumption
    | with_reducible exact Steady.refl _
    | with_reducible refine Steady.ite ?_ ?_
    | with_reducible refine Steady.writeGlobalLow ?_ _ _ _
    | with_reducible refine Steady.writeTimeBase ?_ _ _
    | with_reducible refine Steady.writeSupervisors ?_ _ _ _
    | with_reducible refine Steady.writeEvents ?_ _ _ _
    | with_reducible refine Steady.writeAux ?_ _ _ _)

theorem Steady.putStripBits {zs s : State} (hs : Steady zs s) (f : Nat → Field) (r : Nat) (b : Nat → Bool → Bool) : Steady zs (s.putStripBits f r b) :=
  Steady.foldl hs _ fun u _ => Steady.putBit (Steady.refl u) _ _ _

theorem Steady.writeCalCtrl {zs s : State} (hs : Steady zs s) (r w : Nat) : Steady zs (s.writeCalCtrl r w) := by
  unfold State.writeCalCtrl
  repeat' (first
    | with_reducible assumption
    | with_reducible exact Steady.refl _
    | with_reducible refine Steady.put ?_ _ _
    | with_reducible refine Steady.runNow ?_ _
    | with_reducible refine Steady.calAbort ?_ _
    | with_reducible refine Steady.calCommit ?_ _
    | with_reducible refine Steady.calReload ?_ _
    | with_reducible refine Steady.storeWord ?_ _ _
    | with_reducible refine Steady.andThen ?_ _ (fun _ => ?_)
    | intro _
    | dsimp only)

theorem Steady.writeStrip {zs s : State} (hs : Steady zs s) (r a w : Nat) : Steady zs (s.writeStrip r a w) := by
  unfold State.writeStrip
  repeat' (first
    | with_reducible assumption
    | with_reducible exact Steady.refl _
    | with_reducible refine Steady.ite ?_ ?_
    | with_reducible refine Steady.vectorsRisen ?_ _
    | with_reducible refine Steady.calDataWrite ?_ _ _
    | with_reducible refine Steady.storeWord ?_ _ _
    | with_reducible refine Steady.putStripBits ?_ _ _ _
    | with_reducible refine Steady.writeCalCtrl ?_ _ _)

theorem Steady.writeThCtrl {zs s : State} (hs : Steady zs s) (i w : Nat) : Steady zs (s.writeThCtrl i w) := by
  unfold State.writeThCtrl
  repeat' (first
    | with_reducible assumption
    | with_reducible exact Steady.refl _
    | with_reducible refine Steady.ite ?_ ?_
    | with_reducible refine Steady.put ?_ _ _
    | with_reducible refine Steady.mark ?_ _
    | with_reducible refine Steady.writeRun ?_ _ _
    | with_reducible refine Steady.thRestart ?_ _
    | with_reducible refine Steady.andThen ?_ _ (fun _ => ?_))

theorem Steady.writeRing {zs s : State} (hs : Steady zs s) (i a w : Nat) : Steady zs (s.writeRing i a w) := by
  unfold State.writeRing
  repeat' (first
    | with_reducible assumption
    | with_reducible exact Steady.refl _
    | with_reducible refine Steady.ite ?_ ?_
    | with_reducible refine Steady.put ?_ _ _
    | with_reducible refine Steady.mark ?_ _
    | with_reducible refine Steady.modThr ?_ _ _
    | with_reducible refine Steady.storeWord ?_ _ _
    | intro _
    | dsimp only
    | split)

theorem Steady.writeThresher {zs s : State} (hs : Steady zs s) (i a w : Nat) : Steady zs (s.writeThresher i a w) := by
  unfold State.writeThresher
  repeat' (first
    | with_reducible assumption
    | with_reducible exact Steady.refl _
    | with_reducible refine Steady.ite ?_ ?_
    | with_reducible refine Steady.thCommand ?_ _ _ _
    | with_reducible refine Steady.storeWord ?_ _ _
    | with_reducible refine Steady.andThen ?_ _ (fun _ => ?_)
    | with_reducible refine Steady.writeThCtrl ?_ _ _
    | with_reducible refine Steady.writeRing ?_ _ _ _)

theorem Steady.writeUcsCtrl {zs s : State} (hs : Steady zs s) (u w : Nat) : Steady zs (s.writeUcsCtrl u w) := by
  unfold State.writeUcsCtrl
  repeat' (first
    | with_reducible assumption
    | with_reducible exact Steady.refl _
    | with_reducible refine Steady.put ?_ _ _
    | with_reducible refine Steady.ucsLoadEn ?_ _ _
    | with_reducible refine Steady.andThen ?_ _ (fun _ => ?_))

theorem Steady.writeSheaf {zs s : State} (hs : Steady zs s) (v : View) (u a w : Nat) : Steady zs (s.writeSheaf v u a w) := by
  unfold State.writeSheaf
  repeat' (first
    | with_reducible assumption
    | with_reducible exact Steady.refl _
    | with_reducible refine Steady.ite ?_ ?_
    | with_reducible refine Steady.writeXbar ?_ _ _
    | with_reducible refine Steady.ucsData ?_ _ _ _
    | with_reducible refine Steady.ucsFinish ?_ _ _ _ _
    | with_reducible refine Steady.present ?_ _
    | with_reducible refine Steady.storeWord ?_ _ _
    | with_reducible refine Steady.andThen ?_ _ (fun _ => ?_)
    | with_reducible refine Steady.writeUcsCtrl ?_ _ _
    | intro _
    | dsimp only
    | split)

theorem Steady.writeEvin {zs s : State} (hs : Steady zs s) (t w : Nat) : Steady zs (s.writeEvin t w) := by
  unfold State.writeEvin
  repeat' (first
    | with_reducible assumption
    | with_reducible exact Steady.refl _
    | with_reducible refine Steady.foldl ?_ _ ?_
    | with_reducible refine Steady.foldl_fst ?_ _ ?_
    | with_reducible refine Steady.dropLatch ?_ _ _
    | with_reducible refine Steady.setLatch ?_ _ _
    | with_reducible refine Steady.storeWord ?_ _ _
    | with_reducible refine Steady.andThen ?_ _ (fun _ => ?_)
    | intro _
    | dsimp only)

theorem Steady.segBreak {zs s : State} (hs : Steady zs s) (t : Nat) : Steady zs (s.segBreak t) := by
  unfold State.segBreak
  repeat' (first
    | with_reducible assumption
    | with_reducible exact Steady.refl _
    | with_reducible refine Steady.ite ?_ ?_
    | with_reducible refine Steady.mark ?_ _
    | with_reducible refine Steady.modTl ?_ _ _)

theorem Steady.writeSegCtrl {zs s : State} (hs : Steady zs s) (t w : Nat) : Steady zs (s.writeSegCtrl t w) := by
  unfold State.writeSegCtrl
  repeat' (first
    | with_reducible assumption
    | with_reducible exact Steady.refl _
    | with_reducible refine Steady.prime ?_ _ _
    | with_reducible refine Steady.takePrimes ?_ _ _
    | with_reducible refine Steady.storeWord ?_ _ _
    | with_reducible refine Steady.andThen ?_ _ (fun _ => ?_)
    | with_reducible refine Steady.segBreak ?_ _
    | intro _
    | dsimp only)

theorem Steady.writeSegCheck {zs s : State} (hs : Steady zs s) (t w : Nat) : Steady zs (s.writeSegCheck t w) := by
  unfold State.writeSegCheck
  repeat' (first
    | with_reducible assumption
    | with_reducible exact Steady.refl _
    | with_reducible refine Steady.mark ?_ _
    | with_reducible refine Steady.storeWord ?_ _ _
    | with_reducible refine Steady.andThen ?_ _ (fun _ => ?_))

theorem Steady.segCheckDone {zs s : State} (hs : Steady zs s) (t : Nat) : Steady zs (s.segCheckDone t) := by
  unfold State.segCheckDone
  repeat' (first
    | with_reducible assumption
    | with_reducible exact Steady.refl _
    | with_reducible refine Steady.ite ?_ ?_
    | with_reducible refine Steady.put ?_ _ _)

theorem Steady.writeCapCtrl {zs s : State} (hs : Steady zs s) (t w : Nat) : Steady zs (s.writeCapCtrl t w) := by
  unfold State.writeCapCtrl
  repeat' (first
    | with_reducible assumption
    | with_reducible exact Steady.refl _
    | with_reducible refine Steady.autoRearm ?_ _
    | with_reducible refine Steady.writeArm ?_ _
    | with_reducible refine Steady.writeAbort ?_ _
    | with_reducible refine Steady.storeWord ?_ _ _
    | with_reducible refine Steady.andThen ?_ _ (fun _ => ?_))

theorem Steady.writeFqCtrl {zs s : State} (hs : Steady zs s) (t w : Nat) : Steady zs (s.writeFqCtrl t w) := by
  unfold State.writeFqCtrl
  repeat' (first
    | with_reducible assumption
    | with_reducible exact Steady.refl _
    | with_reducible refine Steady.ite ?_ ?_
    | with_reducible refine Steady.put ?_ _ _
    | with_reducible refine Steady.requestFlush ?_ _
    | with_reducible refine Steady.writeDest ?_ _ _
    | with_reducible refine Steady.andThen ?_ _ (fun _ => ?_))

theorem Steady.writeAdcCtrl {zs s : State} (hs : Steady zs s) (t w : Nat) : Steady zs (s.writeAdcCtrl t w) := by
  unfold State.writeAdcCtrl
  repeat' (first
    | with_reducible assumption
    | with_reducible exact Steady.refl _
    | with_reducible refine Steady.afterRef ?_ _ _
    | with_reducible refine Steady.adcTrigger ?_ _ _ _
    | with_reducible refine Steady.adcAbort ?_ _
    | with_reducible refine Steady.storeWord ?_ _ _
    | with_reducible refine Steady.andThen ?_ _ (fun _ => ?_))

theorem Steady.writeTdcCtrl {zs s : State} (hs : Steady zs s) (t w : Nat) : Steady zs (s.writeTdcCtrl t w) := by
  unfold State.writeTdcCtrl
  repeat' (first
    | with_reducible assumption
    | with_reducible exact Steady.refl _
    | with_reducible refine Steady.takeArms ?_ _ _
    | with_reducible refine Steady.tdcArmWrite ?_ _
    | with_reducible refine Steady.tdcAbort ?_ _
    | with_reducible refine Steady.andThen ?_ _ (fun _ => ?_)
    | dsimp only)

theorem Steady.writeTdc {zs s : State} (hs : Steady zs s) (t a w : Nat) : Steady zs (s.writeTdc t a w) := by
  unfold State.writeTdc
  repeat' (first
    | with_reducible assumption
    | with_reducible exact Steady.refl _
    | with_reducible refine Steady.ite ?_ ?_
    | with_reducible refine Steady.storeWord ?_ _ _
    | with_reducible refine Steady.writeTdcCtrl ?_ _ _
    | dsimp only
    | split)

theorem Steady.loadDrawn {zs s : State} (hs : Steady zs s) (load : Option Nat) : Steady zs (s.loadDrawn load).1 := by
  unfold State.loadDrawn
  repeat' (first
    | with_reducible assumption
    | with_reducible exact Steady.refl _
    | with_reducible refine Steady.draw ?_
    | dsimp only
    | split)

theorem Steady.writeRange {zs s : State} (hs : Steady zs s) (t range : Nat) (load : Option Nat) : Steady zs (s.writeRange t range load) := by
  unfold State.writeRange
  repeat' (first
    | with_reducible assumption
    | with_reducible exact Steady.refl _
    | with_reducible refine Steady.ite ?_ ?_
    | with_reducible refine Steady.changeRange ?_ _ _ _
    | with_reducible refine Steady.loadDrawn ?_ _
    | dsimp only
    | split)

theorem Steady.writeEn {zs s : State} (hs : Steady zs s) (t h : Nat) (en : Bool) (load : Option Nat) : Steady zs (s.writeEn t h en load) := by
  unfold State.writeEn
  repeat' (first
    | with_reducible assumption
    | with_reducible exact Steady.refl _
    | with_reducible refine Steady.ite ?_ ?_
    | with_reducible refine Steady.requestEnable ?_ _ _
    | with_reducible refine Steady.disableOutput ?_ _ _ _
    | with_reducible refine Steady.loadDrawn ?_ _)

theorem Steady.writeSrc {zs s : State} (hs : Steady zs s) (t h src : Nat) : Steady zs (s.writeSrc t h src) := by
  unfold State.writeSrc
  repeat' (first
    | with_reducible assumption
    | with_reducible exact Steady.refl _
    | with_reducible refine Steady.ite ?_ ?_
    | with_reducible refine Steady.put ?_ _ _
    | with_reducible refine Steady.setSup ?_ _ _ _
    | with_reducible refine Steady.runChain ?_ _ _)

theorem Steady.writeSupCtrl {zs s : State} (hs : Steady zs s) (t h w : Nat) (load : Option Nat) : Steady zs (s.writeSupCtrl t h w load) := by
  unfold State.writeSupCtrl
  repeat' (first
    | with_reducible assumption
    | with_reducible exact Steady.refl _
    | with_reducible refine Steady.ite ?_ ?_
    | with_reducible refine Steady.put ?_ _ _
    | with_reducible refine Steady.supplyClear ?_ _ _
    | with_reducible refine Steady.writeSpan ?_ _ _
    | with_reducible refine Steady.afterRef ?_ _ _
    | with_reducible refine Steady.andThen ?_ _ (fun _ => ?_)
    | with_reducible refine Steady.writeRange ?_ _ _ _
    | with_reducible refine Steady.writeEn ?_ _ _ _ _
    | with_reducible refine Steady.writeSrc ?_ _ _ _)

theorem Steady.writeCeiling {zs s : State} (hs : Steady zs s) (t h w : Nat) : Steady zs (s.writeCeiling t h w) := by
  unfold State.writeCeiling
  repeat' (first
    | with_reducible assumption
    | with_reducible exact Steady.refl _
    | with_reducible refine Steady.ite ?_ ?_
    | with_reducible refine Steady.supFlag ?_ _ _ _
    | with_reducible refine Steady.recomputeEnergy ?_ _ _
    | with_reducible refine Steady.storeWord ?_ _ _)

theorem Steady.writeWfCtrl {zs s : State} (hs : Steady zs s) (t h w : Nat) : Steady zs (s.writeWfCtrl t h w) := by
  unfold State.writeWfCtrl
  repeat' (first
    | with_reducible assumption
    | with_reducible exact Steady.refl _
    | with_reducible refine Steady.ite ?_ ?_
    | with_reducible refine Steady.mark ?_ _
    | with_reducible refine Steady.wfGo ?_ _ _
    | with_reducible refine Steady.wfStop ?_ _ _
    | with_reducible refine Steady.storeWord ?_ _ _
    | with_reducible refine Steady.andThen ?_ _ (fun _ => ?_)
    | dsimp only
    | split)

theorem Steady.writePlayer {zs s : State} (hs : Steady zs s) (t h a w : Nat) : Steady zs (s.writePlayer t h a w) := by
  unfold State.writePlayer
  repeat' (first
    | with_reducible assumption
    | with_reducible exact Steady.refl _
    | with_reducible refine Steady.ite ?_ ?_
    | with_reducible refine Steady.mark ?_ _
    | with_reducible refine Steady.storeWord ?_ _ _)

theorem Steady.writeSupply {zs s : State} (hs : Steady zs s) (t h a w : Nat) (load : Option Nat) : Steady zs (s.writeSupply t h a w load) := by
  unfold State.writeSupply
  repeat' (first
    | with_reducible assumption
    | with_reducible exact Steady.refl _
    | with_reducible refine Steady.ite ?_ ?_
    | with_reducible refine Steady.put ?_ _ _
    | with_reducible refine Steady.runChain ?_ _ _
    | with_reducible refine Steady.writeCode ?_ _ _ _
    | with_reducible refine Steady.trackVraw ?_
    | with_reducible refine Steady.recomputeEnergy ?_ _ _
    | with_reducible refine Steady.slewWritten ?_ _ _
    | with_reducible refine Steady.storeWord ?_ _ _
    | with_reducible refine Steady.writeSupCtrl ?_ _ _ _ _
    | with_reducible refine Steady.writeCeiling ?_ _ _ _
    | with_reducible refine Steady.writeWfCtrl ?_ _ _ _
    | with_reducible refine Steady.writePlayer ?_ _ _ _ _
    | dsimp only
    | split)

theorem Steady.writeEngine {zs s : State} (hs : Steady zs s) (t a w : Nat) : Steady zs (s.writeEngine t a w) := by
  unfold State.writeEngine
  repeat' (first
    | with_reducible assumption
    | with_reducible exact Steady.refl _
    | with_reducible refine Steady.ite ?_ ?_
    | with_reducible refine Steady.traceSelect ?_ _ _
    | with_reducible refine Steady.apgWrite ?_ _ _ _
    | with_reducible refine Steady.seqCommands ?_ _ _ _ _
    | with_reducible refine Steady.takeArms ?_ _ _
    | with_reducible refine Steady.clearSticky ?_ _ _ _
    | with_reducible refine Steady.writePattern ?_ _ _ _
    | with_reducible refine Steady.writeCondition ?_ _ _ _
    | with_reducible refine Steady.storeWord ?_ _ _
    | with_reducible refine Steady.writeEvin ?_ _ _
    | with_reducible refine Steady.writeSegCtrl ?_ _ _
    | with_reducible refine Steady.writeSegCheck ?_ _ _
    | with_reducible refine Steady.writeCapCtrl ?_ _ _
    | with_reducible refine Steady.writeFqCtrl ?_ _ _
    | with_reducible refine Steady.writeAdcCtrl ?_ _ _
    | with_reducible refine Steady.writeTdc ?_ _ _ _
    | dsimp only
    | split)

theorem Steady.writeTiller {zs s : State} (hs : Steady zs s) (t a w : Nat) (load : Option Nat) : Steady zs (s.writeTiller t a w load) := by
  unfold State.writeTiller
  repeat' (first
    | with_reducible assumption
    | with_reducible exact Steady.refl _
    | with_reducible refine Steady.ite ?_ ?_
    | with_reducible refine Steady.writeSupply ?_ _ _ _ _ _
    | with_reducible refine Steady.writeEngine ?_ _ _ _)

theorem Steady.connects {zs s : State} (hs : Steady zs s) (g : Nat) (b : Bool) : Steady zs (s.connects g b) := by
  unfold State.connects
  repeat' (first
    | with_reducible assumption
    | with_reducible exact Steady.refl _
    | with_reducible refine Steady.ite ?_ ?_
    | with_reducible refine Steady.endInterval ?_ _)

theorem Steady.selfTestOutputs {zs s : State} (hs : Steady zs s) (g : Nat) (before : Bool) : Steady zs (s.selfTestOutputs g before) := by
  unfold State.selfTestOutputs
  repeat' (first
    | with_reducible assumption
    | with_reducible exact Steady.refl _
    | with_reducible refine Steady.ite ?_ ?_
    | with_reducible refine Steady.complement ?_ _ _
    | with_reducible refine Steady.followTie ?_ _
    | dsimp only
    | split)

theorem Steady.writePinCtrl {zs s : State} (hs : Steady zs s) (g w0 : Nat) : Steady zs (s.writePinCtrl g w0) := by
  unfold State.writePinCtrl
  repeat' (first
    | with_reducible assumption
    | with_reducible exact Steady.refl _
    | with_reducible refine Steady.ite ?_ ?_
    | with_reducible refine Steady.put ?_ _ _
    | with_reducible refine Steady.mark ?_ _
    | with_reducible refine Steady.catchUp ?_ _ _
    | with_reducible refine Steady.storeWord ?_ _ _
    | with_reducible refine Steady.andThen ?_ _ (fun _ => ?_)
    | with_reducible refine Steady.connects ?_ _ _
    | with_reducible refine Steady.selfTestOutputs ?_ _ _
    | dsimp only
    | split)

theorem Steady.writePpmu {zs s : State} (hs : Steady zs s) (g w : Nat) : Steady zs (s.writePpmu g w) := by
  unfold State.writePpmu
  repeat' (first
    | with_reducible assumption
    | with_reducible exact Steady.refl _
    | with_reducible refine Steady.ite ?_ ?_
    | with_reducible refine Steady.setPin ?_ _ _
    | with_reducible refine Steady.storeWord ?_ _ _
    | with_reducible refine Steady.connects ?_ _ _)

theorem Steady.writeCmp {zs s : State} (hs : Steady zs s) (g w : Nat) : Steady zs (s.writeCmp g w) := by
  unfold State.writeCmp
  repeat' (first
    | with_reducible assumption
    | with_reducible exact Steady.refl _
    | with_reducible refine Steady.latchFrom ?_ _ _ _ _
    | with_reducible refine Steady.catchUp ?_ _ _
    | dsimp only)

theorem Steady.writePin {zs s : State} (hs : Steady zs s) (g a w : Nat) : Steady zs (s.writePin g a w) := by
  unfold State.writePin
  repeat' (first
    | with_reducible assumption
    | with_reducible exact Steady.refl _
    | with_reducible refine Steady.ite ?_ ?_
    | with_reducible refine Steady.writeLevel ?_ _ _ _
    | with_reducible refine Steady.storeWord ?_ _ _
    | with_reducible refine Steady.writePinCtrl ?_ _ _
    | with_reducible refine Steady.writePpmu ?_ _ _
    | with_reducible refine Steady.writeCmp ?_ _ _
    | dsimp only
    | split)

theorem Steady.dmaAdvance {zs s : State} (hs : Steady zs s) (c : Nat) : Steady zs (s.dmaAdvance c) := by
  unfold State.dmaAdvance
  repeat' (first
    | with_reducible assumption
    | with_reducible exact Steady.refl _
    | with_reducible refine Steady.put ?_ _ _
    | with_reducible refine Steady.setDma ?_ _ _
    | dsimp only)

theorem Steady.dmaResume {zs s : State} (hs : Steady zs s) (c : Nat) : Steady zs (s.dmaResume c) := by
  unfold State.dmaResume
  repeat' (first
    | with_reducible assumption
    | with_reducible exact Steady.refl _
    | with_reducible refine Steady.ite ?_ ?_
    | with_reducible refine Steady.dmaAdvance ?_ _)

theorem Steady.dmaAbort {zs s : State} (hs : Steady zs s) (c : Nat) : Steady zs (s.dmaAbort c) := by
  unfold State.dmaAbort
  repeat' (first
    | with_reducible assumption
    | with_reducible exact Steady.refl _
    | with_reducible refine Steady.ite ?_ ?_
    | with_reducible refine Steady.put ?_ _ _
    | with_reducible refine Steady.setDma ?_ _ _
    | dsimp only
    | split)

theorem Steady.dmaEnable {zs s : State} (hs : Steady zs s) (c : Nat) (en user : Bool) : Steady zs (s.dmaEnable c en user) := by
  unfold State.dmaEnable
  repeat' (first
    | with_reducible assumption
    | with_reducible exact Steady.refl _
    | with_reducible refine Steady.ite ?_ ?_
    | with_reducible refine Steady.put ?_ _ _)

theorem Steady.writeDmaCtrl {zs s : State} (hs : Steady zs s) (v : View) (c w : Nat) : Steady zs (s.writeDmaCtrl v c w) := by
  unfold State.writeDmaCtrl
  repeat' (first
    | with_reducible assumption
    | with_reducible exact Steady.refl _
    | with_reducible refine Steady.andThen ?_ _ (fun _ => ?_)
    | with_reducible refine Steady.dmaResume ?_ _
    | with_reducible refine Steady.dmaAbort ?_ _
    | with_reducible refine Steady.dmaEnable ?_ _ _ _)

theorem Steady.writePcieLoopback {zs s : State} (hs : Steady zs s) (v : View) (w : Nat) : Steady zs (s.writePcieLoopback v w) := by
  unfold State.writePcieLoopback
  repeat' (first
    | with_reducible assumption
    | with_reducible exact Steady.refl _
    | with_reducible refine Steady.ite ?_ ?_
    | with_reducible refine Steady.pcieLinkDown ?_
    | with_reducible refine Steady.storeWord ?_ _ _
    | with_reducible refine Steady.andThen ?_ _ (fun _ => ?_)
    | dsimp only
    | split)

theorem Steady.writeLink {zs s : State} (hs : Steady zs s) (v : View) (a w : Nat) : Steady zs (s.writeLink v a w) := by
  unfold State.writeLink
  repeat' (first
    | with_reducible assumption
    | with_reducible exact Steady.refl _
    | with_reducible refine Steady.ite ?_ ?_
    | with_reducible refine Steady.hmqLevel ?_ _
    | with_reducible refine Steady.settlePort ?_ _ _
    | with_reducible refine Steady.storeWord ?_ _ _
    | with_reducible refine Steady.writeDmaCtrl ?_ _ _ _
    | with_reducible refine Steady.writePcieLoopback ?_ _ _
    | dsimp only
    | split)

theorem Steady.writeMsix {zs s : State} (hs : Steady zs s) (a w : Nat) : Steady zs (s.writeMsix a w) := by
  unfold State.writeMsix
  repeat' (first
    | with_reducible assumption
    | with_reducible exact Steady.refl _
    | with_reducible refine Steady.ite ?_ ?_
    | with_reducible refine Steady.setReg ?_ _ _
    | with_reducible refine Steady.putBit ?_ _ _ _
    | with_reducible refine Steady.sendVector ?_ _)

theorem Steady.timingWrite {zs s : State} (hs : Steady zs s) (t k off w : Nat) : Steady zs (s.timingWrite t k off w) := by
  unfold State.timingWrite
  repeat' (first
    | with_reducible assumption
    | with_reducible exact Steady.refl _
    | with_reducible refine Steady.ite ?_ ?_
    | with_reducible refine Steady.setReg ?_ _ _
    | with_reducible refine Steady.put ?_ _ _)

theorem Steady.writeTable {zs s : State} (hs : Steady zs s) (a w : Nat) : Steady zs (s.writeTable a w) := by
  unfold State.writeTable
  repeat' (first
    | with_reducible assumption
    | with_reducible exact Steady.refl _
    | with_reducible refine Steady.ite ?_ ?_
    | with_reducible refine Steady.setReg ?_ _ _
    | with_reducible refine Steady.takePrimes ?_ _ _
    | with_reducible refine Steady.descriptorWritten ?_ _ _
    | with_reducible refine Steady.timingWrite ?_ _ _ _ _
    | dsimp only
    | split)

theorem Steady.writeOwn {zs s : State} (hs : Steady zs s) (v : View) (a w : Nat) (load : Option Nat) : Steady zs (s.writeOwn v a w load) := by
  unfold State.writeOwn
  repeat' (first
    | with_reducible assumption
    | with_reducible exact Steady.refl _
    | with_reducible refine Steady.ite ?_ ?_
    | with_reducible refine Steady.writeGlobal ?_ _ _ _
    | with_reducible refine Steady.writeStrip ?_ _ _ _
    | with_reducible refine Steady.writeThresher ?_ _ _ _
    | with_reducible refine Steady.writeSheaf ?_ _ _ _ _
    | with_reducible refine Steady.writeTiller ?_ _ _ _ _
    | with_reducible refine Steady.writePin ?_ _ _ _
    | with_reducible refine Steady.writeLink ?_ _ _ _)

theorem Steady.supervisorWrite {zs s : State} (hs : Steady zs s) (v : View) (d a w : Nat) (load : Option Nat) : Steady zs (s.supervisorWrite v d a w load) := by
  unfold State.supervisorWrite
  repeat' (first
    | with_reducible assumption
    | with_reducible exact Steady.refl _
    | with_reducible refine Steady.ite ?_ ?_
    | with_reducible refine Steady.mark ?_ _
    | with_reducible refine Steady.leadConflict ?_ _
    | with_reducible refine Steady.writeOwn ?_ _ _ _ _)

theorem Steady.userWrite {zs s : State} (hs : Steady zs s) (v : View) (d : RegD) (a w : Nat) (load : Option Nat) : Steady zs (s.userWrite v d a w load) := by
  unfold State.userWrite
  repeat' (first
    | with_reducible assumption
    | with_reducible exact Steady.refl _
    | with_reducible refine Steady.ite ?_ ?_
    | with_reducible refine Steady.reportDiscard ?_ _
    | with_reducible refine Steady.writeOwn ?_ _ _ _ _)

theorem Steady.regWriteWith {zs s : State} (hs : Steady zs s) (v : View) (a w : Nat) (load : Option Nat) : Steady zs (s.regWriteWith v a w load) := by
  unfold State.regWriteWith
  repeat' (first
    | with_reducible assumption
    | with_reducible exact Steady.refl _
    | with_reducible refine Steady.ite ?_ ?_
    | with_reducible refine Steady.writeMsix ?_ _ _
    | with_reducible refine Steady.writeTable ?_ _ _
    | with_reducible refine Steady.writeOwn ?_ _ _ _ _
    | with_reducible refine Steady.supervisorWrite ?_ _ _ _ _ _
    | with_reducible refine Steady.userWrite ?_ _ _ _ _ _
    | dsimp only
    | split)

theorem Steady.regWrite {zs s : State} (hs : Steady zs s) (v : View) (a w : Nat) : Steady zs (s.regWrite v a w) := by
  unfold State.regWrite
  repeat' (first
    | with_reducible assumption
    | with_reducible exact Steady.refl _
    | with_reducible refine Steady.regWriteWith ?_ _ _ _ _)

theorem Steady.wordWrite {zs s : State} (hs : Steady zs s) (v : View) (a : Nat) (w : Word) (be : BitVec 4) : Steady zs (s.wordWrite v a w be) := by
  unfold State.wordWrite
  repeat' (first
    | with_reducible assumption
    | with_reducible exact Steady.refl _
    | with_reducible refine Steady.ite ?_ ?_
    | with_reducible refine Steady.regWrite ?_ _ _ _
    | dsimp only
    | split)

theorem Steady.busWrite {zs s : State} (hs : Steady zs s) (v : View) (a : Nat) (w : WriteData) : Steady zs (s.busWrite v a w) := by
  unfold State.busWrite
  repeat' (first
    | with_reducible assumption
    | with_reducible exact Steady.refl _
    | with_reducible refine Steady.wordWrite ?_ _ _ _ _
    | dsimp only
    | split)

theorem Steady.mergeFieldWith {zs s : State} (hs : Steady zs s) (v : View) (f : Field) (val : Nat) (load : Option Nat) : Steady zs (s.mergeFieldWith v f val load) := by
  unfold State.mergeFieldWith
  repeat' (first
    | with_reducible assumption
    | with_reducible exact Steady.refl _
    | with_reducible refine Steady.foldl ?_ _ ?_
    | with_reducible refine Steady.foldl_fst ?_ _ ?_
    | with_reducible refine Steady.regWriteWith ?_ _ _ _ _
    | intro _
    | dsimp only
    | split)

theorem Steady.mergeField {zs s : State} (hs : Steady zs s) (v : View) (f : Field) (val : Nat) : Steady zs (s.mergeField v f val) := by
  unfold State.mergeField
  repeat' (first
    | with_reducible assumption
    | with_reducible exact Steady.refl _
    | with_reducible refine Steady.mergeFieldWith ?_ _ _ _ _)

end Sys2Proof.Machine
end

