-- ==== Sys2Proof/Laws/SteadyDma.lean ====
section
/-! SUPPORT. The operations of Machine/Dma.lean are steady. -/

namespace Sys2Proof.Machine

theorem Steady.dmaPoison {zs s : State} (hs : Steady zs s) (c : Nat) : Steady zs (s.dmaPoison c) := by
  unfold State.dmaPoison
  repeat' (first
    | with_reducible assumption
    | with_reducible exact Steady.refl _
    | with_reducible refine Steady.mark ?_ _
    | with_reducible refine Steady.setDma ?_ _ _)

theorem Steady.dmaFinish {zs s : State} (hs : Steady zs s) (c code : Nat) (d : DmaDesc) : Steady zs (s.dmaFinish c code d) := by
  unfold State.dmaFinish
  repeat' (first
    | with_reducible assumption
    | with_reducible exact Steady.refl _
    | with_reducible refine Steady.ite ?_ ?_
    | with_reducible refine Steady.put ?_ _ _
    | with_reducible refine Steady.mark ?_ _
    | with_reducible refine Steady.setDma ?_ _ _
    | with_reducible refine Steady.source ?_ _
    | with_reducible refine Steady.dmaPost ?_ _ _ _ _
    | with_reducible refine Steady.dmaAdvance ?_ _
    | dsimp only
    | split
    | with_reducible refine Steady.sentHost ?_ _
    | with_reducible refine Steady.update ?_ rfl rfl)

theorem Steady.poisonedBytes {zs s : State} (hs : Steady zs s) (a n : Nat) : Steady zs (s.poisonedBytes a n).1 := by
  unfold State.poisonedBytes
  repeat' (first
    | with_reducible assumption
    | with_reducible exact Steady.refl _
    | with_reducible refine Steady.ite ?_ ?_
    | with_reducible refine Steady.ite_fst ?_ ?_
    | with_reducible refine Steady.foldl ?_ _ ?_
    | with_reducible refine Steady.foldl_fst ?_ _ ?_
    | with_reducible refine Steady.lineCheck ?_ _ _
    | intro _
    | dsimp only
    | split)

theorem Steady.dmaSend {zs s : State} (hs : Steady zs s) (c : Nat) (d : DmaDesc) : Steady zs (s.dmaSend c d) := by
  unfold State.dmaSend
  repeat' (first
    | with_reducible assumption
    | with_reducible exact Steady.refl _
    | with_reducible refine Steady.ite ?_ ?_
    | with_reducible refine Steady.setDma ?_ _ _
    | with_reducible refine Steady.tag ?_ _ _
    | with_reducible refine Steady.dmaPoison ?_ _
    | with_reducible refine Steady.poisonedBytes ?_ _ _
    | dsimp only
    | split
    | with_reducible refine Steady.update ?_ rfl rfl)

theorem Steady.dmaSendAll {zs s : State} (hs : Steady zs s) (d : DmaDesc) (c k : Nat) : Steady zs (State.dmaSendAll d c k s) := by
  induction k generalizing s with
  | zero => exact hs
  | succ k ih => exact Steady.ite (ih (Steady.dmaSend hs _ _)) hs

theorem Steady.memAckArrive {zs s : State} (hs : Steady zs s) (x y tag : Nat) (window : Bool) : Steady zs (s.memAckArrive x y tag window) := by
  unfold State.memAckArrive
  repeat' (first
    | with_reducible assumption
    | with_reducible exact Steady.refl _
    | with_reducible refine Steady.ite ?_ ?_
    | with_reducible refine Steady.put ?_ _ _
    | with_reducible refine Steady.setDma ?_ _ _
    | with_reducible refine Steady.tag ?_ _ _
    | with_reducible refine Steady.takeMesh ?_ _
    | with_reducible refine Steady.dmaFinish ?_ _ _ _
    | with_reducible refine Steady.dmaSendAll ?_ _ _ _
    | intro _
    | dsimp only
    | split)

theorem Steady.dmaRemoteTimeout {zs s : State} (hs : Steady zs s) (c : Nat) : Steady zs (s.dmaRemoteTimeout c) := by
  unfold State.dmaRemoteTimeout
  repeat' (first
    | with_reducible assumption
    | with_reducible exact Steady.refl _
    | with_reducible refine Steady.advTo ?_ _
    | with_reducible refine Steady.dmaFinish ?_ _ _ _
    | dsimp only
    | split)

theorem Steady.dmaRegWrites {zs s : State} (hs : Steady zs s) (v : View) (a : Nat) (l : List Nat) : Steady zs (State.dmaRegWrites v a l s) := by
  fun_induction State.dmaRegWrites v a l s with
  | case1 a b0 b1 b2 b3 r s ih => exact ih (Steady.regWrite hs _ _ _)
  | case2 => exact hs

theorem Steady.dmaRegReads {zs s : State} (hs : Steady zs s) (v : View) (addr : Nat → Nat) (n : Nat) : Steady zs (State.dmaRegReads v addr s n).1 :=
  Steady.foldl_fst (p := (s, [])) hs _ fun p _ => Steady.regRead (Steady.refl p.1) _ _

theorem Steady.dmaStore {zs s : State} (hs : Steady zs s) (n : Nat) (d : DmaDesc) : Steady zs (s.dmaStore n d) := by
  unfold State.dmaStore
  repeat' (first
    | with_reducible assumption
    | with_reducible exact Steady.refl _
    | with_reducible refine Steady.foldl ?_ _ ?_
    | with_reducible refine Steady.foldl_fst ?_ _ ?_
    | with_reducible refine Steady.memPut ?_ _ _ _
    | intro _
    | dsimp only)

theorem Steady.dmaIn {zs s : State} (hs : Steady zs s) (c n : Nat) (d : DmaDesc) : Steady zs (s.dmaIn c n d) := by
  unfold State.dmaIn
  repeat' (first
    | with_reducible assumption
    | with_reducible exact Steady.refl _
    | with_reducible refine Steady.ite ?_ ?_
    | with_reducible refine Steady.bumpBy ?_ _ _
    | with_reducible refine Steady.dmaPoison ?_ _
    | with_reducible refine Steady.dmaRegWrites ?_ _ _ _
    | with_reducible refine Steady.dmaStore ?_ _ _
    | intro _
    | dsimp only
    | split)

theorem Steady.dmaOutLine {zs s : State} (hs : Steady zs s) (c src dst : Nat) (n : Nat) : Steady zs (State.dmaOutLine c src dst s n) := by
  unfold State.dmaOutLine
  repeat' (first
    | with_reducible assumption
    | with_reducible exact Steady.refl _
    | with_reducible refine Steady.ite ?_ ?_
    | with_reducible refine Steady.hostRead ?_ _ _
    | with_reducible refine Steady.bump ?_ _
    | with_reducible refine Steady.dmaPoison ?_ _
    | dsimp only
    | split
    | with_reducible refine Steady.sentHost ?_ _)

theorem Steady.dmaOut {zs s : State} (hs : Steady zs s) (c n : Nat) (d : DmaDesc) : Steady zs (s.dmaOut c n d) := by
  unfold State.dmaOut
  repeat' (first
    | with_reducible assumption
    | with_reducible exact Steady.refl _
    | with_reducible refine Steady.ite ?_ ?_
    | with_reducible refine Steady.foldl ?_ _ ?_
    | with_reducible refine Steady.foldl_fst ?_ _ ?_
    | with_reducible refine Steady.dmaRegReads ?_ _ _ _
    | with_reducible refine Steady.dmaOutLine ?_ _ _ _ _
    | intro _
    | dsimp only
    | split
    | with_reducible refine Steady.sentHost ?_ _)

theorem Steady.dmaMove {zs s : State} (hs : Steady zs s) (c n : Nat) (d : DmaDesc) : Steady zs (s.dmaMove c n d) := by
  unfold State.dmaMove
  repeat' (first
    | with_reducible assumption
    | with_reducible exact Steady.refl _
    | with_reducible refine Steady.ite ?_ ?_
    | with_reducible refine Steady.put ?_ _ _
    | with_reducible refine Steady.dmaIn ?_ _ _ _
    | with_reducible refine Steady.dmaOut ?_ _ _ _)

theorem Steady.dmaFail {zs s : State} (hs : Steady zs s) (c code n : Nat) (d : DmaDesc) : Steady zs (s.dmaFail c code n d) := by
  unfold State.dmaFail
  repeat' (first
    | with_reducible assumption
    | with_reducible exact Steady.refl _
    | with_reducible refine Steady.ite ?_ ?_
    | with_reducible refine Steady.denyCtx ?_ _
    | with_reducible refine Steady.dmaFinish ?_ _ _ _
    | with_reducible refine Steady.dmaMove ?_ _ _ _)

theorem Steady.dmaStart {zs s : State} (hs : Steady zs s) (c : Nat) (d : DmaDesc) : Steady zs (s.dmaStart c d) := by
  unfold State.dmaStart
  repeat' (first
    | with_reducible assumption
    | with_reducible exact Steady.refl _
    | with_reducible refine Steady.ite ?_ ?_
    | with_reducible refine Steady.put ?_ _ _
    | with_reducible refine Steady.setDma ?_ _ _
    | with_reducible refine Steady.dmaFinish ?_ _ _ _
    | with_reducible refine Steady.dmaSendAll ?_ _ _ _
    | dsimp only
    | split)

theorem Steady.dmaTake {zs s t : State} {c : Nat} {d : DmaDesc} (e : s.dmaTake c d = .next t) (hs : Steady zs s) : Steady zs t := by
  unfold State.dmaTake at e
  split_ifs at e
  · cases e
    exact hs
  · cases e
    exact Steady.dmaStart hs _ _

theorem Steady.dmaDone {zs s : State} (hs : Steady zs s) (c : Nat) : Steady zs (s.dmaDone c) := by
  unfold State.dmaDone
  repeat' (first
    | with_reducible assumption
    | with_reducible exact Steady.refl _
    | with_reducible refine Steady.ite ?_ ?_
    | with_reducible refine Steady.dmaFinish ?_ _ _ _
    | with_reducible refine Steady.dmaMove ?_ _ _ _
    | with_reducible refine Steady.dmaFail ?_ _ _ _ _
    | dsimp only
    | split)

theorem Steady.dmaTransferError {zs s : State} (hs : Steady zs s) (c : Nat) (why : TransferError) (moved : Nat) : Steady zs (s.dmaTransferError c why moved) := by
  unfold State.dmaTransferError
  repeat' (first
    | with_reducible assumption
    | with_reducible exact Steady.refl _
    | with_reducible refine Steady.ite ?_ ?_
    | with_reducible refine Steady.bump ?_ _
    | with_reducible refine Steady.dmaFail ?_ _ _ _ _
    | dsimp only
    | split)

end Sys2Proof.Machine
end

