-- ==== Sys2Proof/Laws/SteadyMsp.lean ====
section
/-! SUPPORT. The operations of Machine/Msp.lean are steady. -/

namespace Sys2Proof.Machine

theorem Steady.mspOvf {zs s : State} (hs : Steady zs s) : Steady zs (s.mspOvf) := by
  unfold State.mspOvf
  repeat' (first
    | with_reducible assumption
    | with_reducible exact Steady.refl _
    | with_reducible refine Steady.mark ?_ _
    | with_reducible refine Steady.source ?_ _)

theorem Steady.mspWordRead {zs s : State} (hs : Steady zs s) (e a : Nat) : Steady zs (s.mspWordRead e a).1 := by
  unfold State.mspWordRead
  repeat' (first
    | with_reducible assumption
    | with_reducible exact Steady.refl _
    | with_reducible refine Steady.ite ?_ ?_
    | with_reducible refine Steady.ite_fst ?_ ?_
    | with_reducible refine Steady.regRead ?_ _ _
    | with_reducible refine Steady.mspOvf ?_)

theorem Steady.mspWordWrite {zs s : State} (hs : Steady zs s) (e a w : Nat) : Steady zs (s.mspWordWrite e a w) := by
  unfold State.mspWordWrite
  repeat' (first
    | with_reducible assumption
    | with_reducible exact Steady.refl _
    | with_reducible refine Steady.ite ?_ ?_
    | with_reducible refine Steady.regWrite ?_ _ _ _
    | with_reducible refine Steady.mspOvf ?_)

theorem Steady.mspReads {zs s : State} (hs : Steady zs s) (e k a : Nat) : Steady zs (State.mspReads e k a s).1 := by
  induction k generalizing s a with
  | zero => exact hs
  | succ k ih => exact ih (Steady.mspWordRead hs _ _) _

theorem Steady.mspWrites {zs s : State} (hs : Steady zs s) (e : Nat) (l : List Word) (a : Nat) : Steady zs (State.mspWrites e l a s) := by
  induction l generalizing s a with
  | nil => exact hs
  | cons w r ih => exact ih (Steady.mspWordWrite hs _ _ _) _

theorem Steady.mspPrefetch {zs s : State} (hs : Steady zs s) (x : MspTrans) : Steady zs (s.mspPrefetch x) := by
  unfold State.mspPrefetch
  repeat' (first
    | with_reducible assumption
    | with_reducible exact Steady.refl _
    | with_reducible refine Steady.ite ?_ ?_
    | with_reducible refine Steady.mark ?_ _
    | with_reducible refine Steady.regRead ?_ _ _)

theorem Steady.mspReadPart {zs s : State} (hs : Steady zs s) (x : MspTrans) : Steady zs (s.mspReadPart x) := by
  unfold State.mspReadPart
  repeat' (first
    | with_reducible assumption
    | with_reducible exact Steady.refl _
    | with_reducible refine Steady.ite ?_ ?_
    | with_reducible refine Steady.mark ?_ _
    | with_reducible refine Steady.clocked ?_ ?_
    | with_reducible refine Steady.mspReads ?_ _ _ _
    | with_reducible refine Steady.mspPrefetch ?_ _
    | dsimp only
    | split
    | with_reducible refine Steady.update ?_ rfl rfl)

theorem Steady.mspWritePart {zs s : State} (hs : Steady zs s) (x : MspTrans) : Steady zs (s.mspWritePart x) := by
  unfold State.mspWritePart
  repeat' (first
    | with_reducible assumption
    | with_reducible exact Steady.refl _
    | with_reducible refine Steady.mspWrites ?_ _ _ _)

theorem Steady.mspTransaction {zs s : State} (hs : Steady zs s) (x : MspTrans) : Steady zs (s.mspTransaction x) := by
  unfold State.mspTransaction
  repeat' (first
    | with_reducible assumption
    | with_reducible exact Steady.refl _
    | with_reducible refine Steady.ite ?_ ?_
    | with_reducible refine Steady.put ?_ _ _
    | with_reducible refine Steady.mark ?_ _
    | with_reducible refine Steady.bump ?_ _
    | with_reducible refine Steady.mspReadPart ?_ _
    | with_reducible refine Steady.mspWritePart ?_ _
    | dsimp only
    | split
    | with_reducible refine Steady.update ?_ rfl rfl)

end Sys2Proof.Machine
end

