-- ==== Sys2Proof/Laws/SteadyAnalog.lean ====
section
/-! SUPPORT. The operations of Machine/Analog.lean are steady. -/

namespace Sys2Proof.Machine

theorem Steady.rangeHandover {zs s : State} (hs : Steady zs s) (t : Nat) : Steady zs (s.rangeHandover t) := by
  unfold State.rangeHandover
  repeat' (first
    | with_reducible assumption
    | with_reducible exact Steady.refl _
    | with_reducible refine Steady.setSup ?_ _ _ _
    | with_reducible refine Steady.advTo ?_ _
    | dsimp only
    | split)

theorem Steady.rangeOldDisconnect {zs s : State} (hs : Steady zs s) (t microamps : Nat) : Steady zs (s.rangeOldDisconnect t microamps) := by
  unfold State.rangeOldDisconnect
  repeat' (first
    | with_reducible assumption
    | with_reducible exact Steady.refl _
    | with_reducible refine Steady.put ?_ _ _
    | with_reducible refine Steady.setSup ?_ _ _ _
    | with_reducible refine Steady.advTo ?_ _
    | with_reducible refine Steady.changeRange ?_ _ _ _
    | dsimp only
    | split)

theorem Steady.settleWindowEnd {zs s : State} (hs : Steady zs s) (t : Nat) : Steady zs (s.settleWindowEnd t) := by
  unfold State.settleWindowEnd
  repeat' (first
    | with_reducible assumption
    | with_reducible exact Steady.refl _
    | with_reducible refine Steady.put ?_ _ _
    | with_reducible refine Steady.setSup ?_ _ _ _
    | with_reducible refine Steady.advTo ?_ _
    | dsimp only
    | split)

theorem Steady.senseOpen {zs s : State} (hs : Steady zs s) (t : Nat) : Steady zs (s.senseOpen t) := by
  unfold State.senseOpen
  repeat' (first
    | with_reducible assumption
    | with_reducible exact Steady.refl _
    | with_reducible refine Steady.ite ?_ ?_
    | with_reducible refine Steady.mark ?_ _)

theorem Steady.dropout {zs s : State} (hs : Steady zs s) (t : Nat) : Steady zs (s.dropout t) := by
  unfold State.dropout
  repeat' (first
    | with_reducible assumption
    | with_reducible exact Steady.refl _
    | with_reducible refine Steady.ite ?_ ?_
    | with_reducible refine Steady.supFlag ?_ _ _ _)

theorem Steady.enableAdmit {zs s : State} (hs : Steady zs s) (t h : Nat) : Steady zs (s.enableAdmit t h) := by
  unfold State.enableAdmit
  repeat' (first
    | with_reducible assumption
    | with_reducible exact Steady.refl _
    | with_reducible refine Steady.ite ?_ ?_
    | with_reducible refine Steady.advTo ?_ _
    | with_reducible refine Steady.enableOutput ?_ _ _
    | intro _
    | dsimp only
    | split)

theorem Steady.wfFetch {zs s : State} (hs : Steady zs s) (t h line : Nat) : Steady zs (s.wfFetch t h line) := by
  unfold State.wfFetch
  repeat' (first
    | with_reducible assumption
    | with_reducible exact Steady.refl _
    | with_reducible refine Steady.ite ?_ ?_
    | with_reducible refine Steady.foldl ?_ _ ?_
    | with_reducible refine Steady.foldl_fst ?_ _ ?_
    | with_reducible refine Steady.setSup ?_ _ _ _
    | with_reducible refine Steady.dramCheck ?_ _ _)

theorem Steady.driverLimit {zs s : State} (hs : Steady zs s) (g : Nat) : Steady zs (s.driverLimit g) := by
  unfold State.driverLimit
  repeat' (first
    | with_reducible assumption
    | with_reducible exact Steady.refl _
    | with_reducible refine Steady.ite ?_ ?_
    | with_reducible refine Steady.mark ?_ _
    | with_reducible refine Steady.bump ?_ _
    | with_reducible refine Steady.raiseLine ?_ _
    | dsimp only
    | split)

theorem Steady.ppmuLimit {zs s : State} (hs : Steady zs s) (g : Nat) : Steady zs (s.ppmuLimit g) := by
  unfold State.ppmuLimit
  repeat' (first
    | with_reducible assumption
    | with_reducible exact Steady.refl _
    | with_reducible refine Steady.ite ?_ ?_
    | with_reducible refine Steady.mark ?_ _
    | dsimp only
    | split)

theorem Steady.cmpSettled {zs s : State} (hs : Steady zs s) (g : Nat) (hi lo : CmpInput) : Steady zs (s.cmpSettled g hi lo) := by
  unfold State.cmpSettled
  repeat' (first
    | with_reducible assumption
    | with_reducible exact Steady.refl _
    | with_reducible refine Steady.put ?_ _ _
    | with_reducible refine Steady.resolveInput ?_ _ _ _)

theorem Steady.inputSet {zs s : State} (hs : Steady zs s) (t j : Nat) : Steady zs (s.inputSet t j) := by
  unfold State.inputSet
  repeat' (first
    | with_reducible assumption
    | with_reducible exact Steady.refl _
    | with_reducible refine Steady.ite ?_ ?_
    | with_reducible refine Steady.setLatch ?_ _ _
    | dsimp only
    | split
    | with_reducible refine Steady.update ?_ rfl rfl)

end Sys2Proof.Machine
end

