-- ==== Sys2Proof/Laws/Units.lean ====
section
/-! SUPPORT. Units: what an update of one unit leaves of that unit, of the other units of its kind and of the registers, and that a
register update leaves every unit. -/

namespace Sys2Proof.Machine.State

@[simp] theorem tl_setTl_same (s : State) (n : Nat) (x : Tiller) : (s.setTl n x).tl n = x := storeGet_storeSet_same _ _ _
theorem tl_setTl_other (s : State) {n m : Nat} (x : Tiller) (h : m ≠ n) : (s.setTl n x).tl m = s.tl m := storeGet_storeSet_other _ _ h
@[simp] theorem reg_setTl (s : State) (n : Nat) (x : Tiller) : (s.setTl n x).reg = s.reg := rfl
@[simp] theorem get_setTl (s : State) (n : Nat) (x : Tiller) : (s.setTl n x).get = s.get := rfl
@[simp] theorem tl_setReg (s : State) (a : Nat) (v : Word) : (s.setReg a v).tl = s.tl := rfl
@[simp] theorem tl_put (s : State) (f : Field) (v : Nat) : (s.put f v).tl = s.tl := rfl
@[simp] theorem tl_advTo (s : State) (k : Nat) : (s.advTo k).tl = s.tl := by unfold advTo; split <;> rfl

@[simp] theorem cmp_setCmp_same (s : State) (n : Nat) (x : Compare) : (s.setCmp n x).cmp n = x := storeGet_storeSet_same _ _ _
theorem cmp_setCmp_other (s : State) {n m : Nat} (x : Compare) (h : m ≠ n) : (s.setCmp n x).cmp m = s.cmp m := storeGet_storeSet_other _ _ h
@[simp] theorem reg_setCmp (s : State) (n : Nat) (x : Compare) : (s.setCmp n x).reg = s.reg := rfl
@[simp] theorem get_setCmp (s : State) (n : Nat) (x : Compare) : (s.setCmp n x).get = s.get := rfl
@[simp] theorem cmp_setReg (s : State) (a : Nat) (v : Word) : (s.setReg a v).cmp = s.cmp := rfl
@[simp] theorem cmp_put (s : State) (f : Field) (v : Nat) : (s.put f v).cmp = s.cmp := rfl
@[simp] theorem cmp_advTo (s : State) (k : Nat) : (s.advTo k).cmp = s.cmp := by unfold advTo; split <;> rfl

@[simp] theorem fq_setFq_same (s : State) (n : Nat) (x : FailFifo) : (s.setFq n x).fq n = x := storeGet_storeSet_same _ _ _
theorem fq_setFq_other (s : State) {n m : Nat} (x : FailFifo) (h : m ≠ n) : (s.setFq n x).fq m = s.fq m := storeGet_storeSet_other _ _ h
@[simp] theorem reg_setFq (s : State) (n : Nat) (x : FailFifo) : (s.setFq n x).reg = s.reg := rfl
@[simp] theorem get_setFq (s : State) (n : Nat) (x : FailFifo) : (s.setFq n x).get = s.get := rfl
@[simp] theorem fq_setReg (s : State) (a : Nat) (v : Word) : (s.setReg a v).fq = s.fq := rfl
@[simp] theorem fq_put (s : State) (f : Field) (v : Nat) : (s.put f v).fq = s.fq := rfl
@[simp] theorem fq_advTo (s : State) (k : Nat) : (s.advTo k).fq = s.fq := by unfold advTo; split <;> rfl

@[simp] theorem cap_setCap_same (s : State) (n : Nat) (x : Capture) : (s.setCap n x).cap n = x := storeGet_storeSet_same _ _ _
theorem cap_setCap_other (s : State) {n m : Nat} (x : Capture) (h : m ≠ n) : (s.setCap n x).cap m = s.cap m := storeGet_storeSet_other _ _ h
@[simp] theorem reg_setCap (s : State) (n : Nat) (x : Capture) : (s.setCap n x).reg = s.reg := rfl
@[simp] theorem get_setCap (s : State) (n : Nat) (x : Capture) : (s.setCap n x).get = s.get := rfl
@[simp] theorem cap_setReg (s : State) (a : Nat) (v : Word) : (s.setReg a v).cap = s.cap := rfl
@[simp] theorem cap_put (s : State) (f : Field) (v : Nat) : (s.put f v).cap = s.cap := rfl
@[simp] theorem cap_advTo (s : State) (k : Nat) : (s.advTo k).cap = s.cap := by unfold advTo; split <;> rfl

@[simp] theorem lvl_setLvl_same (s : State) (n : Nat) (x : Levels) : (s.setLvl n x).lvl n = x := storeGet_storeSet_same _ _ _
theorem lvl_setLvl_other (s : State) {n m : Nat} (x : Levels) (h : m ≠ n) : (s.setLvl n x).lvl m = s.lvl m := storeGet_storeSet_other _ _ h
@[simp] theorem reg_setLvl (s : State) (n : Nat) (x : Levels) : (s.setLvl n x).reg = s.reg := rfl
@[simp] theorem get_setLvl (s : State) (n : Nat) (x : Levels) : (s.setLvl n x).get = s.get := rfl
@[simp] theorem lvl_setReg (s : State) (a : Nat) (v : Word) : (s.setReg a v).lvl = s.lvl := rfl
@[simp] theorem lvl_put (s : State) (f : Field) (v : Nat) : (s.put f v).lvl = s.lvl := rfl
@[simp] theorem lvl_advTo (s : State) (k : Nat) : (s.advTo k).lvl = s.lvl := by unfold advTo; split <;> rfl

@[simp] theorem strm_setStrm_same (s : State) (n : Nat) (x : Stream) : (s.setStrm n x).strm n = x := storeGet_storeSet_same _ _ _
theorem strm_setStrm_other (s : State) {n m : Nat} (x : Stream) (h : m ≠ n) : (s.setStrm n x).strm m = s.strm m := storeGet_storeSet_other _ _ h
@[simp] theorem reg_setStrm (s : State) (n : Nat) (x : Stream) : (s.setStrm n x).reg = s.reg := rfl
@[simp] theorem get_setStrm (s : State) (n : Nat) (x : Stream) : (s.setStrm n x).get = s.get := rfl
@[simp] theorem strm_setReg (s : State) (a : Nat) (v : Word) : (s.setReg a v).strm = s.strm := rfl
@[simp] theorem strm_put (s : State) (f : Field) (v : Nat) : (s.put f v).strm = s.strm := rfl
@[simp] theorem strm_advTo (s : State) (k : Nat) : (s.advTo k).strm = s.strm := by unfold advTo; split <;> rfl

@[simp] theorem pin_setPin_same (s : State) (n : Nat) (x : Pin) : (s.setPin n x).pin n = x := storeGet_storeSet_same _ _ _
theorem pin_setPin_other (s : State) {n m : Nat} (x : Pin) (h : m ≠ n) : (s.setPin n x).pin m = s.pin m := storeGet_storeSet_other _ _ h
@[simp] theorem reg_setPin (s : State) (n : Nat) (x : Pin) : (s.setPin n x).reg = s.reg := rfl
@[simp] theorem get_setPin (s : State) (n : Nat) (x : Pin) : (s.setPin n x).get = s.get := rfl
@[simp] theorem pin_setReg (s : State) (a : Nat) (v : Word) : (s.setReg a v).pin = s.pin := rfl
@[simp] theorem pin_put (s : State) (f : Field) (v : Nat) : (s.put f v).pin = s.pin := rfl
@[simp] theorem pin_advTo (s : State) (k : Nat) : (s.advTo k).pin = s.pin := by unfold advTo; split <;> rfl

@[simp] theorem rdv_setRdv_same (s : State) (n : Nat) (x : Rdv) : (s.setRdv n x).rdv n = x := storeGet_storeSet_same _ _ _
theorem rdv_setRdv_other (s : State) {n m : Nat} (x : Rdv) (h : m ≠ n) : (s.setRdv n x).rdv m = s.rdv m := storeGet_storeSet_other _ _ h
@[simp] theorem reg_setRdv (s : State) (n : Nat) (x : Rdv) : (s.setRdv n x).reg = s.reg := rfl
@[simp] theorem get_setRdv (s : State) (n : Nat) (x : Rdv) : (s.setRdv n x).get = s.get := rfl
@[simp] theorem rdv_setReg (s : State) (a : Nat) (v : Word) : (s.setReg a v).rdv = s.rdv := rfl
@[simp] theorem rdv_put (s : State) (f : Field) (v : Nat) : (s.put f v).rdv = s.rdv := rfl
@[simp] theorem rdv_advTo (s : State) (k : Nat) : (s.advTo k).rdv = s.rdv := by unfold advTo; split <;> rfl

@[simp] theorem calTl_setCalTl_same (s : State) (n : Nat) (x : CalTiller) : (s.setCalTl n x).calTl n = x := storeGet_storeSet_same _ _ _
theorem calTl_setCalTl_other (s : State) {n m : Nat} (x : CalTiller) (h : m ≠ n) : (s.setCalTl n x).calTl m = s.calTl m := storeGet_storeSet_other _ _ h
@[simp] theorem reg_setCalTl (s : State) (n : Nat) (x : CalTiller) : (s.setCalTl n x).reg = s.reg := rfl
@[simp] theorem get_setCalTl (s : State) (n : Nat) (x : CalTiller) : (s.setCalTl n x).get = s.get := rfl
@[simp] theorem calTl_setReg (s : State) (a : Nat) (v : Word) : (s.setReg a v).calTl = s.calTl := rfl
@[simp] theorem calTl_put (s : State) (f : Field) (v : Nat) : (s.put f v).calTl = s.calTl := rfl
@[simp] theorem calTl_advTo (s : State) (k : Nat) : (s.advTo k).calTl = s.calTl := by unfold advTo; split <;> rfl

@[simp] theorem adc_setAdc_same (s : State) (n : Nat) (x : Adc) : (s.setAdc n x).adc n = x := storeGet_storeSet_same _ _ _
theorem adc_setAdc_other (s : State) {n m : Nat} (x : Adc) (h : m ≠ n) : (s.setAdc n x).adc m = s.adc m := storeGet_storeSet_other _ _ h
@[simp] theorem reg_setAdc (s : State) (n : Nat) (x : Adc) : (s.setAdc n x).reg = s.reg := rfl
@[simp] theorem get_setAdc (s : State) (n : Nat) (x : Adc) : (s.setAdc n x).get = s.get := rfl
@[simp] theorem adc_setReg (s : State) (a : Nat) (v : Word) : (s.setReg a v).adc = s.adc := rfl
@[simp] theorem adc_put (s : State) (f : Field) (v : Nat) : (s.put f v).adc = s.adc := rfl
@[simp] theorem adc_advTo (s : State) (k : Nat) : (s.advTo k).adc = s.adc := by unfold advTo; split <;> rfl

@[simp] theorem tdc_setTdc_same (s : State) (n : Nat) (x : Tdc) : (s.setTdc n x).tdc n = x := storeGet_storeSet_same _ _ _
theorem tdc_setTdc_other (s : State) {n m : Nat} (x : Tdc) (h : m ≠ n) : (s.setTdc n x).tdc m = s.tdc m := storeGet_storeSet_other _ _ h
@[simp] theorem reg_setTdc (s : State) (n : Nat) (x : Tdc) : (s.setTdc n x).reg = s.reg := rfl
@[simp] theorem get_setTdc (s : State) (n : Nat) (x : Tdc) : (s.setTdc n x).get = s.get := rfl
@[simp] theorem tdc_setReg (s : State) (a : Nat) (v : Word) : (s.setReg a v).tdc = s.tdc := rfl
@[simp] theorem tdc_put (s : State) (f : Field) (v : Nat) : (s.put f v).tdc = s.tdc := rfl
@[simp] theorem tdc_advTo (s : State) (k : Nat) : (s.advTo k).tdc = s.tdc := by unfold advTo; split <;> rfl

@[simp] theorem strip_setStrip_same (s : State) (n : Nat) (x : Strip) : (s.setStrip n x).strip n = x := storeGet_storeSet_same _ _ _
theorem strip_setStrip_other (s : State) {n m : Nat} (x : Strip) (h : m ≠ n) : (s.setStrip n x).strip m = s.strip m := storeGet_storeSet_other _ _ h
@[simp] theorem reg_setStrip (s : State) (n : Nat) (x : Strip) : (s.setStrip n x).reg = s.reg := rfl
@[simp] theorem get_setStrip (s : State) (n : Nat) (x : Strip) : (s.setStrip n x).get = s.get := rfl
@[simp] theorem strip_setReg (s : State) (a : Nat) (v : Word) : (s.setReg a v).strip = s.strip := rfl
@[simp] theorem strip_put (s : State) (f : Field) (v : Nat) : (s.put f v).strip = s.strip := rfl
@[simp] theorem strip_advTo (s : State) (k : Nat) : (s.advTo k).strip = s.strip := by unfold advTo; split <;> rfl

@[simp] theorem thr_setThr_same (s : State) (n : Nat) (x : Thresher) : (s.setThr n x).thr n = x := storeGet_storeSet_same _ _ _
theorem thr_setThr_other (s : State) {n m : Nat} (x : Thresher) (h : m ≠ n) : (s.setThr n x).thr m = s.thr m := storeGet_storeSet_other _ _ h
@[simp] theorem reg_setThr (s : State) (n : Nat) (x : Thresher) : (s.setThr n x).reg = s.reg := rfl
@[simp] theorem get_setThr (s : State) (n : Nat) (x : Thresher) : (s.setThr n x).get = s.get := rfl
@[simp] theorem thr_setReg (s : State) (a : Nat) (v : Word) : (s.setReg a v).thr = s.thr := rfl
@[simp] theorem thr_put (s : State) (f : Field) (v : Nat) : (s.put f v).thr = s.thr := rfl
@[simp] theorem thr_advTo (s : State) (k : Nat) : (s.advTo k).thr = s.thr := by unfold advTo; split <;> rfl

@[simp] theorem sheaf_setSheaf_same (s : State) (n : Nat) (x : Sheaf) : (s.setSheaf n x).sheaf n = x := storeGet_storeSet_same _ _ _
theorem sheaf_setSheaf_other (s : State) {n m : Nat} (x : Sheaf) (h : m ≠ n) : (s.setSheaf n x).sheaf m = s.sheaf m := storeGet_storeSet_other _ _ h
@[simp] theorem reg_setSheaf (s : State) (n : Nat) (x : Sheaf) : (s.setSheaf n x).reg = s.reg := rfl
@[simp] theorem get_setSheaf (s : State) (n : Nat) (x : Sheaf) : (s.setSheaf n x).get = s.get := rfl
@[simp] theorem sheaf_setReg (s : State) (a : Nat) (v : Word) : (s.setReg a v).sheaf = s.sheaf := rfl
@[simp] theorem sheaf_put (s : State) (f : Field) (v : Nat) : (s.put f v).sheaf = s.sheaf := rfl
@[simp] theorem sheaf_advTo (s : State) (k : Nat) : (s.advTo k).sheaf = s.sheaf := by unfold advTo; split <;> rfl

@[simp] theorem route_setRoute_same (s : State) (n : Nat) (x : Route) : (s.setRoute n x).route n = x := storeGet_storeSet_same _ _ _
theorem route_setRoute_other (s : State) {n m : Nat} (x : Route) (h : m ≠ n) : (s.setRoute n x).route m = s.route m := storeGet_storeSet_other _ _ h
@[simp] theorem reg_setRoute (s : State) (n : Nat) (x : Route) : (s.setRoute n x).reg = s.reg := rfl
@[simp] theorem get_setRoute (s : State) (n : Nat) (x : Route) : (s.setRoute n x).get = s.get := rfl
@[simp] theorem route_setReg (s : State) (a : Nat) (v : Word) : (s.setReg a v).route = s.route := rfl
@[simp] theorem route_put (s : State) (f : Field) (v : Nat) : (s.put f v).route = s.route := rfl
@[simp] theorem route_advTo (s : State) (k : Nat) : (s.advTo k).route = s.route := by unfold advTo; split <;> rfl

@[simp] theorem hmq_setHmq_same (s : State) (n : Nat) (x : Hmq) : (s.setHmq n x).hmq n = x := storeGet_storeSet_same _ _ _
theorem hmq_setHmq_other (s : State) {n m : Nat} (x : Hmq) (h : m ≠ n) : (s.setHmq n x).hmq m = s.hmq m := storeGet_storeSet_other _ _ h
@[simp] theorem reg_setHmq (s : State) (n : Nat) (x : Hmq) : (s.setHmq n x).reg = s.reg := rfl
@[simp] theorem get_setHmq (s : State) (n : Nat) (x : Hmq) : (s.setHmq n x).get = s.get := rfl
@[simp] theorem hmq_setReg (s : State) (a : Nat) (v : Word) : (s.setReg a v).hmq = s.hmq := rfl
@[simp] theorem hmq_put (s : State) (f : Field) (v : Nat) : (s.put f v).hmq = s.hmq := rfl
@[simp] theorem hmq_advTo (s : State) (k : Nat) : (s.advTo k).hmq = s.hmq := by unfold advTo; split <;> rfl

@[simp] theorem dma_setDma_same (s : State) (n : Nat) (x : Dma) : (s.setDma n x).dma n = x := storeGet_storeSet_same _ _ _
theorem dma_setDma_other (s : State) {n m : Nat} (x : Dma) (h : m ≠ n) : (s.setDma n x).dma m = s.dma m := storeGet_storeSet_other _ _ h
@[simp] theorem reg_setDma (s : State) (n : Nat) (x : Dma) : (s.setDma n x).reg = s.reg := rfl
@[simp] theorem get_setDma (s : State) (n : Nat) (x : Dma) : (s.setDma n x).get = s.get := rfl
@[simp] theorem dma_setReg (s : State) (a : Nat) (v : Word) : (s.setReg a v).dma = s.dma := rfl
@[simp] theorem dma_put (s : State) (f : Field) (v : Nat) : (s.put f v).dma = s.dma := rfl
@[simp] theorem dma_advTo (s : State) (k : Nat) : (s.advTo k).dma = s.dma := by unfold advTo; split <;> rfl

@[simp] theorem port_setPort_same (s : State) (n : Nat) (x : Port) : (s.setPort n x).port n = x := storeGet_storeSet_same _ _ _
theorem port_setPort_other (s : State) {n m : Nat} (x : Port) (h : m ≠ n) : (s.setPort n x).port m = s.port m := storeGet_storeSet_other _ _ h
@[simp] theorem reg_setPort (s : State) (n : Nat) (x : Port) : (s.setPort n x).reg = s.reg := rfl
@[simp] theorem get_setPort (s : State) (n : Nat) (x : Port) : (s.setPort n x).get = s.get := rfl
@[simp] theorem port_setReg (s : State) (a : Nat) (v : Word) : (s.setReg a v).port = s.port := rfl
@[simp] theorem port_put (s : State) (f : Field) (v : Nat) : (s.put f v).port = s.port := rfl
@[simp] theorem port_advTo (s : State) (k : Nat) : (s.advTo k).port = s.port := by unfold advTo; split <;> rfl

@[simp] theorem chan_setChan_same (s : State) (n : Nat) (x : Chan) : (s.setChan n x).chan n = x := storeGet_storeSet_same _ _ _
theorem chan_setChan_other (s : State) {n m : Nat} (x : Chan) (h : m ≠ n) : (s.setChan n x).chan m = s.chan m := storeGet_storeSet_other _ _ h
@[simp] theorem reg_setChan (s : State) (n : Nat) (x : Chan) : (s.setChan n x).reg = s.reg := rfl
@[simp] theorem get_setChan (s : State) (n : Nat) (x : Chan) : (s.setChan n x).get = s.get := rfl
@[simp] theorem chan_setReg (s : State) (a : Nat) (v : Word) : (s.setReg a v).chan = s.chan := rfl
@[simp] theorem chan_put (s : State) (f : Field) (v : Nat) : (s.put f v).chan = s.chan := rfl
@[simp] theorem chan_advTo (s : State) (k : Nat) : (s.advTo k).chan = s.chan := by unfold advTo; split <;> rfl

@[simp] theorem sv_setSv_same (s : State) (n : Nat) (x : Supervisor) : (s.setSv n x).sv n = x := storeGet_storeSet_same _ _ _
theorem sv_setSv_other (s : State) {n m : Nat} (x : Supervisor) (h : m ≠ n) : (s.setSv n x).sv m = s.sv m := storeGet_storeSet_other _ _ h
@[simp] theorem reg_setSv (s : State) (n : Nat) (x : Supervisor) : (s.setSv n x).reg = s.reg := rfl
@[simp] theorem get_setSv (s : State) (n : Nat) (x : Supervisor) : (s.setSv n x).get = s.get := rfl
@[simp] theorem sv_setReg (s : State) (a : Nat) (v : Word) : (s.setReg a v).sv = s.sv := rfl
@[simp] theorem sv_put (s : State) (f : Field) (v : Nat) : (s.put f v).sv = s.sv := rfl
@[simp] theorem sv_advTo (s : State) (k : Nat) : (s.advTo k).sv = s.sv := by unfold advTo; split <;> rfl

@[simp] theorem sup_setSup_same (s : State) (t h : Nat) (x : Supply) : (s.setSup t h x).sup t h = x := storeGet_storeSet_same _ _ _
@[simp] theorem reg_setSup (s : State) (t h : Nat) (x : Supply) : (s.setSup t h x).reg = s.reg := rfl
@[simp] theorem get_setSup (s : State) (t h : Nat) (x : Supply) : (s.setSup t h x).get = s.get := rfl
@[simp] theorem sup_setReg (s : State) (a : Nat) (v : Word) : (s.setReg a v).sup = s.sup := rfl
@[simp] theorem sup_put (s : State) (f : Field) (v : Nat) : (s.put f v).sup = s.sup := rfl
@[simp] theorem tl_modTl (s : State) (n : Nat) (f : Tiller → Tiller) : (s.modTl n f).tl n = f (s.tl n) := storeGet_storeSet_same _ _ _
@[simp] theorem reg_modTl (s : State) (n : Nat) (f : Tiller → Tiller) : (s.modTl n f).reg = s.reg := rfl
@[simp] theorem get_modTl (s : State) (n : Nat) (f : Tiller → Tiller) : (s.modTl n f).get = s.get := rfl

end Sys2Proof.Machine.State
end

