-- ==== Sys2Proof/Tests/Slice0.lean ====
section
/-! SUPPORT. Tests of the model: ill-formed commands, and for every statement states and operands that meet the hypotheses of its clauses,
with what the command then does. Every theorem is about single steps on small states. -/

namespace Sys2Proof.Tests

open Sys2Proof Sys2Proof.Machine

-- one kernel evaluation at a time, so that checking needs few threads
set_option Elab.async false

/-! ### Helpers -/

/-- Every one of a list of facts. -/
def allOf : List Bool → Bool
  | [] => true
  | b :: r => b && allOf r

/-- The outcome is a next state with a property. -/
def gives (o : Host.Outcome State Fault Refusal) (p : State → Bool) : Bool := match o with
  | .next u => p u
  | _ => false

/-- The outcome is the fault. -/
def stops (o : Host.Outcome State Fault Refusal) : Bool := match o with
  | .fault .malformed => true
  | _ => false

/-- The part after reset, ready and powered. -/
def up : State := (State.reset.mark GL_RST_STAT_REGS_READY).put GL_PWR_STAT_STATE 2

/-- The part with tiller 5 RUNNING: it has issued vector 7 of its SRAM at instant 1280, whose period ends at 7680. -/
def running : State :=
  (up.put (TL_SEQ_STAT_STATE 5) 1).setTl 5 { Tiller.reset with issues := 3, idx := 7, issueAt := 1280, endAt := 7680, dueAt := 7680, next := .seq }

/-- The same for a state built on it. -/
def at5 (f : Tiller → Tiller) : State := running.modTl 5 f

/-- The compares of one issue of vector 7. -/
def cmp2 (at_ : Nat) (strobes : List Strobe) : Cmp :=
  { run := 0, vidx := 7, strobes := strobes, waitAt := at_, resolved := false, endAt := at_, sent := false, capture := false, twoSamples := false, tset := 0, inSeg := false,
    streamed := false, seg := 0, x := 0, y := 0, px := 0, py := 0, d := 0, cbank := 0, expected := 0, clrs := 0, flushed := false }

/-- A boot image of one firmware section of four bytes (R450). -/
def goodImage : List Nat :=
  let body := [1, 0, 0, 0, 32, 0, 0, 0, 4, 0, 0, 0, 0, 0, 0, 0] ++ [9, 8, 7, 6]
  bytesLE 4 0x4851B007 ++ [3, 0, 1, 0] ++ bytesLE 4 36 ++ bytesLE 4 (crc32 0xFFFFFFFF body) ++ [1, 0, 0, 0, 32, 0, 0, 0, 4, 0, 0, 0, 0, 0, 0, 0] ++ [9, 8, 7, 6]

/-- The part with that image in DRAM at address 0x40, where the host boot registers point. -/
def hostBoot : State :=
  ({ (up.mark GL_MEM_STAT_W_READY).put GL_BOOT_ADDR_LO_ADDR_LO 1 with power := { up.power with memW := true } }).storeBytes 0x40 goodImage

/-- A flit of VC 3 to the part at (5, 2) that has taken 11 hops, its last bit set. -/
def theFlit : Nat := 5 + 2 * 2 ^ 4 + 3 * 2 ^ 16 + 11 * 2 ^ 40 + 2 ^ 511



/-! ### Ill-formed commands are told apart, and those whose lists no step meets stop -/

/-- A slave transaction of the management port that reads while it carries a word, and one that writes while it clocks a word. -/
def badRead : MspTrans := { mode3 := false, read := true, cnt := true, n := 0, addr := 0, words := [1], clocked := 1, cut := .clean, tmo := false }
def badWrite : MspTrans := { mode3 := false, read := false, cnt := true, n := 0, addr := 0, words := [1], clocked := 1, cut := .clean, tmo := false }

theorem test_ill_formed_commands_are_told : allOf [
    !(Instr.regWrite .bar0 2 ⟨0, 15, none⟩).wellFormed,
    !(Instr.regWrite .bar0 0x1000000 ⟨0, 15, none⟩).wellFormed,
    !(Instr.rcFieldRead .bar0 0x100001).wellFormed,
    !(Instr.tableWrite .bar0 0xFFFFC ⟨0, 15, none⟩).wellFormed,
    !(Instr.tableWrite .bar0 0x5E0000 ⟨0, 15, none⟩).wellFormed,
    !(Instr.timingSetWrite .bar0 0 0 2 0).wellFormed,
    !(Instr.bar2Write (2 ^ 35) [some 1] false).wellFormed,
    !(Instr.bar2Write 0 [] false).wellFormed,
    !(Instr.bar2Read (2 ^ 35 - 1) 2).wellFormed,
    !(Instr.bar2Read 0 0).wellFormed,
    !(Instr.sensorSample (List.replicate 33 0)).wellFormed,
    !(Instr.regsReady (List.replicate 35 0) 0 (List.replicate 8 0)).wellFormed,
    !(Instr.regsReady (List.replicate 34 0) 0 (List.replicate 7 0)).wellFormed,
    !(Instr.mspTransaction badRead).wellFormed,
    !(Instr.mspTransaction badWrite).wellFormed
  ] = true := by decide +kernel

theorem test_well_formed_commands_are_taken : allOf [
    (Instr.regWrite .bar0 0xFFFFFC ⟨0, 15, none⟩).wellFormed,
    (Instr.tableWrite .bar0 0x5DFFFC ⟨0, 15, none⟩).wellFormed,
    (Instr.timingSetWrite .bar0 0 0 508 0).wellFormed,
    (Instr.bar2Write (2 ^ 35 - 1) [some 1] false).wellFormed,
    (Instr.sensorSample (List.replicate 34 0)).wellFormed,
    (Instr.mspTransaction { badRead with words := [] }).wellFormed,
    (Instr.mspTransaction { badWrite with clocked := 0 }).wellFormed
  ] = true := by decide +kernel

theorem test_lists_no_step_meets_stop : allOf [
    stops (exec (.sensorSample (List.replicate 33 0)) up),
    stops (exec (.regsReady (List.replicate 34 0) 0 (List.replicate 7 0)) State.reset),
    stops (exec (.bar2Write (2 ^ 35) [some 1] false) up),
    stops (exec (.bar2Read 0 0) up)
  ] = true := by decide +kernel

/-! ### Small steps with results worked out by hand from the rules -/

/-- R12, R13: sheaf 15 holds the tillers of rows 6 and 7, columns 6 and 7. -/
theorem test_last_sheaf_holds_last_tillers : sheafTillers 15 = [54, 55, 62, 63] := by decide +kernel

/-- R96, R99: INC at the limit wraps to 0 and sets the carry flag. -/
theorem test_inc_at_limit_wraps :
    gives (exec (.addrInc 63 .x false) ((up.put (TL_APG_XMAX_XMAX 63) 9).put (TL_APG_X_X 63) 9))
      (fun u => u.get (TL_APG_X_X 63) == 0 && u.on (genCarry 63 .x)) = true := by decide +kernel

/-- R99: DEC at 0 wraps to the limit. -/
theorem test_dec_at_zero_wraps :
    gives (exec (.addrDec 63 .y false) (up.put (TL_APG_YMAX_YMAX 63) 9)) (fun u => u.get (TL_APG_Y_Y 63) == 9) = true := by decide +kernel

/-- R104: ROL moves bit 31 into bit 0. -/
theorem test_rol_moves_the_top_bit :
    gives (exec (.dataRol 63) (up.setReg (TL_APG_D 63) 0x80000001)) (fun u => u.reg (TL_APG_D 63) == 3) = true := by decide +kernel

/-- R235: SUB of 1 from 0 leaves all ones and sets N, not Z. -/
theorem test_sub_wraps :
    gives (exec (.aluSub 31 ⟨5, 0, 0, true, 1⟩) (up.put (TH_STAT_STATE 31) 2))
      (fun u => u.gReg 31 5 == 0xFFFFFFFF && (u.thr 31).n && !(u.thr 31).z) = true := by decide +kernel

/-- R69: REPEAT 3 issues its vector twice more. -/
theorem test_repeat_three : gives (exec (.vRepeat 5 3) running) (fun u => (u.tl 5).repLeft == 2 && (u.tl 5).next == .again) = true := by
  decide +kernel

/-- R72: JUMP leads to its operand. -/
theorem test_jump : gives (exec (.vJump 5 0x3FFF) running) (fun u => (u.tl 5).next == .jump 0x3FFF false) = true := by decide +kernel

/-- R438: while step 1 has its regulator on, the next step may start once step 1's PG is high. -/
theorem test_second_power_step : gives (exec .powerStepStart ((State.reset.put GL_PWR_STAT_REG_EN 1).put GL_PWR_STAT_PG 1)) (fun u => u.get GL_PWR_STAT_REG_EN == 3) = true := by
  decide +kernel

/-- A step takes the front command and leaves the rest. -/
theorem test_step_takes_the_front :
    gives (step { up with pending := [.wearAccrue 3, .pllLock] }) (fun u => u.pending == [.pllLock]) = true := by decide +kernel

/-- A flit with the CRC of R383 meets the premise of the statement about flits, whatever the flit. -/
theorem witness_flit_with_its_crc :
    (BitVec.ofNat 32 (crc32 0xFFFFFFFF (bytesLE 64 (BitVec.ofNat 512 theFlit).toNat ++ [255]))).toNat =
      crc32 0xFFFFFFFF (bytesLE 64 (BitVec.ofNat 512 theFlit).toNat ++ [255]) := crc32_toNat _ _ (by decide)


/-! ### Witnesses: states and operands that meet the hypotheses of every clause of a statement -/

theorem witness_StepRunsTheFrontCommand : allOf [
    ((fun s : State => s.pending == [.pllLock, .wearAccrue 511])
      ({ up with pending := [.pllLock, .wearAccrue 511] }))
  ] = true := by decide +kernel

theorem witness_EmptyQueueLetsOneTickPass : allOf [
    ((fun s : State => s.pending == [])
      (up))
  ] = true := by decide +kernel

theorem witness_EveryStepKeepsTheCanonicalForm : allOf [
    ((fun s : State => s.canonical && gives (step s) State.canonical)
      ({ State.reset with pending := [.pllLock] })),
    ((fun s : State => s.canonical && gives (step s) State.canonical)
      ({ running with pending := [.vNop 5] }))
  ] = true := by decide +kernel

theorem witness_StepsTakeNothingBack : allOf [
    ((fun s : State => gives (step s) (fun t => t.pending == [.pllLock]))
      ({ running with pending := [.vNop 5, .pllLock] }))
  ] = true := by decide +kernel

theorem witness_AccessCodesActOnTheirFieldAlone : allOf [
    (decide (0 ≤ 31) && decide (31 < 32) && decide (0xFFFFFFFF < 2 ^ 32) &&
      fieldTakes (kindOf (GL_RDV_MASK_LO 31)) 0 (bits 0xFFFFFFFF 31 0) == some (bits 0xFFFFFFFF 31 0)),
    (decide (31 ≤ 31) && decide (0 < 31) && fieldTakes (kindOf (TL_SUP_CTRL_EN 0 0).addr) 0 1 == some 1)
  ] = true := by decide +kernel

theorem witness_UnimplementedAddressesIgnoreWritesAndReadZero : allOf [
    ((regAt 0xFFFFC).isNone && !isTable 0xFFFFC && !isMsix 0xFFFFC)
  ] = true := by decide +kernel

theorem witness_RegisterAndTableWritesComplete : allOf [
    ((fun s : State => s.ready && directView .bar0 && (regAt GL_SYNC_TRIM).isSome && GL_SYNC_TRIM % 4 == 0 && !isTable GL_SYNC_TRIM &&
      !isMsix GL_SYNC_TRIM)
      (up)),
    ((fun s : State => s.ready && directView .bar0 && s.get (GL_RDV_STAT_STATE 31) == 0)
      (up)),
    ((fun s : State => s.ready && directView .bar0 && decide (0x300000 ≤ 0x33FFFC) && decide (0x33FFFC < 0x340000))
      (up)),
    ((fun s : State => s.ready && directView .bar0 && decide (0x340000 ≤ 0x53803C) && decide (0x53803C < 0x540000) &&
      decide ((0x53803C - 0x340000) % 0x8000 < 0x4040))
      (up)),
    ((fun s : State => s.ready && directView .bar0 && decide (0x5C0000 ≤ 0x5DFFF0) && decide (0x5DFFF0 % 0x20 < 0x14))
      (up)),
    ((.bar0 : View) == .bar0 && (0 : BitVec 4) != 15),
    ((.bar4 : View) == .bar4 && (0 : BitVec 4) != 15),
    ((.bar0 : View) == .bar0 && (14 : BitVec 4) != 15),
    ((.bar4 : View) == .bar4 && (14 : BitVec 4) != 15),
    ((fun s : State => s.ready && directView .bar0)
      (up))
  ] = true := by decide +kernel

theorem witness_ReadingReturnsTheWordAndResetsRcFields : allOf [
    ((fun s : State => s.ready && LK_G_CNT 3 % 4 == 0 && !isTable (LK_G_CNT 3) && !isMsix (LK_G_CNT 3) && (regAt (LK_G_CNT 3)).isSome &&
      (s.readOwn (LK_G_CNT 3)).isNone)
      (up.setReg (LK_G_CNT 3) 0x01020304))
  ] = true := by decide +kernel

theorem witness_UserWritesKeepSystemFields : allOf [
    ((fun s : State => s.ready && userView .bar4 && EV_TDOM 7 % 4 == 0 && !isTable (EV_TDOM 7) && !isMsix (EV_TDOM 7) &&
      (match regAt (EV_TDOM 7) with | some d => d.flds.all (fun f => f.sys || f.acc == .ro || f.acc == .rc) | none => false))
      (up)),
    ((fun s : State => s.ready && userView .bar4 && (match regAt (TL_CAP_CTRL 63) with | some d => d.flds.any (fun f => !f.sys) | none => false) &&
      s.shown (TL_CAP_CTRL 63) == (s.reg (TL_CAP_CTRL 63)).toNat)
      (up))
  ] = true := by decide +kernel

theorem witness_BlockResetsRun : allOf [
    ((fun s : State => s.ready && directView .bar0 && s.resets.busy == none &&
      !((((s.storeWord GL_BLK_RST (blkRstWord 0 511)).wrapUp GL_BLK_RST_STAT_SEQ).put GL_BLK_RST_STAT_RESULT 0)).active 63)
      (up)),
    ((fun s : State => s.ready && directView .bar0 && s.resets.busy == none && decide (63 < 64) && decide (7 < 8))
      (up)),
    ((fun s : State => s.ready && directView .bar0 && s.resets.busy == none &&
      (sheafTillers 15).all (fun t => !((((s.storeWord GL_BLK_RST (blkRstWord 2 15)).wrapUp GL_BLK_RST_STAT_SEQ).put GL_BLK_RST_STAT_RESULT 0)).active t))
      (up.setByte 0x4013FFFFF 9)),
    ((fun s : State => s.ready && directView .bar0 && s.resets.pend == none)
      (up)),
    ((fun s : State => s.ready && directView .bar0 && s.resets.pend != none)
      ({ up with resets := ⟨some (0, 511), some (3, 7), 0, false, 0, false⟩ })),
    ((fun s : State => s.resets.busy != none && s.resets.pend == none)
      ({ up with resets := ⟨some (0, 511), none, 0, false, 0, false⟩ })),
    ((fun s : State => s.ready && directView .bar0 && s.resets.busy == some (1, 63) && decide ((63 : BitVec 9).toNat < 64) && s.resets.at_ == s.ticks &&
      s.resets.byFault)
      ({ up with ticks := 7, resets := ⟨some (1, 63), none, 7, true, 0, false⟩ })),
    ((fun s : State => s.ready && directView .bar0 && s.resets.busy == some (0, 5) && decide ((63 : BitVec 9).toNat < 64) &&
      s.resets.pend == some (1, 63) && s.resets.pendAt == s.ticks && s.resets.pendByFault)
      ({ up with ticks := 7, resets := ⟨some (0, 5), some (1, 63), 0, false, 7, true⟩ })),
    ((fun s : State => s.ready && directView .bar0 && s.resets.busy == some (3, 7) && decide ((63 : BitVec 9).toNat < 64) &&
      State.insideScope (1, 63) (3, 7))
      ({ up with ticks := 7, resets := ⟨some (3, 7), none, 0, false, 0, false⟩ })),
    ((fun s : State => s.ready && directView .bar0 && s.resets.busy == some (1, 62) && decide ((63 : BitVec 9).toNat < 64) &&
      !State.insideScope (1, 63) (1, 62) && s.resets.pend != none)
      ({ up with ticks := 7, resets := ⟨some (1, 62), some (2, 0), 7, true, 0, false⟩ })),
    ((fun s : State => s.ready && directView .bar0 && s.resets.busy == some (0, 511) && decide ((63 : BitVec 9).toNat < 64) &&
      !State.insideScope (1, 63) (0, 511) && s.resets.pend == none && State.insideScope (0, 511) (1, 63))
      ({ up with ticks := 7, resets := ⟨some (0, 511), none, 7, true, 0, false⟩ })),
    ((fun s : State => s.ready && directView .bar0 && s.resets.busy == some (1, 62) && decide ((63 : BitVec 9).toNat < 64) &&
      !State.insideScope (1, 63) (1, 62) && s.resets.pend == none && !State.insideScope (1, 62) (1, 63))
      ({ up with ticks := 7, resets := ⟨some (1, 62), none, 7, true, 0, false⟩ }))
  ] = true := by decide +kernel

theorem witness_SyncFramesAndCommandsComplete_1 : allOf [
    ((fun s : State => s.power.vbulk && !s.power.pllLost && decide (s.ticks ≤ 128 + 131) && s.get GL_SYNC_STAT_STATE == 0 &&
      State.frameGood (BitVec.ofNat 128 (0xF0A5 * 2 ^ 112 + (256 * 2 ^ 64) + 0 * 2 ^ 48 + crc16 80 (256 * 2 ^ 32 + 0 * 2 ^ 16) * 2 ^ 16 + 0)).toNat &&
      bits (BitVec.ofNat 128 (0xF0A5 * 2 ^ 112 + (256 * 2 ^ 64) + 0 * 2 ^ 48 + crc16 80 (256 * 2 ^ 32 + 0 * 2 ^ 16) * 2 ^ 16 + 0)).toNat 111 64 == 256 &&
      (s.sync.goods.find? (fun g => g.1 + 128 = 128 &&
      (g.2 + 128) % 2 ^ 48 = bits (BitVec.ofNat 128 (0xF0A5 * 2 ^ 112 + (256 * 2 ^ 64) + 0 * 2 ^ 48 + crc16 80 (256 * 2 ^ 32 + 0 * 2 ^ 16) * 2 ^ 16 + 0)).toNat 111 64)).isSome)
      ({ (up.put GL_SYNC_STAT_STATE 0) with power := { up.power with vbulk := true, pllLost := false }, sync := ⟨[(1, 5), (0, 128)], none, none⟩ })),
    ((fun s : State => s.power.vbulk && !s.power.pllLost && decide (s.ticks ≤ 128 + 131) && s.get GL_SYNC_STAT_STATE == 2 &&
      State.frameGood (BitVec.ofNat 128 (0xF0A5 * 2 ^ 112 + (256 * 2 ^ 64) + 0 * 2 ^ 48 + crc16 80 (256 * 2 ^ 32 + 0 * 2 ^ 16) * 2 ^ 16 + 0)).toNat &&
      bits (BitVec.ofNat 128 (0xF0A5 * 2 ^ 112 + (256 * 2 ^ 64) + 0 * 2 ^ 48 + crc16 80 (256 * 2 ^ 32 + 0 * 2 ^ 16) * 2 ^ 16 + 0)).toNat 111 64 == 256 &&
      (s.sync.goods.find? (fun g => g.1 + 128 = 128 &&
      (g.2 + 128) % 2 ^ 48 = bits (BitVec.ofNat 128 (0xF0A5 * 2 ^ 112 + (256 * 2 ^ 64) + 0 * 2 ^ 48 + crc16 80 (256 * 2 ^ 32 + 0 * 2 ^ 16) * 2 ^ 16 + 0)).toNat 111 64)).isSome &&
      (s.advTo 259).countAt 128 != 256 && (s.advTo 259).allIdle)
      ({ (up.put GL_SYNC_STAT_STATE 2) with power := { up.power with vbulk := true, pllLost := false }, sync := ⟨[(1, 5), (0, 128)], none, none⟩ })),
    ((fun s : State => s.power.vbulk && !s.power.pllLost && decide (s.ticks ≤ 128 + 131) && s.get GL_SYNC_STAT_STATE == 2 &&
      State.frameGood (BitVec.ofNat 128 (0xF0A5 * 2 ^ 112 + (256 * 2 ^ 64) + 0 * 2 ^ 48 + crc16 80 (256 * 2 ^ 32 + 0 * 2 ^ 16) * 2 ^ 16 + 0)).toNat &&
      bits (BitVec.ofNat 128 (0xF0A5 * 2 ^ 112 + (256 * 2 ^ 64) + 0 * 2 ^ 48 + crc16 80 (256 * 2 ^ 32 + 0 * 2 ^ 16) * 2 ^ 16 + 0)).toNat 111 64 == 256 &&
      (s.sync.goods.find? (fun g => g.1 + 128 = 128 &&
      (g.2 + 128) % 2 ^ 48 = bits (BitVec.ofNat 128 (0xF0A5 * 2 ^ 112 + (256 * 2 ^ 64) + 0 * 2 ^ 48 + crc16 80 (256 * 2 ^ 32 + 0 * 2 ^ 16) * 2 ^ 16 + 0)).toNat 111 64)).isSome &&
      (s.advTo 259).countAt 128 != 256 && !(s.advTo 259).allIdle)
      ({ (up.put GL_SYNC_STAT_STATE 2) with power := { up.power with vbulk := true, pllLost := false }, sync := ⟨[(1, 5), (0, 128)], none, none⟩ }.setReg (TL_SEQ_STAT 63) 1)),
    ((fun s : State => s.power.vbulk && !s.power.pllLost && decide (s.ticks ≤ 128 + 131) && s.get GL_SYNC_STAT_STATE == 2 &&
      State.frameGood (BitVec.ofNat 128 (0xF0A5 * 2 ^ 112 + (256 * 2 ^ 64) + 0 * 2 ^ 48 + crc16 80 (256 * 2 ^ 32 + 0 * 2 ^ 16) * 2 ^ 16 + 0)).toNat &&
      bits (BitVec.ofNat 128 (0xF0A5 * 2 ^ 112 + (256 * 2 ^ 64) + 0 * 2 ^ 48 + crc16 80 (256 * 2 ^ 32 + 0 * 2 ^ 16) * 2 ^ 16 + 0)).toNat 111 64 == 256 &&
      (s.sync.goods.find? (fun g => g.1 + 128 = 128 &&
      (g.2 + 128) % 2 ^ 48 = bits (BitVec.ofNat 128 (0xF0A5 * 2 ^ 112 + (256 * 2 ^ 64) + 0 * 2 ^ 48 + crc16 80 (256 * 2 ^ 32 + 0 * 2 ^ 16) * 2 ^ 16 + 0)).toNat 111 64)).isSome &&
      (s.advTo 259).countAt 128 == 256)
      ({ (up.put GL_SYNC_STAT_STATE 2) with power := { up.power with vbulk := true, pllLost := false }, sync := ⟨[(1, 5), (0, 128)], none, none⟩, count := 128 }.setReg (TL_SEQ_STAT 63) 1)),
    ((fun s : State => s.power.vbulk && !s.power.pllLost && decide (s.ticks ≤ 128 + 131) && s.get GL_SYNC_STAT_STATE == 1 && s.sync.slot == none &&
      s.countAt 128 % 128 == 0 &&
      State.frameGood (BitVec.ofNat 128 (0xF0A5 * 2 ^ 112 + (128 * 2 ^ 64) + 0 * 2 ^ 48 + crc16 80 (128 * 2 ^ 32 + 0 * 2 ^ 16) * 2 ^ 16 + 0)).toNat &&
      bits (BitVec.ofNat 128 (0xF0A5 * 2 ^ 112 + (128 * 2 ^ 64) + 0 * 2 ^ 48 + crc16 80 (128 * 2 ^ 32 + 0 * 2 ^ 16) * 2 ^ 16 + 0)).toNat 111 64 == (s.advTo 259).countAt 128 &&
      bits (BitVec.ofNat 128 (0xF0A5 * 2 ^ 112 + (128 * 2 ^ 64) + 0 * 2 ^ 48 + crc16 80 (128 * 2 ^ 32 + 0 * 2 ^ 16) * 2 ^ 16 + 0)).toNat 63 48 == 0)
      ({ ((up.put GL_SYNC_STAT_STATE 1).put GL_SYNC_STAT_BADRUN 2) with power := { up.power with vbulk := true, pllLost := false }, count := 0 })),
    ((fun s : State => s.power.vbulk && !s.power.pllLost && decide (s.ticks ≤ 128 + 131) && s.get GL_SYNC_STAT_STATE == 1 && s.sync.slot == none &&
      s.countAt 128 % 128 == 0 && !State.frameGood (BitVec.ofNat 128 0).toNat && decide (s.get GL_SYNC_STAT_BADRUN < 2))
      ({ ((up.put GL_SYNC_STAT_STATE 1).put GL_SYNC_STAT_BADRUN 0) with power := { up.power with vbulk := true, pllLost := false }, count := 0 })),
    ((fun s : State => s.power.vbulk && !s.power.pllLost && decide (s.ticks ≤ 128 + 131) && s.get GL_SYNC_STAT_STATE == 1 && s.sync.slot == none &&
      s.countAt 128 % 128 == 0 && !State.frameGood (BitVec.ofNat 128 0).toNat && decide (s.get GL_SYNC_STAT_BADRUN < 2))
      ({ ((up.put GL_SYNC_STAT_STATE 1).put GL_SYNC_STAT_BADRUN 1) with power := { up.power with vbulk := true, pllLost := false }, count := 0 })),
    ((fun s : State => s.power.vbulk && !s.power.pllLost && decide (s.ticks ≤ 128 + 131) && s.get GL_SYNC_STAT_STATE == 1 && s.sync.slot == none &&
      s.countAt 128 % 128 == 0 && !State.frameGood (BitVec.ofNat 128 0).toNat && s.get GL_SYNC_STAT_BADRUN == 2)
      ({ ((up.put GL_SYNC_STAT_STATE 1).put GL_SYNC_STAT_BADRUN 2) with power := { up.power with vbulk := true, pllLost := false }, count := 0 })),
    ((fun s : State => !s.power.pllLost && s.sync.conflict == some (0, 7) && s.get GL_SYNC_STAT_STATE == 2 && s.allIdle)
      ({ up.put GL_SYNC_STAT_STATE 2 with sync := ⟨[], some (0, 7), none⟩, ticks := 10 })),
    ((fun s : State => s.takesCommands && s.slots.length == 0 && notBefore48 ((0 + 128 * 0xFFFF + 127) % 2 ^ 48) s.view)
      (up.put GL_SYNC_STAT_STATE 1)),
    ((fun s : State => s.takesCommands && decide (8 ≤ s.slots.length) && !s.slots.contains ⟨.halt, 15, 128 * 0xFFFF + 127⟩ &&
      notBefore48 ((0 + 128 * 0xFFFF + 127) % 2 ^ 48) s.view)
      ({ (up.put GL_SYNC_STAT_STATE 1) with slots := List.replicate 8 ⟨.start, 0, 5⟩ })),
    ((fun s : State => s.takesCommands && decide (8 ≤ s.slots.length) && !s.slots.contains ⟨.start, 15, 128 * 0xFFFF + 127⟩ &&
      !s.slots.contains ⟨.clearLate, 15, 128 * 0xFFFF + 127⟩ && notBefore48 ((0 + 128 * 0xFFFF + 127) % 2 ^ 48) s.view)
      ({ (up.put GL_SYNC_STAT_STATE 1) with slots := List.replicate 8 ⟨.start, 0, 5⟩ }))
  ] = true := by decide +kernel

theorem witness_SyncFramesAndCommandsComplete_2 : allOf [
    ((fun s : State => s.takesCommands && [SchedOp.start, .halt, .clearLate].all (fun o => s.slots.contains ⟨o, 15, 128 * 0xFFFF + 127⟩) &&
      notBefore48 ((0 + 128 * 0xFFFF + 127) % 2 ^ 48) s.view)
      ({ (up.put GL_SYNC_STAT_STATE 1) with slots := [⟨.start, 15, 128 * 0xFFFF + 127⟩, ⟨.halt, 15, 128 * 0xFFFF + 127⟩, ⟨.clearLate, 15, 128 * 0xFFFF + 127⟩] })),
    ((fun s : State => s.power.pllLost)
      ({ (up.put GL_SYNC_STAT_STATE 1) with power := { up.power with pllLost := true }, slots := [⟨.start, 1, 9⟩], sync := ⟨[], some (0, 7), none⟩ })),
    ((fun s : State => s.power.vbulk && !s.power.pllLost && decide (s.ticks ≤ 128 + 131) && s.get GL_SYNC_STAT_STATE == 0 &&
      State.frameGood (BitVec.ofNat 128 (0xF0A5 * 2 ^ 112 + (256 * 2 ^ 64) + 0 * 2 ^ 48 + crc16 80 (256 * 2 ^ 32 + 0 * 2 ^ 16) * 2 ^ 16 + 0)).toNat &&
      bits (BitVec.ofNat 128 (0xF0A5 * 2 ^ 112 + (256 * 2 ^ 64) + 0 * 2 ^ 48 + crc16 80 (256 * 2 ^ 32 + 0 * 2 ^ 16) * 2 ^ 16 + 0)).toNat 111 64 == 256 &&
      !(s.sync.goods.find? (fun g => g.1 + 128 = 128 &&
      (g.2 + 128) % 2 ^ 48 = bits (BitVec.ofNat 128 (0xF0A5 * 2 ^ 112 + (256 * 2 ^ 64) + 0 * 2 ^ 48 + crc16 80 (256 * 2 ^ 32 + 0 * 2 ^ 16) * 2 ^ 16 + 0)).toNat 111 64)).isSome)
      ({ (up.put GL_SYNC_STAT_STATE 0) with power := { up.power with vbulk := true, pllLost := false }, sync := ⟨[(1, 5), (0, 900)], none, none⟩ })),
    ((fun s : State => s.power.vbulk && !s.power.pllLost && decide (s.ticks ≤ 128 + 131) && s.get GL_SYNC_STAT_STATE == 3)
      ({ (up.put GL_SYNC_STAT_STATE 3) with power := { up.power with vbulk := true, pllLost := false }, sync := ⟨[(1, 5), (0, 128)], none, none⟩ })),
    ((fun s : State => s.takesCommands && !notBefore48 ((0 + 128 * 1 + 0) % 2 ^ 48) s.view)
      ({ (up.put GL_SYNC_STAT_STATE 1) with count := 5000 })),
    ((fun s : State => s.takesCommands)
      (up.put GL_SYNC_STAT_STATE 1))
  ] = true := by decide +kernel

theorem witness_ScheduledCommandsAndClockEventsAct : allOf [
    ((fun s : State => !s.power.pllLost && (s.takeSlot .start 0 0).elim false (fun u => u.slots.all (fun x => !(x.op = .halt && x.target = 0 &&
      groupsMeet x.group 0))) && (s.takeSlot .halt 15 1000).elim false (fun u => u.slots.all (fun x => !(x.op = .start && x.target = 1000 &&
      groupsMeet x.group 15))) && (s.takeSlot .clearLate 15 2000).elim false (fun u => (u.groupTillers 15).contains 63))
      ({ (up.put GL_SYNC_STAT_STATE 1).put (State.lateBit 63) 1 with slots := [⟨.start, 0, 0⟩, ⟨.halt, 15, 1000⟩, ⟨.clearLate, 15, 2000⟩], ticks := 10, count := 5 })),
    ((fun s : State => !s.power.pllLost && s.holds == [⟨7, 5, 20⟩] && decide (5 ≤ s.ticks) && decide (s.ticks ≤ 20))
      ({ up with holds := [⟨7, 5, 20⟩], ticks := 20 })),
    ((fun s : State => s.ready && directView .bar0 && s.on GL_SYNC_CTRL_EN)
      (up.put GL_SYNC_CTRL_EN 1)),
    ((fun s : State => s.ready && directView .bar0 && !s.on GL_SYNC_CTRL_EN && decide (s.get GL_SYNC_TRIM_TRIM ≤ 320))
      (up.put GL_SYNC_CTRL_EN 0)),
    ((fun s : State => s.power.pll)
      ({ up with power := { up.power with pll := true } })),
    ((fun s : State => s.power.pllLost)
      ({ (up.put GL_SYNC_STAT_STATE 1) with power := { up.power with pllLost := true }, slots := [⟨.start, 0, 0⟩, ⟨.halt, 15, 1000⟩, ⟨.clearLate, 15, 2000⟩], holds := [⟨7, 5, 20⟩], ticks := 20 }))
  ] = true := by decide +kernel

theorem witness_ReadsWithEffectsAct_1 : allOf [
    ((fun s : State => s.ready && s.latched (State.pairAddr (.rdvRel 31)) == some (7, 100) && decide (s.ticks ≤ 100 + 100))
      ({ up with latches := [(State.pairAddr (.rdvRel 31), some (7, 100))], ticks := 200 })),
    ((fun s : State => s.ready && s.latched (State.pairAddr .rc) == none)
      (up)),
    ((fun s : State => s.ready && s.latched (State.pairAddr (.rdvRel 0)) == none)
      (up)),
    ((fun s : State => s.ready && s.latched (State.pairAddr .firstFault) == none)
      (up)),
    ((fun s : State => s.ready && s.latched (State.pairAddr (.vidx 63)) == none)
      (up)),
    ((fun s : State => s.ready && s.latched (State.pairAddr (.tdcLast 63)) == none)
      (up)),
    ((fun s : State => s.ready && s.latched (State.pairAddr (.tdcMean 63)) == none)
      (up)),
    ((fun s : State => s.ready && s.latched (State.pairAddr (.adcSum 63)) == none)
      (up)),
    ((fun s : State => s.ready && s.latched (State.pairAddr (.calLast 7)) == none)
      (up)),
    ((fun s : State => s.ready && !s.on FC_INJ_STAT_ARMED && (s.lvl 63).done == [9, 8])
      (up.setLvl 63 { Levels.reset with done := [9, 8] })),
    ((fun s : State => s.ready && !s.on FC_INJ_STAT_ARMED && s.on (TL_FQ_STAT_DEST_NOW 63) && (s.fq 63).entries == [⟨5, false⟩] &&
      (s.fq 63).run == none)
      ((up.put (TL_FQ_STAT_DEST_NOW 63) 1).setFq 63 { FailFifo.reset with entries := [⟨5, false⟩] })),
    ((fun s : State => s.ready && !s.on FC_INJ_STAT_ARMED && !s.on (TL_FQ_STAT_DEST_NOW 63))
      (up.setFq 63 { FailFifo.reset with hold := 2 ^ 32 + 6 }))
  ] = true := by decide +kernel

theorem witness_ReadsWithEffectsAct_2 : allOf [
    ((fun s : State => s.ready && !s.on FC_INJ_STAT_ARMED && s.get (TL_CAP_STAT_STATE 63) == 3 && (s.cap 63).entries == [⟨5, false⟩] &&
      !s.on (TL_CAP_CTRL_AUTO 63))
      ((up.put (TL_CAP_STAT_STATE 63) 3).setCap 63 { Capture.reset with entries := [⟨5, false⟩] })),
    ((fun s : State => s.ready && !s.on FC_INJ_STAT_ARMED && (s.sv 1).mbx == [3, 4])
      (up.setSv 1 { Supervisor.reset with mbx := [3, 4] })),
    ((fun s : State => s.ready && !s.on FC_INJ_STAT_ARMED && (s.hmq 3).half == some 6)
      (up.setHmq 3 ⟨[(1, 2)], some 6⟩)),
    ((fun s : State => s.ready && !s.on FC_INJ_STAT_ARMED && (s.hmq 3).half == none && (s.hmq 3).notices == [(1, 2), (3, 4)] &&
      (List.range 8).all (fun c => (s.dma c).note == none))
      (up.setHmq 3 ⟨[(1, 2), (3, 4)], none⟩)),
    ((fun s : State => s.ready && !s.on FC_INJ_STAT_ARMED && s.msp.fifo == [6, 7])
      ({ up with msp := { up.msp with fifo := [6, 7] } })),
    ((fun s : State => s.ready && !s.on FC_INJ_STAT_ARMED)
      (up)),
    ((fun s : State => s.ready && !s.on FC_INJ_STAT_ARMED)
      ((up.put (SH_UCRD_ADDR_ADDR 0) 16383).mark (TL_RESULT_VALID 0) |>.mark (TL_TDC_RESULT_VALID 0) |>.mark (TL_ADC_RES_HI_VALID 0)))
  ] = true := by decide +kernel

theorem witness_RendezvousReportsAndReleases_1 : allOf [
    ((fun s : State => s.on (GL_RDV_CFG_EN 31) && !s.power.pllLost && s.rdvLeader 31 == s.here && (s.rdvParts 31).testBit 1 &&
      s.get (GL_RDV_STAT_STATE 31) == 1 && !(s.rdv 31).sent && s.get (GL_RDV_STAT_EPOCH 31) == 0)
      ((((up.mark (GL_RDV_CFG_EN 31)).put (GL_RDV_PARTS_LO_PART 31) 3).put (GL_RDV_STAT_STATE 31) 1).setRdv 31 { Rdv.reset with tFirst := none })),
    ((fun s : State => s.on (GL_RDV_CFG_EN 31) && !s.power.pllLost && s.rdvLeader 31 == s.here && (s.rdvParts 31).testBit 1 &&
      s.get (GL_RDV_STAT_STATE 31) == 1 && !(s.rdv 31).sent && s.get (GL_RDV_STAT_EPOCH 31) == 0)
      ((((up.mark (GL_RDV_CFG_EN 31)).put (GL_RDV_PARTS_LO_PART 31) 3).put (GL_RDV_STAT_STATE 31) 1).setRdv 31 { Rdv.reset with tFirst := some 9 })),
    ((fun s : State => s.on (GL_RDV_CFG_EN 31) && !s.power.pllLost && s.rdvLeader 31 == s.here && (s.rdvParts 31).testBit 1 &&
      s.get (GL_RDV_STAT_STATE 31) == 1 && !(s.rdv 31).sent && s.get (GL_RDV_STAT_EPOCH 31) == 0)
      ((((up.mark (GL_RDV_CFG_EN 31)).put (GL_RDV_PARTS_LO_PART 31) 3).put (GL_RDV_STAT_STATE 31) 1).setRdv 31 { Rdv.reset with tFirst := some 3 })),
    ((fun s : State => s.on (GL_RDV_CFG_EN 31) && !s.power.pllLost && s.rdvLeader 31 == s.here && (s.rdvParts 31).testBit 1 &&
      s.get (GL_RDV_STAT_STATE 31) == 1 && !(s.rdv 31).sent && s.get (GL_RDV_STAT_EPOCH 31) == 0 &&
      ((s.rdv 31).complete ||| 2 ^ 1) &&& s.rdvParts 31 == s.rdvParts 31)
      ((((up.mark (GL_RDV_CFG_EN 31)).put (GL_RDV_PARTS_LO_PART 31) 3).put (GL_RDV_STAT_STATE 31) 1).setRdv 31 { Rdv.reset with complete := 1 })),
    ((fun s : State => s.on (GL_RDV_CFG_EN 31) && !s.power.pllLost && s.rdvLeader 31 == s.here &&
      (decide (8 ≤ 8) || decide (6 ≤ 0) || !(s.rdvParts 31).testBit 8))
      ((((up.mark (GL_RDV_CFG_EN 31)).put (GL_RDV_PARTS_LO_PART 31) 3).put (GL_RDV_STAT_STATE 31) 1))),
    ((fun s : State => s.on (GL_RDV_CFG_EN 31) && !s.power.pllLost && s.rdvLeader 31 == s.here &&
      (decide (8 ≤ 0) || decide (6 ≤ 6) || !(s.rdvParts 31).testBit 48))
      ((((up.mark (GL_RDV_CFG_EN 31)).put (GL_RDV_PARTS_LO_PART 31) 3).put (GL_RDV_STAT_STATE 31) 1))),
    ((fun s : State => s.on (GL_RDV_CFG_EN 31) && !s.power.pllLost && s.rdvLeader 31 == s.here &&
      (decide (8 ≤ 7) || decide (6 ≤ 5) || !(s.rdvParts 31).testBit 47))
      ((((up.mark (GL_RDV_CFG_EN 31)).put (GL_RDV_PARTS_LO_PART 31) 3).put (GL_RDV_STAT_STATE 31) 1))),
    ((fun s : State => s.on (GL_RDV_CFG_EN 31) && !s.power.pllLost && s.rdvLeader 31 == 0 && !(notBefore48 s.view 1000 && s.view != 1000))
      (((up.mark (GL_RDV_CFG_EN 31)).put (GL_RDV_PARTS_LO_PART 31) 3))),
    ((fun s : State => s.on (GL_RDV_CFG_EN 31) && !s.power.pllLost && s.rdvLeader 31 != 1)
      (((up.mark (GL_RDV_CFG_EN 31)).put (GL_RDV_PARTS_LO_PART 31) 3))),
    ((fun s : State => s.on (GL_RDV_CFG_EN 31) && !s.power.pllLost && (s.rdv 31).release == some (1000, true, true, true))
      ((((up.mark (GL_RDV_CFG_EN 31)).put (GL_RDV_PARTS_LO_PART 31) 3).setRdv 31 { Rdv.reset with release := some (1000, true, true, true) }).put (GL_RDV_STAT_EPOCH 31) 0)),
    ((fun s : State => s.on (GL_RDV_CFG_EN 31) && !s.power.pllLost && (s.rdv 31).release == some (1000, false, false, false))
      ((((up.mark (GL_RDV_CFG_EN 31)).put (GL_RDV_PARTS_LO_PART 31) 3).setRdv 31 { Rdv.reset with release := some (1000, false, false, false) }).put (GL_RDV_STAT_EPOCH 31) 0)),
    ((fun s : State => s.on (GL_RDV_CFG_EN 31) && !s.power.pllLost && (s.rdv 31).release == some (1000, true, true, true))
      ((((up.mark (GL_RDV_CFG_EN 31)).put (GL_RDV_PARTS_LO_PART 31) 3).setRdv 31 { Rdv.reset with release := some (1000, true, true, true) }).put (GL_RDV_STAT_EPOCH 31) 255))
  ] = true := by decide +kernel

theorem witness_RendezvousReportsAndReleases_2 : allOf [
    ((fun s : State => s.on (GL_RDV_CFG_EN 31) && !s.power.pllLost && (s.rdv 31).release == some (1000, false, false, false))
      ((((up.mark (GL_RDV_CFG_EN 31)).put (GL_RDV_PARTS_LO_PART 31) 3).setRdv 31 { Rdv.reset with release := some (1000, false, false, false) }).put (GL_RDV_STAT_EPOCH 31) 255)),
    ((fun s : State => s.on (GL_RDV_CFG_EN 31) && !s.power.pllLost && (s.rdv 31).tFirst == some 9 && !(s.rdv 31).sent && s.rdvLeader 31 == s.here)
      (((up.mark (GL_RDV_CFG_EN 31)).put (GL_RDV_PARTS_LO_PART 31) 3).setRdv 31 { Rdv.reset with tFirst := some 9 })),
    ((fun s : State => s.on (GL_RDV_CFG_EN 31) && s.power.pllLost)
      ({ ((((up.mark (GL_RDV_CFG_EN 31)).put (GL_RDV_PARTS_LO_PART 31) 3).put (GL_RDV_STAT_STATE 31) 1).setRdv 31 { Rdv.reset with tFirst := some 9, release := some (1000, true, true, true) }) with power := { up.power with pllLost := true } }))
  ] = true := by decide +kernel

theorem witness_RendezvousSettingsAreHeldWhilePending : allOf [
    ((fun s : State => s.ready && s.get (GL_RDV_STAT_STATE 31) == 1)
      (up.put (GL_RDV_STAT_STATE 31) 1)),
    ((fun s : State => s.ready && s.get (GL_RDV_STAT_STATE 31) == 2)
      (up.put (GL_RDV_STAT_STATE 31) 2))
  ] = true := by decide +kernel

theorem witness_SequenceOpcodesChooseWhatFollows : allOf [
    ((fun s : State => s.opcodeRuns 5 0x00 0 0)
      (running)),
    ((fun s : State => s.opcodeRuns 5 0x01 0xFFFFFF 0)
      (running)),
    ((fun s : State => s.opcodeRuns 5 0x01 0 0)
      (running)),
    ((fun s : State => s.opcodeRuns 5 0x01 7 0)
      (at5 (fun x => { x with repLeft := 1 }))),
    ((fun s : State => s.opcodeRuns 5 0x02 0xFFFFFFFF 0 && !(s.tl 5).looped)
      (running)),
    ((fun s : State => s.opcodeRuns 5 0x02 0x40000001 0 && (s.tl 5).looped)
      (at5 (fun x => { x with looped := true }))),
    ((fun s : State => s.opcodeRuns 5 0x03 3 0 && s.get (TL_LOOP_COUNT 5 3) == 0)
      (running.put (TL_SEQ_STAT_LOOP_OPEN 5) 8)),
    ((fun s : State => s.opcodeRuns 5 0x03 0 0 && s.get (TL_LOOP_COUNT 5 0) != 0)
      (((running.put (TL_SEQ_STAT_LOOP_OPEN 5) 1).put (TL_LOOP_COUNT 5 0) 1).put (State.loopStart 5 0) 4)),
    ((fun s : State => s.opcodeRuns 5 0x04 0x3FFF 0)
      (running)),
    ((fun s : State => s.opcodeRuns 5 0x05 0x3FFF 0)
      (running.put (TL_SEQ_STAT_SP 5) 7)),
    ((fun s : State => s.opcodeRuns 5 0x06 0 0)
      (running.put (TL_SEQ_STAT_SP 5) 1)),
    ((fun s : State => s.opcodeRuns 5 0x28 0x1FF 0)
      (running))
  ] = true := by decide +kernel

theorem witness_MasksMarksAndLoadsAct : allOf [
    ((fun s : State => s.opcodeRuns 5 0x08 0x81 0 && (s.cmp 5).queue == [] && !sameCycle (s.cmp 5).setAt (s.tl 5).issueAt)
      (running.put (TL_STICKY_FAIL 5) 0xFF)),
    ((fun s : State => s.opcodeRuns 5 0x09 0xFF 0)
      (running)),
    ((fun s : State => s.opcodeRuns 5 0x0B 0xFFFFFFFF 0)
      (running)),
    ((fun s : State => s.opcodeRuns 5 0x30 0x8000000F 0)
      (running.put (TL_APG_X_X 5) 77)),
    ((fun s : State => s.opcodeRuns 5 0x30 0x000FFFFF 0)
      (running.put (TL_APG_XMAX_XMAX 5) 9)),
    ((fun s : State => s.opcodeRuns 5 0x31 0x8000000F 0)
      (running.put (TL_APG_Y_Y 5) 77)),
    ((fun s : State => s.opcodeRuns 5 0x31 0x0000FFFF 0)
      (running.put (TL_APG_YMAX_YMAX 5) 9)),
    ((fun s : State => s.opcodeRuns 5 0x32 0xFFFFFFFF 0)
      (running)),
    ((fun s : State => s.opcodeRuns 5 0x33 0xC00FFFFF 0)
      (running))
  ] = true := by decide +kernel

theorem witness_ConditionalOpcodesDecideOrWait_1 : allOf [
    ((fun s : State => s.opcodeRuns 5 0x10 9 0x00)
      (running)),
    ((fun s : State => s.opcodeRuns 5 0x10 9 0x88)
      (running)),
    ((fun s : State => s.opcodeRuns 5 0x10 9 0x0F)
      (running)),
    ((fun s : State => s.opcodeRuns 5 0x10 9 0x67)
      (running)),
    ((fun s : State => s.opcodeRuns 5 0x11 9 0x00)
      (running)),
    ((fun s : State => s.opcodeRuns 5 0x11 9 0x88)
      (running)),
    ((fun s : State => s.opcodeRuns 5 0x11 9 0x0F)
      (running)),
    ((fun s : State => s.opcodeRuns 5 0x11 9 0x67)
      (running)),
    ((fun s : State => s.opcodeRuns 5 0x14 9 0x00)
      (running)),
    ((fun s : State => s.opcodeRuns 5 0x14 9 0x88)
      (running)),
    ((fun s : State => s.opcodeRuns 5 0x14 9 0x0F)
      (running)),
    ((fun s : State => s.opcodeRuns 5 0x14 9 0x67)
      (running))
  ] = true := by decide +kernel

theorem witness_ConditionalOpcodesDecideOrWait_2 : allOf [
    ((fun s : State => s.opcodeRuns 5 0x15 9 0x00)
      (running)),
    ((fun s : State => s.opcodeRuns 5 0x15 9 0x88)
      (running)),
    ((fun s : State => s.opcodeRuns 5 0x15 9 0x0F)
      (running)),
    ((fun s : State => s.opcodeRuns 5 0x15 9 0x67)
      (running)),
    ((fun s : State => s.opcodeRuns 5 0x12 0x3FFF 0x1F)
      (running.put (TL_EVIN_LATCH 5) 0)),
    ((fun s : State => s.opcodeRuns 5 0x12 0x3FFF 0x1F)
      (running.put (TL_EVIN_LATCH 5) 128)),
    ((fun s : State => s.opcodeRuns 5 0x13 0xFFFFFF 0x0F)
      (running)),
    ((fun s : State => s.engine 5 == 1 && (s.tl 5).gap == none && (s.tl 5).primes == [] && (s.tdc 5).arms == [] && !(s.tl 5).stopReq &&
      (s.tl 5).next == .jump 9 true && s.get (TL_SEQ_STAT_SP 5) == 8 &&
      (((s.advInst (s.tl 5).dueAt).faultNow 5 0x08 (s.tl 5).idx (s.tl 5).vec.opc (ceilCycle (s.tl 5).dueAt))).engine 5 != 1)
      (((running.put (TL_SEQ_STAT_SP 5) 8).modTl 5 (fun x => { x with next := .jump 9 true }))))
  ] = true := by decide +kernel

theorem witness_WaitingOpcodesActAtThePeriodEnd_1 : allOf [
    ((fun s : State => s.opcodeRuns 5 0x07 0xFF 0)
      (running)),
    ((fun s : State => s.opcodeRuns 5 0x0A 0 0 && !(s.tl 5).stopReq)
      (running)),
    ((fun s : State => s.opcodeRuns 5 0x20 5000 0 && !(s.tl 5).stopReq &&
      decide ((5000 + 2 ^ 32 - (s.countAt ((s.tl 5).issueAt / 1280) + 2 ^ 48 - 64) % 2 ^ 32) % 2 ^ 32 < 2 ^ 31) &&
      decide ((s.tl 5).endAt < ((s.tl 5).issueAt / 1280 + (5000 + 2 ^ 32 - (s.countAt ((s.tl 5).issueAt / 1280) + 2 ^ 48 - 64) % 2 ^ 32) % 2 ^ 32) * 1280) &&
      (5000 + 2 ^ 32 - (s.countAt ((s.tl 5).issueAt / 1280) + 2 ^ 48 - 64) % 2 ^ 32) % 2 ^ 32 != 0)
      (running)),
    ((fun s : State => s.opcodeRuns 5 0x20 0xFFFFFFC4 0 &&
      (0xFFFFFFC4 + 2 ^ 32 - (s.countAt ((s.tl 5).issueAt / 1280) + 2 ^ 48 - 64) % 2 ^ 32) % 2 ^ 32 == 3 && (decide ((3 : Nat) ≠ 0)) &&
      decide (((s.tl 5).issueAt / 1280 + 3) * 1280 < (s.tl 5).endAt))
      (running)),
    ((fun s : State => s.opcodeRuns 5 0x20 0xFFFFFFC6 0 &&
      (0xFFFFFFC6 + 2 ^ 32 - (s.countAt ((s.tl 5).issueAt / 1280) + 2 ^ 48 - 64) % 2 ^ 32) % 2 ^ 32 == 5 && (decide ((5 : Nat) ≠ 0)) &&
      decide (((s.tl 5).issueAt / 1280 + 5) * 1280 = (s.tl 5).endAt))
      (running)),
    ((fun s : State => s.opcodeRuns 5 0x20 0xFFFFFFC1 0 &&
      (0xFFFFFFC1 + 2 ^ 32 - (s.countAt ((s.tl 5).issueAt / 1280) + 2 ^ 48 - 64) % 2 ^ 32) % 2 ^ 32 == 0 && (decide ((0 : Nat) = 0)) &&
      decide (((s.tl 5).issueAt / 1280 + 0) * 1280 ≤ (s.tl 5).endAt))
      (running)),
    ((fun s : State => s.opcodeRuns 5 0x20 0x80000001 0 &&
      decide (2 ^ 31 ≤ (0x80000001 + 2 ^ 32 - (s.countAt ((s.tl 5).issueAt / 1280) + 2 ^ 48 - 64) % 2 ^ 32) % 2 ^ 32))
      ({ running with count := 64 })),
    ((fun s : State => s.opcodeRuns 5 0x21 31 0 && !(s.tl 5).stopReq && s.on (GL_RDV_CFG_EN 31) && (s.rdvMask 31).testBit 5 &&
      s.ownEpoch 5 31 == s.get (GL_RDV_STAT_EPOCH 31))
      (((running.mark (GL_RDV_CFG_EN 31)).put (GL_RDV_MASK_LO_MEMBER 31) 0x20))),
    ((fun s : State => s.opcodeRuns 5 0x21 31 0 && !(s.rdvMask 31).testBit 5)
      (running)),
    ((fun s : State => s.opcodeRuns 5 0x40 0xFFFFFFFF 0x1F && s.fbit (TL_EVIN_LATCH 5) 7)
      (running.put (TL_EVIN_LATCH 5) 0xFF)),
    ((fun s : State => s.opcodeRuns 5 0x40 0xFFFFFFFF 0x1F && !s.fbit (TL_EVIN_LATCH 5) 7 && !(s.tl 5).stopReq)
      (running)),
    ((fun s : State => s.opcodeRuns 5 0x40 0 0x18 && !s.fbit (TL_EVIN_LATCH 5) 0 && !(s.tl 5).stopReq)
      (running))
  ] = true := by decide +kernel

theorem witness_WaitingOpcodesActAtThePeriodEnd_2 : allOf [
    ((fun s : State => s.opcodeRuns 5 0x22 0xFFFFFF 0 && !(s.tl 5).stopReq)
      (running))
  ] = true := by decide +kernel

theorem witness_DeviceOpcodesActAtTheirIssue : allOf [
    ((fun s : State => s.opcodeRuns 5 0x38 0x0800FFFF 0 && changeOk 0x0800FFFF && decide (s.lvlPending 5 < 16))
      (running.setLvl 5 { Levels.reset with queue := List.replicate 15 ⟨1, [0x08000000], 0, 0⟩ })),
    ((fun s : State => s.opcodeRuns 5 0x41 255 0 && s.mayFireEvs 5 255)
      ((running.put (EV_CH_CFG_OWNER 255) 2).put (EV_CH_CFG_EN 255) 1)),
    ((fun s : State => s.opcodeRuns 5 0x29 255 0)
      (running)),
    ((fun s : State => s.opcodeRuns 5 0x39 0xFFFF 0)
      (running)),
    ((fun s : State => s.opcodeRuns 5 0x3A 0xFFFF 0)
      (running))
  ] = true := by decide +kernel

theorem witness_OpcodesThatFailACheckFault : allOf [
    ((fun s : State => s.engine 5 == 1 && (s.tl 5).issues != 0 && (s.tl 5).gap == none && decide (2 ^ 24 ≤ 0x1000000) && decide (2 ^ 14 ≤ 0x4000) &&
      s.get (TL_SEQ_STAT_SP 5) == 0 && !s.fbit (TL_SEQ_STAT_LOOP_OPEN 5) 3 && !condOk 0x13 0xFF && !changeOk 0xFF000000)
      (running)),
    ((fun s : State => s.engine 5 == 1 && (s.tl 5).issues != 0 && (s.tl 5).gap == none && s.get (TL_SEQ_STAT_SP 5) == 8 && changeOk 0x0800FFFF &&
      decide (16 ≤ s.lvlPending 5))
      ((running.put (TL_SEQ_STAT_SP 5) 8).setLvl 5 { Levels.reset with queue := List.replicate 16 ⟨1, [0x08000000], 0, 0⟩ })),
    ((fun s : State => s.engine 5 == 1 && (s.tl 5).issues != 0 && (s.tl 5).gap == none && (s.tl 5).stopReq && s.get (TL_SEQ_STAT_SP 5) == 0)
      ((at5 (fun x => { x with stopReq := true }))))
  ] = true := by decide +kernel

theorem witness_VectorsIssueInOrder : allOf [
    ((fun s : State => s.engine 5 == 1 && (s.tl 5).gap == none && (s.tl 5).next == .seq && !(s.tl 5).last && !(s.tl 5).streamed && !(s.tl 5).stopReq &&
      (s.tl 5).primes == [] && (s.tdc 5).arms == [] && !s.on FC_INJ_STAT_ARMED && (s.tl 5).ahead == [] &&
      !s.single.contains (vecAddr 5 ((s.tl 5).idx + 1)) && !s.uncorr.contains (vecAddr 5 ((s.tl 5).idx + 1)) && decide ((s.tl 5).idx + 1 < 2 ^ 14) &&
      ((s.advInst (s.tl 5).dueAt).goTo 5 ((s.tl 5).idx + 1) (s.tl 5).dueAt).vectorCause 5 (vecOf (s.loadLE (vecAddr 5 ((s.tl 5).idx + 1)) 16)) (((s.advInst (s.tl 5).dueAt).goTo 5 ((s.tl 5).idx + 1) (s.tl 5).dueAt).levelsOf 5 (((s.advInst (s.tl 5).dueAt).goTo 5 ((s.tl 5).idx + 1) (s.tl 5).dueAt).loadLE (vecAddr 5 ((s.tl 5).idx + 1)) 16)) true == 0)
      (running)),
    ((fun s : State => s.engine 5 == 1 && (s.tl 5).gap == none && (s.tl 5).next == .seq && !(s.tl 5).last && !(s.tl 5).streamed && !(s.tl 5).stopReq &&
      (s.tl 5).primes == [] && (s.tdc 5).arms == [] && !s.on FC_INJ_STAT_ARMED && (s.tl 5).ahead == [] &&
      !s.single.contains (vecAddr 5 ((s.tl 5).idx + 1)) && !s.uncorr.contains (vecAddr 5 ((s.tl 5).idx + 1)) && decide ((s.tl 5).idx + 1 < 2 ^ 14) &&
      ((s.advInst (s.tl 5).dueAt).goTo 5 ((s.tl 5).idx + 1) (s.tl 5).dueAt).vectorCause 5 (vecOf (s.loadLE (vecAddr 5 ((s.tl 5).idx + 1)) 16)) (((s.advInst (s.tl 5).dueAt).goTo 5 ((s.tl 5).idx + 1) (s.tl 5).dueAt).levelsOf 5 (((s.advInst (s.tl 5).dueAt).goTo 5 ((s.tl 5).idx + 1) (s.tl 5).dueAt).loadLE (vecAddr 5 ((s.tl 5).idx + 1)) 16)) true == 0)
      (at5 (fun x => { x with idx := 16382 }))),
    ((fun s : State => s.engine 5 == 1 && (s.tl 5).gap == none && (s.tl 5).next == .seq && !(s.tl 5).last && !(s.tl 5).streamed && !(s.tl 5).stopReq &&
      (s.tl 5).primes == [] && (s.tdc 5).arms == [] && !s.on FC_INJ_STAT_ARMED && (s.tl 5).ahead == [] &&
      !s.single.contains (vecAddr 5 ((s.tl 5).idx + 1)) && !s.uncorr.contains (vecAddr 5 ((s.tl 5).idx + 1)) && decide ((s.tl 5).idx + 1 < 2 ^ 14) &&
      (vecOf (s.loadLE (vecAddr 5 ((s.tl 5).idx + 1)) 16)).rsv != 0)
      (running.setByte (vecAddr 5 8 + 15) 0x80)),
    ((fun s : State => s.engine 5 == 1 && (s.tl 5).gap == none && (s.tl 5).next == .seq && !(s.tl 5).last && !(s.tl 5).streamed && !(s.tl 5).stopReq &&
      (s.tl 5).primes == [] && (s.tdc 5).arms == [] && !s.on FC_INJ_STAT_ARMED && (s.tl 5).ahead == [⟨8, 0, false, [0x0800FFFF]⟩, ⟨9, 3, true, []⟩] &&
      (s.tl 5).idx + 1 == 8 &&
      ((((s.advInst (s.tl 5).dueAt).goTo 5 ((s.tl 5).idx + 1) (s.tl 5).dueAt).modTl 5 (fun z => { z with ahead := [⟨9, 3, true, []⟩] }))).vectorCause 5 (vecOf 0) [0x0800FFFF] true == 0)
      (at5 (fun x => { x with ahead := [⟨8, 0, false, [0x0800FFFF]⟩, ⟨9, 3, true, []⟩] }))),
    ((fun s : State => s.engine 5 == 1 && (s.tl 5).gap == none && (s.tl 5).next == .seq && !(s.tl 5).last && !(s.tl 5).streamed && !(s.tl 5).stopReq &&
      (s.tl 5).primes == [] && (s.tdc 5).arms == [] && !s.on FC_INJ_STAT_ARMED && (s.tl 5).ahead == [] && s.uncorr.contains (vecAddr 5 8) &&
      decide ((s.tl 5).idx + 1 < 2 ^ 14))
      ({ running with uncorr := [vecAddr 5 8] })),
    ((fun s : State => s.engine 5 == 1 && (s.tl 5).gap == none && (s.tl 5).next == .seq && !(s.tl 5).last && !(s.tl 5).streamed && !(s.tl 5).stopReq &&
      (s.tl 5).primes == [] && (s.tdc 5).arms == [] && !s.on FC_INJ_STAT_ARMED && decide (2 ^ 14 ≤ (s.tl 5).idx + 1))
      (at5 (fun x => { x with idx := 16383 })))
  ] = true := by decide +kernel

theorem witness_ParksAndGapsEnd : allOf [
    ((fun s : State => s.engine 63 == 2 && (s.tl 63).next == .seq && !s.power.pllLost && (s.tl 63).park == .waitrc 5000 &&
      decide ((5000 + 64 + 2 ^ 32 - s.count.toNat % 2 ^ 32) % 2 ^ 32 < 2 ^ 31))
      (((up.put (TL_SEQ_STAT_STATE 63) 2).put (TL_SEQ_STAT_PARK_WHY 63) 1).setTl 63 { Tiller.reset with issues := 1, issueAt := 1280, endAt := 7680, dueAt := 7680, park := .waitrc 5000 })),
    ((fun s : State => s.engine 63 == 2 && (s.tl 63).next == .seq && !s.power.pllLost && (s.tl 63).park == .waitrc 0x90000000)
      (((up.put (TL_SEQ_STAT_STATE 63) 2).put (TL_SEQ_STAT_PARK_WHY 63) 1).setTl 63 { Tiller.reset with issues := 1, issueAt := 1280, endAt := 7680, dueAt := 7680, park := .waitrc 0x90000000 })),
    ((fun s : State => s.engine 63 == 2 && (s.tl 63).next == .seq && (s.tl 63).park == .evw 7 (some 20000) 0x3FFF)
      (((up.put (TL_SEQ_STAT_STATE 63) 2).put (TL_SEQ_STAT_PARK_WHY 63) 1).setTl 63 { Tiller.reset with issues := 1, issueAt := 1280, endAt := 7680, dueAt := 7680, park := .evw 7 (some 20000) 0x3FFF })),
    ((fun s : State => s.engine 63 == 2 && (s.tl 63).next == .seq && (s.tl 63).park == .evw 7 (some 20000) 0x3FFF && s.fbit (TL_EVIN_LATCH 63) 7)
      ((((up.put (TL_SEQ_STAT_STATE 63) 2).put (TL_SEQ_STAT_PARK_WHY 63) 1).setTl 63 { Tiller.reset with issues := 1, issueAt := 1280, endAt := 7680, dueAt := 7680, park := .evw 7 (some 20000) 0x3FFF }).put (TL_EVIN_LATCH 63) 0x80)),
    ((fun s : State => (s.tl 63).gap == some ⟨10, 5000, 6000, false, 0⟩ && !(s.tl 63).stopReq)
      ((up.put (TL_SEQ_STAT_STATE 63) 1).setTl 63 { Tiller.reset with issues := 1, issueAt := 1280, endAt := 7680, dueAt := 7680, gap := some ⟨10, 5000, 6000, false, 0⟩ })),
    ((fun s : State => (s.tl 63).gap == some ⟨10, 5000, 6000, true, 0⟩ && !(s.tl 63).stopReq)
      ((up.put (TL_SEQ_STAT_STATE 63) 1).setTl 63 { Tiller.reset with issues := 1, issueAt := 1280, endAt := 7680, dueAt := 7680, gap := some ⟨10, 5000, 6000, true, 0⟩ }))
  ] = true := by decide +kernel

theorem witness_ComparesResolveIntoStickyFails : allOf [
    ((fun s : State => s.nextResolve 5 == some (cmp2 20000 [⟨7, false, .high, 1000, 1000, false, false, none, none, false, 1000, 6120, false⟩, ⟨0, false, .low, 1000, 1000, false, false, none, none, false, 1000, 6120, false⟩, ⟨2, false, .low, 14000, 14000, false, false, none, none, false, 14000, 19120, false⟩]) &&
      (cmp2 20000 [⟨7, false, .high, 1000, 1000, false, false, none, none, false, 1000, 6120, false⟩, ⟨0, false, .low, 1000, 1000, false, false, none, none, false, 1000, 6120, false⟩, ⟨2, false, .low, 14000, 14000, false, false, none, none, false, 14000, 19120, false⟩]).clrs == 0)
      ((at5 (fun x => { x with next := .seq })).setCmp 5 { Compare.reset with queue := [.sample (cmp2 20000 [⟨7, false, .high, 1000, 1000, false, false, none, none, false, 1000, 6120, false⟩, ⟨0, false, .low, 1000, 1000, false, false, none, none, false, 1000, 6120, false⟩, ⟨2, false, .low, 14000, 14000, false, false, none, none, false, 14000, 19120, false⟩])] })),
    ((fun s : State => s.nextResolve 5 == some ({ cmp2 9000 [⟨7, false, .high, 3880, 3880, false, false, none, none, false, 3880, 9000, false⟩, ⟨3, false, .high, 3880, 3880, false, false, none, none, false, 3880, 9000, false⟩, ⟨1, false, .high, 3880, 3880, false, true, none, none, false, 3880, 9000, false⟩] with expected := 8 }) &&
      ({ cmp2 9000 [⟨7, false, .high, 3880, 3880, false, false, none, none, false, 3880, 9000, false⟩, ⟨3, false, .high, 3880, 3880, false, false, none, none, false, 3880, 9000, false⟩, ⟨1, false, .high, 3880, 3880, false, true, none, none, false, 3880, 9000, false⟩] with expected := 8 }).clrs == 0)
      ((at5 (fun x => { x with next := .undecided })).setCmp 5 { Compare.reset with queue := [.sample ({ cmp2 9000 [⟨7, false, .high, 3880, 3880, false, false, none, none, false, 3880, 9000, false⟩, ⟨3, false, .high, 3880, 3880, false, false, none, none, false, 3880, 9000, false⟩, ⟨1, false, .high, 3880, 3880, false, true, none, none, false, 3880, 9000, false⟩] with expected := 8 })] }))
  ] = true := by decide +kernel

theorem witness_StreamLinesArriveAndStallsEnd : allOf [
    ((fun s : State => (s.tl 63).primes == [] && (s.strm 63).seg == some 255 && (s.strm 63).ahead == none &&
      decide ((s.strm 63).fetch < (s.strm 63).desc.length) && State.lineRoom (s.strm 63))
      (up.setStrm 63 { Stream.reset with seg := some 255, desc := { SegDesc.zero with w2 := 40, w3 := 1 }, fetch := 32, gone := 0 })),
    ((fun s : State => (s.tl 63).primes == [] && (s.strm 63).seg == some 255 && (s.strm 63).ahead == none &&
      decide ((s.strm 63).fetch < (s.strm 63).desc.length) && State.lineRoom (s.strm 63))
      (up.setStrm 63 { Stream.reset with seg := some 255, desc := { SegDesc.zero with w2 := 9000, w3 := 1 }, fetch := 8176, gone := 0 })),
    ((fun s : State => (s.tl 63).primes == [] && (s.strm 63).seg == some 255 && (s.strm 63).ahead == none &&
      decide ((s.strm 63).fetch < (s.strm 63).desc.length) && State.lineRoom (s.strm 63))
      (up.setStrm 63 { Stream.reset with seg := some 255, desc := { SegDesc.zero with w2 := 9000, w3 := 1 }, fetch := 8192, gone := 4096 })),
    ((fun s : State => s.engine 63 == 3 && s.bufferReady 63)
      (((up.put (TL_SEQ_STAT_STATE 63) 3).modTl 63 (fun x => { x with refillAt := none })).setStrm 63 { Stream.reset with seg := some 255, desc := { SegDesc.zero with w2 := 40, w5 := 0 }, buf := List.replicate 1024 ⟨0, 0, false⟩ })),
    ((fun s : State => s.engine 63 == 3 && s.bufferReady 63)
      (((up.put (TL_SEQ_STAT_STATE 63) 3).modTl 63 (fun x => { x with refillAt := (some 10000) })).setStrm 63 { Stream.reset with seg := some 255, desc := { SegDesc.zero with w2 := 40, w5 := 0 }, buf := List.replicate 1024 ⟨0, 0, false⟩ }))
  ] = true := by decide +kernel

theorem witness_PatternDataIsComputedAndGuarded_1 : allOf [
    ((fun s : State => s.ready && directView .bar0 && !s.guarded 63 && (.x : ApgReg) != .ctrl)
      (up)),
    ((fun s : State => s.ready && directView .bar0 && s.guarded 63)
      (up.put (TL_SEQ_STAT_STATE 63) 1)),
    ((fun s : State => s.ready && directView .bar0 && s.guarded 63)
      (up.put (TL_SEQ_STAT_STATE 63) 3)),
    ((fun s : State => s.ready && directView .bar0 && !s.guarded 63 && (.y : ApgReg) != .ctrl)
      (up)),
    ((fun s : State => s.ready && directView .bar0 && !s.guarded 63 && (.d : ApgReg) != .ctrl)
      (up)),
    ((fun s : State => s.ready && directView .bar0 && !s.guarded 63 && (.xmax : ApgReg) != .ctrl)
      (up)),
    ((fun s : State => s.ready && directView .bar0 && !s.guarded 63 && (.ymax : ApgReg) != .ctrl)
      (up)),
    ((fun s : State => s.ready && directView .bar0 && !s.guarded 63 && ((.index 3) : ApgReg) != .ctrl)
      (up)),
    ((fun s : State => s.ready && directView .bar0 && !s.guarded 63 && ((.bg 3) : ApgReg) != .ctrl)
      (up)),
    ((fun s : State => s.ready && directView .bar0 && !s.guarded 63 && (.dxm : ApgReg) != .ctrl)
      (up)),
    ((fun s : State => s.ready && directView .bar0 && !s.guarded 63 && (.dym : ApgReg) != .ctrl)
      (up)),
    ((fun s : State => s.ready && directView .bar0 && !s.guarded 63 && (.tsel : ApgReg) != .ctrl)
      (up))
  ] = true := by decide +kernel

theorem witness_PatternDataIsComputedAndGuarded_2 : allOf [
    ((fun s : State => s.ready && directView .bar0 && ((0x80000005 : Word).toNat % 8 == bits (s.reg (TL_APG_CTRL 63)).toNat 2 0 || !s.guarded 63))
      (up)),
    ((fun s : State => s.ready && directView .bar0 && ((0x80000004 : Word).toNat % 8 == bits (s.reg (TL_APG_CTRL 63)).toNat 2 0 || !s.guarded 63))
      ((up.put (TL_SEQ_STAT_STATE 63) 1))),
    ((fun s : State => s.ready && directView .bar0 && ((4 : Word).toNat % 8 == bits (s.reg (TL_APG_CTRL 63)).toNat 2 0 || !s.guarded 63))
      (((up.put (TL_SEQ_STAT_STATE 63) 1).mark (TL_APG_CTRL_WR_BUSY 63)))),
    ((fun s : State => s.ready && directView .bar0 && (0x80000005 : Word).toNat % 8 != bits (s.reg (TL_APG_CTRL 63)).toNat 2 0 && s.guarded 63)
      ((up.put (TL_SEQ_STAT_STATE 63) 1)))
  ] = true := by decide +kernel

theorem witness_RunStopAndResume_1 : allOf [
    ((fun s : State => s.ready && directView .bar0 && s.canonical && s.engine 63 == 0 && descCause (s.readDesc 63 (s.get (TL_SEG_ENTRY_SEG 63))) == 0 &&
      (s.readDesc 63 (s.get (TL_SEG_ENTRY_SEG 63))).isSram)
      (((((up.put (TL_SEQ_STAT_STATE 63) 0).put (TL_SEG_ENTRY_SEG 63) 255) |>.setReg (segAddr 63 255 0) 0x3FFF |>.setReg (segAddr 63 255 1) 0 |>.setReg (segAddr 63 255 2) 1 |>.setReg (segAddr 63 255 3) 1 |>.setReg (segAddr 63 255 4) 0x200 |>.setReg (segAddr 63 255 5) 0x80 |>.setReg (segAddr 63 255 6) 0 |>.setReg (segAddr 63 255 7) 0)))),
    ((fun s : State => s.ready && directView .bar0 && s.canonical && s.engine 63 == 0 && descCause (s.readDesc 63 (s.get (TL_SEG_ENTRY_SEG 63))) != 0)
      ((up.put (TL_SEQ_STAT_STATE 63) 0).put (TL_SEG_ENTRY_SEG 63) 255)),
    ((fun s : State => s.ready && directView .bar0 && s.canonical && s.engine 63 == 4 && descCause (s.readDesc 63 (s.get (TL_SEG_ENTRY_SEG 63))) == 0 &&
      (s.readDesc 63 (s.get (TL_SEG_ENTRY_SEG 63))).isSram)
      (((((up.put (TL_SEQ_STAT_STATE 63) 4).put (TL_SEG_ENTRY_SEG 63) 255) |>.setReg (segAddr 63 255 0) 0x3FFF |>.setReg (segAddr 63 255 1) 0 |>.setReg (segAddr 63 255 2) 1 |>.setReg (segAddr 63 255 3) 1 |>.setReg (segAddr 63 255 4) 0x200 |>.setReg (segAddr 63 255 5) 0x80 |>.setReg (segAddr 63 255 6) 0 |>.setReg (segAddr 63 255 7) 0)))),
    ((fun s : State => s.ready && directView .bar0 && s.canonical && s.engine 63 == 4 && descCause (s.readDesc 63 (s.get (TL_SEG_ENTRY_SEG 63))) != 0)
      ((up.put (TL_SEQ_STAT_STATE 63) 4).put (TL_SEG_ENTRY_SEG 63) 255)),
    ((fun s : State => s.ready && directView .bar0 && s.canonical && s.engine 63 == 1)
      (up.put (TL_SEQ_STAT_STATE 63) 1)),
    ((fun s : State => s.ready && directView .bar0 && s.canonical && s.engine 63 == 2)
      (up.put (TL_SEQ_STAT_STATE 63) 2)),
    ((fun s : State => s.ready && directView .bar0 && s.canonical && s.engine 63 == 3)
      (up.put (TL_SEQ_STAT_STATE 63) 3)),
    ((fun s : State => s.ready && directView .bar0 && s.canonical && s.engine 63 == 5)
      (up.put (TL_SEQ_STAT_STATE 63) 5)),
    ((fun s : State => s.ready && directView .bar0 && s.canonical && s.engine 63 == 5 && s.on (State.armBit 63))
      ((up.put (TL_SEQ_STAT_STATE 63) 5).mark (State.armBit 63))),
    ((fun s : State => s.ready && directView .bar0 && s.canonical && s.engine 5 == 1 && (s.tl 5).gap == none && (s.tl 5).next != .undecided)
      (running)),
    ((fun s : State => s.ready && directView .bar0 && s.canonical && s.engine 63 == 2)
      ((up.put (TL_SEQ_STAT_STATE 63) 2))),
    ((fun s : State => s.ready && directView .bar0 && s.canonical && s.engine 63 == 3)
      ((up.put (TL_SEQ_STAT_STATE 63) 3)))
  ] = true := by decide +kernel

theorem witness_RunStopAndResume_2 : allOf [
    ((fun s : State => s.ready && directView .bar0 && s.canonical && s.engine 63 == 0)
      ((up.put (TL_SEQ_STAT_STATE 63) 0))),
    ((fun s : State => s.ready && directView .bar0 && s.canonical && s.engine 63 == 4)
      ((up.put (TL_SEQ_STAT_STATE 63) 4))),
    ((fun s : State => s.ready && directView .bar0 && s.canonical && s.engine 63 == 5)
      ((up.put (TL_SEQ_STAT_STATE 63) 5))),
    ((fun s : State => s.ready && directView .bar0 && s.canonical && s.engine 63 == 2 && s.get (TL_SEQ_STAT_PARK_WHY 63) == 3)
      (((up.put (TL_SEQ_STAT_STATE 63) 2).put (TL_SEQ_STAT_PARK_WHY 63) 3).setTl 63 { Tiller.reset with issues := 1, issueAt := 1280, endAt := 7680, dueAt := 7680, park := .pause }))
  ] = true := by decide +kernel

theorem witness_TraceAndEventInputs : allOf [
    ((fun s : State => s.ready && directView .bar0)
      ((up.setTl 63 { Tiller.reset with trace := [(255, 2 ^ 127 + 5)] }).put (TL_EVIN_LATCH 63) 1)),
    ((fun s : State => s.ready && directView .bar0 && s.wires.contains (63, 7))
      ({ up with wires := [(63, 7), (63, 0)] }))
  ] = true := by decide +kernel

theorem witness_SegmentCommandsComplete : allOf [
    ((fun s : State => s.ready && directView .bar0 && (s.tl 63).primes == [] && !s.streamCurrent 63 && descCause (s.readDesc 63 255) == 0 &&
      (s.readDesc 63 255).isStream)
      ((up |>.setReg (segAddr 63 255 0) 0x100 |>.setReg (segAddr 63 255 1) 0 |>.setReg (segAddr 63 255 2) 5 |>.setReg (segAddr 63 255 3) 1 |>.setReg (segAddr 63 255 4) 0x200 |>.setReg (segAddr 63 255 5) 0x81 |>.setReg (segAddr 63 255 6) 0 |>.setReg (segAddr 63 255 7) 0))),
    ((fun s : State => s.ready && directView .bar0 && (s.tl 63).primes == [] && s.streamCurrent 63)
      (((up.put (TL_SEQ_STAT_STATE 63) 1).mark (TL_SEQ_STAT_INSEG 63)).setTl 63 { Tiller.reset with desc := { SegDesc.zero with w5 := 1 } })),
    ((fun s : State => s.ready && directView .bar0 && s.on (TL_SEG_CHECK_BUSY 63))
      ((up.mark (TL_SEG_CHECK_BUSY 63)).put (TL_SEG_CHECK_SEG 63) 255))
  ] = true := by decide +kernel

theorem witness_LevelsAndTimingSetsChange : allOf [
    ((fun s : State => (s.lvl 63).queue == [⟨0, [0x0800FFFF], 7, 128000⟩] && decide (8 ≤ bits 0x0800FFFF 31 24) && decide (bits 0x0800FFFF 31 24 < 0x30) &&
      bits 0x0800FFFF 23 16 == 0 && decide ((s.lvl 63).done.length < 16))
      (up.setLvl 63 ⟨[⟨0, [0x0800FFFF], 7, 128000⟩], List.replicate 15 0, 0, 0, []⟩)),
    ((fun s : State => (s.lvl 63).queue == [⟨0, [0x2F00FFFF], 7, 128000⟩] && decide (8 ≤ bits 0x2F00FFFF 31 24) && decide (bits 0x2F00FFFF 31 24 < 0x30) &&
      bits 0x2F00FFFF 23 16 == 0 && decide ((s.lvl 63).done.length < 16))
      (up.setLvl 63 ⟨[⟨0, [0x2F00FFFF], 7, 128000⟩], List.replicate 15 0, 0, 0, []⟩)),
    ((fun s : State => (s.lvl 63).queue == [⟨0, [0x17001234], 7, 128000⟩] && decide (8 ≤ bits 0x17001234 31 24) && decide (bits 0x17001234 31 24 < 0x30) &&
      bits 0x17001234 23 16 == 0 && decide ((s.lvl 63).done.length < 16))
      (up.setLvl 63 ⟨[⟨0, [0x17001234], 7, 128000⟩], List.replicate 15 0, 0, 0, []⟩)),
    ((fun s : State => s.ready && decide (0 % 4 = 0) && decide (0 ≠ 8) && State.timingWord 0 && (s.timingReason 63 63 0 6400 == 0) == true)
      (up)),
    ((fun s : State => s.ready && decide (0 % 4 = 0) && decide (0 ≠ 8) && State.timingWord 0 && (s.timingReason 63 63 0 159 == 0) == false)
      (up)),
    ((fun s : State => s.ready && decide (0 % 4 = 0) && decide (0 ≠ 8) && State.timingWord 0 && (s.timingReason 63 63 0 16777216 == 0) == false)
      (up)),
    ((fun s : State => s.ready && decide (500 % 4 = 0) && decide (500 ≠ 8) && State.timingWord 500 && (s.timingReason 63 63 500 0 == 0) == true)
      (up)),
    ((fun s : State => s.ready && decide (480 % 4 = 0) && decide (480 ≠ 8) && State.timingWord 480 && (s.timingReason 63 63 480 52 == 0) == true)
      (up)),
    ((fun s : State => s.ready && decide (500 % 4 = 0) && decide (500 ≠ 8) && State.timingWord 500 && (s.timingReason 63 63 500 16777215 == 0) == false)
      (up)),
    ((fun s : State => s.ready && decide (256 % 4 = 0) && decide (256 ≠ 8) && State.timingWord 256 && (s.timingReason 63 63 256 5 == 0) == false)
      (up))
  ] = true := by decide +kernel

theorem witness_PinsTakeWritesAndShowEvents_1 : allOf [
    ((fun s : State => s.ready && directView .bar0 && !s.power.noSafe && decide (bits 0x0000000B 3 2 ≤ 2))
      (up)),
    ((fun s : State => s.ready && directView .bar0 && !s.power.noSafe && decide (bits 0 3 2 ≤ 2))
      (up)),
    ((fun s : State => s.ready && directView .bar0 && s.engine (511 / 8) == 1 && decide (bits 0xA00 11 9 ≤ 5) &&
      bits 0xA00 11 9 != s.get (PN_CTRL_SELFTEST 511))
      (up.put (TL_SEQ_STAT_STATE 63) 1)),
    ((fun s : State => s.ready && directView .bar0 && s.engine (511 / 8) == 3 && decide (bits 0xA00 11 9 ≤ 5) &&
      bits 0xA00 11 9 != s.get (PN_CTRL_SELFTEST 511))
      (up.put (TL_SEQ_STAT_STATE 63) 3)),
    ((fun s : State => s.ready && directView .bar0 && s.tiedTo 511 == none && !s.queueStands 63 (8 + 8 * 4 + 7) && !s.queueStands 63 (8 + 8 * 7 + 7) &&
      decide (4 < 5) && State.clampsOk 0 (s.get (PN_LVL_CODE 511 6)) == State.clampsOk 0 (s.get (PN_LVL_CODE 511 6)) && decide (bits 0x44 2 0 ≤ 4) &&
      decide (bits 0x44 6 4 ≤ 4) && s.engine 63 == 0)
      (up)),
    ((fun s : State => s.ready && directView .bar0 && s.tiedTo 511 == none && !s.queueStands 63 (8 + 8 * 5 + 7) &&
      State.clampsOk 0xFFFF (s.get (PN_LVL_CODE 511 6)))
      ((up.put (PN_LVL_CODE 511 6) 0))),
    ((fun s : State => s.ready && directView .bar0 && s.tiedTo 511 == none && !s.queueStands 63 (8 + 8 * 6 + 7) &&
      State.clampsOk (s.get (PN_LVL_CODE 511 5)) 0)
      (up)),
    ((fun s : State => s.ready && directView .bar0 && s.tiedTo 511 != none && !s.queueStands 63 (8 + 8 * 1 + 7))
      (up.put (PN_CTRL_SELFTEST 511) 5)),
    ((fun s : State => s.ready && directView .bar0 && s.queueStands 63 (8 + 8 * 0 + 7))
      (up.setLvl 63 { Levels.reset with lastAt := up.now, applied := [8 + 7] })),
    ((fun s : State => s.ready && directView .bar0 && !State.clampsOk (s.get (PN_LVL_CODE 511 5)) 0xFFFF)
      ((up.put (PN_LVL_CODE 511 5) 0))),
    ((fun s : State => !s.on (PN_STAT_MODE_SETTLING 511) && s.tiedTo 511 == none && s.comparatorRuns 511 true && s.comparatorRuns 511 false)
      (up.put (PN_CMP_ABOVE_L 511) 1)),
    ((fun s : State => !s.on (PN_STAT_MODE_SETTLING 511) && s.tiedTo 511 == none && s.comparatorRuns 511 true && s.swapped 511)
      (up.put (PN_CTRL_SELFTEST 511) 1))
  ] = true := by decide +kernel

theorem witness_PinsTakeWritesAndShowEvents_2 : allOf [
    ((fun s : State => s.on (PN_STAT_MODE_SETTLING 511) || s.tiedTo 511 != none)
      (up.put (PN_CTRL_SELFTEST 511) 2)),
    ((fun s : State => s.on (PN_STAT_MODE_SETTLING 511) || s.tiedTo 511 != none)
      (up.mark (PN_STAT_MODE_SETTLING 511))),
    ((fun s : State => ((s.catchUp 511 s.now).ballDrive 511).isSome && !s.on (PN_STAT_ILIM_NOW 511) && s.on (PN_CTRL_ILIM_ERR 511))
      ((((up.setPin 511 { up.pin 511 with enable := true }).mark (PN_CTRL_DRV_EN 511)).mark (PN_CTRL_ILIM_ERR 511)).put (PN_CNT_ILIM_EVENTS 511) 65535)),
    ((fun s : State => s.ppmuForces 511 != .nothing)
      (up.put (PN_PPMU_CTRL_MODE 511) 1)),
    ((fun s : State => s.ppmuForces 511 != .nothing)
      (up.put (PN_PPMU_CTRL_MODE 511) 2)),
    ((fun s : State => s.ppmuForces 511 != .nothing)
      (up.put (PN_PPMU_CTRL_MODE 511) 3))
  ] = true := by decide +kernel

theorem witness_SamplesAreDelivered : allOf [
    ((fun s : State => (s.cmp 5).queue == [.sample ({ cmp2 5000 [⟨7, false, .high, 1000, 1000, false, false, none, some (false, false), true, 1000, 6120, true⟩] with resolved := true, capture := true, twoSamples := false, sent := false, endAt := 7680 })] &&
      (s.cmp 5).sentAt == 0 &&
      ({ cmp2 5000 [⟨7, false, .high, 1000, 1000, false, false, none, some (false, false), true, 1000, 6120, true⟩] with resolved := true, capture := true, twoSamples := false, sent := false, endAt := 7680 }).capture &&
      (!(({ cmp2 5000 [⟨7, false, .high, 1000, 1000, false, false, none, some (false, false), true, 1000, 6120, true⟩] with resolved := true, capture := true, twoSamples := false, sent := false, endAt := 7680 }).sent) || ({ cmp2 5000 [⟨7, false, .high, 1000, 1000, false, false, none, some (false, false), true, 1000, 6120, true⟩] with resolved := true, capture := true, twoSamples := false, sent := false, endAt := 7680 }).twoSamples) &&
      ({ cmp2 5000 [⟨7, false, .high, 1000, 1000, false, false, none, some (false, false), true, 1000, 6120, true⟩] with resolved := true, capture := true, twoSamples := false, sent := false, endAt := 7680 }).strobes.all (fun z => !z.isOpen || decide ((max (({ cmp2 5000 [⟨7, false, .high, 1000, 1000, false, false, none, some (false, false), true, 1000, 6120, true⟩] with resolved := true, capture := true, twoSamples := false, sent := false, endAt := 7680 }).completeAt (({ cmp2 5000 [⟨7, false, .high, 1000, 1000, false, false, none, some (false, false), true, 1000, 6120, true⟩] with resolved := true, capture := true, twoSamples := false, sent := false, endAt := 7680 }).sent)) 0) < z.solveAt)) &&
      s.get (TL_CAP_STAT_STATE 5) == 0 && !s.on (TL_MASK_CTRL_EN 5) &&
      decide ((sampleOf (((s.drainAll 5).advInst (max (({ cmp2 5000 [⟨7, false, .high, 1000, 1000, false, false, none, some (false, false), true, 1000, 6120, true⟩] with resolved := true, capture := true, twoSamples := false, sent := false, endAt := 7680 }).completeAt (({ cmp2 5000 [⟨7, false, .high, 1000, 1000, false, false, none, some (false, false), true, 1000, 6120, true⟩] with resolved := true, capture := true, twoSamples := false, sent := false, endAt := 7680 }).sent)) 0)).addressed 5 { ({ cmp2 5000 [⟨7, false, .high, 1000, 1000, false, false, none, some (false, false), true, 1000, 6120, true⟩] with resolved := true, capture := true, twoSamples := false, sent := false, endAt := 7680 }) with strobes := (({ cmp2 5000 [⟨7, false, .high, 1000, 1000, false, false, none, some (false, false), true, 1000, 6120, true⟩] with resolved := true, capture := true, twoSamples := false, sent := false, endAt := 7680 }).strobes.map (fun (z : Strobe) => if z.second == (({ cmp2 5000 [⟨7, false, .high, 1000, 1000, false, false, none, some (false, false), true, 1000, 6120, true⟩] with resolved := true, capture := true, twoSamples := false, sent := false, endAt := 7680 }).sent) then ((s.drainAll 5).advInst (max (({ cmp2 5000 [⟨7, false, .high, 1000, 1000, false, false, none, some (false, false), true, 1000, 6120, true⟩] with resolved := true, capture := true, twoSamples := false, sent := false, endAt := 7680 }).completeAt (({ cmp2 5000 [⟨7, false, .high, 1000, 1000, false, false, none, some (false, false), true, 1000, 6120, true⟩] with resolved := true, capture := true, twoSamples := false, sent := false, endAt := 7680 }).sent)) 0)).takeStrobe 5 z else z)) }) false).fail ≠ 0) &&
      !({ cmp2 5000 [⟨7, false, .high, 1000, 1000, false, false, none, some (false, false), true, 1000, 6120, true⟩] with resolved := true, capture := true, twoSamples := false, sent := false, endAt := 7680 }).flushed &&
      decide (s.fifoFill 5 < 512))
      (running.setCmp 5 { Compare.reset with queue := [.sample ({ cmp2 5000 [⟨7, false, .high, 1000, 1000, false, false, none, some (false, false), true, 1000, 6120, true⟩] with resolved := true, capture := true, twoSamples := false, sent := false, endAt := 7680 })], sentAt := 0 })),
    ((fun s : State => (s.cmp 5).queue == [.sample ({ cmp2 5000 [⟨7, false, .high, 1000, 1000, false, false, none, some (false, false), true, 1000, 6120, true⟩] with resolved := true, capture := true, twoSamples := false, sent := false, endAt := 7680 })] &&
      (s.cmp 5).sentAt == 9000 &&
      ({ cmp2 5000 [⟨7, false, .high, 1000, 1000, false, false, none, some (false, false), true, 1000, 6120, true⟩] with resolved := true, capture := true, twoSamples := false, sent := false, endAt := 7680 }).capture &&
      (!(({ cmp2 5000 [⟨7, false, .high, 1000, 1000, false, false, none, some (false, false), true, 1000, 6120, true⟩] with resolved := true, capture := true, twoSamples := false, sent := false, endAt := 7680 }).sent) || ({ cmp2 5000 [⟨7, false, .high, 1000, 1000, false, false, none, some (false, false), true, 1000, 6120, true⟩] with resolved := true, capture := true, twoSamples := false, sent := false, endAt := 7680 }).twoSamples) &&
      ({ cmp2 5000 [⟨7, false, .high, 1000, 1000, false, false, none, some (false, false), true, 1000, 6120, true⟩] with resolved := true, capture := true, twoSamples := false, sent := false, endAt := 7680 }).strobes.all (fun z => !z.isOpen || decide ((max (({ cmp2 5000 [⟨7, false, .high, 1000, 1000, false, false, none, some (false, false), true, 1000, 6120, true⟩] with resolved := true, capture := true, twoSamples := false, sent := false, endAt := 7680 }).completeAt (({ cmp2 5000 [⟨7, false, .high, 1000, 1000, false, false, none, some (false, false), true, 1000, 6120, true⟩] with resolved := true, capture := true, twoSamples := false, sent := false, endAt := 7680 }).sent)) 9000) < z.solveAt)) &&
      s.get (TL_CAP_STAT_STATE 5) == 0 && !s.on (TL_MASK_CTRL_EN 5) &&
      decide ((sampleOf (((s.drainAll 5).advInst (max (({ cmp2 5000 [⟨7, false, .high, 1000, 1000, false, false, none, some (false, false), true, 1000, 6120, true⟩] with resolved := true, capture := true, twoSamples := false, sent := false, endAt := 7680 }).completeAt (({ cmp2 5000 [⟨7, false, .high, 1000, 1000, false, false, none, some (false, false), true, 1000, 6120, true⟩] with resolved := true, capture := true, twoSamples := false, sent := false, endAt := 7680 }).sent)) 9000)).addressed 5 { ({ cmp2 5000 [⟨7, false, .high, 1000, 1000, false, false, none, some (false, false), true, 1000, 6120, true⟩] with resolved := true, capture := true, twoSamples := false, sent := false, endAt := 7680 }) with strobes := (({ cmp2 5000 [⟨7, false, .high, 1000, 1000, false, false, none, some (false, false), true, 1000, 6120, true⟩] with resolved := true, capture := true, twoSamples := false, sent := false, endAt := 7680 }).strobes.map (fun (z : Strobe) => if z.second == (({ cmp2 5000 [⟨7, false, .high, 1000, 1000, false, false, none, some (false, false), true, 1000, 6120, true⟩] with resolved := true, capture := true, twoSamples := false, sent := false, endAt := 7680 }).sent) then ((s.drainAll 5).advInst (max (({ cmp2 5000 [⟨7, false, .high, 1000, 1000, false, false, none, some (false, false), true, 1000, 6120, true⟩] with resolved := true, capture := true, twoSamples := false, sent := false, endAt := 7680 }).completeAt (({ cmp2 5000 [⟨7, false, .high, 1000, 1000, false, false, none, some (false, false), true, 1000, 6120, true⟩] with resolved := true, capture := true, twoSamples := false, sent := false, endAt := 7680 }).sent)) 9000)).takeStrobe 5 z else z)) }) false).fail ≠ 0) &&
      !({ cmp2 5000 [⟨7, false, .high, 1000, 1000, false, false, none, some (false, false), true, 1000, 6120, true⟩] with resolved := true, capture := true, twoSamples := false, sent := false, endAt := 7680 }).flushed &&
      decide (s.fifoFill 5 < 512))
      (running.setCmp 5 { Compare.reset with queue := [.sample ({ cmp2 5000 [⟨7, false, .high, 1000, 1000, false, false, none, some (false, false), true, 1000, 6120, true⟩] with resolved := true, capture := true, twoSamples := false, sent := false, endAt := 7680 })], sentAt := 9000 })),
    ((fun s : State => (s.cmp 5).queue == [.sample ({ cmp2 5000 [⟨7, false, .high, 1000, 1000, false, true, none, none, false, 1000, 6120, false⟩] with resolved := true, capture := true, twoSamples := false, sent := false, endAt := 7680 })] &&
      (s.cmp 5).sentAt == 100 &&
      ({ cmp2 5000 [⟨7, false, .high, 1000, 1000, false, true, none, none, false, 1000, 6120, false⟩] with resolved := true, capture := true, twoSamples := false, sent := false, endAt := 7680 }).capture &&
      (!(({ cmp2 5000 [⟨7, false, .high, 1000, 1000, false, true, none, none, false, 1000, 6120, false⟩] with resolved := true, capture := true, twoSamples := false, sent := false, endAt := 7680 }).sent) || ({ cmp2 5000 [⟨7, false, .high, 1000, 1000, false, true, none, none, false, 1000, 6120, false⟩] with resolved := true, capture := true, twoSamples := false, sent := false, endAt := 7680 }).twoSamples) &&
      ({ cmp2 5000 [⟨7, false, .high, 1000, 1000, false, true, none, none, false, 1000, 6120, false⟩] with resolved := true, capture := true, twoSamples := false, sent := false, endAt := 7680 }).strobes.all (fun z => !z.isOpen || decide ((max (({ cmp2 5000 [⟨7, false, .high, 1000, 1000, false, true, none, none, false, 1000, 6120, false⟩] with resolved := true, capture := true, twoSamples := false, sent := false, endAt := 7680 }).completeAt (({ cmp2 5000 [⟨7, false, .high, 1000, 1000, false, true, none, none, false, 1000, 6120, false⟩] with resolved := true, capture := true, twoSamples := false, sent := false, endAt := 7680 }).sent)) 100) < z.solveAt)))
      (running.setCmp 5 { Compare.reset with queue := [.sample ({ cmp2 5000 [⟨7, false, .high, 1000, 1000, false, true, none, none, false, 1000, 6120, false⟩] with resolved := true, capture := true, twoSamples := false, sent := false, endAt := 7680 })], sentAt := 100 })),
    ((fun s : State => (s.cmp 5).queue == [.sample ({ cmp2 5000 [⟨7, false, .cap, 1000, 1000, false, false, none, none, false, 1000, 6120, false⟩, ⟨7, true, .cap, 4000, 4000, false, false, none, none, false, 4000, 9120, false⟩] with resolved := true, capture := true, twoSamples := true, sent := false, endAt := 7680 })] &&
      (s.cmp 5).sentAt == 100 &&
      ({ cmp2 5000 [⟨7, false, .cap, 1000, 1000, false, false, none, none, false, 1000, 6120, false⟩, ⟨7, true, .cap, 4000, 4000, false, false, none, none, false, 4000, 9120, false⟩] with resolved := true, capture := true, twoSamples := true, sent := false, endAt := 7680 }).capture &&
      (!(({ cmp2 5000 [⟨7, false, .cap, 1000, 1000, false, false, none, none, false, 1000, 6120, false⟩, ⟨7, true, .cap, 4000, 4000, false, false, none, none, false, 4000, 9120, false⟩] with resolved := true, capture := true, twoSamples := true, sent := false, endAt := 7680 }).sent) || ({ cmp2 5000 [⟨7, false, .cap, 1000, 1000, false, false, none, none, false, 1000, 6120, false⟩, ⟨7, true, .cap, 4000, 4000, false, false, none, none, false, 4000, 9120, false⟩] with resolved := true, capture := true, twoSamples := true, sent := false, endAt := 7680 }).twoSamples) &&
      ({ cmp2 5000 [⟨7, false, .cap, 1000, 1000, false, false, none, none, false, 1000, 6120, false⟩, ⟨7, true, .cap, 4000, 4000, false, false, none, none, false, 4000, 9120, false⟩] with resolved := true, capture := true, twoSamples := true, sent := false, endAt := 7680 }).strobes.all (fun z => !z.isOpen || decide ((max (({ cmp2 5000 [⟨7, false, .cap, 1000, 1000, false, false, none, none, false, 1000, 6120, false⟩, ⟨7, true, .cap, 4000, 4000, false, false, none, none, false, 4000, 9120, false⟩] with resolved := true, capture := true, twoSamples := true, sent := false, endAt := 7680 }).completeAt (({ cmp2 5000 [⟨7, false, .cap, 1000, 1000, false, false, none, none, false, 1000, 6120, false⟩, ⟨7, true, .cap, 4000, 4000, false, false, none, none, false, 4000, 9120, false⟩] with resolved := true, capture := true, twoSamples := true, sent := false, endAt := 7680 }).sent)) 100) < z.solveAt)))
      (running.setCmp 5 { Compare.reset with queue := [.sample ({ cmp2 5000 [⟨7, false, .cap, 1000, 1000, false, false, none, none, false, 1000, 6120, false⟩, ⟨7, true, .cap, 4000, 4000, false, false, none, none, false, 4000, 9120, false⟩] with resolved := true, capture := true, twoSamples := true, sent := false, endAt := 7680 })], sentAt := 100 })),
    ((fun s : State => (s.cmp 5).queue == [.sample ({ cmp2 5000 [⟨7, false, .cap, 1000, 1000, false, false, none, none, false, 1000, 6120, false⟩, ⟨7, true, .cap, 4000, 4000, false, false, none, none, false, 4000, 9120, false⟩] with resolved := true, capture := true, twoSamples := true, sent := true, endAt := 7680 })] &&
      (s.cmp 5).sentAt == 1000 &&
      ({ cmp2 5000 [⟨7, false, .cap, 1000, 1000, false, false, none, none, false, 1000, 6120, false⟩, ⟨7, true, .cap, 4000, 4000, false, false, none, none, false, 4000, 9120, false⟩] with resolved := true, capture := true, twoSamples := true, sent := true, endAt := 7680 }).capture &&
      (!(({ cmp2 5000 [⟨7, false, .cap, 1000, 1000, false, false, none, none, false, 1000, 6120, false⟩, ⟨7, true, .cap, 4000, 4000, false, false, none, none, false, 4000, 9120, false⟩] with resolved := true, capture := true, twoSamples := true, sent := true, endAt := 7680 }).sent) || ({ cmp2 5000 [⟨7, false, .cap, 1000, 1000, false, false, none, none, false, 1000, 6120, false⟩, ⟨7, true, .cap, 4000, 4000, false, false, none, none, false, 4000, 9120, false⟩] with resolved := true, capture := true, twoSamples := true, sent := true, endAt := 7680 }).twoSamples) &&
      ({ cmp2 5000 [⟨7, false, .cap, 1000, 1000, false, false, none, none, false, 1000, 6120, false⟩, ⟨7, true, .cap, 4000, 4000, false, false, none, none, false, 4000, 9120, false⟩] with resolved := true, capture := true, twoSamples := true, sent := true, endAt := 7680 }).strobes.all (fun z => !z.isOpen || decide ((max (({ cmp2 5000 [⟨7, false, .cap, 1000, 1000, false, false, none, none, false, 1000, 6120, false⟩, ⟨7, true, .cap, 4000, 4000, false, false, none, none, false, 4000, 9120, false⟩] with resolved := true, capture := true, twoSamples := true, sent := true, endAt := 7680 }).completeAt (({ cmp2 5000 [⟨7, false, .cap, 1000, 1000, false, false, none, none, false, 1000, 6120, false⟩, ⟨7, true, .cap, 4000, 4000, false, false, none, none, false, 4000, 9120, false⟩] with resolved := true, capture := true, twoSamples := true, sent := true, endAt := 7680 }).sent)) 1000) < z.solveAt)))
      (running.setCmp 5 { Compare.reset with queue := [.sample ({ cmp2 5000 [⟨7, false, .cap, 1000, 1000, false, false, none, none, false, 1000, 6120, false⟩, ⟨7, true, .cap, 4000, 4000, false, false, none, none, false, 4000, 9120, false⟩] with resolved := true, capture := true, twoSamples := true, sent := true, endAt := 7680 })], sentAt := 1000 }))
  ] = true := by decide +kernel

theorem witness_QueueAndCaptureCommandsComplete : allOf [
    ((fun s : State => s.ready && directView .bar0 && !s.active 63 && s.on (TL_FQ_CTRL_DEST 63) != true && s.boundDest 63 != some 1)
      (up.setFq 63 { FailFifo.reset with entries := [⟨1, false⟩, ⟨2, false⟩] })),
    ((fun s : State => s.ready && directView .bar0 && s.active 5 && s.on (TL_FQ_CTRL_DEST 5) != true && s.on (TL_FQ_STAT_DEST_NOW 5) != true &&
      s.boundDest 5 != some 1)
      (running)),
    ((fun s : State => s.ready && directView .bar0 && s.on (TL_FQ_CTRL_DEST 5) != true && s.boundDest 5 == some 1)
      (running.setCmp 5 { Compare.reset with queue := [.packetEnd ⟨7, 0, 0, 1, 0, true, some 1, false⟩] })),
    ((fun s : State => s.ready && directView .bar0 && s.get (TL_CAP_STAT_STATE 63) != 1 && s.get (TL_CAP_STAT_STATE 63) != 2)
      (((up.put (TL_CAP_STAT_STATE 63) 0).setReg (TL_TRIG_STATUS 63) 0xFF).setCap 63 { Capture.reset with entries := [⟨1, false⟩] })),
    ((fun s : State => s.ready && directView .bar0 && s.get (TL_CAP_STAT_STATE 63) != 1 && s.get (TL_CAP_STAT_STATE 63) != 2)
      (((up.put (TL_CAP_STAT_STATE 63) 3).setReg (TL_TRIG_STATUS 63) 0xFF).setCap 63 { Capture.reset with entries := [⟨1, false⟩] })),
    ((fun s : State => s.ready && directView .bar0 && s.get (TL_CAP_STAT_STATE 63) == 1 && !s.on (TL_CAP_CTRL_AUTO 63))
      ((up.put (TL_CAP_STAT_STATE 63) 1).setCap 63 { Capture.reset with entries := [⟨1, false⟩] })),
    ((fun s : State => s.ready && directView .bar0 && s.get (TL_CAP_STAT_STATE 63) == 2 && !s.on (TL_CAP_CTRL_AUTO 63))
      ((up.put (TL_CAP_STAT_STATE 63) 2).setCap 63 { Capture.reset with entries := [⟨1, false⟩] }))
  ] = true := by decide +kernel

theorem witness_SequenceMicroOpsSteerTheRoutine_1 : allOf [
    ((fun s : State => s.inRoutine 31)
      (((up.put (TH_STAT_STATE 31) 2).setThr 31 { Thresher.reset with upc := 16383 }))),
    ((fun s : State => s.inRoutine 31)
      (((up.put (TH_STAT_STATE 31) 3).setThr 31 { Thresher.reset with upc := 16383, after := 255 }))),
    ((fun s : State => s.inRoutine 31 && decide (0 < 6 ∨ 0 = 8))
      (((up.put (TH_STAT_STATE 31) 2).setThr 31 { Thresher.reset with z := true }))),
    ((fun s : State => s.inRoutine 31 && decide (0 < 6 ∨ 0 = 8))
      (((up.put (TH_STAT_STATE 31) 2).setThr 31 { Thresher.reset with z := false }))),
    ((fun s : State => s.inRoutine 31 && decide (1 < 6 ∨ 1 = 8))
      (((up.put (TH_STAT_STATE 31) 2).setThr 31 { Thresher.reset with z := true }))),
    ((fun s : State => s.inRoutine 31 && decide (1 < 6 ∨ 1 = 8))
      (((up.put (TH_STAT_STATE 31) 2).setThr 31 { Thresher.reset with z := false }))),
    ((fun s : State => s.inRoutine 31 && decide (2 < 6 ∨ 2 = 8))
      (((up.put (TH_STAT_STATE 31) 2).setThr 31 { Thresher.reset with n := true }))),
    ((fun s : State => s.inRoutine 31 && decide (2 < 6 ∨ 2 = 8))
      (((up.put (TH_STAT_STATE 31) 2).setThr 31 { Thresher.reset with n := false }))),
    ((fun s : State => s.inRoutine 31 && decide (3 < 6 ∨ 3 = 8))
      (((up.put (TH_STAT_STATE 31) 2).setThr 31 { Thresher.reset with n := true }))),
    ((fun s : State => s.inRoutine 31 && decide (3 < 6 ∨ 3 = 8))
      (((up.put (TH_STAT_STATE 31) 2).setThr 31 { Thresher.reset with n := false }))),
    ((fun s : State => s.inRoutine 31 && decide (4 < 6 ∨ 4 = 8))
      (((up.put (TH_STAT_STATE 31) 2).setThr 31 { Thresher.reset with c := true }))),
    ((fun s : State => s.inRoutine 31 && decide (4 < 6 ∨ 4 = 8))
      (((up.put (TH_STAT_STATE 31) 2).setThr 31 { Thresher.reset with c := false })))
  ] = true := by decide +kernel

theorem witness_SequenceMicroOpsSteerTheRoutine_2 : allOf [
    ((fun s : State => s.inRoutine 31 && decide (5 < 6 ∨ 5 = 8))
      (((up.put (TH_STAT_STATE 31) 2).setThr 31 { Thresher.reset with c := true }))),
    ((fun s : State => s.inRoutine 31 && decide (5 < 6 ∨ 5 = 8))
      (((up.put (TH_STAT_STATE 31) 2).setThr 31 { Thresher.reset with c := false }))),
    ((fun s : State => s.inRoutine 31 && decide (8 < 6 ∨ 8 = 8))
      (((up.put (TH_STAT_STATE 31) 2).setThr 31 { Thresher.reset with fresh := true }))),
    ((fun s : State => s.inRoutine 31 && decide (8 < 6 ∨ 8 = 8))
      (((up.put (TH_STAT_STATE 31) 2).setThr 31 { Thresher.reset with fresh := false }))),
    ((fun s : State => s.inRoutine 31 && decide (4 ≤ (s.thr 31).stack.length))
      (((up.put (TH_STAT_STATE 31) 2).setThr 31 { Thresher.reset with stack := [1, 2, 3, 4] }))),
    ((fun s : State => s.inRoutine 31 && (s.thr 31).stack == [16389])
      (((up.put (TH_STAT_STATE 31) 3).setThr 31 { Thresher.reset with stack := [16389], heldStop := true }))),
    ((fun s : State => s.inRoutine 31 && (s.thr 31).heldTillers != [])
      (((up.put (TH_STAT_STATE 31) 3).setThr 31 { Thresher.reset with heldTillers := [54] }))),
    ((fun s : State => s.thState 31 == 2 && decide (16 ≤ 16) && decide (s.thWrites 31 + 16 ≤ 16) && s.thReads 31 == 0 && (s.thr 31).posted == [] &&
      (s.lineBuf 31 15).line == none)
      (((up.put (TH_STAT_STATE 31) 2).setThr 31 { Thresher.reset with fifo := [⟨1, 54, false, false⟩, ⟨2, 54, false, false⟩], cursor := 4, curw := some 9, lock := some 4095, shadow := 2 ^ 511 + 7 }))),
    ((fun s : State => s.thState 31 == 2 && decide (16 < s.thWrites 31 + 16) && ((s.thReads 31 != 0) || (s.thr 31).posted != []) && decide (16 ≤ 16) &&
      (s.lineBuf 31 15).line != none)
      (((up.put (TH_STAT_STATE 31) 2).setThr 31 { Thresher.reset with posted := [.note 1 2, .line 5 6 false 0], bufs := [(15, ⟨0, false, some 3, false, false, 0⟩)] }))),
    ((fun s : State => s.inRoutine 31 && (s.lineBuf 31 15).line == none && !(s.thr 31).fifo.isEmpty)
      (((up.put (TH_STAT_STATE 31) 2).setThr 31 { Thresher.reset with fifo := [⟨2 ^ 125, 54, false, false⟩], bufs := [(15, ⟨0, true, none, false, false, 0⟩)] }))),
    ((fun s : State => s.inRoutine 31 && (s.lineBuf 31 15).line == none && !(s.thr 31).fifo.isEmpty)
      (((up.put (TH_STAT_STATE 31) 2).setThr 31 { Thresher.reset with fifo := [⟨5, 54, false, false⟩], bufs := [(15, ⟨0, false, none, false, false, 0⟩)] }))),
    ((fun s : State => s.inRoutine 31)
      (((up.put (TH_STAT_STATE 31) 2).setThr 31 { Thresher.reset with upc := 0 })))
  ] = true := by decide +kernel

theorem witness_SequenceMicroOpsSteerTheRoutine_3 : allOf [
    ((fun s : State => s.thState 31 == 3)
      (((up.put (TH_STAT_STATE 31) 3).setThr 31 { Thresher.reset with upc := 0 })))
  ] = true := by decide +kernel

theorem witness_ArithmeticMicroOpsCompute : allOf [
    ((fun s : State => s.inRoutine 31 && (⟨31, 29, 30, false, 0⟩ : AluOps).dst != 0 && s.gReg 31 29 == 0xFFFFFFFF && decide (1 < 32))
      (((up.put (TH_STAT_STATE 31) 2).setThr 31 { Thresher.reset with g := [(29, 0xFFFFFFFF), (30, 1), (31, 0xABCDEF01)] }))),
    ((fun s : State => s.inRoutine 31 && (⟨31, 29, 30, false, 0⟩ : AluOps).dst != 0 && s.gReg 31 29 == 0x80000000 &&
      (0x80000000 : Nat).testBit 31 == (0x80000001 : Nat).testBit 31)
      (((up.put (TH_STAT_STATE 31) 2).setThr 31 { Thresher.reset with g := [(29, 0x80000000), (30, 0x80000001), (31, 0xABCDEF01)] }))),
    ((fun s : State => s.inRoutine 31 && (⟨31, 29, 30, true, 31⟩ : AluOps).dst != 0 && s.gReg 31 29 == 5 && decide (31 < 32) &&
      (5 : Nat).testBit 31 == (31 : Nat).testBit 31)
      (((up.put (TH_STAT_STATE 31) 2).setThr 31 { Thresher.reset with g := [(29, 5), (31, 0xABCDEF01)] }))),
    ((fun s : State => s.inRoutine 31 && (⟨31, 29, 30, true, 0x124⟩ : AluOps).dst != 0 && s.gReg 31 29 == 0x12345678 && decide (1 ≤ bits 0x124 10 5) &&
      decide (0x124 % 32 + bits 0x124 10 5 ≤ 32) && (0x12345678 : Nat).testBit 31 == (0x124 : Nat).testBit 31)
      (((up.put (TH_STAT_STATE 31) 2).setThr 31 { Thresher.reset with g := [(29, 0x12345678), (31, 0xABCDEF01)] }))),
    ((fun s : State => s.inRoutine 31 && (⟨31, 29, 30, true, 0x400⟩ : AluOps).dst != 0 && s.gReg 31 29 == 0 && decide (1 ≤ bits 0x400 10 5) &&
      decide (0x400 % 32 + bits 0x400 10 5 ≤ 32) && (0 : Nat).testBit 31 == (0x400 : Nat).testBit 31)
      (((up.put (TH_STAT_STATE 31) 2).setThr 31 { Thresher.reset with g := [(31, 0xABCDEF01)] }))),
    ((fun s : State => s.inRoutine 31 && (⟨31, 29, 30, false, 0⟩ : AluOps).dst != 0 && s.gReg 31 29 == 7)
      (((up.put (TH_STAT_STATE 31) 2).setThr 31 { Thresher.reset with g := [(29, 7), (30, 0xFFFFFFFF), (31, 0xABCDEF01)] }))),
    ((fun s : State => s.inRoutine 31 && (⟨31, 29, 30, true, 0xFFFFFFFF⟩ : AluOps).dst != 0 && s.gReg 31 29 == 5)
      (((up.put (TH_STAT_STATE 31) 2).setThr 31 { Thresher.reset with g := [(29, 5), (30, 7), (31, 0xABCDEF01)] }))),
    ((fun s : State => s.inRoutine 31 && (⟨0, 29, 30, false, 0⟩ : AluOps).dst == 0 && s.gReg 31 29 == 0xFFFFFFFF && s.gReg 31 30 == 1)
      (((up.put (TH_STAT_STATE 31) 2).setThr 31 { Thresher.reset with g := [(29, 0xFFFFFFFF), (30, 1)] }))),
    ((fun s : State => s.inRoutine 31 && (⟨0, 29, 30, false, 0⟩ : AluOps).dst == 0 && s.gReg 31 29 == 5 && s.gReg 31 30 == 31)
      (((up.put (TH_STAT_STATE 31) 2).setThr 31 { Thresher.reset with g := [(29, 5), (30, 31)] }))),
    ((fun s : State => s.inRoutine 31 && (⟨0, 29, 30, false, 0⟩ : AluOps).dst == 0 && s.gReg 31 29 == 7 && s.gReg 31 30 == 0x24)
      (((up.put (TH_STAT_STATE 31) 2).setThr 31 { Thresher.reset with g := [(29, 7), (30, 0x24)] })))
  ] = true := by decide +kernel

theorem witness_MemoryAndContextMicroOpsAct_1 : allOf [
    ((fun s : State => s.thState 31 == 2 && (s.lineBuf 31 15).line == none && s.inRoutine 31 && decide (s.gReg 31 30 < 2 ^ 32) &&
      (⟨15, 29, 30, 0xFFFF⟩ : MemOps).md != 0)
      (((up.put (TH_STAT_STATE 31) 2).setThr 31 { Thresher.reset with g := [(29, 5), (30, 0x12345678)], bufs := [(15, ⟨2 ^ 511 + 1, false, none, false, false, 0⟩)], shadow := 2 ^ 500 + 0xFF010203 }))),
    ((fun s : State => s.thState 31 == 3 && decide ((s.thr 31).after < 256) && decide (1 ≤ (s.thr 31).allowed) && (s.lineBuf 31 15).line == none)
      (((up.put (TH_STAT_STATE 31) 3).setThr 31 { Thresher.reset with g := [(29, 5)], bufs := [(15, ⟨7, true, none, false, false, 0⟩)], after := 255, allowed := 1, issued := 9 }))),
    ((fun s : State => s.thState 31 == 2 && !s.on FC_INJ_STAT_ARMED && s.single == [] && s.uncorr == [] &&
      (s.thr (State.otherTh 31)).lock != some (s.gReg 31 30 % 4096) &&
      (bytesOf ((s.releaseLock 31).loadLE (State.ctxAddr 31 0xFFF) 64) 3 2).testBit 0 &&
      !(bytesOf ((s.releaseLock 31).loadLE (State.ctxAddr 31 0xFFF) 64) 3 2).testBit 1 &&
      bytesOf ((s.releaseLock 31).loadLE (State.ctxAddr 31 0xFFF) 64) 0 3 == bits (s.gReg 31 30) 29 12)
      ((((up.put (TH_STAT_STATE 31) 2).setThr 31 { Thresher.reset with g := [(30, 0x3FFFFFFF)] }).storeBytes (State.ctxAddr 31 0xFFF) [0xFF, 0xFF, 0x03, 0x01]))),
    ((fun s : State => s.thState 31 == 2 && !s.on FC_INJ_STAT_ARMED && s.single == [] && s.uncorr == [] &&
      (s.thr (State.otherTh 31)).lock != some (s.gReg 31 30 % 4096) &&
      !((bytesOf ((s.releaseLock 31).loadLE (State.ctxAddr 31 0xFFF) 64) 3 2).testBit 0 &&
      !(bytesOf ((s.releaseLock 31).loadLE (State.ctxAddr 31 0xFFF) 64) 3 2).testBit 1))
      (((up.put (TH_STAT_STATE 31) 2).setThr 31 { Thresher.reset with g := [(30, 0x3FFFFFFF)] }))),
    ((fun s : State => s.thState 31 == 2 && !s.on FC_INJ_STAT_ARMED && s.single == [] && s.uncorr == [] &&
      (s.thr (State.otherTh 31)).lock != some (s.gReg 31 30 % 4096) &&
      (bytesOf ((s.releaseLock 31).loadLE (State.ctxAddr 31 0xFFF) 64) 3 2).testBit 0 &&
      !(bytesOf ((s.releaseLock 31).loadLE (State.ctxAddr 31 0xFFF) 64) 3 2).testBit 1 &&
      bytesOf ((s.releaseLock 31).loadLE (State.ctxAddr 31 0xFFF) 64) 0 3 != bits (s.gReg 31 30) 29 12)
      ((((up.put (TH_STAT_STATE 31) 2).setThr 31 { Thresher.reset with g := [(30, 0x3FFFFFFF)] }).storeBytes (State.ctxAddr 31 0xFFF) [0xFE, 0xFF, 0x03, 0x01]))),
    ((fun s : State => s.thState 31 == 2 && (s.thr (State.otherTh 31)).lock == some (s.gReg 31 30 % 4096))
      (((up.put (TH_STAT_STATE 31) 2).setThr 31 { Thresher.reset with g := [(30, 0x3FFFFFFF)] }).setThr 30 { Thresher.reset with lock := some 0xFFF })),
    ((fun s : State => s.inRoutine 31 && decide (0 < 3) && decide (63 + 1 ≤ 64) && s.thState 31 == 2)
      (((up.put (TH_STAT_STATE 31) 2).setThr 31 { Thresher.reset with g := [(30, 0x01FF)], shadow := 2 ^ 511 + 0x0102030405FF }))),
    ((fun s : State => s.inRoutine 31 && decide (1 < 3) && decide (62 + 2 ≤ 64) && s.thState 31 == 2)
      (((up.put (TH_STAT_STATE 31) 2).setThr 31 { Thresher.reset with g := [(30, 0x01FF)], shadow := 2 ^ 511 + 0x0102030405FF }))),
    ((fun s : State => s.inRoutine 31 && decide (2 < 3) && decide (60 + 4 ≤ 64) && s.thState 31 == 2)
      (((up.put (TH_STAT_STATE 31) 2).setThr 31 { Thresher.reset with g := [(30, 0x01FF)], shadow := 2 ^ 511 + 0x0102030405FF }))),
    ((fun s : State => s.inRoutine 31 && decide (2 < 3) && decide (0 + 4 ≤ 64) && s.thState 31 == 2)
      (((up.put (TH_STAT_STATE 31) 2).setThr 31 { Thresher.reset with g := [(30, 0x01FF)], shadow := 2 ^ 511 + 0x0102030405FF }))),
    ((fun s : State => s.inRoutine 31 && decide (0 < 3) && decide (1 + 1 ≤ 64) && s.thState 31 == 2)
      (((up.put (TH_STAT_STATE 31) 2).setThr 31 { Thresher.reset with g := [(30, 0x01FF)], shadow := 2 ^ 511 + 0x0102030405FF }))),
    ((fun s : State => s.inRoutine 31 && decide (0 + 16 ≤ 64))
      (((up.put (TH_STAT_STATE 31) 2).setThr 31 { Thresher.reset with g := [(30, 0x01FF)], shadow := 2 ^ 511 + 0x0102030405FF })))
  ] = true := by decide +kernel

theorem witness_MemoryAndContextMicroOpsAct_2 : allOf [
    ((fun s : State => s.inRoutine 31 && decide (48 + 16 ≤ 64))
      (((up.put (TH_STAT_STATE 31) 2).setThr 31 { Thresher.reset with g := [(30, 0x01FF)], shadow := 2 ^ 511 + 0x0102030405FF }))),
    ((fun s : State => s.thState 31 == 2 && decide (56 + s.gReg 31 30 % 64 / 8 < 64))
      (((up.put (TH_STAT_STATE 31) 2).setThr 31 { Thresher.reset with g := [(30, 0x01FF)], shadow := 2 ^ 511 + 0x0102030405FF }))),
    ((fun s : State => s.inRoutine 31 && s.thState 31 == 2 && (s.lineBuf 31 15).line == none && (⟨15, 0, 0, 0xFFFF⟩ : MemOps).md == 0 &&
      (⟨0, 0, 2⟩ : CtxOps).creg == 0)
      (((up.put (TH_STAT_STATE 31) 2).setThr 31 { Thresher.reset with bufs := [(15, ⟨2 ^ 511 + 1, false, none, false, false, 0⟩)], shadow := 2 ^ 63 + 5 })))
  ] = true := by decide +kernel

theorem witness_InputAndOutputMicroOpsAct : allOf [
    ((fun s : State => s.inRoutine 31 && (s.thr 31).fifo == [⟨2 ^ 127 + 9, 54, false, false⟩] && !s.on FC_INJ_STAT_ARMED &&
      decide (s.gReg 31 30 < 2 ^ 32) && s.thState 31 == 2)
      (((up.put (TH_STAT_STATE 31) 2).setThr 31 { Thresher.reset with fifo := [⟨2 ^ 127 + 9, 54, false, false⟩], g := [(29, 0xFFFF), (30, 0x12345678)], cursor := 77, scratch := [(1022, 3)] }))),
    ((fun s : State => s.inRoutine 31 && (s.thr 31).fifo == [⟨2 ^ 127 + 9, 54, false, false⟩] && !s.on FC_INJ_STAT_ARMED &&
      decide (s.gReg 31 30 < 2 ^ 32) && s.thState 31 == 2)
      (((up.put (TH_STAT_STATE 31) 2).setThr 31 { Thresher.reset with fifo := [⟨2 ^ 127 + 9, 54, false, false⟩], g := [(29, 0xFFFF), (30, 0x12345678)], cursor := 77, scratch := [(2, 3)] }))),
    ((fun s : State => s.inRoutine 31 && (s.thr 31).fifo == [⟨2 ^ 127 + 9, 54, false, false⟩] && !s.on FC_INJ_STAT_ARMED &&
      decide (s.gReg 31 30 < 2 ^ 32) && s.thState 31 == 2)
      (((up.put (TH_STAT_STATE 31) 2).setThr 31 { Thresher.reset with fifo := [⟨2 ^ 127 + 9, 54, false, false⟩], g := [(29, 0xFFFF), (30, 0x12345678)], cursor := 77, scratch := [(3, 3)] }))),
    ((fun s : State => s.inRoutine 31)
      ((((up.put (TH_STAT_STATE 31) 2).setThr 31 { Thresher.reset with upc := 1 }).put (SH_BMAP_LO_BASE_LO 15 3) 0x3FFFFFF).put (SH_BMAP_HI_BASE_HI 15 3) 1)),
    ((fun s : State => s.thState 31 == 2 && decide (4 % 8 ≤ s.ringFree 31))
      (((up.put (TH_STAT_STATE 31) 2).setThr 31 { Thresher.reset with upc := 1 }))),
    ((fun s : State => s.thState 31 == 2 && decide (s.ringFree 31 < 4 % 8))
      ((((up.put (TH_RING_TAIL_INDEX 31) 4).put (TH_STAT_STATE 31) 2).setThr 31 { Thresher.reset with reserved := 0 }))),
    ((fun s : State => s.thState 31 == 3 && decide ((s.thr 31).after < 256) && decide (1 ≤ (s.thr 31).allowed) && decide (1 ≤ (s.thr 31).reserved))
      (((up.put (TH_STAT_STATE 31) 3).setThr 31 { Thresher.reset with reserved := 1, allowed := 1, after := 255, ringBufs := [(3, 99)], ringNext := 0, issued := 9 }))),
    ((fun s : State => s.thState 31 == 3 && decide ((s.thr 31).after < 256) && (s.thr 31).posted != [])
      (((up.put (TH_STAT_STATE 31) 3).setThr 31 { Thresher.reset with posted := [.ring 5 6 0], after := 255, g := [(29, 1), (30, 2)] }))),
    ((fun s : State => s.inRoutine 31 && (s.thr 31).fifo == [⟨2 ^ 127 + 9, 54, false, false⟩] && !s.on FC_INJ_STAT_ARMED && (⟨0, 0, 3⟩ : IoOps).id == 0)
      (((up.put (TH_STAT_STATE 31) 2).setThr 31 { Thresher.reset with fifo := [⟨2 ^ 127 + 9, 54, false, false⟩], cursor := 77, scratch := [(3, 3)] })))
  ] = true := by decide +kernel

theorem witness_RecordsAndRequestsOfThreshersMove : allOf [
    ((fun s : State => !s.on (TL_FQ_STAT_DEST_NOW 63) && (s.fq 63).entries == [⟨5, false⟩, ⟨6, false⟩] && (s.fq 63).run == none &&
      (s.route 63).plan == [] && decide ((s.route 63).force < 2) && !s.on FC_INJ_STAT_ARMED &&
      (s.thr (2 * sheafOf 63 + (1 - (s.route 63).force))).fifo == [] && decide ((s.thr (2 * sheafOf 63 + (s.route 63).force)).fifo.length < 16) &&
      (sheafTillers (sheafOf 63)).all (fun q => q == 63 || (s.fq q).entries == []))
      (up.setFq 63 { FailFifo.reset with entries := [⟨5, false⟩, ⟨6, false⟩] })),
    ((fun s : State => (s.thr 31).fifo == [⟨5, 63, false, false⟩] && s.thState 31 == 1 && !s.builtinEntry 31 (State.entryOf ⟨5, 63, false, false⟩))
      ((up.put (TH_STAT_STATE 31) 1).setThr 31 { Thresher.reset with fifo := [⟨5, 63, false, false⟩] } |>.put (TH_ENTRY_INDEX 31 (State.entryOf ⟨5, 63, false, false⟩)) 16383)),
    ((fun s : State => (s.lineBuf 31 15).line == some 0xFFFFFFF && !(s.lineBuf 31 15).orphan && !(s.lineBuf 31 15).got && !s.answers (64 * 0xFFFFFFF) &&
      !s.readFirst 31 0xFFFFFFF 3)
      (up.setThr 31 { Thresher.reset with bufs := [(15, ⟨0, false, some 0xFFFFFFF, false, false, 3⟩)] })),
    ((fun s : State => (s.lineBuf 31 15).line == some 7 && s.readFirst 31 7 (s.lineBuf 31 15).at_)
      (up.setThr 31 { Thresher.reset with bufs := [(2, ⟨0, false, some 7, false, false, 1⟩), (15, ⟨0, false, some 7, false, false, 3⟩)] })),
    ((fun s : State => (s.thr 31).posted == [.line 0xFFFFFFF 5 true 4] && !s.readFirst 31 0xFFFFFFF 4)
      (up.setThr 31 { Thresher.reset with posted := [.line 0xFFFFFFF 5 true 4] })),
    ((fun s : State => decide (8 ≠ 9) && !s.readFirst 31 9 5)
      (up.setThr 31 { Thresher.reset with posted := [.line 8 5 true 4, .line 9 6 false 5, .note 1 2] })),
    ((fun s : State => (8 == 8 || s.readFirst 31 8 5))
      (up.setThr 31 { Thresher.reset with posted := [.line 8 5 true 4, .line 8 6 false 5, .note 1 2] })),
    ((fun s : State => (8 == 9 || s.readFirst 31 9 5))
      (up.setThr 31 { Thresher.reset with bufs := [(2, ⟨0, false, some 9, false, false, 1⟩)], posted := [.line 8 5 true 4, .line 9 6 false 5, .note 1 2] })),
    ((fun s : State => decide (8 ≠ 9) && !s.readFirst 31 9 5)
      (up.setThr 31 { Thresher.reset with bufs := [(2, ⟨0, false, some 9, false, false, 6⟩)], posted := [.line 8 5 true 4, .line 9 6 false 5, .note 1 2] })),
    ((fun s : State => (s.thr 31).posted == [.ring 0 5 4] && !s.readFirst 31 0 4 && decide (s.ringSize 31 ≤ 65536))
      ((up.setThr 31 { Thresher.reset with posted := [.ring 0 5 4] }).put (TH_RING_HEAD_INDEX 31) (up.ringSize 31 - 1)))
  ] = true := by decide +kernel

theorem witness_ThreshersAndSheavesObeyCommands_1 : allOf [
    ((fun s : State => s.ready && directView .bar0 && !s.on (TH_CTRL_RUN 31) && s.thState 31 == 0 && !s.on (SH_UCS_CTRL_LOAD_EN 15))
      (up)),
    ((fun s : State => s.ready && directView .bar0 && !s.on (TH_CTRL_RUN 31) && s.on (SH_UCS_CTRL_LOAD_EN 15))
      (up.mark (SH_UCS_CTRL_LOAD_EN 15))),
    ((fun s : State => s.ready && directView .bar0 && s.on (TH_CTRL_RUN 31) && s.thState 31 == 1)
      ((((up.mark (TH_CTRL_RUN 31)).put (TH_STAT_STATE 31) 1).setThr 31 { Thresher.reset with upc := 1 }))),
    ((fun s : State => s.ready && directView .bar0 && s.on (TH_CTRL_RUN 31) && s.thState 31 == 2)
      ((((up.mark (TH_CTRL_RUN 31)).put (TH_STAT_STATE 31) 2).setThr 31 { Thresher.reset with lock := some 4, fifo := [⟨5, 63, false, false⟩] }))),
    ((fun s : State => s.ready && directView .bar0 && s.on (TH_CTRL_RUN 31) && s.thState 31 == 3)
      ((((up.mark (TH_CTRL_RUN 31)).put (TH_STAT_STATE 31) 3).setThr 31 { Thresher.reset with upc := 1 }))),
    ((fun s : State => s.ready && directView .bar0 && s.thState 31 == 4)
      ((((up.put (TH_CTRL_RUN 31) 0).put (TH_STAT_STATE 31) 4).setThr 31 { Thresher.reset with upc := 1 }))),
    ((fun s : State => s.ready && directView .bar0 && s.thState 31 == 4)
      ((((up.put (TH_CTRL_RUN 31) 1).put (TH_STAT_STATE 31) 4).setThr 31 { Thresher.reset with upc := 1 }))),
    ((fun s : State => s.ready && directView .bar0 && decide ((s.thr 31).fifo.length < 16) &&
      (s.route ((sheafTillers (31 / 2)).getD 2 0)).force == 31 % 2)
      (up)),
    ((fun s : State => s.ready && directView .bar0 && decide ((s.thr 31).fifo.length < 16) &&
      (s.route ((sheafTillers (31 / 2)).getD 3 0)).force == 31 % 2)
      (up)),
    ((fun s : State => s.ready && directView .bar0 && decide (16 ≤ (s.thr 31).fifo.length))
      (up.setThr 31 { Thresher.reset with fifo := List.replicate 16 ⟨5, 63, false, false⟩ })),
    ((fun s : State => s.ready && directView .bar0 && (sheafTillers 15).all (fun t => !(s.route t).wait &&
      (s.route t).force == b2n ((0xC : Nat).testBit (inSheaf t))))
      (up)),
    ((fun s : State => s.ready && directView .bar0 && !s.on (SH_UCS_CTRL_LOAD_EN 15) && s.thState 30 == 0 && s.thState 31 == 0 &&
      !s.on FC_INJ_STAT_ARMED)
      (up))
  ] = true := by decide +kernel

theorem witness_ThreshersAndSheavesObeyCommands_2 : allOf [
    ((fun s : State => s.ready && directView .bar0 && !s.on (SH_UCS_CTRL_LOAD_EN 15) && s.thState 30 != 0)
      (up.put (TH_STAT_STATE 30) 4)),
    ((fun s : State => s.ready && directView .bar0 && s.on (SH_UCS_CTRL_LOAD_EN 15) &&
      (List.range 7).all (fun k => decide (storeGet (fun _ => 0) (s.sheaf 15).data k < 2 ^ 32)) && (0xFFFFFFFF : Nat).testBit 31)
      (((up.mark (SH_UCS_CTRL_LOAD_EN 15)).put (SH_UCS_CTRL_ADDR 15) 16383).setSheaf 15 { Sheaf.reset with data := [(0, 0xFFFFFFFF), (6, 0xFFFFFFFF)] })),
    ((fun s : State => s.ready && directView .bar0 && (sheafTillers 15).all (fun t => t == 63 || (!(s.route t).wait &&
      (s.route t).force == b2n ((4 : Nat).testBit (inSheaf t)))) && decide ((s.route 63).force < 2) && !(s.route 63).wait && s.active 63)
      ((up.put (TL_SEQ_STAT_STATE 63) 1))),
    ((fun s : State => s.ready && directView .bar0 && (sheafTillers 15).all (fun t => t == 63 || (!(s.route t).wait &&
      (s.route t).force == b2n ((4 : Nat).testBit (inSheaf t)))) && decide ((s.route 63).force < 2) && !(s.route 63).wait && !s.active 63 &&
      (s.route 63).plan == [] && !(s.fq 63).entries.isEmpty)
      (up.setFq 63 { FailFifo.reset with entries := [⟨5, false⟩, ⟨6, false⟩] })),
    ((fun s : State => s.ready && directView .bar0 && (sheafTillers 15).all (fun t => t == 63 || (!(s.route t).wait &&
      (s.route t).force == b2n ((4 : Nat).testBit (inSheaf t)))) && decide ((s.route 63).force < 2) && !(s.route 63).wait && !s.active 63 &&
      (s.route 63).plan == [] && s.holdsOf 31 63)
      (up.setThr 31 { Thresher.reset with fifo := [⟨5, 63, false, false⟩] })),
    ((fun s : State => s.ready && directView .bar0 && (sheafTillers 15).all (fun t => t == 63 || (!(s.route t).wait &&
      (s.route t).force == b2n ((4 : Nat).testBit (inSheaf t)))) && decide ((s.route 63).force < 2) && !(s.route 63).wait && !s.active 63 &&
      (s.fq 63).entries.isEmpty && !s.holdsOf 31 63)
      (up)),
    ((fun s : State => s.ready && directView .bar0 && (sheafTillers 15).all (fun t => t == 63 || (!(s.route t).wait &&
      (s.route t).force == b2n ((12 : Nat).testBit (inSheaf t)))) && decide ((s.route 63).force < 2) && s.route 63 == ⟨1, true, []⟩)
      ((up.put (TL_SEQ_STAT_STATE 63) 1).setRoute 63 ⟨1, true, []⟩)),
    ((fun s : State => s.ready && directView .bar0 && (sheafTillers 15).all (fun t => t == 63 || (!(s.route t).wait &&
      (s.route t).force == b2n ((12 : Nat).testBit (inSheaf t)))) && decide ((s.route 63).force < 2) && s.route 63 == ⟨1, true, [(2, 0)]⟩)
      ((up.put (TL_SEQ_STAT_STATE 63) 1).setRoute 63 ⟨1, true, [(2, 0)]⟩))
  ] = true := by decide +kernel

theorem witness_SuppliesTurnOnAndChangeRange_1 : allOf [
    ((fun s : State => s.ready && directView .bar0 && s.get (TL_SUP_STAT_STATE 63 0) == 0 && !s.on (TL_SUP_CTRL_EN 63 0) && !s.power.noSafe &&
      !s.inReset 63 && s.get (ST_SEQ_CFG_STAGGER (rowOf 63)) != 0)
      (up.put (ST_SEQ_CFG_STAGGER 7) 255)),
    ((fun s : State => s.ready && directView .bar0 && s.get (TL_SUP_STAT_STATE 63 0) == 0 && !s.on (TL_SUP_CTRL_EN 63 0) && !s.power.noSafe &&
      !s.inReset 63 && s.get (ST_SEQ_CFG_STAGGER (rowOf 63)) == 0)
      (up.put (ST_SEQ_CFG_STAGGER 7) 0)),
    ((fun s : State => s.ready && directView .bar0 && s.get (TL_SUP_STAT_STATE 63 0) == 2 && !s.on (TL_SUP_CTRL_EN 63 0) && !(s.sup 63 0).heldOff)
      (up.put (TL_SUP_STAT_STATE 63 0) 2)),
    ((fun s : State => s.ready && directView .bar0 && s.get (TL_SUP_STAT_STATE 63 0) == 2 && (s.sup 63 0).heldOff)
      ((up.put (TL_SUP_STAT_STATE 63 0) 2).setSup 63 0 { Supply.reset with heldOff := true })),
    ((fun s : State => s.ready && directView .bar0 && s.nextEnable (rowOf 63) == some (63, 0) &&
      storeGet (fun _ => none) s.lastAdmit (rowOf 63) == some 40)
      ({ ((up.setSup 63 0 { Supply.reset with enReq := true }).mark (TL_SUP_CTRL_EN 63 0)).put (ST_SEQ_CFG_STAGGER 7) 3 with lastAdmit := [(7, some 40)] })),
    ((fun s : State => s.ready && directView .bar0 && s.supOn 63 0 && s.on (TL_SUP_CTRL_EN 63 0))
      (((up.put (TL_SUP_STAT_STATE 63 0) 1).mark (TL_SUP_CTRL_EN 63 0)).put (TL_SUP_OUT_CODE 63 0) 999)),
    ((fun s : State => s.ready && directView .bar0 && s.get (TL_SUP_STAT_STATE 63 1) == 0 && !s.on (TL_SUP_CTRL_EN 63 1) && !s.power.noSafe &&
      !s.inReset 63 && s.get (ST_SEQ_CFG_STAGGER (rowOf 63)) != 0)
      (up.put (ST_SEQ_CFG_STAGGER 7) 255)),
    ((fun s : State => s.ready && directView .bar0 && s.get (TL_SUP_STAT_STATE 63 1) == 0 && !s.on (TL_SUP_CTRL_EN 63 1) && !s.power.noSafe &&
      !s.inReset 63 && s.get (ST_SEQ_CFG_STAGGER (rowOf 63)) == 0)
      (up.put (ST_SEQ_CFG_STAGGER 7) 0)),
    ((fun s : State => s.ready && directView .bar0 && s.get (TL_SUP_STAT_STATE 63 1) == 2 && !s.on (TL_SUP_CTRL_EN 63 1) && !(s.sup 63 1).heldOff)
      (up.put (TL_SUP_STAT_STATE 63 1) 2)),
    ((fun s : State => s.ready && directView .bar0 && s.get (TL_SUP_STAT_STATE 63 1) == 2 && (s.sup 63 1).heldOff)
      ((up.put (TL_SUP_STAT_STATE 63 1) 2).setSup 63 1 { Supply.reset with heldOff := true })),
    ((fun s : State => s.ready && directView .bar0 && s.nextEnable (rowOf 63) == some (63, 1) &&
      storeGet (fun _ => none) s.lastAdmit (rowOf 63) == some 40)
      ({ ((up.setSup 63 1 { Supply.reset with enReq := true }).mark (TL_SUP_CTRL_EN 63 1)).put (ST_SEQ_CFG_STAGGER 7) 3 with lastAdmit := [(7, some 40)] })),
    ((fun s : State => s.ready && directView .bar0 && s.supOn 63 1 && s.on (TL_SUP_CTRL_EN 63 1))
      (((up.put (TL_SUP_STAT_STATE 63 1) 1).mark (TL_SUP_CTRL_EN 63 1)).put (TL_SUP_OUT_CODE 63 1) 999))
  ] = true := by decide +kernel

theorem witness_SuppliesTurnOnAndChangeRange_2 : allOf [
    ((fun s : State => s.ready && directView .bar0 && !s.queueStands 63 2 && !s.on (TL_SUP_CTRL_EN 63 0) && (s.sup 63 0).rangeWait == none)
      (up)),
    ((fun s : State => s.ready && directView .bar0 && !s.queueStands 63 2 && s.on (TL_SUP_CTRL_EN 63 0) && !s.on (TL_SUP_STAT_RNG_PEND 63 0) &&
      s.get (TL_SUP_CTRL_RNG 63 0) != 3)
      ({ (up.put (TL_SUP_STAT_STATE 63 0) 0).mark (TL_SUP_CTRL_EN 63 0) with ticks := 77 })),
    ((fun s : State => s.ready && directView .bar0 && !s.queueStands 63 2 && s.on (TL_SUP_CTRL_EN 63 0) && !s.on (TL_SUP_STAT_RNG_PEND 63 0) &&
      s.get (TL_SUP_CTRL_RNG 63 0) != 3)
      ({ (up.put (TL_SUP_STAT_STATE 63 0) 1).mark (TL_SUP_CTRL_EN 63 0) with ticks := 77 })),
    ((fun s : State => s.ready && directView .bar0 && !s.queueStands 63 2 && s.on (TL_SUP_CTRL_EN 63 0) && s.on (TL_SUP_STAT_RNG_PEND 63 0))
      ((up.mark (TL_SUP_CTRL_EN 63 0)).mark (TL_SUP_STAT_RNG_PEND 63 0))),
    ((fun s : State => s.ready && directView .bar0 && s.queueStands 63 2 && s.on (TL_SUP_CTRL_EN 63 0))
      ((up.mark (TL_SUP_CTRL_EN 63 0)).setLvl 63 { Levels.reset with lastAt := up.now, applied := [2] })),
    ((fun s : State => s.ready && directView .bar0 && (s.sup 63 0).rangeAt == some 77 && (s.sup 63 0).rangeWait == none &&
      (s.sup 63 0).settleUntil == some 900)
      (((up.put (TL_SUP_CTRL_RNG 63 0) 2).mark (TL_SUP_STAT_SETTLE 63 0)).setSup 63 0 { Supply.reset with rangeAt := some 77, oldRange := 1, settleUntil := some 900 })),
    ((fun s : State => s.ready && directView .bar0 && s.bipolar 63 1 != true && s.on (TL_SUP_CTRL_EN 63 1) == false)
      (((up.put (TL_SUP_CTRL_RNG 63 1) 0).put (TL_SUP_CTRL_EN 63 1) 0))),
    ((fun s : State => s.ready && directView .bar0 && s.bipolar 63 1 != false && s.on (TL_SUP_CTRL_EN 63 1) == false)
      (((up.put (TL_SUP_CTRL_RNG 63 1) 1).put (TL_SUP_CTRL_EN 63 1) 0))),
    ((fun s : State => s.ready && directView .bar0 && s.bipolar 63 1 != true && s.on (TL_SUP_CTRL_EN 63 1) == true)
      (((up.put (TL_SUP_CTRL_RNG 63 1) 0).put (TL_SUP_CTRL_EN 63 1) 1))),
    ((fun s : State => s.ready && directView .bar0 && s.bipolar 63 1 != false && s.on (TL_SUP_CTRL_EN 63 1) == true)
      (((up.put (TL_SUP_CTRL_RNG 63 1) 1).put (TL_SUP_CTRL_EN 63 1) 1)))
  ] = true := by decide +kernel

theorem witness_CodesAndLimitsAct_1 : allOf [
    ((fun s : State => s.ready && directView .bar0 && !s.queueStands 63 1 && s.get (TL_SUP_CTRL_SRC 63 0) == 0)
      (up.put (TL_SUP_CTRL_SRC 63 0) 0)),
    ((fun s : State => s.ready && directView .bar0 && !s.queueStands 63 1)
      (up.put (TL_SUP_CTRL_SRC 63 0) 2)),
    ((fun s : State => s.ready && directView .bar0 && s.queueStands 63 1)
      (up.setLvl 63 { Levels.reset with lastAt := up.now, applied := [1] })),
    ((fun s : State => s.ready && directView .bar0 && decide (0xFFFF1234 % 2 ^ 16 ≤ s.get (TL_SUP_ECEIL_ECEIL 63 0)) &&
      decide (s.get (TL_SUP_ECEIL_ECEIL 63 0) < 0x1235 % 2 ^ 16))
      (up.put (TL_SUP_ECEIL_ECEIL 63 0) 0x1234)),
    ((fun s : State => s.supOn 63 0 && !s.on (TL_SUP_STAT_ILIM_NOW 63 0))
      ({ (up.put (TL_SUP_STAT_STATE 63 0) 1).put (TL_SUP_CNT_ILIM_EVENTS 63 0) 65535 with ticks := 7 })),
    ((fun s : State => (s.sup 63 0).limitAt == some 7 && s.get (TL_SUP_ILIM_TIME 63 0) != 0)
      (((up.put (TL_SUP_STAT_STATE 63 0) 1).put (TL_SUP_ILIM_TIME 63 0) 3).setSup 63 0 { Supply.reset with limitAt := some 7 })),
    ((fun s : State => (s.sup 63 0).limitAt == some 7 && s.get (TL_SUP_ILIM_TIME 63 0) != 0)
      (((up.put (TL_SUP_STAT_STATE 63 0) 2).put (TL_SUP_ILIM_TIME 63 0) 3).setSup 63 0 { Supply.reset with limitAt := some 7 })),
    ((fun s : State => s.supOn 63 0 && s.get (TL_SUP_SLEW_STEP 63 0) != 0)
      ((((up.put (TL_SUP_STAT_STATE 63 0) 1).put (TL_SUP_SLEW_STEP 63 0) 3).put (TL_SUP_TGT_CODE 63 0) 1000).setOut 63 0 999)),
    ((fun s : State => s.supOn 63 0 && s.get (TL_SUP_SLEW_STEP 63 0) != 0)
      ((((up.put (TL_SUP_STAT_STATE 63 0) 1).put (TL_SUP_SLEW_STEP 63 0) 3).put (TL_SUP_TGT_CODE 63 0) 998).setOut 63 0 999)),
    ((fun s : State => s.supOn 63 0 && s.get (TL_SUP_SLEW_STEP 63 0) != 0)
      ((((up.put (TL_SUP_STAT_STATE 63 0) 1).put (TL_SUP_SLEW_STEP 63 0) 3).put (TL_SUP_TGT_CODE 63 0) 5).setOut 63 0 999)),
    ((fun s : State => s.ready && directView .bar0 && !s.queueStands 63 3 && s.get (TL_SUP_CTRL_SRC 63 1) == 0)
      (up.put (TL_SUP_CTRL_SRC 63 1) 0)),
    ((fun s : State => s.ready && directView .bar0 && !s.queueStands 63 3)
      (up.put (TL_SUP_CTRL_SRC 63 1) 2))
  ] = true := by decide +kernel

theorem witness_CodesAndLimitsAct_2 : allOf [
    ((fun s : State => s.ready && directView .bar0 && s.queueStands 63 3)
      (up.setLvl 63 { Levels.reset with lastAt := up.now, applied := [3] })),
    ((fun s : State => s.ready && directView .bar0 && decide (0xFFFF1234 % 2 ^ 16 ≤ s.get (TL_SUP_ECEIL_ECEIL 63 1)) &&
      decide (s.get (TL_SUP_ECEIL_ECEIL 63 1) < 0x1235 % 2 ^ 16))
      (up.put (TL_SUP_ECEIL_ECEIL 63 1) 0x1234)),
    ((fun s : State => s.supOn 63 1 && !s.on (TL_SUP_STAT_ILIM_NOW 63 1))
      ({ (up.put (TL_SUP_STAT_STATE 63 1) 1).put (TL_SUP_CNT_ILIM_EVENTS 63 1) 65535 with ticks := 7 })),
    ((fun s : State => (s.sup 63 1).limitAt == some 7 && s.get (TL_SUP_ILIM_TIME 63 1) != 0)
      (((up.put (TL_SUP_STAT_STATE 63 1) 1).put (TL_SUP_ILIM_TIME 63 1) 3).setSup 63 1 { Supply.reset with limitAt := some 7 })),
    ((fun s : State => (s.sup 63 1).limitAt == some 7 && s.get (TL_SUP_ILIM_TIME 63 1) != 0)
      (((up.put (TL_SUP_STAT_STATE 63 1) 2).put (TL_SUP_ILIM_TIME 63 1) 3).setSup 63 1 { Supply.reset with limitAt := some 7 })),
    ((fun s : State => s.supOn 63 1 && s.get (TL_SUP_SLEW_STEP 63 1) != 0)
      ((((up.put (TL_SUP_STAT_STATE 63 1) 1).put (TL_SUP_SLEW_STEP 63 1) 3).put (TL_SUP_TGT_CODE 63 1) 1000).setOut 63 1 999)),
    ((fun s : State => s.supOn 63 1 && s.get (TL_SUP_SLEW_STEP 63 1) != 0)
      ((((up.put (TL_SUP_STAT_STATE 63 1) 1).put (TL_SUP_SLEW_STEP 63 1) 3).put (TL_SUP_TGT_CODE 63 1) 998).setOut 63 1 999)),
    ((fun s : State => s.supOn 63 1 && s.get (TL_SUP_SLEW_STEP 63 1) != 0)
      ((((up.put (TL_SUP_STAT_STATE 63 1) 1).put (TL_SUP_SLEW_STEP 63 1) 3).put (TL_SUP_TGT_CODE 63 1) 5).setOut 63 1 999))
  ] = true := by decide +kernel

theorem witness_WaveformPlayerRuns_1 : allOf [
    ((fun s : State => s.ready && directView .bar0 && s.wfState 63 0 == 0 && s.wfTableOk 63 0 && s.get (TL_SUP_WF_CTRL_START_SRC 63 0) == 0)
      ({ up with ticks := 7 })),
    ((fun s : State => s.ready && directView .bar0 && s.wfState 63 0 == 0 && s.wfTableOk 63 0 && s.get (TL_SUP_WF_CTRL_START_SRC 63 0) == 1)
      (up.put (TL_SUP_WF_CTRL_START_SRC 63 0) 1)),
    ((fun s : State => s.ready && directView .bar0 && s.wfState 63 0 == 0 && s.wfTableOk 63 0 && s.get (TL_SUP_WF_CTRL_START_SRC 63 0) == 2 &&
      (decide ((s.get (TL_SUP_WF_START_VALUE 63 0) + 2 ^ 32 - s.view % 2 ^ 32) % 2 ^ 32 < 2 ^ 31) == true))
      ({ (up.put (TL_SUP_WF_CTRL_START_SRC 63 0) 2).put (TL_SUP_WF_START_VALUE 63 0) 5000 with count := 0, ticks := 7 })),
    ((fun s : State => s.ready && directView .bar0 && s.wfState 63 0 == 0 && s.wfTableOk 63 0 && s.get (TL_SUP_WF_CTRL_START_SRC 63 0) == 2 &&
      (decide ((s.get (TL_SUP_WF_START_VALUE 63 0) + 2 ^ 32 - s.view % 2 ^ 32) % 2 ^ 32 < 2 ^ 31) == false))
      ({ (up.put (TL_SUP_WF_CTRL_START_SRC 63 0) 2).put (TL_SUP_WF_START_VALUE 63 0) 2147483648 with count := 0, ticks := 7 })),
    ((fun s : State => s.ready && directView .bar0 && s.wfState 63 0 == 0 && s.wfTableOk 63 0 && s.get (TL_SUP_WF_CTRL_START_SRC 63 0) == 2 &&
      (decide ((s.get (TL_SUP_WF_START_VALUE 63 0) + 2 ^ 32 - s.view % 2 ^ 32) % 2 ^ 32 < 2 ^ 31) == false))
      ({ (up.put (TL_SUP_WF_CTRL_START_SRC 63 0) 2).put (TL_SUP_WF_START_VALUE 63 0) 5 with count := 5000, ticks := 7 })),
    ((fun s : State => s.ready && directView .bar0 && s.wfState 63 0 == 0 && !s.wfTableOk 63 0)
      ((up.put (TL_SUP_CTRL_SRC 63 0) 1).put (TL_SUP_WF_LEN_LEN 63 0) 1)),
    ((fun s : State => s.ready && directView .bar0 && s.wfState 63 0 == 1)
      ((up.put (TL_SUP_WF_STAT_STATE 63 0) 1).setSup 63 0 { Supply.reset with nextAt := some 900 })),
    ((fun s : State => s.ready && directView .bar0 && s.wfState 63 0 == 2)
      ((up.put (TL_SUP_WF_STAT_STATE 63 0) 2).setSup 63 0 { Supply.reset with nextAt := some 900 })),
    ((fun s : State => s.wfState 63 0 == 2 && (s.sup 63 0).nextAt == some 900 && (s.sup 63 0).stopReq)
      ((up.put (TL_SUP_WF_STAT_STATE 63 0) 2).setSup 63 0 { Supply.reset with nextAt := some 900, stopReq := true, dev := 5 })),
    ((fun s : State => s.wfState 63 0 == 2 && (s.sup 63 0).nextAt == some 900 && !(s.sup 63 0).stopReq && s.get (TL_SUP_CTRL_SRC 63 0) == 2)
      ((((up.put (TL_SUP_WF_STAT_STATE 63 0) 2).put (TL_SUP_CTRL_SRC 63 0) 2).put (TL_SUP_WF_CTRL_GEN 63 0) 0).setSup 63 0 { Supply.reset with nextAt := some 900, lfsr := 77 })),
    ((fun s : State => s.wfState 63 0 == 2 && (s.sup 63 0).nextAt == some 900 && !(s.sup 63 0).stopReq && s.get (TL_SUP_CTRL_SRC 63 0) == 2)
      ((((up.put (TL_SUP_WF_STAT_STATE 63 0) 2).put (TL_SUP_CTRL_SRC 63 0) 2).put (TL_SUP_WF_CTRL_GEN 63 0) 1).setSup 63 0 { Supply.reset with nextAt := some 900, lfsr := 77 })),
    ((fun s : State => s.wfState 63 0 == 2 && (s.sup 63 0).nextAt == some 900 && !(s.sup 63 0).stopReq && s.get (TL_SUP_CTRL_SRC 63 0) == 2)
      ((((up.put (TL_SUP_WF_STAT_STATE 63 0) 2).put (TL_SUP_CTRL_SRC 63 0) 2).put (TL_SUP_WF_CTRL_GEN 63 0) 2).setSup 63 0 { Supply.reset with nextAt := some 900, lfsr := 77 }))
  ] = true := by decide +kernel

theorem witness_WaveformPlayerRuns_2 : allOf [
    ((fun s : State => s.wfState 63 0 == 2 && (s.sup 63 0).nextAt == some 900 && !(s.sup 63 0).stopReq && s.get (TL_SUP_CTRL_SRC 63 0) == 2)
      ((((up.put (TL_SUP_WF_STAT_STATE 63 0) 2).put (TL_SUP_CTRL_SRC 63 0) 2).put (TL_SUP_WF_CTRL_GEN 63 0) 3).setSup 63 0 { Supply.reset with nextAt := some 900, lfsr := 77 })),
    ((fun s : State => s.get (TL_SUP_CTRL_SRC 63 0) == 1 && (s.wfState 63 0 == 1) && decide (16 * 1 < s.get (TL_SUP_WF_LEN_LEN 63 0)))
      ((((up.put (TL_SUP_WF_STAT_STATE 63 0) 1).put (TL_SUP_CTRL_SRC 63 0) 1).put (TL_SUP_WF_LEN_LEN 63 0) 20).setByte 64 7)),
    ((fun s : State => s.ready && directView .bar0 && s.wfState 63 1 == 0 && s.wfTableOk 63 1 && s.get (TL_SUP_WF_CTRL_START_SRC 63 1) == 0)
      ({ up with ticks := 7 })),
    ((fun s : State => s.ready && directView .bar0 && s.wfState 63 1 == 0 && s.wfTableOk 63 1 && s.get (TL_SUP_WF_CTRL_START_SRC 63 1) == 1)
      (up.put (TL_SUP_WF_CTRL_START_SRC 63 1) 1)),
    ((fun s : State => s.ready && directView .bar0 && s.wfState 63 1 == 0 && s.wfTableOk 63 1 && s.get (TL_SUP_WF_CTRL_START_SRC 63 1) == 2 &&
      (decide ((s.get (TL_SUP_WF_START_VALUE 63 1) + 2 ^ 32 - s.view % 2 ^ 32) % 2 ^ 32 < 2 ^ 31) == true))
      ({ (up.put (TL_SUP_WF_CTRL_START_SRC 63 1) 2).put (TL_SUP_WF_START_VALUE 63 1) 5000 with count := 0, ticks := 7 })),
    ((fun s : State => s.ready && directView .bar0 && s.wfState 63 1 == 0 && s.wfTableOk 63 1 && s.get (TL_SUP_WF_CTRL_START_SRC 63 1) == 2 &&
      (decide ((s.get (TL_SUP_WF_START_VALUE 63 1) + 2 ^ 32 - s.view % 2 ^ 32) % 2 ^ 32 < 2 ^ 31) == false))
      ({ (up.put (TL_SUP_WF_CTRL_START_SRC 63 1) 2).put (TL_SUP_WF_START_VALUE 63 1) 2147483648 with count := 0, ticks := 7 })),
    ((fun s : State => s.ready && directView .bar0 && s.wfState 63 1 == 0 && s.wfTableOk 63 1 && s.get (TL_SUP_WF_CTRL_START_SRC 63 1) == 2 &&
      (decide ((s.get (TL_SUP_WF_START_VALUE 63 1) + 2 ^ 32 - s.view % 2 ^ 32) % 2 ^ 32 < 2 ^ 31) == false))
      ({ (up.put (TL_SUP_WF_CTRL_START_SRC 63 1) 2).put (TL_SUP_WF_START_VALUE 63 1) 5 with count := 5000, ticks := 7 })),
    ((fun s : State => s.ready && directView .bar0 && s.wfState 63 1 == 0 && !s.wfTableOk 63 1)
      ((up.put (TL_SUP_CTRL_SRC 63 1) 1).put (TL_SUP_WF_LEN_LEN 63 1) 1)),
    ((fun s : State => s.ready && directView .bar0 && s.wfState 63 1 == 1)
      ((up.put (TL_SUP_WF_STAT_STATE 63 1) 1).setSup 63 1 { Supply.reset with nextAt := some 900 })),
    ((fun s : State => s.ready && directView .bar0 && s.wfState 63 1 == 2)
      ((up.put (TL_SUP_WF_STAT_STATE 63 1) 2).setSup 63 1 { Supply.reset with nextAt := some 900 })),
    ((fun s : State => s.wfState 63 1 == 2 && (s.sup 63 1).nextAt == some 900 && (s.sup 63 1).stopReq)
      ((up.put (TL_SUP_WF_STAT_STATE 63 1) 2).setSup 63 1 { Supply.reset with nextAt := some 900, stopReq := true, dev := 5 })),
    ((fun s : State => s.wfState 63 1 == 2 && (s.sup 63 1).nextAt == some 900 && !(s.sup 63 1).stopReq && s.get (TL_SUP_CTRL_SRC 63 1) == 2)
      ((((up.put (TL_SUP_WF_STAT_STATE 63 1) 2).put (TL_SUP_CTRL_SRC 63 1) 2).put (TL_SUP_WF_CTRL_GEN 63 1) 0).setSup 63 1 { Supply.reset with nextAt := some 900, lfsr := 77 }))
  ] = true := by decide +kernel

theorem witness_WaveformPlayerRuns_3 : allOf [
    ((fun s : State => s.wfState 63 1 == 2 && (s.sup 63 1).nextAt == some 900 && !(s.sup 63 1).stopReq && s.get (TL_SUP_CTRL_SRC 63 1) == 2)
      ((((up.put (TL_SUP_WF_STAT_STATE 63 1) 2).put (TL_SUP_CTRL_SRC 63 1) 2).put (TL_SUP_WF_CTRL_GEN 63 1) 1).setSup 63 1 { Supply.reset with nextAt := some 900, lfsr := 77 })),
    ((fun s : State => s.wfState 63 1 == 2 && (s.sup 63 1).nextAt == some 900 && !(s.sup 63 1).stopReq && s.get (TL_SUP_CTRL_SRC 63 1) == 2)
      ((((up.put (TL_SUP_WF_STAT_STATE 63 1) 2).put (TL_SUP_CTRL_SRC 63 1) 2).put (TL_SUP_WF_CTRL_GEN 63 1) 2).setSup 63 1 { Supply.reset with nextAt := some 900, lfsr := 77 })),
    ((fun s : State => s.wfState 63 1 == 2 && (s.sup 63 1).nextAt == some 900 && !(s.sup 63 1).stopReq && s.get (TL_SUP_CTRL_SRC 63 1) == 2)
      ((((up.put (TL_SUP_WF_STAT_STATE 63 1) 2).put (TL_SUP_CTRL_SRC 63 1) 2).put (TL_SUP_WF_CTRL_GEN 63 1) 3).setSup 63 1 { Supply.reset with nextAt := some 900, lfsr := 77 })),
    ((fun s : State => s.get (TL_SUP_CTRL_SRC 63 1) == 1 && (s.wfState 63 1 == 1) && decide (16 * 1 < s.get (TL_SUP_WF_LEN_LEN 63 1)))
      ((((up.put (TL_SUP_WF_STAT_STATE 63 1) 1).put (TL_SUP_CTRL_SRC 63 1) 1).put (TL_SUP_WF_LEN_LEN 63 1) 20).setByte 64 7))
  ] = true := by decide +kernel

theorem witness_ProtectionOfSuppliesActs_1 : allOf [
    ((fun s : State => s.on (TL_SUP_CTRL_CB_EN 63 0) && s.supOn 63 0 && (s.sup 63 0).crowbarAt == none)
      (((up.mark (TL_SUP_CTRL_CB_EN 63 0)).put (TL_SUP_STAT_STATE 63 0) 1))),
    ((fun s : State => s.on (TL_SUP_CTRL_CB_EN 63 0) && s.supOn 63 0 && (s.sup 63 0).crowbarAt == none && decide ((s.sup 63 0).enAt + 1000 ≤ s.ticks) &&
      (s.sup 63 0).rangeAt.all (fun a => decide (a + 500 ≤ s.ticks)))
      ({ ((up.mark (TL_SUP_CTRL_CB_EN 63 0)).put (TL_SUP_STAT_STATE 63 0) 1).setSup 63 0 { Supply.reset with rangeAt := none } with ticks := 1000 })),
    ((fun s : State => s.on (TL_SUP_CTRL_CB_EN 63 0) && s.supOn 63 0 && (s.sup 63 0).crowbarAt == none && decide ((s.sup 63 0).enAt + 1000 ≤ s.ticks) &&
      (s.sup 63 0).rangeAt.all (fun a => decide (a + 500 ≤ s.ticks)))
      ({ ((up.mark (TL_SUP_CTRL_CB_EN 63 0)).put (TL_SUP_STAT_STATE 63 0) 1).setSup 63 0 { Supply.reset with rangeAt := some 500 } with ticks := 1000 })),
    ((fun s : State => (s.sup 63 0).crowbarAt == some 7 && !(s.sup 63 0).opened)
      (((up.mark (TL_SUP_CTRL_CB_EN 63 0)).put (TL_SUP_STAT_STATE 63 0) 1).setSup 63 0 { Supply.reset with crowbarAt := some 7 })),
    ((fun s : State => (s.sup 63 0).crowbarAt == some 7 && !(s.sup 63 0).opened)
      ((up.put (TL_SUP_STAT_STATE 63 0) 2).setSup 63 0 { Supply.reset with crowbarAt := some 7, heldOff := true })),
    ((fun s : State => (s.sup 63 0).opened)
      (((up.mark (TL_SUP_CTRL_CB_EN 63 0)).put (TL_SUP_STAT_STATE 63 0) 1).setSup 63 0 { Supply.reset with crowbarAt := some 7, opened := true })),
    ((fun s : State => s.on (TL_SUP_CTRL_SUP_EN 63 0) && s.supOn 63 0 && !s.on (TL_SUP_STAT_SETTLE 63 0) && (s.sup 63 0).history == [] &&
      decide (s.refStart 63 + 200000 ≤ s.readingTick 63 0) && decide (s.volts 63 0 (s.supOut 63 0) * 1000000 - 10000 * 65536 ≤ 10000 * 65536) &&
      decide (10000 * 65536 ≤ s.volts 63 0 (s.supOut 63 0) * 1000000 + 10000 * 65536))
      ({ ((((up.put (TL_SUP_STAT_STATE 63 0) 1).mark (TL_SUP_CTRL_SUP_EN 63 0)).put (TL_SUP_SUP_TOL 63 0) 10).put (TL_SUP_SUP_CNT 63 0) 2).setSup 63 0 { Supply.reset with viol := 1 } with ticks := 300000 })),
    ((fun s : State => s.on (TL_SUP_CTRL_SUP_EN 63 0) && s.supOn 63 0 && !s.on (TL_SUP_STAT_SETTLE 63 0) && (s.sup 63 0).history == [] &&
      decide (s.refStart 63 + 200000 ≤ s.readingTick 63 0) && decide (s.volts 63 0 (s.supOut 63 0) * 1000000 - 10000 * 65536 ≤ (-10000) * 65536) &&
      decide ((-10000) * 65536 ≤ s.volts 63 0 (s.supOut 63 0) * 1000000 + 10000 * 65536))
      ({ ((((up.put (TL_SUP_STAT_STATE 63 0) 1).mark (TL_SUP_CTRL_SUP_EN 63 0)).put (TL_SUP_SUP_TOL 63 0) 10).put (TL_SUP_SUP_CNT 63 0) 2).setSup 63 0 { Supply.reset with viol := 1 } with ticks := 300000 })),
    ((fun s : State => s.on (TL_SUP_CTRL_SUP_EN 63 0) && s.supOn 63 0 && !s.on (TL_SUP_STAT_SETTLE 63 0) && (s.sup 63 0).history == [] &&
      decide (s.refStart 63 + 200000 ≤ s.readingTick 63 0) &&
      (decide (s.volts 63 0 (s.supOut 63 0) * 1000000 + 10000 * 65536 < 10001 * 65536) || decide (10001 * 65536 < s.volts 63 0 (s.supOut 63 0) * 1000000 - 10000 * 65536)) &&
      decide (max 1 (s.get (TL_SUP_SUP_CNT 63 0)) ≤ (s.sup 63 0).viol + 1))
      ({ ((((up.put (TL_SUP_STAT_STATE 63 0) 1).mark (TL_SUP_CTRL_SUP_EN 63 0)).put (TL_SUP_SUP_TOL 63 0) 10).put (TL_SUP_SUP_CNT 63 0) 2).setSup 63 0 { Supply.reset with viol := 1 } with ticks := 300000 })),
    ((fun s : State => s.on (TL_SUP_CTRL_SUP_EN 63 0) && s.supOn 63 0 && !s.on (TL_SUP_STAT_SETTLE 63 0) && (s.sup 63 0).history == [] &&
      decide (s.refStart 63 + 200000 ≤ s.readingTick 63 0) &&
      (decide (s.volts 63 0 (s.supOut 63 0) * 1000000 + 10000 * 65536 < (-10001) * 65536) || decide ((-10001) * 65536 < s.volts 63 0 (s.supOut 63 0) * 1000000 - 10000 * 65536)) &&
      decide (max 1 (s.get (TL_SUP_SUP_CNT 63 0)) ≤ (s.sup 63 0).viol + 1))
      ({ ((((up.put (TL_SUP_STAT_STATE 63 0) 1).mark (TL_SUP_CTRL_SUP_EN 63 0)).put (TL_SUP_SUP_TOL 63 0) 10).put (TL_SUP_SUP_CNT 63 0) 2).setSup 63 0 { Supply.reset with viol := 1 } with ticks := 300000 })),
    ((fun s : State => !s.on (TL_SUP_CTRL_SUP_EN 63 0))
      (up.put (TL_SUP_CTRL_SUP_EN 63 0) 0)),
    ((fun s : State => s.on (TL_SUP_CTRL_SUP_EN 63 0) && decide (s.readingTick 63 0 < s.refStart 63 + 200000) &&
      (s.supOn 63 0 || (s.sup 63 0).disAt == none))
      (((up.put (TL_SUP_STAT_STATE 63 0) 1).mark (TL_SUP_CTRL_SUP_EN 63 0)).setSup 63 0 { Supply.reset with viol := 3, disAt := some 5 }))
  ] = true := by decide +kernel

theorem witness_ProtectionOfSuppliesActs_2 : allOf [
    ((fun s : State => s.on (TL_SUP_CTRL_SUP_EN 63 0) && decide (s.readingTick 63 0 < s.refStart 63 + 200000) &&
      (s.supOn 63 0 || (s.sup 63 0).disAt == none))
      (((up.put (TL_SUP_STAT_STATE 63 0) 0).mark (TL_SUP_CTRL_SUP_EN 63 0)).setSup 63 0 { Supply.reset with viol := 3, disAt := none })),
    ((fun s : State => s.on (TL_SUP_CTRL_SUP_EN 63 0) && !s.supOn 63 0 && (s.sup 63 0).disAt == some 7 && decide (7 + 1000000 < s.readingTick 63 0))
      ({ (up.mark (TL_SUP_CTRL_SUP_EN 63 0)).setSup 63 0 { Supply.reset with disAt := some 7 } with ticks := 1100000 })),
    ((fun s : State => s.on (TL_SUP_CTRL_CB_EN 63 1) && s.supOn 63 1 && (s.sup 63 1).crowbarAt == none)
      (((up.mark (TL_SUP_CTRL_CB_EN 63 1)).put (TL_SUP_STAT_STATE 63 1) 1))),
    ((fun s : State => s.on (TL_SUP_CTRL_CB_EN 63 1) && s.supOn 63 1 && (s.sup 63 1).crowbarAt == none && decide ((s.sup 63 1).enAt + 1000 ≤ s.ticks) &&
      (s.sup 63 1).rangeAt.all (fun a => decide (a + 500 ≤ s.ticks)))
      ({ ((up.mark (TL_SUP_CTRL_CB_EN 63 1)).put (TL_SUP_STAT_STATE 63 1) 1).setSup 63 1 { Supply.reset with rangeAt := none } with ticks := 1000 })),
    ((fun s : State => s.on (TL_SUP_CTRL_CB_EN 63 1) && s.supOn 63 1 && (s.sup 63 1).crowbarAt == none && decide ((s.sup 63 1).enAt + 1000 ≤ s.ticks) &&
      (s.sup 63 1).rangeAt.all (fun a => decide (a + 500 ≤ s.ticks)))
      ({ ((up.mark (TL_SUP_CTRL_CB_EN 63 1)).put (TL_SUP_STAT_STATE 63 1) 1).setSup 63 1 { Supply.reset with rangeAt := some 500 } with ticks := 1000 })),
    ((fun s : State => (s.sup 63 1).crowbarAt == some 7 && !(s.sup 63 1).opened)
      (((up.mark (TL_SUP_CTRL_CB_EN 63 1)).put (TL_SUP_STAT_STATE 63 1) 1).setSup 63 1 { Supply.reset with crowbarAt := some 7 })),
    ((fun s : State => (s.sup 63 1).crowbarAt == some 7 && !(s.sup 63 1).opened)
      ((up.put (TL_SUP_STAT_STATE 63 1) 2).setSup 63 1 { Supply.reset with crowbarAt := some 7, heldOff := true })),
    ((fun s : State => (s.sup 63 1).opened)
      (((up.mark (TL_SUP_CTRL_CB_EN 63 1)).put (TL_SUP_STAT_STATE 63 1) 1).setSup 63 1 { Supply.reset with crowbarAt := some 7, opened := true })),
    ((fun s : State => s.on (TL_SUP_CTRL_SUP_EN 63 1) && s.supOn 63 1 && !s.on (TL_SUP_STAT_SETTLE 63 0) && (s.sup 63 1).history == [] &&
      decide (s.refStart 63 + 200000 ≤ s.readingTick 63 1) && decide (s.volts 63 1 (s.supOut 63 1) * 1000000 - 10000 * 65536 ≤ 10000 * 65536) &&
      decide (10000 * 65536 ≤ s.volts 63 1 (s.supOut 63 1) * 1000000 + 10000 * 65536))
      ({ ((((up.put (TL_SUP_STAT_STATE 63 1) 1).mark (TL_SUP_CTRL_SUP_EN 63 1)).put (TL_SUP_SUP_TOL 63 1) 10).put (TL_SUP_SUP_CNT 63 1) 2).setSup 63 1 { Supply.reset with viol := 1 } with ticks := 300000 })),
    ((fun s : State => s.on (TL_SUP_CTRL_SUP_EN 63 1) && s.supOn 63 1 && !s.on (TL_SUP_STAT_SETTLE 63 0) && (s.sup 63 1).history == [] &&
      decide (s.refStart 63 + 200000 ≤ s.readingTick 63 1) && decide (s.volts 63 1 (s.supOut 63 1) * 1000000 - 10000 * 65536 ≤ (-10000) * 65536) &&
      decide ((-10000) * 65536 ≤ s.volts 63 1 (s.supOut 63 1) * 1000000 + 10000 * 65536))
      ({ ((((up.put (TL_SUP_STAT_STATE 63 1) 1).mark (TL_SUP_CTRL_SUP_EN 63 1)).put (TL_SUP_SUP_TOL 63 1) 10).put (TL_SUP_SUP_CNT 63 1) 2).setSup 63 1 { Supply.reset with viol := 1 } with ticks := 300000 })),
    ((fun s : State => s.on (TL_SUP_CTRL_SUP_EN 63 1) && s.supOn 63 1 && !s.on (TL_SUP_STAT_SETTLE 63 0) && (s.sup 63 1).history == [] &&
      decide (s.refStart 63 + 200000 ≤ s.readingTick 63 1) &&
      (decide (s.volts 63 1 (s.supOut 63 1) * 1000000 + 10000 * 65536 < 10001 * 65536) || decide (10001 * 65536 < s.volts 63 1 (s.supOut 63 1) * 1000000 - 10000 * 65536)) &&
      decide (max 1 (s.get (TL_SUP_SUP_CNT 63 1)) ≤ (s.sup 63 1).viol + 1))
      ({ ((((up.put (TL_SUP_STAT_STATE 63 1) 1).mark (TL_SUP_CTRL_SUP_EN 63 1)).put (TL_SUP_SUP_TOL 63 1) 10).put (TL_SUP_SUP_CNT 63 1) 2).setSup 63 1 { Supply.reset with viol := 1 } with ticks := 300000 })),
    ((fun s : State => s.on (TL_SUP_CTRL_SUP_EN 63 1) && s.supOn 63 1 && !s.on (TL_SUP_STAT_SETTLE 63 0) && (s.sup 63 1).history == [] &&
      decide (s.refStart 63 + 200000 ≤ s.readingTick 63 1) &&
      (decide (s.volts 63 1 (s.supOut 63 1) * 1000000 + 10000 * 65536 < (-10001) * 65536) || decide ((-10001) * 65536 < s.volts 63 1 (s.supOut 63 1) * 1000000 - 10000 * 65536)) &&
      decide (max 1 (s.get (TL_SUP_SUP_CNT 63 1)) ≤ (s.sup 63 1).viol + 1))
      ({ ((((up.put (TL_SUP_STAT_STATE 63 1) 1).mark (TL_SUP_CTRL_SUP_EN 63 1)).put (TL_SUP_SUP_TOL 63 1) 10).put (TL_SUP_SUP_CNT 63 1) 2).setSup 63 1 { Supply.reset with viol := 1 } with ticks := 300000 }))
  ] = true := by decide +kernel

theorem witness_ProtectionOfSuppliesActs_3 : allOf [
    ((fun s : State => !s.on (TL_SUP_CTRL_SUP_EN 63 1))
      (up.put (TL_SUP_CTRL_SUP_EN 63 1) 0)),
    ((fun s : State => s.on (TL_SUP_CTRL_SUP_EN 63 1) && decide (s.readingTick 63 1 < s.refStart 63 + 200000) &&
      (s.supOn 63 1 || (s.sup 63 1).disAt == none))
      (((up.put (TL_SUP_STAT_STATE 63 1) 1).mark (TL_SUP_CTRL_SUP_EN 63 1)).setSup 63 1 { Supply.reset with viol := 3, disAt := some 5 })),
    ((fun s : State => s.on (TL_SUP_CTRL_SUP_EN 63 1) && decide (s.readingTick 63 1 < s.refStart 63 + 200000) &&
      (s.supOn 63 1 || (s.sup 63 1).disAt == none))
      (((up.put (TL_SUP_STAT_STATE 63 1) 0).mark (TL_SUP_CTRL_SUP_EN 63 1)).setSup 63 1 { Supply.reset with viol := 3, disAt := none })),
    ((fun s : State => s.on (TL_SUP_CTRL_SUP_EN 63 1) && !s.supOn 63 1 && (s.sup 63 1).disAt == some 7 && decide (7 + 1000000 < s.readingTick 63 1))
      ({ (up.mark (TL_SUP_CTRL_SUP_EN 63 1)).setSup 63 1 { Supply.reset with disAt := some 7 } with ticks := 1100000 })),
    ((fun s : State => s.supOn 63 0)
      (up.put (TL_SUP_STAT_STATE 63 0) 1))
  ] = true := by decide +kernel

theorem witness_AdcBurstsRun_1 : allOf [
    ((fun s : State => s.ready && directView .bar0 && (s.adc 63).bursts == [])
      (up.put (TL_ADC_BURST_COUNT 63) 0)),
    ((fun s : State => s.ready && directView .bar0 &&
      (s.adc 63).bursts == [({ input := 0, range := 0, flen := 0, period := 0, count := 2, trigAt := 0, started := 2, lastAt := 9000, convs := [], total := 0, used := 0, sum := 0, least := 0, most := 0, buffer := none, line := [], last := none, aborted := false, refill := false } : Burst)] &&
      (s.adc 63).held == none &&
      (({ input := 0, range := 0, flen := 0, period := 0, count := 2, trigAt := 0, started := 2, lastAt := 9000, convs := [], total := 0, used := 0, sum := 0, least := 0, most := 0, buffer := none, line := [], last := none, aborted := false, refill := false } : Burst)).convs == [])
      ((up.put (TL_ADC_BURST_COUNT 63) 65535).setAdc 63 { Adc.reset with bursts := [({ input := 0, range := 0, flen := 0, period := 0, count := 2, trigAt := 0, started := 2, lastAt := 9000, convs := [], total := 0, used := 0, sum := 0, least := 0, most := 0, buffer := none, line := [], last := none, aborted := false, refill := false } : Burst)] })),
    ((fun s : State => s.ready && directView .bar0 && (s.adc 63).bursts != [] && (s.adc 63).held == some (50000, 0) && decide (2 ≤ 2))
      (up.setAdc 63 { Adc.reset with bursts := [({ input := 0, range := 0, flen := 0, period := 0, count := 2, trigAt := 0, started := 2, lastAt := 9000, convs := [], total := 0, used := 0, sum := 0, least := 0, most := 0, buffer := none, line := [], last := none, aborted := false, refill := false } : Burst)], held := some (50000, 0) })),
    ((fun s : State => (s.adc 63).due == [(12800, 0), (5, 6)] && (s.adc 63).bursts == [])
      (up.setAdc 63 { Adc.reset with due := [(12800, 0), (5, 6)] })),
    ((fun s : State => (s.adc 63).bursts == [({ input := 0, range := 0, flen := 0, period := 0, count := 2, trigAt := 0, started := 0, lastAt := 9000, convs := [], total := 0, used := 0, sum := 0, least := 0, most := 0, buffer := none, line := [], last := none, aborted := false, refill := false } : Burst)] &&
      decide (0 < 2))
      (((up.put (TL_ADC_STAT_SETTLE_LEFT 63) 0).setCalTl 63 { CalTiller.reset with stepEnd := none }).setAdc 63 { Adc.reset with bursts := [({ input := 0, range := 0, flen := 0, period := 0, count := 2, trigAt := 0, started := 0, lastAt := 9000, convs := [], total := 0, used := 0, sum := 0, least := 0, most := 0, buffer := none, line := [], last := none, aborted := false, refill := false } : Burst)] })),
    ((fun s : State => (s.adc 63).bursts == [({ input := 0, range := 0, flen := 0, period := 0, count := 2, trigAt := 0, started := 0, lastAt := 9000, convs := [], total := 0, used := 0, sum := 0, least := 0, most := 0, buffer := none, line := [], last := none, aborted := false, refill := false } : Burst)] &&
      decide (0 < 2))
      (((up.put (TL_ADC_STAT_SETTLE_LEFT 63) 1).setCalTl 63 { CalTiller.reset with stepEnd := none }).setAdc 63 { Adc.reset with bursts := [({ input := 0, range := 0, flen := 0, period := 0, count := 2, trigAt := 0, started := 0, lastAt := 9000, convs := [], total := 0, used := 0, sum := 0, least := 0, most := 0, buffer := none, line := [], last := none, aborted := false, refill := false } : Burst)] })),
    ((fun s : State => (s.adc 63).bursts == [({ input := 0, range := 0, flen := 0, period := 0, count := 2, trigAt := 0, started := 0, lastAt := 9000, convs := [], total := 0, used := 0, sum := 0, least := 0, most := 0, buffer := none, line := [], last := none, aborted := false, refill := false } : Burst)] &&
      decide (0 < 2))
      (((up.put (TL_ADC_STAT_SETTLE_LEFT 63) 2).setCalTl 63 { CalTiller.reset with stepEnd := none }).setAdc 63 { Adc.reset with bursts := [({ input := 0, range := 0, flen := 0, period := 0, count := 2, trigAt := 0, started := 0, lastAt := 9000, convs := [], total := 0, used := 0, sum := 0, least := 0, most := 0, buffer := none, line := [], last := none, aborted := false, refill := false } : Burst)] })),
    ((fun s : State => (s.adc 63).bursts == [({ input := 0, range := 0, flen := 0, period := 0, count := 2, trigAt := 0, started := 0, lastAt := 9000, convs := [], total := 0, used := 0, sum := 0, least := 0, most := 0, buffer := none, line := [], last := none, aborted := false, refill := false } : Burst)] &&
      decide (0 < 2))
      (((up.put (TL_ADC_STAT_SETTLE_LEFT 63) 0).setCalTl 63 { CalTiller.reset with stepEnd := some 5 }).setAdc 63 { Adc.reset with bursts := [({ input := 0, range := 0, flen := 0, period := 0, count := 2, trigAt := 0, started := 0, lastAt := 9000, convs := [], total := 0, used := 0, sum := 0, least := 0, most := 0, buffer := none, line := [], last := none, aborted := false, refill := false } : Burst)] })),
    ((fun s : State => (s.adc 63).bursts == [({ input := 0, range := 0, flen := 0, period := 0, count := 2, trigAt := 0, started := 0, lastAt := 9000, convs := [], total := 0, used := 0, sum := 0, least := 0, most := 0, buffer := none, line := [], last := none, aborted := false, refill := false } : Burst)] &&
      decide (0 < 2))
      (((up.put (TL_ADC_STAT_SETTLE_LEFT 63) 1).setCalTl 63 { CalTiller.reset with stepEnd := some 5 }).setAdc 63 { Adc.reset with bursts := [({ input := 0, range := 0, flen := 0, period := 0, count := 2, trigAt := 0, started := 0, lastAt := 9000, convs := [], total := 0, used := 0, sum := 0, least := 0, most := 0, buffer := none, line := [], last := none, aborted := false, refill := false } : Burst)] })),
    ((fun s : State => (s.adc 63).bursts == [({ input := 0, range := 0, flen := 0, period := 0, count := 2, trigAt := 0, started := 0, lastAt := 9000, convs := [], total := 0, used := 0, sum := 0, least := 0, most := 0, buffer := none, line := [], last := none, aborted := false, refill := false } : Burst)] &&
      decide (0 < 2))
      (((up.put (TL_ADC_STAT_SETTLE_LEFT 63) 2).setCalTl 63 { CalTiller.reset with stepEnd := some 5 }).setAdc 63 { Adc.reset with bursts := [({ input := 0, range := 0, flen := 0, period := 0, count := 2, trigAt := 0, started := 0, lastAt := 9000, convs := [], total := 0, used := 0, sum := 0, least := 0, most := 0, buffer := none, line := [], last := none, aborted := false, refill := false } : Burst)] })),
    ((fun s : State => (s.adc 63).bursts == [({ input := 0, range := 0, flen := 0, period := 0, count := 2, trigAt := 0, started := 0, lastAt := 9000, convs := [], total := 0, used := 0, sum := 0, least := 0, most := 0, buffer := none, line := [], last := none, aborted := false, refill := false } : Burst)] &&
      decide (0 < 2))
      (((up.put (TL_ADC_STAT_SETTLE_LEFT 63) 0).setCalTl 63 { CalTiller.reset with stepEnd := some 500 }).setAdc 63 { Adc.reset with bursts := [({ input := 0, range := 0, flen := 0, period := 0, count := 2, trigAt := 0, started := 0, lastAt := 9000, convs := [], total := 0, used := 0, sum := 0, least := 0, most := 0, buffer := none, line := [], last := none, aborted := false, refill := false } : Burst)] })),
    ((fun s : State => (s.adc 63).bursts == [({ input := 0, range := 0, flen := 0, period := 0, count := 2, trigAt := 0, started := 0, lastAt := 9000, convs := [], total := 0, used := 0, sum := 0, least := 0, most := 0, buffer := none, line := [], last := none, aborted := false, refill := false } : Burst)] &&
      decide (0 < 2))
      (((up.put (TL_ADC_STAT_SETTLE_LEFT 63) 1).setCalTl 63 { CalTiller.reset with stepEnd := some 500 }).setAdc 63 { Adc.reset with bursts := [({ input := 0, range := 0, flen := 0, period := 0, count := 2, trigAt := 0, started := 0, lastAt := 9000, convs := [], total := 0, used := 0, sum := 0, least := 0, most := 0, buffer := none, line := [], last := none, aborted := false, refill := false } : Burst)] }))
  ] = true := by decide +kernel

theorem witness_AdcBurstsRun_2 : allOf [
    ((fun s : State => (s.adc 63).bursts == [({ input := 0, range := 0, flen := 0, period := 0, count := 2, trigAt := 0, started := 0, lastAt := 9000, convs := [], total := 0, used := 0, sum := 0, least := 0, most := 0, buffer := none, line := [], last := none, aborted := false, refill := false } : Burst)] &&
      decide (0 < 2))
      (((up.put (TL_ADC_STAT_SETTLE_LEFT 63) 2).setCalTl 63 { CalTiller.reset with stepEnd := some 500 }).setAdc 63 { Adc.reset with bursts := [({ input := 0, range := 0, flen := 0, period := 0, count := 2, trigAt := 0, started := 0, lastAt := 9000, convs := [], total := 0, used := 0, sum := 0, least := 0, most := 0, buffer := none, line := [], last := none, aborted := false, refill := false } : Burst)] })),
    ((fun s : State => (s.adc 63).bursts == [({ input := 0, range := 0, flen := 0, period := 0, count := 1, trigAt := 0, started := 1, lastAt := 9000, convs := [⟨12800, false, false, false, false⟩], total := 0, used := 0, sum := 0, least := 0, most := 0, buffer := none, line := [], last := none, aborted := false, refill := false } : Burst)] &&
      (({ input := 0, range := 0, flen := 0, period := 0, count := 1, trigAt := 0, started := 1, lastAt := 9000, convs := [⟨12800, false, false, false, false⟩], total := 0, used := 0, sum := 0, least := 0, most := 0, buffer := none, line := [], last := none, aborted := false, refill := false } : Burst)).flen == 0 &&
      (({ input := 0, range := 0, flen := 0, period := 0, count := 1, trigAt := 0, started := 1, lastAt := 9000, convs := [⟨12800, false, false, false, false⟩], total := 0, used := 0, sum := 0, least := 0, most := 0, buffer := none, line := [], last := none, aborted := false, refill := false } : Burst)).buffer == none &&
      (({ input := 0, range := 0, flen := 0, period := 0, count := 1, trigAt := 0, started := 1, lastAt := 9000, convs := [⟨12800, false, false, false, false⟩], total := 0, used := 0, sum := 0, least := 0, most := 0, buffer := none, line := [], last := none, aborted := false, refill := false } : Burst)).line == [] &&
      decide (1 = 0 + 1))
      ((up.put (TL_ADC_RES_HI_SEQ 63) 65535).setAdc 63 { Adc.reset with bursts := [({ input := 0, range := 0, flen := 0, period := 0, count := 1, trigAt := 0, started := 1, lastAt := 9000, convs := [⟨12800, false, false, false, false⟩], total := 0, used := 0, sum := 0, least := 0, most := 0, buffer := none, line := [], last := none, aborted := false, refill := false } : Burst)] })),
    ((fun s : State => (s.adc 63).bursts == [({ input := 0, range := 0, flen := 0, period := 0, count := 1, trigAt := 0, started := 1, lastAt := 9000, convs := [⟨12800, false, false, false, true⟩], total := 0, used := 0, sum := 0, least := 0, most := 0, buffer := none, line := [], last := none, aborted := false, refill := false } : Burst)] &&
      (({ input := 0, range := 0, flen := 0, period := 0, count := 1, trigAt := 0, started := 1, lastAt := 9000, convs := [⟨12800, false, false, false, true⟩], total := 0, used := 0, sum := 0, least := 0, most := 0, buffer := none, line := [], last := none, aborted := false, refill := false } : Burst)).flen == 0 &&
      (({ input := 0, range := 0, flen := 0, period := 0, count := 1, trigAt := 0, started := 1, lastAt := 9000, convs := [⟨12800, false, false, false, true⟩], total := 0, used := 0, sum := 0, least := 0, most := 0, buffer := none, line := [], last := none, aborted := false, refill := false } : Burst)).buffer == none &&
      (({ input := 0, range := 0, flen := 0, period := 0, count := 1, trigAt := 0, started := 1, lastAt := 9000, convs := [⟨12800, false, false, false, true⟩], total := 0, used := 0, sum := 0, least := 0, most := 0, buffer := none, line := [], last := none, aborted := false, refill := false } : Burst)).line == [] &&
      decide (1 = 0 + 1))
      ((up.put (TL_ADC_RES_HI_SEQ 63) 65535).setAdc 63 { Adc.reset with bursts := [({ input := 0, range := 0, flen := 0, period := 0, count := 1, trigAt := 0, started := 1, lastAt := 9000, convs := [⟨12800, false, false, false, true⟩], total := 0, used := 0, sum := 0, least := 0, most := 0, buffer := none, line := [], last := none, aborted := false, refill := false } : Burst)] })),
    ((fun s : State => s.refOn 63)
      (up.mark (TL_ADC_CTRL_REF_EN 63)))
  ] = true := by decide +kernel

theorem witness_TimeIntervalsAreCounted : allOf [
    ((fun s : State => (s.tdc 63).arms == [] && s.ready && directView .bar0 && s.tdcState 63 == 0)
      (((up.put (TL_TDC_SRC_START 63) 0x25).put (TL_TDC_SRC_STOP 63) 0x3F).put (TL_TDC_STAT_STATE 63) 0)),
    ((fun s : State => (s.tdc 63).arms == [] && s.ready && directView .bar0 && s.tdcState 63 == 3)
      (((up.put (TL_TDC_SRC_START 63) 0x25).put (TL_TDC_SRC_STOP 63) 0x3F).put (TL_TDC_STAT_STATE 63) 3)),
    ((fun s : State => (s.tdc 63).arms == [] && s.ready && directView .bar0 && s.tdcState 63 == 1)
      ((up.put (TL_TDC_STAT_STATE 63) 1).setTdc 63 { Tdc.reset with pairs := 2 })),
    ((fun s : State => (s.tdc 63).arms == [] && s.ready && directView .bar0 && s.tdcState 63 == 2)
      ((up.put (TL_TDC_STAT_STATE 63) 2).setTdc 63 { Tdc.reset with pairs := 2 })),
    ((fun s : State => (s.tdc 63).arms == [] && s.tdcState 63 == 1 && s.edgeSeen 63 32 true && s.edgeSeen 63 32 false &&
      decide ((s.tdc 63).readyAt ≤ s.edgeTime 63 32 5199) && (s.tdc 63).tmo != 0)
      ((up.put (TL_TDC_STAT_STATE 63) 1).setTdc 63 { Tdc.reset with start := 32, stop := 32, readyAt := 4000, tmo := 4, startHeard := 1, stopHeard := 1 })),
    ((fun s : State => (s.tdc 63).arms == [] && s.tdcState 63 == 1 && s.edgeSeen 63 0 true && s.edgeSeen 63 0 false &&
      decide ((s.tdc 63).readyAt ≤ s.edgeTime 63 0 5199) && (s.tdc 63).tmo != 0)
      (((up.mark (PN_CMP_ABOVE_H 504)).put (TL_TDC_STAT_STATE 63) 1).setTdc 63 { Tdc.reset with start := 0, stop := 0, readyAt := 4000, tmo := 4, startHeard := 1, stopHeard := 1 })),
    ((fun s : State => (s.tdc 63).arms == [] && s.tdcState 63 == 1 && s.edgeSeen 63 31 true && s.edgeSeen 63 31 false &&
      decide ((s.tdc 63).readyAt ≤ s.edgeTime 63 31 5199) && (s.tdc 63).tmo != 0)
      ((up.put (TL_TDC_STAT_STATE 63) 1).setTdc 63 { Tdc.reset with start := 31, stop := 31, readyAt := 4000, tmo := 4, startHeard := 1, stopHeard := 1 })),
    ((fun s : State => (s.tdc 63).arms == [] && s.tdcState 63 == 2 && decide (s.get (TL_TDC_STAT_PAIRS 63) + 1 < 65536) && s.edgeSeen 63 0x20 false &&
      decide ((s.tdc 63).startAt + 2 * (s.tdc 63).holdoff ≤ s.edgeTime 63 0x20 5280) &&
      decide (s.edgeTime 63 0x20 5280 < (s.tdc 63).startAt + 2 ^ 32 * 160) &&
      decide (s.edgeTime 63 0x20 5279 < (s.tdc 63).startAt + 2 * (s.tdc 63).holdoff) && (s.tdc 63).tmo != 0)
      (((up.put (TL_TDC_STAT_STATE 63) 2).put (TL_TDC_STAT_PAIRS 63) 0).setTdc 63 { Tdc.reset with pairs := 2, stop := 0x20, startAt := 5120, holdoff := 80, tmo := 4, nostop := 255, stopHeard := 1 })),
    ((fun s : State => (s.tdc 63).arms == [] && s.tdcState 63 == 2 && decide (s.get (TL_TDC_STAT_PAIRS 63) + 1 < 65536) && s.edgeSeen 63 0x20 false &&
      decide ((s.tdc 63).startAt + 2 * (s.tdc 63).holdoff ≤ s.edgeTime 63 0x20 5280) &&
      decide (s.edgeTime 63 0x20 5280 < (s.tdc 63).startAt + 2 ^ 32 * 160) &&
      decide (s.edgeTime 63 0x20 5279 < (s.tdc 63).startAt + 2 * (s.tdc 63).holdoff) && (s.tdc 63).tmo != 0)
      (((up.put (TL_TDC_STAT_STATE 63) 2).put (TL_TDC_STAT_PAIRS 63) 0).setTdc 63 { Tdc.reset with pairs := 1, stop := 0x20, startAt := 5120, holdoff := 80, tmo := 4, nostop := 255, stopHeard := 1 })),
    ((fun s : State => (s.tdc 63).arms == [] && s.tdcState 63 == 2 && decide (s.get (TL_TDC_STAT_PAIRS 63) + 1 < 65536) && s.edgeSeen 63 0x20 false &&
      decide ((s.tdc 63).startAt + 2 * (s.tdc 63).holdoff ≤ s.edgeTime 63 0x20 5280) &&
      decide (s.edgeTime 63 0x20 5280 < (s.tdc 63).startAt + 2 ^ 32 * 160) &&
      decide (s.edgeTime 63 0x20 5279 < (s.tdc 63).startAt + 2 * (s.tdc 63).holdoff) && (s.tdc 63).tmo != 0)
      (((up.put (TL_TDC_STAT_STATE 63) 2).put (TL_TDC_STAT_PAIRS 63) 65534).setTdc 63 { Tdc.reset with pairs := 65535, stop := 0x20, startAt := 5120, holdoff := 80, tmo := 4, nostop := 255, stopHeard := 1 }))
  ] = true := by decide +kernel

theorem witness_CalibrationRunsAndBanksChange_1 : allOf [
    ((fun s : State => s.on (ST_CAL_STAT_DUE 7) && s.on (ST_CAL_CTRL_EN 7) && s.served 7 && !s.held 7 && s.get (ST_CAL_STAT_PEND 7) == 0 &&
      decide (s.calState 7 ≤ 1) && s.get (ST_CAL_CTRL_SKIP 7) != 0xFF && s.calUsable 63 == some (0, none) && decide (0 ≤ s.ticks))
      ((((((up.put (svState 1) 1).put (svDoms 1) 2).mark (ST_CAL_STAT_DUE 7)).mark (ST_CAL_CTRL_EN 7)).put (ST_CAL_CTRL_SKIP 7) 0x7F).put (ST_CAL_STAT_STATE 7) 0)),
    ((fun s : State => s.on (ST_CAL_STAT_DUE 7) && s.on (ST_CAL_CTRL_EN 7) && s.served 7 && !s.held 7 && s.get (ST_CAL_STAT_PEND 7) == 0 &&
      decide (s.calState 7 ≤ 1) && s.get (ST_CAL_CTRL_SKIP 7) != 0xFF && s.calUsable 63 == some (0, none) && decide (0 ≤ s.ticks))
      ((((((up.put (svState 1) 1).put (svDoms 1) 2).mark (ST_CAL_STAT_DUE 7)).mark (ST_CAL_CTRL_EN 7)).put (ST_CAL_CTRL_SKIP 7) 0x7F).put (ST_CAL_STAT_STATE 7) 1)),
    ((fun s : State => (s.calTl 63).stepEnd == some 900)
      (((((((up.put (svState 1) 1).put (svDoms 1) 2).mark (ST_CAL_STAT_DUE 7)).mark (ST_CAL_CTRL_EN 7)).put (ST_CAL_CTRL_SKIP 7) 0x7F).put (ST_CAL_STAT_STATE 7) 2).setCalTl 63 { CalTiller.reset with stepEnd := some 900, done := 0 })),
    ((fun s : State => (s.calTl 63).stepEnd == some 900)
      (((((((up.put (svState 1) 1).put (svDoms 1) 2).mark (ST_CAL_STAT_DUE 7)).mark (ST_CAL_CTRL_EN 7)).put (ST_CAL_CTRL_SKIP 7) 0x7F).put (ST_CAL_STAT_STATE 7) 2).setCalTl 63 { CalTiller.reset with stepEnd := some 900, done := 5 })),
    ((fun s : State => (s.calTl 63).stepEnd == some 900)
      (((((((up.put (svState 1) 1).put (svDoms 1) 2).mark (ST_CAL_STAT_DUE 7)).mark (ST_CAL_CTRL_EN 7)).put (ST_CAL_CTRL_SKIP 7) 0x7F).put (ST_CAL_STAT_STATE 7) 2).setCalTl 63 { CalTiller.reset with stepEnd := some 900, done := 239 })),
    ((fun s : State => (s.calTl 63).stepEnd == some 900)
      (((((((up.put (svState 1) 1).put (svDoms 1) 2).mark (ST_CAL_STAT_DUE 7)).mark (ST_CAL_CTRL_EN 7)).put (ST_CAL_CTRL_SKIP 7) 0x7F).put (ST_CAL_STAT_STATE 7) 2).setCalTl 63 { CalTiller.reset with stepEnd := some 900, done := 240 })),
    ((fun s : State => (s.calTl 63).stepEnd == some 900)
      (((((((up.put (svState 1) 1).put (svDoms 1) 2).mark (ST_CAL_STAT_DUE 7)).mark (ST_CAL_CTRL_EN 7)).put (ST_CAL_CTRL_SKIP 7) 0x7F).put (ST_CAL_STAT_STATE 7) 2).setCalTl 63 { CalTiller.reset with stepEnd := some 900, done := 247 })),
    ((fun s : State => (s.calTl 63).stepEnd == some 900)
      (((((((up.put (svState 1) 1).put (svDoms 1) 2).mark (ST_CAL_STAT_DUE 7)).mark (ST_CAL_CTRL_EN 7)).put (ST_CAL_CTRL_SKIP 7) 0x7F).put (ST_CAL_STAT_STATE 7) 2).setCalTl 63 { CalTiller.reset with stepEnd := some 900, done := 248 })),
    ((fun s : State => (s.calTl 63).stepEnd == some 900)
      (((((((up.put (svState 1) 1).put (svDoms 1) 2).mark (ST_CAL_STAT_DUE 7)).mark (ST_CAL_CTRL_EN 7)).put (ST_CAL_CTRL_SKIP 7) 0x7F).put (ST_CAL_STAT_STATE 7) 2).setCalTl 63 { CalTiller.reset with stepEnd := some 900, done := 249 })),
    ((fun s : State => (s.calTl 63).stepEnd == some 900)
      (((((((up.put (svState 1) 1).put (svDoms 1) 2).mark (ST_CAL_STAT_DUE 7)).mark (ST_CAL_CTRL_EN 7)).put (ST_CAL_CTRL_SKIP 7) 0x7F).put (ST_CAL_STAT_STATE 7) 2).setCalTl 63 { CalTiller.reset with stepEnd := some 900, done := 318 })),
    ((fun s : State => (s.calTl 63).stepEnd == some 900)
      (((((((up.put (svState 1) 1).put (svDoms 1) 2).mark (ST_CAL_STAT_DUE 7)).mark (ST_CAL_CTRL_EN 7)).put (ST_CAL_CTRL_SKIP 7) 0x7F).put (ST_CAL_STAT_STATE 7) 2).setCalTl 63 { CalTiller.reset with stepEnd := some 900, done := 319 })),
    ((fun s : State => s.calState 7 == 2 && !s.held 7)
      ((((up.put (ST_CAL_CTRL_EN 7) 0).put (ST_CAL_STAT_STATE 7) 2).put (ST_CAL_STAT_DUE 7) 0).setStrip 7 { Strip.reset with runAt := 100, heldTicks := 7 }))
  ] = true := by decide +kernel

theorem witness_CalibrationRunsAndBanksChange_2 : allOf [
    ((fun s : State => s.calState 7 == 2 && !s.held 7)
      ((((up.put (ST_CAL_CTRL_EN 7) 1).put (ST_CAL_STAT_STATE 7) 2).put (ST_CAL_STAT_DUE 7) 0).setStrip 7 { Strip.reset with runAt := 100, heldTicks := 7 })),
    ((fun s : State => s.calState 7 == 2 && !s.held 7)
      ((((up.put (ST_CAL_CTRL_EN 7) 0).put (ST_CAL_STAT_STATE 7) 2).put (ST_CAL_STAT_DUE 7) 1).setStrip 7 { Strip.reset with runAt := 100, heldTicks := 7 })),
    ((fun s : State => s.calState 7 == 2 && !s.held 7)
      ((((up.put (ST_CAL_CTRL_EN 7) 1).put (ST_CAL_STAT_STATE 7) 2).put (ST_CAL_STAT_DUE 7) 1).setStrip 7 { Strip.reset with runAt := 100, heldTicks := 7 })),
    ((fun s : State => (s.tl 63).switchFrom == some 9 && s.switchPending 63)
      ((up.put (ST_CAL_STAT_PEND 7) 0x80).setTl 63 { Tiller.reset with switchFrom := some 9 })),
    ((fun s : State => s.ready && directView .bar0 && s.on (ST_CAL_CTRL_EN 7) && !s.on (ST_CAL_STAT_DUE 7))
      (((up.mark (ST_CAL_CTRL_EN 7)).put (ST_CAL_STAT_DUE 7) 0).put (ST_CAL_STAT_STATE 7) 0)),
    ((fun s : State => s.ready && directView .bar0 && !s.on (ST_CAL_CTRL_EN 7))
      (((up.put (ST_CAL_CTRL_EN 7) 0).put (ST_CAL_STAT_DUE 7) 1).put (ST_CAL_STAT_STATE 7) 0)),
    ((fun s : State => s.ready && directView .bar0 && s.calState 7 != 2)
      ((up.put (ST_CAL_STAT_DUE 7) 1).put (ST_CAL_STAT_STATE 7) 0)),
    ((fun s : State => s.ready && directView .bar0 && s.on (ST_CAL_CTRL_EN 7) && !s.on (ST_CAL_STAT_DUE 7))
      (((up.mark (ST_CAL_CTRL_EN 7)).put (ST_CAL_STAT_DUE 7) 0).put (ST_CAL_STAT_STATE 7) 1)),
    ((fun s : State => s.ready && directView .bar0 && !s.on (ST_CAL_CTRL_EN 7))
      (((up.put (ST_CAL_CTRL_EN 7) 0).put (ST_CAL_STAT_DUE 7) 1).put (ST_CAL_STAT_STATE 7) 1)),
    ((fun s : State => s.ready && directView .bar0 && s.calState 7 != 2)
      ((up.put (ST_CAL_STAT_DUE 7) 1).put (ST_CAL_STAT_STATE 7) 1)),
    ((fun s : State => s.ready && directView .bar0 && s.on (ST_CAL_CTRL_EN 7) && !s.on (ST_CAL_STAT_DUE 7))
      (((up.mark (ST_CAL_CTRL_EN 7)).put (ST_CAL_STAT_DUE 7) 0).put (ST_CAL_STAT_STATE 7) 2)),
    ((fun s : State => s.ready && directView .bar0 && !s.on (ST_CAL_CTRL_EN 7))
      (((up.put (ST_CAL_CTRL_EN 7) 0).put (ST_CAL_STAT_DUE 7) 1).put (ST_CAL_STAT_STATE 7) 2))
  ] = true := by decide +kernel

theorem witness_CalibrationRunsAndBanksChange_3 : allOf [
    ((fun s : State => s.ready && directView .bar0 && s.on (ST_CAL_CTRL_EN 7) && !s.on (ST_CAL_STAT_DUE 7))
      (((up.mark (ST_CAL_CTRL_EN 7)).put (ST_CAL_STAT_DUE 7) 0).put (ST_CAL_STAT_STATE 7) 4)),
    ((fun s : State => s.ready && directView .bar0 && !s.on (ST_CAL_CTRL_EN 7))
      (((up.put (ST_CAL_CTRL_EN 7) 0).put (ST_CAL_STAT_DUE 7) 1).put (ST_CAL_STAT_STATE 7) 4)),
    ((fun s : State => s.ready && directView .bar0 && s.calState 7 != 2)
      ((up.put (ST_CAL_STAT_DUE 7) 1).put (ST_CAL_STAT_STATE 7) 4)),
    ((fun s : State => s.ready && directView .bar0 && s.calState 7 == 2 && decide (2 ≤ s.calState 7))
      (up.put (ST_CAL_STAT_STATE 7) 2)),
    ((fun s : State => s.ready && directView .bar0 && decide (s.calState 7 ≤ 1) && (stripTillers 7).all s.active)
      (((stripTillers 7).foldl (fun s t => s.put (TL_SEQ_STAT_STATE t) 1) up).put (ST_CAL_STAT_ACT_BANK 7) 0)),
    ((fun s : State => s.ready && directView .bar0 && decide (s.calState 7 ≤ 1) && (stripTillers 7).all s.active)
      (((stripTillers 7).foldl (fun s t => s.put (TL_SEQ_STAT_STATE t) 1) up).put (ST_CAL_STAT_ACT_BANK 7) 1)),
    ((fun s : State => s.ready && directView .bar0 && s.on (ST_CAL_IDX_AINC 7))
      (((up.mark (ST_CAL_IDX_AINC 7)).put (ST_CAL_IDX_IDX 7) 2047).put (ST_CAL_STAT_STATE 7) 0)),
    ((fun s : State => s.ready && directView .bar0 && s.on (ST_CAL_IDX_AINC 7))
      (((up.mark (ST_CAL_IDX_AINC 7)).put (ST_CAL_IDX_IDX 7) 1023).put (ST_CAL_STAT_STATE 7) 0)),
    ((fun s : State => s.ready && directView .bar0 && s.on (ST_CAL_IDX_AINC 7))
      (((up.mark (ST_CAL_IDX_AINC 7)).put (ST_CAL_IDX_IDX 7) 1024).put (ST_CAL_STAT_STATE 7) 2)),
    ((fun s : State => s.ready && directView .bar0 && s.on (ST_CAL_IDX_AINC 7))
      (((up.mark (ST_CAL_IDX_AINC 7)).put (ST_CAL_IDX_IDX 7) 1036).put (ST_CAL_STAT_STATE 7) 1)),
    ((fun s : State => s.ready && directView .bar0 && s.on (ST_CAL_IDX_AINC 7))
      (((up.mark (ST_CAL_IDX_AINC 7)).put (ST_CAL_IDX_IDX 7) 1028).put (ST_CAL_STAT_STATE 7) 0)),
    ((fun s : State => s.ready && directView .bar0 && s.on (ST_CAL_IDX_AINC 7))
      (((up.mark (ST_CAL_IDX_AINC 7)).put (ST_CAL_IDX_IDX 7) 1040).put (ST_CAL_STAT_STATE 7) 1))
  ] = true := by decide +kernel

theorem witness_CalibrationRunsAndBanksChange_4 : allOf [
    ((fun s : State => s.ready && directView .bar0 && (0xFF : Nat).testBit (rowOf 63))
      ({ up with ticks := 7 }))
  ] = true := by decide +kernel

theorem witness_HeatAndWearAct_1 : allOf [
    (((List.range 34).map (fun (i : Nat) => (Int.ofNat i * 300 - 2000))).length == 34),
    ((List.replicate 34 (32767 : Int)).length == 34),
    ((fun s : State => s.monitor.trip.isSome && !s.on GL_THERM_STAT_SHUTDOWN && s.monitor.trip == some ⟨1, 2, 3, 4, 5, false⟩)
      ({ up with monitor := { Monitor.reset with trip := some ⟨1, 2, 3, 4, 5, false⟩ }, nvm := { Nvm.reset with logNext := 63, logCount := 99 } })),
    ((fun s : State => s.power.vbulk && s.powerState == 5 && s.coolEnough)
      ((up.put GL_PWR_STAT_STATE 5).mark GL_THERM_STAT_SHUTDOWN)),
    ((fun s : State => s.power.vbulk && s.powerState == 5 && !s.coolEnough)
      (((up.put GL_PWR_STAT_STATE 5).mark GL_THERM_STAT_SHUTDOWN).put (ST_TEMP_TEMP 7 3) 13440)),
    ((fun s : State => s.on (PN_CTRL_DRV_EN 511) && s.get (PN_PPMU_CTRL_MODE 511) == 0 &&
      (List.range 3).all (fun k => decide ((levelVolts 0 (s.get (PN_LVL_CODE 511 k))).natAbs ≤ (levelVolts 0 (s.get (PN_LVL_CODE 511 0))).natAbs)))
      ((((up.mark (PN_CTRL_DRV_EN 511)).put (PN_LVL_CODE 511 0) 60000).put (PN_LVL_CODE 511 1) 0).put (PN_LVL_CODE 511 2) 30000)),
    ((fun s : State => s.on (PN_CTRL_DRV_EN 511) && s.get (PN_PPMU_CTRL_MODE 511) == 0 &&
      (List.range 3).all (fun k => decide ((levelVolts 0 (s.get (PN_LVL_CODE 511 k))).natAbs ≤ (levelVolts 0 (s.get (PN_LVL_CODE 511 1))).natAbs)))
      ((((up.mark (PN_CTRL_DRV_EN 511)).put (PN_LVL_CODE 511 0) 20000).put (PN_LVL_CODE 511 1) 0).put (PN_LVL_CODE 511 2) 20000)),
    ((fun s : State => s.on (PN_CTRL_DRV_EN 511) && s.get (PN_PPMU_CTRL_MODE 511) == 0 &&
      (List.range 3).all (fun k => decide ((levelVolts 0 (s.get (PN_LVL_CODE 511 k))).natAbs ≤ (levelVolts 0 (s.get (PN_LVL_CODE 511 2))).natAbs)))
      ((((up.mark (PN_CTRL_DRV_EN 511)).put (PN_LVL_CODE 511 0) 100).put (PN_LVL_CODE 511 1) 200).put (PN_LVL_CODE 511 2) 65535)),
    ((fun s : State => s.get (PN_PPMU_CTRL_MODE 511) != 0)
      ((up.mark (PN_CTRL_DRV_EN 511)).put (PN_PPMU_CTRL_MODE 511) 1)),
    ((fun s : State => s.ready && directView .bar0 && !s.on (PN_CTRL_DRV_EN 511) && !s.on GL_WEAR_CTRL_TD_SRC && !s.on GL_WEAR_STAT_SAVE_BUSY)
      (up)),
    ((fun s : State => s.ready && directView .bar0 && !s.on GL_WEAR_CTRL_TD_SRC)
      ((up.put GL_WEAR_CONTACT_COUNT 0xFFFFFFFF))),
    ((fun s : State => s.ready && directView .bar0 && !s.on GL_WEAR_CTRL_TD_SRC)
      ((up.put GL_WEAR_CONTACT_COUNT 1023)))
  ] = true := by decide +kernel

theorem witness_HeatAndWearAct_2 : allOf [
    ((fun s : State => s.ready && directView .bar0 && s.on GL_WEAR_CTRL_TD_SRC)
      ((up.mark GL_WEAR_CTRL_TD_SRC))),
    ((fun s : State => s.nvm.saving == some [(5, 6)] && s.power.afterSave == none)
      ({ up.mark GL_WEAR_STAT_SAVE_BUSY with ticks := 70, nvm := { Nvm.reset with saving := some [(5, 6)], nextSave := 88 } })),
    ((fun s : State => s.nvm.saving == some [(5, 6)] && s.power.afterSave == none)
      ({ up.mark GL_WEAR_STAT_SAVE_BUSY with ticks := 70, nvm := { Nvm.reset with saving := some [(5, 6)], nextSave := 95 } }))
  ] = true := by decide +kernel

theorem witness_DeviceMemoryAndHostPortAct : allOf [
    (decide (3 ≠ 0) && decide (0x3FFFFFFFE + 3 ≤ 2 ^ 35) && (List.range 3).all (fun i => regionOf (0x3FFFFFFFE + i) != .context)),
    (decide (1 ≠ 0) && decide (0x7FFFFFFFF + 1 ≤ 2 ^ 35) && regionOf 0x7FFFFFFFF != .context),
    ((fun s : State => decide (2 ≠ 0) && decide (0x4013FFFFE + 2 ≤ 2 ^ 35) && (List.range 2).all (fun i => regionOf (0x4013FFFFE + i) == .context &&
      !s.ctxOpen (0x4013FFFFE + i)))
      ((up.put (TH_STAT_STATE 31) 1))),
    ((fun s : State => s.fbit GL_PWR_STAT_PG 2 && !s.power.memW && !s.power.memE)
      (((up.setByte 0x1FFFFFFFF 4).setByte 0x3FFFFFFFF 5).putBit GL_PWR_STAT_PG 2 true)),
    ((fun s : State => s.on (SH_MEM_SCRUB_EN 15))
      ({ ({ (up.mark GL_MEM_STAT_W_READY).mark GL_MEM_STAT_E_READY with power := { up.power with memW := true, memE := true } }).mark (SH_MEM_SCRUB_EN 15) with single := [0, 0x3FFFFFFF8, 0x1C0000000] })),
    ((fun s : State => !s.on (SH_MEM_SCRUB_EN 15))
      (up.put (SH_MEM_SCRUB_EN 15) 0)),
    ((fun s : State => s.on LK_PCIE_STAT_UP && !s.on LK_PCIE_LPBK_EN)
      ({ ((up.mark LK_PCIE_STAT_UP).setDma 3 { Dma.reset with tag := 4 }).setHmq 2 ⟨[(1, 2)], none⟩ with hostConfig := { HostConfig.reset with aer := [.poisonedReceived] } })),
    ((fun s : State => s.on LK_PCIE_LPBK_EN)
      (up.mark LK_PCIE_LPBK_EN)),
    ((fun s : State => s.ready && directView .bar0 && s.vectorMask.testBit 63)
      (((((up.mark LK_PCIE_STAT_UP).put (EV_VMAP_VEC 8 2) 63).setReg (EV_ENA 41) 0x80).setReg (EV_PEND 41) 0x80))),
    ((fun s : State => s.ready && directView .bar0 && !s.vectorMask.testBit 63)
      (up))
  ] = true := by decide +kernel

theorem witness_DmaChannelsRunDescriptors_1 : allOf [
    ((fun s : State => s.ready && directView .bar0)
      (up.put (LK_DMA_PROD_INDEX 7) 5)),
    ((fun s : State => s.ready && directView .bar0 && s.dmaState 7 == 2 && (s.dma 7).note == none)
      ((up.put (LK_DMA_STAT_STATE 7) 2).put (LK_DMA_CONS_INDEX 7) 15)),
    ((fun s : State => s.ready && directView .bar0 && s.dmaState 7 == 1 && (s.dma 7).note == none)
      (((up.put (LK_DMA_STAT_STATE 7) 1).mark (LK_DMA_CTRL_EN 7)).setDma 7 { Dma.reset with sent := 5, active := some ⟨0, 0, 64, 2, 0, [], []⟩, tag := 2, unacked := [⟨225, 32, 9⟩] })),
    ((fun s : State => (let d := dmaDesc 2722258935367507708887588480171556999168 (([1, 2, 3, 4, 5, 6, 7, 8] : List Byte).map BitVec.toNat) []; s.dmaReady 7 &&
      d.check (s.get LK_MESH_POS_X) (s.get LK_MESH_POS_Y) == 0 && decide (d.dir ≤ 1) &&
      (d.dir == 1 || ([1, 2, 3, 4, 5, 6, 7, 8] : List Byte).length == d.len)))
      ({ (((up.mark LK_PCIE_STAT_UP).mark (LK_DMA_CTRL_EN 7)).put (LK_DMA_PROD_INDEX 7) 1) with power := { up.power with memW := true, memE := true } })),
    ((fun s : State => (let d := dmaDesc 1461501640053161853571192615981143605024401653824 (([] : List Byte).map BitVec.toNat) []; s.dmaReady 7 &&
      d.check (s.get LK_MESH_POS_X) (s.get LK_MESH_POS_Y) == 0 && decide (d.dir ≤ 1) && (d.dir == 1 || ([] : List Byte).length == d.len)))
      ({ (((up.mark LK_PCIE_STAT_UP).mark (LK_DMA_CTRL_EN 7)).put (LK_DMA_PROD_INDEX 7) 1) with power := { up.power with memW := true, memE := true } })),
    ((fun s : State => (let d := dmaDesc 377067428006559252529206472225911178854038383886336 (([] : List Byte).map BitVec.toNat) []; s.dmaReady 7 &&
      d.check (s.get LK_MESH_POS_X) (s.get LK_MESH_POS_Y) == 0 && d.dir == 2))
      ({ (((up.mark LK_PCIE_STAT_UP).mark (LK_DMA_CTRL_EN 7)).put (LK_DMA_PROD_INDEX 7) 1) with power := { up.power with memW := true, memE := true } })),
    ((fun s : State => (let d := dmaDesc 2923003277384064771774877374320154519483422081024 (([] : List Byte).map BitVec.toNat) []; s.dmaReady 7 &&
      d.check (s.get LK_MESH_POS_X) (s.get LK_MESH_POS_Y) == 5 && true))
      ({ (((up.mark LK_PCIE_STAT_UP).mark (LK_DMA_CTRL_EN 7)).put (LK_DMA_PROD_INDEX 7) 1) with power := { up.power with memW := true, memE := true } })),
    ((fun s : State => (let d := dmaDesc 2722258935367507707706996859454145691649 (([] : List Byte).map BitVec.toNat) []; s.dmaReady 7 &&
      d.check (s.get LK_MESH_POS_X) (s.get LK_MESH_POS_Y) == 2 && true))
      ({ (((up.mark LK_PCIE_STAT_UP).mark (LK_DMA_CTRL_EN 7)).put (LK_DMA_PROD_INDEX 7) 1) with power := { up.power with memW := true, memE := true } })),
    ((fun s : State => (let d := dmaDesc 2381976568446569244243622252022377480192 (([] : List Byte).map BitVec.toNat) []; s.dmaReady 7 &&
      d.check (s.get LK_MESH_POS_X) (s.get LK_MESH_POS_Y) == 1 && true))
      ({ (((up.mark LK_PCIE_STAT_UP).mark (LK_DMA_CTRL_EN 7)).put (LK_DMA_PROD_INDEX 7) 1) with power := { up.power with memW := true, memE := true } })),
    ((fun s : State => (let d := dmaDesc 4384504914714967689978562205855845918421943320576 (([] : List Byte).map BitVec.toNat) []; s.dmaReady 7 &&
      d.check (s.get LK_MESH_POS_X) (s.get LK_MESH_POS_Y) == 4 && true))
      ({ (((up.mark LK_PCIE_STAT_UP).mark (LK_DMA_CTRL_EN 7)).put (LK_DMA_PROD_INDEX 7) 1) with power := { up.power with memW := true, memE := true } })),
    ((fun s : State => (let d := dmaDesc 1461501640053161853571192540423279879127258103804 (([] : List Byte).map BitVec.toNat) []; s.dmaReady 7 &&
      d.check (s.get LK_MESH_POS_X) (s.get LK_MESH_POS_Y) == 3 && true))
      ({ (((up.mark LK_PCIE_STAT_UP).mark (LK_DMA_CTRL_EN 7)).put (LK_DMA_PROD_INDEX 7) 1) with power := { up.power with memW := true, memE := true } })),
    ((fun s : State => (s.dma 7).active == some ⟨0x1000, 0x40, 4, 0, 7, [1, 2, 3, 4], []⟩ &&
      (⟨0x1000, 0x40, 4, 0, 7, [1, 2, 3, 4], []⟩ : DmaDesc).dir == 0 && (⟨0x1000, 0x40, 4, 0, 7, [1, 2, 3, 4], []⟩ : DmaDesc).win == 0 &&
      (⟨0x1000, 0x40, 4, 0, 7, [1, 2, 3, 4], []⟩ : DmaDesc).inWindow && (⟨0x1000, 0x40, 4, 0, 7, [1, 2, 3, 4], []⟩ : DmaDesc).ep == [] &&
      regionOf 0x40 != .context)
      (({ ((((up.mark GL_MEM_STAT_W_READY).mark LK_PCIE_STAT_UP).mark (LK_DMA_CTRL_EN 7)).put (LK_DMA_PROD_INDEX 7) 1) with power := { up.power with memW := true, memE := true } }).setDma 7 { Dma.reset with active := some ⟨0x1000, 0x40, 4, 0, 7, [1, 2, 3, 4], []⟩, poison := true } |>.put (LK_DMA_STAT_STATE 7) 1))
  ] = true := by decide +kernel

theorem witness_DmaChannelsRunDescriptors_2 : allOf [
    ((fun s : State => (s.dma 7).active == some ⟨0x1000, 0x401000000, 4, 0, 7, [1, 2, 3, 4], []⟩ &&
      (⟨0x1000, 0x401000000, 4, 0, 7, [1, 2, 3, 4], []⟩ : DmaDesc).dir == 0 && (⟨0x1000, 0x401000000, 4, 0, 7, [1, 2, 3, 4], []⟩ : DmaDesc).win == 0 &&
      (⟨0x1000, 0x401000000, 4, 0, 7, [1, 2, 3, 4], []⟩ : DmaDesc).inWindow && (⟨0x1000, 0x401000000, 4, 0, 7, [1, 2, 3, 4], []⟩ : DmaDesc).ep == [] &&
      regionOf 0x401000000 == .context && s.ctxOpen 0x401000000 == true)
      ((({ (((up.mark LK_PCIE_STAT_UP).mark (LK_DMA_CTRL_EN 7)).put (LK_DMA_PROD_INDEX 7) 1) with power := { up.power with memW := true, memE := true } }).setDma 7 { Dma.reset with active := some ⟨0x1000, 0x401000000, 4, 0, 7, [1, 2, 3, 4], []⟩ } |>.put (LK_DMA_STAT_STATE 7) 1).put (TH_STAT_STATE 0) 0)),
    ((fun s : State => (s.dma 7).active == some ⟨0x1000, 0x401000000, 4, 0, 7, [1, 2, 3, 4], []⟩ &&
      (⟨0x1000, 0x401000000, 4, 0, 7, [1, 2, 3, 4], []⟩ : DmaDesc).dir == 0 && (⟨0x1000, 0x401000000, 4, 0, 7, [1, 2, 3, 4], []⟩ : DmaDesc).win == 0 &&
      (⟨0x1000, 0x401000000, 4, 0, 7, [1, 2, 3, 4], []⟩ : DmaDesc).inWindow && (⟨0x1000, 0x401000000, 4, 0, 7, [1, 2, 3, 4], []⟩ : DmaDesc).ep == [] &&
      regionOf 0x401000000 == .context && s.ctxOpen 0x401000000 == false)
      ((({ (((up.mark LK_PCIE_STAT_UP).mark (LK_DMA_CTRL_EN 7)).put (LK_DMA_PROD_INDEX 7) 1) with power := { up.power with memW := true, memE := true } }).setDma 7 { Dma.reset with active := some ⟨0x1000, 0x401000000, 4, 0, 7, [1, 2, 3, 4], []⟩ } |>.put (LK_DMA_STAT_STATE 7) 1).put (TH_STAT_STATE 0) 1)),
    ((fun s : State => (s.dma 7).active == some ⟨64, 0x1000, 64, 1, 7, [], []⟩ && (⟨64, 0x1000, 64, 1, 7, [], []⟩ : DmaDesc).dir == 1 &&
      (⟨64, 0x1000, 64, 1, 7, [], []⟩ : DmaDesc).win == 0 && linesIn 64 64 == [64])
      ((({ ((((up.mark GL_MEM_STAT_W_READY).mark LK_PCIE_STAT_UP).mark (LK_DMA_CTRL_EN 7)).put (LK_DMA_PROD_INDEX 7) 1) with power := { up.power with memW := true, memE := true } }).storeBytes 0x78 [1, 2, 3, 4, 5, 6, 7, 8, 9, 10, 11, 12]).setDma 7 { Dma.reset with active := some ⟨64, 0x1000, 64, 1, 7, [], []⟩ } |>.put (LK_DMA_STAT_STATE 7) 1)),
    ((fun s : State => (s.dma 7).active == some ⟨124, 0x1000, 8, 1, 7, [], []⟩ && (⟨124, 0x1000, 8, 1, 7, [], []⟩ : DmaDesc).dir == 1 &&
      (⟨124, 0x1000, 8, 1, 7, [], []⟩ : DmaDesc).win == 0 && linesIn 124 8 == [64, 128])
      ((({ ((((up.mark GL_MEM_STAT_W_READY).mark LK_PCIE_STAT_UP).mark (LK_DMA_CTRL_EN 7)).put (LK_DMA_PROD_INDEX 7) 1) with power := { up.power with memW := true, memE := true } }).storeBytes 0x78 [1, 2, 3, 4, 5, 6, 7, 8, 9, 10, 11, 12]).setDma 7 { Dma.reset with active := some ⟨124, 0x1000, 8, 1, 7, [], []⟩ } |>.put (LK_DMA_STAT_STATE 7) 1)),
    ((fun s : State => (s.dma 7).active == some ⟨192, 0x1000, 0, 1, 7, [], []⟩ && (⟨192, 0x1000, 0, 1, 7, [], []⟩ : DmaDesc).dir == 1 &&
      (⟨192, 0x1000, 0, 1, 7, [], []⟩ : DmaDesc).win == 0 && linesIn 192 0 == [])
      ((({ ((((up.mark GL_MEM_STAT_W_READY).mark LK_PCIE_STAT_UP).mark (LK_DMA_CTRL_EN 7)).put (LK_DMA_PROD_INDEX 7) 1) with power := { up.power with memW := true, memE := true } }).storeBytes 0x78 [1, 2, 3, 4, 5, 6, 7, 8, 9, 10, 11, 12]).setDma 7 { Dma.reset with active := some ⟨192, 0x1000, 0, 1, 7, [], []⟩ } |>.put (LK_DMA_STAT_STATE 7) 1)),
    ((fun s : State => (s.dma 7).active == some ⟨316, 0x1000, 136, 1, 7, [], []⟩ && (⟨316, 0x1000, 136, 1, 7, [], []⟩ : DmaDesc).dir == 1 &&
      (⟨316, 0x1000, 136, 1, 7, [], []⟩ : DmaDesc).win == 0 && linesIn 316 136 == [256, 320, 384, 448])
      ((({ ((((up.mark GL_MEM_STAT_W_READY).mark LK_PCIE_STAT_UP).mark (LK_DMA_CTRL_EN 7)).put (LK_DMA_PROD_INDEX 7) 1) with power := { up.power with memW := true, memE := true } }).storeBytes 0x78 [1, 2, 3, 4, 5, 6, 7, 8, 9, 10, 11, 12]).setDma 7 { Dma.reset with active := some ⟨316, 0x1000, 136, 1, 7, [], []⟩ } |>.put (LK_DMA_STAT_STATE 7) 1)),
    ((fun s : State => (s.dma 7).active == some ⟨524288, 0x1000, 8, 5, 7, [], []⟩ && (⟨524288, 0x1000, 8, 5, 7, [], []⟩ : DmaDesc).dir == 1 &&
      (⟨524288, 0x1000, 8, 5, 7, [], []⟩ : DmaDesc).win == 1)
      (({ (((up.mark LK_PCIE_STAT_UP).mark (LK_DMA_CTRL_EN 7)).put (LK_DMA_PROD_INDEX 7) 1) with power := { up.power with memW := true, memE := true } }).setDma 7 { Dma.reset with active := some ⟨524288, 0x1000, 8, 5, 7, [], []⟩ } |>.put (LK_DMA_STAT_STATE 7) 1)),
    ((fun s : State => (s.dma 7).active == some ⟨1016, 0x1000, 8, 9, 7, [], []⟩ && (⟨1016, 0x1000, 8, 9, 7, [], []⟩ : DmaDesc).dir == 1 &&
      (⟨1016, 0x1000, 8, 9, 7, [], []⟩ : DmaDesc).win == 2)
      (({ (((up.mark LK_PCIE_STAT_UP).mark (LK_DMA_CTRL_EN 7)).put (LK_DMA_PROD_INDEX 7) 1) with power := { up.power with memW := true, memE := true } }).setDma 7 { Dma.reset with active := some ⟨1016, 0x1000, 8, 9, 7, [], []⟩ } |>.put (LK_DMA_STAT_STATE 7) 1)),
    ((fun s : State => (s.dma 7).active == some ⟨0, 0x40, 64, 0x102, 7, [], []⟩ && (⟨0, 0x40, 64, 0x102, 7, [], []⟩ : DmaDesc).dir == 2 &&
      decide (64 ≤ (s.dma 7).sent) && (s.dma 7).unacked == [])
      (({ (((up.mark LK_PCIE_STAT_UP).mark (LK_DMA_CTRL_EN 7)).put (LK_DMA_PROD_INDEX 7) 1) with power := { up.power with memW := true, memE := true } }).setDma 7 { Dma.reset with active := some ⟨0, 0x40, 64, 0x102, 7, [], []⟩, sent := 64 } |>.put (LK_DMA_STAT_STATE 7) 1)),
    ((fun s : State => (s.dma 7).active == some ⟨0, 0x40, 64, 0x102, 7, [], []⟩ && (s.dma 7).unacked == [⟨225, 32, 9⟩, ⟨226, 32, 10⟩] &&
      decide (226 / 32 = 7) && (⟨0, 0x40, 64, 0x102, 7, [], []⟩ : DmaDesc).rx == 1 && (⟨0, 0x40, 64, 0x102, 7, [], []⟩ : DmaDesc).ry == 0 &&
      decide (64 ≤ (s.dma 7).sent))
      (({ (((up.mark LK_PCIE_STAT_UP).mark (LK_DMA_CTRL_EN 7)).put (LK_DMA_PROD_INDEX 7) 1) with power := { up.power with memW := true, memE := true } }).setDma 7 { Dma.reset with active := some ⟨0, 0x40, 64, 0x102, 7, [], []⟩, sent := 64, unacked := [⟨225, 32, 9⟩, ⟨226, 32, 10⟩] } |>.put (LK_DMA_STAT_STATE 7) 1)),
    ((fun s : State => s.assembly.find? (fun a => a.x = 7 && a.y = 5 && a.vc = 3 && a.tag = 255 &&
      a.done) == some (⟨7, 5, 3, 255, 17179869182, [1, 2], [false, false], some 2, true⟩ : Assembly) &&
      !(s.assembly.takeWhile (· != (⟨7, 5, 3, 255, 17179869182, [1, 2], [false, false], some 2, true⟩ : Assembly))).any (fun b => b.done &&
      b.from_ = (⟨7, 5, 3, 255, 17179869182, [1, 2], [false, false], some 2, true⟩ : Assembly).from_ &&
      State.sameLine b (⟨7, 5, 3, 255, 17179869182, [1, 2], [false, false], some 2, true⟩ : Assembly)) && decide (17179869182 + 2 ≤ 0x400000000))
      ({ (up.mark GL_MEM_STAT_E_READY) with power := { up.power with memE := true }, assembly := [(⟨7, 5, 1, 255, 64, [1, 2], [false, false], some 2, true⟩ : Assembly), (⟨7, 5, 3, 255, 17179869182, [1, 2], [false, false], some 2, true⟩ : Assembly)] })),
    ((fun s : State => s.assembly.find? (fun a => a.x = 7 && a.y = 5 && a.vc = 3 && a.tag = 255 &&
      a.done) == some (⟨7, 5, 3, 255, 17179869183, [1, 2], [false, false], some 2, true⟩ : Assembly) &&
      !(s.assembly.takeWhile (· != (⟨7, 5, 3, 255, 17179869183, [1, 2], [false, false], some 2, true⟩ : Assembly))).any (fun b => b.done &&
      b.from_ = (⟨7, 5, 3, 255, 17179869183, [1, 2], [false, false], some 2, true⟩ : Assembly).from_ &&
      State.sameLine b (⟨7, 5, 3, 255, 17179869183, [1, 2], [false, false], some 2, true⟩ : Assembly)) && decide (0x400000000 < 17179869183 + 2))
      ({ (up.mark GL_MEM_STAT_E_READY) with power := { up.power with memE := true }, assembly := [(⟨7, 5, 1, 255, 64, [1, 2], [false, false], some 2, true⟩ : Assembly), (⟨7, 5, 3, 255, 17179869183, [1, 2], [false, false], some 2, true⟩ : Assembly)] }))
  ] = true := by decide +kernel

theorem witness_DmaChannelsRunDescriptors_3 : allOf [
    ((fun s : State => s.assembly.find? (fun a => a.x = 7 && a.y = 5 && a.vc = 3 && a.tag = 255 &&
      a.done) == some (⟨7, 5, 3, 255, 66, [1, 2], [false, false], some 2, true⟩ : Assembly) &&
      (s.assembly.takeWhile (· != (⟨7, 5, 3, 255, 66, [1, 2], [false, false], some 2, true⟩ : Assembly))).any (fun b => b.done &&
      b.from_ = (⟨7, 5, 3, 255, 66, [1, 2], [false, false], some 2, true⟩ : Assembly).from_ &&
      State.sameLine b (⟨7, 5, 3, 255, 66, [1, 2], [false, false], some 2, true⟩ : Assembly)))
      ({ up with assembly := [(⟨7, 5, 1, 255, 64, [1, 2], [false, false], some 2, true⟩ : Assembly), (⟨7, 5, 3, 255, 66, [1, 2], [false, false], some 2, true⟩ : Assembly)] })),
    ((fun s : State => s.assembly.find? (fun a => a.x = 7 && a.y = 5 && a.vc = 3 && a.tag = 255 &&
      a.done) == some (⟨7, 5, 3, 255, 66, [1, 2], [false, false], some 1, true⟩ : Assembly) &&
      !(s.assembly.takeWhile (· != (⟨7, 5, 3, 255, 66, [1, 2], [false, false], some 1, true⟩ : Assembly))).any (fun b => b.done &&
      b.from_ = (⟨7, 5, 3, 255, 66, [1, 2], [false, false], some 1, true⟩ : Assembly).from_ &&
      State.sameLine b (⟨7, 5, 3, 255, 66, [1, 2], [false, false], some 1, true⟩ : Assembly)))
      ({ (up.mark GL_MEM_STAT_W_READY) with power := { up.power with memW := true }, assembly := [(⟨7, 5, 1, 255, 64, [1, 2], [false, false], some 2, true⟩ : Assembly), (⟨7, 5, 3, 255, 66, [1, 2], [false, false], some 1, true⟩ : Assembly)] })),
    ((fun s : State => s.assembly.find? (fun a => a.x = 7 && a.y = 5 && a.vc = 3 && a.tag = 255 &&
      a.done) == some (⟨7, 5, 3, 255, 66, [1, 2], [false, false], some 2, true⟩ : Assembly) &&
      !(s.assembly.takeWhile (· != (⟨7, 5, 3, 255, 66, [1, 2], [false, false], some 2, true⟩ : Assembly))).any (fun b => b.done &&
      b.from_ = (⟨7, 5, 3, 255, 66, [1, 2], [false, false], some 2, true⟩ : Assembly).from_ &&
      State.sameLine b (⟨7, 5, 3, 255, 66, [1, 2], [false, false], some 2, true⟩ : Assembly)))
      ({ (up.mark GL_MEM_STAT_W_READY) with power := { up.power with memW := true }, assembly := [(⟨7, 5, 1, 255, 0x40, [1, 2], [false], some 2, false⟩ : Assembly), (⟨7, 5, 3, 255, 66, [1, 2], [false, false], some 2, true⟩ : Assembly)] }))
  ] = true := by decide +kernel

theorem witness_GenharPortsCarryFlits_1 : allOf [
    ((fun s : State => s.portState 3 == 2 && (s.port 3).rxSeq == 255 && decide (fDx theFlit ≤ 7) && decide (fDy theFlit ≤ 5) &&
      decide (fHops theFlit < 12) && s.portFor theFlit == some 1 && s.portState 1 == 2)
      (((up.put (LK_G_STAT_STATE 3) 2).put (LK_G_STAT_STATE 1) 2).setPort 3 { Port.reset with rxSeq := 255 })),
    ((fun s : State => s.portState 3 == 2 && !(s.port 3).naked && (254 : Nat) != (s.port 3).rxSeq)
      (((up.put (LK_G_STAT_STATE 3) 2).put (LK_G_STAT_STATE 1) 2).setPort 3 { Port.reset with rxSeq := 255 })),
    ((fun s : State => s.portState 3 == 2 && s.meshOut == [] && (s.port 3).again == [(255, 6), (0, 7)])
      (((up.put (LK_G_STAT_STATE 3) 2).put (LK_G_STAT_STATE 1) 2).setPort 3 { Port.reset with again := [(255, 6), (0, 7)], replay := [(255, 6), (0, 7)], rxSeq := 0 })),
    ((fun s : State => s.portState 3 == 2 && s.meshOut == [] && (s.port 3).again == [] && decide ((s.port 3).replay.length < 64) &&
      (s.port 3).out == [⟨theFlit, none⟩] && s.nextVc 3 == some (fVc theFlit))
      ((((up.put (LK_G_STAT_STATE 3) 2).put (LK_G_STAT_STATE 1) 2).put (LK_G_CREDIT_CR 3 3) 1).setPort 3 { Port.reset with txSeq := 255, replay := List.replicate 63 (0, 1), out := [⟨theFlit, none⟩] })),
    ((fun s : State => s.portState 3 == 2 && (s.port 3).replay.findIdx? (fun f => f.1 = 255) == some 1 && (s.port 3).tries == 0)
      (((up.put (LK_G_STAT_STATE 3) 2).put (LK_G_STAT_STATE 1) 2).setPort 3 { Port.reset with tries := 0, replay := [(254, 5), (255, 6), (0, 7)] })),
    ((fun s : State => s.portState 3 == 2 && (s.port 3).replay.findIdx? (fun f => f.1 = 255) == some 1 && (s.port 3).tries == 15)
      (((up.put (LK_G_STAT_STATE 3) 2).put (LK_G_STAT_STATE 1) 2).setPort 3 { Port.reset with tries := 15, replay := [(254, 5), (255, 6), (0, 7)] })),
    ((fun s : State => s.portState 3 == 2 && (s.port 3).replay.findIdx? (fun f => f.1 = 255) == some 1 && (s.port 3).tries == 16)
      (((up.put (LK_G_STAT_STATE 3) 2).put (LK_G_STAT_STATE 1) 2).setPort 3 { Port.reset with tries := 16, replay := [(254, 5), (255, 6), (0, 7)] })),
    ((fun s : State => s.portState 3 == 2 && (s.port 3).owed != [] && (s.port 3).accepted != 0)
      ((((up.put (LK_G_STAT_STATE 3) 2).put (LK_G_STAT_STATE 1) 2).put (LK_G_CREDIT_CR 3 3) 127).setPort 3 { Port.reset with owed := [(1, 3), (3, 4)], accepted := 5, any := true, rxSeq := 0 })),
    ((fun s : State => s.portState 3 == 1)
      ((up.put (LK_G_STAT_STATE 3) 1).setPort 3 { Port.reset with lanes := 7 })),
    ((fun s : State => s.portState 3 == 0)
      (up.put (LK_G_STAT_STATE 3) 0)),
    ((fun s : State => s.portState 3 == 5 && s.get (LK_G_CTRL_LPBK 3) == 3 && s.get (LK_G_CTRL_PRBS 3) == 0)
      (((up.put (LK_G_STAT_STATE 3) 5).put (LK_G_CTRL_LPBK 3) 3).put (LK_G_CTRL_PRBS 3) 0)),
    ((fun s : State => s.portState 3 == 1)
      (((up.put (LK_G_STAT_STATE 3) 1).put LK_MESH_POS_X 5).setPort 3 { Port.reset with lanes := 7, seen := 7 }))
  ] = true := by decide +kernel

theorem witness_GenharPortsCarryFlits_2 : allOf [
    ((fun s : State => s.portState 3 == 1)
      (((up.put (LK_G_STAT_STATE 3) 1).put LK_MESH_POS_X 5).setPort 3 { Port.reset with lanes := 15, seen := 15 })),
    ((fun s : State => s.portState 3 == 1)
      (((up.put (LK_G_STAT_STATE 3) 1).put LK_MESH_POS_X 5).setPort 3 { Port.reset with lanes := 0, seen := 0 })),
    ((fun s : State => s.ready && directView .bar0 && s.on (LK_G_CTRL_EN 3) && s.get (LK_G_CTRL_LPBK 3) == 0)
      (((up.put (LK_G_STAT_STATE 3) 2).put (LK_G_CTRL_EN 3) 1).put LK_MESH_POS_OVR 0)),
    ((fun s : State => s.ready && directView .bar0 && s.on (LK_G_CTRL_EN 3) && s.get (LK_G_CTRL_LPBK 3) == 0)
      (((up.put (LK_G_STAT_STATE 3) 2).put (LK_G_CTRL_EN 3) 1).put LK_MESH_POS_OVR 1)),
    ((fun s : State => s.ready && directView .bar0 && s.on (LK_G_CTRL_EN 3) && s.portState 3 != 5 && !s.on LK_MESH_POS_VALID)
      (((up.put (LK_G_STAT_STATE 3) 1).put (LK_G_CTRL_EN 3) 1).put LK_MESH_POS_VALID 0)),
    ((fun s : State => s.ready && directView .bar0 && s.on (LK_G_CTRL_EN 3) && s.portState 3 != 5 && !s.on LK_MESH_POS_VALID)
      (((up.put (LK_G_STAT_STATE 3) 0).put (LK_G_CTRL_EN 3) 1).put LK_MESH_POS_VALID 0)),
    ((fun s : State => s.portState 3 == 1 && (s.port 3).lanes == 15 && s.expected 3 == some (s.get (LK_G_STAT_NBR_X 3), s.get (LK_G_STAT_NBR_Y 3)))
      ((((up.put (LK_G_STAT_STATE 3) 1).put LK_MESH_POS_X 1).put (LK_G_STAT_NBR_X 3) 0).setPort 3 { Port.reset with lanes := 15 })),
    ((fun s : State => s.portState 3 == 1 && (s.port 3).lanes == 15 && s.expected 3 != some (s.get (LK_G_STAT_NBR_X 3), s.get (LK_G_STAT_NBR_Y 3)))
      ((up.put (LK_G_STAT_STATE 3) 1).setPort 3 { Port.reset with lanes := 15 })),
    ((fun s : State => s.portState 3 == 2)
      (((up.put (LK_G_STAT_STATE 3) 2).put (LK_G_STAT_STATE 1) 2).setPort 3 { Port.reset with replay := [(1, 1)] })),
    ((fun s : State => s.ready && directView .bar0 && s.portState 3 != 0 && s.on (LK_G_CTRL_EN 3) && s.get (LK_G_CTRL_LPBK 3) == 0 && s.portState 3 != 5 &&
      s.on LK_MESH_POS_VALID)
      (((up.put (LK_G_STAT_STATE 3) 2).put (LK_G_CTRL_EN 3) 1).mark LK_MESH_POS_VALID)),
    ((fun s : State => s.ready && directView .bar0 && s.portState 3 == 0 && s.get (LK_G_CTRL_LPBK 3) == 0)
      ((up.put (LK_G_STAT_STATE 3) 0).put (LK_G_CTRL_EN 3) 0)),
    ((fun s : State => s.ready && directView .bar0 && s.portState 3 == 0 && s.get (LK_G_CTRL_LPBK 3) == 0)
      ((up.put (LK_G_STAT_STATE 3) 0).put (LK_G_CTRL_EN 3) 1))
  ] = true := by decide +kernel

theorem witness_GenharPortsCarryFlits_3 : allOf [
    ((fun s : State => s.ready && directView .bar0 && s.on (LK_G_CTRL_EN 3) && s.portState 3 == 5)
      (((up.put (LK_G_STAT_STATE 3) 5).put (LK_G_CTRL_EN 3) 1).put (LK_G_CTRL_LPBK 3) 4)),
    ((fun s : State => s.ready && directView .bar0 && s.portState 3 != 0)
      (((up.put (LK_G_STAT_STATE 3) 5).put (LK_G_CTRL_EN 3) 1).put (LK_G_CTRL_LPBK 3) 4))
  ] = true := by decide +kernel

theorem witness_SupervisorsHoldTheirDomains_1 : allOf [
    ((fun s : State => s.ready && supervisorOf .svs == some 1 && directView .bar0)
      ({ (up.put (svState 1) 1).mark (svSilent 1) with ticks := 88 })),
    ((fun s : State => s.ready && supervisorOf .svs == some 1 && directView .bar0 && !s.on (svSilent 1))
      ({ (up.put (svState 1) 0).put (svSilent 1) 0 with ticks := 88 })),
    ((fun s : State => !s.on (svSilent 1) && !s.on (svSilent 0) && s.get (svState 0) != 2)
      (((((up.put (svState 0) 0).put (svState 1) 1).put (svSilent 0) 0).put (svSilent 1) 0))),
    ((fun s : State => !s.on (svSilent 1) && !s.on (svSilent 0) && s.get (svState 0) != 2)
      (((((up.put (svState 0) 1).put (svState 1) 1).put (svSilent 0) 0).put (svSilent 1) 0))),
    ((fun s : State => !s.on (svSilent 1) && !s.on (svSilent 0) && s.get (svState 0) != 2)
      (((((up.put (svState 0) 3).put (svState 1) 1).put (svSilent 0) 0).put (svSilent 1) 0))),
    ((fun s : State => s.ready && supervisorOf .svs == some 1 && s.get SV_LEAD_HOLDER == 0 && !s.on SV_LEAD_CONFLICT)
      ((up.put SV_LEAD_HOLDER 0).put (svState 1) 1)),
    ((fun s : State => s.ready && supervisorOf .svs == some 1 && s.get SV_LEAD_HOLDER == 0 && !s.on SV_LEAD_CONFLICT)
      ((up.put SV_LEAD_HOLDER 0).put (svState 1) 2)),
    ((fun s : State => s.ready && supervisorOf .svs == some 1 && s.get SV_LEAD_HOLDER != 0)
      ((up.put SV_LEAD_HOLDER 2).put (svState 1) 1)),
    ((fun s : State => s.ready && supervisorOf .svs == some 1 && s.leads 0 && s.on (svSilent 0) && !s.on SV_LEAD_CONFLICT && !s.on (svSilent 1) &&
      s.get (svState 1) != 2)
      ((((up.put SV_LEAD_HOLDER 1).put (svState 1) 1).mark (svSilent 0)).put (svSilent 1) 0)),
    ((fun s : State => s.ready && hostView .bar0 && (2147483648 : Nat).testBit 31 && decide (2147483648 % 4 ≠ 3))
      ((up.mark SV_LEAD_CONFLICT).put SV_LEAD_CULPRIT 1)),
    ((fun s : State => s.ready && hostView .bar0 && (2147483649 : Nat).testBit 31 && decide (2147483649 % 4 ≠ 3))
      ((up.mark SV_LEAD_CONFLICT).put SV_LEAD_CULPRIT 1)),
    ((fun s : State => s.ready && hostView .bar0 && (2147483650 : Nat).testBit 31 && decide (2147483650 % 4 ≠ 3))
      ((up.mark SV_LEAD_CONFLICT).put SV_LEAD_CULPRIT 1))
  ] = true := by decide +kernel

theorem witness_SupervisorsHoldTheirDomains_2 : allOf [
    ((fun s : State => s.ready && hostView .bar0 && s.get (svState 1) == 2)
      ((up.put (svState 1) 2).mark (SV_MBX_STAT_BUSY 1)))
  ] = true := by decide +kernel

theorem witness_SupervisorServicesAct_1 : allOf [
    ((fun s : State => s.ready && directView .bar0 && !s.on (SV_MBX_STAT_BUSY 1) && s.get (svState 1) == 0)
      (up.put (svState 1) 0)),
    ((fun s : State => s.ready && directView .bar0 && !s.on (SV_MBX_STAT_BUSY 1) && s.get (svState 1) == 1)
      ({ up.put (svState 1) 1 with ticks := 700000 })),
    ((fun s : State => s.ready && directView .bar0 && !s.on (SV_MBX_STAT_BUSY 1) && s.get (svState 1) == 2)
      ({ up.put (svState 1) 2 with ticks := 214748364899999 })),
    ((fun s : State => s.ready && directView .bar0 && !s.on (SV_MBX_STAT_BUSY 1) && s.get (svState 1) == 2)
      (up.put (svState 1) 2)),
    ((fun s : State => s.ready && directView .bar0 && !s.on (SV_MBX_STAT_BUSY 1) && s.get (svState 1) == 1 && s.leads 1)
      (((((up.put (svState 1) 1).put SV_LEAD_HOLDER 2).setSheaf 15 { Sheaf.reset with words := [(5, some 6)] }).put (TH_STAT_STATE 28) 1))),
    ((fun s : State => s.ready && directView .bar0 && !s.on (SV_MBX_STAT_BUSY 1) && s.get (svState 1) == 1 && !s.leads 1)
      (((up.put (svState 1) 1).put SV_LEAD_HOLDER 1))),
    ((fun s : State => s.ready && directView .bar0 && !s.on (SV_MBX_STAT_BUSY 1) && s.get (svState 1) == 1 &&
      (List.range 8).all (fun r => s.serves 1 r == decide (4 ≤ r)) && !s.power.noSafe && !s.inReset 63 && s.seqWants 63 0 &&
      s.get (TL_SUP_STAT_STATE 63 0) == 0)
      (((((((up.put (svState 1) 1).put SV_LEAD_HOLDER 2).put (svDoms 1) 2).put (ST_CAL_CTRL_EN 4) 0).mark (ST_CAL_CTRL_EN 7)).put (TL_SUP_CODE_CODE 63 0) 5).put (ST_CAL_STAT_DUE 7) 0)),
    ((fun s : State => s.ready && directView .bar0 && !s.on (SV_MBX_STAT_BUSY 1) && s.get (svState 1) == 1 &&
      (List.range 8).all (fun r => s.serves 1 r == decide (4 ≤ r)) && s.serves 1 (rowOf 63) && s.serves 1 (rowOf 32) && !s.serves 1 (rowOf 31))
      (((((((((up.put (svState 1) 1).put SV_LEAD_HOLDER 2).put (svDoms 1) 2).put (ST_CAL_CTRL_EN 4) 0).mark (ST_CAL_CTRL_EN 7)).put (TL_SUP_CODE_CODE 63 0) 5).put (ST_CAL_STAT_DUE 7) 0).put (TL_SEQ_STAT_STATE 63) 4).put (TL_SEQ_STAT_STATE 62) 1)),
    ((fun s : State => s.ready && directView .bar0 && !s.on (SV_MBX_STAT_BUSY 1) && s.get (svState 1) == 1 &&
      (List.range 8).all (fun r => s.serves 1 r == decide (4 ≤ r)))
      ((((((((up.put (svState 1) 1).put SV_LEAD_HOLDER 2).put (svDoms 1) 2).put (ST_CAL_CTRL_EN 4) 0).mark (ST_CAL_CTRL_EN 7)).put (TL_SUP_CODE_CODE 63 0) 5).put (ST_CAL_STAT_DUE 7) 0).mark (TL_SUP_CTRL_EN 63 1))),
    ((fun s : State => s.ready && directView .bar0 && s.on (SV_MBX_STAT_BUSY 1))
      ((up.mark (SV_MBX_STAT_BUSY 1)))),
    ((fun s : State => (s.sv 1).cmd == some ⟨255, 255, none, none, none⟩ && s.get (svState 1) == 1 && decide ((s.sv 1).mbx.length ≤ 62))
      (((up.put (svState 1) 1).mark (SV_MBX_STAT_BUSY 1)).setSv 1 { Supervisor.reset with cmd := some ⟨255, 255, none, none, none⟩, mbx := List.replicate 62 1 })),
    ((fun s : State => (s.sv 1).cmd == some ⟨255, 255, some 3, none, none⟩ && s.get (svState 1) == 1 && decide ((s.sv 1).mbx.length ≤ 62))
      (((up.put (svState 1) 1).mark (SV_MBX_STAT_BUSY 1)).setSv 1 { Supervisor.reset with cmd := some ⟨255, 255, some 3, none, none⟩, mbx := List.replicate 62 1 }))
  ] = true := by decide +kernel

theorem witness_SupervisorServicesAct_2 : allOf [
    ((fun s : State => (s.sv 1).cmd == some ⟨255, 255, some 0, some 9, none⟩ && s.get (svState 1) == 1 && decide ((s.sv 1).mbx.length ≤ 62))
      (((up.put (svState 1) 1).mark (SV_MBX_STAT_BUSY 1)).setSv 1 { Supervisor.reset with cmd := some ⟨255, 255, some 0, some 9, none⟩, mbx := List.replicate 62 1 })),
    ((fun s : State => (s.sv 1).cmd == some ⟨255, 255, none, none, none⟩ && s.get (svState 1) == 2 && decide ((s.sv 1).mbx.length ≤ 62))
      (((up.put (svState 1) 2).mark (SV_MBX_STAT_BUSY 1)).setSv 1 { Supervisor.reset with cmd := some ⟨255, 255, none, none, none⟩, mbx := List.replicate 62 1 })),
    ((fun s : State => (s.sv 1).cmd == some ⟨255, 255, some 3, none, none⟩ && s.get (svState 1) == 2 && decide ((s.sv 1).mbx.length ≤ 62))
      (((up.put (svState 1) 2).mark (SV_MBX_STAT_BUSY 1)).setSv 1 { Supervisor.reset with cmd := some ⟨255, 255, some 3, none, none⟩, mbx := List.replicate 62 1 })),
    ((fun s : State => (s.sv 1).cmd == some ⟨255, 255, some 0, some 9, none⟩ && s.get (svState 1) == 2 && decide ((s.sv 1).mbx.length ≤ 62))
      (((up.put (svState 1) 2).mark (SV_MBX_STAT_BUSY 1)).setSv 1 { Supervisor.reset with cmd := some ⟨255, 255, some 0, some 9, none⟩, mbx := List.replicate 62 1 })),
    ((fun s : State => (s.sv 1).cmd == some ⟨255, 255, none, none, none⟩ && decide (62 < (s.sv 1).mbx.length))
      ((up.put (svState 1) 1).setSv 1 { Supervisor.reset with cmd := some ⟨255, 255, none, none, none⟩, mbx := List.replicate 63 1 })),
    ((fun s : State => (s.sv 1).cmd == some ⟨7, 2, none, none, some 0⟩ && s.get (svState 1) == 1 && decide ((s.sv 1).mbx.length ≤ 62))
      (((up.put (svState 1) 1).mark (SV_MBX_STAT_BUSY 1)).setSv 1 { Supervisor.reset with cmd := some ⟨7, 2, none, none, some 0⟩ })),
    ((fun s : State => (s.sv 1).cmd == some ⟨7, 2, none, none, some 3⟩ && s.get (svState 1) == 1 && decide ((s.sv 1).mbx.length ≤ 62))
      (((up.put (svState 1) 1).mark (SV_MBX_STAT_BUSY 1)).setSv 1 { Supervisor.reset with cmd := some ⟨7, 2, none, none, some 3⟩ })),
    ((fun s : State => (s.sv 1).cmd == some ⟨7, 2, none, none, some 64⟩ && s.get (svState 1) == 1 && decide ((s.sv 1).mbx.length ≤ 62))
      (((up.put (svState 1) 1).mark (SV_MBX_STAT_BUSY 1)).setSv 1 { Supervisor.reset with cmd := some ⟨7, 2, none, none, some 64⟩ })),
    ((fun s : State => (s.sv 1).cmd == none)
      (up))
  ] = true := by decide +kernel

theorem witness_RouterChannelsCarryEvents_1 : allOf [
    ((fun s : State => s.ready && directView .bar0)
      (up)),
    ((fun s : State => s.ready && userView .bar4 && s.userMayFire 255)
      (up.put (EV_CH_CFG_OWNER 255) 1)),
    ((fun s : State => s.ready && userView .bar4 && !s.userMayFire 255)
      (up.put (EV_CH_CFG_OWNER 255) 2)),
    ((fun s : State => s.ready && directView .bar0 && (!s.on (EV_CH_STAT_RUNAWAY 255) || !(4294967295 : Nat).testBit 31))
      ((up.put (EV_CH_CFG_OWNER 255) 2).put (EV_CH_CFG_LOCK 255) 0)),
    ((fun s : State => s.ready && directView .bar0 && (!s.on (EV_CH_STAT_RUNAWAY 255) || !(4294967295 : Nat).testBit 31))
      ((up.put (EV_CH_CFG_OWNER 255) 2).put (EV_CH_CFG_LOCK 255) 1)),
    ((fun s : State => s.ready && directView .bar0 && (!s.on (EV_CH_STAT_RUNAWAY 255) || !(3758096383 : Nat).testBit 31))
      ((up.put (EV_CH_CFG_OWNER 255) 2).put (EV_CH_CFG_LOCK 255) 0)),
    ((fun s : State => s.ready && directView .bar0 && (!s.on (EV_CH_STAT_RUNAWAY 255) || !(3758096383 : Nat).testBit 31))
      ((up.put (EV_CH_CFG_OWNER 255) 2).put (EV_CH_CFG_LOCK 255) 1)),
    ((fun s : State => s.ready && directView .bar0 && (!s.on (EV_CH_STAT_RUNAWAY 255) || !(0 : Nat).testBit 31))
      ((up.put (EV_CH_CFG_OWNER 255) 2).put (EV_CH_CFG_LOCK 255) 0)),
    ((fun s : State => s.ready && directView .bar0 && (!s.on (EV_CH_STAT_RUNAWAY 255) || !(0 : Nat).testBit 31))
      ((up.put (EV_CH_CFG_OWNER 255) 2).put (EV_CH_CFG_LOCK 255) 1)),
    ((fun s : State => s.ready && directView .bar0 && (!s.on (EV_CH_STAT_RUNAWAY 255) || !(2147483648 : Nat).testBit 31))
      ((up.put (EV_CH_CFG_OWNER 255) 2).put (EV_CH_CFG_LOCK 255) 0)),
    ((fun s : State => s.ready && directView .bar0 && (!s.on (EV_CH_STAT_RUNAWAY 255) || !(2147483648 : Nat).testBit 31))
      ((up.put (EV_CH_CFG_OWNER 255) 2).put (EV_CH_CFG_LOCK 255) 1)),
    ((fun s : State => s.ready && directView .bar0 && (!s.on (EV_CH_STAT_RUNAWAY 255) || !(3422552064 : Nat).testBit 31))
      ((up.put (EV_CH_CFG_OWNER 255) 2).put (EV_CH_CFG_LOCK 255) 0))
  ] = true := by decide +kernel

theorem witness_RouterChannelsCarryEvents_2 : allOf [
    ((fun s : State => s.ready && directView .bar0 && (!s.on (EV_CH_STAT_RUNAWAY 255) || !(3422552064 : Nat).testBit 31))
      ((up.put (EV_CH_CFG_OWNER 255) 2).put (EV_CH_CFG_LOCK 255) 1)),
    ((fun s : State => s.ready && directView .bar0 && (!s.on (EV_CH_STAT_RUNAWAY 255) || !(3288334336 : Nat).testBit 31))
      ((up.put (EV_CH_CFG_OWNER 255) 2).put (EV_CH_CFG_LOCK 255) 0)),
    ((fun s : State => s.ready && directView .bar0 && (!s.on (EV_CH_STAT_RUNAWAY 255) || !(3288334336 : Nat).testBit 31))
      ((up.put (EV_CH_CFG_OWNER 255) 2).put (EV_CH_CFG_LOCK 255) 1)),
    ((fun s : State => s.ready && directView .bar0 && s.on (EV_CH_STAT_RUNAWAY 255) && (0xFFFFFFFF : Nat).testBit 31)
      (up.mark (EV_CH_STAT_RUNAWAY 255))),
    ((fun s : State => !s.on (EV_CH_CFG_EN 255))
      (up.put (EV_CH_CFG_EN 255) 0)),
    ((fun s : State => s.on (EV_CH_CFG_EN 255) && (s.chan 255).arrivals == [] && decide (3199 < (s.chan 255).quietTo) &&
      decide ((s.chan 255).quietTo ≤ 3200) && (s.chan 255).window == some (3200 / 320) && (s.chan 255).window != some (3520 / 320))
      ((up.mark (EV_CH_CFG_EN 255)).setChan 255 { Chan.reset with quietTo := 3200, window := some 10 })),
    ((fun s : State => s.on (EV_CH_CFG_EN 255) && (s.chan 255).arrivals == [(256001 / 128000, 256)])
      ((up.mark (EV_CH_CFG_EN 255)).setChan 255 { Chan.reset with arrivals := [(2, 256)] })),
    ((fun s : State => (s.chan 63).flight == [12800, 20000] && s.powerState != 4)
      (up.setChan 63 { Chan.reset with flight := [12800, 20000] })),
    ((fun s : State => (s.chan 64).flight == [12800, 20000] && s.powerState != 4)
      (up.setChan 64 { Chan.reset with flight := [12800, 20000] })),
    ((fun s : State => (s.chan 127).flight == [12800, 20000] && s.powerState != 4)
      (up.setChan 127 { Chan.reset with flight := [12800, 20000] })),
    ((fun s : State => (s.chan 128).flight == [12800, 20000] && s.powerState != 4)
      (up.setChan 128 { Chan.reset with flight := [12800, 20000] })),
    ((fun s : State => (s.chan 191).flight == [12800, 20000] && s.powerState != 4)
      (up.setChan 191 { Chan.reset with flight := [12800, 20000] }))
  ] = true := by decide +kernel

theorem witness_RouterChannelsCarryEvents_3 : allOf [
    ((fun s : State => (s.chan 192).flight == [12800, 20000] && s.powerState != 4)
      (up.setChan 192 { Chan.reset with flight := [12800, 20000] })),
    ((fun s : State => (s.chan 255).flight == [12800, 20000] && s.powerState != 4)
      (up.setChan 255 { Chan.reset with flight := [12800, 20000] })),
    ((fun s : State => (s.chan 192).flight == [12800] && s.powerState == 4 && decide (192 ≤ 192))
      ((up.put GL_PWR_STAT_STATE 4).setChan 192 { Chan.reset with flight := [12800] })),
    ((fun s : State => (s.chan 255).flight == [12800] && s.powerState == 4 && decide (192 ≤ 255))
      ((up.put GL_PWR_STAT_STATE 4).setChan 255 { Chan.reset with flight := [12800] }))
  ] = true := by decide +kernel

theorem witness_FaultsAreCollected_1 : allOf [
    ((fun s : State => !s.faultBit 63 && !s.on FC_FIRST_VALID && s.reactionOf 63 == 1)
      (((((up.put (FC_REACT_REACT 15 3) 1).put (svState 0) 1).put (svState 1) 1).mark FC_ALIVE_RUNNING))),
    ((fun s : State => !s.faultBit 127 && !s.on FC_FIRST_VALID && s.reactionOf 127 == 63)
      (((((up.put (FC_REACT_REACT 31 3) 63).put (svState 0) 1).put (svState 1) 1).mark FC_ALIVE_RUNNING))),
    ((fun s : State => !s.faultBit 159 && !s.on FC_FIRST_VALID && s.reactionOf 159 == 8)
      (((((up.put (FC_REACT_REACT 39 3) 8).put (svState 0) 1).put (svState 1) 1).mark FC_ALIVE_RUNNING))),
    ((fun s : State => !s.faultBit 178 && !s.on FC_FIRST_VALID && s.reactionOf 178 == 8)
      (((((up.put (FC_REACT_REACT 44 2) 8).put (svState 0) 1).put (svState 1) 1).mark FC_ALIVE_RUNNING))),
    ((fun s : State => !s.faultBit 181 && !s.on FC_FIRST_VALID && s.reactionOf 181 == 10)
      (((((up.put (FC_REACT_REACT 45 1) 10).put (svState 0) 1).put (svState 1) 1).mark FC_ALIVE_RUNNING))),
    ((fun s : State => !s.faultBit 183 && !s.on FC_FIRST_VALID && s.reactionOf 183 == 63)
      (((((up.put (FC_REACT_REACT 45 3) 63).put (svState 0) 1).put (svState 1) 1).mark FC_ALIVE_RUNNING))),
    ((fun s : State => !s.faultBit 176 && !s.on FC_FIRST_VALID && s.reactionOf 176 == 32)
      (((((up.put (FC_REACT_REACT 44 0) 32).put (svState 0) 1).put (svState 1) 1).mark FC_ALIVE_RUNNING))),
    ((fun s : State => !s.faultBit 128 && !s.on FC_FIRST_VALID && s.reactionOf 128 == 2)
      (((((up.put (FC_REACT_REACT 32 0) 2).put (svState 0) 1).put (svState 1) 1).mark FC_ALIVE_RUNNING))),
    ((fun s : State => !s.faultBit 100 && !s.on FC_FIRST_VALID && s.reactionOf 100 == 12)
      (((((up.put (FC_REACT_REACT 25 0) 12).put (svState 0) 1).put (svState 1) 1).mark FC_ALIVE_RUNNING))),
    ((fun s : State => !s.faultBit 0 && !s.on FC_FIRST_VALID && s.reactionOf 0 == 47)
      (((((up.put (FC_REACT_REACT 0 0) 47).put (svState 0) 1).put (svState 1) 1).mark FC_ALIVE_RUNNING))),
    ((fun s : State => s.faultBit 183)
      ({ up.putBit (FC_STAT_STAT (183 / 32)) (183 % 32) true with lines := [183, 4] })),
    ((fun s : State => s.collector.waiting == [(256, 300), (5, 9)])
      ((({ up with collector := { Collector.reset with waiting := [(256, 300), (5, 9)] } }.setDma 1 { Dma.reset with tag := 3 }).put (svState 0) 1).put (svState 1) 2))
  ] = true := by decide +kernel

theorem witness_FaultsAreCollected_2 : allOf [
    ((fun s : State => s.collector.waiting == [(439, 300), (5, 9)])
      ((({ up with collector := { Collector.reset with waiting := [(439, 300), (5, 9)] } }.setDma 1 { Dma.reset with tag := 3 }).put (svState 0) 1).put (svState 1) 2)),
    ((fun s : State => s.collector.waiting == [(178, 300), (5, 9)])
      ((({ up with collector := { Collector.reset with waiting := [(178, 300), (5, 9)] } }.setDma 1 { Dma.reset with tag := 3 }).put (svState 0) 1).put (svState 1) 2)),
    ((fun s : State => s.collector.waiting == [(179, 300), (5, 9)])
      ((({ up with collector := { Collector.reset with waiting := [(179, 300), (5, 9)] } }.setDma 1 { Dma.reset with tag := 3 }).put (svState 0) 1).put (svState 1) 2)),
    ((fun s : State => s.collector.waiting == [(181, 300), (5, 9)])
      ((({ up with collector := { Collector.reset with waiting := [(181, 300), (5, 9)] } }.setDma 1 { Dma.reset with tag := 3 }).put (svState 0) 1).put (svState 1) 2)),
    ((fun s : State => s.ready && directView .bar0 && !s.on FC_INJ_CONT && (2158690623 : Nat).testBit 31 &&
      decide (bits 2158690623 7 0 < injectionUnits (bits 2158690623 15 8)) && decide (injectionUnits (bits 2158690624 15 8) ≤ bits 2158690624 7 0))
      (up)),
    ((fun s : State => s.ready && directView .bar0 && !s.on FC_INJ_CONT && (2158691343 : Nat).testBit 31 &&
      decide (bits 2158691343 7 0 < injectionUnits (bits 2158691343 15 8)) && decide (injectionUnits (bits 2158691344 15 8) ≤ bits 2158691344 7 0))
      (up)),
    ((fun s : State => s.ready && directView .bar0 && !s.on FC_INJ_CONT && (2158691871 : Nat).testBit 31 &&
      decide (bits 2158691871 7 0 < injectionUnits (bits 2158691871 15 8)) && decide (injectionUnits (bits 2158691872 15 8) ≤ bits 2158691872 7 0))
      (up)),
    ((fun s : State => s.ready && directView .bar0 && !s.on FC_INJ_CONT && (2158692352 : Nat).testBit 31 &&
      decide (bits 2158692352 7 0 < injectionUnits (bits 2158692352 15 8)) && decide (injectionUnits (bits 2158692353 15 8) ≤ bits 2158692353 7 0))
      (up)),
    ((fun s : State => s.ready && directView .bar0 && !s.on FC_ALIVE_STOPPED && (0xA11F : Nat) != 0xA11E)
      ({ up with ticks := 9 })),
    ((fun s : State => s.on FC_ALIVE_RUNNING && s.powerState != 4)
      ({ up.mark FC_ALIVE_RUNNING with collector := { Collector.reset with level := true, kickAt := 5, toggleAt := 70000 } }))
  ] = true := by decide +kernel

theorem witness_ManagementPortAndNvmAct_1 : allOf [
    ((fun s : State => s.power.vbulk && (BitVec.ofNat 24 GL_SYNC_TRIM).toNat % 4 == 0 &&
      ((s.put MSP_STATUS_MODE3 (b2n true)).bump MSP_STATUS_TRANS).mspValid (mspEnd (BitVec.ofNat 24 GL_SYNC_TRIM).toNat) (BitVec.ofNat 24 GL_SYNC_TRIM).toNat)
      (up.setReg GL_SYNC_TRIM 5)),
    ((fun s : State => s.power.vbulk && (BitVec.ofNat 24 GL_SYNC_TRIM).toNat % 4 == 0)
      ({ up.setReg GL_SYNC_TRIM 5 with rdData := 3 })),
    ((fun s : State => !s.power.vbulk)
      ({ up with power := { up.power with vbulk := false } })),
    ((fun s : State => s.ready && directView .bar0 && !s.on MSP_M_STAT_BUSY && s.on MSP_M_CTRL_EN && !s.bootHolds && s.on MSP_M_CTRL_LPBK == false &&
      (s.storeWord MSP_M_CMD (insert32 ((BitVec.ofNat 32 (2 ^ MSP_M_CMD_RD.lo))).toNat 31 31 1)).on MSP_M_CMD_RD)
      ((((up.mark MSP_M_CTRL_EN).mark GL_BOOT_STAT_DONE).setReg MSP_M_ADDR 0x123456).put MSP_M_LEN_VALUE 256)),
    ((fun s : State => s.ready && directView .bar0 && !s.on MSP_M_STAT_BUSY && s.on MSP_M_CTRL_EN && !s.bootHolds && s.on MSP_M_CTRL_LPBK == false &&
      !(s.storeWord MSP_M_CMD (insert32 ((0 : Word)).toNat 31 31 1)).on MSP_M_CMD_RD && decide (s.get MSP_M_LEN_VALUE ≤ 4 * s.msp.fifo.length))
      ({ (((up.mark MSP_M_CTRL_EN).mark GL_BOOT_STAT_DONE).setReg MSP_M_ADDR 0x123456).put MSP_M_LEN_VALUE 5 with msp := { Msp.reset with fifo := [1, 2, 3] } })),
    ((fun s : State => s.ready && directView .bar0 && !s.on MSP_M_STAT_BUSY && s.on MSP_M_CTRL_EN && !s.bootHolds && s.on MSP_M_CTRL_LPBK == true &&
      (s.storeWord MSP_M_CMD (insert32 ((BitVec.ofNat 32 (2 ^ MSP_M_CMD_RD.lo))).toNat 31 31 1)).on MSP_M_CMD_RD &&
      (s.storeWord MSP_M_CMD (insert32 ((BitVec.ofNat 32 (2 ^ MSP_M_CMD_RD.lo))).toNat 31 31 1)).get MSP_M_CMD_CLN == 0 &&
      (s.storeWord MSP_M_CMD (insert32 ((BitVec.ofNat 32 (2 ^ MSP_M_CMD_RD.lo))).toNat 31 31 1)).get MSP_M_CMD_ALN == 0 &&
      (s.storeWord MSP_M_CMD (insert32 ((BitVec.ofNat 32 (2 ^ MSP_M_CMD_RD.lo))).toNat 31 31 1)).get MSP_M_CMD_DLN == 0)
      (((((up.mark MSP_M_CTRL_EN).mark GL_BOOT_STAT_DONE).setReg MSP_M_ADDR 0x123456).mark MSP_M_CTRL_LPBK).put MSP_M_LEN_VALUE 256)),
    ((fun s : State => s.ready && directView .bar0 && !s.on MSP_M_STAT_BUSY && s.on MSP_M_CTRL_EN && !s.bootHolds && s.on MSP_M_CTRL_LPBK == true &&
      !(s.storeWord MSP_M_CMD (insert32 ((0 : Word)).toNat 31 31 1)).on MSP_M_CMD_RD && decide (s.get MSP_M_LEN_VALUE ≤ 4 * s.msp.fifo.length) &&
      (s.storeWord MSP_M_CMD (insert32 ((0 : Word)).toNat 31 31 1)).get MSP_M_CMD_CLN == 0 &&
      (s.storeWord MSP_M_CMD (insert32 ((0 : Word)).toNat 31 31 1)).get MSP_M_CMD_ALN == 0 &&
      (s.storeWord MSP_M_CMD (insert32 ((0 : Word)).toNat 31 31 1)).get MSP_M_CMD_DLN == 0)
      ({ ((((up.mark MSP_M_CTRL_EN).mark GL_BOOT_STAT_DONE).setReg MSP_M_ADDR 0x123456).mark MSP_M_CTRL_LPBK).put MSP_M_LEN_VALUE 5 with msp := { Msp.reset with fifo := [1, 2, 3] } })),
    ((fun s : State => s.ready && directView .bar0 && s.on MSP_M_STAT_BUSY)
      ((((up.mark MSP_M_CTRL_EN).mark GL_BOOT_STAT_DONE).setReg MSP_M_ADDR 0x123456).mark MSP_M_STAT_BUSY)),
    ((fun s : State => s.ready && directView .bar0 && decide (s.msp.fifo.length < 64))
      ({ up with msp := { Msp.reset with fifo := List.replicate 63 1 } })),
    ((fun s : State => s.ready && directView .bar0 && !s.on NV_STAT_BUSY &&
      (decide (s.get NV_ADDR_ADDR / 4096 < 8) || decide (112 ≤ s.get NV_ADDR_ADDR / 4096)) && !s.on FC_INJ_STAT_ARMED)
      ({ up.put NV_ADDR_ADDR 32767 with nvm := { Nvm.reset with row := [(63, 5)] } })),
    ((fun s : State => s.ready && directView .bar0 && !s.on NV_STAT_BUSY &&
      (decide (s.get NV_ADDR_ADDR / 4096 < 8) || decide (112 ≤ s.get NV_ADDR_ADDR / 4096)) && !s.on FC_INJ_STAT_ARMED)
      ({ up.put NV_ADDR_ADDR 458752 with nvm := { Nvm.reset with row := [(63, 5)] } })),
    ((fun s : State => s.ready && directView .bar0 && !s.on NV_STAT_BUSY &&
      (decide (s.get NV_ADDR_ADDR / 4096 < 8) || decide (112 ≤ s.get NV_ADDR_ADDR / 4096)) && !s.on FC_INJ_STAT_ARMED)
      ({ up.put NV_ADDR_ADDR 524287 with nvm := { Nvm.reset with row := [(63, 5)] } }))
  ] = true := by decide +kernel

theorem witness_ManagementPortAndNvmAct_2 : allOf [
    ((fun s : State => s.ready && directView .bar0 && (s.on NV_STAT_BUSY || (decide (8 ≤ s.get NV_ADDR_ADDR / 4096) &&
      decide (s.get NV_ADDR_ADDR / 4096 < 112))))
      ((up.put NV_ADDR_ADDR 32768).put NV_STAT_BUSY 0)),
    ((fun s : State => s.ready && directView .bar0 && (s.on NV_STAT_BUSY || (decide (8 ≤ s.get NV_ADDR_ADDR / 4096) &&
      decide (s.get NV_ADDR_ADDR / 4096 < 112))))
      ((up.put NV_ADDR_ADDR 458751).put NV_STAT_BUSY 0)),
    ((fun s : State => s.ready && directView .bar0 && (s.on NV_STAT_BUSY || (decide (8 ≤ s.get NV_ADDR_ADDR / 4096) &&
      decide (s.get NV_ADDR_ADDR / 4096 < 112))))
      ((up.put NV_ADDR_ADDR 458752).put NV_STAT_BUSY 1)),
    ((fun s : State => s.on MSP_M_STAT_BUSY && s.msp.reads == some 5 && ([7, 8] : List Word).length == (5 + 3) / 4 &&
      decide (s.msp.fifo.length + 2 ≤ 64))
      ({ up.mark MSP_M_STAT_BUSY with msp := { Msp.reset with fifo := List.replicate 62 1, reads := some 5, loops := false, marker := 9 } })),
    ((fun s : State => s.on MSP_M_STAT_BUSY && s.msp.reads == some 5 && ([7, 8] : List Word).length == (5 + 3) / 4 &&
      decide (s.msp.fifo.length + 2 ≤ 64))
      ({ up.mark MSP_M_STAT_BUSY with msp := { Msp.reset with fifo := List.replicate 62 1, reads := some 5, loops := true, marker := 9 } })),
    ((fun s : State => s.nvm.op == some (1, 0x70000))
      ({ up.mark NV_STAT_BUSY with nvm := { Nvm.reset with op := some (1, 0x70000) } })),
    ((fun s : State => s.nvm.op == some (2, 0x70000))
      ({ up.mark NV_STAT_BUSY with nvm := { Nvm.reset with op := some (2, 0x70000) } }))
  ] = true := by decide +kernel

theorem witness_PowerSequencesRun_1 : allOf [
    ((fun s : State => s.topStep == 0 + 1 && s.powerState == 1 && !s.tripped && s.fbit GL_PWR_STAT_PG 0 && decide (0 < 5))
      (((up.put GL_PWR_STAT_STATE 1).put GL_PWR_STAT_REG_EN 1).put GL_PWR_STAT_PG 1)),
    ((fun s : State => s.topStep == 4 + 1 && s.powerState == 1 && !s.tripped && s.fbit GL_PWR_STAT_PG 4 && decide (4 < 5))
      (((up.put GL_PWR_STAT_STATE 1).put GL_PWR_STAT_REG_EN 31).put GL_PWR_STAT_PG 31)),
    ((fun s : State => s.topStep == 0 + 1 && s.powerState == 1 && !s.tripped && !s.fbit GL_PWR_STAT_PG 0 && decide (s.power.dueAt < s.ticks))
      ({ ((up.put GL_PWR_STAT_STATE 1).put GL_PWR_STAT_REG_EN 1).put GL_PWR_STAT_PG 0 with ticks := 501, power := { up.power with dueAt := 500, cpos := 0x2F } })),
    ((fun s : State => s.topStep == 0 + 1 && s.powerState == 1 && !s.tripped && !s.fbit GL_PWR_STAT_PG 0 && decide (s.ticks ≤ s.power.dueAt))
      ({ ((up.put GL_PWR_STAT_STATE 1).put GL_PWR_STAT_REG_EN 1).put GL_PWR_STAT_PG 0 with ticks := 500, power := { up.power with dueAt := 500, cpos := 0x2F } })),
    ((fun s : State => s.topStep == 1 + 1 && s.powerState == 1 && !s.tripped && !s.fbit GL_PWR_STAT_PG 1 && decide (s.power.dueAt < s.ticks))
      ({ ((up.put GL_PWR_STAT_STATE 1).put GL_PWR_STAT_REG_EN 3).put GL_PWR_STAT_PG 1 with ticks := 501, power := { up.power with dueAt := 500, cpos := 0x2F } })),
    ((fun s : State => s.topStep == 1 + 1 && s.powerState == 1 && !s.tripped && !s.fbit GL_PWR_STAT_PG 1 && decide (s.ticks ≤ s.power.dueAt))
      ({ ((up.put GL_PWR_STAT_STATE 1).put GL_PWR_STAT_REG_EN 3).put GL_PWR_STAT_PG 1 with ticks := 500, power := { up.power with dueAt := 500, cpos := 0x2F } })),
    ((fun s : State => s.topStep == 4 + 1 && s.powerState == 1 && !s.tripped && !s.fbit GL_PWR_STAT_PG 4 && decide (s.power.dueAt < s.ticks))
      ({ ((up.put GL_PWR_STAT_STATE 1).put GL_PWR_STAT_REG_EN 31).put GL_PWR_STAT_PG 15 with ticks := 501, power := { up.power with dueAt := 500, cpos := 0x2F } })),
    ((fun s : State => s.topStep == 4 + 1 && s.powerState == 1 && !s.tripped && !s.fbit GL_PWR_STAT_PG 4 && decide (s.ticks ≤ s.power.dueAt))
      ({ ((up.put GL_PWR_STAT_STATE 1).put GL_PWR_STAT_REG_EN 31).put GL_PWR_STAT_PG 15 with ticks := 500, power := { up.power with dueAt := 500, cpos := 0x2F } })),
    ((fun s : State => s.topStep == 5 + 1 && s.powerState == 1 && !s.tripped && !s.fbit GL_PWR_STAT_PG 5 && decide (s.power.dueAt < s.ticks))
      ({ ((up.put GL_PWR_STAT_STATE 1).put GL_PWR_STAT_REG_EN 63).put GL_PWR_STAT_PG 31 with ticks := 501, power := { up.power with dueAt := 500, cpos := 0x2F } })),
    ((fun s : State => s.topStep == 5 + 1 && s.powerState == 1 && !s.tripped && !s.fbit GL_PWR_STAT_PG 5 && decide (s.ticks ≤ s.power.dueAt))
      ({ ((up.put GL_PWR_STAT_STATE 1).put GL_PWR_STAT_REG_EN 63).put GL_PWR_STAT_PG 31 with ticks := 500, power := { up.power with dueAt := 500, cpos := 0x2F } })),
    ((fun s : State => s.powerState == 1 && !s.tripped && s.fbit GL_PWR_STAT_REG_EN 0 && s.fbit GL_PWR_STAT_PG 0)
      (((up.put GL_PWR_STAT_STATE 1).put GL_PWR_STAT_REG_EN 63).put GL_PWR_STAT_PG 63)),
    ((fun s : State => s.powerState == 1 && !s.tripped && s.fbit GL_PWR_STAT_REG_EN 5 && s.fbit GL_PWR_STAT_PG 5)
      (((up.put GL_PWR_STAT_STATE 1).put GL_PWR_STAT_REG_EN 63).put GL_PWR_STAT_PG 63))
  ] = true := by decide +kernel

theorem witness_PowerSequencesRun_2 : allOf [
    ((fun s : State => s.powerState == 2 && !s.tripped && s.fbit GL_PWR_STAT_REG_EN 0 && s.fbit GL_PWR_STAT_PG 0)
      (((up.put GL_PWR_STAT_STATE 2).put GL_PWR_STAT_REG_EN 63).put GL_PWR_STAT_PG 63)),
    ((fun s : State => s.powerState == 2 && !s.tripped && s.fbit GL_PWR_STAT_REG_EN 5 && s.fbit GL_PWR_STAT_PG 5)
      (((up.put GL_PWR_STAT_STATE 2).put GL_PWR_STAT_REG_EN 63).put GL_PWR_STAT_PG 63)),
    ((fun s : State => s.powerState == 3 && !s.tripped && s.power.failAt == some s.ticks && s.fbit GL_PWR_STAT_REG_EN 0 && s.fbit GL_PWR_STAT_PG 0)
      ({ ((((up.put GL_PWR_STAT_STATE 3).mark GL_PWR_STAT_PWR_FAIL).put GL_PWR_STAT_FAIL_STEP 4).put GL_PWR_STAT_REG_EN 63).put GL_PWR_STAT_PG 63 with ticks := 8, power := { up.power with failAt := some 8 } })),
    ((fun s : State => s.powerState == 3 && !s.tripped && s.power.failAt == some s.ticks && s.fbit GL_PWR_STAT_REG_EN 5 && s.fbit GL_PWR_STAT_PG 5)
      ({ ((((up.put GL_PWR_STAT_STATE 3).mark GL_PWR_STAT_PWR_FAIL).put GL_PWR_STAT_FAIL_STEP 4).put GL_PWR_STAT_REG_EN 63).put GL_PWR_STAT_PG 63 with ticks := 8, power := { up.power with failAt := some 8 } })),
    ((fun s : State => s.powerState == 3 && !s.tripped && decide (1 < s.topStep))
      ((up.put GL_PWR_STAT_STATE 3).put GL_PWR_STAT_REG_EN 63)),
    ((fun s : State => s.powerState == 3 && !s.tripped && decide (1 < s.topStep))
      ((up.put GL_PWR_STAT_STATE 3).put GL_PWR_STAT_REG_EN 3)),
    ((fun s : State => s.powerState == 3 && !s.tripped && decide (s.topStep ≤ 1) && (s.power.goal == 0 || s.power.goal == 5 || (s.power.goal == 4 &&
      !s.power.wake)))
      ({ (up.put GL_PWR_STAT_STATE 3).put GL_PWR_STAT_REG_EN 1 with power := { up.power with goal := 0 } })),
    ((fun s : State => s.powerState == 3 && !s.tripped && decide (s.topStep ≤ 1) && (s.power.goal == 0 || s.power.goal == 5 || (s.power.goal == 4 &&
      !s.power.wake)))
      ({ (up.put GL_PWR_STAT_STATE 3).put GL_PWR_STAT_REG_EN 1 with power := { up.power with goal := 5 } })),
    ((fun s : State => s.powerState == 3 && !s.tripped && decide (s.topStep ≤ 1) && (s.power.goal == 0 || s.power.goal == 5 || (s.power.goal == 4 &&
      !s.power.wake)))
      ({ (up.put GL_PWR_STAT_STATE 3).put GL_PWR_STAT_REG_EN 1 with power := { up.power with goal := 4 } })),
    ((fun s : State => s.powerState == 3 && !s.tripped && decide (s.topStep ≤ 1) && s.power.goal == 4 && s.power.wake)
      ({ (up.put GL_PWR_STAT_STATE 3).put GL_PWR_STAT_REG_EN 1 with power := { up.power with goal := 4, wake := true } })),
    ((fun s : State => s.power.vbulk && s.powerState == 0)
      (up.put GL_PWR_STAT_STATE 0)),
    ((fun s : State => s.power.vbulk && s.powerState == 4 && s.monitor.trip == none)
      (up.put GL_PWR_STAT_STATE 4))
  ] = true := by decide +kernel

theorem witness_PowerSequencesRun_3 : allOf [
    ((fun s : State => s.power.vbulk && s.powerState == 2)
      (up)),
    ((fun s : State => s.ready && directView .bar0 && s.powerState == 2 && s.power.afterSave == none && s.monitor.trip == none && s.maySleep)
      (up)),
    ((fun s : State => s.ready && directView .bar0 && s.powerState == 2 && s.power.afterSave == none && s.monitor.trip == none && !s.maySleep)
      (up.mark (TL_SUP_CTRL_EN 63 1))),
    ((fun s : State => s.tripped)
      ({ up with monitor := { Monitor.reset with trip := some ⟨1, 2, 3, 4, 5, false⟩ } }))
  ] = true := by decide +kernel

theorem witness_ResetReleaseAndBootAct_1 : allOf [
    ((fun s : State => s.powerState == 2 && s.fbit GL_PWR_STAT_PG 0 && s.fbit GL_PWR_STAT_PG 1)
      ({ up.put GL_PWR_STAT_PG 63 with power := { up.power with released := true, cpos := 47 } })),
    ((fun s : State => s.powerState == 2 && s.fbit GL_PWR_STAT_PG 0 && s.fbit GL_PWR_STAT_PG 1)
      ({ up.put GL_PWR_STAT_PG 63 with power := { up.power with released := true, cpos := 55 } })),
    ((fun s : State => s.powerState == 2)
      ({ up with power := { up.power with released := true } })),
    ((fun s : State => s.powerState == 4 && s.monitor.trip == none)
      (up.put GL_PWR_STAT_STATE 4)),
    ((fun s : State => s.powerState == 2 && !s.power.rstLow && !s.power.released)
      ({ up with power := { up.power with dueAt := 700 } })),
    ((fun s : State => ((List.range 34).map (fun (i : Nat) => (Int.ofNat i * 300 - 2000))).length == 34 &&
      ([0, 0, 0, 0, 0, 0, 0, 0] : List (Fin 4)).length == 8 && s.power.released && !s.on GL_RST_STAT_REGS_READY)
      ({ up.put GL_RST_STAT_REGS_READY 0 with power := { up.power with released := true }, nvm := { Nvm.reset with imageA := 7, imageB := 5, loaded := 3 } })),
    ((fun s : State => ((List.range 34).map (fun (i : Nat) => (Int.ofNat i * 300 - 2000))).length == 34 &&
      ([0, 1, 2, 3, 0, 0, 0, 3] : List (Fin 4)).length == 8 && s.power.released && !s.on GL_RST_STAT_REGS_READY)
      ({ up.put GL_RST_STAT_REGS_READY 0 with power := { up.power with released := true }, nvm := { Nvm.reset with imageA := 7, imageB := 5, loaded := 3 } })),
    ((fun s : State => s.on GL_RST_STAT_REGS_READY && !s.on GL_BOOT_STAT_DONE && !s.power.flashTried && !s.bootsFromHost && s.nvm.pointer == none)
      ({ up.put GL_BOOT_STAT_FAIL 0 with nvm := { Nvm.reset with pointer := none, words := [(0, some 1), (1, some 0x1000), (2, some 0x2000), (1024, some 2)] } })),
    ((fun s : State => s.on GL_RST_STAT_REGS_READY && !s.on GL_BOOT_STAT_DONE && !s.power.flashTried && !s.bootsFromHost && s.nvm.pointer == some 0 &&
      s.get SV_LEAD_HOLDER == 0 && !s.on SV_LEAD_CONFLICT && (match checkImage goodImage with | .inr _ => true | .inl _ => false) &&
      (match checkImage [1] with | .inl e => e == 1 | .inr _ => false) &&
      (match checkImage ((((goodImage.take 16) ++ [9] ++ goodImage.drop 17).map (BitVec.ofNat 8)).map BitVec.toNat) with | .inl e => e == 3 | .inr _ => false))
      ({ up.put GL_BOOT_STAT_FAIL 0 with nvm := { Nvm.reset with pointer := (some 0), words := [(0, some 1), (1, some 0x1000), (2, some 0x2000), (1024, some 2)] } })),
    ((fun s : State => s.on GL_RST_STAT_REGS_READY && !s.on GL_BOOT_STAT_DONE && !s.power.flashTried && !s.bootsFromHost && s.nvm.pointer == some 0 &&
      (match checkImage (bytesLE 4 0x4851B007 ++ [3, 0, 1, 0] ++ bytesLE 4 36 ++ bytesLE 4 (crc32 0xFFFFFFFF ([0] ++ goodImage.drop 17)) ++ [0] ++ goodImage.drop 17) with | .inl e => e == 4 | .inr _ => false))
      ({ up.put GL_BOOT_STAT_FAIL 0 with nvm := { Nvm.reset with pointer := (some 0), words := [(0, some 1), (1, some 0x1000), (2, some 0x2000), (1024, some 2)] } })),
    ((fun s : State => s.on GL_RST_STAT_REGS_READY && !s.on GL_BOOT_STAT_DONE && s.bootsFromHost)
      ({ up.put GL_BOOT_STAT_FAIL 0 with nvm := { Nvm.reset with pointer := (some 1), words := [(0, some 1), (1, some 0x1000), (2, some 0x2000), (1024, some 2)] } })),
    ((fun s : State => s.on GL_RST_STAT_REGS_READY && !s.on GL_BOOT_STAT_DONE && s.power.flashTried)
      ({ up with power := { up.power with flashTried := true } }))
  ] = true := by decide +kernel

theorem witness_ResetReleaseAndBootAct_2 : allOf [
    ((fun s : State => s.on GL_RST_STAT_REGS_READY && !s.on GL_BOOT_STAT_DONE && s.power.vbulk && hostView .bar0 &&
      ofBytesLE (s.memBytes 0 4) != 0x4851B007)
      (up)),
    ((fun s : State => s.on GL_RST_STAT_REGS_READY && !s.on GL_BOOT_STAT_DONE && s.power.vbulk && hostView .bar0 &&
      ofBytesLE (s.memBytes (s.get GL_BOOT_ADDR_HI_ADDR_HI * 2 ^ 32 + s.get GL_BOOT_ADDR_LO_ADDR_LO * 64) 4) == 0x4851B007 &&
      decide (0x400000000 < (s.get GL_BOOT_ADDR_HI_ADDR_HI * 2 ^ 32 + s.get GL_BOOT_ADDR_LO_ADDR_LO * 64) + ofBytesLE (s.memBytes ((s.get GL_BOOT_ADDR_HI_ADDR_HI * 2 ^ 32 + s.get GL_BOOT_ADDR_LO_ADDR_LO * 64) + 8) 4)))
      ((({ ((up.mark GL_MEM_STAT_E_READY).put GL_BOOT_ADDR_HI_ADDR_HI 3).put GL_BOOT_ADDR_LO_ADDR_LO 0x3FFFFFF with power := { up.power with memE := true } }).storeBytes 0x3FFFFFFC0 goodImage).storeBytes 0x3FFFFFFC8 [0, 16])),
    ((fun s : State => s.on GL_RST_STAT_REGS_READY && !s.on GL_BOOT_STAT_DONE && s.power.vbulk && hostView .bar0 &&
      ofBytesLE (s.memBytes (s.get GL_BOOT_ADDR_HI_ADDR_HI * 2 ^ 32 + s.get GL_BOOT_ADDR_LO_ADDR_LO * 64) 4) == 0x4851B007 &&
      decide ((s.get GL_BOOT_ADDR_HI_ADDR_HI * 2 ^ 32 + s.get GL_BOOT_ADDR_LO_ADDR_LO * 64) + ofBytesLE (s.memBytes ((s.get GL_BOOT_ADDR_HI_ADDR_HI * 2 ^ 32 + s.get GL_BOOT_ADDR_LO_ADDR_LO * 64) + 8) 4) ≤ 0x400000000) &&
      (match checkImage (s.memBytes (s.get GL_BOOT_ADDR_HI_ADDR_HI * 2 ^ 32 + s.get GL_BOOT_ADDR_LO_ADDR_LO * 64) (ofBytesLE (s.memBytes ((s.get GL_BOOT_ADDR_HI_ADDR_HI * 2 ^ 32 + s.get GL_BOOT_ADDR_LO_ADDR_LO * 64) + 8) 4))) with | .inl 3 => true | _ => false))
      (hostBoot.storeBytes 0x60 [7])),
    ((fun s : State => s.on GL_RST_STAT_REGS_READY && !s.on GL_BOOT_STAT_DONE && s.power.vbulk && hostView .bar0 &&
      ofBytesLE (s.memBytes 0x40 4) == 0x4851B007 && decide (0x40 + ofBytesLE (s.memBytes 0x48 4) ≤ 0x400000000) &&
      !(s.dramCheck 0x40 (ofBytesLE (s.memBytes 0x48 4))).2 &&
      (match checkImage (s.memBytes 0x40 (ofBytesLE (s.memBytes 0x48 4))) with | .inr _ => true | .inl _ => false))
      (hostBoot))
  ] = true := by decide +kernel

end Sys2Proof.Tests
end

section
/-! SUPPORT and the statements of 00_scope.md settled: reset, the access codes, and the accesses to register space. -/

namespace Sys2Proof.Machine

/-! ### Reset (R8, R168) -/

theorem State.reg_reset (a : Nat) : State.reset.reg a = resetWord a := rfl

theorem State.get_reset (f : Field) : State.reset.get f = bits (resetWord f.addr).toNat f.hi f.lo := rfl

/-- The word of the period of a timing set as a chip reset loads it (R168). -/
theorem resetWord_tsPeriod {t k : Nat} (ht : t < 64) (hk : k < 64) : resetWord (tsAddr t k 0) = 6400 := by
  have hm : (0x100000 + 0x8000 * t + 0x200 * k + 0) % 0x200 = 0 := by omega
  rw [tsAddr, resetWord, if_pos (by omega), tableReset, if_pos (by omega), hm]
  rfl

theorem tsPeriod_reset {t k : Nat} (ht : t < 64) (hk : k < 64) : State.reset.tsPeriod t k = 6400 := by
  rw [State.tsPeriod, State.reg_reset, resetWord_tsPeriod ht hk]
  rfl

/-- No field of `TL_SEQ_STAT` has a reset value but 0 (R95). -/
theorem resetWord_seqStat : ∀ t : Fin 64, resetWord (TL_SEQ_STAT t.val) = 0 := by
  decide +kernel

theorem engine_reset (t : Fin 64) : State.reset.engine t.val = 0 := by
  rw [State.engine, State.get_reset]
  change bits (resetWord (TL_SEQ_STAT t.val)).toNat 2 0 = 0
  rw [resetWord_seqStat t]
  rfl

/-- Settles O5: the stores are empty, so each reads as what an unlisted key holds. -/
theorem resetIsAsStated : Obligations.ResetIsAsStated := by
  have hid : resetWord GL_ID = 0x4851A064 := by decide +kernel
  have hpwr : State.reset.powerState = 1 := by decide +kernel
  have hrdy : State.reset.on GL_RST_STAT_REGS_READY = false := by decide +kernel
  exact ⟨rfl, rfl, State.reg_reset, hid, hpwr, hrdy, fun _ => rfl, fun t k => ⟨engine_reset t, tsPeriod_reset t.isLt k.isLt⟩⟩

/-! ### What a single field of a write does (R5) -/

section storeField
variable (locked : Bool) (k w old hi lo : Nat) (sys : Bool) (reset : Nat)

theorem storeField_rw {x : Nat} (h : fieldTakes k lo (bits w hi lo) = some x) :
    storeField locked k w old ⟨hi, lo, .rw, sys, reset⟩ = insert32 old hi lo x := by
  simp [storeField, h]

theorem storeField_rwl_unlocked : storeField false k w old ⟨hi, lo, .rwl, sys, reset⟩ = storeField locked k w old ⟨hi, lo, .rw, sys, reset⟩ := rfl

theorem storeField_rwl_locked : storeField true k w old ⟨hi, lo, .rwl, sys, reset⟩ = old := rfl

theorem storeField_ro : storeField locked k w old ⟨hi, lo, .ro, sys, reset⟩ = old := rfl

theorem storeField_rc : storeField locked k w old ⟨hi, lo, .rc, sys, reset⟩ = old := rfl

theorem storeField_w1c : storeField locked k w old ⟨hi, lo, .w1c, sys, reset⟩ =
    insert32 old hi lo (bits old hi lo ^^^ (bits old hi lo &&& bits w hi lo)) := rfl

theorem storeField_w1s : storeField locked k w old ⟨hi, lo, .w1s, sys, reset⟩ = insert32 old hi lo (bits old hi lo ||| bits w hi lo) := rfl

end storeField

/-- Whatever its access code, a field keeps the word or takes one value at its own place. -/
theorem storeField_eq_or_insert32 (locked : Bool) (k w old : Nat) (f : FieldD) :
    storeField locked k w old f = old ∨ ∃ x, storeField locked k w old f = insert32 old f.hi f.lo x := by
  have taken : ∀ o : Option Nat, (o.map (insert32 old f.hi f.lo)).getD old = old ∨
      ∃ x, (o.map (insert32 old f.hi f.lo)).getD old = insert32 old f.hi f.lo x
    | none => .inl rfl
    | some x => .inr ⟨x, rfl⟩
  obtain ⟨hi, lo, acc, sys, reset⟩ := f
  cases acc with
  | rw => exact taken _
  | rwl =>
    cases locked with
    | true => exact .inl rfl
    | false => exact taken _
  | w1c | w1s => exact .inr ⟨_, rfl⟩
  | ro | wo | rc => exact .inl rfl

/-- No bit outside the field changes. -/
theorem bits_storeField_beside (locked : Bool) (k w old : Nat) (f : FieldD) (hi' lo' : Nat) (hlo : f.lo ≤ f.hi) (hhi : f.hi < 32)
    (hold : old < 2 ^ 32) (h : hi' < f.lo ∨ f.hi < lo') : bits (storeField locked k w old f) hi' lo' = bits old hi' lo' := by
  obtain e | ⟨x, e⟩ := storeField_eq_or_insert32 locked k w old f
  · rw [e]
  · rw [e, bits_insert32_other _ _ _ _ _ _ hold hhi hlo h]

/-- A field written to a value of its own width reads as that value. -/
theorem bits_insert32_of_lt {n hi lo v : Nat} (hn : n < 2 ^ 32) (hhi : hi < 32) (hlo : lo ≤ hi) (hv : v < 2 ^ (hi + 1 - lo)) :
    bits (insert32 n hi lo v) hi lo = v := by
  rw [bits_insert32_same _ _ _ _ hn hhi hlo, Nat.mod_eq_of_lt hv]

/-- Settles O7: each access code by its equation, read back through the insertion at the field. -/
theorem accessCodesActOnTheirFieldAlone : Obligations.AccessCodesActOnTheirFieldAlone := by
  intro locked k w old hi lo sys reset hlo hhi hold
  have read : ∀ v, v < 2 ^ (hi + 1 - lo) → bits (insert32 old hi lo v) hi lo = v := fun _ => bits_insert32_of_lt hold hhi hlo
  have hw := bits_lt w hi lo
  have ho := bits_lt old hi lo
  refine ⟨fun acc hi' lo' => bits_storeField_beside locked k w old ⟨hi, lo, acc, sys, reset⟩ hi' lo' hlo hhi hold, fun ht => ?_,
    storeField_rwl_locked .., storeField_ro .., storeField_rc .., fun i => ?_, fun i => ?_⟩
  · rw [storeField_rwl_unlocked locked, storeField_rw _ _ _ _ _ _ _ _ ht, read _ hw]
    exact ⟨rfl, rfl⟩
  · rw [storeField_w1c, read _ (Nat.xor_lt_two_pow ho (Nat.and_lt_two_pow _ hw)), Nat.testBit_xor, Nat.testBit_and]
    cases (bits old hi lo).testBit i <;> cases (bits w hi lo).testBit i <;> rfl
  · rw [storeField_w1s, read _ (Nat.or_lt_two_pow ho hw), Nat.testBit_or]

/-! ### Accesses (R10, R11, R24) -/

theorem exec_regWrite (v : View) (a : Nat) (w : WriteData) (s : State) : exec (.regWrite v a w) s = .next (s.busWrite v a w) := rfl

theorem exec_tableWrite (v : View) {a : Nat} (w : WriteData) (s : State) (h : isTable a = true) :
    exec (.tableWrite v a w) s = .next (s.busWrite v a w) := by
  change execTableWrite v a w s = _
  rw [execTableWrite, if_pos h]

theorem exec_rcFieldRead (v : View) (a : Nat) (s : State) : exec (.rcFieldRead v a) s = .next (s.readOut v a) := rfl

namespace State

theorem busWrite_single (s : State) (v : View) (a : Nat) (w : Word) (be : BitVec 4) : s.busWrite v a ⟨w, be, none⟩ = s.wordWrite v a w be := rfl

theorem busWrite_double (s : State) (v : View) (a : Nat) (w x : Word) (be bx : BitVec 4) :
    s.busWrite v a ⟨w, be, some (x, bx)⟩ = (s.wordWrite v a w be).wordWrite v (a + 4) x bx := rfl

/-- Over PCIe a write without all byte enables is discarded (R10). -/
theorem wordWrite_partial (s : State) {v : View} (a : Nat) (w : Word) {be : BitVec 4} (hv : v = .bar0 ∨ v = .bar4) (hb : be ≠ 15) :
    s.wordWrite v a w be = s := by
  rcases hv with rfl | rfl <;> exact if_pos (by simpa using hb)

theorem wordWrite_full (s : State) (v : View) (a : Nat) (w : Word) : s.wordWrite v a w 15 = s.regWriteWith v a w.toNat none :=
  if_neg (by simp)

/-- A write where nothing is implemented is ignored (R11). -/
theorem regWriteWith_unimplemented (s : State) (v : View) {a : Nat} (w : Nat) (load : Option Nat) (hr : regAt a = none)
    (ht : isTable a = false) (hm : isMsix a = false) : s.regWriteWith v a w load = s := by
  simp [State.regWriteWith, hr, ht, hm]

theorem wordWrite_unimplemented (s : State) (v : View) {a : Nat} (w : Word) (be : BitVec 4) (hr : regAt a = none)
    (ht : isTable a = false) (hm : isMsix a = false) : s.wordWrite v a w be = s := by
  rw [State.wordWrite, State.regWrite, regWriteWith_unimplemented s v _ _ hr ht hm, ite_self]

theorem regWriteWith_table (s : State) (v : View) {a : Nat} (w : Nat) (load : Option Nat) (hr : s.reachable a = true) (h4 : a % 4 = 0)
    (ht : isTable a = true) : s.regWriteWith v a w load = s.writeTable a w := by
  simp [State.regWriteWith, hr, h4, ht]

@[simp] theorem rdData_readOut (s : State) (v : View) (a : Nat) : (s.readOut v a).rdData = (s.regRead v a).2 := rfl

@[simp] theorem reg_readOut (s : State) (v : View) (a : Nat) : (s.readOut v a).reg = (s.regRead v a).1.reg := rfl

/-- A read where nothing is implemented gives 0 (R11). -/
theorem regRead_unimplemented (s : State) (v : View) {a : Nat} (hr : regAt a = none) (ht : isTable a = false) (hm : isMsix a = false) :
    s.regRead v a = (s, 0) := by
  simp [State.regRead, hr, ht, hm]

/-- A read of a register with no rule beyond the access codes (R5). -/
theorem regRead_plain (s : State) (v : View) {a : Nat} (hr : s.reachable a = true) (h4 : a % 4 = 0) (ht : isTable a = false)
    (hm : isMsix a = false) (hd : (regAt a).isSome = true) (ho : s.readOwn a = none) : s.regRead v a = (s.clearRead a, s.shown a) := by
  obtain ⟨d, hd⟩ := Option.isSome_iff_exists.1 hd
  simp [State.regRead, hr, h4, ht, hm, hd, ho]

end State

/-- Settles O8: neither the write nor the read reaches a rule of its own. -/
theorem unimplementedAddressesIgnoreWritesAndReadZero : Obligations.UnimplementedAddressesIgnoreWritesAndReadZero := by
  intro v a w be s hr ht hm
  refine ⟨?_, fun hr4 ht4 hm4 h => ?_, s.readOut v a, exec_rcFieldRead v a s, ?_⟩
  · rw [exec_regWrite, State.busWrite_single, State.wordWrite_unimplemented s v w be hr ht hm]
  · rw [exec_regWrite, State.busWrite_double, State.wordWrite_unimplemented s v w be hr ht hm,
      State.wordWrite_unimplemented s v _ _ hr4 ht4 hm4]
  · simp [State.readOut, State.regRead_unimplemented s v hr ht hm]

/-! ### Words taken whole -/

theorem insert32_whole (n w : Nat) (hn : n < 2 ^ 32) (hw : w < 2 ^ 32) : insert32 n 31 0 w = w := by
  refine Nat.eq_of_testBit_eq fun i => ?_
  rw [testBit_insert32 _ _ _ _ _ hn (by norm_num) (by norm_num)]
  split
  · rfl
  · have h : 2 ^ 32 ≤ 2 ^ i := Nat.pow_le_pow_right (by norm_num) (by omega)
    rw [Nat.testBit_lt_two_pow (hn.trans_le h), Nat.testBit_lt_two_pow (hw.trans_le h)]

/-- No field of the masks has a bound. -/
theorem fieldTakes_rdvMaskLo (k : Fin 32) (v : Nat) : fieldTakes (kindOf (GL_RDV_MASK_LO k.val)) 0 v = some v := by
  have free : fieldLimits.find? (fun e => e.1 = kindOf (GL_RDV_MASK_LO k.val) && e.2.1 = 0) = none ∧
      arrayLimit (kindOf (GL_RDV_MASK_LO k.val)) 0 = none := by
    revert k
    decide +kernel
  simp [fieldTakes, free.1, free.2]

theorem regAt_rdvMaskLo (k : Fin 32) : regAt (GL_RDV_MASK_LO k.val) = some ⟨0x1100, 32, 0x40, 1, 4, [⟨31, 0, .rw, false, 0⟩]⟩ := by
  revert k
  decide +kernel

theorem isTable_eq_true {a : Nat} (h1 : 0x100000 ≤ a) (h2 : a < 0x5E0000) : isTable a = true := by
  simp only [isTable, within, decide_eq_true_eq]
  omega

namespace State

/-- A register that is one RW field takes the word. -/
theorem storeWord_whole (s : State) {a : Nat} {d : RegD} (w : Word) {sys : Bool} {reset : Nat} (hd : regAt a = some d)
    (hf : d.flds = [⟨31, 0, .rw, sys, reset⟩]) (ht : fieldTakes (kindOf a) 0 w.toNat = some w.toNat) : s.storeWord a w.toNat = s.setReg a w := by
  have hw : bits w.toNat 31 0 = w.toNat := Nat.mod_eq_of_lt w.isLt
  rw [State.storeWord, hd]
  simp only [hf, List.foldl_cons, List.foldl_nil]
  rw [storeField_rw (x := w.toNat) _ _ _ _ _ _ _ _ (by rw [hw, ht]), insert32_whole _ _ (s.reg a).isLt w.isLt, BitVec.ofNat_toNat, BitVec.setWidth_eq]

/-- The mask of a rendezvous group (R44) goes to the rules of the group. -/
theorem writeOwn_rdvMaskLo (s : State) (v : View) {k : Nat} (hk : k < 32) (w : Nat) (load : Option Nat) :
    s.writeOwn v (GL_RDV_MASK_LO k) w load = s.writeRdv k (GL_RDV_MASK_LO k) w := by
  have he : GL_RDV_MASK_LO k = 0x1100 + 0x40 * k := rfl
  have hi : (0x1100 + 0x40 * k - 0x1100) / 0x40 = k := by omega
  rw [writeOwn_global s v (by omega), State.writeGlobal, if_neg (by omega), if_pos (by omega), State.writeTimeBase,
    if_neg (by unfold GL_SYNC_CTRL; omega), if_neg (by unfold GL_SYNC_TRIM; omega), if_pos (by simp [he]; omega), he, hi]

theorem writeRdv_idle (s : State) {k a : Nat} (w : Nat) (hs : s.get (GL_RDV_STAT_STATE k) = 0) (ha : a ≠ GL_RDV_PARTS_HI k) :
    s.writeRdv k a w = s.storeWord a w := by
  simp [State.writeRdv, hs, ha]

theorem writeTable_levels (s : State) {a : Nat} (w : Word) (h1 : 0x300000 ≤ a) (h2 : a < 0x340000) : s.writeTable a w.toNat = s.setReg a w := by
  rw [State.writeTable, if_neg (by omega), if_pos h2, BitVec.ofNat_toNat, BitVec.setWidth_eq]

theorem writeTable_scramble (s : State) {a : Nat} (w : Word) (h1 : 0x340000 ≤ a) (h2 : a < 0x540000) (h3 : (a - 0x340000) % 0x8000 < 0x4040) :
    s.writeTable a w.toNat = s.setReg a w := by
  rw [State.writeTable, if_neg (by omega), if_neg (by omega), if_pos h2, if_pos h3, BitVec.ofNat_toNat, BitVec.setWidth_eq]

theorem writeTable_deskew (s : State) {a : Nat} (w : Nat) (h1 : 0x5C0000 ≤ a) (h3 : a % 0x20 < 0x14) :
    s.writeTable a w = s.setReg a (BitVec.ofNat 32 (w % 2 ^ 16)) := by
  rw [State.writeTable, if_neg (by omega), if_neg (by omega), if_neg (by omega), if_neg (by omega), if_pos h3]

end State

/-- A full write to table space of a part that is ready. -/
theorem exec_tableWrite_ready (v : View) {s : State} {a : Nat} (w : Word) (hr : s.ready = true) (h1 : 0x100000 ≤ a) (h2 : a < 0x5E0000)
    (h4 : a % 4 = 0) : exec (.tableWrite v a ⟨w, 15, none⟩) s = .next (s.writeTable a w.toNat) := by
  have ht := isTable_eq_true h1 h2
  rw [exec_tableWrite v _ s ht, State.busWrite_single, State.wordWrite_full,
    State.regWriteWith_table s v _ none (State.reachable_of_ready hr a) h4 ht]

/-- A full write to a register through a view that no rule limits. -/
theorem exec_regWrite_ready {v : View} {s : State} {a : Nat} (w : Word) (hr : s.ready = true) (hv : directView v = true)
    (hd : (regAt a).isSome = true) (h4 : a % 4 = 0) (ht : isTable a = false) (hm : isMsix a = false) :
    exec (.regWrite v a ⟨w, 15, none⟩) s = .next (s.writeOwn v a w.toNat none) := by
  rw [exec_regWrite, State.busWrite_single, State.wordWrite_full,
    State.regWriteWith_direct s v a _ none (State.reachable_of_ready hr a) h4 ht hm hd hv]

theorem exec_regWrite_rdvMaskLo {v : View} {s : State} (k : Fin 32) (w : Word) (hr : s.ready = true) (hv : directView v = true)
    (hs : s.get (GL_RDV_STAT_STATE k.val) = 0) :
    exec (.regWrite v (GL_RDV_MASK_LO k.val) ⟨w, 15, none⟩) s = .next (s.setReg (GL_RDV_MASK_LO k.val) w) := by
  have hk := k.isLt
  have he : GL_RDV_MASK_LO k.val = 0x1100 + 0x40 * k.val := rfl
  have hne : GL_RDV_MASK_LO k.val ≠ GL_RDV_PARTS_HI k.val := by unfold GL_RDV_PARTS_HI; omega
  have hd := regAt_rdvMaskLo k
  rw [exec_regWrite_ready w hr hv (by rw [hd]; rfl) (by omega) (by simp [isTable, within]; omega) (by simp [isMsix, within]; omega),
    State.writeOwn_rdvMaskLo s v hk, State.writeRdv_idle s _ hs hne, State.storeWord_whole s w hd rfl (fieldTakes_rdvMaskLo k _)]

/-- Settles O9: each clause is the place its address goes to. -/
theorem registerAndTableWritesComplete : Obligations.RegisterAndTableWritesComplete := by
  intro v s
  refine ⟨fun a w be hv hb => ?_, fun a w x be bx => rfl, fun hr hv => ⟨fun a w hd h4 ht hm => exec_regWrite_ready w hr hv hd h4 ht hm,
    fun k w hs => ⟨_, exec_regWrite_rdvMaskLo k w hr hv hs, State.reg_setReg_same .., fun b hb => State.reg_setReg_other _ _ hb⟩,
    fun a w h1 h2 h4 => ?_, fun a w h1 h2 h4 h3 => ?_, fun a w h1 h2 h4 h3 => ?_⟩⟩
  · rw [exec_regWrite, State.busWrite_single, State.wordWrite_partial s a w hv hb]
  · rw [exec_tableWrite_ready v w hr (by omega) (by omega) h4, State.writeTable_levels s w h1 h2]
  · rw [exec_tableWrite_ready v w hr (by omega) (by omega) h4, State.writeTable_scramble s w h1 h2 h3]
  · rw [exec_tableWrite_ready v w hr (by omega) h2 h4, State.writeTable_deskew s _ h1 h3]

/-! ### Fields of a register lie apart (R3) -/

/-- Two fields share no bit. -/
abbrev FieldD.Apart (f g : FieldD) : Prop := f.hi < g.lo ∨ g.hi < f.lo

/-- The field lies in a 32-bit word. -/
abbrev FieldD.InWord (f : FieldD) : Prop := f.lo ≤ f.hi ∧ f.hi < 32

/-- The values a list of fields is given are put into a word. -/
def putFields (g : FieldD → Nat) (l : List FieldD) (w : Nat) : Nat := l.foldl (fun w f => insert32 w f.hi f.lo (g f)) w

theorem putFields_lt (g : FieldD → Nat) {l : List FieldD} (hl : ∀ f ∈ l, f.InWord) {w : Nat} (hw : w < 2 ^ 32) : putFields g l w < 2 ^ 32 := by
  induction l generalizing w with
  | nil => exact hw
  | cons f r ih =>
    obtain ⟨hf, hr⟩ := List.forall_mem_cons.1 hl
    exact ih hr (insert32_lt _ _ _ _ hw hf.2 hf.1)

/-- A field apart from all those put keeps its value. -/
theorem bits_putFields_apart (g : FieldD → Nat) {l : List FieldD} (hl : ∀ f ∈ l, f.InWord) {w : Nat} (hw : w < 2 ^ 32) {f : FieldD}
    (ha : ∀ x ∈ l, f.Apart x) : bits (putFields g l w) f.hi f.lo = bits w f.hi f.lo := by
  induction l generalizing w with
  | nil => rfl
  | cons x r ih =>
    obtain ⟨hx, hr⟩ := List.forall_mem_cons.1 hl
    obtain ⟨ax, ar⟩ := List.forall_mem_cons.1 ha
    exact (ih hr (insert32_lt _ _ _ _ hw hx.2 hx.1) ar).trans (bits_insert32_other _ _ _ _ _ _ hw hx.2 hx.1 ax)

/-- Each of fields that lie apart reads as the value it was given. -/
theorem bits_putFields_mem (g : FieldD → Nat) {l : List FieldD} (hl : ∀ f ∈ l, f.InWord) (hp : l.Pairwise FieldD.Apart) {w : Nat}
    (hw : w < 2 ^ 32) {f : FieldD} (hf : f ∈ l) (hg : g f < 2 ^ (f.hi + 1 - f.lo)) : bits (putFields g l w) f.hi f.lo = g f := by
  induction l generalizing w with
  | nil => cases hf
  | cons x r ih =>
    obtain ⟨hx, hr⟩ := List.forall_mem_cons.1 hl
    obtain ⟨ax, pr⟩ := List.pairwise_cons.1 hp
    have hlt := insert32_lt w x.hi x.lo (g x) hw hx.2 hx.1
    rcases List.mem_cons.1 hf with rfl | hf
    · exact (bits_putFields_apart g hr hlt ax).trans (bits_insert32_of_lt hw hx.2 hx.1 hg)
    · exact ih hr pr hlt hf

/-- Every register of the manual's tables. -/
def allRegs : List RegD := globalRegs ++ stripRegs ++ thresherRegs ++ sheafRegs ++ tillerRegs ++ pinRegs ++ linkRegs

theorem fields_of_allRegs : ∀ d ∈ allRegs, (∀ f ∈ d.flds, f.InWord) ∧ d.flds.Pairwise FieldD.Apart := by
  decide +kernel

theorem mem_allRegs_of_regAt {a : Nat} {d : RegD} (h : regAt a = some d) : d ∈ allRegs := by
  have hd := List.mem_of_find?_eq_some h
  revert hd
  unfold blockOf allRegs
  split_ifs <;> simp +contextual

namespace State

theorem clearRead_eq (s : State) {a : Nat} {d : RegD} (h : regAt a = some d) : s.clearRead a =
    s.setReg a (BitVec.ofNat 32 (putFields (fun f => bits (resetWord a).toNat f.hi f.lo) (d.flds.filter (fun f => f.acc == .rc)) (s.reg a).toNat)) := by
  rw [State.clearRead, h]
  rfl

theorem reg_clearRead_other (s : State) {a b : Nat} {d : RegD} (h : regAt a = some d) (hb : b ≠ a) : (s.clearRead a).reg b = s.reg b := by
  rw [clearRead_eq s h, reg_setReg_other s _ hb]

/-- A read leaves every RC field at its reset value (R5). -/
theorem bits_clearRead_rc (s : State) {a : Nat} {d : RegD} (h : regAt a = some d) {f : FieldD} (hf : f ∈ d.flds) (hrc : f.acc = .rc) :
    bits ((s.clearRead a).reg a).toNat f.hi f.lo = bits (resetWord a).toNat f.hi f.lo := by
  obtain ⟨hin, hap⟩ := fields_of_allRegs d (mem_allRegs_of_regAt h)
  have hin' : ∀ f ∈ d.flds.filter (fun f => f.acc == .rc), f.InWord := fun f hf => hin f (List.mem_filter.1 hf).1
  rw [clearRead_eq s h, reg_setReg_same, BitVec.toNat_ofNat, Nat.mod_eq_of_lt (putFields_lt _ hin' (s.reg a).isLt),
    bits_putFields_mem _ hin' (hap.filter _) (s.reg a).isLt (List.mem_filter.2 ⟨hf, by simp [hrc]⟩) (bits_lt ..)]

end State

/-- Settles O10: the plain read, whose state is the register with its RC fields put back. -/
theorem readingReturnsTheWordAndResetsRcFields : Obligations.ReadingReturnsTheWordAndResetsRcFields := by
  intro v a d s hr h4 ht hm hd ho
  have hread := State.regRead_plain s v (State.reachable_of_ready hr a) h4 ht hm (by rw [hd]; rfl) ho
  refine ⟨s.readOut v a, exec_rcFieldRead v a s, ?_, rfl, fun b hb => ?_, fun f hf hrc => ?_⟩
  · rw [State.rdData_readOut, hread]
  · rw [State.reg_readOut, hread, State.reg_clearRead_other s hd hb]
  · rw [State.reg_readOut, hread, State.bits_clearRead_rc s hd hf hrc]

end Sys2Proof.Machine
end

section
/-! SUPPORT. What an operation leaves as it stands: chosen registers, threshers, the NVM, the clock, the schedule, the reset unit. The
operations that signal something, and those on device memory. -/

namespace Sys2Proof.Machine

/-- A part of the state that an operation may leave as it stands. -/
inductive Part where
  | reg (a : Nat)
  | thr (i : Nat)
  | nvm
  | clock
  | slots
  | resets

/-- The part is the same in both states. -/
def Part.same (s t : State) : Part → Prop
  | .reg a => t.reg a = s.reg a
  | .thr i => t.thr i = s.thr i
  | .nvm => t.nvm = s.nvm
  | .clock => t.ticks = s.ticks ∧ t.count = s.count
  | .slots => t.slots = s.slots
  | .resets => t.resets = s.resets

/-- Every part that P picks is the same in both states. -/
def Keeps (P : Part → Prop) (s t : State) : Prop := ∀ p, P p → p.same s t

/-- All of the state that a `Part` can name. -/
def State.watched (s : State) : List (Nat × Word) × List (Nat × Thresher) × Nvm × Nat × BitVec 48 × List Slot × Resets :=
  (s.regs, s.threshers, s.nvm, s.ticks, s.count, s.slots, s.resets)

namespace Keeps

variable {P : Part → Prop} {a s t : State}

theorem refl (s : State) : Keeps P s s := fun p _ => by
  cases p with
  | clock => exact ⟨rfl, rfl⟩
  | _ => rfl

theorem trans {u : State} (h : Keeps P s t) (k : Keeps P t u) : Keeps P s u := fun p hp => by
  have h := h p hp
  have k := k p hp
  cases p with
  | clock => exact ⟨k.1.trans h.1, k.2.trans h.2⟩
  | _ => exact Eq.trans k h

/-- An update of nothing that a `Part` can name. -/
theorem beside (h : Keeps P a s) (e : t.watched = s.watched) : Keeps P a t := by
  obtain ⟨e1, e2, e3, e4, e5, e6, e7⟩ : t.regs = s.regs ∧ t.threshers = s.threshers ∧ t.nvm = s.nvm ∧ t.ticks = s.ticks ∧ t.count = s.count ∧
    t.slots = s.slots ∧ t.resets = s.resets := by simpa [State.watched] using e
  refine h.trans fun p _ => ?_
  cases p with
  | reg b => exact congrArg (storeGet resetWord · b) e1
  | thr i => exact congrArg (storeGet (fun _ => Thresher.reset) · i) e2
  | nvm => exact e3
  | clock => exact ⟨e4, e5⟩
  | slots => exact e6
  | resets => exact e7

theorem setReg (h : Keeps P a s) {b : Nat} {v : Word} (hb : ¬P (.reg b)) : Keeps P a (s.setReg b v) := h.trans fun p hp => by
  cases p with
  | reg c => exact State.reg_setReg_other s v fun e => hb (e ▸ hp)
  | clock => exact ⟨rfl, rfl⟩
  | _ => rfl

theorem setThr (h : Keeps P a s) {i : Nat} {x : Thresher} (hi : ¬P (.thr i)) : Keeps P a (s.setThr i x) := h.trans fun p hp => by
  cases p with
  | thr j => exact State.thr_setThr_other s x fun e => hi (e ▸ hp)
  | clock => exact ⟨rfl, rfl⟩
  | _ => rfl

theorem clearRegs (h : Keeps P a s) {p : Nat → Bool} (hp : ∀ b, p b = true → ¬P (.reg b)) : Keeps P a (s.clearRegs p) := h.trans fun q hq => by
  cases q with
  | reg c => exact (State.reg_clearRegs s p c).trans (if_neg fun e => hp c e hq)
  | clock => exact ⟨rfl, rfl⟩
  | _ => rfl

/-! The shapes in which operations are put together. -/

theorem ite {c : Prop} [Decidable c] {x y : State} (hx : Keeps P a x) (hy : Keeps P a y) : Keeps P a (if c then x else y) := by
  split <;> assumption

/-- A step that is taken under a condition. -/
theorem ifTrue (h : Keeps P a s) {c : Prop} [Decidable c] {x : State} (k : Keeps P s x) : Keeps P a (if c then x else s) := ite (h.trans k) h

theorem ifFalse (h : Keeps P a s) {c : Prop} [Decidable c] {x : State} (k : Keeps P s x) : Keeps P a (if c then s else x) := ite h (h.trans k)

theorem ite_fst {β : Type} {c : Prop} [Decidable c] {x y : State × β} (hx : Keeps P a x.1) (hy : Keeps P a y.1) :
    Keeps P a (if c then x else y).1 := by
  split <;> assumption

theorem ifFalse_fst {β : Type} (h : Keeps P a s) {c : Prop} [Decidable c] {v : β} {x : State × β} (k : Keeps P s x.1) :
    Keeps P a (if c then (s, v) else x).1 := ite_fst h (h.trans k)

theorem foldl_mem {β : Type} {f : State → β → State} (h : Keeps P a s) (l : List β) (hf : ∀ s, ∀ x ∈ l, Keeps P s (f s x)) : Keeps P a (l.foldl f s) := by
  induction l generalizing s with
  | nil => exact h
  | cons x r ih => exact ih (h.trans (hf s x (List.mem_cons_self ..))) fun s y hy => hf s y (List.mem_cons_of_mem _ hy)

theorem foldl {β : Type} {f : State → β → State} (h : Keeps P a s) (l : List β) (hf : ∀ s x, Keeps P s (f s x)) : Keeps P a (l.foldl f s) :=
  h.foldl_mem l fun s x _ => hf s x

theorem foldl_fst {β γ : Type} {f : State × γ → β → State × γ} {p : State × γ} (h : Keeps P a p.1) (l : List β)
    (hf : ∀ p x, Keeps P p.1 (f p x).1) : Keeps P a (l.foldl f p).1 := by
  induction l generalizing p with
  | nil => exact h
  | cons x r ih => exact ih (h.trans (hf p x))

/-! ### Fields -/

section fields
variable {f : Field} (hf : ¬P (.reg f.addr))
include hf

theorem put (h : Keeps P a s) {v : Nat} : Keeps P a (s.put f v) := h.setReg hf

theorem mark (h : Keeps P a s) : Keeps P a (s.mark f) := h.put hf

theorem bumpBy (h : Keeps P a s) {n : Nat} : Keeps P a (s.bumpBy f n) := h.put hf

theorem bump (h : Keeps P a s) : Keeps P a (s.bump f) := h.put hf

theorem putBit (h : Keeps P a s) {i : Nat} {b : Bool} : Keeps P a (s.putBit f i b) := h.put hf

end fields

/-! ### Interrupt sources, error lines, checkers -/

section signals
variable (hm : ∀ w, ¬P (.reg (State.msixPending w)))
include hm

theorem sendVector (h : Keeps P a s) (v : Nat) : Keeps P a (s.sendVector v) := ite h (ite (h.setReg (hm _)) (h.beside rfl))

theorem sendVectors (h : Keeps P a s) (m : Nat) : Keeps P a (s.sendVectors m) :=
  h.foldl _ fun s _ => ite ((refl s).sendVector hm _) (refl s)

theorem vectorsRisen (h : Keeps P a s) (before : Nat) : Keeps P a (s.vectorsRisen before) := ite h (h.sendVectors hm _)

theorem source (h : Keeps P a s) {n : Nat} (hn : ¬P (.reg (EV_PEND (n / 32)))) : Keeps P a (s.source n) :=
  (h.putBit (f := EV_PEND_PEND _) hn).vectorsRisen hm _

theorem inject (h : Keeps P a s) (hi : ¬P (.reg FC_INJ_STAT)) (he : ¬P (.reg (EV_PEND (1282 / 32)))) (c : Checker) (unit : Nat) :
    Keeps P a (s.inject c unit).1 := by
  have hb : Keeps P a (s.bump FC_INJ_STAT_HITS) := h.bump hi
  exact ite_fst h (ite_fst hb (((hb.put (f := FC_INJ_STAT_ARMED) hi).mark (f := FC_INJ_STAT_DONE) hi).source hm he))

end signals

theorem raiseLine (h : Keeps P a s) (b : Nat) : Keeps P a (s.raiseLine b) := ite h (h.beside rfl)

theorem setByte (h : Keeps P a s) (b : Nat) (v : Byte) : Keeps P a (s.setByte b v) := h.beside rfl

theorem markUncorr (h : Keeps P a s) (w : Nat) (bad : Bool) : Keeps P a (s.markUncorr w bad) := h.beside rfl

theorem setBytes (h : Keeps P a s) (l : List (Nat × Nat)) : Keeps P a (l.foldl (fun s b => s.setByte b.1 (BitVec.ofNat 8 b.2)) s) :=
  h.foldl _ fun s _ => (refl s).setByte _ _

end Keeps

/-! ### Device memory, seen from a thresher (R242, R360, R365) -/

/-- A thresher and the registers of its block. -/
def Part.ofThresher (i : Nat) : Part → Prop
  | .reg a => thBase i ≤ a ∧ a < thBase i + 0x400
  | .thr j => j = i
  | _ => False

theorem groupOf_lt (a : Nat) : groupOf a < 16 := by
  unfold groupOf
  omega

namespace Keeps

variable {a s : State} {i : Nat}

/-- The registers of a sheaf lie behind those of the threshers. -/
theorem not_ofThresher_sheaf (u o : Nat) (h1 : 0x800 ≤ o) (h2 : o < 0x1000) : ¬Part.ofThresher i (.reg (shBase u + o)) := by
  unfold Part.ofThresher thBase shBase
  omega

theorem not_ofThresher_below {b : Nat} (h : b < 0x20000) : ¬Part.ofThresher i (.reg b) := by
  unfold Part.ofThresher thBase
  omega

theorem not_ofThresher_msix (hi : i < 32) (w : Nat) : ¬Part.ofThresher i (.reg (State.msixPending w)) := by
  unfold Part.ofThresher thBase State.msixPending
  omega

theorem not_ofThresher_source {n : Nat} (hn : n < 0x8000) : ¬Part.ofThresher i (.reg (EV_PEND (n / 32))) :=
  not_ofThresher_below (by unfold EV_PEND; omega)

theorem inject_ofThresher (h : Keeps (Part.ofThresher i) a s) (hi : i < 32) (c : Checker) (unit : Nat) : Keeps (Part.ofThresher i) a (s.inject c unit).1 :=
  h.inject (not_ofThresher_msix hi) (not_ofThresher_below (by decide)) (not_ofThresher_source (n := 1282) (by decide)) c unit

theorem lineCheck (h : Keeps (Part.ofThresher i) a s) (hi : i < 32) (b n : Nat) : Keeps (Part.ofThresher i) a (s.lineCheck b n).1 := by
  have hu := groupOf_lt b
  have hm := not_ofThresher_msix hi
  have hecc : ¬Part.ofThresher i (.reg (SH_MEM_ECC (groupOf b))) := not_ofThresher_sheaf _ _ (by decide) (by decide)
  have herr : ¬Part.ofThresher i (.reg (SH_MEM_ERRADDR (groupOf b))) := not_ofThresher_sheaf _ _ (by decide) (by decide)
  exact ((h.inject_ofThresher hi _ _).ifFalse (((refl _).bumpBy (f := SH_MEM_ECC_CORR _) hecc).source hm (not_ofThresher_source (by omega)))).ifFalse_fst
    ((((((refl _).bump (f := SH_MEM_ECC_UNCORR _) hecc).mark (f := SH_MEM_ERRADDR_VALID _) herr).put (f := SH_MEM_ERRADDR_LINE _) herr).source hm
      (not_ofThresher_source (by omega))).raiseLine _)

theorem storeCheck (h : Keeps (Part.ofThresher i) a s) (hi : i < 32) (w : Nat) : Keeps (Part.ofThresher i) a (s.storeCheck w).1 := by
  unfold State.storeCheck
  dsimp only
  split <;> exact h.inject_ofThresher hi _ _

theorem writeWord (h : Keeps (Part.ofThresher i) a s) (hi : i < 32) (w : Nat) (l : List (Nat × Nat)) (poison : Bool) :
    Keeps (Part.ofThresher i) a (s.writeWord w l poison) :=
  (setBytes (ite_fst h (ite_fst (h.lineCheck hi _ _) (h.storeCheck hi _))) _).markUncorr _ _

theorem memPut (h : Keeps (Part.ofThresher i) a s) (hi : i < 32) (b : Nat) (data : List Nat) (poison : Bool) :
    Keeps (Part.ofThresher i) a (s.memPut b data poison) :=
  h.foldl _ fun s _ => (refl s).writeWord hi _ _ _

end Keeps

end Sys2Proof.Machine
end

section
/-! SUPPORT. Crossbar, dispatch and memory requests of threshers, and O41 settled. -/

namespace Sys2Proof.Machine

namespace State

/-! ### The crossbar (R230, R231) -/

/-- With no checker armed a read meets no injection (R421). -/
theorem inject_of_not_armed {s : State} (h : s.on FC_INJ_STAT_ARMED = false) (c : Checker) (unit : Nat) : s.inject c unit = (s, 0) := by
  simp [State.inject, h]

theorem settleRoute_of_plan_nil {s : State} {t : Nat} (h : (s.route t).plan = []) : s.settleRoute t = s := by
  simp [State.settleRoute, h]

theorem routeTaken_of_plan_nil {s : State} {t : Nat} (h : (s.route t).plan = []) : s.routeTaken t = s := by
  simp [State.routeTaken, h]

theorem fifoFreed_of_run_none {s : State} {t : Nat} (h : (s.fq t).run = none) : s.fifoFreed t = s := by
  simp [State.fifoFreed, h]

theorem entryTarget_of_plan_nil {s : State} {t : Nat} (h : (s.route t).plan = []) : s.entryTarget t = (s.route t).force := by
  simp [State.entryTarget, h]

/-- A good entry leaves a FIFO without a drop run, of a tiller that does not move between threshers. -/
theorem fifoTake_good {s : State} {t : Nat} {e : Entry} {r : List Entry} (he : (s.fq t).entries = e :: r) (hrun : (s.fq t).run = none)
    (hp : e.poison = false) (hplan : (s.route t).plan = []) (hinj : s.on FC_INJ_STAT_ARMED = false) :
    s.fifoTake t = (s.setFq t { s.fq t with entries := r }, some ⟨e.data, false⟩) := by
  have hroute : (s.setFq t { s.fq t with entries := r }).routeTaken t = s.setFq t { s.fq t with entries := r } := routeTaken_of_plan_nil hplan
  have hfreed : (s.setFq t { s.fq t with entries := r }).fifoFreed t = s.setFq t { s.fq t with entries := r } :=
    fifoFreed_of_run_none (by rw [fq_setFq_same]; exact hrun)
  simp [State.fifoTake, he, inject_of_not_armed hinj, hp, hroute, hfreed]

/-- The tiller alone in its sheaf to have an entry is first in turn, wherever the round-robin stands. -/
theorem find?_turn {t : Nat} (ht : t < 64) (last : Nat) {p : Nat → Bool} (hp : p t = true) (ho : ∀ q ∈ sheafTillers (sheafOf t), q ≠ t → p q = false) :
    ((List.range 4).map (fun n => (sheafTillers (sheafOf t)).getD ((last + 1 + n) % 4) 0)).find? p = some t := by
  have hplace : ∀ t : Fin 64, ∃ j < 4, (sheafTillers (sheafOf t.val)).getD j 0 = t.val := by decide
  obtain ⟨j, hj, hjt⟩ := hplace ⟨t, ht⟩
  have hmem : t ∈ (List.range 4).map (fun n => (sheafTillers (sheafOf t)).getD ((last + 1 + n) % 4) 0) :=
    List.mem_map.2 ⟨(j + 4 - (last + 1) % 4) % 4, List.mem_range.2 (by omega), by rw [show (last + 1 + (j + 4 - (last + 1) % 4) % 4) % 4 = j by omega, hjt]⟩
  obtain ⟨q, hq⟩ := Option.isSome_iff_exists.1 (List.find?_isSome.2 ⟨t, hmem, hp⟩)
  obtain ⟨n, -, rfl⟩ := List.mem_map.1 (List.mem_of_find?_eq_some hq)
  have hin : (sheafTillers (sheafOf t)).getD ((last + 1 + n) % 4) 0 ∈ sheafTillers (sheafOf t) := by
    rw [List.getD_eq_getElem _ _ (show (last + 1 + n) % 4 < (sheafTillers (sheafOf t)).length from Nat.mod_lt _ (by decide))]
    exact List.getElem_mem _
  by_cases e : (sheafTillers (sheafOf t)).getD ((last + 1 + n) % 4) 0 = t
  · rw [hq, e]
  · exact absurd (List.find?_some hq) (by rw [ho _ hin e]; exact Bool.false_ne_true)

/-- A tiller whose FIFO is empty hands nothing over. -/
theorem mayTake_of_empty {s : State} {q : Nat} (h : (s.fq q).entries = []) (k : Nat) : s.mayTake q k = false := by
  simp [State.mayTake, h]

/-- The crossbar takes the entry of the tiller alone to have one, into the thresher the tiller is routed to. -/
theorem xbarTake_alone {s : State} {t : Nat} {e : Entry} {r : List Entry} (ht : t < 64) (hdest : s.on (TL_FQ_STAT_DEST_NOW t) = false)
    (he : (s.fq t).entries = e :: r) (hrun : (s.fq t).run = none) (hp : e.poison = false) (hplan : (s.route t).plan = [])
    (hinj : s.on FC_INJ_STAT_ARMED = false) (hother : (s.thr (2 * sheafOf t + (1 - (s.route t).force))).fifo = [])
    (hroom : (s.thr (2 * sheafOf t + (s.route t).force)).fifo.length < 16)
    (halone : ∀ q ∈ sheafTillers (sheafOf t), q ≠ t → (s.fq q).entries = []) :
    ∃ x, s.xbarTake t = ((s.setFq t { s.fq t with entries := r }).setSheaf (sheafOf t) x).modThr (2 * sheafOf t + (s.route t).force)
      (fun y => { y with fifo := y.fifo ++ [⟨e.data, t, false, false⟩] }) := by
  have hmay : s.mayTake t (s.route t).force = true := by simp [State.mayTake, hdest, he, entryTarget_of_plan_nil hplan, State.holdsOf, hother]
  have hturn := fun last => find?_turn ht last hmay fun q hq hne => mayTake_of_empty (halone q hq hne) _
  have hfull : ¬16 ≤ (s.thr (2 * sheafOf t + (s.route t).force)).fifo.length := by omega
  simp only [State.xbarTake, entryTarget_of_plan_nil hplan, hturn, hfull, ne_eq, not_true_eq_false, decide_false, Bool.or_false,
    Bool.false_eq_true, if_false, fifoTake_good he hrun hp hplan hinj]
  exact ⟨_, settleRoute_of_plan_nil hplan⟩

/-! ### Dispatch to user microcode (R233) -/

theorem thDispatch_user {s : State} {i : Nat} {e : InRec} {r : List InRec} (hf : (s.thr i).fifo = e :: r) (hst : s.thState i = 1)
    (hb : s.builtinEntry i (entryOf e) = false) : s.thDispatch i = (s.enterTh i 2).modThr i (fun x =>
      { x with cur := e.tiller, upc := s.get (TH_ENTRY_INDEX i (entryOf e)), hard := false, stack := [], reserved := 0, allowed := 0, after := 0,
               curw := none, lock := none }) := by
  simp [State.thDispatch, hf, hst, hb]

@[simp] theorem thr_modThr_same (s : State) (i : Nat) (f : Thresher → Thresher) : (s.modThr i f).thr i = f (s.thr i) := thr_setThr_same ..

@[simp] theorem thr_enterTh (s : State) (i st : Nat) : (s.enterTh i st).thr = s.thr := rfl

theorem thState_enterTh (s : State) (i st : Nat) (h : st < 8) : (s.enterTh i st).thState i = st :=
  (get_put_same s _ st (by decide : 0 ≤ 2) (by decide : 2 < 32)).trans (Nat.mod_eq_of_lt h)

/-! ### Reads (R242, R244) -/

/-- A read whose line an earlier read still waits for, waits. -/
theorem thReadComplete_waits {s : State} {i b l : Nat} (hl : (s.lineBuf i b).line = some l) (hr : s.readFirst i l (s.lineBuf i b).at_ = true) :
    s.thReadComplete i b = s := by
  unfold State.lineBuf at hl hr
  simp [State.thReadComplete, hl, hr]

/-- A read of a line that does not answer fills its buffer with what the line reads as. -/
theorem thReadComplete_fills {s : State} {i b l : Nat} (hl : (s.lineBuf i b).line = some l) (ho : (s.lineBuf i b).orphan = false)
    (hg : (s.lineBuf i b).got = false) (ha : s.answers (64 * l) = false) (hr : s.readFirst i l (s.lineBuf i b).at_ = false) :
    s.thReadComplete i b = s.modThr i (fun x =>
      { x with bufs := storeSet (wildLine x.wild) x.bufs b ⟨ofBytesLE (s.memBytes (64 * l) 64), false, none, false, false, 0⟩ }) := by
  unfold State.lineBuf at hl ho hg hr
  simp [State.thReadComplete, hl, ho, hg, hr, State.lineData, ha]

/-! ### Posted writes (R242, R243, R262) -/

/-- No notice is let go while a write stands before it. -/
theorem flushNotes_of_line {s : State} {i l d n : Nat} {p : Bool} {r : List Posted} (h : (s.thr i).posted = .line l d p n :: r) (m : Nat) :
    s.flushNotes i m = s := by
  cases m with
  | zero => rfl
  | succ m => rw [State.flushNotes, h]

theorem splitPosted_head (p : Posted) (r : List Posted) (h : postedLine p = true) : splitPosted (p :: r) 0 = some ([], p, r) := by
  simp [splitPosted, h]

theorem splitPosted_next (p q : Posted) (r : List Posted) (hp : postedLine p = true) (hq : postedLine q = true) :
    splitPosted (p :: q :: r) 1 = some ([p], q, r) := by
  simp [splitPosted, hp, hq]

theorem thr_memPut (s : State) {i : Nat} (hi : i < 32) (a : Nat) (l : List Nat) (p : Bool) : (s.memPut a l p).thr i = s.thr i :=
  (Keeps.refl (P := Part.ofThresher i) s).memPut hi a l p (.thr i) rfl

theorem get_memPut_thresher (s : State) {i : Nat} (hi : i < 32) (a : Nat) (l : List Nat) (p : Bool) {f : Field}
    (hf : thBase i ≤ f.addr ∧ f.addr < thBase i + 0x400) : (s.memPut a l p).get f = s.get f := by
  rw [State.get, (Keeps.refl (P := Part.ofThresher i) s).memPut hi a l p (.reg f.addr) hf, State.get]

/-- A write posted alone becomes visible unless an earlier read of its line is under way. -/
theorem thWriteComplete_line_alone {s : State} {i l d n : Nat} {p : Bool} (h : (s.thr i).posted = [.line l d p n]) (hr : s.readFirst i l n = false) :
    s.thWriteComplete i 0 = (s.modThr i (fun x => { x with posted := [] })).memPut (64 * l) (bytesLE 64 d) p := by
  simp [State.thWriteComplete, h, splitPosted_head _ _ (show postedLine (.line l d p n) = true from rfl), hr, State.flushNotes]

/-- The second posted write waits for an earlier request to its line. -/
theorem thWriteComplete_second_waits {s : State} {i l d n l' d' n' : Nat} {p p' : Bool} {r : List Posted}
    (h : (s.thr i).posted = .line l d p n :: .line l' d' p' n' :: r) (hw : l = l' ∨ s.readFirst i l' n' = true) : s.thWriteComplete i 1 = s := by
  have hs := splitPosted_next (.line l d p n) (.line l' d' p' n') r rfl rfl
  simp [State.thWriteComplete, h, hs, lineOf, hw]

/-- The second posted write passes an older one to another line. -/
theorem thWriteComplete_second {s : State} {i l d n l' d' n' : Nat} {p p' : Bool} {r : List Posted} (hi : i < 32)
    (h : (s.thr i).posted = .line l d p n :: .line l' d' p' n' :: r) (hl : l ≠ l') (hr : s.readFirst i l' n' = false) :
    s.thWriteComplete i 1 = (s.modThr i (fun x => { x with posted := .line l d p n :: r })).memPut (64 * l') (bytesLE 64 d') p' := by
  have hs := splitPosted_next (.line l d p n) (.line l' d' p' n') r rfl rfl
  have hkept : (((s.modThr i (fun x => { x with posted := .line l d p n :: r })).memPut (64 * l') (bytesLE 64 d') p').thr i).posted = .line l d p n :: r := by
    rw [thr_memPut _ hi, thr_modThr_same]
  simp [State.thWriteComplete, h, hs, lineOf, hl, hr, flushNotes_of_line hkept]

/-- A ring entry posted alone becomes visible, and HEAD moves over it. -/
theorem thWriteComplete_ring_alone {s : State} {i l d n : Nat} (h : (s.thr i).posted = [.ring l d n]) (hr : s.readFirst i l n = false) :
    s.thWriteComplete i 0 = ((s.modThr i (fun x => { x with posted := [] })).memPut (64 * l) (bytesLE 64 d) false).headOn i 1 := by
  simp [State.thWriteComplete, h, splitPosted_head _ _ (show postedLine (.ring l d n) = true from rfl), hr, State.flushNotes, seenRun]

theorem ringSize_pos (s : State) (i : Nat) : 0 < s.ringSize i := Nat.two_pow_pos _

theorem ringSize_memPut (s : State) {i : Nat} (hi : i < 32) (a : Nat) (l : List Nat) (p : Bool) : (s.memPut a l p).ringSize i = s.ringSize i := by
  rw [State.ringSize, get_memPut_thresher s hi a l p (f := TH_RING_HI_SIZE i) ⟨Nat.le_add_right _ _, Nat.add_lt_add_left (by decide) _⟩, State.ringSize]

theorem get_headOn (s : State) (i n : Nat) (h : s.ringSize i ≤ 65536) :
    (s.headOn i n).get (TH_RING_HEAD_INDEX i) = (s.get (TH_RING_HEAD_INDEX i) + n) % s.ringSize i := by
  have hlt : (s.get (TH_RING_HEAD_INDEX i) + n) % s.ringSize i < 2 ^ 16 := (Nat.mod_lt _ (s.ringSize_pos i)).trans_le h
  rw [State.headOn, get_put_same s (TH_RING_HEAD_INDEX i) _ (by decide : 0 ≤ 15) (by decide : 15 < 32)]
  exact Nat.mod_eq_of_lt hlt

@[simp] theorem thr_headOn (s : State) (i n : Nat) : (s.headOn i n).thr = s.thr := rfl

end State

/-- Settles O41: each request by the lemma that says what its completion does. -/
theorem recordsAndRequestsOfThreshersMove : Obligations.RecordsAndRequestsOfThreshersMove := by
  intro s
  refine ⟨fun t e r hdest he hrun hp hplan _ hinj => ?_, fun i e r hf hst hb => ?_, fun i b l hl ho hg ha hr => ?_, fun i b l hl hr => ?_,
    fun i l d n p h hr => ?_, fun i l d n l' d' n' p p' r h => ⟨fun hw => ?_, fun hl hr => ?_⟩, fun i l d n h hr hsize => ?_⟩
  · intro i hother hroom halone
    obtain ⟨x, hx⟩ := State.xbarTake_alone t.isLt hdest he hrun hp hplan hinj hother hroom halone
    refine ⟨_, congrArg Host.Outcome.next hx, ?_, ?_⟩
    · exact congrArg FailFifo.entries (State.fq_setFq_same s t.val _)
    · exact congrArg Thresher.fifo (State.thr_setThr_same _ _ _)
  · refine ⟨_, congrArg Host.Outcome.next (State.thDispatch_user hf hst hb), ?_, ?_, ?_, ?_, ?_, fun a ha => ?_⟩
    · exact State.thState_enterTh s i.val 2 (by decide)
    · exact congrArg Thresher.upc (State.thr_modThr_same ..)
    · exact congrArg Thresher.cur (State.thr_modThr_same ..)
    · exact congrArg Thresher.lock (State.thr_modThr_same ..)
    · rw [State.thr_modThr_same, State.thr_enterTh]
    · exact State.reg_put_other s _ _ ha
  · refine ⟨_, congrArg Host.Outcome.next (State.thReadComplete_fills hl ho hg ha hr), ?_, ?_, rfl⟩ <;> simp [State.lineBuf]
  · exact congrArg Host.Outcome.next (State.thReadComplete_waits hl hr)
  · exact congrArg Host.Outcome.next (State.thWriteComplete_line_alone h hr)
  · exact congrArg Host.Outcome.next (State.thWriteComplete_second_waits h hw)
  · exact congrArg Host.Outcome.next (State.thWriteComplete_second i.isLt h hl hr)
  · refine ⟨_, congrArg Host.Outcome.next (State.thWriteComplete_ring_alone h hr), ?_, ?_⟩
    · rw [State.thr_headOn, State.thr_memPut _ i.isLt, State.thr_modThr_same]
    · rw [State.get_headOn _ _ _ (by rwa [State.ringSize_memPut _ i.isLt]), State.ringSize_memPut _ i.isLt, State.get_memPut_thresher _ i.isLt _ _ _
        ⟨Nat.le_add_right _ _, Nat.add_lt_add_left (by decide) _⟩]
      rfl

end Sys2Proof.Machine
end

section
/-! SUPPORT. A tiller reset (R19) reaches neither the registers below 0x48, those of the part's identity and of the reset unit, nor the
NVM: each operation it is made of, in the order of the model's files. -/

namespace Sys2Proof.Machine

/-- The registers of the identity and of the reset unit, and the NVM. -/
def Part.central : Part → Prop
  | .reg a => a < 0x48
  | .nvm => True
  | _ => False

namespace Keeps

/-! ### Addresses far from the reset unit -/

theorem far {b : Nat} (h : 0x48 ≤ b) : ¬Part.central (.reg b) := Nat.not_lt.2 h

theorem far_lit {b : Nat} (h : Nat.ble 0x48 b = true) : ¬Part.central (.reg b) := far (Nat.le_of_ble_eq_true h)

theorem far_add {b o : Nat} (h : Nat.ble 0x48 b = true) : ¬Part.central (.reg (b + o)) := far (Nat.le_add_right_of_le (Nat.le_of_ble_eq_true h))

theorem far_tl {t o : Nat} : ¬Part.central (.reg (tlBase t + o)) := far (by unfold tlBase; omega)

theorem far_tl2 {t o n : Nat} : ¬Part.central (.reg (tlBase t + o + n)) := far (by unfold tlBase; omega)

theorem far_pn {g o : Nat} : ¬Part.central (.reg (pnBase g + o)) := far (by unfold pnBase; omega)

theorem far_pn2 {g o n : Nat} : ¬Part.central (.reg (pnBase g + o + n)) := far (by unfold pnBase; omega)

theorem far_st {r o : Nat} : ¬Part.central (.reg (stBase r + o)) := far (by unfold stBase; omega)

theorem far_sh {u o : Nat} : ¬Part.central (.reg (shBase u + o)) := far (by unfold shBase; omega)

theorem far_th {i o : Nat} : ¬Part.central (.reg (thBase i + o)) := far (by unfold thBase; omega)

theorem far_lateBit (t : Nat) : ¬Part.central (.reg (State.lateBit t).addr) := by
  unfold State.lateBit
  split
  · exact far_lit rfl
  · exact far_lit rfl

theorem far_waitBit (t h : Nat) : ¬Part.central (.reg (State.waitBit t h).addr) := by
  unfold State.waitBit
  split
  · exact far_st
  · exact far_st

/-! ### Updates of one unit -/

section units
variable {P : Part → Prop} {a s : State} {t k : Nat}

theorem setTl (h : Keeps P a s) {x : Tiller} : Keeps P a (s.setTl t x) := h.beside rfl
theorem tag (h : Keeps P a s) : Keeps P a (s.tag t k) := h.beside rfl
theorem setCmp (h : Keeps P a s) {x : Compare} : Keeps P a (s.setCmp t x) := h.beside rfl
theorem setFq (h : Keeps P a s) {x : FailFifo} : Keeps P a (s.setFq t x) := h.beside rfl
theorem setCap (h : Keeps P a s) {x : Capture} : Keeps P a (s.setCap t x) := h.beside rfl
theorem setLvl (h : Keeps P a s) {x : Levels} : Keeps P a (s.setLvl t x) := h.beside rfl
theorem setStrm (h : Keeps P a s) {x : Stream} : Keeps P a (s.setStrm t x) := h.beside rfl
theorem setTdc (h : Keeps P a s) {x : Tdc} : Keeps P a (s.setTdc t x) := h.beside rfl
theorem setPin (h : Keeps P a s) {x : Pin} : Keeps P a (s.setPin t x) := h.beside rfl
theorem setSup (h : Keeps P a s) {x : Supply} : Keeps P a (s.setSup t k x) := h.beside rfl
theorem setRdv (h : Keeps P a s) {x : Rdv} : Keeps P a (s.setRdv t x) := h.beside rfl
theorem setCalTl (h : Keeps P a s) {x : CalTiller} : Keeps P a (s.setCalTl t x) := h.beside rfl
theorem setAdc (h : Keeps P a s) {x : Adc} : Keeps P a (s.setAdc t x) := h.beside rfl
theorem setRoute (h : Keeps P a s) {x : Route} : Keeps P a (s.setRoute t x) := h.beside rfl
theorem fireChannel (h : Keeps P a s) : Keeps P a (s.fireChannel k) := h.beside rfl
theorem localSource (h : Keeps P a s) : Keeps P a (s.localSource t k) := h.beside rfl
theorem draw (h : Keeps P a s) : Keeps P a s.draw := h.beside rfl
theorem freeLatch (h : Keeps P a s) : Keeps P a (State.freeLatch s k) := h.beside rfl

end units

/-- The registers of a list take their reset words, NVM fields as last loaded (R8). -/
theorem loadSafe {P : Part → Prop} {a s : State} (h : Keeps P a s) (l : List Nat) (hl : ∀ b ∈ l, ¬P (.reg b)) : Keeps P a (s.loadSafe l) :=
  ite h (h.foldl_mem l fun s b hb => (refl s).setReg (hl b hb))

/-! ### Moves between threshers (R231) -/

section moves
variable {P : Part → Prop} {a s : State} {t : Nat} (hx : ¬P (.reg (SH_XBAR_ROUTE (sheafOf t)))) (hm : ∀ w, ¬P (.reg (State.msixPending w)))
  (hn : ¬P (.reg (EV_PEND ((1024 + 8 * sheafOf t + 5) / 32))))
include hx

theorem showMove (h : Keeps P a s) : Keeps P a (s.showMove t) := h.putBit (f := SH_XBAR_ROUTE_PEND _) hx

include hm hn

theorem settleRoute (h : Keeps P a s) : Keeps P a (s.settleRoute t) := ite h (ite h.setRoute (ite h.setRoute ((h.setRoute.showMove hx).source hm hn)))

theorem routeBoundary (h : Keeps P a s) : Keeps P a (s.routeBoundary t) := ite h ((h.setRoute.showMove hx).settleRoute hx hm hn)

end moves

variable {a s : State} {t g r i k : Nat}

theorem source_central (h : Keeps Part.central a s) {n : Nat} : Keeps Part.central a (s.source n) := h.source (fun _ => far_add rfl) (far_add rfl)

theorem settleRoute_central (h : Keeps Part.central a s) : Keeps Part.central a (s.settleRoute t) := h.settleRoute far_sh (fun _ => far_add rfl) (far_add rfl)

theorem routeBoundary_central (h : Keeps Part.central a s) : Keeps Part.central a (s.routeBoundary t) := h.routeBoundary far_sh (fun _ => far_add rfl) (far_add rfl)

/-! ### Rendezvous (R45 to R47) -/

theorem joinEpochs (h : Keeps Part.central a s) : Keeps Part.central a (s.joinEpochs t) := h.foldl _ fun s _ => (refl s).beside rfl

theorem takeRelease (h : Keeps Part.central a s) {c : Nat} {x y : Bool} : Keeps Part.central a (s.takeRelease k c x y) := h.setRdv.put (far_add rfl)

theorem openEpoch (h : Keeps Part.central a s) : Keeps Part.central a (s.openEpoch k) :=
  ite h ((h.put (far_add rfl)).foldl _ fun s _ => ite ((refl s).mark far_tl) (refl s))

theorem meshOut (h : Keeps Part.central a s) {l : List MeshMsg} : Keeps Part.central a { s with meshOut := l } := h.beside rfl

theorem sendRelease (h : Keeps Part.central a s) {c : Nat} {x : Bool} : Keeps Part.central a (s.sendRelease k c x) := h.setRdv.meshOut.takeRelease

theorem leadReport (h : Keeps Part.central a s) {x y e n : Nat} {p q : Bool} : Keeps Part.central a (s.leadReport k x y e p q n) :=
  ite (h.mark (far_add rfl)) (ite h (ite h.setRdv.openEpoch.sendRelease h.setRdv.openEpoch))

theorem report (h : Keeps Part.central a s) {p q : Bool} {n : Nat} : Keeps Part.central a (s.report k p q n) := ite h.leadReport (ite h.meshOut h.meshOut)

theorem reportDone (h : Keeps Part.central a s) {p : Bool} {n : Nat} : Keeps Part.central a (s.reportDone k p n) := ite h.setRdv.openEpoch.report h.setRdv

theorem withdrawOne (h : Keeps Part.central a s) {n : Nat} : Keeps Part.central a (s.withdrawOne t k n).1 := ite_fst h h.setRdv.reportDone

theorem withdraw (h : Keeps Part.central a s) {n : Nat} : Keeps Part.central a (s.withdraw t n).1 := h.foldl_fst _ fun p _ => (refl p.1).withdrawOne

theorem leaveRendezvous (h : Keeps Part.central a s) : Keeps Part.central a (s.leaveRendezvous t) := ite h.withdraw.tag h.withdraw

/-! ### Results and calibration runs (R19, R21, R137) -/

theorem completeResult (h : Keeps Part.central a s) : Keeps Part.central a (s.completeResult t) := h.setReg far_tl

theorem invalidate (h : Keeps Part.central a s) : Keeps Part.central a (s.invalidate t) := ite h.tag (h.tag.mark far_tl)

theorem resetResult (h : Keeps Part.central a s) : Keeps Part.central a (s.resetResult t) :=
  ite h.leaveRendezvous.tag.completeResult h.leaveRendezvous.invalidate

theorem openPaths (h : Keeps Part.central a s) : Keeps Part.central a (s.openPaths t) :=
  h.foldl _ fun s _ => ite ((refl s).setPin.put far_pn) (refl s)

theorem clearRun (h : Keeps Part.central a s) : Keeps Part.central a (s.clearRun r) := (h.foldl _ fun s _ => (refl s).openPaths.setCalTl).put far_st

theorem abandonRun (h : Keeps Part.central a s) {due : Bool} : Keeps Part.central a (s.abandonRun r due) :=
  ite h ((((ite h (h.put far_st)).clearRun.put far_st).bump far_st).source_central)

/-! ### Pins (R88, R184) -/

theorem lifeModel (h : Keeps Part.central a s) : Keeps Part.central a s.lifeModel := ((h.put (far_lit rfl)).put (far_lit rfl)).put (far_lit rfl)

theorem monitor (h : Keeps Part.central a s) {m : Monitor} : Keeps Part.central a { s with monitor := m } := h.beside rfl

theorem contactCycle (h : Keeps Part.central a s) : Keeps Part.central a s.contactCycle := (h.bump (f := GL_WEAR_CONTACT_COUNT) (far_lit rfl)).monitor.lifeModel

theorem touchdown (h : Keeps Part.central a s) : Keeps Part.central a (s.touchdown g) := by
  unfold State.touchdown
  split
  · exact ite h.contactCycle h
  · exact h

theorem latch (h : Keeps Part.central a s) {hi lo : Bool} : Keeps Part.central a (s.latch g hi lo) :=
  ((h.ifTrue ((refl _).touchdown.mark far_pn)).ifTrue ((refl _).mark far_pn)).ifTrue (refl _).source_central.fireChannel

theorem latchFrom (h : Keeps Part.central a s) {n : Nat} {hi lo : Bool} : Keeps Part.central a (s.latchFrom g n hi lo) :=
  ((h.setPin.ifTrue ((refl _).put far_pn)).ifTrue ((refl _).put far_pn)).latch

theorem latchClear (h : Keeps Part.central a s) {n : Nat} : Keeps Part.central a (s.latchClear g n) := ite h h.latchFrom

theorem catchUp (h : Keeps Part.central a s) {n : Nat} : Keeps Part.central a (s.catchUp g n) := h.setPin.foldl _ fun s _ => (refl s).latchClear

theorem setOutput (h : Keeps Part.central a s) {n : Nat} {hi above : Bool} : Keeps Part.central a (s.setOutput g n hi above) :=
  ((h.catchUp.setPin.put far_pn).put far_pn).latch.ifTrue (refl _).setPin

theorem complement (h : Keeps Part.central a s) {n : Nat} : Keeps Part.central a (s.complement g n) :=
  h.ifFalse (((refl _).ifFalse (refl _).setOutput).ifFalse (refl _).setOutput)

theorem dropStrobes (h : Keeps Part.central a s) {n : Nat} : Keeps Part.central a (s.dropStrobes g n) := h.setCmp

theorem pinSafe (h : Keeps Part.central a s) {n : Nat} : Keeps Part.central a (s.pinSafe g n) :=
  ((((((((ite h.dropStrobes.complement h.dropStrobes).put far_pn).put far_pn).put far_pn).put far_pn).put far_pn).foldl _
    fun s _ => (refl s).setReg far_pn2).setReg far_pn).mark far_pn

theorem pinsSafe (h : Keeps Part.central a s) {n : Nat} : Keeps Part.central a (s.pinsSafe t n) := h.foldl _ fun s _ => (refl s).pinSafe

/-! ### Supplies (R88, R272) -/

/-- A switch under load is counted (R355). -/
theorem hotSwitch {P : Part → Prop} (h : Keeps P a s) (hc : ¬P (.reg (TL_SUP_CNT t k))) {n : Nat} : Keeps P a (s.hotSwitch t k n) :=
  h.ifTrue (((refl _).bump (f := TL_SUP_CNT_HOTSW t k) hc).beside rfl)

theorem supFlag (h : Keeps Part.central a s) {f : Field} (hf : ¬Part.central (.reg f.addr)) : Keeps Part.central a (s.supFlag t k f) :=
  h.ifFalse ((refl _).mark hf).source_central

theorem setOut (h : Keeps Part.central a s) {o : Nat} : Keeps Part.central a (s.setOut t k o) := h.setSup.put far_tl2

theorem energyClamp (h : Keeps Part.central a s) : Keeps Part.central a (s.energyClamp t k) := ((h.supFlag far_tl2).bump far_tl2).tag

theorem runChain (h : Keeps Part.central a s) : Keeps Part.central a (s.runChain t k).1 :=
  ((((h.ifTrue ((refl _).supFlag far_tl2)).ifTrue (refl _).energyClamp).put far_tl2).put far_tl2).ifTrue (refl _).setOut

theorem trackVraw (h : Keeps Part.central a s) : Keeps Part.central a s.trackVraw := (h.put (far_lit rfl)).put (far_lit rfl)

theorem rangeNow (h : Keeps Part.central a s) : Keeps Part.central a (s.rangeNow t) := by
  unfold State.rangeNow
  dsimp only
  split
  · exact (h.setSup.put far_tl2).put far_tl2
  · exact h.setSup.put far_tl2

theorem disableOutput (h : Keeps Part.central a s) {n : Nat} : Keeps Part.central a (s.disableOutput t k n) :=
  ((((((h.ifTrue ((refl _).hotSwitch far_tl2)).put far_tl2).putBit (far_waitBit t k)).ifTrue ((refl _).put far_tl2).rangeNow).ifTrue
    ((refl _).put far_tl2)).setSup.setOut.put far_tl2).trackVraw

theorem supplySafe (h : Keeps Part.central a s) : Keeps Part.central a (s.supplySafe t k) :=
  ((((((ite h.draw.disableOutput h.disableOutput).setReg far_tl2).put far_tl2).put far_tl2).setSup).ifTrue ((refl _).put far_tl2)).runChain.setOut

theorem outputsSafe (h : Keeps Part.central a s) {n : Nat} : Keeps Part.central a (s.outputsSafe t n) := h.pinsSafe.supplySafe.supplySafe

theorem loadTiller (h : Keeps Part.central a s) : Keeps Part.central a (s.loadTiller t) := by
  refine h.ifFalse (((refl s).loadSafe _ fun b hb => ?_).foldl _ fun s _ => (refl s).setSup.runChain)
  simp only [State.tillerSafeRegs, State.pinSafeRegs, List.mem_append, List.mem_flatMap, List.mem_cons, List.mem_map, List.not_mem_nil, or_false] at hb
  obtain ⟨g, -, rfl | ⟨j, -, rfl⟩⟩ | ⟨j, -, rfl | rfl | rfl⟩ := hb
  · exact far_pn
  · exact far_pn2
  · exact far_tl2
  · exact far_tl2
  · exact far_tl2

/-! ### Switches of a tiller's bank, and its reference (R323, R334) -/

theorem switchNow (h : Keeps Part.central a s) : Keeps Part.central a (s.switchNow t) :=
  (((h.setTl.putBit far_st).put (f := ⟨ST_CAL_TBANK _, _, _⟩) far_st).putBit far_st).ifTrue ((refl _).put far_st)

theorem safePoint (h : Keeps Part.central a s) : Keeps Part.central a (s.safePoint t) := h.ifTrue (refl _).switchNow

theorem afterRef (h : Keeps Part.central a s) {before : Bool} : Keeps Part.central a (s.afterRef t before) :=
  ite (h.ifFalse ((refl _).setAdc.put far_tl)) (h.put far_tl)

/-! ### Threshers (R19, R240, R250) -/

theorem setThr_central (h : Keeps Part.central a s) {x : Thresher} : Keeps Part.central a (s.setThr i x) := h.setThr id

theorem scramble (h : Keeps Part.central a s) : Keeps Part.central a (s.scramble i) := (h.setThr (i := i) id).beside rfl

theorem waitedRing (h : Keeps Part.central a s) : Keeps Part.central a (s.waitedRing i) := by
  unfold State.waitedRing
  split
  · exact (h.bumpBy far_th).setThr_central
  · exact h

theorem releaseLock (h : Keeps Part.central a s) : Keeps Part.central a (s.releaseLock i) := by
  unfold State.releaseLock
  dsimp only
  split
  · exact h.setThr_central.ifTrue ((refl _).setByte _ _)
  · exact h.setThr_central

theorem releaseWork (h : Keeps Part.central a s) : Keeps Part.central a (s.releaseWork i) := h.waitedRing.releaseLock.setThr_central

theorem discardWork (h : Keeps Part.central a s) : Keeps Part.central a (s.discardWork i) := h.releaseWork.setThr_central.scramble

theorem ctxCheck (h : Keeps Part.central a s) {j n : Nat} : Keeps Part.central a (s.ctxCheck i j n).1 :=
  (h.inject (fun _ => far_add rfl) (far_lit rfl) (far_add rfl) _ _).ifTrue ((refl _).bump far_sh)

theorem staleOne (h : Keeps Part.central a s) {j : Nat} : Keeps Part.central a (s.staleOne i j).1 :=
  ite_fst h.setThr_central (ite_fst h.ctxCheck ((h.ctxCheck.setByte _ _).markUncorr _ _))

theorem faultAlone (h : Keeps Part.central a s) {c : Nat} : Keeps Part.central a (s.faultAlone i c) :=
  ((((h.discardWork.put far_th).put far_th).put far_th).setThr_central.source_central).raiseLine _

theorem markStale (h : Keeps Part.central a s) : Keeps Part.central a (s.markStale i t) := by
  refine ifTrue (foldl_fst (p := (s, false)) h _ fun p _ => ?_) (refl _).faultAlone
  exact (refl p.1).staleOne

theorem takeReset (h : Keeps Part.central a s) : Keeps Part.central a (s.takeReset i t) := h.setThr_central.markStale.settleRoute_central

theorem abandonRoutine (h : Keeps Part.central a s) : Keeps Part.central a (s.abandonRoutine i) := h.discardWork.bump far_th

theorem resetInThresher (h : Keeps Part.central a s) : Keeps Part.central a (s.resetInThresher t i) :=
  ite (h.abandonRoutine.setThr_central.put far_th).takeReset (ite h.setThr_central h.takeReset)

theorem resetInThreshers (h : Keeps Part.central a s) : Keeps Part.central a (s.resetInThreshers t) := h.resetInThresher.resetInThresher.settleRoute_central

/-! ### The tiller (R19) -/

theorem fifoEmpty (h : Keeps Part.central a s) : Keeps Part.central a (s.fifoEmpty t) := (h.setFq.put far_tl).ifFalse (refl _).setRoute

theorem freshTiller (h : Keeps Part.central a s) : Keeps Part.central a (s.freshTiller t) :=
  ((h.setTl.setCmp.setCap.setLvl.setStrm.setTdc.foldl _ fun s _ => (refl s).freeLatch).setSup.setSup.setAdc.setFq).foldl _ fun s _ => (refl s).setPin

theorem tillerReset (h : Keeps Part.central a s) : Keeps Part.central a (s.tillerReset t) := by
  have hregs : ∀ b, (tillerReg t b || b = GL_PIN_LPBK t) = true → ¬Part.central (.reg b) := fun b hb => by
    rcases Bool.or_eq_true .. ▸ hb with hb | hb
    · simp only [tillerReg, within, Bool.and_eq_true, decide_eq_true_eq] at hb
      exact far (by unfold tlBase at hb; omega)
    · rw [of_decide_eq_true hb]
      exact far_add rfl
  exact ((((((h.abandonRun.resetResult.outputsSafe.fifoEmpty.routeBoundary_central.clearRegs hregs).freshTiller.loadTiller.put (far_lateBit t)).joinEpochs.afterRef.putBit
    far_st).putBit far_st).putBit (far_waitBit t 0)).putBit (far_waitBit t 1)).resetInThreshers.safePoint

end Keeps

end Sys2Proof.Machine
end

section
/-! SUPPORT. What waits behind samples (R198, R207) reaches no register of a pin: fail records, packet ends and the end of an acquisition,
in the order of the model's files. -/

namespace Sys2Proof.Machine

/-- The registers of a pin's block. -/
def Part.ofPin (g : Nat) : Part → Prop
  | .reg a => within a (pnBase g) 0x100 = true
  | _ => False

namespace Keeps

/-! ### Addresses apart from a pin's block -/

section addresses
variable {g : Nat}

theorem apart {b : Nat} (h : b < pnBase g ∨ pnBase g + 0x100 ≤ b) : ¬Part.ofPin g (.reg b) := fun hb => by
  have hin := of_decide_eq_true hb
  omega

/-- The tiller's own registers lie before those of its pins. -/
theorem apart_tl {o : Nat} (h : Nat.ble o 0x7FF = true) : ¬Part.ofPin g (.reg (tlBase (g / 8) + o)) := by
  have ho := Nat.le_of_ble_eq_true h
  exact apart (.inl (by unfold pnBase tlBase; omega))

theorem apart_below {b : Nat} (h : b < 0x40000) : ¬Part.ofPin g (.reg b) := apart (.inl (by unfold pnBase; omega))

theorem apart_msix (hg : g < 512) (w : Nat) : ¬Part.ofPin g (.reg (State.msixPending w)) := apart (.inr (by unfold pnBase State.msixPending; omega))

theorem apart_source {n : Nat} (hn : n < 2048) : ¬Part.ofPin g (.reg (EV_PEND (n / 32))) := apart_below (by unfold EV_PEND; omega)

theorem sheafOf_lt {t : Nat} (ht : t < 64) : sheafOf t < 16 := by
  unfold sheafOf rowOf colOf
  omega

end addresses

variable {g : Nat} (hg : g < 512) {a s : State}
include hg

theorem tlSource_ofPin (h : Keeps (Part.ofPin g) a s) {k : Nat} (hk : k < 16) : Keeps (Part.ofPin g) a (s.tlSource (g / 8) k) :=
  h.source (apart_msix hg) (apart_source (by omega))

theorem routeBoundary_ofPin (h : Keeps (Part.ofPin g) a s) : Keeps (Part.ofPin g) a (s.routeBoundary (g / 8)) := by
  have hu := sheafOf_lt (show g / 8 < 64 by omega)
  exact h.routeBoundary (apart_below (by unfold SH_XBAR_ROUTE shBase; omega)) (apart_msix hg) (apart_source (by omega))

/-! ### Fail records and packets (R200 to R209) -/

theorem fifoPut (h : Keeps (Part.ofPin g) a s) {e : Nat} : Keeps (Part.ofPin g) a (s.fifoPut (g / 8) e) :=
  (h.setFq.ifTrue (refl _).localSource).ifTrue ((refl _).tlSource_ofPin hg (by decide))

theorem dropRecord (h : Keeps (Part.ofPin g) a s) {v f : Nat} {fail : Bool} : Keeps (Part.ofPin g) a (s.dropRecord (g / 8) v fail f) :=
  ((h.setFq.mark (apart_tl rfl)).ifFalse (((refl _).mark (apart_tl rfl)).tlSource_ofPin hg (by decide))).ifTrue ((refl _).bump (apart_tl rfl))

theorem fifoOffer (h : Keeps (Part.ofPin g) a s) {e v : Nat} {fail : Bool} : Keeps (Part.ofPin g) a (s.fifoOffer (g / 8) e v fail) :=
  ite (h.fifoPut hg) (h.dropRecord hg)

theorem formRecord (h : Keeps (Part.ofPin g) a s) {c : Cmp} : Keeps (Part.ofPin g) a (s.formRecord (g / 8) c) :=
  ite h (ite h.setFq ((h.bump (apart_tl rfl)).setFq.fifoOffer hg))

omit hg in
theorem applyBound (h : Keeps (Part.ofPin g) a s) {d : Option Nat} : Keeps (Part.ofPin g) a (s.applyBound (g / 8) d) := by
  cases d with
  | none => exact h
  | some d => exact h.ifTrue (((refl _).put (apart_tl rfl)).put (apart_tl rfl))

theorem endPacket (h : Keeps (Part.ofPin g) a s) {p : PktEnd} : Keeps (Part.ofPin g) a (s.endPacket (g / 8) p) :=
  ((h.ifFalse ((refl _).fifoOffer hg)).setFq.routeBoundary_ofPin hg).applyBound

/-! ### The end of an acquisition (R218, R220) -/

omit hg in
theorem closeRing (h : Keeps (Part.ofPin g) a s) : Keeps (Part.ofPin g) a (s.closeRing (g / 8)) := h.setCap.put (apart_tl rfl)

theorem endAcquisition (h : Keeps (Part.ofPin g) a s) {why : Nat} : Keeps (Part.ofPin g) a (s.endAcquisition (g / 8) why) :=
  h.ifFalse ((((((refl _).ifTrue (refl _).closeRing).setCap.put (apart_tl rfl)).put (apart_tl rfl)).bump (apart_tl rfl)).tlSource_ofPin hg (by decide))

omit hg in
theorem armCapture (h : Keeps (Part.ofPin g) a s) : Keeps (Part.ofPin g) a (s.armCapture (g / 8)) := by
  have hrest {q : State} (hq : Keeps (Part.ofPin g) a q) {x : Capture} : Keeps (Part.ofPin g) a
      ((((((((q.put (TL_CAP_STAT_TRUNC (g / 8)) 0).put (TL_CAP_STAT_END_WHY (g / 8)) 0).put (TL_CAP_STAT_PRE_GOT (g / 8)) 0).setReg (TL_TRIG_STATUS (g / 8)) 0).put
        (TL_FLAGS_TRIG (g / 8)) 0).setCap (g / 8) x).put (TL_CAP_STAT_STATE (g / 8)) 1)) :=
    (((((hq.put (apart_tl rfl)).put (apart_tl rfl)).put (apart_tl rfl)).setReg (apart_tl rfl)).put (apart_tl rfl)).setCap.put (apart_tl rfl)
  unfold State.armCapture
  dsimp only
  split
  · exact hrest h
  · exact hrest ((h.put (apart_tl rfl)).put (apart_tl rfl))

omit hg in
theorem autoRearm (h : Keeps (Part.ofPin g) a s) : Keeps (Part.ofPin g) a (s.autoRearm (g / 8)) := h.ifTrue (refl _).armCapture

/-! ### Turns (R198, R207) -/

theorem boundaryNow (h : Keeps (Part.ofPin g) a s) {d : Deliver} : Keeps (Part.ofPin g) a (s.boundaryNow (g / 8) d) := by
  cases d with
  | packetEnd p => exact h.endPacket hg
  | tillerStop acq => exact h.ifTrue ((refl _).endAcquisition hg).autoRearm
  | sample c => exact h

theorem drain (h : Keeps (Part.ofPin g) a s) (n : Nat) : Keeps (Part.ofPin g) a (s.drain (g / 8) n) := by
  induction n generalizing s with
  | zero => exact h
  | succ n ih =>
    unfold State.drain
    split
    · exact h
    · split
      · exact ih (h.setCmp.formRecord hg)
      · exact h
    · exact ih (h.setCmp.boundaryNow hg)

theorem drainAll (h : Keeps (Part.ofPin g) a s) : Keeps (Part.ofPin g) a (s.drainAll (g / 8)) := h.setCmp.drain hg _

end Keeps

/-! ### A chip reset (R447): the clock, the schedule and the reset unit -/

/-- What the time base and the reset unit hold beside registers. -/
def Part.ofTime : Part → Prop
  | .clock => True
  | .slots => True
  | .resets => True
  | _ => False

namespace Keeps

variable {a s : State} {p : Nat}

theorem dropOutput (h : Keeps Part.ofTime a s) {t k : Nat} : Keeps Part.ofTime a (s.dropOutput t k) := h.ifTrue ((refl _).draw.hotSwitch id)

theorem collectorAndPower (h : Keeps Part.ofTime a s) {c : Collector} {w : Power} : Keeps Part.ofTime a { s with collector := c, power := w } := h.beside rfl

theorem setPort (h : Keeps Part.ofTime a s) {x : Port} : Keeps Part.ofTime a (s.setPort p x) := h.beside rfl

theorem giveUpLink (h : Keeps Part.ofTime a s) {st : Nat} : Keeps Part.ofTime a (s.giveUpLink p st) :=
  ((h.setPort.foldl _ fun s _ => (refl s).setPort).foldl _ fun s _ => (refl s).put id).put id

theorem takePosition (h : Keeps Part.ofTime a s) : Keeps Part.ofTime a s.takePosition := ((h.put id).put id).put id

theorem sendAlign (h : Keeps Part.ofTime a s) {ready : Bool} : Keeps Part.ofTime a (s.sendAlign p ready) := h.beside rfl

theorem startTraining (h : Keeps Part.ofTime a s) : Keeps Part.ofTime a (s.startTraining p) := ite h.takePosition.giveUpLink.sendAlign h.takePosition.giveUpLink

theorem trainPorts (h : Keeps Part.ofTime a s) : Keeps Part.ofTime a s.trainPorts := h.foldl _ fun s _ => (refl s).startTraining

end Keeps

end Sys2Proof.Machine
end

section
/-! SUPPORT. Requests of the reset unit (R18 to R20) and what each comes to, and O12 settled. -/

namespace Sys2Proof.Machine

/-! ### The request (R18) -/

theorem bits_blkRstWord_scope {scope i : Nat} (hs : scope < 8) (hi : i < 512) : bits (blkRstWord scope i) 26 24 = scope := by
  rw [bits, blkRstWord, Nat.shiftRight_eq_div_pow]
  omega

theorem bits_blkRstWord_index {scope i : Nat} (hi : i < 512) : bits (blkRstWord scope i) 8 0 = i := by
  rw [bits, blkRstWord, Nat.shiftRight_eq_div_pow]
  omega

theorem testBit_blkRstWord {scope i : Nat} (hs : scope < 8) (hi : i < 512) : (blkRstWord scope i).testBit 31 = true := by
  rw [blkRstWord, Nat.testBit_eq_decide_div_mod_eq, decide_eq_true_eq]
  omega

namespace State

/-- The word is stored and the request goes to the reset unit. -/
theorem regWrite_blkRst {s : State} {v : View} {scope : Nat} (i : BitVec 9) (hr : s.ready = true) (hv : directView v = true) (hs : scope < 8) :
    s.regWrite v GL_BLK_RST (blkRstWord scope i.toNat) = (s.storeWord GL_BLK_RST (blkRstWord scope i.toNat)).blockReset scope i.toNat := by
  have hi := i.isLt
  rw [State.regWrite, regWriteWith_direct s v _ _ none (reachable_of_ready hr _) rfl rfl rfl rfl hv, writeOwn_global s v (by decide), State.writeGlobal,
    if_pos (by decide), State.writeGlobalLow, if_pos rfl, State.andThen, if_pos (testBit_blkRstWord hs hi), bits_blkRstWord_scope hs hi,
    bits_blkRstWord_index hi]

/-- A store to one register leaves everything else. -/
theorem storeWord_eq_setReg_or (s : State) (a w : Nat) : s.storeWord a w = s ∨ ∃ x, s.storeWord a w = s.setReg a x := by
  unfold State.storeWord
  split
  · exact .inl rfl
  · exact .inr ⟨_, rfl⟩

theorem storeWord_beside (s : State) (a w : Nat) : ∃ r, s.storeWord a w = { s with regs := r } := by
  obtain e | ⟨x, e⟩ := s.storeWord_eq_setReg_or a w
  · exact ⟨s.regs, e⟩
  · exact ⟨_, e⟩

theorem reg_storeWord_other (s : State) {a b : Nat} (w : Nat) (h : b ≠ a) : (s.storeWord a w).reg b = s.reg b := by
  obtain e | ⟨x, e⟩ := s.storeWord_eq_setReg_or a w
  · rw [e]
  · rw [e, reg_setReg_other s x h]

@[simp] theorem resets_storeWord (s : State) (a w : Nat) : (s.storeWord a w).resets = s.resets := by
  obtain ⟨r, e⟩ := s.storeWord_beside a w
  rw [e]

@[simp] theorem ticks_storeWord (s : State) (a w : Nat) : (s.storeWord a w).ticks = s.ticks := by
  obtain ⟨r, e⟩ := s.storeWord_beside a w
  rw [e]

@[simp] theorem nvm_storeWord (s : State) (a w : Nat) : (s.storeWord a w).nvm = s.nvm := by
  obtain ⟨r, e⟩ := s.storeWord_beside a w
  rw [e]

/-! ### The outcomes (R20) -/

/-- The request is accepted: SEQ counts and RESULT reads 0. -/
def accepted (s : State) : State := (s.wrapUp GL_BLK_RST_STAT_SEQ).resetOutcome 0

/-- The request of a tiller is held. -/
def holdTiller (s : State) (i : Nat) : State :=
  { s.accepted with resets := { s.resets with pend := some (1, i), pendAt := s.ticks, pendByFault := false } }.mark GL_BLK_RST_STAT_PEND

@[simp] theorem resets_holdTiller (s : State) (i : Nat) :
    (s.holdTiller i).resets = { s.resets with pend := some (1, i), pendAt := s.ticks, pendByFault := false } := rfl

theorem get_resetOutcome (s : State) {n : Nat} (h : n < 16) : (s.resetOutcome n).get GL_BLK_RST_STAT_RESULT = n :=
  (get_put_same s GL_BLK_RST_STAT_RESULT n (by decide) (by decide)).trans (Nat.mod_eq_of_lt h)

theorem active_accepted (s : State) (t : Nat) : s.accepted.active t = s.active t := by
  have hreg : s.accepted.reg (TL_SEQ_STAT t) = s.reg (TL_SEQ_STAT t) := by
    have hne : TL_SEQ_STAT t ≠ GL_BLK_RST_STAT := by unfold TL_SEQ_STAT tlBase GL_BLK_RST_STAT; omega
    rw [State.accepted, State.resetOutcome, reg_put_other _ _ _ hne, reg_wrapUp_other _ _ hne]
  have hget : s.accepted.get (TL_SEQ_STAT_STATE t) = s.get (TL_SEQ_STAT_STATE t) := congrArg (fun w : Word => bits w.toNat 2 0) hreg
  rw [State.active, hget, State.active]

/-- A block that exists, of a free unit, whose tillers have stopped. -/
theorem blockReset_free {s : State} {scope index : Nat} (h4 : scope < 4) (hi : index < scopeUnits scope) (hb : s.resets.busy = none)
    (hp : (scopeTillers scope index).any s.active = false) : s.blockReset scope index = s.accepted.startReset scope index false := by
  have hscope : ¬4 ≤ scope := by omega
  have hindex : ¬scopeUnits scope ≤ index := by omega
  simp [State.blockReset, State.requestReset, hscope, hindex, hb, hp, State.accepted, show scope ≠ 4 by omega]

/-- A tiller request meets a reaction of its own cycle to its scope, which runs as b or is held. -/
def JoinsReaction (s : State) (b : Nat × Nat) (i : Nat) : Prop :=
  (b = (1, i) ∧ s.resets.at_ = s.ticks ∧ s.resets.byFault = true) ∨
    (s.resets.pend = some (1, i) ∧ s.resets.pendAt = s.ticks ∧ s.resets.pendByFault = true)

section busy
variable {s : State} {b : Nat × Nat} {i : Nat} (hi : i < 64) (hb : s.resets.busy = some b)
include hi hb

/-- A busy unit decides a tiller request in this order. -/
theorem blockReset_tiller_busy (h : ¬s.JoinsReaction b i) : s.blockReset 1 i =
    if insideScope (1, i) b then ((s.wrapUp GL_BLK_RST_STAT_SEQ).resetOutcome 4).bump GL_BLK_RST_STAT_MERGE_CNT
    else if s.resets.pend.isSome then s.resetOutcome 5
    else if insideScope b (1, i) then s.accepted.startReset 1 i false
    else s.holdTiller i := by
  obtain ⟨h1, h2⟩ := not_or.1 h
  have hindex : ¬scopeUnits 1 ≤ i := Nat.not_le.2 hi
  have hrun : (decide (b = (1, i)) && decide (s.resets.at_ = s.ticks) && s.resets.byFault != false) = false := by simpa using h1
  have hheld : (decide (s.resets.pend = some (1, i)) && decide (s.resets.pendAt = s.ticks) && s.resets.pendByFault != false) = false := by simpa using h2
  rw [State.blockReset, if_pos (by decide), State.requestReset, if_neg (by decide), if_neg hindex, hb]
  simp only [hrun, hheld, scopeTillers, List.any_nil, Bool.false_eq_true, if_false]
  split_ifs <;> rfl

theorem blockReset_tiller_joins (h : s.JoinsReaction b i) : s.blockReset 1 i = s.accepted := by
  have hindex : ¬scopeUnits 1 ≤ i := Nat.not_le.2 hi
  rw [State.blockReset, if_pos (by decide), State.requestReset, if_neg (by decide), if_neg hindex, hb]
  obtain ⟨rfl, hat, hf⟩ | ⟨hp, hat, hf⟩ := h
  · simp [hat, hf, State.accepted]
  · simp [hp, hat, hf, State.accepted]

end busy

/-! ### The reset that starts -/

theorem on_startReset (s : State) (scope index : Nat) (fault : Bool) : (s.startReset scope index fault).on GL_BLK_RST_STAT_BUSY = true :=
  on_mark _ _ (by decide) (by decide)

/-- A tiller reset leaves RESULT as it stands. -/
theorem get_result_startReset_tiller (s : State) (i : Nat) (fault : Bool) :
    (s.startReset 1 i fault).get GL_BLK_RST_STAT_RESULT = s.get GL_BLK_RST_STAT_RESULT := by
  have hstat : (s.tillerReset i).reg GL_BLK_RST_STAT = s.reg GL_BLK_RST_STAT := (Keeps.refl s).tillerReset (.reg GL_BLK_RST_STAT) (by decide : 0x44 < 0x48)
  exact (get_put_beside (f := GL_BLK_RST_STAT_BUSY) (g := GL_BLK_RST_STAT_RESULT) _ 1 (by decide) (by decide) rfl (.inl (by decide))).trans
    (congrArg (fun w : Word => bits w.toNat 27 24) hstat)

/-! ### Pins (R8, R19) -/

theorem reg_foldl_safeWord (s : State) (l : List Nat) (b : Nat) :
    (l.foldl (fun s a => s.setReg a (s.safeWord a)) s).reg b = if b ∈ l then s.safeWord b else s.reg b := by
  induction l generalizing s with
  | nil => rfl
  | cons a r ih =>
    have hsafe : (s.setReg a (s.safeWord a)).safeWord b = s.safeWord b := rfl
    rw [List.foldl_cons, ih, hsafe, reg_setReg]
    by_cases hr : b ∈ r
    · simp [hr]
    · by_cases ha : b = a
      · simp [ha]
      · simp [hr, ha]

theorem safeWord_of_not_loaded {s : State} (h : s.nvm.loaded = 0) (a : Nat) : s.safeWord a = resetWord a := if_pos h

/-- A register that was reset takes its NVM fields where it has some. -/
theorem reg_loadSafe (s : State) (l : List Nat) {b : Nat} (hb : s.reg b = resetWord b) : (s.loadSafe l).reg b = if b ∈ l then s.safeWord b else resetWord b := by
  unfold State.loadSafe
  split
  · next h => rw [safeWord_of_not_loaded h, ite_self, hb]
  · rw [reg_foldl_safeWord, hb]

theorem safeWord_congr {s t : State} (h : t.nvm = s.nvm) (a : Nat) : t.safeWord a = s.safeWord a := by
  rw [State.safeWord, h, State.safeWord]

theorem safeWord_accepted (s : State) (a : Nat) : s.accepted.safeWord a = s.safeWord a := rfl

theorem safeWord_clearRegs (s : State) (p : Nat → Bool) (a : Nat) : (s.clearRegs p).safeWord a = s.safeWord a := rfl

/-- A pin's registers after its reset. -/
theorem reg_pinReset (s : State) {g a : Nat} (hg : g < 512) (ha : within a (pnBase g) 0x100 = true) :
    (s.pinReset g).reg a = if a ∈ pinSafeRegs g then s.safeWord a else resetWord a := by
  have hnvm : ((s.abandonRun (g / 64) true).pinSafe g s.now).nvm = s.nvm := (Keeps.refl s).abandonRun.pinSafe .nvm trivial
  have hreset := reg_clearRegs ((s.abandonRun (g / 64) true).pinSafe g s.now) (fun a => within a (pnBase g) 0x100) a
  rw [if_pos ha] at hreset
  exact ((Keeps.refl _).drainAll hg (.reg a) ha).trans ((reg_loadSafe _ (pinSafeRegs g) hreset).trans (by rw [safeWord_clearRegs, safeWord_congr hnvm]))

theorem reg_startReset_pin (s : State) {g a : Nat} (hg : g < 512) (fault : Bool) (ha : within a (pnBase g) 0x100 = true) :
    (s.startReset 0 g fault).reg a = if a ∈ pinSafeRegs g then s.safeWord a else resetWord a := by
  have hne : a ≠ GL_BLK_RST_STAT := by
    have hin := of_decide_eq_true ha
    unfold pnBase at hin
    unfold GL_BLK_RST_STAT
    omega
  exact (reg_mark_other _ GL_BLK_RST_STAT_BUSY hne).trans (reg_pinReset s hg ha)

/-! ### Sheaves (R19) -/

/-- The context slice reads 0 after a sheaf reset. -/
theorem byteAt_sheafReset (s : State) {u a : Nat} (ha : within a (ctxBase u) 0x40000 = true) : (s.sheafReset u).byteAt a = 0 := by
  have hmem : (s.sheafReset u).byteAt a =
      storeGet (fun _ => 0) (storeKeep (fun a => !within a (ctxBase u) 0x40000) ((s.threshReset (2 * u)).threshReset (2 * u + 1)).mem) a := rfl
  rw [hmem, storeGet_storeKeep, ha]
  rfl

theorem byteAt_startReset_sheaf (s : State) {u a : Nat} (fault : Bool) (ha : within a (ctxBase u) 0x40000 = true) : (s.startReset 2 u fault).byteAt a = 0 := by
  have hmark (q : State) (r : Resets) : ({ q with resets := r }.mark GL_BLK_RST_STAT_BUSY).byteAt a = q.byteAt a := rfl
  exact (hmark (s.sheafReset u) _).trans (byteAt_sheafReset s ha)

/-! ### The chip (R447, R448) -/

/-- The core domain starts afresh, with the clock going on. -/
theorem freshCore_time (s : State) (keep : Nat → Bool) :
    (s.freshCore keep).ticks = s.ticks ∧ (s.freshCore keep).count = s.count ∧ (s.freshCore keep).slots = [] ∧ (s.freshCore keep).resets = Resets.reset := by
  obtain ⟨q, hq, ht, hc, hs, hr⟩ : ∃ q, Keeps Part.ofTime q (s.freshCore keep) ∧ q.ticks = s.ticks ∧ q.count = s.count ∧
      q.slots = [] ∧ q.resets = Resets.reset :=
    ⟨_, ((Keeps.refl _).foldl _ fun q t => (Keeps.refl q).foldl _ fun q h => (Keeps.refl q).ifFalse (Keeps.refl q).setSup).put id, rfl, rfl, rfl, rfl⟩
  obtain ⟨hticks, hcount⟩ := hq .clock trivial
  exact ⟨hticks.trans ht, hcount.trans hc, (hq .slots trivial).trans hs, (hq .resets trivial).trans hr⟩

theorem chipReset_time (s : State) (code : Nat) :
    (s.chipReset code).ticks = s.ticks ∧ (s.chipReset code).count = s.count ∧ (s.chipReset code).slots = [] ∧ (s.chipReset code).resets = Resets.reset := by
  have hdrop : Keeps Part.ofTime s (allTillers.foldl (fun q t => (q.dropOutput t 0).dropOutput t 1) s) :=
    (Keeps.refl s).foldl _ fun q _ => (Keeps.refl q).dropOutput.dropOutput
  have hafter : Keeps Part.ofTime ((allTillers.foldl (fun q t => (q.dropOutput t 0).dropOutput t 1) s).freshCore alwaysOn) (s.chipReset code) :=
    (((((Keeps.refl _).collectorAndPower.put id).put id).put id).put id).ifTrue (Keeps.refl _).trainPorts
  obtain ⟨hticks, hcount⟩ := hdrop .clock trivial
  obtain ⟨ht, hc, hs, hr⟩ := freshCore_time (allTillers.foldl (fun q t => (q.dropOutput t 0).dropOutput t 1) s) alwaysOn
  obtain ⟨kticks, kcount⟩ := hafter .clock trivial
  exact ⟨kticks.trans (ht.trans hticks), kcount.trans (hc.trans hcount), (hafter .slots trivial).trans hs, (hafter .resets trivial).trans hr⟩

/-- Chip scope resets the part unless a request is held. -/
theorem blockReset_chip {s : State} (h : s.resets.pend = none) (i : Nat) : s.blockReset 4 i = s.chipReset 7 := by
  simp [State.blockReset, h]

theorem blockReset_chip_held {s : State} (h : s.resets.pend ≠ none) (i : Nat) : s.blockReset 4 i = s.resetOutcome 5 := by
  simp [State.blockReset, Option.isSome_iff_ne_none.2 h]

/-! ### The end of a reset -/

theorem blockResetDone_alone {s : State} (hb : s.resets.busy ≠ none) (hp : s.resets.pend = none) :
    s.blockResetDone = { s with resets := Resets.reset }.put GL_BLK_RST_STAT_BUSY 0 := by
  simp [State.blockResetDone, Option.isNone_iff_eq_none, hb, hp]

/-! ### Requests through a view that no rule limits (R18, R20) -/

theorem joinsReaction_storeWord (s : State) (a w : Nat) (b : Nat × Nat) (i : Nat) : (s.storeWord a w).JoinsReaction b i ↔ s.JoinsReaction b i := by
  simp [JoinsReaction]

section requests
variable {s : State} {v : View} {i : BitVec 9} (hr : s.ready = true) (hv : directView v = true)
include hr hv

theorem regWrite_blkRst_free {scope : Nat} (h4 : scope < 4) (hi : i.toNat < scopeUnits scope) (hb : s.resets.busy = none)
    (hp : (scopeTillers scope i.toNat).any (s.storeWord GL_BLK_RST (blkRstWord scope i.toNat)).accepted.active = false) :
    s.regWrite v GL_BLK_RST (blkRstWord scope i.toNat) =
      (s.storeWord GL_BLK_RST (blkRstWord scope i.toNat)).accepted.startReset scope i.toNat false := by
  rw [funext (active_accepted _)] at hp
  rw [regWrite_blkRst i hr hv (by omega), blockReset_free h4 hi (by rw [resets_storeWord, hb]) hp]

theorem regWrite_blkRst_joins {b : Nat × Nat} (hi : i.toNat < 64) (hb : s.resets.busy = some b) (h : s.JoinsReaction b i.toNat) :
    s.regWrite v GL_BLK_RST (blkRstWord 1 i.toNat) = (s.storeWord GL_BLK_RST (blkRstWord 1 i.toNat)).accepted := by
  rw [regWrite_blkRst i hr hv (by decide), blockReset_tiller_joins hi (by rw [resets_storeWord, hb]) ((joinsReaction_storeWord ..).2 h)]

theorem regWrite_blkRst_busy {b : Nat × Nat} (hi : i.toNat < 64) (hb : s.resets.busy = some b) (h : ¬s.JoinsReaction b i.toNat) :
    s.regWrite v GL_BLK_RST (blkRstWord 1 i.toNat) =
      let q := s.storeWord GL_BLK_RST (blkRstWord 1 i.toNat)
      if insideScope (1, i.toNat) b then ((q.wrapUp GL_BLK_RST_STAT_SEQ).resetOutcome 4).bump GL_BLK_RST_STAT_MERGE_CNT
      else if s.resets.pend.isSome then q.resetOutcome 5
      else if insideScope b (1, i.toNat) then q.accepted.startReset 1 i.toNat false
      else q.holdTiller i.toNat := by
  rw [regWrite_blkRst i hr hv (by decide), blockReset_tiller_busy hi (by rw [resets_storeWord, hb]) (mt (joinsReaction_storeWord ..).1 h), resets_storeWord]

theorem regWrite_blkRst_chip (hp : s.resets.pend = none) :
    s.regWrite v GL_BLK_RST (blkRstWord 4 i.toNat) = (s.storeWord GL_BLK_RST (blkRstWord 4 i.toNat)).chipReset 7 := by
  rw [regWrite_blkRst i hr hv (by decide), blockReset_chip (by rw [resets_storeWord, hp])]

theorem regWrite_blkRst_chip_held (hp : s.resets.pend ≠ none) :
    s.regWrite v GL_BLK_RST (blkRstWord 4 i.toNat) = (s.storeWord GL_BLK_RST (blkRstWord 4 i.toNat)).resetOutcome 5 := by
  rw [regWrite_blkRst i hr hv (by decide), blockReset_chip_held (by rw [resets_storeWord]; exact hp)]

end requests

/-- RESULT of a request that is absorbed. -/
theorem get_result_absorbed (s : State) :
    (((s.wrapUp GL_BLK_RST_STAT_SEQ).resetOutcome 4).bump GL_BLK_RST_STAT_MERGE_CNT).get GL_BLK_RST_STAT_RESULT = 4 :=
  (get_put_beside (f := GL_BLK_RST_STAT_MERGE_CNT) (g := GL_BLK_RST_STAT_RESULT) _ _ (by decide) (by decide) rfl (.inr (by decide))).trans
    (get_resetOutcome _ (by decide))

end State

/-- Settles O12: each request by what the unit makes of it, and what the reset that starts leaves behind. -/
theorem blockResetsRun : Obligations.BlockResetsRun := by
  refine ⟨fun v i s hr hv => ⟨?_, fun hp => ?_, fun b hb hi => ?_, fun hp => ?_⟩, fun s hb hp => ?_⟩
  · intro u hb
    refine ⟨fun hp => ?_, fun hi => ?_, fun hi hp => ?_, fun hi => ?_⟩
    · have hpin : (State.scopeTillers 0 i.toNat).any (u 0).active = false := by simpa [State.scopeTillers] using hp
      refine ⟨_, congrArg Host.Outcome.next (State.regWrite_blkRst_free hr hv (by decide) i.isLt hb hpin), rfl, rfl, State.on_startReset .., fun a ha => ?_⟩
      rw [State.reg_startReset_pin _ i.isLt _ ha, State.safeWord_accepted, State.safeWord_congr (State.nvm_storeWord ..)]
    · exact ⟨_, congrArg Host.Outcome.next (State.regWrite_blkRst_free hr hv (by decide) hi hb rfl), rfl, rfl, State.on_startReset ..⟩
    · have hsheaf : (State.scopeTillers 2 i.toNat).any (u 2).active = false := by simpa [State.scopeTillers] using hp
      exact ⟨_, congrArg Host.Outcome.next (State.regWrite_blkRst_free hr hv (by decide) hi hb hsheaf), rfl, rfl, fun a ha => State.byteAt_startReset_sheaf _ _ ha⟩
    · exact ⟨_, congrArg Host.Outcome.next (State.regWrite_blkRst_free hr hv (by decide) hi hb rfl), rfl, rfl⟩
  · obtain ⟨r, hw⟩ := s.storeWord_beside GL_BLK_RST (blkRstWord 4 i.toNat)
    obtain ⟨hticks, hcount, hslots, hresets⟩ := State.chipReset_time (s.storeWord GL_BLK_RST (blkRstWord 4 i.toNat)) 7
    have hpending := (Steady.chipReset (Steady.refl (s.storeWord GL_BLK_RST (blkRstWord 4 i.toNat))) 7).pending
    exact ⟨_, congrArg Host.Outcome.next (State.regWrite_blkRst_chip hr hv hp), rfl, hpending.trans (by rw [hw]), hticks.trans (by rw [hw]),
      hcount.trans (by rw [hw]), hslots, hresets⟩
  · intro joins
    refine ⟨fun hj => ⟨_, congrArg Host.Outcome.next (State.regWrite_blkRst_joins hr hv hi hb hj), State.resets_storeWord ..,
      State.get_resetOutcome _ (by decide)⟩, fun hj => ?_⟩
    have request := State.regWrite_blkRst_busy hr hv hi hb hj
    refine ⟨fun hin => ?_, fun hin hp => ?_, fun hin hp hout => ?_, fun hin hp hout => ?_⟩
    · refine ⟨_, congrArg Host.Outcome.next (request.trans (if_pos hin)), State.resets_storeWord .., State.get_result_absorbed _, fun a ha hs => ?_⟩
      rw [State.reg_bump_other _ _ hs, State.resetOutcome, State.reg_put_other _ _ _ hs, State.reg_wrapUp_other _ _ hs, State.reg_storeWord_other s _ ha]
    · simp only [hin, Option.isSome_iff_ne_none.2 hp, Bool.false_eq_true, if_false, if_true] at request
      exact ⟨_, congrArg Host.Outcome.next request, State.resets_storeWord .., State.get_resetOutcome _ (by decide)⟩
    · simp only [hin, hp, hout, Option.isSome_none, Bool.false_eq_true, if_false, if_true] at request
      exact ⟨_, congrArg Host.Outcome.next request, rfl, (State.get_result_startReset_tiller ..).trans (State.get_resetOutcome _ (by decide))⟩
    · simp only [hin, hp, hout, Option.isSome_none, Bool.false_eq_true, if_false] at request
      exact ⟨_, congrArg Host.Outcome.next request, by rw [State.resets_holdTiller, State.resets_storeWord, hb], by rw [State.resets_holdTiller],
        State.on_mark _ _ (by decide) (by decide)⟩
  · refine ⟨_, congrArg Host.Outcome.next (State.regWrite_blkRst_chip_held hr hv hp), State.get_resetOutcome _ (by decide), State.resets_storeWord ..,
      fun a ha hs => ?_⟩
    rw [State.resetOutcome, State.reg_put_other _ _ _ hs, State.reg_storeWord_other s _ ha]
  · refine ⟨_, congrArg Host.Outcome.next (State.blockResetDone_alone hb hp), rfl, ?_, fun a ha => State.reg_put_other _ _ _ ha⟩
    rw [State.on, State.get_put_same _ GL_BLK_RST_STAT_BUSY 0 (by decide) (by decide)]
    rfl

end Sys2Proof.Machine
end

section
/-! SUPPORT. Fields beside each other, and what a signal to the host leaves as it stands. -/

namespace Sys2Proof

/-- The field has bits, all of them inside a register word. -/
def Field.fits (f : Field) : Bool := Nat.ble f.lo f.hi && Nat.ble f.hi 31

/-- The field shares no bit with another of the same register. -/
def Field.apart (f g : Field) : Bool := Nat.blt f.hi g.lo || Nat.blt g.hi f.lo

end Sys2Proof

namespace Sys2Proof.Machine.State

/-! ### Fields -/

theorem lo_le_hi_of_fits {f : Field} (h : f.fits = true) : f.lo ≤ f.hi ∧ f.hi < 32 := by
  obtain ⟨h1, h2⟩ := (Bool.and_eq_true _ _).mp h
  exact ⟨Nat.le_of_ble_eq_true h1, Nat.lt_succ_of_le (Nat.le_of_ble_eq_true h2)⟩

theorem get_put_of_fits (s : State) {f : Field} (v : Nat) (h : f.fits = true) : (s.put f v).get f = v % 2 ^ (f.hi + 1 - f.lo) :=
  get_put_same s f v (lo_le_hi_of_fits h).1 (lo_le_hi_of_fits h).2

theorem on_put_of_fits (s : State) {f : Field} (v : Nat) (h : f.fits = true) : (s.put f v).on f = (v % 2 ^ (f.hi + 1 - f.lo) != 0) := by
  rw [State.on, get_put_of_fits s v h]

theorem on_mark_of_fits (s : State) {f : Field} (h : f.fits = true) : (s.mark f).on f = true :=
  on_mark s f (lo_le_hi_of_fits h).1 (lo_le_hi_of_fits h).2

theorem get_put_apart (s : State) {f g : Field} (v : Nat) (hf : f.fits = true) (ha : g.addr = f.addr) (h : g.apart f = true) :
    (s.put f v).get g = s.get g := by
  refine get_put_beside s v (lo_le_hi_of_fits hf).1 (lo_le_hi_of_fits hf).2 ha ?_
  rcases (Bool.or_eq_true _ _).mp h with h | h
  · exact .inl (Nat.le_of_ble_eq_true h)
  · exact .inr (Nat.le_of_ble_eq_true h)

/-- A field of a register that is not written. -/
theorem get_eq_of_reg {s t : State} {f : Field} (h : t.reg f.addr = s.reg f.addr) : t.get f = s.get f := by
  rw [State.get, h, State.get]

theorem on_eq_of_get {s t : State} {f : Field} (h : t.get f = s.get f) : t.on f = s.on f := by
  rw [State.on, h, State.on]

/-! ### Sources of interrupts (R413, R415) -/

/-- A message to the host is put out or stays pending: registers and the host's messages alone change. -/
theorem sendVector_beside (s : State) (v : Nat) : ∃ r o, s.sendVector v = { s with regs := r, hostOut := o } := by
  unfold State.sendVector
  split_ifs
  · exact ⟨_, _, rfl⟩
  · exact ⟨_, _, rfl⟩
  · exact ⟨_, _, rfl⟩

/-- Of the registers, one that holds pending MSI-X bits. -/
theorem reg_sendVector (s : State) {v b : Nat} (hv : v < 64) (h0 : b ≠ msixPending 0) (h1 : b ≠ msixPending 1) : (s.sendVector v).reg b = s.reg b := by
  have hword : msixPending (v / 32) = msixPending 0 ∨ msixPending (v / 32) = msixPending 1 := by
    unfold msixPending
    omega
  unfold State.sendVector
  split_ifs
  · rfl
  · refine reg_setReg_other s _ ?_
    rcases hword with e | e <;> rwa [e]
  · rfl

theorem foldl_beside {β : Type} {f : State → β → State} (hf : ∀ s x, ∃ r o, f s x = { s with regs := r, hostOut := o }) (s : State) (l : List β) :
    ∃ r o, l.foldl f s = { s with regs := r, hostOut := o } := by
  induction l generalizing s with
  | nil => exact ⟨_, _, rfl⟩
  | cons x l ih =>
    obtain ⟨r, o, e⟩ := hf s x
    obtain ⟨r', o', e'⟩ := ih (f s x)
    exact ⟨r', o', by rw [List.foldl_cons, e', e]⟩

theorem reg_foldl {β : Type} {f : State → β → State} {b : Nat} (l : List β) (hf : ∀ s, ∀ x ∈ l, (f s x).reg b = s.reg b) (s : State) :
    (l.foldl f s).reg b = s.reg b := by
  induction l generalizing s with
  | nil => rfl
  | cons x l ih => exact (ih (fun s y hy => hf s y (List.mem_cons_of_mem _ hy)) _).trans (hf s x (List.mem_cons_self ..))

theorem sendVectors_beside (s : State) (m : Nat) : ∃ r o, s.sendVectors m = { s with regs := r, hostOut := o } := by
  refine foldl_beside (fun s v => ?_) s _
  split
  · exact s.sendVector_beside v
  · exact ⟨_, _, rfl⟩

theorem reg_sendVectors (s : State) (m : Nat) {b : Nat} (h0 : b ≠ msixPending 0) (h1 : b ≠ msixPending 1) : (s.sendVectors m).reg b = s.reg b := by
  refine reg_foldl _ (fun s v hv => ?_) s
  split
  · exact reg_sendVector s (List.mem_range.1 hv) h0 h1
  · rfl

theorem source_beside (s : State) (n : Nat) : ∃ r o, s.source n = { s with regs := r, hostOut := o } := by
  unfold State.source State.vectorsRisen
  split
  · exact ⟨_, _, rfl⟩
  · obtain ⟨r, o, e⟩ := (s.putBit (EV_PEND_PEND (n / 32)) (n % 32) true).sendVectors_beside
      ((s.putBit (EV_PEND_PEND (n / 32)) (n % 32) true).vectorMask &&& (s.vectorMask ^^^ ((s.putBit (EV_PEND_PEND (n / 32)) (n % 32) true).vectorMask ||| s.vectorMask)))
    exact ⟨r, o, e⟩

/-- A source sets its pending bit, and the pending bits of vectors that are masked. -/
theorem reg_source (s : State) (n : Nat) {b : Nat} (he : b ≠ EV_PEND (n / 32)) (h0 : b ≠ msixPending 0) (h1 : b ≠ msixPending 1) :
    (s.source n).reg b = s.reg b := by
  have hp := reg_putBit_other s (EV_PEND_PEND (n / 32)) (n % 32) true he
  unfold State.source State.vectorsRisen
  split
  · exact hp
  · exact (reg_sendVectors _ _ h0 h1).trans hp

/-- Registers below the event latches are none of them. -/
theorem reg_source_low (s : State) (n : Nat) {b : Nat} (h : b < 0x5000) : (s.source n).reg b = s.reg b :=
  reg_source s n (by unfold EV_PEND; omega) (by unfold msixPending; omega) (by unfold msixPending; omega)

theorem get_source_low (s : State) (n : Nat) {f : Field} (h : f.addr < 0x5000) : (s.source n).get f = s.get f := get_eq_of_reg (reg_source_low s n h)

section source
variable (s : State) (n : Nat)

@[simp] theorem ticks_source : (s.source n).ticks = s.ticks := by obtain ⟨r, o, e⟩ := s.source_beside n; rw [e]
@[simp] theorem slots_source : (s.source n).slots = s.slots := by obtain ⟨r, o, e⟩ := s.source_beside n; rw [e]
@[simp] theorem rdvs_source : (s.source n).rdvs = s.rdvs := by obtain ⟨r, o, e⟩ := s.source_beside n; rw [e]
@[simp] theorem tillers_source : (s.source n).tillers = s.tillers := by obtain ⟨r, o, e⟩ := s.source_beside n; rw [e]

end source

/-! ### The clock -/

/-- Only the tick and the count move. -/
theorem advTo_beside (s : State) (k : Nat) : ∃ c, s.advTo k = { s with ticks := max s.ticks k, count := c } := by
  unfold State.advTo
  split
  · next h => exact ⟨_, by rw [Nat.max_eq_right h.le]⟩
  · next h => exact ⟨s.count, by rw [Nat.max_eq_left (Nat.le_of_not_lt h)]⟩

section advTo
variable (s : State) (k : Nat)

@[simp] theorem regs_advTo : (s.advTo k).regs = s.regs := by obtain ⟨c, e⟩ := s.advTo_beside k; rw [e]
@[simp] theorem get_advTo (f : Field) : (s.advTo k).get f = s.get f := get_eq_of_reg (reg_advTo ..)
@[simp] theorem on_advTo (f : Field) : (s.advTo k).on f = s.on f := on_eq_of_get (get_advTo ..)
@[simp] theorem sync_advTo : (s.advTo k).sync = s.sync := by obtain ⟨c, e⟩ := s.advTo_beside k; rw [e]
@[simp] theorem holds_advTo : (s.advTo k).holds = s.holds := by obtain ⟨c, e⟩ := s.advTo_beside k; rw [e]

end advTo

end Sys2Proof.Machine.State
end

section
/-! SUPPORT. The rachis count (02_rachis_count.md): what a SYNC frame and a command come to, and O13 settled. -/

namespace Sys2Proof.Machine

namespace State

/-! ### States of the receiver (R30) -/

section enterSync
variable (s : State) (st : Nat)


theorem get_state_enterSync (h : st < 4) : (s.enterSync st).get GL_SYNC_STAT_STATE = st := by
  rw [State.enterSync, get_put_apart _ _ (by rfl) (by rfl) (by rfl), get_put_of_fits _ _ (by rfl)]
  exact Nat.mod_eq_of_lt h

theorem on_unsynced_enterSync : (s.enterSync st).on GL_SYNC_STAT_UNSYNCED = decide (2 ≤ st) := by
  rw [State.enterSync, on_put_of_fits _ _ (by rfl)]
  unfold b2n
  by_cases h : 2 ≤ st <;> simp [h, GL_SYNC_STAT_UNSYNCED]

end enterSync

theorem inCore_eq (s : State) (f : State → State) : s.inCore f = f s ∨ s.inCore f = s := by
  unfold State.inCore
  split
  · exact .inl rfl
  · exact .inr rfl

/-- What an update leaves, it leaves as well where the core may not see it. -/
theorem apply_inCore {β : Type} {s : State} (p : State → β) {f : State → State} (h : p (f s) = p s) : p (s.inCore f) = p s := by
  rcases s.inCore_eq f with e | e
  · rw [e, h]
  · rw [e]

/-- Losing the lock enters LOST and marks the loss; the START_AT commands it cancels are another register's concern. -/
theorem loseSync_effect (s : State) : s.loseSync.get GL_SYNC_STAT_STATE = 2 ∧ s.loseSync.on GL_SYNC_STAT_SYNC_LOST = true ∧ s.loseSync.ticks = s.ticks := by
  have hcore : (((s.enterSync 2).mark GL_SYNC_STAT_SYNC_LOST).inCore (fun q => q.source 1240)).reg GL_SYNC_STAT =
      ((s.enterSync 2).mark GL_SYNC_STAT_SYNC_LOST).reg GL_SYNC_STAT := apply_inCore (fun q => q.reg GL_SYNC_STAT) (reg_source_low _ _ (by decide))
  have hclock : (((s.enterSync 2).mark GL_SYNC_STAT_SYNC_LOST).inCore (fun q => q.source 1240)).ticks = s.ticks :=
    apply_inCore (s := (s.enterSync 2).mark GL_SYNC_STAT_SYNC_LOST) (f := fun q => q.source 1240) State.ticks (ticks_source ..)
  obtain ⟨hreg, hticks⟩ : s.loseSync.reg GL_SYNC_STAT = ((s.enterSync 2).mark GL_SYNC_STAT_SYNC_LOST).reg GL_SYNC_STAT ∧ s.loseSync.ticks = s.ticks := by
    unfold State.loseSync
    dsimp only
    split
    · exact ⟨(reg_source_low _ _ (by decide)).trans ((reg_mark_other _ _ (by decide)).trans hcore), (ticks_source ..).trans hclock⟩
    · exact ⟨hcore, hclock⟩
  refine ⟨?_, ?_, hticks⟩
  · rw [get_eq_of_reg (f := GL_SYNC_STAT_STATE) hreg, State.mark, get_put_apart _ _ (by rfl) (by rfl) (by rfl), get_state_enterSync _ _ (by decide)]
  · rw [on_eq_of_get (get_eq_of_reg (f := GL_SYNC_STAT_SYNC_LOST) hreg), on_mark_of_fits _ (by rfl)]

/-! ### Bad frames (R29, R30) -/

/-- A bad frame before the third in a row counts. -/
theorem badFrame_counted {s : State} (h1 : s.get GL_SYNC_STAT_STATE = 1) (hb : s.get GL_SYNC_STAT_BADRUN < 2) :
    s.badFrame.get GL_SYNC_STAT_STATE = 1 ∧ s.badFrame.get GL_SYNC_STAT_BADRUN = s.get GL_SYNC_STAT_BADRUN + 1 ∧ s.badFrame.ticks = s.ticks := by
  have hrun : min 3 (s.get GL_SYNC_STAT_BADRUN + 1) = s.get GL_SYNC_STAT_BADRUN + 1 := by omega
  have hne : ¬s.get GL_SYNC_STAT_BADRUN + 1 = 3 := by omega
  have e : s.badFrame = (s.put GL_SYNC_STAT_BADRUN (s.get GL_SYNC_STAT_BADRUN + 1)).inCore (·.bump GL_SYNC_CNT_BAD_FRAMES) := by
    simp only [State.badFrame, hrun, hne, decide_false, Bool.and_false, Bool.false_eq_true, if_false]
  have hreg := apply_inCore (s := s.put GL_SYNC_STAT_BADRUN (s.get GL_SYNC_STAT_BADRUN + 1)) (State.reg · GL_SYNC_STAT)
    (f := (·.bump GL_SYNC_CNT_BAD_FRAMES)) (reg_bump_other _ _ (by decide))
  rw [e]
  refine ⟨?_, ?_, apply_inCore State.ticks rfl⟩
  · rw [get_eq_of_reg (f := GL_SYNC_STAT_STATE) hreg, get_put_apart _ _ (by rfl) (by rfl) (by rfl), h1]
  · rw [get_eq_of_reg (f := GL_SYNC_STAT_BADRUN) hreg, get_put_of_fits _ _ (by rfl)]
    exact Nat.mod_eq_of_lt (show _ < 4 by omega)

/-- The third one in a row loses the lock. -/
theorem badFrame_third {s : State} (h1 : s.get GL_SYNC_STAT_STATE = 1) (hb : s.get GL_SYNC_STAT_BADRUN = 2) :
    s.badFrame.get GL_SYNC_STAT_STATE = 2 ∧ s.badFrame.on GL_SYNC_STAT_SYNC_LOST = true ∧ s.badFrame.ticks = s.ticks := by
  have e : s.badFrame = ((s.put GL_SYNC_STAT_BADRUN 3).inCore (·.bump GL_SYNC_CNT_BAD_FRAMES)).loseSync := by
    simp [State.badFrame, h1, hb]
  obtain ⟨hstate, hlost, hticks⟩ := loseSync_effect ((s.put GL_SYNC_STAT_BADRUN 3).inCore (·.bump GL_SYNC_CNT_BAD_FRAMES))
  rw [e]
  exact ⟨hstate, hlost, hticks.trans (apply_inCore State.ticks rfl)⟩

/-! ### Frames in LOCKED (R29) -/

theorem judgeSlot_good {s : State} {tick frame : Nat} (h1 : s.get GL_SYNC_STAT_STATE = 1) (hg : frameGood frame = true)
    (hc : bits frame 111 64 = (s.advTo (tick + 131)).countAt tick) : s.judgeSlot tick frame =
      ((s.advTo (tick + 131)).put GL_SYNC_STAT_BADRUN 0).syncCommand (bits frame 111 64) (bits frame 63 48) (bits frame 47 32) := by
  simp [State.judgeSlot, h1, hg, ← hc]

theorem judgeSlot_bad {s : State} {tick frame : Nat} (h1 : s.get GL_SYNC_STAT_STATE = 1)
    (hb : frameGood frame = false ∨ bits frame 111 64 ≠ (s.advTo (tick + 131)).countAt tick) : s.judgeSlot tick frame = (s.advTo (tick + 131)).badFrame := by
  have hjudge : (frameGood frame && decide (bits frame 111 64 = (s.advTo (tick + 131)).countAt tick)) = false := by
    rcases hb with h | h <;> simp [h]
  simp [State.judgeSlot, h1, hjudge]

/-- A frame that fills one slot is judged by itself, the clock being at its last bit then. -/
theorem takeFrame_locked {s : State} {start frame : Nat} (h1 : s.get GL_SYNC_STAT_STATE = 1) (hslot : s.sync.slot = none) (hc : s.countAt start % 128 = 0) :
    s.takeFrame start frame = (s.judgeSlot start frame).advTo (start + 131) := by
  have hidle : ({ s with sync := { s.sync with slot := none } } : State) = s := by rw [← hslot]
  simp [State.takeFrame, h1, State.takeSlots, hc, State.endSlot, hslot, hidle]

/-! ### Frames in HUNT and LOST (R30, R31) -/

/-- The good frames of the last 128 ticks hold the partner of a pair exactly when the kept ones do. -/
theorem any_recent_eq_find? (l : List (Nat × Nat)) (start c : Nat) :
    (l.filter (fun g => decide (start ≤ g.1 + 128))).any (fun g => g.1 + 128 = start && (g.2 + 128) % 2 ^ 48 = c) =
      (l.find? (fun g => g.1 + 128 = start && (g.2 + 128) % 2 ^ 48 = c)).isSome := by
  rw [List.any_filter, List.isSome_find?]
  refine congrArg (List.any l) (funext fun g => ?_)
  by_cases h : g.1 + 128 = start
  · simp [h]
  · simp [h]

/-- A good frame is the second of a pair, or is kept. -/
theorem takeWindow_good {s : State} {start frame : Nat} (hg : frameGood frame = true) : s.takeWindow start frame =
    let q := (s.advTo (start + 131)).put GL_SYNC_STAT_BADRUN 0
    if (s.sync.goods.find? (fun g => g.1 + 128 = start && (g.2 + 128) % 2 ^ 48 = bits frame 111 64)).isSome then q.takePair start (bits frame 111 64)
    else { q with sync := { q.sync with goods := (start, bits frame 111 64) :: s.sync.goods.filter (fun g => decide (start ≤ g.1 + 128)) } } := by
  have hpre : bits frame 127 112 = 0xF0A5 := by
    simp only [State.frameGood, Bool.and_eq_true, decide_eq_true_eq] at hg
    exact hg.1.1
  simp only [State.takeWindow, hpre, hg, sync_advTo, any_recent_eq_find?, ne_eq, not_true_eq_false, if_false, if_true]

theorem takeFrame_hunting {s : State} {start frame : Nat} (h : s.get GL_SYNC_STAT_STATE = 0 ∨ s.get GL_SYNC_STAT_STATE = 2) :
    s.takeFrame start frame = s.takeWindow start frame := by
  rcases h with h | h <;> simp [State.takeFrame, h]

theorem takeFrame_local {s : State} {start frame : Nat} (h : s.get GL_SYNC_STAT_STATE = 3) : s.takeFrame start frame = s.advTo (start + 131) := by
  simp [State.takeFrame, h]

theorem takePair_hunt {s : State} {tick c : Nat} (h : s.get GL_SYNC_STAT_STATE = 0) : s.takePair tick c = (s.loadCount tick c).enterSync 1 := if_pos h

theorem takePair_lost {s : State} {tick c : Nat} (h : s.get GL_SYNC_STAT_STATE ≠ 0) (hc : c = s.countAt tick ∨ s.allIdle = true) :
    ∃ n, s.takePair tick c = { s with count := n }.enterSync 1 := by
  rw [State.takePair, if_neg h]
  by_cases hcount : c = s.countAt tick
  · exact ⟨s.count, if_pos hcount⟩
  · exact ⟨_, (if_neg hcount).trans (if_pos (hc.resolve_left hcount))⟩

theorem takePair_conflict {s : State} {tick c : Nat} (h : s.get GL_SYNC_STAT_STATE ≠ 0) (hc : c ≠ s.countAt tick) (hi : s.allIdle = false) :
    ∃ y : Sync, y.conflict = some (tick, c) ∧ s.takePair tick c = { (s.mark GL_SYNC_STAT_COUNT_CONFLICT).inCore (·.source 1241) with sync := y } := by
  refine ⟨⟨(tick, c) :: ((s.mark GL_SYNC_STAT_COUNT_CONFLICT).inCore (·.source 1241)).sync.goods.filter (fun g => decide (tick ≤ g.1 + 128)), some (tick, c), none⟩, rfl, ?_⟩
  simp [State.takePair, h, hc, hi]

/-- The run of bad frames says nothing of the tillers. -/
theorem allIdle_put_badrun (s : State) (v : Nat) : (s.put GL_SYNC_STAT_BADRUN v).allIdle = s.allIdle := by
  have hactive : (s.put GL_SYNC_STAT_BADRUN v).active = s.active := by
    funext t
    have hget : (s.put GL_SYNC_STAT_BADRUN v).get (TL_SEQ_STAT_STATE t) = s.get (TL_SEQ_STAT_STATE t) :=
      get_put_other s v (show TL_SEQ_STAT t ≠ GL_SYNC_STAT by unfold TL_SEQ_STAT tlBase GL_SYNC_STAT; omega)
    rw [State.active, hget, State.active]
  rw [State.allIdle, hactive]
  rfl

/-! ### Command words (R33) -/

section commandWord
variable {op group s7 fine : Nat} (ho : op < 16) (hg : group < 16) (hs : s7 < 2) (hf : fine < 128)
include hg hs hf

include ho in
theorem bits_commandWord_op : bits (commandWord op group s7 fine) 15 12 = op := by
  rw [bits, State.commandWord, Nat.shiftRight_eq_div_pow]
  omega

theorem bits_commandWord_group : bits (commandWord op group s7 fine) 11 8 = group := by
  rw [bits, State.commandWord, Nat.shiftRight_eq_div_pow]
  omega

omit hg in
theorem bits_commandWord_s7 : bits (commandWord op group s7 fine) 7 7 = s7 := by
  rw [bits, State.commandWord, Nat.shiftRight_eq_div_pow]
  omega

omit hg hs in
theorem bits_commandWord_fine : bits (commandWord op group s7 fine) 6 0 = fine := by
  rw [bits, State.commandWord, Nat.shiftRight_eq_div_pow]
  omega

end commandWord

/-- The number of a scheduled operation in its command word. -/
def schedCode : SchedOp → Nat
  | .start => 1
  | .halt => 2
  | .clearLate => 4

theorem syncCommand_of_not_takes {s : State} (h : s.takesCommands = false) (c cmd arg : Nat) : s.syncCommand c cmd arg = s := by
  simp [State.syncCommand, h]

theorem syncCommand_zero (s : State) (c arg : Nat) : s.syncCommand c 0 arg = s := by
  simp [State.syncCommand]

/-- START_AT, HALT_AT and CLEAR_LATE go to the schedule. -/
theorem syncCommand_schedule {s : State} (ht : s.takesCommands = true) (op : SchedOp) {group s7 fine : Nat} (hg : group < 16) (hs : s7 < 2)
    (hf : fine < 128) (c arg : Nat) :
    s.syncCommand c (commandWord (schedCode op) group s7 fine) arg = s.scheduleCommand op (schedCode op) c group s7 fine arg := by
  have hne : commandWord (schedCode op) group s7 fine ≠ 0 := by
    unfold State.commandWord
    cases op <;> simp only [schedCode] <;> omega
  have hop : bits (commandWord (schedCode op) group s7 fine) 15 12 = schedCode op := bits_commandWord_op (by cases op <;> decide) hg hs hf
  unfold State.syncCommand
  simp only [ht, hne, hop, bits_commandWord_group hg hs hf, bits_commandWord_s7 hs hf, bits_commandWord_fine hf, Bool.not_true, decide_false, Bool.or_false,
    Bool.false_eq_true, if_false]
  cases op <;> rfl

/-- CAL_HOLD carries its mask where the others carry S7 and the fine count. -/
theorem syncCommand_calHold {s : State} (ht : s.takesCommands = true) {group mask : Nat} (hg : group < 16) (hm : mask < 256) (c arg : Nat) :
    s.syncCommand c (commandWord 3 group (mask / 128) (mask % 128)) arg = s.calHold c group mask arg := by
  have hs : mask / 128 < 2 := by omega
  have hf : mask % 128 < 128 := Nat.mod_lt _ (by decide)
  have hne : commandWord 3 group (mask / 128) (mask % 128) ≠ 0 := by
    unfold State.commandWord
    omega
  have hmask : mask / 128 * 128 + mask % 128 = mask := by omega
  unfold State.syncCommand
  simp only [ht, hne, bits_commandWord_op (show 3 < 16 by decide) hg hs hf, bits_commandWord_group hg hs hf, bits_commandWord_s7 hs hf, bits_commandWord_fine hf,
    hmask, Bool.not_true, decide_false, Bool.or_false, Bool.false_eq_true, if_false]

/-! ### The schedule (R34, R35) -/

/-- The slot a scheduled command asks for. -/
def wantedSlot (op : SchedOp) (c group fine arg : Nat) : Slot := ⟨op, group, (c + 128 * arg + fine) % 2 ^ 48⟩

section schedule
variable {s : State} {op : SchedOp} {code c group s7 fine arg : Nat}

theorem scheduleCommand_rejected (h : s7 ≠ 0 ∨ arg = 0 ∨ notBefore48 (wantedSlot op c group fine arg).target s.view = false) :
    s.scheduleCommand op code c group s7 fine arg = s.rejectCommand := by
  refine if_pos ?_
  rw [Bool.or_eq_true, Bool.or_eq_true, decide_eq_true_eq, decide_eq_true_eq, Bool.not_eq_true']
  exact or_assoc.2 h

variable (ha : arg ≠ 0) (hn : notBefore48 (wantedSlot op c group fine arg).target s.view = true)
include ha hn

/-- A target that is not past is judged by the slots alone. -/
theorem scheduleCommand_accepted : s.scheduleCommand op code c group 0 fine arg =
    let ok := s.acceptCommand (commandWord code group 0 fine) arg
    let held := { ok with slots := s.slots ++ [wantedSlot op c group fine arg] }
    if wantedSlot op c group fine arg ∈ s.slots then ok
    else if 8 ≤ s.slots.length then ((s.rejectCommand).mark GL_SCHED_STAT_FULL).source 1242
    else if op = .start then ((ok.groupTillers group).filter (fun t => ok.on (armBit t))).foldl endInterval held else held := by
  have hok : (decide ((0 : Nat) ≠ 0) || decide (arg = 0) || !notBefore48 (wantedSlot op c group fine arg).target s.view) = false := by
    rw [hn, decide_eq_false ha]
    rfl
  rw [wantedSlot] at hok
  simp only [State.scheduleCommand, hok, Bool.false_eq_true, if_false, List.contains_eq_mem, decide_eq_true_eq, beq_iff_eq, wantedSlot]
  rfl

end schedule

theorem reg_acceptCommand (s : State) (cmd arg : Nat) {a : Nat} (h : a ≠ GL_SYNC_CMD) : (s.acceptCommand cmd arg).reg a = s.reg a := by
  rw [State.acceptCommand, reg_put_other _ _ _ h, reg_put_other _ _ _ h]

theorem get_arg_acceptCommand (s : State) (cmd : Nat) {arg : Nat} (h : arg < 2 ^ 16) : (s.acceptCommand cmd arg).get GL_SYNC_CMD_ARG = arg := by
  rw [State.acceptCommand, get_put_of_fits _ _ (by rfl)]
  exact Nat.mod_eq_of_lt h

/-- CAL_HOLD of group 0 adds one hold for each strip of its mask (R37). -/
theorem holds_calHold (s : State) (c : Nat) (mask : BitVec 8) (arg : Nat) : (s.calHold c 0 mask.toNat arg).holds =
    s.holds ++ ((List.range 8).filter (fun r => mask = 0 || mask.toNat.testBit r)).map (fun r =>
      (⟨r, s.tickOfCount ((c + 192) % 2 ^ 48), s.tickOfCount ((c + 192) % 2 ^ 48) + (if mask = 0 then 0 else 128 * arg)⟩ : Hold)) := by
  have hz : (mask = 0) = (mask.toNat = 0) := propext ⟨fun h => by rw [h]; rfl, fun h => BitVec.eq_of_toNat_eq h⟩
  simp only [hz]
  rfl

theorem reg_calHold (s : State) (c mask arg : Nat) {a : Nat} (h : a ≠ GL_SYNC_CMD) : (s.calHold c 0 mask arg).reg a = s.reg a :=
  reg_acceptCommand s (commandWord 3 0 (mask / 128) (mask % 128)) arg h

@[simp] theorem slots_rejectCommand (s : State) : s.rejectCommand.slots = s.slots := slots_source ..

end State

namespace Keeps

variable {P : Part → Prop} {a s : State} {t : Nat}

/-- The end of a calibration step opens paths of pins (R340). -/
theorem endStep (h : Keeps P a s) (hp : ∀ g, ¬P (.reg (PN_STAT g))) : Keeps P a (s.endStep t) :=
  ite h (h.setCalTl.foldl _ fun s g => (refl s).setPin.put (f := PN_STAT_SELFTEST_ACTIVE g) (hp g))

theorem endInterval (h : Keeps P a s) (hp : ∀ g, ¬P (.reg (PN_STAT g))) : Keeps P a (s.endInterval t) := h.setCalTl.endStep hp

end Keeps

/-! ### The commands of a frame -/

/-- The command of a scheduled operation. -/
def schedInstr : SchedOp → BitVec 48 → Fin 16 → Bool → Fin 128 → BitVec 16 → Instr
  | .start, c, g, s7, fine, arg => .startAt c g s7 fine arg
  | .halt, c, g, s7, fine, arg => .haltAt c g s7 fine arg
  | .clearLate, c, g, s7, fine, arg => .clearLate c g s7 fine arg

theorem exec_schedInstr (op : SchedOp) (c : BitVec 48) (g : Fin 16) (s7 : Bool) (fine : Fin 128) (arg : BitVec 16) (s : State) :
    exec (schedInstr op c g s7 fine arg) s =
      .next (s.syncCommand c.toNat (State.commandWord (State.schedCode op) g.val (b2n s7) fine.val) arg.toNat) := by
  cases op <;> rfl

theorem b2n_lt_two (b : Bool) : b2n b < 2 := by cases b <;> decide

theorem exec_schedInstr_takes {s : State} (ht : s.takesCommands = true) (op : SchedOp) (c : BitVec 48) (g : Fin 16) (s7 : Bool) (fine : Fin 128)
    (arg : BitVec 16) : exec (schedInstr op c g s7 fine arg) s =
      .next (s.scheduleCommand op (State.schedCode op) c.toNat g.val (b2n s7) fine.val arg.toNat) := by
  rw [exec_schedInstr, State.syncCommand_schedule ht op g.isLt (b2n_lt_two s7) fine.isLt]

theorem exec_schedInstr_pllLost {s : State} (h : s.power.pllLost = true) (op : SchedOp) (c : BitVec 48) (g : Fin 16) (s7 : Bool) (fine : Fin 128)
    (arg : BitVec 16) : exec (schedInstr op c g s7 fine arg) s = .next s := by
  rw [exec_schedInstr, State.syncCommand_of_not_takes (by simp [State.takesCommands, h])]

theorem exec_calHold (c : BitVec 48) (g : Fin 16) (mask : BitVec 8) (arg : BitVec 16) (s : State) : exec (.calHold c g mask arg) s =
    .next (s.syncCommand c.toNat (State.commandWord 3 g.val (mask.toNat / 128) (mask.toNat % 128)) arg.toNat) := rfl

theorem exec_syncFrame {s : State} (hv : s.power.vbulk = true) (hl : s.power.pllLost = false) (start : Nat) (frame : BitVec 128) :
    exec (.syncFrame start frame) s = .next (s.takeFrame start frame.toNat) := by
  change execSyncFrame start frame s = _
  simp [execSyncFrame, hv, hl]

section scheduled
variable {s : State} {op : SchedOp} {c : BitVec 48} {group : Fin 16} {fine : Fin 128} {arg : BitVec 16} (ht : s.takesCommands = true) (ha : arg ≠ 0)
  (hn : notBefore48 (State.wantedSlot op c.toNat group.val fine.val arg.toNat).target s.view = true)
include ht ha hn

theorem exec_schedInstr_accepted : exec (schedInstr op c group false fine arg) s = .next (
    let ok := s.acceptCommand (State.commandWord (State.schedCode op) group.val 0 fine.val) arg.toNat
    let held := { ok with slots := s.slots ++ [State.wantedSlot op c.toNat group.val fine.val arg.toNat] }
    if State.wantedSlot op c.toNat group.val fine.val arg.toNat ∈ s.slots then ok
    else if 8 ≤ s.slots.length then ((s.rejectCommand).mark GL_SCHED_STAT_FULL).source 1242
    else if op = .start then ((ok.groupTillers group.val).filter (fun t => ok.on (State.armBit t))).foldl State.endInterval held else held) :=
  (exec_schedInstr_takes ht ..).trans (congrArg _ (State.scheduleCommand_accepted (fun e => ha (BitVec.eq_of_toNat_eq e)) hn))

/-- A command whose like has a slot joins it. -/
theorem exec_schedInstr_joined (hm : State.wantedSlot op c.toNat group.val fine.val arg.toNat ∈ s.slots) :
    ∃ t, exec (schedInstr op c group false fine arg) s = .next t ∧ t.slots = s.slots ∧ ∀ a, a ≠ GL_SYNC_CMD → t.reg a = s.reg a :=
  ⟨_, (exec_schedInstr_accepted ht ha hn).trans (congrArg _ (if_pos hm)), rfl, fun _ h => State.reg_acceptCommand _ _ _ h⟩

variable (hm : State.wantedSlot op c.toNat group.val fine.val arg.toNat ∉ s.slots)
include hm

theorem exec_schedInstr_full (h8 : 8 ≤ s.slots.length) :
    ∃ t, exec (schedInstr op c group false fine arg) s = .next t ∧ t.slots = s.slots ∧ t.on GL_SCHED_STAT_FULL = true ∧
      t.get GL_SYNC_CNT_CMD_REJ = s.rejectCommand.get GL_SYNC_CNT_CMD_REJ := by
  refine ⟨_, (exec_schedInstr_accepted ht ha hn).trans (congrArg _ ((if_neg hm).trans (if_pos h8))), ?_, ?_, ?_⟩
  · exact (State.slots_source ..).trans (State.slots_rejectCommand s)
  · rw [State.on_eq_of_get (State.get_source_low _ _ (by decide)), State.on_mark_of_fits _ (by rfl)]
  · rw [State.get_source_low _ _ (by decide), State.mark, State.get_put_other _ _ (by decide)]

/-- A free slot takes the command. -/
theorem exec_schedInstr_held (h8 : s.slots.length < 8) : ∃ t, exec (schedInstr op c group false fine arg) s = .next t ∧
    t.slots = s.slots ++ [State.wantedSlot op c.toNat group.val fine.val arg.toNat] := by
  refine ⟨_, (exec_schedInstr_accepted ht ha hn).trans (congrArg _ ((if_neg hm).trans (if_neg (Nat.not_le.2 h8)))), ?_⟩
  split
  · exact (Keeps.refl _).foldl (P := Part.ofTime) _ (fun q _ => (Keeps.refl q).endInterval fun _ => id) .slots trivial
  · rfl

/-- Only a START_AT touches anything but the schedule and the last command. -/
theorem exec_schedInstr_held_beside (h8 : s.slots.length < 8) (hop : op ≠ .start) : ∃ t, exec (schedInstr op c group false fine arg) s = .next t ∧
    t.slots = s.slots ++ [State.wantedSlot op c.toNat group.val fine.val arg.toNat] ∧ t.get GL_SYNC_CMD_ARG = arg.toNat ∧
    ∀ a, a ≠ GL_SYNC_CMD → t.reg a = s.reg a :=
  ⟨_, (exec_schedInstr_accepted ht ha hn).trans (congrArg _ ((if_neg hm).trans ((if_neg (Nat.not_le.2 h8)).trans (if_neg hop)))), rfl,
    State.get_arg_acceptCommand s (State.commandWord (State.schedCode op) group.val 0 fine.val) arg.isLt,
    fun _ h => State.reg_acceptCommand s (State.commandWord (State.schedCode op) group.val 0 fine.val) arg.toNat h⟩

end scheduled

theorem exec_schedInstr_rejected {s : State} {op : SchedOp} {c : BitVec 48} {group : Fin 16} {s7 : Bool} {fine : Fin 128} {arg : BitVec 16}
    (ht : s.takesCommands = true)
    (h : s7 = true ∨ arg = 0 ∨ notBefore48 (State.wantedSlot op c.toNat group.val fine.val arg.toNat).target s.view = false) :
    exec (schedInstr op c group s7 fine arg) s = .next s.rejectCommand := by
  rw [exec_schedInstr_takes ht, State.scheduleCommand_rejected]
  exact h.imp (fun e => by rw [e]; decide) (Or.imp_left fun e => by rw [e]; rfl)

/-! ### Frames -/

theorem State.ticks_advTo_of_le {s : State} {k : Nat} (h : s.ticks ≤ k) : (s.advTo k).ticks = k := (State.ticks_advTo s k).trans (Nat.max_eq_right h)

section frames
variable {s : State} {start : Nat} {frame : BitVec 128} (hv : s.power.vbulk = true) (hl : s.power.pllLost = false) (ht : s.ticks ≤ start + 131)
include hv hl ht

/-- In HUNT the second frame of a pair locks the part to its count. -/
theorem exec_syncFrame_hunt_pair (h0 : s.get GL_SYNC_STAT_STATE = 0) (hg : State.frameGood frame.toNat = true)
    (hp : (s.sync.goods.find? (fun g => g.1 + 128 = start && (g.2 + 128) % 2 ^ 48 = bits frame.toNat 111 64)).isSome = true) :
    ∃ t, exec (.syncFrame start frame) s = .next t ∧ t.get GL_SYNC_STAT_STATE = 1 ∧ t.on GL_SYNC_STAT_UNSYNCED = false ∧ t.ticks = start + 131 ∧
      t.count = BitVec.ofNat 48 (bits frame.toNat 111 64 + 131) := by
  have hstate : ((s.advTo (start + 131)).put GL_SYNC_STAT_BADRUN 0).get GL_SYNC_STAT_STATE = 0 := by
    rw [State.get_put_apart _ _ (by rfl) (by rfl) (by rfl), State.get_advTo, h0]
  refine ⟨_, (exec_syncFrame hv hl start frame).trans (congrArg _ ((State.takeFrame_hunting (.inl h0)).trans ((State.takeWindow_good hg).trans
    ((if_pos hp).trans (State.takePair_hunt hstate))))), ?_, ?_, State.ticks_advTo_of_le ht, ?_⟩
  · exact State.get_state_enterSync _ _ (by decide)
  · exact State.on_unsynced_enterSync _ _
  · change BitVec.ofNat 48 (_ + ((s.advTo (start + 131)).ticks - start)) = _
    rw [State.ticks_advTo_of_le ht, Nat.add_sub_cancel_left]

/-- In HUNT a good frame with no partner is kept. -/
theorem exec_syncFrame_hunt_kept (h0 : s.get GL_SYNC_STAT_STATE = 0) (hg : State.frameGood frame.toNat = true)
    (hp : (s.sync.goods.find? (fun g => g.1 + 128 = start && (g.2 + 128) % 2 ^ 48 = bits frame.toNat 111 64)).isSome = false) :
    ∃ t, exec (.syncFrame start frame) s = .next t ∧ t.get GL_SYNC_STAT_STATE = 0 ∧ (start, bits frame.toNat 111 64) ∈ t.sync.goods ∧
      t.ticks = start + 131 ∧ t.count = (s.advTo (start + 131)).count := by
  refine ⟨_, (exec_syncFrame hv hl start frame).trans (congrArg _ ((State.takeFrame_hunting (.inl h0)).trans ((State.takeWindow_good hg).trans
    (if_neg (Bool.eq_false_iff.1 hp))))), ?_, List.mem_cons_self .., State.ticks_advTo_of_le ht, rfl⟩
  change ((s.advTo (start + 131)).put GL_SYNC_STAT_BADRUN 0).get GL_SYNC_STAT_STATE = 0
  rw [State.get_put_apart _ _ (by rfl) (by rfl) (by rfl), State.get_advTo, h0]

section lost
variable (h2 : s.get GL_SYNC_STAT_STATE = 2) (hg : State.frameGood frame.toNat = true)
  (hp : (s.sync.goods.find? (fun g => g.1 + 128 = start && (g.2 + 128) % 2 ^ 48 = bits frame.toNat 111 64)).isSome = true)
include h2 hg hp

omit ht in
theorem exec_syncFrame_lost_pair : exec (.syncFrame start frame) s =
    .next (((s.advTo (start + 131)).put GL_SYNC_STAT_BADRUN 0).takePair start (bits frame.toNat 111 64)) :=
  (exec_syncFrame hv hl start frame).trans (congrArg _ ((State.takeFrame_hunting (.inr h2)).trans ((State.takeWindow_good hg).trans (if_pos hp))))

/-- In LOST a pair that agrees with the part, or finds it idle, locks it. -/
theorem exec_syncFrame_lost_agrees
    (hc : bits frame.toNat 111 64 = (s.advTo (start + 131)).countAt start ∨ (s.advTo (start + 131)).allIdle = true) :
    ∃ t, exec (.syncFrame start frame) s = .next t ∧ t.get GL_SYNC_STAT_STATE = 1 ∧ t.on GL_SYNC_STAT_UNSYNCED = false ∧ t.ticks = start + 131 := by
  have hstate : ((s.advTo (start + 131)).put GL_SYNC_STAT_BADRUN 0).get GL_SYNC_STAT_STATE ≠ 0 := by
    rw [State.get_put_apart _ _ (by rfl) (by rfl) (by rfl), State.get_advTo, h2]
    decide
  obtain ⟨n, e⟩ := State.takePair_lost (tick := start) (c := bits frame.toNat 111 64) hstate (hc.imp_right ((State.allIdle_put_badrun ..).trans ·))
  exact ⟨_, (exec_syncFrame_lost_pair hv hl h2 hg hp).trans (congrArg _ e), State.get_state_enterSync _ _ (by decide), State.on_unsynced_enterSync _ _,
    State.ticks_advTo_of_le ht⟩

/-- In LOST a pair that disagrees with a busy part is held as a conflict. -/
theorem exec_syncFrame_lost_conflict (hc : bits frame.toNat 111 64 ≠ (s.advTo (start + 131)).countAt start)
    (hi : (s.advTo (start + 131)).allIdle = false) :
    ∃ t, exec (.syncFrame start frame) s = .next t ∧ t.get GL_SYNC_STAT_STATE = 2 ∧ t.on GL_SYNC_STAT_COUNT_CONFLICT = true ∧
      t.sync.conflict = some (start, bits frame.toNat 111 64) ∧ t.ticks = start + 131 := by
  let q := (s.advTo (start + 131)).put GL_SYNC_STAT_BADRUN 0
  have hstate : q.get GL_SYNC_STAT_STATE = 2 := by
    rw [State.get_put_apart _ _ (by rfl) (by rfl) (by rfl), State.get_advTo, h2]
  obtain ⟨y, hy, e⟩ := State.takePair_conflict (s := q) (tick := start) (c := bits frame.toNat 111 64) (by rw [hstate]; decide) hc
    ((State.allIdle_put_badrun ..).trans hi)
  have hreg : ((q.mark GL_SYNC_STAT_COUNT_CONFLICT).inCore (·.source 1241)).reg GL_SYNC_STAT = (q.mark GL_SYNC_STAT_COUNT_CONFLICT).reg GL_SYNC_STAT :=
    State.apply_inCore (fun z => z.reg GL_SYNC_STAT) (State.reg_source_low _ _ (by decide))
  have hticks : ((q.mark GL_SYNC_STAT_COUNT_CONFLICT).inCore (·.source 1241)).ticks = q.ticks :=
    State.apply_inCore (s := q.mark GL_SYNC_STAT_COUNT_CONFLICT) (f := (·.source 1241)) State.ticks (State.ticks_source ..)
  refine ⟨_, (exec_syncFrame_lost_pair hv hl h2 hg hp).trans (congrArg _ e), ?_, ?_, hy, hticks.trans (State.ticks_advTo_of_le ht)⟩
  · refine (State.get_eq_of_reg (f := GL_SYNC_STAT_STATE) hreg).trans ?_
    rw [State.mark, State.get_put_apart _ _ (by rfl) (by rfl) (by rfl), hstate]
  · exact (State.on_eq_of_get (State.get_eq_of_reg (f := GL_SYNC_STAT_COUNT_CONFLICT) hreg)).trans (State.on_mark_of_fits _ (by rfl))

end lost

section locked
variable (h1 : s.get GL_SYNC_STAT_STATE = 1) (hslot : s.sync.slot = none) (hc : s.countAt start % 128 = 0)
include h1 hslot hc

theorem exec_syncFrame_locked_good (hg : State.frameGood frame.toNat = true) (hcount : bits frame.toNat 111 64 = (s.advTo (start + 131)).countAt start)
    (hcmd : bits frame.toNat 63 48 = 0) :
    ∃ t, exec (.syncFrame start frame) s = .next t ∧ t.get GL_SYNC_STAT_STATE = 1 ∧ t.get GL_SYNC_STAT_BADRUN = 0 ∧ t.ticks = start + 131 := by
  refine ⟨_, exec_syncFrame hv hl start frame, ?_⟩
  rw [State.takeFrame_locked h1 hslot hc, State.judgeSlot_good h1 hg hcount, hcmd, State.syncCommand_zero, State.get_advTo, State.get_advTo]
  refine ⟨?_, State.get_put_of_fits _ _ (by rfl), State.ticks_advTo_of_le (State.ticks_advTo_of_le ht).le⟩
  rw [State.get_put_apart _ _ (by rfl) (by rfl) (by rfl), State.get_advTo, h1]

omit ht in
theorem exec_syncFrame_locked_bad
    (hb : State.frameGood frame.toNat = false ∨ bits frame.toNat 111 64 ≠ (s.advTo (start + 131)).countAt start) :
    exec (.syncFrame start frame) s = .next ((s.advTo (start + 131)).badFrame.advTo (start + 131)) := by
  rw [exec_syncFrame hv hl start frame, State.takeFrame_locked h1 hslot hc, State.judgeSlot_bad h1 hb]

theorem exec_syncFrame_locked_counted (hb : State.frameGood frame.toNat = false ∨ bits frame.toNat 111 64 ≠ (s.advTo (start + 131)).countAt start)
    (hrun : s.get GL_SYNC_STAT_BADRUN < 2) : ∃ t, exec (.syncFrame start frame) s = .next t ∧ t.get GL_SYNC_STAT_STATE = 1 ∧
      t.get GL_SYNC_STAT_BADRUN = s.get GL_SYNC_STAT_BADRUN + 1 ∧ t.ticks = start + 131 := by
  obtain ⟨hstate, hbad, hticks⟩ := State.badFrame_counted (s := s.advTo (start + 131)) (by rw [State.get_advTo, h1]) (by rwa [State.get_advTo])
  rw [State.get_advTo] at hbad
  rw [State.ticks_advTo_of_le ht] at hticks
  exact ⟨_, exec_syncFrame_locked_bad hv hl h1 hslot hc hb, by rw [State.get_advTo, hstate], by rw [State.get_advTo, hbad],
    State.ticks_advTo_of_le hticks.le⟩

theorem exec_syncFrame_locked_third (hb : State.frameGood frame.toNat = false ∨ bits frame.toNat 111 64 ≠ (s.advTo (start + 131)).countAt start)
    (hrun : s.get GL_SYNC_STAT_BADRUN = 2) : ∃ t, exec (.syncFrame start frame) s = .next t ∧ t.get GL_SYNC_STAT_STATE = 2 ∧
      t.on GL_SYNC_STAT_SYNC_LOST = true ∧ t.ticks = start + 131 := by
  obtain ⟨hstate, hlost, hticks⟩ := State.badFrame_third (s := s.advTo (start + 131)) (by rw [State.get_advTo, h1]) (by rw [State.get_advTo, hrun])
  rw [State.ticks_advTo_of_le ht] at hticks
  exact ⟨_, exec_syncFrame_locked_bad hv hl h1 hslot hc hb, by rw [State.get_advTo, hstate], by rw [State.on_advTo, hlost],
    State.ticks_advTo_of_le hticks.le⟩

end locked

end frames

/-- A conflict's pair is taken once every tiller is idle. -/
theorem exec_relockDeferred_idle {s : State} {tick c : Nat} (hl : s.power.pllLost = false) (hc : s.sync.conflict = some (tick, c))
    (h2 : s.get GL_SYNC_STAT_STATE = 2) (hi : s.allIdle = true) :
    exec .relockDeferred s = .next (((s.loadCount tick c).enterSync 1).put GL_SYNC_STAT_BADRUN 0) := by
  change execRelockDeferred s = _
  simp [execRelockDeferred, State.clocked, hl, State.relockDeferred, hc, h2, hi]

/-- Settles O13: each frame by the state of the receiver it meets, each command by the word it carries. -/
theorem syncFramesAndCommandsComplete : Obligations.SyncFramesAndCommandsComplete := by
  intro s
  refine ⟨fun start frame hv hl ht => ?_, fun tick c hl hc h2 hi => ?_, fun c arg => ?_, fun c group fine arg ht ha => ?_, fun c group s7 fine arg ht h => ?_,
    fun c mask arg ht => ?_, fun hl => ?_⟩
  · intro f c v g
    refine ⟨fun h0 hg => ⟨exec_syncFrame_hunt_pair hv hl ht h0 hg, exec_syncFrame_hunt_kept hv hl ht h0 hg⟩, fun h2 hg hp => ?_, fun h1 hslot hc => ?_, fun h3 => ?_⟩
    · exact ⟨exec_syncFrame_lost_agrees hv hl ht h2 hg hp, exec_syncFrame_lost_conflict hv hl ht h2 hg hp⟩
    · exact ⟨exec_syncFrame_locked_good hv hl ht h1 hslot hc, exec_syncFrame_locked_counted hv hl ht h1 hslot hc,
        exec_syncFrame_locked_third hv hl ht h1 hslot hc⟩
    · rw [exec_syncFrame hv hl, State.takeFrame_local h3]
  · refine ⟨_, exec_relockDeferred_idle hl hc h2 hi, ?_, rfl, State.get_put_of_fits _ _ (by rfl), rfl⟩
    rw [State.get_put_apart _ _ (by rfl) (by rfl) (by rfl), State.get_state_enterSync _ _ (by decide)]
  · exact congrArg Host.Outcome.next (State.syncCommand_zero ..)
  · intro n full
    have held {op} hn h8 hm := exec_schedInstr_held (op := op) (c := c) (group := group) (fine := fine) ht ha hn hm h8
    have beside {op} hn h8 hop hm := exec_schedInstr_held_beside (op := op) (c := c) (group := group) (fine := fine) ht ha hn hm h8 hop
    have joined {op} hn hm := exec_schedInstr_joined (op := op) (c := c) (group := group) (fine := fine) ht ha hn hm
    have refused {op} hn h8 hm := exec_schedInstr_full (op := op) (c := c) (group := group) (fine := fine) ht ha hn hm h8
    have rejected {op} hn := exec_schedInstr_rejected (op := op) (c := c) (group := group) (s7 := false) (fine := fine) (arg := arg) ht (.inr (.inr hn))
    refine ⟨fun hn h8 => ⟨held (op := .start) hn h8, beside (op := .halt) hn h8 (by decide), fun hm => ?_⟩,
      fun hn => ⟨joined (op := .start) hn, joined (op := .halt) hn, joined (op := .clearLate) hn⟩,
      fun hn h8 => ⟨refused (op := .start) hn h8, refused (op := .halt) hn h8, refused (op := .clearLate) hn h8⟩,
      fun hn => ⟨rejected (op := .start) hn, rejected (op := .halt) hn, rejected (op := .clearLate) hn⟩⟩
    obtain ⟨t, e, hslots, -, hregs⟩ := beside (op := .clearLate) hn h8 (by decide) hm
    exact ⟨t, e, hslots, hregs⟩
  · have rejected {op} := exec_schedInstr_rejected (op := op) (c := c) (group := group) (s7 := s7) (fine := fine) (arg := arg) ht (h.imp_right .inl)
    exact ⟨rejected (op := .start), rejected (op := .halt), rejected (op := .clearLate)⟩
  · refine ⟨⟨s.calHold c.toNat 0 mask.toNat arg.toNat, ?_, fun a ha => State.reg_calHold s _ _ _ ha, State.holds_calHold ..⟩, fun group hg => ?_⟩
    · exact (exec_calHold ..).trans (congrArg _ (State.syncCommand_calHold ht (by decide) mask.isLt ..))
    · have hne : group.val ≠ 0 := fun e => hg (Fin.ext e)
      rw [exec_calHold, State.syncCommand_calHold ht group.isLt mask.isLt, State.calHold, if_pos hne]
  · have ht : s.takesCommands = false := by simp [State.takesCommands, hl]
    refine ⟨fun start frame => ?_, ?_, fun c group s7 fine arg => ?_, fun c group mask arg => ?_⟩
    · change execSyncFrame start frame s = _
      simp [execSyncFrame, hl]
    · change execRelockDeferred s = _
      simp [execRelockDeferred, State.clocked, hl]
    · exact ⟨exec_schedInstr_pllLost hl .start .., exec_schedInstr_pllLost hl .halt .., exec_schedInstr_pllLost hl .clearLate ..⟩
    · rw [exec_calHold, State.syncCommand_of_not_takes ht]

end Sys2Proof.Machine
end

section
/-! SUPPORT. Commands that write one field (R5), the schedule when it falls due (R34 to R37), and O14 settled. -/

namespace Sys2Proof.Machine

/-! ### A field of a word that is stored (R5) -/

section storeFields
variable (locked : Bool) (k w : Nat)

theorem storeField_lt {old : Nat} (ho : old < 2 ^ 32) {f : FieldD} (hf : f.InWord) : storeField locked k w old f < 2 ^ 32 := by
  obtain e | ⟨x, e⟩ := storeField_eq_or_insert32 locked k w old f
  · rwa [e]
  · rw [e]
    exact insert32_lt _ _ _ _ ho hf.2 hf.1

theorem foldl_storeField_lt {l : List FieldD} (hl : ∀ f ∈ l, f.InWord) {old : Nat} (ho : old < 2 ^ 32) :
    l.foldl (storeField locked k w) old < 2 ^ 32 := by
  induction l generalizing old with
  | nil => exact ho
  | cons x r ih =>
    obtain ⟨hx, hr⟩ := List.forall_mem_cons.1 hl
    exact ih hr (storeField_lt locked k w ho hx)

theorem bits_foldl_storeField_apart {l : List FieldD} (hl : ∀ f ∈ l, f.InWord) {f : FieldD} (ha : ∀ x ∈ l, f.Apart x) {old : Nat} (ho : old < 2 ^ 32) :
    bits (l.foldl (storeField locked k w) old) f.hi f.lo = bits old f.hi f.lo := by
  induction l generalizing old with
  | nil => rfl
  | cons x r ih =>
    obtain ⟨hx, hr⟩ := List.forall_mem_cons.1 hl
    obtain ⟨ax, ar⟩ := List.forall_mem_cons.1 ha
    exact (ih hr ar (storeField_lt locked k w ho hx)).trans (bits_storeField_beside locked k w old x _ _ hx.1 hx.2 ho ax)

/-- Each of fields that lie apart takes what is written to it, if it takes every value. -/
theorem bits_foldl_storeField_rw {l : List FieldD} (hl : ∀ f ∈ l, f.InWord) (hp : l.Pairwise FieldD.Apart) {old : Nat} (ho : old < 2 ^ 32)
    {f : FieldD} (hf : f ∈ l) (hacc : f.acc = .rw) (ht : fieldTakes k f.lo (bits w f.hi f.lo) = some (bits w f.hi f.lo)) :
    bits (l.foldl (storeField locked k w) old) f.hi f.lo = bits w f.hi f.lo := by
  induction l generalizing old with
  | nil => cases hf
  | cons x r ih =>
    obtain ⟨hx, hr⟩ := List.forall_mem_cons.1 hl
    obtain ⟨ax, pr⟩ := List.pairwise_cons.1 hp
    rcases List.mem_cons.1 hf with rfl | hf
    · refine (bits_foldl_storeField_apart locked k w hr ax (storeField_lt locked k w ho hx)).trans ?_
      obtain ⟨hi, lo, acc, sys, reset⟩ := f
      subst hacc
      rw [storeField_rw (x := bits w hi lo) _ _ _ _ _ _ _ _ ht, bits_insert32_of_lt ho hx.2 hx.1 (bits_lt ..)]
    · exact ih hr pr (storeField_lt locked k w ho hx) hf

end storeFields

namespace State

/-- A field that takes every value reads as what was written to it. -/
theorem get_storeWord_rw (s : State) (w : Nat) {f : Field} {d : RegD} {x : FieldD} (hd : regAt f.addr = some d) (hx : x ∈ d.flds) (hacc : x.acc = .rw)
    (hf : x.hi = f.hi ∧ x.lo = f.lo) (ht : ∀ n, fieldTakes (kindOf f.addr) x.lo n = some n) : (s.storeWord f.addr w).get f = bits w f.hi f.lo := by
  obtain ⟨hin, hap⟩ := fields_of_allRegs d (mem_allRegs_of_regAt hd)
  rw [State.get, State.storeWord, hd, ← hf.1, ← hf.2]
  dsimp only
  rw [reg_setReg_same, BitVec.toNat_ofNat, Nat.mod_eq_of_lt (foldl_storeField_lt _ _ _ hin (s.reg f.addr).isLt)]
  exact bits_foldl_storeField_rw _ _ _ hin hap (s.reg f.addr).isLt hx hacc (ht _)

/-! ### A command that writes one field -/

/-- The word it writes: the fields that read as they were written keep what the register shows. -/
def mergedWord (s : State) (d : RegD) (f : Field) (val : Nat) : Nat :=
  insert32 (putFields (fun g => bits (s.shown f.addr) g.hi g.lo) (d.flds.filter (fun g => g.acc == .rw || g.acc == .rwl)) 0) f.hi f.lo val

theorem bits_mergedWord (s : State) {d : RegD} {f : Field} {val : Nat} (hd : regAt f.addr = some d) (hf : f.fits = true)
    (hv : val < 2 ^ (f.hi + 1 - f.lo)) : bits (s.mergedWord d f val) f.hi f.lo = val := by
  obtain ⟨hin, -⟩ := fields_of_allRegs d (mem_allRegs_of_regAt hd)
  exact bits_insert32_of_lt (putFields_lt _ (fun g hg => hin g (List.mem_filter.1 hg).1) (by decide)) (lo_le_hi_of_fits hf).2 (lo_le_hi_of_fits hf).1 hv

/-- Through a view that no rule limits the word goes to the register's own rules. -/
theorem mergeField_direct {s : State} {v : View} {f : Field} {d : RegD} (val : Nat) (hr : s.ready = true) (hv : directView v = true)
    (hd : regAt f.addr = some d) (h4 : f.addr % 4 = 0) (ht : isTable f.addr = false) (hm : isMsix f.addr = false) :
    s.mergeField v f val = s.writeOwn v f.addr (s.mergedWord d f val) none := by
  rw [State.mergeField, State.mergeFieldWith, hd]
  exact regWriteWith_direct s v _ _ none (reachable_of_ready hr _) h4 ht hm (by rw [hd]; rfl) hv

theorem writeOwn_timeBase (s : State) (v : View) {a : Nat} (h1 : 0x1000 ≤ a) (h2 : a < 0x2000) (w : Nat) (load : Option Nat) :
    s.writeOwn v a w load = s.writeTimeBase a w := by
  rw [writeOwn_global s v (by omega), State.writeGlobal, if_neg (by omega), if_pos h2]

/-! ### EN and TRIM (R30, R43) -/

/-- The rows of GL_SYNC_CTRL and GL_SYNC_TRIM in the register tables. -/
def syncCtrlRow : RegD := ⟨0x1008, 1, 4, 1, 4, [⟨0, 0, .rw, true, 1⟩, ⟨1, 1, .rw, false, 0⟩, ⟨2, 2, .rw, true, 1⟩]⟩
def syncTrimRow : RegD := ⟨0x1010, 1, 4, 1, 4, [⟨8, 0, .rw, true, 0⟩, ⟨31, 31, .w1c, false, 0⟩]⟩

theorem regAt_syncCtrl : regAt GL_SYNC_CTRL = some syncCtrlRow := by
  decide +kernel

theorem regAt_syncTrim : regAt GL_SYNC_TRIM = some syncTrimRow := by
  decide +kernel

theorem writeTimeBase_syncCtrl (s : State) (w : Nat) : s.writeTimeBase GL_SYNC_CTRL w =
    (s.andThen (w.testBit 0 != s.on GL_SYNC_CTRL_EN) (writeSyncEn · (w.testBit 0))).storeWord GL_SYNC_CTRL w := if_pos rfl

theorem writeTimeBase_syncTrim (s : State) (w : Nat) : s.writeTimeBase GL_SYNC_TRIM w =
    (if w.testBit 31 then s.put GL_SYNC_TRIM_CLAMP 0 else s).andThen (w % 512 ≠ s.get GL_SYNC_TRIM_TRIM) (writeTrim · (w % 512)) :=
  (if_neg (by decide)).trans (if_pos rfl)

theorem fieldTakes_syncEn (v : Nat) : fieldTakes (kindOf GL_SYNC_CTRL) 0 v = some v := by
  have free : fieldLimits.find? (fun e => e.1 = kindOf GL_SYNC_CTRL && e.2.1 = 0) = none ∧ arrayLimit (kindOf GL_SYNC_CTRL) 0 = none := by
    decide +kernel
  simp [fieldTakes, free.1, free.2]

/-- EN takes its value, after the receiver has changed state where it changes. -/
theorem exec_syncEnWrite {s : State} {v : View} (en : Bool) (hr : s.ready = true) (hv : directView v = true) (hen : s.on GL_SYNC_CTRL_EN = !en) :
    ∃ w, bits w 0 0 = b2n en ∧ exec (.syncEnWrite v en) s = .next ((s.writeSyncEn en).storeWord GL_SYNC_CTRL w) := by
  let w := s.mergedWord syncCtrlRow GL_SYNC_CTRL_EN (b2n en)
  have hw : bits w 0 0 = b2n en := bits_mergedWord (f := GL_SYNC_CTRL_EN) s regAt_syncCtrl rfl (by cases en <;> decide)
  have hbit : w.testBit 0 = en := by
    rw [Nat.testBit_zero, show w % 2 = b2n en by simpa [bits] using hw]
    cases en <;> rfl
  refine ⟨w, hw, ?_⟩
  change Host.Outcome.next (s.mergeField v GL_SYNC_CTRL_EN (b2n en)) = _
  rw [mergeField_direct (f := GL_SYNC_CTRL_EN) _ hr hv regAt_syncCtrl rfl rfl rfl, writeOwn_timeBase s v (by decide) (by decide)]
  refine congrArg _ ((writeTimeBase_syncCtrl s w).trans ?_)
  rw [hbit, hen, State.andThen, if_pos (by cases en <;> rfl)]

theorem get_storeWord_syncStat (s : State) (w : Nat) : (s.storeWord GL_SYNC_CTRL w).get GL_SYNC_STAT_STATE = s.get GL_SYNC_STAT_STATE :=
  get_eq_of_reg (reg_storeWord_other s w (by decide))

theorem on_syncEn_storeWord (s : State) {w : Nat} {en : Bool} (hw : bits w 0 0 = b2n en) : (s.storeWord GL_SYNC_CTRL w).on GL_SYNC_CTRL_EN = en := by
  have h : (s.storeWord GL_SYNC_CTRL w).get GL_SYNC_CTRL_EN = bits w 0 0 :=
    get_storeWord_rw (f := GL_SYNC_CTRL_EN) s w regAt_syncCtrl (List.mem_cons_self ..) rfl ⟨rfl, rfl⟩ fieldTakes_syncEn
  rw [State.on, h, hw]
  cases en <;> rfl

theorem writeSyncEn_off (s : State) : (s.writeSyncEn false).get GL_SYNC_STAT_STATE = 3 := by
  change (((s.put GL_SYNC_CTRL_EN 0).enterSync 3).put GL_SYNC_STAT_BADRUN 0).get GL_SYNC_STAT_STATE = 3
  rw [get_put_apart _ _ (by rfl) (by rfl) (by rfl), get_state_enterSync _ _ (by decide)]

theorem writeSyncEn_on {s : State} (h : s.on GL_SYNC_CTRL_EN = false) : (s.writeSyncEn true).get GL_SYNC_STAT_STATE = 0 := by
  have e : s.writeSyncEn true = (s.put GL_SYNC_CTRL_EN 1).enterSync 0 := by simp [State.writeSyncEn, h, b2n]
  rw [e, get_state_enterSync _ _ (by decide)]

/-- A TRIM above 320 is taken as 320. -/
theorem get_writeTrim (s : State) {n : Nat} (h : n < 512) : (s.writeTrim n).get GL_SYNC_TRIM_TRIM = min 320 n := by
  unfold State.writeTrim
  split
  · rw [get_source_low _ _ (by decide), State.mark, get_put_apart _ _ (by rfl) (by rfl) (by rfl), get_put_of_fits _ _ (by rfl)]
    change 320 % 2 ^ 9 = _
    omega
  · rw [get_put_of_fits _ _ (by rfl)]
    exact (Nat.mod_eq_of_lt h).trans (by omega)

theorem exec_trimWrite {s : State} {v : View} (trim : BitVec 9) (hr : s.ready = true) (hv : directView v = true) (h : s.get GL_SYNC_TRIM_TRIM ≤ 320) :
    ∃ t, exec (.trimWrite v trim) s = .next t ∧ t.get GL_SYNC_TRIM_TRIM = min 320 trim.toNat := by
  let w := s.mergedWord syncTrimRow GL_SYNC_TRIM_TRIM trim.toNat
  let q := if w.testBit 31 then s.put GL_SYNC_TRIM_CLAMP 0 else s
  have hw : w % 512 = trim.toNat := bits_mergedWord (f := GL_SYNC_TRIM_TRIM) s regAt_syncTrim rfl trim.isLt
  have hq : q.get GL_SYNC_TRIM_TRIM = s.get GL_SYNC_TRIM_TRIM := by
    unfold q
    split
    · exact get_put_apart _ _ rfl rfl rfl
    · rfl
  have e : exec (.trimWrite v trim) s = .next (q.andThen (decide (trim.toNat ≠ s.get GL_SYNC_TRIM_TRIM)) (writeTrim · trim.toNat)) := by
    have hval := writeTimeBase_syncTrim s w
    rw [hw] at hval
    change Host.Outcome.next (s.mergeField v GL_SYNC_TRIM_TRIM trim.toNat) = _
    rw [mergeField_direct (f := GL_SYNC_TRIM_TRIM) _ hr hv regAt_syncTrim rfl rfl rfl, writeOwn_timeBase s v (by decide) (by decide)]
    exact congrArg _ hval
  refine ⟨_, e, ?_⟩
  unfold State.andThen
  split
  · exact get_writeTrim q trim.isLt
  · next hc =>
    have hold : trim.toNat = s.get GL_SYNC_TRIM_TRIM := by simpa using hc
    rw [hq]
    omega

/-! ### The schedule falls due (R34 to R36) -/

theorem startDue_apart {s u : State} {group n : Nat} (hu : s.takeSlot .start group n = some u)
    (h : u.slots.all (fun x => !(x.op = .halt && x.target = n && groupsMeet x.group group)) = true) :
    s.startDue group n = (u.groupTillers group).foldl State.startArmed u := by
  have hno : u.slots.any (fun x => x.op = .halt && x.target = n && groupsMeet x.group group) = false := by
    rwa [← Bool.not_eq_true', List.not_any_eq_all_not]
  simp only [State.startDue, hu, hno, Bool.false_eq_true, if_false]

theorem haltDue_apart {s u : State} {group n : Nat} (hu : s.takeSlot .halt group n = some u)
    (h : u.slots.all (fun x => !(x.op = .start && x.target = n && groupsMeet x.group group)) = true) :
    s.haltDue group n = (u.groupTillers group).foldl (fun s t => s.requestStop t s.now) u := by
  have hno : u.slots.filter (fun x => x.op = .start && x.target = n && groupsMeet x.group group) = [] :=
    List.filter_eq_nil_iff.2 fun x hx hc => by simpa [hc] using List.all_eq_true.1 h x hx
  simp only [State.haltDue, hu, hno, List.foldl_nil]

/-- The LATE bits of two tillers lie apart. -/
theorem on_lateBit_put (s : State) {j k : Nat} (hj : j < 64) (hk : k < 64) (h : s.on (lateBit k) = false ∨ j = k) :
    (s.put (lateBit j) 0).on (lateBit k) = false := by
  have hfits : ∀ i, i < 64 → (lateBit i).fits = true := by decide
  obtain rfl | hne := eq_or_ne j k
  · rw [on_put_of_fits _ _ (hfits j hj), Nat.zero_mod]
    rfl
  · have hoff := h.resolve_right hne
    by_cases ha : (lateBit k).addr = (lateBit j).addr
    · have hapart : (lateBit k).apart (lateBit j) = true := by
        unfold lateBit at ha ⊢
        split_ifs at ha ⊢ with h1 h2 <;> simp [Field.apart, GL_LATE_LO, GL_LATE_HI] at ha ⊢ <;> omega
      rw [on_eq_of_get (get_put_apart s 0 (hfits j hj) ha hapart), hoff]
    · rw [on_eq_of_get (get_put_other s 0 ha), hoff]

/-- A CLEAR_LATE clears LATE of each tiller it names. -/
theorem on_lateBit_foldl {l : List Nat} (hl : ∀ j ∈ l, j < 64) {k : Nat} (hk : k < 64) (s : State) (h : s.on (lateBit k) = false ∨ k ∈ l) :
    (l.foldl (fun s t => s.put (lateBit t) 0) s).on (lateBit k) = false := by
  induction l generalizing s with
  | nil => exact h.resolve_right List.not_mem_nil
  | cons j r ih =>
    obtain ⟨hj, hr⟩ := List.forall_mem_cons.1 hl
    refine ih hr (s.put (lateBit j) 0) ?_
    rcases h with h | h
    · exact .inl (on_lateBit_put s hj hk (.inl h))
    · rcases List.mem_cons.1 h with rfl | h
      · exact .inl (on_lateBit_put s hj hk (.inr rfl))
      · exact .inr h

theorem lt_of_mem_groupTillers {s : State} {g t : Nat} (h : t ∈ s.groupTillers g) : t < 64 := List.mem_range.1 (List.mem_filter.1 h).1

theorem clearLateDue_effect {s u : State} {group n : Nat} (hu : s.takeSlot .clearLate group n = some u) {k : Nat} (hk : k ∈ u.groupTillers group) :
    (s.clearLateDue group n).on (lateBit k) = false := by
  simp only [State.clearLateDue, hu]
  exact on_lateBit_foldl (fun j hj => lt_of_mem_groupTillers hj) (lt_of_mem_groupTillers hk) u (.inr hk)

/-! ### A hold expires (R37) -/

@[simp] theorem holds_put (s : State) (f : Field) (v : Nat) : (s.put f v).holds = s.holds := rfl
@[simp] theorem holds_putBit (s : State) (f : Field) (i : Nat) (b : Bool) : (s.putBit f i b).holds = s.holds := rfl

@[simp] theorem holds_setTl (s : State) (t : Nat) (x : Tiller) : (s.setTl t x).holds = s.holds := rfl

@[simp] theorem holds_switchNow (s : State) (t : Nat) : (s.switchNow t).holds = s.holds := by
  unfold State.switchNow
  dsimp only
  split <;> simp only [holds_put, holds_putBit, holds_setTl]

@[simp] theorem holds_safePoint (s : State) (t : Nat) : (s.safePoint t).holds = s.holds := by
  unfold State.safePoint
  split
  · exact holds_switchNow s t
  · rfl

/-- Idle tillers of a strip take what is pending for them. -/
theorem holds_safePoints (l : List Nat) (s : State) : (l.foldl (fun s t => if s.active t then s else s.safePoint t) s).holds = s.holds := by
  induction l generalizing s with
  | nil => rfl
  | cons t l ih =>
    rw [List.foldl_cons, ih]
    split
    · rfl
    · exact holds_safePoint s t

theorem held_of_holds_nil {s : State} (h : s.holds = []) (r : Nat) : s.held r = false := by
  simp [State.held, h]

section hold
variable {s : State} {r : Nat} {h : Hold} (hs : s.holds = [h]) (hr : h.strip = r) (hf : h.from_ ≤ s.ticks) (hu : s.ticks ≤ h.until_)
include hs hr hf hu

/-- The one hold of a strip is over once it has expired. -/
theorem held_holdExpire : (s.holdExpire r).held r = false := by
  have hend : s.holdEnd r = some h.until_ := by simp [State.holdEnd, hs, hr, hu]
  have hnow : (s.advTo h.until_).held r = false := by
    simp [State.held, hs, hr, hf.trans hu]
  refine held_of_holds_nil ?_ r
  unfold State.holdExpire
  simp only [hend, Option.getD_some, hnow, holds_advTo, hs, List.all_cons, List.all_nil, hr, bne_self_eq_false, Bool.false_and, Bool.false_or,
    Bool.false_eq_true, if_false, holds_safePoints]
  simp [hr, hf.trans hu]

omit hf hu in
theorem calHoldExpire_single : s.calHoldExpire r = (((if (s.holdExpire r).calState r = 2 then (s.holdExpire r).setStrip r
    { (s.holdExpire r).strip r with heldTicks := ((s.holdExpire r).strip r).heldTicks + (h.until_ - max h.from_ (s.strip r).runAt) }
    else s.holdExpire r).restartTest r).trySteps r) := by
  simp [State.calHoldExpire, hs, hr]

end hold

end State
open State

theorem exec_clocked_off {s : State} (hl : s.power.pllLost = true) (group : Fin 16) (n : BitVec 48) (r : Fin 8) :
    exec (.startAtDue group n) s = .next s ∧ exec (.haltAtDue group n) s = .next s ∧ exec (.clearLateDue group n) s = .next s ∧
      exec (.calHoldExpire r) s = .next s := by
  have e (t : State) : s.clocked t = s := if_pos hl
  exact ⟨congrArg _ (e _), congrArg _ (e _), congrArg _ (e _), congrArg _ (e _)⟩

/-! ### The clock's lock (R26, R416) -/

theorem exec_clockLockLoss (s : State) : ∃ t, exec .clockLockLoss s = .next t ∧ t.power.pllLost = true ∧ (s.power.pll = true → 176 ∈ t.lines) ∧
    (s.power.pll = false → t.lines = s.lines) ∧ t.regs = s.regs := by
  refine ⟨s.clockLost, rfl, ?_⟩
  unfold State.clockLost State.raiseLine
  dsimp only
  split_ifs with hp hin
  · exact ⟨rfl, fun _ => List.contains_iff_mem.1 hin, fun h => absurd hp (by simp [h]), rfl⟩
  · exact ⟨rfl, fun _ => List.mem_append_right _ (List.mem_singleton_self _), fun h => absurd hp (by simp [h]), rfl⟩
  · exact ⟨rfl, fun h => absurd h hp, fun _ => rfl, rfl⟩

/-- Settles O14: each command of the schedule by the state in which its slot has been taken, EN and TRIM by the word the command writes. -/
theorem scheduledCommandsAndClockEventsAct : Obligations.ScheduledCommandsAndClockEventsAct := by
  intro s
  have on {t u : State} (hl : s.power.pllLost = false) (e : t = u) : Host.Outcome.next (s.clocked t) = (.next u : Host.Outcome State Fault Refusal) := by
    rw [State.clocked, hl, if_neg (by decide), e]
  refine ⟨fun group n u hl => ⟨fun hu h => on hl (startDue_apart hu h), fun hu h => on hl (haltDue_apart hu h),
      fun hu => ⟨_, on hl rfl, fun k hk => clearLateDue_effect hu hk⟩⟩,
    fun r h hl hs hr hf ht => ⟨_, on hl rfl, calHoldExpire_single hs hr, held_holdExpire hs hr hf ht⟩,
    fun v hr hv hen => ?_, fun v hr hv hen => ?_, fun v trim hr hv h => exec_trimWrite trim hr hv h, fun hl => exec_clocked_off hl,
    exec_clockLockLoss s, ⟨_, rfl, rfl, rfl⟩⟩
  · obtain ⟨w, hw, e⟩ := exec_syncEnWrite false hr hv hen
    exact ⟨_, e, (get_storeWord_syncStat ..).trans (writeSyncEn_off s), on_syncEn_storeWord _ hw⟩
  · obtain ⟨w, hw, e⟩ := exec_syncEnWrite true hr hv hen
    exact ⟨_, e, (get_storeWord_syncStat ..).trans (writeSyncEn_on hen), on_syncEn_storeWord _ hw⟩

end Sys2Proof.Machine
end

section
/-! SUPPORT. A write to the settings of a rendezvous group while an epoch is pending (R50), and O17 settled. -/

namespace Sys2Proof.Machine

namespace State

/-! ### Registers without /S fields and without the lead's rules (R6, R397) -/

theorem arrayIndex_eq_none {a base d n : Nat} (h : a < base) : arrayIndex a base d n = none := if_neg fun hc => absurd hc.1 (Nat.not_le.2 h)

/-- No setting of the rendezvous groups needs the lead token. -/
theorem leadOnly_rdv (s : State) {a : Nat} (w : Nat) (h1 : 0x1100 ≤ a) (h2 : a < 0x1900) : s.leadOnly a w = false := by
  have hk : kindOf a = a := if_pos (by omega)
  have hreact : arrayIndex a (FC_REACT 0) 4 46 = none := arrayIndex_eq_none (h2.trans_le (by decide))
  have hentry : arrayIndex a (TH_ENTRY 0 0) 4 5 = none := arrayIndex_eq_none (h2.trans_le (by decide))
  have hchan : arrayIndex a (EV_CH_CFG 0) 8 256 = none := arrayIndex_eq_none (h2.trans_le (by decide))
  have hne {b : Nat} (hb : b < 0x1100 ∨ 0x1900 ≤ b) : decide (a = b) = false := decide_eq_false (by omega)
  rw [State.leadOnly, hk, hreact, hentry, hchan, hne (b := GL_VRAW_TRIM_W) (by decide), hne (b := GL_VRAW_TRIM_E) (by decide),
    hne (b := GL_SYNC_CTRL) (by decide), hne (b := GL_SYNC_TRIM) (by decide), hne (b := GL_BLK_RST) (by decide), hne (b := NV_CTRL) (by decide),
    hne (b := FC_ALIVE) (by decide), hne (b := FC_LOCK) (by decide), decide_eq_false (show ¬0x20804 ≤ a by omega)]
  rfl

/-- A supervisor's write goes to the register's own rules. -/
theorem supervisorWrite_rdv (s : State) (v : View) (d : Nat) {a : Nat} (w : Nat) (load : Option Nat) (h1 : 0x1100 ≤ a) (h2 : a < 0x1900) :
    s.supervisorWrite v d a w load = s.writeOwn v a w load := by
  rw [State.supervisorWrite, leadOnly_rdv s w h1 h2, decide_eq_false (show ¬0x10000 ≤ a by omega)]
  rfl

end State

theorem withoutSys_of_none {l : List FieldD} (h : ∀ f ∈ l, f.sys = false) (shown w : Nat) : withoutSys shown w l = w := by
  unfold withoutSys
  induction l generalizing w with
  | nil => rfl
  | cons f r ih =>
    obtain ⟨hf, hr⟩ := List.forall_mem_cons.1 h
    rw [List.foldl_cons, hf, if_neg (by decide), ih hr]

/-- The user's write meets no /S field, so its word goes to the register's own rules. -/
theorem State.userWrite_of_none (s : State) (v : View) {d : RegD} (a w : Nat) (load : Option Nat) (h : ∀ f ∈ d.flds, f.sys = false ∧ f.acc = .rw)
    (hne : d.flds ≠ []) : s.userWrite v d a w load = s.writeOwn v a w load := by
  have hacts : d.flds.any (actsOn (s.on FC_LOCK_LOCK) (s.shown a) w) = false :=
    List.any_eq_false.2 fun f hf => by simp [actsOn, (h f hf).1]
  have hall : d.flds.all (fun f => f.sys || f.acc == .ro || f.acc == .rc) = false := by
    obtain ⟨f, hf⟩ := List.exists_mem_of_ne_nil _ hne
    exact List.all_eq_false.2 ⟨f, hf, by rw [(h f hf).1, (h f hf).2]; decide⟩
  rw [State.userWrite, hacts, hall, withoutSys_of_none fun f hf => (h f hf).1]
  rfl

/-! ### The settings of a group (R44, R50) -/

/-- MASK, CFG and PARTS of group k. -/
def rdvSettings (k : Nat) : List Nat := [GL_RDV_MASK_LO k, GL_RDV_MASK_HI k, GL_RDV_CFG k, GL_RDV_PARTS_LO k, GL_RDV_PARTS_HI k]

/-- Each is a register of RW fields that are not /S. -/
theorem regAt_rdvSettings : ∀ k : Fin 32, ∀ a ∈ rdvSettings k.val,
    (regAt a).any (fun d => d.flds.all (fun f => !f.sys && f.acc == .rw) && !d.flds.isEmpty) = true := by
  decide +kernel

theorem mem_rdvSettings {k a : Nat} (h : a ∈ rdvSettings k) : ∃ o, o < 0x14 ∧ o % 4 = 0 ∧ a = 0x1100 + 0x40 * k + o := by
  simp only [rdvSettings, List.mem_cons, List.not_mem_nil, or_false] at h
  rcases h with rfl | rfl | rfl | rfl | rfl
  · exact ⟨0, by decide, by decide, rfl⟩
  · exact ⟨4, by decide, by decide, by unfold GL_RDV_MASK_HI; omega⟩
  · exact ⟨8, by decide, by decide, by unfold GL_RDV_CFG; omega⟩
  · exact ⟨12, by decide, by decide, by unfold GL_RDV_PARTS_LO; omega⟩
  · exact ⟨16, by decide, by decide, by unfold GL_RDV_PARTS_HI; omega⟩

/-- Through every view the word goes to the rules of the group. -/
theorem State.regWriteWith_rdvSettings {s : State} (v : View) (k : Fin 32) {a : Nat} (w : Nat) (hr : s.ready = true) (ha : a ∈ rdvSettings k.val) :
    s.regWriteWith v a w none = s.writeRdv k.val a w := by
  obtain ⟨o, ho, ho4, e⟩ := mem_rdvSettings ha
  have hk := k.isLt
  have h1 : 0x1100 ≤ a := by omega
  have h2 : a < 0x1900 := by omega
  have ht : isTable a = false := decide_eq_false (by omega)
  have hm : isMsix a = false := by simp [isMsix, within]; omega
  obtain ⟨d, hd, hflds⟩ := (Option.any_eq_true _ _).1 (regAt_rdvSettings k a ha)
  rw [Bool.and_eq_true, List.all_eq_true] at hflds
  have hrw : ∀ f ∈ d.flds, f.sys = false ∧ f.acc = .rw := fun f hf => by simpa using hflds.1 f hf
  have hne : d.flds ≠ [] := by simpa using hflds.2
  have hown : s.regWriteWith v a w none = s.writeOwn v a w none := by
    rw [State.regWriteWith, State.reachable_of_ready hr a, if_neg (by simp; omega), if_neg (by simp [ht]), if_neg (by simp [hm]), hd]
    dsimp only
    split
    · exact s.userWrite_of_none v a w none hrw hne
    · split
      · exact s.supervisorWrite_rdv v _ w none h1 h2
      · rfl
  have hgroup : (a - 0x1100) / 0x40 = k.val := by omega
  rw [hown, State.writeOwn_timeBase s v (by omega) (by omega), State.writeTimeBase, if_neg (by unfold GL_SYNC_CTRL; omega),
    if_neg (by unfold GL_SYNC_TRIM; omega), if_pos (by simp; omega), hgroup]

/-- Settles O17: the write reaches the group's own rules through every view, and those refuse it. -/
theorem rendezvousSettingsAreHeldWhilePending : Obligations.RendezvousSettingsAreHeldWhilePending := by
  intro v k a w s hr hs ha
  have hbusy : s.get (GL_RDV_STAT_STATE k.val) ≠ 0 := by omega
  have hlow : GL_RDV_STAT k.val < 0x5000 := by
    unfold GL_RDV_STAT
    omega
  refine ⟨(s.mark (GL_RDV_STAT_WR_BUSY k.val)).source 1247, ?_, ?_, State.rdvs_source .., fun b hb he h0 h1 => ?_⟩
  · rw [exec_regWrite, State.busWrite_single, State.wordWrite_full, State.regWriteWith_rdvSettings v k _ hr ha, State.writeRdv, if_pos hbusy]
  · rw [State.on_eq_of_get (State.get_source_low _ _ hlow), State.on_mark_of_fits _ (by rfl)]
  · rw [State.reg_source _ _ he h0 h1, State.reg_mark_other _ _ hb]

end Sys2Proof.Machine
end

section
/-! SUPPORT. Reads with an effect of their own (R52, R119, R213, R219, R229, R254, R314, R323, R417, R427), and O15 settled. -/

namespace Sys2Proof.Machine

namespace State

/-! ### Where a read goes -/

/-- A word in the output port. -/
def out (s : State) (w : Nat) : State := { s with rdData := w, rdPoison := false }

section out
variable (s : State) (w : Nat)

@[simp] theorem rdData_out : (s.out w).rdData = w := rfl
@[simp] theorem reg_out : (s.out w).reg = s.reg := rfl
@[simp] theorem get_out : (s.out w).get = s.get := rfl
@[simp] theorem on_out : (s.out w).on = s.on := rfl
@[simp] theorem fifos_out : (s.out w).fifos = s.fifos := rfl
@[simp] theorem hmq_out : (s.out w).hmq = s.hmq := rfl

end out

/-- The address of a register, outside table space and the MSI-X table. -/
def plainReg (a : Nat) : Bool := (regAt a).isSome && a % 4 == 0 && !isTable a && !isMsix a

theorem regRead_own {s : State} (v : View) {a : Nat} {r : State × Nat} (hr : s.ready = true) (ha : plainReg a = true) (ho : s.readOwn a = some r) :
    s.regRead v a = r := by
  simp only [plainReg, Bool.and_eq_true, beq_iff_eq, Bool.not_eq_true'] at ha
  obtain ⟨⟨⟨hd, h4⟩, ht⟩, hm⟩ := ha
  obtain ⟨d, hd⟩ := Option.isSome_iff_exists.1 hd
  simp [State.regRead, reachable_of_ready hr a, h4, ht, hm, hd, ho]

/-- What a command's read comes to at a register with a rule of its own. -/
theorem readOut_own {s : State} (v : View) {a : Nat} {r : State × Nat} (hr : s.ready = true) (ha : plainReg a = true) (ho : s.readOwn a = some r) :
    s.readOut v a = r.1.out r.2 := by
  rw [State.readOut, regRead_own v hr ha ho]
  rfl

/-- The kind of a register that is neither the TDC's nor part of a pair. -/
def unpaired (k : Nat) : Bool := !tdcKind k && !isPairLow k && !(decide (4 ≤ k) && isPairLow (k - 4))

theorem readOwn_unit {s : State} {a : Nat} {r : State × Nat} (hk : unpaired (kindOf a) = true) (hu : s.readUnit a = some r) : s.readOwn a = some r := by
  simp only [unpaired, Bool.and_eq_true, Bool.not_eq_true'] at hk
  simp [State.readOwn, hk, hu]

/-- A register of a tiller that has a rule of its own. -/
theorem readOut_tiller {s : State} (v : View) {t o : Nat} {r : State × Nat} (hr : s.ready = true) (ht : t < 64) (ho : o < 0x800) (h4 : o % 4 = 0)
    (hd : (tillerRegs.find? (fun d => d.has o)).isSome = true) (hk : unpaired (0x40000 + o) = true) (hu : s.readUnit (tlBase t + o) = some r) :
    s.readOut v (tlBase t + o) = r.1.out r.2 := by
  have e : tlBase t = 0x40000 + 0x1000 * t := rfl
  refine readOut_own v hr ?_ (readOwn_unit (by rwa [kindOf_tiller ht ho]) hu)
  have h1 : isTable (tlBase t + o) = false := decide_eq_false (by omega)
  have h2 : isMsix (tlBase t + o) = false := by simp [isMsix, within]; omega
  rw [plainReg, regAt_tiller ht ho, hd, h1, h2, show (tlBase t + o) % 4 = 0 by omega]
  rfl

section tiller
variable (s : State) {t : Nat} (ht : t < 64)
include ht

theorem readUnit_lvlDone : s.readUnit (TL_LVL_DONE t) = some (s.readDone t) := by
  rw [TL_LVL_DONE, State.readUnit, kindOf_tiller ht (by decide), unitOf_tiller ht (by decide)]
  rfl

theorem readUnit_fqRd : s.readUnit (TL_FQ_RD t 0) = some (s.fifoRead t) := by
  rw [TL_FQ_RD, Nat.add_assoc, State.readUnit, kindOf_tiller ht (by decide), unitOf_tiller ht (by decide)]
  rfl

theorem readUnit_capRd : s.readUnit (TL_CAP_RD t 0) = some (s.captureRead t) := by
  rw [TL_CAP_RD, Nat.add_assoc, State.readUnit, kindOf_tiller ht (by decide), unitOf_tiller ht (by decide)]
  rfl

theorem readUnit_result : s.readUnit (TL_RESULT t) = some (s.put (TL_RESULT_VALID t) 0, (s.reg (TL_RESULT t)).toNat) := by
  rw [TL_RESULT, State.readUnit, kindOf_tiller ht (by decide), unitOf_tiller ht (by decide)]
  rfl

theorem readUnit_adcRes : s.readUnit (TL_ADC_RES_LO t) = some (s.readResult t) := by
  rw [TL_ADC_RES_LO, State.readUnit, kindOf_tiller ht (by decide), unitOf_tiller ht (by decide)]
  rfl

end tiller

theorem readUnit_ucrdD7 (s : State) {u : Nat} (hu : u < 16) : s.readUnit (SH_UCRD_D u 7) = some (s.ucrdAdvance u, (s.reg (SH_UCRD_D u 7)).toNat) := by
  rw [SH_UCRD_D, Nat.add_assoc, State.readUnit, kindOf_sheaf hu (by decide) (by decide), unitOf_sheaf hu (by decide) (by decide)]
  rfl

theorem readOwn_mspData (s : State) : s.readOwn MSP_M_DATA = some s.mspPop := rfl

theorem readOwn_fcStat (s : State) : s.readOwn (FC_STAT 0) = some (s.statRead 0) := rfl

theorem readOwn_mbxRd (s : State) (d : Fin 2) : s.readOwn (SV_MBX_RD d.val) = some (s.mbxPop d.val) := by
  fin_cases d <;> rfl

theorem readOwn_hmqRd (s : State) (q : Fin 4) : s.readOwn (LK_HMQ_RD q.val) = some (s.hmqPop q.val) := by
  fin_cases q <;> rfl

theorem plainReg_mspData : plainReg MSP_M_DATA = true := by decide +kernel

theorem plainReg_fcStat : plainReg (FC_STAT 0) = true := by decide +kernel

theorem plainReg_mbxRd : ∀ d : Fin 2, plainReg (SV_MBX_RD d.val) = true := by decide +kernel

theorem plainReg_hmqRd : ∀ q : Fin 4, plainReg (LK_HMQ_RD q.val) = true := by decide +kernel

theorem plainReg_ucrdD7 : ∀ u : Fin 16, plainReg (SH_UCRD_D u.val 7) = true ∧ unpaired (kindOf (SH_UCRD_D u.val 7)) = true := by
  decide +kernel

/-! ### Pairs (R52) -/

/-- Two registers that a read takes for the low and the high word of a pair, each of a unit below 64. -/
def isPairAt (lo : Nat) : Bool :=
  plainReg lo && plainReg (lo + 4) && isPairLow (kindOf lo) && !isPairLow (kindOf (lo + 4)) && decide (4 ≤ kindOf (lo + 4)) && isPairLow (kindOf (lo + 4) - 4)
    && decide (unitOf lo < 64) && decide (unitOf (lo + 4) < 64)

theorem isPairAt_pairAddr (p : Pair64) : isPairAt (pairAddr p) = true := by
  cases p with
  | rc | firstFault => decide +kernel
  | rdvRel k =>
    revert k
    decide +kernel
  | vidx t | tdcLast t | tdcMean t | adcSum t =>
    revert t
    decide +kernel
  | calLast r =>
    revert r
    decide +kernel

/-- With no prime and no arm on its way nothing reaches the tiller late. -/
theorem delayed_of_none {s : State} {t : Nat} (h : (s.tl t).primes = [] ∧ (s.tdc t).arms = []) (inst : Nat) : s.delayed t inst = s := by
  simp [State.delayed, State.takePrimes, State.takeArms, h.1, h.2]

section pairs
variable {s : State} (hd : ∀ t, t < 64 → (s.tl t).primes = [] ∧ (s.tdc t).arms = []) {lo : Nat} (hlo : isPairAt lo = true)
include hd hlo

theorem readOwn_low : s.readOwn lo = some (s.readLow lo) := by
  simp only [isPairAt, Bool.and_eq_true, decide_eq_true_eq] at hlo
  obtain ⟨⟨⟨⟨⟨⟨⟨-, -⟩, hk⟩, -⟩, -⟩, -⟩, hu⟩, -⟩ := hlo
  have htdc : s.tdcRead lo = s.readLow lo := by simp [State.tdcRead, delayed_of_none (hd _ hu), hk]
  simp [State.readOwn, htdc, hk]

theorem readOwn_high : s.readOwn (lo + 4) = some (s.readHigh lo) := by
  simp only [isPairAt, Bool.and_eq_true, decide_eq_true_eq, Bool.not_eq_true'] at hlo
  obtain ⟨⟨⟨⟨⟨⟨⟨-, -⟩, -⟩, hk⟩, h4⟩, hk4⟩, -⟩, hu⟩ := hlo
  have htdc : s.tdcRead (lo + 4) = s.readHigh lo := by simp [State.tdcRead, delayed_of_none (hd _ hu), hk, hk4]
  simp [State.readOwn, htdc, hk, hk4, h4]

end pairs

theorem plainReg_of_isPairAt {lo : Nat} (h : isPairAt lo = true) : plainReg lo = true ∧ plainReg (lo + 4) = true := by
  simp only [isPairAt, Bool.and_eq_true] at h
  obtain ⟨⟨⟨⟨⟨⟨⟨h1, h2⟩, -⟩, -⟩, -⟩, -⟩, -⟩, -⟩ := h
  exact ⟨h1, h2⟩

@[simp] theorem latched_latchHigh (s : State) (lo hi : Nat) : (s.latchHigh lo hi).latched lo = some (hi, s.ticks) :=
  storeGet_storeSet_same (d := fun _ => none) s.latches lo (some (hi, s.ticks))

@[simp] theorem latched_freeLatch (s : State) (lo : Nat) : (s.freeLatch lo).latched lo = none :=
  storeGet_storeSet_same (d := fun _ => none) s.latches lo none

theorem readHigh_fresh {s : State} {lo hi at_ : Nat} (h : s.latched lo = some (hi, at_)) (ht : s.ticks ≤ at_ + 100) :
    s.readHigh lo = (s.freeLatch lo, hi) := by
  simp [State.readHigh, State.freshLatch, h, ht]

theorem readHigh_free {s : State} {lo : Nat} (h : s.latched lo = none) : s.readHigh lo = (s, (s.pairLive lo).2) := by
  simp [State.readHigh, h]

/-! ### Logs, FIFOs and queues -/

theorem readDone_cons {s : State} {t w : Nat} {r : List Nat} (h : (s.lvl t).done = w :: r) :
    s.readDone t = (s.setLvl t { s.lvl t with done := r, lastDone := w }, w) := by
  simp [State.readDone, h]

theorem mbxPop_cons {s : State} {d w : Nat} {r : List Nat} (h : (s.sv d).mbx = w :: r) : s.mbxPop d = (s.setSv d { s.sv d with mbx := r }, w) := by
  simp [State.mbxPop, h]

theorem mspPop_cons {s : State} {w : Nat} {r : List Nat} (h : s.msp.fifo = w :: r) :
    s.mspPop = ({ s with msp := { s.msp with fifo := r } }.setReg MSP_M_DATA (BitVec.ofNat 32 w), w) := by
  simp [State.mspPop, h]

theorem foldl_fixed_of_mem {β : Type} {f : State → β → State} {s : State} (l : List β) (h : ∀ x ∈ l, f s x = s) : l.foldl f s = s := by
  induction l with
  | nil => rfl
  | cons x l ih =>
    obtain ⟨hx, hl⟩ := List.forall_mem_cons.1 h
    rw [List.foldl_cons, hx, ih hl]

/-- No channel waits for room in a queue. -/
theorem dmaNotes_of_none {s : State} (h : ∀ c, c < 8 → (s.dma c).note = none) (q : Nat) : s.dmaNotes q = s :=
  foldl_fixed_of_mem _ fun c hc => by simp only [h c (List.mem_range.1 hc)]

theorem hmqPop_half {s : State} {q w : Nat} (h : (s.hmq q).half = some w) (hn : ∀ c, c < 8 → (s.dma c).note = none) :
    s.hmqPop q = (s.setHmq q { s.hmq q with half := none }, w) := by
  have hkeep : (s.setHmq q { s.hmq q with half := none }).dmaNotes q = s.setHmq q { s.hmq q with half := none } :=
    dmaNotes_of_none (s := s.setHmq q { s.hmq q with half := none }) hn q
  simp [State.hmqPop, h, hkeep]

theorem hmqPop_whole {s : State} {q n0 n1 : Nat} {r : List (Nat × Nat)} (h : (s.hmq q).half = none) (hr : (s.hmq q).notices = (n0, n1) :: r) :
    s.hmqPop q = (s.setHmq q ⟨r, some n1⟩, n0) := by
  simp [State.hmqPop, h, hr]

/-! ### Fail FIFO (R205, R213, R231) -/

@[simp] theorem fifos_routeTaken (s : State) (t : Nat) : (s.routeTaken t).fifos = s.fifos := by
  unfold State.routeTaken
  dsimp only
  split <;> rfl

@[simp] theorem fifos_mark (s : State) (f : Field) : (s.mark f).fifos = s.fifos := rfl

/-- An error line changes nothing else. -/
theorem raiseLine_beside (s : State) (b : Nat) : ∃ l, s.raiseLine b = { s with lines := l } := by
  unfold State.raiseLine
  split
  · exact ⟨_, rfl⟩
  · exact ⟨_, rfl⟩

@[simp] theorem fifos_raiseLine (s : State) (b : Nat) : (s.raiseLine b).fifos = s.fifos := by obtain ⟨l, e⟩ := s.raiseLine_beside b; rw [e]
@[simp] theorem reg_raiseLine (s : State) (b : Nat) : (s.raiseLine b).reg = s.reg := by obtain ⟨l, e⟩ := s.raiseLine_beside b; rw [e]; rfl
@[simp] theorem cap_raiseLine (s : State) (b : Nat) : (s.raiseLine b).cap = s.cap := by obtain ⟨l, e⟩ := s.raiseLine_beside b; rw [e]; rfl

theorem fq_of_fifos {s u : State} (h : u.fifos = s.fifos) (t : Nat) : u.fq t = s.fq t := by
  rw [State.fq, h, State.fq]

/-- The oldest entry leaves a FIFO without a drop run; whatever it is, the rest stays. -/
theorem fifoTake_cons {s : State} {t : Nat} {e : Entry} {r : List Entry} (he : (s.fq t).entries = e :: r) (hrun : (s.fq t).run = none)
    (hinj : s.on FC_INJ_STAT_ARMED = false) :
    ∃ u bad, s.fifoTake t = (u, some ⟨e.data, bad⟩) ∧ u.fq t = { s.fq t with entries := r } := by
  let q := (s.setFq t { s.fq t with entries := r }).routeTaken t
  have hq : q.fq t = { s.fq t with entries := r } := (fq_of_fifos (fifos_routeTaken ..) t).trans (fq_setFq_same ..)
  let u := if e.poison || 0 % 16 ≠ 0 then (q.mark (TL_FQ_STAT_POISON t)).raiseLine t else q
  have hu : u.fq t = { s.fq t with entries := r } := by
    unfold u
    split
    · rw [fq_of_fifos (s := q.mark (TL_FQ_STAT_POISON t)) (fifos_raiseLine ..), State.mark, fq_put, hq]
    · exact hq
  have hfreed : u.fifoFreed t = u := fifoFreed_of_run_none (by rw [hu]; exact hrun)
  refine ⟨u, e.poison || 0 % 16 ≠ 0, ?_, hu⟩
  simp only [State.fifoTake, he, inject_of_not_armed hinj]
  exact congrArg (·, _) hfreed

theorem fifoRead_denied {s : State} {t : Nat} (h : s.on (TL_FQ_STAT_DEST_NOW t) = false) :
    s.fifoRead t = (s.mark (TL_FQ_STAT_RD_DENIED t), word32 (s.fq t).hold 0) := by
  simp [State.fifoRead, h]

theorem fifoRead_host {s : State} {t : Nat} {e : Entry} {r : List Entry} (h : s.on (TL_FQ_STAT_DEST_NOW t) = true) (he : (s.fq t).entries = e :: r)
    (hrun : (s.fq t).run = none) (hinj : s.on FC_INJ_STAT_ARMED = false) :
    ∃ u, s.fifoRead t = (u, word32 e.data 0) ∧ u.fq t = { s.fq t with entries := r, hold := e.data } ∧ u.on (TL_FQ_RDTAG_STALE t) = false := by
  obtain ⟨u, bad, htake, hu⟩ := fifoTake_cons he hrun hinj
  let q := ((u.settleRoute t).setFq t { u.fq t with hold := e.data }).put (TL_FQ_RDTAG_STALE t) 0
  refine ⟨(q.put (TL_FQ_RDTAG_POISON t) (b2n bad)).put (TL_FQ_RDTAG_LEFT t) (q.fifoFill t), ?_, ?_, ?_⟩
  · simp only [State.fifoRead, h, htake]
    rfl
  · rw [fq_put, fq_put, fq_put, fq_setFq_same, hu]
  · rw [State.on, get_put_apart _ _ (by rfl) (by rfl) (by rfl), get_put_apart _ _ (by rfl) (by rfl) (by rfl), get_put_of_fits _ _ (by rfl)]
    rfl

/-! ### Capture buffer (R219) -/

theorem autoRearm_off {s : State} {t : Nat} (h : s.on (TL_CAP_CTRL_AUTO t) = false) : s.autoRearm t = s := by
  simp [State.autoRearm, h]

section capture
variable {s : State} {t : Nat} {e : Entry} {r : List Entry}

/-- The buffer after its oldest entry has been read. -/
def captured (s : State) (t : Nat) (e : Entry) (r : List Entry) : State :=
  (((s.setCap t { s.cap t with entries := r, hold := e.data }).put (TL_CAP_RDTAG_STALE t) 0).put (TL_CAP_RDTAG_POISON t) (b2n e.poison)).put
    (TL_CAP_RDTAG_LEFT t) r.length

theorem on_stale_captured : (s.captured t e r).on (TL_CAP_RDTAG_STALE t) = false := by
  rw [State.on, State.captured, get_put_apart _ _ (by rfl) (by rfl) (by rfl), get_put_apart _ _ (by rfl) (by rfl) (by rfl),
    get_put_of_fits _ _ (by rfl)]
  rfl

theorem on_poison_captured : (s.captured t e r).on (TL_CAP_RDTAG_POISON t) = e.poison := by
  rw [State.on, State.captured, get_put_apart _ _ (by rfl) (by rfl) (by rfl), get_put_of_fits _ _ (by rfl)]
  cases e.poison <;> rfl

theorem reg_captured {b : Nat} (h : b ≠ TL_CAP_RDTAG t) : (s.captured t e r).reg b = s.reg b := by
  rw [State.captured, reg_put_other _ _ _ h, reg_put_other _ _ _ h, reg_put_other _ _ _ h, reg_setCap]

theorem captureRead_done (h3 : s.get (TL_CAP_STAT_STATE t) = 3) (he : (s.cap t).entries = e :: r) (ha : s.on (TL_CAP_CTRL_AUTO t) = false)
    (hinj : s.on FC_INJ_STAT_ARMED = false) :
    ∃ u, s.captureRead t = (u, word32 e.data 0) ∧ u.cap t = { s.cap t with entries := r, hold := e.data } ∧ u.on (TL_CAP_RDTAG_STALE t) = false ∧
      u.on (TL_CAP_RDTAG_POISON t) = e.poison := by
  let q := if e.poison then ((s.captured t e r).mark (TL_CAP_STAT_POISON t)).raiseLine t else s.captured t e r
  have hreg {b : Nat} (hb : b ≠ TL_CAP_STAT t) : q.reg b = (s.captured t e r).reg b := by
    unfold q
    split
    · rw [reg_raiseLine, reg_mark_other _ _ hb]
    · rfl
  have hcap : q.cap t = { s.cap t with entries := r, hold := e.data } := by
    unfold q
    split
    · rw [cap_raiseLine, State.mark, State.captured, cap_put, cap_put, cap_put, cap_put, cap_setCap_same]
    · rw [State.captured, cap_put, cap_put, cap_put, cap_setCap_same]
  have htag : TL_CAP_RDTAG t ≠ TL_CAP_STAT t := by
    unfold TL_CAP_RDTAG TL_CAP_STAT
    omega
  have hctrl : TL_CAP_CTRL t ≠ TL_CAP_STAT t ∧ TL_CAP_CTRL t ≠ TL_CAP_RDTAG t := by
    unfold TL_CAP_CTRL TL_CAP_STAT TL_CAP_RDTAG
    omega
  have hauto : q.autoRearm t = q :=
    autoRearm_off ((on_eq_of_get (get_eq_of_reg (f := TL_CAP_CTRL_AUTO t) ((hreg hctrl.1).trans (reg_captured hctrl.2)))).trans ha)
  refine ⟨q, ?_, hcap, ?_, ?_⟩
  · have hbad : (e.poison || decide (0 % 16 ≠ 0)) = e.poison := Bool.or_false _
    rw [← hauto]
    simp only [State.captureRead, h3, he, inject_of_not_armed hinj, hbad, q, State.captured]
  · rw [on_eq_of_get (get_eq_of_reg (f := TL_CAP_RDTAG_STALE t) (hreg htag)), on_stale_captured]
  · rw [on_eq_of_get (get_eq_of_reg (f := TL_CAP_RDTAG_POISON t) (hreg htag)), on_poison_captured]

end capture

/-! ### Control store (R254) -/

/-- The read path presents a word: it writes its eight data registers, and counts no error where no checker is armed. -/
theorem reg_present {s : State} (hinj : s.on FC_INJ_STAT_ARMED = false) {u b : Nat} (hb : ∀ k, k < 8 → b ≠ SH_UCRD_D u k) : (s.present u).reg b = s.reg b := by
  have e : s.present u = (List.range 8).foldl (fun q k => q.put (SH_UCRD_D_DATA u k) (word32 (s.ucWord u (s.get (SH_UCRD_ADDR_ADDR u))) k)) s := by
    simp only [State.present, inject_of_not_armed hinj]
    rfl
  rw [e]
  exact reg_foldl _ (fun q k hk => reg_put_other q _ _ (hb k (List.mem_range.1 hk))) s

theorem get_addr_ucrdAdvance {s : State} (hinj : s.on FC_INJ_STAT_ARMED = false) {u : Nat} (hu : u < 16) :
    (s.ucrdAdvance u).get (SH_UCRD_ADDR_ADDR u) = (s.get (SH_UCRD_ADDR_ADDR u) + 1) % 2 ^ 14 := by
  have hne : FC_INJ_STAT ≠ SH_UCRD_ADDR u := by
    unfold FC_INJ_STAT SH_UCRD_ADDR shBase
    omega
  have hkeep : (s.wrapUp (SH_UCRD_ADDR_ADDR u)).on FC_INJ_STAT_ARMED = false :=
    (on_eq_of_get (get_eq_of_reg (f := FC_INJ_STAT_ARMED) (reg_wrapUp_other s (SH_UCRD_ADDR_ADDR u) hne))).trans hinj
  have hdata (k : Nat) : SH_UCRD_ADDR u ≠ SH_UCRD_D u k := by
    unfold SH_UCRD_ADDR SH_UCRD_D
    omega
  rw [State.ucrdAdvance, get_eq_of_reg (f := SH_UCRD_ADDR_ADDR u) (reg_present hkeep fun k _ => hdata k), State.wrapUp, get_put_of_fits _ _ (by rfl)]
  rfl

end State

/-! ### The instructions -/

open State

section reads
variable {s : State} (hr : s.ready = true)
include hr

section pairs
variable (hd : ∀ t, t < 64 → (s.tl t).primes = [] ∧ (s.tdc t).arms = []) (p : Pair64)
include hd

theorem exec_rcLoRead : exec (.rcLoRead p) s = .next ((s.readLow (pairAddr p)).1.out (s.readLow (pairAddr p)).2) :=
  congrArg _ (readOut_own .bar0 hr (plainReg_of_isPairAt (isPairAt_pairAddr p)).1 (readOwn_low hd (isPairAt_pairAddr p)))

theorem exec_rcHiRead : exec (.rcHiRead p) s = .next ((s.readHigh (pairAddr p)).1.out (s.readHigh (pairAddr p)).2) :=
  congrArg _ (readOut_own .bar0 hr (plainReg_of_isPairAt (isPairAt_pairAddr p)).2 (readOwn_high hd (isPairAt_pairAddr p)))

end pairs

theorem exec_lvlDoneRead (t : Fin 64) : exec (.lvlDoneRead t) s = .next ((s.readDone t.val).1.out (s.readDone t.val).2) :=
  congrArg _ (readOut_tiller .bar0 hr t.isLt (by decide) (by decide) (by decide) (by decide) (readUnit_lvlDone s t.isLt))

theorem exec_fqRead (t : Fin 64) : exec (.fqRead t) s = .next ((s.fifoRead t.val).1.out (s.fifoRead t.val).2) :=
  congrArg _ (readOut_tiller (o := 0x310) .bar0 hr t.isLt (by decide) (by decide) (by decide) (by decide) (readUnit_fqRd s t.isLt))

theorem exec_capRead (t : Fin 64) : exec (.capRead t) s = .next ((s.captureRead t.val).1.out (s.captureRead t.val).2) :=
  congrArg _ (readOut_tiller (o := 0x2d0) .bar0 hr t.isLt (by decide) (by decide) (by decide) (by decide) (readUnit_capRd s t.isLt))

theorem exec_resultRead (t : Fin 64) : exec (.resultRead t) s =
    .next ((s.put (TL_RESULT_VALID t.val) 0).out (s.reg (TL_RESULT t.val)).toNat) :=
  congrArg _ (readOut_tiller .bar0 hr t.isLt (by decide) (by decide) (by decide) (by decide) (readUnit_result s t.isLt))

theorem exec_adcResRead (t : Fin 64) : exec (.adcResRead t) s =
    .next ((s.readResult t.val).1.out (s.readResult t.val).2) :=
  congrArg _ (readOut_tiller .bar0 hr t.isLt (by decide) (by decide) (by decide) (by decide) (readUnit_adcRes s t.isLt))

theorem exec_mbxRead (d : Fin 2) : exec (.mbxRead d) s = .next ((s.mbxPop d.val).1.out (s.mbxPop d.val).2) :=
  congrArg _ (readOut_own .bar0 hr (plainReg_mbxRd d) (readOwn_mbxRd s d))

theorem exec_hmqRead (q : Fin 4) : exec (.hmqRead q) s = .next ((s.hmqPop q.val).1.out (s.hmqPop q.val).2) :=
  congrArg _ (readOut_own .bar0 hr (plainReg_hmqRd q) (readOwn_hmqRd s q))

theorem exec_mspDataRead : exec .mspDataRead s = .next (s.mspPop.1.out s.mspPop.2) :=
  congrArg _ (readOut_own .bar0 hr plainReg_mspData (readOwn_mspData s))

theorem exec_fcStatRead : exec .fcStatRead s = .next ((s.statRead 0).1.out (s.statRead 0).2) :=
  congrArg _ (readOut_own .bar0 hr plainReg_fcStat (readOwn_fcStat s))

theorem exec_ucrdD7Read (u : Fin 16) : exec (.ucrdD7Read u) s =
    .next ((s.ucrdAdvance u.val).out (s.reg (SH_UCRD_D u.val 7)).toNat) := by
  have hown := readOwn_unit (plainReg_ucrdD7 u).2 (readUnit_ucrdD7 s u.isLt)
  rw [← readOut_own .bar0 hr (plainReg_ucrdD7 u).1 hown]
  rfl

end reads

/-! ### What each presents and leaves -/

section effects
variable {s : State} (hr : s.ready = true) (hinj : s.on FC_INJ_STAT_ARMED = false)
include hr

section pairs
variable (hd : ∀ t, t < 64 → (s.tl t).primes = [] ∧ (s.tdc t).arms = []) (p : Pair64)
include hd

theorem rcHiRead_latched {hi at_ : Nat} (h : s.latched (pairAddr p) = some (hi, at_)) (ht : s.ticks ≤ at_ + 100) :
    ∃ t, exec (.rcHiRead p) s = .next t ∧ t.rdData = hi ∧ t.latched (pairAddr p) = none ∧ t.regs = s.regs := by
  refine ⟨_, exec_rcHiRead hr hd p, ?_⟩
  rw [readHigh_fresh h ht]
  exact ⟨rfl, latched_freeLatch s (pairAddr p), rfl⟩

theorem rcHiRead_live (h : s.latched (pairAddr p) = none) :
    ∃ t, exec (.rcHiRead p) s = .next t ∧ t.rdData = (s.pairLive (pairAddr p)).2 ∧ t.regs = s.regs := by
  refine ⟨_, exec_rcHiRead hr hd p, ?_⟩
  rw [readHigh_free h]
  exact ⟨rfl, rfl⟩

end pairs

omit hr in
/-- The latch lapses at its hundredth tick. -/
theorem exec_hiLatchExpire (p : Pair64) {hi at_ : Nat} (h : s.latched (pairAddr p) = some (hi, at_)) (ht : s.ticks ≤ at_ + 100) :
    ∃ t, exec (.hiLatchExpire p) s = .next t ∧ t.latched (pairAddr p) = none ∧ t.ticks = at_ + 100 ∧ t.regs = s.regs := by
  refine ⟨(s.advTo (at_ + 100)).freeLatch (pairAddr p), ?_, latched_freeLatch .., ticks_advTo_of_le ht, regs_advTo s _⟩
  change Host.Outcome.next (s.expireLatch (pairAddr p)) = _
  simp only [State.expireLatch, h]

theorem lvlDoneRead_takes (t : Fin 64) {w : Nat} {r : List Nat} (h : (s.lvl t.val).done = w :: r) :
    ∃ u, exec (.lvlDoneRead t) s = .next u ∧ u.rdData = w ∧ (u.lvl t.val).done = r ∧ u.regs = s.regs := by
  refine ⟨_, exec_lvlDoneRead hr t, ?_⟩
  rw [readDone_cons h]
  exact ⟨rfl, congrArg Levels.done (lvl_setLvl_same s t.val { s.lvl t.val with done := r, lastDone := w }), rfl⟩

theorem mbxRead_takes (d : Fin 2) {w : Nat} {r : List Nat} (h : (s.sv d.val).mbx = w :: r) :
    ∃ u, exec (.mbxRead d) s = .next u ∧ u.rdData = w ∧ (u.sv d.val).mbx = r ∧ u.regs = s.regs := by
  refine ⟨_, exec_mbxRead hr d, ?_⟩
  rw [mbxPop_cons h]
  exact ⟨rfl, congrArg Supervisor.mbx (sv_setSv_same s d.val { s.sv d.val with mbx := r }), rfl⟩

theorem hmqRead_second (q : Fin 4) {w : Nat} (h : (s.hmq q.val).half = some w) (hn : ∀ c, c < 8 → (s.dma c).note = none) :
    ∃ u, exec (.hmqRead q) s = .next u ∧ u.rdData = w ∧ (u.hmq q.val).half = none ∧ (u.hmq q.val).notices = (s.hmq q.val).notices ∧ u.regs = s.regs := by
  have hx := hmq_setHmq_same s q.val { s.hmq q.val with half := none }
  refine ⟨_, exec_hmqRead hr q, ?_⟩
  rw [hmqPop_half h hn, hmq_out, hx]
  exact ⟨rfl, rfl, rfl, rfl⟩

theorem hmqRead_first (q : Fin 4) {n0 n1 : Nat} {r : List (Nat × Nat)} (h : (s.hmq q.val).half = none) (hn : (s.hmq q.val).notices = (n0, n1) :: r) :
    ∃ u, exec (.hmqRead q) s = .next u ∧ u.rdData = n0 ∧ (u.hmq q.val).half = some n1 ∧ (u.hmq q.val).notices = r ∧ u.regs = s.regs := by
  have hx := hmq_setHmq_same s q.val ⟨r, some n1⟩
  refine ⟨_, exec_hmqRead hr q, ?_⟩
  rw [hmqPop_whole h hn]
  exact ⟨rfl, congrArg Hmq.half hx, congrArg Hmq.notices hx, rfl⟩

theorem mspDataRead_takes {w : Nat} {r : List Nat} (h : s.msp.fifo = w :: r) :
    ∃ u, exec .mspDataRead s = .next u ∧ u.rdData = w ∧ u.msp.fifo = r := by
  refine ⟨_, exec_mspDataRead hr, ?_⟩
  rw [mspPop_cons h]
  exact ⟨rfl, rfl⟩

theorem fqRead_denied (t : Fin 64) (h : s.on (TL_FQ_STAT_DEST_NOW t.val) = false) :
    ∃ u, exec (.fqRead t) s = .next u ∧ u.rdData = word32 (s.fq t.val).hold 0 ∧ u.on (TL_FQ_STAT_RD_DENIED t.val) = true ∧ u.fifos = s.fifos := by
  refine ⟨_, exec_fqRead hr t, ?_⟩
  rw [fifoRead_denied h, on_out, on_mark_of_fits s (by rfl), fifos_out, fifos_mark]
  exact ⟨rfl, rfl, rfl⟩

theorem resultRead_takes (t : Fin 64) : ∃ u, exec (.resultRead t) s = .next u ∧ u.rdData = (s.reg (TL_RESULT t.val)).toNat ∧
    u.on (TL_RESULT_VALID t.val) = false ∧ ∀ a, a ≠ TL_RESULT t.val → u.reg a = s.reg a :=
  ⟨_, exec_resultRead hr t, rdData_out .., by rw [on_out, on_put_of_fits s 0 (by rfl), Nat.zero_mod]; rfl,
    fun _ ha => by rw [reg_out, reg_put_other s _ 0 ha]⟩

theorem adcResRead_takes (t : Fin 64) : ∃ u, exec (.adcResRead t) s = .next u ∧ u.rdData = (s.reg (TL_ADC_RES_LO t.val)).toNat ∧
    u.on (TL_ADC_RES_HI_VALID t.val) = false ∧ ∀ a, a ≠ TL_ADC_RES_HI t.val → u.reg a = s.reg a := by
  have hlo : TL_ADC_RES_LO t.val ≠ GL_RC_LO := by
    unfold TL_ADC_RES_LO GL_RC_LO tlBase
    omega
  have hlive : s.pairLive (TL_ADC_RES_LO t.val) = ((s.reg (TL_ADC_RES_LO t.val)).toNat, (s.reg (TL_ADC_RES_LO t.val + 4)).toNat) := if_neg hlo
  have hread : s.readResult t.val = ((s.latchHigh (TL_ADC_RES_LO t.val) (s.pairLive (TL_ADC_RES_LO t.val)).2).put (TL_ADC_RES_HI_VALID t.val) 0,
      (s.reg (TL_ADC_RES_LO t.val)).toNat) := by
    rw [State.readResult, State.readLow, hlive]
  refine ⟨_, exec_adcResRead hr t, ?_⟩
  rw [hread, rdData_out, on_out, reg_out, on_put_of_fits _ _ (by rfl), Nat.zero_mod]
  exact ⟨rfl, rfl, fun a ha => reg_put_other _ _ _ ha⟩

theorem fcStatRead_snapshot : ∃ u, exec .fcStatRead s = .next u ∧ u.rdData = (s.reg (FC_STAT 0)).toNat ∧
    u.collector.snapshot = (List.range 8).map (fun i => (s.reg (FC_STAT i)).toNat) ∧ u.regs = s.regs :=
  ⟨_, exec_fcStatRead hr, rfl, rfl, rfl⟩

section checker
include hinj

theorem fqRead_takes (t : Fin 64) {e : Entry} {r : List Entry} (h : s.on (TL_FQ_STAT_DEST_NOW t.val) = true) (he : (s.fq t.val).entries = e :: r)
    (hrun : (s.fq t.val).run = none) :
    ∃ u, exec (.fqRead t) s = .next u ∧ u.rdData = word32 e.data 0 ∧ (u.fq t.val).entries = r ∧ (u.fq t.val).hold = e.data ∧
      u.on (TL_FQ_RDTAG_STALE t.val) = false := by
  obtain ⟨u, hread, hfq, hstale⟩ := fifoRead_host h he hrun hinj
  refine ⟨_, exec_fqRead hr t, ?_⟩
  rw [hread]
  exact ⟨rfl, congrArg FailFifo.entries hfq, congrArg FailFifo.hold hfq, hstale⟩

theorem capRead_takes (t : Fin 64) {e : Entry} {r : List Entry} (h3 : s.get (TL_CAP_STAT_STATE t.val) = 3) (he : (s.cap t.val).entries = e :: r)
    (ha : s.on (TL_CAP_CTRL_AUTO t.val) = false) :
    ∃ u, exec (.capRead t) s = .next u ∧ u.rdData = word32 e.data 0 ∧ (u.cap t.val).entries = r ∧ (u.cap t.val).hold = e.data ∧
      u.on (TL_CAP_RDTAG_STALE t.val) = false ∧ u.on (TL_CAP_RDTAG_POISON t.val) = e.poison := by
  obtain ⟨u, hread, hcap, hstale, hpoison⟩ := captureRead_done h3 he ha hinj
  refine ⟨_, exec_capRead hr t, ?_⟩
  rw [hread]
  exact ⟨rfl, congrArg Capture.entries hcap, congrArg Capture.hold hcap, hstale, hpoison⟩

theorem ucrdD7Read_advances (k : Fin 16) : ∃ t, exec (.ucrdD7Read k) s = .next t ∧ t.rdData = (s.reg (SH_UCRD_D k.val 7)).toNat ∧
    t.get (SH_UCRD_ADDR_ADDR k.val) = (s.get (SH_UCRD_ADDR_ADDR k.val) + 1) % 2 ^ 14 :=
  ⟨_, exec_ucrdD7Read hr k, rdData_out .., by rw [get_out, get_addr_ucrdAdvance hinj k.isLt]⟩

end checker

end effects

/-! ### The result of the TDC (R323) -/

section tdc
variable {s : State} (t : Fin 64)

theorem regAt_tdcResult : regAt (TL_TDC_RESULT t.val) =
    some ⟨0x394, 1, 4, 1, 4, [⟨15, 0, .ro, false, 0⟩, ⟨30, 28, .ro, false, 0⟩, ⟨31, 31, .rc, false, 0⟩]⟩ := by
  revert t
  decide +kernel

theorem tdcResult_row : plainReg (TL_TDC_RESULT t.val) = true ∧ tdcKind (kindOf (TL_TDC_RESULT t.val)) = true ∧
    isPairLow (kindOf (TL_TDC_RESULT t.val)) = false ∧ isPairLow (kindOf (TL_TDC_RESULT t.val) - 4) = false ∧
    unitOf (TL_TDC_RESULT t.val) = t.val ∧ bits (resetWord (TL_TDC_RESULT t.val)).toNat 31 31 = 0 := by
  revert t
  decide +kernel

/-- The register shows nothing kept elsewhere. -/
theorem shown_tdcResult : s.shown (TL_TDC_RESULT t.val) = (s.reg (TL_TDC_RESULT t.val)).toNat := by
  have hu := unitOf_tiller t.isLt (o := 0x394) (by decide)
  have hunit : s.shownTiller t.val (tlBase t.val + 0x394) = [] := by
    simp only [State.shownTiller, TL_FLAGS, TL_SUP_CTRL, TL_APG_PX, TL_APG_PY, TL_LVL_STAT, TL_STRM_STAT, TL_CAP_STAT, TL_FQ_STAT, TL_ADC_STAT, Nat.add_assoc]
    simp
  have hfields : s.shownFields (TL_TDC_RESULT t.val) = [] := by
    rw [TL_TDC_RESULT, State.shownFields, hu, hunit, if_neg (by unfold tlBase; omega), if_neg (by unfold tlBase; omega), if_neg (by unfold tlBase; omega),
      if_pos (by unfold tlBase; omega), if_pos (by unfold tlBase; omega)]
  rw [State.shown, hfields]
  rfl

theorem tdcResultRead_takes (hr : s.ready = true) (hd : (s.tl t.val).primes = [] ∧ (s.tdc t.val).arms = []) :
    ∃ u, exec (.tdcResultRead t) s = .next u ∧ u.rdData = (s.reg (TL_TDC_RESULT t.val)).toNat ∧ u.on (TL_TDC_RESULT_VALID t.val) = false ∧
      ∀ a, a ≠ TL_TDC_RESULT t.val → u.reg a = s.reg a := by
  obtain ⟨hplain, hkind, hlow, hhigh, hunit, hreset⟩ := tdcResult_row t
  have hown : s.readOwn (TL_TDC_RESULT t.val) = some (s.clearRead (TL_TDC_RESULT t.val), s.shown (TL_TDC_RESULT t.val)) := by
    simp [State.readOwn, State.tdcRead, hkind, hlow, hhigh, hunit, delayed_of_none hd]
  have hvalid : (s.clearRead (TL_TDC_RESULT t.val)).get (TL_TDC_RESULT_VALID t.val) = 0 :=
    (bits_clearRead_rc (f := ⟨31, 31, .rc, false, 0⟩) s (regAt_tdcResult t) (by simp) rfl).trans hreset
  refine ⟨_, congrArg Host.Outcome.next (readOut_own .bar0 hr hplain hown), ?_, ?_, fun a ha => ?_⟩
  · rw [rdData_out, shown_tdcResult]
  · rw [on_out, State.on, hvalid]
    rfl
  · rw [reg_out, reg_clearRead_other s (regAt_tdcResult t) ha]

end tdc

/-- Settles O15: each read by the rule of the register it goes to. -/
theorem readsWithEffectsAct : Obligations.ReadsWithEffectsAct := by
  intro s hr hinj hnone
  have hd (t : Nat) (ht : t < 64) : (s.tl t).primes = [] ∧ (s.tdc t).arms = [] := hnone ⟨t, ht⟩
  exact ⟨fun p => ⟨⟨_, exec_rcLoRead hr hd p, rfl, latched_latchHigh s (pairAddr p) (s.pairLive (pairAddr p)).2, rfl⟩,
      fun hi at_ h ht => ⟨rcHiRead_latched hr hd p h ht, exec_hiLatchExpire p h ht⟩, rcHiRead_live hr hd p⟩,
    fun t w r => lvlDoneRead_takes hr t, fun t e r => fqRead_takes hr hinj t, fqRead_denied hr, fun t e r => capRead_takes hr hinj t,
    fun d w r => mbxRead_takes hr d, fun q w => hmqRead_second hr q, fun q n0 n1 r => hmqRead_first hr q, fun w r => mspDataRead_takes hr,
    resultRead_takes hr, fun t => tdcResultRead_takes t hr (hnone t), adcResRead_takes hr, fcStatRead_snapshot hr, ucrdD7Read_advances hr hinj⟩

end Sys2Proof.Machine
end

section
/-! SUPPORT. The period end of an opcode command (R44, R76, R122 to R125, R130), and O21 settled. -/

namespace Sys2Proof.Machine

namespace State

/-! ### Bits of fields -/

theorem testBit_get_put (s : State) {f : Field} (v : Nat) {i : Nat} (hf : f.fits = true) (hi : i < f.hi + 1 - f.lo) :
    ((s.put f v).get f).testBit i = v.testBit i := by
  rw [get_put_of_fits s v hf, Nat.testBit_mod_two_pow, decide_eq_true hi, Bool.true_and]

/-- A bit of a field reads as it was written. -/
theorem fbit_putBit (s : State) {f : Field} {i : Nat} (b : Bool) (hf : f.fits = true) (hi : i < f.hi + 1 - f.lo) : (s.putBit f i b).fbit f i = b := by
  rw [State.fbit, State.putBit, testBit_get_put s _ hf hi]
  cases b with
  | true => simp [Nat.testBit_or, Nat.testBit_two_pow_self]
  | false =>
    cases h : (s.get f).testBit i with
    | true => simp [Nat.testBit_xor, Nat.testBit_two_pow_self, h]
    | false => simp [h]

/-! ### Traces and LATE (R40, R93) -/

/-- Of the tiller a trace entry changes the trace alone. -/
theorem tl_trace (s : State) (t kind opc w1 : Nat) : ∃ x n, (s.trace t kind opc w1).tl t = { s.tl t with trace := x, traceLen := n } := by
  unfold State.trace
  dsimp only
  split_ifs
  · exact ⟨_, _, rfl⟩
  · exact ⟨_, _, tl_setTl_same ..⟩
  · exact ⟨_, _, tl_setTl_same ..⟩

theorem tl_source (s : State) (n : Nat) : (s.source n).tl = s.tl := by
  unfold State.tl
  rw [tillers_source]

/-- LATE is a tag and a trace entry to the tiller: what follows its vector stands. -/
theorem next_setLate (s : State) (t idx : Nat) : ((s.setLate t idx).tl t).next = (s.tl t).next := by
  obtain ⟨x, n, e⟩ := ((((s.mark (lateBit t)).tag t 28).tlSource t 13)).tl_trace t 11 (s.tl t).vec.opc (idx % 2 ^ 14)
  rw [State.setLate, e, State.tlSource, tl_source, State.tag, tl_modTl, State.mark, tl_put]

/-! ### Rendezvous: an arrival (R44, R45) -/

/-- A run of steps that change registers alone. -/
theorem foldl_regs {β : Type} {f : State → β → State} (hf : ∀ s x, ∃ r, f s x = { s with regs := r }) (l : List β) (s : State) :
    ∃ r, l.foldl f s = { s with regs := r } := by
  induction l generalizing s with
  | nil => exact ⟨_, rfl⟩
  | cons x l ih =>
    obtain ⟨r, e⟩ := hf s x
    obtain ⟨r', e'⟩ := ih (f s x)
    exact ⟨r', by rw [List.foldl_cons, e', e]⟩

/-- An epoch that opens marks results. -/
theorem openEpoch_beside (s : State) (k : Nat) : ∃ r, s.openEpoch k = { s with regs := r } := by
  unfold State.openEpoch
  split
  · exact ⟨_, rfl⟩
  · obtain ⟨r, e⟩ := foldl_regs (f := fun s t => if s.on (TL_RESULT_VALID t) then s.mark (TL_RESULT_ABSENT t) else s)
      (fun q t => by split <;> exact ⟨_, rfl⟩) (allTillers.filter (fun t => (s.rdv k).withdrawn.testBit t)) (s.put (GL_RDV_STAT_STATE k) 1)
    exact ⟨r, e⟩

@[simp] theorem tillers_put (s : State) (f : Field) (v : Nat) : (s.put f v).tillers = s.tillers := rfl
@[simp] theorem tillers_mark (s : State) (f : Field) : (s.mark f).tillers = s.tillers := rfl
@[simp] theorem tillers_setRdv (s : State) (k : Nat) (x : Rdv) : (s.setRdv k x).tillers = s.tillers := rfl

@[simp] theorem tillers_openEpoch (s : State) (k : Nat) : (s.openEpoch k).tillers = s.tillers := by
  obtain ⟨r, e⟩ := s.openEpoch_beside k
  rw [e]

@[simp] theorem tillers_sendRelease (s : State) (k r : Nat) (timeout : Bool) : (s.sendRelease k r timeout).tillers = s.tillers := rfl

@[simp] theorem tillers_leadReport (s : State) (k x y epoch : Nat) (first complete : Bool) (stamp : Nat) :
    (s.leadReport k x y epoch first complete stamp).tillers = s.tillers := by
  unfold State.leadReport
  dsimp only
  split_ifs <;> simp only [tillers_mark, tillers_sendRelease, tillers_openEpoch, tillers_setRdv]

@[simp] theorem tillers_report (s : State) (k : Nat) (first complete : Bool) (stamp : Nat) : (s.report k first complete stamp).tillers = s.tillers := by
  unfold State.report
  dsimp only
  split_ifs
  · exact tillers_leadReport ..
  · rfl
  · rfl

@[simp] theorem tillers_reportDone (s : State) (k : Nat) (first : Bool) (stamp : Nat) : (s.reportDone k first stamp).tillers = s.tillers := by
  unfold State.reportDone
  dsimp only
  split
  · simp only [tillers_report, tillers_openEpoch, tillers_setRdv]
  · rfl

/-- An arrival is the group's concern: no tiller changes. -/
@[simp] theorem tillers_arrive (s : State) (t k stamp : Nat) : (s.arrive t k stamp).tillers = s.tillers := by
  unfold State.arrive
  simp only [tillers_reportDone, tillers_openEpoch, tillers_put, tillers_setRdv]

theorem tl_arrive (s : State) (t k stamp : Nat) : (s.arrive t k stamp).tl = s.tl := by
  unfold State.tl
  rw [tillers_arrive]

/-! ### The end of the vector's period (R73) -/

section periodEnd
variable {s : State} {t : Nat}

theorem periodEnd_halt {code : Nat} (h : (s.tl t).next = .halt code) : s.periodEnd t = (s.lastPass t).haltNow t (ceilCycle (s.tl t).dueAt) code := by
  simp only [State.periodEnd, h]

theorem periodEnd_notMember (h : (s.tl t).next = .notMember) : s.periodEnd t = s.notMember t (ceilCycle (s.tl t).dueAt) := by
  simp only [State.periodEnd, h]

/-- Where no stop waits the tiller parks. -/
theorem periodEnd_park {p : Park} (h : (s.tl t).next = .park p) (hs : (s.tl t).stopReq = false) :
    s.periodEnd t = (s.modTl t (fun x => { x with next := .seq })).parkAt t (parkWhy p) p (ceilCycle (s.tl t).dueAt) := by
  simp only [State.periodEnd, h, hs, Bool.false_eq_true, if_false]

/-- Where no stop waits the gap begins. -/
theorem periodEnd_calgap {n : Nat} (h : (s.tl t).next = .calgap n) (hs : (s.tl t).stopReq = false) :
    s.periodEnd t = s.enterGap t (s.tl t).dueAt n (s.tl t).vec.tset false := by
  simp only [State.periodEnd, h, hs, Bool.false_eq_true, if_false]

end periodEnd

/-! ### The opcode of the vector most recently issued (R87) -/

@[simp] theorem tl_follow (s : State) (t : Nat) (n : Next) : (s.follow t n).tl t = { s.tl t with next := n, dueAt := (s.tl t).endAt } := tl_modTl ..

@[simp] theorem tl_advInst (s : State) (inst : Nat) : (s.advInst inst).tl = s.tl := tl_advTo ..

@[simp] theorem tl_carrying (s : State) (t opc opd cnd : Nat) :
    (s.carrying t opc opd cnd).tl t = { s.tl t with vec := { (s.tl t).vec with opc := opc, opd := opd, cnd := cnd } } := tl_setTl_same ..

section opcode
variable {s : State} {t opc opd cnd : Nat} {f : State → State} (h : s.opcodeRuns t opc opd cnd = true)

include h in
theorem asOpcode_runs (h38 : opc ≠ 0x38) (h41 : opc ≠ 0x41) : s.asOpcode t opc opd cnd f =
    let q := f (s.carrying t opc opd cnd)
    if (q.tl t).next.stops then (q.advInst (q.tl t).dueAt).periodEnd t else q := by
  simp only [State.opcodeRuns, Bool.and_eq_true, beq_iff_eq, bne_iff_ne, Option.isNone_iff_eq_none] at h
  obtain ⟨⟨⟨heng, hiss⟩, hgap⟩, hcause⟩ := h
  simp [State.asOpcode, heng, hiss, hgap, hcause, h38, h41, State.carrying]

/-- The operand has none of the opcode's reserved bits. -/
theorem and_reservedOperand_of_runs (h : s.opcodeRuns t opc opd cnd = true) (ht : hasTarget opc = false) : opd &&& reservedOperand opc = 0 := by
  simp only [State.opcodeRuns, Bool.and_eq_true, beq_iff_eq] at h
  obtain ⟨-, hcause⟩ := h
  by_contra hne
  unfold State.opcodeCause at hcause
  simp only [ht, Bool.not_false, Bool.true_and, decide_eq_true hne, if_true] at hcause
  split_ifs at hcause

end opcode

/-- An operand without the bits from n on is below 2^n. -/
theorem lt_of_and_mask {w n mask : Nat} (hw : w < 2 ^ 32) (hm : ∀ i : Fin 32, n ≤ i.val → mask.testBit i.val = true) (h : w &&& mask = 0) : w < 2 ^ n := by
  by_contra hge
  obtain ⟨i, hi, hbit⟩ := Nat.exists_ge_and_testBit_of_ge_two_pow (Nat.le_of_not_lt hge)
  have hi32 : i < 32 := by
    by_contra hlt
    rw [Nat.testBit_lt_two_pow (hw.trans_le (Nat.pow_le_pow_right (by norm_num) (Nat.le_of_not_lt hlt)))] at hbit
    exact Bool.noConfusion hbit
  have hboth : (w &&& mask).testBit i = true := by rw [Nat.testBit_and, hbit, hm ⟨i, hi32⟩ hi]; rfl
  rw [h, Nat.zero_testBit] at hboth
  exact Bool.noConfusion hboth

/-! ### What each opcode comes to at its period end -/

section opcode
variable {s : State} {t opc opd cnd : Nat} {f : State → State} (h : s.opcodeRuns t opc opd cnd = true) (h38 : opc ≠ 0x38) (h41 : opc ≠ 0x41)
include h h38 h41

/-- An opcode after which a vector follows. -/
theorem asOpcode_goes (hn : ((f (s.carrying t opc opd cnd)).tl t).next = .seq) : s.asOpcode t opc opd cnd f = f (s.carrying t opc opd cnd) := by
  rw [asOpcode_runs h h38 h41]
  simp [hn, Next.stops]

/-- An opcode that ends at its period end, where `q` is the state in which it was decided. -/
theorem asOpcode_stops {q : State} {n : Next} (hf : f (s.carrying t opc opd cnd) = q.follow t n) (hn : n.stops = true) (hq : (q.tl t).endAt = (s.tl t).endAt) :
    s.asOpcode t opc opd cnd f = ((q.follow t n).advInst (s.tl t).endAt).periodEnd t := by
  rw [asOpcode_runs h h38 h41]
  simp [hf, hn, hq]

/-- An opcode that parks. -/
theorem asOpcode_parks {q : State} {p : Park} (hf : f (s.carrying t opc opd cnd) = q.follow t (.park p)) (hq : q.tl t = (s.carrying t opc opd cnd).tl t)
    (hs : (s.tl t).stopReq = false) : s.asOpcode t opc opd cnd f = (((q.follow t (.park p)).advInst (s.tl t).endAt).modTl t
      (fun y => { y with next := .seq })).parkAt t (parkWhy p) p (ceilCycle (s.tl t).endAt) := by
  rw [asOpcode_stops h h38 h41 hf rfl (by rw [hq, tl_carrying]), periodEnd_park (p := p) (by simp) (by simp [hq, hs])]
  simp [hq]

end opcode

end State

open State

section opcodes
variable {t : Fin 64} {w : Word} {s : State}

theorem exec_vHalt (h : s.opcodeRuns t.val 0x07 w.toNat 0 = true) : exec (.vHalt t w) s =
    .next (((((s.carrying t.val 0x07 w.toNat 0).follow t.val (.halt w.toNat)).advInst (s.tl t.val).endAt).lastPass t.val).haltNow t.val
      (ceilCycle (s.tl t.val).endAt) w.toNat) := by
  have hw : w.toNat < 2 ^ 16 := lt_of_and_mask w.isLt (by decide) (and_reservedOperand_of_runs h rfl)
  have hf : opHalt (s.carrying t.val 0x07 w.toNat 0) t.val w.toNat = (s.carrying t.val 0x07 w.toNat 0).follow t.val (.halt w.toNat) := by
    rw [State.opHalt, Nat.mod_eq_of_lt hw]
  refine congrArg Host.Outcome.next ((asOpcode_stops h (by decide) (by decide) hf rfl (by rw [tl_carrying])).trans ?_)
  rw [periodEnd_halt (code := w.toNat) (by simp)]
  simp

theorem exec_vPause (h : s.opcodeRuns t.val 0x0A 0 0 = true) (hs : (s.tl t.val).stopReq = false) : exec (.vPause t) s =
    .next (((((s.carrying t.val 0x0A 0 0).follow t.val (.park .pause)).advInst (s.tl t.val).endAt).modTl t.val (fun y => { y with next := .seq })).parkAt t.val
      (parkWhy .pause) .pause (ceilCycle (s.tl t.val).endAt)) :=
  congrArg _ (asOpcode_parks h (by decide) (by decide) rfl rfl hs)

theorem exec_vCalgap (h : s.opcodeRuns t.val 0x22 w.toNat 0 = true) (hs : (s.tl t.val).stopReq = false) : exec (.vCalgap t w) s =
    .next ((((s.carrying t.val 0x22 w.toNat 0).follow t.val (.calgap w.toNat)).advInst (s.tl t.val).endAt).enterGap t.val (s.tl t.val).endAt w.toNat
      (s.tl t.val).vec.tset false) := by
  have hw : w.toNat < 2 ^ 24 := lt_of_and_mask w.isLt (by decide) (and_reservedOperand_of_runs h rfl)
  have hf : opCalgap (s.carrying t.val 0x22 w.toNat 0) t.val w.toNat = (s.carrying t.val 0x22 w.toNat 0).follow t.val (.calgap w.toNat) := by
    rw [State.opCalgap, show bits w.toNat 23 0 = w.toNat from Nat.mod_eq_of_lt hw]
  refine congrArg Host.Outcome.next ((asOpcode_stops h (by decide) (by decide) hf rfl (by rw [tl_carrying])).trans ?_)
  rw [periodEnd_calgap (n := w.toNat) (by simp) (by simp [hs])]
  simp

end opcodes

/-! ### WAITRC (R39, R122, R123) -/

/-- How far the count a WAITRC waits for lies ahead of that of its issue. -/
def State.waitAhead (s : State) (t w : Nat) : Nat := (w + 2 ^ 32 - (s.countAt ((s.tl t).issueAt / 1280) + 2 ^ 48 - 64) % 2 ^ 32) % 2 ^ 32

/-- The instant of that count. -/
def State.waitInst (s : State) (t w : Nat) : Nat := ((s.tl t).issueAt / 1280 + s.waitAhead t w) * 1280

theorem State.opWaitrc_carrying (s : State) (t w : Nat) : (s.carrying t 0x20 w 0).opWaitrc t w =
    if s.waitAhead t w = 0 then (s.carrying t 0x20 w 0).follow t .seq
    else if 2 ^ 31 ≤ s.waitAhead t w then ((s.carrying t 0x20 w 0).follow t .seq).setLate t (s.tl t).idx
    else if s.waitInst t w < (s.tl t).endAt then ((s.carrying t 0x20 w 0).follow t .seq).setLate t (s.tl t).idx
    else if s.waitInst t w = (s.tl t).endAt then (s.carrying t 0x20 w 0).follow t .seq
    else (s.carrying t 0x20 w 0).follow t (.park (.waitrc w)) := by
  simp only [State.opWaitrc, tl_carrying]
  rfl

section waitrc
variable {t : Fin 64} {w : Word} {s : State} (h : s.opcodeRuns t.val 0x20 w.toNat 0 = true)
include h

theorem exec_vWaitrc_park (hs : (s.tl t.val).stopReq = false) (h31 : s.waitAhead t.val w.toNat < 2 ^ 31)
    (hlate : (s.tl t.val).endAt < s.waitInst t.val w.toNat) (h0 : s.waitAhead t.val w.toNat ≠ 0) : exec (.vWaitrc t w) s =
    .next (((((s.carrying t.val 0x20 w.toNat 0).follow t.val (.park (.waitrc w.toNat))).advInst (s.tl t.val).endAt).modTl t.val
      (fun y => { y with next := .seq })).parkAt t.val (parkWhy (.waitrc w.toNat)) (.waitrc w.toNat) (ceilCycle (s.tl t.val).endAt)) := by
  refine congrArg Host.Outcome.next (asOpcode_parks h (by decide) (by decide) ?_ rfl hs)
  rw [opWaitrc_carrying, if_neg h0, if_neg (Nat.not_le.2 h31), if_neg (Nat.not_lt.2 hlate.le), if_neg hlate.ne']

theorem exec_vWaitrc_late (hlate : 2 ^ 31 ≤ s.waitAhead t.val w.toNat ∨
    (s.waitAhead t.val w.toNat ≠ 0 ∧ s.waitInst t.val w.toNat < (s.tl t.val).endAt)) :
    exec (.vWaitrc t w) s = .next (((s.carrying t.val 0x20 w.toNat 0).follow t.val .seq).setLate t.val (s.tl t.val).idx) := by
  have hf : (s.carrying t.val 0x20 w.toNat 0).opWaitrc t.val w.toNat =
      ((s.carrying t.val 0x20 w.toNat 0).follow t.val .seq).setLate t.val (s.tl t.val).idx := by
    have h0 : s.waitAhead t.val w.toNat ≠ 0 := by
      rcases hlate with h31 | ⟨h0, -⟩
      · exact (lt_of_lt_of_le (by norm_num) h31).ne'
      · exact h0
    rw [opWaitrc_carrying, if_neg h0]
    rcases hlate with h31 | ⟨-, hin⟩
    · rw [if_pos h31]
    · rw [if_pos hin, ite_self]
  refine congrArg Host.Outcome.next ((asOpcode_goes h (by decide) (by decide) ?_).trans hf)
  rw [hf, next_setLate, tl_follow]

theorem exec_vWaitrc_goes (hnow : s.waitAhead t.val w.toNat = 0 ∨
    (s.waitAhead t.val w.toNat < 2 ^ 31 ∧ s.waitInst t.val w.toNat = (s.tl t.val).endAt)) :
    exec (.vWaitrc t w) s = .next ((s.carrying t.val 0x20 w.toNat 0).follow t.val .seq) := by
  have hf : (s.carrying t.val 0x20 w.toNat 0).opWaitrc t.val w.toNat = (s.carrying t.val 0x20 w.toNat 0).follow t.val .seq := by
    rw [opWaitrc_carrying]
    rcases hnow with h0 | ⟨h31, hend⟩
    · rw [if_pos h0]
    · rw [if_neg (Nat.not_le.2 h31), if_neg (Nat.not_lt.2 hend.ge), if_pos hend, ite_self]
  refine congrArg Host.Outcome.next ((asOpcode_goes h (by decide) (by decide) ?_).trans hf)
  rw [hf, tl_follow]

end waitrc

/-! ### RDV (R44) -/

section rdv
variable {t : Fin 64} {w : Word} {s : State} (h : s.opcodeRuns t.val 0x21 w.toNat 0 = true)
include h

/-- The operand is the number of a group. -/
theorem rdvGroup_mod : w.toNat % 32 = w.toNat := Nat.mod_eq_of_lt (lt_of_and_mask (n := 5) w.isLt (by decide) (and_reservedOperand_of_runs h rfl))

theorem exec_vRdv_arrives (hs : (s.tl t.val).stopReq = false) (hen : s.on (GL_RDV_CFG_EN w.toNat) = true) (hmask : (s.rdvMask w.toNat).testBit t.val = true)
    (hepoch : s.ownEpoch t.val w.toNat = s.get (GL_RDV_STAT_EPOCH w.toNat)) : exec (.vRdv t w) s =
    .next ((((((s.carrying t.val 0x21 w.toNat 0).arrive t.val w.toNat (s.countAt ((s.tl t.val).issueAt / 1280))).follow t.val (.park (.rdv w.toNat))).advInst
      (s.tl t.val).endAt).modTl t.val (fun y => { y with next := .seq })).parkAt t.val (parkWhy (.rdv w.toNat)) (.rdv w.toNat) (ceilCycle (s.tl t.val).endAt)) := by
  refine congrArg Host.Outcome.next (asOpcode_parks h (by decide) (by decide)
    (q := (s.carrying t.val 0x21 w.toNat 0).arrive t.val w.toNat (s.countAt ((s.tl t.val).issueAt / 1280))) ?_ (by rw [tl_arrive]) hs)
  have hen' : (s.carrying t.val 0x21 w.toNat 0).on (GL_RDV_CFG_EN w.toNat) = true := hen
  have hmask' : ((s.carrying t.val 0x21 w.toNat 0).rdvMask w.toNat).testBit t.val = true := hmask
  have hepoch' : (s.carrying t.val 0x21 w.toNat 0).ownEpoch t.val w.toNat = (s.carrying t.val 0x21 w.toNat 0).get (GL_RDV_STAT_EPOCH w.toNat) := hepoch
  simp only [State.opRdv, rdvGroup_mod h, hen', hmask', hepoch', Bool.not_true, Bool.or_self, Bool.false_eq_true, if_false, ne_eq, not_true, tl_carrying]
  rfl

theorem exec_vRdv_notMember (hmask : (s.rdvMask w.toNat).testBit t.val = false) : exec (.vRdv t w) s =
    .next ((((s.carrying t.val 0x21 w.toNat 0).follow t.val .notMember).advInst (s.tl t.val).endAt).notMember t.val (ceilCycle (s.tl t.val).endAt)) := by
  have hmask' : ((s.carrying t.val 0x21 w.toNat 0).rdvMask w.toNat).testBit t.val = false := hmask
  have hf : (s.carrying t.val 0x21 w.toNat 0).opRdv t.val w.toNat = (s.carrying t.val 0x21 w.toNat 0).follow t.val .notMember := by
    simp only [State.opRdv, rdvGroup_mod h, hmask', Bool.not_false, Bool.or_true, if_true]
  refine congrArg Host.Outcome.next ((asOpcode_stops h (by decide) (by decide) hf rfl (by rw [tl_carrying])).trans ?_)
  rw [periodEnd_notMember (by simp)]
  simp

end rdv

/-! ### EVW (R130) -/

namespace State

@[simp] theorem fbit_modTl (s : State) (t : Nat) (f : Tiller → Tiller) : (s.modTl t f).fbit = s.fbit := rfl

@[simp] theorem tl_putBit (s : State) (f : Field) (i : Nat) (b : Bool) : (s.putBit f i b).tl = s.tl := tl_put ..

theorem fbit_dropLatch (s : State) (t : Nat) {j : Nat} (hj : j < 8) : (s.dropLatch t j).fbit (TL_EVIN_LATCH t) j = false := by
  have hput := fbit_putBit s (f := TL_EVIN_LATCH t) false rfl hj
  unfold State.dropLatch
  dsimp only
  split
  · rw [fbit_modTl, hput]
  · exact hput

/-- Of the tiller a latch that clears takes what is left of it for the next pass. -/
theorem tl_dropLatch (s : State) (t j : Nat) : ∃ b, (s.dropLatch t j).tl t = { s.tl t with brkLatch := b } := by
  unfold State.dropLatch
  dsimp only
  split
  · exact ⟨false, by rw [tl_modTl, tl_putBit]⟩
  · exact ⟨(s.tl t).brkLatch, by rw [tl_putBit]⟩

end State

section evw
variable {t : Fin 64} {w : Word} {cnd : BitVec 8} {s : State} (h : s.opcodeRuns t.val 0x40 w.toNat cnd.toNat = true)
include h

theorem exec_vEvw_set (hset : s.fbit (TL_EVIN_LATCH t.val) (cnd.toNat % 8) = true) : ∃ u, exec (.vEvw t w cnd) s = .next u ∧ (u.tl t.val).next = .seq ∧
    u.fbit (TL_EVIN_LATCH t.val) (cnd.toNat % 8) = false := by
  let q := ((s.carrying t.val 0x40 w.toNat cnd.toNat).follow t.val .seq).dropLatch t.val (cnd.toNat % 8)
  have hset' : (s.carrying t.val 0x40 w.toNat cnd.toNat).fbit (TL_EVIN_LATCH t.val) (cnd.toNat % 8) = true := hset
  have hf : (s.carrying t.val 0x40 w.toNat cnd.toNat).opEvw t.val w.toNat cnd.toNat = q := by
    simp only [State.opEvw, hset', if_true, q]
  have hnext : (q.tl t.val).next = .seq := by
    obtain ⟨b, e⟩ := ((s.carrying t.val 0x40 w.toNat cnd.toNat).follow t.val .seq).tl_dropLatch t.val (cnd.toNat % 8)
    rw [e, tl_follow]
  exact ⟨q, congrArg Host.Outcome.next ((asOpcode_goes h (by decide) (by decide) (by rw [hf, hnext])).trans hf), hnext,
    fbit_dropLatch _ _ (Nat.mod_lt _ (by decide))⟩

theorem exec_vEvw_park (hclear : s.fbit (TL_EVIN_LATCH t.val) (cnd.toNat % 8) = false) (hs : (s.tl t.val).stopReq = false) :
    let p : Park := .evw (cnd.toNat % 8) (if bits w.toNat 31 14 = 0 then none else some ((s.tl t.val).issueAt + bits w.toNat 31 14 * 128 * 1280))
      (w.toNat % 2 ^ 14)
    exec (.vEvw t w cnd) s = .next (((((s.carrying t.val 0x40 w.toNat cnd.toNat).follow t.val (.park p)).advInst (s.tl t.val).endAt).modTl t.val
      (fun y => { y with next := .seq })).parkAt t.val (parkWhy p) p (ceilCycle (s.tl t.val).endAt)) := by
  have hclear' : (s.carrying t.val 0x40 w.toNat cnd.toNat).fbit (TL_EVIN_LATCH t.val) (cnd.toNat % 8) = false := hclear
  refine congrArg Host.Outcome.next (asOpcode_parks h (by decide) (by decide) ?_ rfl hs)
  simp only [State.opEvw, hclear', Bool.false_eq_true, if_false, tl_carrying]

end evw

/-- Settles O21: the opcode decided in the state that carries it, then the period end of what it chose. -/
theorem waitingOpcodesActAtThePeriodEnd : Obligations.WaitingOpcodesActAtThePeriodEnd := by
  intro t w cnd s
  exact ⟨exec_vHalt, exec_vPause, fun h hs h31 hlate h0 => exec_vWaitrc_park h hs h31 hlate h0, exec_vWaitrc_late, exec_vWaitrc_goes,
    fun h hs hen hmask hepoch => exec_vRdv_arrives h hs hen hmask hepoch, exec_vRdv_notMember, exec_vEvw_set, exec_vEvw_park, exec_vCalgap⟩

end Sys2Proof.Machine
end

section
/-! SUPPORT. The end of a park and of a gap (R39, R123, R125, R130, R159, R340), and O25 settled. -/

namespace Sys2Proof.Machine

namespace State

/-! ### Traces -/

/-- Of the registers a trace entry moves the ring's head. -/
theorem reg_trace (s : State) {t b : Nat} (kind opc w1 : Nat) (h : b ≠ TL_TRACE_CTRL t) : (s.trace t kind opc w1).reg b = s.reg b := by
  unfold State.trace
  dsimp only
  split_ifs
  · rfl
  · rw [reg_put_other _ _ _ h, reg_mark_other _ _ h, reg_setTl]
  · rw [reg_put_other _ _ _ h, reg_setTl]

/-! ### A park ends (R123, R130) -/

/-- What follows a park: the next vector, or the target of a time-out. -/
def afterPark (n : Next) : Option Nat → Next
  | some i => .timeout i
  | none => n

section unparkAt
variable (s : State) (t inst : Nat) (dest : Option Nat)

theorem tl_unparkAt : ∃ x n, (s.unparkAt t inst dest).tl t =
    { s.tl t with park := .none, dueAt := inst, next := afterPark (s.tl t).next dest, trace := x, traceLen := n } := by
  let q := ((((s.advInst inst).put (TL_SEQ_STAT_STATE t) 1).put (TL_SEQ_STAT_PARK_WHY t) 0).setTl t
    { s.tl t with park := .none, dueAt := inst, next := afterPark (s.tl t).next dest }).putBit (ST_RISE_STAT_PAUSED (rowOf t)) (colOf t) false
  have hq : q.tl t = { s.tl t with park := .none, dueAt := inst, next := afterPark (s.tl t).next dest } := by
    rw [tl_putBit, tl_setTl_same]
  obtain ⟨x, n, e⟩ := q.tl_trace t 7 (s.tl t).vec.opc ((s.tl t).idx % 2 ^ 14 + dest.getD 0 % 2 ^ 14 * 2 ^ 16)
  have hunpark : s.unparkAt t inst dest = q.trace t 7 (s.tl t).vec.opc ((s.tl t).idx % 2 ^ 14 + dest.getD 0 % 2 ^ 14 * 2 ^ 16) := by
    cases dest <;> rfl
  exact ⟨x, n, by rw [hunpark, e, hq]⟩

theorem reg_unparkAt {b : Nat} (h1 : b ≠ TL_SEQ_STAT t) (h2 : b ≠ ST_RISE_STAT (rowOf t)) (h3 : b ≠ TL_TRACE_CTRL t) :
    (s.unparkAt t inst dest).reg b = s.reg b := by
  unfold State.unparkAt
  dsimp only
  rw [reg_trace _ _ _ _ h3, reg_putBit_other _ _ _ _ h2, reg_setTl, reg_put_other _ _ _ h1, reg_put_other _ _ _ h1, State.advInst, reg_advTo]

/-- The engine runs again, and shows no reason of a park. -/
theorem seqStat_unparkAt : (s.unparkAt t inst dest).engine t = 1 ∧ (s.unparkAt t inst dest).get (TL_SEQ_STAT_PARK_WHY t) = 0 := by
  have hrise : TL_SEQ_STAT t ≠ ST_RISE_STAT (rowOf t) := by
    unfold TL_SEQ_STAT ST_RISE_STAT rowOf tlBase stBase
    omega
  have htrace : TL_SEQ_STAT t ≠ TL_TRACE_CTRL t := by
    unfold TL_SEQ_STAT TL_TRACE_CTRL
    omega
  have hreg : (s.unparkAt t inst dest).reg (TL_SEQ_STAT t) =
      (((s.advInst inst).put (TL_SEQ_STAT_STATE t) 1).put (TL_SEQ_STAT_PARK_WHY t) 0).reg (TL_SEQ_STAT t) := by
    unfold State.unparkAt
    dsimp only
    rw [reg_trace _ _ _ _ htrace, reg_putBit_other _ _ _ _ hrise, reg_setTl]
  constructor
  · rw [State.engine, get_eq_of_reg (f := TL_SEQ_STAT_STATE t) hreg, get_put_apart _ _ (by rfl) (by rfl) (by rfl), get_put_of_fits _ _ (by rfl)]
    rfl
  · rw [get_eq_of_reg (f := TL_SEQ_STAT_PARK_WHY t) hreg, get_put_of_fits _ _ (by rfl)]
    exact Nat.zero_mod _

end unparkAt

theorem reg_dropLatch (s : State) {t j b : Nat} (h : b ≠ TL_EVIN t) : (s.dropLatch t j).reg b = s.reg b := by
  unfold State.dropLatch
  dsimp only
  split
  · exact (congrFun (reg_setTl ..) b).trans (reg_putBit_other s (TL_EVIN_LATCH t) j false h)
  · exact reg_putBit_other s (TL_EVIN_LATCH t) j false h

section parked
variable {s : State} {t : Nat} (hn : (s.tl t).next = .seq)
include hn

theorem settle_of_parked (inst : Nat) : s.settle t inst = s := by
  simp only [State.settle, hn]

theorem waitsFor_of_parked : s.waitsFor t = (s.tl t).park := by
  simp only [State.waitsFor, hn]

theorem releaseTiller_parked (he : s.engine t = 2) (inst : Nat) : s.releaseTiller t inst = s.unparkAt t (max inst (ceilCycle (s.tl t).endAt)) none := by
  simp [State.releaseTiller, settle_of_parked hn, he]

theorem waitrcWake_parked (he : s.engine t = 2) {w : Nat} (hp : (s.tl t).park = .waitrc w) :
    let d := (w + 64 + 2 ^ 32 - s.count.toNat % 2 ^ 32) % 2 ^ 32
    let q := if d < 2 ^ 31 then s.advTo (s.ticks + d) else s
    s.waitrcWake t = q.unparkAt t (max q.now (ceilCycle (s.tl t).endAt)) none := by
  intro d q
  have hq : q.tl = s.tl ∧ q.engine t = s.engine t := by
    unfold q
    split
    · exact ⟨tl_advTo .., get_advTo ..⟩
    · exact ⟨rfl, rfl⟩
  have e : s.waitrcWake t = q.releaseTiller t q.now := by
    rw [State.waitrcWake, waitsFor_of_parked hn, hp, he]
    exact if_pos rfl
  rw [e, releaseTiller_parked (by rw [hq.1, hn]) (hq.2.trans he), hq.1]

theorem evwWake_parked (he : s.engine t = 2) {j dest : Nat} {dead : Option Nat} (hp : (s.tl t).park = .evw j dead dest) (at_ : Nat) :
    s.evwWake t at_ = (s.dropLatch t j).unparkAt t (max (ceilCycle (at_ + 640)) (ceilCycle (s.tl t).endAt)) none := by
  have hd : (s.dropLatch t j).engine t = 2 := (get_eq_of_reg (reg_dropLatch s (by unfold TL_SEQ_STAT_STATE TL_SEQ_STAT TL_EVIN; simp))).trans he
  simp [State.evwWake, waitsFor_of_parked hn, hp, settle_of_parked hn, he, hd]

theorem evwTimeout_parked (he : s.engine t = 2) {j dead dest : Nat} (hp : (s.tl t).park = .evw j (some dead) dest)
    (hl : s.fbit (TL_EVIN_LATCH t) j = false) : s.evwTimeout t =
    (s.bump (TL_OPSTAT_EVW_TMO t)).unparkAt t (max (ceilCycle dead) (ceilCycle (s.tl t).endAt)) (some dest) := by
  have hd : (s.bump (TL_OPSTAT_EVW_TMO t)).engine t = 2 :=
    (get_eq_of_reg (reg_bump_other s _ (by unfold TL_SEQ_STAT_STATE TL_SEQ_STAT TL_OPSTAT_EVW_TMO TL_OPSTAT; simp))).trans he
  simp [State.evwTimeout, waitsFor_of_parked hn, hp, hl, settle_of_parked hn, he, hd]

/-- A latch that has set by then wins over the time-out. -/
theorem evwTimeout_set {j dead dest : Nat} (hp : (s.tl t).park = .evw j (some dead) dest) (hl : s.fbit (TL_EVIN_LATCH t) j = true) :
    s.evwTimeout t = s.evwWake t dead := by
  simp [State.evwTimeout, waitsFor_of_parked hn, hp, hl]

end parked

/-! ### A gap ends (R125, R159, R340) -/

/-- A calibration step that ends is the concern of the tiller's pins. -/
theorem endStep_beside (s : State) (t : Nat) : ∃ r p c, s.endStep t = { s with regs := r, pins := p, cals := c } := by
  have pins (l : List Nat) (q : State) : ∃ r p, l.foldl (fun s g => (s.setPin g { s.pin g with calPath := false }).put (PN_STAT_SELFTEST_ACTIVE g)
      (b2n (s.get (PN_CTRL_SELFTEST g) ≠ 0))) q = { q with regs := r, pins := p } := by
    induction l generalizing q with
    | nil => exact ⟨_, _, rfl⟩
    | cons g l ih =>
      obtain ⟨r, p, e⟩ := ih ((q.setPin g { q.pin g with calPath := false }).put (PN_STAT_SELFTEST_ACTIVE g) (b2n (q.get (PN_CTRL_SELFTEST g) ≠ 0)))
      exact ⟨r, p, by rw [List.foldl_cons, e]; rfl⟩
  unfold State.endStep
  dsimp only
  split
  · exact ⟨_, _, _, rfl⟩
  · obtain ⟨r, p, e⟩ := pins (tillerPins t) (s.setCalTl t { s.calTl t with stepEnd := none })
    exact ⟨r, p, _, e⟩

@[simp] theorem tl_endStep (s : State) (t : Nat) : (s.endStep t).tl = s.tl := by
  obtain ⟨r, p, c, e⟩ := s.endStep_beside t
  unfold State.tl
  rw [e]

@[simp] theorem ticks_put (s : State) (f : Field) (v : Nat) : (s.put f v).ticks = s.ticks := rfl

@[simp] theorem ticks_endStep (s : State) (t : Nat) : (s.endStep t).ticks = s.ticks := by
  obtain ⟨r, p, c, e⟩ := s.endStep_beside t
  rw [e]

/-- Its registers are those of the pins. -/
theorem reg_endStep (s : State) {t b : Nat} (h : ∀ g ∈ tillerPins t, b ≠ PN_STAT g) : (s.endStep t).reg b = s.reg b := by
  unfold State.endStep
  dsimp only
  split
  · rfl
  · exact reg_foldl _ (fun q g hg => (reg_put_other _ (PN_STAT_SELFTEST_ACTIVE g) _ (h g hg)).trans (congrFun (reg_setPin ..) b)) _

theorem opstat_ne_pnStat {t : Nat} : ∀ g ∈ tillerPins t, TL_OPSTAT t ≠ PN_STAT g := by
  intro g hg
  obtain ⟨p, hp, rfl⟩ := List.mem_map.1 hg
  have hp := List.mem_range.1 hp
  unfold TL_OPSTAT PN_STAT tlBase pnBase
  omega

@[simp] theorem calTl_modTl (s : State) (t : Nat) (f : Tiller → Tiller) : (s.modTl t f).calTl = s.calTl := rfl

@[simp] theorem ticks_modTl (s : State) (t : Nat) (f : Tiller → Tiller) : (s.modTl t f).ticks = s.ticks := rfl

/-- No step is in progress any more. -/
theorem stepEnd_endStep (s : State) (t : Nat) : ((s.endStep t).calTl t).stepEnd = none := by
  have pins (l : List Nat) (q : State) : (l.foldl (fun s g => (s.setPin g { s.pin g with calPath := false }).put (PN_STAT_SELFTEST_ACTIVE g)
      (b2n (s.get (PN_CTRL_SELFTEST g) ≠ 0))) q).calTl = q.calTl := by
    induction l generalizing q with
    | nil => rfl
    | cons g l ih =>
      rw [List.foldl_cons, ih]
      rfl
  unfold State.endStep
  dsimp only
  split
  · next h => exact Option.isNone_iff_eq_none.1 h
  · rw [pins, calTl_setCalTl_same]

end State

open State

section parks
variable {t : Fin 64} {s : State} (he : s.engine t.val = 2) (hn : (s.tl t.val).next = .seq)
include he hn

theorem exec_waitrcWake_parked {w : Nat} (hl : s.power.pllLost = false) (hp : (s.tl t.val).park = .waitrc w) :
    let d := (w + 64 + 2 ^ 32 - s.count.toNat % 2 ^ 32) % 2 ^ 32
    ∃ u, exec (.waitrcWake t) s = .next u ∧ u.engine t.val = 1 ∧ u.get (TL_SEQ_STAT_PARK_WHY t.val) = 0 ∧ (u.tl t.val).park = .none ∧
      (d < 2 ^ 31 → (u.tl t.val).dueAt = max ((s.ticks + d) * 1280) (ceilCycle (s.tl t.val).endAt)) := by
  intro d
  let q := if d < 2 ^ 31 then s.advTo (s.ticks + d) else s
  obtain ⟨hrun, hwhy⟩ := q.seqStat_unparkAt t.val (max q.now (ceilCycle (s.tl t.val).endAt)) none
  obtain ⟨x, n, htl⟩ := q.tl_unparkAt t.val (max q.now (ceilCycle (s.tl t.val).endAt)) none
  have e : exec (.waitrcWake t) s = .next (q.unparkAt t.val (max q.now (ceilCycle (s.tl t.val).endAt)) none) :=
    congrArg Host.Outcome.next ((if_neg (by rw [hl]; decide)).trans (waitrcWake_parked hn he hp))
  refine ⟨_, e, hrun, hwhy, by rw [htl], fun hd => ?_⟩
  have hnow : q.now = (s.ticks + d) * 1280 := by
    rw [State.now, show q = s.advTo (s.ticks + d) from if_pos hd, ticks_advTo_of_le (Nat.le_add_right ..)]
  rw [htl, hnow]

theorem exec_evwWake_parked {j dest : Nat} {dead : Option Nat} (at_ : Nat) (hj : j < 8) (hp : (s.tl t.val).park = .evw j dead dest) :
    ∃ u, exec (.evwWake t at_) s = .next u ∧ u.engine t.val = 1 ∧ (u.tl t.val).park = .none ∧ u.fbit (TL_EVIN_LATCH t.val) j = false ∧
      (u.tl t.val).dueAt = max (ceilCycle (at_ + 640)) (ceilCycle (s.tl t.val).endAt) ∧ (u.tl t.val).next = .seq := by
  let q := s.dropLatch t.val j
  obtain ⟨b, hq⟩ := s.tl_dropLatch t.val j
  obtain ⟨hrun, -⟩ := q.seqStat_unparkAt t.val (max (ceilCycle (at_ + 640)) (ceilCycle (s.tl t.val).endAt)) none
  obtain ⟨x, n, htl⟩ := q.tl_unparkAt t.val (max (ceilCycle (at_ + 640)) (ceilCycle (s.tl t.val).endAt)) none
  have hreg : TL_EVIN t.val ≠ TL_SEQ_STAT t.val ∧ TL_EVIN t.val ≠ ST_RISE_STAT (rowOf t.val) ∧ TL_EVIN t.val ≠ TL_TRACE_CTRL t.val := by
    unfold TL_EVIN TL_SEQ_STAT ST_RISE_STAT TL_TRACE_CTRL tlBase stBase rowOf
    omega
  have hlatch : (q.unparkAt t.val (max (ceilCycle (at_ + 640)) (ceilCycle (s.tl t.val).endAt)) none).get (TL_EVIN_LATCH t.val) = q.get (TL_EVIN_LATCH t.val) :=
    get_eq_of_reg (reg_unparkAt q t.val _ none hreg.1 hreg.2.1 hreg.2.2)
  refine ⟨_, congrArg Host.Outcome.next (evwWake_parked hn he hp at_), hrun, by rw [htl], ?_, by rw [htl], by rw [htl, hq, hn]; rfl⟩
  rw [State.fbit, hlatch, ← State.fbit, fbit_dropLatch s t.val hj]

theorem exec_evwTimeout_parked {j dead dest : Nat} (hp : (s.tl t.val).park = .evw j (some dead) dest) (hlatch : s.fbit (TL_EVIN_LATCH t.val) j = false) :
    ∃ u, exec (.evwTimeout t) s = .next u ∧ u.engine t.val = 1 ∧ (u.tl t.val).park = .none ∧ (u.tl t.val).next = .timeout dest ∧
      (u.tl t.val).dueAt = max (ceilCycle dead) (ceilCycle (s.tl t.val).endAt) ∧
      u.get (TL_OPSTAT_EVW_TMO t.val) = min (s.get (TL_OPSTAT_EVW_TMO t.val) + 1) 255 := by
  let q := s.bump (TL_OPSTAT_EVW_TMO t.val)
  obtain ⟨hrun, -⟩ := q.seqStat_unparkAt t.val (max (ceilCycle dead) (ceilCycle (s.tl t.val).endAt)) (some dest)
  obtain ⟨x, n, htl⟩ := q.tl_unparkAt t.val (max (ceilCycle dead) (ceilCycle (s.tl t.val).endAt)) (some dest)
  have hreg : TL_OPSTAT t.val ≠ TL_SEQ_STAT t.val ∧ TL_OPSTAT t.val ≠ ST_RISE_STAT (rowOf t.val) ∧ TL_OPSTAT t.val ≠ TL_TRACE_CTRL t.val := by
    unfold TL_OPSTAT TL_SEQ_STAT ST_RISE_STAT TL_TRACE_CTRL tlBase stBase rowOf
    omega
  refine ⟨_, congrArg Host.Outcome.next (evwTimeout_parked hn he hp hlatch), hrun, by rw [htl], by rw [htl]; rfl, by rw [htl], ?_⟩
  rw [get_eq_of_reg (f := TL_OPSTAT_EVW_TMO t.val) (reg_unparkAt q t.val _ (some dest) hreg.1 hreg.2.1 hreg.2.2)]
  refine (get_put_of_fits s _ (f := TL_OPSTAT_EVW_TMO t.val) rfl).trans ?_
  exact Nat.mod_eq_of_lt (show min (s.get (TL_OPSTAT_EVW_TMO t.val) + 1) 255 < 256 by omega)

end parks

section gaps
variable {t : Fin 64} {g : Gap} {s : State} (hg : (s.tl t.val).gap = some g)
include hg

theorem exec_gapStart : let u := (s.advTo g.g).trace t.val 12 (s.tl t.val).vec.opc ((if g.segment then 0x3FFF else (s.tl t.val).idx % 2 ^ 14) + g.len % 2 ^ 14 * 2 ^ 16)
    exec (.gapStart t) s = .next (((u.setCalTl t.val { u.calTl t.val with used := false }).safePoint t.val).tryStep t.val) := by
  change Host.Outcome.next (s.gapStart t.val) = _
  simp only [State.gapStart, hg, tl_advTo]

/-- A CALGAP goes on with the vector due. -/
theorem exec_gapEnd_calgap (hseg : g.segment = false) : ∃ u, exec (.gapEnd t) s = .next u ∧ (u.tl t.val).gap = none ∧
    (u.tl t.val).dueAt = g.until_ * 1280 ∧ u.ticks = max s.ticks g.until_ ∧ u.get (TL_OPSTAT_IN_GAP t.val) = 0 ∧ (u.calTl t.val).stepEnd = none := by
  let q := ((s.advTo g.until_).put (TL_OPSTAT_IN_GAP t.val) 0).endStep t.val
  have e : exec (.gapEnd t) s = .next (q.modTl t.val (fun x => { x with gap := none, dueAt := g.until_ * 1280 })) := by
    change Host.Outcome.next (s.gapEnd t.val) = _
    simp only [State.gapEnd, hg, hseg, Bool.false_eq_true, if_false, q]
  refine ⟨_, e, by rw [tl_modTl], by rw [tl_modTl], ?_, ?_, by rw [calTl_modTl, stepEnd_endStep]⟩
  · rw [ticks_modTl, ticks_endStep, ticks_put, ticks_advTo]
  · rw [get_modTl, get_eq_of_reg (f := TL_OPSTAT_IN_GAP t.val) (reg_endStep _ opstat_ne_pnStat), get_put_of_fits _ _ (by rfl), Nat.zero_mod]

/-- A gap segment is left, with its link where no stop waits. -/
theorem exec_gapEnd_segment (hseg : g.segment = true) (hs : (s.tl t.val).stopReq = false) : exec (.gapEnd t) s =
    .next ((((((s.advTo g.until_).put (TL_OPSTAT_IN_GAP t.val) 0).endStep t.val).modTl t.val
      (fun x => { x with gap := none, dueAt := g.until_ * 1280 })).leaveSegment t.val).takeLink t.val (g.until_ * 1280)) := by
  change Host.Outcome.next (s.gapEnd t.val) = _
  simp only [State.gapEnd, hg, hseg, if_true, tl_modTl, tl_endStep, tl_put, tl_advTo, hs, Bool.false_eq_true, if_false]

end gaps

/-- Settles O25: a park ends through the one rule of R123, a gap at its last tick. -/
theorem parksAndGapsEnd : Obligations.ParksAndGapsEnd := by
  refine ⟨fun t s he hn => ?_, fun t g s hg => ⟨exec_gapStart hg, exec_gapEnd_calgap hg, exec_gapEnd_segment hg⟩⟩
  exact ⟨fun w hl hp => exec_waitrcWake_parked he hn hl hp, fun j dead dest at_ hj hp => exec_evwWake_parked he hn at_ hj hp,
    fun j dead dest hp => ⟨exec_evwTimeout_parked he hn hp, fun hl => congrArg Host.Outcome.next (evwTimeout_set hn hp hl)⟩⟩

end Sys2Proof.Machine
end

section
/-! SUPPORT. The registers of the rendezvous groups and the operations of a tiller: none but a rendezvous message, an arrival or a
withdrawal reaches them. In the order of the model's files. -/

namespace Sys2Proof.Machine

/-- The registers of the rendezvous groups. -/
def Part.ofGroups : Part → Prop
  | .reg a => 0x1100 ≤ a ∧ a < 0x1900
  | _ => False

namespace Keeps

/-! ### Addresses off the groups -/

theorem off {b : Nat} (h : b < 0x1100 ∨ 0x1900 ≤ b) : ¬Part.ofGroups (.reg b) := fun hb => by
  unfold Part.ofGroups at hb
  omega

theorem off_lit {b : Nat} (h : (Nat.blt b 0x1100 || Nat.ble 0x1900 b) = true) : ¬Part.ofGroups (.reg b) :=
  off (((Bool.or_eq_true _ _).mp h).imp (fun h => Nat.le_of_ble_eq_true h) fun h => Nat.le_of_ble_eq_true h)

theorem off_add {b o : Nat} (h : Nat.ble 0x1900 b = true) : ¬Part.ofGroups (.reg (b + o)) := off (.inr (Nat.le_add_right_of_le (Nat.le_of_ble_eq_true h)))

theorem off_tl {t o : Nat} : ¬Part.ofGroups (.reg (tlBase t + o)) := off (.inr (by unfold tlBase; omega))

theorem off_tl2 {t o n : Nat} : ¬Part.ofGroups (.reg (tlBase t + o + n)) := off (.inr (by unfold tlBase; omega))

theorem off_pn {g o : Nat} : ¬Part.ofGroups (.reg (pnBase g + o)) := off (.inr (by unfold pnBase; omega))

theorem off_st {r o : Nat} : ¬Part.ofGroups (.reg (stBase r + o)) := off (.inr (by unfold stBase; omega))

theorem off_sh {u o : Nat} : ¬Part.ofGroups (.reg (shBase u + o)) := off (.inr (by unfold shBase; omega))

theorem off_lateBit (t : Nat) : ¬Part.ofGroups (.reg (State.lateBit t).addr) := by
  unfold State.lateBit
  split
  · exact off_lit rfl
  · exact off_lit rfl

variable {a s : State} {t g k : Nat}

theorem advTo_ofGroups (h : Keeps Part.ofGroups a s) {n : Nat} : Keeps Part.ofGroups a (s.advTo n) := h.trans fun p hp => by
  cases p with
  | reg b => exact State.reg_advTo ..
  | _ => exact hp.elim

theorem advInst_ofGroups (h : Keeps Part.ofGroups a s) {inst : Nat} : Keeps Part.ofGroups a (s.advInst inst) := h.advTo_ofGroups

theorem source_ofGroups (h : Keeps Part.ofGroups a s) {n : Nat} : Keeps Part.ofGroups a (s.source n) := h.source (fun _ => off_add rfl) (off_add rfl)

theorem settleRoute_ofGroups (h : Keeps Part.ofGroups a s) : Keeps Part.ofGroups a (s.settleRoute t) :=
  h.settleRoute off_sh (fun _ => off_add rfl) (off_add rfl)

theorem routeBoundary_ofGroups (h : Keeps Part.ofGroups a s) : Keeps Part.ofGroups a (s.routeBoundary t) :=
  h.routeBoundary off_sh (fun _ => off_add rfl) (off_add rfl)

/-! ### Trace, LATE, results (R40, R93, R137) -/

theorem trace_ofGroups (h : Keeps Part.ofGroups a s) {kind opc w1 : Nat} : Keeps Part.ofGroups a (s.trace t kind opc w1) :=
  h.ifFalse (((refl _).setTl.ifTrue ((refl _).mark off_tl)).put off_tl)

theorem setLate_ofGroups (h : Keeps Part.ofGroups a s) {idx : Nat} : Keeps Part.ofGroups a (s.setLate t idx) :=
  (h.mark (off_lateBit t)).tag.source_ofGroups.trace_ofGroups

theorem completeResult_ofGroups (h : Keeps Part.ofGroups a s) : Keeps Part.ofGroups a (s.completeResult t) := h.setReg off_tl

/-! ### Pins (R176, R188, R356) -/

theorem lifeModel_ofGroups (h : Keeps Part.ofGroups a s) : Keeps Part.ofGroups a s.lifeModel :=
  ((h.put (off_lit rfl)).put (off_lit rfl)).put (off_lit rfl)

theorem contactCycle_ofGroups (h : Keeps Part.ofGroups a s) : Keeps Part.ofGroups a s.contactCycle :=
  lifeModel_ofGroups ((h.bump (f := GL_WEAR_CONTACT_COUNT) (off_lit rfl)).beside rfl)

theorem touchdown_ofGroups (h : Keeps Part.ofGroups a s) : Keeps Part.ofGroups a (s.touchdown g) := by
  unfold State.touchdown
  split
  · exact h.ifTrue (refl s).contactCycle_ofGroups
  · exact h

theorem latch_ofGroups (h : Keeps Part.ofGroups a s) {hi lo : Bool} : Keeps Part.ofGroups a (s.latch g hi lo) :=
  ((h.ifTrue ((refl _).touchdown_ofGroups.mark off_pn)).ifTrue ((refl _).mark off_pn)).ifTrue (refl _).source_ofGroups.fireChannel

theorem latchFrom_ofGroups (h : Keeps Part.ofGroups a s) {n : Nat} {hi lo : Bool} : Keeps Part.ofGroups a (s.latchFrom g n hi lo) :=
  ((h.setPin.ifTrue ((refl _).put off_pn)).ifTrue ((refl _).put off_pn)).latch_ofGroups

theorem latchClear_ofGroups (h : Keeps Part.ofGroups a s) {n : Nat} : Keeps Part.ofGroups a (s.latchClear g n) := ite h h.latchFrom_ofGroups

theorem catchUp_ofGroups (h : Keeps Part.ofGroups a s) {n : Nat} : Keeps Part.ofGroups a (s.catchUp g n) :=
  h.setPin.foldl _ fun s _ => (refl s).latchClear_ofGroups

theorem pinsIdle_ofGroups (h : Keeps Part.ofGroups a s) {tset n : Nat} : Keeps Part.ofGroups a (s.pinsIdle t tset n) :=
  h.foldl _ fun s _ => (refl s).catchUp_ofGroups.setPin

theorem endStep_ofGroups (h : Keeps Part.ofGroups a s) : Keeps Part.ofGroups a (s.endStep t) := h.endStep fun _ => off_pn

theorem endInterval_ofGroups (h : Keeps Part.ofGroups a s) : Keeps Part.ofGroups a (s.endInterval t) := h.endInterval fun _ => off_pn

theorem switchNow_ofGroups (h : Keeps Part.ofGroups a s) : Keeps Part.ofGroups a (s.switchNow t) :=
  (((h.setTl.putBit off_st).put (f := ⟨ST_CAL_TBANK _, _, _⟩) off_st).putBit off_st).ifTrue ((refl _).put off_st)

theorem safePoint_ofGroups (h : Keeps Part.ofGroups a s) : Keeps Part.ofGroups a (s.safePoint t) := h.ifTrue (refl _).switchNow_ofGroups

/-! ### Fail records and packets (R200 to R211) -/

theorem fifoPut_ofGroups (h : Keeps Part.ofGroups a s) {e : Nat} : Keeps Part.ofGroups a (s.fifoPut t e) :=
  (h.setFq.ifTrue (refl _).localSource).ifTrue (refl _).source_ofGroups

theorem dropRecord_ofGroups (h : Keeps Part.ofGroups a s) {v f : Nat} {fail : Bool} : Keeps Part.ofGroups a (s.dropRecord t v fail f) :=
  ((h.setFq.mark off_tl).ifFalse ((refl _).mark off_tl).source_ofGroups).ifTrue ((refl _).bump off_tl)

theorem fifoOffer_ofGroups (h : Keeps Part.ofGroups a s) {e v : Nat} {fail : Bool} : Keeps Part.ofGroups a (s.fifoOffer t e v fail) :=
  ite h.fifoPut_ofGroups h.dropRecord_ofGroups

theorem formRecord_ofGroups (h : Keeps Part.ofGroups a s) {c : Cmp} : Keeps Part.ofGroups a (s.formRecord t c) :=
  ite h (ite h.setFq (h.bump off_tl).setFq.fifoOffer_ofGroups)

theorem applyDest_ofGroups (h : Keeps Part.ofGroups a s) : Keeps Part.ofGroups a (s.applyDest t) := h.ifTrue (((refl _).put off_tl).put off_tl)

theorem applyBound_ofGroups (h : Keeps Part.ofGroups a s) {d : Option Nat} : Keeps Part.ofGroups a (s.applyBound t d) := by
  cases d with
  | none => exact h
  | some d => exact h.ifTrue (((refl _).put off_tl).put off_tl)

theorem endPacket_ofGroups (h : Keeps Part.ofGroups a s) {p : PktEnd} : Keeps Part.ofGroups a (s.endPacket t p) :=
  (h.ifFalse (refl _).fifoOffer_ofGroups).setFq.routeBoundary_ofGroups.applyBound_ofGroups

/-! ### The end of an acquisition (R218, R220) -/

theorem closeRing_ofGroups (h : Keeps Part.ofGroups a s) : Keeps Part.ofGroups a (s.closeRing t) := h.setCap.put off_tl

theorem endAcquisition_ofGroups (h : Keeps Part.ofGroups a s) {why : Nat} : Keeps Part.ofGroups a (s.endAcquisition t why) :=
  h.ifFalse (((((refl _).ifTrue (refl _).closeRing_ofGroups).setCap.put off_tl).put off_tl).bump off_tl).source_ofGroups

theorem armCapture_ofGroups (h : Keeps Part.ofGroups a s) : Keeps Part.ofGroups a (s.armCapture t) := by
  have hrest {q : State} (hq : Keeps Part.ofGroups a q) {x : Capture} : Keeps Part.ofGroups a
      ((((((((q.put (TL_CAP_STAT_TRUNC t) 0).put (TL_CAP_STAT_END_WHY t) 0).put (TL_CAP_STAT_PRE_GOT t) 0).setReg (TL_TRIG_STATUS t) 0).put
        (TL_FLAGS_TRIG t) 0).setCap t x).put (TL_CAP_STAT_STATE t) 1)) :=
    (((((hq.put off_tl).put off_tl).put off_tl).setReg off_tl).put off_tl).setCap.put off_tl
  unfold State.armCapture
  dsimp only
  split
  · exact hrest h
  · exact hrest ((h.put off_tl).put off_tl)

theorem autoRearm_ofGroups (h : Keeps Part.ofGroups a s) : Keeps Part.ofGroups a (s.autoRearm t) := h.ifTrue (refl _).armCapture_ofGroups

/-! ### Turns and boundaries (R198, R206, R207, R209, R210) -/

theorem boundaryNow_ofGroups (h : Keeps Part.ofGroups a s) {d : Deliver} : Keeps Part.ofGroups a (s.boundaryNow t d) := by
  cases d with
  | packetEnd p => exact h.endPacket_ofGroups
  | tillerStop acq => exact h.ifTrue (refl _).endAcquisition_ofGroups.autoRearm_ofGroups
  | sample c => exact h

theorem drain_ofGroups (h : Keeps Part.ofGroups a s) (n : Nat) : Keeps Part.ofGroups a (s.drain t n) := by
  induction n generalizing s with
  | zero => exact h
  | succ n ih =>
    unfold State.drain
    split
    · exact h
    · split
      · exact ih h.setCmp.formRecord_ofGroups
      · exact h
    · exact ih h.setCmp.boundaryNow_ofGroups

theorem addBoundary_ofGroups (h : Keeps Part.ofGroups a s) {d : Deliver} : Keeps Part.ofGroups a (s.addBoundary t d) :=
  h.setCmp.setCmp.drain_ofGroups _

theorem routeEmptied_ofGroups (h : Keeps Part.ofGroups a s) : Keeps Part.ofGroups a (s.routeEmptied t) := ite h h.setRoute

theorem fifoDiscard_ofGroups (h : Keeps Part.ofGroups a s) : Keeps Part.ofGroups a (s.fifoDiscard t) :=
  (h.setFq.put off_tl).routeEmptied_ofGroups.settleRoute_ofGroups

theorem packetBoundary_ofGroups (h : Keeps Part.ofGroups a s) {why : Nat} : Keeps Part.ofGroups a (s.packetBoundary t why) :=
  h.ifFalse (ite (((refl _).setCmp.fifoDiscard_ofGroups.put off_tl).addBoundary_ofGroups) (refl _).setCmp.addBoundary_ofGroups.applyDest_ofGroups)

theorem flushNow_ofGroups (h : Keeps Part.ofGroups a s) : Keeps Part.ofGroups a (s.flushNow t) :=
  (h.setCmp.put off_tl).fifoDiscard_ofGroups.fifoPut_ofGroups

theorem stopBoundary_ofGroups (h : Keeps Part.ofGroups a s) {why : Nat} : Keeps Part.ofGroups a (s.stopBoundary t why) :=
  ite h.packetBoundary_ofGroups (h.ifTrue (refl _).flushNow_ofGroups).applyDest_ofGroups

/-! ### Streams and segments (R139 to R159) -/

theorem discardStream_ofGroups (h : Keeps Part.ofGroups a s) : Keeps Part.ofGroups a (s.discardStream t) := (h.setStrm.bumpBy off_tl).put off_tl

theorem leaveStream_ofGroups (h : Keeps Part.ofGroups a s) : Keeps Part.ofGroups a (s.leaveStream t) := h.ifTrue (refl _).discardStream_ofGroups

theorem enterStream_ofGroups (h : Keeps Part.ofGroups a s) {n : Nat} {d : SegDesc} : Keeps Part.ofGroups a (s.enterStream t n d) := by
  have hfresh : Keeps Part.ofGroups a ((s.beginFetch t n d).setStrm t { Stream.reset with seg := some n, desc := d, entered := true }) :=
    h.discardStream_ofGroups.setStrm.setStrm
  unfold State.enterStream
  dsimp only
  split
  · exact ite (h.setStrm.put off_tl) hfresh
  · split
    · exact ite h.setStrm hfresh
    · exact hfresh

theorem refuseSegment_ofGroups (h : Keeps Part.ofGroups a s) {n c : Nat} : Keeps Part.ofGroups a (s.refuseSegment t n c) :=
  ((h.mark off_tl).put off_tl).put off_tl

theorem leaveSegment_ofGroups (h : Keeps Part.ofGroups a s) : Keeps Part.ofGroups a (s.leaveSegment t) := (h.put off_tl).put off_tl

theorem becomeCurrent_ofGroups (h : Keeps Part.ofGroups a s) {n pass : Nat} {d : SegDesc} : Keeps Part.ofGroups a (s.becomeCurrent t n d pass) :=
  ((((h.ifFalse (refl _).packetBoundary_ofGroups).put off_tl).put off_tl).setReg off_tl).setTl.trace_ofGroups

theorem enterGap_ofGroups (h : Keeps Part.ofGroups a s) {inst len tset : Nat} {segment : Bool} :
    Keeps Part.ofGroups a (s.enterGap t inst len tset segment) :=
  ite (h.ifTrue (refl _).leaveSegment_ofGroups).safePoint_ofGroups.setTl (h.setTl.pinsIdle_ofGroups.mark off_tl)

theorem toFirst_ofGroups (h : Keeps Part.ofGroups a s) {inst : Nat} : Keeps Part.ofGroups a (s.toFirst t inst) :=
  (h.ifTrue ((refl _).put off_tl)).setTl

theorem enterChecked_ofGroups (h : Keeps Part.ofGroups a s) {n inst : Nat} {d : SegDesc} : Keeps Part.ofGroups a (s.enterChecked t n inst d) := by
  have hs : Keeps Part.ofGroups a (if d.isStream then (s.becomeCurrent t n d 0).enterStream t n d else (s.becomeCurrent t n d 0).leaveStream t) :=
    ite h.becomeCurrent_ofGroups.enterStream_ofGroups h.becomeCurrent_ofGroups.leaveStream_ofGroups
  exact ite hs.enterGap_ofGroups hs.toFirst_ofGroups

/-! ### Starts (R90, R91) -/

theorem emptyStack_ofGroups (h : Keeps Part.ofGroups a s) : Keeps Part.ofGroups a (s.emptyStack t) :=
  (h.foldl _ fun s _ => (refl s).put off_tl2).put off_tl

theorem joinEpochs_ofGroups (h : Keeps Part.ofGroups a s) : Keeps Part.ofGroups a (s.joinEpochs t) := h.foldl _ fun s _ => (refl s).beside rfl

theorem rejoin_ofGroups (h : Keeps Part.ofGroups a s) : Keeps Part.ofGroups a (s.rejoin t) := by
  unfold State.rejoin
  exact h.joinEpochs_ofGroups.foldl _ fun s _ => (refl s).ifTrue (refl s).setRdv

theorem startEngine_ofGroups (h : Keeps Part.ofGroups a s) {byReg : Bool} : Keeps Part.ofGroups a (s.startEngine t byReg).1 := by
  unfold State.startEngine
  dsimp only
  refine ite_fst (h.ifTrue ((refl s).mark off_tl)) (ite_fst (h.refuseSegment_ofGroups.mark off_tl) ?_)
  have hregs : Keeps Part.ofGroups a (((s.endInterval t).emptyStack t).put48 (TL_VIDX_LO t) (TL_VIDX_HI t) 0) :=
    (h.endInterval_ofGroups.emptyStack_ofGroups.setReg off_tl).setReg off_tl
  refine trace_ofGroups (rejoin_ofGroups (foldl (setCap (setCmp (setTl ?_))) _ fun s _ => (refl s).setPin))
  exact (((((((((((((hregs.put off_tl).put off_tl).put off_tl).put off_tl).put off_tl).put off_tl).put off_tl).put off_tl).put off_tl).put off_tl).put
    off_tl).put off_tl).put off_tl).put off_tl

theorem startAt_ofGroups (h : Keeps Part.ofGroups a s) {inst : Nat} {byReg : Bool} : Keeps Part.ofGroups a (s.startAt t inst byReg) :=
  ite h.startEngine_ofGroups.enterChecked_ofGroups h.startEngine_ofGroups

theorem afterStop_ofGroups (h : Keeps Part.ofGroups a s) {inst : Nat} {again : Bool} : Keeps Part.ofGroups a (s.afterStop t inst again) :=
  h.ifTrue (refl _).startAt_ofGroups

/-! ### Passes, parks (R122, R123, R140, R141) -/

theorem countPass_ofGroups (h : Keeps Part.ofGroups a s) : Keeps Part.ofGroups a (s.countPass t) :=
  (((h.packetBoundary_ofGroups.setReg off_tl).ifTrue (((refl _).putBit off_tl).put off_tl)).ifTrue (refl _).leaveSegment_ofGroups).setTl

theorem lastPass_ofGroups (h : Keeps Part.ofGroups a s) : Keeps Part.ofGroups a (s.lastPass t) := h.ifTrue (refl _).countPass_ofGroups

theorem parkAt_ofGroups (h : Keeps Part.ofGroups a s) {why inst : Nat} {p : Park} : Keeps Part.ofGroups a (s.parkAt t why p inst) :=
  (((h.advInst_ofGroups.setTl.put off_tl).put off_tl).pinsIdle_ofGroups.trace_ofGroups).ifTrue (refl _).source_ofGroups

theorem unparkAt_ofGroups (h : Keeps Part.ofGroups a s) {inst : Nat} {dest : Option Nat} : Keeps Part.ofGroups a (s.unparkAt t inst dest) :=
  (((h.advInst_ofGroups.put off_tl).put off_tl).setTl.putBit off_st).trace_ofGroups

end Keeps
end Sys2Proof.Machine
end

section
/-! SUPPORT. Rendezvous (R44 to R51): messages, releases and time-outs, and O16 settled. -/

namespace Sys2Proof.Machine

/-- The group's epoch number is the same in both states. -/
def EpochKept (k : Nat) (s t : State) : Prop := t.get (GL_RDV_STAT_EPOCH k) = s.get (GL_RDV_STAT_EPOCH k)

namespace EpochKept

variable {k j t n : Nat} {a s : State}

theorem refl (s : State) : EpochKept k s s := rfl

theorem trans {u : State} (h : EpochKept k a s) (h' : EpochKept k s u) : EpochKept k a u := Eq.trans h' h

/-- An operation that reaches no register of a rendezvous group. -/
theorem keeps {u : State} (hk : k < 32) (h : EpochKept k a s) (h' : Keeps Part.ofGroups s u) : EpochKept k a u := by
  refine h.trans (State.get_eq_of_reg (h' (.reg (GL_RDV_STAT k)) ⟨?_, ?_⟩)) <;> unfold GL_RDV_STAT <;> omega

theorem setReg (h : EpochKept k a s) {b : Nat} {v : Word} (hb : b ≠ GL_RDV_STAT k) : EpochKept k a (s.setReg b v) :=
  h.trans (State.get_eq_of_reg (State.reg_setReg_other s v hb.symm))

/-- The epoch lies above the other fields of the group's status. -/
theorem put (h : EpochKept k a s) {f : Field} {v : Nat} (hf : f.fits = true) (ha : f.addr = GL_RDV_STAT j) (hi : Nat.blt f.hi 24 = true) : EpochKept k a (s.put f v) := by
  refine h.trans ?_
  by_cases e : j = k
  · exact State.get_put_apart s v hf (by rw [ha, e]; rfl) ((Bool.or_eq_true _ _).mpr (.inr hi))
  · refine State.get_put_other s v ?_
    rw [ha]
    unfold GL_RDV_STAT_EPOCH GL_RDV_STAT
    simp only
    omega

theorem ite {c : Prop} [Decidable c] {x y : State} (hx : EpochKept k a x) (hy : EpochKept k a y) : EpochKept k a (if c then x else y) := by
  split <;> assumption

theorem foldl {β : Type} {f : State → β → State} (h : EpochKept k a s) (l : List β) (hf : ∀ s x, EpochKept k s (f s x)) : EpochKept k a (l.foldl f s) := by
  induction l generalizing s with
  | nil => exact h
  | cons x r ih => exact ih (h.trans (hf s x))

/-! ### Messages and withdrawals (R45 to R47) -/

theorem setRdv (h : EpochKept k a s) {x : Rdv} : EpochKept k a (s.setRdv j x) := h

theorem takeRelease (h : EpochKept k a s) {c : Nat} {x y : Bool} : EpochKept k a (s.takeRelease j c x y) :=
  h.setRdv.put (f := GL_RDV_STAT_STATE j) rfl rfl rfl

theorem sendRelease (h : EpochKept k a s) {c : Nat} {x : Bool} : EpochKept k a (s.sendRelease j c x) := by
  unfold State.sendRelease
  refine takeRelease ?_
  exact h

section
variable (hk : k < 32)
include hk

theorem openEpoch (h : EpochKept k a s) : EpochKept k a (s.openEpoch j) :=
  ite h (keeps hk (h.put (f := GL_RDV_STAT_STATE j) (v := 1) rfl rfl rfl)
    ((Keeps.refl _).foldl _ fun s _ => (Keeps.refl s).ifTrue ((Keeps.refl s).mark Keeps.off_tl)))

theorem leadReport (h : EpochKept k a s) {x y e n : Nat} {p q : Bool} : EpochKept k a (s.leadReport j x y e p q n) :=
  ite (h.put (f := GL_RDV_STAT_STRAY j) rfl rfl rfl) (ite h (ite (sendRelease (openEpoch hk h.setRdv)) (openEpoch hk h.setRdv)))

theorem report (h : EpochKept k a s) {p q : Bool} : EpochKept k a (s.report j p q n) := ite (leadReport hk h) (ite h h)

theorem reportDone (h : EpochKept k a s) {p : Bool} : EpochKept k a (s.reportDone j p n) := ite (report hk (openEpoch hk h.setRdv)) h.setRdv

theorem withdrawOne (h : EpochKept k a s) : EpochKept k a (s.withdrawOne t j n).1 := by
  unfold State.withdrawOne
  dsimp only
  split
  · exact h
  · exact reportDone hk h.setRdv

theorem withdraw (h : EpochKept k a s) : EpochKept k a (s.withdraw t n).1 := by
  have each (l : List Nat) (p : State × Bool) (hp : EpochKept k a p.1) :
      EpochKept k a (l.foldl (fun a k => ((a.1.withdrawOne t k n).1, a.2 || (a.1.withdrawOne t k n).2)) p).1 := by
    induction l generalizing p with
    | nil => exact hp
    | cons g l ih => exact ih _ (withdrawOne hk hp)
  exact each _ (s, false) h

theorem leaveRendezvous (h : EpochKept k a s) : EpochKept k a (s.leaveRendezvous t) := ite (withdraw hk h) (withdraw hk h)

/-! ### Stops (R89, R92) -/

/-- Only its withdrawal takes a tiller that stops to the groups. -/
theorem stopEngine (h : EpochKept k a s) {cause inst reason : Nat} : EpochKept k a (s.stopEngine t 4 cause inst reason false) := by
  have hahead : Keeps Part.ofGroups s ((s.advInst inst).discardAhead t) :=
    ((Keeps.refl s).advInst_ofGroups).ifFalse ((Keeps.refl _).setTl.bumpBy Keeps.off_tl)
  unfold State.stopEngine
  refine keeps hk (leaveRendezvous hk (keeps hk h (Keeps.leaveStream_ofGroups (Keeps.addBoundary_ofGroups (Keeps.stopBoundary_ofGroups ?_)))))
    (Keeps.refl _).completeResult_ofGroups.source_ofGroups.safePoint_ofGroups
  refine Keeps.trace_ofGroups (Keeps.pinsIdle_ofGroups (Keeps.endStep_ofGroups (Keeps.putBit Keeps.off_st (Keeps.putBit Keeps.off_st (Keeps.setTl ?_)))))
  exact ((((hahead.ifTrue (((Keeps.refl _).put Keeps.off_tl).bumpBy Keeps.off_tl)).put Keeps.off_tl).put Keeps.off_tl).put Keeps.off_tl).put Keeps.off_tl

theorem stopNow (h : EpochKept k a s) {inst : Nat} : EpochKept k a (s.stopNow t inst) := by
  have htag (q : State) (hq : Keeps Part.ofGroups s q) : EpochKept k a (((q.tag t 26).stopEngine t 4 2 inst 4 false).afterStop t inst (s.tl t).startReq) :=
    keeps hk (stopEngine hk (keeps hk h hq.tag)) (Keeps.refl _).afterStop_ofGroups
  unfold State.stopNow
  dsimp only
  split
  · exact htag _ (Keeps.refl s).lastPass_ofGroups
  · exact htag _ (Keeps.refl s).lastPass_ofGroups
  · exact htag _ (Keeps.refl s).lastPass_ofGroups
  · exact htag _ (Keeps.refl s)

/-- A park that begins: a stop that waits takes its place. -/
theorem settle (h : EpochKept k a s) {inst : Nat} : EpochKept k a (s.settle t inst) := by
  unfold State.settle
  split
  · next p hp =>
    refine ite ?_ h
    have hadv : EpochKept k a (s.advInst (s.tl t).dueAt) := keeps hk h (Keeps.refl s).advInst_ofGroups
    have hend : (s.advInst (s.tl t).dueAt).periodEnd t = if (s.tl t).stopReq then (s.advInst (s.tl t).dueAt).stopNow t (ceilCycle (s.tl t).dueAt)
        else ((s.advInst (s.tl t).dueAt).modTl t (fun x => { x with next := .seq })).parkAt t (State.parkWhy p) p (ceilCycle (s.tl t).dueAt) := by
      simp only [State.periodEnd, State.tl_advInst, hp]
    rw [hend]
    exact ite (stopNow hk hadv) (keeps hk hadv (Keeps.refl _).setTl.parkAt_ofGroups)
  · exact h

/-! ### Releases (R46, R48, R123) -/

theorem releaseTiller (h : EpochKept k a s) {inst : Nat} : EpochKept k a (s.releaseTiller t inst) :=
  ite (keeps hk (settle hk h) (Keeps.refl _).unparkAt_ofGroups) (keeps hk (settle hk h) (Keeps.refl _).setLate_ofGroups.setTl)

theorem releaseMember (h : EpochKept k a s) {timeout late : Bool} {inst : Nat} : EpochKept k a (State.releaseMember timeout late j inst s t) := by
  have hown : Keeps Part.ofGroups s (s.setOwnEpoch t j (s.ownEpoch t j + 1)) := (Keeps.refl s).beside rfl
  refine releaseTiller hk (keeps hk h ?_)
  have hmark := hown.ifTrue (c := timeout = true) (((Keeps.refl _).mark (f := TL_FLAGS_RDVTMO t) Keeps.off_tl).tag (t := t) (k := 24))
  exact hmark.ifTrue (Keeps.refl _).setLate_ofGroups

end

end EpochKept

namespace State

/-! ### A release takes effect (R45, R46, R48) -/

theorem rdvStat_lt {k : Nat} (hk : k < 32) : GL_RDV_STAT k < 0x5000 := by
  unfold GL_RDV_STAT
  omega

/-- The group is IDLE in its next epoch, with no arrivals. -/
theorem advanceEpoch_effect (s : State) (k : Nat) : (s.advanceEpoch k).get (GL_RDV_STAT_STATE k) = 0 ∧
    (s.advanceEpoch k).get (GL_RDV_STAT_EPOCH k) = (s.get (GL_RDV_STAT_EPOCH k) + 1) % 256 ∧ (s.advanceEpoch k).get (GL_RDV_STAT_ARRIVED k) = 0 := by
  unfold State.advanceEpoch
  refine ⟨?_, ?_, ?_⟩
  · rw [get_put_apart _ _ (by rfl) (by rfl) (by rfl), get_put_of_fits _ _ (by rfl), Nat.zero_mod]
  · rw [get_put_apart _ _ (by rfl) (by rfl) (by rfl), get_put_apart _ _ (by rfl) (by rfl) (by rfl), State.wrapUp, get_put_of_fits _ _ (by rfl), get_setRdv]
    rfl
  · rw [get_put_of_fits _ _ (by rfl), Nat.zero_mod]

/-- What a release reports, by flags and sources, leaves the fields beside those flags. -/
theorem get_releaseReport (s : State) {k : Nat} (hk : k < 32) (timeout late : Bool) (b : Bool) {f : Field} (ha : f.addr = GL_RDV_STAT k)
    (h21 : f.apart (GL_RDV_STAT_TIMEOUT k) = true) (h20 : f.apart (GL_RDV_STAT_RDV_LATE k) = true) :
    (let s1 := if timeout then s.mark (GL_RDV_STAT_TIMEOUT k) else s
     let s2 := if b then s1.source (1248 + k) else s1
     if late then (s2.mark (GL_RDV_STAT_RDV_LATE k)).source 1246 else s2).get f = s.get f := by
  have hlow : f.addr < 0x5000 := ha ▸ rdvStat_lt hk
  have htimeout (q : State) : (q.mark (GL_RDV_STAT_TIMEOUT k)).get f = q.get f := get_put_apart q 1 rfl ha h21
  have hlate (q : State) : (q.mark (GL_RDV_STAT_RDV_LATE k)).get f = q.get f := get_put_apart q 1 rfl ha h20
  dsimp only
  split_ifs <;> simp only [get_source_low _ _ hlow, htimeout, hlate]

/-- The group is IDLE in its next epoch, with no arrivals, whatever its members do. -/
theorem releaseNow_effect (s : State) {k : Nat} (hk : k < 32) (r : Nat) (timeout late reaches : Bool) :
    (s.releaseNow k r timeout late reaches).get (GL_RDV_STAT_STATE k) = 0 ∧
    (s.releaseNow k r timeout late reaches).get (GL_RDV_STAT_EPOCH k) = (s.get (GL_RDV_STAT_EPOCH k) + 1) % 256 ∧
    (s.releaseNow k r timeout late reaches).get (GL_RDV_STAT_ARRIVED k) = 0 := by
  unfold State.releaseNow
  dsimp only
  split
  · rw [get_setRdv]
    exact advanceEpoch_effect s k
  · refine ⟨(get_releaseReport _ hk timeout late _ rfl rfl rfl).trans ?_, (get_releaseReport _ hk timeout late _ rfl rfl rfl).trans ?_,
      (get_releaseReport _ hk timeout late _ rfl rfl rfl).trans ?_⟩
    · exact (advanceEpoch_effect _ k).1
    · refine (advanceEpoch_effect _ k).2.1.trans (congrArg (fun e => (e + 1) % 256) (EpochKept.put (j := k) ?_ rfl rfl rfl))
      have hmembers (l l' : List Nat) (late' : Nat → Bool) : EpochKept k s ((l'.foldl (fun s t => if s.active t then s.tag t 25 else s)
          (l.foldl (fun x t => releaseMember timeout (late' t) k s.now x t) s))) :=
        EpochKept.foldl (EpochKept.foldl (EpochKept.refl s) l fun q t => EpochKept.releaseMember hk (EpochKept.refl q)) l'
          fun q t => EpochKept.keeps hk (EpochKept.refl q) ((Keeps.refl q).ifTrue (Keeps.refl q).tag)
      have hne : GL_RDV_REL_LO k ≠ GL_RDV_STAT k ∧ GL_RDV_REL_HI k ≠ GL_RDV_STAT k ∧ GL_RDV_ABSENT_LO k ≠ GL_RDV_STAT k ∧ GL_RDV_ABSENT_HI k ≠ GL_RDV_STAT k := by
        unfold GL_RDV_REL_LO GL_RDV_REL_HI GL_RDV_ABSENT_LO GL_RDV_ABSENT_HI GL_RDV_STAT
        omega
      obtain ⟨h1, h2, h3, h4⟩ := hne
      exact ((((hmembers _ _ _).setReg h1).setReg h2).setReg h3).setReg h4
    · exact (advanceEpoch_effect _ k).2.2

theorem releaseDue_effect {s : State} {k : Nat} (hk : k < 32) {r : Nat} {timeout reaches late : Bool}
    (h : (s.rdv k).release = some (r, timeout, reaches, late)) : (s.releaseDue k).get (GL_RDV_STAT_STATE k) = 0 ∧
    (s.releaseDue k).get (GL_RDV_STAT_EPOCH k) = (s.get (GL_RDV_STAT_EPOCH k) + 1) % 256 ∧ (s.releaseDue k).get (GL_RDV_STAT_ARRIVED k) = 0 := by
  have e : s.releaseDue k = (s.advTo (s.tickOfCount ((r + 64) % 2 ^ 48))).releaseNow k r timeout late reaches := by
    simp only [State.releaseDue, h]
  rw [e, ← get_advTo s (s.tickOfCount ((r + 64) % 2 ^ 48))]
  exact releaseNow_effect _ hk r timeout late reaches

/-! ### Releases sent and taken (R46, R47, R51) -/

theorem takeRelease_effect (s : State) (k r : Nat) (timeout reaches : Bool) : (s.takeRelease k r timeout reaches).get (GL_RDV_STAT_STATE k) = 2 ∧
    ((s.takeRelease k r timeout reaches).rdv k).release = some (r, timeout, reaches, notBefore48 s.view r && s.view ≠ r) ∧
    ((s.takeRelease k r timeout reaches).rdv k).sent = (s.rdv k).sent := by
  have hrdv : (s.takeRelease k r timeout reaches).rdv k =
      { s.rdv k with release := some (r, timeout, reaches, notBefore48 s.view r && s.view ≠ r) } := rdv_setRdv_same ..
  exact ⟨get_put_of_fits _ 2 rfl, by rw [hrdv], by rw [hrdv]⟩

theorem reg_takeRelease (s : State) {k b : Nat} (r : Nat) (timeout reaches : Bool) (h : b ≠ GL_RDV_STAT k) : (s.takeRelease k r timeout reaches).reg b = s.reg b :=
  reg_put_other (s.setRdv k _) (GL_RDV_STAT_STATE k) 2 h

theorem sendRelease_effect (s : State) (k r : Nat) (timeout : Bool) : ((s.sendRelease k r timeout).rdv k).sent = true ∧
    (s.sendRelease k r timeout).get (GL_RDV_STAT_STATE k) = 2 := by
  unfold State.sendRelease
  dsimp only
  refine ⟨(takeRelease_effect _ k _ timeout _).2.2.trans ?_, (takeRelease_effect _ k _ timeout _).1⟩
  exact congrArg Rdv.sent (rdv_setRdv_same s k { s.rdv k with sent := true })

/-- Of the group's status a release that is sent moves its state alone. -/
theorem on_timeout_sendRelease (s : State) (k r : Nat) (timeout : Bool) :
    (s.sendRelease k r timeout).on (GL_RDV_STAT_TIMEOUT k) = s.on (GL_RDV_STAT_TIMEOUT k) :=
  on_eq_of_get (get_put_apart _ 2 (f := GL_RDV_STAT_STATE k) (g := GL_RDV_STAT_TIMEOUT k) rfl rfl rfl)

/-! ### Reports (R45) -/

/-- What the leader keeps of a report of a part. -/
def reported (g : Rdv) (part stamp : Nat) (first complete : Bool) : Rdv :=
  { g with
    tFirst := if first then (match g.tFirst with | none => some stamp | some f => if notBefore48 stamp f then some f else some stamp) else g.tFirst
    complete := if complete then g.complete ||| 2 ^ part else g.complete
    tLast := if complete then laterOf g.tLast stamp else g.tLast }

section report
variable {s : State} {k x y : Nat}

theorem leadReport_stray (h : 8 ≤ x ∨ 6 ≤ y ∨ (s.rdvParts k).testBit (8 * y + x) = false) (epoch : Nat) (first complete : Bool) (stamp : Nat) :
    s.leadReport k x y epoch first complete stamp = s.mark (GL_RDV_STAT_STRAY k) := by
  refine if_pos ?_
  rcases h with h | h | h <;> simp [h]

variable (hen : s.on (GL_RDV_CFG_EN k) = true) (hlead : s.rdvLeader k = s.here) (hx : x < 8) (hy : y < 6)
  (hpart : (s.rdvParts k).testBit (8 * y + x) = true)
include hen hlead hx hy hpart

theorem leadReport_check : ¬(!(s.on (GL_RDV_CFG_EN k)) || s.rdvLeader k != s.here || x ≥ 8 || y ≥ 6 || !(s.rdvParts k).testBit (8 * y + x)) = true := by
  simp [hen, hlead, hpart, hx, hy]

/-- A report of another epoch changes nothing. -/
theorem leadReport_other {epoch : Nat} (he : epoch ≠ s.get (GL_RDV_STAT_EPOCH k)) (first complete : Bool) (stamp : Nat) :
    s.leadReport k x y epoch first complete stamp = s :=
  (if_neg (leadReport_check hen hlead hx hy hpart)).trans (if_pos (by simp [he]))

/-- A report of the present epoch, while the group is PENDING with nothing sent. -/
theorem leadReport_pending {epoch : Nat} (he : epoch = s.get (GL_RDV_STAT_EPOCH k)) (h1 : s.get (GL_RDV_STAT_STATE k) = 1) (hs : (s.rdv k).sent = false)
    (first complete : Bool) (stamp : Nat) :
    let g := reported (s.rdv k) (8 * y + x) stamp first complete
    s.leadReport k x y epoch first complete stamp =
      if complete && (g.complete &&& s.rdvParts k) == s.rdvParts k then (s.setRdv k g).sendRelease k (ceil128 (g.tLast.getD stamp + 256)) false
      else s.setRdv k g := by
  intro g
  have hopen : s.epochOpen k = true := by simp [State.epochOpen, h1]
  have hopened : (s.setRdv k g).openEpoch k = s.setRdv k g := if_pos hopen
  refine (if_neg (leadReport_check hen hlead hx hy hpart)).trans ((if_neg (by simp [hs, he])).trans ?_)
  simp only [hopen, Bool.not_true, Bool.false_and, Bool.false_eq_true, if_false, Bool.or_false]
  exact congrArg₂ (fun q q' => if complete && (g.complete &&& s.rdvParts k) == s.rdvParts k then
    State.sendRelease q k (ceil128 (g.tLast.getD stamp + 256)) false else q') hopened hopened

/-- With the last part's COMPLETE the leader sends the release. -/
theorem leadReport_last {epoch : Nat} (he : epoch = s.get (GL_RDV_STAT_EPOCH k)) (h1 : s.get (GL_RDV_STAT_STATE k) = 1) (hs : (s.rdv k).sent = false)
    (hall : ((s.rdv k).complete ||| 2 ^ (8 * y + x)) &&& s.rdvParts k = s.rdvParts k) (first : Bool) (stamp : Nat) :
    ∃ r, s.leadReport k x y epoch first true stamp = (s.setRdv k (reported (s.rdv k) (8 * y + x) stamp first true)).sendRelease k r false :=
  ⟨_, (leadReport_pending hen hlead hx hy hpart he h1 hs first true stamp).trans (if_pos (by simp [reported, hall]))⟩

end report

/-! ### A time-out (R48) -/

theorem rdvTimeout_sends {s : State} {k f : Nat} (hen : s.on (GL_RDV_CFG_EN k) = true) (hf : (s.rdv k).tFirst = some f) (hs : (s.rdv k).sent = false)
    (hlead : s.rdvLeader k = s.here) : ∃ (q : State) (r : Nat), s.rdvTimeout k = (q.mark (GL_RDV_STAT_TIMEOUT k)).sendRelease k r true := by
  simp only [State.rdvTimeout, hf, hs, hen, hlead, Bool.not_true, Bool.or_false, ne_eq, not_true, decide_false, Bool.false_eq_true, if_false]
  exact ⟨_, _, rfl⟩

end State

/-! ### The instructions -/

open State

section off
variable {s : State} (hl : s.power.pllLost = true) (k : Fin 32)
include hl

/-- Without REFCLK none of them acts (R26). -/
theorem exec_rendezvous_off : (∀ x y epoch first complete n stamp, exec (.rdvReport k x y epoch first complete n stamp) s = .next s) ∧
    (∀ x y epoch timeout r, exec (.rdvRelease k x y epoch timeout r) s = .next s) ∧ exec (.rdvReleaseDue k) s = .next s ∧
    exec (.rdvTimeout k) s = .next s := by
  have e (t : State) : s.clocked t = s := if_pos hl
  exact ⟨fun x y epoch first complete n stamp => congrArg _ (e _), fun x y epoch timeout r => congrArg _ (e _), congrArg _ (e _), congrArg _ (e _)⟩

end off

section on
variable {s : State} (hl : s.power.pllLost = false) {k : Fin 32}
include hl

theorem exec_rdvReport (x y : Fin 16) (epoch : Fin 256) (first complete : Bool) (n : Fin 256) (stamp : BitVec 48) :
    exec (.rdvReport k x y epoch first complete n stamp) s =
      .next ((s.takeMesh (.rdvReport x.val y.val k.val epoch.val first complete n.val stamp.toNat)).leadReport k.val x.val y.val epoch.val first complete
        stamp.toNat) :=
  congrArg _ (if_neg (by rw [hl]; decide))

theorem exec_rdvRelease (x y : Fin 16) (epoch : Fin 256) (timeout : Bool) (r : BitVec 48) : exec (.rdvRelease k x y epoch timeout r) s =
    .next ((s.takeMesh (.rdvRelease x.val y.val k.val epoch.val timeout r.toNat)).releaseMessage k.val x.val y.val r.toNat timeout) :=
  congrArg _ (if_neg (by rw [hl]; decide))

theorem exec_rdvReleaseDue : exec (.rdvReleaseDue k) s = .next (s.releaseDue k.val) := congrArg _ (if_neg (by rw [hl]; decide))

theorem exec_rdvTimeout : exec (.rdvTimeout k) s = .next (s.rdvTimeout k.val) := congrArg _ (if_neg (by rw [hl]; decide))

end on

/-! ### Reports at the leader -/

section report
variable {s : State} (hl : s.power.pllLost = false) {k : Fin 32} {x y : Fin 16} (epoch : Fin 256) (first complete : Bool) (n : Fin 256) (stamp : BitVec 48)
include hl

/-- A report of a part that may not send it is a STRAY (R51). -/
theorem exec_rdvReport_stray (h : 8 ≤ x.val ∨ 6 ≤ y.val ∨ (s.rdvParts k.val).testBit (8 * y.val + x.val) = false) :
    ∃ t, exec (.rdvReport k x y epoch first complete n stamp) s = .next t ∧ t.on (GL_RDV_STAT_STRAY k.val) = true ∧ t.rdvs = s.rdvs := by
  refine ⟨_, exec_rdvReport hl x y epoch first complete n stamp, ?_⟩
  rw [leadReport_stray (s := s.takeMesh _) h]
  exact ⟨on_mark_of_fits _ rfl, rfl⟩

variable (hen : s.on (GL_RDV_CFG_EN k.val) = true) (hlead : s.rdvLeader k.val = s.here) (hx : x.val < 8) (hy : y.val < 6)
  (hpart : (s.rdvParts k.val).testBit (8 * y.val + x.val) = true)
include hen hlead hx hy hpart

/-- A report of another epoch changes nothing. -/
theorem exec_rdvReport_other (he : epoch.val ≠ s.get (GL_RDV_STAT_EPOCH k.val)) :
    ∃ t, exec (.rdvReport k x y epoch first complete n stamp) s = .next t ∧ t.regs = s.regs ∧ t.rdvs = s.rdvs := by
  refine ⟨_, exec_rdvReport hl x y epoch first complete n stamp, ?_⟩
  rw [leadReport_other (s := s.takeMesh _) hen hlead hx hy hpart he]
  exact ⟨rfl, rfl⟩

variable (h1 : s.get (GL_RDV_STAT_STATE k.val) = 1) (hs : (s.rdv k.val).sent = false) (he : epoch.val = s.get (GL_RDV_STAT_EPOCH k.val))
include h1 hs he

/-- A report that completes no part is kept: the earliest FIRST is T_first. -/
theorem exec_rdvReport_kept : ∃ t, exec (.rdvReport k x y epoch first false n stamp) s = .next t ∧ t.get (GL_RDV_STAT_STATE k.val) = 1 ∧
    t.rdv k.val = reported (s.rdv k.val) (8 * y.val + x.val) stamp.toNat first false := by
  refine ⟨_, exec_rdvReport hl x y epoch first false n stamp, ?_⟩
  rw [leadReport_pending (s := s.takeMesh _) hen hlead hx hy hpart he h1 hs, if_neg (by simp)]
  exact ⟨h1, rdv_setRdv_same ..⟩

/-- The COMPLETE of the last part missing makes the leader send the release. -/
theorem exec_rdvReport_last (hall : ((s.rdv k.val).complete ||| 2 ^ (8 * y.val + x.val)) &&& s.rdvParts k.val = s.rdvParts k.val) :
    ∃ t, exec (.rdvReport k x y epoch first true n stamp) s = .next t ∧ (t.rdv k.val).sent = true ∧ t.get (GL_RDV_STAT_STATE k.val) = 2 := by
  refine ⟨_, exec_rdvReport hl x y epoch first true n stamp, ?_⟩
  obtain ⟨r, hsends⟩ := leadReport_last (s := s.takeMesh (.rdvReport x.val y.val k.val epoch.val first true n.val stamp.toNat)) hen hlead hx hy hpart he h1 hs hall
    first stamp.toNat
  rw [hsends]
  exact sendRelease_effect ..

end report

/-! ### Releases that arrive, fall due or are forced -/

section release
variable {s : State} (hl : s.power.pllLost = false) {k : Fin 32}
include hl

/-- A release from the leader waits for its count. -/
theorem exec_rdvRelease_taken (hen : s.on (GL_RDV_CFG_EN k.val) = true) {x y : Fin 16} (epoch : Fin 256) (timeout : Bool) {r : BitVec 48} (hx : x.val < 8)
    (hlead : s.rdvLeader k.val = 8 * y.val + x.val) (hr : ¬(notBefore48 s.view r.toNat = true ∧ s.view ≠ r.toNat)) :
    ∃ t, exec (.rdvRelease k x y epoch timeout r) s = .next t ∧ (t.rdv k.val).release = some (r.toNat, timeout, true, false) ∧
      t.get (GL_RDV_STAT_STATE k.val) = 2 ∧ ∀ a, a ≠ GL_RDV_STAT k.val → t.reg a = s.reg a := by
  have hpast : (notBefore48 s.view r.toNat && decide (s.view ≠ r.toNat)) = false := by simpa using hr
  have htaken (m : MeshMsg) : (s.takeMesh m).releaseMessage k.val x.val y.val r.toNat timeout = (s.takeMesh m).takeRelease k.val r.toNat timeout true :=
    (if_neg (show ¬(!s.on (GL_RDV_CFG_EN k.val) || decide (s.rdvLeader k.val ≠ 8 * y.val + x.val) || decide (8 ≤ x.val)) = true by simp [hen, hlead, hx])).trans
      (if_neg (show ¬(notBefore48 s.view r.toNat && decide (s.view ≠ r.toNat)) = true by rw [hpast]; decide))
  refine ⟨_, exec_rdvRelease hl x y epoch timeout r, ?_⟩
  rw [htaken]
  obtain ⟨hstate, hrel, -⟩ := takeRelease_effect (s.takeMesh (.rdvRelease x.val y.val k.val epoch.val timeout r.toNat)) k.val r.toNat timeout true
  exact ⟨hrel.trans (congrArg (fun late => some (r.toNat, timeout, true, late)) hpast), hstate, fun a ha => reg_takeRelease _ _ _ _ ha⟩

/-- A release of a part that is not the leader is a STRAY (R51). -/
theorem exec_rdvRelease_stray {x y : Fin 16} (epoch : Fin 256) (timeout : Bool) (r : BitVec 48) (hlead : s.rdvLeader k.val ≠ 8 * y.val + x.val) :
    ∃ t, exec (.rdvRelease k x y epoch timeout r) s = .next t ∧ t.on (GL_RDV_STAT_STRAY k.val) = true ∧ t.rdvs = s.rdvs := by
  have hstray (m : MeshMsg) : (s.takeMesh m).releaseMessage k.val x.val y.val r.toNat timeout = (s.takeMesh m).mark (GL_RDV_STAT_STRAY k.val) :=
    if_pos (show (!s.on (GL_RDV_CFG_EN k.val) || decide (s.rdvLeader k.val ≠ 8 * y.val + x.val) || decide (8 ≤ x.val)) = true by simp [hlead])
  refine ⟨_, exec_rdvRelease hl x y epoch timeout r, ?_⟩
  rw [hstray]
  exact ⟨on_mark_of_fits _ rfl, rfl⟩

/-- The leader of a group that times out sends a release with TIMEOUT (R48). -/
theorem exec_rdvTimeout_sends (hen : s.on (GL_RDV_CFG_EN k.val) = true) {f : Nat} (hf : (s.rdv k.val).tFirst = some f) (hs : (s.rdv k.val).sent = false)
    (hlead : s.rdvLeader k.val = s.here) : ∃ t, exec (.rdvTimeout k) s = .next t ∧ (t.rdv k.val).sent = true ∧ t.get (GL_RDV_STAT_STATE k.val) = 2 ∧
      t.on (GL_RDV_STAT_TIMEOUT k.val) = true := by
  obtain ⟨q, r, hsends⟩ := rdvTimeout_sends hen hf hs hlead
  refine ⟨_, exec_rdvTimeout hl, ?_⟩
  rw [hsends]
  obtain ⟨hsent, hstate⟩ := sendRelease_effect (q.mark (GL_RDV_STAT_TIMEOUT k.val)) k.val r true
  exact ⟨hsent, hstate, (on_timeout_sendRelease ..).trans (on_mark_of_fits _ rfl)⟩

end release

end Sys2Proof.Machine

section
open Sys2Proof.Machine Sys2Proof.Machine.State

/-- Settles O16. A report that the leader takes is kept with the group, and the last COMPLETE or a time-out makes it send the release; a release that
falls due leaves the group's status to `advanceEpoch`, which nothing its members do afterwards reaches. -/
theorem rendezvousReportsAndReleases : Obligations.RendezvousReportsAndReleases := by
  intro k s hen
  refine ⟨fun hl => exec_rendezvous_off hl k, fun hl => ⟨?reports, ?releases, ?due, fun f hf hs hlead => exec_rdvTimeout_sends hl hen hf hs hlead⟩⟩
  case reports =>
    intro x y epoch first complete n stamp part hlead
    refine ⟨fun hx hy hpart h1 hs => ⟨fun he => ⟨fun _ => ?_, exec_rdvReport_last hl epoch first n stamp hen hlead hx hy hpart h1 hs he⟩,
      exec_rdvReport_other hl epoch first complete n stamp hen hlead hx hy hpart⟩, exec_rdvReport_stray hl epoch first complete n stamp⟩
    obtain ⟨t, hexec, hstate, hrdv⟩ := exec_rdvReport_kept hl epoch first n stamp hen hlead hx hy hpart h1 hs he
    refine ⟨t, hexec, hstate, by rw [hrdv]; rfl, ?_⟩
    rw [hrdv]
    cases first with
    | false => rfl
    | true => cases hfirst : (s.rdv k.val).tFirst <;> simp [reported, hfirst, apply_ite some]
  case releases =>
    exact fun x y epoch timeout r => ⟨exec_rdvRelease_taken hl hen epoch timeout, exec_rdvRelease_stray hl epoch timeout r⟩
  case due =>
    exact fun r timeout reaches late h => ⟨_, exec_rdvReleaseDue hl, releaseDue_effect k.isLt h⟩

end
end

section
/-! SUPPORT. The opcodes that choose what follows their vector (R66 to R88, R94, R102, R143), and O18, O19, O20 and O23 settled. -/

namespace Sys2Proof.Machine

namespace State

/-! ### An opcode that chooses what follows (R58, R73) -/

section chooses
variable {s : State} {t opc opd cnd : Nat} {f : State → State} (h : s.opcodeRuns t opc opd cnd = true) (h38 : opc ≠ 0x38) (h41 : opc ≠ 0x41)

include h h38 h41 in
/-- One that stops nothing leaves the state in which it was decided. -/
theorem asOpcode_chooses {q : State} (hf : f (s.carrying t opc opd cnd) = q) (hn : (q.tl t).next.stops = false) : s.asOpcode t opc opd cnd f = q := by
  rw [asOpcode_runs h h38 h41]
  simp [hf, hn]

include h h38 h41 in
theorem asOpcode_follows {q : State} {n : Next} (hf : f (s.carrying t opc opd cnd) = q.follow t n) (hn : n.stops = false) :
    s.asOpcode t opc opd cnd f = q.follow t n :=
  asOpcode_chooses h h38 h41 hf (by rw [tl_follow, hn])

include h in
/-- A target lies in vector SRAM (R68). -/
theorem target_lt_of_runs (ht : hasTarget opc = true) : opd < 2 ^ 14 := by
  simp only [State.opcodeRuns, Bool.and_eq_true, beq_iff_eq] at h
  obtain ⟨-, hcause⟩ := h
  by_contra hge
  unfold State.opcodeCause at hcause
  simp only [ht, Bool.not_true, Bool.false_and, Bool.true_and, decide_eq_true (Nat.le_of_not_lt hge), if_true] at hcause
  split_ifs at hcause

end chooses

@[simp] theorem cmp_carrying (s : State) (t opc opd cnd : Nat) : (s.carrying t opc opd cnd).cmp = s.cmp := rfl
@[simp] theorem get_carrying (s : State) (t opc opd cnd : Nat) : (s.carrying t opc opd cnd).get = s.get := rfl
@[simp] theorem fbit_carrying (s : State) (t opc opd cnd : Nat) : (s.carrying t opc opd cnd).fbit = s.fbit := rfl
@[simp] theorem cmp_follow (s : State) (t : Nat) (n : Next) : (s.follow t n).cmp = s.cmp := rfl

/-! ### Loops (R70, R71) -/

theorem addr_loopStart (t k : Nat) : (loopStart t k).addr = tlBase t + 0x30 + 4 * (k / 2) := by
  unfold loopStart
  split <;> rfl

theorem fits_loopStart (t k : Nat) : (loopStart t k).fits = true := by
  unfold loopStart
  split <;> rfl

theorem get_put_loopStart (s : State) (t k i : Nat) : (s.put (loopStart t k) i).get (loopStart t k) = i % 2 ^ 14 := by
  rw [get_put_of_fits _ _ (fits_loopStart t k)]
  unfold loopStart
  split <;> rfl

/-- The counters, the loop starts and the open bits of the loops stand in registers of their own. -/
theorem loop_registers_apart (t : Nat) {k : Nat} (hk : k < 4) : (TL_LOOP_COUNT t k).addr ≠ (loopStart t k).addr ∧
    (TL_LOOP_COUNT t k).addr ≠ (TL_SEQ_STAT_LOOP_OPEN t).addr ∧ (loopStart t k).addr ≠ (TL_SEQ_STAT_LOOP_OPEN t).addr := by
  rw [addr_loopStart]
  unfold TL_LOOP_COUNT TL_LOOP TL_SEQ_STAT_LOOP_OPEN TL_SEQ_STAT
  dsimp only
  omega

theorem get_put_loopCount (s : State) (t k : Nat) {n : Nat} (hn : n < 2 ^ 30) : (s.put (TL_LOOP_COUNT t k) n).get (TL_LOOP_COUNT t k) = n :=
  (get_put_of_fits s n (f := TL_LOOP_COUNT t k) rfl).trans (Nat.mod_eq_of_lt hn)

/-- A loop that opens: its counter, its start and its open bit. -/
theorem openLoop_effect (s : State) (t k n i : Nat) (hk : k < 4) (hn : n < 2 ^ 30) :
    let u := ((s.put (TL_LOOP_COUNT t k) n).put (loopStart t k) i).putBit (TL_SEQ_STAT_LOOP_OPEN t) k true
    u.get (TL_LOOP_COUNT t k) = n ∧ u.get (loopStart t k) = i % 2 ^ 14 ∧ u.fbit (TL_SEQ_STAT_LOOP_OPEN t) k = true := by
  obtain ⟨hcs, hco, hso⟩ := loop_registers_apart t hk
  refine ⟨?_, ?_, fbit_putBit _ true rfl hk⟩
  · rw [State.putBit, get_put_other _ _ hco, get_put_other _ _ hcs, get_put_loopCount s t k hn]
  · rw [State.putBit, get_put_other _ _ hso, get_put_loopStart]

end State

open State

/-! ### Sequence opcodes (R67 to R73, R143) -/

section sequence
variable {t : Fin 64} {w : Word} {s : State}

theorem exec_vNop (h : s.opcodeRuns t.val 0x00 0 0 = true) :
    ∃ u, exec (.vNop t) s = .next u ∧ (u.tl t.val).next = .seq ∧ (u.tl t.val).dueAt = (s.tl t.val).endAt ∧ u.regs = s.regs :=
  ⟨_, congrArg Host.Outcome.next (asOpcode_follows h (by decide) (by decide) rfl rfl), by simp, by simp, rfl⟩

theorem exec_vRepeat (h : s.opcodeRuns t.val 0x01 w.toNat 0 = true) :
    let left := if (s.tl t.val).repLeft = 0 then max 1 w.toNat - 1 else (s.tl t.val).repLeft - 1
    ∃ u, exec (.vRepeat t w) s = .next u ∧ (u.tl t.val).repLeft = left ∧ (u.tl t.val).next = (if left = 0 then .seq else .again) ∧ u.regs = s.regs := by
  intro left
  let c := s.carrying t.val 0x01 w.toNat 0
  have hf : opRepeat c t.val w.toNat = (c.setTl t.val { c.tl t.val with repLeft := left }).follow t.val (if left = 0 then .seq else .again) := by
    simp [opRepeat, c, left]
  have hn : (if left = 0 then Next.seq else Next.again).stops = false := by split <;> rfl
  exact ⟨_, congrArg Host.Outcome.next (asOpcode_follows h (by decide) (by decide) hf hn), by simp, by simp, rfl⟩

theorem exec_vLoop_opens (h : s.opcodeRuns t.val 0x02 w.toNat 0 = true) (hl : (s.tl t.val).looped = false) :
    ∃ u, exec (.vLoop t w) s = .next u ∧ (u.tl t.val).next = .seq ∧ u.get (TL_LOOP_COUNT t.val (bits w.toNat 31 30)) = bits w.toNat 29 0 ∧
      u.get (State.loopStart t.val (bits w.toNat 31 30)) = (s.tl t.val).idx % 2 ^ 14 ∧ u.fbit (TL_SEQ_STAT_LOOP_OPEN t.val) (bits w.toNat 31 30) = true := by
  let k := bits w.toNat 31 30
  let c := s.carrying t.val 0x02 w.toNat 0
  let q := if c.fbit (TL_SEQ_STAT_LOOP_OPEN t.val) k then c.trace t.val 4 (c.tl t.val).vec.opc ((c.tl t.val).idx % 2 ^ 14) else c
  have hf : opLoop c t.val w.toNat = (((q.put (TL_LOOP_COUNT t.val k) (bits w.toNat 29 0)).put (loopStart t.val k) (s.tl t.val).idx).putBit
      (TL_SEQ_STAT_LOOP_OPEN t.val) k true).follow t.val .seq := by
    simp [opLoop, hl, c, q, k]
  obtain ⟨hcount, hstart, hopen⟩ := openLoop_effect q t.val k (bits w.toNat 29 0) (s.tl t.val).idx (bits_lt ..) (bits_lt ..)
  exact ⟨_, congrArg Host.Outcome.next (asOpcode_follows h (by decide) (by decide) hf rfl), by simp, hcount, hstart, hopen⟩

theorem exec_vLoop_again (h : s.opcodeRuns t.val 0x02 w.toNat 0 = true) (hl : (s.tl t.val).looped = true) :
    ∃ u, exec (.vLoop t w) s = .next u ∧ (u.tl t.val).next = .seq ∧ u.regs = s.regs := by
  have hf : opLoop (s.carrying t.val 0x02 w.toNat 0) t.val w.toNat = (s.carrying t.val 0x02 w.toNat 0).follow t.val .seq := by
    simp [opLoop, hl]
  exact ⟨_, congrArg Host.Outcome.next (asOpcode_follows h (by decide) (by decide) hf rfl), by simp, rfl⟩

theorem exec_vEndloop_falls (h : s.opcodeRuns t.val 0x03 w.toNat 0 = true) (h0 : s.get (TL_LOOP_COUNT t.val (w.toNat % 4)) = 0) :
    ∃ u, exec (.vEndloop t w) s = .next u ∧ (u.tl t.val).next = .seq ∧ u.fbit (TL_SEQ_STAT_LOOP_OPEN t.val) (w.toNat % 4) = false := by
  let c := s.carrying t.val 0x03 w.toNat 0
  have hf : opEndloop c t.val w.toNat = (c.putBit (TL_SEQ_STAT_LOOP_OPEN t.val) (w.toNat % 4) false).follow t.val .seq := by
    simp [opEndloop, c, h0]
  exact ⟨_, congrArg Host.Outcome.next (asOpcode_follows h (by decide) (by decide) hf rfl), by simp,
    fbit_putBit c (f := TL_SEQ_STAT_LOOP_OPEN t.val) false rfl (Nat.mod_lt _ (by decide))⟩

theorem exec_vEndloop_loops (h : s.opcodeRuns t.val 0x03 w.toNat 0 = true) (h0 : s.get (TL_LOOP_COUNT t.val (w.toNat % 4)) ≠ 0) :
    ∃ u, exec (.vEndloop t w) s = .next u ∧ (u.tl t.val).next = .loopBack (s.get (State.loopStart t.val (w.toNat % 4))) ∧
      u.get (TL_LOOP_COUNT t.val (w.toNat % 4)) = s.get (TL_LOOP_COUNT t.val (w.toNat % 4)) - 1 := by
  let k := w.toNat % 4
  let c := s.carrying t.val 0x03 w.toNat 0
  let q := if c.on (TL_SEQ_CTRL_TRACE_LOOPS t.val) then
    c.trace t.val 3 (c.tl t.val).vec.opc ((c.tl t.val).idx % 2 ^ 14 + c.get (loopStart t.val k) * 2 ^ 16) else c
  have hf : opEndloop c t.val w.toNat = (q.put (TL_LOOP_COUNT t.val k) (s.get (TL_LOOP_COUNT t.val k) - 1)).follow t.val
      (.loopBack (s.get (loopStart t.val k))) := by
    simp [opEndloop, c, q, k, h0]
  have hlt : s.get (TL_LOOP_COUNT t.val k) - 1 < 2 ^ 30 := (Nat.sub_le ..).trans_lt (bits_lt _ 29 0)
  exact ⟨_, congrArg Host.Outcome.next (asOpcode_follows h (by decide) (by decide) hf rfl), by simp [k], get_put_loopCount q t.val k hlt⟩

theorem exec_vJump (h : s.opcodeRuns t.val 0x04 w.toNat 0 = true) :
    ∃ u, exec (.vJump t w) s = .next u ∧ (u.tl t.val).next = .jump w.toNat false ∧ u.regs = s.regs :=
  ⟨_, congrArg Host.Outcome.next (asOpcode_follows h (by decide) (by decide) rfl rfl), by simpa using target_lt_of_runs h rfl, rfl⟩

theorem exec_vCall (h : s.opcodeRuns t.val 0x05 w.toNat 0 = true) :
    ∃ u, exec (.vCall t w) s = .next u ∧ (u.tl t.val).next = .jump w.toNat true ∧ u.regs = s.regs :=
  ⟨_, congrArg Host.Outcome.next (asOpcode_follows h (by decide) (by decide) rfl rfl), by simpa using target_lt_of_runs h rfl, rfl⟩

theorem exec_vRet (h : s.opcodeRuns t.val 0x06 0 0 = true) : ∃ u, exec (.vRet t) s = .next u ∧ (u.tl t.val).next = .ret ∧ u.regs = s.regs :=
  ⟨_, congrArg Host.Outcome.next (asOpcode_follows h (by decide) (by decide) rfl rfl), by simp, rfl⟩

theorem exec_vSeg (h : s.opcodeRuns t.val 0x28 w.toNat 0 = true) :
    ∃ u, exec (.vSeg t w) s = .next u ∧ (u.tl t.val).next = .enterSeg (w.toNat % 256) (w.toNat.testBit 8) ∧ u.regs = s.regs :=
  ⟨_, congrArg Host.Outcome.next (asOpcode_follows h (by decide) (by decide) rfl rfl), by simp, rfl⟩

end sequence

/-- Settles O18: each opcode as the state it answers, in which what follows its vector is chosen. -/
theorem sequenceOpcodesChooseWhatFollows : Obligations.SequenceOpcodesChooseWhatFollows :=
  fun _ _ _ => ⟨exec_vNop, exec_vRepeat, exec_vLoop_opens, exec_vLoop_again, exec_vEndloop_falls, exec_vEndloop_loops, exec_vJump, exec_vCall, exec_vRet, exec_vSeg⟩

/-! ### Opcodes that act with their vector (R66, R77, R94, R102) -/

section acts
variable {t : Fin 64} {w : Word} {s : State}

/-- Its own vector has no compare to come: the bits of its pins clear, but those set in the same cycle (R85). -/
theorem exec_vClrs_now (h : s.opcodeRuns t.val 0x08 w.toNat 0 = true) (hq : (s.cmp t.val).queue = []) :
    let kept := if sameCycle (s.cmp t.val).setAt (s.tl t.val).issueAt then (s.cmp t.val).setBits else 0
    ∃ u, exec (.vClrs t w) s = .next u ∧ (u.tl t.val).next = .seq ∧
      u.get (TL_STICKY_FAIL t.val) = s.get (TL_STICKY_FAIL t.val) &&& (0xFF ^^^ (w.toNat % 256 &&& (0xFF ^^^ kept))) ∧
      ∀ a, a ≠ TL_STICKY t.val → u.reg a = s.reg a := by
  intro kept
  let left := s.get (TL_STICKY_FAIL t.val) &&& (0xFF ^^^ (w.toNat % 256 &&& (0xFF ^^^ kept)))
  have hf : opClrs (s.carrying t.val 0x08 w.toNat 0) t.val w.toNat =
      ((s.carrying t.val 0x08 w.toNat 0).put (TL_STICKY_FAIL t.val) left).follow t.val .seq := by
    simp [opClrs, hq, clearSticky, left, kept]
  have hlt : left < 2 ^ 8 := Nat.and_le_left.trans_lt (bits_lt _ 7 0)
  exact ⟨_, congrArg Host.Outcome.next (asOpcode_follows h (by decide) (by decide) hf rfl), by simp,
    (get_put_of_fits _ left (f := TL_STICKY_FAIL t.val) rfl).trans (Nat.mod_eq_of_lt hlt),
    fun a ha => reg_put_other _ (TL_STICKY_FAIL t.val) left ha⟩

/-- Its own vector's compare is still to resolve: the clear is noted with it. -/
theorem exec_vClrs_noted {c : Cmp} (h : s.opcodeRuns t.val 0x08 w.toNat 0 = true) (hq : (s.cmp t.val).queue = [.sample c]) (hrun : c.run = (s.cmp t.val).run)
    (hv : c.vidx = s.vidx t.val) (hopen : c.resolved = false) : ∃ u, exec (.vClrs t w) s = .next u ∧ (u.tl t.val).next = .seq ∧ u.regs = s.regs ∧
      (u.cmp t.val).queue = [.sample { c with clrs := w.toNat % 256 }] := by
  let q := s.carrying t.val 0x08 w.toNat 0
  have hvidx : q.vidx t.val = s.vidx t.val := rfl
  have hf : opClrs q t.val w.toNat =
      (q.setCmp t.val { q.cmp t.val with queue := [.sample { c with clrs := w.toNat % 256 }] }).follow t.val .seq := by
    simp [opClrs, hvidx, hq, hrun, hv, hopen, onIssue, q]
  exact ⟨_, congrArg Host.Outcome.next (asOpcode_follows h (by decide) (by decide) hf rfl), by simp, rfl, by simp⟩

theorem exec_vCmask (h : s.opcodeRuns t.val 0x09 w.toNat 0 = true) :
    ∃ u, exec (.vCmask t w) s = .next u ∧ (u.tl t.val).next = .seq ∧ u.get (TL_CMASK_MASK t.val) = w.toNat % 256 ∧
      ∀ a, a ≠ TL_CMASK t.val → u.reg a = s.reg a :=
  ⟨_, congrArg Host.Outcome.next (asOpcode_follows h (by decide) (by decide) rfl rfl), by simp,
    (get_put_of_fits _ _ (f := TL_CMASK_MASK t.val) rfl).trans (Nat.mod_mod ..), fun a ha => reg_put_other _ (TL_CMASK_MASK t.val) _ ha⟩

theorem exec_vTmark (h : s.opcodeRuns t.val 0x0B w.toNat 0 = true) :
    exec (.vTmark t w) s = .next (((s.carrying t.val 0x0B w.toNat 0).trace t.val 8 0x0B w.toNat).follow t.val .seq) := by
  have hf : opTmark (s.carrying t.val 0x0B w.toNat 0) t.val w.toNat =
      ((s.carrying t.val 0x0B w.toNat 0).trace t.val 8 0x0B w.toNat).follow t.val .seq := by
    simp [opTmark]
  exact congrArg Host.Outcome.next (asOpcode_follows h (by decide) (by decide) hf rfl)

/-! #### Loads of the pattern generator (R102) -/

/-- What SETX and SETY take of their operand: as many bits as the address has. -/
def genOperand (opd : Nat) : Gen → Nat
  | .x => bits opd 19 0
  | .y => bits opd 15 0

theorem loadAddr_eq (s : State) (t : Nat) (g : Gen) (opd : Nat) : s.loadAddr t g opd =
    if opd.testBit 31 then (s.put (genLimit t g) (genOperand opd g)).put (genValue t g) (s.get (genValue t g) % (genOperand opd g + 1))
    else s.put (genValue t g) (genOperand opd g % (s.get (genLimit t g) + 1)) := by
  cases g <;> rfl

/-- With bit 31 the limit is loaded, and the value reduced by it; without, the value, reduced by the limit. -/
theorem loadAddr_effect (s : State) (t : Nat) (g : Gen) (opd : Nat) :
    if opd.testBit 31 then (s.loadAddr t g opd).get (genLimit t g) = genOperand opd g ∧
      (s.loadAddr t g opd).get (genValue t g) = s.get (genValue t g) % (genOperand opd g + 1)
    else (s.loadAddr t g opd).get (genValue t g) = genOperand opd g % (s.get (genLimit t g) + 1) := by
  have hv : genOperand opd g < 2 ^ ((genLimit t g).hi + 1 - (genLimit t g).lo) ∧ genOperand opd g < 2 ^ ((genValue t g).hi + 1 - (genValue t g).lo) := by
    cases g <;> exact ⟨bits_lt .., bits_lt ..⟩
  have hfits : (genLimit t g).fits = true ∧ (genValue t g).fits = true := by cases g <;> exact ⟨rfl, rfl⟩
  have hne : (genLimit t g).addr ≠ (genValue t g).addr := by cases g <;> simp [genLimit, genValue, TL_APG_XMAX_XMAX, TL_APG_X_X, TL_APG_YMAX_YMAX,
    TL_APG_Y_Y, TL_APG_XMAX, TL_APG_X, TL_APG_YMAX, TL_APG_Y]
  rw [loadAddr_eq]
  split
  · refine ⟨?_, ?_⟩
    · rw [get_put_other _ _ hne, get_put_of_fits _ _ hfits.1]
      exact Nat.mod_eq_of_lt hv.1
    · rw [get_put_of_fits _ _ hfits.2]
      exact Nat.mod_eq_of_lt ((Nat.le_of_lt_succ (Nat.mod_lt _ (Nat.succ_pos _))).trans_lt hv.2)
  · rw [get_put_of_fits _ _ hfits.2]
    exact Nat.mod_eq_of_lt ((Nat.mod_le ..).trans_lt hv.2)

theorem exec_vSetx (h : s.opcodeRuns t.val 0x30 w.toNat 0 = true) : ∃ u, exec (.vSetx t w) s = .next u ∧ (u.tl t.val).next = .seq ∧
    (if w.toNat.testBit 31 then u.get (TL_APG_XMAX_XMAX t.val) = bits w.toNat 19 0 ∧
        u.get (TL_APG_X_X t.val) = s.get (TL_APG_X_X t.val) % (bits w.toNat 19 0 + 1)
      else u.get (TL_APG_X_X t.val) = bits w.toNat 19 0 % (s.get (TL_APG_XMAX_XMAX t.val) + 1)) :=
  ⟨_, congrArg Host.Outcome.next (asOpcode_follows h (by decide) (by decide) rfl rfl), by simp, loadAddr_effect (s.carrying t.val 0x30 w.toNat 0) t.val .x w.toNat⟩

theorem exec_vSety (h : s.opcodeRuns t.val 0x31 w.toNat 0 = true) : ∃ u, exec (.vSety t w) s = .next u ∧ (u.tl t.val).next = .seq ∧
    (if w.toNat.testBit 31 then u.get (TL_APG_YMAX_YMAX t.val) = bits w.toNat 15 0 ∧
        u.get (TL_APG_Y_Y t.val) = s.get (TL_APG_Y_Y t.val) % (bits w.toNat 15 0 + 1)
      else u.get (TL_APG_Y_Y t.val) = bits w.toNat 15 0 % (s.get (TL_APG_YMAX_YMAX t.val) + 1)) :=
  ⟨_, congrArg Host.Outcome.next (asOpcode_follows h (by decide) (by decide) rfl rfl), by simp, loadAddr_effect (s.carrying t.val 0x31 w.toNat 0) t.val .y w.toNat⟩

/-- A field that is its whole register. -/
theorem reg_put_whole (s : State) (a : Nat) (w : Word) : (s.put ⟨a, 31, 0⟩ w.toNat).reg a = w := by
  rw [State.put, reg_setReg_same, insert32_whole _ _ (s.reg a).isLt w.isLt, BitVec.ofNat_toNat, BitVec.setWidth_eq]

theorem exec_vSetd (h : s.opcodeRuns t.val 0x32 w.toNat 0 = true) : ∃ u, exec (.vSetd t w) s = .next u ∧ (u.tl t.val).next = .seq ∧
    u.reg (TL_APG_D t.val) = w ∧ ∀ a, a ≠ TL_APG_D t.val → u.reg a = s.reg a :=
  ⟨_, congrArg Host.Outcome.next (asOpcode_follows h (by decide) (by decide) rfl rfl), by simp, reg_put_whole _ (TL_APG_D t.val) w,
    fun a ha => reg_put_other _ (TL_APG_D_D t.val) _ ha⟩

theorem exec_vSeti (h : s.opcodeRuns t.val 0x33 w.toNat 0 = true) : ∃ u, exec (.vSeti t w) s = .next u ∧ (u.tl t.val).next = .seq ∧
    u.get (TL_APG_I_I t.val (bits w.toNat 31 30)) = bits w.toNat 19 0 ∧ ∀ a, a ≠ TL_APG_I t.val (bits w.toNat 31 30) → u.reg a = s.reg a :=
  ⟨_, congrArg Host.Outcome.next (asOpcode_follows h (by decide) (by decide) rfl rfl), by simp,
    (get_put_of_fits _ _ (f := TL_APG_I_I t.val (bits w.toNat 31 30)) rfl).trans (Nat.mod_eq_of_lt (bits_lt ..)),
    fun a ha => reg_put_other _ (TL_APG_I_I t.val (bits w.toNat 31 30)) _ ha⟩

end acts

/-- Settles O19: CLRS by whether its own vector's compare is still to resolve, the loads by the fields they write. -/
theorem masksMarksAndLoadsAct : Obligations.MasksMarksAndLoadsAct :=
  fun _ _ _ => ⟨exec_vClrs_now, fun _ => exec_vClrs_noted, exec_vCmask, exec_vTmark, exec_vSetx, exec_vSety, exec_vSetd, exec_vSeti⟩

/-! ### Conditional opcodes (R78 to R84) -/

namespace State

theorem tl_clearSticky (s : State) (t mask inst : Nat) : (s.clearSticky t mask inst).tl = s.tl := tl_put ..

theorem tl_clearFlag (s : State) (t n : Nat) : (s.clearFlag t n).tl = s.tl := by
  unfold State.clearFlag
  split_ifs
  · rfl
  · exact tl_put ..
  · exact tl_put ..

/-- CLR of a condition writes registers alone (R82). -/
theorem tl_condClear (s : State) (t cnd inst : Nat) : (s.condClear t cnd inst).tl = s.tl := by
  unfold State.condClear
  split_ifs
  · rfl
  · exact tl_clearSticky ..
  · exact tl_clearFlag ..

/-- What follows a conditional transfer (R82): nothing yet while it waits for compares; otherwise the next vector where the truth of its
condition is `pass`, and the target where it is not. -/
def condNext (s : State) (t w cnd : Nat) (pass call : Bool) : Next :=
  if condWaits cnd then .undecided else if s.condTrue t cnd then (bif pass then .seq else .jump w call) else (bif pass then .jump w call else .seq)

theorem condNext_stops (s : State) (t w cnd : Nat) (pass call : Bool) : (s.condNext t w cnd pass call).stops = false := by
  unfold State.condNext
  cases pass <;> split_ifs <;> rfl

theorem tl_decide (s : State) (t : Nat) {w : Nat} (hw : w < 2 ^ 14) (cnd inst due : Nat) (pass call : Bool) (hwaits : condWaits cnd = false) :
    (s.decide_ t w cnd inst due pass call).tl t = { s.tl t with next := s.condNext t w cnd pass call, dueAt := due } := by
  unfold State.decide_ State.condNext
  rw [Nat.mod_eq_of_lt hw, hwaits]
  cases s.condTrue t cnd <;> cases pass <;> simp [tl_condClear]

theorem tl_opCond (s : State) (t : Nat) {w : Nat} (hw : w < 2 ^ 14) (cnd : Nat) (pass call : Bool) :
    (s.opCond t w cnd pass call).tl t = { s.tl t with next := s.condNext t w cnd pass call, dueAt := (s.tl t).endAt } := by
  cases hwaits : condWaits cnd with
  | true => simp [State.opCond, State.condNext, hwaits]
  | false => rw [State.opCond, hwaits, if_neg (by decide), tl_decide s t hw _ _ _ _ _ hwaits]

/-- A conditional transfer is decided at its issue, or held. -/
theorem asOpcode_opCond {s : State} {t opc w cnd : Nat} (pass call : Bool) (h : s.opcodeRuns t opc w cnd = true) (ht : hasTarget opc = true) (h38 : opc ≠ 0x38)
    (h41 : opc ≠ 0x41) : ∃ u, (.next (s.asOpcode t opc w cnd (State.opCond · t w cnd pass call)) : Host.Outcome State Fault Refusal) = .next u ∧
      (u.tl t).dueAt = (s.tl t).endAt ∧ (u.tl t).next = s.condNext t w cnd pass call := by
  have htl := tl_opCond (s.carrying t opc w cnd) t (target_lt_of_runs h ht) cnd pass call
  have hnext : (s.carrying t opc w cnd).condNext t w cnd pass call = s.condNext t w cnd pass call := rfl
  exact ⟨_, congrArg _ (asOpcode_chooses h h38 h41 rfl (by rw [htl]; exact condNext_stops ..)), by rw [htl, tl_carrying], by rw [htl, hnext]⟩

end State

section conditional
variable {t : Fin 64} {w : Word} {cnd : BitVec 8} {s : State}

theorem exec_vJevt (h : s.opcodeRuns t.val 0x12 w.toNat cnd.toNat = true) :
    ∃ u, exec (.vJevt t w cnd) s = .next u ∧ u.fbit (TL_EVIN_LATCH t.val) (cnd.toNat % 8) = false ∧ (u.tl t.val).next =
      (if s.fbit (TL_EVIN_LATCH t.val) (cnd.toNat % 8) then .jump w.toNat false else .seq) := by
  let c := s.carrying t.val 0x12 w.toNat cnd.toNat
  have hw : w.toNat % 2 ^ 14 = w.toNat := Nat.mod_eq_of_lt (target_lt_of_runs h rfl)
  cases hset : s.fbit (TL_EVIN_LATCH t.val) (cnd.toNat % 8) with
  | true =>
    have hf : opJevt c t.val w.toNat cnd.toNat = (c.dropLatch t.val (cnd.toNat % 8)).follow t.val (.jump w.toNat false) := by
      simp only [opJevt, c, fbit_carrying, hset, if_true, hw]
    exact ⟨_, congrArg Host.Outcome.next (asOpcode_follows h (by decide) (by decide) hf rfl), fbit_dropLatch c t.val (Nat.mod_lt _ (by decide)), by simp⟩
  | false =>
    have hf : opJevt c t.val w.toNat cnd.toNat = c.follow t.val .seq := by
      simp only [opJevt, c, fbit_carrying, hset, Bool.false_eq_true, if_false]
    exact ⟨_, congrArg Host.Outcome.next (asOpcode_follows h (by decide) (by decide) hf rfl), hset, by simp⟩

theorem exec_vMatch (h : s.opcodeRuns t.val 0x13 w.toNat cnd.toNat = true) :
    ∃ u, exec (.vMatch t w cnd) s = .next u ∧ (u.tl t.val).next = .undecided ∧ (u.tl t.val).matches_ = (s.tl t.val).matches_ + 1 ∧ u.regs = s.regs :=
  ⟨_, congrArg Host.Outcome.next (asOpcode_follows h (by decide) (by decide) rfl rfl), by simp, by simp, rfl⟩

end conditional

/-! ### The end of a period of a tiller that runs (R58) -/

namespace State

@[simp] theorem get_advInst (s : State) (inst : Nat) (f : Field) : (s.advInst inst).get f = s.get f := get_advTo ..

section running
variable {s : State} {t : Nat}

theorem endWait_of_decided (hn : (s.tl t).next ≠ .undecided) : s.endWait t = s := by
  simp [State.endWait, hn]

/-- With nothing still asked for by earlier opcodes, the period ends, and the vector due issues where one is. -/
theorem vectorIssue_of_running (he : s.engine t = 1) (hg : (s.tl t).gap = none) (hn : (s.tl t).next ≠ .undecided) (hp : (s.tl t).primes = [])
    (ha : (s.tdc t).arms = []) (n : Nat) : s.vectorIssue t n =
    let q := (s.advInst (s.tl t).dueAt).periodEnd t
    if q.engine t = 1 && (q.tl t).gap.isNone && ((q.tl t).next = .ready || (q.tl t).next = .again) then (q.issueDue t).decodeAhead t n else q := by
  simp only [State.vectorIssue, delayed_of_none ⟨hp, ha⟩, endWait_of_decided hn, he, hg, hn, Option.isSome_none, ne_eq, not_true, decide_false, Bool.or_self,
    Bool.false_eq_true, if_false]

/-- A call that is taken on a full stack faults at the period end (R72). -/
theorem periodEnd_call_full {i : Nat} (hn : (s.tl t).next = .jump i true) (hs : (s.tl t).stopReq = false) (hsp : s.get (TL_SEQ_STAT_SP t) = 8) :
    s.periodEnd t = s.faultNow t 0x08 (s.tl t).idx (s.tl t).vec.opc (ceilCycle (s.tl t).dueAt) := by
  simp [State.periodEnd, hn, hsp, State.faultOrStop, hs]

end running

end State

theorem exec_vectorIssue_call_full {s : State} {t : Fin 64} (ahead : Fin 17) {i : Nat} (he : s.engine t.val = 1) (hg : (s.tl t.val).gap = none)
    (hp : (s.tl t.val).primes = []) (ha : (s.tdc t.val).arms = []) (hs : (s.tl t.val).stopReq = false) (hn : (s.tl t.val).next = .jump i true)
    (hsp : s.get (TL_SEQ_STAT_SP t.val) = 8) :
    let u := (s.advInst (s.tl t.val).dueAt).faultNow t.val 0x08 (s.tl t.val).idx (s.tl t.val).vec.opc (ceilCycle (s.tl t.val).dueAt)
    u.engine t.val ≠ 1 → exec (.vectorIssue ⟨t, ahead⟩) s = .next u := by
  intro u hu
  have hend : (s.advInst (s.tl t.val).dueAt).periodEnd t.val = u := by
    rw [periodEnd_call_full (i := i) (by rw [tl_advInst, hn]) (by rw [tl_advInst, hs]) (by rw [get_advInst, hsp]), tl_advInst]
  refine congrArg Host.Outcome.next ((vectorIssue_of_running he hg (by simp [hn]) hp ha ahead.val).trans ?_)
  simp [hend, hu]

/-- Settles O20: a conditional transfer by what follows it, a call on a full stack at the end of its vector's period. -/
theorem conditionalOpcodesDecideOrWait : Obligations.ConditionalOpcodesDecideOrWait :=
  fun _ _ _ _ => ⟨fun h => asOpcode_opCond false false h rfl (by decide) (by decide), fun h => asOpcode_opCond true false h rfl (by decide) (by decide),
    fun h => asOpcode_opCond false true h rfl (by decide) (by decide), fun h => asOpcode_opCond true true h rfl (by decide) (by decide), fun ahead _ he hg hp ha hs hn hsp => exec_vectorIssue_call_full ahead he hg hp ha hs hn hsp,
    exec_vJevt, exec_vMatch⟩

/-! ### Opcodes that fail a check (R87, R88, R117) -/

/-- The level change an LVLQ queues is checked once the opcode itself has passed (R112, R117). -/
theorem State.opcodeCause_lvlq (s : State) (t w : Nat) : s.opcodeCause t 0x38 w 0 = 0 := by
  simp [State.opcodeCause, opcodeKnown, condOk, hasTarget, reservedOperand]

section fails
variable {s : State} {t : Fin 64} (he : s.engine t.val = 1) (hi : (s.tl t.val).issues ≠ 0) (hg : (s.tl t.val).gap = none)

/-- The tiller stops where a stop waits, and faults otherwise (R88, R92). -/
def State.stopOrFault (s : State) (t opc c : Nat) : State :=
  if (s.tl t).stopReq then s.stopNow t (ceilCycle (s.tl t).dueAt) else s.faultNow t c (s.tl t).idx opc (ceilCycle (s.tl t).dueAt)

include he hi hg

theorem State.asOpcode_fails {opc opd cnd c : Nat} (f : State → State) (hc : s.opcodeCause t.val opc opd cnd = c) (h0 : c ≠ 0) (h14 : c ≠ 0x14) :
    s.asOpcode t.val opc opd cnd f = s.stopOrFault t.val opc c := by
  simp [State.asOpcode, he, hi, hg, hc, h0, State.markRefused, h14, State.stopOrFault]

theorem exec_vCalgap_reserved {w : Word} (hw : 2 ^ 24 ≤ w.toNat) : exec (.vCalgap t w) s = .next (s.stopOrFault t.val 0x22 0x06) := by
  have hbits : w.toNat &&& 0xFF000000 ≠ 0 := fun h0 => Nat.not_lt.2 hw (lt_of_and_mask (mask := 0xFF000000) w.isLt (by decide) h0)
  refine congrArg Host.Outcome.next (asOpcode_fails he hi hg _ ?_ (by decide) (by decide))
  simp [State.opcodeCause, opcodeKnown, condOk, hasTarget, reservedOperand, hbits]

theorem exec_vJump_outside {w : Word} (hw : 2 ^ 14 ≤ w.toNat) : exec (.vJump t w) s = .next (s.stopOrFault t.val 0x04 0x07) := by
  refine congrArg Host.Outcome.next (asOpcode_fails he hi hg _ ?_ (by decide) (by decide))
  rw [State.opcodeCause, decide_eq_true hw]
  rfl

theorem exec_vCall_full {w : Word} (hw : w.toNat < 2 ^ 14) (hsp : s.get (TL_SEQ_STAT_SP t.val) = 8) :
    exec (.vCall t w) s = .next (s.stopOrFault t.val 0x05 0x08) := by
  refine congrArg Host.Outcome.next (asOpcode_fails he hi hg _ ?_ (by decide) (by decide))
  rw [State.opcodeCause, decide_eq_false (Nat.not_le.2 hw), hsp]
  rfl

theorem exec_vRet_empty (hsp : s.get (TL_SEQ_STAT_SP t.val) = 0) : exec (.vRet t) s = .next (s.stopOrFault t.val 0x06 0x09) := by
  refine congrArg Host.Outcome.next (asOpcode_fails he hi hg _ ?_ (by decide) (by decide))
  rw [State.opcodeCause, hsp]
  rfl

theorem exec_vEndloop_closed {w : Word} (hw : w.toNat < 4) (hl : s.fbit (TL_SEQ_STAT_LOOP_OPEN t.val) w.toNat = false) :
    exec (.vEndloop t w) s = .next (s.stopOrFault t.val 0x03 0x0A) := by
  have hbits : w.toNat &&& 0xFFFFFFFC = 0 := by
    interval_cases w.toNat <;> rfl
  refine congrArg Host.Outcome.next (asOpcode_fails he hi hg _ ?_ (by decide) (by decide))
  simp [State.opcodeCause, opcodeKnown, condOk, hasTarget, reservedOperand, hbits, Nat.mod_eq_of_lt hw, hl]

theorem exec_vMatch_condition (w : Word) {cnd : BitVec 8} (hc : condOk 0x13 cnd.toNat = false) :
    exec (.vMatch t w cnd) s = .next (s.stopOrFault t.val 0x13 0x05) := by
  refine congrArg Host.Outcome.next (asOpcode_fails he hi hg _ ?_ (by decide) (by decide))
  rw [State.opcodeCause, hc]
  rfl

theorem exec_vLvlq_word {w : Word} (hc : changeOk w.toNat = false) : exec (.vLvlq t w) s = .next (s.stopOrFault t.val 0x38 0x12) := by
  refine congrArg Host.Outcome.next ?_
  simp [State.asOpcode, he, hi, hg, opcodeCause_lvlq, hc, State.markRefused, State.stopOrFault]

theorem exec_vLvlq_full {w : Word} (hc : changeOk w.toNat = true) (hfull : 16 ≤ s.lvlPending t.val) :
    exec (.vLvlq t w) s = .next (s.stopOrFault t.val 0x38 0x13) := by
  refine congrArg Host.Outcome.next ?_
  simp [State.asOpcode, he, hi, hg, opcodeCause_lvlq, hc, Nat.lt_succ_of_le hfull, State.markRefused, State.stopOrFault]

end fails

/-- Settles O23: the check that fails, by `opcodeCause`, and for LVLQ by the checks on its word and its queue. -/
theorem opcodesThatFailACheckFault : Obligations.OpcodesThatFailACheckFault :=
  fun _ w _ _ he hi hg => ⟨exec_vCalgap_reserved he hi hg, exec_vJump_outside he hi hg, exec_vCall_full he hi hg, exec_vRet_empty he hi hg,
    exec_vEndloop_closed he hi hg, exec_vMatch_condition he hi hg w, exec_vLvlq_word he hi hg, exec_vLvlq_full he hi hg⟩

end Sys2Proof.Machine
end

section
/-! SUPPORT. The next word of vector SRAM at the end of a period (R53 to R61, R87), and O24 settled. -/

namespace Sys2Proof.Machine

namespace State

/-! ### Words of vector SRAM (R57, R60, R359) -/

theorem loadLE_of_mem {s u : State} (h : u.mem = s.mem) (a n : Nat) : u.loadLE a n = s.loadLE a n := by
  induction n generalizing a with
  | zero => rfl
  | succ n ih => simp only [State.loadLE, State.byteAt, h, ih]

section fetch
variable {s : State} {t i : Nat} (ha : s.on FC_INJ_STAT_ARMED = false)
include ha

/-- Without an injection a word with no error of its own is fetched as memory holds it. -/
theorem fetchSram_good (hsingle : vecAddr t i ∉ s.single) (huncorr : vecAddr t i ∉ s.uncorr) :
    s.fetchSram t i = (s, ⟨i, s.loadLE (vecAddr t i) 16, false, s.levelsOf t (s.loadLE (vecAddr t i) 16)⟩) := by
  have hecc : s.eccOf (vecAddr t i) 0 = 0 := by simp [State.eccOf, hsingle, huncorr, popCount, b2n]
  simp only [State.fetchSram, inject_of_not_armed ha, hecc]

theorem fetchSram_bad (huncorr : vecAddr t i ∈ s.uncorr) :
    s.fetchSram t i = (s, ⟨i, s.loadLE (vecAddr t i) 16, true, s.levelsOf t (s.loadLE (vecAddr t i) 16)⟩) := by
  have hecc : s.eccOf (vecAddr t i) 0 = 2 := by simp [State.eccOf, huncorr]
  simp only [State.fetchSram, inject_of_not_armed ha, hecc]

end fetch

theorem dueWord_fetched {s : State} {t : Nat} (h : (s.tl t).ahead = []) (i : Nat) : s.dueWord t i = s.fetchSram t i := by
  simp only [State.dueWord, h]

theorem dueWord_decoded {s : State} {t : Nat} {w : Ahead} {r : List Ahead} (h : (s.tl t).ahead = w :: r) :
    s.dueWord t w.idx = (s.modTl t (fun x => { x with ahead := r }), w) := by
  simp only [State.dueWord, h, if_true]

/-! ### The vector due (R58, R87) -/

section due
variable {s : State} {t : Nat} {v : Vec} {entry : List Nat}

theorem checkAndIssue_passes {again : Bool} (hc : s.vectorCause t v entry (!again) = 0) : s.checkAndIssue t v entry again = s.issueVector t v entry again := by
  simp [State.checkAndIssue, hc]

/-- The reserved bits are judged first (R57, R87). -/
theorem checkAndIssue_reserved {again : Bool} (hin : (s.tl t).inStream = false) (hrsv : v.rsv ≠ 0) :
    s.checkAndIssue t v entry again = s.faultNow t 0x02 (s.tl t).atIdx v.opc (ceilCycle (s.tl t).dueAt) := by
  have hc : s.vectorCause t v entry (!again) = 0x02 := if_pos hrsv
  simp [State.checkAndIssue, hc, State.markRefused, hin]

variable (hin : (s.tl t).inStream = false) (hstop : (s.tl t).stopReq = false) (hready : (s.tl t).next = .ready)
include hin hstop hready

theorem issueDue_sram (hi : (s.tl t).atIdx < 2 ^ 14) : s.issueDue t =
    let r := s.dueWord t (s.tl t).atIdx
    if r.2.bad then r.1.faultNow t 0x01 (s.tl t).atIdx (vecOf r.2.word).opc (ceilCycle (s.tl t).dueAt) else r.1.checkAndIssue t (vecOf r.2.word) r.2.entry false := by
  simp only [State.issueDue, hin, hstop, hready, Bool.false_and, Bool.false_eq_true, if_false, reduceCtorEq, Nat.not_le.2 hi]

theorem issueDue_beyond (hi : 2 ^ 14 ≤ (s.tl t).atIdx) :
    s.issueDue t = s.faultNow t 0x0B (s.tl t).idx (s.tl t).vec.opc (ceilCycle (s.tl t).dueAt) := by
  simp only [State.issueDue, hin, hstop, hready, Bool.false_and, Bool.false_eq_true, if_false, reduceCtorEq, if_pos hi]

end due

/-! ### The end of the period of a vector that nothing else follows (R73) -/

/-- The state in which the next word of SRAM is due. -/
def nextDue (s : State) (t : Nat) : State := (s.advInst (s.tl t).dueAt).goTo t ((s.tl t).idx + 1) (s.tl t).dueAt

theorem tl_nextDue (s : State) (t : Nat) : (s.nextDue t).tl t =
    { s.tl t with next := .ready, dueAt := (s.tl t).dueAt, atIdx := (s.tl t).idx + 1, inStream := false, looped := false } := by
  simp [State.nextDue, State.goTo]

/-- Beside the clock and the tiller it is the state before. -/
theorem nextDue_beside (s : State) (t : Nat) : ∃ k c l, s.nextDue t = { s with ticks := k, count := c, tillers := l } := by
  obtain ⟨c, e⟩ := s.advTo_beside ((s.tl t).dueAt / 1280)
  exact ⟨_, c, _, by rw [State.nextDue, State.advInst, e]; rfl⟩

section nextDue
variable (s : State) (t : Nat)

@[simp] theorem on_nextDue : (s.nextDue t).on = s.on := by obtain ⟨k, c, l, e⟩ := s.nextDue_beside t; rw [e]; rfl
@[simp] theorem single_nextDue : (s.nextDue t).single = s.single := by obtain ⟨k, c, l, e⟩ := s.nextDue_beside t; rw [e]
@[simp] theorem uncorr_nextDue : (s.nextDue t).uncorr = s.uncorr := by obtain ⟨k, c, l, e⟩ := s.nextDue_beside t; rw [e]
@[simp] theorem loadLE_nextDue (a n : Nat) : (s.nextDue t).loadLE a n = s.loadLE a n := by
  obtain ⟨k, c, l, e⟩ := s.nextDue_beside t
  exact loadLE_of_mem (by rw [e]) a n
@[simp] theorem engine_nextDue : (s.nextDue t).engine t = s.engine t := by obtain ⟨k, c, l, e⟩ := s.nextDue_beside t; rw [e]; rfl

end nextDue

section period
variable {s : State} {t : Nat} (he : s.engine t = 1) (hg : (s.tl t).gap = none) (hn : (s.tl t).next = .seq) (hl : (s.tl t).last = false)
  (hs : (s.tl t).streamed = false) (hstop : (s.tl t).stopReq = false) (hp : (s.tl t).primes = []) (ha : (s.tdc t).arms = [])

include hn hl hs in
theorem periodEnd_next : (s.advInst (s.tl t).dueAt).periodEnd t = s.nextDue t := by
  simp [State.periodEnd, hn, hl, hs, State.nextDue]

include he hg hn hl hs hp ha in
theorem vectorIssue_next (n : Nat) : s.vectorIssue t n = ((s.nextDue t).issueDue t).decodeAhead t n := by
  rw [vectorIssue_of_running he hg (by simp [hn]) hp ha, periodEnd_next hn hl hs]
  simp [tl_nextDue, he, hg]

include hstop in
theorem issueDue_nextDue (hi : (s.tl t).idx + 1 < 2 ^ 14) : (s.nextDue t).issueDue t =
    let r := (s.nextDue t).dueWord t ((s.tl t).idx + 1)
    if r.2.bad then r.1.faultNow t 0x01 ((s.tl t).idx + 1) (vecOf r.2.word).opc (ceilCycle (s.tl t).dueAt) else r.1.checkAndIssue t (vecOf r.2.word) r.2.entry false := by
  rw [issueDue_sram (by rw [tl_nextDue]) (by rw [tl_nextDue, hstop]) (by rw [tl_nextDue]) (by rw [tl_nextDue]; exact hi), tl_nextDue]

include hstop in
theorem issueDue_nextDue_beyond (hi : 2 ^ 14 ≤ (s.tl t).idx + 1) :
    (s.nextDue t).issueDue t = (s.nextDue t).faultNow t 0x0B (s.tl t).idx (s.tl t).vec.opc (ceilCycle (s.tl t).dueAt) := by
  rw [issueDue_beyond (by rw [tl_nextDue]) (by rw [tl_nextDue, hstop]) (by rw [tl_nextDue]) (by rw [tl_nextDue]; exact hi), tl_nextDue]

section fetched
variable (hi : (s.tl t).idx + 1 < 2 ^ 14) (hahead : (s.tl t).ahead = []) (harmed : s.on FC_INJ_STAT_ARMED = false)
include hstop hi hahead harmed

theorem issueDue_good (hsingle : vecAddr t ((s.tl t).idx + 1) ∉ s.single) (huncorr : vecAddr t ((s.tl t).idx + 1) ∉ s.uncorr) :
    let w := s.loadLE (vecAddr t ((s.tl t).idx + 1)) 16
    (s.nextDue t).issueDue t = (s.nextDue t).checkAndIssue t (vecOf w) ((s.nextDue t).levelsOf t w) false := by
  rw [issueDue_nextDue hstop hi, dueWord_fetched (by rw [tl_nextDue, hahead]),
    fetchSram_good (by rw [on_nextDue, harmed]) (by rwa [single_nextDue]) (by rwa [uncorr_nextDue]), loadLE_nextDue]
  simp only [Bool.false_eq_true, if_false]

theorem issueDue_uncorr (huncorr : vecAddr t ((s.tl t).idx + 1) ∈ s.uncorr) : (s.nextDue t).issueDue t =
    (s.nextDue t).faultNow t 0x01 ((s.tl t).idx + 1) (vecOf (s.loadLE (vecAddr t ((s.tl t).idx + 1)) 16)).opc (ceilCycle (s.tl t).dueAt) := by
  rw [issueDue_nextDue hstop hi, dueWord_fetched (by rw [tl_nextDue, hahead]), fetchSram_bad (by rw [on_nextDue, harmed]) (by rwa [uncorr_nextDue]), loadLE_nextDue]
  simp only [if_true]

end fetched

include hstop in
theorem issueDue_ahead {w : Ahead} {r : List Ahead} (hi : (s.tl t).idx + 1 < 2 ^ 14) (hahead : (s.tl t).ahead = w :: r) (hw : w.idx = (s.tl t).idx + 1)
    (hbad : w.bad = false) : (s.nextDue t).issueDue t = ((s.nextDue t).modTl t (fun z => { z with ahead := r })).checkAndIssue t (vecOf w.word) w.entry false := by
  rw [issueDue_nextDue hstop hi, ← hw, dueWord_decoded (by rw [tl_nextDue, hahead])]
  simp only [hbad, Bool.false_eq_true, if_false]

end period

end State

open State

/-- Settles O24: the state in which the next word is due, and what the fetch of that word comes to. -/
theorem vectorsIssueInOrder : Obligations.VectorsIssueInOrder := by
  intro t ahead s x i u v he hg hn hl hs hstop hp ha harmed
  have issues {q : State} (h : (s.nextDue t.val).issueDue t.val = q) : exec (.vectorIssue ⟨t, ahead⟩) s = .next (q.decodeAhead t.val ahead.val) :=
    congrArg Host.Outcome.next ((vectorIssue_next he hg hn hl hs hp ha ahead.val).trans (by rw [h]))
  have hload : u.loadLE (vecAddr t.val i) 16 = s.loadLE (vecAddr t.val i) 16 := loadLE_nextDue s t.val _ _
  refine ⟨fun hi hahead hsingle huncorr => ?_, ?_, fun hi hahead huncorr => ?_, fun hi => ?_⟩
  · have hdue := issueDue_good hstop hi hahead harmed hsingle huncorr
    rw [hload]
    refine ⟨fun hc => issues (hdue.trans (checkAndIssue_passes hc)), fun hrsv => issues (hdue.trans ?_)⟩
    rw [checkAndIssue_reserved (by rw [tl_nextDue]) hrsv, tl_nextDue]
    rfl
  · intro w r hi hahead hw hbad y hc
    exact issues ((issueDue_ahead hstop hi hahead hw hbad).trans (checkAndIssue_passes hc))
  · exact issues (issueDue_uncorr hstop hi hahead harmed huncorr)
  · exact issues (issueDue_nextDue_beyond hstop hi)

end Sys2Proof.Machine
end

section
/-! SUPPORT. The compares that resolve next (R66, R80), and O26 settled. -/

namespace Sys2Proof.Machine

namespace State

/-- The compares of an issue have resolved by an instant: its strobes are taken, and its fails join those of its vector and the sticky bits of
their pins, but for those a MATCH expects. -/
def resolved (v : State) (t : Nat) (c : Cmp) (inst : Nat) : State :=
  let x := v.cmp t
  let zs := v.solveAll t c inst
  let full := !zs.any (·.isOpen)
  let all := failMask (v.solveDue t c inst)
  let counted := all &&& (0xFF ^^^ c.expected)
  let fails := if all = 0 || c.run ≠ x.run then x.fails
    else (c.vidx, all ||| v.failedIn t c.vidx) :: (x.fails.filter (fun f => decide (f.1 ≠ c.vidx ∧ c.vidx < f.1 + 65536)))
  let others := if sameCycle x.setAt inst then x.setBits else 0
  let q := v.setCmp t { x with queue := onIssue x.queue c (fun e => { e with strobes := zs, resolved := full }), fails := fails, setAt := inst, setBits := others ||| counted, waitTo := if full && c.run = x.run then max x.waitTo c.waitAt else x.waitTo }
  q.put (TL_STICKY_FAIL t) (q.get (TL_STICKY_FAIL t) ||| counted)

/-- No CLRS is noted with the issue: what has come to its turn is then delivered, and a wait goes on that is over by then. -/
theorem compareResolve_of_next {s : State} {t : Nat} {c : Cmp} (hc : s.nextResolve t = some c) (hclrs : c.clrs = 0) : s.compareResolve t =
    let u := (((s.advInst c.nextAt).tillerCatchUp t c.nextAt).resolved t c c.nextAt).drainAll t
    if (u.tl t).endAt ≤ c.nextAt then u.endWait t else u := by
  simp only [State.compareResolve, hc, hclrs, decide_true, Bool.or_true, if_true]
  rfl

/-- Time does not go back while the latches catch up. -/
theorem le_ticks_tillerCatchUp (s : State) (t inst : Nat) : inst / 1280 ≤ ((s.advInst inst).tillerCatchUp t inst).ticks :=
  (Nat.le_max_right _ _).trans ((ticks_advTo s (inst / 1280)).ge.trans ((Steady.refl _).tillerCatchUp t inst).ticks)

section resolved
variable (v : State) (t : Nat) (c : Cmp) (inst : Nat)

theorem ticks_resolved : (v.resolved t c inst).ticks = v.ticks := rfl

theorem get_sticky_resolved : (v.resolved t c inst).get (TL_STICKY_FAIL t) =
    (v.get (TL_STICKY_FAIL t) ||| (failMask (v.solveDue t c inst) &&& (0xFF ^^^ c.expected))) % 256 :=
  get_put_of_fits _ _ (f := TL_STICKY_FAIL t) rfl

theorem reg_resolved {a : Nat} (ha : a ≠ TL_STICKY t) : (v.resolved t c inst).reg a = v.reg a := reg_put_other _ (TL_STICKY_FAIL t) _ ha

theorem failedIn_resolved (hall : failMask (v.solveDue t c inst) ≠ 0) (hrun : c.run = (v.cmp t).run) :
    (v.resolved t c inst).failedIn t c.vidx = failMask (v.solveDue t c inst) ||| v.failedIn t c.vidx := by
  conv_lhs => rw [State.failedIn, State.resolved]
  simp [hall, hrun]

end resolved

end State

open State

/-- Settles O26: `State.resolved` is the state in which the compares have resolved, before what waits behind them is delivered. -/
theorem comparesResolveIntoStickyFails : Obligations.ComparesResolveIntoStickyFails := by
  intro t c s hc hclrs v zs all
  refine ⟨v.resolved t.val c c.nextAt, congrArg Host.Outcome.next (compareResolve_of_next hc hclrs), ticks_resolved v t.val c c.nextAt,
    (le_ticks_tillerCatchUp s t.val c.nextAt).trans_eq (ticks_resolved v t.val c c.nextAt).symm,
    get_sticky_resolved v t.val c c.nextAt, ?_, ?_, failedIn_resolved v t.val c c.nextAt, fun a ha => reg_resolved v t.val c c.nextAt ha⟩
  · rw [State.resolved, cmp_put, cmp_setCmp_same]
  · rw [State.resolved, cmp_put, cmp_setCmp_same]

end Sys2Proof.Machine
end

section
/-! SUPPORT. A command that writes one WO field (R5), the trace ring and the event inputs (R93, R127, R128), and O31 settled. -/

namespace Sys2Proof.Machine

/-! ### A write that leaves its register as it stands (R5) -/

theorem insert32_bits {n hi lo : Nat} (hn : n < 2 ^ 32) (hhi : hi < 32) (hlo : lo ≤ hi) : insert32 n hi lo (bits n hi lo) = n := by
  refine Nat.eq_of_testBit_eq fun i => ?_
  rw [testBit_insert32 _ _ _ _ _ hn hhi hlo]
  split
  · next h => rw [testBit_bits, decide_eq_true (by omega), Bool.true_and, Nat.add_sub_cancel' h.1]
  · rfl

/-- A word written leaves a field of the old one as it is. -/
def FieldD.Unmoved (k w old : Nat) (x : FieldD) : Prop :=
  match x.acc with
  | .rw | .rwl => bits w x.hi x.lo = bits old x.hi x.lo ∧ ∀ n, fieldTakes k x.lo n = some n
  | .w1c | .w1s => bits w x.hi x.lo = 0
  | .ro | .wo | .rc => True

theorem storeField_of_unmoved {locked : Bool} {k w old : Nat} {x : FieldD} (hx : x.InWord) (ho : old < 2 ^ 32) (h : x.Unmoved k w old) :
    storeField locked k w old x = old := by
  have hsame := insert32_bits ho hx.2 hx.1
  obtain ⟨hi, lo, acc, sys, reset⟩ := x
  cases acc with
  | rw =>
    obtain ⟨hw, ht⟩ := h
    exact (storeField_rw _ _ _ _ _ _ _ _ (ht _)).trans (by rw [hw]; exact hsame)
  | rwl =>
    obtain ⟨hw, ht⟩ := h
    simp only at hw
    simp [storeField, ht, hw, hsame]
  | w1c =>
    have hw : bits w hi lo = 0 := h
    simp [storeField, hw, hsame]
  | w1s =>
    have hw : bits w hi lo = 0 := h
    simp [storeField, hw, hsame]
  | ro => rfl
  | wo => rfl
  | rc => rfl

theorem foldl_storeField_of_unmoved {locked : Bool} {k w old : Nat} {l : List FieldD} (hl : ∀ x ∈ l, x.InWord) (ho : old < 2 ^ 32)
    (h : ∀ x ∈ l, x.Unmoved k w old) : l.foldl (storeField locked k w) old = old := by
  induction l with
  | nil => rfl
  | cons x r ih =>
    obtain ⟨hx, hr⟩ := List.forall_mem_cons.1 hl
    obtain ⟨ux, ur⟩ := List.forall_mem_cons.1 h
    rw [List.foldl_cons, storeField_of_unmoved hx ho ux, ih hr ur]

theorem fieldTakes_of_free {k lo : Nat} (h : fieldLimits.find? (fun e => e.1 = k && e.2.1 = lo) = none) (ha : arrayLimit k lo = none) (n : Nat) :
    fieldTakes k lo n = some n := by
  simp only [fieldTakes, h, ha, Option.map_none, Option.orElse_none]

namespace State

theorem storeWord_of_unmoved (s : State) {a w : Nat} {d : RegD} (hd : regAt a = some d) (h : ∀ x ∈ d.flds, x.Unmoved (kindOf a) w (s.reg a).toNat) :
    s.storeWord a w = s.setReg a (s.reg a) := by
  obtain ⟨hin, -⟩ := fields_of_allRegs d (mem_allRegs_of_regAt hd)
  rw [State.storeWord, hd]
  simp only [foldl_storeField_of_unmoved hin (s.reg a).isLt h, BitVec.ofNat_toNat, BitVec.setWidth_eq]

theorem reg_setReg_self (s : State) (a : Nat) : (s.setReg a (s.reg a)).reg = s.reg := by
  funext b
  rw [reg_setReg]
  split
  · next h => rw [h]
  · rfl

/-! ### The word that a command of one WO field writes -/

section merged
variable (s : State) {d : RegD} {f : Field} (val : Nat) (hd : regAt f.addr = some d) (hf : f.fits = true) {x : FieldD} (hx : x ∈ d.flds)
  (ha : x.hi < f.lo ∨ f.hi < x.lo)
include hd hf ha

theorem bits_mergedWord_beside : bits (s.mergedWord d f val) x.hi x.lo =
    bits (putFields (fun g => bits (s.shown f.addr) g.hi g.lo) (d.flds.filter (fun g => g.acc == .rw || g.acc == .rwl)) 0) x.hi x.lo := by
  obtain ⟨hin, -⟩ := fields_of_allRegs d (mem_allRegs_of_regAt hd)
  exact bits_insert32_other _ _ _ _ _ _ (putFields_lt _ (fun g hg => hin g (List.mem_filter.1 hg).1) (by decide)) (lo_le_hi_of_fits hf).2
    (lo_le_hi_of_fits hf).1 ha

include hx

/-- A field that reads as it was written keeps what the register shows. -/
theorem bits_mergedWord_kept (hacc : (x.acc == .rw || x.acc == .rwl) = true) : bits (s.mergedWord d f val) x.hi x.lo = bits (s.shown f.addr) x.hi x.lo := by
  obtain ⟨hin, hap⟩ := fields_of_allRegs d (mem_allRegs_of_regAt hd)
  rw [bits_mergedWord_beside s val hd hf ha]
  exact bits_putFields_mem _ (fun g hg => hin g (List.mem_filter.1 hg).1) (hap.filter _) (by decide) (List.mem_filter.2 ⟨hx, hacc⟩) (bits_lt ..)

/-- The others are written 0. -/
theorem bits_mergedWord_zero (hacc : (x.acc == .rw || x.acc == .rwl) = false) : bits (s.mergedWord d f val) x.hi x.lo = 0 := by
  obtain ⟨hin, hap⟩ := fields_of_allRegs d (mem_allRegs_of_regAt hd)
  rw [bits_mergedWord_beside s val hd hf ha, bits_putFields_apart _ (fun g hg => hin g (List.mem_filter.1 hg).1) (by decide) fun g hg => ?_]
  · simp [bits]
  · obtain ⟨hg, hacc'⟩ := List.mem_filter.1 hg
    have : Std.Symm FieldD.Apart := ⟨fun _ _ => Or.symm⟩
    refine hap.forall hx hg fun e => ?_
    rw [e, hacc'] at hacc
    exact Bool.noConfusion hacc

end merged

/-- It leaves the register as it stands, if every field takes every value and the register shows what it holds. -/
theorem storeWord_mergedWord (s : State) {d : RegD} {f : Field} (val : Nat) (hd : regAt f.addr = some d) (hf : f.fits = true)
    (hshown : s.shown f.addr = (s.reg f.addr).toNat) (hwo : ∀ x ∈ d.flds, (x.hi < f.lo ∨ f.hi < x.lo) ∨ x.acc = .wo)
    (ht : ∀ x ∈ d.flds, ∀ n, fieldTakes (kindOf f.addr) x.lo n = some n) :
    s.storeWord f.addr (s.mergedWord d f val) = s.setReg f.addr (s.reg f.addr) := by
  refine storeWord_of_unmoved s hd fun x hx => ?_
  unfold FieldD.Unmoved
  obtain ha | hacc := hwo x hx
  · have hkept := bits_mergedWord_kept s val hd hf hx ha
    have hzero := bits_mergedWord_zero s val hd hf hx ha
    rw [hshown] at hkept
    split
    · next h => exact ⟨hkept (by rw [h]; rfl), ht x hx⟩
    · next h => exact ⟨hkept (by rw [h]; rfl), ht x hx⟩
    · next h => exact hzero (by rw [h]; rfl)
    · next h => exact hzero (by rw [h]; rfl)
    all_goals trivial
  · rw [hacc]
    trivial

/-! ### Registers of a tiller -/

section tiller
variable {s : State} {v : View} {t o : Nat} (ht : t < 64) (ho : o < 0x800)
include ht ho

theorem isTable_tiller : isTable (tlBase t + o) = false := decide_eq_false (by unfold tlBase; omega)

theorem isMsix_tiller : isMsix (tlBase t + o) = false := by
  rw [isMsix, Bool.or_eq_false_iff]
  exact ⟨decide_eq_false (by unfold tlBase; omega), decide_eq_false (by unfold tlBase; omega)⟩

theorem regWrite_tiller {d : RegD} (w : Nat) (hr : s.ready = true) (hv : directView v = true) (h4 : o % 4 = 0) (hd : regAt (tlBase t + o) = some d) :
    s.regWrite v (tlBase t + o) w = s.writeTiller t (tlBase t + o) w none := by
  rw [State.regWrite, regWriteWith_direct s v _ _ none (reachable_of_ready hr _) (by unfold tlBase; omega) (isTable_tiller ht ho) (isMsix_tiller ht ho)
    (by rw [hd]; rfl) hv, writeOwn_tiller s v ht ho]

theorem mergeField_tiller {d : RegD} {f : Field} (val : Nat) (hr : s.ready = true) (hv : directView v = true) (hf : f.addr = tlBase t + o) (h4 : o % 4 = 0)
    (hd : regAt f.addr = some d) : s.mergeField v f val = s.writeTiller t f.addr (s.mergedWord d f val) none := by
  have hmod : f.addr % 4 = 0 := by rw [hf]; unfold tlBase; omega
  rw [mergeField_direct val hr hv hd hmod (hf ▸ isTable_tiller ht ho) (hf ▸ isMsix_tiller ht ho), hf, writeOwn_tiller s v ht ho]

omit ht in
/-- Below the supplies and above them a write goes to the engine's registers. -/
theorem writeTiller_engine (w : Nat) (load : Option Nat) (h5 : o / 0x100 ≠ 5) (h6 : o / 0x100 ≠ 6) :
    s.writeTiller t (tlBase t + o) w load = s.writeEngine t (tlBase t + o) w := by
  have hblock : (tlBase t + o) % 0x1000 / 0x100 = o / 0x100 := by unfold tlBase; omega
  rw [State.writeTiller, hblock, if_neg h5, if_neg h6]

theorem shownFields_tiller : s.shownFields (tlBase t + o) = s.shownTiller t (tlBase t + o) := by
  rw [State.shownFields, unitOf_tiller ht ho, if_neg (by unfold tlBase; omega), if_neg (by unfold tlBase; omega), if_neg (by unfold tlBase; omega),
    if_pos (by unfold tlBase; omega), if_pos (by unfold tlBase; omega)]

end tiller

/-! ### The trace ring (R93) -/

/-- Words put into registers that lie apart each read as written. -/
theorem get_foldl_put {f : Nat → Field} {v : Nat → Nat} (hfits : ∀ i, (f i).fits = true) (hv : ∀ i, v i < 2 ^ ((f i).hi + 1 - (f i).lo))
    (hne : ∀ i j, i ≠ j → (f i).addr ≠ (f j).addr) (s : State) {n i : Nat} (hi : i < n) :
    ((List.range n).foldl (fun s i => s.put (f i) (v i)) s).get (f i) = v i := by
  induction n with
  | zero => omega
  | succ n ih =>
    rw [List.range_succ, List.foldl_append, List.foldl_cons, List.foldl_nil]
    obtain rfl | hlt := Nat.eq_or_lt_of_le (Nat.le_of_lt_succ hi)
    · rw [get_put_of_fits _ _ (hfits i), Nat.mod_eq_of_lt (hv i)]
    · rw [get_put_other _ _ (hne i n hlt.ne), ih hlt]

theorem get_entry_traceSelect (s : State) (t : Nat) {e : Nat} (he : e < 256) : (s.traceSelect t e).get (TL_TRACE_RD_ENTRY t) = e := by
  have hreg : (s.traceSelect t e).reg (TL_TRACE_RD t) = (s.put (TL_TRACE_RD_ENTRY t) e).reg (TL_TRACE_RD t) :=
    reg_foldl _ (fun q i _ => reg_put_other q (TL_TRACE_W_WORD t i) _ (by unfold TL_TRACE_W_WORD TL_TRACE_W TL_TRACE_RD; dsimp only; omega)) _
  rw [get_eq_of_reg (f := TL_TRACE_RD_ENTRY t) hreg, get_put_of_fits _ _ (by rfl)]
  exact Nat.mod_eq_of_lt he

theorem get_word_traceSelect (s : State) (t e : Nat) {i : Nat} (hi : i < 4) :
    (s.traceSelect t e).get (TL_TRACE_W_WORD t i) = word32 (storeGet (fun _ => 0) (s.tl t).trace e) i := by
  refine get_foldl_put (f := TL_TRACE_W_WORD t) (fun _ => rfl) (fun j => ?_) (fun j k h => ?_) (s.put (TL_TRACE_RD_ENTRY t) e) hi
  · exact (bits_lt ..).trans_eq (congrArg (2 ^ ·) (show 32 * j + 31 + 1 - 32 * j = 32 by omega))
  · unfold TL_TRACE_W_WORD TL_TRACE_W
    dsimp only
    omega

theorem writeEngine_traceRd (s : State) (t w : Nat) : s.writeEngine t (TL_TRACE_RD t) w = s.traceSelect t (w % 256) := by
  simp [State.writeEngine, TL_TRACE_RD, TL_SEQ_CTRL, TL_STICKY]

/-! ### Event inputs (R127, R128) -/

/-- What the TDC hears is its own. -/
@[simp] theorem reg_tdcHears (s : State) (t j : Nat) : (s.tdcHears t j).reg = s.reg := by unfold State.tdcHears; split <;> rfl
@[simp] theorem wires_tdcHears (s : State) (t j : Nat) : (s.tdcHears t j).wires = s.wires := by unfold State.tdcHears; split <;> rfl

@[simp] theorem wires_putBit (s : State) (f : Field) (i : Nat) (b : Bool) : (s.putBit f i b).wires = s.wires := rfl
@[simp] theorem wires_modTl (s : State) (t : Nat) (f : Tiller → Tiller) : (s.modTl t f).wires = s.wires := rfl

section setLatch
variable (s : State) (t j : Nat)

/-- Of the registers a latch that sets is a bit of TL_EVIN. -/
theorem reg_setLatch_putBit : (s.setLatch t j).reg = ((s.tdcHears t j).putBit (TL_EVIN_LATCH t) j true).reg := by
  unfold State.setLatch
  dsimp only
  split
  · exact reg_modTl ..
  · rfl

@[simp] theorem wires_setLatch : (s.setLatch t j).wires = s.wires := by
  unfold State.setLatch
  dsimp only
  split
  · rw [wires_modTl, wires_putBit, wires_tdcHears]
  · rw [wires_putBit, wires_tdcHears]

theorem reg_setLatch {b : Nat} (h : b ≠ TL_EVIN t) : (s.setLatch t j).reg b = s.reg b := by
  rw [reg_setLatch_putBit, reg_putBit_other _ (TL_EVIN_LATCH t) j true h, reg_tdcHears]

theorem get_setLatch {j : Nat} (hj : j < 8) : (s.setLatch t j).get (TL_EVIN_LATCH t) = s.get (TL_EVIN_LATCH t) ||| 2 ^ j := by
  have hold : (s.tdcHears t j).get (TL_EVIN_LATCH t) = s.get (TL_EVIN_LATCH t) := get_eq_of_reg (by rw [reg_tdcHears])
  rw [get_eq_of_reg (congrFun (reg_setLatch_putBit s t j) _), State.putBit, if_pos rfl, get_put_of_fits _ _ (by rfl), hold]
  exact Nat.mod_eq_of_lt (Nat.or_lt_two_pow (bits_lt ..) (Nat.pow_lt_pow_right (by decide) hj))

end setLatch

/-- The latches that a mask names set, and of the registers TL_EVIN alone changes. -/
theorem foldl_setLatch (s : State) (t : Nat) {p : Nat → Bool} {l : List Nat} (hl : ∀ j ∈ l, j < 8) (i : Nat) :
    (l.foldl (fun s j => s.andThen (p j) (setLatch · t j)) s).fbit (TL_EVIN_LATCH t) i = (s.fbit (TL_EVIN_LATCH t) i || (decide (i ∈ l) && p i)) := by
  induction l generalizing s with
  | nil => simp
  | cons j r ih =>
    obtain ⟨hj, hr⟩ := List.forall_mem_cons.1 hl
    have hstep : (s.andThen (p j) (setLatch · t j)).fbit (TL_EVIN_LATCH t) i = (s.fbit (TL_EVIN_LATCH t) i || (decide (i = j) && p i)) := by
      unfold State.andThen
      split
      · next hp =>
        rw [State.fbit, get_setLatch s t hj, Nat.testBit_or, Nat.testBit_two_pow, State.fbit]
        by_cases h : i = j
        · simp [h, hp]
        · simp [h, Ne.symm h]
      · next hp =>
        by_cases h : i = j
        · simp [h, hp]
        · simp [h]
    rw [List.foldl_cons, ih _ hr, hstep]
    by_cases h : i = j
    · subst h
      cases p i <;> simp
    · simp [h]

/-- The row of TL_EVIN in the register tables. -/
def evinRow : RegD := ⟨0x704, 1, 4, 1, 4, [⟨7, 0, .w1c, false, 0⟩, ⟨15, 8, .wo, false, 0⟩]⟩

theorem writeEngine_evin (s : State) (t w : Nat) : s.writeEngine t (TL_EVIN t) w = s.writeEvin t w := by
  simp [State.writeEngine, TL_EVIN, TL_SEQ_CTRL, TL_STICKY, TL_TRACE_RD]

/-- A word that clears no latch sets those its FIRE names. -/
theorem writeEvin_fire (s : State) (t : Nat) {w mask : Nat} (hclear : bits w 7 0 = 0) (hfire : bits w 15 8 = mask) :
    s.writeEvin t w = (List.range 8).foldl (fun s j => s.andThen (mask.testBit j) (setLatch · t j)) (s.storeWord (TL_EVIN t) w) := by
  have hlow {j : Nat} (hj : j < 8) : w.testBit j = false := by
    have hb := testBit_bits w 7 0 j
    rw [hclear, decide_eq_true hj, Nat.zero_testBit, Bool.true_and, Nat.zero_add] at hb
    exact hb.symm
  have hhigh {j : Nat} (hj : j < 8) : w.testBit (8 + j) = mask.testBit j := by
    have hb := testBit_bits w 15 8 j
    rw [hfire, decide_eq_true hj, Bool.true_and] at hb
    exact hb.symm
  have hkeep (q : State) : (List.range 8).foldl (fun s j => s.andThen (w.testBit j) (dropLatch · t j)) q = q :=
    (List.foldl_ext _ (fun q _ => q) _ fun q j hj => by rw [hlow (List.mem_range.1 hj)]; rfl).trans (List.foldl_fixed _)
  rw [State.writeEvin, hkeep]
  exact List.foldl_ext _ _ _ fun q j hj => by rw [hhigh (List.mem_range.1 hj)]

section evin
variable {s : State} {v : View} {t : Nat} (ht : t < 64)
include ht

theorem regAt_evin : regAt (TL_EVIN t) = some evinRow := by
  rw [TL_EVIN, regAt_tiller ht (by decide)]
  decide +kernel

theorem shown_evin : s.shown (TL_EVIN t) = (s.reg (TL_EVIN t)).toNat := by
  have hunit : s.shownTiller t (tlBase t + 0x704) = [] := by
    simp only [State.shownTiller, TL_FLAGS, TL_SUP_CTRL, TL_APG_PX, TL_APG_PY, TL_LVL_STAT, TL_STRM_STAT, TL_CAP_STAT, TL_FQ_STAT, TL_ADC_STAT, Nat.add_assoc]
    simp
  rw [State.shown, TL_EVIN, shownFields_tiller ht (by decide), hunit]
  rfl

theorem fieldTakes_evin : ∀ x ∈ evinRow.flds, ∀ n, fieldTakes (kindOf (TL_EVIN t)) x.lo n = some n := by
  have free : ∀ x ∈ evinRow.flds, fieldLimits.find? (fun e => e.1 = 0x40704 && e.2.1 = x.lo) = none ∧ arrayLimit 0x40704 x.lo = none := by
    decide +kernel
  rw [TL_EVIN, kindOf_tiller ht (by decide)]
  exact fun x hx => fieldTakes_of_free (free x hx).1 (free x hx).2

/-- A command that fires inputs leaves their latches to `setLatch` alone: FIRE is the one field it writes. -/
theorem mergeField_fire (mask : Nat) (hm : mask < 2 ^ 8) (hr : s.ready = true) (hv : directView v = true) : s.mergeField v (TL_EVIN_FIRE t) mask =
    (List.range 8).foldl (fun s j => s.andThen (mask.testBit j) (setLatch · t j)) (s.setReg (TL_EVIN t) (s.reg (TL_EVIN t))) := by
  have hd := regAt_evin ht
  have hclear : bits (s.mergedWord evinRow (TL_EVIN_FIRE t) mask) 7 0 = 0 :=
    bits_mergedWord_zero (f := TL_EVIN_FIRE t) s mask hd rfl (List.mem_cons_self ..) (.inl (by decide : 7 < 8)) rfl
  have hfire : bits (s.mergedWord evinRow (TL_EVIN_FIRE t) mask) 15 8 = mask := bits_mergedWord (f := TL_EVIN_FIRE t) s hd rfl hm
  have hstore : s.storeWord (TL_EVIN t) (s.mergedWord evinRow (TL_EVIN_FIRE t) mask) = s.setReg (TL_EVIN t) (s.reg (TL_EVIN t)) :=
    storeWord_mergedWord s (f := TL_EVIN_FIRE t) mask hd rfl (shown_evin ht) (by simp [evinRow, TL_EVIN_FIRE]) (fieldTakes_evin ht)
  rw [mergeField_tiller ht (o := 0x704) (f := TL_EVIN_FIRE t) (by decide) mask hr hv rfl rfl hd, ← hstore, ← writeEvin_fire s t hclear hfire]
  exact (writeTiller_engine (by decide) _ none (by decide) (by decide)).trans (writeEngine_evin s t _)

end evin

end State

open State

section inputs
variable {v : View} {t : Fin 64} {s : State}

theorem exec_traceRdWrite (hr : s.ready = true) (hv : directView v = true) (e : Fin 256) :
    exec (.traceRdWrite v t e) s = .next (s.traceSelect t.val e.val) := by
  have hd : regAt (tlBase t.val + 0xa4) = some ⟨0xa4, 1, 4, 1, 4, [⟨7, 0, .rw, false, 0⟩]⟩ := by
    rw [regAt_tiller t.isLt (by decide)]
    decide +kernel
  have hwrite := (regWrite_tiller t.isLt (by decide) e.val hr hv rfl hd).trans (writeTiller_engine (by decide) e.val none (by decide) (by decide))
  exact congrArg Host.Outcome.next (hwrite.trans ((writeEngine_traceRd s t.val e.val).trans (by rw [Nat.mod_eq_of_lt e.isLt])))

/-- The latches it names set, the others stand. -/
theorem exec_evinFire (hr : s.ready = true) (hv : directView v = true) (mask : BitVec 8) : ∃ u, exec (.evinFire v t mask) s = .next u ∧
    u.get (TL_EVIN_LATCH t.val) = s.get (TL_EVIN_LATCH t.val) ||| mask.toNat ∧ ∀ a, a ≠ TL_EVIN t.val → u.reg a = s.reg a := by
  refine ⟨_, congrArg Host.Outcome.next (mergeField_fire t.isLt mask.toNat mask.isLt hr hv), Nat.eq_of_testBit_eq fun i => ?_, fun a ha => ?_⟩
  · have hfold := foldl_setLatch (s.setReg (TL_EVIN t.val) (s.reg (TL_EVIN t.val))) t.val (p := mask.toNat.testBit)
      (fun j hj => List.mem_range.1 hj) i
    rw [State.fbit, State.fbit, get_eq_of_reg (f := TL_EVIN_LATCH t.val) (congrFun (reg_setReg_self s _) _)] at hfold
    rw [hfold, Nat.testBit_or]
    by_cases hi : i < 8
    · rw [decide_eq_true (List.mem_range.2 hi), Bool.true_and]
    · rw [Nat.testBit_lt_two_pow (mask.isLt.trans_le (Nat.pow_le_pow_right (by decide) (Nat.le_of_not_lt hi))), Bool.and_false]
  · refine (reg_foldl _ (fun q j _ => ?_) _).trans (congrFun (reg_setReg_self s _) a)
    unfold State.andThen
    split
    · exact reg_setLatch q t.val j ha
    · rfl

theorem exec_eventInputSet {j : Fin 8} (hj : (t.val, j.val) ∈ s.wires) : ∃ u, exec (.eventInputSet t j) s = .next u ∧
    u.fbit (TL_EVIN_LATCH t.val) j.val = true ∧ u.wires = s.wires.erase (t.val, j.val) ∧ ∀ a, a ≠ TL_EVIN t.val → u.reg a = s.reg a := by
  let q : State := { s with wires := s.wires.erase (t.val, j.val) }
  have he : s.inputSet t.val j.val = q.setLatch t.val j.val := if_pos (List.contains_iff_mem.2 hj)
  refine ⟨_, congrArg Host.Outcome.next he, ?_, wires_setLatch q t.val j.val, fun a ha => reg_setLatch q t.val j.val ha⟩
  rw [State.fbit, get_setLatch q t.val j.isLt, Nat.testBit_or, Nat.testBit_two_pow_self, Bool.or_true]

end inputs

/-- Settles O31: the entry selected, and the latches that set, by `setLatch`. -/
theorem traceAndEventInputs : Obligations.TraceAndEventInputs :=
  fun _ t s hr hv => ⟨fun e => ⟨_, exec_traceRdWrite hr hv e, get_entry_traceSelect s t.val e.isLt, fun _ hi => get_word_traceSelect s t.val e.val hi⟩,
    exec_evinFire hr hv, fun _ => exec_eventInputSet⟩

end Sys2Proof.Machine
end

section
/-! SUPPORT. TL_SEQ_CTRL: RUN, STOP and RESUME of a tiller (R77, R90 to R92, R147, R148), and O30 settled. -/

namespace Sys2Proof.Machine

namespace State

/-! ### The three commands of TL_SEQ_CTRL (R92) -/

theorem regs_wf_of_canonical {s : State} (h : s.canonical = true) : storeWf resetWord s.regs = true := by
  simp only [State.canonical, Bool.and_eq_true] at h
  simp only [h]

/-- In its canonical form a state is not changed by a register that takes the word it holds. -/
theorem setReg_self {s : State} (h : s.canonical = true) (a : Nat) : s.setReg a (s.reg a) = s := by
  have hwf := regs_wf_of_canonical h
  have hregs : storeSet resetWord s.regs a (s.reg a) = s.regs :=
    store_ext (storeSet_wf hwf a _) hwf fun b => congrFun (reg_setReg_self s a) b
  rw [State.setReg, hregs]

/-- The row of TL_SEQ_CTRL in the register tables. -/
def seqCtrlRow : RegD := ⟨0, 1, 4, 1, 4, [⟨0, 0, .wo, false, 0⟩, ⟨1, 1, .wo, false, 0⟩, ⟨2, 2, .wo, false, 0⟩, ⟨8, 8, .rw, false, 1⟩, ⟨9, 9, .rw, false, 0⟩]⟩

/-- RUN, STOP and RESUME are its bits 0, 1 and 2. -/
def seqCommand (t i : Nat) : Field := ⟨TL_SEQ_CTRL t, i, i⟩

section seqCtrl
variable {s : State} {v : View} {t : Nat} (ht : t < 64)
include ht

theorem regAt_seqCtrl : regAt (TL_SEQ_CTRL t) = some seqCtrlRow := by
  rw [TL_SEQ_CTRL, regAt_tiller ht (by decide)]
  decide +kernel

theorem shown_seqCtrl : s.shown (TL_SEQ_CTRL t) = (s.reg (TL_SEQ_CTRL t)).toNat := by
  have hunit : s.shownTiller t (tlBase t + 0) = [] := by
    simp only [State.shownTiller, TL_FLAGS, TL_SUP_CTRL, TL_APG_PX, TL_APG_PY, TL_LVL_STAT, TL_STRM_STAT, TL_CAP_STAT, TL_FQ_STAT, TL_ADC_STAT, Nat.add_assoc]
    simp
  rw [State.shown, TL_SEQ_CTRL, shownFields_tiller ht (by decide), hunit]
  rfl

theorem fieldTakes_seqCtrl : ∀ x ∈ seqCtrlRow.flds, ∀ n, fieldTakes (kindOf (TL_SEQ_CTRL t)) x.lo n = some n := by
  have free : ∀ x ∈ seqCtrlRow.flds, fieldLimits.find? (fun e => e.1 = 0x40000 + 0 && e.2.1 = x.lo) = none ∧ arrayLimit (0x40000 + 0) x.lo = none := by
    decide +kernel
  rw [TL_SEQ_CTRL, kindOf_tiller ht (by decide)]
  exact fun x hx => fieldTakes_of_free (free x hx).1 (free x hx).2

/-- Of the three command bits the word holds the one that is given. -/
theorem testBit_seqCommand {i j : Nat} (hi : i < 3) (hj : j < 3) : (s.mergedWord seqCtrlRow (seqCommand t i) 1).testBit j = decide (j = i) := by
  have hd := regAt_seqCtrl ht
  have hf : (seqCommand t i).fits = true := by
    interval_cases i <;> rfl
  have hx : (⟨j, j, .wo, false, 0⟩ : FieldD) ∈ seqCtrlRow.flds := by
    interval_cases j <;> simp [seqCtrlRow]
  have hbit : (s.mergedWord seqCtrlRow (seqCommand t i) 1).testBit j = (bits (s.mergedWord seqCtrlRow (seqCommand t i) 1) j j).testBit 0 := by
    rw [testBit_bits, decide_eq_true (by omega), Bool.true_and, Nat.add_zero]
  rw [hbit]
  obtain rfl | hne := eq_or_ne j i
  · rw [show bits (s.mergedWord seqCtrlRow (seqCommand t j) 1) j j = 1 from
      bits_mergedWord (f := seqCommand t j) s hd hf (show 1 < 2 ^ (j + 1 - j) by rw [Nat.add_sub_cancel_left]; decide), decide_eq_true rfl]
    rfl
  · rw [bits_mergedWord_zero (f := seqCommand t i) s 1 hd hf hx (Nat.lt_or_gt_of_ne hne) rfl, decide_eq_false hne]
    rfl

/-- A command writes its bit alone: it is given to the tiller, in a state that the write itself leaves as it stands. -/
theorem mergeField_seqCommand (hr : s.ready = true) (hv : directView v = true) (hc : s.canonical = true) {i : Nat} (hi : i < 3) :
    s.mergeField v (seqCommand t i) 1 = s.seqCommands t (decide (1 = i)) (decide (2 = i)) (decide (0 = i)) := by
  have hd := regAt_seqCtrl ht
  have hf : (seqCommand t i).fits = true := by
    interval_cases i <;> rfl
  have hwo : ∀ x ∈ seqCtrlRow.flds, (x.hi < (seqCommand t i).lo ∨ (seqCommand t i).hi < x.lo) ∨ x.acc = .wo := by
    interval_cases i <;> simp [seqCtrlRow, seqCommand]
  have hstore := storeWord_mergedWord s (f := seqCommand t i) 1 hd hf (shown_seqCtrl ht) hwo (fieldTakes_seqCtrl ht)
  rw [mergeField_tiller ht (o := 0) (f := seqCommand t i) (by decide) 1 hr hv rfl rfl hd]
  refine (writeTiller_engine (by decide) _ none (by decide) (by decide)).trans ((if_pos rfl).trans ?_)
  rw [testBit_seqCommand ht hi (by decide), testBit_seqCommand ht hi (by decide), testBit_seqCommand ht hi (by decide)]
  exact congrArg (seqCommands · t _ _ _) (hstore.trans (setReg_self hc _))

end seqCtrl

/-! ### A start that is refused (R90, R91, R148) -/

theorem descCause_lt (d : SegDesc) : descCause d < 2 ^ 8 := by
  unfold descCause
  split_ifs <;> decide

section refused
variable {s : State} {t inst : Nat} {byReg : Bool}

/-- In RUNNING, PARKED, STALLED and FAULTED. -/
theorem startAt_of_busy (h0 : s.engine t ≠ 0) (h4 : s.engine t ≠ 4) (hby : byReg = true ∨ s.engine t = 5) :
    s.startAt t inst byReg = s.mark (TL_SEQ_STAT_REFUSED t) := by
  have hstart : s.startEngine t byReg = (s.mark (TL_SEQ_STAT_REFUSED t), false) := by
    unfold State.startEngine
    rcases hby with h | h <;> simp [h0, h4, h]
  rw [State.startAt, hstart]
  rfl

/-- The descriptor fails a check. -/
theorem startAt_of_cause (he : s.engine t = 0 ∨ s.engine t = 4) (hd : descCause (s.readDesc t (s.get (TL_SEG_ENTRY_SEG t))) ≠ 0) :
    s.startAt t inst byReg = (s.refuseSegment t (s.get (TL_SEG_ENTRY_SEG t)) (descCause (s.readDesc t (s.get (TL_SEG_ENTRY_SEG t))))).mark (TL_SEQ_STAT_REFUSED t) := by
  have hstart : s.startEngine t byReg = ((s.refuseSegment t (s.get (TL_SEG_ENTRY_SEG t)) (descCause (s.readDesc t (s.get (TL_SEG_ENTRY_SEG t))))).mark
      (TL_SEQ_STAT_REFUSED t), false) := by
    unfold State.startEngine
    rcases he with h | h <;> simp [h, hd]
  rw [State.startAt, hstart]
  rfl

theorem engine_mark_refused (s : State) (t : Nat) : (s.mark (TL_SEQ_STAT_REFUSED t)).engine t = s.engine t := get_put_apart _ _ rfl rfl rfl

theorem seqStat_ne_segErr (t : Nat) : TL_SEQ_STAT t ≠ TL_SEG_ERR t := by
  unfold TL_SEQ_STAT TL_SEG_ERR
  omega

/-- The segment and the cause are kept with the refusal. -/
theorem refuseSegment_effect (s : State) (t : Nat) {n c : Nat} (hn : n < 2 ^ 8) (hc : c < 2 ^ 8) : let u := s.refuseSegment t n c
    u.engine t = s.engine t ∧ u.on (TL_SEG_ERR_ERR t) = true ∧ u.get (TL_SEG_ERR_SEG t) = n ∧ u.get (TL_SEG_ERR_CAUSE t) = c := by
  refine ⟨?_, ?_, ?_, ?_⟩
  · have hreg : (s.refuseSegment t n c).reg (TL_SEQ_STAT t) = s.reg (TL_SEQ_STAT t) := by
      have hne := seqStat_ne_segErr t
      rw [State.refuseSegment, reg_put_other _ (TL_SEG_ERR_CAUSE t) _ hne, reg_put_other _ (TL_SEG_ERR_SEG t) _ hne, reg_mark_other _ (TL_SEG_ERR_ERR t) hne]
    exact get_eq_of_reg (f := TL_SEQ_STAT_STATE t) hreg
  · rw [State.refuseSegment, on_eq_of_get (get_put_apart _ _ (by rfl) (by rfl) (by rfl)), on_eq_of_get (get_put_apart _ _ (by rfl) (by rfl) (by rfl))]
    exact on_mark_of_fits s rfl
  · rw [State.refuseSegment, get_put_apart _ _ (by rfl) (by rfl) (by rfl), get_put_of_fits _ _ (by rfl)]
    exact Nat.mod_eq_of_lt hn
  · rw [State.refuseSegment, get_put_of_fits _ _ (by rfl)]
    exact Nat.mod_eq_of_lt hc

end refused

/-! ### A start (R90, R139, R140) -/

/-- The parts of the state that the sequencer of a tiller goes by. -/
def sequencing (s : State) : List (Nat × Word) × List (Nat × Tiller) × List (Nat × Compare) := (s.regs, s.tillers, s.compares)

theorem of_sequencing {s u : State} (h : u.sequencing = s.sequencing) : u.reg = s.reg ∧ u.tl = s.tl ∧ u.cmp = s.cmp := by
  obtain ⟨hr, ht, hc⟩ : u.regs = s.regs ∧ u.tillers = s.tillers ∧ u.compares = s.compares := by simpa [State.sequencing] using h
  refine ⟨?_, ?_, ?_⟩
  · unfold State.reg
    rw [hr]
  · unfold State.tl
    rw [ht]
  · unfold State.cmp
    rw [hc]

theorem sequencing_setPin (s : State) (g : Nat) (x : Pin) : (s.setPin g x).sequencing = s.sequencing := rfl
theorem sequencing_setCap (s : State) (t : Nat) (x : Capture) : (s.setCap t x).sequencing = s.sequencing := rfl

theorem sequencing_foldl {β : Type} {f : State → β → State} (hf : ∀ s x, (f s x).sequencing = s.sequencing) (l : List β) (s : State) :
    (l.foldl f s).sequencing = s.sequencing := by
  induction l generalizing s with
  | nil => rfl
  | cons x r ih => exact (ih (f s x)).trans (hf s x)

theorem sequencing_joinEpochs (s : State) (t : Nat) : (s.joinEpochs t).sequencing = s.sequencing := by
  unfold State.joinEpochs
  refine sequencing_foldl (fun q k => ?_) _ s
  rfl

theorem sequencing_rejoin (s : State) (t : Nat) : (s.rejoin t).sequencing = s.sequencing := by
  rw [← sequencing_joinEpochs s t]
  unfold State.rejoin
  refine sequencing_foldl (fun q k => ?_) _ _
  dsimp only
  split
  · rfl
  · rfl

/-- The registers as a start leaves them. -/
def startRegs (s : State) (t : Nat) (byReg : Bool) : State :=
  let s1 := ((s.endInterval t).emptyStack t).put48 (TL_VIDX_LO t) (TL_VIDX_HI t) 0
  let s2 := ((s1.put (TL_SEQ_STAT_LOOP_OPEN t) 0).put (TL_STICKY_FAIL t) 0).put (TL_CMASK_MASK t) 0
  let s3 := ((s2.put (TL_STRM_STAT_STALL t) 0).put (TL_FLAGS_RDVTMO t) 0).put (TL_FLAGS_MATCHX t) 0
  let s4 := ((s3.put (TL_SEQ_STAT_STOP_CAUSE t) 0).put (TL_HALT_CODE_CODE t) 0).put (TL_SEQ_STAT_REGSTART t) (b2n byReg)
  let s5 := ((s4.put (TL_RESULT_VALID t) 0).put (TL_STRM_DEAD_TICKS t) 0).put (TL_MASK_STAT_FIRST_PINS t) 0
  (s5.put (TL_SEQ_STAT_INSEG t) 0).put (TL_SEQ_STAT_STATE t) 1

/-- The tiller as a start leaves it. -/
def startTiller (x : Tiller) (byReg : Bool) : Tiller :=
  { x with issues := 0, last := false, looped := false, repLeft := 0, matches_ := 0, brk := false, brkLatch := false, brkReq := false, entries := 0, stackSerial := [], stopReq := false, startReq := false, park := .none, gap := none, pauseReq := false, tags := if byReg then 2 ^ 27 else 0, next := .first }

/-- The registers, the tiller and its compares as a start leaves them. -/
def startRun (s : State) (t : Nat) (byReg : Bool) : State :=
  let s7 := (s.startRegs t byReg).modTl t (startTiller · byReg)
  s7.setCmp t { s7.cmp t with fails := [], pktOpen := false, run := (s7.cmp t).run + 1, waitTo := 0 }

/-- A start but for its trace entry. -/
def started (s : State) (t : Nat) (byReg : Bool) : State :=
  let s9 := (s.startRun t byReg).setCap t { (s.startRun t byReg).cap t with violated := false }
  ((tillerPins t).foldl (fun s g => s.setPin g { s.pin g with lastDrive := false }) s9).rejoin t

theorem startEngine_started {s : State} {t : Nat} {byReg : Bool} (he : s.engine t = 0 ∨ s.engine t = 4)
    (hd : descCause (s.readDesc t (s.get (TL_SEG_ENTRY_SEG t))) = 0) : s.startEngine t byReg = ((s.started t byReg).trace t 0 0 0, true) := by
  have hidle : (s.engine t ≠ 0 && s.engine t ≠ 4) = false := by
    rcases he with h | h <;> simp [h]
  unfold State.startEngine
  simp only [hidle, hd, Bool.false_eq_true, if_false, ne_eq, not_true_eq_false]
  rfl

theorem cmp_trace (s : State) (t kind opc w1 : Nat) : (s.trace t kind opc w1).cmp = s.cmp := by
  unfold State.trace
  dsimp only
  split_ifs
  · rfl
  · rfl
  · rfl

@[simp] theorem tl_setCmp (s : State) (t : Nat) (x : Compare) : (s.setCmp t x).tl = s.tl := rfl

section started
variable (s : State) (t : Nat) (byReg : Bool)

theorem sequencing_started : (s.started t byReg).sequencing = (s.startRun t byReg).sequencing := by
  unfold State.started
  dsimp only
  rw [sequencing_rejoin, sequencing_foldl fun q g => sequencing_setPin q g _, sequencing_setCap]

theorem reg_started : (s.started t byReg).reg = (s.startRegs t byReg).reg := by
  rw [(of_sequencing (sequencing_started s t byReg)).1, State.startRun]
  dsimp only
  rw [reg_setCmp, reg_modTl]

theorem tl_emptyStack (q : State) : (q.emptyStack t).tl = q.tl := by
  unfold State.emptyStack
  rw [tl_put]
  exact List.foldlRecOn (motive := fun u : State => u.tl = q.tl) _ _ rfl fun u hu j _ => by rw [tl_put, hu]

theorem tl_startRegs : (s.startRegs t byReg).tl = s.tl := by
  have hset : (s.setCalTl t { s.calTl t with prober := 0 }).tl = s.tl := rfl
  unfold State.startRegs State.put48 State.endInterval
  dsimp only
  repeat rw [tl_put]
  rw [tl_setReg, tl_setReg, tl_emptyStack, tl_endStep, hset]

theorem tl_started : (s.started t byReg).tl t = startTiller (s.tl t) byReg := by
  rw [(of_sequencing (sequencing_started s t byReg)).2.1, State.startRun]
  dsimp only
  rw [tl_setCmp, tl_modTl, tl_startRegs]

theorem pktOpen_started : ((s.started t byReg).cmp t).pktOpen = false := by
  rw [(of_sequencing (sequencing_started s t byReg)).2.2, State.startRun]
  dsimp only
  rw [cmp_setCmp_same]

/-! #### What its registers hold -/

theorem tlReg_ne {t o o' : Nat} (h : o ≠ o') : tlBase t + o ≠ tlBase t + o' := fun e => h (Nat.add_left_cancel e)

theorem engine_startRegs : (s.startRegs t byReg).engine t = 1 := get_put_of_fits _ _ (f := TL_SEQ_STAT_STATE t) rfl

theorem on_regStart_startRegs : (s.startRegs t true).on (TL_SEQ_STAT_REGSTART t) = true := by
  have hget : (s.startRegs t true).get (TL_SEQ_STAT_REGSTART t) = 1 := by
    unfold State.startRegs
    dsimp only
    rw [get_put_apart _ _ (by rfl) (by rfl) (by rfl), get_put_apart _ _ (by rfl) (by rfl) (by rfl)]
    repeat refine Eq.trans (get_put_other _ _ (tlReg_ne (by decide))) ?_
    exact get_put_of_fits _ _ rfl
  rw [State.on, hget]
  rfl

theorem on_valid_startRegs : (s.startRegs t byReg).on (TL_RESULT_VALID t) = false := by
  have hget : (s.startRegs t byReg).get (TL_RESULT_VALID t) = 0 := by
    unfold State.startRegs
    dsimp only
    repeat refine Eq.trans (get_put_other _ _ (tlReg_ne (by decide))) ?_
    exact get_put_of_fits _ _ rfl
  rw [State.on, hget]
  rfl

theorem sticky_startRegs : (s.startRegs t byReg).get (TL_STICKY_FAIL t) = 0 := by
  unfold State.startRegs
  dsimp only
  repeat refine Eq.trans (get_put_other _ _ (tlReg_ne (by decide))) ?_
  exact get_put_of_fits _ _ rfl

/-- A register that is none of the tiller's own, but for TL_SEG_ENTRY. -/
def beyondTiller (t b : Nat) : Prop := ∀ o, o < 0x1000 → o ≠ 0x200 → b ≠ tlBase t + o

theorem reg_startRegs {b : Nat} (h : beyondTiller t b) : (s.startRegs t byReg).reg b = s.reg b := by
  have hinterval : (s.endInterval t).reg b = s.reg b := by
    refine (reg_endStep _ fun g hg => ?_).trans rfl
    obtain ⟨p, hp, rfl⟩ := List.mem_map.1 hg
    have hp := List.mem_range.1 hp
    have hne := h (0x804 + 0x100 * p) (by omega) (by omega)
    unfold PN_STAT pnBase
    unfold tlBase at hne
    omega
  have hstack : ((s.endInterval t).emptyStack t).reg b = s.reg b := by
    refine (reg_put_other _ (TL_SEQ_STAT_SP t) 0 (h _ (by decide) (by decide))).trans ((reg_foldl _ (fun q j hj => ?_) _).trans hinterval)
    have hj := List.mem_range.1 hj
    have hne := h (0x40 + 4 * j) (by omega) (by omega)
    exact reg_put_other q (TL_STACK_VALID t j) 0 (by rwa [TL_STACK_VALID, TL_STACK, Nat.add_assoc])
  unfold State.startRegs State.put48
  dsimp only
  repeat refine Eq.trans (reg_put_other _ _ _ (h _ (by decide) (by decide))) ?_
  exact (reg_setReg_other _ _ (h _ (by decide) (by decide))).trans ((reg_setReg_other _ _ (h _ (by decide) (by decide))).trans hstack)

end started

theorem beyondTiller_segEntry (t : Nat) : beyondTiller t (TL_SEG_ENTRY t) := fun o _ ho => by
  unfold TL_SEG_ENTRY
  omega

theorem beyondTiller_segAddr {t : Nat} (ht : t < 64) (n i : Nat) : beyondTiller t (segAddr t n i) := fun o ho _ => by
  unfold segAddr tlBase
  omega

section run
variable (s : State) {t : Nat} (byReg : Bool)

/-- The entry segment and its descriptor stand. -/
theorem segEntry_started : ((s.started t byReg).trace t 0 0 0).get (TL_SEG_ENTRY_SEG t) = s.get (TL_SEG_ENTRY_SEG t) :=
  get_eq_of_reg (f := TL_SEG_ENTRY_SEG t) ((reg_trace _ 0 0 0 (tlReg_ne (by decide))).trans
    ((congrFun (reg_started s t byReg) _).trans (reg_startRegs s t byReg (beyondTiller_segEntry t))))

theorem readDesc_started (ht : t < 64) (n : Nat) : ((s.started t byReg).trace t 0 0 0).readDesc t n = s.readDesc t n := by
  have hword (i : Nat) : ((s.started t byReg).trace t 0 0 0).reg (segAddr t n i) = s.reg (segAddr t n i) :=
    (reg_trace _ 0 0 0 (beyondTiller_segAddr ht n i 0xa0 (by decide) (by decide))).trans
      ((congrFun (reg_started s t byReg) _).trans (reg_startRegs s t byReg (beyondTiller_segAddr ht n i)))
  simp only [State.readDesc, hword]

end run

/-! ### A segment of SRAM is entered (R139, R140) -/

/-- No packet is open: none ends. -/
theorem packetBoundary_of_closed {s : State} {t : Nat} (h : (s.cmp t).pktOpen = false) (why : Nat) : s.packetBoundary t why = s := by
  simp [State.packetBoundary, h]

theorem packetIf_of_closed {s : State} {t : Nat} (h : (s.cmp t).pktOpen = false) : s.packetIf t = s := by
  rw [State.packetIf, packetBoundary_of_closed h, ite_self]

section enter
variable (s : State) (t n inst : Nat) (d : SegDesc)

/-- The tiller whose segment has become current. -/
def currentTiller (x : Tiller) (d : SegDesc) : Tiller := { x with desc := d, entries := x.entries + 1, brk := false, brkLatch := false, brkReq := false }

/-- The tiller before the first vector of a pass in SRAM. -/
def firstTiller (x : Tiller) (inst : Nat) : Tiller :=
  { x with next := .ready, dueAt := inst, looped := false, inStream := false, atPos := 0, atIdx := x.desc.start }

/-- The segment that is entered is current, before its trace entry. -/
def current (pass : Nat) : State :=
  (((s.put (TL_SEQ_STAT_INSEG t) 1).put (TL_PC_SEG t) n).setReg (TL_SEG_PASS t) (BitVec.ofNat 32 pass)).modTl t (currentTiller · d)

theorem becomeCurrent_of_closed (h : (s.cmp t).pktOpen = false) (pass : Nat) : s.becomeCurrent t n d pass = (s.current t n d pass).traceSegment t d := by
  rw [State.becomeCurrent, packetIf_of_closed h]
  rfl

theorem tl_leaveStream : (s.leaveStream t).tl = s.tl := by
  unfold State.leaveStream
  split
  · rw [State.discardStream, tl_put, State.bumpBy, tl_put]
    rfl
  · rfl

theorem reg_leaveStream {b : Nat} (h1 : b ≠ TL_STRM_CNT t) (h2 : b ≠ TL_STRM_STAT t) : (s.leaveStream t).reg b = s.reg b := by
  unfold State.leaveStream
  split
  · exact (reg_put_other _ (TL_STRM_STAT_PRIMED t) _ h2).trans (reg_bumpBy_other _ (TL_STRM_CNT_POISON_SPEC t) _ h1)
  · rfl

/-- The segment is current and traced, and a stream that was left is discarded. -/
def entering : State := ((s.current t n d 0).traceSegment t d).leaveStream t

/-- The tiller in it: the trace entry is its own. -/
theorem tl_entering : ∃ x k, (s.entering t n d).tl t = { currentTiller (s.tl t) d with trace := x, traceLen := k } := by
  have hcurrent : (s.current t n d 0).tl t = currentTiller (s.tl t) d := by
    rw [State.current, tl_modTl, tl_setReg, tl_put, tl_put]
  obtain ⟨x, k, htrace⟩ := (s.current t n d 0).tl_trace t 13 ((s.current t n d 0).tl t).vec.opc
    (((s.current t n d 0).tl t).idx % 2 ^ 14 + (if d.isSram then d.start else 0x3FFF) * 2 ^ 16)
  exact ⟨x, k, by rw [State.entering, tl_leaveStream, State.traceSegment, htrace, hcurrent]⟩

/-- Its registers but those of the trace and of the stream. -/
theorem reg_entering {o : Nat} (h1 : o ≠ 0x228) (h2 : o ≠ 0x220) (h3 : o ≠ 0xa0) (h4 : o ≠ 0x20c) :
    (s.entering t n d).reg (tlBase t + o) = ((s.put (TL_SEQ_STAT_INSEG t) 1).put (TL_PC_SEG t) n).reg (tlBase t + o) := by
  rw [State.entering, reg_leaveStream _ _ (tlReg_ne h1) (tlReg_ne h2), State.traceSegment, reg_trace _ _ _ _ (tlReg_ne h3), State.current, reg_modTl]
  exact reg_setReg_other _ _ (tlReg_ne h4)

theorem reg_entering_same {o : Nat} (h : o ≠ 0x228 ∧ o ≠ 0x220 ∧ o ≠ 0xa0 ∧ o ≠ 0x20c ∧ o ≠ 4 ∧ o ≠ 8) :
    (s.entering t n d).reg (tlBase t + o) = s.reg (tlBase t + o) := by
  obtain ⟨h1, h2, h3, h4, h5, h6⟩ := h
  rw [reg_entering s t n d h1 h2 h3 h4, reg_put_other _ (TL_PC_SEG t) _ (tlReg_ne h6), reg_put_other _ (TL_SEQ_STAT_INSEG t) _ (tlReg_ne h5)]

theorem get_pcSeg_entering (hn : n < 2 ^ 8) : (s.entering t n d).get (TL_PC_SEG t) = n := by
  rw [get_eq_of_reg (f := TL_PC_SEG t) (reg_entering s t n d (by decide) (by decide) (by decide) (by decide)), get_put_of_fits _ _ (by rfl)]
  exact Nat.mod_eq_of_lt hn

theorem seqStat_entering : (s.entering t n d).reg (TL_SEQ_STAT t) = (s.put (TL_SEQ_STAT_INSEG t) 1).reg (TL_SEQ_STAT t) :=
  (reg_entering s t n d (by decide) (by decide) (by decide) (by decide)).trans (reg_put_other _ (TL_PC_SEG t) _ (tlReg_ne (by decide)))

theorem engine_entering : (s.entering t n d).engine t = s.engine t :=
  (get_eq_of_reg (f := TL_SEQ_STAT_STATE t) (seqStat_entering s t n d)).trans (get_put_apart _ _ rfl rfl rfl)

theorem on_inSeg_entering : (s.entering t n d).on (TL_SEQ_STAT_INSEG t) = true :=
  (on_eq_of_get (get_eq_of_reg (f := TL_SEQ_STAT_INSEG t) (seqStat_entering s t n d))).trans (on_mark_of_fits _ rfl)

theorem on_regStart_entering : (s.entering t n d).on (TL_SEQ_STAT_REGSTART t) = s.on (TL_SEQ_STAT_REGSTART t) :=
  on_eq_of_get ((get_eq_of_reg (f := TL_SEQ_STAT_REGSTART t) (seqStat_entering s t n d)).trans (get_put_apart _ _ rfl rfl rfl))

variable {s d}

/-- The sequencer stands before the first vector of the segment. -/
theorem enterChecked_sram (hd : d.isSram = true) (h : (s.cmp t).pktOpen = false) : ∃ x k, s.enterChecked t n inst d =
    (s.entering t n d).setTl t (firstTiller { currentTiller (s.tl t) d with trace := x, traceLen := k } inst) := by
  simp only [SegDesc.isSram, Bool.and_eq_true, Bool.not_eq_true'] at hd
  obtain ⟨hstream, hgap⟩ := hd
  have henter : s.enterChecked t n inst d = (s.entering t n d).toFirst t inst := by
    simp only [State.enterChecked, becomeCurrent_of_closed s t n d h, SegDesc.isStream, hstream, hgap, Bool.false_and, Bool.false_eq_true, if_false, State.entering]
  obtain ⟨x, k, htl⟩ := s.tl_entering t n d
  refine ⟨x, k, ?_⟩
  rw [henter]
  simp only [State.toFirst, State.modTl, htl, State.currentTiller, State.firstTiller, SegDesc.isStream, hstream, Bool.false_and, Bool.false_eq_true, if_false]

end enter

end State

open State

section commands
variable {v : View} {t : Fin 64} {s : State} (hr : s.ready = true) (hv : directView v = true) (hc : s.canonical = true)
include hr hv hc

theorem exec_tlRun : exec (.tlRun v t) s = .next (s.startAt t.val s.now true) :=
  congrArg Host.Outcome.next (mergeField_seqCommand t.isLt hr hv hc (i := 0) (by decide))

theorem exec_tlStop : exec (.tlStop v t) s = .next (s.requestStop t.val s.now) :=
  congrArg Host.Outcome.next (mergeField_seqCommand t.isLt hr hv hc (i := 1) (by decide))

theorem exec_tlResume : exec (.tlResume v t) s = .next (s.resumeWrite t.val) :=
  congrArg Host.Outcome.next ((mergeField_seqCommand t.isLt hr hv hc (i := 2) (by decide)).trans rfl)

theorem exec_tlRun_starts (he : s.engine t.val = 0 ∨ s.engine t.val = 4) :
    let n := s.get (TL_SEG_ENTRY_SEG t.val)
    let d := s.readDesc t.val n
    descCause d = 0 → d.isSram = true → ∃ u, exec (.tlRun v t) s = .next u ∧ u.engine t.val = 1 ∧ u.on (TL_SEQ_STAT_INSEG t.val) = true ∧
      u.get (TL_PC_SEG t.val) = n ∧ u.get (TL_STICKY_FAIL t.val) = 0 ∧ u.on (TL_RESULT_VALID t.val) = false ∧ u.on (TL_SEQ_STAT_REGSTART t.val) = true ∧
      (u.tl t.val).next = .ready ∧ (u.tl t.val).atIdx = d.start ∧ (u.tl t.val).issues = 0 ∧ (u.tl t.val).dueAt = s.now := by
  intro n d hd hsram
  let q := (s.started t.val true).trace t.val 0 0 0
  have hreg {o : Nat} (ho : o ≠ 0xa0) : q.reg (tlBase t.val + o) = (s.startRegs t.val true).reg (tlBase t.val + o) :=
    (reg_trace _ 0 0 0 (tlReg_ne ho)).trans (congrFun (reg_started s t.val true) _)
  have hpkt : (q.cmp t.val).pktOpen = false := by
    rw [cmp_trace]
    exact pktOpen_started s t.val true
  obtain ⟨y, m, hy⟩ := (s.started t.val true).tl_trace t.val 0 0 0
  have hissues : (q.tl t.val).issues = 0 := by
    rw [hy, tl_started]
    rfl
  have hstart : s.startAt t.val s.now true = q.enterChecked t.val n s.now d := by
    rw [State.startAt, startEngine_started he hd]
    dsimp only
    rw [if_pos rfl, segEntry_started, readDesc_started s true t.isLt]
  obtain ⟨x, k, henter⟩ := enterChecked_sram t.val n s.now hsram hpkt
  let e := q.entering t.val n d
  let u := e.setTl t.val (firstTiller { currentTiller (q.tl t.val) d with trace := x, traceLen := k } s.now)
  have hu (f : Field) : u.get f = e.get f := by rw [get_setTl]
  have hstat {f : Field} (hf : f.addr = TL_SEQ_STAT t.val) : q.get f = (s.startRegs t.val true).get f := get_eq_of_reg (hf ▸ hreg (by decide))
  have hsticky : e.get (TL_STICKY_FAIL t.val) = 0 := by
    rw [get_eq_of_reg (f := TL_STICKY_FAIL t.val) ((reg_entering_same q t.val n d (by decide)).trans (hreg (by decide))), sticky_startRegs]
  have hvalid : e.on (TL_RESULT_VALID t.val) = false := by
    rw [on_eq_of_get (get_eq_of_reg (f := TL_RESULT_VALID t.val) ((reg_entering_same q t.val n d (by decide)).trans (hreg (by decide)))), on_valid_startRegs]
  refine ⟨u, (exec_tlRun hr hv hc).trans (congrArg _ (hstart.trans henter)), ?_, ?_, ?_, ?_, ?_, ?_, ?_⟩
  · exact (hu _).trans ((engine_entering q t.val n d).trans ((hstat rfl).trans (engine_startRegs s t.val true)))
  · exact (on_eq_of_get (hu _)).trans (on_inSeg_entering q t.val n d)
  · exact (hu _).trans (get_pcSeg_entering q t.val n d (bits_lt ..))
  · exact (hu _).trans hsticky
  · exact (on_eq_of_get (hu _)).trans hvalid
  · exact (on_eq_of_get (hu _)).trans ((on_regStart_entering q t.val n d).trans ((on_eq_of_get (hstat rfl)).trans (on_regStart_startRegs s t.val)))
  · rw [tl_setTl_same]
    exact ⟨rfl, rfl, hissues, rfl⟩

theorem exec_tlRun_refused (he : s.engine t.val = 0 ∨ s.engine t.val = 4) :
    let n := s.get (TL_SEG_ENTRY_SEG t.val)
    let d := s.readDesc t.val n
    descCause d ≠ 0 → ∃ u, exec (.tlRun v t) s = .next u ∧ u.engine t.val = s.engine t.val ∧ u.on (TL_SEQ_STAT_REFUSED t.val) = true ∧
      u.on (TL_SEG_ERR_ERR t.val) = true ∧ u.get (TL_SEG_ERR_SEG t.val) = n ∧ u.get (TL_SEG_ERR_CAUSE t.val) = descCause d := by
  intro n d hd
  let q := s.refuseSegment t.val n (descCause d)
  obtain ⟨hengine, herr, hseg, hcause⟩ := refuseSegment_effect s t.val (n := n) (c := descCause d) (bits_lt ..) (descCause_lt d)
  have hkept {f : Field} (hf : f.addr = TL_SEG_ERR t.val) : (q.mark (TL_SEQ_STAT_REFUSED t.val)).get f = q.get f :=
    get_put_other q 1 (f := TL_SEQ_STAT_REFUSED t.val) (hf ▸ (seqStat_ne_segErr t.val).symm)
  refine ⟨q.mark (TL_SEQ_STAT_REFUSED t.val), (exec_tlRun hr hv hc).trans (congrArg _ (startAt_of_cause he hd)), ?_, on_mark_of_fits q rfl, ?_, ?_, ?_⟩
  · rw [engine_mark_refused, hengine]
  · rw [on_eq_of_get (hkept rfl), herr]
  · rw [hkept rfl, hseg]
  · rw [hkept rfl, hcause]

theorem exec_tlRun_busy (he : s.engine t.val = 1 ∨ s.engine t.val = 2 ∨ s.engine t.val = 3 ∨ s.engine t.val = 5) :
    ∃ u, exec (.tlRun v t) s = .next u ∧ u.on (TL_SEQ_STAT_REFUSED t.val) = true ∧ u.tillers = s.tillers ∧ ∀ a, a ≠ TL_SEQ_STAT t.val → u.reg a = s.reg a :=
  ⟨s.mark (TL_SEQ_STAT_REFUSED t.val), (exec_tlRun hr hv hc).trans (congrArg _ (startAt_of_busy (by omega) (by omega) (.inl rfl))), on_mark_of_fits s rfl,
    tillers_mark s _, fun _ ha => reg_mark_other s (TL_SEQ_STAT_REFUSED t.val) ha⟩

theorem exec_tlStop_running (he : s.engine t.val = 1) (hg : (s.tl t.val).gap = none) (hn : (s.tl t.val).next ≠ .undecided) :
    ∃ u, exec (.tlStop v t) s = .next u ∧ (u.tl t.val).stopReq = true ∧ u.reg = s.reg := by
  have hstop : s.requestStop t.val s.now = s.modTl t.val (fun x => { x with stopReq := true }) := by
    simp [State.requestStop, he, hg, hn]
  exact ⟨_, (exec_tlStop hr hv hc).trans (congrArg _ hstop), by rw [tl_modTl], reg_modTl ..⟩

theorem exec_tlStop_parked (he : s.engine t.val = 2 ∨ s.engine t.val = 3) : exec (.tlStop v t) s = .next (s.stopNow t.val s.now) := by
  rw [exec_tlStop hr hv hc, State.requestStop]
  rcases he with h | h <;> simp only [h]

theorem exec_tlStop_stopped (he : s.engine t.val = 0 ∨ s.engine t.val = 4 ∨ s.engine t.val = 5) : exec (.tlStop v t) s = .next s := by
  rw [exec_tlStop hr hv hc, State.requestStop]
  rcases he with h | h | h <;> simp only [h]

theorem exec_tlResume_paused (he : s.engine t.val = 2) (hw : s.get (TL_SEQ_STAT_PARK_WHY t.val) = 3) :
    ∃ u, exec (.tlResume v t) s = .next u ∧ u.engine t.val = 1 ∧ (u.tl t.val).dueAt = s.now + 160 ∧ (u.tl t.val).park = .none := by
  have hresume : s.resumeWrite t.val = s.unparkAt t.val (s.now + 160) none := by
    simp [State.resumeWrite, he, hw]
  obtain ⟨x, n, htl⟩ := s.tl_unparkAt t.val (s.now + 160) none
  exact ⟨_, (exec_tlResume hr hv hc).trans (congrArg _ hresume), (s.seqStat_unparkAt t.val (s.now + 160) none).1, by rw [htl], by rw [htl]⟩

end commands

/-- A faulted tiller is not started: it is disarmed (R91). -/
theorem startArmed_faulted {s : State} {t : Nat} (ht : t < 64) (he : s.engine t = 5) (ha : s.on (armBit t) = true) :
    (s.startArmed t).engine t = 5 ∧ (s.startArmed t).on (armBit t) = false ∧ (s.startArmed t).on (TL_SEQ_STAT_REFUSED t) = true ∧
      (s.startArmed t).tillers = s.tillers := by
  have hfits : ∀ i, i < 64 → (armBit i).fits = true ∧ (armBit i).addr < 0x40000 := by decide
  obtain ⟨hf, haddr⟩ := hfits t ht
  have hne : TL_SEQ_STAT t ≠ (armBit t).addr := by
    unfold TL_SEQ_STAT tlBase
    omega
  have hactive : s.active t = false := by
    have hstate : s.get (TL_SEQ_STAT_STATE t) = 5 := he
    simp [State.active, hstate]
  have hstart : s.startArmed t = (s.mark (TL_SEQ_STAT_REFUSED t)).put (armBit t) 0 := by
    rw [State.startArmed, ha, hactive, startAt_of_busy (by omega) (by omega) (.inr he)]
    rfl
  rw [hstart]
  refine ⟨?_, ?_, ?_, rfl⟩
  · exact (get_put_other _ 0 (g := TL_SEQ_STAT_STATE t) hne).trans ((engine_mark_refused s t).trans he)
  · rw [on_put_of_fits _ _ hf, Nat.zero_mod]
    rfl
  · exact (on_eq_of_get (get_put_other _ 0 (g := TL_SEQ_STAT_REFUSED t) hne)).trans (on_mark_of_fits s rfl)

/-- Settles O30: each command by the state its bit of TL_SEQ_CTRL comes to. -/
theorem runStopAndResume : Obligations.RunStopAndResume :=
  fun _ t _ hr hv hc => ⟨fun he => ⟨exec_tlRun_starts hr hv hc he, exec_tlRun_refused hr hv hc he⟩, exec_tlRun_busy hr hv hc, startArmed_faulted t.isLt,
    exec_tlStop_running hr hv hc, exec_tlStop_parked hr hv hc, exec_tlStop_stopped hr hv hc, exec_tlResume_paused hr hv hc⟩

end Sys2Proof.Machine
end

section
/-! SUPPORT. The opcodes that act on a unit beside the engine (R115, R120, R121, R131, R154), and O22 settled. -/

namespace Sys2Proof.Machine

namespace State

/-- LVLQ and EVS run as every opcode does, once the checks of their own have passed (R117, R131). -/
theorem asOpcode_checked {s q : State} {t opc opd cnd : Nat} {f : State → State} (h : s.opcodeRuns t opc opd cnd = true)
    (h38 : opc = 0x38 → changeOk opd = true ∧ s.lvlPending t < 16) (h41 : opc = 0x41 → s.mayFireEvs t (opd % 256) = true)
    (hf : f (s.carrying t opc opd cnd) = q) (hn : (q.tl t).next.stops = false) : s.asOpcode t opc opd cnd f = q := by
  simp only [State.opcodeRuns, Bool.and_eq_true, beq_iff_eq, bne_iff_ne, Option.isNone_iff_eq_none] at h
  obtain ⟨⟨⟨heng, hiss⟩, hgap⟩, hcause⟩ := h
  have hword : (decide (opc = 0x38) && !changeOk opd) = false := by
    simpa using fun e => (h38 e).1
  have hroom : (decide (opc = 0x38) && decide (16 < s.lvlPending t + 1)) = false := by
    simpa [Nat.lt_succ_iff] using fun e => (h38 e).2
  have hevs : (decide (opc = 0x41) && !s.mayFireEvs t (opd % 256)) = false := by
    simpa using h41
  have hruns : s.asOpcode t opc opd cnd f = if (q.tl t).next.stops then (q.advInst (q.tl t).dueAt).periodEnd t else q := by
    rw [State.asOpcode, ← hf]
    simp only [heng, hiss, hgap, hcause, hword, hroom, hevs]
    simp [State.carrying, hgap]
  rw [hruns, hn, if_neg Bool.false_ne_true]

@[simp] theorem lvl_follow (s : State) (t : Nat) (n : Next) : (s.follow t n).lvl = s.lvl := rfl
@[simp] theorem adc_follow (s : State) (t : Nat) (n : Next) : (s.follow t n).adc = s.adc := rfl
@[simp] theorem tdc_follow (s : State) (t : Nat) (n : Next) : (s.follow t n).tdc = s.tdc := rfl
@[simp] theorem lvl_carrying (s : State) (t opc opd cnd : Nat) : (s.carrying t opc opd cnd).lvl = s.lvl := rfl
@[simp] theorem adc_carrying (s : State) (t opc opd cnd : Nat) : (s.carrying t opc opd cnd).adc = s.adc := rfl
@[simp] theorem tdc_carrying (s : State) (t opc opd cnd : Nat) : (s.carrying t opc opd cnd).tdc = s.tdc := rfl
@[simp] theorem vidx_carrying (s : State) (t opc opd cnd : Nat) : (s.carrying t opc opd cnd).vidx = s.vidx := rfl

end State

open State

section devices
variable {t : Fin 64} {w : Word} {s : State}

theorem exec_vLvlq (h : s.opcodeRuns t.val 0x38 w.toNat 0 = true) (hc : changeOk w.toNat = true) (hp : s.lvlPending t.val < 16) :
    ∃ u, exec (.vLvlq t w) s = .next u ∧ (u.tl t.val).next = .seq ∧ u.regs = s.regs ∧
      (u.lvl t.val).queue = (s.lvl t.val).queue ++ [⟨0, [w.toNat], s.vidx t.val, (s.tl t.val).issueAt⟩] := by
  have hq := asOpcode_checked (f := (opLvlq · t.val w.toNat)) h (fun _ => ⟨hc, hp⟩) (fun e => absurd e (by decide)) rfl (by simp [opLvlq, Next.stops])
  refine ⟨_, congrArg Host.Outcome.next hq, by simp [opLvlq], rfl, ?_⟩
  simp [opLvlq, queueLevel]

/-- The channel that EVS fires is the operand: bits above it are reserved (R131). -/
theorem exec_vEvs (h : s.opcodeRuns t.val 0x41 w.toNat 0 = true) (he : s.mayFireEvs t.val w.toNat = true) :
    ∃ u, exec (.vEvs t w) s = .next u ∧ (u.tl t.val).next = .seq ∧ u.regs = s.regs ∧ u.firings = s.firings ++ [w.toNat] := by
  have hw : w.toNat % 256 = w.toNat := Nat.mod_eq_of_lt (lt_of_and_mask (n := 8) w.isLt (by decide) (and_reservedOperand_of_runs h rfl))
  have hq := asOpcode_checked (f := (opEvs · t.val w.toNat)) h (fun e => absurd e (by decide)) (fun _ => by rwa [hw]) rfl (by simp [opEvs, Next.stops])
  exact ⟨_, congrArg Host.Outcome.next hq, by simp [opEvs], rfl, congrArg (s.firings ++ [·]) hw⟩

theorem exec_vStream (h : s.opcodeRuns t.val 0x29 w.toNat 0 = true) : ∃ u, exec (.vStream t w) s = .next u ∧ (u.tl t.val).next = .seq ∧ u.regs = s.regs ∧
    (u.tl t.val).primes = (s.tl t.val).primes ++ [((s.tl t.val).issueAt + 8 * 160, w.toNat)] := by
  have hw : w.toNat % 256 = w.toNat := Nat.mod_eq_of_lt (lt_of_and_mask (n := 8) w.isLt (by decide) (and_reservedOperand_of_runs h rfl))
  exact ⟨_, congrArg Host.Outcome.next (asOpcode_follows h (by decide) (by decide) rfl rfl), by simp, rfl, by simp [hw]⟩

theorem exec_vMeas (h : s.opcodeRuns t.val 0x39 w.toNat 0 = true) : ∃ u, exec (.vMeas t w) s = .next u ∧ (u.tl t.val).next = .seq ∧ u.regs = s.regs ∧
    (u.adc t.val).due = (s.adc t.val).due ++ [((s.tl t.val).issueAt + 8 * 160, w.toNat)] := by
  have hw : w.toNat < 65536 := lt_of_and_mask (n := 16) w.isLt (by decide) (and_reservedOperand_of_runs h rfl)
  refine ⟨_, congrArg Host.Outcome.next (asOpcode_follows h (by decide) (by decide) rfl rfl), by simp, rfl, ?_⟩
  simp [State.measure, hw]

theorem exec_vTdcarm (h : s.opcodeRuns t.val 0x3A w.toNat 0 = true) : ∃ u, exec (.vTdcarm t w) s = .next u ∧ (u.tl t.val).next = .seq ∧ u.regs = s.regs ∧
    (u.tdc t.val).arms = (s.tdc t.val).arms ++ [((s.tl t.val).issueAt + 8 * 160, w.toNat)] := by
  have hw : w.toNat < 65536 := lt_of_and_mask (n := 16) w.isLt (by decide) (and_reservedOperand_of_runs h rfl)
  refine ⟨_, congrArg Host.Outcome.next (asOpcode_follows h (by decide) (by decide) rfl rfl), by simp, rfl, ?_⟩
  simp [State.tdcarm, hw]

end devices

/-- Settles O22: each opcode as the state it answers, in which the unit has what the vector asks of it. -/
theorem deviceOpcodesActAtTheirIssue : Obligations.DeviceOpcodesActAtTheirIssue :=
  fun _ _ _ => ⟨exec_vLvlq, exec_vEvs, exec_vStream, exec_vMeas, exec_vTdcarm⟩

end Sys2Proof.Machine
end

section
/-! SUPPORT. The address generators (R97 to R101), and O28 settled. -/

namespace Sys2Proof.Machine

namespace State

/-! ### One step of a generator (R99) -/

/-- A step leaves its generator within the limit. -/
theorem addrResult_le (op a m v : Nat) : (addrResult op a m v).1 ≤ m := by
  have hmod (n : Nat) : n % (m + 1) ≤ m := Nat.le_of_lt_succ (Nat.mod_lt _ (Nat.succ_pos m))
  have hcomp := Int.emod_lt_of_pos ((m : Int) - a) (show (0 : Int) < m + 1 by omega)
  unfold addrResult
  split <;> dsimp only
  · exact hmod _
  · split
    · exact le_rfl
    · exact hmod _
  · omega
  · exact hmod _
  · exact hmod _
  · exact Nat.zero_le m
  · exact hmod _

theorem addrResult_comp (a m v : Nat) : (((addrResult 3 a m v).1 : Nat) : Int) = ((m : Int) - a) % (m + 1) :=
  Int.toNat_of_nonneg (Int.emod_nonneg _ (by omega))

/-- A generator's value, its limit, the flags, the index registers and the other generator stand in registers of their own. -/
theorem apg_registers_apart (t : Nat) (g : Gen) (n : Nat) : (genValue t g).addr ≠ TL_FLAGS t ∧ (genValue t g).addr ≠ TL_APG_I t n ∧
    TL_FLAGS t ≠ TL_APG_I t n ∧ (genValue t (otherGen g)).addr ≠ (genValue t g).addr ∧ (genLimit t (otherGen g)).addr ≠ (genValue t g).addr ∧
    (genLimit t (otherGen g)).addr ≠ TL_FLAGS t := by
  cases g <;> simp only [genValue, genLimit, otherGen, TL_APG_X_X, TL_APG_Y_Y, TL_APG_XMAX_XMAX, TL_APG_YMAX_YMAX, TL_APG_X, TL_APG_Y, TL_APG_XMAX,
    TL_APG_YMAX, TL_FLAGS, TL_APG_I] <;> omega

/-- The limit has as many bits as the value. -/
theorem get_genLimit_lt (s : State) (t : Nat) (g : Gen) : s.get (genLimit t g) < 2 ^ ((genValue t g).hi + 1 - (genValue t g).lo) := by
  cases g <;> exact bits_lt ..

@[simp] theorem fits_genValue (t : Nat) (g : Gen) : (genValue t g).fits = true := by cases g <;> rfl
@[simp] theorem fits_genCarry (t : Nat) (g : Gen) : (genCarry t g).fits = true := by cases g <;> rfl
@[simp] theorem addr_genCarry (t : Nat) (g : Gen) : (genCarry t g).addr = TL_FLAGS t := by cases g <;> rfl

/-- A flag reads as it was put. -/
theorem on_put_genCarry (s : State) (t : Nat) (g : Gen) (c : Bool) : (s.put (genCarry t g) (b2n c)).on (genCarry t g) = c := by
  rw [on_put_of_fits _ _ (fits_genCarry t g)]
  cases g <;> cases c <;> rfl

section genStep
variable (s : State) (t : Nat) (g : Gen) (op v : Nat)

/-- What a step makes of the generator. -/
abbrev stepResult : Nat × Option Bool := addrResult op (s.get (genValue t g)) (s.get (genLimit t g)) v

theorem genStep_eq : s.genStep t g op v = match (s.stepResult t g op v).2 with
    | some c => ((s.put (genValue t g) (s.stepResult t g op v).1).put (genCarry t g) (b2n c), c)
    | none => (s.put (genValue t g) (s.stepResult t g op v).1, false) := rfl

theorem genStep_carry : (s.genStep t g op v).2 = (s.stepResult t g op v).2.getD false := by
  rw [genStep_eq]
  cases (s.stepResult t g op v).2 <;> rfl

theorem reg_genStep {b : Nat} (hv : b ≠ (genValue t g).addr) (hf : b ≠ TL_FLAGS t) : (s.genStep t g op v).1.reg b = s.reg b := by
  have hput := reg_put_other s (genValue t g) (s.stepResult t g op v).1 hv
  rw [genStep_eq]
  cases (s.stepResult t g op v).2 with
  | none => exact hput
  | some c => exact (reg_put_other _ (genCarry t g) _ (by rwa [addr_genCarry])).trans hput

theorem get_genStep : (s.genStep t g op v).1.get (genValue t g) = (s.stepResult t g op v).1 := by
  have hlt := (addrResult_le op (s.get (genValue t g)) (s.get (genLimit t g)) v).trans_lt (get_genLimit_lt s t g)
  have hput := (get_put_of_fits s (s.stepResult t g op v).1 (fits_genValue t g)).trans (Nat.mod_eq_of_lt hlt)
  rw [genStep_eq]
  cases (s.stepResult t g op v).2 with
  | none => exact hput
  | some c => exact (get_put_other _ _ (by rw [addr_genCarry]; exact (apg_registers_apart t g 0).1)).trans hput

/-- An operation that writes the carry flag leaves it as the carry (R99). -/
theorem on_genStep {c : Bool} (h : (s.stepResult t g op v).2 = some c) : (s.genStep t g op v).1.on (genCarry t g) = c := by
  rw [genStep_eq, h]
  exact on_put_genCarry ..

/-- One that writes none leaves the flags. -/
theorem flags_genStep (h : (s.stepResult t g op v).2 = none) : (s.genStep t g op v).1.reg (TL_FLAGS t) = s.reg (TL_FLAGS t) := by
  rw [genStep_eq, h]
  exact reg_put_other _ (genValue t g) _ (apg_registers_apart t g 0).1.symm

end genStep

/-! ### Address operations (R99, R100) -/

section addrOp
variable (s : State) (t : Nat) (g : Gen) {op : Nat} (n : Nat)

theorem addrOp_unchained (h6 : op ≠ 6) : s.addrOp t g ⟨op, n, false⟩ = (s.genStep t g op (s.indexFor t g n)).1 := by
  simp [State.addrOp, h6]

/-- SAVI writes the index register besides. -/
theorem addrOp_savi : s.addrOp t g ⟨6, n, false⟩ =
    (s.genStep t g 6 (s.indexFor t g n)).1.put (TL_APG_I_I t n) (s.get (genValue t g) % (s.get (genLimit t g) + 1)) := by
  simp [State.addrOp, get_genStep, addrResult]

/-- The chained step is one step of the other generator, down for DEC and up otherwise. -/
theorem get_addrOp_chained (h6 : op ≠ 6) : (s.addrOp t g ⟨op, n, true⟩).get (genValue t (otherGen g)) =
    if (s.stepResult t g op (s.indexFor t g n)).2.getD false then (s.stepResult t (otherGen g) (if op = 2 then 2 else 1) 0).1
    else s.get (genValue t (otherGen g)) := by
  obtain ⟨-, -, -, hvalue, hlimit, hlimitFlags⟩ := apg_registers_apart t g n
  have hother := (apg_registers_apart t (otherGen g) n).1
  let q := (s.genStep t g op (s.indexFor t g n)).1
  have hv : q.get (genValue t (otherGen g)) = s.get (genValue t (otherGen g)) := get_eq_of_reg (reg_genStep s t g op _ hvalue hother)
  have hl : q.get (genLimit t (otherGen g)) = s.get (genLimit t (otherGen g)) := get_eq_of_reg (reg_genStep s t g op _ hlimit hlimitFlags)
  have hq : s.addrOp t g ⟨op, n, true⟩ = if (s.stepResult t g op (s.indexFor t g n)).2.getD false then
      (q.genStep t (otherGen g) (if op = 2 then 2 else 1) 0).1 else q := by
    rw [← genStep_carry]
    simp [State.addrOp, h6, q]
  rw [hq]
  split
  · rw [get_genStep, stepResult, hv, hl]
  · exact hv

end addrOp

end State

open State

section operations
variable (t : Fin 64) (g : Gen) (n : Fin 4) (s : State)

/-- An operation that writes the carry flag, without a chained step. -/
theorem addrOp_effect {op : Nat} {c : Bool} (n : Nat) (h6 : op ≠ 6) (hc : (s.stepResult t.val g op (s.indexFor t.val g n)).2 = some c) :
    (s.addrOp t.val g ⟨op, n, false⟩).get (genValue t.val g) = (s.stepResult t.val g op (s.indexFor t.val g n)).1 ∧
      (s.addrOp t.val g ⟨op, n, false⟩).on (genCarry t.val g) = c := by
  rw [addrOp_unchained s t.val g n h6]
  exact ⟨get_genStep .., on_genStep s t.val g op _ hc⟩

theorem addrHold_effect : (s.addrOp t.val g ⟨0, 0, false⟩).get (genValue t.val g) = s.get (genValue t.val g) % (s.get (genLimit t.val g) + 1) ∧
    (s.addrOp t.val g ⟨0, 0, false⟩).reg (TL_FLAGS t.val) = s.reg (TL_FLAGS t.val) := by
  rw [addrOp_unchained s t.val g 0 (by decide)]
  exact ⟨get_genStep .., flags_genStep s t.val g 0 _ rfl⟩

theorem addrSavi_effect (n : Nat) :
    let u := s.addrOp t.val g ⟨6, n, false⟩
    let x := s.get (genValue t.val g) % (s.get (genLimit t.val g) + 1)
    u.get (genValue t.val g) = x ∧ u.get (TL_APG_I_I t.val n) = x ∧ u.reg (TL_FLAGS t.val) = s.reg (TL_FLAGS t.val) := by
  obtain ⟨-, hvalue, hflags, -⟩ := apg_registers_apart t.val g n
  have hlimit : s.get (genLimit t.val g) < 2 ^ 20 := by
    cases g with
    | x => exact get_genLimit_lt s t.val .x
    | y => exact (get_genLimit_lt s t.val .y).trans (by decide : 2 ^ 16 < 2 ^ 20)
  have hx : s.get (genValue t.val g) % (s.get (genLimit t.val g) + 1) < 2 ^ 20 :=
    (Nat.le_of_lt_succ (Nat.mod_lt _ (Nat.succ_pos _))).trans_lt hlimit
  dsimp only
  rw [addrOp_savi]
  exact ⟨(get_put_other _ _ hvalue).trans (get_genStep ..), (get_put_of_fits _ _ rfl).trans (Nat.mod_eq_of_lt hx),
    (reg_put_other _ _ _ hflags).trans (flags_genStep s t.val g 6 _ rfl)⟩

/-- COMP, whose value is the limit less the value. -/
theorem addrComp_effect : (((s.addrOp t.val g ⟨3, 0, false⟩).get (genValue t.val g) : Nat) : Int) =
    ((s.get (genLimit t.val g) : Int) - s.get (genValue t.val g)) % (s.get (genLimit t.val g) + 1) ∧
    (s.addrOp t.val g ⟨3, 0, false⟩).on (genCarry t.val g) = false := by
  obtain ⟨hvalue, hcarry⟩ := addrOp_effect t g s (op := 3) 0 (by decide) rfl
  exact ⟨by rw [hvalue, addrResult_comp], hcarry⟩

end operations

/-- Settles O28: each operation by what `addrResult` gives, a chained one by the step of the other generator that its carry asks for. -/
theorem addressOperationsStepTheirGenerators : Obligations.AddressOperationsStepTheirGenerators := by
  refine ⟨fun t g n s => ⟨⟨_, rfl, addrHold_effect t g s⟩, ⟨_, rfl, addrOp_effect t g s 0 (by decide) rfl⟩, ⟨_, rfl, addrOp_effect t g s 0 (by decide) rfl⟩,
    ⟨_, rfl, addrComp_effect t g s⟩, ⟨_, rfl, addrOp_effect t g s n.val (by decide) rfl⟩, ⟨_, rfl, addrOp_effect t g s n.val (by decide) rfl⟩,
    ⟨_, rfl, addrSavi_effect t g s n.val⟩, ⟨_, rfl, addrOp_effect t g s 0 (by decide) rfl⟩⟩, fun t g n s => ⟨⟨_, rfl, ?_⟩, ⟨_, rfl, ?_⟩, ⟨_, rfl, ?_⟩⟩⟩
  · refine (get_addrOp_chained s t.val g 0 (by decide)).trans ?_
    simp [addrResult]
  · refine (get_addrOp_chained s t.val g 0 (by decide)).trans ?_
    simp [addrResult]
  · refine (get_addrOp_chained s t.val g n.val (by decide)).trans ?_
    simp [addrResult]

end Sys2Proof.Machine
end

section
/-! SUPPORT. The data generator and the guarded registers (R104, R105, R109), and O29 settled. -/

namespace Sys2Proof.Machine

/-! ### Words (R104) -/

theorem ones_xor_toNat (w : Word) : 0xFFFFFFFF ^^^ w.toNat = (~~~w).toNat := by
  rw [← BitVec.allOnes_xor, BitVec.toNat_xor]
  rfl

/-- A word is inverted where two bits differ. -/
theorem xor_spread_bne (w : Word) (b c : Bool) : w.toNat ^^^ spread (b != c) = (if b = c then w else ~~~w).toNat := by
  by_cases h : b = c
  · simp [h, spread]
  · rw [if_neg h, bne_iff_ne.2 h, ← ones_xor_toNat, Nat.xor_comm]
    rfl

theorem toNat_rotateLeft_one (w : Word) : w.toNat * 2 % 2 ^ 32 + w.toNat / 2 ^ 31 = (w.rotateLeft 1).toNat := by
  have hw := w.isLt
  have hhigh : w.toNat * 2 % 2 ^ 32 = 2 ^ 1 * (w.toNat % 2 ^ 31) := by omega
  rw [BitVec.toNat_rotateLeft, hhigh, Nat.two_pow_add_eq_or_of_lt (by omega), ← hhigh, Nat.shiftLeft_eq, Nat.shiftRight_eq_div_pow]

theorem toNat_rotateRight_one (w : Word) : w.toNat / 2 + w.toNat % 2 * 2 ^ 31 = (w.rotateRight 1).toNat := by
  have hw := w.isLt
  have hhigh : w.toNat * 2 ^ 31 % 2 ^ 32 = 2 ^ 31 * (w.toNat % 2) := by omega
  rw [BitVec.toNat_rotateRight, Nat.shiftLeft_eq, Nat.shiftRight_eq_div_pow, Nat.lor_comm]
  change _ = w.toNat * 2 ^ 31 % 2 ^ 32 ||| w.toNat / 2
  rw [hhigh, ← Nat.two_pow_add_eq_or_of_lt (by omega), Nat.add_comm, Nat.mul_comm]

namespace State

theorem get_whole (s : State) (a : Nat) : s.get ⟨a, 31, 0⟩ = (s.reg a).toNat := Nat.mod_eq_of_lt (s.reg a).isLt

theorem get_data (s : State) (t : Nat) : s.get (TL_APG_D_D t) = (s.reg (TL_APG_D t)).toNat := s.get_whole _

theorem get_background (s : State) (t n : Nat) : s.get (TL_APG_BG_BG t n) = (s.reg (TL_APG_BG t n)).toNat := s.get_whole _

/-! ### Data operations (R104, R105) -/

/-- A data operation writes D and nothing else. -/
theorem dataOp_writes (s : State) (t op n : Nat) {w : Word} (h : s.dataResult t op n = w.toNat) :
    (s.dataOp t op n).reg (TL_APG_D t) = w ∧ ∀ a, a ≠ TL_APG_D t → (s.dataOp t op n).reg a = s.reg a := by
  rw [State.dataOp, h]
  exact ⟨reg_put_whole s (TL_APG_D t) w, fun a ha => reg_put_other s (TL_APG_D_D t) _ ha⟩

section dataResult
variable (s : State) (t n : Nat)

theorem dataResult_hold : s.dataResult t 0 0 = (s.reg (TL_APG_D t)).toNat := s.get_data t
theorem dataResult_inv : s.dataResult t 1 0 = (~~~ s.reg (TL_APG_D t)).toNat := by
  rw [← ones_xor_toNat, ← get_data]
  rfl
theorem dataResult_bg : s.dataResult t 2 n = (s.reg (TL_APG_BG t n)).toNat := s.get_background t n
theorem dataResult_bgi : s.dataResult t 3 n = (~~~ s.reg (TL_APG_BG t n)).toNat := by
  rw [← ones_xor_toNat, ← get_background]
  rfl
theorem dataResult_ckb : s.dataResult t 4 n =
    (if (s.physical t).1.testBit 0 = (s.physical t).2.testBit 0 then s.reg (TL_APG_BG t n) else ~~~ s.reg (TL_APG_BG t n)).toNat := by
  rw [← xor_spread_bne, ← get_background]
  rfl
theorem dataResult_adrb : s.dataResult t 5 n =
    (if parity 20 ((s.physical t).1 &&& s.get (TL_APG_DXM_DXM t)) = parity 16 ((s.physical t).2 &&& s.get (TL_APG_DYM_DYM t)) then s.reg (TL_APG_BG t n)
      else ~~~ s.reg (TL_APG_BG t n)).toNat := by
  rw [← xor_spread_bne, ← get_background]
  rfl
theorem dataResult_xorb : s.dataResult t 6 n = (s.reg (TL_APG_D t) ^^^ s.reg (TL_APG_BG t n)).toNat := by
  rw [BitVec.toNat_xor, ← get_data, ← get_background]
  rfl
theorem dataResult_rol : s.dataResult t 7 0 = ((s.reg (TL_APG_D t)).rotateLeft 1).toNat := by
  rw [← toNat_rotateLeft_one, ← get_data]
  rfl
theorem dataResult_ror : s.dataResult t 8 0 = ((s.reg (TL_APG_D t)).rotateRight 1).toNat := by
  rw [← toNat_rotateRight_one, ← get_data]
  rfl
theorem dataResult_addr :
    s.dataResult t 9 0 = (BitVec.ofNat 32 ((s.physical t).2 % 2 ^ 16 * 2 ^ 16 + (s.physical t).1 % 2 ^ 16)).toNat := by
  rw [BitVec.toNat_ofNat, Nat.mod_eq_of_lt (by omega)]
  rfl

end dataResult

/-! ### Guarded registers (R109) -/

/-- Place of a guarded register in its tiller's block. -/
def apgOffset : ApgReg → Nat
  | .ctrl => 0x100 | .x => 0x104 | .y => 0x108 | .d => 0x10c | .xmax => 0x110 | .ymax => 0x114
  | .index n => 0x120 + 4 * n.val
  | .bg n => 0x130 + 4 * n.val
  | .dxm => 0x140 | .dym => 0x144 | .tsel => 0x148

theorem apgAddr_eq (t : Nat) (r : ApgReg) : apgAddr t r = tlBase t + apgOffset r := by
  cases r <;> simp only [apgAddr, apgOffset, TL_APG_CTRL, TL_APG_X, TL_APG_Y, TL_APG_D, TL_APG_XMAX, TL_APG_YMAX, TL_APG_I, TL_APG_BG, TL_APG_DXM,
    TL_APG_DYM, TL_APG_TSEL, Nat.add_assoc]

theorem apgOffset_bounds (r : ApgReg) : 0x100 ≤ apgOffset r ∧ apgOffset r < 0x14c ∧ apgOffset r % 4 = 0 := by
  cases r with
  | index n => revert n; decide
  | bg n => revert n; decide
  | _ => decide

theorem apgRegAt_apgAddr (t : Nat) (r : ApgReg) : apgRegAt t (apgAddr t r) = some r := by
  have hplace (q : ApgReg) : decide (apgAddr t q = apgAddr t r) = decide (apgOffset q = apgOffset r) := by
    rw [apgAddr_eq, apgAddr_eq]
    exact decide_eq_decide.2 (Nat.add_left_cancel_iff)
  rw [apgRegAt]
  simp only [hplace]
  clear hplace
  cases r with
  | index n => revert n; decide
  | bg n => revert n; decide
  | _ => rfl

theorem regAt_apgAddr_isSome {t : Nat} (ht : t < 64) (r : ApgReg) : (regAt (apgAddr t r)).isSome = true := by
  rw [apgAddr_eq, regAt_tiller ht (by have := apgOffset_bounds r; omega)]
  cases r with
  | index n => revert n; decide +kernel
  | bg n => revert n; decide +kernel
  | _ => decide +kernel

theorem writeEngine_apg (s : State) (t : Nat) (r : ApgReg) (w : Nat) : s.writeEngine t (apgAddr t r) w = s.apgWrite t r w := by
  obtain ⟨h1, h2, -⟩ := apgOffset_bounds r
  have hreg := apgRegAt_apgAddr t r
  rw [apgAddr_eq] at hreg ⊢
  unfold State.writeEngine
  rw [if_neg (by unfold TL_SEQ_CTRL; omega), if_neg (by unfold TL_STICKY; omega), if_neg (by unfold TL_TRACE_RD; omega),
    if_neg (by unfold TL_EVIN; omega), if_neg (by unfold TL_SEG_CTRL; omega), if_neg (by unfold TL_SEG_CHECK; omega),
    if_neg (by unfold TL_CAP_CTRL; omega), if_neg (by unfold TL_FQ_CTRL; omega), if_neg (by unfold TL_ADC_CTRL; omega),
    if_neg (by simp [within, TL_TDC_CTRL]; omega), hreg]

end State

open State

theorem exec_apgWrite {v : View} {s : State} (t : Fin 64) (r : ApgReg) (w : Word) (hr : s.ready = true) (hv : directView v = true) :
    exec (.apgWrite v t r w) s = .next (s.apgWrite t.val r w.toNat) := by
  obtain ⟨h1, h2, h4⟩ := apgOffset_bounds r
  obtain ⟨d, hd⟩ := Option.isSome_iff_exists.1 (regAt_apgAddr_isSome t.isLt r)
  rw [apgAddr_eq] at hd
  have hwrite := (regWrite_tiller t.isLt (by omega) w.toNat hr hv h4 hd).trans (writeTiller_engine (by omega) w.toNat none (by omega) (by omega))
  rw [← apgAddr_eq, writeEngine_apg] at hwrite
  exact congrArg Host.Outcome.next hwrite

/-- A register but TL_APG_CTRL takes its writable bits, unless the tiller runs or stalls: WR_BUSY then sets, which is in TL_APG_CTRL. -/
theorem State.apgWrite_of_ne_ctrl (s : State) (t : Nat) {r : ApgReg} (w : Nat) (h : r ≠ .ctrl) : s.apgWrite t r w =
    if s.guarded t then s.mark (TL_APG_CTRL_WR_BUSY t) else s.setReg (apgAddr t r) (BitVec.ofNat 32 (w &&& apgMask r)) := by
  cases r with
  | ctrl => exact absurd rfl h
  | _ => rfl

section guarded
variable {v : View} {t : Fin 64} {w : Word} {s : State} (hr : s.ready = true) (hv : directView v = true)
include hr hv

theorem exec_apgWrite_free {r : ApgReg} (h : r ≠ .ctrl) (hg : s.guarded t.val = false) : ∃ u, exec (.apgWrite v t r w) s = .next u ∧
    u.reg (apgAddr t.val r) = BitVec.ofNat 32 (w.toNat &&& apgMask r) ∧ ∀ a, a ≠ apgAddr t.val r → u.reg a = s.reg a := by
  refine ⟨_, exec_apgWrite t r w hr hv, ?_⟩
  rw [apgWrite_of_ne_ctrl s t.val w.toNat h, hg, if_neg Bool.false_ne_true]
  exact ⟨reg_setReg_same .., fun a ha => reg_setReg_other s _ ha⟩

theorem exec_apgWrite_busy {r : ApgReg} (h : r ≠ .ctrl) (hg : s.guarded t.val = true) : ∃ u, exec (.apgWrite v t r w) s = .next u ∧
    u.on (TL_APG_CTRL_WR_BUSY t.val) = true ∧ ∀ a, a ≠ TL_APG_CTRL t.val → u.reg a = s.reg a := by
  refine ⟨_, exec_apgWrite t r w hr hv, ?_⟩
  rw [apgWrite_of_ne_ctrl s t.val w.toNat h, hg, if_pos rfl]
  exact ⟨on_mark_of_fits s rfl, fun a ha => reg_mark_other s (TL_APG_CTRL_WR_BUSY t.val) ha⟩

end guarded

/-! ### TL_APG_CTRL (R109) -/

namespace State

/-- The bits [2:0] of TL_APG_CTRL, which are guarded. -/
def guardedBits (t : Nat) : Field := ⟨TL_APG_CTRL t, 2, 0⟩

/-- WR_BUSY clears where a write has its bit 31 set. -/
def busyCleared (s : State) (t w : Nat) : State := if w.testBit 31 then s.put (TL_APG_CTRL_WR_BUSY t) 0 else s

theorem apgWrite_ctrl (s : State) (t w : Nat) : s.apgWrite t .ctrl w =
    if w % 8 = s.get (guardedBits t) then s.busyCleared t w
    else if s.guarded t then (s.busyCleared t w).mark (TL_APG_CTRL_WR_BUSY t) else (s.busyCleared t w).put (guardedBits t) w := rfl

section busyCleared
variable (s : State) (t w : Nat)

theorem guardedBits_busyCleared : (s.busyCleared t w).get (guardedBits t) = s.get (guardedBits t) := by
  unfold busyCleared
  split
  · exact get_put_apart s 0 rfl rfl rfl
  · rfl

theorem on_busyCleared : (s.busyCleared t w).on (TL_APG_CTRL_WR_BUSY t) = (s.on (TL_APG_CTRL_WR_BUSY t) && !w.testBit 31) := by
  unfold busyCleared
  split
  · next h => rw [h, Bool.not_true, Bool.and_false, on_put_of_fits s 0 rfl]; rfl
  · next h => rw [Bool.eq_false_iff.2 h, Bool.not_false, Bool.and_true]

theorem reg_busyCleared {a : Nat} (ha : a ≠ TL_APG_CTRL t) : (s.busyCleared t w).reg a = s.reg a := by
  unfold busyCleared
  split
  · exact reg_put_other s (TL_APG_CTRL_WR_BUSY t) 0 ha
  · rfl

end busyCleared

end State

section control
variable {v : View} {t : Fin 64} {w : Word} {s : State} (hr : s.ready = true) (hv : directView v = true)
include hr hv

/-- A write that the guard lets through. -/
theorem exec_apgWrite_ctrl_taken (h : w.toNat % 8 = s.get (guardedBits t.val) ∨ s.guarded t.val = false) : ∃ u, exec (.apgWrite v t .ctrl w) s = .next u ∧
    u.get (guardedBits t.val) = w.toNat % 8 ∧ u.on (TL_APG_CTRL_WR_BUSY t.val) = (s.on (TL_APG_CTRL_WR_BUSY t.val) && !w.toNat.testBit 31) ∧
    ∀ a, a ≠ TL_APG_CTRL t.val → u.reg a = s.reg a := by
  refine ⟨_, exec_apgWrite t .ctrl w hr hv, ?_⟩
  let q := s.busyCleared t.val w.toNat
  have hbusy := on_busyCleared s t.val w.toNat
  rw [apgWrite_ctrl]
  by_cases he : w.toNat % 8 = s.get (guardedBits t.val)
  · rw [if_pos he]
    exact ⟨(guardedBits_busyCleared ..).trans he.symm, hbusy, fun a ha => reg_busyCleared s t.val _ ha⟩
  · rw [if_neg he, h.resolve_left he, if_neg Bool.false_ne_true]
    have hapart : (q.put (guardedBits t.val) w.toNat).get (TL_APG_CTRL_WR_BUSY t.val) = q.get (TL_APG_CTRL_WR_BUSY t.val) :=
      get_put_apart q (f := guardedBits t.val) _ rfl rfl rfl
    exact ⟨get_put_of_fits q (f := guardedBits t.val) _ rfl, (on_eq_of_get hapart).trans hbusy,
      fun a ha => (reg_put_other q (guardedBits t.val) _ ha).trans (reg_busyCleared s t.val _ ha)⟩

/-- A write that the guard ignores. -/
theorem exec_apgWrite_ctrl_busy (hne : w.toNat % 8 ≠ s.get (guardedBits t.val)) (hg : s.guarded t.val = true) :
    ∃ u, exec (.apgWrite v t .ctrl w) s = .next u ∧ u.get (guardedBits t.val) = s.get (guardedBits t.val) ∧ u.on (TL_APG_CTRL_WR_BUSY t.val) = true ∧
    ∀ a, a ≠ TL_APG_CTRL t.val → u.reg a = s.reg a := by
  refine ⟨_, exec_apgWrite t .ctrl w hr hv, ?_⟩
  rw [apgWrite_ctrl, if_neg hne, if_pos hg]
  exact ⟨(get_put_apart _ (f := TL_APG_CTRL_WR_BUSY t.val) (g := guardedBits t.val) 1 rfl rfl rfl).trans (guardedBits_busyCleared ..), on_mark_of_fits _ rfl,
    fun a ha => (reg_mark_other _ (TL_APG_CTRL_WR_BUSY t.val) ha).trans (reg_busyCleared s t.val _ ha)⟩

end control

/-- Settles O29: each data operation by its result, each write by whether the guard lets it through. -/
theorem patternDataIsComputedAndGuarded : Obligations.PatternDataIsComputedAndGuarded :=
  ⟨fun t n s => ⟨⟨_, rfl, dataOp_writes s t.val 0 0 (dataResult_hold ..)⟩, ⟨_, rfl, dataOp_writes s t.val 1 0 (dataResult_inv ..)⟩,
      ⟨_, rfl, dataOp_writes s t.val 2 n.val (dataResult_bg ..)⟩, ⟨_, rfl, dataOp_writes s t.val 3 n.val (dataResult_bgi ..)⟩,
      ⟨_, rfl, dataOp_writes s t.val 4 n.val (dataResult_ckb ..)⟩, ⟨_, rfl, dataOp_writes s t.val 5 n.val (dataResult_adrb ..)⟩,
      ⟨_, rfl, dataOp_writes s t.val 6 n.val (dataResult_xorb ..)⟩, ⟨_, rfl, dataOp_writes s t.val 7 0 (dataResult_rol ..)⟩,
      ⟨_, rfl, dataOp_writes s t.val 8 0 (dataResult_ror ..)⟩, ⟨_, rfl, dataOp_writes s t.val 9 0 (dataResult_addr ..)⟩⟩,
    fun _ _ _ _ _ hr hv h => ⟨exec_apgWrite_free hr hv h, exec_apgWrite_busy hr hv h⟩,
    fun _ _ _ _ hr hv => ⟨exec_apgWrite_ctrl_taken hr hv, exec_apgWrite_ctrl_busy hr hv⟩⟩

end Sys2Proof.Machine
end

section
/-! SUPPORT. Level changes (R112 to R119) and the check of a timing-set word (R165 to R167), and O33 settled. -/

namespace Sys2Proof.Machine

/-! ### A tied comparator follows a level (R190) -/

/-- Between two states neither the level queues, nor the clock, nor level k of pin g changes. -/
structure KeepsLevel (g k : Nat) (s u : State) : Prop where
  levels : u.levels = s.levels
  ticks : u.ticks = s.ticks
  code : u.reg (PN_LVL g k) = s.reg (PN_LVL g k)

namespace KeepsLevel

open State

variable {g k : Nat} {a s : State}

theorem refl (s : State) : KeepsLevel g k s s := ⟨rfl, rfl, rfl⟩

theorem trans {u : State} (h : KeepsLevel g k a s) (h' : KeepsLevel g k s u) : KeepsLevel g k a u :=
  ⟨h'.levels.trans h.levels, h'.ticks.trans h.ticks, h'.code.trans h.code⟩

theorem ifTrue (h : KeepsLevel g k a s) {c : Prop} [Decidable c] {x : State} (h' : KeepsLevel g k s x) : KeepsLevel g k a (if c then x else s) := by
  split
  · exact h.trans h'
  · exact h

theorem ifFalse (h : KeepsLevel g k a s) {c : Prop} [Decidable c] {x : State} (h' : KeepsLevel g k s x) : KeepsLevel g k a (if c then s else x) := by
  split
  · exact h
  · exact h.trans h'

theorem foldl {β : Type} {f : State → β → State} (h : KeepsLevel g k a s) (l : List β) (hf : ∀ s x, KeepsLevel g k s (f s x)) :
    KeepsLevel g k a (l.foldl f s) := by
  induction l generalizing s with
  | nil => exact h
  | cons x r ih => exact ih (h.trans (hf s x))

theorem put (h : KeepsLevel g k a s) {f : Field} {v : Nat} (hf : PN_LVL g k ≠ f.addr) : KeepsLevel g k a (s.put f v) :=
  h.trans ⟨rfl, rfl, reg_put_other s f v hf⟩

theorem setPin (h : KeepsLevel g k a s) {n : Nat} {x : Pin} : KeepsLevel g k a (s.setPin n x) := h.trans ⟨rfl, rfl, rfl⟩

theorem fireChannel (h : KeepsLevel g k a s) {n : Nat} : KeepsLevel g k a (s.fireChannel n) := h.trans ⟨rfl, rfl, rfl⟩

theorem monitor (h : KeepsLevel g k a s) {m : Monitor} : KeepsLevel g k a { s with monitor := m } := h.trans ⟨rfl, rfl, rfl⟩

/-- The registers of the pins lie above those below 0x40000. -/
theorem ne_of_low {b : Nat} (hb : Nat.blt b 0x40000 = true) : PN_LVL g k ≠ b := by
  have := Nat.le_of_ble_eq_true hb
  unfold PN_LVL pnBase
  omega

/-- In its pin's block the level register is none of those that lie before the levels or behind them. -/
theorem ne_of_pin (hk : k < 7) {o : Nat} (ho : (Nat.blt o 0x10 || Nat.ble 0x2c o) = true) : PN_LVL g k ≠ pnBase g + o := by
  have := ((Bool.or_eq_true _ _).mp ho).imp Nat.le_of_ble_eq_true Nat.le_of_ble_eq_true
  unfold PN_LVL
  omega

section pin
variable (hg : g < 512) (hk : k < 7)
include hg hk

theorem source (h : KeepsLevel g k a s) {n : Nat} (hn : n < 2048) : KeepsLevel g k a (s.source n) := by
  refine h.trans ⟨?_, ticks_source s n, reg_source s n ?_ ?_ ?_⟩
  · obtain ⟨r, o, e⟩ := s.source_beside n
    rw [e]
  · unfold PN_LVL pnBase EV_PEND
    omega
  · unfold PN_LVL pnBase msixPending
    omega
  · unfold PN_LVL pnBase msixPending
    omega

omit hg hk in
theorem lifeModel (h : KeepsLevel g k a s) : KeepsLevel g k a s.lifeModel := ((h.put (ne_of_low rfl)).put (ne_of_low rfl)).put (ne_of_low rfl)

omit hg hk in
theorem contactCycle (h : KeepsLevel g k a s) : KeepsLevel g k a s.contactCycle :=
  (h.put (f := GL_WEAR_CONTACT_COUNT) (ne_of_low rfl)).monitor.lifeModel

omit hg hk in
theorem touchdown (h : KeepsLevel g k a s) : KeepsLevel g k a (s.touchdown g) := by
  unfold State.touchdown
  split
  · exact h.ifTrue (refl s).contactCycle
  · exact h

theorem latch (h : KeepsLevel g k a s) {hi lo : Bool} : KeepsLevel g k a (s.latch g hi lo) :=
  ((h.ifTrue ((refl _).touchdown.put (ne_of_pin hk rfl))).ifTrue ((refl _).put (ne_of_pin hk rfl))).ifTrue
    ((refl _).source hg hk (by omega)).fireChannel

theorem latchFrom (h : KeepsLevel g k a s) {n : Nat} {hi lo : Bool} : KeepsLevel g k a (s.latchFrom g n hi lo) :=
  ((h.setPin.ifTrue ((refl _).put (ne_of_pin hk rfl))).ifTrue ((refl _).put (ne_of_pin hk rfl))).latch hg hk

theorem latchClear (h : KeepsLevel g k a s) {n : Nat} : KeepsLevel g k a (s.latchClear g n) := h.ifFalse ((refl s).latchFrom hg hk)

theorem catchUp (h : KeepsLevel g k a s) {n : Nat} : KeepsLevel g k a (s.catchUp g n) := h.setPin.foldl _ fun q _ => (refl q).latchClear hg hk

theorem setOutput (h : KeepsLevel g k a s) {n : Nat} {hi above : Bool} : KeepsLevel g k a (s.setOutput g n hi above) :=
  ((((h.catchUp hg hk).setPin.put (ne_of_pin hk rfl)).put (ne_of_pin hk rfl)).latch hg hk).ifTrue (refl _).setPin

theorem followOne (h : KeepsLevel g k a s) {hi : Bool} {v : Int} : KeepsLevel g k a (s.followOne g hi v) :=
  (h.ifFalse ((refl _).setOutput hg hk)).ifTrue ((refl _).put (by cases hi <;> exact ne_of_pin hk rfl))

theorem followTie (h : KeepsLevel g k a s) : KeepsLevel g k a (s.followTie g) := by
  unfold State.followTie
  split
  · exact h
  · exact h.ifFalse (((refl s).followOne hg hk).followOne hg hk)

end pin

end KeepsLevel

namespace State

/-! ### Level changes (R112 to R119) -/

/-- The 16 bits that a driver or threshold level takes of a word. -/
theorem bits_code_mod (w : Nat) : bits w 17 0 % 2 ^ 16 = bits w 15 0 := by
  simp only [bits, Nat.shiftRight_zero]
  exact Nat.mod_mod_of_dvd w (by decide)

/-- The pin and the level that a word of R113 names, one of a driver or of a comparator. -/
theorem applyChange_level (s : State) (t : Nat) (ws : List Nat) {w : Nat} (h8 : 8 ≤ bits w 31 24) (hn : bits w 31 24 < 0x30) :
    s.applyChange t ws w =
      ((s.put (PN_LVL_CODE (8 * t + bits w 31 24 % 8) ((bits w 31 24 - 8) / 8)) (bits w 17 0)).followTie (8 * t + bits w 31 24 % 8), false, false) := by
  have hlock : s.lockedOut t (bits w 31 24) = false := by
    simp only [State.lockedOut, Bool.or_eq_false_iff, Bool.and_eq_false_iff, decide_eq_false_iff_not]
    omega
  unfold State.applyChange
  dsimp only
  rw [hlock, if_neg Bool.false_ne_true]
  split
  · omega
  · omega
  · omega
  · omega
  · rw [if_neg (by omega), decide_eq_false (by unfold targetLevel; omega)]
    rfl

@[simp] theorem lvl_advInst (s : State) (inst : Nat) : (s.advInst inst).lvl = s.lvl := lvl_advTo ..

/-- A change of one word acts at its instant, and joins the done log. -/
theorem applyLevels_level {s : State} {t : Nat} {e : LvlEntry} {r : List LvlEntry} {w : Nat} (hq : (s.lvl t).queue = e :: r) (hw : e.words = [w])
    (h8 : 8 ≤ bits w 31 24) (hn : bits w 31 24 < 0x30) :
    let s1 := (s.advInst (s.lvlInstant t e)).setLvl t { s.lvl t with queue := r, lastAt := s.lvlInstant t e, applied := [bits w 31 24] }
    let g := 8 * t + bits w 31 24 % 8
    let u := ((s1.put (PN_LVL_CODE g ((bits w 31 24 - 8) / 8)) (bits w 17 0)).followTie g).logDone t (e.entry * 2 ^ 24 + e.vidx % 65536)
    s.applyLevels t = if r.isEmpty then u.localSource t 4 else u := by
  have hlast : lastWords [w] = [w] := by
    have h0 : bits w 31 24 ≠ 0 := by omega
    simp [lastWords, h0]
  unfold State.applyLevels
  rw [hq]
  dsimp only
  rw [hw, hlast]
  simp [applyChange_level _ t _ h8 hn, b2n]

end State

open State

section levels
variable {t : Fin 64} {s : State}

theorem exec_levelApply {e : LvlEntry} {r : List LvlEntry} {w : Nat} (hq : (s.lvl t.val).queue = e :: r) (hw : e.words = [w])
    (h8 : 8 ≤ bits w 31 24) (hn : bits w 31 24 < 0x30) (hroom : (s.lvl t.val).done.length < 16) :
    ∃ u, exec (.levelApply t) s = .next u ∧ u.get (PN_LVL_CODE (8 * t.val + bits w 31 24 % 8) ((bits w 31 24 - 8) / 8)) = bits w 15 0 ∧
      (u.lvl t.val).queue = r ∧ (u.lvl t.val).done = (s.lvl t.val).done ++ [e.entry * 2 ^ 24 + e.vidx % 65536] ∧
      u.ticks = max s.ticks (s.lvlInstant t.val e / 1280) := by
  let x : Levels := { s.lvl t.val with queue := r, lastAt := s.lvlInstant t.val e, applied := [bits w 31 24] }
  let s1 := (s.advInst (s.lvlInstant t.val e)).setLvl t.val x
  let g := 8 * t.val + bits w 31 24 % 8
  let k := (bits w 31 24 - 8) / 8
  let q := (s1.put (PN_LVL_CODE g k) (bits w 17 0)).followTie g
  let word := e.entry * 2 ^ 24 + e.vidx % 65536
  have hkeep : KeepsLevel g k (s1.put (PN_LVL_CODE g k) (bits w 17 0)) q := (KeepsLevel.refl _).followTie (by omega) (by omega)
  have hlvl : q.lvl t.val = x := (congrArg (storeGet (fun _ => Levels.reset) · t.val) hkeep.levels).trans (lvl_setLvl_same ..)
  have hlog : q.logDone t.val word = q.setLvl t.val { x with done := x.done ++ [word] } := by
    rw [State.logDone, hlvl]
    exact if_neg (Nat.not_le.2 hroom)
  have hcode : q.get (PN_LVL_CODE g k) = bits w 15 0 :=
    (get_eq_of_reg (f := PN_LVL_CODE g k) hkeep.code).trans ((get_put_of_fits s1 _ rfl).trans (bits_code_mod w))
  have hticks : q.ticks = max s.ticks (s.lvlInstant t.val e / 1280) := hkeep.ticks.trans (ticks_advTo ..)
  have hend : s.applyLevels t.val = if r.isEmpty then (q.setLvl t.val { x with done := x.done ++ [word] }).localSource t.val 4
      else q.setLvl t.val { x with done := x.done ++ [word] } := by
    rw [← hlog]
    exact applyLevels_level hq hw h8 hn
  have hset : (q.setLvl t.val { x with done := x.done ++ [word] }).lvl t.val = { x with done := x.done ++ [word] } := lvl_setLvl_same ..
  refine ⟨_, congrArg Host.Outcome.next hend, ?_⟩
  split <;> exact ⟨hcode, congrArg Levels.queue hset, congrArg Levels.done hset, hticks⟩

end levels

/-! ### Words of timing sets (R165 to R167) -/

theorem State.timingReason_lt (s : State) (t k off w : Nat) : s.timingReason t k off w < 8 := by
  unfold State.timingReason
  split_ifs <;> decide

/-- What a set reports of a word refused: that there is one, the reason, its place. -/
theorem report_fields {c o : Nat} (hc : c < 8) (ho : o < 512) :
    let n := (BitVec.ofNat 32 (2 ^ 31 + c * 2 ^ 28 + o)).toNat
    bits n 31 31 = 1 ∧ bits n 30 28 = c ∧ bits n 8 0 = o := by
  simp only [bits, BitVec.toNat_ofNat, Nat.shiftRight_eq_div_pow]
  omega

section timing
variable {v : View} {t k : Fin 64} {off : Fin 512} {w : Word} {s : State} (hr : s.ready = true) (h4 : off.val % 4 = 0) (h8 : off.val ≠ 8)
  (hw : State.timingWord off.val = true)
include hr h4 h8 hw

/-- A word that holds something meets the check, whatever view writes it. -/
theorem exec_timingSetWrite : exec (.timingSetWrite v t k off w) s = .next (if s.timingReason t.val k.val off.val w.toNat = 0
    then s.setReg (tsAddr t.val k.val off.val) w
    else s.setReg (tsAddr t.val k.val 8) (BitVec.ofNat 32 (2 ^ 31 + s.timingReason t.val k.val off.val w.toNat * 2 ^ 28 + off.val))) := by
  have hplace : (tsAddr t.val k.val off.val - 0x100000) / 0x8000 = t.val ∧ (tsAddr t.val k.val off.val - 0x100000) % 0x8000 / 0x200 = k.val ∧
      tsAddr t.val k.val off.val % 0x200 = off.val ∧ tsAddr t.val k.val off.val % 4 = 0 ∧ 0x100000 ≤ tsAddr t.val k.val off.val ∧
      tsAddr t.val k.val off.val < 0x300000 := by
    unfold tsAddr
    omega
  obtain ⟨ht, hk, hoff, hmod, hlow, hhigh⟩ := hplace
  refine congrArg Host.Outcome.next ?_
  rw [State.regWrite, regWriteWith_table s v _ none (reachable_of_ready hr _) hmod (isTable_eq_true hlow (by omega)), State.writeTable, if_pos hhigh, ht, hk,
    hoff, State.timingWrite, if_neg h8, hw, BitVec.ofNat_toNat, BitVec.setWidth_eq]
  rfl

theorem exec_timingSetWrite_stored (h : s.timingReason t.val k.val off.val w.toNat = 0) : ∃ u, exec (.timingSetWrite v t k off w) s = .next u ∧
    u.reg (tsAddr t.val k.val off.val) = w ∧ ∀ a, a ≠ tsAddr t.val k.val off.val → u.reg a = s.reg a := by
  refine ⟨_, exec_timingSetWrite hr h4 h8 hw, ?_⟩
  rw [if_pos h]
  exact ⟨reg_setReg_same .., fun a ha => reg_setReg_other s _ ha⟩

theorem exec_timingSetWrite_refused (h : s.timingReason t.val k.val off.val w.toNat ≠ 0) : ∃ u, exec (.timingSetWrite v t k off w) s = .next u ∧
    bits (u.reg (tsAddr t.val k.val 8)).toNat 31 31 = 1 ∧
    bits (u.reg (tsAddr t.val k.val 8)).toNat 30 28 = s.timingReason t.val k.val off.val w.toNat ∧
    bits (u.reg (tsAddr t.val k.val 8)).toNat 8 0 = off.val ∧ ∀ a, a ≠ tsAddr t.val k.val 8 → u.reg a = s.reg a := by
  refine ⟨_, exec_timingSetWrite hr h4 h8 hw, ?_⟩
  obtain ⟨hbit, hreason, hword⟩ := report_fields (timingReason_lt s t.val k.val off.val w.toNat) off.isLt
  rw [if_neg h, reg_setReg_same]
  exact ⟨hbit, hreason, hword, fun a ha => reg_setReg_other s _ ha⟩

end timing

/-- Settles O33: the level change by its one word, a word of a timing set by the outcome of its check. -/
theorem levelsAndTimingSetsChange : Obligations.LevelsAndTimingSetsChange :=
  ⟨fun _ _ _ _ _ hq hw h8 hn _ hroom => exec_levelApply hq hw h8 hn hroom,
    fun _ _ _ _ _ _ hr h4 h8 hw => ⟨exec_timingSetWrite_stored hr h4 h8 hw, exec_timingSetWrite_refused hr h4 h8 hw⟩⟩

end Sys2Proof.Machine
end

section
/-! SUPPORT. The ADC of a tiller (R120, R301 to R316), and O47 settled. -/

namespace Sys2Proof.Machine

namespace State

/-! ### Registers of the ADC -/

theorem tl_registers_ne (t : Nat) {a b : Nat} (h : a ≠ b) : tlBase t + a ≠ tlBase t + b := fun e => h (Nat.add_left_cancel e)

theorem on_put_apart (s : State) {f g : Field} (v : Nat) (hf : f.fits = true) (ha : g.addr = f.addr) (h : g.apart f = true) :
    (s.put f v).on g = s.on g := on_eq_of_get (get_put_apart s v hf ha h)

/-- A signal to the host changes no register of a tiller. -/
theorem reg_source_tiller (s : State) (n : Nat) {t o : Nat} (hn : n < 2048) (ht : t < 64) (ho : o < 0x800) :
    (s.source n).reg (tlBase t + o) = s.reg (tlBase t + o) :=
  reg_source s n (by unfold tlBase EV_PEND; omega) (by unfold tlBase msixPending; omega) (by unfold tlBase msixPending; omega)

theorem adc_source (s : State) (n : Nat) : (s.source n).adc = s.adc := by
  obtain ⟨r, o, e⟩ := s.source_beside n
  rw [e]
  rfl

@[simp] theorem adc_advInst (s : State) (inst : Nat) : (s.advInst inst).adc = s.adc := adc_advTo ..

/-! ### A burst begins (R305, R308) -/

/-- The ADC takes on a burst, and its status shows so. -/
def burstShown (s : State) (t : Nat) (x : Adc) (left : Nat) (rejected : Bool) : State :=
  let q := ((s.setAdc t x).put (TL_ADC_STAT_SETTLE_LEFT t) left).mark (TL_ADC_STAT_BUSY t)
  if rejected then q.mark (TL_ADC_STAT_BUF_REJ t) else q

section burstShown
variable (s : State) (t : Nat) (x : Adc) (left : Nat) (rejected : Bool)

@[simp] theorem adc_burstShown : (s.burstShown t x left rejected).adc t = x := by
  unfold burstShown
  dsimp only
  split <;> simp [State.mark]

@[simp] theorem ticks_burstShown : (s.burstShown t x left rejected).ticks = s.ticks := by
  unfold burstShown
  dsimp only
  split <;> simp [State.mark]

theorem on_busy_burstShown : (s.burstShown t x left rejected).on (TL_ADC_STAT_BUSY t) = true := by
  unfold burstShown
  dsimp only
  split
  · exact (on_put_apart _ (f := TL_ADC_STAT_BUF_REJ t) (g := TL_ADC_STAT_BUSY t) 1 rfl rfl rfl).trans (on_mark_of_fits _ rfl)
  · exact on_mark_of_fits _ rfl

theorem on_held_burstShown : (s.burstShown t x left rejected).on (TL_ADC_STAT_HELD t) = s.on (TL_ADC_STAT_HELD t) := by
  have hq : (((s.setAdc t x).put (TL_ADC_STAT_SETTLE_LEFT t) left).mark (TL_ADC_STAT_BUSY t)).on (TL_ADC_STAT_HELD t) = s.on (TL_ADC_STAT_HELD t) :=
    (on_put_apart _ (f := TL_ADC_STAT_BUSY t) (g := TL_ADC_STAT_HELD t) 1 rfl rfl rfl).trans
      (on_put_apart (s.setAdc t x) (f := TL_ADC_STAT_SETTLE_LEFT t) (g := TL_ADC_STAT_HELD t) left rfl rfl rfl)
  unfold burstShown
  dsimp only
  split
  · exact (on_put_apart _ (f := TL_ADC_STAT_BUF_REJ t) (g := TL_ADC_STAT_HELD t) 1 rfl rfl rfl).trans hq
  · exact hq

end burstShown

/-- A burst that begins is of the settings in force, and joins those before it. -/
theorem beginBurst_eq (s : State) (t inst count : Nat) : ∃ b p left rejected,
    s.beginBurst t inst count = s.burstShown t { s.adc t with bursts := (s.adc t).bursts ++ [b], prev := p } left rejected ∧
    b.count = max 1 count ∧ b.input = s.get (TL_ADC_CFG_INPUT t) ∧ b.trigAt = inst ∧ b.started = 0 :=
  ⟨_, _, _, _, rfl, rfl, rfl, rfl, rfl⟩

/-! ### The burst at the front is published (R313, R316) -/

/-- The word of the last result, VALID and the number of the burst. -/
def resultShown (s : State) (t : Nat) (last : Option Nat) : State :=
  ((last.elim s (fun w => s.setReg (TL_ADC_RES_LO t) (BitVec.ofNat 32 w))).mark (TL_ADC_RES_HI_VALID t)).wrapUp (TL_ADC_RES_HI_SEQ t)

/-- The statistics of a burst. -/
def statisticsShown (s : State) (t : Nat) (b : Burst) : State :=
  let sum := unsigned 64 b.sum
  let s1 := (s.setReg (TL_ADC_SUM_LO t) (BitVec.ofNat 32 sum)).setReg (TL_ADC_SUM_HI t) (BitVec.ofNat 32 (sum / 2 ^ 32))
  let s2 := (s1.put (TL_ADC_MINMAX_MIN t) (unsigned 16 b.least)).put (TL_ADC_MINMAX_MAX t) (unsigned 16 b.most)
  (s2.put (TL_ADC_NUSED_N_TOTAL t) b.total).put (TL_ADC_NUSED_N_USED t) b.used

/-- The status of an ADC after a burst: aborted or not, busy with another or not. -/
def statusShown (s : State) (t : Nat) (aborted : Bool) : State :=
  let q := if aborted then s.mark (TL_ADC_STAT_ABORTED t) else s
  q.put (TL_ADC_STAT_BUSY t) (b2n (!(q.adc t).bursts.isEmpty))

section publish
variable (s : State) (t : Nat)

@[simp] theorem adc_resultShown (last : Option Nat) : (s.resultShown t last).adc = s.adc := by
  cases last <;> simp [resultShown, State.wrapUp, State.mark]
@[simp] theorem adc_statisticsShown (b : Burst) : (s.statisticsShown t b).adc = s.adc := by simp [statisticsShown]
@[simp] theorem adc_statusShown (aborted : Bool) : (s.statusShown t aborted).adc = s.adc := by
  cases aborted <;> simp [statusShown, State.mark]

@[simp] theorem ticks_resultShown (last : Option Nat) : (s.resultShown t last).ticks = s.ticks := by
  cases last <;> simp [resultShown, State.wrapUp, State.mark]
@[simp] theorem ticks_statisticsShown (b : Burst) : (s.statisticsShown t b).ticks = s.ticks := by simp [statisticsShown]
@[simp] theorem ticks_statusShown (aborted : Bool) : (s.statusShown t aborted).ticks = s.ticks := by
  cases aborted <;> simp [statusShown, State.mark]

theorem reg_lo_resultShown (w : Nat) : (s.resultShown t (some w)).reg (TL_ADC_RES_LO t) = BitVec.ofNat 32 w := by
  have hne : TL_ADC_RES_LO t ≠ TL_ADC_RES_HI t := tl_registers_ne t (by decide)
  exact (reg_wrapUp_other _ (TL_ADC_RES_HI_SEQ t) hne).trans ((reg_mark_other _ (TL_ADC_RES_HI_VALID t) hne).trans (reg_setReg_same ..))

theorem on_valid_resultShown (last : Option Nat) : (s.resultShown t last).on (TL_ADC_RES_HI_VALID t) = true :=
  (on_put_apart _ (f := TL_ADC_RES_HI_SEQ t) (g := TL_ADC_RES_HI_VALID t) _ rfl rfl rfl).trans (on_mark_of_fits _ rfl)

theorem seq_resultShown (last : Option Nat) : (s.resultShown t last).get (TL_ADC_RES_HI_SEQ t) = (s.get (TL_ADC_RES_HI_SEQ t) + 1) % 2 ^ 16 := by
  let q := last.elim s (fun w => s.setReg (TL_ADC_RES_LO t) (BitVec.ofNat 32 w))
  have hq : q.reg (TL_ADC_RES_HI t) = s.reg (TL_ADC_RES_HI t) := by
    cases last with
    | none => rfl
    | some w => exact reg_setReg_other s _ (tl_registers_ne t (by decide))
  have hold : (q.mark (TL_ADC_RES_HI_VALID t)).get (TL_ADC_RES_HI_SEQ t) = s.get (TL_ADC_RES_HI_SEQ t) :=
    (get_put_apart q (f := TL_ADC_RES_HI_VALID t) (g := TL_ADC_RES_HI_SEQ t) 1 rfl rfl rfl).trans (get_eq_of_reg (f := TL_ADC_RES_HI_SEQ t) hq)
  rw [← hold]
  exact get_put_of_fits _ _ rfl

/-- The statistics stand behind the result. -/
theorem reg_statisticsShown (b : Burst) {o : Nat} (ho : o < 0x420) : (s.statisticsShown t b).reg (tlBase t + o) = s.reg (tlBase t + o) := by
  have hne {p : Nat} (hp : 0x420 ≤ p) : tlBase t + o ≠ tlBase t + p := tl_registers_ne t (by omega)
  unfold statisticsShown
  dsimp only
  rw [reg_put_other _ (TL_ADC_NUSED_N_USED t) _ (hne (by decide)), reg_put_other _ (TL_ADC_NUSED_N_TOTAL t) _ (hne (by decide)),
    reg_put_other _ (TL_ADC_MINMAX_MAX t) _ (hne (by decide)), reg_put_other _ (TL_ADC_MINMAX_MIN t) _ (hne (by decide)),
    reg_setReg_other _ _ (show _ ≠ TL_ADC_SUM_HI t from hne (by decide)), reg_setReg_other _ _ (show _ ≠ TL_ADC_SUM_LO t from hne (by decide))]

theorem reg_statusShown (aborted : Bool) {a : Nat} (ha : a ≠ TL_ADC_STAT t) : (s.statusShown t aborted).reg a = s.reg a := by
  cases aborted with
  | false => exact reg_put_other s (TL_ADC_STAT_BUSY t) _ ha
  | true => exact (reg_put_other _ (TL_ADC_STAT_BUSY t) _ ha).trans (reg_mark_other s (TL_ADC_STAT_ABORTED t) ha)

theorem on_busy_statusShown (aborted : Bool) : (s.statusShown t aborted).on (TL_ADC_STAT_BUSY t) = !(s.adc t).bursts.isEmpty := by
  have hq : (if aborted then s.mark (TL_ADC_STAT_ABORTED t) else s).adc = s.adc := by
    cases aborted <;> simp [State.mark]
  unfold statusShown
  dsimp only
  rw [on_put_of_fits _ _ (by rfl), hq]
  cases (s.adc t).bursts.isEmpty <;> rfl

theorem on_aborted_statusShown : (s.statusShown t true).on (TL_ADC_STAT_ABORTED t) = true :=
  (on_put_apart _ (f := TL_ADC_STAT_BUSY t) (g := TL_ADC_STAT_ABORTED t) _ rfl rfl rfl).trans (on_mark_of_fits _ rfl)

end publish

/-- How many words of a burst its buffer holds (R315). -/
def storedWords (b : Burst) : Nat := b.buffer.elim 0 (fun p => min b.total p.2)

/-- A burst that is published writes its last line, shows its result and its statistics, and leaves the ADC. -/
theorem publishBurst_eq (s : State) (t : Nat) (b : Burst) : s.publishBurst t b =
    ((((((s.flushLine b (storedWords b)).setAdc t { s.adc t with bursts := (s.adc t).bursts.drop 1 }).resultShown t b.last).statisticsShown t b).statusShown t
      b.aborted).localSource t 1).tlSource t 6 := by
  rcases hb : b.buffer with _ | ⟨base, len⟩ <;> cases hl : b.last <;> cases ha : b.aborted <;>
    simp only [State.publishBurst, resultShown, statisticsShown, statusShown, storedWords, hb, hl, ha, Option.elim, if_true, Bool.false_eq_true, if_false]

theorem flushLine_of_buffer_none (s : State) {b : Burst} (h : b.buffer = none) (stored : Nat) : s.flushLine b stored = s := by
  rw [State.flushLine, h]

/-- What the publication of burst b does to the ADC and its registers. -/
structure Published (s : State) (t : Nat) (b : Burst) (u : State) : Prop where
  adc : u.adc t = { s.adc t with bursts := (s.adc t).bursts.drop 1 }
  valid : u.on (TL_ADC_RES_HI_VALID t) = true
  aborted : b.aborted = true → u.on (TL_ADC_STAT_ABORTED t) = true
  busy : u.on (TL_ADC_STAT_BUSY t) = !((s.adc t).bursts.drop 1).isEmpty
  result : ∀ w, b.last = some w → u.reg (TL_ADC_RES_LO t) = BitVec.ofNat 32 w
  seq : b.buffer = none → u.get (TL_ADC_RES_HI_SEQ t) = (s.get (TL_ADC_RES_HI_SEQ t) + 1) % 2 ^ 16
  ticks : b.buffer = none → u.ticks = s.ticks

/-- The burst's registers shown one after another leave what was shown before. -/
theorem published_shown (s : State) (t : Nat) (b : Burst) : s.Published t b
    (((((s.flushLine b (storedWords b)).setAdc t { s.adc t with bursts := (s.adc t).bursts.drop 1 }).resultShown t b.last).statisticsShown t b).statusShown t
      b.aborted) := by
  generalize hq : (s.flushLine b (storedWords b)).setAdc t { s.adc t with bursts := (s.adc t).bursts.drop 1 } = q
  have hadc : q.adc t = { s.adc t with bursts := (s.adc t).bursts.drop 1 } := by
    rw [← hq, adc_setAdc_same]
  have hi : (((q.resultShown t b.last).statisticsShown t b).statusShown t b.aborted).reg (TL_ADC_RES_HI t) = (q.resultShown t b.last).reg (TL_ADC_RES_HI t) :=
    (reg_statusShown _ t _ (tl_registers_ne t (by decide))).trans (reg_statisticsShown _ t b (by decide))
  have lo : (((q.resultShown t b.last).statisticsShown t b).statusShown t b.aborted).reg (TL_ADC_RES_LO t) = (q.resultShown t b.last).reg (TL_ADC_RES_LO t) :=
    (reg_statusShown _ t _ (tl_registers_ne t (by decide))).trans (reg_statisticsShown _ t b (by decide))
  exact {
    adc := by simp [hadc]
    valid := (on_eq_of_get (get_eq_of_reg (f := TL_ADC_RES_HI_VALID t) hi)).trans (on_valid_resultShown ..)
    aborted := fun h => by
      rw [h]
      exact on_aborted_statusShown ..
    busy := by
      rw [on_busy_statusShown]
      simp [hadc]
    result := fun w h => by
      rw [lo, h]
      exact reg_lo_resultShown ..
    seq := fun h => by
      rw [get_eq_of_reg (f := TL_ADC_RES_HI_SEQ t) hi, seq_resultShown, ← hq, flushLine_of_buffer_none s h, get_setAdc]
    ticks := fun h => by
      simp [← hq, flushLine_of_buffer_none s h] }

/-- Signals of the ADC's completion change nothing of it. -/
theorem Published.signalled {s u : State} {t : Nat} {b : Burst} (ht : t < 64) (h : s.Published t b u) :
    s.Published t b ((u.localSource t 1).tlSource t 6) := by
  have hreg {o : Nat} (ho : o < 0x800) : ((u.localSource t 1).tlSource t 6).reg (tlBase t + o) = u.reg (tlBase t + o) :=
    reg_source_tiller (u.localSource t 1) (16 * t + 6) (by omega) ht ho
  have hon {f : Field} {o : Nat} (hf : f.addr = tlBase t + o) (ho : o < 0x800) : ((u.localSource t 1).tlSource t 6).get f = u.get f := by
    refine get_eq_of_reg ?_
    rw [hf]
    exact hreg ho
  exact {
    adc := (congrFun (adc_source (u.localSource t 1) (16 * t + 6)) t).trans h.adc
    valid := (on_eq_of_get (hon (f := TL_ADC_RES_HI_VALID t) rfl (by decide))).trans h.valid
    aborted := fun ha => (on_eq_of_get (hon (f := TL_ADC_STAT_ABORTED t) rfl (by decide))).trans (h.aborted ha)
    busy := (on_eq_of_get (hon (f := TL_ADC_STAT_BUSY t) rfl (by decide))).trans h.busy
    result := fun w hw => (hreg (by decide)).trans (h.result w hw)
    seq := fun hb => (hon (f := TL_ADC_RES_HI_SEQ t) rfl (by decide)).trans (h.seq hb)
    ticks := fun hb => (ticks_source (s := u.localSource t 1) ..).trans (h.ticks hb) }

theorem published_publishBurst (s : State) {t : Nat} (ht : t < 64) (b : Burst) : s.Published t b (s.publishBurst t b) := by
  rw [publishBurst_eq]
  exact (published_shown s t b).signalled ht

/-! ### Triggers (R305, R307, R316) -/

/-- A burst that begins in an idle ADC is its only one. -/
theorem beginBurst_joins (s : State) (t inst count : Nat) : ∃ b, (s.beginBurst t inst count).adc t =
    { s.adc t with bursts := (s.adc t).bursts ++ [b], prev := ((s.beginBurst t inst count).adc t).prev } ∧
    b.count = max 1 count ∧ b.input = s.get (TL_ADC_CFG_INPUT t) ∧ b.trigAt = inst ∧ b.started = 0 ∧
    (s.beginBurst t inst count).on (TL_ADC_STAT_BUSY t) = true ∧ (s.beginBurst t inst count).on (TL_ADC_STAT_HELD t) = s.on (TL_ADC_STAT_HELD t) ∧
    (s.beginBurst t inst count).ticks = s.ticks := by
  obtain ⟨b, p, left, rejected, h, hcount, hinput, htrig, hstarted⟩ := s.beginBurst_eq t inst count
  refine ⟨b, ?_, hcount, hinput, htrig, hstarted, ?_, ?_, ?_⟩
  · rw [h, adc_burstShown]
  · rw [h, on_busy_burstShown]
  · rw [h, on_held_burstShown]
  · rw [h, ticks_burstShown]

section trigger
variable {s : State} {t : Nat} (inst count : Nat)

theorem adcTrigger_of_idle (h : (s.adc t).bursts = []) : s.adcTrigger t inst count = s.beginBurst t inst count := by
  simp [State.adcTrigger, h]

theorem adcTrigger_of_busy (h : (s.adc t).bursts ≠ []) (hheld : (s.adc t).held = none) :
    s.adcTrigger t inst count = (s.setAdc t { s.adc t with held := some (inst, count) }).mark (TL_ADC_STAT_HELD t) := by
  simp [State.adcTrigger, h, hheld]

theorem adcTrigger_of_held (h : (s.adc t).bursts ≠ []) (hheld : (s.adc t).held.isSome = true) :
    s.adcTrigger t inst count = s.bump (TL_ADC_CNT_OVERRUN t) := by
  simp [State.adcTrigger, h, hheld]

/-- An abort of one burst with no conversion in progress publishes it at once. -/
theorem adcAbort_of_no_conv {b : Burst} (h : (s.adc t).bursts = [b]) (hc : b.convs = []) :
    let b1 := { b with count := b.started, aborted := true }
    s.adcAbort t = (((s.setAdc t { s.adc t with held := none }).put (TL_ADC_STAT_HELD t) 0).setAdc t { s.adc t with held := none, bursts := [b1] }).publishBurst t b1 := by
  simp [State.adcAbort, h, hc, putLast]

end trigger

/-! ### TL_ADC_CTRL -/

/-- The row of TL_ADC_CTRL in the register tables. -/
def adcCtrlRow : RegD := ⟨0x400, 1, 4, 1, 4, [⟨0, 0, .rw, false, 0⟩, ⟨1, 1, .wo, false, 0⟩, ⟨2, 2, .wo, false, 0⟩]⟩

/-- TRIG and ABORT are its bits 1 and 2. -/
def adcCommand (t i : Nat) : Field := ⟨TL_ADC_CTRL t, i, i⟩

/-- What a command of TL_ADC_CTRL finds: the written register as it was, and no REF_READY without a reference. -/
def adcCommanded (s : State) (t : Nat) : State := (s.setReg (TL_ADC_CTRL t) (s.reg (TL_ADC_CTRL t))).afterRef t (s.refOn t)

section adcCommanded
variable (s : State) (t : Nat)

theorem adcCommanded_eq : s.adcCommanded t =
    if s.refOn t then s.setReg (TL_ADC_CTRL t) (s.reg (TL_ADC_CTRL t)) else (s.setReg (TL_ADC_CTRL t) (s.reg (TL_ADC_CTRL t))).put (TL_ADC_STAT_REF_READY t) 0 := by
  have hon (f : Field) : (s.setReg (TL_ADC_CTRL t) (s.reg (TL_ADC_CTRL t))).on f = s.on f :=
    on_eq_of_get (get_eq_of_reg (congrFun (reg_setReg_self s _) _))
  have href : (s.setReg (TL_ADC_CTRL t) (s.reg (TL_ADC_CTRL t))).refOn t = s.refOn t := by
    simp only [State.refOn, hon]
  rw [adcCommanded, State.afterRef, href]
  split <;> rfl

@[simp] theorem adc_adcCommanded : (s.adcCommanded t).adc = s.adc := by
  rw [adcCommanded_eq]
  split <;> simp

@[simp] theorem ticks_adcCommanded : (s.adcCommanded t).ticks = s.ticks := by
  rw [adcCommanded_eq]
  split <;> simp

theorem reg_adcCommanded {a : Nat} (h : a ≠ TL_ADC_STAT t) : (s.adcCommanded t).reg a = s.reg a := by
  rw [adcCommanded_eq]
  split
  · rw [reg_setReg_self]
  · exact (reg_put_other _ (TL_ADC_STAT_REF_READY t) _ h).trans (congrFun (reg_setReg_self s _) a)

end adcCommanded

section adcCtrl
variable {s : State} {v : View} {t : Nat} (ht : t < 64)

theorem writeEngine_adcCtrl (s : State) (t w : Nat) : s.writeEngine t (TL_ADC_CTRL t) w = s.writeAdcCtrl t w := by
  simp [State.writeEngine, TL_ADC_CTRL, TL_SEQ_CTRL, TL_STICKY, TL_TRACE_RD, TL_EVIN, TL_SEG_CTRL, TL_SEG_CHECK, TL_CAP_CTRL, TL_FQ_CTRL]

include ht

theorem regAt_adcCtrl : regAt (TL_ADC_CTRL t) = some adcCtrlRow := by
  rw [TL_ADC_CTRL, regAt_tiller ht (by decide)]
  decide +kernel

theorem shown_adcCtrl : s.shown (TL_ADC_CTRL t) = (s.reg (TL_ADC_CTRL t)).toNat := by
  have hunit : s.shownTiller t (tlBase t + 0x400) = [] := by
    simp only [State.shownTiller, TL_FLAGS, TL_SUP_CTRL, TL_APG_PX, TL_APG_PY, TL_LVL_STAT, TL_STRM_STAT, TL_CAP_STAT, TL_FQ_STAT, TL_ADC_STAT, Nat.add_assoc]
    simp
  rw [State.shown, TL_ADC_CTRL, shownFields_tiller ht (by decide), hunit]
  rfl

theorem fieldTakes_adcCtrl : ∀ x ∈ adcCtrlRow.flds, ∀ n, fieldTakes (kindOf (TL_ADC_CTRL t)) x.lo n = some n := by
  have free : ∀ x ∈ adcCtrlRow.flds, fieldLimits.find? (fun e => e.1 = 0x40000 + 0x400 && e.2.1 = x.lo) = none ∧ arrayLimit (0x40000 + 0x400) x.lo = none := by
    decide +kernel
  rw [TL_ADC_CTRL, kindOf_tiller ht (by decide)]
  exact fun x hx => fieldTakes_of_free (free x hx).1 (free x hx).2

/-- Of the two command bits the word holds the one that is given. -/
theorem testBit_adcCommand {i j : Nat} (hi : i = 1 ∨ i = 2) (hj : j = 1 ∨ j = 2) :
    (s.mergedWord adcCtrlRow (adcCommand t i) 1).testBit j = decide (j = i) := by
  have hd := regAt_adcCtrl ht
  have hf : (adcCommand t i).fits = true := by
    obtain rfl | rfl := hi <;> rfl
  have hx : (⟨j, j, .wo, false, 0⟩ : FieldD) ∈ adcCtrlRow.flds := by
    obtain rfl | rfl := hj <;> simp [adcCtrlRow]
  have hbit : (s.mergedWord adcCtrlRow (adcCommand t i) 1).testBit j = (bits (s.mergedWord adcCtrlRow (adcCommand t i) 1) j j).testBit 0 := by
    rw [testBit_bits, decide_eq_true (by omega), Bool.true_and, Nat.add_zero]
  rw [hbit]
  obtain rfl | hne := eq_or_ne j i
  · rw [show bits (s.mergedWord adcCtrlRow (adcCommand t j) 1) j j = 1 from
      bits_mergedWord (f := adcCommand t j) s hd hf (show 1 < 2 ^ (j + 1 - j) by rw [Nat.add_sub_cancel_left]; decide), decide_eq_true rfl]
    rfl
  · rw [bits_mergedWord_zero (f := adcCommand t i) s 1 hd hf hx (Nat.lt_or_gt_of_ne hne) rfl, decide_eq_false hne]
    rfl

/-- A command writes its bit alone. -/
theorem mergeField_adcCommand (hr : s.ready = true) (hv : directView v = true) {i : Nat} (hi : i = 1 ∨ i = 2) : s.mergeField v (adcCommand t i) 1 =
    ((s.adcCommanded t).andThen (decide (2 = i)) (adcAbort · t)).andThen (decide (1 = i)) (fun s => s.adcTrigger t s.now (s.get (TL_ADC_BURST_COUNT t))) := by
  have hd := regAt_adcCtrl ht
  have hf : (adcCommand t i).fits = true := by
    obtain rfl | rfl := hi <;> rfl
  have hwo : ∀ x ∈ adcCtrlRow.flds, (x.hi < (adcCommand t i).lo ∨ (adcCommand t i).hi < x.lo) ∨ x.acc = .wo := by
    obtain rfl | rfl := hi <;> simp [adcCtrlRow, adcCommand]
  have hstore : s.storeWord (TL_ADC_CTRL t) (s.mergedWord adcCtrlRow (adcCommand t i) 1) = s.setReg (TL_ADC_CTRL t) (s.reg (TL_ADC_CTRL t)) :=
    storeWord_mergedWord s (f := adcCommand t i) 1 hd hf (shown_adcCtrl ht) hwo (fieldTakes_adcCtrl ht)
  rw [mergeField_tiller ht (o := 0x400) (f := adcCommand t i) (by decide) 1 hr hv rfl rfl hd]
  refine (writeTiller_engine (by decide) _ none (by decide) (by decide)).trans ((writeEngine_adcCtrl s t _).trans ?_)
  rw [State.writeAdcCtrl, hstore, testBit_adcCommand ht hi (.inr rfl), testBit_adcCommand ht hi (.inl rfl)]
  rfl

theorem mergeField_adcTrig (hr : s.ready = true) (hv : directView v = true) :
    s.mergeField v (TL_ADC_CTRL_TRIG t) 1 = (s.adcCommanded t).adcTrigger t s.now (s.get (TL_ADC_BURST_COUNT t)) := by
  have hnow : (s.adcCommanded t).now = s.now := congrArg (· * 1280) (ticks_adcCommanded s t)
  have hcount : (s.adcCommanded t).get (TL_ADC_BURST_COUNT t) = s.get (TL_ADC_BURST_COUNT t) :=
    get_eq_of_reg (f := TL_ADC_BURST_COUNT t) (reg_adcCommanded s t (tl_registers_ne t (by decide)))
  have hmerge : s.mergeField v (TL_ADC_CTRL_TRIG t) 1 = _ := mergeField_adcCommand ht hr hv (.inl rfl)
  rw [hmerge, State.andThen, State.andThen, decide_eq_true rfl, decide_eq_false (by decide), if_pos rfl, if_neg Bool.false_ne_true, hnow, hcount]

theorem mergeField_adcAbort (hr : s.ready = true) (hv : directView v = true) : s.mergeField v (TL_ADC_CTRL_ABORT t) 1 = (s.adcCommanded t).adcAbort t := by
  have hmerge : s.mergeField v (TL_ADC_CTRL_ABORT t) 1 = _ := mergeField_adcCommand ht hr hv (.inr rfl)
  rw [hmerge, State.andThen, State.andThen, decide_eq_true rfl, decide_eq_false (by decide), if_pos rfl, if_neg Bool.false_ne_true]

end adcCtrl

/-! ### Conversions (R302, R303, R306, R308) -/

/-- The instant of a conversion's start: the first one allowed, or during a calibration step the given one within its bound. -/
def convInstant (s : State) (t : Nat) (b : Burst) (at_ : Nat) : Nat :=
  (s.calTl t).stepEnd.elim (s.convEarliest t b) fun e => s.clearOf t 1 (s.clearOf t 0 (max (s.convEarliest t b) (min at_ (e * 1280 + 32000))))

/-- The instant at which a burst's next conversion is due. -/
def convNominal (b : Burst) : Nat := b.trigAt + b.started * b.period * 1280

/-- The conversion that burst b starts now, at an instant. -/
def convBegun (s : State) (t : Nat) (b : Burst) (inst : Nat) : Conv :=
  ⟨inst, decide (convNominal b < inst), decide (0 < s.get (TL_ADC_STAT_SETTLE_LEFT t)) || s.settling t b.input inst,
    !s.refOn t || decide (inst < (s.refStart t + 200000) * 1280), b.input < 8 && s.get (PN_PPMU_CTRL_MODE (8 * t + b.input)) = 0⟩

/-- Conversion c of burst b has started; one less of those that settle is left. -/
def convStarted (s : State) (t : Nat) (b : Burst) (c : Conv) : State :=
  let q := s.put (TL_ADC_STAT_SETTLE_LEFT t) (s.get (TL_ADC_STAT_SETTLE_LEFT t) - 1)
  q.setAdc t { q.adc t with bursts := putLast (q.adc t).bursts { b with started := b.started + 1, lastAt := c.at_, convs := b.convs ++ [c] } }

section conversion
variable {s : State} {t : Nat} {b : Burst}

theorem convStart_eq (at_ : Nat) (h : (s.adc t).bursts.getLast? = some b) (hlt : b.started < b.count) :
    let inst := s.convInstant t b at_
    let q := s.advInst inst
    s.convStart t at_ = (q.convStarted t b (q.convBegun t b inst)).andThen (decide (convNominal b < inst)) (bump · (TL_ADC_CNT_DLY t)) := by
  have hle : ¬b.count ≤ b.started := Nat.not_le.2 hlt
  generalize hinst : s.convInstant t b at_ = inst
  rw [State.convStart, h]
  dsimp only
  rw [if_neg hle]
  rw [convInstant] at hinst
  generalize s.clearOf = clear at hinst ⊢
  cases hend : (s.calTl t).stepEnd <;> rw [hend, Option.elim] at hinst <;> subst hinst <;> exact (if_congr decide_eq_true_iff rfl rfl).symm

theorem adc_convStarted (s : State) (c : Conv) (h : (s.adc t).bursts = [b]) :
    (s.convStarted t b c).adc t = { s.adc t with bursts := [{ b with started := b.started + 1, lastAt := c.at_, convs := b.convs ++ [c] }] } := by
  rw [convStarted]
  dsimp only
  rw [adc_setAdc_same, adc_put, h]
  rfl

theorem settleLeft_convStarted (s : State) (b : Burst) (c : Conv) :
    (s.convStarted t b c).get (TL_ADC_STAT_SETTLE_LEFT t) = s.get (TL_ADC_STAT_SETTLE_LEFT t) - 1 := by
  have hlt : s.get (TL_ADC_STAT_SETTLE_LEFT t) < 2 ^ 9 := bits_lt ..
  rw [convStarted]
  dsimp only
  rw [get_setAdc, get_put_of_fits s _ (by rfl)]
  exact Nat.mod_eq_of_lt ((Nat.sub_le ..).trans_lt hlt)

@[simp] theorem ticks_convStarted (s : State) (b : Burst) (c : Conv) : (s.convStarted t b c).ticks = s.ticks := by
  rw [convStarted]
  dsimp only
  rw [setAdc_ticks, ticks_put]

/-- A filter of one tap gives the conversion itself (R304). -/
theorem mean_of_one_tap (code : Int) (afresh : Bool) (old : List Int) :
    (((if afresh then List.replicate 256 code else (code :: old).take 256).take (2 ^ 0)).foldl (· + ·) 0 + Int.ofNat (2 ^ 0 / 2)) / Int.ofNat (2 ^ 0) = code := by
  obtain ⟨r, hr⟩ : ∃ r, (if afresh then List.replicate 256 code else (code :: old).take 256) = code :: r := by
    cases afresh with
    | true => exact ⟨_, List.replicate_succ (n := 255)⟩
    | false => exact ⟨_, List.take_succ_cons (i := 255)⟩
  have hone : (code :: r).take 1 = [code] := rfl
  rw [hr, pow_zero, hone]
  simp

theorem unsigned_lt (n : Nat) (i : Int) : unsigned n i < 2 ^ n := by
  have hpos : (0 : Int) < Int.ofNat (2 ^ n) := Int.natCast_pos.2 (Nat.two_pow_pos n)
  exact (Int.toNat_lt (Int.emod_nonneg _ hpos.ne')).2 (Int.emod_lt_of_pos _ hpos)

/-- The code stands in the low half of a result word. -/
theorem unsigned_add_mod (v : Int) (a b c d e f : Nat) :
    (unsigned 16 v + a * 2 ^ 16 + b * 2 ^ 20 + c * 2 ^ 22 + d * 2 ^ 23 + e * 2 ^ 24 + f * 2 ^ 25) % 2 ^ 16 = unsigned 16 v := by
  have hlt : unsigned 16 v < 2 ^ 16 := unsigned_lt 16 v
  omega

/-- The last result of an unfiltered burst without a buffer is published with its code. -/
theorem adcResult_last (h : (s.adc t).bursts = [b]) {c : Conv} (hc : b.convs = [c]) (raw : Int) (beyond : Bool) (hf : b.flen = 0) (hcount : b.count = b.total + 1)
    (hbuf : b.buffer = none) (hline : b.line = []) : ∃ x b' w, s.adcResult t raw beyond = ((s.advInst (c.at_ + 120 * 1280)).setAdc t x).publishBurst t b' ∧
    x.bursts.drop 1 = [] ∧ b'.buffer = none ∧ b'.last = some w ∧ w % 2 ^ 16 = unsigned 16 (adcCode c.grounded raw beyond).1 := by
  generalize hu : s.adcResult t raw beyond = u
  unfold State.adcResult at hu
  split at hu
  · next heq =>
    rw [h] at heq
    cases heq
  · next heq =>
    rw [h] at heq
    cases heq
    split at hu
    · next heq =>
      rw [hc] at heq
      cases heq
    · next heq =>
      rw [hc] at heq
      cases heq
      extract_lets q x got code afresh hist len data word b1 b2 room b3 q1 q2 y q3 b4 q4 at hu
      have hdata : data = code := by
        simp only [data, len, hf]
        exact mean_of_one_tap code afresh x.raw
      have hword : word % 2 ^ 16 = unsigned 16 code := (unsigned_add_mod ..).trans (congrArg (unsigned 16) hdata)
      have hb2 : b2.buffer = none ∧ b2.line = [] ∧ b2.last = some word ∧ b2.count = b2.total := by
        simp only [b2]
        split <;> exact ⟨hbuf, hline, rfl, hcount⟩
      have hroom : room = false := by
        simp only [room, hbuf]
      have hb3 : b3 = b2 := if_neg (by rw [hroom]; decide)
      obtain ⟨hbuf2, hline2, hlast2, hcount2⟩ := hb2
      have hshort : ¬b3.line.length = 16 := by
        rw [hb3, hline2]
        decide
      have hq2 : q2 = q1 := if_neg (by rw [hroom, hbuf]; decide)
      have hq3 : q3 = q1 := (if_neg hshort).trans hq2
      have hb4 : b4 = b2 := (if_neg hshort).trans hb3
      have hpublish : q4 = u := (if_pos (by rw [hb4, hcount2])).symm.trans hu
      refine ⟨{ x with raw := hist, rawOf := some (b.input, b.range), bursts := [b3] }, b2, word, ?_, rfl, hbuf2, hlast2, hword⟩
      rw [← hpublish]
      exact congrArg₂ (State.publishBurst · t ·) hq3 hb4

end conversion

/-! ### The instructions, clause by clause -/

section clauses
variable {s : State} {v : View} {t : Nat} (ht : t < 64)

section command
variable (hr : s.ready = true) (hv : directView v = true)
include ht hr hv

/-- A trigger of an idle ADC begins a burst (R305). -/
theorem adcTrig_idle (h : (s.adc t).bursts = []) : ∃ b, ((s.mergeField v (TL_ADC_CTRL_TRIG t) 1).adc t).bursts = [b] ∧
    b.count = max 1 (s.get (TL_ADC_BURST_COUNT t)) ∧ b.input = s.get (TL_ADC_CFG_INPUT t) ∧ b.trigAt = s.now ∧ b.started = 0 ∧
    (s.mergeField v (TL_ADC_CTRL_TRIG t) 1).on (TL_ADC_STAT_BUSY t) = true := by
  have hidle : ((s.adcCommanded t).adc t).bursts = [] := by
    rw [adc_adcCommanded, h]
  have hin : (s.adcCommanded t).get (TL_ADC_CFG_INPUT t) = s.get (TL_ADC_CFG_INPUT t) :=
    get_eq_of_reg (f := TL_ADC_CFG_INPUT t) (reg_adcCommanded s t (tl_registers_ne t (by decide)))
  obtain ⟨b, hadc, hcount, hinput, htrig, hstarted, hbusy, -, -⟩ := (s.adcCommanded t).beginBurst_joins t s.now (s.get (TL_ADC_BURST_COUNT t))
  rw [mergeField_adcTrig ht hr hv, adcTrigger_of_idle _ _ hidle]
  refine ⟨b, ?_, hcount, hinput.trans hin, htrig, hstarted, hbusy⟩
  rw [hadc, hidle]
  rfl

/-- One of a busy ADC is held (R307). -/
theorem adcTrig_busy (h : (s.adc t).bursts ≠ []) (hheld : (s.adc t).held = none) :
    ((s.mergeField v (TL_ADC_CTRL_TRIG t) 1).adc t).held = some (s.now, s.get (TL_ADC_BURST_COUNT t)) ∧
    ((s.mergeField v (TL_ADC_CTRL_TRIG t) 1).adc t).bursts = (s.adc t).bursts ∧ (s.mergeField v (TL_ADC_CTRL_TRIG t) 1).on (TL_ADC_STAT_HELD t) = true := by
  rw [mergeField_adcTrig ht hr hv, adcTrigger_of_busy _ _ (by rwa [adc_adcCommanded]) (by rwa [adc_adcCommanded]), State.mark, adc_put, adc_setAdc_same,
    adc_adcCommanded]
  exact ⟨rfl, rfl, on_mark_of_fits _ rfl⟩

/-- One behind a held one is lost and counted (R307). -/
theorem adcTrig_held (h : (s.adc t).bursts ≠ []) (hheld : (s.adc t).held.isSome = true) :
    (s.mergeField v (TL_ADC_CTRL_TRIG t) 1).get (TL_ADC_CNT_OVERRUN t) = min (s.get (TL_ADC_CNT_OVERRUN t) + 1) 65535 ∧
    ((s.mergeField v (TL_ADC_CTRL_TRIG t) 1).adc t).held = (s.adc t).held := by
  have hcnt : (s.adcCommanded t).get (TL_ADC_CNT_OVERRUN t) = s.get (TL_ADC_CNT_OVERRUN t) :=
    get_eq_of_reg (f := TL_ADC_CNT_OVERRUN t) (reg_adcCommanded s t (tl_registers_ne t (by decide)))
  rw [mergeField_adcTrig ht hr hv, adcTrigger_of_held _ _ (by rwa [adc_adcCommanded]) (by rwa [adc_adcCommanded]), State.bump, State.bumpBy, hcnt, adc_put,
    adc_adcCommanded, get_put_of_fits _ _ (by rfl)]
  exact ⟨Nat.mod_eq_of_lt ((Nat.min_le_right ..).trans_lt (show 65535 < 2 ^ 16 by decide)), rfl⟩

/-- ABORT publishes a burst that has no conversion in progress (R316). -/
theorem adcAbort_publishes {b : Burst} (h : (s.adc t).bursts = [b]) (hc : b.convs = []) :
    ((s.mergeField v (TL_ADC_CTRL_ABORT t) 1).adc t).bursts = [] ∧ ((s.mergeField v (TL_ADC_CTRL_ABORT t) 1).adc t).held = none ∧
    (s.mergeField v (TL_ADC_CTRL_ABORT t) 1).on (TL_ADC_RES_HI_VALID t) = true ∧ (s.mergeField v (TL_ADC_CTRL_ABORT t) 1).on (TL_ADC_STAT_ABORTED t) = true ∧
    (s.mergeField v (TL_ADC_CTRL_ABORT t) 1).on (TL_ADC_STAT_BUSY t) = false := by
  rw [mergeField_adcAbort ht hr hv, adcAbort_of_no_conv (b := b) (by rw [adc_adcCommanded, h]) hc]
  have hp := published_publishBurst ((((s.adcCommanded t).setAdc t { (s.adcCommanded t).adc t with held := none }).put (TL_ADC_STAT_HELD t) 0).setAdc t
    { (s.adcCommanded t).adc t with held := none, bursts := [{ b with count := b.started, aborted := true }] }) ht { b with count := b.started, aborted := true }
  have hadc := hp.adc
  have hbusy := hp.busy
  rw [adc_setAdc_same] at hadc hbusy
  rw [hadc]
  exact ⟨rfl, rfl, hp.valid, hp.aborted rfl, hbusy⟩

end command

/-- The trigger of a MEAS comes to an idle ADC (R120). -/
theorem triggerDue_idle {inst n : Nat} {r : List (Nat × Nat)} (hdue : (s.adc t).due = (inst, n) :: r) (h : (s.adc t).bursts = []) :
    ∃ b, ((s.triggerDue t).adc t).due = r ∧ ((s.triggerDue t).adc t).bursts = [b] ∧ b.count = max 1 n ∧ b.trigAt = inst ∧
    (s.triggerDue t).ticks = max s.ticks (inst / 1280) := by
  have hadc : (((s.setAdc t { s.adc t with due := r }).advInst inst).adc t) = { s.adc t with due := r } := by
    rw [adc_advInst, adc_setAdc_same]
  obtain ⟨b, hjoin, hcount, -, htrig, -, -, -, hticks⟩ := ((s.setAdc t { s.adc t with due := r }).advInst inst).beginBurst_joins t inst n
  rw [State.triggerDue, hdue]
  dsimp only
  rw [adcTrigger_of_idle _ _ ((congrArg Adc.bursts hadc).trans h)]
  refine ⟨b, ?_, ?_, hcount, htrig, hticks.trans (ticks_advTo ..)⟩
  · rw [hjoin, hadc]
  · rw [hjoin, hadc, h]
    rfl

/-- The held trigger begins its burst (R307). -/
theorem heldBurst_begins {h n : Nat} {b : Burst} (hheld : (s.adc t).held = some (h, n)) (hb : (s.adc t).bursts = [b]) (hle : b.count ≤ b.started) :
    ∃ b', ((s.heldBurst t).adc t).held = none ∧ ((s.heldBurst t).adc t).bursts = [b, b'] ∧ b'.count = max 1 n ∧ b'.trigAt = max h (b.lastAt + 32000) ∧
    (s.heldBurst t).on (TL_ADC_STAT_HELD t) = false := by
  let q := (((s.setAdc t { s.adc t with held := none }).put (TL_ADC_STAT_HELD t) 0).advInst (max h (b.lastAt + 32000)))
  have hadc : q.adc t = { s.adc t with held := none } := by
    rw [adc_advInst, adc_put, adc_setAdc_same]
  have hoff : q.on (TL_ADC_STAT_HELD t) = false :=
    (on_advTo ..).trans (on_put_of_fits (s.setAdc t { s.adc t with held := none }) (f := TL_ADC_STAT_HELD t) 0 rfl)
  have heq : s.heldBurst t = q.beginBurst t (max h (b.lastAt + 32000)) n := by
    have hlast : (s.adc t).bursts.getLast? = some b := by
      rw [hb]
      rfl
    rw [State.heldBurst, hheld, hlast]
    exact if_neg (Nat.not_lt.2 hle)
  obtain ⟨b', hjoin, hcount, -, htrig, -, -, hkept, -⟩ := q.beginBurst_joins t (max h (b.lastAt + 32000)) n
  rw [heq]
  refine ⟨b', ?_, ?_, hcount, htrig, hkept.trans hoff⟩
  · rw [hjoin, hadc]
  · rw [hjoin, hadc, hb]
    rfl

/-- A conversion starts at its instant (R306, R308). -/
theorem convStart_starts {b : Burst} (at_ : Nat) (hb : (s.adc t).bursts = [b]) (hlt : b.started < b.count) : ∃ c, c.at_ = s.convInstant t b at_ ∧
    ((s.convStart t at_).adc t).bursts = [{ b with started := b.started + 1, lastAt := s.convInstant t b at_, convs := b.convs ++ [c] }] ∧
    (s.convStart t at_).get (TL_ADC_STAT_SETTLE_LEFT t) = s.get (TL_ADC_STAT_SETTLE_LEFT t) - 1 ∧
    (s.convStart t at_).ticks = max s.ticks (s.convInstant t b at_ / 1280) := by
  let inst := s.convInstant t b at_
  let c := (s.advInst inst).convBegun t b inst
  have hadc : ((s.advInst inst).adc t).bursts = [b] := by rw [adc_advInst, hb]
  have heq : s.convStart t at_ = _ := convStart_eq at_ (by rw [hb]; rfl) hlt
  have hstarted := adc_convStarted (s.advInst inst) c hadc
  have hleft : ((s.advInst inst).convStarted t b c).get (TL_ADC_STAT_SETTLE_LEFT t) = s.get (TL_ADC_STAT_SETTLE_LEFT t) - 1 := by
    rw [settleLeft_convStarted, get_advInst]
  have hticks : ((s.advInst inst).convStarted t b c).ticks = max s.ticks (inst / 1280) := (ticks_convStarted ..).trans (ticks_advTo ..)
  rw [heq]
  refine ⟨c, rfl, ?_⟩
  unfold State.andThen
  dsimp only
  split
  · have hkept (u : State) : (u.bump (TL_ADC_CNT_DLY t)).get (TL_ADC_STAT_SETTLE_LEFT t) = u.get (TL_ADC_STAT_SETTLE_LEFT t) :=
      get_eq_of_reg (f := TL_ADC_STAT_SETTLE_LEFT t) (reg_bump_other u (TL_ADC_CNT_DLY t) (tl_registers_ne t (by decide)))
    rw [hkept, State.bump, State.bumpBy, adc_put, ticks_put, hstarted]
    exact ⟨rfl, hleft, hticks⟩
  · rw [hstarted]
    exact ⟨rfl, hleft, hticks⟩

/-- The reference gets ready (R310). -/
theorem refReady_sets (h : s.refOn t = true) : (s.refReady t).on (TL_ADC_STAT_REF_READY t) = true ∧ (s.refReady t).ticks = max s.ticks (s.refStart t + 200000) ∧
    ∀ a, a ≠ TL_ADC_STAT t → (s.refReady t).reg a = s.reg a := by
  rw [State.refReady, if_pos h]
  refine ⟨on_mark_of_fits _ rfl, ?_, fun a ha => (reg_mark_other _ (TL_ADC_STAT_REF_READY t) ha).trans (reg_advTo ..)⟩
  rw [State.mark, ticks_put, ticks_advTo]

/-- Slices are exchanged (R311). -/
theorem sliceExchange_steps (s : State) (t : Nat) : (∀ a, a ≠ TL_ADC_STAT t → (s.sliceExchange t).reg a = s.reg a) ∧
    (s.sliceExchange t).ticks = max ((s.adc t).sliceAt.getD s.resetEnd + 100000) s.ticks ∧ ((s.sliceExchange t).adc t).sliceAt = some (s.sliceExchange t).ticks ∧
    (s.sliceExchange t).get (TL_ADC_STAT_CAL_ROUND t) =
      if s.on (TL_ADC_STAT_REF_READY t) then (s.get (TL_ADC_STAT_CAL_ROUND t) + 1) % 256 else s.get (TL_ADC_STAT_CAL_ROUND t) := by
  let at_ := max ((s.adc t).sliceAt.getD s.resetEnd + 100000) s.ticks
  let q := (s.advTo at_).setAdc t { s.adc t with sliceAt := some at_ }
  have hreg (a : Nat) : q.reg a = s.reg a := reg_advTo ..
  have hget (f : Field) : q.get f = s.get f := get_eq_of_reg (hreg _)
  have hticks : q.ticks = at_ := ticks_advTo_of_le (Nat.le_max_right ..)
  have hslice : (q.adc t).sliceAt = some at_ := congrArg Adc.sliceAt (adc_setAdc_same ..)
  have heq : s.sliceExchange t = if q.on (TL_ADC_STAT_REF_READY t) then q.wrapUp (TL_ADC_STAT_CAL_ROUND t) else q := rfl
  rw [heq, on_eq_of_get (hget (TL_ADC_STAT_REF_READY t))]
  split
  · refine ⟨fun a ha => (reg_wrapUp_other q (TL_ADC_STAT_CAL_ROUND t) ha).trans (hreg a), hticks, ?_, ?_⟩
    · rw [State.wrapUp, adc_put, ticks_put, hslice, hticks]
    · rw [State.wrapUp, get_put_of_fits _ _ (by rfl), hget]
      rfl
  · exact ⟨fun a _ => hreg a, hticks, hslice.trans (congrArg some hticks.symm), hget _⟩

/-- The last result of a burst publishes it (R302, R303, R313). -/
theorem adcResult_publishes (ht : t < 64) {b : Burst} {c : Conv} (hb : (s.adc t).bursts = [b]) (hc : b.convs = [c]) (raw : Int) (beyond : Bool) (hf : b.flen = 0)
    (hcount : b.count = b.total + 1) (hbuf : b.buffer = none) (hline : b.line = []) :
    ((s.adcResult t raw beyond).adc t).bursts = [] ∧ (s.adcResult t raw beyond).on (TL_ADC_RES_HI_VALID t) = true ∧
    (s.adcResult t raw beyond).get (TL_ADC_RES_HI_SEQ t) = (s.get (TL_ADC_RES_HI_SEQ t) + 1) % 2 ^ 16 ∧
    bits ((s.adcResult t raw beyond).reg (TL_ADC_RES_LO t)).toNat 15 0 = unsigned 16 (adcCode c.grounded raw beyond).1 ∧
    (s.adcResult t raw beyond).on (TL_ADC_STAT_BUSY t) = false ∧ (s.adcResult t raw beyond).ticks = max s.ticks ((c.at_ + 120 * 1280) / 1280) := by
  obtain ⟨x, b', w, heq, hdrop, hbuf', hlast, hw⟩ := adcResult_last hb hc raw beyond hf hcount hbuf hline
  have hp := published_publishBurst ((s.advInst (c.at_ + 120 * 1280)).setAdc t x) ht b'
  have hadc := hp.adc
  have hbusy := hp.busy
  have hseq := hp.seq hbuf'
  rw [adc_setAdc_same] at hadc hbusy
  rw [get_setAdc, get_advInst] at hseq
  rw [heq, hadc]
  refine ⟨hdrop, hp.valid, hseq, ?_, ?_, (hp.ticks hbuf').trans (ticks_advTo ..)⟩
  · rw [hp.result w hlast, ← hw]
    simp only [bits, BitVec.toNat_ofNat]
    omega
  · rw [hbusy, hdrop]
    rfl

end clauses

end State

/-- Settles O47: each clause is what its instruction does to the ADC. -/
theorem adcBurstsRun : Obligations.AdcBurstsRun := by
  intro v t s
  have ht := t.isLt
  refine ⟨fun hr hv => ⟨fun h => ?_, fun h hheld => ?_, fun h hheld => ?_, fun b h hc => ?_⟩, fun inst n r hdue h => ?_, fun b at_ hb hlt => ?_,
    fun h n b hheld hb hle => ?_, fun b c raw beyond hb hc hf hcount hbuf hline => ?_, fun h => ?_, ?_⟩
  · obtain ⟨b, hb⟩ := State.adcTrig_idle ht hr hv h
    exact ⟨_, b, rfl, hb⟩
  · exact ⟨_, rfl, State.adcTrig_busy ht hr hv h hheld⟩
  · exact ⟨_, rfl, State.adcTrig_held ht hr hv h hheld⟩
  · exact ⟨_, rfl, State.adcAbort_publishes ht hr hv h hc⟩
  · obtain ⟨b, hb⟩ := State.triggerDue_idle hdue h
    exact ⟨_, b, rfl, hb⟩
  · obtain ⟨c, hc⟩ := State.convStart_starts at_ hb hlt
    cases hend : (s.calTl t.val).stepEnd <;> rw [State.convInstant, hend] at hc <;> exact ⟨_, c, rfl, hc⟩
  · obtain ⟨b', hb'⟩ := State.heldBurst_begins hheld hb hle
    exact ⟨_, b', rfl, hb'⟩
  · have hcode : (State.adcCode c.grounded raw beyond).1 =
        if c.grounded then max (-8) (min 8 raw) else if beyond then (if raw < 0 then -32768 else 32767) else max (-32768) (min 32767 raw) := by
      unfold State.adcCode
      split_ifs <;> rfl
    have hu := State.adcResult_publishes ht hb hc raw beyond hf hcount hbuf hline
    rw [hcode] at hu
    exact ⟨_, rfl, hu⟩
  · exact ⟨_, rfl, State.refReady_sets h⟩
  · exact ⟨_, rfl, State.sliceExchange_steps s t.val⟩

end Sys2Proof.Machine
end

section
/-! SUPPORT. Lines of a stream and the end of a stall (R149, R151, R152, R155), and O27 settled. -/

namespace Sys2Proof.Machine

namespace State

@[simp] theorem strm_modTl (s : State) (t : Nat) (f : Tiller → Tiller) : (s.modTl t f).strm = s.strm := rfl

/-- With no prime on its way nothing acts. -/
theorem takePrimes_of_none {s : State} {t : Nat} (h : (s.tl t).primes = []) (inst : Nat) : s.takePrimes t inst = s := by
  rw [State.takePrimes, h]
  rfl

/-! ### A line (R149, R151) -/

/-- A line holds 16 vectors, the last one what is left of the stream. -/
theorem length_readLine (s : State) (d : SegDesc) (i : Nat) : (s.readLine d i).2.length = min 16 (d.length - i) := by
  rw [State.readLine, List.length_map, List.length_range]

theorem idx_readLine (s : State) (d : SegDesc) (i : Nat) : (s.readLine d i).2.map (·.idx) = List.range' i (min 16 (d.length - i)) := by
  rw [State.readLine, List.map_map, List.range'_eq_map_range]
  rfl

section line
variable {s : State} {t : Nat}

/-- The engine reads the next line of the pass under way. -/
theorem takeLine_of_present {n : Nat} (hroom : lineRoom (s.strm t) = true) (hseg : (s.strm t).seg = some n) (hahead : (s.strm t).ahead = none)
    (hfetch : (s.strm t).fetch < (s.strm t).desc.length) :
    let x := s.strm t
    let r := s.readLine x.desc x.fetch
    s.takeLine t = r.1.setStrm t { x with buf := x.buf ++ r.2, fetch := x.fetch + r.2.length } := by
  simp only [State.takeLine, hroom, hseg, hahead, hfetch, Bool.not_true, Option.isNone_some, Bool.or_self, Bool.false_eq_true, if_false, if_true]

/-- What a line that arrives does besides is the tiller's: the instant from which a stall ends. -/
theorem strm_streamLine : (s.streamLine t).strm = ((s.takePrimes t s.now).takeLine t).strm := by
  unfold State.streamLine
  dsimp only
  split
  · exact strm_modTl ..
  · rfl

end line

/-! ### The end of a stall (R155) -/

/-- The instant at which a stalled tiller issues again. -/
def stallOver (s : State) (t : Nat) : Nat := ceilCycle ((s.tl t).refillAt.getD s.now) + 16 * 160

/-- A tiller that stalls no longer, but for what the stall leaves in the dead time and the trace. -/
def unstalled (s : State) (t : Nat) : State := ((s.advInst (s.stallOver t)).put (TL_SEQ_STAT_STATE t) 1).put (TL_STRM_STAT_STALLED_NOW t) 0

section stall
variable {s : State} {t : Nat} (he : s.engine t = 3) (hb : s.bufferReady t = true)
include he hb

theorem stallResume_of_ready : s.stallResume t =
    (((s.unstalled t).bumpBy (TL_STRM_DEAD_TICKS t) ((s.stallOver t - (s.tl t).stallFrom) / 1280)).trace t 15 (s.tl t).vec.opc (s.tl t).atPos).modTl t
      (fun x => { x with dueAt := s.stallOver t }) := by
  rw [State.stallResume, if_neg (by simp [he, hb])]
  rfl

theorem dueAt_stallResume : ((s.stallResume t).tl t).dueAt = s.stallOver t := by
  rw [stallResume_of_ready he hb, tl_modTl]

theorem reg_stallResume {o : Nat} (hdead : o ≠ 0x22c) (htrace : o ≠ 0xa0) : (s.stallResume t).reg (tlBase t + o) = (s.unstalled t).reg (tlBase t + o) := by
  rw [stallResume_of_ready he hb, reg_modTl, reg_trace _ _ _ _ (tlReg_ne htrace)]
  exact reg_bumpBy_other _ (TL_STRM_DEAD_TICKS t) _ (tlReg_ne hdead)

theorem engine_stallResume : (s.stallResume t).engine t = 1 := by
  have hkept : (s.stallResume t).engine t = (s.unstalled t).engine t :=
    get_eq_of_reg (f := TL_SEQ_STAT_STATE t) (reg_stallResume he hb (by decide) (by decide))
  rw [hkept, State.unstalled]
  exact (get_put_other _ 0 (f := TL_STRM_STAT_STALLED_NOW t) (tlReg_ne (by decide))).trans (get_put_of_fits _ 1 rfl)

theorem stalledNow_stallResume : (s.stallResume t).on (TL_STRM_STAT_STALLED_NOW t) = false := by
  have hkept : (s.stallResume t).get (TL_STRM_STAT_STALLED_NOW t) = (s.unstalled t).get (TL_STRM_STAT_STALLED_NOW t) :=
    get_eq_of_reg (f := TL_STRM_STAT_STALLED_NOW t) (reg_stallResume he hb (by decide) (by decide))
  rw [on_eq_of_get hkept, State.unstalled, on_put_of_fits _ _ rfl, Nat.zero_mod]
  rfl

end stall

end State

open State

section stream
variable {t : Fin 64} {s : State}

theorem exec_streamLineArrive {n : Nat} (hp : (s.tl t.val).primes = []) (hseg : (s.strm t.val).seg = some n) (hahead : (s.strm t.val).ahead = none)
    (hfetch : (s.strm t.val).fetch < (s.strm t.val).desc.length) (hroom : lineRoom (s.strm t.val) = true) :
    ∃ u, exec (.streamLineArrive t) s = .next u ∧ (u.strm t.val).fetch = min ((s.strm t.val).fetch + 16) (s.strm t.val).desc.length ∧
      ∃ l, (u.strm t.val).buf = (s.strm t.val).buf ++ l ∧
        l.map (·.idx) = List.range' (s.strm t.val).fetch (min 16 ((s.strm t.val).desc.length - (s.strm t.val).fetch)) := by
  let x := s.strm t.val
  let r := s.readLine x.desc x.fetch
  have hstrm : (s.streamLine t.val).strm t.val = { x with buf := x.buf ++ r.2, fetch := x.fetch + r.2.length } := by
    rw [strm_streamLine, takePrimes_of_none hp, takeLine_of_present hroom hseg hahead hfetch]
    exact strm_setStrm_same ..
  refine ⟨s.streamLine t.val, rfl, ?_, r.2, by rw [hstrm], idx_readLine ..⟩
  have hlt : x.fetch < x.desc.length := hfetch
  have hlen : r.2.length = min 16 (x.desc.length - x.fetch) := length_readLine ..
  rw [hstrm]
  change x.fetch + r.2.length = min (x.fetch + 16) x.desc.length
  omega

theorem exec_stallResume (he : s.engine t.val = 3) (hb : s.bufferReady t.val = true) :
    ∃ u, exec (.stallResume t) s = .next u ∧ u.engine t.val = 1 ∧ u.on (TL_STRM_STAT_STALLED_NOW t.val) = false ∧
      (u.tl t.val).dueAt = ceilCycle ((s.tl t.val).refillAt.getD s.now) + 16 * 160 :=
  ⟨s.stallResume t.val, rfl, engine_stallResume he hb, stalledNow_stallResume he hb, dueAt_stallResume he hb⟩

end stream

/-- Settles O27: a line by what it adds to the stream, the end of a stall by the state in which the tiller is unstalled. -/
theorem streamLinesArriveAndStallsEnd : Obligations.StreamLinesArriveAndStallsEnd :=
  fun _ _ => ⟨fun _ => exec_streamLineArrive, exec_stallResume⟩

end Sys2Proof.Machine
end

section
/-! SUPPORT. The segment commands: PRIME, BREAK and a descriptor check (R141, R147, R148, R154), and O32 settled. -/

namespace Sys2Proof.Machine

namespace State

/-! ### What a register write leaves of a tiller -/

@[simp] theorem tl_storeWord (s : State) (a w : Nat) : (s.storeWord a w).tl = s.tl := by
  obtain ⟨r, e⟩ := s.storeWord_beside a w
  rw [e]
  rfl

@[simp] theorem streams_bump (s : State) (f : Field) : (s.bump f).streams = s.streams := rfl

@[simp] theorem streams_storeWord (s : State) (a w : Nat) : (s.storeWord a w).streams = s.streams := by
  obtain ⟨r, e⟩ := s.storeWord_beside a w
  rw [e]

theorem streamCurrent_storeWord (s : State) (w : Nat) {t o : Nat} (h : o ≠ 4) : (s.storeWord (tlBase t + o) w).streamCurrent t = s.streamCurrent t := by
  have hstat {f : Field} (hf : f.addr = TL_SEQ_STAT t) : (s.storeWord (tlBase t + o) w).get f = s.get f :=
    get_eq_of_reg (reg_storeWord_other s w (hf ▸ tlReg_ne h.symm))
  simp only [State.streamCurrent, State.active, State.on, hstat (f := TL_SEQ_STAT_STATE t) rfl, hstat (f := TL_SEQ_STAT_INSEG t) rfl, tl_storeWord]

/-- Descriptors lie apart from the registers of a tiller. -/
theorem readDesc_storeWord (s : State) (w : Nat) {t o : Nat} (ht : t < 64) (h : o < 0x800) (n : Nat) :
    (s.storeWord (tlBase t + o) w).readDesc t n = s.readDesc t n := by
  have hword (i : Nat) : (s.storeWord (tlBase t + o) w).reg (segAddr t n i) = s.reg (segAddr t n i) :=
    reg_storeWord_other s w (by unfold segAddr tlBase; omega)
  simp only [State.readDesc, hword]

/-- A bit of a word is a field of one bit. -/
theorem testBit_of_bits {w i : Nat} : w.testBit i = (bits w i i).testBit 0 := by
  rw [testBit_bits, Nat.add_sub_cancel_left, decide_eq_true Nat.one_pos, Bool.true_and, Nat.add_zero]

/-! ### A prime (R148, R154) -/

section prime
variable {s : State} {t n : Nat}

/-- While a streamed segment is current a prime is counted and nothing else. -/
theorem prime_of_current (h : s.streamCurrent t = true) : s.prime t n = s.bump (TL_STRM_CNT_PRIME_REJ t) := by
  rw [State.prime, h]
  rfl

theorem prime_of_stream (hcur : s.streamCurrent t = false) (hcause : descCause (s.readDesc t n) = 0) (hstream : (s.readDesc t n).isStream = true) :
    s.prime t n = ((s.beginFetch t n (s.readDesc t n)).mark (TL_STRM_STAT_PRIMED t)).put (TL_STRM_STAT_PRIMED_SEG t) n := by
  simp only [State.prime, hcur, hcause, hstream, Bool.false_eq_true, if_false, ne_eq, not_true_eq_false, Bool.not_true]

/-- The status names the segment, and the fetch of its first pass begins with an empty buffer. -/
theorem prime_effect (hn : n < 2 ^ 8) (hcur : s.streamCurrent t = false) (hcause : descCause (s.readDesc t n) = 0)
    (hstream : (s.readDesc t n).isStream = true) : let u := s.prime t n
    u.on (TL_STRM_STAT_PRIMED t) = true ∧ u.get (TL_STRM_STAT_PRIMED_SEG t) = n ∧
      u.strm t = { Stream.reset with seg := some n, desc := s.readDesc t n } := by
  rw [prime_of_stream hcur hcause hstream]
  refine ⟨?_, ?_, ?_⟩
  · exact (on_put_apart _ n (f := TL_STRM_STAT_PRIMED_SEG t) (g := TL_STRM_STAT_PRIMED t) rfl rfl rfl).trans (on_mark_of_fits _ rfl)
  · exact (get_put_of_fits _ n rfl).trans (Nat.mod_eq_of_lt hn)
  · rw [strm_put, State.mark, strm_put, State.beginFetch, strm_setStrm_same]

theorem get_bump_primeRej (s : State) (t : Nat) :
    (s.bump (TL_STRM_CNT_PRIME_REJ t)).get (TL_STRM_CNT_PRIME_REJ t) = min (s.get (TL_STRM_CNT_PRIME_REJ t) + 1) 255 :=
  (get_put_of_fits _ _ rfl).trans (Nat.mod_eq_of_lt (Nat.lt_succ_of_le (Nat.min_le_right _ _)))

end prime

/-! ### A break is requested (R141) -/

theorem on_brkReq_segBreak (s : State) (t : Nat) : (s.segBreak t).on (TL_SEG_STAT_BRK_REQ t) = true := by
  have hmark : (s.mark (TL_SEG_STAT_BRK_REQ t)).on (TL_SEG_STAT_BRK_REQ t) = true := on_mark_of_fits s rfl
  unfold State.segBreak
  dsimp only
  split
  · exact (on_eq_of_get (congrFun (get_modTl ..) _)).trans hmark
  · exact hmark

/-! ### Writes of TL_SEG_CTRL and TL_SEG_CHECK -/

/-- The rows of TL_SEG_CTRL and TL_SEG_CHECK in the register tables. -/
def segCtrlRow : RegD := ⟨0x204, 1, 4, 1, 4, [⟨1, 1, .wo, false, 0⟩, ⟨2, 2, .wo, false, 0⟩, ⟨15, 8, .rw, false, 0⟩]⟩
def segCheckRow : RegD := ⟨0x214, 1, 4, 1, 4, [⟨7, 0, .rw, false, 0⟩, ⟨15, 8, .ro, false, 0⟩, ⟨30, 30, .ro, false, 0⟩, ⟨31, 31, .wo, false, 0⟩]⟩

theorem writeEngine_segCtrl (s : State) (t w : Nat) : s.writeEngine t (TL_SEG_CTRL t) w = s.writeSegCtrl t w := by
  simp [State.writeEngine, TL_SEG_CTRL, TL_SEQ_CTRL, TL_STICKY, TL_TRACE_RD, TL_EVIN]

theorem writeEngine_segCheck (s : State) (t w : Nat) : s.writeEngine t (TL_SEG_CHECK t) w = s.writeSegCheck t w := by
  simp [State.writeEngine, TL_SEG_CHECK, TL_SEG_CTRL, TL_SEQ_CTRL, TL_STICKY, TL_TRACE_RD, TL_EVIN]

section words
variable (s : State) (t : Nat)

/-- A word with PRIME and no BREAK, while no earlier prime has still to act. -/
theorem writeSegCtrl_prime {n : Nat} (hn : n < 2 ^ 8) (hp : (s.tl t).primes = []) :
    s.writeSegCtrl t (n * 2 ^ 8 + 2 ^ 2) = (s.storeWord (TL_SEG_CTRL t) (n * 2 ^ 8 + 2 ^ 2)).prime t n := by
  have hprime : (n * 2 ^ 8 + 2 ^ 2).testBit 2 = true := by
    rw [Nat.testBit_eq_decide_div_mod_eq]
    exact decide_eq_true (by omega)
  have hbreak : (n * 2 ^ 8 + 2 ^ 2).testBit 1 = false := by
    rw [Nat.testBit_eq_decide_div_mod_eq]
    exact decide_eq_false (by omega)
  have hseg : bits (n * 2 ^ 8 + 2 ^ 2) 15 8 = n := by
    simp only [bits]
    omega
  simp only [State.writeSegCtrl, State.andThen, hprime, hbreak, hseg, if_true, Bool.false_eq_true, if_false]
  rw [takePrimes_of_none (by rwa [tl_storeWord])]

/-- A word with BREAK and no PRIME. -/
theorem writeSegCtrl_break {w : Nat} (hprime : w.testBit 2 = false) (hbreak : w.testBit 1 = true) :
    s.writeSegCtrl t w = (s.storeWord (TL_SEG_CTRL t) w).segBreak t := by
  simp only [State.writeSegCtrl, State.andThen, hprime, hbreak, if_true, Bool.false_eq_true, if_false]

/-- A word with GO. -/
theorem writeSegCheck_go {n : Nat} (hn : n < 2 ^ 8) :
    s.writeSegCheck t (2 ^ 31 + n) = (s.storeWord (TL_SEG_CHECK t) (2 ^ 31 + n)).mark (TL_SEG_CHECK_BUSY t) := by
  have hgo : (2 ^ 31 + n).testBit 31 = true := by
    rw [Nat.testBit_eq_decide_div_mod_eq]
    exact decide_eq_true (by omega)
  simp only [State.writeSegCheck, State.andThen, hgo, if_true]

end words

section registers
variable {s : State} {v : View} {t : Nat} (ht : t < 64)
include ht

theorem regAt_segCtrl : regAt (TL_SEG_CTRL t) = some segCtrlRow := by
  rw [TL_SEG_CTRL, regAt_tiller ht (by decide)]
  decide +kernel

theorem regAt_segCheck : regAt (TL_SEG_CHECK t) = some segCheckRow := by
  rw [TL_SEG_CHECK, regAt_tiller ht (by decide)]
  decide +kernel

/-- SEG takes every value. -/
theorem fieldTakes_segCheck (n : Nat) : fieldTakes (kindOf (TL_SEG_CHECK t)) 0 n = some n := by
  have free : fieldLimits.find? (fun e => e.1 = 0x40000 + 0x214 && e.2.1 = 0) = none ∧ arrayLimit (0x40000 + 0x214) 0 = none := by
    decide +kernel
  rw [TL_SEG_CHECK, kindOf_tiller ht (by decide)]
  exact fieldTakes_of_free free.1 free.2 n

theorem get_seg_storeWord {n : Nat} (hn : n < 2 ^ 8) : (s.storeWord (TL_SEG_CHECK t) (2 ^ 31 + n)).get (TL_SEG_CHECK_SEG t) = n := by
  have hstored := get_storeWord_rw s (2 ^ 31 + n) (f := TL_SEG_CHECK_SEG t) (regAt_segCheck ht) (List.mem_cons_self ..) rfl ⟨rfl, rfl⟩ (fieldTakes_segCheck ht)
  refine hstored.trans ?_
  simp only [bits, TL_SEG_CHECK_SEG]
  omega

/-- A command of BREAK writes no PRIME. -/
theorem testBit_mergedWord_break : let w := s.mergedWord segCtrlRow (TL_SEG_CTRL_BREAK t) 1
    w.testBit 1 = true ∧ w.testBit 2 = false := by
  have hd := regAt_segCtrl ht
  have hbreak : bits (s.mergedWord segCtrlRow (TL_SEG_CTRL_BREAK t) 1) 1 1 = 1 := bits_mergedWord (f := TL_SEG_CTRL_BREAK t) s hd rfl (by decide : 1 < 2 ^ 1)
  have hprime : bits (s.mergedWord segCtrlRow (TL_SEG_CTRL_BREAK t) 1) 2 2 = 0 :=
    bits_mergedWord_zero (f := TL_SEG_CTRL_BREAK t) (x := ⟨2, 2, .wo, false, 0⟩) s 1 hd rfl (by simp [segCtrlRow]) (.inr (by decide : 1 < 2)) rfl
  exact ⟨by rw [testBit_of_bits, hbreak]; rfl, by rw [testBit_of_bits, hprime]; rfl⟩

variable (hr : s.ready = true) (hv : directView v = true)
include hr hv

theorem regWrite_segCtrl (w : Nat) : s.regWrite v (TL_SEG_CTRL t) w = s.writeSegCtrl t w :=
  (regWrite_tiller ht (by decide) w hr hv rfl (regAt_segCtrl ht)).trans
    ((writeTiller_engine (by decide) w none (by decide) (by decide)).trans (writeEngine_segCtrl s t w))

theorem regWrite_segCheck (w : Nat) : s.regWrite v (TL_SEG_CHECK t) w = s.writeSegCheck t w :=
  (regWrite_tiller ht (by decide) w hr hv rfl (regAt_segCheck ht)).trans
    ((writeTiller_engine (by decide) w none (by decide) (by decide)).trans (writeEngine_segCheck s t w))

theorem mergeField_break : s.mergeField v (TL_SEG_CTRL_BREAK t) 1 =
    (s.storeWord (TL_SEG_CTRL t) (s.mergedWord segCtrlRow (TL_SEG_CTRL_BREAK t) 1)).segBreak t := by
  obtain ⟨hbreak, hprime⟩ := testBit_mergedWord_break (s := s) ht
  rw [mergeField_tiller ht (o := 0x204) (f := TL_SEG_CTRL_BREAK t) (by decide) 1 hr hv rfl rfl (regAt_segCtrl ht), ← writeSegCtrl_break s t hprime hbreak]
  exact (writeTiller_engine (by decide) _ none (by decide) (by decide)).trans (writeEngine_segCtrl s t _)

end registers

/-! ### A check completes (R147, R148) -/

theorem segCheckDone_effect {s : State} {t : Nat} (h : s.on (TL_SEG_CHECK_BUSY t) = true) : let u := s.segCheckDone t
    u.on (TL_SEG_CHECK_BUSY t) = false ∧ u.get (TL_SEG_CHECK_RESULT t) = descCause (s.readDesc t (s.get (TL_SEG_CHECK_SEG t))) ∧
      ∀ a, a ≠ TL_SEG_CHECK t → u.reg a = s.reg a := by
  rw [State.segCheckDone, if_pos h]
  refine ⟨?_, ?_, fun a ha => ?_⟩
  · exact (on_put_apart _ _ (f := TL_SEG_CHECK_RESULT t) (g := TL_SEG_CHECK_BUSY t) rfl rfl rfl).trans ((on_put_of_fits s 0 rfl).trans (by rw [Nat.zero_mod]; rfl))
  · exact (get_put_of_fits _ _ rfl).trans (Nat.mod_eq_of_lt (descCause_lt _))
  · exact (reg_put_other _ (TL_SEG_CHECK_RESULT t) _ ha).trans (reg_put_other s (TL_SEG_CHECK_BUSY t) _ ha)

end State

open State

section commands
variable {v : View} {t : Fin 64} {s : State}

section written
variable (hr : s.ready = true) (hv : directView v = true)
include hr hv

theorem exec_prime (n : Fin 256) (hp : (s.tl t.val).primes = []) :
    exec (.prime v t n) s = .next ((s.storeWord (TL_SEG_CTRL t.val) (n.val * 2 ^ 8 + 2 ^ 2)).prime t.val n.val) :=
  congrArg Host.Outcome.next ((regWrite_segCtrl t.isLt hr hv _).trans (writeSegCtrl_prime s t.val n.isLt hp))

theorem exec_prime_begins (n : Fin 256) (hp : (s.tl t.val).primes = []) (hcur : s.streamCurrent t.val = false)
    (hcause : descCause (s.readDesc t.val n.val) = 0) (hstream : (s.readDesc t.val n.val).isStream = true) :
    ∃ u, exec (.prime v t n) s = .next u ∧ u.on (TL_STRM_STAT_PRIMED t.val) = true ∧ u.get (TL_STRM_STAT_PRIMED_SEG t.val) = n.val ∧
      (u.strm t.val).seg = some n.val ∧ (u.strm t.val).buf = [] ∧ (u.strm t.val).entered = false := by
  let q := s.storeWord (TL_SEG_CTRL t.val) (n.val * 2 ^ 8 + 2 ^ 2)
  have hqcur : q.streamCurrent t.val = s.streamCurrent t.val := streamCurrent_storeWord s _ (by decide)
  have hqdesc : q.readDesc t.val n.val = s.readDesc t.val n.val := readDesc_storeWord s _ t.isLt (by decide) n.val
  obtain ⟨hprimed, hseg, hstrm⟩ := prime_effect (s := q) n.isLt (hqcur.trans hcur) (by rw [hqdesc, hcause]) (by rw [hqdesc, hstream])
  exact ⟨_, exec_prime hr hv n hp, hprimed, hseg, by rw [hstrm], by rw [hstrm]; rfl, by rw [hstrm]; rfl⟩

theorem exec_prime_rejected (n : Fin 256) (hp : (s.tl t.val).primes = []) (hcur : s.streamCurrent t.val = true) :
    ∃ u, exec (.prime v t n) s = .next u ∧ u.get (TL_STRM_CNT_PRIME_REJ t.val) = min (s.get (TL_STRM_CNT_PRIME_REJ t.val) + 1) 255 ∧
      u.streams = s.streams := by
  let q := s.storeWord (TL_SEG_CTRL t.val) (n.val * 2 ^ 8 + 2 ^ 2)
  have hqcur : q.streamCurrent t.val = s.streamCurrent t.val := streamCurrent_storeWord s _ (by decide)
  have hqcnt : q.get (TL_STRM_CNT_PRIME_REJ t.val) = s.get (TL_STRM_CNT_PRIME_REJ t.val) :=
    get_eq_of_reg (f := TL_STRM_CNT_PRIME_REJ t.val) (reg_storeWord_other s _ (tlReg_ne (by decide)))
  refine ⟨q.bump (TL_STRM_CNT_PRIME_REJ t.val), ?_, ?_, (streams_bump ..).trans (streams_storeWord ..)⟩
  · rw [exec_prime hr hv n hp, prime_of_current (hqcur.trans hcur)]
  · rw [get_bump_primeRej, hqcnt]

theorem exec_segBreak : ∃ u, exec (.segBreak v t) s = .next u ∧ u.on (TL_SEG_STAT_BRK_REQ t.val) = true :=
  ⟨_, congrArg Host.Outcome.next (mergeField_break t.isLt hr hv), on_brkReq_segBreak _ t.val⟩

theorem exec_segCheck (n : Fin 256) : ∃ u, exec (.segCheck v t n) s = .next u ∧ u.on (TL_SEG_CHECK_BUSY t.val) = true ∧
    u.get (TL_SEG_CHECK_SEG t.val) = n.val ∧ ∀ a, a ≠ TL_SEG_CHECK t.val → u.reg a = s.reg a := by
  refine ⟨_, congrArg Host.Outcome.next ((regWrite_segCheck t.isLt hr hv _).trans (writeSegCheck_go s t.val n.isLt)), on_mark_of_fits _ rfl, ?_, fun a ha => ?_⟩
  · exact (get_put_apart _ 1 (f := TL_SEG_CHECK_BUSY t.val) (g := TL_SEG_CHECK_SEG t.val) rfl rfl rfl).trans (get_seg_storeWord t.isLt n.isLt)
  · exact (reg_mark_other _ (TL_SEG_CHECK_BUSY t.val) ha).trans (reg_storeWord_other s _ ha)

end written

theorem exec_segCheckDone (h : s.on (TL_SEG_CHECK_BUSY t.val) = true) : ∃ u, exec (.segCheckDone t) s = .next u ∧
    u.on (TL_SEG_CHECK_BUSY t.val) = false ∧ u.get (TL_SEG_CHECK_RESULT t.val) = descCause (s.readDesc t.val (s.get (TL_SEG_CHECK_SEG t.val))) ∧
      ∀ a, a ≠ TL_SEG_CHECK t.val → u.reg a = s.reg a :=
  ⟨s.segCheckDone t.val, rfl, segCheckDone_effect h⟩

end commands

/-- Settles O32: each command by the state that the write of its register comes to. -/
theorem segmentCommandsComplete : Obligations.SegmentCommandsComplete :=
  fun _ _ _ hr hv => ⟨exec_prime_begins hr hv, exec_prime_rejected hr hv, exec_segBreak hr hv, exec_segCheck hr hv, exec_segCheckDone⟩

end Sys2Proof.Machine
end

section
/-! SUPPORT. Pins: writes of their registers, comparators, drivers and PPMUs (R178 to R193, R391), and O34 settled. -/

namespace Sys2Proof.Machine

/-! ### A field that ignores what lies above a bound (R5) -/

theorem bits_foldl_storeField_ignored (locked : Bool) (k w : Nat) {l : List FieldD} (hl : ∀ f ∈ l, f.InWord) (hp : l.Pairwise FieldD.Apart) {old : Nat}
    (ho : old < 2 ^ 32) {f : FieldD} (hf : f ∈ l) (hacc : f.acc = .rw) (ht : fieldTakes k f.lo (bits w f.hi f.lo) = none) :
    bits (l.foldl (storeField locked k w) old) f.hi f.lo = bits old f.hi f.lo := by
  induction l generalizing old with
  | nil => cases hf
  | cons x r ih =>
    obtain ⟨hx, hr⟩ := List.forall_mem_cons.1 hl
    obtain ⟨ax, pr⟩ := List.pairwise_cons.1 hp
    have hlt := storeField_lt locked k w ho hx
    rcases List.mem_cons.1 hf with rfl | hf
    · refine (bits_foldl_storeField_apart locked k w hr ax hlt).trans ?_
      simp [storeField, hacc, ht]
    · exact (ih hr pr hlt hf).trans (bits_storeField_beside locked k w old x _ _ hx.1 hx.2 ho (ax f hf).symm)

theorem fieldTakes_of_bound {k lo n : Nat} (h : fieldLimits.find? (fun e => e.1 = k && e.2.1 = lo) = some (k, lo, .ignoreAbove n)) (v : Nat) :
    fieldTakes k lo v = if n < v then none else some v := by
  simp only [fieldTakes, h, Option.map_some, Option.orElse_some]

namespace State

theorem get_storeWord_bounded (s : State) (w : Nat) {f : Field} {d : RegD} {x : FieldD} {n : Nat} (hd : regAt f.addr = some d) (hx : x ∈ d.flds)
    (hacc : x.acc = .rw) (hf : x.hi = f.hi ∧ x.lo = f.lo) (ht : ∀ v, fieldTakes (kindOf f.addr) x.lo v = if n < v then none else some v) :
    (s.storeWord f.addr w).get f = if n < bits w f.hi f.lo then s.get f else bits w f.hi f.lo := by
  obtain ⟨hin, hap⟩ := fields_of_allRegs d (mem_allRegs_of_regAt hd)
  rw [State.get, State.storeWord, hd, State.get, ← hf.1, ← hf.2]
  dsimp only
  rw [reg_setReg_same, BitVec.toNat_ofNat, Nat.mod_eq_of_lt (foldl_storeField_lt _ _ _ hin (s.reg f.addr).isLt)]
  split
  · next h => exact bits_foldl_storeField_ignored _ _ _ hin hap (s.reg f.addr).isLt hx hacc ((ht _).trans (if_pos h))
  · next h => exact bits_foldl_storeField_rw _ _ _ hin hap (s.reg f.addr).isLt hx hacc ((ht _).trans (if_neg h))

end State

/-! ### Registers of a pin -/

/-- The rows of PN_CTRL, PN_PPMU_CTRL and GL_PIN_LPBK in the register tables. -/
def pinCtrlRow : RegD := ⟨0, 1, 4, 1, 4, [⟨0, 0, .rw, false, 0⟩, ⟨1, 1, .rw, false, 0⟩, ⟨3, 2, .rw, false, 1⟩, ⟨4, 4, .rw, false, 0⟩, ⟨6, 5, .rw, false, 1⟩,
  ⟨7, 7, .rw, false, 0⟩, ⟨8, 8, .rw, false, 0⟩, ⟨11, 9, .rw, false, 0⟩, ⟨17, 12, .rw, false, 0⟩]⟩
def ppmuCtrlRow : RegD := ⟨0x30, 1, 4, 1, 4, [⟨2, 0, .rw, false, 0⟩, ⟨6, 4, .rw, false, 4⟩]⟩
def loopbackRow : RegD := ⟨0x600, 64, 4, 1, 4, [⟨1, 0, .rw, false, 0⟩, ⟨3, 2, .rw, false, 0⟩, ⟨5, 4, .rw, false, 0⟩, ⟨7, 6, .rw, false, 0⟩, ⟨9, 8, .rw, false, 0⟩,
  ⟨11, 10, .rw, false, 0⟩, ⟨13, 12, .rw, false, 0⟩, ⟨15, 14, .rw, false, 0⟩, ⟨31, 31, .w1c, false, 0⟩]⟩

section pin
variable {g : Nat} (hg : g < 512)
include hg

theorem regAt_pinCtrl : regAt (PN_CTRL g) = some pinCtrlRow := by
  rw [PN_CTRL, regAt_pin hg (by decide)]
  decide +kernel

theorem regAt_ppmuCtrl : regAt (PN_PPMU_CTRL g) = some ppmuCtrlRow := by
  rw [PN_PPMU_CTRL, regAt_pin hg (by decide)]
  decide +kernel

theorem regAt_ppmuForce_isSome : (regAt (PN_PPMU_FORCE g)).isSome = true := by
  rw [PN_PPMU_FORCE, regAt_pin hg (by decide)]
  decide +kernel

theorem regAt_pinLevel_isSome (k : Fin 7) : (regAt (PN_LVL g k.val)).isSome = true := by
  rw [PN_LVL, Nat.add_assoc, regAt_pin hg (by omega)]
  revert k
  decide +kernel

/-- The field has no limit of its own. -/
theorem fieldTakes_pin_free {o lo : Nat} (ho : o < 0x100) (h : fieldLimits.find? (fun e => e.1 = 0x40800 + o && e.2.1 = lo) = none)
    (ha : arrayLimit (0x40800 + o) lo = none) (v : Nat) : fieldTakes (kindOf (pnBase g + o)) lo v = some v := by
  rw [kindOf_pin hg ho]
  exact fieldTakes_of_free h ha v

theorem fieldTakes_pin_bounded {o lo n : Nat} (ho : o < 0x100)
    (h : fieldLimits.find? (fun e => e.1 = 0x40800 + o && e.2.1 = lo) = some (0x40800 + o, lo, .ignoreAbove n)) (v : Nat) :
    fieldTakes (kindOf (pnBase g + o)) lo v = if n < v then none else some v := by
  rw [kindOf_pin hg ho]
  exact fieldTakes_of_bound h v

namespace State

/-- A write through a view that no rule limits goes to the rules of the pin's registers. -/
theorem regWrite_pin {s : State} {v : View} {o w : Nat} (ho : o < 0x100) (hr : s.ready = true) (hv : directView v = true) (h4 : o % 4 = 0)
    (hd : (regAt (pnBase g + o)).isSome = true) : s.regWrite v (pnBase g + o) w = s.writePin g (pnBase g + o) w := by
  have ht : isTable (pnBase g + o) = false := decide_eq_false (by unfold pnBase; omega)
  have hm : isMsix (pnBase g + o) = false :=
    Bool.or_eq_false_iff.2 ⟨decide_eq_false (by unfold pnBase; omega), decide_eq_false (by unfold pnBase; omega)⟩
  rw [State.regWrite, regWriteWith_direct s v _ _ none (reachable_of_ready hr _) (by unfold pnBase; omega) ht hm hd hv, writeOwn_pin s v hg ho]

end State

end pin

namespace State

section rules
variable (s : State) (g w : Nat)

theorem writePin_ctrl : s.writePin g (PN_CTRL g) w = s.writePinCtrl g w := if_pos rfl

theorem writePin_ppmuCtrl : s.writePin g (PN_PPMU_CTRL g) w = s.writePpmu g w := by
  simp [State.writePin, PN_CTRL, PN_PPMU_CTRL]

theorem writePin_ppmuForce : s.writePin g (PN_PPMU_FORCE g) w = s.writeLevel g 7 (w % 2 ^ 16) := by
  simp [State.writePin, PN_CTRL, PN_PPMU_CTRL, PN_PPMU_FORCE]

theorem writePin_level {k : Nat} (hk : k < 7) : s.writePin g (PN_LVL g k) w = s.writeLevel g k (w % 2 ^ 16) := by
  have hplace : arrayIndex (PN_LVL g k) (PN_LVL g 0) 4 7 = some k := by
    unfold arrayIndex PN_LVL
    rw [if_pos (by omega)]
    exact congrArg some (by omega)
  unfold State.writePin
  rw [if_neg (by unfold PN_LVL PN_CTRL; omega), if_neg (by unfold PN_LVL PN_PPMU_CTRL; omega), if_neg (by unfold PN_LVL PN_PPMU_FORCE; omega),
    if_neg (by unfold PN_LVL PN_CMP; omega), hplace]

end rules

end State

/-! ### Fields that comparators leave as they stand -/

/-- The field is in none of the registers that events, messages to the host and the wear monitor write. -/
def Quiet (f : Field) : Prop := f.addr < 0x5000 ∨ 0x40000 ≤ f.addr ∧ f.addr < 0x80000

/-- The field shares no bit with the latches of pin g. -/
def OffLatches (g : Nat) (f : Field) : Prop := Quiet f ∧ (f.addr = PN_CMP g → f.hi < 2)

/-- The field is not one that shows what the comparators of pin g put out. -/
def OffOutputs (g : Nat) (f : Field) : Prop := Quiet f ∧ f.addr ≠ PN_CMP g

/-- Nor one that shows whether they are resolved. -/
def OffComparators (g : Nat) (f : Field) : Prop := OffOutputs g f ∧ (f.addr = PN_STAT g → f.hi < 2 ∨ 3 < f.lo)

/-- Nor any other in the pin's status. -/
def OffStatus (g : Nat) (f : Field) : Prop := OffOutputs g f ∧ f.addr ≠ PN_STAT g

theorem OffOutputs.offLatches {g : Nat} {f : Field} (h : OffOutputs g f) : OffLatches g f := ⟨h.1, fun e => absurd e h.2⟩

theorem OffComparators.offOutputs {g : Nat} {f : Field} (h : OffComparators g f) : OffOutputs g f := h.1

theorem OffStatus.offComparators {g : Nat} {f : Field} (h : OffStatus g f) : OffComparators g f := ⟨h.1, fun e => absurd e h.2⟩

section places
variable {g g' o hi lo : Nat}

theorem offStatus_of_addr {b : Nat} (hb : b < 0x5000 ∨ 0x40000 ≤ b ∧ b < 0x80000) (hc : b ≠ PN_CMP g) (hs : b ≠ PN_STAT g) :
    OffStatus g ⟨b, hi, lo⟩ := ⟨⟨hb, hc⟩, hs⟩

/-- The registers of the pins lie above the global ones. -/
theorem offStatus_low {b : Nat} (h : b < 0x5000) : OffStatus g ⟨b, hi, lo⟩ :=
  offStatus_of_addr (.inl h) (by unfold PN_CMP pnBase; omega) (by unfold PN_STAT pnBase; omega)

theorem offStatus_engine {t : Nat} (ht : t < 64) : OffStatus g (TL_SEQ_STAT_STATE t) :=
  offStatus_of_addr (.inr (by unfold TL_SEQ_STAT tlBase; omega)) (by unfold TL_SEQ_STAT tlBase PN_CMP pnBase; omega)
    (by unfold TL_SEQ_STAT tlBase PN_STAT pnBase; omega)

/-- In a pin's block the outputs stand behind the levels and the PPMU. -/
theorem offStatus_pin (hg : g' < 512) (ho : o < 0x40) (h4 : o ≠ 4) : OffStatus g ⟨pnBase g' + o, hi, lo⟩ :=
  offStatus_of_addr (.inr (by unfold pnBase; omega)) (by unfold PN_CMP pnBase; omega) (by unfold PN_STAT pnBase; omega)

theorem offStatus_level {k : Nat} (hg : g' < 512) (hk : k < 7) : OffStatus g (PN_LVL_CODE g' k) := by
  unfold PN_LVL_CODE PN_LVL
  rw [Nat.add_assoc]
  exact offStatus_pin hg (by omega) (by omega)

theorem offOutputs_stat (hg : g < 512) : OffOutputs g ⟨PN_STAT g, hi, lo⟩ :=
  ⟨.inr (by unfold PN_STAT pnBase; dsimp only; omega), by unfold PN_STAT PN_CMP; dsimp only; omega⟩

theorem offComparators_stat (hg : g < 512) (h : hi < 2 ∨ 3 < lo) : OffComparators g ⟨PN_STAT g, hi, lo⟩ := ⟨offOutputs_stat hg, fun _ => h⟩

theorem offLatches_cmp (hg : g < 512) (h : hi < 2) : OffLatches g ⟨PN_CMP g, hi, lo⟩ := ⟨.inr (by unfold PN_CMP pnBase; dsimp only; omega), fun _ => h⟩

end places

/-- Between two states the fields that F picks, the tick and the power unit stand. -/
structure KeepsFields (F : Field → Prop) (s u : State) : Prop where
  fields : ∀ f, F f → u.get f = s.get f
  ticks : u.ticks = s.ticks
  power : u.power = s.power

namespace KeepsFields

open State

variable {F : Field → Prop} {a s : State}

theorem refl (s : State) : KeepsFields F s s := ⟨fun _ _ => rfl, rfl, rfl⟩

theorem trans {u : State} (h : KeepsFields F a s) (k : KeepsFields F s u) : KeepsFields F a u :=
  ⟨fun f hf => (k.fields f hf).trans (h.fields f hf), k.ticks.trans h.ticks, k.power.trans h.power⟩

theorem mono {G : Field → Prop} (h : KeepsFields F a s) (hg : ∀ f, G f → F f) : KeepsFields G a s := ⟨fun f hf => h.fields f (hg f hf), h.ticks, h.power⟩

theorem ite {c : Prop} [Decidable c] {x y : State} (hx : KeepsFields F a x) (hy : KeepsFields F a y) : KeepsFields F a (if c then x else y) := by
  split <;> assumption

theorem ifTrue (h : KeepsFields F a s) {c : Prop} [Decidable c] {x : State} (k : KeepsFields F s x) : KeepsFields F a (if c then x else s) :=
  ite (h.trans k) h

theorem ifFalse (h : KeepsFields F a s) {c : Prop} [Decidable c] {x : State} (k : KeepsFields F s x) : KeepsFields F a (if c then s else x) :=
  ite h (h.trans k)

theorem foldl {β : Type} {f : State → β → State} (h : KeepsFields F a s) (l : List β) (hf : ∀ s x, KeepsFields F s (f s x)) :
    KeepsFields F a (l.foldl f s) := by
  induction l generalizing s with
  | nil => exact h
  | cons x r ih => exact ih (h.trans (hf s x))

theorem put (h : KeepsFields F a s) {l : Field} {v : Nat} (hl : l.fits = true) (ha : ∀ f, F f → f.addr = l.addr → f.apart l = true) :
    KeepsFields F a (s.put l v) := by
  refine h.trans ⟨fun f hf => ?_, rfl, rfl⟩
  by_cases e : f.addr = l.addr
  · exact get_put_apart s v hl e (ha f hf e)
  · exact get_put_other s v e

theorem setPin (h : KeepsFields F a s) {n : Nat} {x : Pin} : KeepsFields F a (s.setPin n x) := h.trans ⟨fun _ _ => rfl, rfl, rfl⟩

theorem fireChannel (h : KeepsFields F a s) {n : Nat} : KeepsFields F a (s.fireChannel n) := h.trans ⟨fun _ _ => rfl, rfl, rfl⟩

theorem monitor (h : KeepsFields F a s) {m : Monitor} : KeepsFields F a { s with monitor := m } := h.trans ⟨fun _ _ => rfl, rfl, rfl⟩

section quiet
variable (hq : ∀ f, F f → Quiet f)
include hq

theorem source (h : KeepsFields F a s) {n : Nat} (hn : n < 2048) : KeepsFields F a (s.source n) := by
  obtain ⟨r, o, e⟩ := s.source_beside n
  refine h.trans ⟨fun f hf => get_eq_of_reg ?_, ticks_source s n, by rw [e]⟩
  have hplace := hq f hf
  unfold Quiet at hplace
  exact reg_source s n (by unfold EV_PEND; omega) (by unfold msixPending; omega) (by unfold msixPending; omega)

/-- A field of the wear monitor is written. -/
theorem putWear (h : KeepsFields F a s) {l : Field} {v : Nat} (hl : (Nat.ble 0x5000 l.addr && Nat.blt l.addr 0x40000) = true) (hf : l.fits = true) :
    KeepsFields F a (s.put l v) := h.put hf fun f hF e => by
  obtain ⟨hlow, hhigh⟩ := (Bool.and_eq_true _ _).mp hl
  have hlow := Nat.le_of_ble_eq_true hlow
  have hhigh := Nat.le_of_ble_eq_true hhigh
  have hplace := hq f hF
  unfold Quiet at hplace
  omega

theorem lifeModel (h : KeepsFields F a s) : KeepsFields F a s.lifeModel := ((h.putWear hq rfl rfl).putWear hq rfl rfl).putWear hq rfl rfl

theorem contactCycle (h : KeepsFields F a s) : KeepsFields F a s.contactCycle :=
  (h.putWear (l := GL_WEAR_CONTACT_COUNT) hq rfl rfl).monitor.lifeModel hq

theorem touchdown (h : KeepsFields F a s) {g : Nat} : KeepsFields F a (s.touchdown g) := by
  unfold State.touchdown
  split
  · exact h.ifTrue ((refl s).contactCycle hq)
  · exact h

end quiet

/-! ### Latches (R188) -/

section latches
variable {g : Nat}

/-- A latch of the pin is written. -/
theorem putLatch (h : KeepsFields (OffLatches g) a s) {hi lo v : Nat} (hf : (Field.mk (PN_CMP g) hi lo).fits = true) (hlo : 2 ≤ lo) :
    KeepsFields (OffLatches g) a (s.put ⟨PN_CMP g, hi, lo⟩ v) :=
  h.put hf fun _ hF e => (Bool.or_eq_true _ _).mpr (.inl (Nat.ble_eq_true_of_le ((hF.2 e).trans_le hlo)))

variable (hg : g < 512)
include hg

theorem latch (h : KeepsFields (OffLatches g) a s) {hi lo : Bool} : KeepsFields (OffLatches g) a (s.latch g hi lo) :=
  ((h.ifTrue (((refl _).touchdown fun _ hf => hf.1).putLatch rfl (by decide))).ifTrue ((refl _).putLatch rfl (by decide))).ifTrue
    ((refl _).source (fun _ hf => hf.1) (by omega)).fireChannel

theorem latchFrom (h : KeepsFields (OffLatches g) a s) {n : Nat} {hi lo : Bool} : KeepsFields (OffLatches g) a (s.latchFrom g n hi lo) :=
  ((h.setPin.ifTrue ((refl _).putLatch rfl (by decide))).ifTrue ((refl _).putLatch rfl (by decide))).latch hg

theorem latchClear (h : KeepsFields (OffLatches g) a s) {n : Nat} : KeepsFields (OffLatches g) a (s.latchClear g n) := h.ifFalse ((refl s).latchFrom hg)

theorem catchUp (h : KeepsFields (OffLatches g) a s) {n : Nat} : KeepsFields (OffLatches g) a (s.catchUp g n) :=
  h.setPin.foldl _ fun s _ => (refl s).latchClear hg

end latches

/-! ### Outputs (R185 to R190) -/

section outputs
variable {g : Nat}

/-- A field that shows a comparator is written. -/
theorem putOutput (h : KeepsFields (OffOutputs g) a s) {hi lo v : Nat} (hf : (Field.mk (PN_CMP g) hi lo).fits = true) :
    KeepsFields (OffOutputs g) a (s.put ⟨PN_CMP g, hi, lo⟩ v) := h.put hf fun _ hF e => absurd e hF.2

/-- UNRES_HI or UNRES_LO is written. -/
theorem putUnresolved (h : KeepsFields (OffComparators g) a s) {high : Bool} {v : Nat} :
    KeepsFields (OffComparators g) a (s.put (if high then PN_STAT_UNRES_HI g else PN_STAT_UNRES_LO g) v) := by
  refine h.put (by cases high <;> rfl) fun f hF e => (Bool.or_eq_true _ _).mpr ?_
  cases high with
  | true => exact (hF.2 e).imp (fun b => Nat.ble_eq_true_of_le (Nat.le_trans b (by decide : 2 ≤ 3))) Nat.ble_eq_true_of_le
  | false => exact (hF.2 e).imp Nat.ble_eq_true_of_le fun b => Nat.ble_eq_true_of_le (Nat.le_trans (by decide : 3 ≤ 4) b)

variable (hg : g < 512)
include hg

theorem setOutput (h : KeepsFields (OffOutputs g) a s) {n : Nat} {high above : Bool} : KeepsFields (OffOutputs g) a (s.setOutput g n high above) := by
  have hlatches (f : Field) : OffOutputs g f → OffLatches g f := OffOutputs.offLatches
  have hcaught := ((refl s).catchUp (n := n) hg).mono hlatches
  exact ((((h.trans hcaught).setPin.putOutput (by rfl)).putOutput (by rfl)).trans (((refl _).latch hg).mono hlatches)).ifTrue (refl _).setPin

theorem complement (h : KeepsFields (OffOutputs g) a s) {n : Nat} : KeepsFields (OffOutputs g) a (s.complement g n) :=
  h.ifFalse (((refl _).ifFalse ((refl _).setOutput hg)).ifFalse ((refl _).setOutput hg))

theorem resolveInput (h : KeepsFields (OffComparators g) a s) {high : Bool} {i : CmpInput} : KeepsFields (OffComparators g) a (s.resolveInput g high i) :=
  (h.trans (((refl s).setOutput hg).mono fun _ => OffComparators.offOutputs)).putUnresolved

theorem followOne (h : KeepsFields (OffComparators g) a s) {high : Bool} {v : Int} : KeepsFields (OffComparators g) a (s.followOne g high v) :=
  (h.ifFalse (((refl s).setOutput hg).mono fun _ => OffComparators.offOutputs)).ifTrue (refl _).putUnresolved

theorem followTie (h : KeepsFields (OffComparators g) a s) : KeepsFields (OffComparators g) a (s.followTie g) := by
  unfold State.followTie
  split
  · exact h
  · exact h.ifFalse (((refl s).followOne hg).followOne hg)

theorem selfTestOutputs (h : KeepsFields (OffComparators g) a s) {before : Bool} : KeepsFields (OffComparators g) a (s.selfTestOutputs g before) :=
  ite (h.followTie hg) (h.ifFalse (((refl s).complement hg).mono fun _ => OffComparators.offOutputs))

end outputs

end KeepsFields

namespace State

/-! ### What a comparator is set to (R185, R189, R190) -/

/-- A field of one bit or more takes a truth value. -/
theorem on_put_b2n (s : State) {f : Field} (hf : f.fits = true) (b : Bool) : (s.put f (b2n b)).on f = b := by
  have hwidth : 2 ≤ 2 ^ (f.hi + 1 - f.lo) := Nat.le_self_pow (by have := (lo_le_hi_of_fits hf).1; omega) 2
  rw [on_put_of_fits s _ hf, Nat.mod_eq_of_lt ((b2n_lt_two b).trans_le hwidth)]
  cases b <;> rfl

section settings
variable {g : Nat} (hg : g < 512) {s u : State} (h : ∀ f, OffStatus g f → u.get f = s.get f)
include hg h

theorem tiedTo_congr : u.tiedTo g = s.tiedTo g := by
  have hself : u.get (PN_CTRL_SELFTEST g) = s.get (PN_CTRL_SELFTEST g) := h _ (offStatus_pin hg (by decide) (by decide))
  have hlevel (k : Nat) (hk : k < 7) : u.levelOf g k = s.levelOf g k := congrArg (levelVolts k) (h _ (offStatus_level hg hk))
  rw [State.tiedTo, State.tiedTo, hself, hlevel 0 (by decide), hlevel 1 (by decide)]

theorem swapped_congr : u.swapped g = s.swapped g := by
  have hself : u.get (PN_CTRL_SELFTEST g) = s.get (PN_CTRL_SELFTEST g) := h _ (offStatus_pin hg (by decide) (by decide))
  rw [State.swapped, State.swapped, hself]

omit hg in
theorem asleep_congr : u.asleep = s.asleep := by
  have hstate : u.get GL_PWR_STAT_STATE = s.get GL_PWR_STAT_STATE := h _ (offStatus_low (by decide))
  rw [State.asleep, State.asleep, hstate]

theorem comparatorRuns_congr (high : Bool) : u.comparatorRuns g high = s.comparatorRuns g high := by
  have hmode : u.get (PN_CTRL_CMP_MODE g) = s.get (PN_CTRL_CMP_MODE g) := h _ (offStatus_pin hg (by decide) (by decide))
  rw [State.comparatorRuns, State.comparatorRuns, asleep_congr h, hmode]

theorem inputOf_congr (high : Bool) (i : CmpInput) : u.inputOf g high i = s.inputOf g high i := by
  have hlevel (k : Nat) (hk : k < 7) : u.levelOf g k = s.levelOf g k := congrArg (levelVolts k) (h _ (offStatus_level hg hk))
  have hwatch : u.get (PN_CTRL_WATCH_THR g) = s.get (PN_CTRL_WATCH_THR g) := h _ (offStatus_pin hg (by decide) (by decide))
  have hhyst : u.get (PN_CTRL_HYST g) = s.get (PN_CTRL_HYST g) := h _ (offStatus_pin hg (by decide) (by decide))
  have hthr : u.threshold g high = s.threshold g high := by
    rw [State.threshold, State.threshold, asleep_congr h, hwatch, hlevel _ (by cases high <;> decide)]
  have hband : u.hysteresis g = s.hysteresis g := by
    rw [State.hysteresis, State.hysteresis, asleep_congr h, hhyst]
  unfold State.inputOf
  rw [tiedTo_congr hg h, swapped_congr hg h, hthr, hband]

end settings

/-! ### Outputs and their resolution (R185, R187) -/

section outputs
variable {g : Nat} (hg : g < 512)
include hg

theorem above_of_keeps {s u : State} (h : KeepsFields (OffLatches g) s u) : u.above g = s.above g := by
  have hhigh : u.on (PN_CMP_ABOVE_H g) = s.on (PN_CMP_ABOVE_H g) := on_eq_of_get (h.fields _ (offLatches_cmp hg (by decide)))
  have hlow : u.on (PN_CMP_ABOVE_L g) = s.on (PN_CMP_ABOVE_L g) := on_eq_of_get (h.fields _ (offLatches_cmp hg (by decide)))
  rw [State.above, hhigh, hlow, State.above]

omit hg in
theorem above_put_outputs (s : State) (n : Bool × Bool) : ((s.put (PN_CMP_ABOVE_H g) (b2n n.1)).put (PN_CMP_ABOVE_L g) (b2n n.2)).above g = n := by
  let q := s.put (PN_CMP_ABOVE_H g) (b2n n.1)
  have hstays : (q.put (PN_CMP_ABOVE_L g) (b2n n.2)).get (PN_CMP_ABOVE_H g) = q.get (PN_CMP_ABOVE_H g) :=
    get_put_apart (f := PN_CMP_ABOVE_L g) (g := PN_CMP_ABOVE_H g) q _ rfl rfl rfl
  have hhigh : q.on (PN_CMP_ABOVE_H g) = n.1 := on_put_b2n (f := PN_CMP_ABOVE_H g) s rfl n.1
  have hlow : (q.put (PN_CMP_ABOVE_L g) (b2n n.2)).on (PN_CMP_ABOVE_L g) = n.2 := on_put_b2n (f := PN_CMP_ABOVE_L g) q rfl n.2
  rw [State.above, on_eq_of_get hstays, hhigh, hlow]

/-- One output takes its value, the other one stays. -/
theorem above_setOutput (s : State) (n : Nat) (high b : Bool) :
    (s.setOutput g n high b).above g = if high then (b, (s.above g).2) else ((s.above g).1, b) := by
  unfold State.setOutput
  extract_lets q o n x base low q1 q2 q3
  have hcaught : q.above g = s.above g := above_of_keeps hg ((KeepsFields.refl s).catchUp hg)
  have hlatched : q3.above g = n := (above_of_keeps hg ((KeepsFields.refl q2).latch hg)).trans (above_put_outputs q1 n)
  have hset : (if n.1 then q3.setPin g { q3.pin g with lowSince := none } else q3).above g = q3.above g := by
    split <;> rfl
  rw [hset, hlatched, ← hcaught]

omit hg in
theorem above_put_stat (s : State) {hi lo : Nat} (v : Nat) : (s.put ⟨PN_STAT g, hi, lo⟩ v).above g = s.above g := by
  have hother (f : Field) (hf : f.addr = PN_CMP g) : (s.put ⟨PN_STAT g, hi, lo⟩ v).on f = s.on f :=
    on_eq_of_get (get_put_other s v (by rw [hf]; unfold PN_CMP PN_STAT; dsimp only; omega))
  rw [State.above, hother _ rfl, hother _ rfl, State.above]

end outputs

/-- UNRES_HI or UNRES_LO. -/
def unresolved (g : Nat) (high : Bool) : Field := if high then PN_STAT_UNRES_HI g else PN_STAT_UNRES_LO g

theorem above_put_unresolved (s : State) (g : Nat) (high : Bool) (v : Nat) : (s.put (unresolved g high) v).above g = s.above g := by
  cases high <;> exact above_put_stat s v

theorem fits_unresolved (g : Nat) (high : Bool) : (unresolved g high).fits = true := by
  cases high <;> rfl

/-- Writing one of them leaves the other. -/
theorem on_put_unresolved_not (s : State) (g : Nat) (high : Bool) (v : Nat) :
    (s.put (unresolved g high) v).on (unresolved g (!high)) = s.on (unresolved g (!high)) := by
  cases high <;> exact on_eq_of_get (get_put_apart s v rfl rfl rfl)

theorem offOutputs_unresolved {g : Nat} (hg : g < 512) (high : Bool) : OffOutputs g (unresolved g high) := by
  cases high <;> exact offOutputs_stat hg

end State

open State

/-! ### A crossing (R185, R187, R190) -/

section crossing
variable {g : Nat} (hg : g < 512) {s : State} {high above : Bool} {at_ : Nat}
include hg

theorem State.crossingAt_of_running (hm : s.on (PN_STAT_MODE_SETTLING g) = false) (ht : s.tiedTo g = none) (hr : s.comparatorRuns g high = true) :
    s.crossingAt g high above at_ = ((s.advInst at_).setOutput g at_ high (above != s.swapped g)).put (unresolved g high) 0 := by
  have hsame (f : Field) (_ : OffStatus g f) : (s.advInst at_).get f = s.get f := get_advInst s at_ f
  have hsettling : (s.advInst at_).on (PN_STAT_MODE_SETTLING g) = false := (on_eq_of_get (get_advInst s at_ _)).trans hm
  rw [State.crossingAt, State.crossing, hsettling, tiedTo_congr hg hsame, ht, comparatorRuns_congr hg hsame, hr, swapped_congr hg hsame]
  rfl

theorem State.crossingAt_of_held (h : s.on (PN_STAT_MODE_SETTLING g) = true ∨ s.tiedTo g ≠ none) : s.crossingAt g high above at_ = s.advInst at_ := by
  have hsame (f : Field) (_ : OffStatus g f) : (s.advInst at_).get f = s.get f := get_advInst s at_ f
  have hheld : (s.on (PN_STAT_MODE_SETTLING g) || (s.tiedTo g).isSome) = true :=
    (Bool.or_eq_true _ _).mpr (h.imp_right fun ht => Option.isSome_iff_ne_none.mpr ht)
  have hsettling : (s.advInst at_).on (PN_STAT_MODE_SETTLING g) = s.on (PN_STAT_MODE_SETTLING g) := on_eq_of_get (get_advInst s at_ _)
  rw [State.crossingAt, State.crossing, hsettling, tiedTo_congr hg hsame, hheld]
  rfl

end crossing

section crossing
variable {g : Fin 512} {s : State} {high above : Bool} {at_ : Nat}

/-- The output that crosses takes its side, the other one stays. -/
theorem exec_comparatorCrossing_runs (hm : s.on (PN_STAT_MODE_SETTLING g.val) = false) (ht : s.tiedTo g.val = none) (hr : s.comparatorRuns g.val high = true) :
    ∃ u, exec (.comparatorCrossing g high above at_) s = .next u ∧
      u.above g.val = (if high then (above != s.swapped g.val, (s.above g.val).2) else ((s.above g.val).1, above != s.swapped g.val)) ∧
      u.on (unresolved g.val high) = false ∧ u.ticks = max s.ticks (at_ / 1280) := by
  let v := s.advInst at_
  have habove : v.above g.val = s.above g.val := by
    simp only [v, State.above, State.on, get_advInst]
  have hticks : (v.setOutput g.val at_ high (above != s.swapped g.val)).ticks = v.ticks := ((KeepsFields.refl v).setOutput g.isLt).ticks
  refine ⟨_, congrArg Host.Outcome.next (crossingAt_of_running g.isLt hm ht hr), ?_, ?_, hticks.trans (ticks_advTo ..)⟩
  · rw [above_put_unresolved, above_setOutput g.isLt, habove]
  · exact on_put_b2n _ (fits_unresolved ..) false

theorem exec_comparatorCrossing_high (hm : s.on (PN_STAT_MODE_SETTLING g.val) = false) (ht : s.tiedTo g.val = none)
    (hr : s.comparatorRuns g.val true = true) : ∃ u, exec (.comparatorCrossing g true above at_) s = .next u ∧
      u.on (PN_CMP_ABOVE_H g.val) = (above != s.swapped g.val) ∧ u.on (PN_CMP_ABOVE_L g.val) = s.on (PN_CMP_ABOVE_L g.val) ∧
      u.on (PN_STAT_UNRES_HI g.val) = false ∧ u.ticks = max s.ticks (at_ / 1280) := by
  obtain ⟨u, hu, habove, hres, hticks⟩ := exec_comparatorCrossing_runs hm ht hr
  exact ⟨u, hu, congrArg Prod.fst habove, congrArg Prod.snd habove, hres, hticks⟩

theorem exec_comparatorCrossing_low (hm : s.on (PN_STAT_MODE_SETTLING g.val) = false) (ht : s.tiedTo g.val = none)
    (hr : s.comparatorRuns g.val false = true) : ∃ u, exec (.comparatorCrossing g false above at_) s = .next u ∧
      u.on (PN_CMP_ABOVE_L g.val) = (above != s.swapped g.val) ∧ u.on (PN_CMP_ABOVE_H g.val) = s.on (PN_CMP_ABOVE_H g.val) ∧
      u.on (PN_STAT_UNRES_LO g.val) = false ∧ u.ticks = max s.ticks (at_ / 1280) := by
  obtain ⟨u, hu, habove, hres, hticks⟩ := exec_comparatorCrossing_runs hm ht hr
  exact ⟨u, hu, congrArg Prod.snd habove, congrArg Prod.fst habove, hres, hticks⟩

theorem exec_comparatorCrossing_held (h : s.on (PN_STAT_MODE_SETTLING g.val) = true ∨ s.tiedTo g.val ≠ none) :
    ∃ u, exec (.comparatorCrossing g high above at_) s = .next u ∧ u.regs = s.regs :=
  ⟨_, congrArg Host.Outcome.next (crossingAt_of_held g.isLt h), regs_advTo ..⟩

end crossing

/-! ### A mode change settles (R186, R187) -/

namespace State

section resolve
variable {g : Nat} (hg : g < 512) (s : State) (high : Bool) (i : CmpInput)
include hg

theorem above_resolveInput : (s.resolveInput g high i).above g =
    if high then (s.inputOf g high i == .above, (s.above g).2) else ((s.above g).1, s.inputOf g high i == .above) :=
  (above_put_unresolved ..).trans (above_setOutput hg s s.now high _)

omit hg in
theorem on_unresolved_resolveInput : (s.resolveInput g high i).on (unresolved g high) = (s.inputOf g high i == .inside) :=
  on_put_b2n _ (fits_unresolved g high) _

theorem on_unresolved_resolveInput_not : (s.resolveInput g high i).on (unresolved g (!high)) = s.on (unresolved g (!high)) :=
  (on_put_unresolved_not _ g high _).trans (on_eq_of_get (((KeepsFields.refl s).setOutput hg).fields _ (offOutputs_unresolved hg _)))

end resolve

end State

theorem exec_cmpModeSettled (g : Fin 512) (hi lo : CmpInput) (s : State) : ∃ u, exec (.cmpModeSettled g hi lo) s = .next u ∧
    u.on (PN_STAT_MODE_SETTLING g.val) = false ∧
    u.on (PN_CMP_ABOVE_H g.val) = (s.inputOf g.val true hi == .above) ∧ u.on (PN_CMP_ABOVE_L g.val) = (s.inputOf g.val false lo == .above) ∧
    u.on (PN_STAT_UNRES_HI g.val) = (s.inputOf g.val true hi == .inside) ∧ u.on (PN_STAT_UNRES_LO g.val) = (s.inputOf g.val false lo == .inside) := by
  have hg := g.isLt
  let q := s.put (PN_STAT_MODE_SETTLING g.val) 0
  let q1 := q.resolveInput g.val true hi
  have hkeep : KeepsFields (OffComparators g.val) q q1 := (KeepsFields.refl q).resolveInput hg
  have hq (f : Field) (hf : OffStatus g.val f) : q.get f = s.get f := get_put_other s 0 hf.2
  have hq1 (f : Field) (hf : OffStatus g.val f) : q1.get f = s.get f := (hkeep.fields f hf.offComparators).trans (hq f hf)
  have hhigh : q.inputOf g.val true hi = s.inputOf g.val true hi := inputOf_congr hg hq true hi
  have hlow : q1.inputOf g.val false lo = s.inputOf g.val false lo := inputOf_congr hg hq1 false lo
  have habove : (q1.resolveInput g.val false lo).above g.val = (s.inputOf g.val true hi == .above, s.inputOf g.val false lo == .above) := by
    rw [above_resolveInput hg, above_resolveInput hg, hlow, hhigh]
    rfl
  have hsettled : (q1.resolveInput g.val false lo).on (PN_STAT_MODE_SETTLING g.val) = false :=
    (on_eq_of_get ((hkeep.resolveInput hg).fields _ (offComparators_stat hg (.inr (by decide))))).trans
      (on_put_b2n (f := PN_STAT_MODE_SETTLING g.val) s rfl false)
  have hres : (q1.resolveInput g.val false lo).on (PN_STAT_UNRES_HI g.val) = (s.inputOf g.val true hi == .inside) :=
    (on_unresolved_resolveInput_not hg q1 false lo).trans (hhigh ▸ on_unresolved_resolveInput q true hi)
  exact ⟨_, rfl, hsettled, congrArg Prod.fst habove, congrArg Prod.snd habove, hres, hlow ▸ on_unresolved_resolveInput q1 false lo⟩

/-! ### Levels (R177 to R179) -/

section level
variable {v : View} {g : Fin 512} {s : State} (hr : s.ready = true) (hv : directView v = true) (code : BitVec 16)
include hr hv

theorem exec_levelRegWrite (k : Fin 8) : exec (.levelRegWrite v g k code) s = .next (s.writeLevel g.val k.val code.toNat) := by
  have hcode : code.toNat % 2 ^ 16 = code.toNat := Nat.mod_eq_of_lt code.isLt
  change Host.Outcome.next (s.regWrite v (levelReg g.val k.val) code.toNat) = _
  by_cases hk : k.val = 7
  · have hd := regAt_ppmuForce_isSome g.isLt
    rw [levelReg, if_pos hk, PN_PPMU_FORCE, regWrite_pin g.isLt (by decide) hr hv rfl hd, ← PN_PPMU_FORCE,
      writePin_ppmuForce, hcode, hk]
  · have hk : k.val < 7 := by omega
    have hd := regAt_pinLevel_isSome g.isLt ⟨k.val, hk⟩
    have hplace : PN_LVL g.val k.val = pnBase g.val + (0x10 + 4 * k.val) := Nat.add_assoc ..
    rw [levelReg, if_neg (by omega), hplace, regWrite_pin g.isLt (by omega) hr hv (by omega) (hplace ▸ hd), ← hplace,
      writePin_level s g.val code.toNat hk, hcode]

end level

namespace State

/-- The clamp codes of a pin, once level k has its new code, are allowed (R179). -/
def clampsWith (s : State) (g k code : Nat) : Bool :=
  clampsOk (if 5 = k then code else s.get (PN_LVL_CODE g 5)) (if 6 = k then code else s.get (PN_LVL_CODE g 6))

theorem writeLevel_eq (s : State) (g k code : Nat) : s.writeLevel g k code =
    if 5 ≤ k && k < 7 && !s.clampsWith g k code then s.mark (PN_STAT_CLAMP_REJ g)
    else if s.queueStands (g / 8) (8 + 8 * k + g % 8) then s
    else if k = 7 then s.put (PN_PPMU_FORCE_CODE g) code
    else (s.put (PN_LVL_CODE g k) code).followTie g := rfl

theorem followTie_of_untied {s : State} {g : Nat} (h : s.tiedTo g = none) : s.followTie g = s := by
  rw [State.followTie, h]

/-- Whether the inputs are tied depends on SELFTEST alone. -/
theorem tiedTo_eq_none_of_selfTest {s u : State} {g : Nat} (h : u.get (PN_CTRL_SELFTEST g) = s.get (PN_CTRL_SELFTEST g)) (ht : s.tiedTo g = none) :
    u.tiedTo g = none := by
  unfold State.tiedTo at ht ⊢
  rw [h]
  split at ht
  case h_5 => rfl
  all_goals exact absurd ht (Option.some_ne_none _)

section stored
variable {s : State} {g k code : Nat}

theorem writeLevel_stored (hk : k < 7) (hc : 5 ≤ k → s.clampsWith g k code = true) (hq : s.queueStands (g / 8) (8 + 8 * k + g % 8) = false) :
    s.writeLevel g k code = (s.put (PN_LVL_CODE g k) code).followTie g := by
  have hallowed : (decide (5 ≤ k) && decide (k < 7) && !s.clampsWith g k code) = false := by
    by_cases h5 : 5 ≤ k
    · rw [hc h5, Bool.not_true, Bool.and_false]
    · rw [decide_eq_false h5, Bool.false_and, Bool.false_and]
  rw [writeLevel_eq, hallowed, hq, if_neg Bool.false_ne_true, if_neg Bool.false_ne_true, if_neg (by omega)]

theorem get_writeLevel_stored (hg : g < 512) (hk : k < 7) (hcode : code < 2 ^ 16) :
    ((s.put (PN_LVL_CODE g k) code).followTie g).get (PN_LVL_CODE g k) = code :=
  (((KeepsFields.refl _).followTie hg).fields _ (offStatus_level hg hk).offComparators).trans
    ((get_put_of_fits (f := PN_LVL_CODE g k) s code rfl).trans (Nat.mod_eq_of_lt hcode))

theorem reg_writeLevel_untied (ht : s.tiedTo g = none) {a : Nat} (ha : a ≠ PN_LVL g k) :
    ((s.put (PN_LVL_CODE g k) code).followTie g).reg a = s.reg a := by
  have hself : (s.put (PN_LVL_CODE g k) code).get (PN_CTRL_SELFTEST g) = s.get (PN_CTRL_SELFTEST g) :=
    get_put_other s code (by unfold PN_CTRL_SELFTEST PN_CTRL PN_LVL_CODE PN_LVL; dsimp only; omega)
  rw [followTie_of_untied (tiedTo_eq_none_of_selfTest hself ht)]
  exact reg_put_other s (PN_LVL_CODE g k) code ha

end stored

end State

section level
variable {v : View} {g : Fin 512} {s : State} (hr : s.ready = true) (hv : directView v = true) {code : BitVec 16}
include hr hv

theorem exec_levelRegWrite_level {k : Fin 8} (hq : s.queueStands (g.val / 8) (8 + 8 * k.val + g.val % 8) = false) (hk : k.val < 7)
    (hc : 5 ≤ k.val → s.clampsWith g.val k.val code.toNat = true) : ∃ u, exec (.levelRegWrite v g k code) s = .next u ∧
      u.get (PN_LVL_CODE g.val k.val) = code.toNat ∧ (s.tiedTo g.val = none → ∀ a, a ≠ PN_LVL g.val k.val → u.reg a = s.reg a) :=
  ⟨_, (exec_levelRegWrite hr hv code k).trans (congrArg Host.Outcome.next (writeLevel_stored hk hc hq)),
    get_writeLevel_stored g.isLt hk code.isLt, fun ht _ ha => reg_writeLevel_untied ht ha⟩

theorem exec_levelRegWrite_clh {k : Fin 8} (hq : s.queueStands (g.val / 8) (8 + 8 * k.val + g.val % 8) = false) (hk : k.val = 5)
    (hc : clampsOk code.toNat (s.get (PN_LVL_CODE g.val 6)) = true) : ∃ u, exec (.levelRegWrite v g k code) s = .next u ∧
      u.get (PN_LVL_CODE g.val 5) = code.toNat ∧ (s.tiedTo g.val = none → ∀ a, a ≠ PN_LVL g.val 5 → u.reg a = s.reg a) :=
  hk ▸ exec_levelRegWrite_level hr hv hq (by omega) fun _ => by rw [hk]; exact hc

theorem exec_levelRegWrite_cll {k : Fin 8} (hq : s.queueStands (g.val / 8) (8 + 8 * k.val + g.val % 8) = false) (hk : k.val = 6)
    (hc : clampsOk (s.get (PN_LVL_CODE g.val 5)) code.toNat = true) : ∃ u, exec (.levelRegWrite v g k code) s = .next u ∧
      u.get (PN_LVL_CODE g.val 6) = code.toNat ∧ (s.tiedTo g.val = none → ∀ a, a ≠ PN_LVL g.val 6 → u.reg a = s.reg a) :=
  hk ▸ exec_levelRegWrite_level hr hv hq (by omega) fun _ => by rw [hk]; exact hc

theorem exec_levelRegWrite_force {k : Fin 8} (hq : s.queueStands (g.val / 8) (8 + 8 * k.val + g.val % 8) = false) (hk : k.val = 7) :
    ∃ u, exec (.levelRegWrite v g k code) s = .next u ∧ u.get (PN_PPMU_FORCE_CODE g.val) = code.toNat ∧
      ∀ a, a ≠ PN_PPMU_FORCE g.val → u.reg a = s.reg a := by
  have hput : s.writeLevel g.val k.val code.toNat = s.put (PN_PPMU_FORCE_CODE g.val) code.toNat := by
    rw [writeLevel_eq, hq, hk]
    rfl
  exact ⟨_, (exec_levelRegWrite hr hv code k).trans (congrArg Host.Outcome.next hput),
    (get_put_of_fits (f := PN_PPMU_FORCE_CODE g.val) s _ rfl).trans (Nat.mod_eq_of_lt code.isLt),
    fun _ ha => reg_put_other s (PN_PPMU_FORCE_CODE g.val) _ ha⟩

/-- The queue's value stands. -/
theorem exec_levelRegWrite_overtaken {k : Fin 8} (hk : k.val < 5) (hq : s.queueStands (g.val / 8) (8 + 8 * k.val + g.val % 8) = true) :
    exec (.levelRegWrite v g k code) s = .next s := by
  rw [exec_levelRegWrite hr hv, writeLevel_eq, decide_eq_false (by omega : ¬5 ≤ k.val), hq]
  rfl

theorem exec_levelRegWrite_refused {k : Fin 8} (h5 : 5 ≤ k.val) (h7 : k.val < 7) (hc : s.clampsWith g.val k.val code.toNat = false) :
    ∃ u, exec (.levelRegWrite v g k code) s = .next u ∧ u.on (PN_STAT_CLAMP_REJ g.val) = true ∧ ∀ a, a ≠ PN_STAT g.val → u.reg a = s.reg a := by
  have hmark : s.writeLevel g.val k.val code.toNat = s.mark (PN_STAT_CLAMP_REJ g.val) := by
    rw [writeLevel_eq, decide_eq_true h5, decide_eq_true h7, hc]
    rfl
  exact ⟨_, (exec_levelRegWrite hr hv code k).trans (congrArg Host.Outcome.next hmark), on_mark_of_fits (f := PN_STAT_CLAMP_REJ g.val) s rfl,
    fun _ ha => reg_mark_other s (PN_STAT_CLAMP_REJ g.val) ha⟩

end level

/-! ### PN_CTRL (R181 to R190, R430) -/

namespace State

/-- The state in which a write of PN_CTRL meets its pin. -/
def ctrlMet (s : State) (g w : Nat) : State := (s.catchUp g s.now).connects g (w.testBit 0 && !s.power.noSafe)

/-- The word, with the driver and the clamps as they are while no safe codes are loaded (R430). -/
def ctrlWord (s : State) (g w : Nat) : Nat := if s.power.noSafe then insert32 w 1 0 (s.get ⟨PN_CTRL g, 1, 0⟩) else w

/-- The write changes SELFTEST while the tiller runs (R190). -/
def selfTestBusy (s : State) (g w : Nat) : Bool :=
  decide (bits w 11 9 ≤ 5 ∧ bits w 11 9 ≠ s.get (PN_CTRL_SELFTEST g)) && (decide (s.engine (g / 8) = 1) || decide (s.engine (g / 8) = 3))

/-- The word that PN_CTRL takes. -/
def ctrlTaken (s : State) (g w : Nat) : Nat := if s.selfTestBusy g w then insert32 w 11 9 (s.get (PN_CTRL_SELFTEST g)) else w

/-- What follows in the pin's status and its outputs. -/
def ctrlShown (s : State) (g : Nat) (busy : Bool) (before : Bool) : State :=
  let s2 := s.andThen busy (·.mark (PN_STAT_WR_BUSY g))
  (s2.put (PN_STAT_SELFTEST_ACTIVE g) (b2n ((s2.pin g).calPath || s2.get (PN_CTRL_SELFTEST g) ≠ 0))).selfTestOutputs g before

theorem writePinCtrl_eq (s : State) (g w : Nat) : s.writePinCtrl g w =
    let q := s.ctrlMet g w
    let x := q.ctrlWord g w
    let u := (q.storeWord (PN_CTRL g) (q.ctrlTaken g x)).ctrlShown g (q.selfTestBusy g x) (q.swapped g)
    u.andThen (u.get (PN_CTRL_CMP_MODE g) ≠ q.get (PN_CTRL_CMP_MODE g)) (·.mark (PN_STAT_MODE_SETTLING g)) := rfl

end State

namespace KeepsFields

variable {F : Field → Prop} {a s : State} {g : Nat}

theorem andThen (h : KeepsFields F a s) {c : Bool} {f : State → State} (k : KeepsFields F s (f s)) : KeepsFields F a (s.andThen c f) := h.ifTrue k

theorem putStat (h : KeepsFields (OffStatus g) a s) {hi lo v : Nat} (hf : (Field.mk (PN_STAT g) hi lo).fits = true) :
    KeepsFields (OffStatus g) a (s.put ⟨PN_STAT g, hi, lo⟩ v) := h.put hf fun _ hF e => absurd e hF.2

/-- Self-check paths of pins open (R340). -/
theorem connects (h : KeepsFields F a s) (hF : ∀ f, F f → ∀ g', f.addr ≠ PN_STAT g') {b : Bool} : KeepsFields F a (s.connects g b) := by
  refine h.ifTrue ⟨fun f hf => get_eq_of_reg (reg_endStep _ fun g' _ => hF f hf g'), ticks_endStep .., ?_⟩
  obtain ⟨r, p, c, e⟩ := State.endStep_beside (s.setCalTl (g / 8) { s.calTl (g / 8) with prober := 0 }) (g / 8)
  rw [State.endInterval, e]
  rfl

theorem ctrlShown (h : KeepsFields (OffStatus g) a s) (hg : g < 512) {busy before : Bool} : KeepsFields (OffStatus g) a (s.ctrlShown g busy before) :=
  ((h.andThen ((refl s).putStat rfl)).putStat rfl).trans (((refl _).selfTestOutputs hg).mono fun _ => OffStatus.offComparators)

end KeepsFields

/-! The fields that a write of PN_CTRL reads and writes. -/

namespace State

/-- The word that PN_CTRL takes of one written to it. -/
def ctrlTakenMet (s : State) (g w : Nat) : Nat := (s.ctrlMet g w).ctrlTaken g ((s.ctrlMet g w).ctrlWord g w)

section ctrl
variable {g : Nat} (hg : g < 512) (s : State) (w : Nat)
include hg

/-- Neither the latches nor the end of a calibration interval reach PN_CTRL or the tiller's state. -/
theorem keeps_ctrlMet : KeepsFields (fun f => f.addr = PN_CTRL g ∨ f = TL_SEQ_STAT_STATE (g / 8)) s (s.ctrlMet g w) := by
  have hoff (f : Field) (hf : f.addr = PN_CTRL g ∨ f = TL_SEQ_STAT_STATE (g / 8)) : OffLatches g f := by
    obtain ⟨b, hi, lo⟩ := f
    rcases hf with rfl | e
    · exact (offStatus_pin hg (o := 0) (by decide) (by decide)).offComparators.offOutputs.offLatches
    · exact e ▸ (offStatus_engine (by omega)).offComparators.offOutputs.offLatches
  refine (((KeepsFields.refl s).catchUp hg).mono hoff).connects fun f hf g' => ?_
  rcases hf with hf | hf
  · rw [hf]
    unfold PN_CTRL PN_STAT pnBase
    omega
  · rw [hf]
    unfold TL_SEQ_STAT_STATE TL_SEQ_STAT tlBase PN_STAT pnBase
    dsimp only
    omega

theorem get_ctrlMet {hi lo : Nat} : (s.ctrlMet g w).get ⟨PN_CTRL g, hi, lo⟩ = s.get ⟨PN_CTRL g, hi, lo⟩ := (keeps_ctrlMet hg s w).fields _ (.inl rfl)

theorem engine_ctrlMet : (s.ctrlMet g w).engine (g / 8) = s.engine (g / 8) := (keeps_ctrlMet hg s w).fields _ (.inr rfl)

/-- Once the word is stored the fields of PN_CTRL stand. -/
theorem get_writePinCtrl {hi lo : Nat} : (s.writePinCtrl g w).get ⟨PN_CTRL g, hi, lo⟩ =
    ((s.ctrlMet g w).storeWord (PN_CTRL g) (s.ctrlTakenMet g w)).get ⟨PN_CTRL g, hi, lo⟩ := by
  have hkeep (q : State) (busy before : Bool) : KeepsFields (OffStatus g) q (q.ctrlShown g busy before) := (KeepsFields.refl q).ctrlShown hg
  exact ((hkeep _ _ _).andThen ((KeepsFields.refl _).putStat rfl)).fields _ (offStatus_pin hg (by decide) (by decide))

theorem on_settling_writePinCtrl (h : (s.writePinCtrl g w).get (PN_CTRL_CMP_MODE g) ≠ s.get (PN_CTRL_CMP_MODE g)) :
    (s.writePinCtrl g w).on (PN_STAT_MODE_SETTLING g) = true := by
  let q := s.ctrlMet g w
  let u := (q.storeWord (PN_CTRL g) (s.ctrlTakenMet g w)).ctrlShown g (q.selfTestBusy g (q.ctrlWord g w)) (q.swapped g)
  have hu : s.writePinCtrl g w = u.andThen (u.get (PN_CTRL_CMP_MODE g) ≠ q.get (PN_CTRL_CMP_MODE g)) (·.mark (PN_STAT_MODE_SETTLING g)) := writePinCtrl_eq s g w
  have hq : q.get (PN_CTRL_CMP_MODE g) = s.get (PN_CTRL_CMP_MODE g) := get_ctrlMet hg s w
  have hmode : (s.writePinCtrl g w).get (PN_CTRL_CMP_MODE g) = u.get (PN_CTRL_CMP_MODE g) := by
    rw [hu]
    exact ((KeepsFields.refl u).andThen ((KeepsFields.refl u).putStat rfl)).fields _ (offStatus_pin hg (by decide) (by decide))
  rw [hmode, ← hq] at h
  rw [hu, State.andThen, decide_eq_true h, if_pos rfl]
  exact on_mark_of_fits (f := PN_STAT_MODE_SETTLING g) u rfl

theorem on_wrBusy_writePinCtrl (h : (s.ctrlMet g w).selfTestBusy g ((s.ctrlMet g w).ctrlWord g w) = true) :
    (s.writePinCtrl g w).on (PN_STAT_WR_BUSY g) = true := by
  let q := (s.ctrlMet g w).storeWord (PN_CTRL g) (s.ctrlTakenMet g w)
  have hactive (y : State) (v : Nat) : (y.put (PN_STAT_SELFTEST_ACTIVE g) v).get (PN_STAT_WR_BUSY g) = y.get (PN_STAT_WR_BUSY g) :=
    get_put_apart (f := PN_STAT_SELFTEST_ACTIVE g) (g := PN_STAT_WR_BUSY g) y v rfl rfl rfl
  have hsettling (y : State) (c : Bool) : (y.andThen c (·.mark (PN_STAT_MODE_SETTLING g))).get (PN_STAT_WR_BUSY g) = y.get (PN_STAT_WR_BUSY g) := by
    unfold State.andThen
    split
    · exact get_put_apart (f := PN_STAT_MODE_SETTLING g) (g := PN_STAT_WR_BUSY g) y 1 rfl rfl rfl
    · rfl
  have houtputs (y : State) (b : Bool) : (y.selfTestOutputs g b).get (PN_STAT_WR_BUSY g) = y.get (PN_STAT_WR_BUSY g) :=
    ((KeepsFields.refl y).selfTestOutputs hg).fields _ (offComparators_stat hg (.inr (by decide)))
  have hmark : (q.mark (PN_STAT_WR_BUSY g)).on (PN_STAT_WR_BUSY g) = true := on_mark_of_fits (f := PN_STAT_WR_BUSY g) q rfl
  rw [writePinCtrl_eq]
  dsimp only
  rw [on_eq_of_get (hsettling _ _), h, State.ctrlShown]
  exact (on_eq_of_get ((houtputs _ _).trans (hactive _ _))).trans hmark

/-! What PN_CTRL takes of the word. -/

theorem ctrlWord_met (hn : s.power.noSafe = false) : (s.ctrlMet g w).ctrlWord g w = w := by
  rw [State.ctrlWord, (keeps_ctrlMet hg s w).power, hn, if_neg Bool.false_ne_true]

omit hg in
theorem ctrlWord_lt (hw : w < 2 ^ 32) : s.ctrlWord g w < 2 ^ 32 := by
  unfold State.ctrlWord
  split
  · exact insert32_lt _ _ _ _ hw (by decide) (by decide)
  · exact hw

omit hg in
theorem bits_ctrlWord_selfTest (hw : w < 2 ^ 32) : bits (s.ctrlWord g w) 11 9 = bits w 11 9 := by
  unfold State.ctrlWord
  split
  · exact bits_insert32_other _ _ _ _ _ _ hw (by decide) (by decide) (.inr (by decide))
  · rfl

/-- The fields below SELFTEST are those of the word. -/
theorem bits_ctrlTakenMet {hi lo : Nat} (hw : w < 2 ^ 32) (hn : s.power.noSafe = false) (hhi : hi < 9) : bits (s.ctrlTakenMet g w) hi lo = bits w hi lo := by
  rw [ctrlTakenMet, ctrlWord_met hg s w hn, ctrlTaken]
  split
  · exact bits_insert32_other _ _ _ _ _ _ hw (by decide) (by decide) (.inl hhi)
  · rfl

theorem selfTestBusy_met (hw : w < 2 ^ 32) (he : s.engine (g / 8) = 1 ∨ s.engine (g / 8) = 3) (h5 : bits w 11 9 ≤ 5)
    (hne : bits w 11 9 ≠ s.get (PN_CTRL_SELFTEST g)) : (s.ctrlMet g w).selfTestBusy g ((s.ctrlMet g w).ctrlWord g w) = true := by
  have hself : (s.ctrlMet g w).get (PN_CTRL_SELFTEST g) = s.get (PN_CTRL_SELFTEST g) := get_ctrlMet hg s w
  rw [selfTestBusy, bits_ctrlWord_selfTest _ w hw, hself, engine_ctrlMet hg s w, decide_eq_true ⟨h5, hne⟩, Bool.true_and, Bool.or_eq_true]
  exact he.imp decide_eq_true decide_eq_true

omit hg in
/-- While the tiller runs SELFTEST is taken as it stands. -/
theorem bits_ctrlTakenMet_selfTest (hw : w < 2 ^ 32) (hb : (s.ctrlMet g w).selfTestBusy g ((s.ctrlMet g w).ctrlWord g w) = true) :
    bits (s.ctrlTakenMet g w) 11 9 = (s.ctrlMet g w).get (PN_CTRL_SELFTEST g) := by
  rw [ctrlTakenMet, ctrlTaken, if_pos hb]
  exact bits_insert32_of_lt (ctrlWord_lt _ w hw) (by decide) (by decide) (bits_lt ..)

end ctrl

end State

section pinCtrl
variable {v : View} {g : Fin 512} {w : Word} {s : State} (hr : s.ready = true) (hv : directView v = true)
include hr hv

theorem exec_pnCtrlWrite : exec (.pnCtrlWrite v g w) s = .next (s.writePinCtrl g.val w.toNat) := by
  have hd := regAt_pinCtrl g.isLt
  exact congrArg Host.Outcome.next
    ((regWrite_pin g.isLt (o := 0) (by decide) hr hv rfl (Option.isSome_of_eq_some hd)).trans (writePin_ctrl s g.val w.toNat))

theorem exec_pnCtrlWrite_taken (hn : s.power.noSafe = false) (hm : bits w.toNat 3 2 ≤ 2) : ∃ u, exec (.pnCtrlWrite v g w) s = .next u ∧
    u.get (PN_CTRL_DRV_EN g.val) = bits w.toNat 0 0 ∧ u.get (PN_CTRL_CLAMP_EN g.val) = bits w.toNat 1 1 ∧
    u.get (PN_CTRL_CMP_MODE g.val) = bits w.toNat 3 2 ∧
    (bits w.toNat 3 2 ≠ s.get (PN_CTRL_CMP_MODE g.val) → u.on (PN_STAT_MODE_SETTLING g.val) = true) := by
  have hg := g.isLt
  let q := s.ctrlMet g.val w.toNat
  let x := s.ctrlTakenMet g.val w.toNat
  have htaken {hi lo : Nat} (hhi : hi < 9) : bits x hi lo = bits w.toNat hi lo := bits_ctrlTakenMet hg s _ w.isLt hn hhi
  have hdrv : (q.storeWord (PN_CTRL g.val) x).get (PN_CTRL_DRV_EN g.val) = bits x 0 0 :=
    get_storeWord_rw q x (f := PN_CTRL_DRV_EN g.val) (x := ⟨0, 0, .rw, false, 0⟩) (regAt_pinCtrl hg) (by simp [pinCtrlRow]) rfl ⟨rfl, rfl⟩
      (fieldTakes_pin_free hg (o := 0) (by decide) (by decide +kernel) (by decide +kernel))
  have hclamp : (q.storeWord (PN_CTRL g.val) x).get (PN_CTRL_CLAMP_EN g.val) = bits x 1 1 :=
    get_storeWord_rw q x (f := PN_CTRL_CLAMP_EN g.val) (x := ⟨1, 1, .rw, false, 0⟩) (regAt_pinCtrl hg) (by simp [pinCtrlRow]) rfl ⟨rfl, rfl⟩
      (fieldTakes_pin_free hg (o := 0) (by decide) (by decide +kernel) (by decide +kernel))
  have hstored : (q.storeWord (PN_CTRL g.val) x).get (PN_CTRL_CMP_MODE g.val) = if 2 < bits x 3 2 then q.get (PN_CTRL_CMP_MODE g.val) else bits x 3 2 :=
    get_storeWord_bounded q x (f := PN_CTRL_CMP_MODE g.val) (x := ⟨3, 2, .rw, false, 1⟩) (regAt_pinCtrl hg) (by simp [pinCtrlRow]) rfl ⟨rfl, rfl⟩
      (fieldTakes_pin_bounded hg (o := 0) (by decide) (by decide +kernel))
  have hmode : (s.writePinCtrl g.val w.toNat).get (PN_CTRL_CMP_MODE g.val) = bits w.toNat 3 2 := by
    refine (get_writePinCtrl hg s _).trans (hstored.trans ?_)
    rw [htaken (by decide), if_neg (Nat.not_lt.2 hm)]
  exact ⟨_, exec_pnCtrlWrite hr hv, (get_writePinCtrl hg s _).trans (hdrv.trans (htaken (by decide))),
    (get_writePinCtrl hg s _).trans (hclamp.trans (htaken (by decide))), hmode, fun h => on_settling_writePinCtrl hg s _ (hmode ▸ h)⟩

theorem exec_pnCtrlWrite_busy (he : s.engine (g.val / 8) = 1 ∨ s.engine (g.val / 8) = 3) (h5 : bits w.toNat 11 9 ≤ 5)
    (hne : bits w.toNat 11 9 ≠ s.get (PN_CTRL_SELFTEST g.val)) : ∃ u, exec (.pnCtrlWrite v g w) s = .next u ∧
    u.get (PN_CTRL_SELFTEST g.val) = s.get (PN_CTRL_SELFTEST g.val) ∧ u.on (PN_STAT_WR_BUSY g.val) = true := by
  have hg := g.isLt
  let q := s.ctrlMet g.val w.toNat
  let x := s.ctrlTakenMet g.val w.toNat
  have hbusy := selfTestBusy_met hg s w.toNat w.isLt he h5 hne
  have hx : bits x 11 9 = q.get (PN_CTRL_SELFTEST g.val) := bits_ctrlTakenMet_selfTest s _ w.isLt hbusy
  have hstored : (q.storeWord (PN_CTRL g.val) x).get (PN_CTRL_SELFTEST g.val) = if 5 < bits x 11 9 then q.get (PN_CTRL_SELFTEST g.val) else bits x 11 9 :=
    get_storeWord_bounded q x (f := PN_CTRL_SELFTEST g.val) (x := ⟨11, 9, .rw, false, 0⟩) (regAt_pinCtrl hg) (by simp [pinCtrlRow]) rfl ⟨rfl, rfl⟩
      (fieldTakes_pin_bounded hg (o := 0) (by decide) (by decide +kernel))
  rw [hx, ite_self] at hstored
  exact ⟨_, exec_pnCtrlWrite hr hv, (get_writePinCtrl hg s _).trans (hstored.trans (get_ctrlMet hg s _)), on_wrBusy_writePinCtrl hg s _ hbusy⟩

/-! ### PN_PPMU_CTRL (R191, R194) -/

theorem exec_ppmuCtrlWrite (hm : bits w.toNat 2 0 ≤ 4) (hrange : bits w.toNat 6 4 ≤ 4) : ∃ u, exec (.ppmuCtrlWrite v g w) s = .next u ∧
    u.get (PN_PPMU_CTRL_MODE g.val) = bits w.toNat 2 0 ∧ u.get (PN_PPMU_CTRL_RANGE g.val) = bits w.toNat 6 4 := by
  have hg := g.isLt
  have hd := regAt_ppmuCtrl hg
  have hwrite := (regWrite_pin hg (o := 0x30) (w := w.toNat) (by decide) hr hv rfl (Option.isSome_of_eq_some hd)).trans (writePin_ppmuCtrl s g.val w.toNat)
  let q := s.connects g.val (decide (1 ≤ bits w.toNat 2 0 ∧ bits w.toNat 2 0 ≤ 4))
  have hget : (s.writePpmu g.val w.toNat).get = (q.storeWord (PN_PPMU_CTRL g.val) w.toNat).get := by
    unfold State.writePpmu
    dsimp only
    split <;> rfl
  have hmode : (q.storeWord (PN_PPMU_CTRL g.val) w.toNat).get (PN_PPMU_CTRL_MODE g.val) = bits w.toNat 2 0 :=
    (get_storeWord_bounded q _ (f := PN_PPMU_CTRL_MODE g.val) (x := ⟨2, 0, .rw, false, 0⟩) hd (by simp [ppmuCtrlRow]) rfl ⟨rfl, rfl⟩
      (fieldTakes_pin_bounded hg (o := 0x30) (by decide) (by decide +kernel))).trans (if_neg (Nat.not_lt.2 hm))
  have hscale : (q.storeWord (PN_PPMU_CTRL g.val) w.toNat).get (PN_PPMU_CTRL_RANGE g.val) = bits w.toNat 6 4 :=
    (get_storeWord_bounded q _ (f := PN_PPMU_CTRL_RANGE g.val) (x := ⟨6, 4, .rw, false, 4⟩) hd (by simp [ppmuCtrlRow]) rfl ⟨rfl, rfl⟩
      (fieldTakes_pin_bounded hg (o := 0x30) (by decide) (by decide +kernel))).trans (if_neg (Nat.not_lt.2 hrange))
  exact ⟨_, congrArg Host.Outcome.next hwrite, (congrFun hget _).trans hmode, (congrFun hget _).trans hscale⟩

end pinCtrl

/-! ### GL_PIN_LPBK (R391) -/

theorem regAt_loopback (t : Fin 64) : regAt (GL_PIN_LPBK t.val) = some loopbackRow := by
  revert t
  decide +kernel

theorem fieldTakes_loopback (t : Fin 64) (p : Fin 8) (n : Nat) : fieldTakes (kindOf (GL_PIN_LPBK t.val)) (2 * p.val) n = some n := by
  have free : fieldLimits.find? (fun e => e.1 = kindOf (GL_PIN_LPBK t.val) && e.2.1 = 2 * p.val) = none ∧
      arrayLimit (kindOf (GL_PIN_LPBK t.val)) (2 * p.val) = none := by
    revert t p
    decide +kernel
  exact fieldTakes_of_free free.1 free.2 n

theorem loopback_mem_row (p : Fin 8) : ⟨2 * p.val + 1, 2 * p.val, .rw, false, 0⟩ ∈ loopbackRow.flds := by
  revert p
  decide

section loopback
variable {v : View} {t : Fin 64} {w : Word} {s : State} (hr : s.ready = true) (hv : directView v = true)
include hr hv

theorem exec_pinLoopbackWrite : exec (.pinLoopbackWrite v t w) s = .next (s.writeLoopback t.val w.toNat) := by
  have hlow : GL_PIN_LPBK t.val < 0x1000 := by unfold GL_PIN_LPBK; omega
  have hplace : arrayIndex (GL_PIN_LPBK t.val) (GL_PIN_LPBK 0) 4 64 = some t.val := by
    unfold arrayIndex GL_PIN_LPBK
    rw [if_pos (by omega)]
    exact congrArg some (by omega)
  have hm : isMsix (GL_PIN_LPBK t.val) = false := Bool.or_eq_false_iff.2 ⟨decide_eq_false (by omega), decide_eq_false (by omega)⟩
  refine congrArg Host.Outcome.next ?_
  rw [State.regWrite, regWriteWith_direct s v _ _ none (reachable_of_ready hr _) (by unfold GL_PIN_LPBK; omega) (decide_eq_false (by omega)) hm
    (Option.isSome_of_eq_some (regAt_loopback t)) hv, writeOwn_global s v (by omega), State.writeGlobal, if_pos hlow, State.writeGlobalLow,
    if_neg (by unfold GL_PIN_LPBK GL_BLK_RST; omega), if_neg (by unfold GL_PIN_LPBK GL_PWR_CTRL; omega), if_neg (by unfold GL_PIN_LPBK GL_BOOT_CTRL; omega),
    if_neg (by unfold GL_PIN_LPBK GL_VRAW_TRIM_W GL_VRAW_TRIM_E; simp; omega), if_neg (by unfold GL_PIN_LPBK GL_PGAP; omega),
    if_neg (by unfold GL_PIN_LPBK GL_THERM_CLR; omega), hplace]

theorem exec_pinLoopbackWrite_taken (he : ¬(s.engine t.val = 1 ∨ s.engine t.val = 3)) : ∃ u, exec (.pinLoopbackWrite v t w) s = .next u ∧
    (∀ p, p < 8 → u.get (GL_PIN_LPBK_MODE t.val p) = bits w.toNat (2 * p + 1) (2 * p)) ∧ ∀ a, a ≠ GL_PIN_LPBK t.val → u.reg a = s.reg a := by
  have hwrite : s.writeLoopback t.val w.toNat = s.storeWord (GL_PIN_LPBK t.val) w.toNat := if_neg (by simpa using he)
  refine ⟨_, (exec_pinLoopbackWrite hr hv).trans (congrArg _ hwrite), fun p hp => ?_, fun a ha => reg_storeWord_other s _ ha⟩
  exact get_storeWord_rw s _ (f := GL_PIN_LPBK_MODE t.val p) (regAt_loopback t) (loopback_mem_row ⟨p, hp⟩) rfl ⟨rfl, rfl⟩ (fieldTakes_loopback t ⟨p, hp⟩)

theorem exec_pinLoopbackWrite_busy (he : s.engine t.val = 1 ∨ s.engine t.val = 3) : ∃ u, exec (.pinLoopbackWrite v t w) s = .next u ∧
    u.on (GL_PIN_LPBK_WR_BUSY t.val) = true ∧ (∀ p, p < 8 → u.get (GL_PIN_LPBK_MODE t.val p) = s.get (GL_PIN_LPBK_MODE t.val p)) ∧
    ∀ a, a ≠ GL_PIN_LPBK t.val → u.reg a = s.reg a := by
  have hwrite : s.writeLoopback t.val w.toNat = s.mark (GL_PIN_LPBK_WR_BUSY t.val) := if_pos (by simpa using he)
  refine ⟨_, (exec_pinLoopbackWrite hr hv).trans (congrArg _ hwrite), on_mark_of_fits (f := GL_PIN_LPBK_WR_BUSY t.val) s rfl, fun p hp => ?_,
    fun a ha => reg_mark_other s (GL_PIN_LPBK_WR_BUSY t.val) ha⟩
  exact get_put_apart (f := GL_PIN_LPBK_WR_BUSY t.val) (g := GL_PIN_LPBK_MODE t.val p) s 1 rfl rfl
    ((Bool.or_eq_true _ _).mpr (.inl (Nat.ble_eq_true_of_le (by unfold GL_PIN_LPBK_MODE GL_PIN_LPBK_WR_BUSY; dsimp only; omega))))

end loopback

/-! ### The driver's edges (R169, R171) -/

namespace Pin

/-- ENABLE and the level selected are the same. -/
def SameDrive (x y : Pin) : Prop := x.enable = y.enable ∧ x.sel = y.sel

/-- One edge acts; with `keep` the drive state is kept. -/
def edge (keep : Bool) (y : Pin) (e : PlacedEdge) : Pin :=
  let z := y.act e.act
  if keep then { z with wave := (e.at_, z.enable, z.sel) :: z.wave } else z

theorem runTo_eq (x : Pin) (inst : Nat) (keep : Bool) : x.runTo inst keep =
    { (x.edges.takeWhile (fun e => decide (e.at_ ≤ inst))).foldl (edge keep) x with
      edges := x.edges.drop (x.edges.takeWhile (fun e => decide (e.at_ ≤ inst))).length } := rfl

theorem SameDrive.edge {x y : Pin} (h : SameDrive x y) (k k' : Bool) (e : PlacedEdge) : SameDrive (x.edge k e) (y.edge k' e) := by
  obtain ⟨hen, hsel⟩ := h
  have hact : SameDrive (x.act e.act) (y.act e.act) := by
    unfold act
    cases e.act with
    | on => exact ⟨rfl, hsel⟩
    | off => exact ⟨rfl, hsel⟩
    | sel l => exact ⟨hen, rfl⟩
  cases k <;> cases k' <;> exact hact

theorem SameDrive.foldl_edge {x y : Pin} (h : SameDrive x y) (k k' : Bool) (l : List PlacedEdge) : SameDrive (l.foldl (Pin.edge k) x) (l.foldl (Pin.edge k') y) := by
  induction l generalizing x y with
  | nil => exact h
  | cons e l ih => exact ih (h.edge k k' e)

/-- Edges that have acted by an instant and those that act after it are all that act by a later one. -/
theorem takeWhile_due {i j : Nat} (h : i ≤ j) (l : List PlacedEdge) : l.takeWhile (fun e => decide (e.at_ ≤ j)) =
    l.takeWhile (fun e => decide (e.at_ ≤ i)) ++ (l.drop (l.takeWhile (fun e => decide (e.at_ ≤ i))).length).takeWhile (fun e => decide (e.at_ ≤ j)) := by
  induction l with
  | nil => rfl
  | cons e l ih =>
    by_cases hi : e.at_ ≤ i
    · simp [hi, hi.trans h, ih]
    · simp [hi]

/-- A pin brought to an instant and from there to a later one drives what it drives there. -/
theorem sameDrive_runTo_runTo {x y : Pin} {i j : Nat} {keep : Bool} (h : i ≤ j) (hd : SameDrive y (x.runTo i keep))
    (he : y.edges = (x.runTo i keep).edges) : SameDrive (y.runTo j false) (x.runTo j false) := by
  rw [runTo_eq y, runTo_eq x j, he, takeWhile_due h x.edges, List.foldl_append]
  have hfirst : SameDrive y ((x.edges.takeWhile (fun e => decide (e.at_ ≤ i))).foldl (edge false) x) := by
    have hrun := SameDrive.foldl_edge (x := x) (y := x) ⟨rfl, rfl⟩ keep false (x.edges.takeWhile (fun e => decide (e.at_ ≤ i)))
    exact ⟨hd.1.trans hrun.1, hd.2.trans hrun.2⟩
  exact hfirst.foldl_edge false false _

end Pin

namespace State

section drive
variable (s : State) (g : Nat)

@[simp] theorem pin_source (n : Nat) : (s.source n).pin = s.pin := by
  obtain ⟨r, o, e⟩ := s.source_beside n
  rw [e]
  rfl

@[simp] theorem pin_touchdown : (s.touchdown g).pin = s.pin := by
  unfold State.touchdown
  split
  · split <;> rfl
  · rfl

/-- Recording in a latch is no concern of a pin's drive. -/
@[simp] theorem pin_latch (hi lo : Bool) : (s.latch g hi lo).pin = s.pin := by
  unfold State.latch
  extract_lets newHi newLo s1 s2
  have h1 : s1.pin = s.pin := by
    unfold s1
    split
    · exact pin_touchdown s g
    · rfl
  have h2 : s2.pin = s1.pin := by
    unfold s2
    split <;> rfl
  split
  · exact (pin_source s2 _).trans (h2.trans h1)
  · exact h2.trans h1

theorem drive_latchClear (n : Nat) : ((s.latchClear g n).pin g).SameDrive (s.pin g) ∧ ((s.latchClear g n).pin g).edges = (s.pin g).edges := by
  unfold State.latchClear
  split
  · exact ⟨⟨rfl, rfl⟩, rfl⟩
  · unfold State.latchFrom
    extract_lets x hi lo o later s1 s2 s3
    have h1 : s1.pin g = { x with hiFrom := if hi then n else x.hiFrom, loFrom := if lo then n else x.loFrom } := pin_setPin_same ..
    have h2 : s2.pin = s1.pin := by
      unfold s2
      split <;> rfl
    have h3 : s3.pin = s2.pin := by
      unfold s3
      split <;> rfl
    rw [pin_latch, h3, h2, h1]
    exact ⟨⟨rfl, rfl⟩, rfl⟩

theorem drive_foldl_latchClear (l : List Nat) : ((l.foldl (fun s c => s.latchClear g c) s).pin g).SameDrive (s.pin g) ∧
    ((l.foldl (fun s c => s.latchClear g c) s).pin g).edges = (s.pin g).edges := by
  induction l generalizing s with
  | nil => exact ⟨⟨rfl, rfl⟩, rfl⟩
  | cons c l ih =>
    obtain ⟨⟨hen, hsel⟩, hedges⟩ := ih (s.latchClear g c)
    obtain ⟨⟨hen', hsel'⟩, hedges'⟩ := drive_latchClear s g c
    exact ⟨⟨hen.trans hen', hsel.trans hsel'⟩, hedges.trans hedges'⟩

/-- A pin that is brought up to an instant has had its edges act up to some instant before it. -/
theorem drive_catchUp (n : Nat) : let x := (s.pin g).runTo (n - edgeLag) (s.feedsTiming g)
    ((s.catchUp g n).pin g).SameDrive x ∧ ((s.catchUp g n).pin g).edges = x.edges := by
  intro x
  have hset : (s.setPin g { x with clears := x.clears.filter (fun c => decide (n < c)) }).pin g = { x with clears := x.clears.filter (fun c => decide (n < c)) } :=
    pin_setPin_same ..
  have hclear := drive_foldl_latchClear (s.setPin g { x with clears := x.clears.filter (fun c => decide (n < c)) }) g
    ((s.pin g).clears.filter (fun c => decide (c ≤ n)))
  rw [hset] at hclear
  exact hclear

end drive

/-! ### What is at the ball (R169, R390) -/

theorem loopback_congr {s u : State} {g : Nat} (hself : u.get (PN_CTRL_SELFTEST g) = s.get (PN_CTRL_SELFTEST g))
    (hmode : u.get (GL_PIN_LPBK_MODE (g / 8) (g % 8)) = s.get (GL_PIN_LPBK_MODE (g / 8) (g % 8))) : u.loopback g = s.loopback g := by
  rw [State.loopback, State.loopback, hself, hmode]

/-- The pin with which a loopback pairs a pin. -/
theorem partner_lt {g : Nat} (hg : g < 512) : 8 * (g / 8) + (g % 8 ^^^ 1) < 512 := by
  have : g % 8 ^^^ 1 < 2 ^ 3 := Nat.xor_lt_two_pow (by omega) (by decide)
  omega

/-- Bringing a pin up to now does not change what it drives at the ball now. -/
theorem ballDrive_catchUp (s : State) {g : Nat} (hg : g < 512) : (s.catchUp g s.now).ballDrive g = s.ballDrive g := by
  have hkeep : KeepsFields (OffLatches g) s (s.catchUp g s.now) := (KeepsFields.refl s).catchUp hg
  have hget (f : Field) (hf : OffStatus g f) : (s.catchUp g s.now).get f = s.get f := hkeep.fields f hf.offComparators.offOutputs.offLatches
  have hnow : (s.catchUp g s.now).now = s.now := congrArg (· * 1280) hkeep.ticks
  have hloop {g' : Nat} (hg' : g' < 512) : (s.catchUp g s.now).loopback g' = s.loopback g' :=
    loopback_congr (hget _ (offStatus_pin hg' (by decide) (by decide))) (hget _ (offStatus_low (by unfold GL_PIN_LPBK; omega)))
  have hisolated : (s.catchUp g s.now).isolated g = s.isolated g := by
    rw [State.isolated, State.isolated, hloop hg, hloop (partner_lt hg)]
  have hen : (s.catchUp g s.now).on (PN_CTRL_DRV_EN g) = s.on (PN_CTRL_DRV_EN g) := on_eq_of_get (hget _ (offStatus_pin hg (by decide) (by decide)))
  have hppmu : (s.catchUp g s.now).get (PN_PPMU_CTRL_MODE g) = s.get (PN_PPMU_CTRL_MODE g) := hget _ (offStatus_pin hg (by decide) (by decide))
  obtain ⟨hdrive, hedges⟩ := drive_catchUp s g s.now
  obtain ⟨henable, hsel⟩ := Pin.sameDrive_runTo_runTo (Nat.sub_le s.now edgeLag) hdrive hedges
  unfold State.ballDrive
  dsimp only
  rw [hnow, henable, hsel, hen, hppmu, hisolated]

end State

/-! ### Limits of drivers and PPMUs (R182, R193) -/

namespace State

theorem regs_raiseLine (s : State) (b : Nat) : (s.raiseLine b).regs = s.regs := by
  unfold State.raiseLine
  split <;> rfl

theorem mem_lines_raiseLine (s : State) (b : Nat) : b ∈ (s.raiseLine b).lines := by
  unfold State.raiseLine
  split
  · next h => exact List.contains_iff_mem.1 h
  · exact List.mem_append_right _ (List.mem_singleton_self b)

/-- The limit is in the status and counted. -/
def limitShown (s : State) (g : Nat) : State := ((s.mark (PN_STAT_ILIM g)).mark (PN_STAT_ILIM_NOW g)).bump (PN_CNT_ILIM_EVENTS g)

section limit
variable (s : State) (g : Nat)

theorem get_stat_limitShown {hi lo : Nat} :
    (s.limitShown g).get ⟨PN_STAT g, hi, lo⟩ = ((s.mark (PN_STAT_ILIM g)).mark (PN_STAT_ILIM_NOW g)).get ⟨PN_STAT g, hi, lo⟩ :=
  get_put_other _ _ (by unfold PN_STAT PN_CNT_ILIM_EVENTS PN_CNT; dsimp only; omega)

theorem on_ilim_limitShown : (s.limitShown g).on (PN_STAT_ILIM g) = true :=
  (on_eq_of_get ((get_stat_limitShown s g).trans (get_put_apart (f := PN_STAT_ILIM_NOW g) (g := PN_STAT_ILIM g) (s.mark (PN_STAT_ILIM g)) 1 rfl rfl rfl))).trans
    (on_mark_of_fits (f := PN_STAT_ILIM g) s rfl)

theorem on_ilimNow_limitShown : (s.limitShown g).on (PN_STAT_ILIM_NOW g) = true :=
  (on_eq_of_get (get_stat_limitShown s g)).trans (on_mark_of_fits (f := PN_STAT_ILIM_NOW g) (s.mark (PN_STAT_ILIM g)) rfl)

/-- Beside the count only the pin's status is written. -/
theorem get_marks_other {f : Field} (h : f.addr ≠ PN_STAT g) : ((s.mark (PN_STAT_ILIM g)).mark (PN_STAT_ILIM_NOW g)).get f = s.get f :=
  (get_put_other (s.mark (PN_STAT_ILIM g)) 1 h).trans (get_put_other s 1 h)

theorem get_count_limitShown : (s.limitShown g).get (PN_CNT_ILIM_EVENTS g) = min (s.get (PN_CNT_ILIM_EVENTS g) + 1) 65535 := by
  have hcount := get_marks_other s g (f := PN_CNT_ILIM_EVENTS g) (by unfold PN_STAT PN_CNT_ILIM_EVENTS PN_CNT; dsimp only; omega)
  refine (get_put_of_fits (f := PN_CNT_ILIM_EVENTS g) _ _ rfl).trans ?_
  rw [hcount]
  change min (s.get (PN_CNT_ILIM_EVENTS g) + 1) 65535 % 65536 = _
  omega

theorem on_ilimErr_limitShown : (s.limitShown g).on (PN_CTRL_ILIM_ERR g) = s.on (PN_CTRL_ILIM_ERR g) :=
  on_eq_of_get ((get_put_other _ _ (by unfold PN_CTRL_ILIM_ERR PN_CTRL PN_CNT_ILIM_EVENTS PN_CNT; dsimp only; omega)).trans
    (get_marks_other s g (by unfold PN_CTRL_ILIM_ERR PN_CTRL PN_STAT; dsimp only; omega)))

theorem driverLimit_of_driving (hd : (s.ballDrive g).isSome = true) (hn : s.on (PN_STAT_ILIM_NOW g) = false) :
    s.driverLimit g = if s.on (PN_CTRL_ILIM_ERR g) then (s.limitShown g).raiseLine (64 + g / 8) else s.limitShown g := by
  have hskip : ((s.ballDrive g).isNone || s.on (PN_STAT_ILIM_NOW g)) = false := by
    rw [hn, Bool.or_false, ← Option.not_isSome, hd]
    rfl
  rw [State.driverLimit, hskip, ← on_ilimErr_limitShown]
  rfl

end limit

end State

theorem exec_driverIlim {g : Fin 512} {s : State} (hd : ((s.catchUp g.val s.now).ballDrive g.val).isSome = true)
    (hn : s.on (PN_STAT_ILIM_NOW g.val) = false) : ∃ u, exec (.driverIlim g) s = .next u ∧ u.on (PN_STAT_ILIM g.val) = true ∧
      u.on (PN_STAT_ILIM_NOW g.val) = true ∧ u.get (PN_CNT_ILIM_EVENTS g.val) = min (s.get (PN_CNT_ILIM_EVENTS g.val) + 1) 65535 ∧
      (s.on (PN_CTRL_ILIM_ERR g.val) = true → 64 + g.val / 8 ∈ u.lines) := by
  rw [ballDrive_catchUp s g.isLt] at hd
  let u := if s.on (PN_CTRL_ILIM_ERR g.val) then (s.limitShown g.val).raiseLine (64 + g.val / 8) else s.limitShown g.val
  have hget (f : Field) : u.get f = (s.limitShown g.val).get f := by
    unfold u
    split
    · rw [State.get, State.reg, regs_raiseLine]
      rfl
    · rfl
  refine ⟨u, congrArg Host.Outcome.next (driverLimit_of_driving s g.val hd hn), (on_eq_of_get (hget _)).trans (on_ilim_limitShown ..),
    (on_eq_of_get (hget _)).trans (on_ilimNow_limitShown ..), (hget _).trans (get_count_limitShown ..), fun he => ?_⟩
  unfold u
  rw [if_pos he]
  exact mem_lines_raiseLine ..

theorem exec_ppmuLimit {g : Fin 512} {s : State} (h : s.ppmuForces g.val ≠ .nothing) :
    ∃ u, exec (.ppmuLimit g) s = .next u ∧ u.on (PN_STAT_PPMU_LIM g.val) = true ∧ ∀ a, a ≠ PN_STAT g.val → u.reg a = s.reg a :=
  ⟨_, congrArg Host.Outcome.next (if_neg h), on_mark_of_fits (f := PN_STAT_PPMU_LIM g.val) s rfl,
    fun _ ha => reg_mark_other s (PN_STAT_PPMU_LIM g.val) ha⟩

/-- Settles O34: writes by what each register takes, a crossing and a settled mode by the outputs they leave, limits by the status they show. -/
theorem pinsTakeWritesAndShowEvents : Obligations.PinsTakeWritesAndShowEvents :=
  ⟨fun _ _ _ _ hr hv =>
    ⟨exec_pnCtrlWrite_taken hr hv, exec_pnCtrlWrite_busy hr hv,
      fun _ _ hq => ⟨fun hk => exec_levelRegWrite_level hr hv hq (by omega) (by omega), exec_levelRegWrite_clh hr hv hq,
        exec_levelRegWrite_cll hr hv hq, exec_levelRegWrite_force hr hv hq⟩,
      fun _ _ => exec_levelRegWrite_overtaken hr hv,
      fun _ => ⟨exec_levelRegWrite_refused hr hv (k := 5) (by decide) (by decide), exec_levelRegWrite_refused hr hv (k := 6) (by decide) (by decide)⟩,
      exec_ppmuCtrlWrite hr hv, fun _ => exec_pinLoopbackWrite_taken hr hv, fun _ => exec_pinLoopbackWrite_busy hr hv⟩,
    fun g _ => ⟨fun _ _ hm ht => ⟨exec_comparatorCrossing_high hm ht, exec_comparatorCrossing_low hm ht⟩, fun _ _ _ => exec_comparatorCrossing_held,
      fun hi lo => exec_cmpModeSettled g hi lo _, exec_driverIlim, exec_ppmuLimit⟩⟩

end Sys2Proof.Machine
end

section
/-! SUPPORT. Microwords that hold one operation (R234 to R239), the input, scratch and output slot (R235, R262, R263), and O40 settled. -/

namespace Sys2Proof.Machine

/-! ### A 32-bit word of a number that is held as one (R235) -/

theorem bytesOf_word (v j : Nat) : bytesOf v (4 * j) 4 = v / 2 ^ (32 * j) % 2 ^ 32 := by
  rw [bytesOf, Nat.shiftRight_eq_div_pow, show 8 * (4 * j) = 32 * j by omega]

/-- A number whose word k is d. -/
theorem replaceWord_eq (v k d : Nat) : v - bytesOf v (4 * k) 4 * 2 ^ (32 * k) + d * 2 ^ (32 * k) =
    (v / 2 ^ (32 * k) / 2 ^ 32 * 2 ^ 32 + d) * 2 ^ (32 * k) + v % 2 ^ (32 * k) := by
  have hv := Nat.div_add_mod' v (2 ^ (32 * k))
  have hq := Nat.div_add_mod' (v / 2 ^ (32 * k)) (2 ^ 32)
  rw [← hq, Nat.add_mul] at hv
  rw [bytesOf_word, Nat.add_mul]
  omega

/-- The word reads as d, the others stand. -/
theorem bytesOf_replaceWord (v k j : Nat) {d : Nat} (hd : d < 2 ^ 32) :
    bytesOf (v - bytesOf v (4 * k) 4 * 2 ^ (32 * k) + d * 2 ^ (32 * k)) (4 * j) 4 = if j = k then d else bytesOf v (4 * j) 4 := by
  have hlow : v % 2 ^ (32 * k) < 2 ^ (32 * k) := Nat.mod_lt _ (Nat.two_pow_pos _)
  rw [replaceWord_eq, bytesOf_word, bytesOf_word]
  obtain hlt | rfl | hgt := Nat.lt_trichotomy j k
  · have hsplit : 2 ^ (32 * k) = 2 ^ (32 * j) * 2 ^ 32 * 2 ^ (32 * (k - j - 1)) := by
      rw [← Nat.pow_add, ← Nat.pow_add]
      congr 1
      omega
    have hdvd : 2 ^ (32 * j) * 2 ^ 32 ∣ 2 ^ (32 * k) := ⟨_, hsplit⟩
    rw [if_neg hlt.ne, ← Nat.mod_mul_right_div_self, ← Nat.mod_mul_right_div_self v, Nat.add_mod,
      Nat.mod_eq_zero_of_dvd (Dvd.dvd.mul_left hdvd _), Nat.zero_add, Nat.mod_mod, Nat.mod_mod_of_dvd _ hdvd]
  · rw [if_pos rfl, Nat.mul_comm _ (2 ^ (32 * j)), Nat.mul_add_div (Nat.two_pow_pos _), Nat.div_eq_of_lt hlow]
    omega
  · have hsplit : 2 ^ (32 * j) = 2 ^ (32 * k) * (2 ^ 32 * 2 ^ (32 * (j - k - 1))) := by
      rw [← Nat.pow_add, ← Nat.pow_add]
      congr 1
      omega
    rw [if_neg hgt.ne', hsplit, ← Nat.div_div_eq_div_mul, ← Nat.div_div_eq_div_mul, ← Nat.div_div_eq_div_mul, ← Nat.div_div_eq_div_mul,
      Nat.mul_comm _ (2 ^ (32 * k)), Nat.mul_add_div (Nat.two_pow_pos _), Nat.div_eq_of_lt hlow, Nat.add_zero]
    congr 2
    omega

/-! ### A word of the input, scratch and output slot (R234) -/

section ioWord
variable {op : Nat} (h : op ≤ 10) (o : IoOps)
include h

theorem uIop_ioWord : uIop (ioWord op o) = op := by
  rw [uIop, bits, ioWord, Nat.shiftRight_eq_div_pow]
  omega

theorem uId_ioWord : uId (ioWord op o) = o.id.val := by
  have hid := o.id.isLt
  rw [uId, bits, ioWord, Nat.shiftRight_eq_div_pow]
  omega

theorem uIa_ioWord : uIa (ioWord op o) = o.ia.val := by
  have hid := o.id.isLt
  have hia := o.ia.isLt
  rw [uIa, bits, ioWord, Nat.shiftRight_eq_div_pow]
  omega

theorem uIimm_ioWord : uIimm (ioWord op o) = o.iimm.toNat := by
  have hid := o.id.isLt
  have hia := o.ia.isLt
  have him := o.iimm.isLt
  rw [uIimm, bits, ioWord, Nat.shiftRight_eq_div_pow]
  omega

/-- It has no bit above its slot. -/
theorem ioWord_lt : ioWord op o < 2 ^ 194 := by
  have hid := o.id.isLt
  have hia := o.ia.isLt
  have him := o.iimm.isLt
  rw [ioWord]
  omega

omit h in
/-- Below the slot every field of it is 0. -/
theorem bits_ioWord {hi lo : Nat} (hhi : hi < 160) (hlo : lo ≤ hi) : bits (ioWord op o) hi lo = 0 := by
  have hpow : 2 ^ lo * (2 ^ (hi + 1 - lo) * 2 ^ (159 - hi)) = 2 ^ 160 := by
    rw [← Nat.pow_add, ← Nat.pow_add]
    congr 1
    omega
  have hfield : ioWord op o = 2 ^ lo * (2 ^ (hi + 1 - lo) * (2 ^ (159 - hi) * (op + o.id.val * 2 ^ 8 + o.ia.val * 2 ^ 13 + o.iimm.toNat * 2 ^ 18))) := by
    rw [← Nat.mul_assoc (2 ^ (hi + 1 - lo)), ← Nat.mul_assoc, hpow, ioWord]
    ring
  rw [bits, Nat.shiftRight_eq_div_pow, hfield, Nat.mul_div_cancel_left _ (Nat.two_pow_pos _), Nat.mul_mod_right]

omit h

@[simp] theorem uSop_ioWord : uSop (ioWord op o) = 0 := bits_ioWord o (by decide) (by decide)
@[simp] theorem uCond_ioWord : uCond (ioWord op o) = 0 := bits_ioWord o (by decide) (by decide)
@[simp] theorem uAop_ioWord : uAop (ioWord op o) = 0 := bits_ioWord o (by decide) (by decide)
@[simp] theorem uMop_ioWord : uMop (ioWord op o) = 0 := bits_ioWord o (by decide) (by decide)
@[simp] theorem uCop_ioWord : uCop (ioWord op o) = 0 := bits_ioWord o (by decide) (by decide)

/-- It writes one register at most. -/
theorem noRepeats_uWrites_ioWord : noRepeats (uWrites (ioWord op o)) = true := by
  rw [uWrites, uAop_ioWord, uMop_ioWord, uCop_ioWord]
  by_cases hreads : (uIop (ioWord op o) = 1 || uIop (ioWord op o) = 2 || uIop (ioWord op o) = 9 || uIop (ioWord op o) = 10) = true
  · rw [if_pos hreads]
    simp [noRepeats]
  · rw [if_neg hreads]
    simp [noRepeats]

include h

theorem uIllegal_ioWord (hcount : op = 4 → 1 ≤ o.iimm.toNat % 8 ∧ o.iimm.toNat % 8 ≤ 4) : uIllegal (ioWord op o) = false := by
  have hreserved : bits (ioWord op o) 31 28 = 0 ∧ bits (ioWord op o) 127 126 = 0 ∧ bits (ioWord op o) 159 149 = 0 :=
    ⟨bits_ioWord o (by decide) (by decide), bits_ioWord o (by decide) (by decide), bits_ioWord o (by decide) (by decide)⟩
  have htop : ioWord op o >>> 194 = 0 := by rw [Nat.shiftRight_eq_div_pow, Nat.div_eq_of_lt (ioWord_lt h o)]
  have hop : ¬10 < op := Nat.not_lt.2 h
  simp [uIllegal, noRepeats_uWrites_ioWord, htop, hreserved, uIop_ioWord h, uIimm_ioWord h, hop]
  omega

end ioWord

namespace State

/-! ### A microword runs (R234, R238) -/

/-- The thresher counts the microwords of its POST part (R239). -/
def counted (s : State) (i : Nat) : State := if s.thState i = 3 then s.modThr i (fun x => { x with after := x.after + 1 }) else s

theorem thr_counted (s : State) (i : Nat) : ∃ n, (s.counted i).thr i = { s.thr i with after := n } := by
  unfold counted
  split
  · exact ⟨_, thr_modThr_same ..⟩
  · exact ⟨_, rfl⟩

@[simp] theorem get_counted (s : State) (i : Nat) : (s.counted i).get = s.get := by
  unfold counted
  split <;> rfl

/-- A word that passes its checks and waits for nothing acts slot by slot. -/
theorem runWord_of_checked {s : State} {i w : Nat} (hc : s.uCheck i w = none) (hw : s.uWaits i w = false) (hctx : uCop w ≠ 1)
    (hscratch : uIop w = 2 → s.scratchCheck i = (s, true)) :
    s.runWord i w = s.seqSlot (s.ioSlot (s.ctxSlot (s.memSlot (s.aluSlot (s.counted i) i w) i w) i w) i w) i w := by
  have hsc : (if uIop w = 2 then s.scratchCheck i else (s, true)) = (s, true) := by
    split
    · next h2 => exact hscratch h2
    · rfl
  unfold State.runWord
  rw [hc]
  dsimp only
  rw [hsc, hw, if_neg Bool.false_ne_true]
  refine (if_neg Bool.false_ne_true).trans ?_
  rw [if_neg hctx]
  rfl

/-- The words of a routine that is under way run. -/
theorem runOp_of_inRoutine {s : State} {i : Nat} (w : Nat) (h : s.inRoutine i = true) : s.runOp i w = s.runWord i w := by
  obtain h | h := (Bool.or_eq_true _ _).mp h
  · simp [State.runOp, beq_iff_eq.1 h]
  · simp [State.runOp, beq_iff_eq.1 ((Bool.and_eq_true _ _).mp h).1]

/-! #### Slots that hold no operation -/

theorem aluSlot_none {w : Nat} (h : uAop w = 0) (old s : State) (i : Nat) : old.aluSlot s i w = s := if_pos h

theorem memSlot_none {w : Nat} (h : uMop w = 0) (old s : State) (i : Nat) : old.memSlot s i w = s := by
  simp only [State.memSlot, h]

theorem ctxSlot_none {w : Nat} (h : uCop w = 0) (old s : State) (i : Nat) : old.ctxSlot s i w = s := by
  simp only [State.ctxSlot, h]

/-- An empty sequence slot goes on to the next word. -/
theorem seqSlot_none {w : Nat} (h : uSop w = 0) (hc : uCond w = 0) (old s : State) (i : Nat) :
    old.seqSlot s i w = s.uGoTo i ((old.thr i).upc + 1) := by
  simp only [State.seqSlot, State.uTest, h, hc]

/-! ### A word of the input, scratch and output slot runs -/

section ioWord
variable {s : State} {i op : Nat} (hop : op ≤ 10) {o : IoOps}

include hop

/-- It waits where it reserves more than is free (R262). -/
theorem uWaits_ioWord : s.uWaits i (ioWord op o) = (decide (op = 4) && decide (s.ringFree i < o.iimm.toNat % 8)) := by
  simp [State.uWaits, uIop_ioWord hop, uIimm_ioWord hop]

/-- Before the commit it runs unless it posts. -/
theorem uCheck_ioWord_pre (h : s.thState i = 2) (hpre : op ∉ [6, 7]) (hcount : op = 4 → 1 ≤ o.iimm.toNat % 8 ∧ o.iimm.toNat % 8 ≤ 4) :
    s.uCheck i (ioWord op o) = none := by
  obtain ⟨h6, h7⟩ : op ≠ 6 ∧ op ≠ 7 := by simpa using hpre
  simp [State.uCheck, uIllegal_ioWord hop o hcount, uPost, b2n, h, uIop_ioWord hop, h6, h7]

/-- After it, for 256 words, unless it reserves or writes the cursor. -/
theorem uCheck_ioWord_post (h : s.thState i = 3) (ha : (s.thr i).after < 256) (hpost : op ∉ [4, 8])
    (hroom : op = 6 → 1 ≤ (s.thr i).allowed ∧ 1 ≤ (s.thr i).reserved) : s.uCheck i (ioWord op o) = none := by
  obtain ⟨h4, h8⟩ : op ≠ 4 ∧ op ≠ 8 := by simpa using hpost
  have hspent : ((s.thr i).allowed < b2n (op = 6)) = False ∧ (op = 6 ∧ (s.thr i).reserved = 0) = False := by
    by_cases h6 : op = 6
    · obtain ⟨hallowed, hreserved⟩ := hroom h6
      simp [h6, b2n]
      omega
    · simp [h6, b2n]
  simp [State.uCheck, uIllegal_ioWord hop o (fun e => absurd e h4), uPre, h, uIop_ioWord hop, h4, h8, Nat.not_le.2 ha, hspent,
    show b2n false = 0 from rfl]

/-- The others run in both parts of a routine. -/
theorem uCheck_ioWord_any (h : s.inRoutine i = true) (hany : op ∉ [4, 6, 7, 8]) : s.uCheck i (ioWord op o) = none := by
  obtain ⟨h4, h6, h7, h8⟩ : op ≠ 4 ∧ op ≠ 6 ∧ op ≠ 7 ∧ op ≠ 8 := by simpa using hany
  obtain h2 | h3 := (Bool.or_eq_true _ _).mp h
  · exact uCheck_ioWord_pre hop (beq_iff_eq.1 h2) (by simp [h6, h7]) fun e => absurd e h4
  · obtain ⟨h3, ha⟩ := (Bool.and_eq_true _ _).mp h3
    exact uCheck_ioWord_post hop (beq_iff_eq.1 h3) (of_decide_eq_true ha) (by simp [h4, h8]) fun e => absurd e h6

/-- Beside the count of words and the next index it is its slot alone. -/
theorem runOp_ioWord (hr : s.inRoutine i = true) (hc : s.uCheck i (ioWord op o) = none) (hw : op = 4 → o.iimm.toNat % 8 ≤ s.ringFree i)
    (hinj : op = 2 → s.on FC_INJ_STAT_ARMED = false) :
    s.runOp i (ioWord op o) = (s.ioSlot (s.counted i) i (ioWord op o)).uGoTo i ((s.thr i).upc + 1) := by
  have hgoes : s.uWaits i (ioWord op o) = false := by
    rw [uWaits_ioWord hop]
    simpa using hw
  have hscratch : uIop (ioWord op o) = 2 → s.scratchCheck i = (s, true) := fun e => by
    rw [uIop_ioWord hop] at e
    simp only [State.scratchCheck, inject_of_not_armed (hinj e)]
    rfl
  rw [runOp_of_inRoutine _ hr, runWord_of_checked hc hgoes (by simp) hscratch, aluSlot_none (uAop_ioWord o), memSlot_none (uMop_ioWord o),
    ctxSlot_none (uCop_ioWord o), seqSlot_none (uSop_ioWord o) (uCond_ioWord o)]

theorem runOp_ioWord_any (hr : s.inRoutine i = true) (hany : op ∉ [2, 4, 6, 7, 8]) :
    s.runOp i (ioWord op o) = (s.ioSlot (s.counted i) i (ioWord op o)).uGoTo i ((s.thr i).upc + 1) := by
  obtain ⟨h2, hany⟩ := (List.mem_cons.not.trans not_or).1 hany
  exact runOp_ioWord hop hr (uCheck_ioWord_any hop hr hany) (fun e => absurd e (by simp_all)) fun e => absurd e h2

end ioWord

/-! #### What the word leaves -/

theorem inRoutine_pre {s : State} {i : Nat} (h : s.thState i = 2) : s.inRoutine i = true := by simp [State.inRoutine, h]

theorem inRoutine_post {s : State} {i : Nat} (h : s.thState i = 3) (ha : (s.thr i).after < 256) : s.inRoutine i = true := by
  simp [State.inRoutine, h, ha]

theorem thr_uGoTo (s : State) (i k : Nat) : (s.uGoTo i k).thr i = { s.thr i with upc := k % 16384 } := thr_modThr_same ..

/-- A register that a word writes reads so behind it, and g0 reads 0. -/
theorem gReg_setG_uGoTo (s : State) (i k v n : Nat) : ((s.setG i k v).uGoTo i n).gReg i k = if k = 0 then 0 else v % 2 ^ 32 := by
  by_cases hk : k = 0
  · rw [State.gReg, if_pos hk, if_pos hk]
  · rw [State.gReg, if_neg hk, if_neg hk, thr_uGoTo, State.setG, if_neg hk, thr_modThr_same]
    exact storeGet_storeSet_same ..

/-! #### What the slot does -/

/-- What STAT reads (R255, R263): the position, the thresher's number, a base of the bitmaps. -/
def statValue (s : State) (i m : Nat) : Nat :=
  if m = 0 then 16 * s.get LK_MESH_POS_Y + s.get LK_MESH_POS_X
  else if m = 1 then i
  else s.get (SH_BMAP_HI_BASE_HI (i / 2) (m - 2)) * 2 ^ 26 + s.get (SH_BMAP_LO_BASE_LO (i / 2) (m - 2))

theorem statValue_lt (s : State) {i : Nat} (hi : i < 32) (m : Nat) : s.statValue i m < 2 ^ 32 := by
  have hy : s.get LK_MESH_POS_Y < 2 ^ 3 := bits_lt _ 6 4
  have hx : s.get LK_MESH_POS_X < 2 ^ 3 := bits_lt _ 2 0
  have hhigh : s.get (SH_BMAP_HI_BASE_HI (i / 2) (m - 2)) < 2 ^ 2 := bits_lt _ 1 0
  have hlow : s.get (SH_BMAP_LO_BASE_LO (i / 2) (m - 2)) < 2 ^ 26 := bits_lt _ 31 6
  unfold statValue
  split_ifs <;> omega

section ioSlot
variable (old s : State) (i : Nat) {w : Nat}

theorem ioSlot_inrd (h : uIop w = 1) {e : InRec} {r : List InRec} (hf : (old.thr i).fifo = e :: r) :
    old.ioSlot s i w = s.setG i (uId w) (if (uIimm w).testBit 2 then tagWord e else word32 e.data (uIimm w % 4)) := by
  simp only [State.ioSlot, h, hf]

theorem ioSlot_srd (h : uIop w = 2) : old.ioSlot s i w = s.setG i (uId w)
    (storeGet (wildScratchWord (old.thr i).wildScratch) (old.thr i).scratch ((uIimm w + old.gReg i (uIa w)) % 1024)) := by
  simp only [State.ioSlot, h]

theorem ioSlot_curr (h : uIop w = 9) : old.ioSlot s i w = s.setG i (uId w) (old.thr i).cursor := by
  simp only [State.ioSlot, h]

theorem ioSlot_stat (h : uIop w = 10) (hm : uIimm w ≤ 5) : old.ioSlot s i w = s.setG i (uId w) (s.statValue i (uIimm w)) := by
  simp only [State.ioSlot, h]
  generalize uIimm w = m at hm ⊢
  interval_cases m <;> rfl

theorem ioSlot_swr (h : uIop w = 3) : old.ioSlot s i w = s.modThr i (fun x =>
    { x with scratch := storeSet (wildScratchWord x.wildScratch) x.scratch ((uIimm w + old.gReg i (uIa w)) % 1024) (old.gReg i (uId w)) }) := by
  simp only [State.ioSlot, h]

theorem ioSlot_rsv (h : uIop w = 4) : old.ioSlot s i w = s.modThr i (fun x => { x with reserved := x.reserved + uIimm w % 8 }) := by
  simp only [State.ioSlot, h]

theorem ringBuf_ioSlot_rput (h : uIop w = 5) : (old.ioSlot s i w).ringBuf i (uIimm w / 16 % 4) =
    s.ringBuf i (uIimm w / 16 % 4) - bytesOf (s.ringBuf i (uIimm w / 16 % 4)) (4 * (uIimm w % 16)) 4 * 2 ^ (32 * (uIimm w % 16)) +
      old.gReg i (uId w) * 2 ^ (32 * (uIimm w % 16)) := by
  simp only [State.ioSlot, h]
  rw [State.ringBuf, thr_modThr_same]
  exact storeGet_storeSet_same ..

theorem ioSlot_rpost (h : uIop w = 6) : old.ioSlot s i w =
    (s.postRing i (old.ringBuf i (uIimm w % 4))).modThr i (fun x => { x with reserved := x.reserved - 1, allowed := x.allowed - 1 }) := by
  simp only [State.ioSlot, h]

theorem ioSlot_note (h : uIop w = 7) (hp : (s.thr i).posted ≠ []) :
    old.ioSlot s i w = s.modThr i (fun x => { x with posted := x.posted ++ [.note (old.gReg i (uId w)) (old.gReg i (uIa w))] }) := by
  simp only [State.ioSlot, h, State.postNote]
  rw [if_neg (by simpa using hp)]

theorem ioSlot_curw (h : uIop w = 8) : old.ioSlot s i w = s.modThr i (fun x => { x with curw := some (old.gReg i (uId w)) }) := by
  simp only [State.ioSlot, h]

end ioSlot

/-- A word that waits for ring space counts the cycle, and does nothing else (R262). -/
theorem runWord_waitsForRing {s : State} {i w : Nat} (hc : s.uCheck i w = none) (hw : s.uWaits i w = true) (h : uIop w = 4)
    (hfull : s.ringFree i < uIimm w % 8) : s.runWord i w = s.bump (TH_CNT_WAIT_CYCLES i) := by
  unfold State.runWord
  rw [hc]
  dsimp only
  rw [hw, if_pos rfl, h, if_pos (by simpa using hfull)]

theorem get_waitCycles_bump (s : State) (i : Nat) :
    (s.bump (TH_CNT_WAIT_CYCLES i)).get (TH_CNT_WAIT_CYCLES i) = min (s.get (TH_CNT_WAIT_CYCLES i) + 1) (2 ^ 32 - 1) := by
  refine (get_put_of_fits (f := TH_CNT_WAIT_CYCLES i) s _ rfl).trans (Nat.mod_eq_of_lt ?_)
  exact Nat.lt_of_le_of_lt (Nat.min_le_right _ (2 ^ 32 - 1)) (by decide : 2 ^ 32 - 1 < 2 ^ 32)

end State

open State

section inputOutput
variable {i : Fin 32} {o : IoOps} {s : State}

/-! ### Reads (R235, R263) -/

/-- A word whose slot writes the register of ID. -/
theorem gReg_runOp_ioWord {op v : Nat} (hop : op ≤ 10)
    (hrun : s.runOp i.val (ioWord op o) = (s.ioSlot (s.counted i.val) i.val (ioWord op o)).uGoTo i.val ((s.thr i.val).upc + 1))
    (hslot : s.ioSlot (s.counted i.val) i.val (ioWord op o) = (s.counted i.val).setG i.val (uId (ioWord op o)) v) :
    (s.runOp i.val (ioWord op o)).gReg i.val o.id.val = if o.id = 0 then 0 else v % 2 ^ 32 := by
  rw [hrun, hslot, uId_ioWord hop, gReg_setG_uGoTo]
  simp only [Fin.ext_iff, Fin.val_zero]

theorem exec_mInrd (hr : s.inRoutine i.val = true) {e : InRec} {r : List InRec} (hf : (s.thr i.val).fifo = e :: r) :
    ∃ u, exec (.mInrd i o) s = .next u ∧ u.gReg i.val o.id.val =
      if o.id = 0 then 0 else (if o.iimm.toNat.testBit 2 then tagWord e else word32 e.data (o.iimm.toNat % 4)) % 2 ^ 32 := by
  have hop : 1 ≤ 10 := by decide
  have hslot := ioSlot_inrd s (s.counted i.val) i.val (uIop_ioWord hop o) hf
  rw [uIimm_ioWord hop] at hslot
  exact ⟨_, rfl, gReg_runOp_ioWord hop (runOp_ioWord_any hop hr (by decide)) hslot⟩

theorem exec_mSrd (hr : s.inRoutine i.val = true) (hinj : s.on FC_INJ_STAT_ARMED = false) : ∃ u, exec (.mSrd i o) s = .next u ∧
    u.gReg i.val o.id.val = if o.id = 0 then 0 else storeGet (wildScratchWord (s.thr i.val).wildScratch) (s.thr i.val).scratch
      ((o.iimm.toNat + s.gReg i.val o.ia.val) % 1024) % 2 ^ 32 := by
  have hop : 2 ≤ 10 := by decide
  have hslot := ioSlot_srd s (s.counted i.val) i.val (uIop_ioWord hop o)
  rw [uIimm_ioWord hop, uIa_ioWord hop] at hslot
  exact ⟨_, rfl, gReg_runOp_ioWord hop
    (runOp_ioWord hop hr (uCheck_ioWord_any hop hr (by decide)) (fun e => absurd e (by decide)) fun _ => hinj) hslot⟩

theorem exec_mCurr (hr : s.inRoutine i.val = true) : ∃ u, exec (.mCurr i o) s = .next u ∧
    u.gReg i.val o.id.val = if o.id = 0 then 0 else (s.thr i.val).cursor % 2 ^ 32 := by
  have hop : 9 ≤ 10 := by decide
  exact ⟨_, rfl, gReg_runOp_ioWord hop (runOp_ioWord_any hop hr (by decide)) (ioSlot_curr s (s.counted i.val) i.val (uIop_ioWord hop o))⟩

theorem exec_mStat (hr : s.inRoutine i.val = true) (hm : o.iimm.toNat ≤ 5) {n : Nat} (hn : s.statValue i.val o.iimm.toNat = n) :
    ∃ u, exec (.mStat i o) s = .next u ∧ u.gReg i.val o.id.val = if o.id = 0 then 0 else n := by
  have hop : 10 ≤ 10 := le_rfl
  have hslot := ioSlot_stat s (s.counted i.val) i.val (uIop_ioWord hop o) (by rwa [uIimm_ioWord hop])
  have hvalue : (s.counted i.val).statValue i.val o.iimm.toNat = s.statValue i.val o.iimm.toNat := by
    rw [statValue, get_counted, statValue]
  rw [uIimm_ioWord hop, hvalue] at hslot
  rw [← hn, ← Nat.mod_eq_of_lt (s.statValue_lt i.isLt o.iimm.toNat)]
  exact ⟨_, rfl, gReg_runOp_ioWord hop (runOp_ioWord_any hop hr (by decide)) hslot⟩

/-! ### Scratch, ring buffers and the cursor (R235, R238) -/

theorem exec_mSwr (hr : s.inRoutine i.val = true) : ∃ u, exec (.mSwr i o) s = .next u ∧
    ∀ k, storeGet (wildScratchWord (u.thr i.val).wildScratch) (u.thr i.val).scratch k =
      if k = (o.iimm.toNat + s.gReg i.val o.ia.val) % 1024 then s.gReg i.val o.id.val
      else storeGet (wildScratchWord (s.thr i.val).wildScratch) (s.thr i.val).scratch k := by
  have hop : 3 ≤ 10 := by decide
  obtain ⟨n, hn⟩ := thr_counted s i.val
  refine ⟨_, congrArg Host.Outcome.next (runOp_ioWord_any hop hr (by decide)), fun k => ?_⟩
  rw [ioSlot_swr _ _ _ (uIop_ioWord hop o), uIimm_ioWord hop, uIa_ioWord hop, uId_ioWord hop, thr_uGoTo, thr_modThr_same, hn]
  exact storeGet_storeSet ..

theorem exec_mRput (hr : s.inRoutine i.val = true) (hd : s.gReg i.val o.id.val < 2 ^ 32) : ∃ u, exec (.mRput i o) s = .next u ∧
    ∀ j, bytesOf (u.ringBuf i.val (o.iimm.toNat / 16 % 4)) (4 * j) 4 =
      if j = o.iimm.toNat % 16 then s.gReg i.val o.id.val else bytesOf (s.ringBuf i.val (o.iimm.toNat / 16 % 4)) (4 * j) 4 := by
  have hop : 5 ≤ 10 := by decide
  obtain ⟨n, hn⟩ := thr_counted s i.val
  have hslot := ringBuf_ioSlot_rput s (s.counted i.val) i.val (uIop_ioWord hop o)
  have hbuf (b : Nat) : (s.counted i.val).ringBuf i.val b = s.ringBuf i.val b := by rw [State.ringBuf, hn, State.ringBuf]
  have hgo (q : State) (k b : Nat) : (q.uGoTo i.val k).ringBuf i.val b = q.ringBuf i.val b := by rw [State.ringBuf, thr_uGoTo, State.ringBuf]
  rw [uIimm_ioWord hop, uId_ioWord hop, hbuf] at hslot
  refine ⟨_, congrArg Host.Outcome.next (runOp_ioWord_any hop hr (by decide)), fun j => ?_⟩
  rw [hgo, hslot]
  exact bytesOf_replaceWord _ _ _ hd

theorem exec_mCurw (h : s.thState i.val = 2) : ∃ u, exec (.mCurw i o) s = .next u ∧ (u.thr i.val).curw = some (s.gReg i.val o.id.val) := by
  have hop : 8 ≤ 10 := by decide
  have hrun := runOp_ioWord (o := o) hop (inRoutine_pre h) (uCheck_ioWord_pre hop h (by decide) fun e => absurd e (by decide))
    (fun e => absurd e (by decide)) fun e => absurd e (by decide)
  refine ⟨_, congrArg Host.Outcome.next hrun, ?_⟩
  rw [ioSlot_curw _ _ _ (uIop_ioWord hop o), uId_ioWord hop, thr_uGoTo, thr_modThr_same]

/-! ### Ring entries and notices (R238, R243, R262) -/

section reserve
variable (h : s.thState i.val = 2) (h1 : 1 ≤ o.iimm.toNat % 8) (h4 : o.iimm.toNat % 8 ≤ 4)
include h h1 h4

theorem exec_mRsv_free (hfree : o.iimm.toNat % 8 ≤ s.ringFree i.val) : ∃ u, exec (.mRsv i o) s = .next u ∧
    (u.thr i.val).reserved = (s.thr i.val).reserved + o.iimm.toNat % 8 := by
  have hop : 4 ≤ 10 := by decide
  obtain ⟨n, hn⟩ := thr_counted s i.val
  have hrun := runOp_ioWord (o := o) hop (inRoutine_pre h) (uCheck_ioWord_pre hop h (by decide) fun _ => ⟨h1, h4⟩) (fun _ => hfree)
    fun e => absurd e (by decide)
  refine ⟨_, congrArg Host.Outcome.next hrun, ?_⟩
  rw [ioSlot_rsv _ _ _ (uIop_ioWord hop o), uIimm_ioWord hop, thr_uGoTo, thr_modThr_same, hn]

theorem exec_mRsv_waits (hfull : s.ringFree i.val < o.iimm.toNat % 8) : exec (.mRsv i o) s = .next (s.bump (TH_CNT_WAIT_CYCLES i.val)) := by
  have hop : 4 ≤ 10 := by decide
  have hw : s.uWaits i.val (ioWord 4 o) = true := (uWaits_ioWord hop).trans (by simpa using hfull)
  exact congrArg Host.Outcome.next ((runOp_of_inRoutine _ (inRoutine_pre h)).trans (runWord_waitsForRing
    (uCheck_ioWord_pre hop h (by decide) fun _ => ⟨h1, h4⟩) hw (uIop_ioWord hop o) (by rwa [uIimm_ioWord hop])))

end reserve

section posted
variable (h : s.thState i.val = 3) (ha : (s.thr i.val).after < 256)
include h ha

theorem exec_mRpost (hallowed : 1 ≤ (s.thr i.val).allowed) (hreserved : 1 ≤ (s.thr i.val).reserved) :
    ∃ u, exec (.mRpost i o) s = .next u ∧ (u.thr i.val).reserved = (s.thr i.val).reserved - 1 ∧ (u.thr i.val).allowed = (s.thr i.val).allowed - 1 ∧
      (u.thr i.val).posted = (s.thr i.val).posted ++
        [.ring (s.ringBase i.val + (s.thr i.val).ringNext) (s.ringBuf i.val (o.iimm.toNat % 4)) (s.thr i.val).issued] ∧
      (u.thr i.val).ringNext = ((s.thr i.val).ringNext + 1) % s.ringSize i.val := by
  have hop : 6 ≤ 10 := by decide
  obtain ⟨n, hn⟩ := thr_counted s i.val
  have hrun := runOp_ioWord (o := o) hop (inRoutine_post h ha) (uCheck_ioWord_post hop h ha (by decide) fun _ => ⟨hallowed, hreserved⟩)
    (fun e => absurd e (by decide)) fun e => absurd e (by decide)
  have hring : (s.counted i.val).ringBase i.val = s.ringBase i.val ∧ (s.counted i.val).ringSize i.val = s.ringSize i.val := by
    simp only [State.ringBase, State.ringSize, get_counted, and_self]
  refine ⟨_, congrArg Host.Outcome.next hrun, ?_⟩
  rw [ioSlot_rpost _ _ _ (uIop_ioWord hop o), uIimm_ioWord hop, thr_uGoTo, thr_modThr_same, State.postRing, thr_setThr_same, hn, hring.1, hring.2]
  exact ⟨rfl, rfl, rfl, rfl⟩

theorem exec_mNote (hposted : (s.thr i.val).posted ≠ []) : ∃ u, exec (.mNote i o) s = .next u ∧
    (u.thr i.val).posted = (s.thr i.val).posted ++ [.note (s.gReg i.val o.id.val) (s.gReg i.val o.ia.val)] := by
  have hop : 7 ≤ 10 := by decide
  obtain ⟨n, hn⟩ := thr_counted s i.val
  have hrun := runOp_ioWord (o := o) hop (inRoutine_post h ha) (uCheck_ioWord_post hop h ha (by decide) fun e => absurd e (by decide))
    (fun e => absurd e (by decide)) fun e => absurd e (by decide)
  refine ⟨_, congrArg Host.Outcome.next hrun, ?_⟩
  rw [ioSlot_note _ _ _ (uIop_ioWord hop o) (by rwa [hn]), uId_ioWord hop, uIa_ioWord hop, thr_uGoTo, thr_modThr_same, hn]

end posted

end inputOutput

/-- Settles O40: each word by its slot, as all the others are empty. -/
theorem inputAndOutputMicroOpsAct : Obligations.InputAndOutputMicroOpsAct := by
  intro i o s
  refine ⟨fun hr => ⟨fun _ _ => exec_mInrd hr, exec_mSrd hr, exec_mSwr hr, fun hd => ?_, exec_mCurr hr, fun hm => ?_, fun hm => ?_, fun h2 h5 => ?_⟩,
    fun h => ⟨exec_mRsv_free h, fun h1 h4 hfull => ⟨_, exec_mRsv_waits h h1 h4 hfull, rfl, get_waitCycles_bump ..⟩, exec_mCurw h⟩,
    fun h ha => ⟨exec_mRpost h ha, exec_mNote h ha⟩⟩
  · obtain ⟨u, he, hu⟩ := exec_mRput hr hd
    exact ⟨u, he, fun j _ => hu j⟩
  · exact exec_mStat hr (by omega) (if_pos hm)
  · exact exec_mStat hr (by omega) ((if_neg (by omega)).trans (if_pos hm))
  · exact exec_mStat hr h5 ((if_neg (by omega)).trans (if_neg (by omega)))

end Sys2Proof.Machine
end

section
/-! SUPPORT. The fail FIFO and the capture unit of a tiller (R203 to R220): what a signal, a record and a flush leave as it stands. -/

namespace Sys2Proof.Machine.State

/-! ### Signals -/

section source
variable (s : State) (n : Nat)

@[simp] theorem fifos_source : (s.source n).fifos = s.fifos := by obtain ⟨r, o, e⟩ := s.source_beside n; rw [e]
@[simp] theorem captures_source : (s.source n).captures = s.captures := by obtain ⟨r, o, e⟩ := s.source_beside n; rw [e]
@[simp] theorem compares_source : (s.source n).compares = s.compares := by obtain ⟨r, o, e⟩ := s.source_beside n; rw [e]

end source

section tlSource
variable (s : State) (t k : Nat)

@[simp] theorem fifos_tlSource : (s.tlSource t k).fifos = s.fifos := fifos_source ..
@[simp] theorem captures_tlSource : (s.tlSource t k).captures = s.captures := captures_source ..
@[simp] theorem compares_tlSource : (s.tlSource t k).compares = s.compares := compares_source ..

theorem reg_tlSource {t k o : Nat} (ht : t < 64) (hk : k < 16) (ho : o < 0x800) : (s.tlSource t k).reg (tlBase t + o) = s.reg (tlBase t + o) :=
  reg_source_tiller s _ (by omega) ht ho

end tlSource

theorem cap_of_captures {s u : State} (h : u.captures = s.captures) (t : Nat) : u.cap t = s.cap t := by
  rw [State.cap, h, State.cap]

theorem cmp_of_compares {s u : State} (h : u.compares = s.compares) (t : Nat) : u.cmp t = s.cmp t := by
  rw [State.cmp, h, State.cmp]

/-! ### An entry joins the FIFO (R203, R208) -/

section fifoPut
variable (s : State) (t e : Nat)

/-- Beside the entry only signals go out. -/
theorem fifoPut_cases : ∃ q : State, q.regs = s.regs ∧ q.compares = s.compares ∧
    q.fifos = (s.setFq t { s.fq t with entries := (s.fq t).entries ++ [⟨e, false⟩] }).fifos ∧ (s.fifoPut t e = q ∨ s.fifoPut t e = q.tlSource t 2) := by
  let p := s.setFq t { s.fq t with entries := (s.fq t).entries ++ [⟨e, false⟩] }
  let q := if (s.fq t).entries.length = 255 then p.localSource t 5 else p
  have hput : s.fifoPut t e = if isPacketEnd e && q.on (TL_FQ_STAT_DEST_NOW t) then q.tlSource t 2 else q := rfl
  refine ⟨q, ?_, ?_, ?_, hput ▸ (ite_eq_or_eq _ _ _).symm⟩
  · exact (apply_ite State.regs ..).trans (ite_self _)
  · exact (apply_ite State.compares ..).trans (ite_self _)
  · exact (apply_ite State.fifos ..).trans (ite_self _)

theorem fq_fifoPut : (s.fifoPut t e).fq t = { s.fq t with entries := (s.fq t).entries ++ [⟨e, false⟩] } := by
  obtain ⟨q, -, -, hq, h | h⟩ := fifoPut_cases s t e
  · rw [h, fq_of_fifos hq, fq_setFq_same]
  · rw [h, fq_of_fifos ((fifos_tlSource ..).trans hq), fq_setFq_same]

theorem compares_fifoPut : (s.fifoPut t e).compares = s.compares := by
  obtain ⟨q, -, hq, -, h | h⟩ := fifoPut_cases s t e
  · rw [h, hq]
  · rw [h, compares_tlSource, hq]

theorem reg_fifoPut {t o : Nat} (ht : t < 64) (ho : o < 0x800) : (s.fifoPut t e).reg (tlBase t + o) = s.reg (tlBase t + o) := by
  obtain ⟨q, hq, -, -, h | h⟩ := fifoPut_cases s t e
  · rw [h, State.reg, hq, State.reg]
  · rw [h, reg_tlSource q ht (by decide) ho, State.reg, hq, State.reg]

end fifoPut

/-! ### A flush empties the FIFO (R209, R210, R231) -/

@[simp] theorem fifos_routeEmptied (s : State) (t : Nat) : (s.routeEmptied t).fifos = s.fifos := by
  unfold State.routeEmptied
  dsimp only
  split <;> rfl

@[simp] theorem fifos_showMove (s : State) (t : Nat) : (s.showMove t).fifos = s.fifos := by
  simp only [State.showMove, State.putBit, State.put, setReg_fifos]

@[simp] theorem fifos_settleRoute (s : State) (t : Nat) : (s.settleRoute t).fifos = s.fifos := by
  unfold State.settleRoute
  dsimp only
  split_ifs
  · rfl
  · rfl
  · rfl
  · rw [fifos_source, fifos_showMove]
    rfl

theorem fq_fifoDiscard (s : State) (t : Nat) : (s.fifoDiscard t).fq t = { s.fq t with entries := [], run := none } := by
  have hfifos : (s.fifoDiscard t).fifos = (s.setFq t { s.fq t with entries := [], run := none }).fifos :=
    by rw [State.fifoDiscard, fifos_settleRoute, fifos_routeEmptied, State.put]; rfl
  rw [fq_of_fifos hfifos, fq_setFq_same]

theorem liveFlags_mod_four (s : State) (t : Nat) : s.liveFlags t % 4 = 0 := by
  unfold State.liveFlags
  omega

/-- Cause, FLUSHED and kind of a packet-end record (R207). -/
theorem bits_packetRecord {p : PktEnd} (fails : Nat) (hv : p.vidx < 2 ^ 48) (hs : p.seg < 2 ^ 8) (hr : p.reason < 2 ^ 3) (hf : p.flags % 4 = 0) :
    bits (packetRecord p fails) 121 120 = 2 ∧ bits (packetRecord p fails) 90 88 = p.reason ∧ bits (packetRecord p fails) 91 91 = b2n p.flushed := by
  have hpass := bits_lt p.pass 31 0
  have hflushed := b2n_lt_two p.flushed
  have hfails := Nat.min_le_right fails 0xFFFFFFF
  unfold packetRecord
  generalize bits p.pass 31 0 = pass at hpass ⊢
  generalize b2n p.flushed = flushed at hflushed ⊢
  generalize min fails 0xFFFFFFF = count at hfails ⊢
  simp only [bits, Nat.shiftRight_eq_div_pow]
  omega

/-- FIFO and drop run go, and the one record of the flush enters (R210). -/
theorem flushNow_effect (s : State) (t : Nat) : ∃ e, ((s.flushNow t).fq t).entries = [⟨e, false⟩] ∧ bits e 121 120 = 2 ∧ bits e 90 88 = 7 ∧
    bits e 91 91 = 1 ∧ ((s.flushNow t).fq t).run = none := by
  let p : PktEnd := ⟨2 ^ 48 - 1, 0, 0, 7, s.liveFlags t, true, none, false⟩
  obtain ⟨hend, hcause, hflushed⟩ := bits_packetRecord (p := p) 0 (show 2 ^ 48 - 1 < 2 ^ 48 by decide) (show 0 < 2 ^ 8 by decide) (show 7 < 2 ^ 3 by decide)
    (s.liveFlags_mod_four t)
  have hfq := fq_fifoPut (((s.setCmp t { s.cmp t with queue := (s.cmp t).queue.map discardPacket }).put (TL_FQ_STAT_FLUSH_PEND t) 0).fifoDiscard t) t
    (packetRecord p 0)
  rw [fq_fifoDiscard] at hfq
  exact ⟨_, congrArg FailFifo.entries hfq, hend, hcause, hflushed, congrArg FailFifo.run hfq⟩

theorem requestFlush_active {s : State} {t : Nat} (h : s.active t = true) : s.requestFlush t = s.mark (TL_FQ_STAT_FLUSH_PEND t) := if_pos h

theorem requestFlush_stopped {s : State} {t : Nat} (h : s.active t = false) : s.requestFlush t = s.flushNow t := if_neg (by simp [h])

/-! ### A change of DEST (R211) -/

/-- A field of one bit holds its truth value. -/
theorem get_eq_b2n_on (s : State) {f : Field} (h : f.hi = f.lo) : s.get f = b2n (s.on f) := by
  have hlt : s.get f < 2 := (bits_lt _ f.hi f.lo).trans_eq (by rw [h, Nat.add_sub_cancel_left]; rfl)
  rw [State.on]
  generalize s.get f = n at hlt
  interval_cases n <;> rfl

section writeDest
variable {s : State} {t : Nat}

/-- The change stands in TL_FQ_CTRL, beside what TL_FQ_STAT shows of it. -/
theorem get_put_dest (s : State) (t n : Nat) {o hi lo : Nat} (ho : o ≠ 0x300) :
    (s.put (TL_FQ_CTRL_DEST t) n).get ⟨tlBase t + o, hi, lo⟩ = s.get ⟨tlBase t + o, hi, lo⟩ := get_put_other s _ (tl_registers_ne t ho)

theorem on_dest_put_stat (s : State) (t n : Nat) {hi lo : Nat} (host : Bool) :
    ((s.put (TL_FQ_CTRL_DEST t) (b2n host)).put ⟨TL_FQ_STAT t, hi, lo⟩ n).on (TL_FQ_CTRL_DEST t) = host :=
  (on_eq_of_get (get_put_other _ _ (tl_registers_ne t (by decide)))).trans (on_put_b2n (f := TL_FQ_CTRL_DEST t) s rfl host)

theorem writeDest_eq (s : State) (t dest : Nat) : s.writeDest t dest =
    if (s.boundDest t).getD (s.get (TL_FQ_STAT_DEST_NOW t)) = dest then
      (s.put (TL_FQ_CTRL_DEST t) dest).put (TL_FQ_STAT_DEST_PEND t) (b2n (s.get (TL_FQ_STAT_DEST_NOW t) ≠ dest))
    else if s.active t then (s.put (TL_FQ_CTRL_DEST t) dest).mark (TL_FQ_STAT_DEST_PEND t)
    else ((s.put (TL_FQ_CTRL_DEST t) dest).put (TL_FQ_STAT_DEST_NOW t) dest).put (TL_FQ_STAT_DEST_PEND t) 0 := by
  have hactive : (s.put (TL_FQ_CTRL_DEST t) dest).active t = s.active t := by
    unfold State.active TL_SEQ_STAT_STATE TL_SEQ_STAT
    rw [get_put_dest s t dest (by decide)]
  have hnow : (s.put (TL_FQ_CTRL_DEST t) dest).get (TL_FQ_STAT_DEST_NOW t) = s.get (TL_FQ_STAT_DEST_NOW t) := get_put_dest s t dest (by decide)
  have hbound : (s.put (TL_FQ_CTRL_DEST t) dest).boundDest t = s.boundDest t := by rw [State.boundDest, cmp_put, State.boundDest]
  unfold State.writeDest
  dsimp only
  rw [hnow, hbound, hactive]

variable {host : Bool}

/-- It meets what is in force, or what the record of a flush brings. -/
theorem writeDest_met_effect (h : (s.boundDest t).getD (s.get (TL_FQ_STAT_DEST_NOW t)) = b2n host) :
    (s.writeDest t (b2n host)).on (TL_FQ_STAT_DEST_NOW t) = s.on (TL_FQ_STAT_DEST_NOW t) ∧
    (s.writeDest t (b2n host)).on (TL_FQ_STAT_DEST_PEND t) = (s.on (TL_FQ_STAT_DEST_NOW t) != host) ∧
    (s.writeDest t (b2n host)).on (TL_FQ_CTRL_DEST t) = host := by
  have hpend : decide (s.get (TL_FQ_STAT_DEST_NOW t) ≠ b2n host) = (s.on (TL_FQ_STAT_DEST_NOW t) != host) := by
    rw [get_eq_b2n_on s rfl]
    cases s.on (TL_FQ_STAT_DEST_NOW t) <;> cases host <;> rfl
  rw [writeDest_eq, if_pos h, hpend]
  refine ⟨?_, on_put_b2n (f := TL_FQ_STAT_DEST_PEND t) _ rfl _, on_dest_put_stat ..⟩
  exact (on_put_apart _ (f := TL_FQ_STAT_DEST_PEND t) (g := TL_FQ_STAT_DEST_NOW t) _ rfl rfl rfl).trans (on_eq_of_get (get_put_dest s t _ (by decide)))

variable (h : (s.boundDest t).getD (s.get (TL_FQ_STAT_DEST_NOW t)) ≠ b2n host)
include h

/-- An active tiller lets it wait. -/
theorem writeDest_active_effect (ha : s.active t = true) :
    (s.writeDest t (b2n host)).on (TL_FQ_STAT_DEST_NOW t) = s.on (TL_FQ_STAT_DEST_NOW t) ∧
    (s.writeDest t (b2n host)).on (TL_FQ_STAT_DEST_PEND t) = true ∧ (s.writeDest t (b2n host)).on (TL_FQ_CTRL_DEST t) = host := by
  rw [writeDest_eq, if_neg h, if_pos ha]
  refine ⟨?_, on_mark_of_fits (f := TL_FQ_STAT_DEST_PEND t) _ rfl, on_dest_put_stat ..⟩
  exact (on_put_apart _ (f := TL_FQ_STAT_DEST_PEND t) (g := TL_FQ_STAT_DEST_NOW t) 1 rfl rfl rfl).trans (on_eq_of_get (get_put_dest s t _ (by decide)))

/-- In a stopped one it acts at once. -/
theorem writeDest_stopped_effect (ha : s.active t = false) :
    (s.writeDest t (b2n host)).on (TL_FQ_STAT_DEST_NOW t) = host ∧ (s.writeDest t (b2n host)).on (TL_FQ_CTRL_DEST t) = host := by
  rw [writeDest_eq, if_neg h, ha, if_neg Bool.false_ne_true]
  constructor
  · exact (on_put_apart _ (f := TL_FQ_STAT_DEST_PEND t) (g := TL_FQ_STAT_DEST_NOW t) 0 rfl rfl rfl).trans (on_put_b2n (f := TL_FQ_STAT_DEST_NOW t) _ rfl host)
  · exact (on_eq_of_get (get_put_other _ _ (tl_registers_ne t (by decide)))).trans (on_dest_put_stat s t _ host)

end writeDest

end Sys2Proof.Machine.State
end

section
/-! SUPPORT. TL_FQ_CTRL and TL_CAP_CTRL: FLUSH, DEST, ARM and ABORT (R209 to R211, R216 to R218), and O36 settled. -/

namespace Sys2Proof.Machine

namespace State

/-! ### What a tiller's control registers show -/

theorem shown_tiller_plain {s : State} {t o : Nat} (ht : t < 64) (ho : o < 0x800) (h : s.shownTiller t (tlBase t + o) = []) :
    s.shown (tlBase t + o) = (s.reg (tlBase t + o)).toNat := by
  rw [State.shown, shownFields_tiller ht ho, h]
  rfl

/-! ### TL_FQ_CTRL (R209 to R211) -/

/-- The row of TL_FQ_CTRL in the register tables. -/
def fqCtrlRow : RegD := ⟨0x300, 1, 4, 1, 4, [⟨0, 0, .rw, false, 0⟩, ⟨1, 1, .rw, false, 0⟩, ⟨2, 2, .wo, false, 0⟩]⟩

theorem writeEngine_fqCtrl (s : State) (t w : Nat) : s.writeEngine t (TL_FQ_CTRL t) w = s.writeFqCtrl t w := by
  simp [State.writeEngine, TL_SEQ_CTRL, TL_STICKY, TL_TRACE_RD, TL_EVIN, TL_SEG_CTRL, TL_SEG_CHECK, TL_CAP_CTRL, TL_FQ_CTRL]

section fqCtrl
variable {s : State} {v : View} {t : Nat} (ht : t < 64)
include ht

theorem regAt_fqCtrl : regAt (TL_FQ_CTRL t) = some fqCtrlRow := by
  rw [TL_FQ_CTRL, regAt_tiller ht (by decide)]
  decide +kernel

theorem shown_fqCtrl : s.shown (TL_FQ_CTRL t) = (s.reg (TL_FQ_CTRL t)).toNat := by
  refine shown_tiller_plain ht (by decide) ?_
  simp only [State.shownTiller, TL_FLAGS, TL_SUP_CTRL, TL_APG_PX, TL_APG_PY, TL_LVL_STAT, TL_STRM_STAT, TL_CAP_STAT, TL_FQ_STAT, TL_ADC_STAT, Nat.add_assoc]
  simp

variable (hr : s.ready = true) (hv : directView v = true)
include hr hv

/-- PKT_MODE aside, a command of FLUSH asks for a flush alone. -/
theorem mergeField_flush : ∃ p, s.mergeField v (TL_FQ_CTRL_FLUSH t) 1 = (s.put (TL_FQ_CTRL_PKT_MODE t) p).requestFlush t := by
  have hd := regAt_fqCtrl ht
  let w := s.mergedWord fqCtrlRow (TL_FQ_CTRL_FLUSH t) 1
  have hflush : w.testBit 2 = true := by
    rw [testBit_of_bits, show bits w 2 2 = 1 from bits_mergedWord (f := TL_FQ_CTRL_FLUSH t) s hd rfl (show 1 < 2 ^ 1 by decide)]
    rfl
  have hdest : bits w 0 0 = s.get (TL_FQ_CTRL_DEST t) := by
    refine (bits_mergedWord_kept (f := TL_FQ_CTRL_FLUSH t) s 1 hd rfl (List.mem_cons_self ..) (.inl (by decide : 0 < 2)) rfl).trans ?_
    exact congrArg (bits · 0 0) (shown_fqCtrl ht)
  refine ⟨bits w 1 1, ?_⟩
  rw [mergeField_tiller ht (o := 0x300) (f := TL_FQ_CTRL_FLUSH t) (by decide) 1 hr hv rfl rfl hd]
  refine (writeTiller_engine (by decide) _ none (by decide) (by decide)).trans ((writeEngine_fqCtrl s t w).trans ?_)
  rw [State.writeFqCtrl, if_pos hdest, hflush, State.andThen, if_pos rfl]

/-- A command that changes DEST asks for the change alone. -/
theorem mergeField_dest {host : Bool} (h : s.on (TL_FQ_CTRL_DEST t) ≠ host) :
    ∃ p, s.mergeField v (TL_FQ_CTRL_DEST t) (b2n host) = (s.put (TL_FQ_CTRL_PKT_MODE t) p).writeDest t (b2n host) := by
  have hd := regAt_fqCtrl ht
  let w := s.mergedWord fqCtrlRow (TL_FQ_CTRL_DEST t) (b2n host)
  have hflush : w.testBit 2 = false := by
    rw [testBit_of_bits, show bits w 2 2 = 0 from bits_mergedWord_zero (f := TL_FQ_CTRL_DEST t) (x := ⟨2, 2, .wo, false, 0⟩) s (b2n host) hd rfl
      (by simp [fqCtrlRow]) (.inr (by decide : 0 < 2)) rfl]
    rfl
  have hdest : bits w 0 0 = b2n host := bits_mergedWord (f := TL_FQ_CTRL_DEST t) s hd rfl (b2n_lt_two host)
  have hchange : bits w 0 0 ≠ s.get (TL_FQ_CTRL_DEST t) := by
    rw [hdest, get_eq_b2n_on s rfl]
    revert h
    cases s.on (TL_FQ_CTRL_DEST t) <;> cases host <;> decide
  refine ⟨bits w 1 1, ?_⟩
  rw [mergeField_tiller ht (o := 0x300) (f := TL_FQ_CTRL_DEST t) (by decide) _ hr hv rfl rfl hd]
  refine (writeTiller_engine (by decide) _ none (by decide) (by decide)).trans ((writeEngine_fqCtrl s t w).trans ?_)
  rw [State.writeFqCtrl, if_neg hchange, hflush, hdest, State.andThen, if_neg Bool.false_ne_true]

end fqCtrl

/-- The mode of packets stands in TL_FQ_CTRL beside DEST. -/
theorem get_put_pktMode (s : State) (t p : Nat) {o hi lo : Nat} (ho : o ≠ 0x300) :
    (s.put (TL_FQ_CTRL_PKT_MODE t) p).get ⟨tlBase t + o, hi, lo⟩ = s.get ⟨tlBase t + o, hi, lo⟩ :=
  get_put_other s _ (tl_registers_ne t ho)

theorem get_destNow_put_pktMode (s : State) (t p : Nat) : (s.put (TL_FQ_CTRL_PKT_MODE t) p).get (TL_FQ_STAT_DEST_NOW t) = s.get (TL_FQ_STAT_DEST_NOW t) :=
  get_put_pktMode s t p (by decide)

theorem active_put_pktMode (s : State) (t p : Nat) : (s.put (TL_FQ_CTRL_PKT_MODE t) p).active t = s.active t := by
  unfold State.active TL_SEQ_STAT_STATE TL_SEQ_STAT
  rw [get_put_pktMode s t p (by decide)]

/-- A change that meets what is not bound to the record of a flush meets what is in force. -/
theorem on_destNow_of_met {s : State} {t : Nat} {host : Bool} (hb : s.boundDest t ≠ some (b2n host))
    (hm : (s.boundDest t).getD (s.get (TL_FQ_STAT_DEST_NOW t)) = b2n host) : s.on (TL_FQ_STAT_DEST_NOW t) = host := by
  cases hbound : s.boundDest t with
  | some d =>
    rw [hbound, Option.getD_some] at hm
    exact absurd (hbound.trans (congrArg some hm)) hb
  | none =>
    rw [hbound, Option.getD_none] at hm
    rw [State.on, hm]
    cases host <;> rfl

/-- What is in force, or bound to the record of a flush, stands. -/
theorem getD_boundDest_put_pktMode (s : State) (t p : Nat) :
    ((s.put (TL_FQ_CTRL_PKT_MODE t) p).boundDest t).getD ((s.put (TL_FQ_CTRL_PKT_MODE t) p).get (TL_FQ_STAT_DEST_NOW t)) =
      (s.boundDest t).getD (s.get (TL_FQ_STAT_DEST_NOW t)) := by
  rw [get_destNow_put_pktMode, State.boundDest, cmp_put, State.boundDest]

/-! ### TL_CAP_CTRL (R216, R218) -/

/-- The row of TL_CAP_CTRL in the register tables. -/
def capCtrlRow : RegD := ⟨0x280, 1, 4, 1, 4, [⟨0, 0, .wo, false, 0⟩, ⟨1, 1, .wo, false, 0⟩, ⟨6, 6, .rw, false, 0⟩, ⟨7, 7, .rw, false, 0⟩]⟩

/-- ARM and ABORT are its bits 0 and 1. -/
def capCommand (t i : Nat) : Field := ⟨TL_CAP_CTRL t, i, i⟩

/-- The register that a command of TL_CAP_CTRL writes, written as it stands. -/
def capCommanded (s : State) (t : Nat) : State := s.setReg (TL_CAP_CTRL t) (s.reg (TL_CAP_CTRL t))

@[simp] theorem reg_capCommanded (s : State) (t : Nat) : (s.capCommanded t).reg = s.reg := reg_setReg_self ..

@[simp] theorem get_capCommanded (s : State) (t : Nat) (f : Field) : (s.capCommanded t).get f = s.get f :=
  get_eq_of_reg (by rw [reg_capCommanded])

@[simp] theorem captures_capCommanded (s : State) (t : Nat) : (s.capCommanded t).captures = s.captures := setReg_captures ..

theorem writeEngine_capCtrl (s : State) (t w : Nat) : s.writeEngine t (TL_CAP_CTRL t) w = s.writeCapCtrl t w := by
  simp [State.writeEngine, TL_SEQ_CTRL, TL_STICKY, TL_TRACE_RD, TL_EVIN, TL_SEG_CTRL, TL_SEG_CHECK, TL_CAP_CTRL]

section capCtrl
variable {s : State} {v : View} {t : Nat} (ht : t < 64)
include ht

theorem regAt_capCtrl : regAt (TL_CAP_CTRL t) = some capCtrlRow := by
  rw [TL_CAP_CTRL, regAt_tiller ht (by decide)]
  decide +kernel

theorem shown_capCtrl : s.shown (TL_CAP_CTRL t) = (s.reg (TL_CAP_CTRL t)).toNat := by
  refine shown_tiller_plain ht (by decide) ?_
  simp only [State.shownTiller, TL_FLAGS, TL_SUP_CTRL, TL_APG_PX, TL_APG_PY, TL_LVL_STAT, TL_STRM_STAT, TL_CAP_STAT, TL_FQ_STAT, TL_ADC_STAT, Nat.add_assoc]
  simp

theorem fieldTakes_capCtrl : ∀ x ∈ capCtrlRow.flds, ∀ n, fieldTakes (kindOf (TL_CAP_CTRL t)) x.lo n = some n := by
  have free : ∀ x ∈ capCtrlRow.flds, fieldLimits.find? (fun e => e.1 = 0x40000 + 0x280 && e.2.1 = x.lo) = none ∧ arrayLimit (0x40000 + 0x280) x.lo = none := by
    decide +kernel
  rw [TL_CAP_CTRL, kindOf_tiller ht (by decide)]
  exact fun x hx => fieldTakes_of_free (free x hx).1 (free x hx).2

/-- A command of ARM or of ABORT writes its bit alone. -/
theorem mergeField_capCommand (hr : s.ready = true) (hv : directView v = true) {i : Nat} (hi : i < 2) : s.mergeField v (capCommand t i) 1 =
    (if i = 0 then (s.capCommanded t).writeArm t else (s.capCommanded t).writeAbort t).autoRearm t := by
  have hd := regAt_capCtrl ht
  have hf : (capCommand t i).fits = true := by
    interval_cases i <;> rfl
  have hwo : ∀ x ∈ capCtrlRow.flds, (x.hi < (capCommand t i).lo ∨ (capCommand t i).hi < x.lo) ∨ x.acc = .wo := by
    interval_cases i <;> simp [capCtrlRow, capCommand]
  let w := s.mergedWord capCtrlRow (capCommand t i) 1
  have hstore : s.storeWord (TL_CAP_CTRL t) w = s.capCommanded t :=
    storeWord_mergedWord s (f := capCommand t i) 1 hd hf (shown_capCtrl ht) hwo (fieldTakes_capCtrl ht)
  have hself : w.testBit i = true := by
    rw [testBit_of_bits, show bits w i i = 1 from
      bits_mergedWord (f := capCommand t i) s hd hf (show 1 < 2 ^ (i + 1 - i) by rw [Nat.add_sub_cancel_left]; decide)]
    rfl
  have hother : w.testBit (1 - i) = false := by
    have hmem : (⟨1 - i, 1 - i, .wo, false, 0⟩ : FieldD) ∈ capCtrlRow.flds := by
      interval_cases i <;> simp [capCtrlRow]
    rw [testBit_of_bits, show bits w (1 - i) (1 - i) = 0 from
      bits_mergedWord_zero (f := capCommand t i) s 1 hd hf hmem (show 1 - i < i ∨ i < 1 - i by omega) rfl]
    rfl
  rw [mergeField_tiller ht (o := 0x280) (f := capCommand t i) (by decide) 1 hr hv rfl rfl hd]
  refine (writeTiller_engine (by decide) _ none (by decide) (by decide)).trans ((writeEngine_capCtrl s t w).trans ?_)
  rw [State.writeCapCtrl, hstore]
  interval_cases i
  · rw [hself, show w.testBit 1 = false from hother, State.andThen, State.andThen, if_neg Bool.false_ne_true, if_pos rfl, if_pos rfl]
  · rw [hself, show w.testBit 0 = false from hother, State.andThen, State.andThen, if_neg Bool.false_ne_true, if_pos rfl, if_neg one_ne_zero]

end capCtrl

/-! ### The capture unit is armed (R216, R220) -/

theorem autoRearm_of_state {s : State} {t : Nat} (h : s.get (TL_CAP_STAT_STATE t) ≠ 3) : s.autoRearm t = s := by
  simp [State.autoRearm, h]

theorem writeArm_busy {s : State} {t : Nat} (h : s.get (TL_CAP_STAT_STATE t) = 1 ∨ s.get (TL_CAP_STAT_STATE t) = 2) :
    s.writeArm t = s.mark (TL_CAP_STAT_ARM_BUSY t) := by
  simp [State.writeArm, h]

theorem writeAbort_running {s : State} {t : Nat} (h : s.get (TL_CAP_STAT_STATE t) = 1 ∨ s.get (TL_CAP_STAT_STATE t) = 2) :
    s.writeAbort t = s.endAcquisition t 6 := by
  simp [State.writeAbort, h]

theorem writeArm_free {s : State} {t : Nat} (h1 : s.get (TL_CAP_STAT_STATE t) ≠ 1) (h2 : s.get (TL_CAP_STAT_STATE t) ≠ 2) :
    s.writeArm t = s.armCapture t := by
  simp [State.writeArm, h1, h2]

/-- Whatever dead time is shown, the unit is armed anew. -/
theorem armCapture_eq (s : State) (t : Nat) : ∃ (q : State) (x : Capture), x.entries = [] ∧ s.armCapture t =
    ((((((((q.put (TL_CAP_STAT_TRUNC t) 0).put (TL_CAP_STAT_END_WHY t) 0).put (TL_CAP_STAT_PRE_GOT t) 0).setReg (TL_TRIG_STATUS t) 0).put
      (TL_FLAGS_TRIG t) 0).setCap t x).put (TL_CAP_STAT_STATE t) 1)) :=
  ⟨_, _, rfl, rfl⟩

theorem armCapture_effect (s : State) (t : Nat) : (s.armCapture t).get (TL_CAP_STAT_STATE t) = 1 ∧ (s.armCapture t).get (TL_CAP_STAT_END_WHY t) = 0 ∧
    ((s.armCapture t).cap t).entries = [] ∧ (s.armCapture t).reg (TL_TRIG_STATUS t) = 0 := by
  obtain ⟨q, x, hx, h⟩ := armCapture_eq s t
  let c := (q.put (TL_CAP_STAT_TRUNC t) 0).put (TL_CAP_STAT_END_WHY t) 0
  let d := (c.put (TL_CAP_STAT_PRE_GOT t) 0).setReg (TL_TRIG_STATUS t) 0
  have hwhy : d.get (TL_CAP_STAT_END_WHY t) = 0 :=
    (get_eq_of_reg (f := TL_CAP_STAT_END_WHY t) (reg_setReg_other _ _ (tl_registers_ne t (by decide)))).trans
      ((get_put_apart c (f := TL_CAP_STAT_PRE_GOT t) (g := TL_CAP_STAT_END_WHY t) 0 rfl rfl rfl).trans
        (get_put_of_fits (f := TL_CAP_STAT_END_WHY t) _ 0 rfl))
  have hflags {o : Nat} (ho : o ≠ 0x70) : ((d.put (TL_FLAGS_TRIG t) 0).setCap t x).reg (tlBase t + o) = d.reg (tlBase t + o) := by
    rw [reg_setCap]
    exact reg_put_other d (TL_FLAGS_TRIG t) 0 (tl_registers_ne t ho)
  have e : s.armCapture t = ((d.put (TL_FLAGS_TRIG t) 0).setCap t x).put (TL_CAP_STAT_STATE t) 1 := h
  rw [e]
  refine ⟨get_put_of_fits _ _ rfl, ?_, ?_, ?_⟩
  · exact (get_put_apart _ (f := TL_CAP_STAT_STATE t) (g := TL_CAP_STAT_END_WHY t) 1 rfl rfl rfl).trans
      ((get_eq_of_reg (f := TL_CAP_STAT_END_WHY t) (hflags (by decide))).trans hwhy)
  · rw [cap_put, cap_setCap_same, hx]
  · exact (reg_put_other _ (TL_CAP_STAT_STATE t) 1 (tl_registers_ne t (by decide))).trans ((hflags (by decide)).trans (reg_setReg_same ..))

/-! ### An acquisition ends (R217, R218) -/

section endAcquisition
variable {s : State} {t why : Nat} (hst : s.get (TL_CAP_STAT_STATE t) = 1 ∨ s.get (TL_CAP_STAT_STATE t) = 2)
include hst

/-- The entries that stay: of a ring the last PRE. -/
theorem endAcquisition_eq (why : Nat) : ∃ (q : State) (x : Capture), (∀ o, o ≠ 0x288 → q.reg (tlBase t + o) = s.reg (tlBase t + o)) ∧
    (x.entries = if s.get (TL_CAP_STAT_STATE t) = 1 then (s.cap t).entries.drop ((s.cap t).entries.length - s.get (TL_CAP_LEN_PRE t)) else (s.cap t).entries) ∧
    s.endAcquisition t why =
      ((((q.setCap t x).put (TL_CAP_STAT_STATE t) 3).put (TL_CAP_STAT_END_WHY t) why).bump (TL_CAP_CNT_ACQS t)).tlSource t 4 := by
  have hruns : ¬((decide (s.get (TL_CAP_STAT_STATE t) ≠ 1) && decide (s.get (TL_CAP_STAT_STATE t) ≠ 2)) = true) := by
    rcases hst with h | h <;> simp [h]
  let q := if s.get (TL_CAP_STAT_STATE t) = 1 then s.closeRing t else s
  refine ⟨q, { q.cap t with doneAt := some q.ticks }, fun o ho => ?_, ?_, if_neg hruns⟩
  · unfold q
    split
    · exact reg_put_other _ (TL_CAP_STAT_PRE_GOT t) _ (tl_registers_ne t ho)
    · rfl
  · unfold q
    dsimp only
    split
    · unfold State.closeRing
      dsimp only
      rw [cap_put, cap_setCap_same]
    · rfl

theorem endAcquisition_effect (ht : t < 64) (hwhy : why < 8) : (s.endAcquisition t why).get (TL_CAP_STAT_STATE t) = 3 ∧
    (s.endAcquisition t why).get (TL_CAP_STAT_END_WHY t) = why ∧
    (((s.endAcquisition t why).cap t).entries =
      if s.get (TL_CAP_STAT_STATE t) = 1 then (s.cap t).entries.drop ((s.cap t).entries.length - s.get (TL_CAP_LEN_PRE t)) else (s.cap t).entries) ∧
    (s.endAcquisition t why).reg (TL_CAP_CTRL t) = s.reg (TL_CAP_CTRL t) := by
  obtain ⟨q, x, hq, hx, h⟩ := endAcquisition_eq hst why
  let d := ((q.setCap t x).put (TL_CAP_STAT_STATE t) 3).put (TL_CAP_STAT_END_WHY t) why
  have e : s.endAcquisition t why = (d.bump (TL_CAP_CNT_ACQS t)).tlSource t 4 := h
  have hreg {o : Nat} (ho : o < 0x800) (hc : o ≠ 0x2c8) : (s.endAcquisition t why).reg (tlBase t + o) = d.reg (tlBase t + o) := by
    rw [e, reg_tlSource _ ht (by decide) ho]
    exact reg_bump_other d (TL_CAP_CNT_ACQS t) (tl_registers_ne t hc)
  refine ⟨?_, ?_, ?_, ?_⟩
  · refine (get_eq_of_reg (f := TL_CAP_STAT_STATE t) (hreg (by decide) (by decide))).trans ?_
    exact (get_put_apart _ (f := TL_CAP_STAT_END_WHY t) (g := TL_CAP_STAT_STATE t) why rfl rfl rfl).trans (get_put_of_fits (f := TL_CAP_STAT_STATE t) _ 3 rfl)
  · refine (get_eq_of_reg (f := TL_CAP_STAT_END_WHY t) (hreg (by decide) (by decide))).trans ?_
    exact (get_put_of_fits (f := TL_CAP_STAT_END_WHY t) _ why rfl).trans (Nat.mod_eq_of_lt hwhy)
  · have hcap : (s.endAcquisition t why).cap t = x := by
      rw [e, cap_of_captures (captures_tlSource ..), State.bump, State.bumpBy, cap_put, cap_put, cap_put, cap_setCap_same]
    rw [hcap, hx]
  · refine (hreg (by decide) (by decide)).trans ?_
    exact (reg_put_other _ (TL_CAP_STAT_END_WHY t) why (tl_registers_ne t (by decide))).trans
      ((reg_put_other _ (TL_CAP_STAT_STATE t) 3 (tl_registers_ne t (by decide))).trans (hq _ (by decide)))

end endAcquisition

end State

open State

section queue
variable {v : View} {t : Fin 64} {s : State} (hr : s.ready = true) (hv : directView v = true)
include hr hv

/-! ### FLUSH -/

theorem exec_fqFlush_stopped (ha : s.active t.val = false) : ∃ u e, exec (.fqFlush v t) s = .next u ∧ (u.fq t.val).entries = [⟨e, false⟩] ∧
    bits e 121 120 = 2 ∧ bits e 90 88 = 7 ∧ bits e 91 91 = 1 ∧ (u.fq t.val).run = none := by
  obtain ⟨p, hp⟩ := mergeField_flush t.isLt hr hv
  rw [requestFlush_stopped ((active_put_pktMode s t.val p).trans ha)] at hp
  obtain ⟨e, he⟩ := flushNow_effect (s.put (TL_FQ_CTRL_PKT_MODE t.val) p) t.val
  exact ⟨_, e, congrArg Host.Outcome.next hp, he⟩

theorem exec_fqFlush_active (ha : s.active t.val = true) :
    ∃ u, exec (.fqFlush v t) s = .next u ∧ u.on (TL_FQ_STAT_FLUSH_PEND t.val) = true ∧ u.fifos = s.fifos := by
  obtain ⟨p, hp⟩ := mergeField_flush t.isLt hr hv
  rw [requestFlush_active ((active_put_pktMode s t.val p).trans ha)] at hp
  exact ⟨_, congrArg Host.Outcome.next hp, on_mark_of_fits (f := TL_FQ_STAT_FLUSH_PEND t.val) _ rfl,
    (fifos_mark ..).trans (setReg_fifos ..)⟩

/-! ### DEST -/

/-- Where it meets what is in force or bound, nothing is left to wait for but the record of a flush. -/
theorem exec_fqDestWrite_met {host : Bool} (h : s.on (TL_FQ_CTRL_DEST t.val) ≠ host)
    (hm : (s.boundDest t.val).getD (s.get (TL_FQ_STAT_DEST_NOW t.val)) = b2n host) :
    ∃ u, exec (.fqDestWrite v t host) s = .next u ∧ u.on (TL_FQ_STAT_DEST_NOW t.val) = s.on (TL_FQ_STAT_DEST_NOW t.val) ∧
      u.on (TL_FQ_STAT_DEST_PEND t.val) = (s.on (TL_FQ_STAT_DEST_NOW t.val) != host) ∧ u.on (TL_FQ_CTRL_DEST t.val) = host := by
  obtain ⟨p, hp⟩ := mergeField_dest t.isLt hr hv h
  have heffect := writeDest_met_effect ((getD_boundDest_put_pktMode s t.val p).trans hm)
  rw [on_eq_of_get (get_destNow_put_pktMode ..)] at heffect
  exact ⟨_, congrArg Host.Outcome.next hp, heffect⟩

section changed
variable {host : Bool} (h : s.on (TL_FQ_CTRL_DEST t.val) ≠ host) (hm : (s.boundDest t.val).getD (s.get (TL_FQ_STAT_DEST_NOW t.val)) ≠ b2n host)
include h hm

theorem exec_fqDestWrite_active (ha : s.active t.val = true) :
    ∃ u, exec (.fqDestWrite v t host) s = .next u ∧ u.on (TL_FQ_STAT_DEST_NOW t.val) = s.on (TL_FQ_STAT_DEST_NOW t.val) ∧
      u.on (TL_FQ_STAT_DEST_PEND t.val) = true ∧ u.on (TL_FQ_CTRL_DEST t.val) = host := by
  obtain ⟨p, hp⟩ := mergeField_dest t.isLt hr hv h
  have heffect := writeDest_active_effect (by rwa [getD_boundDest_put_pktMode s t.val p]) ((active_put_pktMode ..).trans ha)
  rw [on_eq_of_get (get_destNow_put_pktMode ..)] at heffect
  exact ⟨_, congrArg Host.Outcome.next hp, heffect⟩

theorem exec_fqDestWrite_stopped (ha : s.active t.val = false) :
    ∃ u, exec (.fqDestWrite v t host) s = .next u ∧ u.on (TL_FQ_STAT_DEST_NOW t.val) = host ∧ u.on (TL_FQ_CTRL_DEST t.val) = host := by
  obtain ⟨p, hp⟩ := mergeField_dest t.isLt hr hv h
  exact ⟨_, congrArg Host.Outcome.next hp,
    writeDest_stopped_effect (by rwa [getD_boundDest_put_pktMode s t.val p]) ((active_put_pktMode ..).trans ha)⟩

end changed

/-! ### ARM and ABORT -/

theorem exec_capArm_free (h1 : s.get (TL_CAP_STAT_STATE t.val) ≠ 1) (h2 : s.get (TL_CAP_STAT_STATE t.val) ≠ 2) :
    ∃ u, exec (.capArm v t) s = .next u ∧ u.get (TL_CAP_STAT_STATE t.val) = 1 ∧ u.get (TL_CAP_STAT_END_WHY t.val) = 0 ∧
      (u.cap t.val).entries = [] ∧ u.reg (TL_TRIG_STATUS t.val) = 0 := by
  have harmed := armCapture_effect (s.capCommanded t.val) t.val
  have hmerge : s.mergeField v (TL_CAP_CTRL_ARM t.val) 1 = _ := mergeField_capCommand t.isLt hr hv (i := 0) (by decide)
  rw [if_pos rfl, writeArm_free (by rwa [get_capCommanded]) (by rwa [get_capCommanded]),
    autoRearm_of_state (by rw [harmed.1]; decide)] at hmerge
  exact ⟨_, congrArg Host.Outcome.next hmerge, harmed⟩

section running
variable (hst : s.get (TL_CAP_STAT_STATE t.val) = 1 ∨ s.get (TL_CAP_STAT_STATE t.val) = 2)
include hst

theorem exec_capArm_busy : ∃ u, exec (.capArm v t) s = .next u ∧ u.on (TL_CAP_STAT_ARM_BUSY t.val) = true ∧ u.captures = s.captures := by
  have hmerge : s.mergeField v (TL_CAP_CTRL_ARM t.val) 1 = _ := mergeField_capCommand t.isLt hr hv (i := 0) (by decide)
  have hstate : ((s.capCommanded t.val).mark (TL_CAP_STAT_ARM_BUSY t.val)).get (TL_CAP_STAT_STATE t.val) = s.get (TL_CAP_STAT_STATE t.val) :=
    (get_put_apart _ (f := TL_CAP_STAT_ARM_BUSY t.val) (g := TL_CAP_STAT_STATE t.val) 1 rfl rfl rfl).trans (get_capCommanded ..)
  rw [if_pos rfl, writeArm_busy (by rwa [get_capCommanded]), autoRearm_of_state (by rw [hstate]; omega)] at hmerge
  exact ⟨_, congrArg Host.Outcome.next hmerge, on_mark_of_fits (f := TL_CAP_STAT_ARM_BUSY t.val) _ rfl,
    (setReg_captures ..).trans (captures_capCommanded ..)⟩

theorem exec_capAbort (ha : s.on (TL_CAP_CTRL_AUTO t.val) = false) : ∃ u, exec (.capAbort v t) s = .next u ∧ u.get (TL_CAP_STAT_STATE t.val) = 3 ∧
    u.get (TL_CAP_STAT_END_WHY t.val) = 6 ∧ (u.cap t.val).entries = if s.get (TL_CAP_STAT_STATE t.val) = 1 then
      (s.cap t.val).entries.drop ((s.cap t.val).entries.length - s.get (TL_CAP_LEN_PRE t.val)) else (s.cap t.val).entries := by
  let q := s.capCommanded t.val
  have hq : q.get (TL_CAP_STAT_STATE t.val) = 1 ∨ q.get (TL_CAP_STAT_STATE t.val) = 2 := by rwa [get_capCommanded]
  obtain ⟨hstate, hwhy, hentries, hctrl⟩ := endAcquisition_effect hq t.isLt (why := 6) (by decide)
  have hmerge : s.mergeField v (TL_CAP_CTRL_ABORT t.val) 1 = _ := mergeField_capCommand t.isLt hr hv (i := 1) (by decide)
  have hauto : (q.endAcquisition t.val 6).on (TL_CAP_CTRL_AUTO t.val) = false := by
    rw [on_eq_of_get (get_eq_of_reg (f := TL_CAP_CTRL_AUTO t.val) hctrl), on_eq_of_get (get_capCommanded ..), ha]
  rw [if_neg one_ne_zero, writeAbort_running hq, autoRearm_off hauto] at hmerge
  rw [get_capCommanded, get_capCommanded, cap_of_captures (captures_capCommanded ..)] at hentries
  exact ⟨_, congrArg Host.Outcome.next hmerge, hstate, hwhy, hentries⟩

end running

end queue

/-- Settles O36: FLUSH and DEST by what the tiller's activity and a bound change make of them, ARM and ABORT by the state of the unit. -/
theorem queueAndCaptureCommandsComplete : Obligations.QueueAndCaptureCommandsComplete := by
  intro v t s hr hv
  refine ⟨exec_fqFlush_stopped hr hv, exec_fqFlush_active hr hv, fun host ha hd hb => ?_, fun host hd hb => ?_, fun host ha hd hn hb => ?_,
    exec_capArm_free hr hv, fun hst => ⟨exec_capArm_busy hr hv hst, exec_capAbort hr hv hst⟩⟩
  · by_cases hm : (s.boundDest t.val).getD (s.get (TL_FQ_STAT_DEST_NOW t.val)) = b2n host
    · obtain ⟨u, he, hnow, -, hctrl⟩ := exec_fqDestWrite_met hr hv hd hm
      exact ⟨u, he, hnow.trans (on_destNow_of_met hb hm), hctrl⟩
    · exact exec_fqDestWrite_stopped hr hv hd hm ha
  · exact exec_fqDestWrite_met hr hv hd (by rw [hb, Option.getD_some])
  · exact exec_fqDestWrite_active hr hv hd (fun hm => hn (on_destNow_of_met hb hm)) ha

end Sys2Proof.Machine
end

section
/-! SUPPORT. Samples leave the queue of compares (R196 to R203), and O35 settled. -/

namespace Sys2Proof.Machine

/-- None of its compares is still to resolve at an instant. -/
theorem any_due_of_all_later {l : List Strobe} {inst : Nat} (h : l.all (fun z => !z.isOpen || decide (inst < z.solveAt)) = true) :
    l.any (fun z => z.isOpen && decide (z.solveAt ≤ inst)) = false := by
  rw [List.any_eq_false]
  intro z hz hdue
  obtain ⟨hopen, hle⟩ := (Bool.and_eq_true _ _).mp hdue
  have hlater := List.all_eq_true.mp h z hz
  rw [hopen, Bool.not_true, Bool.false_or, decide_eq_true_eq] at hlater
  exact absurd (of_decide_eq_true hle) (Nat.not_le.2 hlater)

theorem onIssue_singleton (c : Cmp) (f : Cmp → Cmp) : onIssue [.sample c] c f = [.sample (f c)] := by
  simp [onIssue]

namespace State

/-! ### The order of delivery (R198, R199) -/

/-- An issue that forms a sample is next in turn when nothing else waits. -/
theorem nextTurn_sample {c : Cmp} (hcap : c.capture = true) : nextTurn [.sample c] = some (.sample c, []) := by
  simp [nextTurn, noSample, hcap]

/-- A queue that holds only a sample still due stands. -/
theorem drainAll_sample {s : State} {t : Nat} {c : Cmp} (hq : (s.cmp t).queue = [.sample c]) (hcap : c.capture = true)
    (hsent : c.sent = true → c.twoSamples = true) : s.drainAll t = s.setCmp t { s.cmp t with queue := [.sample c] } := by
  have hdrop : s.dropResolved t = s.setCmp t { s.cmp t with queue := [.sample c] } := by
    simp [State.dropResolved, hq, hcap]
  have hdue : (c.sent && !c.twoSamples) = false := by
    cases hs : c.sent with
    | false => rfl
    | true => rw [hsent hs]; rfl
  rw [State.drainAll, hdrop, hq, List.length_singleton, State.drain, cmp_setCmp_same, nextTurn_sample hcap]
  dsimp only
  rw [hdue, if_neg Bool.false_ne_true]

theorem drainAll_empty {s : State} {t : Nat} (hq : (s.cmp t).queue = []) : s.drainAll t = s.setCmp t { s.cmp t with queue := [] } := by
  rw [State.drainAll, hq, List.length_nil, State.drain, State.dropResolved, hq, List.filter_nil]

/-! ### The delivery of a sample (R198) -/

/-- The instant at which the sample due of an issue is delivered. -/
def deliverAt (s : State) (t : Nat) (c : Cmp) : Nat := max (c.completeAt c.sent) (s.cmp t).sentAt

/-- The state in which it is. -/
def atDelivery (s : State) (t : Nat) (c : Cmp) : State := (s.drainAll t).advInst (s.deliverAt t c)

/-- The strobes of an issue, those of the sample due taken. -/
def takenStrobes (s : State) (t : Nat) (c : Cmp) : List Strobe := c.strobes.map (fun z => if z.second == c.sent then s.takeStrobe t z else z)

/-- The issue as it is delivered. -/
def deliveredIssue (s : State) (t : Nat) (c : Cmp) : Cmp := s.addressed t { c with strobes := s.takenStrobes t c }

@[simp] theorem cmp_advInst (s : State) (inst : Nat) : (s.advInst inst).cmp = s.cmp := cmp_advTo ..
@[simp] theorem fq_advInst (s : State) (inst : Nat) : (s.advInst inst).fq = s.fq := fq_advTo ..

section delivery
variable {s : State} {t : Nat} {c : Cmp} (hq : (s.cmp t).queue = [.sample c]) (hcap : c.capture = true) (hsent : c.sent = true → c.twoSamples = true)
include hq hcap hsent

theorem cmp_atDelivery : (s.atDelivery t c).cmp t = { s.cmp t with queue := [.sample c] } := by
  rw [atDelivery, cmp_advInst, drainAll_sample hq hcap hsent, cmp_setCmp_same]

theorem get_atDelivery (f : Field) : (s.atDelivery t c).get f = s.get f := by
  rw [atDelivery, get_advInst, drainAll_sample hq hcap hsent, get_setCmp]

theorem fq_atDelivery : (s.atDelivery t c).fq = s.fq := by
  rw [atDelivery, fq_advInst, drainAll_sample hq hcap hsent]
  rfl

variable (hlater : c.strobes.all (fun z => !z.isOpen || decide (s.deliverAt t c < z.solveAt)) = true)
include hlater

theorem sampleDeliver_due : s.sampleDeliver t =
    if c.twoSamples && !c.sent then
      ((s.atDelivery t c).setCmp t { (s.atDelivery t c).cmp t with
        queue := onIssue ((s.atDelivery t c).cmp t).queue c (fun e => { e with strobes := (s.atDelivery t c).takenStrobes t c, sent := true }),
        sentAt := s.deliverAt t c }).deliverSample t ((s.atDelivery t c).deliveredIssue t c) false (s.deliverAt t c)
    else ((((s.atDelivery t c).setCmp t { (s.atDelivery t c).cmp t with queue := [], sentAt := s.deliverAt t c }).formRecord t
      ((s.atDelivery t c).deliveredIssue t c)).deliverSample t ((s.atDelivery t c).deliveredIssue t c) c.sent (s.deliverAt t c)).drainAll t := by
  have hcmp : (s.drainAll t).cmp t = { s.cmp t with queue := [.sample c] } := by rw [drainAll_sample hq hcap hsent, cmp_setCmp_same]
  have hdue := any_due_of_all_later hlater
  unfold State.sampleDeliver
  dsimp only
  rw [hcmp]
  dsimp only
  rw [nextTurn_sample hcap]
  dsimp only
  rw [← deliverAt, hdue, if_neg Bool.false_ne_true]
  rfl

/-- The first of two leaves the second in the queue. -/
theorem sampleDeliver_first (htwo : c.twoSamples = true) (hs : c.sent = false) : s.sampleDeliver t =
    ((s.atDelivery t c).setCmp t { (s.atDelivery t c).cmp t with
      queue := [.sample { c with strobes := (s.atDelivery t c).takenStrobes t c, sent := true }], sentAt := s.deliverAt t c }).deliverSample t
        ((s.atDelivery t c).deliveredIssue t c) false (s.deliverAt t c) := by
  have hqueue : ((s.atDelivery t c).cmp t).queue = [.sample c] := congrArg Compare.queue (cmp_atDelivery hq hcap hsent)
  rw [sampleDeliver_due hq hcap hsent hlater, if_pos (by rw [htwo, hs]; rfl), hqueue, onIssue_singleton]

/-- The last one takes the issue out of it. -/
theorem sampleDeliver_last (hlast : c.twoSamples = false ∨ c.sent = true) : s.sampleDeliver t =
    ((((s.atDelivery t c).setCmp t { (s.atDelivery t c).cmp t with queue := [], sentAt := s.deliverAt t c }).formRecord t
      ((s.atDelivery t c).deliveredIssue t c)).deliverSample t ((s.atDelivery t c).deliveredIssue t c) c.sent (s.deliverAt t c)).drainAll t := by
  rw [sampleDeliver_due hq hcap hsent hlater]
  refine if_neg ?_
  rcases hlast with h | h
  · simp [h]
  · simp [h]

end delivery

/-! ### A fail record (R200 to R203) -/

theorem flushed_addressed (s : State) (t : Nat) (c : Cmp) : (s.addressed t c).flushed = c.flushed := by
  unfold State.addressed
  split
  · rfl
  · rfl

/-- A record that arises is counted, and so is the failing vector of its packet (R200, R207). -/
def recordCounted (s : State) (t : Nat) : State := (s.bump (TL_FQ_RECS_RECS t)).setFq t { s.fq t with fails := (s.fq t).fails + 1 }

section recordCounted
variable (s : State) (t : Nat)

theorem fq_recordCounted : (s.recordCounted t).fq t = { s.fq t with fails := (s.fq t).fails + 1 } := fq_setFq_same ..

theorem compares_recordCounted : (s.recordCounted t).compares = s.compares := (setFq_compares ..).trans (setReg_compares ..)

theorem reg_recordCounted {o : Nat} (ho : o ≠ 0x30c) : (s.recordCounted t).reg (tlBase t + o) = s.reg (tlBase t + o) := by
  rw [recordCounted, reg_setFq]
  exact reg_bump_other s (TL_FQ_RECS_RECS t) (tl_registers_ne t ho)

theorem get_recs_recordCounted : (s.recordCounted t).get (TL_FQ_RECS_RECS t) = min (s.get (TL_FQ_RECS_RECS t) + 1) (2 ^ 32 - 1) := by
  rw [recordCounted, get_setFq]
  refine (get_put_of_fits (f := TL_FQ_RECS_RECS t) s _ rfl).trans (Nat.mod_eq_of_lt ?_)
  exact Nat.lt_of_le_of_lt (Nat.min_le_right _ (2 ^ 32 - 1)) (by decide : 2 ^ 32 - 1 < 2 ^ 32)

end recordCounted

/-- It enters a FIFO that has room. -/
theorem formRecord_fails {s : State} {t : Nat} {c : Cmp} (hf : (sampleOf c false).fail ≠ 0) (hflush : c.flushed = false) (hroom : s.fifoFill t < 512) :
    ∃ e, s.formRecord t c = (s.recordCounted t).fifoPut t e := by
  have hfail : (sampleOf c false).fail ||| (sampleOf c true).fail ≠ 0 := fun h => hf (Nat.le_zero.1 (h ▸ Nat.left_le_or))
  have hfill : (s.recordCounted t).fifoFill t < 512 := by
    rw [State.fifoFill, fq_recordCounted]
    exact hroom
  unfold State.formRecord
  dsimp only
  rw [if_neg hfail, hflush, if_neg Bool.false_ne_true, ← recordCounted, State.fifoOffer, if_pos hfill]
  exact ⟨_, rfl⟩

/-- Of the tiller's registers its count alone changes. -/
theorem formRecord_effect {s : State} {t : Nat} {c : Cmp} (ht : t < 64) (hf : (sampleOf c false).fail ≠ 0) (hflush : c.flushed = false)
    (hroom : s.fifoFill t < 512) : ∃ e, (s.formRecord t c).get (TL_FQ_RECS_RECS t) = min (s.get (TL_FQ_RECS_RECS t) + 1) (2 ^ 32 - 1) ∧
      ((s.formRecord t c).fq t).entries = (s.fq t).entries ++ [e] ∧ (s.formRecord t c).cmp t = s.cmp t ∧
      ∀ o, o < 0x800 → o ≠ 0x30c → (s.formRecord t c).reg (tlBase t + o) = s.reg (tlBase t + o) := by
  obtain ⟨e, he⟩ := formRecord_fails hf hflush hroom
  rw [he]
  refine ⟨⟨e, false⟩, ?_, ?_, ?_, fun o ho hr => (reg_fifoPut _ e ht ho).trans (reg_recordCounted s t hr)⟩
  · rw [get_eq_of_reg (f := TL_FQ_RECS_RECS t) (reg_fifoPut _ e ht (by decide)), get_recs_recordCounted]
  · rw [fq_fifoPut, fq_recordCounted]
  · rw [cmp_of_compares ((compares_fifoPut ..).trans (compares_recordCounted ..))]

/-- An IDLE capture unit without the mask test lets a sample pass. -/
theorem deliverSample_idle {s : State} {t : Nat} (hst : s.get (TL_CAP_STAT_STATE t) = 0) (hmask : s.on (TL_MASK_CTRL_EN t) = false) (c : Cmp)
    (second : Bool) (inst : Nat) : s.deliverSample t c second inst = s := by
  have htake : s.takeSample t c (sampleOf c second) = (s, false) := by
    simp [State.takeSample, State.maskTest, hst, hmask]
  rw [State.deliverSample, htake]
  exact if_neg Bool.false_ne_true

/-- A failing issue of one sample, past an IDLE capture unit. -/
theorem sampleDeliver_fails {s : State} {t : Nat} {c : Cmp} (ht : t < 64) (hq : (s.cmp t).queue = [.sample c]) (hcap : c.capture = true)
    (hsent : c.sent = true → c.twoSamples = true) (hlater : c.strobes.all (fun z => !z.isOpen || decide (s.deliverAt t c < z.solveAt)) = true)
    (hst : s.get (TL_CAP_STAT_STATE t) = 0) (hmask : s.on (TL_MASK_CTRL_EN t) = false) (hone : c.twoSamples = false)
    (hf : (sampleOf ((s.atDelivery t c).deliveredIssue t c) false).fail ≠ 0) (hflush : c.flushed = false) (hroom : s.fifoFill t < 512) :
    ∃ e, (s.sampleDeliver t).get (TL_FQ_RECS_RECS t) = min (s.get (TL_FQ_RECS_RECS t) + 1) (2 ^ 32 - 1) ∧
      ((s.sampleDeliver t).fq t).entries = (s.fq t).entries ++ [e] ∧ ((s.sampleDeliver t).cmp t).queue = [] := by
  let d := (s.atDelivery t c).deliveredIssue t c
  let q := (s.atDelivery t c).setCmp t { (s.atDelivery t c).cmp t with queue := [], sentAt := s.deliverAt t c }
  have hfq : q.fq = s.fq := fq_atDelivery hq hcap hsent
  have hget (f : Field) : q.get f = s.get f := get_atDelivery hq hcap hsent f
  obtain ⟨e, hcount, hentry, hcmp, hreg⟩ := formRecord_effect (s := q) ht hf ((flushed_addressed ..).trans hflush) (by rwa [State.fifoFill, hfq])
  have hstate : (q.formRecord t d).get (TL_CAP_STAT_STATE t) = 0 :=
    (get_eq_of_reg (f := TL_CAP_STAT_STATE t) (hreg 0x288 (by decide) (by decide))).trans ((hget _).trans hst)
  have hoff : (q.formRecord t d).on (TL_MASK_CTRL_EN t) = false :=
    (on_eq_of_get ((get_eq_of_reg (f := TL_MASK_CTRL_EN t) (hreg 0x2b4 (by decide) (by decide))).trans (hget _))).trans hmask
  have hempty : ((q.formRecord t d).cmp t).queue = [] := by
    rw [hcmp, cmp_setCmp_same]
  have hend : s.sampleDeliver t = (q.formRecord t d).setCmp t { (q.formRecord t d).cmp t with queue := [] } := by
    rw [sampleDeliver_last hq hcap hsent hlater (.inl hone), deliverSample_idle hstate hoff, drainAll_empty hempty]
  rw [hend]
  refine ⟨e, ?_, ?_, ?_⟩
  · rw [get_setCmp, hcount, hget]
  · rw [← hfq, ← hentry]
    rfl
  · rw [cmp_setCmp_same]

end State

/-- Settles O35: one sample in the queue, first or last of its issue; the record of a failing one passes an IDLE capture unit. -/
theorem samplesAreDelivered : Obligations.SamplesAreDelivered := by
  intro t c s hq hcap hsent
  dsimp only
  intro hlater
  refine ⟨fun htwo hs => congrArg Host.Outcome.next (State.sampleDeliver_first hq hcap hsent hlater htwo hs),
    fun hlast => congrArg Host.Outcome.next (State.sampleDeliver_last hq hcap hsent hlater hlast), fun hst hmask hone hf hflush hroom => ?_⟩
  obtain ⟨e, he⟩ := State.sampleDeliver_fails t.isLt hq hcap hsent hlater hst hmask hone hf hflush hroom
  exact ⟨_, e, rfl, he⟩

end Sys2Proof.Machine
end

section
/-! SUPPORT. Microwords of the sequence, arithmetic, memory and context slots (R234, R235): their fields, and which of them are illegal. -/

namespace Sys2Proof.Machine

/-! ### Bits beside a slot (R234) -/

theorem bits_eq_zero_of_lt {w lo : Nat} (hi : Nat) (h : w < 2 ^ lo) : bits w hi lo = 0 := by
  rw [bits, Nat.shiftRight_eq_div_pow, Nat.div_eq_of_lt h, Nat.zero_mod]

theorem bits_eq_zero_of_dvd {w hi lo : Nat} (hlo : lo ≤ hi + 1) (h : 2 ^ (hi + 1) ∣ w) : bits w hi lo = 0 := by
  obtain ⟨k, rfl⟩ := h
  have hsplit : 2 ^ (hi + 1) = 2 ^ lo * 2 ^ (hi + 1 - lo) := by rw [← Nat.pow_add, Nat.add_sub_cancel' hlo]
  rw [bits, Nat.shiftRight_eq_div_pow, hsplit, Nat.mul_assoc, Nat.mul_div_cancel_left _ (Nat.two_pow_pos _), Nat.mul_mod_right]

/-! ### A word of the sequence slot -/

/-- Every word of the slot has a condition, a buffer and a target, which only some operations read. -/
theorem seqTarget_eq (op target : Nat) : seqTarget op target = seqCond op 0 0 target := by simp [seqTarget, seqCond]
theorem seqCount_eq (op n : Nat) : seqCount op n = seqCond op 0 0 n := by simp [seqCount, seqCond]
theorem seqWord_eq (op : Nat) : seqWord op = seqCond op 0 0 0 := by simp [seqWord, seqCond]

/-- The operands fit their fields. -/
structure SeqFits (op cond buf target : Nat) : Prop where
  op : op ≤ 11
  cond : cond < 64
  buf : buf < 16
  target : target < 2 ^ 14

section seqWord
variable {op cond buf target : Nat} (h : SeqFits op cond buf target)
include h

/-- The fields of the slot; COMMIT and WAITL take theirs from the target's bits. -/
theorem seqCond_fields : uSop (seqCond op cond buf target) = op ∧ uTarget (seqCond op cond buf target) = target ∧
    uN (seqCond op cond buf target) = target % 32 ∧ uWaitBuf (seqCond op cond buf target) = target % 16 ∧
    uCond (seqCond op cond buf target) = cond ∧ uBuf (seqCond op cond buf target) = buf := by
  obtain ⟨hop, hc, hb, ht⟩ := h
  refine ⟨?_, ?_, ?_, ?_, ?_, ?_⟩
  · rw [uSop, bits, seqCond, Nat.shiftRight_eq_div_pow]
    omega
  · rw [uTarget, bits, seqCond, Nat.shiftRight_eq_div_pow]
    omega
  · rw [uN, bits, seqCond, Nat.shiftRight_eq_div_pow]
    omega
  · rw [uWaitBuf, bits, seqCond, Nat.shiftRight_eq_div_pow]
    omega
  · rw [uCond, bits, seqCond, Nat.shiftRight_eq_div_pow]
    omega
  · rw [uBuf, bits, seqCond, Nat.shiftRight_eq_div_pow]
    omega

theorem seqCond_lt : seqCond op cond buf target < 2 ^ 100 := by
  obtain ⟨hop, hc, hb, ht⟩ := h
  rw [seqCond]
  omega

/-- The other slots are empty. -/
theorem seqCond_others : uAop (seqCond op cond buf target) = 0 ∧ uMop (seqCond op cond buf target) = 0 ∧
    uCop (seqCond op cond buf target) = 0 ∧ uIop (seqCond op cond buf target) = 0 := by
  have hlt := seqCond_lt h
  obtain ⟨hop, hc, hb, ht⟩ := h
  refine ⟨?_, ?_, bits_eq_zero_of_lt _ (hlt.trans (by decide)), bits_eq_zero_of_lt _ (hlt.trans (by decide))⟩
  · rw [uAop, bits, seqCond, Nat.shiftRight_eq_div_pow]
    omega
  · rw [uMop, bits, seqCond, Nat.shiftRight_eq_div_pow]
    omega

/-- It is illegal with a condition outside the list, or a count above 16 (R236, R238). -/
theorem uIllegal_seqCond : uIllegal (seqCond op cond buf target) =
    (((decide (op = 2) || decide (op = 3)) && !([0, 1, 2, 3, 4, 5, 8, 9, 10].contains cond)) ||
      ((decide (op = 6) || decide (op = 7)) && decide (16 < target % 32))) := by
  have hlt := seqCond_lt h
  have hlow : bits (seqCond op cond buf target) 31 28 = 0 := by
    obtain ⟨hop, hc, hb, ht⟩ := h
    rw [bits, seqCond, Nat.shiftRight_eq_div_pow]
    omega
  have hmid : bits (seqCond op cond buf target) 127 126 = 0 := bits_eq_zero_of_lt _ (hlt.trans (by decide))
  have hhigh : bits (seqCond op cond buf target) 159 149 = 0 := bits_eq_zero_of_lt _ (hlt.trans (by decide))
  have htop : seqCond op cond buf target >>> 194 = 0 := by
    rw [Nat.shiftRight_eq_div_pow, Nat.div_eq_of_lt (hlt.trans (by decide))]
  have hop' : ¬11 < op := Nat.not_lt.2 h.op
  obtain ⟨hsop, -, hn, -, hcond, -⟩ := seqCond_fields h
  obtain ⟨haop, hmop, hcop, hiop⟩ := seqCond_others h
  simp [uIllegal, uWrites, noRepeats, hlow, hmid, hhigh, htop, hsop, hn, hcond, haop, hmop, hcop, hiop, hop']

end seqWord

/-! ### A word of the arithmetic slot -/

section aluWord
variable {op : Nat} (h : op ≤ 15) (o : AluOps)

theorem b2n_le_one (b : Bool) : b2n b ≤ 1 := by cases b <;> decide

theorem b2n_eq_one (b : Bool) : decide (b2n b = 1) = b := by cases b <;> rfl

include h

/-- The fields of the slot. -/
theorem aluWord_fields : uAop (aluWord op o) = op ∧ uDst (aluWord op o) = o.dst.val ∧ uSrcA (aluWord op o) = o.srca.val ∧
    uSrcB (aluWord op o) = o.srcb.val ∧ uImm (aluWord op o) = o.imm.toNat ∧ uBimm (aluWord op o) = o.bimm := by
  have hd := o.dst.isLt
  have ha := o.srca.isLt
  have hb := o.srcb.isLt
  have hi := o.imm.isLt
  have hm := b2n_le_one o.bimm
  have hbit : uBimm (aluWord op o) = decide (b2n o.bimm = 1) := by
    rw [uBimm, Nat.testBit_eq_decide_div_mod_eq, aluWord]
    congr 2
    omega
  refine ⟨?_, ?_, ?_, ?_, ?_, hbit.trans (b2n_eq_one _)⟩
  · rw [uAop, bits, aluWord, Nat.shiftRight_eq_div_pow]
    omega
  · rw [uDst, bits, aluWord, Nat.shiftRight_eq_div_pow]
    omega
  · rw [uSrcA, bits, aluWord, Nat.shiftRight_eq_div_pow]
    omega
  · rw [uSrcB, bits, aluWord, Nat.shiftRight_eq_div_pow]
    omega
  · rw [uImm, bits, aluWord, Nat.shiftRight_eq_div_pow]
    omega

theorem aluWord_lt : aluWord op o < 2 ^ 88 := by
  have hd := o.dst.isLt
  have ha := o.srca.isLt
  have hb := o.srcb.isLt
  have hi := o.imm.isLt
  have hm := b2n_le_one o.bimm
  rw [aluWord]
  omega

/-- Nothing stands in the other slots or in a reserved bit. -/
theorem bits_aluWord_above {hi lo : Nat} (hlo : 88 ≤ lo) : bits (aluWord op o) hi lo = 0 :=
  bits_eq_zero_of_lt _ ((aluWord_lt h o).trans_le (Nat.pow_le_pow_right (by decide) hlo))

omit h in
theorem bits_aluWord_below {hi lo : Nat} (hhi : hi < 32) (hlo : lo ≤ hi) : bits (aluWord op o) hi lo = 0 := by
  refine bits_eq_zero_of_dvd (by omega) (Dvd.dvd.trans (Nat.pow_dvd_pow 2 (show hi + 1 ≤ 32 by omega)) ?_)
  rw [aluWord]
  omega

theorem uIllegal_aluWord : uIllegal (aluWord op o) = false := by
  have hsop : uSop (aluWord op o) = 0 := bits_aluWord_below o (by decide) (by decide)
  have hlow : bits (aluWord op o) 31 28 = 0 := bits_aluWord_below o (by decide) (by decide)
  have hmid : bits (aluWord op o) 127 126 = 0 ∧ bits (aluWord op o) 159 149 = 0 :=
    ⟨bits_aluWord_above h o (by decide), bits_aluWord_above h o (by decide)⟩
  have htop : aluWord op o >>> 194 = 0 := by
    rw [Nat.shiftRight_eq_div_pow, Nat.div_eq_of_lt ((aluWord_lt h o).trans (by decide))]
  have hmop : uMop (aluWord op o) = 0 := bits_aluWord_above h o (by decide)
  have hcop : uCop (aluWord op o) = 0 := bits_aluWord_above h o (by decide)
  have hiop : uIop (aluWord op o) = 0 := bits_aluWord_above h o (by decide)
  obtain ⟨haop, -⟩ := aluWord_fields h o
  have hone : noRepeats (uWrites (aluWord op o)) = true := by
    rw [uWrites, hmop, hcop, hiop]
    cases hw : decide (1 ≤ uAop (aluWord op o)) && decide (uAop (aluWord op o) ≤ 14) <;> simp [noRepeats]
  simp [uIllegal, hone, hsop, hlow, hmid, htop, hmop, hcop, hiop, haop, Nat.not_lt.2 h]

end aluWord

end Sys2Proof.Machine
end

section
/-! SUPPORT. Microwords that pass or fail their checks (R235 to R239), the arithmetic slot (R235), and O38 settled. -/

namespace Sys2Proof.Machine

/-- Sign and zero of a result, and a carry. -/
def Thresher.flagged (x : Thresher) (v : Nat) (c : Bool) : Thresher := { x with z := decide (v % 2 ^ 32 = 0), n := v.testBit 31, c := c }

section flagged
variable (x : Thresher) (v : Nat) (c : Bool)
@[simp] theorem Thresher.flagged_z : (x.flagged v c).z = decide (v % 2 ^ 32 = 0) := rfl
@[simp] theorem Thresher.flagged_n : (x.flagged v c).n = v.testBit 31 := rfl
@[simp] theorem Thresher.flagged_c : (x.flagged v c).c = c := rfl
@[simp] theorem Thresher.flagged_g : (x.flagged v c).g = x.g := rfl
@[simp] theorem Thresher.flagged_wild : (x.flagged v c).wild = x.wild := rfl
end flagged

namespace State

/-! ### The checks of a word (R235, R236, R238, R239, R265) -/

section checks
variable {s : State} {i w : Nat}

theorem uCheck_of_illegal (h : uIllegal w = true) : s.uCheck i w = some 2 := if_pos h

/-- A legal word that posts nothing. -/
theorem uCheck_of_legal (hl : uIllegal w = false) (hp : uPost w = false) : s.uCheck i w =
    if s.thState i = 3 ∧ uPre w = true then some 3
    else if s.thState i = 3 ∧ 256 ≤ (s.thr i).after then some 4
    else if (uSop w = 4 ∧ 4 ≤ (s.thr i).stack.length) ∨ (uSop w = 5 ∧ (s.thr i).stack = []) then some 7
    else if uSop w = 11 then some 9 else none := by
  obtain ⟨⟨hm, h6⟩, -⟩ : (¬uMop w = 2 ∧ ¬uIop w = 6) ∧ ¬uIop w = 7 := by simpa [uPost] using hp
  simp [State.uCheck, hl, hp, hm, h6, b2n]

/-- A routine under way has not used up its words. -/
theorem not_spent_of_inRoutine (h : s.inRoutine i = true) : ¬(s.thState i = 3 ∧ 256 ≤ (s.thr i).after) := by
  rintro ⟨h3, ha⟩
  simp [State.inRoutine, h3, Nat.not_lt.2 ha] at h

theorem ioSlot_none (h : uIop w = 0) (old q : State) (j : Nat) : old.ioSlot q j w = q := by simp only [State.ioSlot, h]

theorem runWord_of_fault {c : Nat} (h : s.uCheck i w = some c) : s.runWord i w = s.thFault i c := by
  unfold State.runWord
  rw [h]

/-- A word that waits for something other than ring space does nothing. -/
theorem runWord_of_waits (hc : s.uCheck i w = none) (hw : s.uWaits i w = true) (h4 : uIop w ≠ 4) : s.runWord i w = s := by
  have h4' : ¬((decide (uIop w = 4) && decide (s.ringFree i < uIimm w % 8)) = true) := by simp [h4]
  unfold State.runWord
  rw [hc]
  dsimp only
  rw [hw, if_pos rfl, if_neg h4']

end checks

/-! ### A word of the sequence slot runs -/

section seqWord
variable {s : State} {i op cond buf target : Nat} (h : SeqFits op cond buf target)
include h

/-- COMMIT, COMMITK, FENCE and WAITL belong before the commit. -/
theorem uPre_seqCond : uPre (seqCond op cond buf target) = decide (op ∈ [6, 7, 9, 10]) := by
  obtain ⟨hsop, -⟩ := seqCond_fields h
  obtain ⟨-, hmop, hcop, hiop⟩ := seqCond_others h
  simp [uPre, hsop, hmop, hcop, hiop, Bool.or_assoc]

/-- What is left to check of a legal word. -/
theorem uCheck_seqCond (hl : uIllegal (seqCond op cond buf target) = false) : s.uCheck i (seqCond op cond buf target) =
    if s.thState i = 3 ∧ op ∈ [6, 7, 9, 10] then some 3
    else if s.thState i = 3 ∧ 256 ≤ (s.thr i).after then some 4
    else if (op = 4 ∧ 4 ≤ (s.thr i).stack.length) ∨ (op = 5 ∧ (s.thr i).stack = []) then some 7
    else if op = 11 then some 9 else none := by
  obtain ⟨hsop, -⟩ := seqCond_fields h
  obtain ⟨-, hmop, -, hiop⟩ := seqCond_others h
  rw [uCheck_of_legal hl (by simp [uPost, hmop, hiop]), uPre_seqCond h, hsop]
  simp only [decide_eq_true_eq]

theorem uWaits_seqCond : s.uWaits i (seqCond op cond buf target) =
    (((decide (op = 6) || decide (op = 7)) && !s.postRoom i (target % 32)) ||
      (decide (op = 9) && (s.thReads i + (s.thr i).posted.length != 0)) || (decide (op = 10) && (s.lineBuf i (target % 16)).line.isSome)) := by
  obtain ⟨hsop, -, hn, hwait, -⟩ := seqCond_fields h
  obtain ⟨-, hmop, hcop, hiop⟩ := seqCond_others h
  simp [State.uWaits, hsop, hn, hwait, hmop, hcop, hiop]

/-- It is its slot alone. -/
theorem runOp_seqCond (hr : s.inRoutine i = true) (hc : s.uCheck i (seqCond op cond buf target) = none)
    (hw : s.uWaits i (seqCond op cond buf target) = false) :
    s.runOp i (seqCond op cond buf target) = s.seqSlot (s.counted i) i (seqCond op cond buf target) := by
  obtain ⟨haop, hmop, hcop, hiop⟩ := seqCond_others h
  rw [runOp_of_inRoutine _ hr, runWord_of_checked hc hw (by simp [hcop]) (by simp [hiop]), aluSlot_none haop, memSlot_none hmop,
    ctxSlot_none hcop, ioSlot_none hiop]

/-- The operations that run in both parts of a routine and wait for nothing. -/
theorem runOp_seqCond_any (hr : s.inRoutine i = true) (hl : uIllegal (seqCond op cond buf target) = false) (hany : op ∉ [4, 5, 6, 7, 9, 10, 11]) :
    s.runOp i (seqCond op cond buf target) = s.seqSlot (s.counted i) i (seqCond op cond buf target) := by
  obtain ⟨h4, h5, h6, h7, h9, h10, h11⟩ : op ≠ 4 ∧ op ≠ 5 ∧ op ≠ 6 ∧ op ≠ 7 ∧ op ≠ 9 ∧ op ≠ 10 ∧ op ≠ 11 := by simpa using hany
  refine runOp_seqCond h hr ?_ ?_
  · rw [uCheck_seqCond h hl, if_neg (by simp [h6, h7, h9, h10]), if_neg (not_spent_of_inRoutine hr), if_neg (by simp [h4, h5]), if_neg h11]
  · simp [uWaits_seqCond h, h6, h7, h9, h10]

end seqWord

/-- NEXT goes on to the next word. -/
theorem runOp_next {s : State} {i : Nat} (hr : s.inRoutine i = true) : s.runOp i (seqWord 0) = (s.counted i).uGoTo i ((s.thr i).upc + 1) := by
  have hfits : SeqFits 0 0 0 0 := ⟨by decide, by decide, by decide, by decide⟩
  obtain ⟨hsop, -, -, -, hcond, -⟩ := seqCond_fields hfits
  rw [seqWord_eq, runOp_seqCond_any hfits hr ((uIllegal_seqCond hfits).trans (by decide)) (by decide), seqSlot_none hsop hcond]

/-! ### What a thresher holds beside its g registers -/

theorem gReg_of_thr {s u : State} {i : Nat} (hg : (u.thr i).g = (s.thr i).g) (hw : (u.thr i).wild = (s.thr i).wild) (k : Nat) : u.gReg i k = s.gReg i k := by
  rw [State.gReg, hg, hw, State.gReg]

theorem gReg_counted (s : State) (i k : Nat) : (s.counted i).gReg i k = s.gReg i k := by
  obtain ⟨n, hn⟩ := thr_counted s i
  exact gReg_of_thr (by rw [hn]) (by rw [hn]) k

theorem thr_setG (s : State) (i k v : Nat) :
    (s.setG i k v).thr i = { s.thr i with g := if k = 0 then (s.thr i).g else storeSet (wildG (s.thr i).wild) (s.thr i).g k (v % 2 ^ 32) } := by
  unfold State.setG
  split
  · rfl
  · exact thr_modThr_same ..

/-- A register reads as written; g0 reads 0, and the others are kept. -/
theorem gReg_setG (s : State) (i k v j : Nat) : (s.setG i k v).gReg i j = if j = k ∧ k ≠ 0 then v % 2 ^ 32 else s.gReg i j := by
  rw [State.gReg, thr_setG]
  by_cases hk : k = 0
  · simp [hk, State.gReg]
  · by_cases hj : j = 0
    · simp [hj, Ne.symm hk, State.gReg]
    · simp [hk, hj, State.gReg, storeGet_storeSet]

/-! ### A word of the arithmetic slot runs -/

section aluWord
variable (s : State) (i : Nat) (o : AluOps)

/-- Its operands. -/
def aluA : Nat := s.gReg i o.srca.val
def aluB : Nat := if o.bimm then o.imm.toNat else s.gReg i o.srcb.val

/-- What it computes. -/
def aluValue (op : Nat) : Nat := ((s.counted i).aluResult op (s.aluA i o) (s.aluB i o) (s.gReg i o.dst.val)).2

theorem threshers_aluResult (q : State) (op a b d : Nat) : (q.aluResult op a b d).1.threshers = q.threshers := by
  unfold State.aluResult State.smaller
  dsimp only
  split <;> (try split) <;> rfl

variable {s i} {op : Nat} (h : op ≤ 15)
include h

theorem runOp_aluWord (hr : s.inRoutine i = true) :
    s.runOp i (aluWord op o) = (s.aluSlot (s.counted i) i (aluWord op o)).uGoTo i ((s.thr i).upc + 1) := by
  have hsop : uSop (aluWord op o) = 0 := bits_aluWord_below o (by decide) (by decide)
  have hcond : uCond (aluWord op o) = 0 := bits_aluWord_below o (by decide) (by decide)
  have hmop : uMop (aluWord op o) = 0 := bits_aluWord_above h o (by decide)
  have hcop : uCop (aluWord op o) = 0 := bits_aluWord_above h o (by decide)
  have hiop : uIop (aluWord op o) = 0 := bits_aluWord_above h o (by decide)
  have hpre : uPre (aluWord op o) = false := by simp [uPre, hsop, hmop, hcop, hiop]
  have hpost : uPost (aluWord op o) = false := by simp [uPost, hmop, hiop]
  have hcheck : s.uCheck i (aluWord op o) = none := by
    rw [uCheck_of_legal (uIllegal_aluWord h o) hpost, if_neg (by simp [hpre]), if_neg (not_spent_of_inRoutine hr), if_neg (by simp [hsop]),
      if_neg (by simp [hsop])]
  have hgoes : s.uWaits i (aluWord op o) = false := by simp [State.uWaits, hsop, hmop, hcop, hiop]
  rw [runOp_of_inRoutine _ hr, runWord_of_checked hcheck hgoes (by simp [hcop]) (by simp [hiop]), memSlot_none hmop, ctxSlot_none hcop,
    ioSlot_none hiop, seqSlot_none hsop hcond]

/-- CMP writes no register. -/
def aluWritten (op : Nat) (o : AluOps) (q : State) (i v : Nat) : State := if op = 15 then q else q.setG i o.dst.val v

omit h in
theorem thr_aluWritten {p q : State} (hq : p.threshers = q.threshers) (v : Nat) :
    (aluWritten op o p i v).thr i = (aluWritten op o q i v).thr i := by
  have hthr : p.thr i = q.thr i := by rw [State.thr, hq, State.thr]
  unfold aluWritten
  split
  · exact hthr
  · rw [thr_setG, thr_setG, hthr]

omit h in
/-- What MOV leaves: the register alone is written. -/
theorem thr_aluSlot_mov : (s.aluSlot (s.counted i) i (aluWord 1 o)).thr i = ((s.counted i).setG i o.dst.val (s.aluValue i o 1)).thr i := by
  obtain ⟨haop, hdst, hsrca, hsrcb, himm, hbimm⟩ := aluWord_fields (show 1 ≤ 15 by decide) o
  unfold State.aluSlot
  dsimp only
  rw [haop, hdst, hsrca, hsrcb, himm, hbimm]
  rfl

/-- What the others leave: sign and zero of the result, and a carry that is free but for ADD. -/
theorem thr_aluSlot (h2 : 2 ≤ op) : ∃ c, (op = 2 → c = decide (2 ^ 32 ≤ s.aluA i o + s.aluB i o)) ∧
    (s.aluSlot (s.counted i) i (aluWord op o)).thr i =
      ((aluWritten op o (s.counted i) i (s.aluValue i o op)).thr i).flagged (s.aluValue i o op) c := by
  obtain ⟨haop, hdst, hsrca, hsrcb, himm, hbimm⟩ := aluWord_fields h o
  have hres := thr_aluWritten (op := op) (i := i) o
    (threshers_aluResult (s.counted i) op (s.aluA i o) (s.aluB i o) (s.gReg i o.dst.val)) (s.aluValue i o op)
  unfold State.aluSlot
  dsimp only
  rw [haop, hdst, hsrca, hsrcb, himm, hbimm, if_neg (by omega), if_neg (by omega)]
  by_cases hadd : op = 2
  · rw [if_pos hadd]
    exact ⟨_, fun _ => rfl, (thr_modThr_same ..).trans (congrArg (Thresher.flagged · _ _) hres)⟩
  · rw [if_neg hadd]
    exact ⟨_, fun e => absurd e hadd, (thr_modThr_same ..).trans (congrArg (Thresher.flagged · _ _) hres)⟩

/-- An operation but MOV and CMP writes its register and the flags. -/
structure AluWrites (s u : State) (i : Nat) (o : AluOps) (r : Nat) : Prop where
  dst : u.gReg i o.dst.val = if o.dst = 0 then 0 else r % 2 ^ 32
  others : ∀ k, k ≠ o.dst.val → u.gReg i k = s.gReg i k
  zero : (u.thr i).z = decide (r % 2 ^ 32 = 0)
  sign : (u.thr i).n = r.testBit 31
  next : (u.thr i).upc = ((s.thr i).upc + 1) % 16384

omit h in
/-- What registers read once one of them is written. -/
theorem gReg_written {u : State} {r : Nat} (hg : (u.thr i).g = (((s.counted i).setG i o.dst.val r).thr i).g)
    (hw : (u.thr i).wild = (((s.counted i).setG i o.dst.val r).thr i).wild) :
    u.gReg i o.dst.val = (if o.dst = 0 then 0 else r % 2 ^ 32) ∧ ∀ k, k ≠ o.dst.val → u.gReg i k = s.gReg i k := by
  refine ⟨?_, fun k hk => ?_⟩
  · rw [gReg_of_thr hg hw, gReg_setG]
    by_cases h0 : o.dst = 0
    · simp [h0, State.gReg]
    · have h0' : o.dst.val ≠ 0 := fun e => h0 (Fin.ext e)
      simp [h0, h0']
  · rw [gReg_of_thr hg hw, gReg_setG, if_neg fun e => hk e.1, gReg_counted]

theorem runOp_aluWord_writes (hr : s.inRoutine i = true) (h2 : 2 ≤ op) (h15 : op ≠ 15) :
    AluWrites s (s.runOp i (aluWord op o)) i o (s.aluValue i o op) ∧
      (op = 2 → ((s.runOp i (aluWord op o)).thr i).c = decide (2 ^ 32 ≤ s.aluA i o + s.aluB i o)) := by
  obtain ⟨c, hc, hslot⟩ := thr_aluSlot o h h2
  rw [aluWritten, if_neg h15] at hslot
  have hthr := thr_uGoTo (s.aluSlot (s.counted i) i (aluWord op o)) i ((s.thr i).upc + 1)
  rw [← runOp_aluWord o h hr, hslot] at hthr
  obtain ⟨hdst, hothers⟩ := gReg_written (s := s) (r := s.aluValue i o op) o (by rw [hthr, Thresher.flagged_g])
    (by rw [hthr, Thresher.flagged_wild])
  exact ⟨⟨hdst, hothers, by rw [hthr, Thresher.flagged_z], by rw [hthr, Thresher.flagged_n], by rw [hthr]⟩,
    fun e => by rw [hthr, ← hc e, Thresher.flagged_c]⟩

omit h in
/-- MOV writes its register alone. -/
theorem runOp_aluWord_mov (hr : s.inRoutine i = true) : let u := s.runOp i (aluWord 1 o)
    u.gReg i o.dst.val = (if o.dst = 0 then 0 else s.aluValue i o 1 % 2 ^ 32) ∧ (∀ k, k ≠ o.dst.val → u.gReg i k = s.gReg i k) ∧
      (u.thr i).z = (s.thr i).z ∧ (u.thr i).n = (s.thr i).n ∧ (u.thr i).c = (s.thr i).c := by
  obtain ⟨a, ha⟩ := thr_counted s i
  have hthr := thr_uGoTo (s.aluSlot (s.counted i) i (aluWord 1 o)) i ((s.thr i).upc + 1)
  rw [← runOp_aluWord o (by decide) hr, thr_aluSlot_mov] at hthr
  obtain ⟨hdst, hothers⟩ := gReg_written (s := s) (r := s.aluValue i o 1) o (by rw [hthr]) (by rw [hthr])
  refine ⟨hdst, hothers, ?_, ?_, ?_⟩ <;> rw [hthr, thr_setG, ha]

omit h in
/-- CMP sets the flags alone. -/
theorem runOp_aluWord_cmp (hr : s.inRoutine i = true) : let u := s.runOp i (aluWord 15 o)
    (∀ k, u.gReg i k = s.gReg i k) ∧ (u.thr i).z = decide (s.aluValue i o 15 % 2 ^ 32 = 0) ∧ (u.thr i).n = (s.aluValue i o 15).testBit 31 := by
  obtain ⟨c, -, hslot⟩ := thr_aluSlot (s := s) (i := i) o (show 15 ≤ 15 by decide) (by decide)
  obtain ⟨a, ha⟩ := thr_counted s i
  rw [aluWritten, if_pos rfl, ha] at hslot
  have hthr := thr_uGoTo (s.aluSlot (s.counted i) i (aluWord 15 o)) i ((s.thr i).upc + 1)
  rw [← runOp_aluWord o (by decide) hr, hslot] at hthr
  exact ⟨gReg_of_thr (by rw [hthr, Thresher.flagged_g]) (by rw [hthr, Thresher.flagged_wild]), by rw [hthr, Thresher.flagged_z],
    by rw [hthr, Thresher.flagged_n]⟩

end aluWord

/-! ### Values (R235) -/

section values
variable (s : State) (i : Nat) (o : AluOps)

theorem aluValue_mov : s.aluValue i o 1 = if Config.unaryOperand 1 then s.aluB i o else s.aluA i o := by simp only [aluValue, State.aluResult]
theorem aluValue_add : s.aluValue i o 2 = (s.aluA i o + s.aluB i o) % 2 ^ 32 := by simp only [aluValue, State.aluResult]
theorem aluValue_sub : s.aluValue i o 3 = (s.aluA i o + 2 ^ 32 - s.aluB i o) % 2 ^ 32 := by simp only [aluValue, State.aluResult]
theorem aluValue_and : s.aluValue i o 4 = s.aluA i o &&& s.aluB i o := by simp only [aluValue, State.aluResult]
theorem aluValue_or : s.aluValue i o 5 = s.aluA i o ||| s.aluB i o := by simp only [aluValue, State.aluResult]
theorem aluValue_xor : s.aluValue i o 6 = s.aluA i o ^^^ s.aluB i o := by simp only [aluValue, State.aluResult]
theorem aluValue_popc : s.aluValue i o 11 = popCount 32 (if Config.unaryOperand 11 then s.aluB i o else s.aluA i o) := by
  simp only [aluValue, State.aluResult]
theorem aluValue_ctz : s.aluValue i o 12 = lowestBit 32 (if Config.unaryOperand 12 then s.aluB i o else s.aluA i o) := by
  simp only [aluValue, State.aluResult]
theorem aluValue_cmp : s.aluValue i o 15 = (s.aluA i o + 2 ^ 32 - s.aluB i o) % 2 ^ 32 := by simp only [aluValue, State.aluResult]

theorem aluValue_shl (h : s.aluB i o < 32) : s.aluValue i o 7 = s.aluA i o <<< s.aluB i o % 2 ^ 32 :=
  congrArg Prod.snd (if_pos h)

theorem aluValue_shr (h : s.aluB i o < 32) : s.aluValue i o 8 = s.aluA i o >>> s.aluB i o :=
  congrArg Prod.snd (if_pos h)

section field
variable (h1 : 1 ≤ bits (s.aluB i o) 10 5) (h32 : s.aluB i o % 32 + bits (s.aluB i o) 10 5 ≤ 32)
include h1 h32

/-- EXT takes the bits of the field. -/
theorem aluValue_ext : s.aluValue i o 9 = bits (s.aluA i o) (s.aluB i o % 32 + bits (s.aluB i o) 10 5 - 1) (s.aluB i o % 32) := by
  have hfield : (decide (1 ≤ bits (s.aluB i o) 10 5) && decide (s.aluB i o % 32 + bits (s.aluB i o) 10 5 ≤ 32)) = true := by simp [h1, h32]
  have hwidth : s.aluB i o % 32 + bits (s.aluB i o) 10 5 - 1 + 1 - s.aluB i o % 32 = bits (s.aluB i o) 10 5 := by omega
  rw [bits.eq_def (s.aluA i o), hwidth]
  exact congrArg Prod.snd (if_pos hfield)

theorem aluValue_ins : s.aluValue i o 10 =
    insert32 (s.gReg i o.dst.val) (s.aluB i o % 32 + bits (s.aluB i o) 10 5 - 1) (s.aluB i o % 32) (s.aluA i o) := by
  have hfield : (decide (1 ≤ bits (s.aluB i o) 10 5) && decide (s.aluB i o % 32 + bits (s.aluB i o) 10 5 ≤ 32)) = true := by simp [h1, h32]
  exact congrArg Prod.snd (if_pos hfield)

end field

section order
variable (h : (s.aluA i o).testBit 31 = (s.aluB i o).testBit 31)
include h

theorem smaller_of_signs (q : State) : q.smaller (s.aluA i o) (s.aluB i o) = (q, min (s.aluA i o) (s.aluB i o)) := if_pos h

theorem aluValue_min : s.aluValue i o 13 = min (s.aluA i o) (s.aluB i o) := congrArg Prod.snd (smaller_of_signs s i o h _)

/-- The larger operand is the one that is not the smaller. -/
theorem aluValue_max : s.aluValue i o 14 = max (s.aluA i o) (s.aluB i o) := by
  have hvalue : s.aluValue i o 14 = if ((s.counted i).smaller (s.aluA i o) (s.aluB i o)).2 = s.aluA i o then s.aluB i o else s.aluA i o := rfl
  rw [hvalue, smaller_of_signs s i o h]
  dsimp only
  split <;> omega

end order

end values

end State

open State

/-- Settles O38: each word by its slot, as all the others are empty. -/
theorem arithmeticMicroOpsCompute : Obligations.ArithmeticMicroOpsCompute := by
  intro i o s hr held a b one writes completes
  have run {op : Nat} (h2 : 2 ≤ op) (h14 : op ≤ 14) := runOp_aluWord_writes (s := s) o (show op ≤ 15 by omega) hr h2 (by omega)
  have wrote {op r : Nat} {c : Instr} (h2 : 2 ≤ op) (h14 : op ≤ 14) (hc : exec c s = .next (s.runOp i.val (aluWord op o)))
      (hv : s.aluValue i.val o op = r) : writes c r := by
    obtain ⟨⟨hdst, hothers, hzero, hsign, hnext⟩, -⟩ := hv ▸ run h2 h14
    exact ⟨_, hc, hdst, hothers, hzero, hsign, hnext⟩
  have done {op : Nat} {c : Instr} (h2 : 2 ≤ op) (h14 : op ≤ 14) (hc : exec c s = .next (s.runOp i.val (aluWord op o))) : completes c := by
    obtain ⟨⟨-, hothers, -, -, hnext⟩, -⟩ := run h2 h14
    exact ⟨_, hc, hothers, hnext⟩
  have hmov := runOp_aluWord_mov o hr
  have hcmp := runOp_aluWord_cmp o hr
  rw [aluValue_mov] at hmov
  rw [aluValue_cmp, Nat.mod_mod] at hcmp
  refine ⟨?_, ⟨_, rfl, hmov⟩, wrote (by decide) (by decide) rfl (aluValue_add ..),
    ⟨_, rfl, (run (op := 2) (by decide) (by decide)).2 rfl⟩, wrote (by decide) (by decide) rfl (aluValue_sub ..),
    wrote (by decide) (by decide) rfl (aluValue_and ..), wrote (by decide) (by decide) rfl (aluValue_or ..),
    wrote (by decide) (by decide) rfl (aluValue_xor ..),
    fun hb => ⟨wrote (by decide) (by decide) rfl (aluValue_shl s _ o hb), wrote (by decide) (by decide) rfl (aluValue_shr s _ o hb)⟩,
    fun h1 h32 => ⟨wrote (by decide) (by decide) rfl (aluValue_ext s _ o h1 h32), wrote (by decide) (by decide) rfl (aluValue_ins s _ o h1 h32)⟩,
    wrote (by decide) (by decide) rfl (aluValue_popc ..), wrote (by decide) (by decide) rfl (aluValue_ctz ..),
    fun hs => ⟨wrote (by decide) (by decide) rfl (aluValue_min s _ o hs), wrote (by decide) (by decide) rfl (aluValue_max s _ o hs)⟩,
    ⟨_, rfl, hcmp⟩, done (op := 7) (by decide) (by decide) rfl, done (op := 8) (by decide) (by decide) rfl,
    done (op := 9) (by decide) (by decide) rfl, done (op := 10) (by decide) (by decide) rfl, done (op := 13) (by decide) (by decide) rfl,
    done (op := 14) (by decide) (by decide) rfl⟩
  obtain ⟨n, hn⟩ := thr_counted s i.val
  refine ⟨_, congrArg Host.Outcome.next (runOp_next hr), ?_, ?_⟩ <;> rw [thr_uGoTo, hn]

end Sys2Proof.Machine
end

section
/-! SUPPORT. O39 refuted: the reset a fault takes may be that of a tiller that no sheaf has (R250, R265). -/

namespace Sys2Proof.Machine

/-- Thresher 0 runs a routine and holds the reset of tiller 441888, a move of which waits for nothing more. Context 0 has another key. -/
def strayHeld : State :=
  { State.reset with
    regs := [(TH_STAT 0, 2)]
    mem := [(ctxBase 0, 1), (ctxBase 0 + 3, 1)]
    threshers := [(0, { Thresher.reset with fifo := [⟨0, 0, false, true⟩], heldTillers := [441888] })]
    routes := [(441888, ⟨0, false, [(0, 1)]⟩)] }

/-- The key does not match: the thresher faults with cause 5, and takes the held reset. The end of the move is source 884805, whose pending
bit is bit 5 of the word in which the cause stands. -/
theorem cause_strayHeld : (strayHeld.runOp 0 (ctxWord 1 ⟨0, 0, 0⟩)).get (TH_FAULT_CAUSE 0) = 37 := by decide +kernel

/-- Refutes O39: the cause that an LDCTX of another key leaves is 37 and not 5 where the thresher holds the reset of a tiller beyond the
chip's. -/
theorem not_memoryAndContextMicroOpsAct : ¬ Obligations.MemoryAndContextMicroOpsAct := by
  intro h
  obtain ⟨-, -, -, -, -, hload, -⟩ := h 0 ⟨0, 0, 0, 0⟩ ⟨0, 0, 0⟩ strayHeld
  have hstate : strayHeld.thState 0 = 2 := by decide +kernel
  have hvalid : let m := (strayHeld.releaseLock 0).loadLE (State.ctxAddr 0 0) 64
      ((bytesOf m 3 2).testBit 0 && !(bytesOf m 3 2).testBit 1) = true ∧ bytesOf m 0 3 ≠ 0 := by decide +kernel
  obtain ⟨-, -, hmismatch⟩ := hload hstate (by decide +kernel) rfl rfl (by decide +kernel)
  obtain ⟨u, hu, -, hcause⟩ := hmismatch hvalid.1 hvalid.2
  obtain rfl := Host.Outcome.next.inj hu
  exact absurd (cause_strayHeld.symm.trans hcause) (by decide)

end Sys2Proof.Machine
end

section
/-! SUPPORT. What signals, resets and faults of a thresher leave (R238, R240, R250, R265). -/

namespace Sys2Proof.Machine

/-! ### Operations that only signal (R365, R413, R417, R421) -/

/-- Registers, messages to the host and error lines alone change, and no line drops. -/
structure Signals (s u : State) : Prop where
  beside : ∃ r o l, u = { s with regs := r, hostOut := o, lines := l }
  lines : s.lines ⊆ u.lines

namespace Signals

variable {a s : State}

theorem refl (s : State) : Signals s s := ⟨⟨s.regs, s.hostOut, s.lines, rfl⟩, fun _ h => h⟩

theorem trans {u : State} (h : Signals a s) (k : Signals s u) : Signals a u := by
  obtain ⟨⟨r, o, l, e⟩, hl⟩ := h
  obtain ⟨⟨r', o', l', e'⟩, hl'⟩ := k
  exact ⟨⟨r', o', l', by rw [e', e]⟩, fun b hb => hl' (hl hb)⟩

theorem setReg (h : Signals a s) {b : Nat} {v : Word} : Signals a (s.setReg b v) := h.trans ⟨⟨_, s.hostOut, s.lines, rfl⟩, fun _ h => h⟩

theorem put (h : Signals a s) {f : Field} {v : Nat} : Signals a (s.put f v) := h.setReg
theorem mark (h : Signals a s) {f : Field} : Signals a (s.mark f) := h.setReg
theorem bump (h : Signals a s) {f : Field} : Signals a (s.bump f) := h.setReg

theorem source (h : Signals a s) {n : Nat} : Signals a (s.source n) := by
  obtain ⟨r, o, e⟩ := s.source_beside n
  exact h.trans ⟨⟨r, o, s.lines, e⟩, by rw [e]; exact fun _ h => h⟩

theorem raiseLine (h : Signals a s) {b : Nat} : Signals a (s.raiseLine b) := by
  refine h.trans ?_
  unfold State.raiseLine
  split
  · exact refl s
  · exact ⟨⟨s.regs, s.hostOut, _, rfl⟩, List.subset_append_left _ _⟩

theorem ite {c : Prop} [Decidable c] {x y : State} (hx : Signals a x) (hy : Signals a y) : Signals a (if c then x else y) := by
  split <;> assumption

theorem ite_fst {β : Type} {c : Prop} [Decidable c] {x y : State × β} (hx : Signals a x.1) (hy : Signals a y.1) : Signals a (if c then x else y).1 := by
  split <;> assumption

theorem ifTrue (h : Signals a s) {c : Prop} [Decidable c] {x : State} (k : Signals s x) : Signals a (if c then x else s) := ite (h.trans k) h

theorem inject (h : Signals a s) {c : Checker} {unit : Nat} : Signals a (s.inject c unit).1 :=
  ite_fst h (ite_fst h.bump (((h.bump.put (f := FC_INJ_STAT_ARMED)).mark (f := FC_INJ_STAT_DONE)).source))

variable {u : State} (h : Signals s u)
include h

theorem threshers : u.threshers = s.threshers := by obtain ⟨⟨r, o, l, e⟩, -⟩ := h; rw [e]
theorem thr (i : Nat) : u.thr i = s.thr i := by rw [State.thr, h.threshers, State.thr]

end Signals

namespace State

/-! ### What a release leaves of a thresher (R238, R240, R265) -/

section release
variable (s : State) (i : Nat)

theorem thr_waitedRing : (s.waitedRing i).thr i = { s.thr i with waitFrom := none } := by
  unfold State.waitedRing
  split
  · exact thr_modThr_same ..
  · next h => rw [← h]

theorem thr_releaseLock : (s.releaseLock i).thr i = { s.thr i with lock := none, staleRel := false } := by
  unfold State.releaseLock
  dsimp only
  split
  · split <;> exact thr_setThr_same ..
  · exact thr_setThr_same ..

theorem thr_releaseWork : (s.releaseWork i).thr i =
    { s.thr i with waitFrom := none, lock := none, staleRel := false, reserved := 0, allowed := 0, after := 0, stack := [], curw := none, hard := false } := by
  rw [State.releaseWork, thr_modThr_same, thr_releaseLock, thr_waitedRing]

theorem lines_modThr (f : Thresher → Thresher) : (s.modThr i f).lines = s.lines := rfl

theorem lines_scramble : (s.scramble i).lines = s.lines := rfl

/-- What is scrambled is working state alone. -/
theorem thr_scramble_kept : ((s.scramble i).thr i).lock = (s.thr i).lock ∧ ((s.scramble i).thr i).reserved = (s.thr i).reserved ∧
    ((s.scramble i).thr i).heldTillers = (s.thr i).heldTillers ∧ ((s.scramble i).thr i).fifo = (s.thr i).fifo := by
  obtain ⟨x, hx, e⟩ : ∃ x : Thresher, (s.scramble i).thr i = x ∧ x.lock = (s.thr i).lock ∧ x.reserved = (s.thr i).reserved ∧
      x.heldTillers = (s.thr i).heldTillers ∧ x.fifo = (s.thr i).fifo := ⟨_, thr_setThr_same s i _, rfl, rfl, rfl, rfl⟩
  rw [hx]
  exact e

theorem thr_discardWork_kept : ((s.discardWork i).thr i).lock = none ∧ ((s.discardWork i).thr i).reserved = 0 ∧
    ((s.discardWork i).thr i).fifo = (s.thr i).fifo := by
  obtain ⟨hlock, hreserved, -, hfifo⟩ := thr_scramble_kept ((s.releaseWork i).modThr i (fun x =>
    { x with bufs := x.bufs.map (fun b => if b.2.line.isSome then (b.1, { b.2 with orphan := true }) else b) })) i
  rw [thr_modThr_same, thr_releaseWork] at hlock hreserved hfifo
  exact ⟨hlock, hreserved, hfifo⟩

end release

/-- Nothing is locked, reserved or held. -/
def Released (s : State) (i : Nat) : Prop := (s.thr i).lock = none ∧ (s.thr i).reserved = 0 ∧ (s.thr i).heldTillers = []

/-! ### Faults (R265) -/

/-- FAULTED, with its cause and index; nothing is held. -/
def faultShown (q : State) (i c upc : Nat) : State :=
  (((q.enterTh i 4).put (TH_FAULT_CAUSE i) c).put (TH_FAULT_UPC i) upc).modThr i (fun x => { x with heldStop := false, heldTillers := [] })

section shown
variable (q : State) (i c upc : Nat)

theorem thr_faultShown : (q.faultShown i c upc).thr i = { q.thr i with heldStop := false, heldTillers := [] } := thr_modThr_same ..

theorem lines_faultShown : (q.faultShown i c upc).lines = q.lines := rfl

theorem reg_modThr (f : Thresher → Thresher) : (q.modThr i f).reg = q.reg := rfl

theorem thState_faultShown : (q.faultShown i c upc).thState i = 4 := by
  have hother : (TH_STAT_STATE i).addr ≠ TH_FAULT i := by
    unfold TH_STAT_STATE TH_STAT TH_FAULT
    dsimp only
    omega
  refine (get_eq_of_reg (f := TH_STAT_STATE i) ?_).trans (thState_enterTh q i 4 (by decide))
  rw [faultShown, reg_modThr, reg_put_other _ _ _ hother, reg_put_other _ _ _ hother]

/-- The cause shows. -/
theorem cause_faultShown (hc : c < 256) : (q.faultShown i c upc).get (TH_FAULT_CAUSE i) = c := by
  have hshown : (q.faultShown i c upc).get (TH_FAULT_CAUSE i) =
      (((q.enterTh i 4).put (TH_FAULT_CAUSE i) c).put (TH_FAULT_UPC i) upc).get (TH_FAULT_CAUSE i) := by
    refine get_eq_of_reg ?_
    rw [faultShown, reg_modThr]
  have hupc : (((q.enterTh i 4).put (TH_FAULT_CAUSE i) c).put (TH_FAULT_UPC i) upc).get (TH_FAULT_CAUSE i) =
      ((q.enterTh i 4).put (TH_FAULT_CAUSE i) c).get (TH_FAULT_CAUSE i) := get_put_apart _ _ rfl rfl rfl
  rw [hshown, hupc, get_put_of_fits _ _ rfl]
  exact Nat.mod_eq_of_lt hc

end shown

section fault
variable (s : State) (i c : Nat)

/-- A fault discards the work, shows in the registers and signals. -/
theorem faultAlone_eq : s.faultAlone i c =
    (((s.discardWork i).faultShown i c (s.thr i).upc).source (1024 + 8 * (i / 2) + i % 2)).raiseLine (128 + i) := rfl

theorem faultAlone_signals : Signals ((s.discardWork i).faultShown i c (s.thr i).upc) (s.faultAlone i c) :=
  faultAlone_eq s i c ▸ (Signals.refl _).source.raiseLine

theorem lines_discardWork : (s.discardWork i).lines = s.lines := by
  have hring : (s.waitedRing i).lines = s.lines := by
    unfold State.waitedRing
    split <;> rfl
  have hrelease (q : State) : (q.releaseLock i).lines = q.lines := by
    unfold State.releaseLock
    dsimp only
    split
    · split <;> rfl
    · rfl
  rw [State.discardWork, lines_scramble, lines_modThr, State.releaseWork, lines_modThr, hrelease, hring]

theorem released_faultAlone : (s.faultAlone i c).Released i := by
  obtain ⟨hlock, hreserved, -⟩ := thr_discardWork_kept s i
  rw [Released, (faultAlone_signals s i c).thr, thr_faultShown]
  exact ⟨hlock, hreserved, rfl⟩

theorem lines_faultAlone : s.lines ⊆ (s.faultAlone i c).lines := by
  have hlines := (faultAlone_signals s i c).lines
  rwa [lines_faultShown, lines_discardWork] at hlines

theorem line_faultAlone : 128 + i ∈ (s.faultAlone i c).lines := by
  rw [faultAlone_eq]
  exact mem_lines_raiseLine _ _

variable {i} (hi : i < 32)
include hi

/-- Its signals are kept elsewhere. -/
theorem reg_faultAlone {b : Nat} (hb : 0x20000 ≤ b) (hx : b < 0x70000) :
    (s.faultAlone i c).reg b = ((s.discardWork i).faultShown i c (s.thr i).upc).reg b := by
  rw [faultAlone_eq, reg_raiseLine]
  exact reg_source _ _ (by unfold EV_PEND; omega) (by unfold msixPending; omega) (by unfold msixPending; omega)

theorem thState_faultAlone : (s.faultAlone i c).thState i = 4 := by
  refine (get_eq_of_reg (f := TH_STAT_STATE i) (reg_faultAlone s c hi ?_ ?_)).trans (thState_faultShown (s.discardWork i) i c (s.thr i).upc)
  · unfold TH_STAT_STATE TH_STAT thBase
    dsimp only
    omega
  · unfold TH_STAT_STATE TH_STAT thBase
    dsimp only
    omega

theorem cause_faultAlone (hc : c < 256) : (s.faultAlone i c).get (TH_FAULT_CAUSE i) = c := by
  refine (get_eq_of_reg (reg_faultAlone s c hi ?_ ?_)).trans (cause_faultShown (s.discardWork i) i c (s.thr i).upc hc)
  · unfold TH_FAULT_CAUSE TH_FAULT thBase
    dsimp only
    omega
  · unfold TH_FAULT_CAUSE TH_FAULT thBase
    dsimp only
    omega

end fault

/-! ### A held reset is taken (R250) -/

theorem otherTh_ne (i : Nat) : otherTh i ≠ i := by
  unfold State.otherTh
  split <;> omega

section reset
variable (s : State) {i : Nat}

theorem ctxCheck_signals (i j k : Nat) : Signals s (s.ctxCheck i j k).1 := (Signals.refl s).inject.ifTrue (Signals.refl _).bump

theorem lines_staleOne (i j : Nat) : s.lines ⊆ (s.staleOne i j).1.lines := by
  have hcheck := (ctxCheck_signals s i j 0).lines
  unfold State.staleOne
  dsimp only
  split
  · exact fun _ h => h
  · split
    · exact hcheck
    · exact hcheck

/-- A range of contexts is marked one after the other. -/
def staleNext (i base : Nat) (r : State × Bool) (n : Nat) : State × Bool := ((r.1.staleOne i (base + n)).1, r.2 || (r.1.staleOne i (base + n)).2)

theorem markStale_eq (i t : Nat) : ∃ base l, s.markStale i t =
    if (List.foldl (staleNext i base) (s, false) l).2 then (List.foldl (staleNext i base) (s, false) l).1.faultAlone i 6
    else (List.foldl (staleNext i base) (s, false) l).1 := ⟨_, _, rfl⟩

theorem lines_markStale (i t : Nat) : s.lines ⊆ (s.markStale i t).lines := by
  obtain ⟨base, l, e⟩ := markStale_eq s i t
  have hfold (l : List Nat) (r : State × Bool) : r.1.lines ⊆ (l.foldl (staleNext i base) r).1.lines := by
    induction l generalizing r with
    | nil => exact fun _ h => h
    | cons n l ih =>
      have hrest := ih (staleNext i base r n)
      exact List.Subset.trans (lines_staleOne r.1 i (base + n)) hrest
  rw [e]
  split
  · exact List.Subset.trans (hfold l (s, false)) (lines_faultAlone _ i 6)
  · exact hfold l (s, false)

/-- Marking a context stale reaches neither the thresher nor its registers. -/
theorem keeps_staleOne (hi : i < 32) (j : Nat) : Keeps (Part.ofThresher i) s (s.staleOne i j).1 := by
  have hcheck : Keeps (Part.ofThresher i) s (s.ctxCheck i j 0).1 := ((Keeps.refl s).inject_ofThresher hi _ _).ifTrue
    ((Keeps.refl _).bump (f := SH_CTX_STAT_CORR (i / 2)) (Keeps.not_ofThresher_sheaf _ 0x8b0 (by decide) (by decide)))
  exact Keeps.ite_fst ((Keeps.refl s).setThr (otherTh_ne i)) (Keeps.ite_fst hcheck ((hcheck.setByte _ _).markUncorr _ _))

/-- The thresher stays as it was, or faults. -/
theorem markStale_cases (hi : i < 32) (t : Nat) : ∃ q, Keeps (Part.ofThresher i) s q ∧
    (s.markStale i t = q ∨ s.markStale i t = q.faultAlone i 6) := by
  obtain ⟨base, l, e⟩ := markStale_eq s i t
  have hfold (l : List Nat) (r : State × Bool) (hr : Keeps (Part.ofThresher i) s r.1) : Keeps (Part.ofThresher i) s (l.foldl (staleNext i base) r).1 := by
    induction l generalizing r with
    | nil => exact hr
    | cons n l ih => exact ih _ (hr.trans (keeps_staleOne r.1 hi (base + n)))
  refine ⟨_, hfold l (s, false) (Keeps.refl s), ?_⟩
  rw [e]
  split
  · exact .inr rfl
  · exact .inl rfl

theorem threshers_source (n : Nat) : (s.source n).threshers = s.threshers := (Signals.refl s).source.threshers

theorem showMove_signals (t : Nat) : Signals s (s.showMove t) := by
  unfold State.showMove State.putBit
  exact (Signals.refl s).put

theorem threshers_settleRoute (t : Nat) : (s.settleRoute t).threshers = s.threshers := by
  unfold State.settleRoute
  dsimp only
  split
  · rfl
  · split
    · rfl
    · split
      · rfl
      · rw [threshers_source, (showMove_signals _ t).threshers]
        rfl

theorem lines_settleRoute (t : Nat) : s.lines ⊆ (s.settleRoute t).lines := by
  unfold State.settleRoute
  dsimp only
  split
  · exact fun _ h => h
  · split
    · exact fun _ h => h
    · split
      · exact fun _ h => h
      · have hmoved := (showMove_signals (s.setRoute t { s.route t with plan := [] }) t).source (n := 1024 + 8 * sheafOf t + 5)
        exact hmoved.lines

end reset

end State

end Sys2Proof.Machine
end

section
/-! SUPPORT. The end of a routine and what it holds (R240, R250, R265). -/

namespace Sys2Proof.Machine

namespace State

section move
variable (s : State) {i : Nat} (hi : i < 32) (t : Nat)

/-- The low bits of a register, read off the whole of it. -/
theorem get_low (a : Nat) : s.get ⟨a, 2, 0⟩ = s.get ⟨a, 31, 0⟩ % 8 := by
  rw [State.get, State.get, bits, bits, Nat.shiftRight_zero]
  exact (Nat.mod_mod_of_dvd _ (show 8 ∣ 2 ^ 32 by decide)).symm

/-- A bit above them is set beside them. -/
theorem get_low_putBit (a : Nat) {k : Nat} (hk : 3 ≤ k) : (s.putBit ⟨a, 31, 0⟩ k true).get ⟨a, 2, 0⟩ = s.get ⟨a, 2, 0⟩ := by
  have hput : (s.putBit ⟨a, 31, 0⟩ k true).get ⟨a, 31, 0⟩ = (s.get ⟨a, 31, 0⟩ ||| 2 ^ k) % 2 ^ 32 := get_put_of_fits s _ rfl
  have hpow : 2 ^ k % 8 = 0 := Nat.mod_eq_zero_of_dvd (Nat.pow_dvd_pow 2 hk)
  rw [get_low, get_low, hput, Nat.mod_mod_of_dvd _ (show 8 ∣ 2 ^ 32 by decide), Nat.or_mod_two_pow (n := 3), hpow, Nat.or_zero]

include hi

/-- The end of a move is the sixth source of its sheaf: even of a tiller beyond the chip's, no bit of a state is set. -/
theorem thState_source {n : Nat} (hn : n % 8 = 5) : (s.source n).thState i = s.thState i := by
  have hbit : (s.putBit (EV_PEND_PEND (n / 32)) (n % 32) true).thState i = s.thState i := by
    by_cases e : TH_STAT i = EV_PEND (n / 32)
    · have hlow := get_low_putBit s (EV_PEND (n / 32)) (k := n % 32) (by omega)
      rw [← e] at hlow
      rw [EV_PEND_PEND, ← e]
      exact hlow
    · exact get_put_other _ _ e
  rw [← hbit]
  refine get_eq_of_reg (f := TH_STAT_STATE i) ?_
  unfold State.source State.vectorsRisen
  split
  · rfl
  · refine reg_sendVectors _ _ ?_ ?_
    · unfold TH_STAT_STATE TH_STAT thBase msixPending
      dsimp only
      omega
    · unfold TH_STAT_STATE TH_STAT thBase msixPending
      dsimp only
      omega

omit hi in
theorem thState_showMove : (s.showMove t).thState i = s.thState i := by
  refine get_put_other (f := SH_XBAR_ROUTE_PEND (sheafOf t)) (g := TH_STAT_STATE i) _ _ ?_
  unfold TH_STAT_STATE TH_STAT thBase SH_XBAR_ROUTE_PEND SH_XBAR_ROUTE shBase
  dsimp only
  omega

theorem thState_settleRoute : (s.settleRoute t).thState i = s.thState i := by
  unfold State.settleRoute
  dsimp only
  split
  · rfl
  · split
    · rfl
    · split
      · rfl
      · rw [thState_source _ hi (by omega), thState_showMove]
        rfl

end move

section reset
variable {s : State} {i : Nat} (t : Nat)

/-- Discarding a tiller's records releases nothing anew. -/
theorem thr_purgeTiller : ((s.purgeTiller i t).thr i).lock = (s.thr i).lock ∧ ((s.purgeTiller i t).thr i).reserved = (s.thr i).reserved ∧
    ((s.purgeTiller i t).thr i).heldTillers = (s.thr i).heldTillers := by
  obtain ⟨x, hx, e⟩ : ∃ x : Thresher, (s.purgeTiller i t).thr i = x ∧ x.lock = (s.thr i).lock ∧ x.reserved = (s.thr i).reserved ∧
      x.heldTillers = (s.thr i).heldTillers := ⟨_, thr_setThr_same s i _, rfl, rfl, rfl⟩
  rw [hx]
  exact e

theorem lines_takeReset : s.lines ⊆ (s.takeReset i t).lines :=
  List.Subset.trans (lines_markStale (s.purgeTiller i t) i t) (lines_settleRoute _ t)

variable (hi : i < 32)
include hi

theorem released_takeReset (h : s.Released i) : (s.takeReset i t).Released i := by
  have hpurged : (s.purgeTiller i t).Released i := by
    obtain ⟨hlock, hreserved, hheld⟩ := thr_purgeTiller (s := s) (i := i) t
    rw [Released, hlock, hreserved, hheld]
    exact h
  rw [State.takeReset, Released, State.thr, threshers_settleRoute]
  obtain ⟨q, hq, e | e⟩ := markStale_cases (s.purgeTiller i t) hi t
  · have hthr : q.thr i = (s.purgeTiller i t).thr i := hq (.thr i) rfl
    rw [e, ← State.thr, hthr]
    exact hpurged
  · rw [e]
    exact released_faultAlone q i 6

theorem thState_takeReset (h : s.thState i = 4) : (s.takeReset i t).thState i = 4 := by
  rw [State.takeReset, thState_settleRoute _ hi]
  obtain ⟨q, hq, e | e⟩ := markStale_cases (s.purgeTiller i t) hi t
  · rw [e, ← h]
    refine get_eq_of_reg (f := TH_STAT_STATE i) (hq (.reg (TH_STAT i)) ?_)
    unfold Part.ofThresher TH_STAT
    omega
  · rw [e]
    exact thState_faultAlone q 6 hi

theorem released_foldl_takeReset (l : List Nat) (h : s.Released i) : (l.foldl (fun s t => s.takeReset i t) s).Released i := by
  induction l generalizing s with
  | nil => exact h
  | cons t l ih => exact ih (released_takeReset t hi h)

/-- A thresher that has faulted stays so while it takes its resets. -/
theorem faulted_foldl_takeReset (l : List Nat) (h : s.thState i = 4) (hl : 128 + i ∈ s.lines) :
    (l.foldl (fun s t => s.takeReset i t) s).thState i = 4 ∧ 128 + i ∈ (l.foldl (fun s t => s.takeReset i t) s).lines := by
  induction l generalizing s with
  | nil => exact ⟨h, hl⟩
  | cons t l ih => exact ih (thState_takeReset t hi h) (lines_takeReset t hl)

theorem faulted_thFault (c : Nat) : (s.thFault i c).thState i = 4 ∧ 128 + i ∈ (s.thFault i c).lines :=
  faulted_foldl_takeReset hi _ (thState_faultAlone s c hi) (line_faultAlone s i c)

theorem cause_thFault {c : Nat} (hc : c < 256) (h : (s.thr i).heldTillers = []) : (s.thFault i c).get (TH_FAULT_CAUSE i) = c := by
  rw [State.thFault, h]
  exact cause_faultAlone s c hi hc

end reset

/-! ### END (R238, R240) -/

section ending
variable (s : State) (i : Nat)

/-- What END leaves before it takes what was held. -/
def ended : State :=
  ((if (s.thr i).hard then ((s.releaseWork i).scramble i).scrambleScratch i else s.releaseWork i).modThr i
    (fun y => { y with heldStop := false, heldTillers := [] })).enterTh i (if (s.thr i).heldStop then 0 else 1)

theorem endRoutine_eq : s.endRoutine i = (s.thr i).heldTillers.foldl (fun s t => s.takeReset i t) (s.ended i) := rfl

theorem thr_scrambleScratch_kept : ((s.scrambleScratch i).thr i).lock = (s.thr i).lock ∧
    ((s.scrambleScratch i).thr i).reserved = (s.thr i).reserved := by
  have hthr : (s.scrambleScratch i).thr i = (s.modThr i fun x => { x with scratch := [], wildScratch := s.draws + 1 }).thr i := rfl
  rw [hthr, thr_modThr_same]
  exact ⟨rfl, rfl⟩

theorem released_ended : (s.ended i).Released i := by
  have hwork := thr_releaseWork s i
  rw [Released, ended, thr_enterTh, thr_modThr_same]
  split
  · obtain ⟨hlock, hreserved⟩ := thr_scrambleScratch_kept ((s.releaseWork i).scramble i) i
    obtain ⟨hlock', hreserved', -⟩ := thr_scramble_kept (s.releaseWork i) i
    refine ⟨?_, ?_, rfl⟩
    · rw [hlock, hlock', hwork]
    · rw [hreserved, hreserved', hwork]
  · rw [hwork]
    exact ⟨rfl, rfl, rfl⟩

theorem thState_ended : (s.ended i).thState i = if (s.thr i).heldStop then 0 else 1 :=
  thState_enterTh _ i _ (by split <;> decide)

theorem released_endRoutine {i : Nat} (hi : i < 32) : (s.endRoutine i).Released i :=
  endRoutine_eq s i ▸ released_foldl_takeReset hi _ (released_ended s i)

theorem thState_endRoutine (h : (s.thr i).heldTillers = []) : (s.endRoutine i).thState i = if (s.thr i).heldStop then 0 else 1 := by
  rw [endRoutine_eq, h]
  exact thState_ended s i

end ending

end State

end Sys2Proof.Machine
end

section
/-! SUPPORT. The sequence slot (R236, R238, R239, R243), and O37 settled. -/

namespace Sys2Proof.Machine

namespace State

/-! ### Conditions (R236) -/

/-- What a condition on flags and on the context tests. -/
def flagTest (x : Thresher) : Nat → Bool
  | 0 => x.z | 1 => !x.z | 2 => x.n | 3 => !x.n | 4 => x.c | 5 => !x.c | _ => x.fresh

section test
variable {s : State} {i w : Nat}

theorem uTest_flag {cond : Nat} (hw : uCond w = cond) (h : cond < 6 ∨ cond = 8) : (s.uTest i w).2 = flagTest (s.thr i) cond := by
  obtain rfl | rfl | rfl | rfl | rfl | rfl | rfl : cond = 0 ∨ cond = 1 ∨ cond = 2 ∨ cond = 3 ∨ cond = 4 ∨ cond = 5 ∨ cond = 8 := by omega
  all_goals
    simp only [State.uTest, hw]
    rfl

/-- A buffer that no read fills tells its poison. -/
theorem uTest_poison {buf : Nat} (hw : uCond w = 9) (hb : uBuf w = buf) (h : (s.lineBuf i buf).line = none) :
    (s.uTest i w).2 = (s.lineBuf i buf).poison := by
  simp only [State.uTest, State.bufHeld, hw, hb, h, Option.isNone_none, if_true]

/-- The last fragment of a packet. -/
theorem uTest_head {e : InRec} {r : List InRec} (hw : uCond w = 10) (h : (s.thr i).fifo = e :: r) : (s.uTest i w).2 = e.data.testBit 125 := by
  simp only [State.uTest, hw, h]

end test

/-! ### Branches (R235) -/

theorem thr_draws (s : State) (n i : Nat) : { s with draws := n }.thr i = s.thr i := rfl

theorem lt_of_listed {cond : Nat} (hc : [0, 1, 2, 3, 4, 5, 8, 9, 10].contains cond = true) : cond < 64 := by
  have := List.contains_iff_mem.1 hc
  simp only [List.mem_cons, List.not_mem_nil, or_false] at this
  omega

section branch
variable {s : State} {i target : Nat} (hr : s.inRoutine i = true) (ht : target < 2 ^ 14)
include hr ht

theorem upc_br : ((s.runOp i (seqTarget 1 target)).thr i).upc = target := by
  have h : SeqFits 1 0 0 target := ⟨by decide, by decide, by decide, ht⟩
  obtain ⟨hsop, htarget, -⟩ := seqCond_fields h
  rw [seqTarget_eq, runOp_seqCond_any h hr ((uIllegal_seqCond h).trans (by simp)) (by decide)]
  simp only [State.seqSlot, hsop, htarget, thr_uGoTo]
  exact Nat.mod_eq_of_lt ht

variable {cond buf : Nat} (hc : [0, 1, 2, 3, 4, 5, 8, 9, 10].contains cond = true) (hb : buf < 16)
include hc hb

/-- BRC and BRNC test a word of that condition and that buffer, in the state that stood but for the values drawn since. -/
theorem upc_branch : ∃ d w, uCond w = cond ∧ uBuf w = buf ∧
    ((s.runOp i (seqCond 2 cond buf target)).thr i).upc =
      if ({ s with draws := d }.uTest i w).2 then target else ((s.thr i).upc + 1) % 16384 := by
  have h : SeqFits 2 cond buf target := ⟨by decide, lt_of_listed hc, hb, ht⟩
  obtain ⟨hsop, htarget, -, -, hcond, hbuf⟩ := seqCond_fields h
  refine ⟨(s.counted i).draws, _, hcond, hbuf, ?_⟩
  rw [runOp_seqCond_any h hr ((uIllegal_seqCond h).trans (by rw [hc]; simp)) (by decide)]
  simp only [State.seqSlot, hsop, htarget, thr_uGoTo]
  split
  · exact Nat.mod_eq_of_lt ht
  · rfl

theorem upc_branch_not : ∃ d w, uCond w = cond ∧ uBuf w = buf ∧
    ((s.runOp i (seqCond 3 cond buf target)).thr i).upc =
      if ({ s with draws := d }.uTest i w).2 then ((s.thr i).upc + 1) % 16384 else target := by
  have h : SeqFits 3 cond buf target := ⟨by decide, lt_of_listed hc, hb, ht⟩
  obtain ⟨hsop, htarget, -, -, hcond, hbuf⟩ := seqCond_fields h
  refine ⟨(s.counted i).draws, _, hcond, hbuf, ?_⟩
  rw [runOp_seqCond_any h hr ((uIllegal_seqCond h).trans (by rw [hc]; simp)) (by decide)]
  simp only [State.seqSlot, hsop, htarget, thr_uGoTo]
  split
  · rfl
  · exact Nat.mod_eq_of_lt ht

omit hr ht hc hb in
/-- A condition that is not in the list is illegal. -/
theorem runOp_branch_unlisted {op : Nat} (hr : s.inRoutine i = true) (h : SeqFits op cond buf target) (hop : op = 2 ∨ op = 3)
    (hc : [0, 1, 2, 3, 4, 5, 8, 9, 10].contains cond = false) : s.runOp i (seqCond op cond buf target) = s.thFault i 2 := by
  have hop' : (decide (op = 2) || decide (op = 3)) = true := by simpa using hop
  rw [runOp_of_inRoutine _ hr, runWord_of_fault (uCheck_of_illegal ((uIllegal_seqCond h).trans (by rw [hc, hop']; rfl)))]

end branch

/-! ### Calls (R239) -/

section call
variable {s : State} {i target : Nat} (hr : s.inRoutine i = true)
include hr

theorem thr_callu (ht : target < 2 ^ 14) (hroom : (s.thr i).stack.length < 4) :
    ((s.runOp i (seqTarget 4 target)).thr i).upc = target ∧
      ((s.runOp i (seqTarget 4 target)).thr i).stack = ((s.thr i).upc + 1) % 16384 :: (s.thr i).stack := by
  have h : SeqFits 4 0 0 target := ⟨by decide, by decide, by decide, ht⟩
  obtain ⟨hsop, htarget, -⟩ := seqCond_fields h
  have hcheck : s.uCheck i (seqCond 4 0 0 target) = none := by
    rw [uCheck_seqCond h ((uIllegal_seqCond h).trans (by simp)), if_neg (by simp), if_neg (not_spent_of_inRoutine hr),
      if_neg (by simpa using hroom), if_neg (by decide)]
  obtain ⟨n, hn⟩ := thr_counted s i
  rw [seqTarget_eq, runOp_seqCond h hr hcheck (by simp [uWaits_seqCond h])]
  simp only [State.seqSlot, hsop, htarget, thr_uGoTo, thr_modThr_same, thr_draws, hn]
  exact ⟨Nat.mod_eq_of_lt ht, trivial⟩

/-- A fifth call, and a return with nothing to return to. -/
theorem runOp_stack_fault {op : Nat} (h : SeqFits op 0 0 target)
    (hs : (op = 4 ∧ 4 ≤ (s.thr i).stack.length) ∨ (op = 5 ∧ (s.thr i).stack = [])) : s.runOp i (seqCond op 0 0 target) = s.thFault i 7 := by
  have hop : op = 4 ∨ op = 5 := hs.imp And.left And.left
  rw [runOp_of_inRoutine _ hr, runWord_of_fault (c := 7)]
  rw [uCheck_seqCond h ((uIllegal_seqCond h).trans (by obtain rfl | rfl := hop <;> simp)), if_neg (by obtain rfl | rfl := hop <;> simp),
    if_neg (not_spent_of_inRoutine hr), if_pos hs]

theorem thr_retu {r : Nat} {l : List Nat} (hs : (s.thr i).stack = r :: l) :
    ((s.runOp i (seqWord 5)).thr i).upc = r % 16384 ∧ ((s.runOp i (seqWord 5)).thr i).stack = l := by
  have h : SeqFits 5 0 0 0 := ⟨by decide, by decide, by decide, by decide⟩
  obtain ⟨hsop, -⟩ := seqCond_fields h
  have hcheck : s.uCheck i (seqCond 5 0 0 0) = none := by
    rw [uCheck_seqCond h ((uIllegal_seqCond h).trans (by decide)), if_neg (by simp), if_neg (not_spent_of_inRoutine hr),
      if_neg (by simp [hs]), if_neg (by decide)]
  rw [seqWord_eq, runOp_seqCond h hr hcheck (by simp [uWaits_seqCond h])]
  simp only [State.seqSlot, hsop, thr_uGoTo, thr_modThr_same, hs]
  exact ⟨rfl, rfl⟩

/-! ### The end of a routine (R238, R240) -/

theorem end_releases (hi : i < 32) : (s.runOp i (seqWord 8)).Released i ∧
    ((s.thr i).heldTillers = [] → (s.runOp i (seqWord 8)).thState i = if (s.thr i).heldStop then 0 else 1) := by
  have h : SeqFits 8 0 0 0 := ⟨by decide, by decide, by decide, by decide⟩
  obtain ⟨hsop, -⟩ := seqCond_fields h
  obtain ⟨n, hn⟩ := thr_counted s i
  have hthr (d k : Nat) : (({ s.counted i with draws := d }.uGoTo i k).thr i) = { s.thr i with after := n, upc := k % 16384 } :=
    by rw [thr_uGoTo, thr_draws, hn]
  rw [seqWord_eq, runOp_seqCond_any h hr ((uIllegal_seqCond h).trans (by decide)) (by decide)]
  simp only [State.seqSlot, hsop]
  refine ⟨released_endRoutine _ hi, fun hheld => ?_⟩
  rw [thState_endRoutine _ _ (by rw [hthr]; exact hheld), hthr]

theorem runOp_stopu : s.runOp i (seqWord 11) = s.thFault i 9 := by
  have h : SeqFits 11 0 0 0 := ⟨by decide, by decide, by decide, by decide⟩
  rw [seqWord_eq, runOp_of_inRoutine _ hr, runWord_of_fault (c := 9)]
  rw [uCheck_seqCond h ((uIllegal_seqCond h).trans (by decide)), if_neg (by simp), if_neg (not_spent_of_inRoutine hr), if_neg (by simp),
    if_pos rfl]

end call

/-! ### Behind the commit (R238, R243) -/

/-- COMMIT, COMMITK, FENCE and WAITL are legal but for a count above 16. -/
theorem uIllegal_before {op n : Nat} (h : SeqFits op 0 0 n) (hop : op ∈ [6, 7, 9, 10]) (hn : n % 32 ≤ 16 ∨ op = 9 ∨ op = 10) :
    uIllegal (seqCond op 0 0 n) = false := by
  have hop' : op = 6 ∨ op = 7 ∨ op = 9 ∨ op = 10 := by simpa using hop
  rw [uIllegal_seqCond h]
  simp only [Bool.or_eq_false_iff, Bool.and_eq_false_iff, decide_eq_false_iff_not]
  omega

theorem uCheck_before {s : State} {i op n : Nat} (hp : s.thState i = 2) (h : SeqFits op 0 0 n) (hop : op ∈ [6, 7, 9, 10])
    (hn : n % 32 ≤ 16 ∨ op = 9 ∨ op = 10) : s.uCheck i (seqCond op 0 0 n) = none := by
  have hop' : op = 6 ∨ op = 7 ∨ op = 9 ∨ op = 10 := by simpa using hop
  rw [uCheck_seqCond h (uIllegal_before h hop hn), if_neg (by simp [hp]), if_neg (by simp [hp]), if_neg (by omega), if_neg (by omega)]

/-- In POST they fault. -/
theorem runOp_seqCond_post {s : State} {i op target : Nat} (hp : s.thState i = 3) (h : SeqFits op 0 0 target) (hop : op ∈ [6, 7, 9, 10])
    (hn : target % 32 ≤ 16 ∨ op = 9 ∨ op = 10) : s.runOp i (seqCond op 0 0 target) = s.thFault i 3 := by
  have hrun : s.runOp i (seqCond op 0 0 target) = s.runWord i (seqCond op 0 0 target) := if_pos (by simp [hp])
  rw [hrun, runWord_of_fault (c := 3)]
  rw [uCheck_seqCond h (uIllegal_before h hop hn), if_pos ⟨hp, hop⟩]

/-! ### A context is written (R248) -/

theorem getElem_bytesLE (n v k : Nat) (h : k < (bytesLE n v).length) : (bytesLE n v)[k] = bytesOf v k 1 := by
  induction n generalizing v k with
  | zero => exact absurd h (Nat.not_lt_zero k)
  | succ n ih =>
    cases k with
    | zero => simp [bytesLE, bytesOf]
    | succ k =>
      have hk : k < (bytesLE n (v / 256)).length := Nat.lt_of_succ_lt_succ h
      have hshift : v >>> (8 * (k + 1)) = (v / 256) >>> (8 * k) := by
        rw [show v / 256 = v >>> 8 from (Nat.shiftRight_eq_div_pow v 8).symm, ← Nat.shiftRight_add]
        congr 1
        omega
      calc (bytesLE (n + 1) v)[k + 1] = (bytesLE n (v / 256))[k] := rfl
        _ = bytesOf (v / 256) k 1 := ih _ _ hk
        _ = bytesOf v (k + 1) 1 := by rw [bytesOf, bytesOf, hshift]

theorem threshers_storeBytes (s : State) (a : Nat) (l : List Nat) : (s.storeBytes a l).threshers = s.threshers := by
  induction l generalizing s a with
  | nil => rfl
  | cons b l ih => exact ih _ _

section ctx
variable (s : State) (i j v : Nat)

theorem foldl_markUncorr (l : List Nat) (a : Nat) (q : State) :
    (l.foldl (fun s k => s.markUncorr (a + 8 * k) false) q).threshers = q.threshers ∧
      ∀ b, (l.foldl (fun s k => s.markUncorr (a + 8 * k) false) q).byteAt b = q.byteAt b := by
  induction l generalizing q with
  | nil => exact ⟨rfl, fun _ => rfl⟩
  | cons k l ih => exact ih (q.markUncorr (a + 8 * k) false)

theorem thr_writeCtx : (s.writeCtx i j v).thr = s.thr := by
  unfold State.thr State.writeCtx
  rw [(foldl_markUncorr _ _ _).1, threshers_storeBytes]

theorem byteAt_writeCtx {k : Nat} (hk : k < 64) : (s.writeCtx i j v).byteAt (ctxAddr i j + k) = BitVec.ofNat 8 (bytesOf v k 1) := by
  have hlen : k < (bytesLE 64 v).length := (length_bytesLE 64 v).symm ▸ hk
  unfold State.writeCtx
  rw [(foldl_markUncorr _ _ _).2, byteAt_storeBytes_same _ _ _ _ hlen, getElem_bytesLE]

end ctx

/-! ### The commit (R238) -/

section commit
variable (s : State) (i n : Nat)

theorem thr_settleRoute (t : Nat) : (s.settleRoute t).thr = s.thr := by
  unfold State.thr
  rw [threshers_settleRoute]

theorem thr_popRecord : (s.popRecord i).thr i = { s.thr i with fifo := (s.thr i).fifo.tail } := by
  unfold State.popRecord
  split
  · next h => rw [h, List.tail_nil, ← h]
  · next e r h =>
    have hbump (q : State) : (q.bump (TH_CNT_REC_RECS i)).thr i = q.thr i := rfl
    rw [thr_settleRoute, hbump, thr_modThr_same, h, List.tail_cons]

/-- The shadow is written to the locked context. -/
def ctxWritten : State := match (s.thr i).lock with
  | some j => s.writeCtx i j (s.thr i).shadow
  | none => s

theorem ctxWritten_of_lock {j : Nat} (h : (s.thr i).lock = some j) : s.ctxWritten i = s.writeCtx i j (s.thr i).shadow := by
  unfold ctxWritten
  rw [h]

theorem thr_ctxWritten : (s.ctxWritten i).thr = s.thr := by
  unfold ctxWritten
  split
  · exact thr_writeCtx ..
  · rfl

/-- The values of a commit. -/
def committed (n : Nat) (x : Thresher) : Thresher := { x with cursor := x.curw.getD x.cursor, curw := none, allowed := n, after := 0 }

theorem commit_eq (keep : Bool) : s.commit i n keep =
    (if keep then (s.ctxWritten i).modThr i (committed n) else ((s.ctxWritten i).modThr i (committed n)).popRecord i).enterTh i 3 := rfl

theorem thr_commit (keep : Bool) : (s.commit i n keep).thr i =
    { committed n (s.thr i) with fifo := if keep then (s.thr i).fifo else (s.thr i).fifo.tail } := by
  rw [commit_eq, thr_enterTh]
  cases keep
  · rw [if_neg Bool.false_ne_true, thr_popRecord, thr_modThr_same, thr_ctxWritten]
    rfl
  · rw [if_pos rfl, thr_modThr_same, thr_ctxWritten]
    rfl

theorem thState_commit (keep : Bool) : (s.commit i n keep).thState i = 3 := thState_enterTh _ i 3 (by decide)

theorem byteAt_modThr (f : Thresher → Thresher) : (s.modThr i f).byteAt = s.byteAt := rfl
theorem byteAt_enterTh : (s.enterTh i n).byteAt = s.byteAt := rfl

/-- The locked context holds the shadow. -/
theorem byteAt_commit {j k : Nat} (hl : (s.thr i).lock = some j) (hk : k < 64) :
    (s.commit i n true).byteAt (ctxAddr i j + k) = BitVec.ofNat 8 (bytesOf (s.thr i).shadow k 1) := by
  rw [commit_eq, if_pos rfl, byteAt_enterTh, byteAt_modThr, ctxWritten_of_lock s i hl]
  exact byteAt_writeCtx s i j _ hk

theorem counted_pre (h : s.thState i = 2) : s.counted i = s := if_neg (by rw [h]; decide)

end commit

/-- What the commit finds: the shadow and the cursor as they stood at the start of the cycle (R234). -/
def committing (s q : State) (i : Nat) : State :=
  q.modThr i (fun y => { y with shadow := (s.thr i).shadow, lock := (s.thr i).lock, curw := (s.thr i).curw })

section post
variable {s : State} {i n : Nat} (hp : s.thState i = 2) (hn : n ≤ 16)
include hp hn

theorem runOp_commit (hroom : s.thWrites i + n ≤ 16) {op : Nat} (hop : op = 6 ∨ op = 7) : ∃ d f,
    s.runOp i (seqCount op n) = (((s.committing { s with draws := d } i).commit i n (decide (op = 7))).modThr i
      (fun z => { z with shadow := (s.thr i).shadow, lock := (s.thr i).lock, curw := f })).uGoTo i ((s.thr i).upc + 1) := by
  have h : SeqFits op 0 0 n := ⟨by omega, by decide, by decide, by omega⟩
  obtain ⟨hsop, -, hcount, -⟩ := seqCond_fields h
  have hmod : n % 32 = n := Nat.mod_eq_of_lt (by omega)
  have hcheck : s.uCheck i (seqCond op 0 0 n) = none :=
    uCheck_before hp h (by obtain rfl | rfl := hop <;> decide) (.inl (hmod.trans_le hn))
  have hgoes : s.uWaits i (seqCond op 0 0 n) = false := by
    have h9 : op ≠ 9 := by omega
    have h10 : op ≠ 10 := by omega
    simp [uWaits_seqCond h, hmod, h9, h10, State.postRoom, hroom]
  rw [seqCount_eq, runOp_seqCond h (inRoutine_pre hp) hcheck hgoes, counted_pre _ _ hp]
  obtain rfl | rfl := hop
  · simp only [State.seqSlot, hsop, hcount, hmod]
    exact ⟨_, _, rfl⟩
  · simp only [State.seqSlot, hsop, hcount, hmod]
    exact ⟨_, _, rfl⟩

/-- Without room it waits. -/
theorem runOp_commit_waits (hroom : 16 < s.thWrites i + n) {op : Nat} (hop : op = 6 ∨ op = 7) : s.runOp i (seqCount op n) = s := by
  have h : SeqFits op 0 0 n := ⟨by omega, by decide, by decide, by omega⟩
  have hmod : n % 32 = n := Nat.mod_eq_of_lt (by omega)
  have hcheck : s.uCheck i (seqCond op 0 0 n) = none :=
    uCheck_before hp h (by obtain rfl | rfl := hop <;> decide) (.inl (hmod.trans_le hn))
  have hwaits : s.uWaits i (seqCond op 0 0 n) = true := by
    have hop' : (decide (op = 6) || decide (op = 7)) = true := by simpa using hop
    simp [uWaits_seqCond h, hmod, hop', State.postRoom, hroom]
  obtain ⟨-, -, -, hiop⟩ := seqCond_others h
  rw [seqCount_eq, runOp_of_inRoutine _ (inRoutine_pre hp), runWord_of_waits hcheck hwaits (by simp [hiop])]

theorem thr_postOf_commit (hroom : s.thWrites i + n ≤ 16) {op : Nat} (hop : op = 6 ∨ op = 7) : let u := s.runOp i (seqCount op n)
    u.thState i = 3 ∧ (u.thr i).allowed = n ∧ (u.thr i).after = 0 ∧ (u.thr i).upc = ((s.thr i).upc + 1) % 16384 ∧
      (u.thr i).cursor = (s.thr i).curw.getD (s.thr i).cursor ∧ (u.thr i).fifo = (if op = 7 then (s.thr i).fifo else (s.thr i).fifo.tail) ∧
      (op = 7 → ∀ j, (s.thr i).lock = some j → ∀ k, k < 64 → u.byteAt (ctxAddr i j + k) = BitVec.ofNat 8 (bytesOf (s.thr i).shadow k 1)) := by
  obtain ⟨d, f, e⟩ := runOp_commit hp hn hroom hop
  have hfound : (s.committing { s with draws := d } i).thr i = s.thr i := (thr_modThr_same ..).trans rfl
  have hthr := thr_commit (s.committing { s with draws := d } i) i n (decide (op = 7))
  have hstate := thState_commit (s.committing { s with draws := d } i) i n (decide (op = 7))
  rw [hfound] at hthr
  intro u
  have hu : u.thr i = { (s.committing { s with draws := d } i).commit i n (decide (op = 7)) |>.thr i with
      shadow := (s.thr i).shadow, lock := (s.thr i).lock, curw := f, upc := ((s.thr i).upc + 1) % 16384 } := by
    show (s.runOp i (seqCount op n)).thr i = _
    rw [e, thr_uGoTo, thr_modThr_same]
  rw [hthr] at hu
  rw [hu]
  refine ⟨?_, rfl, rfl, rfl, rfl, ?_, ?_⟩
  · show (s.runOp i (seqCount op n)).thState i = 3
    rw [e]
    exact hstate
  · simp only [decide_eq_true_eq]
  · rintro rfl j hj k hk
    show (s.runOp i (seqCount 7 n)).byteAt (ctxAddr i j + k) = _
    rw [e, State.uGoTo, byteAt_modThr, byteAt_modThr, decide_eq_true rfl, byteAt_commit _ _ _ (hfound ▸ hj) hk, hfound]

omit hn in
/-- FENCE and WAITL go on, or wait. -/
theorem runOp_waiting {op : Nat} (h : SeqFits op 0 0 n) (hop : op = 9 ∨ op = 10) :
    (s.uWaits i (seqCond op 0 0 n) = false → ((s.runOp i (seqCond op 0 0 n)).thr i).upc = ((s.thr i).upc + 1) % 16384) ∧
      (s.uWaits i (seqCond op 0 0 n) = true → s.runOp i (seqCond op 0 0 n) = s) := by
  obtain ⟨hsop, -⟩ := seqCond_fields h
  obtain ⟨-, -, -, hiop⟩ := seqCond_others h
  have hcheck : s.uCheck i (seqCond op 0 0 n) = none := uCheck_before hp h (by obtain rfl | rfl := hop <;> decide) (.inr hop)
  refine ⟨fun hw => ?_, fun hw => ?_⟩
  · rw [runOp_seqCond h (inRoutine_pre hp) hcheck hw]
    obtain rfl | rfl := hop
    · simp only [State.seqSlot, hsop, thr_uGoTo]
    · simp only [State.seqSlot, hsop, thr_uGoTo]
  · rw [runOp_of_inRoutine _ (inRoutine_pre hp), runWord_of_waits hcheck hw (by simp [hiop])]

end post

section waiting
variable {s : State} {i : Nat} (hp : s.thState i = 2)
include hp

theorem runOp_fence : (s.thReads i = 0 → (s.thr i).posted = [] → ((s.runOp i (seqWord 9)).thr i).upc = ((s.thr i).upc + 1) % 16384) ∧
    (s.thReads i ≠ 0 ∨ (s.thr i).posted ≠ [] → s.runOp i (seqWord 9) = s) := by
  have h : SeqFits 9 0 0 0 := ⟨by decide, by decide, by decide, by decide⟩
  obtain ⟨hgoes, hstays⟩ := runOp_waiting hp h (.inl rfl)
  rw [← seqWord_eq] at hgoes hstays
  have hwaits : s.uWaits i (seqWord 9) = (s.thReads i + (s.thr i).posted.length != 0) := by
    rw [seqWord_eq, uWaits_seqCond h]
    simp
  refine ⟨fun hreads hposted => hgoes (by rw [hwaits, hreads, hposted]; rfl), fun hbusy => hstays ?_⟩
  rw [hwaits, bne_iff_ne]
  obtain hreads | hposted := hbusy
  · omega
  · have hlen := List.length_pos_iff.2 hposted
    omega

theorem runOp_waitl {b : Nat} (hb : b < 16) :
    ((s.lineBuf i b).line = none → ((s.runOp i (seqCount 10 b)).thr i).upc = ((s.thr i).upc + 1) % 16384) ∧
      ((s.lineBuf i b).line ≠ none → s.runOp i (seqCount 10 b) = s) := by
  have h : SeqFits 10 0 0 b := ⟨by decide, by decide, by decide, by omega⟩
  obtain ⟨hgoes, hstays⟩ := runOp_waiting hp h (.inr rfl)
  rw [← seqCount_eq] at hgoes hstays
  have hwaits : s.uWaits i (seqCount 10 b) = (s.lineBuf i b).line.isSome := by
    rw [seqCount_eq, uWaits_seqCond h, Nat.mod_eq_of_lt hb]
    simp
  refine ⟨fun hline => hgoes (by rw [hwaits, hline]; rfl), fun hline => hstays ?_⟩
  rw [hwaits]
  exact Option.isSome_iff_ne_none.2 hline

end waiting

section settle
variable {i : Fin 32} {s : State}

/-- What the branches on one condition do. -/
def Branches (s : State) (i : Fin 32) (cond : Fin 64) (buf : Fin 16) (target : BitVec 14) (b : Bool) : Prop :=
  (∃ u, exec (.uBrc i cond buf target) s = .next u ∧
    (u.thr i.val).upc = if b then target.toNat else ((s.thr i.val).upc + 1) % 16384) ∧
  (∃ u, exec (.uBrnc i cond buf target) s = .next u ∧
    (u.thr i.val).upc = if b then ((s.thr i.val).upc + 1) % 16384 else target.toNat)

theorem branches_of_test {cond : Fin 64} {buf : Fin 16} (hr : s.inRoutine i.val = true)
    (hc : [0, 1, 2, 3, 4, 5, 8, 9, 10].contains cond.val = true) (target : BitVec 14) {b : Bool}
    (hb : ∀ d w, uCond w = cond.val → uBuf w = buf.val → ({ s with draws := d }.uTest i.val w).2 = b) : Branches s i cond buf target b := by
  refine ⟨⟨_, rfl, ?_⟩, ⟨_, rfl, ?_⟩⟩
  · obtain ⟨d, w, hw, hwb, hupc⟩ := upc_branch hr target.isLt hc buf.isLt
    rw [hb d w hw hwb] at hupc
    exact hupc
  · obtain ⟨d, w, hw, hwb, hupc⟩ := upc_branch_not hr target.isLt hc buf.isLt
    rw [hb d w hw hwb] at hupc
    exact hupc

/-- Whatever is tested, a branch is taken or not. -/
theorem branches_either {cond : Fin 64} {buf : Fin 16} (hr : s.inRoutine i.val = true)
    (hc : [0, 1, 2, 3, 4, 5, 8, 9, 10].contains cond.val = true) (target : BitVec 14) :
    (∃ u, exec (.uBrc i cond buf target) s = .next u ∧
      ((u.thr i.val).upc = target.toNat ∨ (u.thr i.val).upc = ((s.thr i.val).upc + 1) % 16384)) ∧
    (∃ u, exec (.uBrnc i cond buf target) s = .next u ∧
      ((u.thr i.val).upc = target.toNat ∨ (u.thr i.val).upc = ((s.thr i.val).upc + 1) % 16384)) := by
  refine ⟨⟨_, rfl, ?_⟩, ⟨_, rfl, ?_⟩⟩
  · obtain ⟨d, w, -, -, hupc⟩ := upc_branch hr target.isLt hc buf.isLt
    exact (ite_eq_or_eq _ _ _).imp hupc.trans hupc.trans
  · obtain ⟨d, w, -, -, hupc⟩ := upc_branch_not hr target.isLt hc buf.isLt
    exact ((ite_eq_or_eq _ _ _).imp hupc.trans hupc.trans).symm

end settle

end State

open State

/-- Settles O37: each operation by what its slot does of a word that is checked and waits for nothing. -/
theorem sequenceMicroOpsSteerTheRoutine : Obligations.SequenceMicroOpsSteerTheRoutine := by
  intro i s x next
  have fits {op : Nat} (hop : op ≤ 11) {n : Nat} (hn : n < 2 ^ 14) : SeqFits op 0 0 n := ⟨hop, by decide, by decide, hn⟩
  refine ⟨fun hr => ⟨?_, ?_, ?_, ?_, ?_, ?_, ?_, ?_, ?_, ?_, ?_⟩, fun hp => ⟨?_, ?_, ?_⟩, fun hp => ⟨?_, ?_, ?_, ?_, ?_, ?_⟩⟩
  · obtain ⟨n, hn⟩ := thr_counted s i.val
    refine ⟨_, congrArg Host.Outcome.next (runOp_next hr), ?_, ?_⟩ <;> rw [thr_uGoTo, hn]
  · exact fun target => ⟨_, rfl, upc_br hr target.isLt⟩
  · intro cond buf target hc taken
    have htaken : taken = flagTest x cond.val := rfl
    have hlisted : [0, 1, 2, 3, 4, 5, 8, 9, 10].contains cond.val = true := by
      rw [List.contains_iff_mem]
      simp only [List.mem_cons, List.not_mem_nil, or_false]
      omega
    rw [htaken]
    exact branches_of_test hr hlisted target fun d w hw _ => uTest_flag (s := { s with draws := d }) hw hc
  · refine fun buf target => ⟨fun hline => ?_, fun e l hfifo => ?_, fun k hk => ?_⟩
    · exact branches_of_test hr rfl target fun d w hw hb => uTest_poison (s := { s with draws := d }) hw hb hline
    · exact branches_of_test hr rfl target fun d w hw _ => uTest_head (s := { s with draws := d }) hw hfifo
    · exact branches_either hr (by obtain rfl | rfl := hk <;> rfl) target
  · intro cond buf target hc
    have hunlisted : [0, 1, 2, 3, 4, 5, 8, 9, 10].contains cond.val = false := by
      rw [← Bool.not_eq_true, List.contains_iff_mem]
      simp only [List.mem_cons, List.not_mem_nil, or_false]
      omega
    have hfits {op : Nat} (hop : op ≤ 11) : SeqFits op cond.val buf.val target.toNat := ⟨hop, cond.isLt, buf.isLt, target.isLt⟩
    exact ⟨congrArg Host.Outcome.next (runOp_branch_unlisted hr (hfits (by decide)) (.inl rfl) hunlisted),
      congrArg Host.Outcome.next (runOp_branch_unlisted hr (hfits (by decide)) (.inr rfl) hunlisted)⟩
  · exact fun target hroom => ⟨_, rfl, thr_callu hr target.isLt hroom⟩
  · intro target hfull
    have hrun := runOp_stack_fault hr (fits (by decide) target.isLt) (.inl ⟨rfl, hfull⟩)
    rw [← seqTarget_eq] at hrun
    exact congrArg Host.Outcome.next hrun
  · exact fun r l hs => ⟨_, rfl, thr_retu hr hs⟩
  · intro hs
    have hrun := runOp_stack_fault hr (fits (by decide) (show 0 < 2 ^ 14 by decide)) (.inr ⟨rfl, hs⟩)
    rw [← seqWord_eq] at hrun
    exact congrArg Host.Outcome.next hrun
  · obtain ⟨⟨hlock, hreserved, hheld⟩, hstate⟩ := end_releases hr i.isLt
    exact ⟨_, rfl, hlock, hreserved, hheld, hstate⟩
  · obtain ⟨hstate, hline⟩ := faulted_thFault (s := s) i.isLt 9
    exact ⟨_, congrArg Host.Outcome.next (runOp_stopu hr), hstate, hline, cause_thFault i.isLt (by decide)⟩
  · have hrun := runOp_seqCond_post hp (fits (by decide) (show 0 < 2 ^ 14 by decide)) (by decide) (.inr (.inl rfl))
    rw [← seqWord_eq] at hrun
    exact congrArg Host.Outcome.next hrun
  · intro b
    have hrun := runOp_seqCond_post (op := 10) hp (fits (by decide) (show b.val < 2 ^ 14 by omega)) (by decide) (.inr (.inr rfl))
    rw [← seqCount_eq] at hrun
    exact congrArg Host.Outcome.next hrun
  · intro n hn
    have hrun {op : Nat} (hop : op = 6 ∨ op = 7) := runOp_seqCond_post (op := op) hp
      (fits (by omega) (show n.val < 2 ^ 14 by omega)) (by obtain rfl | rfl := hop <;> decide) (.inl (by omega))
    simp only [← seqCount_eq] at hrun
    exact ⟨congrArg Host.Outcome.next (hrun (.inl rfl)), congrArg Host.Outcome.next (hrun (.inr rfl))⟩
  · intro n hn hroom
    have hpost {op : Nat} (hop : op = 6 ∨ op = 7) := thr_postOf_commit hp hn hroom hop
    obtain ⟨h6, hallowed6, hafter6, hupc6, hcursor6, hfifo6, -⟩ := hpost (.inl rfl)
    obtain ⟨h7, hallowed7, -, hupc7, hcursor7, hfifo7, hctx⟩ := hpost (.inr rfl)
    exact ⟨⟨_, rfl, h6, hallowed6, hafter6, hupc6, hcursor6, hfifo6⟩, ⟨_, rfl, h7, hallowed7, hupc7, hcursor7, hfifo7, hctx rfl⟩⟩
  · intro n hn hroom
    exact ⟨congrArg Host.Outcome.next (runOp_commit_waits hp hn hroom (.inl rfl)),
      congrArg Host.Outcome.next (runOp_commit_waits hp hn hroom (.inr rfl))⟩
  · exact fun hreads hposted => ⟨_, rfl, (runOp_fence hp).1 hreads hposted⟩
  · exact fun hbusy => congrArg Host.Outcome.next ((runOp_fence hp).2 hbusy)
  · exact fun b hline => ⟨_, rfl, (runOp_waitl hp b.isLt).1 hline⟩
  · exact fun b hline => congrArg Host.Outcome.next ((runOp_waitl hp b.isLt).2 hline)

end Sys2Proof.Machine
end

section
/-! SUPPORT. Device memory as the host reads and writes it (R359 to R369, R248). -/

namespace Sys2Proof.Machine

/-! ### Operations that leave the memory -/

/-- The bytes, the single-bit errors and the stacks that answer are the same in both states. -/
structure KeepsMemory (s u : State) : Prop where
  mem : u.mem = s.mem
  single : u.single = s.single
  stat : u.reg GL_MEM_STAT = s.reg GL_MEM_STAT

namespace KeepsMemory

variable {a s : State}

theorem refl (s : State) : KeepsMemory s s := ⟨rfl, rfl, rfl⟩

theorem trans {u : State} (h : KeepsMemory a s) (k : KeepsMemory s u) : KeepsMemory a u :=
  ⟨k.mem.trans h.mem, k.single.trans h.single, k.stat.trans h.stat⟩

/-- A register behind that of the stacks is written. -/
theorem put (h : KeepsMemory a s) {f : Field} {v : Nat} (hf : GL_MEM_STAT < f.addr) : KeepsMemory a (s.put f v) :=
  h.trans ⟨rfl, rfl, State.reg_put_other s f v (Nat.ne_of_lt hf)⟩

theorem mark (h : KeepsMemory a s) {f : Field} (hf : GL_MEM_STAT < f.addr) : KeepsMemory a (s.mark f) := h.put hf
theorem bump (h : KeepsMemory a s) {f : Field} (hf : GL_MEM_STAT < f.addr) : KeepsMemory a (s.bump f) := h.put hf
theorem bumpBy (h : KeepsMemory a s) {f : Field} {n : Nat} (hf : GL_MEM_STAT < f.addr) : KeepsMemory a (s.bumpBy f n) := h.put hf

theorem source (h : KeepsMemory a s) {n : Nat} : KeepsMemory a (s.source n) := by
  obtain ⟨r, o, e⟩ := s.source_beside n
  exact h.trans ⟨by rw [e], by rw [e], State.reg_source_low s n (by decide)⟩

theorem raiseLine (h : KeepsMemory a s) {b : Nat} : KeepsMemory a (s.raiseLine b) := by
  obtain ⟨l, e⟩ := s.raiseLine_beside b
  exact h.trans ⟨by rw [e], by rw [e], by rw [State.reg_raiseLine]⟩

theorem ite {c : Prop} [Decidable c] {x y : State} (hx : KeepsMemory a x) (hy : KeepsMemory a y) : KeepsMemory a (if c then x else y) := by
  split <;> assumption

theorem ite_fst {β : Type} {c : Prop} [Decidable c] {x y : State × β} (hx : KeepsMemory a x.1) (hy : KeepsMemory a y.1) :
    KeepsMemory a (if c then x else y).1 := by
  split <;> assumption

theorem foldl {β : Type} {f : State → β → State} (h : KeepsMemory a s) (l : List β) (hf : ∀ s x, KeepsMemory s (f s x)) :
    KeepsMemory a (l.foldl f s) := by
  induction l generalizing s with
  | nil => exact h
  | cons x r ih => exact ih (h.trans (hf s x))

theorem foldl_fst {β γ : Type} {f : State × γ → β → State × γ} {p : State × γ} (h : KeepsMemory a p.1) (l : List β)
    (hf : ∀ p x, KeepsMemory p.1 (f p x).1) : KeepsMemory a (l.foldl f p).1 := by
  induction l generalizing p with
  | nil => exact h
  | cons x r ih => exact ih (h.trans (hf p x))

theorem inject (h : KeepsMemory a s) {c : Checker} {unit : Nat} : KeepsMemory a (s.inject c unit).1 := by
  have hbump : KeepsMemory a (s.bump FC_INJ_STAT_HITS) := h.bump (by decide)
  exact ite_fst h (ite_fst hbump (((hbump.put (f := FC_INJ_STAT_ARMED) (by decide)).mark (f := FC_INJ_STAT_DONE) (by decide)).source))

/-- A sheaf's registers lie behind that of the stacks. -/
theorem lt_sheaf (u o : Nat) : GL_MEM_STAT < shBase u + o := by
  unfold GL_MEM_STAT shBase
  omega

/-- A DRAM line is read (R365). -/
theorem lineCheck (h : KeepsMemory a s) {b n : Nat} : KeepsMemory a (s.lineCheck b n).1 := by
  refine h.trans ?_
  have hecc : GL_MEM_STAT < SH_MEM_ECC (groupOf b) := lt_sheaf _ _
  have herr : GL_MEM_STAT < SH_MEM_ERRADDR (groupOf b) := lt_sheaf _ _
  unfold State.lineCheck
  dsimp only
  have hcorr (k : Nat) : KeepsMemory s (if k = 0 then (s.inject .dram (groupOf b)).1
      else ((s.inject .dram (groupOf b)).1.bumpBy (SH_MEM_ECC_CORR (groupOf b)) k).source (1024 + 8 * groupOf b + 6)) :=
    ite (refl s).inject (((refl s).inject.bumpBy (f := SH_MEM_ECC_CORR _) hecc).source)
  exact ite_fst (hcorr _) (((((hcorr _).bump (f := SH_MEM_ECC_UNCORR _) hecc).mark (f := SH_MEM_ERRADDR_VALID _) herr).put
    (f := SH_MEM_ERRADDR_LINE _) herr).source.raiseLine)

theorem storeCheck (h : KeepsMemory a s) {w : Nat} : KeepsMemory a (s.storeCheck w).1 := by
  unfold State.storeCheck
  dsimp only
  split <;> exact h.inject

theorem hostRead (h : KeepsMemory a s) {b n : Nat} : KeepsMemory a (s.hostRead b n).1 :=
  ite_fst h (ite_fst (foldl_fst (p := (s, false)) h _ fun _ _ => (refl _).lineCheck) (foldl_fst (p := (s, false)) h _ fun _ _ => (refl _).storeCheck))

theorem aer (h : KeepsMemory a s) {e : AerError} : KeepsMemory a (s.aer e) := by
  have hlog : KeepsMemory a { s with hostConfig := { s.hostConfig with aer := s.hostConfig.aer ++ [e] } } := h.trans ⟨rfl, rfl, rfl⟩
  exact hlog.source

theorem denyCtx (h : KeepsMemory a s) {us : List Nat} : KeepsMemory a (s.denyCtx us) :=
  h.foldl us fun q u => ((refl q).mark (f := SH_CTX_STAT_WR_DENIED u) (lt_sheaf _ _)).source

section consequences
variable {u : State} (h : KeepsMemory s u)
include h

theorem byteAt (b : Nat) : u.byteAt b = s.byteAt b := by rw [State.byteAt, h.mem, State.byteAt]

theorem answers (b : Nat) : u.answers b = s.answers b := by
  have hw : u.on GL_MEM_STAT_W_READY = s.on GL_MEM_STAT_W_READY := State.on_eq_of_get (State.get_eq_of_reg h.stat)
  have he : u.on GL_MEM_STAT_E_READY = s.on GL_MEM_STAT_E_READY := State.on_eq_of_get (State.get_eq_of_reg h.stat)
  unfold State.answers State.stackReady
  rw [hw, he]

theorem memBytes (b n : Nat) : u.memBytes b n = s.memBytes b n := by
  unfold State.memBytes
  simp only [h.answers, h.byteAt]

end consequences

end KeepsMemory

namespace State

/-! ### Bytes are written (R360) -/

section bytes
variable {f : Nat → Nat} {l : List (Nat × Nat)} (hl : ∀ b ∈ l, b.2 = f b.1)
include hl

/-- Bytes that an address determines, one after the other. -/
theorem byteAt_setBytes (s : State) (x : Nat) : (l.foldl (fun s b => s.setByte b.1 (BitVec.ofNat 8 b.2)) s).byteAt x =
    if x ∈ l.map Prod.fst then BitVec.ofNat 8 (f x) else s.byteAt x := by
  induction l generalizing s with
  | nil => rfl
  | cons b l ih =>
    rw [List.foldl_cons, ih (fun c hc => hl c (List.mem_cons_of_mem _ hc)), byteAt_setByte, List.map_cons]
    by_cases hx : x = b.1
    · simp [hx, hl b (List.mem_cons_self ..)]
    · rw [if_neg hx]
      exact if_congr (by simp [hx]) rfl rfl

/-- One protected word takes the bytes that lie in it. -/
theorem byteAt_writeWord (s : State) (w : Nat) (p : Bool) (x : Nat) : (s.writeWord w l p).byteAt x =
    if wordBase x = w ∧ x ∈ l.map Prod.fst then BitVec.ofNat 8 (f x) else s.byteAt x := by
  have hread : KeepsMemory s (if (l.filter (fun b => wordBase b.1 = w)).length = wordBytes w then (s, false)
      else if regionOf w = .dram then s.lineCheck w 8 else s.storeCheck w).1 :=
    KeepsMemory.ite_fst (.refl s) (KeepsMemory.ite_fst (KeepsMemory.refl s).lineCheck (KeepsMemory.refl s).storeCheck)
  have hhere : x ∈ (l.filter (fun b => wordBase b.1 = w)).map Prod.fst ↔ wordBase x = w ∧ x ∈ l.map Prod.fst := by
    simp only [List.mem_map, List.mem_filter, decide_eq_true_eq]
    constructor
    · rintro ⟨b, ⟨hb, hw⟩, rfl⟩
      exact ⟨hw, b, hb, rfl⟩
    · rintro ⟨hw, b, hb, rfl⟩
      exact ⟨b, ⟨hb, hw⟩, rfl⟩
  have hbytes := byteAt_setBytes (l := l.filter (fun b => wordBase b.1 = w)) (f := f) (fun b hb => hl b (List.mem_of_mem_filter hb))
    (if (l.filter (fun b => wordBase b.1 = w)).length = wordBytes w then (s, false)
      else if regionOf w = .dram then s.lineCheck w 8 else s.storeCheck w).1 x
  rw [hread.byteAt, if_congr hhere rfl rfl] at hbytes
  exact hbytes

theorem byteAt_writeWords (ws : List Nat) (s : State) (p : Bool) (x : Nat) : (ws.foldl (fun s w => s.writeWord w l p) s).byteAt x =
    if wordBase x ∈ ws ∧ x ∈ l.map Prod.fst then BitVec.ofNat 8 (f x) else s.byteAt x := by
  induction ws generalizing s with
  | nil => simp
  | cons w ws ih =>
    rw [List.foldl_cons, ih, byteAt_writeWord hl]
    by_cases hx : x ∈ l.map Prod.fst
    · by_cases hw : wordBase x = w
      · simp only [hx, hw, List.mem_cons, true_or, and_true, if_true, ite_self]
      · simp only [hx, hw, List.mem_cons, false_or, and_true, if_false]
    · simp only [hx, and_false, if_false]

end bytes

section memWrite
variable (s : State) (a : Nat) (data : List (Option Nat))

/-- The enabled bytes of a write, with their addresses. -/
def enabledBytes : List (Nat × Nat) := (data.zip (List.range data.length)).filterMap (fun d => d.1.map (fun v => (a + d.2, v)))

theorem mem_enabledBytes {b : Nat × Nat} : b ∈ enabledBytes a data ↔ ∃ k, data[k]? = some (some b.2) ∧ a + k = b.1 := by
  have hzip (d : Option Nat × Nat) : d ∈ data.zip (List.range data.length) ↔ data[d.2]? = some d.1 := by
    rw [List.range_eq_range', ← List.zipIdx_eq_zip_range', List.mem_zipIdx_iff_getElem?]
  simp only [enabledBytes, List.mem_filterMap, hzip, Option.map_eq_some_iff]
  constructor
  · rintro ⟨d, hd, v, hv, rfl⟩
    exact ⟨d.2, hv ▸ hd, rfl⟩
  · rintro ⟨k, hk, hb⟩
    exact ⟨(some b.2, k), hk, b.2, rfl, Prod.ext hb rfl⟩

/-- The byte a write gives an address. -/
def byteFor (x : Nat) : Option Nat := data.getD (x - a) none

/-- The enabled bytes that something takes. -/
def liveBytes : List (Nat × Nat) := (enabledBytes a data).filter (fun b => s.answers b.1)

theorem memWrite_eq (p : Bool) : s.memWrite a data p =
    ((s.liveBytes a data).map (fun b => wordBase b.1)).eraseDups.foldl (fun q w => q.writeWord w (s.liveBytes a data) p) s := rfl

theorem mem_liveBytes {b : Nat × Nat} : b ∈ s.liveBytes a data ↔
    (a ≤ b.1 ∧ b.1 < a + data.length ∧ s.answers b.1 = true) ∧ byteFor a data b.1 = some b.2 := by
  rw [liveBytes, List.mem_filter, mem_enabledBytes, byteFor, List.getD_eq_getElem?_getD]
  constructor
  · rintro ⟨⟨k, hk, hb⟩, hans⟩
    have hlt := (List.getElem?_eq_some_iff.1 hk).1
    rw [← hb, Nat.add_sub_cancel_left, hk]
    exact ⟨⟨by omega, by omega, hb ▸ hans⟩, rfl⟩
  · rintro ⟨⟨ha, hlt, hans⟩, hv⟩
    refine ⟨⟨b.1 - a, ?_, by omega⟩, hans⟩
    rw [List.getElem?_eq_getElem (by omega)] at hv ⊢
    exact congrArg some hv

theorem mem_fst_liveBytes {x : Nat} : x ∈ (s.liveBytes a data).map Prod.fst ↔
    (a ≤ x ∧ x < a + data.length ∧ s.answers x = true) ∧ (byteFor a data x).isSome = true := by
  rw [List.mem_map]
  constructor
  · rintro ⟨b, hb, rfl⟩
    obtain ⟨hx, hv⟩ := (mem_liveBytes s a data).1 hb
    exact ⟨hx, by rw [hv]; rfl⟩
  · rintro ⟨hx, hsome⟩
    obtain ⟨v, hv⟩ := Option.isSome_iff_exists.1 hsome
    exact ⟨(x, v), (mem_liveBytes s a data).2 ⟨hx, hv⟩, rfl⟩

/-- Where the byte is enabled and the address answers it is stored; every other byte stays. -/
theorem byteAt_memWrite (p : Bool) (x : Nat) : (s.memWrite a data p).byteAt x =
    if a ≤ x ∧ x < a + data.length ∧ s.answers x = true then ((byteFor a data x).map (BitVec.ofNat 8)).getD (s.byteAt x) else s.byteAt x := by
  have hvalue : ∀ b ∈ s.liveBytes a data, b.2 = (byteFor a data b.1).getD 0 := fun b hb => by
    rw [((mem_liveBytes s a data).1 hb).2, Option.getD_some]
  have hword : wordBase x ∈ ((s.liveBytes a data).map (fun b => wordBase b.1)).eraseDups ∧ x ∈ (s.liveBytes a data).map Prod.fst ↔
      (a ≤ x ∧ x < a + data.length ∧ s.answers x = true) ∧ (byteFor a data x).isSome = true := by
    rw [mem_fst_liveBytes, and_iff_right_iff_imp, List.mem_eraseDups, List.mem_map, ← mem_fst_liveBytes, List.mem_map]
    rintro ⟨b, hb, rfl⟩
    exact ⟨b, hb, rfl⟩
  rw [memWrite_eq, byteAt_writeWords (f := fun x => (byteFor a data x).getD 0) hvalue, if_congr hword rfl rfl]
  by_cases hx : a ≤ x ∧ x < a + data.length ∧ s.answers x = true
  · rw [if_pos hx]
    cases byteFor a data x <;> simp [hx]
  · rw [if_neg hx, if_neg fun e => hx e.1]

end memWrite

/-! ### A write through BAR2 (R248, R360) -/

theorem regionOf_context {a : Nat} : regionOf a = .context ↔ 0x401000000 ≤ a ∧ a < 0x401400000 := by
  unfold regionOf
  split
  · simp only [reduceCtorEq, false_iff]
    omega
  · split
    · simp only [reduceCtorEq, false_iff]
      omega
    · split
      · simp only [true_iff]
        omega
      · simp only [reduceCtorEq, false_iff]
        omega

section bar
variable (s : State) (a : Nat) (data : List (Option Nat))

/-- What is left of a write once the context slices that refuse it are left out. -/
def taken : List (Option Nat) :=
  (data.zip (List.range data.length)).map (fun d => if regionOf (a + d.2) = .context && !s.ctxOpen (a + d.2) then none else d.1)

/-- The state in which it is carried out. -/
def barState (ep : Bool) : State :=
  (if ep then (s.bump LK_PCIE_ERR_POISON_RX).aer .poisonedReceived else s).denyCtx (s.ctxDenied a data.length)

theorem bar2Write_eq (ep : Bool) : s.bar2Write a data ep = (s.barState a data ep).memWrite a (s.taken a data) ep := rfl

theorem length_taken : (s.taken a data).length = data.length := by simp [taken]

theorem byteFor_taken {x : Nat} (hx : a ≤ x) :
    byteFor a (s.taken a data) x = if regionOf x = .context && !s.ctxOpen x then none else byteFor a data x := by
  have hget : (s.taken a data)[x - a]? = data[x - a]?.map (fun v => if regionOf x = .context && !s.ctxOpen x then none else v) := by
    rw [taken, List.range_eq_range', ← List.zipIdx_eq_zip_range', List.getElem?_map, List.getElem?_zipIdx, Option.map_map]
    refine congrArg (Option.map · _) (funext fun v => ?_)
    simp only [Function.comp, Nat.zero_add, Nat.add_sub_cancel' hx]
  rw [byteFor, byteFor, List.getD_eq_getElem?_getD, List.getD_eq_getElem?_getD, hget]
  cases data[x - a]? with
  | none => exact (ite_self _).symm
  | some v => rfl

theorem barState_keeps (ep : Bool) : KeepsMemory s (s.barState a data ep) := by
  refine KeepsMemory.denyCtx (KeepsMemory.ite ?_ (.refl s))
  exact ((KeepsMemory.refl s).bump (f := LK_PCIE_ERR_POISON_RX) (by decide)).aer

/-- Outside the context store, the enabled bytes are stored where the address answers. -/
theorem byteAt_bar2Write (ep : Bool) (h : ∀ i, i < data.length → regionOf (a + i) ≠ .context) (x : Nat) : (s.bar2Write a data ep).byteAt x =
    if a ≤ x ∧ x < a + data.length ∧ s.answers x = true then ((byteFor a data x).map (BitVec.ofNat 8)).getD (s.byteAt x) else s.byteAt x := by
  have hkeeps := barState_keeps s a data ep
  rw [bar2Write_eq, byteAt_memWrite, length_taken, hkeeps.answers, hkeeps.byteAt]
  by_cases hx : a ≤ x ∧ x < a + data.length ∧ s.answers x = true
  · obtain ⟨ha, hlt, -⟩ := hx
    have hregion := h (x - a) (by omega)
    rw [Nat.add_sub_cancel' ha] at hregion
    have hopen : ¬(regionOf x = .context && !s.ctxOpen x) = true := by simp [hregion]
    rw [byteFor_taken s a data ha, if_neg hopen]
  · rw [if_neg hx, if_neg hx]

/-- A write that every slice refuses writes nothing. -/
theorem bar2Write_denied (ep : Bool) (h : ∀ i, i < data.length → regionOf (a + i) = .context ∧ s.ctxOpen (a + i) = false) :
    s.bar2Write a data ep = s.barState a data ep := by
  have hnone : (s.barState a data ep).liveBytes a (s.taken a data) = [] := by
    refine List.eq_nil_iff_forall_not_mem.2 fun b hb => ?_
    obtain ⟨⟨ha, hlt, -⟩, hv⟩ := (mem_liveBytes _ _ _).1 hb
    rw [length_taken] at hlt
    obtain ⟨hregion, hopen⟩ := h (b.1 - a) (by omega)
    rw [Nat.add_sub_cancel' ha] at hregion hopen
    rw [byteFor_taken s a data ha, if_pos (by simp [hregion, hopen])] at hv
    exact absurd hv.symm (Option.some_ne_none _)
  rw [bar2Write_eq, memWrite_eq, hnone]
  rfl

/-- The slices that refuse are those of the chip's sheaves. -/
theorem lt_of_mem_ctxDenied {n u : Nat} (h : u ∈ s.ctxDenied a n) : u < 16 := by
  unfold State.ctxDenied at h
  rw [List.mem_eraseDups, List.mem_map] at h
  obtain ⟨l, hl, rfl⟩ := h
  have hregion := (List.mem_filter.1 hl).2
  rw [Bool.and_eq_true, decide_eq_true_eq, regionOf_context] at hregion
  omega

/-- The slice of the first byte is among those that refuse. -/
theorem mem_ctxDenied {n : Nat} (hn : n ≠ 0) (hr : regionOf a = .context) (ho : s.ctxOpen a = false) :
    (a - 0x401000000) / 0x40000 ∈ s.ctxDenied a n := by
  have hrange := regionOf_context.1 hr
  have hslice : (64 * (a / 64) - 0x401000000) / 0x40000 = (a - 0x401000000) / 0x40000 := by omega
  have hline : regionOf (64 * (a / 64)) = .context := regionOf_context.2 (by omega)
  have hclosed : s.ctxOpen (64 * (a / 64)) = false := by
    rw [← ho, State.ctxOpen, State.ctxOpen, hslice]
  unfold State.ctxDenied
  rw [List.mem_eraseDups, List.mem_map]
  refine ⟨64 * (a / 64), List.mem_filter.2 ⟨?_, by simp [hline, hclosed]⟩, hslice⟩
  rw [linesIn, if_neg hn, List.mem_map]
  exact ⟨0, List.mem_range.2 (Nat.succ_pos _), rfl⟩

end bar

/-- A refusal is marked, and stays marked. -/
theorem denied_denyCtx {us : List Nat} (hus : ∀ u ∈ us, u < 16) {s : State} {u : Nat} (hu : u < 16)
    (h : u ∈ us ∨ s.on (SH_CTX_STAT_WR_DENIED u) = true) : (s.denyCtx us).on (SH_CTX_STAT_WR_DENIED u) = true := by
  induction us generalizing s with
  | nil => exact h.resolve_left List.not_mem_nil
  | cons v us ih =>
    refine ih (fun w hw => hus w (List.mem_cons_of_mem _ hw)) ?_
    have hv := hus v (List.mem_cons_self ..)
    have hsource : ((s.mark (SH_CTX_STAT_WR_DENIED v)).source (1024 + 8 * v + 4)).on (SH_CTX_STAT_WR_DENIED u) =
        (s.mark (SH_CTX_STAT_WR_DENIED v)).on (SH_CTX_STAT_WR_DENIED u) := by
      refine on_eq_of_get (get_eq_of_reg (reg_source _ _ ?_ ?_ ?_))
      · unfold SH_CTX_STAT_WR_DENIED SH_CTX_STAT shBase EV_PEND
        dsimp only
        omega
      · unfold SH_CTX_STAT_WR_DENIED SH_CTX_STAT shBase msixPending
        dsimp only
        omega
      · unfold SH_CTX_STAT_WR_DENIED SH_CTX_STAT shBase msixPending
        dsimp only
        omega
    by_cases huv : u = v
    · refine .inr (hsource.trans ?_)
      rw [huv]
      exact on_mark_of_fits _ rfl
    · obtain hmem | hon := h
      · exact .inl ((List.mem_cons.1 hmem).resolve_left huv)
      · refine .inr (hsource.trans ((on_eq_of_get (get_put_other _ _ ?_)).trans hon))
        unfold SH_CTX_STAT_WR_DENIED SH_CTX_STAT shBase
        dsimp only
        omega

end State

end Sys2Proof.Machine
end

section
/-! SUPPORT. The host link, its interrupts and the stacks (R367, R368, R371, R415), and O51 settled. -/

namespace Sys2Proof.Machine

namespace State

/-! ### Stacks are cleared and scrubbed (R367, R368) -/

section dram
variable (s : State)

/-- Whose bytes are dropped read 0. -/
theorem byteAt_of_dropped {u : State} {p : Nat → Bool} (h : u.mem = storeKeep (fun a => !p a) s.mem) (a : Nat) :
    u.byteAt a = if p a = true then 0 else s.byteAt a := by
  rw [State.byteAt, h, storeGet_storeKeep]
  cases p a <;> rfl

theorem byteAt_dramInitDone_west (a : Nat) : (s.dramInitDone false).byteAt a = if a < 0x200000000 then 0 else s.byteAt a :=
  (byteAt_of_dropped s (p := fun a => decide (a < 0x200000000)) rfl a).trans (if_congr decide_eq_true_iff rfl rfl)

theorem byteAt_dramInitDone_east (a : Nat) :
    (s.dramInitDone true).byteAt a = if 0x200000000 ≤ a ∧ a < 0x400000000 then 0 else s.byteAt a :=
  (byteAt_of_dropped s (p := fun a => decide (0x200000000 ≤ a ∧ a < 0x400000000)) rfl a).trans (if_congr decide_eq_true_iff rfl rfl)

theorem on_modPower (f : Power → Power) : (s.modPower f).on = s.on := rfl
theorem byteAt_modPower (f : Power → Power) : (s.modPower f).byteAt = s.byteAt := rfl

theorem on_dramInitDone (east : Bool) : (s.dramInitDone east).on (if east then GL_MEM_STAT_E_READY else GL_MEM_STAT_W_READY) = true := by
  unfold State.dramInitDone
  exact on_mark_of_fits _ (by cases east <;> rfl)

variable (u : Nat)

theorem scrubPass_off (h : s.on (SH_MEM_SCRUB_EN u) = false) : s.scrubPass u = s := by simp [State.scrubPass, h]

/-- The lines of a group are read one after the other. -/
def scrubbed (l : List Nat) : State := l.foldl (fun s l => (s.lineCheck l 64).1) s

theorem scrubbed_keeps (l : List Nat) : KeepsMemory s (s.scrubbed l) :=
  (KeepsMemory.refl s).foldl l fun q _ => (KeepsMemory.refl q).lineCheck

theorem scrubPass_eq (h : s.on (SH_MEM_SCRUB_EN u) = true) : ∃ l, s.scrubPass u = { s.scrubbed l with
    single := (s.scrubbed l).single.filter (fun a => !(regionOf a = .dram && groupOf a = u && s.answers a)) } := by
  unfold State.scrubPass
  rw [if_neg (by simp [h])]
  exact ⟨_, rfl⟩

/-- A pass leaves no single-bit error of its group. -/
theorem scrubPass_on (h : s.on (SH_MEM_SCRUB_EN u) = true) : (s.scrubPass u).mem = s.mem ∧
    ∀ a ∈ (s.scrubPass u).single, a ∈ s.single ∧ ¬(regionOf a = .dram ∧ groupOf a = u ∧ s.answers a = true) := by
  obtain ⟨l, e⟩ := scrubPass_eq s u h
  have hkeeps := scrubbed_keeps s l
  rw [e]
  refine ⟨hkeeps.mem, fun a ha => ?_⟩
  obtain ⟨hsingle, hnot⟩ := List.mem_filter.1 ha
  rw [hkeeps.single] at hsingle
  refine ⟨hsingle, fun ⟨hregion, hgroup, hans⟩ => ?_⟩
  rw [decide_eq_true hregion, decide_eq_true hgroup, hans] at hnot
  exact Bool.false_ne_true hnot

end dram
/-! ### The link and the port (R371, R392, R416) -/

section port
variable (s : State)

theorem reg_hostPortReset (a : Nat) : s.hostPortReset.reg a = if 0x80000 ≤ a ∧ a < 0x82000 then resetWord a else s.reg a :=
  (reg_clearRegs s hostPortReg a).trans (if_congr decide_eq_true_iff rfl rfl)

theorem reg_link_source (n : Nat) (hn : n < 2048) : (s.source n).reg LK_PCIE_STAT = s.reg LK_PCIE_STAT :=
  reg_source s n (by unfold LK_PCIE_STAT EV_PEND; omega) (by decide) (by decide)

/-- A source's bit stands once it has fired. -/
theorem fbit_source {n : Nat} (hn : n < 2048) : (s.source n).fbit (EV_PEND_PEND (n / 32)) (n % 32) = true := by
  have hreg : (s.source n).reg (EV_PEND (n / 32)) = (s.putBit (EV_PEND_PEND (n / 32)) (n % 32) true).reg (EV_PEND (n / 32)) := by
    unfold State.source State.vectorsRisen
    split
    · rfl
    · refine reg_sendVectors _ _ ?_ ?_
      · unfold EV_PEND msixPending
        omega
      · unfold EV_PEND msixPending
        omega
  have hget : (s.source n).get (EV_PEND_PEND (n / 32)) = (s.putBit (EV_PEND_PEND (n / 32)) (n % 32) true).get (EV_PEND_PEND (n / 32)) :=
    get_eq_of_reg hreg
  have hbit := fbit_putBit s (f := EV_PEND_PEND (n / 32)) (i := n % 32) true rfl (Nat.mod_lt _ (by decide))
  rwa [State.fbit, ← hget] at hbit

/-- The link trains (R371). -/
theorem pcieLinkUp_trains (h : s.on LK_PCIE_LPBK_EN = false) {speed width : Nat} (hs : speed < 8) (hw : width < 16) :
    (s.pcieLinkUp speed width).on LK_PCIE_STAT_UP = true ∧ (s.pcieLinkUp speed width).get LK_PCIE_STAT_SPEED = speed ∧
      (s.pcieLinkUp speed width).get LK_PCIE_STAT_WIDTH = width ∧ (s.pcieLinkUp speed width).fbit (EV_PEND_PEND 41) 7 = true := by
  have hup : s.pcieLinkUp speed width = (((s.put LK_PCIE_STAT_SPEED speed).put LK_PCIE_STAT_WIDTH width).mark LK_PCIE_STAT_UP).source 1319 :=
    if_neg (by simp [h])
  have hreg := reg_link_source (((s.put LK_PCIE_STAT_SPEED speed).put LK_PCIE_STAT_WIDTH width).mark LK_PCIE_STAT_UP) 1319 (by decide)
  have hmark (g : Field) (ha : g.addr = LK_PCIE_STAT) (hg : g.apart LK_PCIE_STAT_UP = true) :
      (((s.put LK_PCIE_STAT_SPEED speed).put LK_PCIE_STAT_WIDTH width).mark LK_PCIE_STAT_UP).get g =
        ((s.put LK_PCIE_STAT_SPEED speed).put LK_PCIE_STAT_WIDTH width).get g := get_put_apart _ 1 (f := LK_PCIE_STAT_UP) rfl ha hg
  have hkept : ((s.put LK_PCIE_STAT_SPEED speed).put LK_PCIE_STAT_WIDTH width).get LK_PCIE_STAT_SPEED = (s.put LK_PCIE_STAT_SPEED speed).get LK_PCIE_STAT_SPEED :=
    get_put_apart _ width (f := LK_PCIE_STAT_WIDTH) rfl rfl rfl
  have hspeed := (hmark LK_PCIE_STAT_SPEED rfl rfl).trans (hkept.trans ((get_put_of_fits s speed rfl).trans (Nat.mod_eq_of_lt hs)))
  have hwidth := (hmark LK_PCIE_STAT_WIDTH rfl rfl).trans
    ((get_put_of_fits (s.put LK_PCIE_STAT_SPEED speed) width rfl).trans (Nat.mod_eq_of_lt hw))
  rw [hup]
  exact ⟨(on_eq_of_get (get_eq_of_reg hreg)).trans (on_mark_of_fits _ rfl), (get_eq_of_reg hreg).trans hspeed,
    (get_eq_of_reg hreg).trans hwidth, fbit_source _ (n := 1319) (by decide)⟩

/-- It is lost (R416). -/
theorem pcieLinkDown_drops (h : s.on LK_PCIE_STAT_UP = true) : s.pcieLinkDown.on LK_PCIE_STAT_UP = false ∧ 181 ∈ s.pcieLinkDown.lines ∧
    ∀ a, a ≠ LK_PCIE_STAT → s.pcieLinkDown.reg a = s.reg a := by
  have hdown : s.pcieLinkDown = (((s.put LK_PCIE_STAT_UP 0).put LK_PCIE_STAT_SPEED 0).put LK_PCIE_STAT_WIDTH 0).raiseLine 181 := if_pos h
  have hwidth : (((s.put LK_PCIE_STAT_UP 0).put LK_PCIE_STAT_SPEED 0).put LK_PCIE_STAT_WIDTH 0).get LK_PCIE_STAT_UP =
      ((s.put LK_PCIE_STAT_UP 0).put LK_PCIE_STAT_SPEED 0).get LK_PCIE_STAT_UP := get_put_apart _ 0 (f := LK_PCIE_STAT_WIDTH) rfl rfl rfl
  have hspeed : ((s.put LK_PCIE_STAT_UP 0).put LK_PCIE_STAT_SPEED 0).get LK_PCIE_STAT_UP = (s.put LK_PCIE_STAT_UP 0).get LK_PCIE_STAT_UP :=
    get_put_apart _ 0 (f := LK_PCIE_STAT_SPEED) rfl rfl rfl
  have hup : (s.put LK_PCIE_STAT_UP 0).get LK_PCIE_STAT_UP = 0 := get_put_of_fits s 0 rfl
  rw [hdown]
  refine ⟨?_, mem_lines_raiseLine _ _, fun a ha => ?_⟩
  · rw [State.on, get_eq_of_reg (congrFun (reg_raiseLine _ 181) _), hwidth, hspeed, hup]
    rfl
  · rw [reg_raiseLine, reg_put_other _ _ _ ha, reg_put_other _ _ _ ha, reg_put_other _ _ _ ha]

/-! ### Messages sent again (R415) -/

/-- One vector of a mask, or none. -/
theorem sendVectors_one {m k : Nat} (hk : k < 64) (h : ∀ v, m.testBit v = decide (v = k)) : s.sendVectors m = s.sendVector k := by
  have hfold (n : Nat) : (List.range n).foldl (fun s v => if m.testBit v then s.sendVector v else s) s = if k < n then s.sendVector k else s := by
    induction n with
    | zero => rfl
    | succ n ih =>
      rw [List.range_succ, List.foldl_append, ih, List.foldl_cons, List.foldl_nil, h]
      obtain hlt | rfl | hgt := Nat.lt_trichotomy k n
      · simp [hlt, Nat.lt_succ_of_lt hlt, Nat.ne_of_gt hlt]
      · simp
      · simp [Nat.not_lt.2 (Nat.le_of_lt hgt), Nat.ne_of_lt hgt, Nat.not_lt.2 (Nat.succ_le_of_lt hgt)]
  exact (hfold 64).trans (if_pos hk)

theorem sendVectors_zero : s.sendVectors 0 = s := by
  unfold State.sendVectors
  exact List.foldl_fixed' (by simp) _

/-- A vector is rearmed: its message is sent where its summary is 1. -/
theorem vecRearm_one {k : Nat} (hk : k < 64) : s.vecRearm (k / 32) (2 ^ (k % 32)) = if s.vectorMask.testBit k then s.sendVector k else s := by
  have hmask : 2 ^ (k % 32) * 2 ^ (32 * (k / 32)) = 2 ^ k := by rw [← Nat.pow_add, Nat.mod_add_div]
  unfold State.vecRearm
  rw [hmask]
  cases hb : s.vectorMask.testBit k with
  | true =>
    refine (sendVectors_one s hk fun v => ?_).trans (if_pos rfl).symm
    rw [Nat.testBit_and, Nat.testBit_two_pow]
    by_cases hv : v = k
    · simp [hv, hb]
    · simp [hv, Ne.symm hv]
  | false =>
    have hzero : 2 ^ k &&& s.vectorMask = 0 := by
      refine Nat.eq_of_testBit_eq fun v => ?_
      rw [Nat.testBit_and, Nat.testBit_two_pow, Nat.zero_testBit]
      by_cases hv : k = v
      · simp [← hv, hb]
      · simp [hv]
    rw [hzero, sendVectors_zero]
    rfl

end port

/-- The write that rearms a vector (R415). -/
theorem exec_vecRearm {v : View} {s : State} (vec : Fin 64) (hr : s.ready = true) (hv : directView v = true) :
    exec (.vecRearm v vec) s = .next (if s.vectorMask.testBit vec.val then s.sendVector vec.val else s) := by
  have hword : vec.val / 32 = 0 ∨ vec.val / 32 = 1 := by omega
  have hrow : (regAt (EV_VEC_REARM (vec.val / 32))).isSome = true := by
    obtain e | e := hword <;> rw [e] <;> decide +kernel
  have haddr : EV_VEC_REARM (vec.val / 32) % 4 = 0 ∧ isTable (EV_VEC_REARM (vec.val / 32)) = false ∧ isMsix (EV_VEC_REARM (vec.val / 32)) = false := by
    obtain e | e := hword <;> rw [e] <;> decide +kernel
  obtain ⟨h4, ht, hm⟩ := haddr
  have hwrite (w : Nat) : s.writeOwn v (EV_VEC_REARM (vec.val / 32)) w none = s.vecRearm (vec.val / 32) w := by
    obtain e | e := hword
    · rw [e]
      rfl
    · rw [e]
      rfl
  have hcommand : exec (.vecRearm v vec) s = .next (s.regWriteWith v (EV_VEC_REARM (vec.val / 32)) (2 ^ (vec.val % 32)) none) := rfl
  rw [hcommand, regWriteWith_direct s v _ _ none (reachable_of_ready hr _) h4 ht hm hrow hv, hwrite, vecRearm_one s vec.isLt]

/-! ### Reads and writes of the host (R360) -/

/-- A read leaves the memory, and gives what is there. -/
theorem bar2Read_gives (s : State) (a n : Nat) : (s.bar2Read a n).rdData = ofBytesLE (s.memBytes a n) ∧
    (s.bar2Read a n).rdPoison = (s.hostRead a n).2 ∧ (s.bar2Read a n).mem = s.mem := by
  have hread : KeepsMemory s (if (s.hostRead a n).2 then ((s.hostRead a n).1.bump LK_PCIE_ERR_POISON_TX).aer .poisonedSent else (s.hostRead a n).1) :=
    KeepsMemory.ite ((KeepsMemory.refl s).hostRead.bump (f := LK_PCIE_ERR_POISON_TX) (by decide)).aer (KeepsMemory.refl s).hostRead
  exact ⟨congrArg ofBytesLE (hread.memBytes a n), rfl, hread.mem⟩

/-- A host's bytes as a write gives them. -/
theorem byteFor_host (a : Nat) (data : List (Option Byte)) (x : Nat) (b : Byte) :
    ((byteFor a (data.map (Option.map BitVec.toNat)) x).map (BitVec.ofNat 8)).getD b = (data.getD (x - a) none).getD b := by
  have hget : byteFor a (data.map (Option.map BitVec.toNat)) x = (data.getD (x - a) none).map BitVec.toNat := by
    rw [byteFor, List.getD_eq_getElem?_getD, List.getD_eq_getElem?_getD, List.getElem?_map]
    cases data[x - a]? <;> rfl
  rw [hget, Option.map_map]
  cases data.getD (x - a) none with
  | none => rfl
  | some v => exact (BitVec.ofNat_toNat 8 v).trans (BitVec.setWidth_eq v)

end State

open State

/-- Settles O51: what the host reads and writes by the bytes of the memory, the port and the link by their registers. -/
theorem deviceMemoryAndHostPortAct : Obligations.DeviceMemoryAndHostPortAct := by
  refine ⟨fun s => ⟨fun addr data ep hn hend => ⟨fun hout => ?_, fun hin => ?_⟩, fun addr n hn hend => ?_, fun hpg => ⟨fun hw => ?_, fun he => ?_⟩,
    fun g hg => ⟨_, rfl, scrubPass_on s g.val hg⟩, fun g hg => congrArg Host.Outcome.next (scrubPass_off s g.val hg)⟩,
    fun v s => ⟨⟨_, rfl, rfl, rfl, rfl, rfl, reg_hostPortReset s⟩, fun hl speed width => ?_, fun hl speed width => ⟨_, rfl, ?_⟩,
      fun hup => ⟨_, rfl, pcieLinkDown_drops s hup⟩, fun vec hr hv => ⟨fun hb => ?_, fun hb => ?_⟩⟩⟩
  · refine ⟨_, if_pos ⟨hn, hend⟩, fun a => ?_⟩
    rw [byteAt_bar2Write _ _ _ _ (by rwa [List.length_map]), List.length_map, byteFor_host]
  · have hne : (data.map (Option.map BitVec.toNat)).length ≠ 0 := by rwa [List.length_map]
    obtain ⟨hregion, hopen⟩ := hin 0 (Nat.pos_of_ne_zero hn)
    have hrange := regionOf_context.1 hregion
    have hslice := mem_ctxDenied s (addr + 0) hne hregion hopen
    refine ⟨_, if_pos ⟨hn, hend⟩, ?_, ?_⟩
    · rw [bar2Write_denied _ _ _ _ (by rwa [List.length_map])]
      exact (barState_keeps ..).mem
    · rw [bar2Write_denied _ _ _ _ (by rwa [List.length_map])]
      exact denied_denyCtx (fun u => lt_of_mem_ctxDenied s addr) (by omega) (.inl hslice)
  · obtain ⟨hdata, hpoison, hmem⟩ := bar2Read_gives s addr n
    exact ⟨_, if_pos ⟨hn, hend⟩, hdata, hpoison, hmem⟩
  · have hdone : s.stackDone false = (s.dramInitDone false).modPower (fun p => { p with memW := true }) := if_neg (by simp [hpg, hw])
    refine ⟨_, congrArg Host.Outcome.next hdone, ?_, fun a => ?_⟩
    · rw [on_modPower]
      exact on_dramInitDone s false
    · rw [byteAt_modPower, byteAt_dramInitDone_west]
  · have hdone : s.stackDone true = (s.dramInitDone true).modPower (fun p => { p with memE := true }) := if_neg (by simp [hpg, he])
    refine ⟨_, congrArg Host.Outcome.next hdone, ?_, fun a => ?_⟩
    · rw [on_modPower]
      exact on_dramInitDone s true
    · rw [byteAt_modPower, byteAt_dramInitDone_east]
  · exact congrArg Host.Outcome.next (if_pos hl)
  · exact pcieLinkUp_trains s hl speed.isLt width.isLt
  · rw [exec_vecRearm vec hr hv, hb, if_pos rfl]
  · rw [exec_vecRearm vec hr hv, hb, if_neg Bool.false_ne_true]

end Sys2Proof.Machine
end

section
/-! SUPPORT. Commands to a thresher (R232, R240, R255, R265). -/

namespace Sys2Proof.Machine

namespace State

/-! ### Registers of threshers and sheaves -/

section access
variable {s : State} {v : View} (hr : s.ready = true) (hv : directView v = true)

theorem isTable_block {a : Nat} (h : a < 0x30000) : isTable a = false := decide_eq_false (by omega)

theorem isMsix_block {a : Nat} (h : a < 0x30000) : isMsix a = false := by
  rw [isMsix, Bool.or_eq_false_iff]
  exact ⟨decide_eq_false (by omega), decide_eq_false (by omega)⟩

include hr hv

theorem regWrite_thresher {i o : Nat} {d : RegD} (w : Nat) (hi : i < 32) (ho : o < 0x400) (h4 : o % 4 = 0) (hd : regAt (thBase i + o) = some d) :
    s.regWrite v (thBase i + o) w = s.writeThresher i (thBase i + o) w := by
  have hlow : thBase i + o < 0x30000 := by unfold thBase; omega
  rw [State.regWrite, regWriteWith_direct s v _ _ none (reachable_of_ready hr _) (by unfold thBase; omega) (isTable_block hlow) (isMsix_block hlow)
    (by rw [hd]; rfl) hv, writeOwn_thresher s v hi ho]

theorem mergeField_thresher {i o hi lo val : Nat} {d : RegD} (hi' : i < 32) (ho : o < 0x400) (h4 : o % 4 = 0) (hd : regAt (thBase i + o) = some d) :
    s.mergeField v ⟨thBase i + o, hi, lo⟩ val = s.writeThresher i (thBase i + o) (s.mergedWord d ⟨thBase i + o, hi, lo⟩ val) := by
  have hlow : thBase i + o < 0x30000 := by unfold thBase; omega
  rw [mergeField_direct (f := ⟨thBase i + o, hi, lo⟩) val hr hv hd (by dsimp only [thBase]; omega) (isTable_block hlow) (isMsix_block hlow),
    writeOwn_thresher s v hi' ho]

theorem regWrite_sheaf {u o : Nat} {d : RegD} (w : Nat) (hu : u < 16) (h1 : 0x800 ≤ o) (h2 : o < 0x1000) (h4 : o % 4 = 0)
    (hd : regAt (shBase u + o) = some d) : s.regWrite v (shBase u + o) w = s.writeSheaf v u (shBase u + o) w := by
  have hlow : shBase u + o < 0x30000 := by unfold shBase; omega
  rw [State.regWrite, regWriteWith_direct s v _ _ none (reachable_of_ready hr _) (by unfold shBase; omega) (isTable_block hlow) (isMsix_block hlow)
    (by rw [hd]; rfl) hv, writeOwn_sheaf s v hu h1 h2]

theorem mergeField_sheaf {u o hi lo val : Nat} {d : RegD} (hu : u < 16) (h1 : 0x800 ≤ o) (h2 : o < 0x1000) (h4 : o % 4 = 0)
    (hd : regAt (shBase u + o) = some d) :
    s.mergeField v ⟨shBase u + o, hi, lo⟩ val = s.writeSheaf v u (shBase u + o) (s.mergedWord d ⟨shBase u + o, hi, lo⟩ val) := by
  have hlow : shBase u + o < 0x30000 := by unfold shBase; omega
  rw [mergeField_direct (f := ⟨shBase u + o, hi, lo⟩) val hr hv hd (by dsimp only [shBase]; omega) (isTable_block hlow) (isMsix_block hlow),
    writeOwn_sheaf s v hu h1 h2]

end access

/-! ### TH_CTRL (R232, R265) -/

/-- Its row in the register tables. -/
def thCtrlRow : RegD := ⟨0, 1, 4, 1, 4, [⟨0, 0, .rw, false, 0⟩, ⟨1, 1, .wo, false, 0⟩, ⟨3, 2, .rw, false, 0⟩, ⟨4, 4, .rw, false, 0⟩, ⟨9, 8, .rw, false, 0⟩]⟩

/-- What a write of TH_CTRL does beside its commands: MODE, FAILMAP, HMQ and WR_BUSY. -/
def ctrlSet (s : State) (i w : Nat) : State :=
  if s.thState i ≠ 0 then
    (s.put (TH_CTRL_HMQ i) (bits w 9 8)).andThen
      (decide (bits w 3 2 ≠ 3 ∧ bits w 3 2 ≠ s.get (TH_CTRL_MODE i)) || w.testBit 4 != s.on (TH_CTRL_FAILMAP i)) (·.mark (TH_STAT_WR_BUSY i))
  else (if bits w 3 2 = 3 then s.put (TH_CTRL_HMQ i) (bits w 9 8)
    else (s.put (TH_CTRL_HMQ i) (bits w 9 8)).put (TH_CTRL_MODE i) (bits w 3 2)).put (TH_CTRL_FAILMAP i) (bits w 4 4)

theorem writeThCtrl_eq (s : State) (i w : Nat) : s.writeThCtrl i w =
    ((s.ctrlSet i w).andThen (w.testBit 1) (thRestart · i)).andThen (w.testBit 0 != s.on (TH_CTRL_RUN i)) (writeRun · i (w.testBit 0)) := rfl

/-- Settings of thresher i change at most: neither its state, nor RUN, nor its records. -/
structure KeepsRun (i : Nat) (s u : State) : Prop where
  thr : u.thr = s.thr
  state : u.thState i = s.thState i
  run : u.on (TH_CTRL_RUN i) = s.on (TH_CTRL_RUN i)
  reg : ∀ b, b ≠ TH_CTRL i → b ≠ TH_STAT i → u.reg b = s.reg b

namespace KeepsRun

variable {i : Nat} {s u : State}

theorem refl (s : State) : KeepsRun i s s := ⟨rfl, rfl, rfl, fun _ _ _ => rfl⟩

theorem trans {x : State} (h : KeepsRun i s u) (k : KeepsRun i u x) : KeepsRun i s x :=
  ⟨k.thr.trans h.thr, k.state.trans h.state, k.run.trans h.run, fun b h1 h2 => (k.reg b h1 h2).trans (h.reg b h1 h2)⟩

theorem ctrl_ne_stat (i : Nat) : TH_STAT i ≠ TH_CTRL i := by
  unfold TH_STAT TH_CTRL
  omega

/-- A setting above RUN and RESTART. -/
theorem putCtrl {hi lo v : Nat} (h : KeepsRun i s u) (hf : (Field.mk (TH_CTRL i) hi lo).fits = true) (hlo : 0 < lo) :
    KeepsRun i s (u.put ⟨TH_CTRL i, hi, lo⟩ v) := by
  refine h.trans ⟨rfl, get_put_other (f := ⟨TH_CTRL i, hi, lo⟩) (g := TH_STAT_STATE i) _ _ (ctrl_ne_stat i), ?_, fun _ hb _ => reg_put_other _ _ _ hb⟩
  refine on_eq_of_get (get_put_beside (f := ⟨TH_CTRL i, hi, lo⟩) (g := TH_CTRL_RUN i) _ _ (lo_le_hi_of_fits hf).1 (lo_le_hi_of_fits hf).2 rfl (.inl ?_))
  exact hlo

theorem markBusy (h : KeepsRun i s u) : KeepsRun i s (u.mark (TH_STAT_WR_BUSY i)) :=
  h.trans ⟨rfl, get_put_apart (f := TH_STAT_WR_BUSY i) (g := TH_STAT_STATE i) _ 1 rfl rfl rfl,
    on_eq_of_get (get_put_other (f := TH_STAT_WR_BUSY i) (g := TH_CTRL_RUN i) _ 1 (ctrl_ne_stat i).symm), fun _ _ hb => reg_put_other _ _ _ hb⟩

end KeepsRun

theorem ctrlSet_keeps (s : State) (i w : Nat) : KeepsRun i s (s.ctrlSet i w) := by
  have hhmq : KeepsRun i s (s.put (TH_CTRL_HMQ i) (bits w 9 8)) := (KeepsRun.refl s).putCtrl rfl (by decide)
  unfold ctrlSet
  split
  · unfold State.andThen
    split
    · exact hhmq.markBusy
    · exact hhmq
  · split
    · exact hhmq.putCtrl rfl (by decide)
    · exact (hhmq.putCtrl rfl (by decide)).putCtrl rfl (by decide)

section ctrl
variable {s : State} {v : View} {i : Nat} (hi : i < 32)
include hi

theorem regAt_thCtrl : regAt (TH_CTRL i) = some thCtrlRow := by
  rw [TH_CTRL, regAt_thresher hi (by decide)]
  decide +kernel

theorem shown_thCtrl : s.shown (TH_CTRL i) = (s.reg (TH_CTRL i)).toNat := by
  have hplain : s.shownFields (TH_CTRL i) = [] := by
    have hunit : s.shownFields (thBase i + 0) = s.shownThresher i (thBase i + 0) := by
      rw [State.shownFields, unitOf_thresher hi (by decide), if_neg (by unfold thBase; omega), if_neg (by unfold thBase; omega),
        if_pos (by unfold thBase; omega), if_pos (by unfold thBase; omega)]
    exact hunit.trans (if_neg (KeepsRun.ctrl_ne_stat i).symm)
  rw [State.shown, hplain]
  rfl

variable (hr : s.ready = true) (hv : directView v = true)
include hr hv

/-- A write of RUN writes settings as they stand, and RUN. -/
theorem mergeField_run (b : Bool) : ∃ w, s.mergeField v (TH_CTRL_RUN i) (b2n b) =
    (s.ctrlSet i w).andThen (b != s.on (TH_CTRL_RUN i)) (writeRun · i b) := by
  have hd := regAt_thCtrl hi
  let w := s.mergedWord thCtrlRow (TH_CTRL_RUN i) (b2n b)
  have hrun : w.testBit 0 = b := by
    rw [testBit_of_bits, show bits w 0 0 = b2n b from bits_mergedWord (f := TH_CTRL_RUN i) s hd rfl (b2n_lt_two b)]
    cases b <;> rfl
  have hrestart : w.testBit 1 = false := by
    rw [testBit_of_bits, show bits w 1 1 = 0 from bits_mergedWord_zero (f := TH_CTRL_RUN i) (x := ⟨1, 1, .wo, false, 0⟩) s (b2n b) hd rfl
      (by simp [thCtrlRow]) (.inr (by decide : 0 < 1)) rfl]
    rfl
  refine ⟨w, (mergeField_thresher hr hv hi (by decide) (by decide) hd).trans ?_⟩
  refine (if_pos rfl).trans ((writeThCtrl_eq s i w).trans ?_)
  rw [hrun, hrestart]
  rfl

/-- A write of RESTART leaves RUN. -/
theorem mergeField_restart : ∃ w, s.mergeField v (TH_CTRL_RESTART i) 1 = (s.ctrlSet i w).thRestart i := by
  have hd := regAt_thCtrl hi
  let w := s.mergedWord thCtrlRow (TH_CTRL_RESTART i) 1
  have hrestart : w.testBit 1 = true := by
    rw [testBit_of_bits, show bits w 1 1 = 1 from bits_mergedWord (f := TH_CTRL_RESTART i) s hd rfl (by decide : 1 < 2 ^ 1)]
    rfl
  have hkept : bits w 0 0 = s.get (TH_CTRL_RUN i) := by
    refine (bits_mergedWord_kept (f := TH_CTRL_RESTART i) s 1 hd rfl (List.mem_cons_self ..) (.inl (by decide : 0 < 1)) rfl).trans ?_
    exact congrArg (bits · 0 0) (shown_thCtrl hi)
  have hrun : w.testBit 0 = s.on (TH_CTRL_RUN i) := by
    rw [testBit_of_bits, hkept, get_eq_b2n_on s rfl]
    cases s.on (TH_CTRL_RUN i) <;> rfl
  refine ⟨w, (mergeField_thresher hr hv hi (by decide) (by decide) hd).trans ?_⟩
  refine (if_pos rfl).trans ((writeThCtrl_eq s i w).trans ?_)
  rw [hrestart, hrun, bne_self_eq_false]
  rfl

end ctrl

end State

end Sys2Proof.Machine
end

section
/-! SUPPORT. RUN, RESTART and TH_CMD of a thresher (R230, R232, R240, R252, R255, R265). -/

namespace Sys2Proof.Machine

namespace State

/-! ### What a discard of work leaves of the registers (R240) -/

section discard
variable (s : State) (i : Nat)

theorem reg_releaseLock : (s.releaseLock i).reg = s.reg := by
  unfold State.releaseLock
  dsimp only
  split
  · split <;> rfl
  · rfl

theorem reg_discardWork {b : Nat} (hb : b ≠ TH_CNT_WAIT i) : (s.discardWork i).reg b = s.reg b := by
  have hscramble (q : State) : (q.scramble i).reg = q.reg := rfl
  have hring : (s.waitedRing i).reg b = s.reg b := by
    unfold State.waitedRing
    split
    · rw [reg_modThr, reg_bumpBy_other _ _ _ hb]
    · rfl
  rw [State.discardWork, hscramble, reg_modThr, State.releaseWork, reg_modThr, reg_releaseLock, hring]

end discard

/-! ### RUN (R232, R240, R252) -/

section run
variable {s : State} {i : Nat}

theorem stat_ne_ctrl (i : Nat) : (TH_CTRL_RUN i).addr ≠ (TH_STAT_STATE i).addr := (KeepsRun.ctrl_ne_stat i).symm

theorem run_enterTh (n : Nat) : (s.enterTh i n).on (TH_CTRL_RUN i) = s.on (TH_CTRL_RUN i) := on_eq_of_get (get_put_other _ _ (stat_ne_ctrl i))

theorem thState_modThr (f : Thresher → Thresher) : (s.modThr i f).thState i = s.thState i := rfl

theorem thState_putRun (n : Nat) : (s.put (TH_CTRL_RUN i) n).thState i = s.thState i :=
  get_put_other (f := TH_CTRL_RUN i) (g := TH_STAT_STATE i) _ _ (stat_ne_ctrl i).symm

theorem run_put_zero : (s.put (TH_CTRL_RUN i) 0).on (TH_CTRL_RUN i) = false := by
  rw [on_put_of_fits _ _ rfl]
  rfl

/-- RUN dispatches from STOPPED. -/
theorem writeRun_starts (hl : s.on (SH_UCS_CTRL_LOAD_EN (i / 2)) = false) (h0 : s.thState i = 0) :
    (s.writeRun i true).thState i = 1 ∧ (s.writeRun i true).on (TH_CTRL_RUN i) = true := by
  have hstate : ((s.mark (TH_CTRL_RUN i)).modThr i (fun x => { x with heldStop := false })).thState i = 0 := by
    rw [thState_modThr, State.mark, thState_putRun, h0]
  have heq : s.writeRun i true = ((s.mark (TH_CTRL_RUN i)).modThr i (fun x => { x with heldStop := false })).enterTh i 1 := by
    unfold State.writeRun
    rw [if_pos rfl, if_neg (by simp [hl])]
    exact if_pos hstate
  rw [heq]
  exact ⟨thState_enterTh _ i 1 (by decide), (run_enterTh 1).trans (on_mark_of_fits s rfl)⟩

theorem writeRun_loading (hl : s.on (SH_UCS_CTRL_LOAD_EN (i / 2)) = true) : s.writeRun i true = s := by
  unfold State.writeRun
  rw [if_pos rfl, if_pos hl]

theorem writeRun_stop_idle (h : s.thState i = 1) : (s.writeRun i false).thState i = 0 ∧ (s.writeRun i false).on (TH_CTRL_RUN i) = false := by
  have heq : s.writeRun i false = (s.put (TH_CTRL_RUN i) 0).enterTh i 0 := by
    simp only [State.writeRun, thState_putRun, h, Bool.false_eq_true, if_false]
  rw [heq]
  exact ⟨thState_enterTh _ i 0 (by decide), (run_enterTh 0).trans run_put_zero⟩

/-- After its commit a routine holds the stop. -/
theorem writeRun_stop_post (h : s.thState i = 3) : (s.writeRun i false).thState i = 3 ∧ ((s.writeRun i false).thr i).heldStop = true := by
  have heq : s.writeRun i false = (s.put (TH_CTRL_RUN i) 0).modThr i (fun x => { x with heldStop := true }) := by
    simp only [State.writeRun, thState_putRun, h, Bool.false_eq_true, if_false]
  rw [heq, thr_modThr_same, thState_modThr, thState_putRun]
  exact ⟨h, rfl⟩

/-- Before it, it is abandoned. -/
theorem writeRun_stop_busy (h : s.thState i = 2) : let u := s.writeRun i false
    u.thState i = 0 ∧ u.on (TH_CTRL_RUN i) = false ∧ (u.thr i).lock = none ∧ (u.thr i).fifo = (s.thr i).fifo ∧
      u.get (TH_CNT_ABN_ABANDONS i) = min (s.get (TH_CNT_ABN_ABANDONS i) + 1) 65535 := by
  have heq : s.writeRun i false = ((s.put (TH_CTRL_RUN i) 0).abandonRoutine i).enterTh i 0 := by
    simp only [State.writeRun, thState_putRun, h, Bool.false_eq_true, if_false]
  obtain ⟨hlock, -, hfifo⟩ := thr_discardWork_kept (s.put (TH_CTRL_RUN i) 0) i
  have hthr : (((s.put (TH_CTRL_RUN i) 0).abandonRoutine i).enterTh i 0).thr i = ((s.put (TH_CTRL_RUN i) 0).discardWork i).thr i := by
    rw [thr_enterTh]
    rfl
  have hrun : ((s.put (TH_CTRL_RUN i) 0).abandonRoutine i).on (TH_CTRL_RUN i) = false := by
    refine Eq.trans (on_eq_of_get (get_eq_of_reg ?_)) (run_put_zero (s := s) (i := i))
    rw [State.abandonRoutine, reg_bump_other, reg_discardWork]
    · unfold TH_CTRL_RUN TH_CTRL TH_CNT_WAIT
      dsimp only
      omega
    · unfold TH_CTRL_RUN TH_CTRL TH_CNT_ABN_ABANDONS TH_CNT_ABN
      dsimp only
      omega
  have hcount : ((s.put (TH_CTRL_RUN i) 0).discardWork i).get (TH_CNT_ABN_ABANDONS i) = s.get (TH_CNT_ABN_ABANDONS i) := by
    refine get_eq_of_reg ?_
    rw [reg_discardWork, reg_put_other]
    · unfold TH_CNT_ABN_ABANDONS TH_CNT_ABN TH_CTRL_RUN TH_CTRL
      dsimp only
      omega
    · unfold TH_CNT_ABN_ABANDONS TH_CNT_ABN TH_CNT_WAIT
      dsimp only
      omega
  intro u
  have hu : u = ((s.put (TH_CTRL_RUN i) 0).abandonRoutine i).enterTh i 0 := heq
  rw [hu, hthr]
  refine ⟨thState_enterTh _ i 0 (by decide), (run_enterTh 0).trans hrun, hlock, hfifo, ?_⟩
  have hstat : (TH_CNT_ABN_ABANDONS i).addr ≠ (TH_STAT_STATE i).addr := by
    unfold TH_CNT_ABN_ABANDONS TH_CNT_ABN TH_STAT_STATE TH_STAT
    dsimp only
    omega
  have hbump : ((s.put (TH_CTRL_RUN i) 0).abandonRoutine i).get (TH_CNT_ABN_ABANDONS i) =
      min (((s.put (TH_CTRL_RUN i) 0).discardWork i).get (TH_CNT_ABN_ABANDONS i) + 1) 65535 :=
    (get_put_of_fits _ _ rfl).trans (Nat.mod_eq_of_lt (Nat.lt_succ_of_le (Nat.min_le_right _ _)))
  rw [State.enterTh, get_put_other _ _ hstat, hbump, hcount]

end run

/-! ### TH_CMD (R230, R255) -/

def thCmdRow : RegD := ⟨0x28, 1, 4, 1, 4, [⟨1, 0, .rw, false, 0⟩, ⟨27, 24, .rw, false, 0⟩, ⟨31, 31, .wo, false, 0⟩]⟩

section cmd
variable {s : State} {v : View} {i cmd q : Nat}

/-- GO with a command and a tiller. -/
theorem regWrite_thCmd (hr : s.ready = true) (hv : directView v = true) (hi : i < 32) (hc : cmd < 16) (hq : q < 4) :
    ∃ r, s.regWrite v (TH_CMD i) (thCmdWord cmd q) = { s with regs := r }.thCommand i cmd q := by
  have hd : regAt (TH_CMD i) = some thCmdRow := by
    rw [TH_CMD, regAt_thresher hi (by decide)]
    decide +kernel
  have hgo : (thCmdWord cmd q).testBit 31 = true := by
    rw [Nat.testBit_eq_decide_div_mod_eq, thCmdWord, decide_eq_true_eq]
    omega
  have hcmd : bits (thCmdWord cmd q) 27 24 = cmd := by
    rw [bits, Nat.shiftRight_eq_div_pow, thCmdWord]
    omega
  have htiller : thCmdWord cmd q % 4 = q := by
    rw [thCmdWord]
    omega
  have hne : TH_CMD i ≠ TH_CTRL i := by
    unfold TH_CMD TH_CTRL
    omega
  obtain ⟨r, e⟩ := s.storeWord_beside (TH_CMD i) (thCmdWord cmd q)
  refine ⟨r, ?_⟩
  refine (regWrite_thresher hr hv _ hi (by decide) (by decide) hd).trans ((if_neg hne).trans ((if_pos rfl).trans ?_))
  rw [hgo, hcmd, htiller]
  exact congrArg (State.thCommand · i cmd q) e

/-- With room, and the tiller routed to the thresher, the command enters the FIFO. -/
theorem thCommand_enters (hroom : (s.thr i).fifo.length < 16) (hroute : (s.route ((sheafTillers (i / 2)).getD q 0)).force = i % 2)
    (hc : cmd = 1 ∨ cmd = 2) : ∃ e, ((s.thCommand i cmd q).thr i).fifo = (s.thr i).fifo ++ [e] ∧ e.cmd = true ∧
      e.tiller = (sheafTillers (i / 2)).getD q 0 ∧ e.data % 16 = cmd := by
  have heq : s.thCommand i cmd q = { s.modThr i (fun x =>
      { x with fifo := x.fifo ++ [⟨cmd + 16 * freeWords s.draws 3, (sheafTillers (i / 2)).getD q 0, false, true⟩] }) with draws := s.draws + 4 } :=
    if_pos (by
      simp only [Bool.and_eq_true, decide_eq_true_eq, Bool.or_eq_true]
      exact ⟨⟨hroom, hroute⟩, hc⟩)
  refine ⟨⟨cmd + 16 * freeWords s.draws 3, (sheafTillers (i / 2)).getD q 0, false, true⟩, ?_, rfl, rfl, ?_⟩
  · rw [heq, thr_draws, thr_modThr_same]
  · dsimp only
    omega

/-- Without room it is refused. -/
theorem thCommand_full (hfull : 16 ≤ (s.thr i).fifo.length) : (s.thCommand i cmd q).on (TH_STAT_CMD_REJ i) = true ∧
    (s.thCommand i cmd q).threshers = s.threshers := by
  have heq : s.thCommand i cmd q = s.mark (TH_STAT_CMD_REJ i) := if_neg (by simp [Nat.not_lt.2 hfull])
  rw [heq]
  exact ⟨on_mark_of_fits s rfl, rfl⟩

end cmd

/-! ### The commands -/

section commands
variable {v : View} {i : Fin 32} {s : State} (hr : s.ready = true) (hv : directView v = true)
include hr hv

/-- RUN = 1 where it stands at 0. -/
theorem exec_thRun (h : s.on (TH_CTRL_RUN i.val) = false) : ∃ q, KeepsRun i.val s q ∧ exec (.thRun v i) s = .next (q.writeRun i.val true) := by
  obtain ⟨w, e⟩ := mergeField_run i.isLt hr hv true
  rw [h] at e
  exact ⟨_, ctrlSet_keeps s i.val w, congrArg Host.Outcome.next e⟩

/-- RUN = 0 where it stands at 1. -/
theorem exec_thStop (h : s.on (TH_CTRL_RUN i.val) = true) : ∃ q, KeepsRun i.val s q ∧ exec (.thStop v i) s = .next (q.writeRun i.val false) := by
  obtain ⟨w, e⟩ := mergeField_run i.isLt hr hv false
  rw [h] at e
  exact ⟨_, ctrlSet_keeps s i.val w, congrArg Host.Outcome.next e⟩

theorem exec_thRestart : ∃ q, KeepsRun i.val s q ∧ exec (.thRestart v i) s = .next (q.thRestart i.val) := by
  obtain ⟨w, e⟩ := mergeField_restart i.isLt hr hv
  exact ⟨_, ctrlSet_keeps s i.val w, congrArg Host.Outcome.next e⟩

omit hr hv in
/-- The control store's registers are none of a thresher's. -/
theorem loadEn_of_keeps {q : State} (h : KeepsRun i.val s q) : q.on (SH_UCS_CTRL_LOAD_EN (i.val / 2)) = s.on (SH_UCS_CTRL_LOAD_EN (i.val / 2)) := by
  refine on_eq_of_get (get_eq_of_reg (h.reg _ ?_ ?_))
  · unfold SH_UCS_CTRL_LOAD_EN SH_UCS_CTRL shBase TH_CTRL thBase
    dsimp only
    omega
  · unfold SH_UCS_CTRL_LOAD_EN SH_UCS_CTRL shBase TH_STAT thBase
    dsimp only
    omega

end commands

section restart
variable {s : State} {i : Nat}

theorem thState_thRestart (h : s.thState i = 4) : (s.thRestart i).thState i = if s.on (TH_CTRL_RUN i) then 1 else 0 := by
  rw [State.thRestart, if_pos h]
  exact thState_enterTh _ i _ (by split <;> decide)

theorem thr_thRestart : (s.thRestart i).thr = s.thr := by
  unfold State.thRestart
  split
  · exact thr_enterTh ..
  · rfl

end restart

end State

end Sys2Proof.Machine
end

section
/-! SUPPORT. The crossbar's routing (R231). -/

namespace Sys2Proof.Machine

namespace State

/-! ### The tillers of a sheaf -/

section sheaf
variable {u t : Nat}

theorem sheafOf_of_mem (h : t ∈ sheafTillers u) : sheafOf t = u := by
  simp only [sheafTillers, List.mem_cons, List.not_mem_nil, or_false] at h
  unfold sheafOf rowOf colOf
  omega

theorem nodup_sheafTillers (u : Nat) : (sheafTillers u).Nodup := by
  simp only [sheafTillers, List.nodup_cons, List.mem_cons, List.not_mem_nil, or_false, not_false_eq_true, List.nodup_nil, and_true]
  omega

theorem inSheaf_lt (t : Nat) : inSheaf t < 4 := by
  unfold inSheaf
  omega

end sheaf

/-! ### One tiller's bit -/

theorem showMove_eq (s : State) (t : Nat) : s.showMove t =
    s.putBit (SH_XBAR_ROUTE_PEND (sheafOf t)) (inSheaf t) ((s.route t).wait || !(s.route t).plan.isEmpty) := rfl

theorem holdsOf_showMove (s : State) (t : Nat) : (s.showMove t).holdsOf = s.holdsOf := by
  obtain ⟨⟨r, o, l, e⟩, -⟩ := showMove_signals s t
  rw [e]
  rfl

theorem holdsOf_setRoute (s : State) (t : Nat) (x : Route) : (s.setRoute t x).holdsOf = s.holdsOf := rfl
theorem fbit_setRoute (s : State) (t : Nat) (x : Route) : (s.setRoute t x).fbit = s.fbit := rfl

theorem route_source (s : State) (n q : Nat) : (s.source n).route q = s.route q := by
  obtain ⟨r, o, e⟩ := s.source_beside n
  rw [e]
  rfl

theorem route_showMove (s : State) (t q : Nat) : (s.showMove t).route q = s.route q := by
  obtain ⟨⟨r, o, l, e⟩, -⟩ := showMove_signals s t
  rw [e]
  rfl

/-- A tiller's move has touched its own route, the routing's register and a source of its sheaf at most. -/
structure KeepsRouting (u t : Nat) (s z : State) : Prop where
  routes : ∀ q, q ≠ t → z.route q = s.route q
  routed : z.get (SH_XBAR_ROUTE_ROUTE u) = s.get (SH_XBAR_ROUTE_ROUTE u)

namespace KeepsRouting

variable {u t : Nat} {a s : State}

theorem refl (s : State) : KeepsRouting u t s s := ⟨fun _ _ => rfl, rfl⟩

theorem trans {z : State} (h : KeepsRouting u t a s) (k : KeepsRouting u t s z) : KeepsRouting u t a z :=
  ⟨fun q hq => (k.routes q hq).trans (h.routes q hq), k.routed.trans h.routed⟩

theorem setRoute (h : KeepsRouting u t a s) {x : Route} : KeepsRouting u t a (s.setRoute t x) :=
  h.trans ⟨fun _ hq => route_setRoute_other s x hq, rfl⟩

theorem ite {c : Prop} [Decidable c] {x y : State} (hx : KeepsRouting u t a x) (hy : KeepsRouting u t a y) : KeepsRouting u t a (if c then x else y) := by
  split <;> assumption

variable (ht : sheafOf t = u)
include ht

theorem showMove (h : KeepsRouting u t a s) : KeepsRouting u t a (s.showMove t) := by
  refine h.trans ⟨fun q _ => route_showMove s t q, ?_⟩
  rw [showMove_eq, ht]
  exact get_put_apart _ _ rfl rfl rfl

variable (hu : u < 16)
include hu

theorem source (h : KeepsRouting u t a s) : KeepsRouting u t a (s.source (1024 + 8 * sheafOf t + 5)) := by
  obtain ⟨r, o, e⟩ := s.source_beside (1024 + 8 * sheafOf t + 5)
  refine h.trans ⟨fun _ _ => ?_, get_eq_of_reg (reg_source _ _ ?_ ?_ ?_)⟩
  · rw [e]
    rfl
  · unfold SH_XBAR_ROUTE_ROUTE SH_XBAR_ROUTE shBase EV_PEND
    dsimp only
    omega
  · unfold SH_XBAR_ROUTE_ROUTE SH_XBAR_ROUTE shBase msixPending
    dsimp only
    omega
  · unfold SH_XBAR_ROUTE_ROUTE SH_XBAR_ROUTE shBase msixPending
    dsimp only
    omega

theorem settleRoute (h : KeepsRouting u t a s) : KeepsRouting u t a (s.settleRoute t) :=
  ite h (ite h.setRoute (ite h.setRoute ((h.setRoute.showMove ht).source ht hu)))

theorem routeBoundary (h : KeepsRouting u t a s) : KeepsRouting u t a (s.routeBoundary t) :=
  ite h ((h.setRoute.showMove ht).settleRoute ht hu)

theorem writeRouteBit (h : KeepsRouting u t a s) {b : Nat} : KeepsRouting u t a (s.writeRouteBit t b) :=
  ite (ite (h.setRoute.showMove ht) h)
    (ite h (ite (h.setRoute.showMove ht) (ite (((h.setRoute.showMove ht).setRoute.showMove ht).source ht hu) ((h.setRoute.showMove ht).routeBoundary ht hu))))

end KeepsRouting

/-! ### What one bit does -/

section bit
variable {s : State} {u q b : Nat} (hu : u < 16) (hq : sheafOf q = u)

/-- The move as it begins. -/
def moving (s : State) (q : Nat) : State := (s.setRoute q { s.route q with wait := true }).showMove q

/-- It shows in the routing's register alone. -/
theorem moving_beside (s : State) (q : Nat) : ∃ r, s.moving q = { s.setRoute q { s.route q with wait := true } with regs := r } ∧
    ∀ f : Field, f.addr ≠ SH_XBAR_ROUTE (sheafOf q) → (s.moving q).get f = s.get f :=
  ⟨_, rfl, fun _ hf => get_put_other (f := SH_XBAR_ROUTE_PEND (sheafOf q)) _ _ hf⟩

theorem route_moving (s : State) (q : Nat) : (s.moving q).route q = { s.route q with wait := true } := by
  rw [moving, route_showMove, route_setRoute_same]

theorem fq_moving (s : State) (q : Nat) : (s.moving q).fq = s.fq := by
  obtain ⟨r, e, -⟩ := moving_beside s q
  rw [e]
  rfl

theorem holdsOf_moving (s : State) (q : Nat) : (s.moving q).holdsOf = s.holdsOf := by
  obtain ⟨r, e, -⟩ := moving_beside s q
  rw [e]
  rfl

theorem active_moving (s : State) (q : Nat) : (s.moving q).active q = s.active q := by
  obtain ⟨-, -, hget⟩ := moving_beside s q
  have hne : (TL_SEQ_STAT_STATE q).addr ≠ SH_XBAR_ROUTE (sheafOf q) := by
    unfold TL_SEQ_STAT_STATE TL_SEQ_STAT tlBase SH_XBAR_ROUTE shBase sheafOf rowOf colOf
    dsimp only
    omega
  rw [State.active, hget _ hne, State.active]

include hq in
theorem pend_showMove (s : State) : (s.showMove q).fbit (SH_XBAR_ROUTE_PEND u) (inSheaf q) = ((s.route q).wait || !(s.route q).plan.isEmpty) := by
  rw [showMove_eq, hq]
  exact fbit_putBit s _ rfl (inSheaf_lt q)

/-- The move as it stands once new entries go to the other thresher. -/
def movedTo (s : State) (q : Nat) (x : Route) : State := ((s.moving q).setRoute q x).showMove q

theorem route_movedTo (s : State) (q : Nat) (x : Route) : (s.movedTo q x).route q = x := by
  rw [movedTo, route_showMove, route_setRoute_same]

theorem holdsOf_movedTo (s : State) (q : Nat) (x : Route) : (s.movedTo q x).holdsOf = s.holdsOf := by
  rw [movedTo, holdsOf_showMove, holdsOf_setRoute, holdsOf_moving]

include hq in
theorem pend_movedTo (s : State) (x : Route) : (s.movedTo q x).fbit (SH_XBAR_ROUTE_PEND u) (inSheaf q) = (x.wait || !x.plan.isEmpty) := by
  rw [movedTo, pend_showMove hq, route_setRoute_same]

/-- A tiller stays where it is routed. -/
theorem writeRouteBit_stays (hw : (s.route q).wait = false) (hb : b = (s.route q).force) : s.writeRouteBit q b = s := by
  unfold State.writeRouteBit
  rw [if_neg (by simp [hw]), if_pos hb]

include hq in
/-- A write back cancels a move that waits. -/
theorem writeRouteBit_back (hw : (s.route q).wait = true) (hb : b = (s.route q).force) :
    (s.writeRouteBit q b).route q = { s.route q with wait := false } ∧
      (s.writeRouteBit q b).fbit (SH_XBAR_ROUTE_PEND u) (inSheaf q) = !(s.route q).plan.isEmpty := by
  have heq : s.writeRouteBit q b = (s.setRoute q { s.route q with wait := false }).showMove q := by
    unfold State.writeRouteBit
    rw [if_pos hw, if_pos hb]
  rw [heq, route_showMove, pend_showMove hq, route_setRoute_same]
  exact ⟨rfl, Bool.false_or _⟩

/-- What a change of the bit comes to. -/
theorem writeRouteBit_change (hw : (s.route q).wait = false) (hb : b ≠ (s.route q).force) : s.writeRouteBit q b =
    if s.active q then s.moving q
    else if (s.fq q).entries.isEmpty && !s.holdsOf (2 * sheafOf q + (s.route q).force) q then
      (s.movedTo q ⟨b, false, []⟩).source (1024 + 8 * sheafOf q + 5)
    else (s.moving q).routeBoundary q := by
  rw [← active_moving, ← fq_moving s q, ← holdsOf_moving s q]
  unfold State.writeRouteBit
  rw [if_neg (by simp [hw]), if_neg hb]
  rfl

include hq in
/-- While it is active the move waits. -/
theorem writeRouteBit_active (hw : (s.route q).wait = false) (hb : b ≠ (s.route q).force) (ha : s.active q = true) :
    (s.writeRouteBit q b).route q = { s.route q with wait := true } ∧ (s.writeRouteBit q b).fbit (SH_XBAR_ROUTE_PEND u) (inSheaf q) = true := by
  rw [writeRouteBit_change hw hb, if_pos ha, route_moving, moving, pend_showMove hq, route_setRoute_same]
  exact ⟨rfl, rfl⟩

/-- Waiting entries and records stay with the thresher they were routed to. -/
theorem settleRoute_left {n k : Nat} (hr : s.route q = ⟨b, false, [(n, k)]⟩) (h : n = 0 → k = 1 - b ∧ s.holdsOf (2 * sheafOf q + (1 - b)) q = true) :
    s.settleRoute q = s.setRoute q ⟨b, false, [(n, k)]⟩ := by
  unfold State.settleRoute
  rw [hr]
  by_cases hn : n = 0
  · obtain ⟨rfl, hh⟩ := h hn
    simp [hn, hh]
  · simp [hn]

include hq in
/-- Not active, with something left to the old thresher, it has moved for what comes. -/
theorem writeRouteBit_left (hw : (s.route q).wait = false) (hb : b ≠ (s.route q).force) (hb2 : b < 2) (hf : (s.route q).force < 2)
    (ha : s.active q = false) (hp : (s.route q).plan = [])
    (hleft : (!(s.fq q).entries.isEmpty || s.holdsOf (2 * u + (s.route q).force) q) = true) :
    (s.writeRouteBit q b).route q = ⟨b, false, [((s.fq q).entries.length, (s.route q).force)]⟩ ∧
      (s.writeRouteBit q b).fbit (SH_XBAR_ROUTE_PEND u) (inSheaf q) = true := by
  have hother : 1 - (s.route q).force = b := by omega
  have hnone : ((s.fq q).entries.isEmpty && !s.holdsOf (2 * sheafOf q + (s.route q).force) q) = false := by
    rw [hq]
    revert hleft
    cases (s.fq q).entries.isEmpty <;> cases s.holdsOf (2 * u + (s.route q).force) q <;> decide
  have hsettle : (s.movedTo q ⟨b, false, [((s.fq q).entries.length, (s.route q).force)]⟩).settleRoute q =
      (s.movedTo q ⟨b, false, [((s.fq q).entries.length, (s.route q).force)]⟩).setRoute q ⟨b, false, [((s.fq q).entries.length, (s.route q).force)]⟩ := by
    refine settleRoute_left (route_movedTo ..) fun hn => ⟨by omega, ?_⟩
    have hempty : (s.fq q).entries.isEmpty = true := List.isEmpty_iff_length_eq_zero.2 hn
    rw [hempty] at hleft
    rw [holdsOf_movedTo, hq, show 1 - b = (s.route q).force by omega]
    exact hleft
  have hbound : (s.moving q).routeBoundary q = (s.movedTo q ⟨b, false, [((s.fq q).entries.length, (s.route q).force)]⟩).settleRoute q := by
    unfold State.routeBoundary
    rw [route_moving, fq_moving]
    dsimp only
    rw [hp, hother]
    rfl
  rw [writeRouteBit_change hw hb, if_neg (by simp [ha]), if_neg (by simp [hnone]), hbound, hsettle, route_setRoute_same, fbit_setRoute]
  exact ⟨rfl, pend_movedTo hq s _⟩

include hu hq in
/-- With nothing left it has moved, and the sheaf's source fires. -/
theorem writeRouteBit_done (hw : (s.route q).wait = false) (hb : b ≠ (s.route q).force) (ha : s.active q = false)
    (hleft : (!(s.fq q).entries.isEmpty || s.holdsOf (2 * u + (s.route q).force) q) = false) :
    (s.writeRouteBit q b).route q = ⟨b, false, []⟩ ∧ (s.writeRouteBit q b).fbit (SH_XBAR_ROUTE_PEND u) (inSheaf q) = false ∧
      (s.writeRouteBit q b).fbit (EV_PEND_PEND ((1029 + 8 * u) / 32)) ((1029 + 8 * u) % 32) = true := by
  have hnone : ((s.fq q).entries.isEmpty && !s.holdsOf (2 * sheafOf q + (s.route q).force) q) = true := by
    rw [hq]
    revert hleft
    cases (s.fq q).entries.isEmpty <;> cases s.holdsOf (2 * u + (s.route q).force) q <;> decide
  have hsource : 1024 + 8 * sheafOf q + 5 = 1029 + 8 * u := by omega
  have hreg (z : State) : (z.source (1029 + 8 * u)).reg (SH_XBAR_ROUTE u) = z.reg (SH_XBAR_ROUTE u) := by
    refine reg_source _ _ ?_ ?_ ?_
    · unfold SH_XBAR_ROUTE shBase EV_PEND
      omega
    · unfold SH_XBAR_ROUTE shBase msixPending
      omega
    · unfold SH_XBAR_ROUTE shBase msixPending
      omega
  have hkept (z : State) : (z.source (1029 + 8 * u)).fbit (SH_XBAR_ROUTE_PEND u) (inSheaf q) = z.fbit (SH_XBAR_ROUTE_PEND u) (inSheaf q) :=
    congrArg (Nat.testBit · (inSheaf q)) (get_eq_of_reg (hreg z))
  rw [writeRouteBit_change hw hb, if_neg (by simp [ha]), if_pos hnone, hsource, route_source, route_movedTo, hkept, pend_movedTo hq]
  exact ⟨rfl, rfl, fbit_source _ (by omega)⟩

end bit

/-! ### A write of the routing -/

section xbar
variable {u : Nat} (hu : u < 16)

/-- The bit of a tiller in the word written. -/
def routeBit (w t : Nat) : Nat := b2n (w.testBit (inSheaf t))

/-- A tiller that the word leaves where it is. -/
def Stays (s : State) (w t : Nat) : Prop := (s.route t).wait = false ∧ (s.route t).force = routeBit w t

/-- The bits one after the other. -/
def routeBits (w : Nat) (s : State) (l : List Nat) : State := l.foldl (fun s t => s.writeRouteBit t (routeBit w t)) s

theorem writeXbar_eq (s : State) (u w : Nat) : s.writeXbar u w = routeBits w (s.put (SH_XBAR_ROUTE_ROUTE u) w) (sheafTillers u) := rfl

theorem routeBits_stay {s : State} {w : Nat} {l : List Nat} (h : ∀ t ∈ l, Stays s w t) : routeBits w s l = s := by
  induction l with
  | nil => rfl
  | cons t l ih =>
    obtain ⟨hw, hf⟩ := h t (List.mem_cons_self ..)
    rw [routeBits, List.foldl_cons, writeRouteBit_stays hw hf.symm]
    exact ih fun t ht => h t (List.mem_cons_of_mem _ ht)

include hu

/-- Where all others stay, the write is that of one tiller's bit. -/
theorem routeBits_one {s : State} {w q : Nat} {l : List Nat} (hl : ∀ t ∈ l, sheafOf t = u) (hn : l.Nodup) (hq : q ∈ l)
    (h : ∀ t ∈ l, t ≠ q → Stays s w t) : routeBits w s l = s.writeRouteBit q (routeBit w q) := by
  induction l with
  | nil => exact absurd hq List.not_mem_nil
  | cons t l ih =>
    obtain ⟨hnot, hrest⟩ := List.nodup_cons.1 hn
    rw [routeBits, List.foldl_cons]
    by_cases e : t = q
    · subst e
      have hkeeps : KeepsRouting u t s (s.writeRouteBit t (routeBit w t)) := (KeepsRouting.refl s).writeRouteBit (hl t (List.mem_cons_self ..)) hu
      refine routeBits_stay fun p hp => ?_
      have hne : p ≠ t := fun e => hnot (e ▸ hp)
      rw [Stays, hkeeps.routes p hne]
      exact h p (List.mem_cons_of_mem _ hp) hne
    · obtain ⟨hw, hf⟩ := h t (List.mem_cons_self ..) e
      rw [writeRouteBit_stays hw hf.symm]
      exact ih (fun t ht => hl t (List.mem_cons_of_mem _ ht)) hrest ((List.mem_cons.1 hq).resolve_left (Ne.symm e))
        fun p hp => h p (List.mem_cons_of_mem _ hp)

theorem route_routeBits {s : State} {w : Nat} {l : List Nat} (hl : ∀ t ∈ l, sheafOf t = u) :
    (routeBits w s l).get (SH_XBAR_ROUTE_ROUTE u) = s.get (SH_XBAR_ROUTE_ROUTE u) := by
  induction l generalizing s with
  | nil => rfl
  | cons t l ih =>
    have hkeeps : KeepsRouting u t s (s.writeRouteBit t (routeBit w t)) := (KeepsRouting.refl s).writeRouteBit (hl t (List.mem_cons_self ..)) hu
    exact (ih fun t ht => hl t (List.mem_cons_of_mem _ ht)).trans hkeeps.routed

theorem route_writeXbar (s : State) (w : Nat) : (s.writeXbar u w).get (SH_XBAR_ROUTE_ROUTE u) = w % 16 := by
  rw [writeXbar_eq, route_routeBits hu fun t ht => sheafOf_of_mem ht]
  exact get_put_of_fits _ _ rfl

end xbar

end State

end Sys2Proof.Machine
end

section
/-! SUPPORT. The control store's registers (R251, R252, R254), and O42 settled. -/

namespace Sys2Proof.Machine

namespace State

/-! ### Loading the control store (R252) -/

/-- The rows of its registers in the register tables. -/
def ucsCtrlRow : RegD := ⟨0x804, 1, 4, 1, 4, [⟨13, 0, .rw, true, 0⟩, ⟨30, 30, .w1c, true, 0⟩, ⟨31, 31, .rw, true, 0⟩]⟩
def ucsDataRow : RegD := ⟨0x810, 8, 4, 1, 4, [⟨31, 0, .wo, true, 0⟩]⟩
def ucsFinishRow : RegD := ⟨0x830, 1, 4, 1, 4, [⟨15, 0, .wo, true, 0⟩, ⟨23, 16, .wo, true, 0⟩, ⟨31, 31, .wo, true, 0⟩]⟩
def ucrdAddrRow : RegD := ⟨0x8c0, 1, 4, 1, 4, [⟨13, 0, .rw, false, 0⟩, ⟨31, 31, .w1c, false, 0⟩]⟩
def xbarRow : RegD := ⟨0xc00, 1, 4, 1, 4, [⟨3, 0, .rw, false, 0xc⟩, ⟨7, 4, .ro, false, 0⟩]⟩

section store
variable {s : State} {v : View} {u : Nat} (hu : u < 16)
include hu

theorem regAt_ucsCtrl : regAt (SH_UCS_CTRL u) = some ucsCtrlRow := by
  rw [SH_UCS_CTRL, regAt_sheaf hu (by decide) (by decide)]
  decide +kernel

theorem regAt_ucsData {k : Nat} (hk : k < 8) : regAt (shBase u + (0x810 + 4 * k)) = some ucsDataRow := by
  rw [regAt_sheaf hu (by omega) (by omega)]
  have hrows : ∀ k : Fin 8, sheafRegs.find? (fun d => d.has (0x810 + 4 * k.val)) = some ucsDataRow := by decide +kernel
  exact hrows ⟨k, hk⟩

theorem regAt_ucsFinish : regAt (SH_UCS_FINISH u) = some ucsFinishRow := by
  rw [SH_UCS_FINISH, regAt_sheaf hu (by decide) (by decide)]
  decide +kernel

theorem regAt_ucrdAddr : regAt (SH_UCRD_ADDR u) = some ucrdAddrRow := by
  rw [SH_UCRD_ADDR, regAt_sheaf hu (by decide) (by decide)]
  decide +kernel

theorem regAt_xbar : regAt (SH_XBAR_ROUTE u) = some xbarRow := by
  rw [SH_XBAR_ROUTE, regAt_sheaf hu (by decide) (by decide)]
  decide +kernel

variable (hr : s.ready = true) (hv : directView v = true)
include hr hv

/-- LOAD_EN = 1 where it stands at 0. -/
theorem mergeField_loadEn (h : s.on (SH_UCS_CTRL_LOAD_EN u) = false) : ∃ a, s.mergeField v (SH_UCS_CTRL_LOAD_EN u) 1 =
    (s.put (SH_UCS_CTRL_ADDR u) a).ucsLoadEn u true := by
  have hd := regAt_ucsCtrl hu
  let w := s.mergedWord ucsCtrlRow (SH_UCS_CTRL_LOAD_EN u) 1
  have hload : w.testBit 31 = true := by
    rw [testBit_of_bits, show bits w 31 31 = 1 from bits_mergedWord (f := SH_UCS_CTRL_LOAD_EN u) s hd rfl (by decide : 1 < 2 ^ 1)]
    rfl
  have hrefused : w.testBit 30 = false := by
    rw [testBit_of_bits, show bits w 30 30 = 0 from bits_mergedWord_zero (f := SH_UCS_CTRL_LOAD_EN u) (x := ⟨30, 30, .w1c, true, 0⟩) s 1 hd rfl
      (by simp [ucsCtrlRow]) (.inl (by decide : 30 < 31)) rfl]
    rfl
  have hwrite : s.writeUcsCtrl u w = (s.put (SH_UCS_CTRL_ADDR u) (bits w 13 0)).ucsLoadEn u true := by
    unfold State.writeUcsCtrl State.andThen
    rw [hload, hrefused, h, if_neg Bool.false_ne_true]
    exact if_pos rfl
  refine ⟨bits w 13 0, (mergeField_sheaf hr hv hu (by decide) (by decide) (by decide) hd).trans ?_⟩
  exact (if_pos rfl).trans hwrite

/-- A data register takes a word. -/
theorem regWrite_ucsData {k : Nat} (hk : k < 8) (w : Nat) : s.regWrite v (SH_UCS_DATA u k) w = s.ucsData u k w := by
  have hindex : arrayIndex (shBase u + (0x810 + 4 * k)) (SH_UCS_DATA u 0) 4 8 = some k := by
    unfold arrayIndex SH_UCS_DATA
    rw [if_pos (by omega)]
    congr 1
    omega
  rw [SH_UCS_DATA, Nat.add_assoc, regWrite_sheaf hr hv w hu (by omega) (by omega) (by omega) (regAt_ucsData hu hk)]
  unfold State.writeSheaf SH_UCS_CTRL SH_UCS_FINISH SH_UCRD_ADDR SH_XBAR_ROUTE
  rw [if_neg (by omega), if_neg (by omega), if_neg (by omega), if_neg (by omega), hindex]

theorem regWrite_ucsFinish {w : Nat} (h : w.testBit 31 = true) :
    s.regWrite v (SH_UCS_FINISH u) w = s.ucsFinish u (uploadPath v) (bits w 23 16) (bits w 15 0) := by
  have hne : SH_UCS_FINISH u ≠ SH_UCS_CTRL u := by
    unfold SH_UCS_FINISH SH_UCS_CTRL
    omega
  refine (regWrite_sheaf hr hv w hu (by decide) (by decide) (by decide) (regAt_ucsFinish hu)).trans ((if_neg hne).trans ((if_pos rfl).trans ?_))
  exact if_pos h

theorem regWrite_ucrdAddr (w : Nat) : s.regWrite v (SH_UCRD_ADDR u) w = (s.storeWord (SH_UCRD_ADDR u) w).present u := by
  have hctrl : SH_UCRD_ADDR u ≠ SH_UCS_CTRL u := by
    unfold SH_UCRD_ADDR SH_UCS_CTRL
    omega
  have hfinish : SH_UCRD_ADDR u ≠ SH_UCS_FINISH u := by
    unfold SH_UCRD_ADDR SH_UCS_FINISH
    omega
  exact (regWrite_sheaf hr hv w hu (by decide) (by decide) (by decide) (regAt_ucrdAddr hu)).trans
    ((if_neg hctrl).trans ((if_neg hfinish).trans (if_pos rfl)))

theorem regWrite_xbar (w : Nat) : s.regWrite v (SH_XBAR_ROUTE u) w = s.writeXbar u w := by
  refine (regWrite_sheaf hr hv w hu (by decide) (by decide) (by decide) (regAt_xbar hu)).trans ?_
  rw [← SH_XBAR_ROUTE]
  unfold State.writeSheaf SH_UCS_CTRL SH_UCS_FINISH SH_UCRD_ADDR SH_XBAR_ROUTE
  rw [if_neg (by omega), if_neg (by omega), if_neg (by omega), if_pos rfl]

end store

/-! ### What they do -/

section loading
variable {s : State} {u : Nat}

theorem thState_putAddr (a i : Nat) : (s.put (SH_UCS_CTRL_ADDR u) a).thState i = s.thState i := by
  refine get_put_other (f := SH_UCS_CTRL_ADDR u) (g := TH_STAT_STATE i) _ _ ?_
  unfold TH_STAT_STATE TH_STAT thBase SH_UCS_CTRL_ADDR SH_UCS_CTRL shBase
  dsimp only
  omega

/-- The control store opens where both threshers are STOPPED. -/
theorem ucsLoadEn_opens (a : Nat) (h0 : s.thState (2 * u) = 0) (h1 : s.thState (2 * u + 1) = 0) :
    ((s.put (SH_UCS_CTRL_ADDR u) a).ucsLoadEn u true).on (SH_UCS_CTRL_LOAD_EN u) = true := by
  unfold State.ucsLoadEn
  rw [if_neg (by decide), if_pos (by simp [thState_putAddr, h0, h1])]
  exact on_mark_of_fits _ rfl

/-- Otherwise it is refused. -/
theorem ucsLoadEn_refused (a : Nat) (hl : s.on (SH_UCS_CTRL_LOAD_EN u) = false) (h0 : s.thState (2 * u) ≠ 0) :
    ((s.put (SH_UCS_CTRL_ADDR u) a).ucsLoadEn u true).on (SH_UCS_CTRL_LOAD_EN u) = false ∧
      ((s.put (SH_UCS_CTRL_ADDR u) a).ucsLoadEn u true).on (SH_UCS_CTRL_REFUSED u) = true := by
  have haddr : (s.put (SH_UCS_CTRL_ADDR u) a).on (SH_UCS_CTRL_LOAD_EN u) = s.on (SH_UCS_CTRL_LOAD_EN u) :=
    on_eq_of_get (get_put_apart s a (f := SH_UCS_CTRL_ADDR u) rfl rfl rfl)
  have hmark (q : State) : (q.mark (SH_UCS_CTRL_REFUSED u)).on (SH_UCS_CTRL_LOAD_EN u) = q.on (SH_UCS_CTRL_LOAD_EN u) :=
    on_eq_of_get (get_put_apart q 1 (f := SH_UCS_CTRL_REFUSED u) rfl rfl rfl)
  unfold State.ucsLoadEn
  rw [if_neg (by decide), if_neg (by simp [thState_putAddr, h0]), hmark, haddr]
  exact ⟨hl, on_mark_of_fits _ rfl⟩

variable {k w : Nat} (hl : s.on (SH_UCS_CTRL_LOAD_EN u) = true)
include hl

/-- The data registers with one of them written. -/
def withData (s : State) (u k w : Nat) : Store Nat := storeSet (fun _ => 0) (s.sheaf u).data k w

/-- DATA0 to DATA6 hold what is written. -/
theorem ucsData_holds (hk : k ≠ 7) : s.ucsData u k w = s.setSheaf u { s.sheaf u with data := withData s u k w } := by
  unfold State.ucsData
  rw [if_neg (by simp [hl])]
  exact if_pos hk

/-- The word that the eight data registers spell. -/
def dataWord (d : Store Nat) : Nat := (List.range 8).foldl (fun n i => n + storeGet (fun _ => 0) d i * 2 ^ (32 * i)) 0

/-- DATA7 stores the word and advances the address. -/
theorem ucsData_stores : ∃ x : Sheaf, s.ucsData u 7 w = (s.setSheaf u x).wrapUp (SH_UCS_CTRL_ADDR u) ∧
    x.words = storeSet (fun _ => none) (s.sheaf u).words (s.get (SH_UCS_CTRL_ADDR u)) (some (dataWord (withData s u 7 w))) := by
  unfold State.ucsData
  dsimp only
  rw [if_neg (by simp [hl]), if_neg (by decide)]
  exact ⟨_, rfl, rfl⟩

omit hl in
/-- The first n of them spell a number of 32 n bits. -/
theorem foldl_words_lt (d : Store Nat) (n : Nat) (h : ∀ k, k < n → storeGet (fun _ => 0) d k < 2 ^ 32) :
    (List.range n).foldl (fun n i => n + storeGet (fun _ => 0) d i * 2 ^ (32 * i)) 0 < 2 ^ (32 * n) := by
  induction n with
  | zero => exact Nat.one_pos
  | succ n ih =>
    rw [List.range_succ, List.foldl_append, List.foldl_cons, List.foldl_nil]
    calc _ < 2 ^ (32 * n) + storeGet (fun _ => 0) d n * 2 ^ (32 * n) := Nat.add_lt_add_right (ih fun k hk => h k (Nat.lt_succ_of_lt hk)) _
      _ = (storeGet (fun _ => 0) d n + 1) * 2 ^ (32 * n) := by rw [Nat.add_mul, Nat.one_mul, Nat.add_comm]
      _ ≤ 2 ^ 32 * 2 ^ (32 * n) := Nat.mul_le_mul_right _ (h n (Nat.lt_succ_self n))
      _ = 2 ^ (32 * (n + 1)) := by rw [← Nat.pow_add, Nat.mul_succ, Nat.add_comm]

omit hl in
/-- Its upper eighth is what DATA7 was given. -/
theorem dataWord_top (hd : ∀ k, k < 7 → storeGet (fun _ => 0) (s.sheaf u).data k < 2 ^ 32) : dataWord (withData s u 7 w) / 2 ^ 224 = w := by
  have hsame : storeGet (fun _ => 0) (withData s u 7 w) 7 = w := storeGet_storeSet_same ..
  have hlow := foldl_words_lt (withData s u 7 w) 7 fun k hk => by
    have hother : storeGet (fun _ => 0) (withData s u 7 w) k = storeGet (fun _ => 0) (s.sheaf u).data k := storeGet_storeSet_other _ _ hk.ne
    exact hother ▸ hd k hk
  rw [dataWord, List.range_succ, List.foldl_append, List.foldl_cons, List.foldl_nil, hsame]
  rw [Nat.add_mul_div_right _ _ (Nat.two_pow_pos _), Nat.div_eq_of_lt hlow, Nat.zero_add]

theorem get_addr_ucsData : (s.ucsData u 7 w).get (SH_UCS_CTRL_ADDR u) = (s.get (SH_UCS_CTRL_ADDR u) + 1) % 2 ^ 14 := by
  obtain ⟨x, e, -⟩ := ucsData_stores (w := w) hl
  rw [e, State.wrapUp, get_put_of_fits _ _ rfl]
  rfl

theorem words_ucsData : storeGet (fun _ => none) ((s.ucsData u 7 w).sheaf u).words (s.get (SH_UCS_CTRL_ADDR u)) = some (dataWord (withData s u 7 w)) := by
  obtain ⟨x, e, hx⟩ := ucsData_stores (w := w) hl
  rw [e, State.wrapUp, sheaf_put, sheaf_setSheaf_same, hx, storeGet_storeSet_same]

/-- The image is finished with its version and hash. -/
theorem ucsFinish_done {src version hash : Nat} (hver : version < 2 ^ 8) (hhash : hash < 2 ^ 16) :
    (s.ucsFinish u src version hash).on (SH_UCS_CTRL_LOAD_EN u) = false ∧ (s.ucsFinish u src version hash).get (SH_UC_VERSION_VERSION u) = version ∧
      (s.ucsFinish u src version hash).get (SH_UC_VERSION_HASH u) = hash := by
  have heq : s.ucsFinish u src version hash =
      (((s.put (SH_UC_VERSION_SRC u) src).put (SH_UC_VERSION_VERSION u) version).put (SH_UC_VERSION_HASH u) hash).put (SH_UCS_CTRL_LOAD_EN u) 0 :=
    if_neg (by simp [hl])
  have hctrl (q : State) {g : Field} (hg : g.addr = SH_UC_VERSION u) : (q.put (SH_UCS_CTRL_LOAD_EN u) 0).get g = q.get g := by
    refine get_put_other _ _ ?_
    rw [hg]
    unfold SH_UC_VERSION SH_UCS_CTRL_LOAD_EN SH_UCS_CTRL
    dsimp only
    omega
  have hbeside (q : State) : (q.put (SH_UC_VERSION_HASH u) hash).get (SH_UC_VERSION_VERSION u) = q.get (SH_UC_VERSION_VERSION u) :=
    get_put_apart q hash (f := SH_UC_VERSION_HASH u) rfl rfl rfl
  rw [heq, on_put_of_fits _ _ rfl, hctrl _ rfl, hctrl _ rfl, hbeside, get_put_of_fits _ _ rfl, get_put_of_fits _ _ rfl]
  exact ⟨rfl, Nat.mod_eq_of_lt hver, Nat.mod_eq_of_lt hhash⟩

end loading

/-! ### The read port (R254) -/

section port
variable {s : State} {u : Nat}

theorem present_eq (hinj : s.on FC_INJ_STAT_ARMED = false) : s.present u =
    (List.range 8).foldl (fun q k => q.put (SH_UCRD_D_DATA u k) (word32 (s.ucWord u (s.get (SH_UCRD_ADDR_ADDR u))) k)) s := by
  simp only [State.present, inject_of_not_armed hinj]
  rfl

variable (hu : u < 16) (hinj : s.on FC_INJ_STAT_ARMED = false) (w : Nat)
include hu

theorem fieldTakes_ucrdAddr (n : Nat) : fieldTakes (kindOf (SH_UCRD_ADDR u)) 0 n = some n := by
  have free : fieldLimits.find? (fun e => e.1 = 0x20000 + 0x8c0 && e.2.1 = 0) = none ∧ arrayLimit (0x20000 + 0x8c0) 0 = none := by
    decide +kernel
  rw [SH_UCRD_ADDR, kindOf_sheaf hu (by decide) (by decide)]
  exact fieldTakes_of_free free.1 free.2 n

theorem get_addr_storeWord : (s.storeWord (SH_UCRD_ADDR u) w).get (SH_UCRD_ADDR_ADDR u) = w % 2 ^ 14 :=
  get_storeWord_rw (f := SH_UCRD_ADDR_ADDR u) s w (regAt_ucrdAddr hu) (List.mem_cons_self ..) rfl ⟨rfl, rfl⟩ (fieldTakes_ucrdAddr hu)

include hinj

/-- The word at the address written is presented. -/
theorem present_storeWord : ((s.storeWord (SH_UCRD_ADDR u) w).present u).get (SH_UCRD_ADDR_ADDR u) = w % 2 ^ 14 ∧
    ∀ k, k < 8 → ((s.storeWord (SH_UCRD_ADDR u) w).present u).get (SH_UCRD_D_DATA u k) = word32 (s.ucWord u (w % 2 ^ 14)) k := by
  have hnot : (s.storeWord (SH_UCRD_ADDR u) w).on FC_INJ_STAT_ARMED = false := by
    refine (on_eq_of_get (get_eq_of_reg (reg_storeWord_other s w ?_))).trans hinj
    unfold FC_INJ_STAT_ARMED FC_INJ_STAT SH_UCRD_ADDR shBase
    dsimp only
    omega
  have hword (n : Nat) : (s.storeWord (SH_UCRD_ADDR u) w).ucWord u n = s.ucWord u n := by
    obtain ⟨r, e⟩ := s.storeWord_beside (SH_UCRD_ADDR u) w
    rw [e]
    rfl
  refine ⟨(get_eq_of_reg (reg_present hnot fun k hk => ?_)).trans (get_addr_storeWord hu w), fun k hk => ?_⟩
  · unfold SH_UCRD_ADDR_ADDR SH_UCRD_ADDR SH_UCRD_D
    dsimp only
    omega
  · rw [present_eq hnot, get_addr_storeWord hu, hword]
    refine get_foldl_put (f := SH_UCRD_D_DATA u) (fun _ => rfl) (fun j => ?_) (fun i j h => ?_) _ hk
    · exact (bits_lt ..).trans_eq (congrArg (2 ^ ·) (show 32 * j + 31 + 1 - 32 * j = 32 by omega))
    · unfold SH_UCRD_D_DATA SH_UCRD_D
      dsimp only
      omega

end port

theorem routes_put (s : State) (f : Field) (n : Nat) : (s.put f n).routes = s.routes := by
  simp only [State.put, State.setReg]

theorem holdsOf_put (s : State) (f : Field) (n : Nat) : (s.put f n).holdsOf = s.holdsOf := rfl

theorem stays_put {s : State} {w t : Nat} (h : Stays s w t) (f : Field) (n : Nat) : Stays (s.put f n) w t := by
  rw [Stays, route_put]
  exact h

/-- Where all stay, no route changes. -/
theorem routes_writeXbar {s : State} {u w : Nat} (h : ∀ t ∈ sheafTillers u, Stays s w t) : (s.writeXbar u w).routes = s.routes := by
  rw [writeXbar_eq, routeBits_stay fun t ht => stays_put (h t ht) _ _, routes_put]

theorem active_putRoute (s : State) (u w q : Nat) : (s.put (SH_XBAR_ROUTE_ROUTE u) w).active q = s.active q := by
  have hkept : (s.put (SH_XBAR_ROUTE_ROUTE u) w).get (TL_SEQ_STAT_STATE q) = s.get (TL_SEQ_STAT_STATE q) := by
    refine get_put_other _ _ ?_
    unfold TL_SEQ_STAT_STATE TL_SEQ_STAT tlBase SH_XBAR_ROUTE_ROUTE SH_XBAR_ROUTE shBase
    dsimp only
    omega
  rw [State.active, hkept, State.active]

end State

open State

/-- Settles O42: each command by what its register's write comes to, the moves of a tiller by what its bit does. -/
theorem threshersAndSheavesObeyCommands : Obligations.ThreshersAndSheavesObeyCommands := by
  refine ⟨fun v i s hr hv => ⟨fun hrun h0 hl => ?_, fun hrun hl => ?_, fun hrun => ⟨fun h1 => ?_, fun h2 => ?_, fun h3 => ?_⟩, fun h4 => ?_, ?_, ?_⟩,
    fun v u w s hr hv => ⟨?_, ?_, ?_, ?_, ?_, fun hl => ⟨fun hd => ?_, fun hgo => ?_⟩, ?_⟩⟩
  · obtain ⟨q, hq, e⟩ := exec_thRun (i := i) hr hv hrun
    exact ⟨_, e, writeRun_starts ((loadEn_of_keeps hq).trans hl) (hq.state.trans h0)⟩
  · obtain ⟨q, hq, e⟩ := exec_thRun (i := i) hr hv hrun
    rw [writeRun_loading ((loadEn_of_keeps hq).trans hl)] at e
    exact ⟨_, e, hq.state, hq.run.trans hrun⟩
  · obtain ⟨q, hq, e⟩ := exec_thStop (i := i) hr hv hrun
    exact ⟨_, e, writeRun_stop_idle (hq.state.trans h1)⟩
  · obtain ⟨q, hq, e⟩ := exec_thStop (i := i) hr hv hrun
    obtain ⟨hstate, hoff, hlock, hfifo, hcount⟩ := writeRun_stop_busy (hq.state.trans h2)
    have habandons : q.get (TH_CNT_ABN_ABANDONS i.val) = s.get (TH_CNT_ABN_ABANDONS i.val) := by
      refine get_eq_of_reg (hq.reg _ ?_ ?_)
      · unfold TH_CNT_ABN_ABANDONS TH_CNT_ABN TH_CTRL
        dsimp only
        omega
      · unfold TH_CNT_ABN_ABANDONS TH_CNT_ABN TH_STAT
        dsimp only
        omega
    rw [habandons] at hcount
    exact ⟨_, e, hstate, hoff, hlock, by rw [hfifo, hq.thr], hcount⟩
  · obtain ⟨q, hq, e⟩ := exec_thStop (i := i) hr hv hrun
    exact ⟨_, e, writeRun_stop_post (hq.state.trans h3)⟩
  · obtain ⟨q, hq, e⟩ := exec_thRestart (i := i) hr hv
    have hstate := thState_thRestart (hq.state.trans h4)
    rw [hq.run] at hstate
    exact ⟨_, e, hstate, by rw [thr_thRestart, hq.thr]⟩
  · intro q hroom t hroute
    have enters {cmd : Nat} (hc : cmd = 1 ∨ cmd = 2) : ∃ u e, Host.Outcome.next (s.regWrite v (TH_CMD i.val) (thCmdWord cmd q.val)) =
        (.next u : Host.Outcome State Fault Refusal) ∧ (u.thr i.val).fifo = (s.thr i.val).fifo ++ [e] ∧ e.cmd = true ∧ e.tiller = t ∧ e.data % 16 = cmd := by
      obtain ⟨r, e⟩ := regWrite_thCmd (s := s) (q := q.val) hr hv i.isLt (show cmd < 16 by omega) q.isLt
      obtain ⟨x, hx⟩ := thCommand_enters (s := { s with regs := r }) (q := q.val) hroom hroute hc
      exact ⟨_, x, congrArg Host.Outcome.next e, hx⟩
    exact ⟨enters (.inl rfl), enters (.inr rfl)⟩
  · intro q hfull
    have refused {cmd : Nat} (hc : cmd < 16) : ∃ u, Host.Outcome.next (s.regWrite v (TH_CMD i.val) (thCmdWord cmd q.val)) =
        (.next u : Host.Outcome State Fault Refusal) ∧ u.on (TH_STAT_CMD_REJ i.val) = true ∧ u.threshers = s.threshers := by
      obtain ⟨r, e⟩ := regWrite_thCmd (s := s) (q := q.val) hr hv i.isLt hc q.isLt
      exact ⟨_, congrArg Host.Outcome.next e, thCommand_full (s := { s with regs := r }) hfull⟩
    exact ⟨refused (by decide), refused (by decide)⟩
  · exact ⟨_, congrArg Host.Outcome.next (regWrite_xbar u.isLt hr hv w.toNat), route_writeXbar u.isLt s w.toNat⟩
  · have hwrite := regWrite_xbar u.isLt hr hv w.toNat
    intro stays
    refine ⟨fun hstays => ⟨_, congrArg Host.Outcome.next hwrite, routes_writeXbar hstays⟩, fun q hq hothers hforce => ?_⟩
    · intro r b becomes waiting
      have hone := hwrite.trans ((writeXbar_eq s u.val w.toNat).trans (routeBits_one (s := s.put (SH_XBAR_ROUTE_ROUTE u.val) w.toNat) u.isLt
        (fun t ht => sheafOf_of_mem ht) (nodup_sheafTillers u.val) hq fun p hp hne => stays_put (hothers p hp hne) _ _))
      have hsheaf := sheafOf_of_mem hq
      have hactive := active_putRoute s u.val w.toNat q
      have hback := writeRouteBit_back (s := s.put (SH_XBAR_ROUTE_ROUTE u.val) w.toNat) (b := b) hsheaf
      have hkeep := writeRouteBit_active (s := s.put (SH_XBAR_ROUTE_ROUTE u.val) w.toNat) (b := b) hsheaf
      have hleave := writeRouteBit_left (s := s.put (SH_XBAR_ROUTE_ROUTE u.val) w.toNat) (b := b) hsheaf
      have hdone := writeRouteBit_done (s := s.put (SH_XBAR_ROUTE_ROUTE u.val) w.toNat) (b := b) u.isLt hsheaf
      rw [route_put] at hback hkeep hleave hdone
      rw [hactive] at hkeep hleave hdone
      rw [fq_put, holdsOf_put] at hleave hdone
      refine ⟨fun hw hb => ⟨_, congrArg Host.Outcome.next hone, hback hw hb⟩,
        fun hw hb ha => ⟨_, congrArg Host.Outcome.next hone, hkeep hw hb ha⟩,
        fun hw hb ha hp hleft => ⟨_, congrArg Host.Outcome.next hone, hleave hw hb (b2n_lt_two _) hforce ha hp hleft⟩,
        fun hw hb ha hleft => ?_⟩
      obtain ⟨hroute, hpend, hsource⟩ := hdone hw hb ha hleft
      exact ⟨⟨_, congrArg Host.Outcome.next hone, hroute, hpend⟩, ⟨_, congrArg Host.Outcome.next hone, hsource⟩⟩
  · intro hl h0 h1
    obtain ⟨a, e⟩ := mergeField_loadEn u.isLt hr hv hl
    exact ⟨_, congrArg Host.Outcome.next e, ucsLoadEn_opens a h0 h1⟩
  · intro hl h0
    obtain ⟨a, e⟩ := mergeField_loadEn u.isLt hr hv hl
    exact ⟨_, congrArg Host.Outcome.next e, ucsLoadEn_refused a hl h0⟩
  · intro k hl hk
    refine ⟨_, congrArg Host.Outcome.next ((regWrite_ucsData u.isLt hr hv k.isLt w.toNat).trans (ucsData_holds hl hk)), ?_, ?_, rfl⟩
    · rw [sheaf_setSheaf_same]
      exact storeGet_storeSet_same ..
    · rw [sheaf_setSheaf_same]
  · exact ⟨_, congrArg Host.Outcome.next (regWrite_ucsData u.isLt hr hv (by decide) w.toNat), get_addr_ucsData hl, _, words_ucsData hl, dataWord_top hd⟩
  · exact ⟨_, congrArg Host.Outcome.next (regWrite_ucsFinish u.isLt hr hv hgo), ucsFinish_done hl (bits_lt ..) (bits_lt ..)⟩
  · exact fun hinj => ⟨_, congrArg Host.Outcome.next (regWrite_ucrdAddr u.isLt hr hv w.toNat), present_storeWord u.isLt hinj w.toNat⟩

end Sys2Proof.Machine
end
